-- ==== Sys2Proof/Word.lean ====
section
/-! DEFINITION. Word.lean: the word types of the Drirati (02 R28, R29) and the index types of its parts (00, Table: Numbering of parts). -/
namespace Sys2Proof

/-- A value byte, or the tag byte of a word (02 R28). -/
abbrev Byte := BitVec 8

/-- The 64-bit value of a word (02 R28). -/
abbrev Word := BitVec 64

/-- A 72-bit word: a value and its Q-tag (02 R28). -/
structure QWord where
  val : Word
  tag : Byte
deriving DecidableEq, Repr

/-- Value 0 under tag 0x00, plain data (02 R40). -/
def QWord.zero : QWord := ⟨0, 0⟩

/-- Hardware thread 8 × core + thread, core = 8 × cluster + core (09 R350, 16 R607). -/
abbrev Thr := Fin 1536
/-- Core 8 × cluster + core. -/
abbrev CoreId := Fin 192
/-- General register w0 to w31. -/
abbrev GReg := Fin 32
abbrev BankId := Fin 24
abbrev CtlId := Fin 8
abbrev ClassId := Fin 8
abbrev PortId := Fin 128
abbrev InstId := Fin 256
abbrev PartId := Fin 16
abbrev ClusterId := Fin 24
abbrev ChanId := Fin 16
abbrev RootId := Fin 32

/-- A physical address names a value byte (02 R29, 21 R690). -/
abbrev PAddr := BitVec 46

end Sys2Proof
end

