-- ==== Sys2Proof/Syntax.lean ====
section
/-! DEFINITION. Syntax: the commands of the block, one constructor per row of spec/opcode_table.json, and the operand types they carry. -/
namespace Sys2Proof

/-- Who performs a register access (21 R695): Oasis, the debug bus master, or a hardware thread. -/
inductive Agent where
  | oasis
  | debug
  | thread (t : Thr)
deriving DecidableEq, Repr

/-- The credit-based queues the register blocks list (01 R13; 03 BK_STAT and IMG_CREDIT, 05 PORT_STATUS, 06 PI_STATUS, 07 TWIN_STATUS, 08 HIST_CREDIT, 09 CL_STATUS, 13 MC_CREDIT, 16 TRC_STATUS). -/
inductive Queue where
  | bank (n : BankId)
  | scatter (k : CtlId)
  | gather (k : CtlId)
  | cluster (c : ClusterId)
  | port (p : PortId)
  | inst (i : InstId)
  | twin
  | channel (ch : ChanId) (source : Fin 32)
  | hist
  | trace
deriving DecidableEq, Repr


/-- The errors in a DRAM line that is read (13 R502, R503): none; or the symbols in error with their error values, and the pattern that a decoder takes them for where they are beyond its reach (none: it reports the line uncorrectable). When errors arise is not the spec's to say: the command carries it. -/
inductive EccRead where
  | clean
  | errors (symbols : List (Fin 80 × Byte)) (taken : Option (List (Fin 80 × Byte)))
deriving DecidableEq, Repr

/-- Requests of a cluster to a directory slice (13 R484): a demand load, a prefetch, ownership, and the acceptance of a write-back. -/
inductive CohKind where
  | load | prefetch | own | writeBack
deriving DecidableEq, Repr

/-- A mailbox to Oasis: of an instance (06 R243), of a partition (14 R536), or the debug mailbox (14 R523). -/
inductive Mailbox where
  | inst (i : InstId)
  | part (p : PartId)
  | debug
deriving DecidableEq, Repr

/-- What Identify tells the historian of a drive's controller and namespace (08 R295, R296). -/
structure DriveFacts where
  /-- an NVM Express Base 2.0 controller -/
  base20 : Bool
  /-- the NVM Command Set is supported -/
  nvmSet : Bool
  /-- 4,096-byte LBAs -/
  lba4k : Bool
  /-- metadata or end-to-end protection -/
  metadata : Bool
  /-- Identify Controller VWC bit 0 -/
  volatileCache : Bool
  /-- namespace size in blocks -/
  blocks : Nat
  /-- maximum queue entries supported -/
  entries : Nat
  /-- maximum data transfer size in blocks, 0 for no limit -/
  maxTransfer : Nat
deriving DecidableEq, Repr

/-- Suffix of a floating-point mnemonic (10 R375). -/
inductive Prec where
  | b64 | b32
deriving DecidableEq, Repr

/-- An SRAM array that the cache scrub visits (15 R571). -/
inductive CacheArray where
  | l1 (core : CoreId)
  | l1i (core : CoreId)
  | l2 (c : ClusterId)
  | prefetch (core : CoreId)
  | evict (c : ClusterId)
  | dir (slice : ChanId)
deriving DecidableEq, Repr

/-- What a visit finds in a way of the set: words corrected, an uncorrectable word, a tag entry of which both copies failed their parity (13 R500, R501). -/
inductive CacheFind where
  | corrected (way : Fin 32) (words : Nat)
  | uncorrected (way : Fin 32) (word : Fin 8)
  | tagLost (way : Fin 32)
deriving DecidableEq, Repr

/-- What a Darning engine tests (15 R563): a bank, or the line table of a controller. -/
inductive DarnUnit where
  | bank (n : BankId)
  | lineTable (k : CtlId)
deriving DecidableEq, Repr

/-- The references the device checks (18 R650). -/
inductive RefClock where
  | sys
  | sds (j : Fin 8)
  | pcie
  | clk10m
  | pps
deriving DecidableEq, Repr

/-- A flash operation that a power failure cut short (14 R512, R513): a page program of which `done` bytes had been programmed, or a sector erase; or the blow of a life-cycle fuse word, with the bits that read blown afterwards (14 R547). -/
inductive FlashCut where
  | program (page : Fin 131072) (bytes : List Byte) (done : Fin 256)
  | erase (sector : Fin 8192)
  | fuse (w : Fin 3) (bits : BitVec 32)
deriving DecidableEq, Repr

/-- A cycle of a bank (03 R87). -/
structure BankCycle where
  /-- the bank -/
  bank : BankId
  /-- its words found with an error as they are read, uncorrectable where the flag is set (02 R64) -/
  finds : List (Fin 1048576 × Bool)
deriving DecidableEq, Repr

/-- How far a scatter goes (04 R138). -/
structure ScatterTurn where
  /-- device time of the last word, ns -/
  at_ : Nat
  /-- descriptors that run -/
  count : Nat
deriving DecidableEq, Repr

/-- The last bit of a frame (05 R173). -/
structure RxLastBit where
  /-- its device time, ns -/
  at_ : Nat
  /-- codewords that the FEC decoder has corrected since the frame before -/
  corrected : BitVec 32
  /-- codewords that it has found uncorrectable -/
  uncorrected : BitVec 32
deriving DecidableEq, Repr

/-- What the base page of a link partner names (05 R172). -/
structure PartnerModes where
  /-- modes, bits as PORT_AN.ADV -/
  modes : BitVec 7
  /-- FEC bits F3 to F0 -/
  fec : BitVec 4
deriving DecidableEq, Repr

/-- How a port loses its link (05 R209). -/
structure PortLoss where
  /-- the port -/
  port : PortId
  /-- it received a fault; otherwise it lost block lock -/
  fault : Bool
deriving DecidableEq, Repr

/-- How a root port loses its link (05 R207). -/
structure RootLoss where
  /-- the root port -/
  root : RootId
  /-- DPC contains the port; otherwise the link is lost -/
  contain : Bool
deriving DecidableEq, Repr

/-- A store leaving its buffer (09 R354). -/
structure DrainTurn where
  /-- the thread -/
  thr : Thr
  /-- what a read of the line's word finds where the store merges into it (02 R68, 13 R506) -/
  ecc : EccRead
deriving DecidableEq, Repr

/-- What stands where SYSCALL is fetched (10 R404). -/
structure SysOperand where
  /-- the code -/
  code : BitVec 10
  /-- the word fetched in its place, where it is no instruction (10 R369) -/
  raw : Option (BitVec 32)
deriving DecidableEq, Repr

/-- A word that an agent of the I/O side reads (13 R487). -/
structure IoWord where
  /-- the agent of sharer ID 24 + src -/
  src : Fin 8
  /-- the address -/
  addr : PAddr
  /-- what the decoder finds -/
  ecc : EccRead
deriving DecidableEq, Repr

/-- Where an agent of the I/O side writes (13 R488). -/
structure IoPlace where
  /-- the agent of sharer ID 24 + src -/
  src : Fin 8
  /-- the address -/
  addr : PAddr
deriving DecidableEq, Repr

/-- A report of the comparators of a position (15 R553): both flag, or one stays silent, false for A and true for B. -/
structure Mismatch where
  pair : Fin 96
  silent : Option Bool
deriving DecidableEq, Repr

/-- What it writes (13 R488). -/
structure IoBytes where
  /-- the bytes -/
  bytes : List Byte
  /-- what the decoder finds in each line that is written in part -/
  eccs : List EccRead
deriving DecidableEq, Repr

/-- What the clock servo of an IEEE 802.1AS domain decides (04 R115): a rate correction in 10^-3 ppb, or a step in ns. -/
inductive Servo where
  | rate (r : Int)
  | step (ns : Int)
deriving DecidableEq, Repr

/-- The path of an authorisation: the TAP, or DBG_AUTH with the BUFFER it names (16 R591, R617). -/
inductive AuthPath where
  | tap
  | software (buffer : PAddr)
deriving DecidableEq, Repr

/-- RDIMMs of a channel (13 R497): two or one, GiB of each, ranks on the channel less one, MT/s, x4 devices on 40-bit subchannels. -/
structure DramPop where
  two : Bool
  gib : Byte
  ranks : Fin 4
  rate : BitVec 16
  x4 : Bool := true
deriving DecidableEq, Repr

/-- What a boot finds that no rule computes: the DRAM population and the first channel that differs or fails training (13 R497), the readings of the phases (15 R581), and the regions and pair positions that fail the self test. -/
structure BootIn where
  /-- two RDIMMs on a channel, else one -/
  two : Bool
  /-- GiB of an RDIMM -/
  gib : Byte
  /-- ranks on the channel, less one -/
  ranks : Fin 4
  /-- MT/s -/
  rate : BitVec 16
  /-- first channel that fails training -/
  bad : Option ChanId
  /-- channels whose population is another than that (13 R497) -/
  others : List (ChanId × DramPop) := []
  /-- junction readings in 0.125 °C -/
  temps : List (BitVec 16)
  /-- read-eye widths, eye heights -/
  eyes : List (BitVec 16)
  heights : List (BitVec 16)
  /-- March failures of each region, comparator latencies, words corrected in each cache array -/
  march : List (BitVec 16)
  latencies : List (BitVec 16)
  corrected : List (BitVec 16)
  /-- failing regions and failing pair positions -/
  regions : List (DarnUnit × Fin 8192)
  pairs : List (Fin 96)
deriving DecidableEq, Repr

/-- The step of a write to the flash whose verification failed twice (14 R524, R525): a page of the image, or the commit byte. -/
inductive FlashFail where
  | page (n : Fin 49136)
  | commit
deriving DecidableEq, Repr

/-- The commands (spec/opcode_table.json); each constructor's docstring names its row, its rule and its operands. -/
inductive Instr where
  /-- REGISTER_WRITE (R4). register-space offset and value -/
  | registerWrite (who : Agent) (off : BitVec 28) (v : Word)
  /-- CREDIT_RETURN (R13). -/
  | creditReturn (q : Queue)
  /-- QUEUE_STARVED (R16). -/
  | queueStarved (q : Queue)
  /-- CREDIT_DEPTH_WRITE (R18). -/
  | creditDepthWrite (q : Queue) (depth : Byte)
  /-- BANK_REQUEST (R82). the oldest issued access of `t` that names a bank reaches it -/
  | bankRequest (t : Thr)
  /-- BANK_GRANT (R87). -/
  | bankGrant (x : BankCycle)
  /-- HANDOVER_START (R84). -/
  | handoverStart (who : Agent) (n : BankId) (next : Fin 64)
  /-- HANDOVER_END (R84). -/
  | handoverEnd (n : BankId)
  /-- CLEAR (R38). -/
  | bankClear (n : BankId)
  /-- BANK_CLEAR_DONE (R38). -/
  | bankClearDone (n : BankId)
  /-- ENABLE (R96). -/
  | pairEnable (who : Agent) (k : CtlId)
  /-- PAIR_DISABLE (R96). -/
  | pairDisable (who : Agent) (k : CtlId)
  /-- PAIR_INIT_DONE (R96). -/
  | pairInitDone (k : CtlId)
  /-- LT_READ (R106). -/
  | ltRead (k : CtlId) (line : Fin 131072)
  /-- LT_WRITE (R106). -/
  | ltWrite (k : CtlId) (line : Fin 131072)
  /-- ABANDON (R107). -/
  | abandon (who : Agent) (k : CtlId) (a : Fin 2) (regions : BitVec 3) (stamp : BitVec 16)
  /-- SWEEPER_VISIT (R111). the sweeper of `k` visits its next `n` entries -/
  | sweeperVisit (k : CtlId) (n : Nat)
  /-- ABANDON_SWEEP_DONE (R109). -/
  | abandonSweepDone (k : CtlId) (a : Fin 2)
  /-- CLASS_BOUNDARY (R118). -/
  | classBoundary (c : ClassId)
  /-- CLASS_ENABLE (R119). -/
  | classEnable (c : ClassId)
  /-- CLASS_DISABLE (R121). -/
  | classDisable (c : ClassId)
  /-- RELEASE (R154). entry `e` of the Pricking table of class `c` runs -/
  | releaseAction (c : ClassId) (e : Fin 64)
  /-- INPUT_DEADLINE (R134). entry `e` of the Pricking table of class `c` runs -/
  | inputDeadline (c : ClassId) (e : Fin 64)
  /-- AGREE (R267). entry `e` of the Pricking table of class `c` runs -/
  | agreeAction (c : ClassId) (e : Fin 64)
  /-- GATHER_START (R147). entry `e` of the Pricking table of class `c` runs -/
  | gatherStart (c : ClassId) (e : Fin 64)
  /-- DIGEST (R276). entry `e` of the Pricking table of class `c` runs -/
  | digestAction (c : ClassId) (e : Fin 64)
  /-- SAMPLE (R302). entry `e` of the Pricking table of class `c` runs; `n` signals of its list are read before the next boundary of the class -/
  | sampleAction (c : ClassId) (e : Fin 64) (n : Nat)
  /-- EVENT (R126). entry `e` of the Pricking table of class `c` runs -/
  | eventAction (c : ClassId) (e : Fin 64)
  /-- MARK (R126). entry `e` of the Pricking table of class `c` runs -/
  | markAction (c : ClassId) (e : Fin 64)
  /-- HOLDOVER (R116). -/
  | holdover
  /-- SCATTER (R138). descriptors of the oldest queued frame of `k` run -/
  | scatter (k : CtlId) (x : ScatterTurn)
  /-- GATHER_STREAM (R147). -/
  | gatherStream (k : CtlId) (c : ClassId)
  /-- GATHER_HANDOVER (R150). -/
  | gatherHandover (k : CtlId)
  /-- RATE_LIMIT_FLUSH (R159). -/
  | rateLimitFlush (block inst : Byte) (code : BitVec 16)
  /-- CYC_TBL_READ (R165). -/
  | cycTblRead (table : Fin 16) (index : BitVec 16)
  /-- CYC_TBL_WRITE (R165). -/
  | cycTblWrite (table : Fin 16) (index : BitVec 16)
  /-- CYC_TIME (R698). -/
  | cycTime (who : Agent)
  /-- FRAME_RX_START (R198). the frame (DA to FCS) that begins on port `p`, preemptable unless `express` -/
  | frameRxStart (p : PortId) (express : Bool) (frame : List Byte)
  /-- FRAME_RX_END (R173). the frame in reception ends -/
  | frameRxEnd (p : PortId) (express : Bool) (x : RxLastBit)
  /-- FRAME_TX_START (R195). -/
  | frameTxStart (p : PortId)
  /-- FRAME_TX_DONE (R199). -/
  | frameTxDone (p : PortId)
  /-- FDB_AGEING (R185). the entry at `index` -/
  | fdbAgeing (index : BitVec 17)
  /-- RECOVERY_RESET (R187). -/
  | recoveryReset (handle : Fin 16384)
  /-- CHANGE (R193). -/
  | gateChange (p : PortId)
  /-- GATE_CONFIG_CHANGE (R193). -/
  | gateConfigChange (p : PortId)
  /-- GATE_OPERATION (R194). -/
  | gateOperation (p : PortId)
  /-- GATE_LIST_READ (R192). -/
  | gateListRead (p : PortId) (list : Fin 2) (entry : Fin 1024)
  /-- GATE_LIST_WRITE (R193). -/
  | gateListWrite (p : PortId) (list : Fin 2) (entry : Fin 1024)
  /-- PREEMPT_VERIFY_DONE (R196). -/
  | preemptVerifyDone (p : PortId) (ok : Bool)
  /-- AUTO_NEGOTIATION_DONE (R172). the partner's base page, as received, is `ability`; `x` is what it names -/
  | autoNegotiationDone (p : PortId) (ability : BitVec 32) (x : PartnerModes)
  /-- LINK_DOWN (R209). -/
  | linkDown (x : PortLoss)
  /-- LINK_UP (R209). -/
  | linkUp (p : PortId)
  /-- EN (R209). -/
  | portEn (who : Agent) (p : PortId) (on : Bool)
  /-- SW_TBL_READ (R181). -/
  | swTblRead (table : Fin 16) (index : BitVec 17)
  /-- SW_TBL_WRITE (R181). -/
  | swTblWrite (table : Fin 16) (index : BitVec 17)
  /-- FDB_INSERT (R181). the key stands in SW_TBL_DATA -/
  | fdbInsert (table : Fin 16)
  /-- FDB_DELETE (R181). the key stands in SW_TBL_DATA -/
  | fdbDelete (table : Fin 16)
  /-- PCIE_INBOUND_REQUEST (R206). a memory request of `n` bytes at `addr`, with its data when it is a write -/
  | pcieInboundRequest (r : RootId) (write : Bool) (addr : Word) (n : BitVec 13) (data : List Byte)
  /-- COMPLETION_TIMEOUT (R207). -/
  | completionTimeout (r : RootId)
  /-- PCIE_LINK_DOWN (R207). -/
  | pcieLinkDown (x : RootLoss)
  /-- PERST_RELEASE (R208). -/
  | perstRelease (r : RootId)
  /-- DOORBELL (R234). `v` is written to PI_DOORBELL -/
  | doorbell (i : InstId) (v : Word)
  /-- PI_TX_DESCRIPTOR (R224). with `slow`, the buffer read is issued and its data have not returned; a later command of the queue completes it -/
  | piTxDescriptor (i : InstId) (q : Fin 1024) (slow : Bool)
  /-- STALE_DATA_RETURN (R239). -/
  | staleDataReturn (i : InstId)
  /-- PI_QP_READ (R252). -/
  | piQpRead (i : InstId) (q : Fin 1024) (word : Fin 4)
  /-- PI_QP_WRITE (R252). -/
  | piQpWrite (i : InstId) (q : Fin 1024) (word : Fin 4)
  /-- INSTANCE_RESET (R240). -/
  | instanceReset (i : InstId)
  /-- INSTANCE_RESET_COMPLETE (R240). -/
  | instanceResetComplete (i : InstId)
  /-- RESET_WAIT_TIMEOUT (R241). -/
  | resetWaitTimeout (i : InstId)
  /-- SEND (R244). -/
  | mboxSend (m : Mailbox)
  /-- MAILBOX_RESPONSE (R245). -/
  | mailboxResponse (m : Mailbox)
  /-- IN_ACK (R245). -/
  | mboxInAck (m : Mailbox)
  /-- MBOX_DATA (R698). a write of the word, or a read -/
  | mboxData (m : Mailbox) (w : Option Word)
  /-- GET_INFO (R247). posted in the mailbox of instance `i` -/
  | getInfo (i : InstId)
  /-- SET_MAC (R247). posted in the mailbox of instance `i` -/
  | setMac (i : InstId)
  /-- SET_VLANS (R247). posted in the mailbox of instance `i` -/
  | setVlans (i : InstId)
  /-- SET_FLOOD (R247). posted in the mailbox of instance `i` -/
  | setFlood (i : InstId)
  /-- SET_STEER (R247). posted in the mailbox of instance `i` -/
  | setSteer (i : InstId)
  /-- RESET (R242). posted in the mailbox of instance `i` -/
  | tenantReset (i : InstId)
  /-- ACK_NOTICE (R250). posted in the mailbox of instance `i` -/
  | ackNotice (i : InstId)
  /-- PI_CREATE (R249). posted in a mailbox -/
  | piCreate (m : Mailbox)
  /-- PI_RESIZE (R250). posted in a mailbox -/
  | piResize (m : Mailbox)
  /-- PI_POLICY (R250). posted in a mailbox -/
  | piPolicy (m : Mailbox)
  /-- PI_REMOVE (R249). posted in a mailbox -/
  | piRemove (m : Mailbox)
  /-- PI_MIGRATE (R248). posted in a mailbox -/
  | piMigrate (m : Mailbox)
  /-- NOTICE_DEADLINE (R250). -/
  | noticeDeadline (i : InstId)
  /-- TWIN_ENABLE (R253). -/
  | twinEnable (who : Agent) (on : Bool)
  /-- HEARTBEAT_SEND (R263). -/
  | heartbeatSend
  /-- HEARTBEAT (R254). received at device time `at_` ns; `delay` and `skew` are what the device measures from it -/
  | heartbeat (at_ : Nat) (m : List Byte) (delay skew : BitVec 16)
  /-- ARRIVAL_MAP (R267). the message, received at device time `at_` ns -/
  | arrivalMap (at_ : Nat) (m : List Byte)
  /-- FRAME_FILL (R268). the message, received at device time `at_` ns -/
  | frameFill (at_ : Nat) (m : List Byte)
  /-- DIGEST_MESSAGE (R277). the message, received at device time `at_` ns -/
  | digestMessage (at_ : Nat) (m : List Byte)
  /-- JOURNAL (R272). the message, received at device time `at_` ns -/
  | journalMsg (at_ : Nat) (m : List Byte)
  /-- STATE_COPY (R284). the message, received at device time `at_` ns -/
  | stateCopy (at_ : Nat) (m : List Byte)
  /-- LINK_LOST (R255). -/
  | linkLost
  /-- PATH_LOST (R255). -/
  | pathLost (j : Fin 4)
  /-- TWIN_LANE_DOWN (R264). -/
  | twinLaneDown (l : Fin 8)
  /-- AGREEMENT_WINDOW_END (R269). -/
  | agreementWindowEnd (c : ClassId)
  /-- DIGEST_DONE (R276). -/
  | digestDone (c : ClassId) (k : CtlId)
  /-- DIGEST_MISSED (R277). -/
  | digestMissed (c : ClassId) (k : CtlId)
  /-- JOURNAL_SUBMIT (R272). `v` is written to TWIN_JNL_TARGET with GO -/
  | journalSubmit (v : Word)
  /-- JOIN (R283). -/
  | twinJoin
  /-- LEAVE (R289). -/
  | twinLeave
  /-- SWAP (R290). -/
  | twinSwap
  /-- COLD_START (R289). -/
  | twinColdStart
  /-- START (R289). -/
  | twinStart
  /-- SWAP_TIMEOUT (R290). -/
  | swapTimeout
  /-- COPY_ROUND (R284). -/
  | copyRound
  /-- FREEZE_TIMEOUT (R285). -/
  | freezeTimeout
  /-- TWIN_TBL_READ (R292). -/
  | twinTblRead (table : Fin 4) (index : Fin 16)
  /-- TWIN_TBL_WRITE (R271). -/
  | twinTblWrite (table : Fin 4) (index : Fin 16)
  /-- HIST_ENABLE (R299). -/
  | histEnable (who : Agent)
  /-- HIST_DISABLE (R299). -/
  | histDisable (who : Agent)
  /-- HIST_RESTART (R320). what Identify tells of each drive (R295) -/
  | histRestart (drives : List DriveFacts)
  /-- HIST_SHUTDOWN_DONE (R299). -/
  | histShutdownDone
  /-- SEAL_TIMER (R315). -/
  | sealTimer
  /-- SEGMENT_WRITE (R316). -/
  | segmentWrite
  /-- NVME_COMPLETION (R316). a write command of `n` blocks to drive `j` for the `i`-th segment being written completes, with success or error -/
  | nvmeCompletion (i : Nat) (j : Fin 16) (n : Nat) (ok : Bool)
  /-- NVME_TIMEOUT (R296). a write command of `n` blocks to drive `j` for the `i`-th segment being written -/
  | nvmeTimeout (i : Nat) (j : Fin 16) (n : Nat)
  /-- SUPERBLOCK_TIMER (R314). -/
  | superblockTimer
  /-- HIST_CQ (R323). the doorbell value -/
  | histCq (tail : BitVec 16)
  /-- RECORD (R324). -/
  | histRecord
  /-- BULK (R324). -/
  | histBulk
  /-- QUERY (R325). -/
  | histQuery
  /-- QUERY_BULK (R325). -/
  | histQueryBulk
  /-- QUERY_COMPLETE (R326). the query of `slot`; reads of the segments `failed` did not succeed -/
  | histQueryComplete (slot : Fin 4) (failed : List Nat)
  /-- SYNC (R324). -/
  | histSync
  /-- INFO (R324). -/
  | histInfo
  /-- HIST_TBL_READ (R300). -/
  | histTblRead (table : Fin 4) (index : Fin 1048576)
  /-- HIST_TBL_WRITE (R307). -/
  | histTblWrite (table : Fin 4) (index : Fin 1048576)
  /-- STORE_DRAIN (R354). -/
  | storeDrain (x : DrainTurn)
  /-- UNCACHED_RESPONSE (R357). the oldest uncached access of thread `t` that its target has not yet answered; `data` and `fail` are what a PCIe device answers -/
  | uncachedResponse (t : Thr) (data : Word) (fail : Bool)
  /-- LOAD_RETURN (R408). the `n`-th access of thread `t` that is not complete -/
  | loadReturn (t : Thr) (n : Nat)
  /-- CYCLE_END (R156). -/
  | cycleEnd (t : Thr)
  /-- TWAIT_EXPIRY (R396). -/
  | twaitExpiry (t : Thr)
  /-- ADD (R372). issued by thread `t` -/
  | add (t : Thr) (rd rs1 rs2 : GReg)
  /-- SUB (R372). issued by thread `t` -/
  | sub (t : Thr) (rd rs1 rs2 : GReg)
  /-- ADDC (R372). issued by thread `t` -/
  | addc (t : Thr) (rd rs1 rs2 : GReg)
  /-- SUBC (R372). issued by thread `t` -/
  | subc (t : Thr) (rd rs1 rs2 : GReg)
  /-- AND (R372). issued by thread `t` -/
  | and (t : Thr) (rd rs1 rs2 : GReg)
  /-- OR (R372). issued by thread `t` -/
  | or (t : Thr) (rd rs1 rs2 : GReg)
  /-- XOR (R372). issued by thread `t` -/
  | xor (t : Thr) (rd rs1 rs2 : GReg)
  /-- ANDN (R372). issued by thread `t` -/
  | andn (t : Thr) (rd rs1 rs2 : GReg)
  /-- SHL (R372). issued by thread `t` -/
  | shl (t : Thr) (rd rs1 rs2 : GReg)
  /-- SHR (R372). issued by thread `t` -/
  | shr (t : Thr) (rd rs1 rs2 : GReg)
  /-- SHRA (R372). issued by thread `t` -/
  | shra (t : Thr) (rd rs1 rs2 : GReg)
  /-- LESS (R372). issued by thread `t` -/
  | less (t : Thr) (rd rs1 rs2 : GReg)
  /-- LESSU (R372). issued by thread `t` -/
  | lessu (t : Thr) (rd rs1 rs2 : GReg)
  /-- SAME (R372). issued by thread `t` -/
  | same (t : Thr) (rd rs1 rs2 : GReg)
  /-- MIN (R372). issued by thread `t` -/
  | min (t : Thr) (rd rs1 rs2 : GReg)
  /-- MAX (R372). issued by thread `t` -/
  | max (t : Thr) (rd rs1 rs2 : GReg)
  /-- MUL (R372). issued by thread `t` -/
  | mul (t : Thr) (rd rs1 rs2 : GReg)
  /-- MULHI (R372). issued by thread `t` -/
  | mulhi (t : Thr) (rd rs1 rs2 : GReg)
  /-- MULHIU (R372). issued by thread `t` -/
  | mulhiu (t : Thr) (rd rs1 rs2 : GReg)
  /-- MULC (R372). issued by thread `t` -/
  | mulc (t : Thr) (rd rs1 rs2 : GReg)
  /-- QUOT (R373). issued by thread `t` -/
  | quot (t : Thr) (rd rs1 rs2 : GReg)
  /-- QUOTU (R373). issued by thread `t` -/
  | quotu (t : Thr) (rd rs1 rs2 : GReg)
  /-- RMDR (R373). issued by thread `t` -/
  | rmdr (t : Thr) (rd rs1 rs2 : GReg)
  /-- RMDRU (R373). issued by thread `t` -/
  | rmdru (t : Thr) (rd rs1 rs2 : GReg)
  /-- CLZ (R372). issued by thread `t` -/
  | clz (t : Thr) (rd rs1 : GReg)
  /-- POPC (R372). issued by thread `t` -/
  | popc (t : Thr) (rd rs1 : GReg)
  /-- MOV (R372). issued by thread `t` -/
  | mov (t : Thr) (rd rs1 : GReg)
  /-- SEL (R372). issued by thread `t` -/
  | sel (t : Thr) (rd rs1 rs2 rs3 : GReg)
  /-- ADDI (R372). issued by thread `t` -/
  | addi (t : Thr) (rd rs1 : GReg) (imm : BitVec 14)
  /-- ANDI (R372). issued by thread `t` -/
  | andi (t : Thr) (rd rs1 : GReg) (imm : BitVec 14)
  /-- ORI (R372). issued by thread `t` -/
  | ori (t : Thr) (rd rs1 : GReg) (imm : BitVec 14)
  /-- XORI (R372). issued by thread `t` -/
  | xori (t : Thr) (rd rs1 : GReg) (imm : BitVec 14)
  /-- LESSI (R372). issued by thread `t` -/
  | lessi (t : Thr) (rd rs1 : GReg) (imm : BitVec 14)
  /-- LESSUI (R372). issued by thread `t` -/
  | lessui (t : Thr) (rd rs1 : GReg) (imm : BitVec 14)
  /-- SHLI (R372). issued by thread `t` -/
  | shli (t : Thr) (rd rs1 : GReg) (sh : Fin 64)
  /-- SHRI (R372). issued by thread `t` -/
  | shri (t : Thr) (rd rs1 : GReg) (sh : Fin 64)
  /-- SHRAI (R372). issued by thread `t` -/
  | shrai (t : Thr) (rd rs1 : GReg) (sh : Fin 64)
  /-- FADD (R379). issued by thread `t`; `f` is the suffix -/
  | fadd (t : Thr) (f : Prec) (rd rs1 rs2 : GReg)
  /-- FSUB (R379). issued by thread `t`; `f` is the suffix -/
  | fsub (t : Thr) (f : Prec) (rd rs1 rs2 : GReg)
  /-- FMUL (R379). issued by thread `t`; `f` is the suffix -/
  | fmul (t : Thr) (f : Prec) (rd rs1 rs2 : GReg)
  /-- FDIV (R379). issued by thread `t`; `f` is the suffix -/
  | fdiv (t : Thr) (f : Prec) (rd rs1 rs2 : GReg)
  /-- FSQRT (R379). issued by thread `t`; `f` is the suffix -/
  | fsqrt (t : Thr) (f : Prec) (rd rs1 : GReg)
  /-- FMAC (R379). issued by thread `t`; `f` is the suffix -/
  | fmac (t : Thr) (f : Prec) (rd rs1 rs2 rs3 : GReg)
  /-- FMSC (R379). issued by thread `t`; `f` is the suffix -/
  | fmsc (t : Thr) (f : Prec) (rd rs1 rs2 rs3 : GReg)
  /-- FMIN (R379). issued by thread `t`; `f` is the suffix -/
  | fmin (t : Thr) (f : Prec) (rd rs1 rs2 : GReg)
  /-- FMAX (R379). issued by thread `t`; `f` is the suffix -/
  | fmax (t : Thr) (f : Prec) (rd rs1 rs2 : GReg)
  /-- FNEG (R379). issued by thread `t`; `f` is the suffix -/
  | fneg (t : Thr) (f : Prec) (rd rs1 : GReg)
  /-- FABS (R379). issued by thread `t`; `f` is the suffix -/
  | fabs (t : Thr) (f : Prec) (rd rs1 : GReg)
  /-- FSAME (R379). issued by thread `t`; `f` is the suffix -/
  | fsame (t : Thr) (f : Prec) (rd rs1 rs2 : GReg)
  /-- FLESS (R379). issued by thread `t`; `f` is the suffix -/
  | fless (t : Thr) (f : Prec) (rd rs1 rs2 : GReg)
  /-- FLESSEQ (R379). issued by thread `t`; `f` is the suffix -/
  | flesseq (t : Thr) (f : Prec) (rd rs1 rs2 : GReg)
  /-- FTOI (R379). issued by thread `t`; `f` is the suffix -/
  | ftoi (t : Thr) (f : Prec) (rd rs1 : GReg)
  /-- ITOF (R379). issued by thread `t`; `f` is the suffix -/
  | itof (t : Thr) (f : Prec) (rd rs1 : GReg)
  /-- FWIDEN (R379). issued by thread `t` -/
  | fwiden (t : Thr) (rd rs1 : GReg)
  /-- FNARROW (R379). issued by thread `t` -/
  | fnarrow (t : Thr) (rd rs1 : GReg)
  /-- QGET (R381). issued by thread `t` -/
  | qget (t : Thr) (rd rs1 : GReg)
  /-- QSET (R381). issued by thread `t` -/
  | qset (t : Thr) (rd rs1 rs2 : GReg)
  /-- QMIN (R381). issued by thread `t` -/
  | qmin (t : Thr) (rd rs1 rs2 : GReg)
  /-- QSETI (R381). issued by thread `t` -/
  | qseti (t : Thr) (rd rs1 : GReg) (tag : Byte)
  /-- QTEST (R381). issued by thread `t` -/
  | qtest (t : Thr) (rd rs1 : GReg) (mask : BitVec 4)
  /-- QMODE (R381). issued by thread `t` -/
  | qmode (t : Thr) (rd : GReg) (mode : Fin 4)
  /-- LD (R382). issued by thread `t` -/
  | ld (t : Thr) (rd rs1 : GReg) (off : BitVec 14)
  /-- LDV (R382). issued by thread `t` -/
  | ldv (t : Thr) (rd rs1 : GReg) (off : BitVec 14)
  /-- LDB (R382). issued by thread `t` -/
  | ldb (t : Thr) (rd rs1 : GReg) (off : BitVec 14)
  /-- LDBU (R382). issued by thread `t` -/
  | ldbu (t : Thr) (rd rs1 : GReg) (off : BitVec 14)
  /-- LDH (R382). issued by thread `t` -/
  | ldh (t : Thr) (rd rs1 : GReg) (off : BitVec 14)
  /-- LDHU (R382). issued by thread `t` -/
  | ldhu (t : Thr) (rd rs1 : GReg) (off : BitVec 14)
  /-- LDW (R382). issued by thread `t` -/
  | ldw (t : Thr) (rd rs1 : GReg) (off : BitVec 14)
  /-- LDWU (R382). issued by thread `t` -/
  | ldwu (t : Thr) (rd rs1 : GReg) (off : BitVec 14)
  /-- ST (R382). issued by thread `t` -/
  | st (t : Thr) (rs2 rs1 : GReg) (off : BitVec 14)
  /-- STV (R382). issued by thread `t` -/
  | stv (t : Thr) (rs2 rs1 : GReg) (off : BitVec 14)
  /-- STB (R382). issued by thread `t` -/
  | stb (t : Thr) (rs2 rs1 : GReg) (off : BitVec 14)
  /-- STH (R382). issued by thread `t` -/
  | sth (t : Thr) (rs2 rs1 : GReg) (off : BitVec 14)
  /-- STW (R382). issued by thread `t` -/
  | stw (t : Thr) (rs2 rs1 : GReg) (off : BitVec 14)
  /-- ATSWAP (R386). issued by thread `t` -/
  | atswap (t : Thr) (rd rs1 rs2 : GReg)
  /-- ATADD (R386). issued by thread `t` -/
  | atadd (t : Thr) (rd rs1 rs2 : GReg)
  /-- ATCAS (R386). issued by thread `t` -/
  | atcas (t : Thr) (rd rs1 rs2 rs3 : GReg)
  /-- ATMIN (R386). issued by thread `t` -/
  | atmin (t : Thr) (rd rs1 rs2 : GReg)
  /-- ATMAX (R386). issued by thread `t` -/
  | atmax (t : Thr) (rd rs1 rs2 : GReg)
  /-- BEQ (R389). issued by thread `t`; `a` is the annul bit -/
  | beq (t : Thr) (rs1 : GReg) (a : Bool) (off : BitVec 19)
  /-- BNE (R389). issued by thread `t`; `a` is the annul bit -/
  | bne (t : Thr) (rs1 : GReg) (a : Bool) (off : BitVec 19)
  /-- BLT (R389). issued by thread `t`; `a` is the annul bit -/
  | blt (t : Thr) (rs1 : GReg) (a : Bool) (off : BitVec 19)
  /-- BGE (R389). issued by thread `t`; `a` is the annul bit -/
  | bge (t : Thr) (rs1 : GReg) (a : Bool) (off : BitVec 19)
  /-- BGT (R389). issued by thread `t`; `a` is the annul bit -/
  | bgt (t : Thr) (rs1 : GReg) (a : Bool) (off : BitVec 19)
  /-- BLE (R389). issued by thread `t`; `a` is the annul bit -/
  | ble (t : Thr) (rs1 : GReg) (a : Bool) (off : BitVec 19)
  /-- JAL (R390). issued by thread `t` -/
  | jal (t : Thr) (rd : GReg) (imm : BitVec 20)
  /-- JALR (R390). issued by thread `t` -/
  | jalr (t : Thr) (rd rs1 : GReg) (imm : BitVec 14)
  /-- LIH (R394). issued by thread `t` -/
  | lih (t : Thr) (rd : GReg) (imm : BitVec 20)
  /-- LIX (R394). issued by thread `t` -/
  | lix (t : Thr) (rd : GReg) (imm : BitVec 20)
  /-- TNOW (R395). issued by thread `t` -/
  | tnow (t : Thr) (rd : GReg)
  /-- TWAIT (R396). issued by thread `t` -/
  | twait (t : Thr) (rs1 : GReg)
  /-- TWAIT_C (R156). issued by thread `t` -/
  | twaitC (t : Thr)
  /-- CYCN (R395). issued by thread `t` -/
  | cycn (t : Thr) (rd : GReg) (c : ClassId)
  /-- FENCE (R360). issued by thread `t` -/
  | fence (t : Thr)
  /-- FENCE_IO (R361). issued by thread `t` -/
  | fenceIo (t : Thr)
  /-- PFLUSH (R342). issued by thread `t` -/
  | pflush (t : Thr)
  /-- CCLEAN (R400). issued by thread `t` -/
  | cclean (t : Thr) (rs1 : GReg) (off : BitVec 14)
  /-- CFLUSH (R400). issued by thread `t` -/
  | cflush (t : Thr) (rs1 : GReg) (off : BitVec 14)
  /-- CZERO (R400). issued by thread `t` -/
  | czero (t : Thr) (rs1 : GReg) (off : BitVec 14)
  /-- ICINV (R403). issued by thread `t` -/
  | icinv (t : Thr) (rs1 : GReg) (off : BitVec 14)
  /-- SYSCALL (R404). issued by thread `t` -/
  | syscall (t : Thr) (x : SysOperand)
  /-- BRK (R601). issued by thread `t` -/
  | brk (t : Thr) (code : BitVec 10)
  /-- ERET (R427). issued by thread `t` -/
  | eret (t : Thr)
  /-- TLBIVA (R457). issued by thread `t` -/
  | tlbiva (t : Thr) (rs1 : GReg)
  /-- TLBIASID (R457). issued by thread `t` -/
  | tlbiasid (t : Thr) (rs1 : GReg)
  /-- TLBIALL (R457). issued by thread `t` -/
  | tlbiall (t : Thr)
  /-- MFSR (R404). issued by thread `t` -/
  | mfsr (t : Thr) (rd : GReg) (n : Fin 64)
  /-- MTSR (R405). issued by thread `t` -/
  | mtsr (t : Thr) (n : Fin 64) (rs1 : GReg)
  /-- INTERRUPT (R436). -/
  | interrupt (t : Thr)
  /-- PAGE_WALK (R449). -/
  | pageWalk (t : Thr)
  /-- DIRECTORY_TRANSACTION (R484). a request of the core's cluster for a line, with what the decoder finds where DRAM is read -/
  | directoryTransaction (core : CoreId) (line : Nat) (k : CohKind) (o : EccRead)
  /-- IO_READ (R487). one aligned word of DRAM -/
  | ioRead (x : IoWord)
  /-- IO_WRITE (R488). with the stash hint of a writer owned by partition `part` -/
  | ioWrite (x : IoPlace) (y : IoBytes) (part : PartId) (stash : Option ClusterId)
  /-- CACHE_ENABLE_WRITE (R492). written to L1_EN and L2_EN -/
  | cacheEnableWrite (who : Agent) (c : ClusterId) (l1 : Byte) (l2 : Bool)
  /-- DRAIN_COMPLETE (R492). the L1 data cache of a core of the cluster, or the L2 -/
  | drainComplete (c : ClusterId) (core : Option (Fin 8))
  /-- DEVICE_MARK (R504). written to lane `i` of MC_MARK with MARKED 1 -/
  | deviceMark (who : Agent) (ch : ChanId) (i : Fin 8) (dev : Fin 16)
  /-- SCRUB_LINE (R570). what the decoder finds -/
  | scrubLine (ch : ChanId) (o : EccRead)
  /-- CACHE_SCRUB (R571). what the visit of the next set finds -/
  | cacheScrub (a : CacheArray) (finds : List (Option (Fin 16384) × CacheFind))
  /-- POWER_ON (R651). references present, VPP_FUSE, TEST_EN, and what the boot finds -/
  | powerOn (sds : Byte) (pcie clk10m pps vpp testEn : Bool) (b : BootIn)
  /-- CLASS_ENABLE_RELEASE (R521). -/
  | classEnableRelease (c : ClassId)
  /-- BEGIN (R524). a frame on the console UART: fields, whether its CRC is correct, whether an erase fails its verification twice -/
  | loaderBegin (target : Byte) (arg : BitVec 32) (crcOk fail : Bool)
  /-- DATA (R524). a frame on the console UART -/
  | loaderData (target : Byte) (arg : BitVec 32) (data : List Byte) (crcOk fail : Bool)
  /-- END (R524). a frame on the console UART, and what a boot that follows finds -/
  | loaderEnd (target : Byte) (arg : BitVec 32) (crcOk fail : Bool) (b : BootIn)
  /-- ABORT (R524). a frame on the console UART -/
  | loaderAbort (target : Byte) (arg : BitVec 32) (crcOk : Bool)
  /-- LOADER_FRAME_TIMEOUT (R522). -/
  | loaderFrameTimeout
  /-- LOAD (R523). a command of the debug mailbox -/
  | loaderLoad (fail : Bool) (b : BootIn)
  /-- PART_INFO (R538). -/
  | partInfo (m : Mailbox)
  /-- PART_START (R541). -/
  | partStart (m : Mailbox)
  /-- PART_STOP (R542). -/
  | partStop (m : Mailbox)
  /-- PART_RESET (R542). -/
  | partReset (m : Mailbox)
  /-- THREAD_START (R538). -/
  | threadStart (m : Mailbox)
  /-- ROUTE (R538). -/
  | routeCmd (m : Mailbox)
  /-- MAP (R538). -/
  | mapCmd (m : Mailbox)
  /-- CFG_APPLY (R527). -/
  | cfgApply (m : Mailbox)
  /-- CFG_COMMIT (R529). with the step that fails its verification twice, if one does -/
  | cfgCommit (m : Mailbox) (fail : Option FlashFail)
  /-- FW_WRITE (R538). with the page that fails its verification twice, if one does -/
  | fwWrite (m : Mailbox) (fail : Option FlashFail)
  /-- OASIS_RESTART (R540). -/
  | oasisRestart (m : Mailbox)
  /-- FW_MIN_SET (R538). -/
  | fwMinSet (m : Mailbox)
  /-- LC_ADVANCE (R548). -/
  | lcAdvance (m : Mailbox)
  /-- KEY_FUSE (R538). -/
  | keyFuse (m : Mailbox)
  /-- OASIS_RESTART_DONE (R540). the restart's length in ms and a junction reading in 0.125 °C -/
  | oasisRestartDone (ms temp : BitVec 16)
  /-- ACQUIRE (R543). -/
  | gateAcquire (t : Thr) (g : Byte)
  /-- GATE_RELEASE (R543). -/
  | gateRelease (t : Thr) (g : Byte)
  /-- GATE_QUERY (R543). -/
  | gateQuery (t : Thr) (g : Byte)
  /-- COMPARATOR_SELF_TEST (R552). the injection at position `p` is flagged after so many clocks, or not at all -/
  | comparatorSelfTest (p : Fin 96) (flagged : Option Nat)
  /-- CORE_MISMATCH (R553, R554). position 4 × cluster + q, and the comparator that stayed silent -/
  | coreMismatch (x : Mismatch)
  /-- DELAY_REGISTER_FAULT (R553). position 4 × cluster + q -/
  | delayRegisterFault (p : Fin 96)
  /-- SPARE_READY (R559). position 4 × cluster + q -/
  | spareReady (p : Fin 96)
  /-- UNCHECKED_PAIR_MOVE (R560). position 4 × cluster + q -/
  | uncheckedPairMove (p : Fin 96)
  /-- DARNING_REGION (R563). one test of the unit's next region: the number of March runs that failed, the words the save step corrected, and the words it found uncorrectable -/
  | darningRegion (u : DarnUnit) (fails : Fin 3) (corrected : Fin 129) (bad : List (Fin 128))
  /-- FLASH_COPY (R577). -/
  | flashCopy
  /-- PHASE_CLOSE (R581). -/
  | phaseClose
  /-- OPERATING_HOUR (R580). -/
  | operatingHour
  /-- CLEAR_RAM (R576). -/
  | clearRam
  /-- SAMPLER_READ (R584). the fields STORE, ORDINAL and WORD of the write -/
  | samplerRead (flash : Bool) (ordinal : BitVec 14) (word : Fin 32)
  /-- SMP_RD_DATA (R698). -/
  | smpRdData
  /-- EXTEST (R586). what the cells capture from the balls, and what is shifted in -/
  | extest (captured shifted : BitVec 2944)
  /-- SAMPLE_PRELOAD (R586). what the cells capture from the balls, and what is shifted in -/
  | samplePreload (captured shifted : BitVec 2944)
  /-- IDCODE (R586). -/
  | idcode
  /-- CLAMP (R586). -/
  | clamp
  /-- HIGHZ (R586). -/
  | highz
  /-- EXTEST_PULSE (R586). what the cells capture from the balls, and what is shifted in -/
  | extestPulse (captured shifted : BitVec 2944)
  /-- EXTEST_TRAIN (R586). what the cells capture from the balls, and what is shifted in -/
  | extestTrain (captured shifted : BitVec 2944)
  /-- BYPASS (R586). -/
  | bypass
  /-- TEST_LOGIC_RESET (R585). -/
  | testLogicReset
  /-- TRST (R594). -/
  | trst
  /-- REQUEST (R592). -/
  | authRequest (path : AuthPath) (level : BitVec 4)
  /-- RESPOND (R593). on the software path, ID and response stand in the buffer -/
  | authRespond (path : AuthPath) (level : BitVec 4) (id : BitVec 32) (payload : BitVec 256)
  /-- DETACH (R594). -/
  | authDetach
  /-- REVOKE (R594). -/
  | authRevoke
  /-- SET_PASSWORD (R590). -/
  | setPassword (payload : BitVec 256)
  /-- AUTHORISATION_TICK (R593). -/
  | authorisationTick
  /-- CHALLENGE_EXPIRY (R592). -/
  | challengeExpiry
  /-- LOCKOUT_EXPIRY (R593). -/
  | lockoutExpiry
  /-- TAP_IDLE_TIMEOUT (R594). -/
  | tapIdleTimeout
  /-- NOP (R596). -/
  | garirNop
  /-- READ (R602). ADDR, TAGGED and AUTOINC; ADDR 0 after AUTOINC means the next address -/
  | garirRead (a : PAddr) (tagged autoinc : Bool)
  /-- WRITE (R602). -/
  | garirWrite (a : PAddr) (v : Word) (tag : Byte) (tagged autoinc : Bool)
  /-- HALT (R597). -/
  | garirHalt (core : Byte) (th : Fin 8)
  /-- RESUME (R598). -/
  | garirResume (core : Byte) (th : Fin 8)
  /-- STEP (R599). -/
  | garirStep (core : Byte) (th : Fin 8)
  /-- REG_READ (R599). -/
  | garirRegRead (core : Byte) (th : Fin 8) (r : BitVec 7)
  /-- REG_WRITE (R599). -/
  | garirRegWrite (core : Byte) (th : Fin 8) (r : BitVec 7) (v : Word) (tag : Byte)
  /-- BP_SET (R600). -/
  | bpSet (core : Byte) (data : Bool) (idx : BitVec 3) (va : BitVec 48) (mask : Byte) (action access : BitVec 2)
  /-- BP_CLEAR (R600). -/
  | bpClear (core : Byte) (data : Bool) (idx : BitVec 3)
  /-- VT_READ (R605). -/
  | vtRead (p : PartId)
  /-- VT_WRITE (R605). -/
  | vtWrite (p : PartId) (count : Fin 8) (data : BitVec 56)
  /-- STATE (R596). -/
  | garirState (core : Byte) (th : Fin 8)
  /-- BRK_HALT (R601). -/
  | brkHalt (core : Byte) (th : Fin 8) (flag : Bool)
  /-- MB_WRITE (R523). -/
  | mbWrite (idx : Fin 16) (send : Bool) (v : Word)
  /-- MB_READ (R523). -/
  | mbRead (idx : Fin 16) (ack : Bool)
  /-- DBG_VT_TX (R604). -/
  | dbgVtTx (p : PartId) (count : Fin 8) (data : BitVec 56)
  /-- ACK (R605). -/
  | vtRxAck (p : PartId)
  /-- TRACE_ENABLE (R615). -/
  | traceEnable (on : Bool)
  /-- TRIGGER (R614). 0 is FIRE -/
  | traceTrigger (kind : Fin 5)
  /-- FIRE (R614). -/
  | traceFire
  /-- POST_END (R615). -/
  | postEnd
  /-- TRACE_TIME_TICK (R612). -/
  | traceTimeTick
  /-- TRACE_SINK_WRITE (R616). bytes the sink takes -/
  | traceSinkWrite (n : Nat)
  /-- TRC_SRC_READ (R618). -/
  | trcSrcRead (idx : BitVec 11)
  /-- TRC_SRC_WRITE (R618). -/
  | trcSrcWrite (idx : BitVec 11)
  /-- COUNTER_OVERFLOW (R622). -/
  | counterOverflow (i : Fin 2144)
  /-- CTR_READ (R626). -/
  | ctrRead (config : Bool) (idx : BitVec 12)
  /-- CTR_WRITE (R627). -/
  | ctrWrite (config : Bool) (idx : BitVec 12) (data : BitVec 48)
  /-- SNAPSHOT_PERIOD (R628). -/
  | snapshotPeriod
  /-- SNAPSHOT_FIRE (R628). -/
  | snapshotFire
  /-- SNAPSHOT_RECORD_DONE (R631). -/
  | snapshotRecordDone
  /-- POWER_UP_REQUEST (R636). PWR_DOM_INDEX with GO, WRITE 1 and REQ 1 -/
  | powerUpRequest (d : Fin 128)
  /-- POWER_DOWN_REQUEST (R637). PWR_DOM_INDEX with GO, WRITE 1 and REQ 0 -/
  | powerDownRequest (d : Fin 128)
  /-- DOMAIN_STATE_READ (R636). -/
  | domainStateRead (d : Fin 128)
  /-- POWER_UP_DONE (R639). -/
  | powerUpDone (d : Fin 80)
  /-- POWER_DOWN_DONE (R636). -/
  | powerDownDone (d : Fin 80)
  /-- AVS_TICK (R643). the lowest voltage the monitors call for in mV, the highest junction reading in 0.125 °C, and whether the PMBus transaction succeeded -/
  | avsTick (vmin : BitVec 10) (temp : BitVec 16) (ok : Bool)
  /-- PMBUS_RETRY (R644). -/
  | pmbusRetry (ok : Bool)
  /-- TJ_ALERT (R645). the reading in 0.125 °C and the domain of the monitor -/
  | tjAlert (temp : BitVec 16) (d : Fin 80)
  /-- THERMAL_TRIP (R653). the domain of the monitor that reads 115 °C -/
  | thermalTrip (d : Fin 80)
  /-- REFERENCE_LOSS (R650). -/
  | referenceLoss (r : RefClock)
  /-- TRIP_RELEASE (R653). -/
  | tripRelease (b : BootIn)
  /-- EXTERNAL_RESET (R652). -/
  | externalReset
  /-- RESET_RELEASE (R652). -/
  | resetRelease (b : BootIn)
  /-- POWER_FAIL (R641). with the flash operation it cuts short, if one is under way -/
  | powerFail (cut : Option FlashCut)
  /-- WATCHDOG (R654). -/
  | watchdog
  /-- PPS_EDGE (R649). device time of the edge in ns -/
  | ppsEdge (at_ : BitVec 64)
  /-- VPP_FUSE_CHANGE (R672). -/
  | vppFuseChange (present : Bool)
  /-- PCIE_LINK_UP (R207). -/
  | pcieLinkUp (r : RootId)
  /-- REFERENCE_RETURN (R650). -/
  | referenceReturn (r : RefClock)
  /-- FAULT_N_RELEASE (R656). -/
  | faultNRelease
  /-- TJ_ALERT_END (R645). the highest reading in 0.125 °C -/
  | tjAlertEnd (temp : BitVec 16)
  /-- TWIN_LANE_UP (R264). -/
  | twinLaneUp (l : Fin 8)
  /-- SYNC_INTERVAL (R191). the log sync interval is the negative of `back`; where `decides`, the servo of the domain takes a step of `n` ns or a rate correction of `n` 10^-3 ppb -/
  | syncInterval (dom : Fin 2) (p : PortId) (back : Fin 8) (decides step : Bool) (n : Int)
deriving DecidableEq, Repr

end Sys2Proof
end

