-- ==== Sys2Proof/Decode.lean ====
section
/-! DEFINITION. Decode: the command that a word spells by the bits of spec/opcode_table.json. The table gives no row any bits, so no word spells a command. -/
namespace Sys2Proof

/-- No row of spec/opcode_table.json gives bits: no word spells a command (log 5, DESIGN CHOICE). -/
def decodeTableWord (_nbits _w : Nat) : Option Instr := none

end Sys2Proof
end

