-- ==== Sys2Proof/Machine/Map.lean ====
section
/-! DEFINITION. Maps over natural keys as sorted lists without default entries, and the bit-range helpers of registers and words. -/
namespace Sys2Proof.Machine

/-- A finite map: keys strictly rising, no entry equal to what an unlisted key reads as (see `mwf`). -/
abbrev Map (α : Type) := List (Nat × α)

/-- The entry of a key, if one is listed. -/
def mfind {α : Type} : Map α → Nat → Option α
  | [], _ => none
  | (k, v) :: m, i => if k = i then some v else mfind m i

/-- The value of a key; `d` says what an unlisted key reads as. -/
def mget {α : Type} (d : Nat → α) (m : Map α) (k : Nat) : α := (mfind m k).getD (d k)

/-- The map without a key. -/
def mdel {α : Type} : Map α → Nat → Map α
  | [], _ => []
  | (k, v) :: m, i => if k = i then mdel m i else (k, v) :: mdel m i

/-- Insertion of an absent key in its place. -/
def mins {α : Type} (k : Nat) (v : α) : Map α → Map α
  | [] => [(k, v)]
  | (j, w) :: m => if k < j then (k, v) :: (j, w) :: m else (j, w) :: mins k v m

/-- Writing a key; writing what an unlisted key reads as removes the entry. -/
def mset {α : Type} [DecidableEq α] (d : Nat → α) (m : Map α) (k : Nat) (v : α) : Map α :=
  if v = d k then mdel m k else mins k v (mdel m k)

/-- Keys strictly rising. -/
def msorted {α : Type} : Map α → Bool
  | [] => true
  | [_] => true
  | (j, _) :: (k, w) :: m => decide (j < k) && msorted ((k, w) :: m)

/-- The canonical form of a map with default `d`. -/
def mwf {α : Type} [DecidableEq α] (d : Nat → α) (m : Map α) : Bool :=
  msorted m && m.all (fun e => decide (e.2 ≠ d e.1))

/-- Removing every key of a range lo ≤ k < hi. -/
def mclear {α : Type} (m : Map α) (lo hi : Nat) : Map α :=
  m.filter (fun e => ! (decide (lo ≤ e.1) && decide (e.1 < hi)))

/-- Writing a value that is never the default's business: an optional entry. -/
def mput {α : Type} (m : Map α) (k : Nat) (v : α) : Map α := mins k v (mdel m k)

/-- Bits hi:lo of a 64-bit value, as a number. -/
def bitsOf (v : Word) (f : Nat × Nat) : Nat := (v.toNat / 2 ^ f.2) % 2 ^ (f.1 + 1 - f.2)

/-- The 64-bit value with bits hi:lo replaced by `n` (taken modulo the width). -/
def putBits (v : Word) (f : Nat × Nat) (n : Nat) : Word :=
  let w := 2 ^ (f.1 + 1 - f.2)
  BitVec.ofNat 64 (v.toNat % 2 ^ f.2 + (n % w) * 2 ^ f.2 + (v.toNat / 2 ^ (f.1 + 1)) * 2 ^ (f.1 + 1))

/-- Bits hi:lo of a number. -/
def nbits (v hi lo : Nat) : Nat := (v / 2 ^ lo) % 2 ^ (hi + 1 - lo)

/-- One bit of a number. -/
def nbit (v i : Nat) : Bool := v / 2 ^ i % 2 == 1

/-- The number of a Boolean. -/
def b2n (b : Bool) : Nat := if b then 1 else 0

/-- A number saturated at `top`. -/
def sat (top n : Nat) : Nat := if top ≤ n then top else n

/-- Two's-complement reading of the low `w` bits. -/
def toSigned (w n : Nat) : Int :=
  let m := n % 2 ^ w
  if 2 * m < 2 ^ w then (m : Int) else (m : Int) - (2 ^ w : Nat)

/-- The low `w` bits of an integer. -/
def ofSigned (w : Nat) (i : Int) : Nat := (i % ((2 ^ w : Nat) : Int)).toNat

/-- Little-endian bytes of a number, `n` of them. -/
def leBytes : Nat → Nat → List Byte
  | 0, _ => []
  | n + 1, v => BitVec.ofNat 8 v :: leBytes n (v / 256)

/-- The number of a little-endian byte list. -/
def leNat : List Byte → Nat
  | [] => 0
  | b :: bs => b.toNat + 256 * leNat bs

/-- Big-endian bytes of a number, `n` of them. -/
def beBytes (n v : Nat) : List Byte := (leBytes n v).reverse

/-- The number of a big-endian byte list. -/
def beNat (bs : List Byte) : Nat := leNat bs.reverse

/-- `n` numbers from `a` upwards. -/
def rangeFrom (a : Nat) : Nat → List Nat
  | 0 => []
  | n + 1 => a :: rangeFrom (a + 1) n

/-- The list with element `i` replaced (unchanged where it has no such element). -/
def listSet {α : Type} : List α → Nat → α → List α
  | [], _, _ => []
  | _ :: l, 0, v => v :: l
  | x :: l, n + 1, v => x :: listSet l n v

end Sys2Proof.Machine
end

