-- ==== Sys2Proof/Machine/Encode.lean ====
section
/-! DEFINITION. Encode: the instruction words of the Palael set (10 R368 to R404): the six formats, the word of each instruction command, and the instruction a word stands for. -/
namespace Sys2Proof.Machine

/-- Format T: FN, rs3, rs2, rs1, rd, OP (R368). -/
def encT (op fn rd rs1 rs2 rs3 : Nat) : Nat := fn * 2 ^ 27 + rs3 * 2 ^ 22 + rs2 * 2 ^ 17 + rs1 * 2 ^ 12 + rd * 2 ^ 7 + op
/-- Formats I and M: IMM14, rs1, rd, OP (R368). -/
def encI (op rd rs1 imm : Nat) : Nat := imm * 2 ^ 17 + rs1 * 2 ^ 12 + rd * 2 ^ 7 + op
/-- Format B: OFF19, A, rs1, OP (R368). -/
def encB (op rs1 a off : Nat) : Nat := off * 2 ^ 13 + a * 2 ^ 12 + rs1 * 2 ^ 7 + op
/-- Format J: IMM20, rd, OP (R368). -/
def encJ (op rd imm : Nat) : Nat := imm * 2 ^ 12 + rd * 2 ^ 7 + op
/-- Format S: IMM10, FN, rs1, rd, OP (R368). -/
def encS (fn rd rs1 imm : Nat) : Nat := imm * 2 ^ 22 + fn * 2 ^ 17 + rs1 * 2 ^ 12 + rd * 2 ^ 7 + 0x06

/-- Major opcode of a floating-point instruction (R375). -/
def fpOp : Prec → Nat
  | .b64 => 0x02
  | .b32 => 0x03

/-- The word of an instruction command (R372 to R404); other commands have none (log 43, DESIGN CHOICE). -/
def encodeInsn : Instr → Option Nat
  | .add _ rd a b => some (encT 0x01 0x00 rd a b 0)
  | .sub _ rd a b => some (encT 0x01 0x01 rd a b 0)
  | .addc _ rd a b => some (encT 0x01 0x02 rd a b 0)
  | .subc _ rd a b => some (encT 0x01 0x03 rd a b 0)
  | .and _ rd a b => some (encT 0x01 0x04 rd a b 0)
  | .or _ rd a b => some (encT 0x01 0x05 rd a b 0)
  | .xor _ rd a b => some (encT 0x01 0x06 rd a b 0)
  | .andn _ rd a b => some (encT 0x01 0x07 rd a b 0)
  | .shl _ rd a b => some (encT 0x01 0x08 rd a b 0)
  | .shr _ rd a b => some (encT 0x01 0x09 rd a b 0)
  | .shra _ rd a b => some (encT 0x01 0x0A rd a b 0)
  | .less _ rd a b => some (encT 0x01 0x0B rd a b 0)
  | .lessu _ rd a b => some (encT 0x01 0x0C rd a b 0)
  | .same _ rd a b => some (encT 0x01 0x0D rd a b 0)
  | .min _ rd a b => some (encT 0x01 0x0E rd a b 0)
  | .max _ rd a b => some (encT 0x01 0x0F rd a b 0)
  | .mul _ rd a b => some (encT 0x01 0x10 rd a b 0)
  | .mulhi _ rd a b => some (encT 0x01 0x11 rd a b 0)
  | .mulhiu _ rd a b => some (encT 0x01 0x12 rd a b 0)
  | .mulc _ rd a b => some (encT 0x01 0x13 rd a b 0)
  | .quot _ rd a b => some (encT 0x01 0x14 rd a b 0)
  | .quotu _ rd a b => some (encT 0x01 0x15 rd a b 0)
  | .rmdr _ rd a b => some (encT 0x01 0x16 rd a b 0)
  | .rmdru _ rd a b => some (encT 0x01 0x17 rd a b 0)
  | .clz _ rd a => some (encT 0x01 0x18 rd a 0 0)
  | .popc _ rd a => some (encT 0x01 0x19 rd a 0 0)
  | .mov _ rd a => some (encT 0x01 0x1A rd a 0 0)
  | .sel _ rd a b c => some (encT 0x01 0x1B rd a b c)
  | .addi _ rd a i => some (encI 0x08 rd a i.toNat)
  | .andi _ rd a i => some (encI 0x09 rd a i.toNat)
  | .ori _ rd a i => some (encI 0x0A rd a i.toNat)
  | .xori _ rd a i => some (encI 0x0B rd a i.toNat)
  | .lessi _ rd a i => some (encI 0x0C rd a i.toNat)
  | .lessui _ rd a i => some (encI 0x0D rd a i.toNat)
  | .shli _ rd a n => some (encI 0x0E rd a n)
  | .shri _ rd a n => some (encI 0x0F rd a n)
  | .shrai _ rd a n => some (encI 0x10 rd a n)
  | .fadd _ f rd a b => some (encT (fpOp f) 0x00 rd a b 0)
  | .fsub _ f rd a b => some (encT (fpOp f) 0x01 rd a b 0)
  | .fmul _ f rd a b => some (encT (fpOp f) 0x02 rd a b 0)
  | .fdiv _ f rd a b => some (encT (fpOp f) 0x03 rd a b 0)
  | .fsqrt _ f rd a => some (encT (fpOp f) 0x04 rd a 0 0)
  | .fmac _ f rd a b c => some (encT (fpOp f) 0x05 rd a b c)
  | .fmsc _ f rd a b c => some (encT (fpOp f) 0x06 rd a b c)
  | .fmin _ f rd a b => some (encT (fpOp f) 0x07 rd a b 0)
  | .fmax _ f rd a b => some (encT (fpOp f) 0x08 rd a b 0)
  | .fneg _ f rd a => some (encT (fpOp f) 0x09 rd a 0 0)
  | .fabs _ f rd a => some (encT (fpOp f) 0x0A rd a 0 0)
  | .fsame _ f rd a b => some (encT (fpOp f) 0x0B rd a b 0)
  | .fless _ f rd a b => some (encT (fpOp f) 0x0C rd a b 0)
  | .flesseq _ f rd a b => some (encT (fpOp f) 0x0D rd a b 0)
  | .ftoi _ f rd a => some (encT (fpOp f) 0x0E rd a 0 0)
  | .itof _ f rd a => some (encT (fpOp f) 0x0F rd a 0 0)
  | .fwiden _ rd a => some (encT 0x02 0x10 rd a 0 0)
  | .fnarrow _ rd a => some (encT 0x03 0x10 rd a 0 0)
  | .qget _ rd a => some (encT 0x04 0x00 rd a 0 0)
  | .qset _ rd a b => some (encT 0x04 0x01 rd a b 0)
  | .qmin _ rd a b => some (encT 0x04 0x02 rd a b 0)
  | .qseti _ rd a g => some (encI 0x11 rd a g.toNat)
  | .qtest _ rd a m => some (encI 0x12 rd a m.toNat)
  | .qmode _ rd m => some (encI 0x13 rd 0 m)
  | .jalr _ rd a i => some (encI 0x14 rd a i.toNat)
  | .mfsr _ rd n => some (encI 0x15 rd 0 n)
  | .mtsr _ n a => some (encI 0x16 0 a n)
  | .ld _ rd a o => some (encI 0x20 rd a o.toNat)
  | .ldv _ rd a o => some (encI 0x21 rd a o.toNat)
  | .ldb _ rd a o => some (encI 0x22 rd a o.toNat)
  | .ldbu _ rd a o => some (encI 0x23 rd a o.toNat)
  | .ldh _ rd a o => some (encI 0x24 rd a o.toNat)
  | .ldhu _ rd a o => some (encI 0x25 rd a o.toNat)
  | .ldw _ rd a o => some (encI 0x26 rd a o.toNat)
  | .ldwu _ rd a o => some (encI 0x27 rd a o.toNat)
  | .st _ d a o => some (encI 0x28 d a o.toNat)
  | .stv _ d a o => some (encI 0x29 d a o.toNat)
  | .stb _ d a o => some (encI 0x2A d a o.toNat)
  | .sth _ d a o => some (encI 0x2B d a o.toNat)
  | .stw _ d a o => some (encI 0x2C d a o.toNat)
  | .cclean _ a o => some (encI 0x2D 0 a o.toNat)
  | .cflush _ a o => some (encI 0x2E 0 a o.toNat)
  | .czero _ a o => some (encI 0x2F 0 a o.toNat)
  | .icinv _ a o => some (encI 0x30 0 a o.toNat)
  | .atswap _ rd a b => some (encT 0x05 0x00 rd a b 0)
  | .atadd _ rd a b => some (encT 0x05 0x01 rd a b 0)
  | .atcas _ rd a b c => some (encT 0x05 0x02 rd a b c)
  | .atmin _ rd a b => some (encT 0x05 0x03 rd a b 0)
  | .atmax _ rd a b => some (encT 0x05 0x04 rd a b 0)
  | .beq _ r a o => some (encB 0x40 r (b2n a) o.toNat)
  | .bne _ r a o => some (encB 0x41 r (b2n a) o.toNat)
  | .blt _ r a o => some (encB 0x42 r (b2n a) o.toNat)
  | .bge _ r a o => some (encB 0x43 r (b2n a) o.toNat)
  | .bgt _ r a o => some (encB 0x44 r (b2n a) o.toNat)
  | .ble _ r a o => some (encB 0x45 r (b2n a) o.toNat)
  | .jal _ rd i => some (encJ 0x48 rd i.toNat)
  | .lih _ rd i => some (encJ 0x49 rd i.toNat)
  | .lix _ rd i => some (encJ 0x4A rd i.toNat)
  | .syscall _ x => if x.raw.isNone then some (encS 0x00 0 0 x.code.toNat) else none
  | .brk _ c => some (encS 0x01 0 0 c.toNat)
  | .eret _ => some (encS 0x02 0 0 0)
  | .fence _ => some (encS 0x03 0 0 0)
  | .fenceIo _ => some (encS 0x04 0 0 0)
  | .pflush _ => some (encS 0x05 0 0 0)
  | .tnow _ rd => some (encS 0x06 rd 0 0)
  | .twait _ a => some (encS 0x07 0 a 0)
  | .twaitC _ => some (encS 0x08 0 0 0)
  | .cycn _ rd c => some (encS 0x09 rd 0 c)
  | .tlbiva _ a => some (encS 0x0A 0 a 0)
  | .tlbiasid _ a => some (encS 0x0B 0 a 0)
  | .tlbiall _ => some (encS 0x0C 0 0 0)
  | _ => none

/-! ## Decoding (R368 to R370) -/

/-- A register field. -/
def gregOf (n : Nat) : GReg := ⟨n % 32, Nat.mod_lt _ (by decide)⟩

/-- Integer register operations, OP 0x01 (R372). -/
def decInt (t : Thr) (fn : Nat) (rd a b c : GReg) : Option Instr :=
  if fn = 0x1B then some (.sel t rd a b c)
  else if c ≠ 0 then none
  else
    match fn with
    | 0x00 => some (.add t rd a b)
    | 0x01 => some (.sub t rd a b)
    | 0x02 => some (.addc t rd a b)
    | 0x03 => some (.subc t rd a b)
    | 0x04 => some (.and t rd a b)
    | 0x05 => some (.or t rd a b)
    | 0x06 => some (.xor t rd a b)
    | 0x07 => some (.andn t rd a b)
    | 0x08 => some (.shl t rd a b)
    | 0x09 => some (.shr t rd a b)
    | 0x0A => some (.shra t rd a b)
    | 0x0B => some (.less t rd a b)
    | 0x0C => some (.lessu t rd a b)
    | 0x0D => some (.same t rd a b)
    | 0x0E => some (.min t rd a b)
    | 0x0F => some (.max t rd a b)
    | 0x10 => some (.mul t rd a b)
    | 0x11 => some (.mulhi t rd a b)
    | 0x12 => some (.mulhiu t rd a b)
    | 0x13 => some (.mulc t rd a b)
    | 0x14 => some (.quot t rd a b)
    | 0x15 => some (.quotu t rd a b)
    | 0x16 => some (.rmdr t rd a b)
    | 0x17 => some (.rmdru t rd a b)
    | 0x18 => if b = 0 then some (.clz t rd a) else none
    | 0x19 => if b = 0 then some (.popc t rd a) else none
    | 0x1A => if b = 0 then some (.mov t rd a) else none
    | _ => none

/-- Floating-point operations, OP 0x02 and 0x03 (R379). -/
def decFp (t : Thr) (f : Prec) (fn : Nat) (rd a b c : GReg) : Option Instr :=
  if fn = 0x05 then some (.fmac t f rd a b c)
  else if fn = 0x06 then some (.fmsc t f rd a b c)
  else if c ≠ 0 then none
  else
    match fn with
    | 0x00 => some (.fadd t f rd a b)
    | 0x01 => some (.fsub t f rd a b)
    | 0x02 => some (.fmul t f rd a b)
    | 0x03 => some (.fdiv t f rd a b)
    | 0x04 => if b = 0 then some (.fsqrt t f rd a) else none
    | 0x07 => some (.fmin t f rd a b)
    | 0x08 => some (.fmax t f rd a b)
    | 0x09 => if b = 0 then some (.fneg t f rd a) else none
    | 0x0A => if b = 0 then some (.fabs t f rd a) else none
    | 0x0B => some (.fsame t f rd a b)
    | 0x0C => some (.fless t f rd a b)
    | 0x0D => some (.flesseq t f rd a b)
    | 0x0E => if b = 0 then some (.ftoi t f rd a) else none
    | 0x0F => if b = 0 then some (.itof t f rd a) else none
    | 0x10 => if b = 0 then (match f with | .b64 => some (.fwiden t rd a) | .b32 => some (.fnarrow t rd a)) else none
    | _ => none

/-- Q-tag operations, OP 0x04, and atomics, OP 0x05 (R381, R386). -/
def decQ (t : Thr) (fn : Nat) (rd a b c : GReg) : Option Instr :=
  if c ≠ 0 then none
  else
    match fn with
    | 0x00 => if b = 0 then some (.qget t rd a) else none
    | 0x01 => some (.qset t rd a b)
    | 0x02 => some (.qmin t rd a b)
    | _ => none

def decAt (t : Thr) (fn : Nat) (rd a b c : GReg) : Option Instr :=
  if fn = 0x02 then some (.atcas t rd a b c)
  else if c ≠ 0 then none
  else
    match fn with
    | 0x00 => some (.atswap t rd a b)
    | 0x01 => some (.atadd t rd a b)
    | 0x03 => some (.atmin t rd a b)
    | 0x04 => some (.atmax t rd a b)
    | _ => none

/-- Format S, OP 0x06 (R395, R399, R404). -/
def decSys (t : Thr) (fn : Nat) (rd a : GReg) (i : Nat) : Option Instr :=
  let zd := rd = 0
  let za := a = 0
  match fn with
  | 0x00 => if zd ∧ za then some (.syscall t ⟨BitVec.ofNat 10 i, none⟩) else none
  | 0x01 => if zd ∧ za then some (.brk t (BitVec.ofNat 10 i)) else none
  | 0x02 => if zd ∧ za ∧ i = 0 then some (.eret t) else none
  | 0x03 => if zd ∧ za ∧ i = 0 then some (.fence t) else none
  | 0x04 => if zd ∧ za ∧ i = 0 then some (.fenceIo t) else none
  | 0x05 => if zd ∧ za ∧ i = 0 then some (.pflush t) else none
  | 0x06 => if za ∧ i = 0 then some (.tnow t rd) else none
  | 0x07 => if zd ∧ i = 0 then some (.twait t a) else none
  | 0x08 => if zd ∧ za ∧ i = 0 then some (.twaitC t) else none
  | 0x09 => if za ∧ i < 8 then some (.cycn t rd ⟨i % 8, Nat.mod_lt _ (by decide)⟩) else none
  | 0x0A => if zd ∧ i = 0 then some (.tlbiva t a) else none
  | 0x0B => if zd ∧ i = 0 then some (.tlbiasid t a) else none
  | 0x0C => if zd ∧ za ∧ i = 0 then some (.tlbiall t) else none
  | _ => none

/-- Formats I and M: OP 0x08 to 0x16 and 0x20 to 0x30 (R372, R381, R382, R390, R400, R404). -/
def decImm (t : Thr) (op : Nat) (rd a : GReg) (i : Nat) : Option Instr :=
  let im := BitVec.ofNat 14 i
  let f64 : Fin 64 := ⟨i % 64, Nat.mod_lt _ (by decide)⟩
  match op with
  | 0x08 => some (.addi t rd a im)
  | 0x09 => some (.andi t rd a im)
  | 0x0A => some (.ori t rd a im)
  | 0x0B => some (.xori t rd a im)
  | 0x0C => some (.lessi t rd a im)
  | 0x0D => some (.lessui t rd a im)
  | 0x0E => if i < 64 then some (.shli t rd a f64) else none
  | 0x0F => if i < 64 then some (.shri t rd a f64) else none
  | 0x10 => if i < 64 then some (.shrai t rd a f64) else none
  | 0x11 => if i < 256 then some (.qseti t rd a (BitVec.ofNat 8 i)) else none
  | 0x12 => if i < 16 then some (.qtest t rd a (BitVec.ofNat 4 i)) else none
  | 0x13 => if a = 0 ∧ i < 4 then some (.qmode t rd ⟨i % 4, Nat.mod_lt _ (by decide)⟩) else none
  | 0x14 => some (.jalr t rd a im)
  | 0x15 => if a = 0 ∧ i < 64 then some (.mfsr t rd f64) else none
  | 0x16 => if rd = 0 ∧ i < 64 then some (.mtsr t f64 a) else none
  | 0x20 => some (.ld t rd a im)
  | 0x21 => some (.ldv t rd a im)
  | 0x22 => some (.ldb t rd a im)
  | 0x23 => some (.ldbu t rd a im)
  | 0x24 => some (.ldh t rd a im)
  | 0x25 => some (.ldhu t rd a im)
  | 0x26 => some (.ldw t rd a im)
  | 0x27 => some (.ldwu t rd a im)
  | 0x28 => some (.st t rd a im)
  | 0x29 => some (.stv t rd a im)
  | 0x2A => some (.stb t rd a im)
  | 0x2B => some (.sth t rd a im)
  | 0x2C => some (.stw t rd a im)
  | 0x2D => if rd = 0 then some (.cclean t a im) else none
  | 0x2E => if rd = 0 then some (.cflush t a im) else none
  | 0x2F => if rd = 0 then some (.czero t a im) else none
  | 0x30 => if rd = 0 then some (.icinv t a im) else none
  | _ => none

/-- Format B (R389). -/
def decBranch (t : Thr) (op : Nat) (r : GReg) (a : Bool) (o : Nat) : Option Instr :=
  let off := BitVec.ofNat 19 o
  match op with
  | 0x40 => some (.beq t r a off)
  | 0x41 => some (.bne t r a off)
  | 0x42 => some (.blt t r a off)
  | 0x43 => some (.bge t r a off)
  | 0x44 => some (.bgt t r a off)
  | 0x45 => some (.ble t r a off)
  | _ => none

/-- The instruction a word stands for when thread `t` issues it; none: the word is illegal (R369). -/
def decodeInsn (t : Thr) (w : Nat) : Option Instr :=
  let op := w % 128
  let rd := gregOf (nbits w 11 7)
  let a := gregOf (nbits w 16 12)
  let b := gregOf (nbits w 21 17)
  let c := gregOf (nbits w 26 22)
  let fn := nbits w 31 27
  if op = 0x01 then decInt t fn rd a b c
  else if op = 0x02 then decFp t .b64 fn rd a b c
  else if op = 0x03 then decFp t .b32 fn rd a b c
  else if op = 0x04 then decQ t fn rd a b c
  else if op = 0x05 then decAt t fn rd a b c
  else if op = 0x06 then decSys t (nbits w 21 17) rd a (nbits w 31 22)
  else if op < 0x40 then (if nbit w 31 then none else decImm t op rd a (nbits w 30 17))
  else if op < 0x48 then decBranch t op rd (nbit w 12) (nbits w 31 13)
  else
    match op with
    | 0x48 => some (.jal t rd (BitVec.ofNat 20 (nbits w 31 12)))
    | 0x49 => some (.lih t rd (BitVec.ofNat 20 (nbits w 31 12)))
    | 0x4A => some (.lix t rd (BitVec.ofNat 20 (nbits w 31 12)))
    | _ => none

end Sys2Proof.Machine
end

