-- ==== Sys2Proof/Config.lean ====
section
/-! DEFINITION. Config: what the spec leaves open. Free values are constants without a body, applied to a counter of the state or to the operands they depend on; the assumption log names each. -/
namespace Sys2Proof.Config

/-- A free 64-bit value, one for each draw (log 8, DESIGN CHOICE). -/
opaque freeWord : Nat → Word

/-- A free byte of a flash cell whose program or erase was cut short (14 R512, R513), by flash address and draw (log 8, DESIGN CHOICE). -/
opaque freeFlash : Nat → Nat → Byte

/-- Ed25519 verification (RFC 8032; 00 R5): public key, message, signature (log 8, DESIGN CHOICE). -/
opaque ed25519Valid : List Byte → List Byte → List Byte → Bool

/-- HMAC-SHA-256 of a message under a key, 32 bytes (16 R592) (log 8, DESIGN CHOICE). -/
opaque hmacSha256 : List Byte → List Byte → List Byte

/-- SHA-256 of a message, 32 bytes. -/
opaque sha256 : List Byte → List Byte

/-- The layout digest of 07 R263: a CRC-64 over Slazal sections and TWIN tables whose serialisation the spec does not give (log 10, DESIGN CHOICE). -/
opaque layoutDigest : List Byte → List Word → Word

/-- Set of a directory slice in which a line's entry stands (13 R480 gives the sets, not the index): by line number (log 9, DESIGN CHOICE). -/
opaque dirIndex : Nat → Nat

/-- Rank and subchannel of a line on its channel, 2 × rank + subchannel as MC_MARK numbers them (13 R507; the spec does not give the address bits): by line number (log 9, DESIGN CHOICE). -/
opaque rankSub : Nat → Nat

/-- The partition that owns root port r (05 R206; no section of the Slazal image assigns root ports): a free constant of the device, modulo 16 (log 10, DESIGN CHOICE). -/
opaque rootOwner : Nat → Nat

/-- What stands in a block of a historian drive that the engine has not written: by drive and block (08 R295 to R297; the drive's own contents). -/
opaque driveBlock : Nat → Nat → List Byte

/-- A byte of the device identity in the identity records, whose value the spec does not give (14 R549, 15 R568) (log 160, DESIGN CHOICE). -/
opaque deviceIdByte : Fin 16 → Byte

/-- The 16-byte device identity (14 R549, 15 R568) (log 160, DESIGN CHOICE). -/
def deviceId : List Byte := List.ofFn deviceIdByte

/-- K_DEV, the device-unique debug key (16 R589). -/
opaque deviceKey : List Byte

/-- Brimalor's maker key for debug in RETURN (16 R589). -/
opaque makerKey : List Byte

/-- Brimalor's Ed25519 public key in the key store (14 R509, R546). -/
opaque brimalorKey : List Byte

/-- A firmware slot's bytes as R509 judges them (14 R509; the firmware's layout is not given): security version and SEQ of a slot whose magic, CRC-32C and Brimalor signature hold. -/
opaque firmware : List Byte → Option (Nat × Nat)

/-- Whether the device's ordering code is DR72-128-20E; otherwise DR72-128-16E (14 R515) (log 9, DESIGN CHOICE). -/
opaque grade20 : Bool

/-- LEVEL of the invalid entry that a stage-2 walk meets where nothing is mapped, by the partition, its mappings and the address; the layout of the tables is Oasis's (12 R466) (log 32, DESIGN CHOICE). -/
opaque stage2Level : Nat → List (List Nat) → Nat → Fin 4

/-- Whether a Slazal image chooses the quadrant interleave (13 R498: the image chooses it; no section's layout gives the field): by image (log 9, DESIGN CHOICE). -/
opaque interleave : List Byte → Bool

/-- Clock identity, grandmaster priority fields (14 bytes) and port addresses of the device in IEEE 802.1AS (05 R191; the spec gives none) (log 75, PRESUMED). -/
opaque clockIdentity : Nat
opaque ptpPriority : Nat
opaque portMac : Nat → Nat

/-- Identification and link registers of a root port, whose values PCI Express leaves to the maker (05 R204): by byte offset (log 132, PRESUMED). -/
opaque rootConfig : Nat → Byte

/-- 4 KiB pages of DRAM that are Oasis's own (12 R466): the spec gives no address of them (log 109, DESIGN CHOICE). -/
opaque oasisPage : Nat → Bool

end Sys2Proof.Config
end

