-- ==== Sys2Proof/Machine/RegTable.lean ====
section
/-! DEFINITION. The registers of the device: every register table of spec/ (03 to 18) as data, with the offsets of 21 R692 and the access codes of 00 R4. -/
namespace Sys2Proof.Machine

/-- Access codes of a register field (00 R4). -/
inductive Access where
  | rw | ro | wo | w1c | w1s | rwl | woo
deriving DecidableEq, Repr

/-- A field of a register: bits hi:lo, access code, reset value (21 R702). Bits no field covers are reserved (21 R704). -/
structure FieldDef where
  hi : Nat
  lo : Nat
  acc : Access
  reset : Nat
deriving DecidableEq, Repr

/-- The register blocks of 21 R692. -/
inductive BlockId where
  | MGR | CFG | CYC | IMG | BK | SW | PORT | PI | CL | MC | TWIN | HIST | SMP | TRC | CTR | PWR | DBG
deriving DecidableEq, Repr

/-- The names of the registers, as the spec's register tables have them. -/
inductive RegName where
  | BK_CTRL | BK_OWNER | BK_SHARE | BK_STAT | IMG_CTRL | IMG_STATUS
  | IMG_REGION | IMG_CYCLE | IMG_ABANDON | IMG_STALE | IMG_LT_INDEX | IMG_LT_DATA
  | IMG_CREDIT | IMG_ERR | IMG_OVERRUN | IMG_SWEEP | CYC_CTRL | CYC_TIME
  | CYC_TIME_FRAC | CYC_TIME_STATUS | CYC_TBL_INDEX | CYC_TBL_DATA0 | CYC_TBL_DATA1 | CYC_ERR
  | CYC_CLASS_CTRL | CYC_PERIOD | CYC_EPOCH | CYC_NUMBER | CYC_NEXT_T0 | CYC_INPUT
  | CYC_FLOW | CYC_OVERRUN | CYC_HWM | CYC_SPAN | SW_CTRL | SW_GROUP_MODE
  | SW_PCIE_SPLIT | SW_AGEING | SW_TBL_INDEX | SW_TBL_DATA | SW_BUF | SW_FDB_STAT
  | SW_PTP | SW_ERR | PORT_CTRL | PORT_STATUS | PORT_AN | PORT_FEC
  | PORT_MAXFRAME | PORT_BUF | PORT_VLAN | PORT_TC | PORT_GATE_CTRL | PORT_GATE_BASE
  | PORT_GATE_INDEX | PORT_GATE_DATA | PORT_PREEMPT | PORT_PTP | PORT_CNT | PI_CTRL
  | PI_STATUS | PI_DOORBELL | PI_QP_INDEX | PI_QP_DATA | PI_MBOX_CTRL | PI_MBOX_DATA
  | PI_ERR | TWIN_CTRL | TWIN_STATUS | TWIN_EPOCH | TWIN_LINK | TWIN_CMD
  | TWIN_TBL_INDEX | TWIN_TBL_DATA | TWIN_JNL_VALUE | TWIN_JNL_TARGET | TWIN_STAT | TWIN_ERR
  | HIST_CTRL | HIST_STATUS | HIST_LOG | HIST_TBL_INDEX | HIST_TBL_DATA0 | HIST_TBL_DATA1
  | HIST_CQ | HIST_STAT | HIST_SEGERR | HIST_ERR | HIST_CREDIT | CL_CTRL
  | CL_STATUS | CL_PAIR | CL_ERR | CL_ISSUE_MAP | MC_CTRL | MC_STATUS
  | MC_ARB | MC_ARB_WEIGHT | MC_CREDIT | MC_ECC | MC_ERR_ADDR | MC_MARK
  | MC_SCRUB | MC_DIR | MC_DIR_BCAST | MGR_INFO | MGR_PART_STATUS | MGR_MBOX_CTRL
  | MGR_MBOX_DATA | MGR_GATE_OP | MGR_GATE_RESULT | MGR_ERR | CFG_ACTIVE | CFG_SLOT
  | CFG_LC | CFG_APPLY_ERR | SMP_CTRL | SMP_STATUS | SMP_RD_CTRL | SMP_RD_DATA
  | SMP_DROPPED | SMP_DARN_CTRL | SMP_DARN_STAT | DBG_VT_TX | DBG_VT_RX | DBG_CTRL
  | DBG_STATUS | DBG_AUTH | TRC_CTRL | TRC_STATUS | TRC_TRIG | TRC_SRC_INDEX
  | TRC_SRC_DATA | CTR_CTRL | CTR_BUF | CTR_STATUS | CTR_ACCESS | PWR_CTRL
  | PWR_STATUS | PWR_DOM_INDEX | PWR_DOM_DATA
deriving DecidableEq, Repr

/-- One register table: its first offset in the block, its array stride and count, its fields from the top. -/
structure RegRow where
  name : RegName
  first : Nat
  stride : Nat
  count : Nat
  fields : List FieldDef
deriving DecidableEq, Repr

/-- One block of 21 R692: base offset, stride and count of its elements, window, and the number of equal halves 0x100 apart inside a window (2 for MC, 13 R507). -/
structure BlockDef where
  id : BlockId
  base : Nat
  stride : Nat
  count : Nat
  window : Nat
  halves : Nat
  rows : List RegRow
deriving DecidableEq, Repr

/-- MGR_INFO -/
def row_MGR_INFO : RegRow := ⟨.MGR_INFO, 0x0, 0x8, 1, [
  ⟨35, 28, .ro, 0⟩, ⟨27, 24, .ro, 0⟩, ⟨18, 17, .ro, 0⟩, ⟨16, 16, .ro, 0⟩, ⟨15, 0, .ro, 0⟩
  ]⟩
/-- MGR_PART_STATUS -/
def row_MGR_PART_STATUS : RegRow := ⟨.MGR_PART_STATUS, 0x8, 0x8, 1, [
  ⟨63, 60, .ro, 0⟩, ⟨59, 56, .ro, 0⟩, ⟨55, 52, .ro, 0⟩, ⟨51, 48, .ro, 0⟩, ⟨47, 44, .ro, 0⟩, ⟨43, 40, .ro, 0⟩,
  ⟨39, 36, .ro, 0⟩, ⟨35, 32, .ro, 0⟩, ⟨31, 28, .ro, 0⟩, ⟨27, 24, .ro, 0⟩, ⟨23, 20, .ro, 0⟩, ⟨19, 16, .ro, 0⟩,
  ⟨15, 12, .ro, 0⟩, ⟨11, 8, .ro, 0⟩, ⟨7, 4, .ro, 0⟩, ⟨3, 0, .ro, 0⟩
  ]⟩
/-- MGR_MBOX_CTRL -/
def row_MGR_MBOX_CTRL : RegRow := ⟨.MGR_MBOX_CTRL, 0x10, 0x8, 1, [
  ⟨19, 16, .ro, 0⟩, ⟨11, 11, .wo, 0⟩, ⟨10, 10, .ro, 0⟩, ⟨9, 9, .ro, 0⟩, ⟨8, 8, .wo, 0⟩, ⟨4, 4, .rw, 0⟩,
  ⟨3, 0, .rw, 0⟩
  ]⟩
/-- MGR_MBOX_DATA -/
def row_MGR_MBOX_DATA : RegRow := ⟨.MGR_MBOX_DATA, 0x18, 0x8, 1, [
  ⟨63, 0, .rw, 0⟩
  ]⟩
/-- MGR_GATE_OP -/
def row_MGR_GATE_OP : RegRow := ⟨.MGR_GATE_OP, 0x20, 0x8, 1, [
  ⟨9, 8, .wo, 0⟩, ⟨7, 0, .wo, 0⟩
  ]⟩
/-- MGR_GATE_RESULT -/
def row_MGR_GATE_RESULT : RegRow := ⟨.MGR_GATE_RESULT, 0x28, 0x8, 1, [
  ⟨47, 40, .ro, 0⟩, ⟨39, 36, .ro, 0⟩, ⟨35, 28, .ro, 0⟩, ⟨27, 25, .ro, 0⟩, ⟨24, 23, .ro, 0⟩, ⟨15, 8, .ro, 0⟩,
  ⟨7, 0, .ro, 0⟩
  ]⟩
/-- MGR_ERR -/
def row_MGR_ERR : RegRow := ⟨.MGR_ERR, 0x30, 0x8, 1, [
  ⟨1, 1, .w1c, 0⟩, ⟨0, 0, .w1c, 0⟩
  ]⟩

/-- Block MGR (21 R692). -/
def block_MGR : BlockDef := ⟨.MGR, 0x0, 0x10000, 1, 0x10000, 1, [
  row_MGR_INFO, row_MGR_PART_STATUS, row_MGR_MBOX_CTRL, row_MGR_MBOX_DATA, row_MGR_GATE_OP,
  row_MGR_GATE_RESULT, row_MGR_ERR
  ]⟩

/-- CFG_ACTIVE -/
def row_CFG_ACTIVE : RegRow := ⟨.CFG_ACTIVE, 0x0, 0x8, 1, [
  ⟨34, 33, .ro, 0⟩, ⟨32, 32, .ro, 0⟩, ⟨31, 0, .ro, 0⟩
  ]⟩
/-- CFG_SLOT -/
def row_CFG_SLOT : RegRow := ⟨.CFG_SLOT, 0x8, 0x8, 2, [
  ⟨35, 35, .ro, 0⟩, ⟨34, 34, .ro, 0⟩, ⟨33, 33, .ro, 0⟩, ⟨32, 32, .ro, 0⟩, ⟨31, 0, .ro, 0⟩
  ]⟩
/-- CFG_LC -/
def row_CFG_LC : RegRow := ⟨.CFG_LC, 0x18, 0x8, 1, [
  ⟨31, 16, .ro, 0⟩, ⟨4, 4, .ro, 0⟩, ⟨3, 3, .ro, 0⟩, ⟨2, 0, .ro, 0⟩
  ]⟩
/-- CFG_APPLY_ERR -/
def row_CFG_APPLY_ERR : RegRow := ⟨.CFG_APPLY_ERR, 0x20, 0x8, 1, [
  ⟨51, 48, .ro, 0⟩, ⟨47, 32, .rw, 0⟩, ⟨15, 1, .ro, 0⟩
  ]⟩

/-- Block CFG (21 R692). -/
def block_CFG : BlockDef := ⟨.CFG, 0x100000, 0x10000, 1, 0x10000, 1, [
  row_CFG_ACTIVE, row_CFG_SLOT, row_CFG_LC, row_CFG_APPLY_ERR
  ]⟩

/-- CYC_CTRL -/
def row_CYC_CTRL : RegRow := ⟨.CYC_CTRL, 0x0, 0x8, 1, [
  ⟨15, 15, .w1c, 0⟩, ⟨14, 14, .w1s, 0⟩, ⟨9, 2, .rwl, 100⟩, ⟨1, 0, .rwl, 2⟩
  ]⟩
/-- CYC_TIME -/
def row_CYC_TIME : RegRow := ⟨.CYC_TIME, 0x8, 0x8, 1, [
  ⟨63, 0, .ro, 0⟩
  ]⟩
/-- CYC_TIME_FRAC -/
def row_CYC_TIME_FRAC : RegRow := ⟨.CYC_TIME_FRAC, 0x10, 0x8, 1, [
  ⟨63, 32, .ro, 0⟩, ⟨15, 0, .ro, 0⟩
  ]⟩
/-- CYC_TIME_STATUS -/
def row_CYC_TIME_STATUS : RegRow := ⟨.CYC_TIME_STATUS, 0x18, 0x8, 1, [
  ⟨63, 32, .ro, 0⟩, ⟨2, 2, .ro, 0⟩, ⟨1, 0, .ro, 0⟩
  ]⟩
/-- CYC_TBL_INDEX -/
def row_CYC_TBL_INDEX : RegRow := ⟨.CYC_TBL_INDEX, 0x20, 0x8, 1, [
  ⟨63, 63, .wo, 0⟩, ⟨62, 62, .rw, 0⟩, ⟨61, 61, .ro, 1⟩, ⟨23, 20, .rw, 0⟩, ⟨15, 0, .rw, 0⟩
  ]⟩
/-- CYC_TBL_DATA0 -/
def row_CYC_TBL_DATA0 : RegRow := ⟨.CYC_TBL_DATA0, 0x28, 0x8, 1, [
  ⟨63, 0, .rw, 0⟩
  ]⟩
/-- CYC_TBL_DATA1 -/
def row_CYC_TBL_DATA1 : RegRow := ⟨.CYC_TBL_DATA1, 0x30, 0x8, 1, [
  ⟨63, 0, .rw, 0⟩
  ]⟩
/-- CYC_ERR -/
def row_CYC_ERR : RegRow := ⟨.CYC_ERR, 0x38, 0x8, 1, [
  ⟨5, 5, .w1c, 0⟩, ⟨4, 4, .w1c, 0⟩, ⟨3, 3, .w1c, 0⟩, ⟨2, 2, .w1c, 0⟩, ⟨1, 1, .w1c, 0⟩, ⟨0, 0, .w1c, 0⟩
  ]⟩
/-- CYC_CLASS_CTRL -/
def row_CYC_CLASS_CTRL : RegRow := ⟨.CYC_CLASS_CTRL, 0x100, 0x80, 8, [
  ⟨7, 4, .ro, 0⟩, ⟨2, 2, .ro, 0⟩, ⟨1, 1, .ro, 0⟩, ⟨0, 0, .rw, 0⟩
  ]⟩
/-- CYC_PERIOD -/
def row_CYC_PERIOD : RegRow := ⟨.CYC_PERIOD, 0x108, 0x80, 8, [
  ⟨21, 0, .rw, 0⟩
  ]⟩
/-- CYC_EPOCH -/
def row_CYC_EPOCH : RegRow := ⟨.CYC_EPOCH, 0x110, 0x80, 8, [
  ⟨63, 0, .rw, 0⟩
  ]⟩
/-- CYC_NUMBER -/
def row_CYC_NUMBER : RegRow := ⟨.CYC_NUMBER, 0x118, 0x80, 8, [
  ⟨63, 0, .rw, 0⟩
  ]⟩
/-- CYC_NEXT_T0 -/
def row_CYC_NEXT_T0 : RegRow := ⟨.CYC_NEXT_T0, 0x120, 0x80, 8, [
  ⟨63, 0, .ro, 0⟩
  ]⟩
/-- CYC_INPUT -/
def row_CYC_INPUT : RegRow := ⟨.CYC_INPUT, 0x128, 0x80, 8, [
  ⟨63, 48, .rw, 0⟩, ⟨47, 32, .rw, 0⟩, ⟨31, 16, .rw, 0⟩, ⟨15, 0, .rw, 0⟩
  ]⟩
/-- CYC_FLOW -/
def row_CYC_FLOW : RegRow := ⟨.CYC_FLOW, 0x130, 0x80, 8, [
  ⟨63, 48, .rw, 0⟩, ⟨47, 32, .rw, 0⟩, ⟨31, 16, .rw, 0⟩, ⟨15, 0, .rw, 0⟩
  ]⟩
/-- CYC_OVERRUN -/
def row_CYC_OVERRUN : RegRow := ⟨.CYC_OVERRUN, 0x138, 0x80, 8, [
  ⟨63, 56, .ro, 0⟩, ⟨15, 0, .rw, 0⟩
  ]⟩
/-- CYC_HWM -/
def row_CYC_HWM : RegRow := ⟨.CYC_HWM, 0x140, 0x80, 8, [
  ⟨63, 32, .rw, 0⟩, ⟨31, 0, .rw, 0⟩
  ]⟩
/-- CYC_SPAN -/
def row_CYC_SPAN : RegRow := ⟨.CYC_SPAN, 0x148, 0x80, 8, [
  ⟨63, 32, .rw, 0⟩, ⟨31, 0, .ro, 0⟩
  ]⟩

/-- Block CYC (21 R692). -/
def block_CYC : BlockDef := ⟨.CYC, 0x200000, 0x10000, 1, 0x10000, 1, [
  row_CYC_CTRL, row_CYC_TIME, row_CYC_TIME_FRAC, row_CYC_TIME_STATUS, row_CYC_TBL_INDEX,
  row_CYC_TBL_DATA0, row_CYC_TBL_DATA1, row_CYC_ERR, row_CYC_CLASS_CTRL, row_CYC_PERIOD,
  row_CYC_EPOCH, row_CYC_NUMBER, row_CYC_NEXT_T0, row_CYC_INPUT, row_CYC_FLOW,
  row_CYC_OVERRUN, row_CYC_HWM, row_CYC_SPAN
  ]⟩

/-- IMG_CTRL -/
def row_IMG_CTRL : RegRow := ⟨.IMG_CTRL, 0x0, 0x8, 1, [
  ⟨9, 9, .w1c, 0⟩, ⟨8, 8, .w1s, 0⟩, ⟨6, 4, .rwl, 0⟩, ⟨0, 0, .rwl, 0⟩
  ]⟩
/-- IMG_STATUS -/
def row_IMG_STATUS : RegRow := ⟨.IMG_STATUS, 0x8, 0x8, 1, [
  ⟨3, 2, .ro, 0⟩, ⟨1, 1, .ro, 0⟩, ⟨0, 0, .ro, 0⟩
  ]⟩
/-- IMG_REGION -/
def row_IMG_REGION : RegRow := ⟨.IMG_REGION, 0x10, 0x8, 3, [
  ⟨45, 40, .ro, 63⟩, ⟨36, 35, .rwl, 0⟩, ⟨34, 17, .rwl, 0⟩, ⟨16, 0, .rwl, 0⟩
  ]⟩
/-- IMG_CYCLE -/
def row_IMG_CYCLE : RegRow := ⟨.IMG_CYCLE, 0x28, 0x8, 1, [
  ⟨31, 16, .ro, 65535⟩, ⟨15, 0, .ro, 0⟩
  ]⟩
/-- IMG_ABANDON -/
def row_IMG_ABANDON : RegRow := ⟨.IMG_ABANDON, 0x30, 0x8, 2, [
  ⟨63, 63, .ro, 0⟩, ⟨18, 16, .rw, 0⟩, ⟨15, 0, .rw, 0⟩
  ]⟩
/-- IMG_STALE -/
def row_IMG_STALE : RegRow := ⟨.IMG_STALE, 0x40, 0x8, 2, [
  ⟨62, 48, .rwl, 3⟩, ⟨46, 32, .rwl, 3⟩, ⟨30, 16, .rwl, 3⟩, ⟨14, 0, .rwl, 3⟩
  ]⟩
/-- IMG_LT_INDEX -/
def row_IMG_LT_INDEX : RegRow := ⟨.IMG_LT_INDEX, 0x50, 0x8, 1, [
  ⟨63, 63, .wo, 0⟩, ⟨62, 62, .rw, 0⟩, ⟨61, 61, .ro, 1⟩, ⟨16, 0, .rw, 0⟩
  ]⟩
/-- IMG_LT_DATA -/
def row_IMG_LT_DATA : RegRow := ⟨.IMG_LT_DATA, 0x58, 0x8, 1, [
  ⟨38, 0, .rw, 0⟩
  ]⟩
/-- IMG_CREDIT -/
def row_IMG_CREDIT : RegRow := ⟨.IMG_CREDIT, 0x60, 0x8, 1, [
  ⟨31, 24, .ro, 32⟩, ⟨23, 16, .rw, 32⟩, ⟨15, 8, .ro, 32⟩, ⟨7, 0, .rw, 32⟩
  ]⟩
/-- IMG_ERR -/
def row_IMG_ERR : RegRow := ⟨.IMG_ERR, 0x68, 0x8, 1, [
  ⟨5, 5, .w1c, 0⟩, ⟨4, 4, .w1c, 0⟩, ⟨3, 3, .w1c, 0⟩, ⟨2, 2, .w1c, 0⟩, ⟨1, 1, .w1c, 0⟩, ⟨0, 0, .w1c, 0⟩
  ]⟩
/-- IMG_OVERRUN -/
def row_IMG_OVERRUN : RegRow := ⟨.IMG_OVERRUN, 0x70, 0x8, 1, [
  ⟨48, 32, .ro, 0⟩, ⟨31, 16, .ro, 0⟩, ⟨15, 0, .rw, 0⟩
  ]⟩
/-- IMG_SWEEP -/
def row_IMG_SWEEP : RegRow := ⟨.IMG_SWEEP, 0x78, 0x8, 1, [
  ⟨63, 32, .ro, 0⟩, ⟨31, 0, .ro, 0⟩
  ]⟩

/-- Block IMG (21 R692). -/
def block_IMG : BlockDef := ⟨.IMG, 0x300000, 0x10000, 8, 0x10000, 1, [
  row_IMG_CTRL, row_IMG_STATUS, row_IMG_REGION, row_IMG_CYCLE, row_IMG_ABANDON,
  row_IMG_STALE, row_IMG_LT_INDEX, row_IMG_LT_DATA, row_IMG_CREDIT, row_IMG_ERR,
  row_IMG_OVERRUN, row_IMG_SWEEP
  ]⟩

/-- BK_CTRL -/
def row_BK_CTRL : RegRow := ⟨.BK_CTRL, 0x0, 0x8, 1, [
  ⟨15, 15, .w1c, 0⟩, ⟨14, 14, .w1s, 0⟩, ⟨13, 13, .w1c, 0⟩, ⟨9, 9, .ro, 0⟩, ⟨8, 8, .wo, 0⟩, ⟨1, 0, .ro, 3⟩
  ]⟩
/-- BK_OWNER -/
def row_BK_OWNER : RegRow := ⟨.BK_OWNER, 0x8, 0x8, 1, [
  ⟨16, 16, .ro, 0⟩, ⟨13, 8, .wo, 0⟩, ⟨5, 0, .ro, 63⟩
  ]⟩
/-- BK_SHARE -/
def row_BK_SHARE : RegRow := ⟨.BK_SHARE, 0x10, 0x8, 1, [
  ⟨28, 0, .rwl, 0⟩
  ]⟩
/-- BK_STAT -/
def row_BK_STAT : RegRow := ⟨.BK_STAT, 0x18, 0x8, 1, [
  ⟨63, 56, .ro, 32⟩, ⟨55, 48, .ro, 32⟩, ⟨47, 32, .rw, 0⟩, ⟨31, 16, .rw, 0⟩, ⟨5, 0, .ro, 63⟩
  ]⟩

/-- Block BK (21 R692). -/
def block_BK : BlockDef := ⟨.BK, 0x380000, 0x1000, 24, 0x1000, 1, [
  row_BK_CTRL, row_BK_OWNER, row_BK_SHARE, row_BK_STAT
  ]⟩

/-- SW_CTRL -/
def row_SW_CTRL : RegRow := ⟨.SW_CTRL, 0x0, 0x8, 1, [
  ⟨15, 15, .w1c, 0⟩, ⟨14, 14, .w1s, 0⟩, ⟨9, 9, .rwl, 1⟩, ⟨8, 8, .rwl, 0⟩, ⟨7, 0, .rwl, 0⟩
  ]⟩
/-- SW_GROUP_MODE -/
def row_SW_GROUP_MODE : RegRow := ⟨.SW_GROUP_MODE, 0x8, 0x8, 1, [
  ⟨63, 60, .ro, 0⟩, ⟨59, 56, .ro, 0⟩, ⟨55, 52, .ro, 0⟩, ⟨51, 48, .ro, 0⟩, ⟨47, 44, .ro, 0⟩, ⟨43, 40, .ro, 0⟩,
  ⟨39, 36, .ro, 0⟩, ⟨35, 32, .ro, 0⟩, ⟨31, 28, .ro, 0⟩, ⟨27, 24, .ro, 0⟩, ⟨23, 20, .ro, 0⟩, ⟨19, 16, .ro, 0⟩,
  ⟨15, 12, .ro, 0⟩, ⟨11, 8, .ro, 0⟩, ⟨7, 4, .ro, 0⟩, ⟨3, 0, .ro, 0⟩
  ]⟩
/-- SW_PCIE_SPLIT -/
def row_SW_PCIE_SPLIT : RegRow := ⟨.SW_PCIE_SPLIT, 0x10, 0x8, 1, [
  ⟨63, 62, .ro, 3⟩, ⟨61, 60, .ro, 3⟩, ⟨59, 58, .ro, 3⟩, ⟨57, 56, .ro, 3⟩, ⟨55, 54, .ro, 3⟩, ⟨53, 52, .ro, 3⟩,
  ⟨51, 50, .ro, 3⟩, ⟨49, 48, .ro, 3⟩, ⟨47, 46, .ro, 3⟩, ⟨45, 44, .ro, 3⟩, ⟨43, 42, .ro, 3⟩, ⟨41, 40, .ro, 3⟩,
  ⟨39, 38, .ro, 3⟩, ⟨37, 36, .ro, 3⟩, ⟨35, 34, .ro, 3⟩, ⟨33, 32, .ro, 3⟩, ⟨31, 30, .ro, 3⟩, ⟨29, 28, .ro, 3⟩,
  ⟨27, 26, .ro, 3⟩, ⟨25, 24, .ro, 3⟩, ⟨23, 22, .ro, 3⟩, ⟨21, 20, .ro, 3⟩, ⟨19, 18, .ro, 3⟩, ⟨17, 16, .ro, 3⟩,
  ⟨15, 14, .ro, 3⟩, ⟨13, 12, .ro, 3⟩, ⟨11, 10, .ro, 3⟩, ⟨9, 8, .ro, 3⟩, ⟨7, 6, .ro, 3⟩, ⟨5, 4, .ro, 3⟩,
  ⟨3, 2, .ro, 3⟩, ⟨1, 0, .ro, 3⟩
  ]⟩
/-- SW_AGEING -/
def row_SW_AGEING : RegRow := ⟨.SW_AGEING, 0x18, 0x8, 1, [
  ⟨19, 0, .rwl, 300⟩
  ]⟩
/-- SW_TBL_INDEX -/
def row_SW_TBL_INDEX : RegRow := ⟨.SW_TBL_INDEX, 0x20, 0x8, 1, [
  ⟨63, 63, .wo, 0⟩, ⟨62, 61, .rw, 0⟩, ⟨60, 60, .ro, 1⟩, ⟨23, 20, .rw, 0⟩, ⟨16, 0, .rw, 0⟩
  ]⟩
/-- SW_TBL_DATA -/
def row_SW_TBL_DATA : RegRow := ⟨.SW_TBL_DATA, 0x28, 0x8, 4, [
  ⟨63, 0, .rw, 0⟩
  ]⟩
/-- SW_BUF -/
def row_SW_BUF : RegRow := ⟨.SW_BUF, 0x48, 0x8, 1, [
  ⟨63, 44, .ro, 368640⟩, ⟨43, 24, .ro, 368640⟩
  ]⟩
/-- SW_FDB_STAT -/
def row_SW_FDB_STAT : RegRow := ⟨.SW_FDB_STAT, 0x50, 0x8, 1, [
  ⟨63, 32, .rw, 0⟩, ⟨17, 0, .ro, 0⟩
  ]⟩
/-- SW_PTP -/
def row_SW_PTP : RegRow := ⟨.SW_PTP, 0x58, 0x8, 1, [
  ⟨15, 15, .rwl, 1⟩, ⟨14, 8, .rwl, 20⟩, ⟨6, 0, .rwl, 0⟩
  ]⟩
/-- SW_ERR -/
def row_SW_ERR : RegRow := ⟨.SW_ERR, 0x60, 0x8, 1, [
  ⟨6, 6, .w1c, 0⟩, ⟨5, 5, .w1c, 0⟩, ⟨4, 4, .w1c, 0⟩, ⟨3, 3, .w1c, 0⟩, ⟨2, 2, .w1c, 0⟩, ⟨1, 1, .w1c, 0⟩,
  ⟨0, 0, .w1c, 0⟩
  ]⟩

/-- Block SW (21 R692). -/
def block_SW : BlockDef := ⟨.SW, 0x400000, 0x10000, 1, 0x10000, 1, [
  row_SW_CTRL, row_SW_GROUP_MODE, row_SW_PCIE_SPLIT, row_SW_AGEING, row_SW_TBL_INDEX,
  row_SW_TBL_DATA, row_SW_BUF, row_SW_FDB_STAT, row_SW_PTP, row_SW_ERR
  ]⟩

/-- PORT_CTRL -/
def row_PORT_CTRL : RegRow := ⟨.PORT_CTRL, 0x0, 0x8, 1, [
  ⟨15, 15, .w1c, 0⟩, ⟨11, 11, .rwl, 1⟩, ⟨10, 10, .rwl, 1⟩, ⟨9, 8, .rwl, 0⟩, ⟨3, 1, .rwl, 0⟩, ⟨0, 0, .rw, 0⟩
  ]⟩
/-- PORT_STATUS -/
def row_PORT_STATUS : RegRow := ⟨.PORT_STATUS, 0x8, 0x8, 1, [
  ⟨63, 56, .ro, 32⟩, ⟨55, 48, .ro, 32⟩, ⟨23, 20, .ro, 0⟩, ⟨7, 5, .ro, 0⟩, ⟨4, 3, .ro, 0⟩, ⟨2, 2, .ro, 0⟩,
  ⟨1, 1, .ro, 0⟩, ⟨0, 0, .ro, 0⟩
  ]⟩
/-- PORT_AN -/
def row_PORT_AN : RegRow := ⟨.PORT_AN, 0x10, 0x8, 1, [
  ⟨63, 32, .ro, 0⟩, ⟨7, 0, .rwl, 255⟩
  ]⟩
/-- PORT_FEC -/
def row_PORT_FEC : RegRow := ⟨.PORT_FEC, 0x18, 0x8, 1, [
  ⟨63, 32, .rw, 0⟩, ⟨31, 0, .rw, 0⟩
  ]⟩
/-- PORT_MAXFRAME -/
def row_PORT_MAXFRAME : RegRow := ⟨.PORT_MAXFRAME, 0x20, 0x8, 1, [
  ⟨13, 0, .rwl, 1522⟩
  ]⟩
/-- PORT_BUF -/
def row_PORT_BUF : RegRow := ⟨.PORT_BUF, 0x28, 0x8, 1, [
  ⟨63, 44, .ro, 0⟩, ⟨39, 24, .ro, 0⟩, ⟨15, 0, .rwl, 48⟩
  ]⟩
/-- PORT_VLAN -/
def row_PORT_VLAN : RegRow := ⟨.PORT_VLAN, 0x30, 0x8, 1, [
  ⟨18, 16, .rwl, 0⟩, ⟨14, 14, .rwl, 1⟩, ⟨13, 12, .rwl, 0⟩, ⟨11, 0, .rwl, 1⟩
  ]⟩
/-- PORT_TC -/
def row_PORT_TC : RegRow := ⟨.PORT_TC, 0x38, 0x8, 1, [
  ⟨63, 32, .rwl, 0⟩, ⟨23, 0, .rwl, 16434824⟩
  ]⟩
/-- PORT_GATE_CTRL -/
def row_PORT_GATE_CTRL : RegRow := ⟨.PORT_GATE_CTRL, 0x40, 0x8, 1, [
  ⟨63, 32, .rw, 1000000⟩, ⟨31, 21, .rw, 0⟩, ⟨20, 10, .ro, 0⟩, ⟨3, 3, .ro, 0⟩, ⟨2, 2, .wo, 0⟩, ⟨1, 1, .rw, 0⟩
  ]⟩
/-- PORT_GATE_BASE -/
def row_PORT_GATE_BASE : RegRow := ⟨.PORT_GATE_BASE, 0x48, 0x8, 1, [
  ⟨63, 0, .rw, 0⟩
  ]⟩
/-- PORT_GATE_INDEX -/
def row_PORT_GATE_INDEX : RegRow := ⟨.PORT_GATE_INDEX, 0x50, 0x8, 1, [
  ⟨63, 63, .wo, 0⟩, ⟨62, 62, .rw, 0⟩, ⟨61, 61, .ro, 1⟩, ⟨60, 60, .rw, 0⟩, ⟨9, 0, .rw, 0⟩
  ]⟩
/-- PORT_GATE_DATA -/
def row_PORT_GATE_DATA : RegRow := ⟨.PORT_GATE_DATA, 0x58, 0x8, 1, [
  ⟨39, 32, .rw, 255⟩, ⟨31, 0, .rw, 0⟩
  ]⟩
/-- PORT_PREEMPT -/
def row_PORT_PREEMPT : RegRow := ⟨.PORT_PREEMPT, 0x60, 0x8, 1, [
  ⟨23, 16, .rwl, 10⟩, ⟨14, 12, .ro, 0⟩, ⟨11, 11, .rwl, 0⟩, ⟨10, 10, .rwl, 0⟩, ⟨9, 8, .rwl, 0⟩, ⟨7, 0, .rwl, 0⟩
  ]⟩
/-- PORT_PTP -/
def row_PORT_PTP : RegRow := ⟨.PORT_PTP, 0x68, 0x8, 1, [
  ⟨63, 32, .rw, 0⟩, ⟨31, 16, .ro, 0⟩, ⟨1, 1, .rw, 0⟩, ⟨0, 0, .rw, 0⟩
  ]⟩
/-- PORT_CNT -/
def row_PORT_CNT : RegRow := ⟨.PORT_CNT, 0x100, 0x8, 12, [
  ⟨63, 0, .rw, 0⟩
  ]⟩

/-- Block PORT (21 R692). -/
def block_PORT : BlockDef := ⟨.PORT, 0x1000000, 0x10000, 128, 0x10000, 1, [
  row_PORT_CTRL, row_PORT_STATUS, row_PORT_AN, row_PORT_FEC, row_PORT_MAXFRAME,
  row_PORT_BUF, row_PORT_VLAN, row_PORT_TC, row_PORT_GATE_CTRL, row_PORT_GATE_BASE,
  row_PORT_GATE_INDEX, row_PORT_GATE_DATA, row_PORT_PREEMPT, row_PORT_PTP, row_PORT_CNT
  ]⟩

/-- PI_CTRL -/
def row_PI_CTRL : RegRow := ⟨.PI_CTRL, 0x0, 0x8, 1, [
  ⟨33, 33, .rw, 0⟩, ⟨32, 32, .rw, 0⟩, ⟨22, 12, .ro, 0⟩, ⟨11, 10, .ro, 0⟩, ⟨7, 0, .ro, 0⟩
  ]⟩
/-- PI_STATUS -/
def row_PI_STATUS : RegRow := ⟨.PI_STATUS, 0x8, 0x8, 1, [
  ⟨63, 56, .ro, 32⟩, ⟨55, 48, .ro, 32⟩, ⟨47, 32, .rw, 0⟩, ⟨31, 16, .rw, 0⟩, ⟨15, 4, .ro, 0⟩, ⟨0, 0, .ro, 0⟩
  ]⟩
/-- PI_DOORBELL -/
def row_PI_DOORBELL : RegRow := ⟨.PI_DOORBELL, 0x10, 0x8, 1, [
  ⟨39, 32, .wo, 0⟩, ⟨31, 16, .wo, 0⟩, ⟨10, 10, .wo, 0⟩, ⟨9, 0, .wo, 0⟩
  ]⟩
/-- PI_QP_INDEX -/
def row_PI_QP_INDEX : RegRow := ⟨.PI_QP_INDEX, 0x18, 0x8, 1, [
  ⟨63, 63, .wo, 0⟩, ⟨62, 62, .rw, 0⟩, ⟨61, 61, .ro, 1⟩, ⟨11, 10, .rw, 0⟩, ⟨9, 0, .rw, 0⟩
  ]⟩
/-- PI_QP_DATA -/
def row_PI_QP_DATA : RegRow := ⟨.PI_QP_DATA, 0x20, 0x8, 1, [
  ⟨63, 0, .rw, 0⟩
  ]⟩
/-- PI_MBOX_CTRL -/
def row_PI_MBOX_CTRL : RegRow := ⟨.PI_MBOX_CTRL, 0x28, 0x8, 1, [
  ⟨19, 16, .ro, 0⟩, ⟨11, 11, .wo, 0⟩, ⟨10, 10, .ro, 0⟩, ⟨9, 9, .ro, 0⟩, ⟨8, 8, .wo, 0⟩, ⟨4, 4, .rw, 0⟩,
  ⟨3, 0, .rw, 0⟩
  ]⟩
/-- PI_MBOX_DATA -/
def row_PI_MBOX_DATA : RegRow := ⟨.PI_MBOX_DATA, 0x30, 0x8, 1, [
  ⟨63, 0, .rw, 0⟩
  ]⟩
/-- PI_ERR -/
def row_PI_ERR : RegRow := ⟨.PI_ERR, 0x38, 0x8, 1, [
  ⟨63, 48, .rw, 0⟩, ⟨47, 32, .rw, 0⟩, ⟨5, 5, .w1c, 0⟩, ⟨4, 4, .w1c, 0⟩, ⟨3, 3, .w1c, 0⟩, ⟨2, 2, .w1c, 0⟩,
  ⟨1, 1, .w1c, 0⟩, ⟨0, 0, .w1c, 0⟩
  ]⟩

/-- Block PI (21 R692). -/
def block_PI : BlockDef := ⟨.PI, 0x2000000, 0x10000, 256, 0x10000, 1, [
  row_PI_CTRL, row_PI_STATUS, row_PI_DOORBELL, row_PI_QP_INDEX, row_PI_QP_DATA,
  row_PI_MBOX_CTRL, row_PI_MBOX_DATA, row_PI_ERR
  ]⟩

/-- CL_CTRL -/
def row_CL_CTRL : RegRow := ⟨.CL_CTRL, 0x0, 0x8, 1, [
  ⟨20, 20, .w1c, 0⟩, ⟨19, 19, .w1s, 0⟩, ⟨18, 18, .rwl, 1⟩, ⟨17, 17, .rwl, 0⟩, ⟨16, 16, .rw, 1⟩, ⟨15, 8, .rw, 255⟩,
  ⟨7, 0, .rw, 0⟩
  ]⟩
/-- CL_STATUS -/
def row_CL_STATUS : RegRow := ⟨.CL_STATUS, 0x8, 0x8, 1, [
  ⟨63, 56, .ro, 32⟩, ⟨55, 48, .ro, 32⟩, ⟨39, 24, .ro, 0⟩, ⟨17, 16, .ro, 1⟩, ⟨15, 0, .ro, 21845⟩
  ]⟩
/-- CL_PAIR -/
def row_CL_PAIR : RegRow := ⟨.CL_PAIR, 0x10, 0x8, 1, [
  ⟨63, 32, .ro, 0⟩, ⟨15, 0, .ro, 21845⟩
  ]⟩
/-- CL_ERR -/
def row_CL_ERR : RegRow := ⟨.CL_ERR, 0x18, 0x8, 1, [
  ⟨1, 1, .w1c, 0⟩, ⟨0, 0, .w1c, 0⟩
  ]⟩
/-- CL_ISSUE_MAP -/
def row_CL_ISSUE_MAP : RegRow := ⟨.CL_ISSUE_MAP, 0x20, 0x8, 8, [
  ⟨63, 63, .rw, 0⟩, ⟨62, 60, .rw, 0⟩, ⟨59, 59, .rw, 0⟩, ⟨58, 56, .rw, 0⟩, ⟨55, 55, .rw, 0⟩, ⟨54, 52, .rw, 0⟩,
  ⟨51, 51, .rw, 0⟩, ⟨50, 48, .rw, 0⟩, ⟨47, 47, .rw, 0⟩, ⟨46, 44, .rw, 0⟩, ⟨43, 43, .rw, 0⟩, ⟨42, 40, .rw, 0⟩,
  ⟨39, 39, .rw, 0⟩, ⟨38, 36, .rw, 0⟩, ⟨35, 35, .rw, 0⟩, ⟨34, 32, .rw, 0⟩, ⟨31, 31, .rw, 0⟩, ⟨30, 28, .rw, 0⟩,
  ⟨27, 27, .rw, 0⟩, ⟨26, 24, .rw, 0⟩, ⟨23, 23, .rw, 0⟩, ⟨22, 20, .rw, 0⟩, ⟨19, 19, .rw, 0⟩, ⟨18, 16, .rw, 0⟩,
  ⟨15, 15, .rw, 0⟩, ⟨14, 12, .rw, 0⟩, ⟨11, 11, .rw, 0⟩, ⟨10, 8, .rw, 0⟩, ⟨7, 7, .rw, 0⟩, ⟨6, 4, .rw, 0⟩,
  ⟨3, 3, .rw, 0⟩, ⟨2, 0, .rw, 0⟩
  ]⟩

/-- Block CL (21 R692). -/
def block_CL : BlockDef := ⟨.CL, 0x3000000, 0x100000, 24, 0x10000, 1, [
  row_CL_CTRL, row_CL_STATUS, row_CL_PAIR, row_CL_ERR, row_CL_ISSUE_MAP
  ]⟩

/-- MC_CTRL -/
def row_MC_CTRL : RegRow := ⟨.MC_CTRL, 0x0, 0x8, 1, [
  ⟨15, 15, .w1c, 0⟩, ⟨14, 14, .w1s, 0⟩, ⟨13, 13, .w1c, 0⟩, ⟨9, 8, .ro, 0⟩, ⟨3, 2, .ro, 0⟩, ⟨1, 1, .ro, 0⟩
  ]⟩
/-- MC_STATUS -/
def row_MC_STATUS : RegRow := ⟨.MC_STATUS, 0x8, 0x8, 1, [
  ⟨47, 32, .ro, 0⟩, ⟨31, 16, .ro, 0⟩, ⟨7, 4, .ro, 0⟩
  ]⟩
/-- MC_ARB -/
def row_MC_ARB : RegRow := ⟨.MC_ARB, 0x10, 0x8, 1, [
  ⟨1, 0, .rwl, 0⟩
  ]⟩
/-- MC_ARB_WEIGHT -/
def row_MC_ARB_WEIGHT : RegRow := ⟨.MC_ARB_WEIGHT, 0x18, 0x8, 2, [
  ⟨63, 60, .rwl, 0⟩, ⟨59, 56, .rwl, 0⟩, ⟨55, 52, .rwl, 0⟩, ⟨51, 48, .rwl, 0⟩, ⟨47, 44, .rwl, 0⟩, ⟨43, 40, .rwl, 0⟩,
  ⟨39, 36, .rwl, 0⟩, ⟨35, 32, .rwl, 0⟩, ⟨31, 28, .rwl, 0⟩, ⟨27, 24, .rwl, 0⟩, ⟨23, 20, .rwl, 0⟩, ⟨19, 16, .rwl, 0⟩,
  ⟨15, 12, .rwl, 0⟩, ⟨11, 8, .rwl, 0⟩, ⟨7, 4, .rwl, 0⟩, ⟨3, 0, .rwl, 0⟩
  ]⟩
/-- MC_CREDIT -/
def row_MC_CREDIT : RegRow := ⟨.MC_CREDIT, 0x28, 0x8, 1, [
  ⟨39, 32, .ro, 16⟩, ⟨23, 16, .rw, 16⟩, ⟨4, 0, .rw, 0⟩
  ]⟩
/-- MC_ECC -/
def row_MC_ECC : RegRow := ⟨.MC_ECC, 0x30, 0x8, 1, [
  ⟨63, 32, .rw, 0⟩, ⟨31, 16, .rw, 0⟩, ⟨15, 12, .ro, 0⟩, ⟨11, 11, .ro, 0⟩, ⟨10, 8, .ro, 0⟩
  ]⟩
/-- MC_ERR_ADDR -/
def row_MC_ERR_ADDR : RegRow := ⟨.MC_ERR_ADDR, 0x38, 0x8, 1, [
  ⟨63, 63, .w1c, 0⟩, ⟨45, 6, .ro, 0⟩
  ]⟩
/-- MC_MARK -/
def row_MC_MARK : RegRow := ⟨.MC_MARK, 0x40, 0x8, 1, [
  ⟨60, 60, .w1s, 0⟩, ⟨59, 56, .rw, 0⟩, ⟨52, 52, .w1s, 0⟩, ⟨51, 48, .rw, 0⟩, ⟨44, 44, .w1s, 0⟩, ⟨43, 40, .rw, 0⟩,
  ⟨36, 36, .w1s, 0⟩, ⟨35, 32, .rw, 0⟩, ⟨28, 28, .w1s, 0⟩, ⟨27, 24, .rw, 0⟩, ⟨20, 20, .w1s, 0⟩, ⟨19, 16, .rw, 0⟩,
  ⟨12, 12, .w1s, 0⟩, ⟨11, 8, .rw, 0⟩, ⟨4, 4, .w1s, 0⟩, ⟨3, 0, .rw, 0⟩
  ]⟩
/-- MC_SCRUB -/
def row_MC_SCRUB : RegRow := ⟨.MC_SCRUB, 0x48, 0x8, 1, [
  ⟨63, 32, .ro, 0⟩, ⟨23, 16, .rwl, 16⟩, ⟨15, 0, .rwl, 24⟩
  ]⟩
/-- MC_DIR -/
def row_MC_DIR : RegRow := ⟨.MC_DIR, 0x50, 0x8, 1, [
  ⟨63, 32, .rw, 0⟩, ⟨31, 14, .ro, 0⟩
  ]⟩
/-- MC_DIR_BCAST -/
def row_MC_DIR_BCAST : RegRow := ⟨.MC_DIR_BCAST, 0x58, 0x8, 1, [
  ⟨63, 32, .rw, 0⟩, ⟨31, 14, .ro, 0⟩
  ]⟩

/-- Block MC (21 R692). -/
def block_MC : BlockDef := ⟨.MC, 0x4800000, 0x10000, 8, 0x10000, 2, [
  row_MC_CTRL, row_MC_STATUS, row_MC_ARB, row_MC_ARB_WEIGHT, row_MC_CREDIT,
  row_MC_ECC, row_MC_ERR_ADDR, row_MC_MARK, row_MC_SCRUB, row_MC_DIR,
  row_MC_DIR_BCAST
  ]⟩

/-- TWIN_CTRL -/
def row_TWIN_CTRL : RegRow := ⟨.TWIN_CTRL, 0x0, 0x8, 1, [
  ⟨15, 15, .w1c, 0⟩, ⟨14, 14, .w1s, 0⟩, ⟨10, 8, .rwl, 2⟩, ⟨7, 5, .rwl, 0⟩, ⟨4, 4, .rwl, 0⟩, ⟨3, 3, .rwl, 0⟩,
  ⟨2, 2, .rwl, 0⟩, ⟨0, 0, .rwl, 0⟩
  ]⟩
/-- TWIN_STATUS -/
def row_TWIN_STATUS : RegRow := ⟨.TWIN_STATUS, 0x8, 0x8, 1, [
  ⟨63, 56, .ro, 32⟩, ⟨55, 48, .ro, 32⟩, ⟨47, 32, .ro, 0⟩, ⟨31, 16, .ro, 0⟩, ⟨15, 15, .ro, 0⟩, ⟨14, 14, .ro, 0⟩,
  ⟨13, 10, .ro, 0⟩, ⟨9, 6, .ro, 0⟩, ⟨5, 3, .ro, 7⟩, ⟨2, 0, .ro, 3⟩
  ]⟩
/-- TWIN_EPOCH -/
def row_TWIN_EPOCH : RegRow := ⟨.TWIN_EPOCH, 0x10, 0x8, 1, [
  ⟨63, 32, .ro, 0⟩, ⟨31, 0, .ro, 0⟩
  ]⟩
/-- TWIN_LINK -/
def row_TWIN_LINK : RegRow := ⟨.TWIN_LINK, 0x18, 0x8, 1, [
  ⟨57, 52, .rwl, 50⟩, ⟨51, 32, .rwl, 40000⟩, ⟨31, 16, .rwl, 34997⟩, ⟨13, 10, .rwl, 3⟩, ⟨9, 0, .rwl, 10⟩
  ]⟩
/-- TWIN_CMD -/
def row_TWIN_CMD : RegRow := ⟨.TWIN_CMD, 0x20, 0x8, 1, [
  ⟨63, 63, .wo, 0⟩, ⟨62, 62, .ro, 1⟩, ⟨59, 40, .ro, 0⟩, ⟨39, 32, .ro, 0⟩, ⟨31, 16, .ro, 0⟩, ⟨3, 0, .rw, 0⟩
  ]⟩
/-- TWIN_TBL_INDEX -/
def row_TWIN_TBL_INDEX : RegRow := ⟨.TWIN_TBL_INDEX, 0x28, 0x8, 1, [
  ⟨63, 63, .wo, 0⟩, ⟨62, 62, .rw, 0⟩, ⟨61, 61, .ro, 1⟩, ⟨9, 8, .rw, 0⟩, ⟨3, 0, .rw, 0⟩
  ]⟩
/-- TWIN_TBL_DATA -/
def row_TWIN_TBL_DATA : RegRow := ⟨.TWIN_TBL_DATA, 0x30, 0x8, 1, [
  ⟨63, 0, .rw, 0⟩
  ]⟩
/-- TWIN_JNL_VALUE -/
def row_TWIN_JNL_VALUE : RegRow := ⟨.TWIN_JNL_VALUE, 0x38, 0x8, 1, [
  ⟨63, 0, .rw, 0⟩
  ]⟩
/-- TWIN_JNL_TARGET -/
def row_TWIN_JNL_TARGET : RegRow := ⟨.TWIN_JNL_TARGET, 0x40, 0x8, 1, [
  ⟨63, 63, .wo, 0⟩, ⟨62, 48, .ro, 0⟩, ⟨47, 40, .ro, 0⟩, ⟨39, 32, .rw, 0⟩, ⟨31, 29, .rw, 0⟩, ⟨28, 26, .rw, 0⟩,
  ⟨25, 24, .ro, 0⟩, ⟨19, 0, .rw, 0⟩
  ]⟩
/-- TWIN_STAT -/
def row_TWIN_STAT : RegRow := ⟨.TWIN_STAT, 0x48, 0x8, 1, [
  ⟨63, 48, .rw, 0⟩, ⟨47, 32, .rw, 0⟩, ⟨31, 16, .rw, 0⟩, ⟨15, 0, .rw, 0⟩
  ]⟩
/-- TWIN_ERR -/
def row_TWIN_ERR : RegRow := ⟨.TWIN_ERR, 0x50, 0x8, 1, [
  ⟨6, 6, .w1c, 0⟩, ⟨5, 5, .w1c, 0⟩, ⟨4, 4, .w1c, 0⟩, ⟨3, 3, .w1c, 0⟩, ⟨2, 2, .w1c, 0⟩, ⟨1, 1, .w1c, 0⟩,
  ⟨0, 0, .w1c, 0⟩
  ]⟩

/-- Block TWIN (21 R692). -/
def block_TWIN : BlockDef := ⟨.TWIN, 0x4a00000, 0x10000, 1, 0x10000, 1, [
  row_TWIN_CTRL, row_TWIN_STATUS, row_TWIN_EPOCH, row_TWIN_LINK, row_TWIN_CMD,
  row_TWIN_TBL_INDEX, row_TWIN_TBL_DATA, row_TWIN_JNL_VALUE, row_TWIN_JNL_TARGET, row_TWIN_STAT,
  row_TWIN_ERR
  ]⟩

/-- HIST_CTRL -/
def row_HIST_CTRL : RegRow := ⟨.HIST_CTRL, 0x0, 0x8, 1, [
  ⟨31, 16, .rwl, 0⟩, ⟨15, 15, .w1c, 0⟩, ⟨14, 14, .w1s, 0⟩, ⟨13, 8, .rwl, 10⟩, ⟨6, 6, .rwl, 0⟩, ⟨5, 4, .rwl, 2⟩,
  ⟨3, 1, .rwl, 0⟩, ⟨0, 0, .rw, 0⟩
  ]⟩
/-- HIST_STATUS -/
def row_HIST_STATUS : RegRow := ⟨.HIST_STATUS, 0x8, 0x8, 1, [
  ⟨54, 32, .ro, 0⟩, ⟨23, 8, .ro, 0⟩, ⟨2, 0, .ro, 0⟩
  ]⟩
/-- HIST_LOG -/
def row_HIST_LOG : RegRow := ⟨.HIST_LOG, 0x10, 0x8, 1, [
  ⟨55, 32, .ro, 0⟩, ⟨22, 0, .ro, 0⟩
  ]⟩
/-- HIST_TBL_INDEX -/
def row_HIST_TBL_INDEX : RegRow := ⟨.HIST_TBL_INDEX, 0x18, 0x8, 1, [
  ⟨63, 63, .wo, 0⟩, ⟨62, 62, .rw, 0⟩, ⟨61, 61, .ro, 1⟩, ⟨23, 22, .rw, 0⟩, ⟨19, 0, .rw, 0⟩
  ]⟩
/-- HIST_TBL_DATA0 -/
def row_HIST_TBL_DATA0 : RegRow := ⟨.HIST_TBL_DATA0, 0x20, 0x8, 1, [
  ⟨63, 0, .rw, 0⟩
  ]⟩
/-- HIST_TBL_DATA1 -/
def row_HIST_TBL_DATA1 : RegRow := ⟨.HIST_TBL_DATA1, 0x28, 0x8, 1, [
  ⟨63, 0, .rw, 0⟩
  ]⟩
/-- HIST_CQ -/
def row_HIST_CQ : RegRow := ⟨.HIST_CQ, 0x30, 0x8, 1, [
  ⟨31, 16, .ro, 0⟩, ⟨15, 0, .rw, 0⟩
  ]⟩
/-- HIST_STAT -/
def row_HIST_STAT : RegRow := ⟨.HIST_STAT, 0x38, 0x8, 1, [
  ⟨63, 48, .rw, 0⟩, ⟨47, 32, .rw, 0⟩, ⟨31, 16, .rw, 0⟩, ⟨15, 0, .rw, 0⟩
  ]⟩
/-- HIST_SEGERR -/
def row_HIST_SEGERR : RegRow := ⟨.HIST_SEGERR, 0x40, 0x8, 1, [
  ⟨49, 48, .ro, 0⟩, ⟨47, 32, .ro, 0⟩, ⟨22, 0, .ro, 0⟩
  ]⟩
/-- HIST_ERR -/
def row_HIST_ERR : RegRow := ⟨.HIST_ERR, 0x48, 0x8, 1, [
  ⟨7, 7, .w1c, 0⟩, ⟨6, 6, .w1c, 0⟩, ⟨5, 5, .w1c, 0⟩, ⟨4, 4, .w1c, 0⟩, ⟨3, 3, .w1c, 0⟩, ⟨2, 2, .w1c, 0⟩,
  ⟨0, 0, .w1c, 0⟩
  ]⟩
/-- HIST_CREDIT -/
def row_HIST_CREDIT : RegRow := ⟨.HIST_CREDIT, 0x50, 0x8, 1, [
  ⟨15, 8, .ro, 32⟩, ⟨7, 0, .rw, 32⟩
  ]⟩

/-- Block HIST (21 R692). -/
def block_HIST : BlockDef := ⟨.HIST, 0x4b00000, 0x10000, 1, 0x10000, 1, [
  row_HIST_CTRL, row_HIST_STATUS, row_HIST_LOG, row_HIST_TBL_INDEX, row_HIST_TBL_DATA0,
  row_HIST_TBL_DATA1, row_HIST_CQ, row_HIST_STAT, row_HIST_SEGERR, row_HIST_ERR,
  row_HIST_CREDIT
  ]⟩

/-- SMP_CTRL -/
def row_SMP_CTRL : RegRow := ⟨.SMP_CTRL, 0x0, 0x8, 1, [
  ⟨15, 15, .w1c, 0⟩, ⟨14, 14, .w1s, 0⟩, ⟨13, 13, .w1c, 0⟩, ⟨10, 8, .rwl, 1⟩, ⟨0, 0, .wo, 0⟩
  ]⟩
/-- SMP_STATUS -/
def row_SMP_STATUS : RegRow := ⟨.SMP_STATUS, 0x8, 0x8, 1, [
  ⟨63, 32, .ro, 0⟩, ⟨31, 28, .ro, 0⟩, ⟨27, 14, .ro, 0⟩, ⟨10, 0, .ro, 0⟩
  ]⟩
/-- SMP_RD_CTRL -/
def row_SMP_RD_CTRL : RegRow := ⟨.SMP_RD_CTRL, 0x10, 0x8, 1, [
  ⟨63, 63, .wo, 0⟩, ⟨62, 62, .ro, 1⟩, ⟨61, 61, .ro, 0⟩, ⟨60, 60, .rw, 0⟩, ⟨45, 32, .rw, 0⟩, ⟨4, 0, .rw, 0⟩
  ]⟩
/-- SMP_RD_DATA -/
def row_SMP_RD_DATA : RegRow := ⟨.SMP_RD_DATA, 0x18, 0x8, 1, [
  ⟨63, 0, .ro, 0⟩
  ]⟩
/-- SMP_DROPPED -/
def row_SMP_DROPPED : RegRow := ⟨.SMP_DROPPED, 0x20, 0x8, 1, [
  ⟨63, 48, .rw, 0⟩, ⟨47, 40, .rw, 0⟩, ⟨39, 32, .rw, 0⟩, ⟨31, 24, .rw, 0⟩, ⟨23, 16, .rw, 0⟩, ⟨15, 8, .rw, 0⟩,
  ⟨7, 0, .rw, 0⟩
  ]⟩
/-- SMP_DARN_CTRL -/
def row_SMP_DARN_CTRL : RegRow := ⟨.SMP_DARN_CTRL, 0x28, 0x8, 1, [
  ⟨45, 32, .rwl, 100⟩, ⟨31, 24, .rwl, 255⟩, ⟨23, 0, .rwl, 16777215⟩
  ]⟩
/-- SMP_DARN_STAT -/
def row_SMP_DARN_STAT : RegRow := ⟨.SMP_DARN_STAT, 0x30, 0x8, 1, [
  ⟨63, 48, .ro, 0⟩, ⟨47, 40, .rw, 0⟩, ⟨36, 36, .ro, 0⟩, ⟨35, 31, .ro, 0⟩, ⟨30, 18, .ro, 0⟩, ⟨17, 0, .ro, 0⟩
  ]⟩

/-- Block SMP (21 R692). -/
def block_SMP : BlockDef := ⟨.SMP, 0x4c00000, 0x10000, 1, 0x10000, 1, [
  row_SMP_CTRL, row_SMP_STATUS, row_SMP_RD_CTRL, row_SMP_RD_DATA, row_SMP_DROPPED,
  row_SMP_DARN_CTRL, row_SMP_DARN_STAT
  ]⟩

/-- TRC_CTRL -/
def row_TRC_CTRL : RegRow := ⟨.TRC_CTRL, 0x0, 0x8, 1, [
  ⟨31, 16, .rwl, 100⟩, ⟨15, 15, .w1c, 0⟩, ⟨14, 14, .w1s, 0⟩, ⟨13, 13, .w1c, 0⟩, ⟨12, 11, .rwl, 0⟩, ⟨10, 6, .rwl, 0⟩,
  ⟨0, 0, .rw, 0⟩
  ]⟩
/-- TRC_STATUS -/
def row_TRC_STATUS : RegRow := ⟨.TRC_STATUS, 0x8, 0x8, 1, [
  ⟨63, 56, .ro, 32⟩, ⟨55, 48, .ro, 32⟩, ⟨47, 25, .ro, 0⟩, ⟨24, 24, .ro, 0⟩, ⟨23, 22, .ro, 0⟩, ⟨21, 21, .w1c, 0⟩,
  ⟨16, 0, .ro, 0⟩
  ]⟩
/-- TRC_TRIG -/
def row_TRC_TRIG : RegRow := ⟨.TRC_TRIG, 0x10, 0x8, 1, [
  ⟨63, 32, .rw, 0⟩, ⟨31, 31, .rw, 0⟩, ⟨30, 30, .wo, 0⟩, ⟨29, 27, .rw, 4⟩, ⟨26, 24, .rw, 0⟩, ⟨15, 0, .rw, 0⟩
  ]⟩
/-- TRC_SRC_INDEX -/
def row_TRC_SRC_INDEX : RegRow := ⟨.TRC_SRC_INDEX, 0x18, 0x8, 1, [
  ⟨63, 63, .wo, 0⟩, ⟨62, 62, .rw, 0⟩, ⟨61, 61, .ro, 1⟩, ⟨10, 0, .rw, 0⟩
  ]⟩
/-- TRC_SRC_DATA -/
def row_TRC_SRC_DATA : RegRow := ⟨.TRC_SRC_DATA, 0x20, 0x8, 1, [
  ⟨63, 32, .rw, 0⟩, ⟨4, 4, .wo, 0⟩, ⟨3, 3, .rw, 0⟩, ⟨2, 1, .rw, 0⟩, ⟨0, 0, .rw, 0⟩
  ]⟩

/-- Block TRC (21 R692). -/
def block_TRC : BlockDef := ⟨.TRC, 0x4d00000, 0x10000, 1, 0x10000, 1, [
  row_TRC_CTRL, row_TRC_STATUS, row_TRC_TRIG, row_TRC_SRC_INDEX, row_TRC_SRC_DATA
  ]⟩

/-- CTR_CTRL -/
def row_CTR_CTRL : RegRow := ⟨.CTR_CTRL, 0x0, 0x8, 1, [
  ⟨63, 44, .rwl, 1000⟩, ⟨43, 28, .rwl, 0⟩, ⟨27, 25, .rwl, 0⟩, ⟨24, 22, .rwl, 0⟩, ⟨21, 20, .rw, 0⟩, ⟨19, 19, .wo, 0⟩,
  ⟨18, 18, .ro, 0⟩, ⟨17, 17, .w1c, 0⟩, ⟨16, 16, .rw, 0⟩, ⟨15, 15, .w1c, 0⟩, ⟨14, 14, .w1s, 0⟩, ⟨13, 13, .w1c, 0⟩
  ]⟩
/-- CTR_BUF -/
def row_CTR_BUF : RegRow := ⟨.CTR_BUF, 0x8, 0x8, 1, [
  ⟨63, 63, .rwl, 0⟩, ⟨62, 58, .rwl, 0⟩, ⟨57, 53, .rwl, 0⟩, ⟨45, 12, .rwl, 0⟩
  ]⟩
/-- CTR_STATUS -/
def row_CTR_STATUS : RegRow := ⟨.CTR_STATUS, 0x10, 0x8, 1, [
  ⟨63, 48, .rw, 0⟩, ⟨47, 20, .ro, 0⟩, ⟨19, 19, .ro, 0⟩
  ]⟩
/-- CTR_ACCESS -/
def row_CTR_ACCESS : RegRow := ⟨.CTR_ACCESS, 0x18, 0x8, 1, [
  ⟨63, 63, .wo, 0⟩, ⟨62, 62, .rw, 0⟩, ⟨61, 61, .ro, 1⟩, ⟨60, 60, .rw, 0⟩, ⟨59, 48, .rw, 0⟩, ⟨47, 0, .rw, 0⟩
  ]⟩

/-- Block CTR (21 R692). -/
def block_CTR : BlockDef := ⟨.CTR, 0x4e00000, 0x10000, 1, 0x10000, 1, [
  row_CTR_CTRL, row_CTR_BUF, row_CTR_STATUS, row_CTR_ACCESS
  ]⟩

/-- PWR_CTRL -/
def row_PWR_CTRL : RegRow := ⟨.PWR_CTRL, 0x0, 0x8, 1, [
  ⟨25, 16, .rwl, 700⟩, ⟨15, 15, .w1c, 0⟩, ⟨14, 14, .w1s, 0⟩, ⟨13, 13, .w1c, 0⟩, ⟨0, 0, .rwl, 1⟩
  ]⟩
/-- PWR_STATUS -/
def row_PWR_STATUS : RegRow := ⟨.PWR_STATUS, 0x8, 0x8, 1, [
  ⟨63, 56, .ro, 0⟩, ⟨55, 46, .ro, 800⟩, ⟨31, 16, .ro, 0⟩, ⟨15, 8, .ro, 0⟩, ⟨7, 7, .ro, 0⟩, ⟨6, 6, .ro, 0⟩,
  ⟨5, 5, .ro, 0⟩, ⟨4, 4, .ro, 0⟩, ⟨3, 3, .ro, 0⟩, ⟨1, 0, .ro, 0⟩
  ]⟩
/-- PWR_DOM_INDEX -/
def row_PWR_DOM_INDEX : RegRow := ⟨.PWR_DOM_INDEX, 0x10, 0x8, 1, [
  ⟨63, 63, .wo, 0⟩, ⟨62, 62, .rw, 0⟩, ⟨61, 61, .ro, 1⟩, ⟨6, 0, .rw, 0⟩
  ]⟩
/-- PWR_DOM_DATA -/
def row_PWR_DOM_DATA : RegRow := ⟨.PWR_DOM_DATA, 0x18, 0x8, 1, [
  ⟨47, 32, .ro, 0⟩, ⟨7, 4, .ro, 0⟩, ⟨0, 0, .rw, 0⟩
  ]⟩

/-- Block PWR (21 R692). -/
def block_PWR : BlockDef := ⟨.PWR, 0x4f00000, 0x10000, 1, 0x10000, 1, [
  row_PWR_CTRL, row_PWR_STATUS, row_PWR_DOM_INDEX, row_PWR_DOM_DATA
  ]⟩

/-- DBG_VT_TX -/
def row_DBG_VT_TX : RegRow := ⟨.DBG_VT_TX, 0x0, 0x8, 1, [
  ⟨63, 63, .ro, 0⟩, ⟨62, 62, .ro, 0⟩, ⟨58, 56, .rw, 0⟩, ⟨55, 0, .rw, 0⟩
  ]⟩
/-- DBG_VT_RX -/
def row_DBG_VT_RX : RegRow := ⟨.DBG_VT_RX, 0x8, 0x8, 1, [
  ⟨63, 63, .ro, 0⟩, ⟨62, 62, .wo, 0⟩, ⟨60, 60, .rw, 0⟩, ⟨58, 56, .ro, 0⟩, ⟨55, 0, .ro, 0⟩
  ]⟩
/-- DBG_CTRL -/
def row_DBG_CTRL : RegRow := ⟨.DBG_CTRL, 0x1000, 0x8, 1, [
  ⟨15, 15, .w1c, 0⟩, ⟨14, 14, .w1s, 0⟩, ⟨13, 13, .w1c, 0⟩, ⟨0, 0, .rwl, 0⟩
  ]⟩
/-- DBG_STATUS -/
def row_DBG_STATUS : RegRow := ⟨.DBG_STATUS, 0x1008, 0x8, 1, [
  ⟨63, 48, .ro, 0⟩, ⟨47, 44, .ro, 0⟩, ⟨43, 41, .ro, 0⟩, ⟨40, 40, .ro, 0⟩, ⟨35, 34, .ro, 0⟩, ⟨33, 32, .ro, 0⟩,
  ⟨31, 31, .ro, 0⟩
  ]⟩
/-- DBG_AUTH -/
def row_DBG_AUTH : RegRow := ⟨.DBG_AUTH, 0x1010, 0x8, 1, [
  ⟨63, 63, .wo, 0⟩, ⟨62, 62, .ro, 1⟩, ⟨61, 60, .rw, 0⟩, ⟨59, 58, .rw, 1⟩, ⟨55, 52, .ro, 0⟩, ⟨45, 6, .rw, 0⟩
  ]⟩

/-- Block DBG (21 R692). -/
def block_DBG : BlockDef := ⟨.DBG, 0x5000000, 0x2000, 1, 0x2000, 1, [
  row_DBG_VT_TX, row_DBG_VT_RX, row_DBG_CTRL, row_DBG_STATUS, row_DBG_AUTH
  ]⟩

/-- Every block, in the order of 21 R692. -/
def allBlocks : List BlockDef := [
  block_MGR, block_CFG, block_CYC, block_IMG, block_BK, block_SW,
  block_PORT, block_PI, block_CL, block_MC, block_TWIN, block_HIST,
  block_SMP, block_TRC, block_CTR, block_PWR, block_DBG
  ]

/-! Offsets of the registers, counted from 0x3F00_0000_0000 (21 R692, R701). -/

def BK_CTRL (n : Nat) : Nat := 0x380000 + n * 0x1000
def BK_OWNER (n : Nat) : Nat := 0x380008 + n * 0x1000
def BK_SHARE (n : Nat) : Nat := 0x380010 + n * 0x1000
def BK_STAT (n : Nat) : Nat := 0x380018 + n * 0x1000
def IMG_CTRL (k : Nat) : Nat := 0x300000 + k * 0x10000
def IMG_STATUS (k : Nat) : Nat := 0x300008 + k * 0x10000
def IMG_REGION (k : Nat) (j : Nat) : Nat := 0x300010 + k * 0x10000 + j * 0x8
def IMG_CYCLE (k : Nat) : Nat := 0x300028 + k * 0x10000
def IMG_ABANDON (k : Nat) (j : Nat) : Nat := 0x300030 + k * 0x10000 + j * 0x8
def IMG_STALE (k : Nat) (j : Nat) : Nat := 0x300040 + k * 0x10000 + j * 0x8
def IMG_LT_INDEX (k : Nat) : Nat := 0x300050 + k * 0x10000
def IMG_LT_DATA (k : Nat) : Nat := 0x300058 + k * 0x10000
def IMG_CREDIT (k : Nat) : Nat := 0x300060 + k * 0x10000
def IMG_ERR (k : Nat) : Nat := 0x300068 + k * 0x10000
def IMG_OVERRUN (k : Nat) : Nat := 0x300070 + k * 0x10000
def IMG_SWEEP (k : Nat) : Nat := 0x300078 + k * 0x10000
def CYC_CTRL : Nat := 0x200000
def CYC_TIME : Nat := 0x200008
def CYC_TIME_FRAC : Nat := 0x200010
def CYC_TIME_STATUS : Nat := 0x200018
def CYC_TBL_INDEX : Nat := 0x200020
def CYC_TBL_DATA0 : Nat := 0x200028
def CYC_TBL_DATA1 : Nat := 0x200030
def CYC_ERR : Nat := 0x200038
def CYC_CLASS_CTRL (c : Nat) : Nat := 0x200100 + c * 0x80
def CYC_PERIOD (c : Nat) : Nat := 0x200108 + c * 0x80
def CYC_EPOCH (c : Nat) : Nat := 0x200110 + c * 0x80
def CYC_NUMBER (c : Nat) : Nat := 0x200118 + c * 0x80
def CYC_NEXT_T0 (c : Nat) : Nat := 0x200120 + c * 0x80
def CYC_INPUT (c : Nat) : Nat := 0x200128 + c * 0x80
def CYC_FLOW (c : Nat) : Nat := 0x200130 + c * 0x80
def CYC_OVERRUN (c : Nat) : Nat := 0x200138 + c * 0x80
def CYC_HWM (c : Nat) : Nat := 0x200140 + c * 0x80
def CYC_SPAN (c : Nat) : Nat := 0x200148 + c * 0x80
def SW_CTRL : Nat := 0x400000
def SW_GROUP_MODE : Nat := 0x400008
def SW_PCIE_SPLIT : Nat := 0x400010
def SW_AGEING : Nat := 0x400018
def SW_TBL_INDEX : Nat := 0x400020
def SW_TBL_DATA (j : Nat) : Nat := 0x400028 + j * 0x8
def SW_BUF : Nat := 0x400048
def SW_FDB_STAT : Nat := 0x400050
def SW_PTP : Nat := 0x400058
def SW_ERR : Nat := 0x400060
def PORT_CTRL (p : Nat) : Nat := 0x1000000 + p * 0x10000
def PORT_STATUS (p : Nat) : Nat := 0x1000008 + p * 0x10000
def PORT_AN (p : Nat) : Nat := 0x1000010 + p * 0x10000
def PORT_FEC (p : Nat) : Nat := 0x1000018 + p * 0x10000
def PORT_MAXFRAME (p : Nat) : Nat := 0x1000020 + p * 0x10000
def PORT_BUF (p : Nat) : Nat := 0x1000028 + p * 0x10000
def PORT_VLAN (p : Nat) : Nat := 0x1000030 + p * 0x10000
def PORT_TC (p : Nat) : Nat := 0x1000038 + p * 0x10000
def PORT_GATE_CTRL (p : Nat) : Nat := 0x1000040 + p * 0x10000
def PORT_GATE_BASE (p : Nat) : Nat := 0x1000048 + p * 0x10000
def PORT_GATE_INDEX (p : Nat) : Nat := 0x1000050 + p * 0x10000
def PORT_GATE_DATA (p : Nat) : Nat := 0x1000058 + p * 0x10000
def PORT_PREEMPT (p : Nat) : Nat := 0x1000060 + p * 0x10000
def PORT_PTP (p : Nat) : Nat := 0x1000068 + p * 0x10000
def PORT_CNT (p : Nat) (j : Nat) : Nat := 0x1000100 + p * 0x10000 + j * 0x8
def PI_CTRL (i : Nat) : Nat := 0x2000000 + i * 0x10000
def PI_STATUS (i : Nat) : Nat := 0x2000008 + i * 0x10000
def PI_DOORBELL (i : Nat) : Nat := 0x2000010 + i * 0x10000
def PI_QP_INDEX (i : Nat) : Nat := 0x2000018 + i * 0x10000
def PI_QP_DATA (i : Nat) : Nat := 0x2000020 + i * 0x10000
def PI_MBOX_CTRL (i : Nat) : Nat := 0x2000028 + i * 0x10000
def PI_MBOX_DATA (i : Nat) : Nat := 0x2000030 + i * 0x10000
def PI_ERR (i : Nat) : Nat := 0x2000038 + i * 0x10000
def TWIN_CTRL : Nat := 0x4A00000
def TWIN_STATUS : Nat := 0x4A00008
def TWIN_EPOCH : Nat := 0x4A00010
def TWIN_LINK : Nat := 0x4A00018
def TWIN_CMD : Nat := 0x4A00020
def TWIN_TBL_INDEX : Nat := 0x4A00028
def TWIN_TBL_DATA : Nat := 0x4A00030
def TWIN_JNL_VALUE : Nat := 0x4A00038
def TWIN_JNL_TARGET : Nat := 0x4A00040
def TWIN_STAT : Nat := 0x4A00048
def TWIN_ERR : Nat := 0x4A00050
def HIST_CTRL : Nat := 0x4B00000
def HIST_STATUS : Nat := 0x4B00008
def HIST_LOG : Nat := 0x4B00010
def HIST_TBL_INDEX : Nat := 0x4B00018
def HIST_TBL_DATA0 : Nat := 0x4B00020
def HIST_TBL_DATA1 : Nat := 0x4B00028
def HIST_CQ : Nat := 0x4B00030
def HIST_STAT : Nat := 0x4B00038
def HIST_SEGERR : Nat := 0x4B00040
def HIST_ERR : Nat := 0x4B00048
def HIST_CREDIT : Nat := 0x4B00050
def CL_CTRL (c : Nat) : Nat := 0x3000000 + c * 0x100000
def CL_STATUS (c : Nat) : Nat := 0x3000008 + c * 0x100000
def CL_PAIR (c : Nat) : Nat := 0x3000010 + c * 0x100000
def CL_ERR (c : Nat) : Nat := 0x3000018 + c * 0x100000
def CL_ISSUE_MAP (c : Nat) (j : Nat) : Nat := 0x3000020 + c * 0x100000 + j * 0x8
def MC_CTRL (ch : Nat) : Nat := 0x4800000 + (ch / 2) * 0x10000 + (ch % 2) * 0x100
def MC_STATUS (ch : Nat) : Nat := 0x4800008 + (ch / 2) * 0x10000 + (ch % 2) * 0x100
def MC_ARB (ch : Nat) : Nat := 0x4800010 + (ch / 2) * 0x10000 + (ch % 2) * 0x100
def MC_ARB_WEIGHT (ch : Nat) (j : Nat) : Nat := 0x4800018 + (ch / 2) * 0x10000 + (ch % 2) * 0x100 + j * 0x8
def MC_CREDIT (ch : Nat) : Nat := 0x4800028 + (ch / 2) * 0x10000 + (ch % 2) * 0x100
def MC_ECC (ch : Nat) : Nat := 0x4800030 + (ch / 2) * 0x10000 + (ch % 2) * 0x100
def MC_ERR_ADDR (ch : Nat) : Nat := 0x4800038 + (ch / 2) * 0x10000 + (ch % 2) * 0x100
def MC_MARK (ch : Nat) : Nat := 0x4800040 + (ch / 2) * 0x10000 + (ch % 2) * 0x100
def MC_SCRUB (ch : Nat) : Nat := 0x4800048 + (ch / 2) * 0x10000 + (ch % 2) * 0x100
def MC_DIR (ch : Nat) : Nat := 0x4800050 + (ch / 2) * 0x10000 + (ch % 2) * 0x100
def MC_DIR_BCAST (ch : Nat) : Nat := 0x4800058 + (ch / 2) * 0x10000 + (ch % 2) * 0x100
def MGR_INFO : Nat := 0x0
def MGR_PART_STATUS : Nat := 0x8
def MGR_MBOX_CTRL : Nat := 0x10
def MGR_MBOX_DATA : Nat := 0x18
def MGR_GATE_OP : Nat := 0x20
def MGR_GATE_RESULT : Nat := 0x28
def MGR_ERR : Nat := 0x30
def CFG_ACTIVE : Nat := 0x100000
def CFG_SLOT (j : Nat) : Nat := 0x100008 + j * 0x8
def CFG_LC : Nat := 0x100018
def CFG_APPLY_ERR : Nat := 0x100020
def SMP_CTRL : Nat := 0x4C00000
def SMP_STATUS : Nat := 0x4C00008
def SMP_RD_CTRL : Nat := 0x4C00010
def SMP_RD_DATA : Nat := 0x4C00018
def SMP_DROPPED : Nat := 0x4C00020
def SMP_DARN_CTRL : Nat := 0x4C00028
def SMP_DARN_STAT : Nat := 0x4C00030
def DBG_VT_TX : Nat := 0x5000000
def DBG_VT_RX : Nat := 0x5000008
def DBG_CTRL : Nat := 0x5001000
def DBG_STATUS : Nat := 0x5001008
def DBG_AUTH : Nat := 0x5001010
def TRC_CTRL : Nat := 0x4D00000
def TRC_STATUS : Nat := 0x4D00008
def TRC_TRIG : Nat := 0x4D00010
def TRC_SRC_INDEX : Nat := 0x4D00018
def TRC_SRC_DATA : Nat := 0x4D00020
def CTR_CTRL : Nat := 0x4E00000
def CTR_BUF : Nat := 0x4E00008
def CTR_STATUS : Nat := 0x4E00010
def CTR_ACCESS : Nat := 0x4E00018
def PWR_CTRL : Nat := 0x4F00000
def PWR_STATUS : Nat := 0x4F00008
def PWR_DOM_INDEX : Nat := 0x4F00010
def PWR_DOM_DATA : Nat := 0x4F00018

/-! Bit ranges (msb, lsb) of the fields. -/

def BK_CTRL_LOCK_VIOLATION : Nat × Nat := (15, 15)
def BK_CTRL_LOCK : Nat × Nat := (14, 14)
def BK_CTRL_HDROP : Nat × Nat := (13, 13)
def BK_CTRL_CLEAR_BUSY : Nat × Nat := (9, 9)
def BK_CTRL_CLEAR : Nat × Nat := (8, 8)
def BK_CTRL_MODE : Nat × Nat := (1, 0)
def BK_OWNER_HBUSY : Nat × Nat := (16, 16)
def BK_OWNER_NEXT : Nat × Nat := (13, 8)
def BK_OWNER_OWNER : Nat × Nat := (5, 0)
def BK_SHARE_MASK : Nat × Nat := (28, 0)
def BK_STAT_CREDIT_DEPTH : Nat × Nat := (63, 56)
def BK_STAT_CREDITS : Nat × Nat := (55, 48)
def BK_STAT_SPLIT_PARTIAL : Nat × Nat := (47, 32)
def BK_STAT_REFUSED : Nat × Nat := (31, 16)
def BK_STAT_LAST_REFUSED : Nat × Nat := (5, 0)
def IMG_CTRL_LOCK_VIOLATION : Nat × Nat := (9, 9)
def IMG_CTRL_LOCK : Nat × Nat := (8, 8)
def IMG_CTRL_CLASS : Nat × Nat := (6, 4)
def IMG_CTRL_ENABLE : Nat × Nat := (0, 0)
def IMG_STATUS_ABANDON_BUSY : Nat × Nat := (3, 2)
def IMG_STATUS_INIT_BUSY : Nat × Nat := (1, 1)
def IMG_STATUS_RUNNING : Nat × Nat := (0, 0)
def IMG_REGION_OWNER : Nat × Nat := (45, 40)
def IMG_REGION_KIND : Nat × Nat := (36, 35)
def IMG_REGION_COUNT : Nat × Nat := (34, 17)
def IMG_REGION_BASE : Nat × Nat := (16, 0)
def IMG_CYCLE_COMMITTED : Nat × Nat := (31, 16)
def IMG_CYCLE_FILL : Nat × Nat := (15, 0)
def IMG_ABANDON_BUSY : Nat × Nat := (63, 63)
def IMG_ABANDON_REGIONS : Nat × Nat := (18, 16)
def IMG_ABANDON_STAMP : Nat × Nat := (15, 0)
def IMG_STALE_LIMIT (i : Nat) : Nat × Nat := (16 * i + 14, 16 * i)
def IMG_LT_INDEX_GO : Nat × Nat := (63, 63)
def IMG_LT_INDEX_WRITE : Nat × Nat := (62, 62)
def IMG_LT_INDEX_DONE : Nat × Nat := (61, 61)
def IMG_LT_INDEX_LINE : Nat × Nat := (16, 0)
def IMG_LT_DATA_ENTRY : Nat × Nat := (38, 0)
def IMG_CREDIT_GATHER_CREDITS : Nat × Nat := (31, 24)
def IMG_CREDIT_GATHER_DEPTH : Nat × Nat := (23, 16)
def IMG_CREDIT_SCATTER_CREDITS : Nat × Nat := (15, 8)
def IMG_CREDIT_SCATTER_DEPTH : Nat × Nat := (7, 0)
def IMG_ERR_REFUSED : Nat × Nat := (5, 5)
def IMG_ERR_LATE_WRITE : Nat × Nat := (4, 4)
def IMG_ERR_ABANDON_REFUSED : Nat × Nat := (3, 3)
def IMG_ERR_LT_RUNNING : Nat × Nat := (2, 2)
def IMG_ERR_BAD_POLICY : Nat × Nat := (1, 1)
def IMG_ERR_REGION : Nat × Nat := (0, 0)
def IMG_OVERRUN_LAST_LINE : Nat × Nat := (48, 32)
def IMG_OVERRUN_LAST_P : Nat × Nat := (31, 16)
def IMG_OVERRUN_COUNT : Nat × Nat := (15, 0)
def IMG_SWEEP_PASSES : Nat × Nat := (63, 32)
def IMG_SWEEP_CLAMPS : Nat × Nat := (31, 0)
def CYC_CTRL_LOCK_VIOLATION : Nat × Nat := (15, 15)
def CYC_CTRL_LOCK : Nat × Nat := (14, 14)
def CYC_CTRL_SLEW_MAX : Nat × Nat := (9, 2)
def CYC_CTRL_TSRC : Nat × Nat := (1, 0)
def CYC_TIME_NS : Nat × Nat := (63, 0)
def CYC_TIME_FRAC_RATE : Nat × Nat := (63, 32)
def CYC_TIME_FRAC_FRAC : Nat × Nat := (15, 0)
def CYC_TIME_STATUS_OFFSET : Nat × Nat := (63, 32)
def CYC_TIME_STATUS_STEP_DEFERRED : Nat × Nat := (2, 2)
def CYC_TIME_STATUS_STATE : Nat × Nat := (1, 0)
def CYC_TBL_INDEX_GO : Nat × Nat := (63, 63)
def CYC_TBL_INDEX_WRITE : Nat × Nat := (62, 62)
def CYC_TBL_INDEX_DONE : Nat × Nat := (61, 61)
def CYC_TBL_INDEX_TABLE : Nat × Nat := (23, 20)
def CYC_TBL_INDEX_INDEX : Nat × Nat := (15, 0)
def CYC_TBL_DATA0_DATA : Nat × Nat := (63, 0)
def CYC_TBL_DATA1_DATA : Nat × Nat := (63, 0)
def CYC_ERR_BAD_VALUE : Nat × Nat := (5, 5)
def CYC_ERR_DESC : Nat × Nat := (4, 4)
def CYC_ERR_REACTION : Nat × Nat := (3, 3)
def CYC_ERR_STREAM : Nat × Nat := (2, 2)
def CYC_ERR_RUNNING : Nat × Nat := (1, 1)
def CYC_ERR_TBL_RANGE : Nat × Nat := (0, 0)
def CYC_CLASS_CTRL_CHECK : Nat × Nat := (7, 4)
def CYC_CLASS_CTRL_STOPPING : Nat × Nat := (2, 2)
def CYC_CLASS_CTRL_RUNNING : Nat × Nat := (1, 1)
def CYC_CLASS_CTRL_ENABLE : Nat × Nat := (0, 0)
def CYC_PERIOD_PERIOD : Nat × Nat := (21, 0)
def CYC_EPOCH_EPOCH : Nat × Nat := (63, 0)
def CYC_NUMBER_NUMBER : Nat × Nat := (63, 0)
def CYC_NEXT_T0_T0 : Nat × Nat := (63, 0)
def CYC_INPUT_REPEAT : Nat × Nat := (63, 48)
def CYC_INPUT_BAD : Nat × Nat := (47, 32)
def CYC_INPUT_EARLY : Nat × Nat := (31, 16)
def CYC_INPUT_LATE : Nat × Nat := (15, 0)
def CYC_FLOW_REACTION : Nat × Nat := (63, 48)
def CYC_FLOW_GATHER_CUT : Nat × Nat := (47, 32)
def CYC_FLOW_SCATTER_CUT : Nat × Nat := (31, 16)
def CYC_FLOW_DESC : Nat × Nat := (15, 0)
def CYC_OVERRUN_LAST_THREAD : Nat × Nat := (63, 56)
def CYC_OVERRUN_SKIPPED : Nat × Nat := (15, 0)
def CYC_HWM_SCATTER_MAX : Nat × Nat := (63, 32)
def CYC_HWM_DONE_MAX : Nat × Nat := (31, 0)
def CYC_SPAN_HANDOVER_MAX : Nat × Nat := (63, 32)
def CYC_SPAN_GATHER_COST : Nat × Nat := (31, 0)
def SW_CTRL_LOCK_VIOLATION : Nat × Nat := (15, 15)
def SW_CTRL_LOCK : Nat × Nat := (14, 14)
def SW_CTRL_LEARN_EN : Nat × Nat := (9, 9)
def SW_CTRL_MGMT_EN : Nat × Nat := (8, 8)
def SW_CTRL_MGMT_PI : Nat × Nat := (7, 0)
def SW_GROUP_MODE_GMODE (i : Nat) : Nat × Nat := (4 * i + 3, 4 * i)
def SW_PCIE_SPLIT_UPPER (i : Nat) : Nat × Nat := (4 * i + 3, 4 * i + 2)
def SW_PCIE_SPLIT_LOWER (i : Nat) : Nat × Nat := (4 * i + 1, 4 * i)
def SW_AGEING_SECONDS : Nat × Nat := (19, 0)
def SW_TBL_INDEX_GO : Nat × Nat := (63, 63)
def SW_TBL_INDEX_OP : Nat × Nat := (62, 61)
def SW_TBL_INDEX_DONE : Nat × Nat := (60, 60)
def SW_TBL_INDEX_TABLE : Nat × Nat := (23, 20)
def SW_TBL_INDEX_INDEX : Nat × Nat := (16, 0)
def SW_TBL_DATA_DATA : Nat × Nat := (63, 0)
def SW_BUF_SHARED_FREE : Nat × Nat := (63, 44)
def SW_BUF_SHARED_SIZE : Nat × Nat := (43, 24)
def SW_FDB_STAT_LEARN_FAIL : Nat × Nat := (63, 32)
def SW_FDB_STAT_ENTRIES : Nat × Nat := (17, 0)
def SW_PTP_GM_CAP : Nat × Nat := (15, 15)
def SW_PTP_DOM1 : Nat × Nat := (14, 8)
def SW_PTP_DOM0 : Nat × Nat := (6, 0)
def SW_ERR_PORT_MODE : Nat × Nat := (6, 6)
def SW_ERR_BUF_RES : Nat × Nat := (5, 5)
def SW_ERR_DUP_KEY : Nat × Nat := (4, 4)
def SW_ERR_NOT_FOUND : Nat × Nat := (3, 3)
def SW_ERR_FDB_SET_FULL : Nat × Nat := (2, 2)
def SW_ERR_BAD_VALUE : Nat × Nat := (1, 1)
def SW_ERR_TBL_RANGE : Nat × Nat := (0, 0)
def PORT_CTRL_LOCK_VIOLATION : Nat × Nat := (15, 15)
def PORT_CTRL_CT_EN : Nat × Nat := (11, 11)
def PORT_CTRL_AN_EN : Nat × Nat := (10, 10)
def PORT_CTRL_FEC : Nat × Nat := (9, 8)
def PORT_CTRL_SPEED : Nat × Nat := (3, 1)
def PORT_CTRL_EN : Nat × Nat := (0, 0)
def PORT_STATUS_CREDIT_DEPTH : Nat × Nat := (63, 56)
def PORT_STATUS_CREDITS : Nat × Nat := (55, 48)
def PORT_STATUS_GMODE : Nat × Nat := (23, 20)
def PORT_STATUS_SPEED_ACT : Nat × Nat := (7, 5)
def PORT_STATUS_FEC_ACT : Nat × Nat := (4, 3)
def PORT_STATUS_AN_DONE : Nat × Nat := (2, 2)
def PORT_STATUS_FAULT : Nat × Nat := (1, 1)
def PORT_STATUS_LINK : Nat × Nat := (0, 0)
def PORT_AN_LP_ABILITY : Nat × Nat := (63, 32)
def PORT_AN_ADV : Nat × Nat := (7, 0)
def PORT_FEC_UNCORRECTED : Nat × Nat := (63, 32)
def PORT_FEC_CORRECTED : Nat × Nat := (31, 0)
def PORT_MAXFRAME_MAXFRAME : Nat × Nat := (13, 0)
def PORT_BUF_SHARED_HELD : Nat × Nat := (63, 44)
def PORT_BUF_HELD_RES : Nat × Nat := (39, 24)
def PORT_BUF_RES : Nat × Nat := (15, 0)
def PORT_VLAN_DEF_PCP : Nat × Nat := (18, 16)
def PORT_VLAN_INGRESS_FILTER : Nat × Nat := (14, 14)
def PORT_VLAN_ACCEPT : Nat × Nat := (13, 12)
def PORT_VLAN_PVID : Nat × Nat := (11, 0)
def PORT_TC_QLIMIT : Nat × Nat := (63, 32)
def PORT_TC_MAP : Nat × Nat := (23, 0)
def PORT_GATE_CTRL_CYCLE : Nat × Nat := (63, 32)
def PORT_GATE_CTRL_ADMIN_LEN : Nat × Nat := (31, 21)
def PORT_GATE_CTRL_OPER_LEN : Nat × Nat := (20, 10)
def PORT_GATE_CTRL_PENDING : Nat × Nat := (3, 3)
def PORT_GATE_CTRL_CHANGE : Nat × Nat := (2, 2)
def PORT_GATE_CTRL_ENABLE : Nat × Nat := (1, 1)
def PORT_GATE_BASE_BASE : Nat × Nat := (63, 0)
def PORT_GATE_INDEX_GO : Nat × Nat := (63, 63)
def PORT_GATE_INDEX_WRITE : Nat × Nat := (62, 62)
def PORT_GATE_INDEX_DONE : Nat × Nat := (61, 61)
def PORT_GATE_INDEX_LIST : Nat × Nat := (60, 60)
def PORT_GATE_INDEX_ENTRY : Nat × Nat := (9, 0)
def PORT_GATE_DATA_GATES : Nat × Nat := (39, 32)
def PORT_GATE_DATA_INTERVAL : Nat × Nat := (31, 0)
def PORT_PREEMPT_VERIFY_TIME : Nat × Nat := (23, 16)
def PORT_PREEMPT_STATUS : Nat × Nat := (14, 12)
def PORT_PREEMPT_EN : Nat × Nat := (11, 11)
def PORT_PREEMPT_VERIFY_DIS : Nat × Nat := (10, 10)
def PORT_PREEMPT_ADD_FRAG : Nat × Nat := (9, 8)
def PORT_PREEMPT_PREEMPTABLE : Nat × Nat := (7, 0)
def PORT_PTP_ASYM : Nat × Nat := (63, 32)
def PORT_PTP_PDELAY : Nat × Nat := (31, 16)
def PORT_PTP_DOM1_EN : Nat × Nat := (1, 1)
def PORT_PTP_DOM0_EN : Nat × Nat := (0, 0)
def PORT_CNT_COUNT : Nat × Nat := (63, 0)
def PI_CTRL_MB_IRQ_EN : Nat × Nat := (33, 33)
def PI_CTRL_CQ_IRQ_EN : Nat × Nat := (32, 32)
def PI_CTRL_QP_COUNT : Nat × Nat := (22, 12)
def PI_CTRL_STATE : Nat × Nat := (11, 10)
def PI_CTRL_GEN : Nat × Nat := (7, 0)
def PI_STATUS_CREDIT_DEPTH : Nat × Nat := (63, 56)
def PI_STATUS_CREDITS : Nat × Nat := (55, 48)
def PI_STATUS_RX_DROP : Nat × Nat := (47, 32)
def PI_STATUS_DB_EARLY : Nat × Nat := (31, 16)
def PI_STATUS_OUTSTANDING : Nat × Nat := (15, 4)
def PI_STATUS_RESET_WAIT : Nat × Nat := (0, 0)
def PI_DOORBELL_GEN : Nat × Nat := (39, 32)
def PI_DOORBELL_TAIL : Nat × Nat := (31, 16)
def PI_DOORBELL_DIR : Nat × Nat := (10, 10)
def PI_DOORBELL_QP : Nat × Nat := (9, 0)
def PI_QP_INDEX_GO : Nat × Nat := (63, 63)
def PI_QP_INDEX_WRITE : Nat × Nat := (62, 62)
def PI_QP_INDEX_DONE : Nat × Nat := (61, 61)
def PI_QP_INDEX_WORD : Nat × Nat := (11, 10)
def PI_QP_INDEX_QP : Nat × Nat := (9, 0)
def PI_QP_DATA_DATA : Nat × Nat := (63, 0)
def PI_MBOX_CTRL_NOTE_QUEUED : Nat × Nat := (19, 16)
def PI_MBOX_CTRL_IN_ACK : Nat × Nat := (11, 11)
def PI_MBOX_CTRL_IN_FULL : Nat × Nat := (10, 10)
def PI_MBOX_CTRL_OUT_BUSY : Nat × Nat := (9, 9)
def PI_MBOX_CTRL_SEND : Nat × Nat := (8, 8)
def PI_MBOX_CTRL_DIR : Nat × Nat := (4, 4)
def PI_MBOX_CTRL_INDEX : Nat × Nat := (3, 0)
def PI_MBOX_DATA_DATA : Nat × Nat := (63, 0)
def PI_ERR_STALE_CPL : Nat × Nat := (63, 48)
def PI_ERR_STALE_DB : Nat × Nat := (47, 32)
def PI_ERR_RX_TOO_LONG : Nat × Nat := (5, 5)
def PI_ERR_QP_STOPPED : Nat × Nat := (4, 4)
def PI_ERR_BAD_ARG : Nat × Nat := (3, 3)
def PI_ERR_MBOX_BUSY : Nat × Nat := (2, 2)
def PI_ERR_QP_BUSY : Nat × Nat := (1, 1)
def PI_ERR_DB_RANGE : Nat × Nat := (0, 0)
def TWIN_CTRL_LOCK_VIOLATION : Nat × Nat := (15, 15)
def TWIN_CTRL_LOCK : Nat × Nat := (14, 14)
def TWIN_CTRL_MIN_PATHS : Nat × Nat := (10, 8)
def TWIN_CTRL_REF_CLASS : Nat × Nat := (7, 5)
def TWIN_CTRL_INTEGRITY_SWAP : Nat × Nat := (4, 4)
def TWIN_CTRL_AUTO_JOIN : Nat × Nat := (3, 3)
def TWIN_CTRL_UNIT : Nat × Nat := (2, 2)
def TWIN_CTRL_EN : Nat × Nat := (0, 0)
def TWIN_STATUS_CREDIT_DEPTH : Nat × Nat := (63, 56)
def TWIN_STATUS_CREDITS : Nat × Nat := (55, 48)
def TWIN_STATUS_SKEW : Nat × Nat := (47, 32)
def TWIN_STATUS_DELAY : Nat × Nat := (31, 16)
def TWIN_STATUS_PEER_REDUCED : Nat × Nat := (15, 15)
def TWIN_STATUS_REDUCED : Nat × Nat := (14, 14)
def TWIN_STATUS_PATHS_UP : Nat × Nat := (13, 10)
def TWIN_STATUS_LANES_UP : Nat × Nat := (9, 6)
def TWIN_STATUS_PEER_ROLE : Nat × Nat := (5, 3)
def TWIN_STATUS_ROLE : Nat × Nat := (2, 0)
def TWIN_EPOCH_PEER_EPOCH : Nat × Nat := (63, 32)
def TWIN_EPOCH_EPOCH : Nat × Nat := (31, 0)
def TWIN_LINK_FREEZE_MAX : Nat × Nat := (57, 52)
def TWIN_LINK_FINAL_MAX : Nat × Nat := (51, 32)
def TWIN_LINK_ETYPE : Nat × Nat := (31, 16)
def TWIN_LINK_LOSS : Nat × Nat := (13, 10)
def TWIN_LINK_PERIOD : Nat × Nat := (9, 0)
def TWIN_CMD_GO : Nat × Nat := (63, 63)
def TWIN_CMD_DONE : Nat × Nat := (62, 62)
def TWIN_CMD_DIRTY : Nat × Nat := (59, 40)
def TWIN_CMD_ROUND : Nat × Nat := (39, 32)
def TWIN_CMD_RESULT : Nat × Nat := (31, 16)
def TWIN_CMD_CMD : Nat × Nat := (3, 0)
def TWIN_TBL_INDEX_GO : Nat × Nat := (63, 63)
def TWIN_TBL_INDEX_WRITE : Nat × Nat := (62, 62)
def TWIN_TBL_INDEX_DONE : Nat × Nat := (61, 61)
def TWIN_TBL_INDEX_TABLE : Nat × Nat := (9, 8)
def TWIN_TBL_INDEX_INDEX : Nat × Nat := (3, 0)
def TWIN_TBL_DATA_DATA : Nat × Nat := (63, 0)
def TWIN_JNL_VALUE_VALUE : Nat × Nat := (63, 0)
def TWIN_JNL_TARGET_GO : Nat × Nat := (63, 63)
def TWIN_JNL_TARGET_RESULT : Nat × Nat := (62, 48)
def TWIN_JNL_TARGET_SEQ : Nat × Nat := (47, 40)
def TWIN_JNL_TARGET_TAG : Nat × Nat := (39, 32)
def TWIN_JNL_TARGET_CLASS : Nat × Nat := (31, 29)
def TWIN_JNL_TARGET_K : Nat × Nat := (28, 26)
def TWIN_JNL_TARGET_APPLY : Nat × Nat := (25, 24)
def TWIN_JNL_TARGET_WORD : Nat × Nat := (19, 0)
def TWIN_STAT_DIVERGE : Nat × Nat := (63, 48)
def TWIN_STAT_FILL_LATE : Nat × Nat := (47, 32)
def TWIN_STAT_FILL_OVER : Nat × Nat := (31, 16)
def TWIN_STAT_MAP_MISSED : Nat × Nat := (15, 0)
def TWIN_ERR_REFUSED : Nat × Nat := (6, 6)
def TWIN_ERR_PATHS : Nat × Nat := (5, 5)
def TWIN_ERR_UNIT : Nat × Nat := (4, 4)
def TWIN_ERR_SHORT_WINDOW : Nat × Nat := (3, 3)
def TWIN_ERR_BUDGET : Nat × Nat := (2, 2)
def TWIN_ERR_RUNNING : Nat × Nat := (1, 1)
def TWIN_ERR_BAD_VALUE : Nat × Nat := (0, 0)
def HIST_CTRL_SEAL_MS : Nat × Nat := (31, 16)
def HIST_CTRL_LOCK_VIOLATION : Nat × Nat := (15, 15)
def HIST_CTRL_LOCK : Nat × Nat := (14, 14)
def HIST_CTRL_SB_S : Nat × Nat := (13, 8)
def HIST_CTRL_FORMAT : Nat × Nat := (6, 6)
def HIST_CTRL_RETRY : Nat × Nat := (5, 4)
def HIST_CTRL_STRIPE : Nat × Nat := (3, 1)
def HIST_CTRL_EN : Nat × Nat := (0, 0)
def HIST_STATUS_HEAD : Nat × Nat := (54, 32)
def HIST_STATUS_DRIVE_FAIL : Nat × Nat := (23, 8)
def HIST_STATUS_STATE : Nat × Nat := (2, 0)
def HIST_LOG_SEGMENTS : Nat × Nat := (55, 32)
def HIST_LOG_TAIL : Nat × Nat := (22, 0)
def HIST_TBL_INDEX_GO : Nat × Nat := (63, 63)
def HIST_TBL_INDEX_WRITE : Nat × Nat := (62, 62)
def HIST_TBL_INDEX_DONE : Nat × Nat := (61, 61)
def HIST_TBL_INDEX_TABLE : Nat × Nat := (23, 22)
def HIST_TBL_INDEX_INDEX : Nat × Nat := (19, 0)
def HIST_TBL_DATA0_DATA : Nat × Nat := (63, 0)
def HIST_TBL_DATA1_DATA : Nat × Nat := (63, 0)
def HIST_CQ_HEAD : Nat × Nat := (31, 16)
def HIST_CQ_TAIL : Nat × Nat := (15, 0)
def HIST_STAT_DISCARDED : Nat × Nat := (63, 48)
def HIST_STAT_SEG_FAILED : Nat × Nat := (47, 32)
def HIST_STAT_SAMPLE_CUT : Nat × Nat := (31, 16)
def HIST_STAT_SAMPLES_LOST : Nat × Nat := (15, 0)
def HIST_SEGERR_ATTEMPT : Nat × Nat := (49, 48)
def HIST_SEGERR_MASK : Nat × Nat := (47, 32)
def HIST_SEGERR_SEGMENT : Nat × Nat := (22, 0)
def HIST_ERR_LOG_MISMATCH : Nat × Nat := (7, 7)
def HIST_ERR_NO_LOG : Nat × Nat := (6, 6)
def HIST_ERR_CONFIG : Nat × Nat := (5, 5)
def HIST_ERR_RUNNING : Nat × Nat := (4, 4)
def HIST_ERR_SIGNAL : Nat × Nat := (3, 3)
def HIST_ERR_LIST : Nat × Nat := (2, 2)
def HIST_ERR_BAD_VALUE : Nat × Nat := (0, 0)
def HIST_CREDIT_WRITE_CREDITS : Nat × Nat := (15, 8)
def HIST_CREDIT_WRITE_DEPTH : Nat × Nat := (7, 0)
def CL_CTRL_LOCK_VIOLATION : Nat × Nat := (20, 20)
def CL_CTRL_LOCK : Nat × Nat := (19, 19)
def CL_CTRL_PF_EN : Nat × Nat := (18, 18)
def CL_CTRL_VICTIM_MODE : Nat × Nat := (17, 17)
def CL_CTRL_L2_EN : Nat × Nat := (16, 16)
def CL_CTRL_L1_EN : Nat × Nat := (15, 8)
def CL_CTRL_MAP_EN : Nat × Nat := (7, 0)
def CL_STATUS_CREDIT_DEPTH : Nat × Nat := (63, 56)
def CL_STATUS_CREDITS : Nat × Nat := (55, 48)
def CL_STATUS_L2_RETIRED : Nat × Nat := (39, 24)
def CL_STATUS_L2_STATE : Nat × Nat := (17, 16)
def CL_STATUS_L1_STATE : Nat × Nat := (15, 0)
def CL_PAIR_PART : Nat × Nat := (63, 32)
def CL_PAIR_MODE : Nat × Nat := (15, 0)
def CL_ERR_MAP_STARVE : Nat × Nat := (1, 1)
def CL_ERR_MAP_BUSY : Nat × Nat := (0, 0)
def CL_ISSUE_MAP_OWN (i : Nat) : Nat × Nat := (4 * i + 3, 4 * i + 3)
def CL_ISSUE_MAP_THREAD (i : Nat) : Nat × Nat := (4 * i + 2, 4 * i)
def MC_CTRL_LOCK_VIOLATION : Nat × Nat := (15, 15)
def MC_CTRL_LOCK : Nat × Nat := (14, 14)
def MC_CTRL_BAD_VALUE : Nat × Nat := (13, 13)
def MC_CTRL_ILV : Nat × Nat := (9, 8)
def MC_CTRL_DIMMS : Nat × Nat := (3, 2)
def MC_CTRL_TRAINED : Nat × Nat := (1, 1)
def MC_STATUS_CAPACITY : Nat × Nat := (47, 32)
def MC_STATUS_RATE : Nat × Nat := (31, 16)
def MC_STATUS_RANKS : Nat × Nat := (7, 4)
def MC_ARB_MODE : Nat × Nat := (1, 0)
def MC_ARB_WEIGHT_W (i : Nat) : Nat × Nat := (4 * i + 3, 4 * i)
def MC_CREDIT_CREDITS : Nat × Nat := (39, 32)
def MC_CREDIT_DEPTH : Nat × Nat := (23, 16)
def MC_CREDIT_SOURCE : Nat × Nat := (4, 0)
def MC_ECC_CORRECTED : Nat × Nat := (63, 32)
def MC_ECC_UNCORRECTED : Nat × Nat := (31, 16)
def MC_ECC_LAST_DEV : Nat × Nat := (15, 12)
def MC_ECC_LAST_SUB : Nat × Nat := (11, 11)
def MC_ECC_LAST_RANK : Nat × Nat := (10, 8)
def MC_ERR_ADDR_VALID : Nat × Nat := (63, 63)
def MC_ERR_ADDR_ADDR : Nat × Nat := (45, 6)
def MC_MARK_MARKED (i : Nat) : Nat × Nat := (8 * i + 4, 8 * i + 4)
def MC_MARK_DEVICE (i : Nat) : Nat × Nat := (8 * i + 3, 8 * i)
def MC_SCRUB_PASSES : Nat × Nat := (63, 32)
def MC_SCRUB_MARK_THRESH : Nat × Nat := (23, 16)
def MC_SCRUB_HOURS : Nat × Nat := (15, 0)
def MC_DIR_BACK_INV : Nat × Nat := (63, 32)
def MC_DIR_VALID : Nat × Nat := (31, 14)
def MC_DIR_BCAST_BCAST_ENTER : Nat × Nat := (63, 32)
def MC_DIR_BCAST_BCAST_NOW : Nat × Nat := (31, 14)
def MGR_INFO_GEN : Nat × Nat := (35, 28)
def MGR_INFO_PARTITION : Nat × Nat := (27, 24)
def MGR_INFO_STATE : Nat × Nat := (18, 17)
def MGR_INFO_FW_SLOT : Nat × Nat := (16, 16)
def MGR_INFO_FW_VERSION : Nat × Nat := (15, 0)
def MGR_PART_STATUS_STATE (i : Nat) : Nat × Nat := (4 * i + 3, 4 * i)
def MGR_MBOX_CTRL_NOTE_QUEUED : Nat × Nat := (19, 16)
def MGR_MBOX_CTRL_IN_ACK : Nat × Nat := (11, 11)
def MGR_MBOX_CTRL_IN_FULL : Nat × Nat := (10, 10)
def MGR_MBOX_CTRL_OUT_BUSY : Nat × Nat := (9, 9)
def MGR_MBOX_CTRL_SEND : Nat × Nat := (8, 8)
def MGR_MBOX_CTRL_DIR : Nat × Nat := (4, 4)
def MGR_MBOX_CTRL_INDEX : Nat × Nat := (3, 0)
def MGR_MBOX_DATA_DATA : Nat × Nat := (63, 0)
def MGR_GATE_OP_OP : Nat × Nat := (9, 8)
def MGR_GATE_OP_GATE : Nat × Nat := (7, 0)
def MGR_GATE_RESULT_OWNER_GEN : Nat × Nat := (47, 40)
def MGR_GATE_RESULT_OWNER_PART : Nat × Nat := (39, 36)
def MGR_GATE_RESULT_OWNER_CORE : Nat × Nat := (35, 28)
def MGR_GATE_RESULT_OWNER_THREAD : Nat × Nat := (27, 25)
def MGR_GATE_RESULT_STATE : Nat × Nat := (24, 23)
def MGR_GATE_RESULT_GATE : Nat × Nat := (15, 8)
def MGR_GATE_RESULT_RESULT : Nat × Nat := (7, 0)
def MGR_ERR_BAD_OP : Nat × Nat := (1, 1)
def MGR_ERR_MBOX_BUSY : Nat × Nat := (0, 0)
def CFG_ACTIVE_SOURCE : Nat × Nat := (34, 33)
def CFG_ACTIVE_SLOT : Nat × Nat := (32, 32)
def CFG_ACTIVE_SEQ : Nat × Nat := (31, 0)
def CFG_SLOT_WRITING : Nat × Nat := (35, 35)
def CFG_SLOT_IN_USE : Nat × Nat := (34, 34)
def CFG_SLOT_COMMITTED : Nat × Nat := (33, 33)
def CFG_SLOT_WHOLE : Nat × Nat := (32, 32)
def CFG_SLOT_SEQ : Nat × Nat := (31, 0)
def CFG_LC_FW_MIN : Nat × Nat := (31, 16)
def CFG_LC_VPP_OK : Nat × Nat := (4, 4)
def CFG_LC_KEY_FUSED : Nat × Nat := (3, 3)
def CFG_LC_STATE : Nat × Nat := (2, 0)
def CFG_APPLY_ERR_LAST_TYPE : Nat × Nat := (51, 48)
def CFG_APPLY_ERR_RECORDS : Nat × Nat := (47, 32)
def CFG_APPLY_ERR_SECTIONS : Nat × Nat := (15, 1)
def SMP_CTRL_LOCK_VIOLATION : Nat × Nat := (15, 15)
def SMP_CTRL_LOCK : Nat × Nat := (14, 14)
def SMP_CTRL_BAD_VALUE : Nat × Nat := (13, 13)
def SMP_CTRL_RAM_MIN : Nat × Nat := (10, 8)
def SMP_CTRL_CLEAR_RAM : Nat × Nat := (0, 0)
def SMP_STATUS_NEXT_SEQ : Nat × Nat := (63, 32)
def SMP_STATUS_PHASE : Nat × Nat := (31, 28)
def SMP_STATUS_FLASH_HELD : Nat × Nat := (27, 14)
def SMP_STATUS_RAM_HELD : Nat × Nat := (10, 0)
def SMP_RD_CTRL_GO : Nat × Nat := (63, 63)
def SMP_RD_CTRL_DONE : Nat × Nat := (62, 62)
def SMP_RD_CTRL_VALID : Nat × Nat := (61, 61)
def SMP_RD_CTRL_STORE : Nat × Nat := (60, 60)
def SMP_RD_CTRL_ORDINAL : Nat × Nat := (45, 32)
def SMP_RD_CTRL_WORD : Nat × Nat := (4, 0)
def SMP_RD_DATA_DATA : Nat × Nat := (63, 0)
def SMP_DROPPED_FLASH : Nat × Nat := (63, 48)
def SMP_DROPPED_SEV (i : Nat) : Nat × Nat := (8 * i + 7, 8 * i)
def SMP_DARN_CTRL_PERIOD_US : Nat × Nat := (45, 32)
def SMP_DARN_CTRL_LT_EN : Nat × Nat := (31, 24)
def SMP_DARN_CTRL_BANK_EN : Nat × Nat := (23, 0)
def SMP_DARN_STAT_REPAIRS : Nat × Nat := (63, 48)
def SMP_DARN_STAT_TRANSIENTS : Nat × Nat := (47, 40)
def SMP_DARN_STAT_LAST_LT : Nat × Nat := (36, 36)
def SMP_DARN_STAT_LAST_UNIT : Nat × Nat := (35, 31)
def SMP_DARN_STAT_LAST_REGION : Nat × Nat := (30, 18)
def SMP_DARN_STAT_PASSES : Nat × Nat := (17, 0)
def DBG_VT_TX_FULL : Nat × Nat := (63, 63)
def DBG_VT_TX_DROPPED : Nat × Nat := (62, 62)
def DBG_VT_TX_COUNT : Nat × Nat := (58, 56)
def DBG_VT_TX_DATA : Nat × Nat := (55, 0)
def DBG_VT_RX_VALID : Nat × Nat := (63, 63)
def DBG_VT_RX_ACK : Nat × Nat := (62, 62)
def DBG_VT_RX_IRQ_EN : Nat × Nat := (60, 60)
def DBG_VT_RX_COUNT : Nat × Nat := (58, 56)
def DBG_VT_RX_DATA : Nat × Nat := (55, 0)
def DBG_CTRL_LOCK_VIOLATION : Nat × Nat := (15, 15)
def DBG_CTRL_LOCK : Nat × Nat := (14, 14)
def DBG_CTRL_BAD_VALUE : Nat × Nat := (13, 13)
def DBG_CTRL_SW_AUTH_EN : Nat × Nat := (0, 0)
def DBG_STATUS_LOCKOUT_S : Nat × Nat := (63, 48)
def DBG_STATUS_LOCKOUT_N : Nat × Nat := (47, 44)
def DBG_STATUS_FAILS : Nat × Nat := (43, 41)
def DBG_STATUS_CHALLENGE_OUT : Nat × Nat := (40, 40)
def DBG_STATUS_SW_LEVEL : Nat × Nat := (35, 34)
def DBG_STATUS_TAP_LEVEL : Nat × Nat := (33, 32)
def DBG_STATUS_ATTACHED : Nat × Nat := (31, 31)
def DBG_AUTH_GO : Nat × Nat := (63, 63)
def DBG_AUTH_DONE : Nat × Nat := (62, 62)
def DBG_AUTH_OP : Nat × Nat := (61, 60)
def DBG_AUTH_LEVEL : Nat × Nat := (59, 58)
def DBG_AUTH_RESULT : Nat × Nat := (55, 52)
def DBG_AUTH_BUFFER : Nat × Nat := (45, 6)
def TRC_CTRL_TS_US : Nat × Nat := (31, 16)
def TRC_CTRL_LOCK_VIOLATION : Nat × Nat := (15, 15)
def TRC_CTRL_LOCK : Nat × Nat := (14, 14)
def TRC_CTRL_BAD_VALUE : Nat × Nat := (13, 13)
def TRC_CTRL_SINK : Nat × Nat := (12, 11)
def TRC_CTRL_BANK : Nat × Nat := (10, 6)
def TRC_CTRL_EN : Nat × Nat := (0, 0)
def TRC_STATUS_CREDIT_DEPTH : Nat × Nat := (63, 56)
def TRC_STATUS_CREDITS : Nat × Nat := (55, 48)
def TRC_STATUS_WRPTR : Nat × Nat := (47, 25)
def TRC_STATUS_WRAPPED : Nat × Nat := (24, 24)
def TRC_STATUS_STATE : Nat × Nat := (23, 22)
def TRC_STATUS_SINK_ERR : Nat × Nat := (21, 21)
def TRC_STATUS_FIFO_LEVEL : Nat × Nat := (16, 0)
def TRC_TRIG_POST : Nat × Nat := (63, 32)
def TRC_TRIG_UNIT : Nat × Nat := (31, 31)
def TRC_TRIG_FIRE : Nat × Nat := (30, 30)
def TRC_TRIG_SEVERITY : Nat × Nat := (29, 27)
def TRC_TRIG_KIND : Nat × Nat := (26, 24)
def TRC_TRIG_ARG : Nat × Nat := (15, 0)
def TRC_SRC_INDEX_GO : Nat × Nat := (63, 63)
def TRC_SRC_INDEX_WRITE : Nat × Nat := (62, 62)
def TRC_SRC_INDEX_DONE : Nat × Nat := (61, 61)
def TRC_SRC_INDEX_INDEX : Nat × Nat := (10, 0)
def TRC_SRC_DATA_LOSS : Nat × Nat := (63, 32)
def TRC_SRC_DATA_CLR : Nat × Nat := (4, 4)
def TRC_SRC_DATA_DATA : Nat × Nat := (3, 3)
def TRC_SRC_DATA_PRIO : Nat × Nat := (2, 1)
def TRC_SRC_DATA_EN : Nat × Nat := (0, 0)
def CTR_CTRL_PERIOD_US : Nat × Nat := (63, 44)
def CTR_CTRL_ARG : Nat × Nat := (43, 28)
def CTR_CTRL_CLASS : Nat × Nat := (27, 25)
def CTR_CTRL_TRIG : Nat × Nat := (24, 22)
def CTR_CTRL_MODE : Nat × Nat := (21, 20)
def CTR_CTRL_FIRE : Nat × Nat := (19, 19)
def CTR_CTRL_BUSY : Nat × Nat := (18, 18)
def CTR_CTRL_SINK_ERR : Nat × Nat := (17, 17)
def CTR_CTRL_SNAP_IRQ_EN : Nat × Nat := (16, 16)
def CTR_CTRL_LOCK_VIOLATION : Nat × Nat := (15, 15)
def CTR_CTRL_LOCK : Nat × Nat := (14, 14)
def CTR_CTRL_BAD_VALUE : Nat × Nat := (13, 13)
def CTR_BUF_DEST : Nat × Nat := (63, 63)
def CTR_BUF_BANK : Nat × Nat := (62, 58)
def CTR_BUF_SIZE : Nat × Nat := (57, 53)
def CTR_BUF_BASE : Nat × Nat := (45, 12)
def CTR_STATUS_SKIPPED : Nat × Nat := (63, 48)
def CTR_STATUS_WRPTR : Nat × Nat := (47, 20)
def CTR_STATUS_WRAPPED : Nat × Nat := (19, 19)
def CTR_ACCESS_GO : Nat × Nat := (63, 63)
def CTR_ACCESS_WRITE : Nat × Nat := (62, 62)
def CTR_ACCESS_DONE : Nat × Nat := (61, 61)
def CTR_ACCESS_WORD : Nat × Nat := (60, 60)
def CTR_ACCESS_INDEX : Nat × Nat := (59, 48)
def CTR_ACCESS_DATA : Nat × Nat := (47, 0)
def PWR_CTRL_VCORE_FLOOR : Nat × Nat := (25, 16)
def PWR_CTRL_LOCK_VIOLATION : Nat × Nat := (15, 15)
def PWR_CTRL_LOCK : Nat × Nat := (14, 14)
def PWR_CTRL_BAD_VALUE : Nat × Nat := (13, 13)
def PWR_CTRL_AVS_EN : Nat × Nat := (0, 0)
def PWR_STATUS_TJ_MAX : Nat × Nat := (63, 56)
def PWR_STATUS_VCORE_MV : Nat × Nat := (55, 46)
def PWR_STATUS_WDOG_RESTARTS : Nat × Nat := (31, 16)
def PWR_STATUS_SDS_OK : Nat × Nat := (15, 8)
def PWR_STATUS_PCIE_OK : Nat × Nat := (7, 7)
def PWR_STATUS_CLK10M_OK : Nat × Nat := (6, 6)
def PWR_STATUS_PPS_OK : Nat × Nat := (5, 5)
def PWR_STATUS_PMBUS_FAULT : Nat × Nat := (4, 4)
def PWR_STATUS_TJ_ALERT : Nat × Nat := (3, 3)
def PWR_STATUS_LAST_RESET : Nat × Nat := (1, 0)
def PWR_DOM_INDEX_GO : Nat × Nat := (63, 63)
def PWR_DOM_INDEX_WRITE : Nat × Nat := (62, 62)
def PWR_DOM_INDEX_DONE : Nat × Nat := (61, 61)
def PWR_DOM_INDEX_DOMAIN : Nat × Nat := (6, 0)
def PWR_DOM_DATA_RESULT : Nat × Nat := (47, 32)
def PWR_DOM_DATA_STATE : Nat × Nat := (7, 4)
def PWR_DOM_DATA_REQ : Nat × Nat := (0, 0)

end Sys2Proof.Machine
end

