-- ==== Sys2Proof/Machine/State.lean ====
section
/-! DEFINITION. State of the Drirati: every register (as one map over register-space offsets), memory, tables, queues, thread state and mode that spec/ gives the device, as plain data. Defaults of the fields are their values in State.reset. -/
namespace Sys2Proof.Machine

/-- Why a step could stop as a fault. The spec reports every program error as an effect on the state (03 R83, 11 R418), so no meaning raises one. -/
inductive Fault where
  /-- Raised by no meaning: the device has no stop of its own. Safe. -/
  | machineStopped
deriving DecidableEq, Repr

/-- Why a command is turned away. -/
inductive Refusal where
  /-- A command without a meaning yet, by its mnemonic. Raised by an arm of `exec` only. Safe. -/
  | notModelled (mnemonic : String)
deriving DecidableEq, Repr

/-! Banks and pairs (03). -/

/-- One credit-based queue (01 R13 to R18). -/
structure CreditQ where
  /-- configured depth -/
  depth : Nat := 32
  /-- credits free -/
  free : Nat := 32
  /-- entries issued whose credit has not returned -/
  out : Nat := 0
  /-- a request waits with zero credits -/
  waiting : Bool := false
  /-- operating time from which it waits (R16) -/
  since : Nat := 0
  /-- the WARNING of R16 stands for the present starvation -/
  recorded : Bool := false
deriving DecidableEq, Repr

/-- A request waiting at a bank: the access `id` of hardware thread `thr`, its part (0 whole, 1 and 2 of a split, R92), bank cycles waited. -/
structure BankReq where
  thr : Nat
  id : Nat
  part : Nat
  wait : Nat := 0
deriving DecidableEq, Repr

/-- Bank cycles that a master without a thread still asks of a bank: an image engine, a DMA master or untagged agent, or the Darning test engine (R87). The data move in the master's own command. -/
structure PortUse where
  /-- place in the order of R87: 0 image engines, 2 DMA masters and untagged agents, 3 Darning -/
  place : Nat
  /-- k of the engine, or the master code -/
  code : Nat
  /-- words still to move -/
  words : Nat
  /-- bank cycles waited -/
  wait : Nat := 0
  /-- words of a plain bank that an untagged write replaced, as they were before it: (word number, word, poison); the cycle that grants it still reads them so (R89) -/
  old : List (Nat × QWord × Bool) := []
deriving DecidableEq, Repr

/-- A port that stays in use after the cycle of its grant: the second cycle of an atomic, of a rotator access, of a first write to a line (R90, R91, R103). -/
structure PortHold where
  /-- words that every other access waits for (R90) -/
  words : List Nat := []
  /-- bank cycles left -/
  left : Nat
deriving DecidableEq, Repr

/-- What a bank holds beside its registers and words. -/
structure BankSt where
  /-- requests accepted and not yet granted, oldest first -/
  queue : List BankReq := []
  /-- port cycles other masters ask for, oldest first -/
  uses : List PortUse := []
  /-- consecutive bank cycles each requester has been granted, key 256 × place + code, a core's place being 1 (R88) -/
  streak : Map Nat := []
  /-- ports in use beyond their grant's cycle -/
  occ : List PortHold := []
  /-- master code a handover is bringing in (R84) -/
  next : Nat := 0x3F
  /-- operating time at which the clear in progress started (02 R38) -/
  clearAt : Nat := 0
  /-- spare rows in use (15 R566): failing regions repaired -/
  repaired : List Nat := []
  /-- next region of the Darning test (15 R563) -/
  darnPos : Nat := 0
  /-- operating time of its last region test -/
  darnAt : Nat := 0
deriving DecidableEq, Repr

/-- A write to a region that waits for the end of the pair's initialisation (R96): the word, what is written, and how: 0 a whole word by the owner, 1 bytes of an untagged agent at offset `off`, 2 the eight words of a line by a join copy. -/
structure HeldWrite where
  how : Nat
  /-- master code of the writer (R81) -/
  code : Nat := 0x3F
  region : Nat
  word : Nat
  words : List QWord := []
  off : Nat := 0
  bytes : List Byte := []
  /-- join copies: the stamp copied with the line -/
  stamp : Nat := 0
deriving DecidableEq, Repr

/-- What an image controller holds beside its registers. -/
structure ImgSt where
  /-- line-table entries by line (R95), 39 bits; an unlisted line has W = `ltW`, every other field 0 -/
  lt : Map Word := []
  /-- stamp W of an unlisted line (R96) -/
  ltW : Nat := 0
  /-- next line the sweeper visits (R110) -/
  sweepPos : Nat := 0
  /-- per abandon register: operating time at which its abandon was accepted (R109) -/
  abandonAt : List Nat := [0, 0]
  /-- operating time of the write of ENABLE (R96) -/
  initAt : Nat := 0
  /-- writes that wait for the end of the initialisation, oldest first -/
  heldWrites : List HeldWrite := []
  /-- stamp abandoned in a region mask, kept until its boundary (R108): (stamp, mask) -/
  abandoned : List (Nat × Nat) := []
  /-- abandons waiting for a free register (15 R555): (stamp, mask, class) -/
  abandonWait : List (Nat × Nat × Nat) := []
  /-- spare regions in use (15 R566) -/
  repaired : List Nat := []
  /-- next region of the Darning test -/
  darnPos : Nat := 0
  /-- operating time of its last region test -/
  darnAt : Nat := 0
deriving DecidableEq, Repr

/-! The control cycle (04). -/

/-- A cyclic frame accepted and queued for scatter (04 R133 to R144). -/
structure ScatterJob where
  stream : Nat
  /-- the entry in force at acceptance -/
  entry : Word
  frame : List Byte
  /-- last-bit timestamp in ns -/
  stamp : Nat
  cls : Nat
  /-- class cycle number of the fill cycle that accepted it -/
  cycle : Nat
  /-- filled from the twin peer (07 R268) -/
  filled : Bool := false
  /-- frame-buffer id of its frame (05 R179, R199) -/
  buf : Option Nat := none
  /-- it holds a credit of the scatter queue; without one it waits in the frame buffer (01 R15) -/
  credit : Bool := false
  /-- descriptors of its list already run, and the current tag and coefficient then (R138, R144) -/
  run : Option (Nat × Byte × Nat) := none
deriving DecidableEq, Repr

/-- A frame the gather engine has built and not yet handed over (04 R147 to R150). -/
structure BuiltFrame where
  stream : Nat
  entry : Word
  frame : List Byte
  cls : Nat
  cycle : Nat
  /-- handover offset from T0 in ns, rounded up (log 14, DESIGN CHOICE) -/
  offset : Nat
deriving DecidableEq, Repr

/-- The gather of one controller and class under way. -/
structure GatherRun where
  cls : Nat
  /-- streams still to build, ascending -/
  todo : List Nat
  /-- GATHER_START offset in ns -/
  start : Nat
  /-- image clocks spent so far -/
  cost : Nat := 0
  /-- entries in force when the gather started -/
  entries : List (Nat × Word) := []
deriving DecidableEq, Repr

/-- The running state of one class. -/
structure ClassSt where
  /-- enabled and waiting for its first boundary (R120) -/
  armed : Bool := false
  /-- index m of the next boundary (R117) -/
  nextM : Nat := 0
  /-- device time of the last boundary, nominal, ns (T0) -/
  t0 : Nat := 0
  /-- Pricking entries run in this cycle (R124) -/
  ran : List Nat := []
  /-- streams with an accepted frame in this fill cycle (R134) -/
  arrived : List Nat := []
  /-- class cycle numbers that CYC_FLOW.REACTION has counted, newest first, at most 16 (R162) -/
  counted : List Nat := []
deriving DecidableEq, Repr

/-- State of the control cycle beside its registers. -/
structure CycSt where
  /-- tables 0, 1 (R166) -/
  pricking : Map Word := []
  threads : Map Word := []
  /-- tables 2 and 3, the values last written -/
  ingress : Map Word := []
  egress : Map Word := []
  /-- tables 2 and 3, the entries in force (R133) -/
  ingressNow : Map Word := []
  egressNow : Map Word := []
  ingress1 : Map Word := []
  egress1 : Map Word := []
  /-- tables 4 to 6 -/
  profIn : Map Word := []
  profOut : Map Word := []
  coef0 : Map Word := []
  coef1 : Map Word := []
  classes : Map ClassSt := []
  /-- scatter queue of each controller, oldest first -/
  scatterQ : Map (List ScatterJob) := []
  gathers : Map (List GatherRun) := []
  /-- built frames waiting for handover, per controller, oldest first -/
  built : Map (List BuiltFrame) := []
deriving DecidableEq, Repr

/-! Erg (05). -/

/-- Where a copy of a frame goes. -/
inductive Dest where
  | port (p : Nat)
  | inst (i : Nat)
  | oasis
deriving DecidableEq, Repr

/-- A frame held by the frame buffer (05 R197 to R199). -/
structure BufFrame where
  id : Nat
  /-- ingress port, none for a gathered frame or an instance's -/
  port : Option Nat := none
  /-- DA to FCS, as received -/
  bytes : List Byte := []
  /-- cells charged to the port's reservation and to the shared pool -/
  res : Nat := 0
  shared : Nat := 0
  /-- copies queued or in transmission, and holds of the cyclic path or of the reception -/
  users : Nat := 0
deriving DecidableEq, Repr

/-- A frame in reception (05 R198, R201). -/
structure RxFrame where
  id : Nat
  bytes : List Byte
  express : Bool
  /-- first-bit timestamp in ns -/
  first : Nat
  /-- stage 1 only: a MAC control frame, or one discarded before admission -/
  dropped : Bool := false
  control : Bool := false
  handle : Option Nat := none
  /-- consumed by the cyclic path (05 R179) -/
  cyclic : Bool := false
  dests : List Dest := []
  /-- VID, priority, and whether the frame came with a tag -/
  vid : Nat := 0
  prio : Nat := 0
  tagged : Bool := false
  yellow : Bool := false
  /-- ports on which the frame was queued at its start, to cut through -/
  cuts : List Nat := []
  /-- PORT_MAXFRAME at the start of frame (05 R217), and the cells charged for it (05 R198) -/
  maxLen : Nat := 1522
  need : Nat := 6
  /-- last-bit timestamp of a frame that has arrived whole and waits for a credit of the port's queue (01 R15) -/
  arrived : Option Nat := none
deriving DecidableEq, Repr

/-- An entry of an egress queue. -/
structure TxEnt where
  /-- frame-buffer id -/
  id : Nat
  /-- DA to FCS, as sent -/
  bytes : List Byte
  tc : Nat
  cells : Nat := 0
  /-- cutting through: the last bit has not arrived; and the ingress port whose PORT_MAXFRAME counts (R195) -/
  cut : Option Nat := none
deriving DecidableEq, Repr

/-- A frame in transmission. -/
structure TxNow where
  ent : TxEnt
  preemptable : Bool := false
  /-- an express frame interrupts it (05 R196) -/
  preempted : Bool := false
  /-- its last bit has arrived, or it was stored -/
  whole : Bool := true
deriving DecidableEq, Repr

/-- A gate control list entry (05 R192). -/
structure GateEnt where
  gates : Nat := 0xFF
  interval : Nat := 0
deriving DecidableEq, Repr

/-- What a port holds beside its registers. -/
structure PortSt where
  rx : List RxFrame := []
  tx : List TxNow := []
  /-- egress queues by traffic class, oldest first -/
  queues : Map (List TxEnt) := []
  admin : Map GateEnt := []
  oper : Map GateEnt := []
  operBase : Nat := 0
  operCycle : Nat := 1000000
  /-- the change time of a scheduled configuration change, ns (05 R193) -/
  changeAt : Nat := 0
  /-- gates now: bit t is open (05 R194) -/
  gates : Nat := 0xFF
  /-- verification of frame preemption ended: some true succeeded (05 R196) -/
  verified : Option Bool := none
deriving DecidableEq, Repr

/-- A meter's buckets (05 R188, IEEE 802.1Qci): bytes × 8 × 10^6 units so that every rate is whole. -/
structure MeterSt where
  /-- committed and excess tokens, in 10^-6 bits -/
  c : Nat := 0
  e : Nat := 0
  /-- device time of the last update, ns; none: both buckets are full -/
  at_ : Option Nat := none
deriving DecidableEq, Repr

/-- Vector recovery state of a stream handle (05 R187). -/
structure RecoverySt where
  /-- no packet seen since the reset -/
  take : Bool := true
  seq : Nat := 0
  /-- history bits: bit i is sequence number seq − i -/
  hist : Nat := 0
  /-- device time of the last frame, ns -/
  last : Nat := 0
deriving DecidableEq, Repr

/-- Root ports (05 R202 to R208). -/
structure RootSt where
  /-- the link is up -/
  up : Bool := false
  /-- PERST_N driven low -/
  perst : Bool := true
  /-- Unsupported Requests logged by AER (05 R206) -/
  aer : Nat := 0
  /-- configuration space of the root port, the registers that differ from their reset values: by byte offset (05 R204, R205) -/
  cfg : Map Byte := []
  /-- posted writes sent to the device, newest last: (offset in the window, bytes) -/
  sent : List (Nat × List Byte) := []
  /-- completion of the last inbound request: success, poisoned (EP), data (05 R206, 02 R66) -/
  reply : Option (Bool × Bool × List Byte) := none
deriving DecidableEq, Repr

/-- A gPTP domain as Oasis keeps it (05 R191). -/
structure PtpDomain where
  /-- domain time less device time at device time `at_`, ns, and the domain's rate against device time, ppb -/
  offset : Int := 0
  rate : Int := 0
  at_ : Nat := 0
  /-- last pair of receive timestamp and domain time, while the domain is in sync -/
  synced : Option (Nat × Int) := none
  /-- per port: the priority vector and source identity of the last Announce, and when it was heard, ns -/
  heardOn : Map (Option (Nat × Nat)) := []
  /-- priority vector of the best Announce, and the port it came from -/
  best : Option Nat := none
  slave : Option Nat := none
  /-- sequence numbers of sent Announce and Sync messages -/
  seq : Nat := 0
deriving DecidableEq, Repr

/-- Peer delay and Sync messages in progress on a port (05 R191). -/
structure PtpLink where
  seq : Nat := 0
  /-- the last Pdelay_Resp: sequence number, request receipt time at the peer, receive timestamp -/
  resp : Option (Nat × Nat × Nat) := none
  /-- the last exchange: response time at the peer, receive timestamp -/
  last : Option (Nat × Nat) := none
  /-- a two-step Sync that waits for its Follow_Up: domain, sequence number, receive timestamp -/
  sync : Option (Nat × Nat × Nat) := none
deriving DecidableEq, Repr

/-- Erg beside its registers. -/
structure ErgSt where
  ports : Map PortSt := []
  frames : List BufFrame := []
  nextId : Nat := 0
  /-- SW tables: key (table × 131,072 + index) × 4 + data word (05 R181) -/
  tbl : Map Word := []
  /-- device time at which each dynamic FDB entry last saw its address, ns -/
  seen : Map Nat := []
  meters : Map MeterSt := []
  recovery : Map RecoverySt := []
  roots : Map RootSt := []
  /-- frames handed to Oasis (IEEE 802.1AS), newest last: (port, first-bit timestamp, frame) -/
  ptpRx : List (Nat × Nat × List Byte) := []
  /-- transmitted event messages with the timestamp of their first bit, newest last: (port, ns, frame) (05 R190) -/
  ptpTx : List (Nat × Nat × List Byte) := []
  /-- IEEE 802.1AS of Oasis: the two gPTP domains, and the links by port (05 R191) -/
  ptpDoms : Map PtpDomain := []
  ptpLinks : Map PtpLink := []
  /-- frames held for an agreement window: (class, frame-buffer id) (07 R266) -/
  held : List (Nat × Nat) := []
  /-- transmit frames of instances waiting for the shared pool (05 R200): (instance, queue pair) -/
  waitPool : List (Nat × Nat) := []
deriving DecidableEq, Repr
/-! Twin standby (07). -/

/-- An entry of the input journal (07 R272). -/
structure JournalEnt where
  seq : Nat
  cls : Nat
  /-- class cycle number in which it applies -/
  apply : Nat
  k : Nat
  word : Nat
  value : Word
  tag : Byte
  /-- the two words as sent: TWIN_JNL_TARGET and TWIN_JNL_VALUE -/
  target : Word
deriving DecidableEq, Repr

/-- Agreement of one class in one fill cycle (07 R267 to R269). -/
structure AgreeSt where
  cycle : Nat := 0
  isOpen : Bool := false
  /-- device time at which the window ends, ns -/
  ends : Nat := 0
  /-- streams in the map this device sent -/
  sent : List Nat := []
  peerMap : Bool := false
  /-- streams filled from the peer in this cycle -/
  filled : List Nat := []
  /-- frames held until the window ends: (stream, timestamp, frame) -/
  held : List (Nat × Nat × List Byte) := []
  /-- fills sent in this cycle -/
  fills : Nat := 0
  /-- journal entries this device applies in this cycle: their number and CRC-32C (07 R275) -/
  jcount : Nat := 0
  jcrc : Nat := 0
  /-- the peer's map of a cycle whose AGREE has not run here: cycle, payload -/
  early : Option (Nat × List Byte) := none
deriving DecidableEq, Repr

/-- A message in the queue to the twin link (07 R260): its lane, once it has a credit of the queue and a lane has room. -/
structure TwinOut where
  bytes : List Byte
  credit : Bool := false
  lane : Option Nat := none
deriving DecidableEq, Repr

/-- A digest of a class and controller (07 R276, R277). -/
structure DigestSt where
  cls : Nat
  k : Nat
  /-- low 32 bits of the cycle number -/
  cycle : Nat
  crc : Nat
  /-- device time at which it was computed, ns -/
  at_ : Nat := 0
deriving DecidableEq, Repr

/-- What the last heartbeat of the peer said (07 R263). -/
structure PeerSt where
  unit : Nat := 0
  layout : Nat := 0
  sendTime : Nat := 0
  recvTime : Nat := 0
  swap : Bool := false
  swapCycle : Nat := 0
  copySeq : Nat := 0
  gap : Nat := 0
  /-- per class: PERIOD, EPOCH, fill cycle number -/
  classes : List (Nat × Nat × Nat) := []
deriving DecidableEq, Repr

/-- The twin protocol logic beside its registers. -/
structure TwinSt where
  table0 : Map Word := []
  table1 : Map Word := []
  table2 : Map Word := []
  txSeq : Nat := 0
  /-- SEQ of the last message received, if any -/
  rxSeq : Option Nat := none
  /-- SEQ of the first gap since the last heartbeat sent, 0 for none -/
  firstGap : Nat := 0
  lastCopySeq : Nat := 0
  linkUp : Bool := false
  /-- lanes with block lock, bit l (R264) -/
  lanes : Nat := 0
  /-- consecutive valid heartbeats while the link is lost, and the device time of the last one, ns (07 R255) -/
  goodBeats : Nat := 0
  lastBeat : Nat := 0
  /-- device time of the last valid message, ns -/
  lastRx : Nat := 0
  /-- device time at which the loss was declared, ns -/
  lostAt : Nat := 0
  /-- per path: device time of the last valid network heartbeat -/
  pathRx : List Nat := [0, 0, 0, 0]
  /-- device time at which the last heartbeat was due, ns: the next is due one period later (07 R263) -/
  hbAt : Nat := 0
  /-- messages in the queue to the link, oldest first -/
  out : List TwinOut := []
  /-- messages on each lane, and the lane that took one last (07 R260) -/
  laneBusy : List Nat := [0, 0, 0, 0, 0, 0, 0, 0]
  lastLane : Nat := 7
  peer : PeerSt := {}
  /-- own epoch held last -/
  lastEpoch : Nat := 0
  /-- a START is accepted and waits for its boundary -/
  startPend : Bool := false
  /-- a COLD_START is accepted and waits for its boundary -/
  coldPend : Bool := false
  /-- the peer is ACTIVE with a higher epoch (R281) -/
  demote : Bool := false
  /-- swap requested: boundary cycle number (low 32 bits), and the device time of the request, ns -/
  swapReq : Option Nat := none
  swapAt : Nat := 0
  swapAgreed : Bool := false
  lastMatched : Bool := true
  agree : Map AgreeSt := []
  /-- digests being computed -/
  digesting : List DigestSt := []
  own : List DigestSt := []
  peerDig : List DigestSt := []
  journal : List JournalEnt := []
  journalSeq : Nat := 0
  /-- the Active: stamp last copied of each state line, key k × 131,072 + line -/
  copied : Map Nat := []
  /-- mirrored 4 KiB pages written since last copied -/
  dirtyPages : Map Bool := []
  /-- the Active runs a join for its peer -/
  joining : Bool := false
  /-- target words of STATE_COPY messages sent, by SEQ, until the next heartbeat of the peer -/
  copySent : List (Nat × List Nat) := []
  /-- device time at which a freeze opened, ns -/
  freezeAt : Option Nat := none
  /-- a final round waits for its boundary -/
  wantFreeze : Bool := false
  /-- releases held by the freeze or by a join: (class, group mask, class cycle number) -/
  heldRel : List (Nat × Nat × Nat) := []
  /-- classes that take the Active's period, epoch and number once they have stopped (07 R283) -/
  joinWait : List Nat := []
  /-- the joining device: a SEQ gap in the present round, and its number -/
  roundGap : Bool := false
  round : Nat := 0
  /-- a gap since the last STATE_COPY (07 R262, R286) -/
  lastGap : Bool := false
  /-- lines that the present join has copied in: a state line as its controller and line, a DRAM line with bit 63 set (07 R254, R284) -/
  copiedIn : List Nat := []
deriving DecidableEq, Repr

/-! The historian (08). -/

/-- A sample: device time in ns, value as read, tag. -/
structure HSample where
  t : Nat
  raw : Word
  tag : Byte
deriving DecidableEq, Repr

/-- Compression state of a signal (08 R306, R307): the last stored sample `a`, the held one `h`, the two slopes as binary64. -/
structure HComp where
  a : Option HSample := none
  h : Option HSample := none
  up : Nat := 0xFFF0000000000000
  lo : Nat := 0x7FF0000000000000
deriving DecidableEq, Repr

/-- A block of a segment buffer before it takes its SEQ and SEGMENT (08 R308): the payload without its trailing zeros. -/
structure HBlock where
  kind : Nat
  count : Nat := 0
  time0 : Nat := 0
  stream : Nat := 0
  payload : List Byte := []
deriving DecidableEq, Repr

/-- A segment buffer (08 R315). -/
structure HBuf where
  /-- finished blocks, in order -/
  blocks : List HBlock := []
  /-- the sample block being filled -/
  cur : Option HBlock := none
  /-- device time at the buffer's first record, ns -/
  firstAt : Nat := 0
  tFirst : Nat := 0
  tLast : Nat := 0
  records : Nat := 0
  bulk : Nat := 0
  /-- groups of 128 signals with a record -/
  groups : List Nat := []
  /-- buffer of the region that holds it, SEQ of its first block and the segment it is to be written to -/
  slot : Nat := 0
  firstSeq : Nat := 0
  seg : Nat := 0
  /-- TIME0 of its pad and checkpoint blocks, which the spec does not state: a free value -/
  padTime : Nat := 0
deriving DecidableEq, Repr

/-- A segment being written (08 R316, R317). -/
structure HSeg where
  buf : HBuf
  seg : Nat
  firstSeq : Nat
  attempt : Nat := 0
  /-- per stripe: blocks, the checkpoint excepted, whose write has not ended -/
  left : List Nat := []
  /-- stripes with a failed write -/
  fail : Nat := 0
  /-- device time of submission of its blocks, and of its checkpoint once they are written, ns -/
  issuedAt : Nat := 0
  chkAt : Nat := 0
deriving DecidableEq, Repr

/-- A sample list in progress, or one that waits behind it (08 R304, R305). -/
structure HList where
  /-- class of its SAMPLE action -/
  cls : Nat
  /-- sample time, ns -/
  t : Nat
  /-- signals that can still be read before the class's next boundary -/
  n : Nat
  /-- signals not yet read, with their entries -/
  sigs : List (Nat × Word)
deriving DecidableEq, Repr

/-- A query in progress (08 R325). -/
structure HQuery where
  /-- ring entry -/
  entry : Nat
  bulk : Bool
  /-- signal or stream -/
  key : Nat
  t1 : Nat
  t2 : Nat
  addr : Nat
  cap : Nat
  irq : Bool
  /-- segments it reads, in log order, with their FIRST_SEQ -/
  segs : List (Nat × Nat) := []
deriving DecidableEq, Repr

/-- The historian engine beside its registers. -/
structure HistSt where
  /-- tables 0 to 3 (08 HIST_TBL_INDEX): key table × 2^20 + index -/
  d0 : Map Word := []
  d1 : Map Word := []
  /-- compression state by signal -/
  comp : Map HComp := []
  openBuf : Option HBuf := none
  /-- the time in effect, ns; none before the first record of a run -/
  timeNow : Option Nat := none
  /-- sealed buffers not yet issued, oldest first -/
  sealedBufs : List HBuf := []
  /-- segments being written, in write order -/
  flight : List HSeg := []
  logId : Word := 0
  nextSeq : Nat := 1
  /-- next superblock generation -/
  gen : Nat := 0
  /-- device time of the last superblock, ns -/
  sbAt : Nat := 0
  /-- drive blocks written: key drive × 2^34 + block; an unlisted block holds what stood on the drive before -/
  media : Map (List Byte) := []
  /-- queries in progress by slot, at most 4 -/
  queries : Map HQuery := []
  /-- a SYNC that waits: its ring entry, its IRQ bit, segments still to become valid -/
  sync : Option (Nat × Bool × Nat) := none
  /-- sample lists: the one in progress first, then those that wait for it (08 R304, R305) -/
  lists : List HList := []
  /-- FORMAT as it stood at the transition to STARTING (08 R301) -/
  format : Bool := false
  /-- largest transfer of each drive of the set in blocks (08 R296) -/
  mdts : List Nat := []
  /-- device time at which the last checkpoint completed, ns (08 R316) -/
  chkDone : Nat := 0
  /-- device time at which the lists taken up so far are complete, in fifths of a nanosecond (08 R304) -/
  listEnd : Nat := 0
deriving DecidableEq, Repr
/-! Hardware threads (09, 10, 11, 12, 16). -/

/-- Thread states (09 R334, 11 R425, 16 R597). -/
inductive ThState where
  | off | running | cycleWait | haltedDebug | haltedFault
deriving DecidableEq, Repr

/-- What the next instruction of a thread is (09 R336, R337). -/
inductive Slot where
  /-- an ordinary instruction -/
  | none
  /-- a delay slot that executes; then the thread goes on at `next` -/
  | exec (next : Nat)
  /-- an annulled delay slot; then the thread goes on at `next` -/
  | annul (next : Nat)
deriving DecidableEq, Repr

/-- The atomics (10 R386). -/
inductive AtomicOp where
  | swap | add | cas | min | max
deriving DecidableEq, Repr

/-- Kinds of memory access. -/
inductive AccOp where
  /-- LD: a full word with its tag -/
  | loadTagged
  /-- LDV and the sub-word loads: bytes, sign extension -/
  | loadValue (bytes : Nat) (signed : Bool)
  | storeTagged
  | storeValue (bytes : Nat)
  | atomic (op : AtomicOp)
deriving DecidableEq, Repr

/-- How far an uncached access has come. -/
inductive AccPhase where
  /-- issued under a credit, on its way to its target -/
  | issued
  /-- queued at a bank -/
  | waiting
  /-- performed or refused; the answer is on its way -/
  | done
  /-- answered: the credit has returned, the data are on their way to the register -/
  | returned
deriving DecidableEq, Repr

/-- An access error (11 R420): BE_KIND, and the bytes done of a split access (R92). -/
structure AccErr where
  kind : Nat
  partBytes : Option Nat := none
deriving DecidableEq, Repr

/-- What an exception entry writes into its frame (11 R419, R420). -/
structure ExcInfo where
  vector : Nat
  resume : Nat := 0
  next : Nat := 0
  inSlot : Bool := false
  deferred : Bool := false
  partBytes : Option Nat := none
  nested : Bool := false
  fetch : Bool := false
  write : Bool := false
  dest : Nat := 0
  beKind : Nat := 0
  code : Nat := 0
  fpflags : Nat := 0
  orig : Nat := 0
  faddr : Nat := 0
  result : QWord := ⟨0, 0⟩
  insn : Nat := 0
  /-- TFAULT and TFIPA, where the entry writes them (12 R464) -/
  tfault : Option (Nat × Nat) := none
deriving DecidableEq, Repr

/-- An access of a thread that is not complete: a load served beyond L1, or an uncached access (09 R357, 10 R408). -/
structure Acc where
  id : Nat
  op : AccOp
  va : Nat
  pa : Nat
  /-- destination register of a load or atomic -/
  rd : Nat := 0
  data : QWord := ⟨0, 0⟩
  expect : QWord := ⟨0, 0⟩
  /-- instruction word and address of the instruction (R419, R408) -/
  insn : Nat := 0
  pc : Nat := 0
  uncached : Bool := false
  /-- still names its destination register: no newer write to it has issued -/
  live : Bool := true
  phase : AccPhase := .issued
  /-- bytes of the access already performed (first part of a split) -/
  firstDone : Bool := false
  result : QWord := ⟨0, 0⟩
  poisoned : Bool := false
  err : Option AccErr := none
  /-- QMODE of the instruction -/
  qmode : Nat := 0
  /-- the deferred exception the access raised, pending (R408) -/
  trap : Option ExcInfo := none
  /-- a pending deferred exception that waits behind another's handler: it is taken once the handler whose frame lies at this SSP has returned (R409) -/
  hold : Option Nat := none
deriving DecidableEq, Repr

/-- What an entry of the store buffer does (09 R354, 10 R401). -/
inductive StoreKind where
  | store | clean | flush | zero
deriving DecidableEq, Repr

/-- A store-buffer entry (09 R354). -/
structure StoreEnt where
  /-- its place in the program order of the thread's accesses -/
  id : Nat
  kind : StoreKind := .store
  pa : Nat
  bytes : Nat := 8
  tagged : Bool := false
  data : QWord := ⟨0, 0⟩
deriving DecidableEq, Repr

/-- Kinds of access that translation tells apart (12 R446). -/
inductive AccKind where
  | load | store | atomic | fetch
deriving DecidableEq, Repr

/-- An access that waits for the walk of its page (12 R449, R454). -/
structure WalkWait where
  va : Nat
  kind : AccKind
  /-- instruction word, 0 for a fetch -/
  insn : Nat := 0
  /-- not a multiple of its size: misaligned unless it lies in a plain bank (10 R383) -/
  misaligned : Bool := false
deriving DecidableEq, Repr


/-- The registers given by THREAD_START or a boot blob (14 R538, 15 R556). -/
structure StartRegs where
  entry : Nat := 0
  sup : Bool := true
  vbr : Nat := 0
  ssp : Nat := 0
  stackLimit : Nat := 0
  emsp : Nat := 0
  ipl : Nat := 16
  ttb : Nat := 0
  asid : Nat := 0
  tctl : Nat := 0
  w1 : QWord := ⟨0, 0⟩
deriving DecidableEq, Repr

/-- One hardware thread. -/
structure Thread where
  st : ThState := .off
  /-- state to which RESUME returns (16 R598) -/
  resume : ThState := .off
  pc : Nat := 0
  slot : Slot := .none
  /-- w1 to w31; an unlisted register is value 0, tag 0x00 -/
  gpr : Map QWord := []
  qmode : Nat := 0
  fpcsr : Nat := 0
  cycpin : Word := 0
  overrun : Bool := false
  pctl : Nat := 0
  sup : Bool := false
  emerg : Bool := false
  ipl : Nat := 16
  vbr : Nat := 0
  ssp : Nat := 0
  stackLimit : Nat := 0
  emsp : Nat := 0
  ttb : Nat := 0
  asid : Nat := 0
  tctl : Nat := 0
  tfault : Nat := 0
  tfipa : Nat := 0
  trcctl : Nat := 0
  trcctx : Nat := 0
  storeBuf : List StoreEnt := []
  accs : List Acc := []
  /-- the access that waits for its walk -/
  walk : Option WalkWait := none
  /-- an exception whose entry waits until the store buffer has drained (11 R424) -/
  exc : Option ExcInfo := none
  /-- a STEP is in progress (16 R599) -/
  stepping : Bool := false
  /-- its instruction has issued and waits for its access -/
  stepWait : Bool := false
  nextId : Nat := 0
  /-- deadline of a TWAIT in progress, ns (10 R396) -/
  twait : Option Nat := none
  /-- TWAIT.C issued, waiting for the stores to be accepted (04 R156) -/
  cycleEnd : Bool := false
  /-- T0 of the release the thread runs under (04 R157) -/
  releaseT0 : Nat := 0
  /-- class of that release -/
  releaseCls : Nat := 0
  /-- the thread runs under a release -/
  released : Bool := false
  brkHalt : Bool := false
  start : StartRegs := {}
  /-- placed on a spare and not yet released there (15 R559) -/
  waitSpare : Bool := false
  /-- a RELEASE held while the thread moves to a spare: class and entry (15 R560) -/
  relHeld : Option (Nat × Nat) := none
deriving DecidableEq, Repr

/-! Caches, directory and TLBs (12, 13). -/

/-- A DRAM line held by a cache (13 R469, R471). The newest data of every line stands in `mem`; a dirty line keeps the words of the next level beside it, which come back when the line is dropped (R501). -/
structure CLine where
  /-- line number: physical address / 64 -/
  line : Nat
  excl : Bool := false
  dirty : Bool := false
  back : List QWord := []
  backPoison : List Bool := []
deriving DecidableEq, Repr

/-- A directory entry (13 R481). -/
structure DirEnt where
  line : Nat
  excl : Bool := false
  bcast : Bool := false
  holders : List Nat := []
deriving DecidableEq, Repr

/-- The scrub pass of a DRAM channel (15 R570). -/
structure ScrubSt where
  /-- lines of the pass visited -/
  pos : Nat := 0
  /-- operating time at which the pass began -/
  start : Nat := 0
  corrected : Nat := 0
  poisoned : Nat := 0
deriving DecidableEq, Repr

/-- Caches of the clusters and the directory slices. Cache numbers: 0 to 191 the L1 data cache of a core, 192 + c the L2 of cluster c (log 152, DESIGN CHOICE). -/
structure CacheSt where
  /-- lines held, key (cache × 4,096 + set) × 16 + way -/
  ways : Map CLine := []
  /-- tree pseudo-LRU nodes that point right, key cache × 4,096 + set (13 R472) -/
  plru : Map (List Nat) := []
  /-- replacement LFSR of a cache with a retired way (13 R473) -/
  lfsr : Map Nat := []
  /-- prefetch buffer of each core, oldest first (13 R475) -/
  pf : Map (List Nat) := []
  /-- stride prefetcher's table of each core: lines of its training loads, newest last (09 R341) -/
  stride : Map (List Nat) := []
  /-- eviction buffer or victim cache of each cluster, oldest first (13 R476, R477) -/
  evict : Map (List CLine) := []
  /-- VICTIM_MODE in force of each cluster (13 R478) -/
  vicMode : Map Bool := []
  /-- directory entries, key (slice × 16,384 + set) × 12 + way (13 R480) -/
  dir : Map DirEnt := []
  dirPlru : Map (List Nat) := []
  /-- corrected lines per rank, subchannel and device in the present scrub pass of a channel, key channel × 1,024 + i × 16 + device (13 R504) -/
  corrected : Map Nat := []
  scrub : Map ScrubSt := []
  /-- next set of the scrub of each SRAM array (15 R571) -/
  cscrub : Map Nat := []
  /-- operating times of the words corrected in a way in the last 24 hours, key cache × 16 + way (15 R567) -/
  fixes : Map (List Nat) := []
  /-- lines that the prefetchers of a core have requested and that are not there yet, oldest first (09 R341, R342) -/
  pfWant : Map (List Nat) := []
  /-- line that the fetch of a thread waits for (13 R471) -/
  fetch : Map Nat := []
  /-- operating time at which a miss entered its cluster's miss queue, key core × 2^40 + line (05 R213, R214) -/
  missAt : Map Nat := []
  /-- core, within its cluster, that the L2 miss queue granted last (05 R213) -/
  lastCore : Map Nat := []
  /-- source that a memory controller granted last, and how many times in a row (05 R214) -/
  lastSrc : Map Nat := []
  srcRun : Map Nat := []
  /-- requests at a memory controller that its arbiter has not granted, beside those of the miss queues: key 32 × channel + source, operating time of the request (05 R213, R214) -/
  asks : Map Nat := []
  /-- lines in the caches of the Oasis cores, oldest first (13 R469, R479) (log 152, DESIGN CHOICE) -/
  oasis : List CLine := []
deriving DecidableEq, Repr

/-- A TLB entry (12 R451): combined (virtual page) or stage-2 (IPA page). -/
structure TlbEnt where
  /-- a stage-2 entry of the L2 TLB -/
  s2 : Bool := false
  /-- page number at its own size -/
  page : Nat
  /-- log2 of the page size: 12, 21 or 30 -/
  size : Nat
  asid : Nat := 0
  global : Bool := false
  user : Bool := false
  /-- R, W, X of both stages ANDed: bits 0, 1, 2 -/
  perm : Nat
  phys : Nat
deriving DecidableEq, Repr

/-- TLBs of a core (12 R451): slots of each, and the pseudo-LRU nodes that point right. -/
structure TlbSt where
  itlb : Map TlbEnt := []
  itlbPlru : List Nat := []
  dtlb : Map TlbEnt := []
  dtlbPlru : List Nat := []
  /-- key set × 8 + way -/
  l2 : Map TlbEnt := []
  l2Plru : Map (List Nat) := []
deriving DecidableEq, Repr

/-- An entry of the I/O translation cache (12 R462). -/
structure IoEnt where
  part : Nat
  ipaPage : Nat
  physPage : Nat
  perm : Nat
  /-- log2 of its size: 12, 21 or 30 (R451) -/
  size : Nat
deriving DecidableEq, Repr
/-! Partitions and mailboxes (14). -/

/-- A stage-2 mapping of a partition (12 R466, 14 R538 MAP): `size` bytes from `ipa` to `pa`; R, W, X are bits 0, 1, 2 of `perm` (log 32, DESIGN CHOICE). -/
structure S2Ent where
  ipa : Nat
  pa : Nat
  size : Nat
  perm : Nat
deriving DecidableEq, Repr

/-- A load record of a boot blob (14 R535). -/
structure BlobLoad where
  ipa : Nat
  bytes : List Byte
deriving DecidableEq, Repr

/-- A partition as the Slazal image describes it and as Oasis runs it (14 R530, R541). Its state is MGR_PART_STATUS. -/
structure PartSt where
  /-- 0 Plant, 1 Site (11 R411) -/
  world : Nat := 0
  gen : Nat := 0
  roles : Nat := 0
  startAtBoot : Bool := false
  clearOnReset : Bool := false
  dramBase : Nat := 0
  dramSize : Nat := 0
  ipaBase : Nat := 0
  gates : Nat := 0
  s2 : List S2Ent := []
  loads : List BlobLoad := []
  /-- words 1 to 11 of each thread start (14 R535, R538) -/
  starts : List (List Word) := []
  /-- mailbox that waits for the end of the present stop or reset (R538) -/
  answer : Option Nat := none
deriving DecidableEq, Repr

/-- A mailbox pair (06 R243 to R246, 14 R523, R536). -/
structure MboxSt where
  out : List Word := List.replicate 16 0
  inp : List Word := List.replicate 16 0
  /-- a posted command that has not been taken up -/
  posted : Bool := false
  /-- a response to be placed inbound -/
  resp : Option (List Word) := none
  /-- notices held by Oasis, oldest first, at most 8 (06 R245) -/
  notes : List (List Word) := []
  /-- notices queued when the present command was posted, which go before its response (06 R245) -/
  before : Nat := 0
deriving DecidableEq, Repr

/-! Port instances (06). -/

/-- One direction of a queue pair (06 R226, R252). -/
structure QDir where
  base : Nat := 0
  log : Nat := 0
  stash : Nat := 0
  en : Bool := false
  irq : Bool := false
  head : Nat := 0
  tail : Nat := 0
  /-- 0 disabled, 1 running, 2 stopped -/
  state : Nat := 0
  err : Nat := 0
  /-- a slot was found DONE: it is read again at the next doorbell (06 R232) -/
  early : Bool := false
  /-- a write with EN 0 that waits for the frame in progress (06 R233); DONE is 0 meanwhile (21 R707) -/
  closing : Option Word := none
deriving DecidableEq, Repr

/-- A transmit request of the engine whose buffer data has not returned (06 R239). -/
structure PiReq where
  qp : Nat
  gen : Nat
  /-- the descriptor it was made from (R227) -/
  w0 : Word := 0
  w1 : Word := 0
deriving DecidableEq, Repr

/-- A change announced to the tenant of an instance (06 R249, R250). -/
structure PiChange where
  /-- 0x8001 resize, 0x8002 policy, 0x8003 removal -/
  code : Nat
  id : Nat
  count : Nat := 0
  vids : List Nat := []
  /-- device time at which it is applied without acknowledgement, ns -/
  deadline : Nat := 0
  /-- mailbox of the manager that waits for the response -/
  manager : Nat := 0
  /-- acknowledged, or past its deadline: it waits only for frames in progress (R233, R250) -/
  due : Bool := false
deriving DecidableEq, Repr

/-- A port instance beside its registers (log 37, DESIGN CHOICE). -/
structure InstSt where
  part : Nat := 0
  /-- queue pairs: key 2 × pair + direction (0 receive, 1 transmit) -/
  qs : Map QDir := []
  pvid : Nat := 1
  vlans : List Nat := []
  permitted : List Nat := []
  /-- flood flags: bit 0 broadcast, 1 multicast, 2 unknown unicast -/
  flood : Nat := 0
  steer : List Nat := List.replicate 64 0
  /-- installed unicast addresses, at most 16 -/
  macs : List Nat := []
  /-- requests in flight -/
  reqs : List PiReq := []
  change : Option PiChange := none
  /-- a removal is being carried out by R240 -/
  removing : Bool := false
  /-- SEQ of the tenant's RESET, whose response waits for R240 (06 R242) -/
  tenantReset : Option Nat := none
  /-- an instance reset is asked for and has not started -/
  resetReq : Bool := false
  /-- device time at which R240 started, ns -/
  resetAt : Nat := 0
  /-- the WARNING of R241 stands for this reset -/
  warned : Bool := false
  nextNotice : Nat := 1
deriving DecidableEq, Repr

/-! Oasis (14). -/

/-- A hardware gate (14 R543, R544): 0 FREE, 1 HELD, 2 BROKEN, with its owner record. -/
structure GateSt where
  st : Nat := 0
  thr : Nat := 0
  part : Nat := 0
  gen : Nat := 0
deriving DecidableEq, Repr

/-- A load of the recovery loader in progress (14 R524). -/
structure LoadSt where
  /-- target 1: a configuration slot -/
  config : Bool
  slot : Nat
  length : Nat
  /-- offset of the next byte -/
  next : Nat := 0
  /-- bytes of the page not yet complete -/
  page : List Byte := []
deriving DecidableEq, Repr

/-- A bridge window between worlds (11 R415). -/
structure WindowSt where
  ipa : Nat
  pa : Nat
  size : Nat
  /-- partitions it is mapped into, with their permissions -/
  parts : List (Nat × Nat)
deriving DecidableEq, Repr

/-- Oasis beside its registers, mailboxes and partitions (log 154, DESIGN CHOICE). -/
structure OasisSt where
  /-- the four threads of the Oasis lockstep pair and the 4 MiB of its SRAM (14 R508): what the firmware does with them is the effect of the commands of Oasis (log 154, DESIGN CHOICE) -/
  threads : Map Thread := []
  sram : List Host.Cell := []
  gates : Map GateSt := []
  /-- bytes of the configuration flash (14 R510); an unlisted byte is erased, 0xFF -/
  flash : Map Byte := []
  load : Option LoadSt := none
  /-- status byte the loader last answered on the console UART (14 R522) -/
  answer : Option Nat := none
  /-- reports of the boot ROM on the console UART since power-good, whose text the spec does not give (14 R509) -/
  reports : Nat := 0
  /-- firmware slot running; none: the boot ROM waits for an image (14 R509) -/
  fw : Option Nat := some 0
  /-- sections in force: TYPE, SCRC and bytes of each (14 R527) -/
  inForce : List (Nat × Nat × List Byte) := []
  /-- positions retired at boot and the spares that took their places (15 R562) -/
  moved : List (Nat × Nat) := []
  /-- image of the last CFG_APPLY, when it returned OK (14 R529) -/
  staged : Option (List Byte) := none
  /-- class enable writes held back at boot (14 R521) -/
  heldEnables : List Nat := []
  /-- operating time from which their 1 s runs -/
  heldFrom : Nat := 0
  /-- fuse words W1 to W3: bits blown (14 R547) -/
  w1 : Nat := 0
  w2 : Nat := 0
  w3 : Nat := 0
  /-- fused minimum security version (14 R509) -/
  fwMin : Nat := 0
  /-- fused customer key (14 R538 KEY_FUSE) -/
  key : Option (List Byte) := none
  /-- customer debug password (16 R590) -/
  password : Option (List Byte) := none
  /-- cluster and bank managers (14 R532, R533) -/
  clMgr : Map Nat := []
  bkMgr : Map Nat := []
  windows : List WindowSt := []
  /-- a restart under way chooses its slot by R509 (14 R540) -/
  chooseSlot : Bool := false
  /-- operating time at which the present restart began -/
  restartAt : Nat := 0
  /-- BUSY responses by mailbox since then (15 R581) -/
  busy : Map Nat := []
  /-- no configuration copy is in force (14 R520) -/
  noImage : Bool := false
  /-- configuration slot booted (14 R519) -/
  slotInUse : Option Nat := none
  /-- bytes of the flash whose bits are marginal: read with free bits set beside those held (14 R512, R513) -/
  marginal : Map Bool := []
deriving DecidableEq, Repr
/-! The Sampler and repair (15). -/

/-- A Sampler record (15 R574). -/
structure SRec where
  sev : Nat
  code : Nat
  block : Nat
  inst : Nat
  count : Nat := 1
  seq : Nat := 0
  hours : Nat := 0
  secs : Nat := 0
  cycles : Nat := 0
  summary : Bool := false
  payload : List Byte := []
  /-- a flash copy is pending (R576, R577) -/
  flashPend : Bool := false
deriving DecidableEq, Repr

/-- The rate limit of one (source, code) pair (04 R159). -/
structure RateSt where
  block : Nat
  inst : Nat
  code : Nat
  /-- operating time of the last record -/
  last : Nat
  /-- events counted since -/
  counted : Nat := 0
  sev : Nat := 0
  payload : List Byte := []
deriving DecidableEq, Repr

/-- A monitored quantity of a phase (15 R582). -/
structure Quantity where
  id : Nat
  lo : Int
  width : Nat
  count : Nat := 0
  minV : Int := 0
  maxV : Int := 0
  minAt : Nat := 0
  maxAt : Nat := 0
  bins : List Nat := List.replicate 16 0
deriving DecidableEq, Repr

/-- An open phase (15 R581). -/
structure PhaseSt where
  kind : Nat
  /-- operating time at which it opened -/
  opened : Nat
  /-- operating time of the last absorbed event -/
  lastEvent : Nat
  folded : List Nat := [0, 0, 0, 0]
  quantities : List Quantity := []
  /-- pairs absorbed by RECOVERY_PAIR: (even core, even core of its spare if one was held, operating time of the halt) -/
  pairs : List (Nat × Option Nat × Nat) := []
deriving DecidableEq, Repr

/-- A repair record of the repair and identity region (15 R568). -/
structure RepairRec where
  /-- 0 bank spare row, 1 line-table spare, 2 cache way, 3 DRAM device mark, 4 pair fault -/
  kind : Nat
  /-- bank, controller, cluster, channel or pair position -/
  unit : Nat
  /-- region, cache and way, rank and subchannel and device -/
  arg : Nat
  /-- CRC correct (R569) -/
  whole : Bool := true
deriving DecidableEq, Repr

/-- The Sampler. -/
structure SmpSt where
  /-- RAM store, oldest first (R576) -/
  ram : List SRec := []
  /-- flash store: sectors in use, oldest first, each with its slots (R577); none: a slot that holds no record (R578) -/
  flash : List (List (Option SRec)) := []
  rates : List RateSt := []
  phase : Option PhaseSt := none
  /-- SELF_TEST inside START_UP (R581) -/
  selfTest : Option PhaseSt := none
  hours : Nat := 0
  cycles : Nat := 0
  /-- operating time since the last power-good, 10^-13 ns -/
  op : Nat := 0
  /-- operating time at which HOURS last changed -/
  hourStart : Nat := 0
  /-- entries of the time log (R580), newest last: (HOURS, CYCLES) -/
  timeLog : List (Nat × Nat) := []
  /-- read buffer of SMP_RD_DATA -/
  readBuf : List Byte := []
  /-- repair records (R568), in order -/
  repairs : List RepairRec := []
  /-- failed pairs whose spare is not yet ready: (even core, even core of the spare) -/
  heal : List (Nat × Nat) := []
  /-- pairs running unchecked whose move is due: (even core, even core of the spare, operating time of the fault, device time of it in ns) -/
  moves : List (Nat × Nat × Nat × Nat) := []
  /-- positions halted since the last power-good, where they stay so (R562) -/
  halted : List Nat := []
  /-- positions whose next self-test is that of comparator B (R552) -/
  tests : Map Bool := []
  /-- halted positions with the comparator that stayed silent, true for B (R553) -/
  silent : List (Nat × Bool) := []
  /-- operating time until which FAULT_N is driven low for a FATAL record (18 R656) -/
  faultUntil : Nat := 0
deriving DecidableEq, Repr

/-! Trace (16). -/

/-- A source entry of the trace hub and its stream state (16 R612, R613, R618). -/
structure TrcSrc where
  en : Bool := false
  prio : Nat := 0
  data : Bool := false
  /-- LOSS field of the entry -/
  loss : Nat := 0
  /-- packets lost since the source's last packet -/
  lost : Nat := 0
  /-- a SYNC is due -/
  needSync : Bool := true
  /-- bytes of other packets since the last SYNC -/
  since : Nat := 0
  /-- outcomes of conditional branches not yet sent, oldest first (R611) -/
  outcomes : List Bool := []
  /-- the thread runs excluded code (R609) -/
  excluded : Bool := false
deriving DecidableEq, Repr

/-- The trace hub beside its registers. -/
structure TrcSt where
  srcs : Map TrcSrc := []
  /-- the FIFO, oldest byte first -/
  fifo : List Byte := []
  /-- bytes of sink output since EN -/
  sunk : Nat := 0
  /-- bytes of sink output since the trigger -/
  post : Nat := 0
  /-- device time of the trigger -/
  trigAt : Nat := 0
  /-- a trigger has been taken since EN (R614) -/
  triggered : Bool := false
  /-- device time from which TIME packets count -/
  started : Nat := 0
  /-- TIME packets sent since -/
  times : Nat := 0
  /-- the last write of TRC_SRC_DATA had CLR set (R618) -/
  clr : Bool := false
  /-- bytes put on the parallel or serial port, newest last: the pins' output of this command -/
  port : List Byte := []
deriving DecidableEq, Repr


/-! Debug port (16). -/

/-- A comparator (R600). -/
structure CmpSt where
  va : Nat
  /-- threads it watches, bit t -/
  mask : Nat
  /-- 0 halt, 1 trigger, 2 both -/
  action : Nat
  /-- data comparator: bit 0 load, bit 1 store -/
  access : Nat := 3
deriving DecidableEq, Repr

/-- What the boundary-scan pins do (R587). -/
inductive PinMode where
  | functional | extest | clamp | highz | pulse | train
deriving DecidableEq, Repr

/-- A challenge outstanding (R592). -/
structure Challenge where
  id : Nat
  bytes : List Byte
  /-- 0 TAP, 1 software path -/
  path : Nat
  /-- operating time at which it was issued -/
  at_ : Nat
deriving DecidableEq, Repr

/-- A response waiting for its authorisation tick (R593). -/
structure AuthResp where
  path : Nat
  id : Nat
  level : Nat
  payload : List Byte
deriving DecidableEq, Repr

/-- The debug port beside its registers. -/
structure DbgSt where
  /-- TAP instruction in force, as R586 and R587 make it -/
  ir : Nat := 0x02
  /-- update stage of the boundary-scan register -/
  bsr : BitVec 2944 := 0
  pins : PinMode := .functional
  /-- what the data register of the present instruction captured last -/
  tdo : Nat := 0
  /-- comparators, key core × 8 + index, data comparators from 4 (R600) -/
  cmps : Map CmpSt := []
  /-- operating time of the last edge on TCK (R594) -/
  tckAt : Nat := 0
  challenge : Option Challenge := none
  resps : List AuthResp := []
  /-- operating time at which the lockout in force started -/
  lockFrom : Option Nat := none
  /-- its length in units of operating time -/
  lockFor : Nat := 0
  /-- GARIR_AUTH: status of the last operation, ID and challenge shown -/
  authStatus : Nat := 0
  authId : Nat := 0
  authChal : List Byte := []
  /-- GARIR: status of the last command, the tag, address and data it returned (R595) -/
  gStatus : Nat := 0
  gTag : Nat := 0
  gAddr : Nat := 0
  gData : Word := 0
  /-- address of the next READ or WRITE after AUTOINC (R596) -/
  gNext : Nat := 0
  /-- a thread whose STEP has not completed -/
  gStep : Option Nat := none
deriving DecidableEq, Repr
/-! Performance counters (17). -/

/-- A snapshot latched and not yet written (17 R629, R630). -/
structure Snapshot where
  time : Nat
  cause : Nat
  /-- entries: (index, value, OVF, domain down) -/
  entries : List (Nat × Nat × Bool × Bool)
deriving DecidableEq, Repr

/-- Counters and collector. -/
structure CtrSt where
  value : Map Nat := []
  config : Map Nat := []
  snap : Option Snapshot := none
  /-- SEQ of the next snapshot -/
  seq : Nat := 0
  /-- device time from which periodic causes count -/
  since : Nat := 0
  /-- periodic causes taken since -/
  periods : Nat := 0
deriving DecidableEq, Repr


/-! Power, clocks and reset (18). -/

/-- Power, clocks and resets beside the PWR registers. -/
structure PwrSt where
  /-- what holds the device in reset: 0 nothing, 1 RESET_N low, 2 thermal trip, 3 clock trip, 4 PWRGOOD low, 5 production test mode (20 R674) -/
  held : Nat := 0
  /-- domain of the power request that DONE waits for (18 R636) -/
  pend : Option Nat := none
  /-- operating time of the last AVS tick, and of the last PMBus repetition -/
  avsAt : Nat := 0
  pmbusAt : Nat := 0
  /-- clock grade of each cluster (18 R647) -/
  grades : Map Nat := []
  /-- regulator of VDD_CORE: interface, address, page (18 R657) -/
  regulator : Option (Nat × Nat × Nat) := none
  /-- KIND 2 and KIND 3 records in force (18 R657) -/
  policy : List (List Byte) := []
  /-- timestamp of the last edge on PPS_IN, ns (18 R649) -/
  ppsAt : Nat := 0
  /-- VPP_FUSE is present (20 R672) -/
  vpp : Bool := false
  /-- operating time at which REFCLK_PCIE and the supplies were stable last (05 R208) -/
  pcieStable : Nat := 0
deriving DecidableEq, Repr
/-- The device: everything but the command queue. -/
structure Dev where
  /-- registers by register-space offset; an unlisted one holds its reset value (21 R702). A banked register's copy `i` has its offset plus 2^28 × (i + 1) (21 R699) -/
  regs : Map Word := []
  /-- value bytes of DRAM and banks by physical address; an unlisted byte reads 0 (02 R38) -/
  mem : List Host.Cell := []
  /-- tag of each word by word number (address / 8); an unlisted one is 0x00 (02 R38) -/
  tags : List Host.Cell := []
  /-- poisoned words by word number (02 R64) -/
  poison : Map Bool := []
  /-- the model's own: how many free values have been drawn (log 8, DESIGN CHOICE) -/
  free : Nat := 0
  /-- device time in 10^-13 ns (04 R114) -/
  time : Nat := 0
  /-- rate correction in 10^-3 ppb (04 R114) -/
  rate : Int := 0
  /-- data the last register read or bus access of a command returned -/
  readData : Word := 0
  /-- credit queues by queue number -/
  credits : Map CreditQ := []
  banks : Map BankSt := []
  img : Map ImgSt := []
  cyc : CycSt := {}
  threads : Map Thread := []
  /-- route words by source (11 R433) -/
  routes : Map Word := []
  /-- PENDING bits (11 R434) -/
  pendSrc : Map Bool := []
  twin : TwinSt := {}
  hist : HistSt := {}
  erg : ErgSt := {}
  inst : Map InstSt := []
  /-- mailboxes: 0 to 255 the instances, 256 + p the partitions, 272 the debug mailbox -/
  mbox : Map MboxSt := []
  cache : CacheSt := {}
  /-- TLBs by core -/
  tlb : Map TlbSt := []
  /-- I/O translation cache, oldest first (12 R462) -/
  ioTlb : List IoEnt := []
  parts : Map PartSt := []
  oasis : OasisSt := {}
  /-- power-domain states by domain number (18 R635): 0 OFF, 1 POWERING_UP, 2 ON, 3 POWERING_DOWN, 4 EMULATED -/
  doms : Map Nat := []
  smp : SmpSt := {}
  trc : TrcSt := {}
  dbg : DbgSt := {}
  ctr : CtrSt := {}
  pwr : PwrSt := {}
deriving DecidableEq, Repr

/-- The machine's state. -/
structure State where
  /-- commands waiting, first in first out -/
  pending : List Instr := []
  dev : Dev := {}
deriving DecidableEq, Repr

/-- The machine right after reset: registers at the reset values of the register tables, nothing listed in memory, queues empty (log 6, DESIGN CHOICE) (log 70, DESIGN CHOICE). -/
def State.reset : State := {}

end Sys2Proof.Machine
end

