-- ==== Sys2Proof/Machine/Ops.lean ====
section
/-! DEFINITION. Ops: the operations every family shares: registers, device time, credits, storage with tags and poison, event router, counters, trace packets, Sampler records. -/
namespace Sys2Proof.Machine

/-! ## Registers (00 R4, 21 R692 to R704) -/

/-- A register found at an offset: block, element of the block array, element of the register array. -/
structure RegRef where
  name : RegName
  blk : BlockId
  elem : Nat
  idx : Nat
  row : RegRow
deriving DecidableEq, Repr

/-- The row of a block that a block-relative offset names. -/
def findRow : List RegRow → Nat → Option (RegRow × Nat)
  | [], _ => none
  | r :: rs, o =>
    if decide (r.first ≤ o) && (o - r.first) % r.stride == 0 && decide ((o - r.first) / r.stride < r.count) then
      some (r, (o - r.first) / r.stride)
    else findRow rs o

/-- The window an offset lies in: block, element, offset within the element (21 R692). -/
def findWindow : List BlockDef → Nat → Option (BlockDef × Nat × Nat)
  | [], _ => none
  | b :: bs, o =>
    if decide (b.base ≤ o) && decide (o < b.base + b.stride * b.count) && decide ((o - b.base) % b.stride < b.window) then
      some (b, (o - b.base) / b.stride, (o - b.base) % b.stride)
    else findWindow bs o

/-- The register at an offset; `none` at a reserved offset or outside every window (21 R693). -/
def findReg (off : Nat) : Option RegRef :=
  match findWindow allBlocks off with
  | none => none
  | some (b, e, r) =>
    let h := if b.halves = 2 then r / 0x100 else 0
    let r' := if b.halves = 2 then r % 0x100 else r
    if h < b.halves then
      match findRow b.rows r' with
      | none => none
      | some (row, i) => some ⟨row.name, b.id, e * b.halves + h, i, row⟩
    else none

/-- The value of the fields' reset column (21 R702). -/
def resetOf : List FieldDef → Word
  | [] => 0
  | f :: fs => putBits (resetOf fs) (f.hi, f.lo) f.reset

/-- Reset value of the register at an offset, banked copies included. -/
def regReset (off : Nat) : Word :=
  match findReg (off % 2 ^ 28) with
  | none => 0
  | some r => resetOf r.row.fields

/-- The 64 bits a register holds. -/
def reg (s : Dev) (off : Nat) : Word := mget regReset s.regs off

/-- The register with new contents. -/
def setReg (s : Dev) (off : Nat) (v : Word) : Dev := { s with regs := mset regReset s.regs off v }

/-- A field of a register. -/
def fget (s : Dev) (off : Nat) (f : Nat × Nat) : Nat := bitsOf (reg s off) f

/-- A one-bit field. -/
def fbit (s : Dev) (off : Nat) (f : Nat × Nat) : Bool := fget s off f == 1

/-- The register with one field replaced. -/
def fset (s : Dev) (off : Nat) (f : Nat × Nat) (n : Nat) : Dev := setReg s off (putBits (reg s off) f n)

/-- A counting field that saturates at its maximum. -/
def fincSat (s : Dev) (off : Nat) (f : Nat × Nat) (n : Nat) : Dev :=
  fset s off f (sat (2 ^ (f.1 + 1 - f.2) - 1) (fget s off f + n))

/-- A counting field that wraps. -/
def fincWrap (s : Dev) (off : Nat) (f : Nat × Nat) (n : Nat) : Dev :=
  fset s off f ((fget s off f + n) % 2 ^ (f.1 + 1 - f.2))

/-- A high-water mark: the field keeps the larger value, saturated. -/
def fmax (s : Dev) (off : Nat) (f : Nat × Nat) (n : Nat) : Dev :=
  if fget s off f < n then fset s off f (sat (2 ^ (f.1 + 1 - f.2) - 1) n) else s

/-- Offset of copy `i` of a banked register (21 R699). -/
def bankedReg (off i : Nat) : Nat := off + 2 ^ 28 * (i + 1)

/-! ## Free values -/

/-- Draws a free value: nothing constrains it (log 8, DESIGN CHOICE) (log 30, DESIGN CHOICE). -/
def drawFree (s : Dev) : Word × Dev := (Config.freeWord s.free, { s with free := s.free + 1 })

/-! ## Device time (04 R114) -/

/-- Device time in whole nanoseconds. -/
def nowNs (s : Dev) : Nat := s.time / 10 ^ 13

/-- The 16-bit fraction of a nanosecond. -/
def nowFrac (s : Dev) : Nat := s.time % 10 ^ 13 * 65536 / 10 ^ 13

/-- One image clock: device time advances by 0.8 ns adjusted by the rate correction (04 R114) (log 3, DESIGN CHOICE) (log 4, DESIGN CHOICE). -/
def tick (s : Dev) : Dev :=
  { s with time := s.time + (8 * 10 ^ 12 + 8 * s.rate).toNat, smp := { s.smp with op := s.smp.op + 8 * 10 ^ 12 } }

/-- Device time reaches `ns`; it never goes backwards (04 R114) (log 3, DESIGN CHOICE) (log 4, DESIGN CHOICE). -/
def advanceTo (s : Dev) (ns : Nat) : Dev :=
  if s.time < ns * 10 ^ 13 then
    { s with time := ns * 10 ^ 13, smp := { s.smp with op := s.smp.op + (ns * 10 ^ 13 - s.time) } }
  else s

/-- Operating time reaches `t`; device time advances by as much (log 4, DESIGN CHOICE). -/
def advanceOp (s : Dev) (t : Nat) : Dev :=
  if s.smp.op < t then
    { s with time := s.time + (t - s.smp.op), smp := { s.smp with op := t } }
  else s

/-- One image clock, 0.8 ns, in the units of operating time. -/
def clockUnits : Nat := 8 * 10 ^ 12

/-- `n` nanoseconds in the units of device time (log 14, DESIGN CHOICE). -/
def nsUnits (n : Nat) : Nat := n * 10 ^ 13

/-! ## Parts and their owners -/

def thr (s : Dev) (t : Nat) : Thread := mget (fun _ => {}) s.threads t
def setThr (s : Dev) (t : Nat) (x : Thread) : Dev := { s with threads := mset (fun _ => {}) s.threads t x }
def modThr (s : Dev) (t : Nat) (f : Thread → Thread) : Dev := setThr s t (f (thr s t))
def bank (s : Dev) (n : Nat) : BankSt := mget (fun _ => {}) s.banks n
def setBank (s : Dev) (n : Nat) (x : BankSt) : Dev := { s with banks := mset (fun _ => {}) s.banks n x }
def imgSt (s : Dev) (k : Nat) : ImgSt := mget (fun _ => {}) s.img k
def setImg (s : Dev) (k : Nat) (x : ImgSt) : Dev := { s with img := mset (fun _ => {}) s.img k x }
def cls (s : Dev) (c : Nat) : ClassSt := mget (fun _ => {}) s.cyc.classes c
def setCls (s : Dev) (c : Nat) (x : ClassSt) : Dev :=
  { s with cyc := { s.cyc with classes := mset (fun _ => {}) s.cyc.classes c x } }
def partSt (s : Dev) (p : Nat) : PartSt := mget (fun _ => {}) s.parts p
def setPart (s : Dev) (p : Nat) (x : PartSt) : Dev := { s with parts := mset (fun _ => {}) s.parts p x }

/-- Partition of a core (09 CL_PAIR.PART). -/
def corePart (s : Dev) (core : Nat) : Nat :=
  bitsOf (reg s (CL_PAIR (core / 8))) (35 + 4 * (core % 8), 32 + 4 * (core % 8))

/-- Mode of the position of a core (09 CL_PAIR.MODE): 0 split, 1 paired, 2 paired unchecked, 3 spare, 4 halted, 5 unassigned. -/
def coreMode (s : Dev) (core : Nat) : Nat :=
  bitsOf (reg s (CL_PAIR (core / 8))) (4 * (core % 8 / 2) + 3, 4 * (core % 8 / 2))

/-- Whether the position of a core runs as a lockstep pair. -/
def corePaired (s : Dev) (core : Nat) : Bool := coreMode s core == 1 || coreMode s core == 2

def thrPart (s : Dev) (t : Nat) : Nat := corePart s (t / 8)
def thrWorld (s : Dev) (t : Nat) : Nat := (partSt s (thrPart s t)).world

/-! ## Event router (11 R431 to R437) -/

/-- An agent raises a source: PENDING is set on an enabled route, otherwise the raise is discarded (R434). -/
def raise (s : Dev) (src : Nat) : Dev :=
  if nbit (mget (fun _ => 0) s.routes src).toNat 0 then
    { s with pendSrc := mset (fun _ => false) s.pendSrc src true }
  else s

/-- Thread a route names. -/
def routeThr (r : Word) : Nat := (bitsOf r (9, 5) * 8 + bitsOf r (12, 10)) * 8 + bitsOf r (15, 13)

/-- Pending sources routed to a thread, with their levels. -/
def pendingFor (s : Dev) (t : Nat) : List (Nat × Nat) :=
  s.pendSrc.filterMap (fun e =>
    let r : Word := mget (fun _ => 0) s.routes e.1
    if e.2 && nbit r.toNat 0 && routeThr r == t then some (bitsOf r (4, 1), e.1) else none)

/-- IPEND: bit L is set while a source of level L routed to the thread is pending (R416, R436). -/
def ipend (s : Dev) (t : Nat) : Nat :=
  (pendingFor s t).foldl (fun m e => if nbit m e.1 then m else m + 2 ^ e.1) 0

/-! ## Performance counters (17 R619 to R625) -/

/-- Reset configuration of a counter (R620, R624): MODE, USER and SUPER set; a twin counter is on with event 0x02 + j. -/
def ctrCfgReset (i : Nat) : Nat :=
  if 2088 ≤ i ∧ i < 2096 then 3 + 256 * (2 + (i - 2088)) else 0x62

def ctrCfg (s : Dev) (i : Nat) : Nat := mget ctrCfgReset s.ctr.config i
def ctrVal (s : Dev) (i : Nat) : Nat := mget (fun _ => 0) s.ctr.value i
def setCtrCfg (s : Dev) (i v : Nat) : Dev := { s with ctr := { s.ctr with config := mset ctrCfgReset s.ctr.config i v } }
def setCtrVal (s : Dev) (i v : Nat) : Dev := { s with ctr := { s.ctr with value := mset (fun _ => 0) s.ctr.value i v } }

/-- First index and size of the block a counter belongs to (R619). -/
def ctrBlockOf (i : Nat) : Nat × Nat :=
  if i < 1152 then (i / 6 * 6, 6)
  else if i < 1472 then (i / 8 * 8, 8)
  else if i < 1984 then (i / 4 * 4, 4)
  else if i < 2016 then (1984, 32)
  else if i < 2096 then (i / 8 * 8, 8)
  else (i / 2 * 2, 2)

/-- A counter adds `n`; passing 2^48 − 1 wraps, sets OVF, raises 0xE60 with IRQ and adds 1 to the next counter of the block with CHAIN (R622) (log 21, DESIGN CHOICE). -/
def ctrAdd : Nat → Dev → Nat → Nat → Dev
  | 0, s, _, _ => s
  | fuel + 1, s, i, n =>
    let v := ctrVal s i + n
    let s1 := setCtrVal s i (v % 2 ^ 48)
    if v < 2 ^ 48 then s1
    else
      let c := ctrCfg s i
      let s2 := setCtrCfg s1 i (if nbit c 4 then c else c + 16)
      let s3 := if nbit c 3 then raise s2 0xE60 else s2
      let b := ctrBlockOf i
      if nbit c 2 && decide (i + 1 < b.1 + b.2) && nbit (ctrCfg s (i + 1)) 0 then ctrAdd fuel s3 (i + 1) 1 else s3

/-- Whether counter `i` counts event `ev`: EN, EVENT, and not a counter that counts only the overflows of the one before it (R622) (log 21, DESIGN CHOICE). -/
def ctrCounts (s : Dev) (i ev : Nat) : Bool :=
  let c := ctrCfg s i
  let b := ctrBlockOf i
  nbit c 0 && nbits c 15 8 == ev && !(decide (b.1 < i) && nbit (ctrCfg s (i - 1)) 2)

/-- `n` occurrences of event `ev` in the block whose counters start at `base` (log 21, DESIGN CHOICE). -/
def countEv (s : Dev) (base size ev n : Nat) : Dev :=
  (rangeFrom base size).foldl (fun s i => if ctrCounts s i ev then ctrAdd 32 s i n else s) s

/-- An event of a thread's core: USER, SUPER and THREADS choose whether a counter sees it (R620). -/
def countCore (s : Dev) (t ev : Nat) : Dev :=
  let sup := (thr s t).sup
  (rangeFrom (6 * (t / 8)) 6).foldl (fun s i =>
    let c := ctrCfg s i
    if ctrCounts s i ev && (if sup then nbit c 6 else nbit c 5) && (nbits c 23 16 == 0 || nbit (nbits c 23 16) (t % 8)) then
      ctrAdd 32 s i 1
    else s) s

def countCl (s : Dev) (c ev : Nat) : Dev := countEv s (1152 + 8 * c) 8 ev 1
def countMc (s : Dev) (ch ev : Nat) : Dev := countEv s (1344 + 8 * ch) 8 ev 1
def countPort (s : Dev) (p ev : Nat) : Dev := countEv s (1472 + 4 * p) 4 ev 1
def countErg (s : Dev) (ev : Nat) : Dev := countEv s 1984 32 ev 1
def countImg (s : Dev) (k ev n : Nat) : Dev := if n = 0 then s else countEv s (2016 + 8 * k) 8 ev n
def countHist (s : Dev) (ev : Nat) : Dev := countEv s 2080 8 ev 1
def countTwin (s : Dev) (j : Nat) : Dev := countEv s 2088 8 (2 + j) 1
def countBank (s : Dev) (n ev k : Nat) : Dev := if k = 0 then s else countEv s (2096 + 2 * n) 2 ev k

/-! ## Storage (02 R28 to R38, R60 to R68) -/

/-- The canonical form of storage: addresses strictly rising, nothing listed that an unlisted address reads as (log 7, DESIGN CHOICE). -/
def Memory.wf (s : Dev) : Bool := mwf (fun _ => 0) s.mem && mwf (fun _ => 0) s.tags && mwf (fun _ => false) s.poison

def rdByte (s : Dev) (a : Nat) : Byte := mget (fun _ => 0) s.mem a
def wrByte (s : Dev) (a : Nat) (b : Byte) : Dev := { s with mem := mset (fun _ => 0) s.mem a b }
def tagAt (s : Dev) (w : Nat) : Byte := mget (fun _ => 0) s.tags w
def setTag (s : Dev) (w : Nat) (t : Byte) : Dev := { s with tags := mset (fun _ => 0) s.tags w t }
def poisonAt (s : Dev) (w : Nat) : Bool := mget (fun _ => false) s.poison w
def setPoison (s : Dev) (w : Nat) (b : Bool) : Dev := { s with poison := mset (fun _ => false) s.poison w b }

/-- `n` value bytes at an address. -/
def rdBytes (s : Dev) (a : Nat) : Nat → List Byte
  | 0 => []
  | n + 1 => rdByte s a :: rdBytes s (a + 1) n

/-- Value bytes written at an address, tags and poison untouched. -/
def wrBytes (s : Dev) (a : Nat) : List Byte → Dev
  | [] => s
  | b :: bs => wrBytes (wrByte s a b) (a + 1) bs

/-- The word stored at an aligned address (R29). -/
def wordAt (s : Dev) (a : Nat) : QWord := ⟨BitVec.ofNat 64 (leNat (rdBytes s a 8)), tagAt s (a / 8)⟩

/-- A tagged read: a poisoned word reads as value 0 with tag 0x60 (R65). -/
def readTagged (s : Dev) (a : Nat) : QWord := if poisonAt s (a / 8) then ⟨0, 0x60⟩ else wordAt s a

/-- While this device copies its state to a joining peer, pages written are dirty again (07 R284). -/
def markDirty (s : Dev) (a n : Nat) : Dev :=
  if s.twin.joining && decide (0 < n) then
    { s with twin := { s.twin with dirtyPages := (rangeFrom (a / 4096) ((a + n - 1) / 4096 + 1 - a / 4096)).foldl (fun m p => mset (fun _ => false) m p true) s.twin.dirtyPages } }
  else s

/-- A write that supplies a whole word and its tag, clearing poison (R31, R67). -/
def writeWord (s : Dev) (a : Nat) (q : QWord) : Dev :=
  markDirty (setPoison (setTag (wrBytes s a (leBytes 8 q.val.toNat)) (a / 8) q.tag) (a / 8) false) a 8

/-- Word numbers touched by `n` bytes at `a`. -/
def wordsOf (a n : Nat) : List Nat := if n = 0 then [] else rangeFrom (a / 8) ((a + n - 1) / 8 + 1 - a / 8)

/-- A sub-word or rotator store: bytes merged, tag and poison of each word kept (R60, R68). -/
def writeKeepTag (s : Dev) (a : Nat) (bs : List Byte) : Dev := markDirty (wrBytes s a bs) a bs.length

/-- An untagged agent's write: each word it writes takes tag 0x08 (R61); a word it covers whole loses its poison (R67). -/
def writeUntagged (s : Dev) (a : Nat) (bs : List Byte) : Dev :=
  (wordsOf a bs.length).foldl (fun s w =>
    let s1 := setTag s w 0x08
    if decide (a ≤ 8 * w) && decide (8 * w + 8 ≤ a + bs.length) then setPoison s1 w false else s1) (markDirty (wrBytes s a bs) a bs.length)

/-- Whether any word of `n` bytes at `a` is poisoned (R66). -/
def anyPoison (s : Dev) (a n : Nat) : Bool := (wordsOf a n).any (poisonAt s)

/-- Pages of the mirrored regions (07 R284, TWIN table 2). -/
def mirrorPages (s : Dev) : List Nat :=
  s.twin.table2.flatMap (fun e => if bitsOf e.2 (0, 0) = 1 then rangeFrom (bitsOf e.2 (45, 12)) (bitsOf e.2 (63, 46)) else [])

/-- Mirrored pages of a cleared range are dirty again while a peer joins (07 R284). -/
def markCleared (s : Dev) (lo hi : Nat) : TwinSt :=
  if s.twin.joining then
    { s.twin with dirtyPages :=
      ((mirrorPages s).filter (fun p => decide (lo < 4096 * p + 4096) && decide (4096 * p < hi))).foldl (fun m p => mset (fun _ => false) m p true) s.twin.dirtyPages }
  else s.twin

/-- A range of bytes cleared to value 0, tag 0x00, no poison (R38). -/
def clearRange (s : Dev) (lo hi : Nat) : Dev :=
  { s with twin := markCleared s lo hi, mem := mclear s.mem lo hi, tags := mclear s.tags (lo / 8) (hi / 8), poison := mclear s.poison (lo / 8) (hi / 8) }

/-! ## Credits (01 R13 to R18) -/

/-- Number of a queue as a key (log 120, DESIGN CHOICE). -/
def queueNum : Queue → Nat
  | .bank n => n.val
  | .scatter k => 32 + k.val
  | .gather k => 40 + k.val
  | .cluster c => 64 + c.val
  | .port p => 128 + p.val
  | .inst i => 256 + i.val
  | .twin => 512
  | .hist => 513
  | .trace => 514
  | .channel ch src => 1024 + 32 * ch.val + src.val

/-- Reset state of a queue: the reset depths of its register (MC_CREDIT 16, every other 32). -/
def queueReset (q : Nat) : CreditQ :=
  if 1024 ≤ q then { depth := 16, free := 16 } else {}

def creditQ (s : Dev) (q : Nat) : CreditQ := mget queueReset s.credits q
def setCreditQ (s : Dev) (q : Nat) (x : CreditQ) : Dev := { s with credits := mset queueReset s.credits q x }

/-- Whether a producer may issue into a queue (R13, R18). -/
def mayIssue (s : Dev) (q : Nat) : Bool :=
  decide (0 < (creditQ s q).free) && decide ((creditQ s q).out < (creditQ s q).depth)

/-- A producer issues: one credit is used (R13). -/
def takeCredit (s : Dev) (q : Nat) : Dev :=
  let x := creditQ s q
  setCreditQ s q { x with free := x.free - 1, out := x.out + 1 }

/-- A producer has a request and no credit: it stalls, with no limit and no error (R15). -/
def stallOn (s : Dev) (q : Nat) : Dev :=
  let x := creditQ s q
  if x.waiting then s else setCreditQ s q { x with waiting := true, since := s.smp.op }

/-- The consumer accepts an entry and returns its credit; a depth written meanwhile applies now (R13, R18) (log 20, DEDUCED). -/
def giveCredit (s : Dev) (q : Nat) : Dev :=
  let x := creditQ s q
  if x.out = 0 then s
  else setCreditQ s q { x with out := x.out - 1, free := x.depth - (x.out - 1), waiting := false, recorded := false }

/-! ## Kinds of access -/

def accIsStore : AccOp → Bool
  | .storeTagged => true
  | .storeValue _ => true
  | _ => false

def accIsAtomic : AccOp → Bool
  | .atomic _ => true
  | _ => false

/-! ## Power domains -/

/-- At reset only PD_AON has power (18 R651, boot table) (log 70, DESIGN CHOICE). -/
def domReset (d : Nat) : Nat := if d = 79 then 2 else 0

/-- State of a power domain (18 R635, R636) (log 70, DESIGN CHOICE). -/
def domSt (s : Dev) (d : Nat) : Nat := mget domReset s.doms d
def setDom (s : Dev) (d v : Nat) : Dev := { s with doms := mset domReset s.doms d v }

/-- A domain that runs: ON, or EMULATED, which stays powered (16 R606). -/
def domOn (s : Dev) (d : Nat) : Bool := domSt s d == 2 || domSt s d == 4

/-- Domain of a counter block by counter index (17 R619) (log 71, DEDUCED). -/
def ctrDomain (i : Nat) : Nat :=
  if i < 1152 then i / 48
  else if i < 1344 then (i - 1152) / 8
  else if i < 1472 then 48 + (i - 1344) / 16
  else if i < 1984 then 56 + (i - 1472) / 32
  else if i < 2016 then 72
  else if i < 2080 then 24 + 3 * ((i - 2016) / 8)
  else if i < 2088 then 77
  else if i < 2096 then 78
  else 24 + (i - 2096) / 2

/-! ## Trace packets (16 R607 to R616) -/

def trcSrc (s : Dev) (src : Nat) : TrcSrc := mget (fun _ => {}) s.trc.srcs src
def setTrcSrc (s : Dev) (src : Nat) (x : TrcSrc) : Dev :=
  { s with trc := { s.trc with srcs := mset (fun _ => {}) s.trc.srcs src x } }

/-- Tracing runs in RUNNING and in POST (R615). -/
def tracing (s : Dev) : Bool :=
  fget s TRC_STATUS TRC_STATUS_STATE == 1 || fget s TRC_STATUS TRC_STATUS_STATE == 2

/-- A packet: 16-bit header, most significant byte first, and its payload (R610). -/
def packet (src kind : Nat) (payload : List Byte) : List Byte := beBytes 2 (src * 32 + kind) ++ payload

/-- Admission to the FIFO by priority (R613) (log 15, DESIGN CHOICE). -/
def trcAdmit (s : Dev) (prio : Nat) (p : List Byte) : Option Dev :=
  let lvl := s.trc.fifo.length
  if (prio == 0 && decide (32768 ≤ lvl)) || (decide (prio ≤ 1) && decide (49152 ≤ lvl)) ||
      (decide (prio ≤ 2) && decide (61440 ≤ lvl)) || decide (65536 < lvl + p.length) then none
  else some { s with trc := { s.trc with fifo := s.trc.fifo ++ p } }

/-- A packet of a source is dropped and counted (R613). -/
def trcDrop (s : Dev) (src : Nat) : Dev :=
  let e := trcSrc s src
  setTrcSrc s src { e with loss := sat (2 ^ 32 - 1) (e.loss + 1), lost := sat (2 ^ 32 - 1) (e.lost + 1), needSync := true }

/-- Contents of SYNC (R610): a thread's PC, ASID, STATE and TRCCTX; a class's cycle number; zeros for Erg. -/
def syncPayload (s : Dev) (src : Nat) : List Byte :=
  if src < 1536 then
    let x := thr s src
    beBytes 6 x.pc ++ beBytes 2 x.asid ++
      beBytes 2 (b2n x.sup + 2 * thrWorld s src + 4 * thrPart s src) ++ beBytes 4 x.trcctx ++ [0, 0]
  else if src < 1544 then beBytes 8 (reg s (CYC_NUMBER (src - 1536))).toNat ++ List.replicate 8 0
  else List.replicate 16 0

/-- A source's packet: LOSS and SYNC first where they are due, then the packet, each under the rule of R613. -/
def trcSend (s : Dev) (src kind : Nat) (payload : List Byte) : Dev :=
  let e := trcSrc s src
  if !(tracing s) || !e.en then s
  else
    let s1? := if 0 < e.lost then
        (trcAdmit s e.prio (packet src 0x0B (beBytes 4 e.lost))).map
          (fun s => setTrcSrc s src { e with lost := 0, needSync := true })
      else some s
    match s1? with
    | none => trcDrop s src
    | some s1 =>
      let e1 := trcSrc s1 src
      let s2? := if e1.needSync || decide (1024 ≤ e1.since) then
          (trcAdmit s1 e1.prio (packet src 0x02 (syncPayload s1 src))).map
            (fun s => setTrcSrc s src { e1 with needSync := false, since := 0 })
        else some s1
      match s2? with
      | none => trcDrop s1 src
      | some s2 =>
        let p := packet src kind payload
        match trcAdmit s2 e1.prio p with
        | none => trcDrop s2 src
        | some s3 => setTrcSrc s3 src { trcSrc s3 src with since := (trcSrc s3 src).since + p.length }

/-- A packet of the hub itself, source 0x7FF (log 15, DESIGN CHOICE). -/
def trcHub (s : Dev) (kind : Nat) (payload : List Byte) : Dev :=
  if tracing s then (trcAdmit s 3 (packet 0x7FF kind payload)).getD s else s

/-- Payload of BRANCH: the highest set bit marks how many outcomes lie below it, bit 0 the oldest (R610). -/
def branchByte (o : List Bool) : Nat :=
  2 ^ o.length + (o.zipIdx.foldl (fun n e => n + b2n e.1 * 2 ^ e.2) 0)

/-- The outcomes held are sent as one BRANCH packet (R611). -/
def trcFlush (s : Dev) (src : Nat) : Dev :=
  let e := trcSrc s src
  if e.outcomes.isEmpty then s
  else trcSend (setTrcSrc s src { e with outcomes := [] }) src 0x03 [BitVec.ofNat 8 (branchByte e.outcomes)]

/-- Level-2 grant on either path (16 R594). -/
def level2Grant (s : Dev) : Bool :=
  fget s DBG_STATUS DBG_STATUS_TAP_LEVEL == 2 || fget s DBG_STATUS DBG_STATUS_SW_LEVEL == 2

/-- Whether a thread's code is excluded from trace: supervisor level in the Plant world without a level-2 grant (R609). -/
def trcExcluded (s : Dev) (t : Nat) : Bool := (thr s t).sup && thrWorld s t == 0 && !(level2Grant s)

/-- Whether a thread emits flow packets: FLOW, EN, not excluded (R608, R609). -/
def trcFlow (s : Dev) (t : Nat) : Bool :=
  tracing s && (trcSrc s t).en && nbit (thr s t).trcctl 0 && !(trcExcluded s t)

/-- A conditional branch's outcome; 7 of them make a BRANCH packet (R611). -/
def trcBranch (s : Dev) (t : Nat) (taken : Bool) : Dev :=
  if trcFlow s t then
    let e := trcSrc s t
    let s1 := setTrcSrc s t { e with outcomes := e.outcomes ++ [taken] }
    if 7 ≤ e.outcomes.length + 1 then trcFlush s1 t else s1
  else s

/-- TARGET: the address reached by JALR, ERET or RELEASE. -/
def trcTarget (s : Dev) (t a : Nat) : Dev :=
  if trcFlow s t then trcSend (trcFlush s t) t 0x04 (beBytes 6 a) else s

/-- DATA: an access of a thread (R608). -/
def trcData (s : Dev) (t : Nat) (store tagged : Bool) (va : Nat) (q : QWord) : Dev :=
  if trcFlow s t && nbit (thr s t).trcctl 1 && (trcSrc s t).data then
    trcSend (trcFlush s t) t 0x06
      (beBytes 1 (b2n store + 2 * b2n tagged) ++ beBytes 6 va ++ beBytes 8 q.val.toNat ++ [q.tag])
  else s

/-- CYCLE packet of class `c` (R610): event 0 boundary, 1 to 8 the action codes. -/
def trcCycle (s : Dev) (c event arg : Nat) : Dev :=
  trcSend s (1536 + c) 0x09
    (beBytes 1 event ++ beBytes 2 arg ++ beBytes 4 (reg s (CYC_NUMBER c)).toNat ++ beBytes 8 (nowNs s))

/-! ## Snapshots (17 R628 to R632) -/

/-- Counters a snapshot latches: every enabled one and the twin counters, ascending. -/
def snapEntries (s : Dev) : List (Nat × Nat × Bool × Bool) :=
  (rangeFrom 0 2144).filterMap (fun i =>
    if nbit (ctrCfg s i) 0 || (decide (2088 ≤ i) && decide (i < 2096)) then
      if domOn s (ctrDomain i) then some (i, ctrVal s i, nbit (ctrCfg s i) 4, false)
      else some (i, 0, false, true)
    else none)

/-- A cause arrives: a snapshot starts, or is skipped while one is in progress (R629, R632). -/
def snapCause (s : Dev) (cause : Nat) : Dev :=
  if fbit s CTR_CTRL CTR_CTRL_BUSY then
    match s.ctr.snap with
    | some x =>
      -- causes of one edge make one snapshot, of the lowest code (R628)
      if x.time = nowNs s then { s with ctr := { s.ctr with snap := some { x with cause := min x.cause cause } } }
      else fincSat s CTR_STATUS CTR_STATUS_SKIPPED 1
    | none => fincSat s CTR_STATUS CTR_STATUS_SKIPPED 1
  else
    let s1 := fset s CTR_CTRL CTR_CTRL_BUSY 1
    { s1 with ctr := { s1.ctr with snap := some { time := nowNs s, cause := cause, entries := snapEntries s } } }

/-- A triggered cause of code TRIG `trig` while MODE admits triggered causes (R628). -/
def snapTrig (s : Dev) (trig cause : Nat) : Dev :=
  if nbit (fget s CTR_CTRL CTR_CTRL_MODE) 1 && fget s CTR_CTRL CTR_CTRL_TRIG == trig then snapCause s cause else s

/-- A trigger of the trace: only the first after EN counts; the hub emits TRIGGER and enters POST (R614). -/
def trcTrigger (s : Dev) (kind : Nat) : Dev :=
  if fget s TRC_STATUS TRC_STATUS_STATE == 1 && !s.trc.triggered then
    let s1 := trcHub s 0x0C (beBytes 1 kind ++ beBytes 8 (nowNs s))
    let s2 := fset s1 TRC_STATUS TRC_STATUS_STATE 2
    let s3 := { s2 with trc := { s2.trc with triggered := true, trigAt := nowNs s, post := 0 } }
    snapTrig s3 3 3
  else s

/-- STREAM packet of Erg stream events (R610), and the trigger of KIND 4 on a late frame (R614) (log 24, DEDUCED). -/
def trcStream (s : Dev) (handle outcome time : Nat) : Dev :=
  let s1 := trcSend s 1544 0x08 (beBytes 2 handle ++ beBytes 1 outcome ++ beBytes 8 time)
  if outcome == 2 && fget s TRC_TRIG TRC_TRIG_KIND == 4 && fget s TRC_TRIG TRC_TRIG_ARG == handle then trcTrigger s1 4
  else s1

/-! ## Sampler records (15 R574 to R583, 04 R159) -/

/-- A second of operating time. -/
def opSecond : Nat := nsUnits (10 ^ 9)

/-- SECONDS within the hour. -/
def opSeconds (s : Dev) : Nat := sat 3599 ((s.smp.op - s.smp.hourStart) / opSecond)

/-- 8-byte little-endian fields of a payload (R705) (log 113, DEDUCED). -/
def payload8 (l : List Nat) : List Byte := l.flatMap (leBytes 8)

/-- The oldest record that a record of severity `sev` may overwrite, removed; `none` when there is none (R576). -/
def ramEvict (sev : Nat) : List SRec → Option (List SRec)
  | [] => none
  | r :: rs => if decide (r.sev ≤ sev) && !r.flashPend then some rs else (ramEvict sev rs).map (r :: ·)

/-- A record takes its SEQ and its stamp and a slot of the RAM store, or is dropped and counted (R575, R576). -/
def smpStore (s : Dev) (r : SRec) : Dev :=
  if r.sev < fget s SMP_CTRL SMP_CTRL_RAM_MIN then s
  else
    let r1 := { r with seq := fget s SMP_STATUS SMP_STATUS_NEXT_SEQ, hours := s.smp.hours, secs := opSeconds s, cycles := s.smp.cycles, flashPend := decide (4 ≤ r.sev) || r.summary }
    let s1 := fincWrap s SMP_STATUS SMP_STATUS_NEXT_SEQ 1
    let s2 := if r.sev = 5 then { s1 with smp := { s1.smp with faultUntil := s1.smp.op + opSecond } } else s1
    if s2.smp.ram.length < 1024 then { s2 with smp := { s2.smp with ram := s2.smp.ram ++ [r1] } }
    else
      match ramEvict r.sev s2.smp.ram with
      | some l => { s2 with smp := { s2.smp with ram := l ++ [r1] } }
      | none => fincSat s2 SMP_DROPPED (SMP_DROPPED_SEV r.sev) 1

/-- The severity counts of a phase (R581). -/
def foldSev (p : PhaseSt) (sev : Nat) : PhaseSt :=
  { p with folded := listSet p.folded sev (sat 0xFFFF (p.folded.getD sev 0 + 1)) }

/-- A record meets the open phase, or is stored (R581); KIND 3 of the trace trigger sees it (16 R614). -/
def smpRecord (s : Dev) (r : SRec) : Dev :=
  let s0 := if fget s TRC_TRIG TRC_TRIG_KIND == 3 && decide (fget s TRC_TRIG TRC_TRIG_SEVERITY ≤ r.sev) &&
      (fget s TRC_TRIG TRC_TRIG_ARG == 0 || fget s TRC_TRIG TRC_TRIG_ARG == r.code) then trcTrigger s 3 else s
  if 4 ≤ r.sev then smpStore s0 r
  else
    match s0.smp.selfTest, s0.smp.phase with
    | some p, _ => { s0 with smp := { s0.smp with selfTest := some (foldSev p r.sev) } }
    | none, some p => { s0 with smp := { s0.smp with phase := some (foldSev p r.sev) } }
    | none, none => smpStore s0 r

/-- One record of a rule that writes it at once (log 113, DEDUCED). -/
def logRec (s : Dev) (sev block inst code : Nat) (payload : List Nat) : Dev :=
  smpRecord s { sev := sev, code := code, block := block, inst := inst, payload := payload8 payload }

/-- The rate state of a source and code. -/
def rateOf (block inst code : Nat) : List RateSt → Option RateSt
  | [] => none
  | r :: rs => if r.block = block ∧ r.inst = inst ∧ r.code = code then some r else rateOf block inst code rs

/-- The rate states with one replaced or added. -/
def setRate (x : RateSt) : List RateSt → List RateSt
  | [] => [x]
  | r :: rs => if r.block = x.block ∧ r.inst = x.inst ∧ r.code = x.code then x :: rs else r :: setRate x rs

/-- A record under the limit of 04 R159: written at once when the last one is a second old, otherwise counted. -/
def logLimited (s : Dev) (sev block inst code : Nat) (payload : List Nat) : Dev :=
  let fresh := match rateOf block inst code s.smp.rates with
    | none => some 0
    | some r => if r.last + opSecond ≤ s.smp.op then some r.counted else none
  match fresh with
  | some n =>
    let s1 := smpRecord s { sev := sev, code := code, block := block, inst := inst, count := sat 0xFFFF (n + 1), payload := payload8 payload }
    { s1 with smp := { s1.smp with rates := setRate { block := block, inst := inst, code := code, last := s1.smp.op } s1.smp.rates } }
  | none =>
    match rateOf block inst code s.smp.rates with
    | none => s
    | some r => { s with smp := { s.smp with rates := setRate { r with counted := r.counted + 1, sev := sev, payload := payload8 payload } s.smp.rates } }

/-! Severities and source blocks (15 R574). -/
def INFO : Nat := 1
def NOTICE : Nat := 2
def WARNING : Nat := 3
def ALERT : Nat := 4
def FATAL : Nat := 5
def SB_CL : Nat := 0x01
def SB_BK : Nat := 0x02
def SB_IMG : Nat := 0x03
def SB_CYC : Nat := 0x04
def SB_SW : Nat := 0x05
def SB_PI : Nat := 0x06
def SB_TWIN : Nat := 0x07
def SB_HIST : Nat := 0x08
def SB_MC : Nat := 0x09
def SB_OASIS : Nat := 0x0A
def SB_CFG : Nat := 0x0B
def SB_PWR : Nat := 0x0C
def SB_DBG : Nat := 0x0D
def SB_CTR : Nat := 0x0E
def SB_DARN : Nat := 0x0F
def SB_THREAD : Nat := 0x10
def SB_SMP : Nat := 0x11

/-- A repair record is appended; beyond 16,000 it takes effect and is not kept (15 R568, R569). -/
def addRepair (s : Dev) (r : RepairRec) : Dev :=
  if 16000 ≤ s.smp.repairs.length then logRec s ALERT SB_OASIS 0 0x0F14 [] else { s with smp := { s.smp with repairs := s.smp.repairs ++ [r] } }

/-! Mailbox status codes (14 R537). -/
def ST_OK : Nat := 0
def ST_WRONG_STATE : Nat := 1
def ST_NO_RESOURCE : Nat := 2
def ST_DENIED : Nat := 3
def ST_BAD_ARG : Nat := 4
def ST_BUSY : Nat := 5
def ST_PARTIAL : Nat := 6
def ST_STALE : Nat := 7
def ST_NOT_SUPPORTED : Nat := 8

/-! ## Phases (15 R581, R582) -/

/-- Bin of a value: bin 0 takes the values below LO, bin 15 those at or above the top (R582). -/
def binOf (q : Quantity) (v : Int) : Nat :=
  if v < q.lo then 0 else sat 15 ((v - q.lo).toNat / q.width)

/-- A value enters a quantity. -/
def addValue (q : Quantity) (v : Int) (at_ : Nat) : Quantity :=
  let b := binOf q v
  { q with
    count := sat 0xFFFF (q.count + 1)
    minV := if q.count = 0 ∨ v < q.minV then v else q.minV
    minAt := if q.count = 0 ∨ v < q.minV then at_ else q.minAt
    maxV := if q.count = 0 ∨ q.maxV < v then v else q.maxV
    maxAt := if q.count = 0 ∨ q.maxV < v then at_ else q.maxAt
    bins := listSet q.bins b (sat 0xFFFF (q.bins.getD b 0 + 1)) }

/-- The quantities of each phase: ID, LO, bin width (R581). -/
def phaseQuantities : Nat → List Quantity
  | 1 => [⟨0, -160, 80, 0, 0, 0, 0, 0, List.replicate 16 0⟩, ⟨1, 680, 10, 0, 0, 0, 0, 0, List.replicate 16 0⟩,
          ⟨2, 0, 10, 0, 0, 0, 0, 0, List.replicate 16 0⟩, ⟨3, 0, 4, 0, 0, 0, 0, 0, List.replicate 16 0⟩]
  | 2 => [⟨0, 0, 1, 0, 0, 0, 0, 0, List.replicate 16 0⟩, ⟨1, 0, 1, 0, 0, 0, 0, 0, List.replicate 16 0⟩,
          ⟨2, 0, 1, 0, 0, 0, 0, 0, List.replicate 16 0⟩, ⟨3, 0, 1, 0, 0, 0, 0, 0, List.replicate 16 0⟩]
  | 3 => [⟨0, 0, 16, 0, 0, 0, 0, 0, List.replicate 16 0⟩, ⟨1, 0, 2, 0, 0, 0, 0, 0, List.replicate 16 0⟩,
          ⟨2, 0, 2, 0, 0, 0, 0, 0, List.replicate 16 0⟩, ⟨3, -160, 80, 0, 0, 0, 0, 0, List.replicate 16 0⟩]
  | 4 => [⟨0, 0, 16, 0, 0, 0, 0, 0, List.replicate 16 0⟩, ⟨1, 0, 1, 0, 0, 0, 0, 0, List.replicate 16 0⟩,
          ⟨2, 0, 1, 0, 0, 0, 0, 0, List.replicate 16 0⟩, ⟨3, -160, 80, 0, 0, 0, 0, 0, List.replicate 16 0⟩]
  | _ => []

/-- A phase opens, unless one is open, which then absorbs the event (R581). SELF_TEST opens inside START_UP (log 69, DEDUCED). -/
def openPhase (s : Dev) (kind : Nat) : Dev :=
  let p : PhaseSt := { kind := kind, opened := s.smp.op, lastEvent := s.smp.op, quantities := phaseQuantities kind }
  if kind = 2 then { s with smp := { s.smp with selfTest := some p } }
  else
    match s.smp.phase with
    | some q => { s with smp := { s.smp with phase := some { q with lastEvent := s.smp.op } } }
    | none => fset { s with smp := { s.smp with phase := some p } } SMP_STATUS SMP_STATUS_PHASE kind

/-- A value of quantity `q` of phase `kind` enters the open phase, where it is one of that phase's. -/
def phaseValue (s : Dev) (kind q : Nat) (v : Int) : Dev :=
  let upd (p : PhaseSt) : PhaseSt :=
    match p.quantities[q]? with
    | none => p
    | some x => { p with quantities := listSet p.quantities q (addValue x v ((s.smp.op - p.opened) / nsUnits 1000)) }
  if kind = 2 then
    match s.smp.selfTest with
    | some p => { s with smp := { s.smp with selfTest := some (upd p) } }
    | none => s
  else
    match s.smp.phase with
    | some p => if p.kind = kind then { s with smp := { s.smp with phase := some (upd p) } } else s
    | none => s

/-- Operating time since the open phase opened, in units of `ns` nanoseconds. -/
def phaseElapsed (s : Dev) (ns : Nat) : Nat :=
  match s.smp.phase with
  | some p => (s.smp.op - p.opened) / nsUnits ns
  | none => 0

/-- Payload of a summary record (R583). -/
def summaryPayload (p : PhaseSt) (outcome now : Nat) : List Byte :=
  leBytes 1 p.kind ++ leBytes 1 outcome ++ [0, 0] ++ leBytes 4 ((now - p.opened) / nsUnits 1000) ++
    p.folded.flatMap (leBytes 2) ++
    p.quantities.flatMap (fun q =>
      leBytes 1 q.id ++ [0] ++ leBytes 2 q.count ++ leBytes 2 (ofSigned 16 q.minV) ++ leBytes 2 (ofSigned 16 q.maxV) ++
        leBytes 4 q.minAt ++ leBytes 4 q.maxAt ++ q.bins.flatMap (leBytes 2))

/-- A phase closes: one summary record, severity INFO, or ALERT when OUTCOME is not 0 (R581, R583). -/
def closePhase (s : Dev) (selfTest : Bool) (outcome : Nat) : Dev :=
  match (if selfTest then s.smp.selfTest else s.smp.phase) with
  | none => s
  | some p =>
    let s1 := if selfTest then { s with smp := { s.smp with selfTest := none } }
      else fset { s with smp := { s.smp with phase := none } } SMP_STATUS SMP_STATUS_PHASE 0
    smpStore s1 { sev := if outcome = 0 then INFO else ALERT, code := 0x0F40 + p.kind, block := SB_OASIS, inst := 0, summary := true, payload := summaryPayload p outcome s.smp.op }

end Sys2Proof.Machine
end

