-- ==== Sys2Proof/Machine/Tags.lean ====
section
/-! DEFINITION. Tags: the Q-tag and its four propagation rules (02 R39 to R49, R69). -/
namespace Sys2Proof.Machine

/-- CLASS: 3 GOOD, 2 UNCERTAIN, 1 BAD, 0 VOID (R39). -/
def tagClass (t : Byte) : Nat := nbits t.toNat 7 6
def tagReason (t : Byte) : Nat := nbits t.toNat 5 3
def tagLimit (t : Byte) : Nat := nbits t.toNat 2 1
def tagMaint (t : Byte) : Nat := nbits t.toNat 0 0

/-- A tag byte from its fields (R39). -/
def mkTag (cls reason limit maint : Nat) : Byte :=
  BitVec.ofNat 8 (cls % 4 * 64 + reason % 8 * 8 + limit % 4 * 2 + maint % 2)

/-- The operands whose CLASS is not VOID, in source order (R44). -/
def liveTags (ts : List Byte) : List Byte := ts.filter (fun t => tagClass t != 0)

/-- The first tag with the lowest CLASS (R44). -/
def worstOf : List Byte → Byte → Byte
  | [], w => w
  | t :: ts, w => worstOf ts (if tagClass t < tagClass w then t else w)

/-- OR of MAINT. -/
def anyMaint (ts : List Byte) : Nat := b2n (ts.any (fun t => tagMaint t == 1))

/-- The combine rule (R44). -/
def combine (ts : List Byte) : Byte :=
  match liveTags ts with
  | [] => 0x00
  | w :: rest =>
    let x := worstOf rest w
    mkTag (tagClass x) (tagReason x) 0 (anyMaint (w :: rest))

/-- An arithmetic fault: CLASS BAD, REASON 0b101; LIMIT none, MAINT kept (R45). -/
def arithFault (t : Byte) : Byte := mkTag 1 5 0 (tagMaint t)

/-- Combine, with the fault of R45 where it occurred. -/
def combineFault (ts : List Byte) (fault : Bool) : Byte := if fault then arithFault (combine ts) else combine ts

/-- The worst-whole rule; `first` is the tag when every operand is VOID (R47). -/
def worstWhole (first : Byte) (ts : List Byte) : Byte :=
  match liveTags ts with
  | [] => first
  | w :: rest =>
    let x := worstOf rest w
    mkTag (tagClass x) (tagReason x) (tagLimit x) (anyMaint (w :: rest))

/-- The tag of an overrun read (R69, point 2). -/
def overrunTag (t : Byte) : Byte := mkTag 1 6 (tagLimit t) (tagMaint t)

/-- The age tag `a` meets the stored tag (R69, point 3). -/
def ageTagWith (t : Byte) : Option Byte → Byte
  | none => t
  | some a =>
    if tagClass t = 0 then t
    else if tagClass a ≤ tagClass t then mkTag (tagClass a) (tagReason a) (tagLimit t) (tagMaint t)
    else t

/-- Age tag by refresh policy, age and stale limit (03 R105). -/
def ageTag (pol age limit : Nat) : Option Byte :=
  if age = 0 then none
  else if pol = 0 then some (if age ≤ limit then 0xB0 else 0x50)
  else if pol = 1 then (if age ≤ limit then none else some 0xB0)
  else none

end Sys2Proof.Machine
end

