-- ==== Sys2Proof/Machine/Bank.lean ====
section
/-! DEFINITION. Bank: image banks and bobbin pairs (03): protection, arbitration, versions, line tables, abandon, sweeper. -/
namespace Sys2Proof.Machine

/-! ## Addresses and masters -/

/-- First physical address of bank `n` (R78). -/
def bankBase (n : Nat) : Nat := 0x300000000000 + n * 0x800000

/-- The bank an address lies in (R78). -/
def bankOf (pa : Nat) : Option Nat :=
  if 0x300000000000 ≤ pa ∧ pa < 0x30000C000000 then some ((pa - 0x300000000000) / 0x800000) else none

/-- Mode of a bank: 0 plain, 1 pair first, 2 pair second, 3 off (BK_CTRL.MODE). -/
def bankMode (s : Dev) (n : Nat) : Nat := fget s (BK_CTRL n) BK_CTRL_MODE

/-- A requester at a bank: its master code (R81) and, for a thread, its number. -/
structure Master where
  code : Nat
  thr : Option Nat := none
deriving DecidableEq, Repr

/-- The master a thread is: its partition's code (R81). -/
def thrMaster (s : Dev) (t : Nat) : Master := { code := thrPart s t, thr := some t }

/-- A code in the read-share mask of a bank (R81, R82). -/
def shared (s : Dev) (n code : Nat) : Bool := decide (code ≤ 28) && nbit (fget s (BK_SHARE n) BK_SHARE_MASK) code

/-- Whether a plain bank accepts an access (R82, R84). -/
def plainAllows (s : Dev) (n code : Nat) (write : Bool) : Bool :=
  let owner := fget s (BK_OWNER n) BK_OWNER_OWNER
  let hb := fbit s (BK_OWNER n) BK_OWNER_HBUSY
  !(fbit s (BK_CTRL n) BK_CTRL_CLEAR_BUSY) && !(hb && (code == owner || code == (bank s n).next)) &&
    (code == owner || (!write && shared s n code))

/-- A refusal is counted and its master recorded (R83). -/
def countRefusal (s : Dev) (n code : Nat) : Dev :=
  countBank (fset (fincSat s (BK_STAT n) BK_STAT_REFUSED 1) (BK_STAT n) BK_STAT_LAST_REFUSED code) n 0x06 1

/-! ## Thread tables, regions and stamps -/

/-- The lowest enabled thread-table entry that names a thread, over all classes: its index 256c + i (04 R153). -/
def threadEntry (s : Dev) (t : Nat) : Option Nat :=
  (s.cyc.threads.find? (fun e => bitsOf e.2 (0, 0) == 1 && bitsOf e.2 (8, 1) == t / 8 && bitsOf e.2 (11, 9) == t % 8)).map (·.1)

/-- Class of the enabled entry that names a thread (09 CYCSTAT). -/
def threadClass (s : Dev) (t : Nat) : Option Nat := (threadEntry s t).map (· / 256)

/-- Enabled thread-table entries of a class, ascending: (index within the class, entry). -/
def classEntries (s : Dev) (c : Nat) : List (Nat × Word) :=
  s.cyc.threads.filterMap (fun e => if e.1 / 256 == c && bitsOf e.2 (0, 0) == 1 then some (e.1 % 256, e.2) else none)

/-- Owner of a class's output and state regions: the partition of the core of the lowest enabled entry, or none (R94); a spare belongs to none (09 R353). -/
def classOwner (s : Dev) (c : Nat) : Nat :=
  match classEntries s c with
  | [] => 0x3F
  | e :: _ => if coreMode s (bitsOf e.2 (8, 1)) = 3 then 0x3F else corePart s (bitsOf e.2 (8, 1))

/-- Class a pair serves. -/
def imgClass (s : Dev) (k : Nat) : Nat := fget s (IMG_CTRL k) IMG_CTRL_CLASS

/-- Owner code of a region (R94). -/
def regionOwner (s : Dev) (k r : Nat) : Nat :=
  match fget s (IMG_REGION k r) IMG_REGION_KIND with
  | 0 => 0x3F
  | 1 => 0x10 + k
  | _ => classOwner s (imgClass s k)

/-- Whether region `r` is in use and holds a line (R93). -/
def inRegion (s : Dev) (k r line : Nat) : Bool :=
  let b := fget s (IMG_REGION k r) IMG_REGION_BASE
  fget s (IMG_REGION k r) IMG_REGION_KIND != 0 && decide (b ≤ line) &&
    decide (line < b + fget s (IMG_REGION k r) IMG_REGION_COUNT)

/-- The region a line lies in (R93). -/
def regionOf (s : Dev) (k line : Nat) : Option Nat := [0, 1, 2].find? (fun r => inRegion s k r line)

/-- Fill stamp C of a class (R97). -/
def classStamp (s : Dev) (c : Nat) : Nat := (reg s (CYC_NUMBER c)).toNat % 65536

/-- Fill stamp C of a pair (R97). -/
def fillStamp (s : Dev) (k : Nat) : Nat := classStamp s (imgClass s k)

/-- A stamp at or before a pin (R97). -/
def atOrBefore (st p : Nat) : Bool := decide ((p + 65536 - st % 65536) % 65536 < 32768)

/-- Age of a stamp at a pin (R97). -/
def ageAt (st p : Nat) : Nat := (p + 65536 - st % 65536) % 65536

/-! ## The line table (R95) -/

def E_B : Nat × Nat := (0, 0)
def E_W : Nat × Nat := (16, 1)
def E_WP : Nat × Nat := (32, 17)
def E_PV : Nat × Nat := (33, 33)
def E_POL : Nat × Nat := (35, 34)
def E_STL : Nat × Nat := (38, 36)

/-- What an unlisted entry reads as: W of the initialisation, everything else 0 (R96). -/
def ltDefault (x : ImgSt) (_ : Nat) : Word := putBits 0 E_W x.ltW

def ltEntry (s : Dev) (k line : Nat) : Word := mget (ltDefault (imgSt s k)) (imgSt s k).lt line
def setLtEntry (s : Dev) (k line : Nat) (e : Word) : Dev :=
  setImg s k { imgSt s k with lt := mset (ltDefault (imgSt s k)) (imgSt s k).lt line (BitVec.ofNat 64 (e.toNat % 2 ^ 39)) }

/-- The repaired entry: the abandoned version is given up (R109). -/
def repairEntry (e : Word) : Word :=
  putBits (putBits (putBits e E_B (1 - bitsOf e E_B)) E_W (bitsOf e E_WP)) E_PV 0

/-- Whether a stamp is that of a busy abandon register covering region `r` (R99, R100). -/
def busyAbandon (s : Dev) (k r st : Nat) : Bool :=
  [0, 1].any (fun a => fbit s (IMG_ABANDON k a) IMG_ABANDON_BUSY && fget s (IMG_ABANDON k a) IMG_ABANDON_STAMP == st &&
    nbit (fget s (IMG_ABANDON k a) IMG_ABANDON_REGIONS) r)

/-- The entry as readers and writers see it: repaired first where it names an abandoned version (R99, R100). -/
def liveEntry (s : Dev) (k r line : Nat) : Word :=
  let e := ltEntry s k line
  if busyAbandon s k r (bitsOf e E_W) then repairEntry e else e

/-- Whether writes stamped C to region `r` are dropped after an abandon of C (R108). -/
def lateRegion (s : Dev) (k r : Nat) : Bool :=
  (imgSt s k).abandoned.any (fun a => a.1 == fillStamp s k && nbit a.2 r)

/-- Physical address of word `w` of the pair in bank `b` of the two (R80). -/
def pairWordAddr (k b w : Nat) : Nat := bankBase (3 * k + b) + 8 * w

/-! ## Reading a pair (R100, R105, 02 R69) -/

/-- What a read of one word selects. -/
structure PairRead where
  /-- physical address of the selected version's word -/
  addr : Nat
  /-- the word under its tag as R69 composes it -/
  q : QWord
  poisoned : Bool
  overrun : Bool
deriving DecidableEq, Repr

/-- Stale limit L of lane `stl` (R105). -/
def staleLimit (s : Dev) (k stl : Nat) : Nat := fget s (IMG_STALE k (stl / 4)) (IMG_STALE_LIMIT (stl % 4))

/-- A word under its age (R69). -/
def agedWord (s : Dev) (k : Nat) (e : Word) (a age : Nat) : PairRead :=
  if poisonAt s (a / 8) then ⟨a, ⟨0, 0x60⟩, true, false⟩
  else
    let q := wordAt s a
    ⟨a, ⟨q.val, ageTagWith q.tag (ageTag (bitsOf e E_POL) age (staleLimit s k (bitsOf e E_STL)))⟩, false, false⟩

/-- The read procedure of R100 for word `w` of region `r` at pin `p`. -/
def pairRead (s : Dev) (k r w p : Nat) : PairRead :=
  let e := liveEntry s k r (w / 8)
  let b := bitsOf e E_B
  if atOrBefore (bitsOf e E_W) p then agedWord s k e (pairWordAddr k b w) (ageAt (bitsOf e E_W) p)
  else if bitsOf e E_PV == 1 && atOrBefore (bitsOf e E_WP) p then
    agedWord s k e (pairWordAddr k (1 - b) w) (ageAt (bitsOf e E_WP) p)
  else
    let a := pairWordAddr k (if bitsOf e E_PV = 1 then 1 - b else b) w
    if poisonAt s (a / 8) then ⟨a, ⟨0, 0x60⟩, true, true⟩
    else ⟨a, ⟨(wordAt s a).val, overrunTag (wordAt s a).tag⟩, false, true⟩

/-- An overrun read is counted and recorded (IMG_OVERRUN). -/
def noteOverrun (s : Dev) (k line p : Nat) : Dev :=
  let s1 := fincSat s (IMG_OVERRUN k) IMG_OVERRUN_COUNT 1
  let s2 := fset s1 (IMG_OVERRUN k) IMG_OVERRUN_LAST_P p
  countImg (fset s2 (IMG_OVERRUN k) IMG_OVERRUN_LAST_LINE line) k 0x04 1

/-- A master's read of word `w` at pin `p`, with the overrun recorded. -/
def pairReadNote (s : Dev) (k r w p : Nat) : PairRead × Dev :=
  let x := pairRead s k r w p
  (x, if x.overrun then noteOverrun s k (w / 8) p else s)

/-! ## Writing a pair (R99, R108) -/

/-- A word copied from one version to the other, with its tag and poison. -/
def copyWord (s : Dev) (src dst : Nat) : Dev :=
  let s1 := setTag (wrBytes s dst (rdBytes s src 8)) (dst / 8) (tagAt s (src / 8))
  setPoison s1 (dst / 8) (poisonAt s (src / 8))

/-- A port of bank `n` stays in use for more bank cycles; a hold that finds both ports in use starts when one is free (R86, R90, R91, R103). -/
def holdPort (s : Dev) (n : Nat) (words : List Nat) (cycles : Nat) : Dev :=
  setBank s n { bank s n with occ := (bank s n).occ ++ [{ words := words, left := cycles }] }

/-- The line made writable in the present fill cycle; `full` words (0 to 7) are about to be written whole and need no merge (R99). The merge keeps a port of the old bank for two bank cycles, and the port of the new bank for a second one (R103). -/
def openLine (s : Dev) (k r line : Nat) (full : List Nat) : Dev :=
  let e := liveEntry s k r line
  let c := fillStamp s k
  if bitsOf e E_W = c then setLtEntry s k line e
  else
    let b := bitsOf e E_B
    let merge := (rangeFrom 0 8).filter (fun i => !(full.contains i))
    let s1 := merge.foldl (fun s i => copyWord s (pairWordAddr k b (8 * line + i)) (pairWordAddr k (1 - b) (8 * line + i))) s
    let s2 := if merge.isEmpty then s1 else holdPort (holdPort (countImg s1 k 0x03 1) (3 * k + b) [] 2) (3 * k + 1 - b) [] 1
    setLtEntry s2 k line
      (putBits (putBits (putBits (putBits e E_WP (bitsOf e E_W)) E_PV 1) E_B (1 - b)) E_W c)

/-- A write to an abandoned cycle is dropped (R108). -/
def lateWrite (s : Dev) (k : Nat) : Dev := countImg (fset s (IMG_ERR k) IMG_ERR_LATE_WRITE 1) k 0x05 1

/-- A whole word written to region `r`, as one of the words `full` of its line that the same write supplies (R99, R103). -/
def pairWriteOf (s : Dev) (k r w : Nat) (full : List Nat) (q : QWord) : Dev :=
  if lateRegion s k r then lateWrite s k
  else
    let s1 := openLine s k r (w / 8) full
    writeWord s1 (pairWordAddr k (bitsOf (ltEntry s1 k (w / 8)) E_B) w) q

/-- A whole word written to region `r` by its owner (R99). -/
def pairWriteWord (s : Dev) (k r w : Nat) (q : QWord) : Dev := pairWriteOf s k r w [w % 8] q

/-- A sub-word store that meets a poisoned word is logged (02 R68, 15 R572). -/
def notePoisonMerge (s : Dev) (n a len : Nat) : Dev :=
  ((wordsOf a len).filter (poisonAt s)).foldl (fun s w => logLimited s WARNING SB_BK n 0x0F31 [8 * w]) s

/-- Part of a word written to region `r` by its owner: bytes merged, tag and poison kept (02 R60, R68). -/
def pairWriteBytes (s : Dev) (k r w off : Nat) (bs : List Byte) : Dev :=
  if lateRegion s k r then lateWrite s k
  else
    let s1 := openLine s k r (w / 8) []
    let b := bitsOf (ltEntry s1 k (w / 8)) E_B
    let a := pairWordAddr k b w + off
    writeKeepTag (notePoisonMerge s1 (3 * k + b) a bs.length) a bs

/-- Bytes of an untagged agent into a word of region `r`: tag 0x08; only a whole word clears poison (02 R61, R67, R99). -/
def pairForeign (s : Dev) (k r w off : Nat) (bs : List Byte) : Dev :=
  if lateRegion s k r then lateWrite s k
  else
    let s1 := openLine s k r (w / 8) (if off = 0 ∧ bs.length = 8 then [w % 8] else [])
    writeUntagged s1 (pairWordAddr k (bitsOf (ltEntry s1 k (w / 8)) E_B) w + off) bs


/-- A write that waits for the end of a pair's initialisation (R96). -/
def keepWrite (s : Dev) (k : Nat) (h : HeldWrite) : Dev := setImg s k { imgSt s k with heldWrites := (imgSt s k).heldWrites ++ [h] }

/-- The fill version's word, where there is one, and otherwise the newest version's that is not abandoned (R104). -/
def fillWord (s : Dev) (k r w : Nat) : QWord :=
  readTagged s (pairWordAddr k (bitsOf (liveEntry s k r (w / 8)) E_B) w)

/-- Whether a master may read a line of region `r` (R94). -/
def pairMayRead (s : Dev) (k r : Nat) (m : Master) : Bool :=
  m.code == regionOwner s k r || shared s (3 * k) m.code ||
    (m.code == 0x10 + k && fget s (IMG_REGION k r) IMG_REGION_KIND == 2) ||
    (match m.thr with
     | some t => threadClass s t == some (imgClass s k)
     | none => false)

/-- A refused access to a pair: counted at its first bank, IMG_ERR.REFUSED set (R83). -/
def refusePair (s : Dev) (k code : Nat) : Dev :=
  countRefusal (fset s (IMG_ERR k) IMG_ERR_REFUSED 1) (3 * k) code

/-- Port cycles asked of a bank for words that move in a command of their own; those of one master follow each other (R86, R87) (log 116, DESIGN CHOICE). `old`: the words of a plain bank that the command replaced (R89). -/
def usePortOf (s : Dev) (n place code words : Nat) (old : List (Nat × QWord × Bool)) : Dev :=
  let b := bank s n
  if b.uses.any (fun u => u.place == place && u.code == code) then
    setBank s n { b with uses := b.uses.map (fun u => if u.place = place ∧ u.code = code then { u with words := u.words + words, old := u.old ++ old } else u) }
  else setBank s n { b with uses := b.uses ++ [{ place := place, code := code, words := words, old := old }] }

/-- Port cycles of an access that replaces no word of a plain bank (log 116, DESIGN CHOICE). -/
def usePort (s : Dev) (n place code words : Nat) : Dev := usePortOf s n place code words []

/-- Port cycles for words read or written at the addresses of a pair's banks: one master's, word by word (R86, R103). -/
def useAddr (s : Dev) (place code pa : Nat) : Dev := usePort s ((pa - 0x300000000000) / 0x800000) place code 1

/-- The words of a range as they stand before a write (R89). -/
def wordsBefore (s : Dev) (pa n : Nat) : List (Nat × QWord × Bool) := (wordsOf pa n).map (fun w => (w, wordAt s (8 * w), poisonAt s w))

/-- Whether a line lies in a state region of an enabled pair: the lines that join writes reach (R93, R94). -/
def joinLine (s : Dev) (k line : Nat) : Bool :=
  bankMode s (3 * k) == 1 && fbit s (IMG_CTRL k) IMG_CTRL_ENABLE &&
    (match regionOf s k line with
     | some r => fget s (IMG_REGION k r) IMG_REGION_KIND == 3
     | none => false)

/-- A line of a state region copied from the twin peer becomes the newest version, with the copied stamp and PV = 0 (07 R284); elsewhere the join owns nothing and is refused (R93, R94). -/
def writeCopied (s : Dev) (k line : Nat) (words : List QWord) (stamp : Nat) : Dev :=
  if joinLine s k line then
    let e := ltEntry s k line
    let s1 := (rangeFrom 0 8).foldl (fun s i => writeWord s (pairWordAddr k (bitsOf e E_B) (8 * line + i)) (words.getD i ⟨0, 0⟩)) s
    setLtEntry (usePort s1 (3 * k + bitsOf e E_B) 2 0x1B 2) k line (putBits (putBits e E_W stamp) E_PV 0)
  else refusePair s k 0x1B

/-- The pin a master reads at: a thread of the class at its own, every other reader at C − 1 (R100). -/
def pinOf (s : Dev) (k : Nat) (m : Master) : Nat :=
  match m.thr with
  | some t => if threadClass s t = some (imgClass s k) then (thr s t).cycpin.toNat % 65536 else (fillStamp s k + 65535) % 65536
  | none => (fillStamp s k + 65535) % 65536

/-! ## Checking a request (R80 to R94) -/

/-- What one part of an access names at a bank. -/
inductive BankTarget where
  | plain (n : Nat)
  | pair (k r w : Nat)
  | refused
deriving DecidableEq, Repr

/-- The target of an access by a master at an address of bank `n`, or its refusal (R80, R82, R94, R104). -/
def bankTarget (s : Dev) (m : Master) (n pa : Nat) (write atomic : Bool) : BankTarget :=
  match bankMode s n with
  | 0 => if plainAllows s n m.code (write || atomic) then .plain n else .refused
  | 1 =>
    let k := n / 3
    let w := (pa - bankBase n) / 8
    match regionOf s k (w / 8) with
    | none => .refused
    | some r =>
      if !(fbit s (IMG_CTRL k) IMG_CTRL_ENABLE) then .refused
      else if write || atomic then (if m.code == regionOwner s k r then .pair k r w else .refused)
      else if pairMayRead s k r m then .pair k r w else .refused
  | _ => .refused

/-- A refused part is counted at its bank, and at the controller for a pair (R83). -/
def noteRefused (s : Dev) (m : Master) (n : Nat) : Dev :=
  if bankMode s n = 1 then refusePair s (n / 3) m.code else countRefusal s n m.code

/-! ## Islands on the way (01 R8 to R12, R17) -/

/-- Domain of a bank (18 R635). -/
def bankDomain (n : Nat) : Nat := 24 + n

/-- The bridges of a Core die (01 R8). -/
def bridgesOf (die : Nat) : List Nat := [2 * die, 2 * die + 1]

/-- A bridge island is powered exactly when PD_MESH is (01 R12). -/
def bridgeOn (s : Dev) (br : Nat) : Bool := decide (br < 8) && domOn s 76

/-- Whether a request of Core die `src` (none: of the Fabric die) reaches Core die `die`: over the die's mesh, or over the bridges and the central mesh (01 R9, R12). -/
def meshReaches (s : Dev) (src : Option Nat) (die : Nat) : Bool :=
  if src = some die then domOn s 76
  else domOn s 76 && (bridgesOf die).any (bridgeOn s) && (match src with | some q => (bridgesOf q).any (bridgeOn s) | none => true)

/-- Whether every island up to a bank is powered; a request that meets one that is not is refused there (01 R17). -/
def bankUp (s : Dev) (src : Option Nat) (n : Nat) : Bool := meshReaches s src (n / 6) && domOn s (bankDomain n)

/-- Die of a master without a thread: the engines of controller k stand on its own, every other on the Fabric die (01 R6). -/
def masterDie (code : Nat) : Option Nat := if 0x10 ≤ code ∧ code < 0x18 then some ((code - 0x10) / 2) else none

/-- Whether an access to a pair waits for the end of its initialisation (R96). -/
def pairStalls (s : Dev) (n : Nat) : Bool := bankMode s n == 1 && fbit s (IMG_STATUS (n / 3)) IMG_STATUS_INIT_BUSY

/-! ## Engine and DMA accesses (04, 08, 16, 17): one word at a time, checked like any other -/

/-- Stands in a list of queues for a wait that no credit ends: a word an atomic works on, a pair that initialises (R90, R96). -/
def noQueue : Nat := 2 ^ 20

/-- Whether an atomic works on one of the words from address `pa` on, `len` bytes, of bank `n`; a pair's word in either of its banks (R90). -/
def wordHeld (s : Dev) (n pa len : Nat) : Bool :=
  [n, n + 1].any (fun b => (bank s b).occ.any (fun o => o.words.any (fun w => decide (pa / 8 ≤ w) && decide (8 * w < pa + len))))

/-- What an access of a master without a thread to `len` bytes of bank `n` waits for: a credit of the bank's queue, a word an atomic works on, the end of its pair's initialisation (01 R13, R15, R90, R96). -/
def bankWaits (s : Dev) (n pa len : Nat) : List Nat :=
  (if mayIssue s n then [] else [n]) ++ (if wordHeld s n pa len || pairStalls s n then [noQueue] else [])

/-- The same for an address of any bank. -/
def addrWaits (s : Dev) (pa len : Nat) : List Nat :=
  match bankOf pa with
  | some n => bankWaits s n pa len
  | none => []

/-- A producer waits for a credit of queue `q`, and its block counts the stall (01 R15) (log 141, DESIGN CHOICE). -/
def stallQueue (s : Dev) (q : Nat) : Dev :=
  if q = noQueue then s
  else if q < 24 then countBank (stallOn s q) q 0x07 1
  else if 2 ^ 21 ≤ q then { s with cache := { s.cache with asks := mput s.cache.asks (q - 2 ^ 21) s.smp.op } }
  else if 1024 ≤ q then countMc (stallOn s q) ((q - 1024) / 32) 0x09
  else stallOn s q

/-- The effect of an engine's command whose accesses wait for `l`: where that is something, nothing of the command happens now, the engine waits, and the command comes again (01 R13, R15) (log 141, DESIGN CHOICE). -/
def engineAct (s : Dev) (l : List Nat) (f : Dev → Dev) : Dev := if l.isEmpty then f s else l.foldl stallQueue s

/-- Place of a master code in the order of R87: the engines of the image controllers, or the DMA masters and untagged agents. -/
def masterPlace (code : Nat) : Nat := if 0x10 ≤ code ∧ code < 0x18 then 0 else 2

/-- A read of one word of a plain bank or pair by a master without a thread; `none` when refused, by the bank or by an island without power (R83, 01 R17). -/
def masterReadWord (s : Dev) (code pa : Nat) : Option PairRead × Dev :=
  match bankOf pa with
  | none => (none, s)
  | some n =>
    if !(bankUp s (masterDie code) n) then (none, s)
    else
      match bankTarget s { code := code } n pa false false with
      | .refused => (none, noteRefused s { code := code } n)
      | .plain _ => (some ⟨pa, readTagged s pa, poisonAt s (pa / 8), false⟩, usePort s n (masterPlace code) code 1)
      | .pair k r w =>
        let x := pairReadNote s k r w (pinOf s k { code := code })
        (some x.1, useAddr x.2 (masterPlace code) code x.1.addr)

/-- An untagged write of bytes to a plain bank by a master: whether it was done; a refusal is counted (02 R61, 03 R82, R83). -/
def masterWriteBytes (s : Dev) (code pa : Nat) (bs : List Byte) : Bool × Dev :=
  match bankOf pa with
  | none => (false, s)
  | some n =>
    if !(bankUp s (masterDie code) n) then (false, s)
    else
      match bankTarget s { code := code } n pa true false with
      | .plain _ =>
        if pa + bs.length ≤ bankBase n + 0x800000 then
          (true, usePortOf (writeUntagged s pa bs) n (masterPlace code) code ((bs.length + 7) / 8) (wordsBefore s pa bs.length))
        else (false, s)
      | _ => (false, noteRefused s { code := code } n)

/-! ## Atomics (10 R386, 02 R48) -/

/-- Storage result of an atomic and whether it faults; `none`: memory stays unchanged (10 R386). -/
def atomicResult (op : AtomicOp) (old src expect : QWord) : Option QWord :=
  match op with
  | .swap => some src
  | .add =>
    let r := old.val.toInt + src.val.toInt
    let v := old.val + src.val
    some ⟨v, combineFault [old.tag, src.tag] (r != v.toInt)⟩
  | .cas => if old = expect then some src else none
  | .min => some ⟨if old.val.toInt ≤ src.val.toInt then old.val else src.val, combine [old.tag, src.tag]⟩
  | .max => some ⟨if old.val.toInt ≥ src.val.toInt then old.val else src.val, combine [old.tag, src.tag]⟩

/-- In TRAP, an atomic whose register or storage result would have CLASS BAD writes nothing (02 R56, R57). -/
def atomicTraps (qmode : Nat) (old : QWord) (res : Option QWord) : Bool :=
  qmode == 2 && (tagClass old.tag == 1 || (match res with | some q => tagClass q.tag == 1 | none => false))

/-- The storage result under the thread's QMODE: IGNORE concerns register results only (02 R54). -/
def atomicStore (qmode : Nat) (op : AtomicOp) (old src expect : QWord) : Option QWord :=
  let r := atomicResult op old src expect
  if atomicTraps qmode old r then none else r

/-! ## Thread accesses at a bank -/

def findAcc (x : Thread) (id : Nat) : Option Acc := x.accs.find? (fun a => a.id == id)
def putAcc (x : Thread) (a : Acc) : Thread := { x with accs := x.accs.map (fun b => if b.id = a.id then a else b) }

/-- Bytes of an access. -/
def accBytes : AccOp → Nat
  | .loadValue n _ => n
  | .storeValue n => n
  | _ => 8

/-- Bytes of an access that lie in the bank of its address (R92). -/
def firstPart (pa n : Nat) : Nat := let left := 0x800000 - (pa % 0x800000); if n ≤ left then n else left

/-- An access has been refused or has failed: it answers with an error. -/
def failAcc (s : Dev) (t : Nat) (a : Acc) (e : AccErr) : Dev := modThr s t (fun x => putAcc x { a with phase := .done, err := some e })

/-- Bytes of an access that its first part covers where the access is split, and whether its present part is the second. -/
def accSplit (a : Acc) : Nat := firstPart a.pa (accBytes a.op)

/-- The part of an access that reaches its bank next: 0 whole, 1 and 2 of a split (R92). -/
def nextPart (a : Acc) : Nat := if a.firstDone then 2 else if accSplit a < accBytes a.op then 1 else 0

/-- Address at which a part starts. -/
def reqAddr (a : Acc) (part : Nat) : Nat := if part = 2 then a.pa + accSplit a else a.pa

/-- Bytes of a part. -/
def reqBytes (a : Acc) (part : Nat) : Nat :=
  if part = 2 then accBytes a.op - accSplit a else if part = 1 then accSplit a else accBytes a.op

/-- The oldest access of a thread still on its way, if it names a bank, with the bank of its next part; none: its second part runs off the last bank (R92). -/
def nextBankAcc (s : Dev) (t : Nat) : Option (Acc × Option Nat) :=
  match (thr s t).accs.find? (fun a => a.uncached && (a.phase == .issued)) with
  | some a => if a.firstDone then some (a, bankOf (reqAddr a 2)) else (bankOf a.pa).map (fun n => (a, some n))
  | none => none

/-- A part fails: a failed second part leaves the first one done and says how many bytes that was (R92). -/
def failPart (s : Dev) (t : Nat) (a : Acc) (part kind : Nat) : Dev :=
  failAcc s t a { kind := kind, partBytes := if part = 2 then some (accSplit a) else none }

/-- A part is refused at bank `n`: counted there, as a partial access where it is the second part (R83, R92). -/
def refusePart (s : Dev) (t : Nat) (a : Acc) (part n : Nat) : Dev :=
  let s1 := noteRefused s (thrMaster s t) n
  failPart (if part = 2 then fincSat s1 (BK_STAT n) BK_STAT_SPLIT_PARTIAL 1 else s1) t a part 0

/-- The bank accepts a request into its queue under a credit (01 R13). -/
def acceptReq (s : Dev) (t : Nat) (a : Acc) (part n : Nat) : Dev :=
  let s1 := takeCredit (setBank s n { bank s n with queue := (bank s n).queue ++ [{ thr := t, id := a.id, part := part }] }) n
  modThr s1 t (fun x => putAcc x { a with phase := .waiting })

/-- A request of a thread goes to its bank: an island without power on the way refuses it (01 R17); without a credit of the bank's queue it stalls (01 R15); the bank checks mode, owner and share mask and queues it for a grant (R80 to R94). The second part of a split is refused by a pair (log 117, DEDUCED). -/
def bankRequest (s : Dev) (t : Nat) : Dev :=
  match nextBankAcc s t with
  | none => s
  | some (a, none) => failPart s t a 2 3
  | some (a, some n) =>
    let part := nextPart a
    if !(bankUp s (some (t / 384)) n) then failPart s t a part 5
    else if !(mayIssue s n) then countBank (stallOn s n) n 0x07 1
    else
      match bankTarget s (thrMaster s t) n (reqAddr a part) (accIsStore a.op) (accIsAtomic a.op) with
      | .refused => refusePart s t a part n
      | .plain _ => acceptReq s t a part n
      | .pair _ _ _ => if part = 2 then refusePart s t a part n else acceptReq s t a part n

/-- Whether every earlier uncached access of the thread has been performed (09 R357). -/
def accInOrder (x : Thread) (id : Nat) : Bool :=
  x.accs.all (fun b => !(b.uncached && decide (b.id < id)) || b.phase == .done || b.phase == .returned)

/-! ## Arbitration (R86 to R90) -/

/-- What asks for a port of a bank in a bank cycle. -/
inductive Cand where
  | req (q : BankReq)
  | use (u : PortUse)
deriving DecidableEq, Repr

/-- The order of R87: image engines, cores, DMA masters and untagged agents, Darning; within a core by thread and program order. -/
def candKey : Cand → Nat × Nat × Nat
  | .req q => (1, q.thr, q.id)
  | .use u => (u.place, u.code, 0)

def candBefore (a b : Cand) : Bool :=
  let x := candKey a
  let y := candKey b
  decide (x.1 < y.1) || (x.1 == y.1 && (decide (x.2.1 < y.2.1) || (x.2.1 == y.2.1 && decide (x.2.2 ≤ y.2.2))))

def insCand (r : Cand) : List Cand → List Cand
  | [] => [r]
  | x :: xs => if candBefore r x then r :: x :: xs else x :: insCand r xs

/-- The requester a candidate belongs to: its place and its number, a core's for a thread (R88). -/
def candRequester : Cand → Nat
  | .req q => 256 + q.thr / 8
  | .use u => 256 * u.place + (if u.place = 1 then u.code / 8 else u.code)

def candWait : Cand → Nat
  | .req q => q.wait
  | .use u => u.wait

/-- The access of a queued request. -/
def reqAcc (s : Dev) (q : BankReq) : Option Acc := findAcc (thr s q.thr) q.id

/-- Words a request touches, for the same-word rules (R89, R90). -/
def reqWords (s : Dev) (q : BankReq) : List Nat :=
  match reqAcc s q with
  | some a => wordsOf (reqAddr a q.part) (reqBytes a q.part)
  | none => []

def reqAtomic (s : Dev) (q : BankReq) : Bool := match reqAcc s q with | some a => accIsAtomic a.op | none => false

def reqWrites (s : Dev) (q : BankReq) : Bool :=
  match reqAcc s q with | some a => accIsStore a.op || accIsAtomic a.op | none => false

/-- The bank through whose window a bank is addressed: its own, or the first one's of its pair (R80). -/
def windowBank (s : Dev) (n : Nat) : Nat := if bankMode s n = 2 then n - 1 else n

/-- The bank of a pair that a request to word `w` works on: the one a read takes its version from, the one that holds or will hold the fill version for a write (R99, R100). -/
def pairBank (s : Dev) (k r w : Nat) (m : Master) (write : Bool) : Nat :=
  if write then
    let e := liveEntry s k r (w / 8)
    3 * k + (if bitsOf e E_W = fillStamp s k then bitsOf e E_B else 1 - bitsOf e E_B)
  else ((pairRead s k r w (pinOf s k m)).addr - 0x300000000000) / 0x800000

/-- The bank whose cycles a request queued at window `n` needs. -/
def reqBank (s : Dev) (n : Nat) (q : BankReq) : Nat :=
  if bankMode s n = 1 then
    match reqAcc s q with
    | none => n
    | some a =>
      let w := (reqAddr a q.part - bankBase n) / 8
      match regionOf s (n / 3) (w / 8) with
      | some r => pairBank s (n / 3) r w (thrMaster s q.thr) (reqWrites s q)
      | none => n
  else n

/-- Whether a queued request may be granted: in program order of its thread (09 R357), not while its pair initialises (R96), not on a word an atomic works on (R90). -/
def reqReady (s : Dev) (n : Nat) (q : BankReq) : Bool :=
  accInOrder (thr s q.thr) q.id && !(pairStalls s (windowBank s n)) && reqBank s (windowBank s n) q == n &&
    !((reqWords s q).any (fun w => (bank s n).occ.any (fun o => o.words.contains w)))

/-- What contends for a bank cycle, in the order of R87 (log 116, DESIGN CHOICE). -/
def candidates (s : Dev) (n : Nat) : List Cand :=
  (((bank s (windowBank s n)).queue.filter (reqReady s n)).map Cand.req ++ (bank s n).uses.map Cand.use).foldr insCand []

/-- An atomic keeps every other access to its word from the same cycle (R90). -/
def clash (s : Dev) : Cand → Cand → Bool
  | .req a, .req b => (reqAtomic s a || reqAtomic s b) && (reqWords s a).any ((reqWords s b).contains ·)
  | _, _ => false

/-- The first `p` candidates that do not meet on a word of an atomic (R87, R90). -/
def pickPorts (s : Dev) : Nat → List Cand → List Cand → List Cand
  | 0, _, ch => ch
  | _, [], ch => ch
  | p + 1, c :: cs, ch => if ch.any (clash s c) then pickPorts s (p + 1) cs ch else pickPorts s p cs (ch ++ [c])

/-- The longest-waiting candidate of a list, ties by the list's order (R88). -/
def longest : List Cand → Cand → Cand
  | [], b => b
  | q :: qs, b => longest qs (if candWait b < candWait q then q else b)

/-- A requester barred in this cycle: granted in each of the 15 previous ones (R88). -/
def barred (s : Dev) (n : Nat) (q : Cand) : Bool := decide (15 ≤ mget (fun _ => 0) (bank s n).streak (candRequester q))

/-- The port of a barred requester goes to the longest-waiting candidate of another that R87 leaves ungranted, where there is one (R88). -/
def replaceBarred (s : Dev) (n : Nat) (all base : List Cand) : List Cand :=
  (base.filter (barred s n)).foldl (fun ch q =>
    match all.filter (fun p => !(base.contains p) && !(ch.contains p) && !(barred s n p) && !((ch.filter (· != q)).any (clash s p))) with
    | [] => ch
    | p :: ps => ch.map (fun x => if x = q then longest ps p else x)) base

/-- The grants of one bank cycle, in the order of R87 (R86 to R88, R90) (log 116, DESIGN CHOICE). -/
def grants (s : Dev) (n : Nat) : List Cand :=
  let c := candidates s n
  let ch := replaceBarred s n c (pickPorts s (2 - (bank s n).occ.length) c [])
  c.filter (ch.contains ·)

/-! ## Performing a granted request -/

/-- Value a value load returns: `n` bytes, extended (10 R382). -/
def extendBytes (n : Nat) (signed : Bool) (v : Nat) : Word :=
  if signed then BitVec.ofInt 64 (toSigned (8 * n) v) else BitVec.ofNat 64 (v % 2 ^ (8 * n))

/-- What an accepted request works on. Its owner was checked when the bank accepted it, and a handover since lets it complete (R84); a bank that clears or has changed its mode refuses it. -/
def acceptedTarget (s : Dev) (n pa : Nat) : BankTarget :=
  match bankMode s n with
  | 0 => if fbit s (BK_CTRL n) BK_CTRL_CLEAR_BUSY then .refused else .plain n
  | 1 =>
    let w := (pa - bankBase n) / 8
    match regionOf s (n / 3) (w / 8) with
    | some r => if fbit s (IMG_CTRL (n / 3)) IMG_CTRL_ENABLE then .pair (n / 3) r w else .refused
    | none => .refused
  | _ => .refused

/-- An access takes its result and is done. -/
def doneAcc (s : Dev) (t : Nat) (a : Acc) (r : QWord) (p : Bool) : Dev :=
  modThr s t (fun y => putAcc y { a with phase := .done, result := r, poisoned := p })

/-- The first part of a split is done; its second part goes to the next bank (R92). -/
def firstPartDone (s : Dev) (t : Nat) (a : Acc) (r : QWord) : Dev :=
  modThr s t (fun y => putAcc y { a with phase := .issued, result := r, firstDone := true })

/-- The rotator takes an unaligned scalar access for one extra bank cycle (R91). -/
def rotate (s : Dev) (n : Nat) (a : Acc) : Dev :=
  if a.pa % accBytes a.op = 0 then s else countBank (holdPort s n [] 1) n 0x04 1

/-- Words of a plain bank as the reads of a bank cycle see them: those that an untagged write replaced whose port cycles are not over stand as they were before it (R89). -/
def readView (s : Dev) (n : Nat) : Dev :=
  ((bank s n).uses.flatMap (fun u => u.old)).foldr (fun o s => setPoison (setTag (wrBytes s (8 * o.1) (leBytes 8 o.2.1.val.toNat)) o.1 o.2.1.tag) o.1 o.2.2) s

/-- A granted read is performed on the plain bank or the pair; the access takes its data (log 117, DEDUCED). -/
def grantRead (s : Dev) (q : BankReq) (a : Acc) (n : Nat) : Dev :=
  let at_ := reqAddr a q.part
  let bytes := accBytes a.op
  match acceptedTarget s n at_ with
  | .refused => refusePart s q.thr a q.part n
  | .pair k r w =>
    let x := pairReadNote s k r w (pinOf s k (thrMaster s q.thr))
    let s1 := if x.1.overrun then modThr x.2 q.thr (fun y => { y with overrun := true }) else x.2
    match a.op with
    | .loadValue b sg =>
      if x.1.poisoned then failAcc s1 q.thr a { kind := 1 }
      else doneAcc s1 q.thr a ⟨extendBytes b sg (x.1.q.val.toNat / 2 ^ (8 * (at_ % 8))), 0⟩ a.poisoned
    | _ => doneAcc s1 q.thr a x.1.q x.1.poisoned
  | .plain _ =>
    let v := readView s n
    if a.pa % bytes == 0 && a.op == .loadTagged then doneAcc s q.thr a (readTagged v a.pa) (poisonAt v (a.pa / 8))
    else
      let here := reqBytes a q.part
      let s1 := rotate s n a
      if anyPoison v at_ here then failPart s1 q.thr a q.part 1
      else
        let v := leNat (rdBytes v at_ here)
        let sg := match a.op with | .loadValue _ g => g | _ => false
        if q.part = 1 then firstPartDone s1 q.thr a ⟨BitVec.ofNat 64 v, 0⟩
        else
          let all := if q.part = 2 then a.result.val.toNat + v * 2 ^ (8 * accSplit a) else v
          doneAcc s1 q.thr a ⟨extendBytes bytes sg all, 0⟩ a.poisoned

/-- A granted atomic is performed on the fill version of a pair or on a plain bank, and holds its word and its port for a second bank cycle (R90, R104). One whose comparison fails has no storage result, so that in a masked region it sets no LATE_WRITE (log 143, DESIGN CHOICE). -/
def grantAtomic (s : Dev) (t : Nat) (a : Acc) (op : AtomicOp) (n : Nat) (old : QWord) (put : Dev → QWord → Dev) : Dev :=
  let s1 := holdPort s n [a.pa / 8] 1
  match atomicStore a.qmode op old a.data a.expect with
  | none => doneAcc s1 t a old false
  | some v => doneAcc (put s1 v) t a old false

/-- A granted store or atomic is performed (log 117, DEDUCED). -/
def grantWrite (s : Dev) (q : BankReq) (a : Acc) (n : Nat) : Dev :=
  let at_ := reqAddr a q.part
  let bytes := accBytes a.op
  match acceptedTarget s n at_ with
  | .refused => refusePart s q.thr a q.part n
  | .pair k r w =>
    match a.op with
    | .atomic op => grantAtomic s q.thr a op (reqBank s n q) (fillWord s k r w) (fun s v => pairWriteWord s k r w v)
    | .storeTagged => doneAcc (pairWriteWord s k r w a.data) q.thr a ⟨0, 0⟩ false
    | _ =>
      if bytes = 8 then doneAcc (pairWriteWord s k r w ⟨a.data.val, 0⟩) q.thr a ⟨0, 0⟩ false
      else doneAcc (pairWriteBytes s k r w (at_ % 8) (leBytes bytes a.data.val.toNat)) q.thr a ⟨0, 0⟩ false
  | .plain _ =>
    match a.op with
    | .atomic op => grantAtomic s q.thr a op n (readTagged s a.pa) (fun s v => writeWord s a.pa v)
    | _ =>
      if a.pa % bytes == 0 && bytes == 8 then
        doneAcc (writeWord s a.pa ⟨a.data.val, if a.op = .storeTagged then a.data.tag else 0⟩) q.thr a ⟨0, 0⟩ false
      else
        let all := leBytes bytes a.data.val.toNat
        let mine := if q.part = 2 then all.drop (accSplit a) else all.take (reqBytes a q.part)
        let s1 := writeKeepTag (notePoisonMerge (rotate s n a) n at_ mine.length) at_ mine
        if q.part = 1 then firstPartDone s1 q.thr a a.result else doneAcc s1 q.thr a ⟨0, 0⟩ false

/-- One granted request is performed and its credit returns; port cycles of other masters were performed in their own commands. -/
def performGrant (n : Nat) (s : Dev) (c : Cand) : Dev :=
  match c with
  | .use _ => s
  | .req q =>
    let w := windowBank s n
    let s1 := giveCredit s w
    match reqAcc s1 q with
    | none => s1
    | some a =>
      let s2 := countCore s1 q.thr 0x0B
      if accIsStore a.op || accIsAtomic a.op then grantWrite s2 q a w else grantRead s2 q a w

def candWrites (s : Dev) : Cand → Bool
  | .req q => reqWrites s q
  | .use _ => false

/-- A word of a bank is found with an error as it is read: corrected and written back, or poisoned (02 R64, 13 R500); both are logged (15 R572). -/
def bankFind (n : Nat) (s : Dev) (f : Fin 1048576 × Bool) : Dev :=
  if f.2 then
    let w := bankBase n / 8 + f.1.val
    logLimited (setPoison s w true) WARNING SB_BK n 0x0F31 [8 * w]
  else logLimited s INFO SB_BK n 0x0F30 []

/-- The port cycles left after one cycle in which `g` were granted: 4 words move in each (R86). -/
def usesAfter (g : List Cand) (l : List PortUse) : List PortUse :=
  (l.map (fun u => if g.contains (.use u) then { u with words := u.words - 4, wait := 0 } else { u with wait := u.wait + 1 })).filter
    (fun u => decide (0 < u.words))

/-- Held ports after a cycle: the two in use move on, a third waits for a port (R86, R103). -/
def holdsAfter (l : List PortHold) : List PortHold :=
  ((l.take 2).map (fun o => { o with left := o.left - 1 })).filter (fun o => decide (0 < o.left)) ++ l.drop 2

/-- Port cycles of other masters after a cycle with grants `g` (R86). -/
def passUses (s : Dev) (n : Nat) (g : List Cand) : Dev := setBank s n { bank s n with uses := usesAfter g (bank s n).uses }

/-- A bank after a cycle: granted requests leave, the others wait on, streaks and held ports move on (R86 to R90). -/
def bankAfter (s : Dev) (n : Nat) (g : List Cand) : Dev :=
  let w := windowBank s n
  let q := ((bank s w).queue.filter (fun q => !(g.contains (.req q)))).map (fun q => if reqReady s n q then { q with wait := q.wait + 1 } else q)
  let s1 := setBank s w { bank s w with queue := q }
  let b := bank s1 n
  let streak := g.foldl (fun m c => mset (fun _ => 0) m (candRequester c) (mget (fun _ => 0) b.streak (candRequester c) + 1)) []
  setBank s1 n { b with streak := streak, occ := holdsAfter b.occ }

/-- One bank cycle: errors found in the words read, grants, reads before writes, the lower-priority write first (R86 to R90). -/
def bankGrant (s : Dev) (n : Nat) (finds : List (Fin 1048576 × Bool)) : Dev :=
  let s0 := finds.foldl (bankFind n) s
  let c := candidates s0 n
  let g := grants s0 n
  let d := (g.filter (fun x => match x with | .use u => u.place == 3 | .req _ => false)).length
  let s1 := countBank (countBank (countBank (bankAfter s0 n g) n 0x02 g.length) n 0x03 (c.length - g.length)) n 0x05 d
  let reads := g.filter (fun q => !(candWrites s0 q))
  let writes := (g.filter (candWrites s0)).reverse
  writes.foldl (performGrant n) (passUses (reads.foldl (performGrant n) s1) n g)

/-! ## Handover and clear (R84, R85, 02 R38) -/

/-- A write of a master code to BK_OWNER.NEXT (R84, R85). -/
def handoverStart (s : Dev) (n next : Nat) : Dev :=
  if fbit s (BK_OWNER n) BK_OWNER_HBUSY || bankMode s n != 0 then fset s (BK_CTRL n) BK_CTRL_HDROP 1
  else fset (setBank s n { bank s n with next := next }) (BK_OWNER n) BK_OWNER_HBUSY 1

/-- Whether the bank still holds a request that its old owner sent before the write of NEXT (R84). -/
def oldOwnerWaits (s : Dev) (n : Nat) : Bool :=
  (bank s n).queue.any (fun q => thrPart s q.thr == fget s (BK_OWNER n) BK_OWNER_OWNER)

/-- The handover ends, once the requests accepted from the old owner have completed: OWNER takes the new code (R84) (log 2, DESIGN CHOICE). -/
def handoverEnd (s : Dev) (n : Nat) : Dev :=
  if fbit s (BK_OWNER n) BK_OWNER_HBUSY && !(oldOwnerWaits s n) then
    let s1 := fset (fset s (BK_OWNER n) BK_OWNER_OWNER (bank s n).next) (BK_OWNER n) BK_OWNER_HBUSY 0
    setBank s1 n { bank s1 n with next := 0x3F }
  else s

/-- A write of 1 to BK_CTRL.CLEAR: ignored in pair and off mode and while a clear runs. -/
def bankClearStart (s : Dev) (n : Nat) : Dev :=
  if bankMode s n == 0 && !(fbit s (BK_CTRL n) BK_CTRL_CLEAR_BUSY) then
    fset (setBank s n { bank s n with clearAt := s.smp.op }) (BK_CTRL n) BK_CTRL_CLEAR_BUSY 1
  else s

/-- Every word of a bank reads as value 0 with tag 0x00 (02 R38). -/
def clearBank (s : Dev) (n : Nat) : Dev := clearRange s (bankBase n) (bankBase n + 0x800000)

/-- The clear completes (log 2, DESIGN CHOICE). -/
def bankClearEnd (s : Dev) (n : Nat) : Dev :=
  if fbit s (BK_CTRL n) BK_CTRL_CLEAR_BUSY then 
    let s1 := advanceOp s ((bank s n).clearAt + 262144 * clockUnits)
    fset (clearBank s1 n) (BK_CTRL n) BK_CTRL_CLEAR_BUSY 0
  else s

/-! ## Enable and initialisation of a pair (R96) -/

/-- Whether the regions of a controller are in range and do not overlap (IMG_CTRL.ENABLE) (log 17, DEDUCED). A used region of COUNT 0 whose BASE lies inside another counts as overlapping it (log 142, DESIGN CHOICE). -/
def regionsValid (s : Dev) (k : Nat) : Bool :=
  let kind (r : Nat) := fget s (IMG_REGION k r) IMG_REGION_KIND
  let base (r : Nat) := fget s (IMG_REGION k r) IMG_REGION_BASE
  let count (r : Nat) := fget s (IMG_REGION k r) IMG_REGION_COUNT
  [0, 1, 2].all (fun r => kind r == 0 || decide (base r + count r ≤ 131072)) &&
    [(0, 1), (0, 2), (1, 2)].all (fun p => kind p.1 == 0 || kind p.2 == 0 ||
      decide (base p.1 + count p.1 ≤ base p.2) || decide (base p.2 + count p.2 ≤ base p.1))

/-- Line-table entries of the initialisation: B 0, W = C − 1, PV 0, policy and limit index kept (R96). WP, which the rule does not name, becomes 0 (log 118, DESIGN CHOICE). -/
def initLt (x : ImgSt) (w : Nat) : ImgSt :=
  let keep (e : Word) : Word := putBits (putBits (putBits 0 E_W w) E_POL (bitsOf e E_POL)) E_STL (bitsOf e E_STL)
  { x with ltW := w, lt := (x.lt.map (fun e => (e.1, keep e.2))).filter (fun e => e.2 != putBits 0 E_W w) }

/-- A write of 1 to IMG_CTRL.ENABLE (R96): refused for bad regions, or when banks of the pair are not in pair mode (log 17, DEDUCED). -/
def pairEnable (s : Dev) (k : Nat) : Dev :=
  if fbit s (IMG_CTRL k) IMG_CTRL_ENABLE then s
  else if !(regionsValid s k) || bankMode s (3 * k) != 1 || bankMode s (3 * k + 1) != 2 then fset s (IMG_ERR k) IMG_ERR_REGION 1
  else
    let s1 := fset s (IMG_CTRL k) IMG_CTRL_ENABLE 1
    let s2 := fset (fset s1 (IMG_STATUS k) IMG_STATUS_INIT_BUSY 1) (IMG_STATUS k) IMG_STATUS_RUNNING 1
    clearBank (clearBank (setImg s2 k { imgSt s2 k with initAt := s2.smp.op }) (3 * k)) (3 * k + 1)

/-- A write that still waits for the pair when it is disabled is refused with every further access (R83, R96). -/
def refuseHeld (k : Nat) (s : Dev) (h : HeldWrite) : Dev := refusePair s k h.code

/-- A write of 0 to IMG_CTRL.ENABLE: further accesses to the regions are refused, those that wait for the initialisation among them (R96). -/
def pairDisable (s : Dev) (k : Nat) : Dev :=
  if fbit s (IMG_CTRL k) IMG_CTRL_ENABLE then
    let s1 := fset s (IMG_CTRL k) IMG_CTRL_ENABLE 0
    let s2 := fset (fset s1 (IMG_STATUS k) IMG_STATUS_INIT_BUSY 0) (IMG_STATUS k) IMG_STATUS_RUNNING 0
    let l := (imgSt s2 k).heldWrites
    if l.isEmpty then s2 else l.foldl (refuseHeld k) (setImg s2 k { imgSt s2 k with heldWrites := [] })
  else s

/-- A write that waited for the end of the initialisation is performed (R96). -/
def heldWrite (k : Nat) (s : Dev) (h : HeldWrite) : Dev :=
  match h.how with
  | 0 => pairWriteWord s k h.region h.word (h.words.headD ⟨0, 0⟩)
  | 1 => pairForeign s k h.region h.word h.off h.bytes
  | _ => writeCopied s k (h.word / 8) h.words h.stamp

/-- The initialisation ends: entries are set, with W = C − 1 for the C of that moment (log 118, DESIGN CHOICE), INIT_BUSY clears, stalled accesses proceed (R96). -/
def pairInitDone (s : Dev) (k : Nat) : Dev :=
  if fbit s (IMG_STATUS k) IMG_STATUS_INIT_BUSY then
    let s1 := advanceOp s ((imgSt s k).initAt + 262144 * clockUnits)
    let s2 := fset (setImg s1 k (initLt (imgSt s1 k) ((fillStamp s1 k + 65535) % 65536))) (IMG_STATUS k) IMG_STATUS_INIT_BUSY 0
    let l := (imgSt s2 k).heldWrites
    l.foldl (heldWrite k) (setImg s2 k { imgSt s2 k with heldWrites := [] })
  else s

/-! ## Line-table access (R106) -/

/-- IMG_LT_INDEX with GO and WRITE 0: the entry is copied to IMG_LT_DATA. -/
def ltRead (s : Dev) (k line : Nat) : Dev :=
  let s1 := fset (fset s (IMG_LT_INDEX k) IMG_LT_INDEX_LINE line) (IMG_LT_INDEX k) IMG_LT_INDEX_WRITE 0
  fset s1 (IMG_LT_DATA k) IMG_LT_DATA_ENTRY (ltEntry s k line).toNat

/-- IMG_LT_INDEX with GO and WRITE 1: the entry is written; a write with POL = 0b11 and a write while the pair is enabled are dropped, each with its error bit (R106) (log 42, DEDUCED). -/
def ltWrite (s : Dev) (k line : Nat) : Dev :=
  let s1 := fset (fset s (IMG_LT_INDEX k) IMG_LT_INDEX_LINE line) (IMG_LT_INDEX k) IMG_LT_INDEX_WRITE 1
  let e := reg s (IMG_LT_DATA k)
  let running := fbit s (IMG_CTRL k) IMG_CTRL_ENABLE
  let s2 := if bitsOf e E_POL = 3 then fset s1 (IMG_ERR k) IMG_ERR_BAD_POLICY 1 else s1
  if running then fset s2 (IMG_ERR k) IMG_ERR_LT_RUNNING 1
  else if bitsOf e E_POL = 3 then s2
  else setLtEntry s2 k line e

/-! ## Abandon and sweeper (R107 to R111) -/

/-- Entries of a line table. -/
def ltLines : Nat := 131072

/-- A write to IMG_ABANDON[a] (R107). -/
def abandonWrite (s : Dev) (k a regions stamp : Nat) : Dev :=
  if stamp = fillStamp s k ∧ fbit s (IMG_ABANDON k a) IMG_ABANDON_BUSY = false then
    let s1 := fset (fset s (IMG_ABANDON k a) IMG_ABANDON_REGIONS regions) (IMG_ABANDON k a) IMG_ABANDON_STAMP stamp
    let s2 := fset s1 (IMG_ABANDON k a) IMG_ABANDON_BUSY 1
    let x := imgSt s2 k
    setImg s2 k { x with abandonAt := listSet x.abandonAt a s2.smp.op, abandoned := x.abandoned ++ [(stamp, regions)] }
  else
    logLimited (fset s (IMG_ERR k) IMG_ERR_ABANDON_REFUSED 1) WARNING SB_IMG k 0x0301 []

/-- A stamp clamped to at most 32,767 behind C (R111), and whether the clamp changed it. -/
def clampStamp (c st : Nat) : Nat × Bool :=
  let d := (c + 65536 - st % 65536) % 65536
  let v := (c + 65536 - 32767) % 65536
  if 32767 ≤ d then (v, st != v) else (st, false)

/-- The sweeper's visit of one entry: repair, then clamp (R109, R111). -/
def sweepEntry (s : Dev) (k line : Nat) : Dev :=
  let c := fillStamp s k
  let e0 := ltEntry s k line
  let e1 := match regionOf s k line with
    | some r => if busyAbandon s k r (bitsOf e0 E_W) then repairEntry e0 else e0
    | none => e0
  let w := clampStamp c (bitsOf e1 E_W)
  let wp := if bitsOf e1 E_PV = 1 then clampStamp c (bitsOf e1 E_WP) else (bitsOf e1 E_WP, false)
  let e2 := putBits (putBits e1 E_W w.1) E_WP wp.1
  let n := b2n w.2 + b2n wp.2
  let s1 := if e2 = e0 then s else setLtEntry s k line e2
  if n = 0 then s1 else countImg (fincWrap s1 (IMG_SWEEP k) IMG_SWEEP_CLAMPS n) k 0x07 n

/-- The sweeper visits `n` entries in ascending order, counting a pass at each wrap (R110). -/
def sweep : Nat → Dev → Nat → Dev
  | 0, s, _ => s
  | n + 1, s, k =>
    let pos := (imgSt s k).sweepPos
    let s1 := sweepEntry s k pos
    let x := imgSt s1 k
    let s2 := setImg s1 k { x with sweepPos := (pos + 1) % ltLines }
    sweep n (if pos + 1 = ltLines then fincWrap s2 (IMG_SWEEP k) IMG_SWEEP_PASSES 1 else s2) k

/-- SWEEPER_VISIT: the sweeper runs while the controller is enabled (R110). -/
def sweeperVisit (s : Dev) (k n : Nat) : Dev :=
  if fbit s (IMG_CTRL k) IMG_CTRL_ENABLE then sweep n s k else s

/-- The rest of the sweeper's pass after an abandon, up to the clearing of BUSY (R109): every entry of the masked regions with the abandoned stamp is repaired. -/
def repairAll (s : Dev) (k : Nat) : Dev :=
  let x := imgSt s k
  x.lt.foldl (fun s e =>
    match regionOf s k e.1 with
    | some r => if busyAbandon s k r (bitsOf e.2 E_W) then setLtEntry s k e.1 (repairEntry e.2) else s
    | none => s) s

/-- BUSY of an abandon register clears one pass after acceptance (R109); a waiting abandon is then accepted (15 R555). -/
def abandonSweepDone (s : Dev) (k a : Nat) : Dev :=
  if fbit s (IMG_ABANDON k a) IMG_ABANDON_BUSY then
    let s0 := advanceOp s ((imgSt s k).abandonAt.getD a 0 + 32768 * clockUnits)
    let s1 := repairAll s0 k
    let s2 := fset s1 (IMG_ABANDON k a) IMG_ABANDON_BUSY 0
    let x := imgSt s2 k
    let s3 := phaseValue s2 3 1 ((s2.smp.op - (imgSt s k).abandonAt.getD a 0) / nsUnits 1000)
    match x.abandonWait with
    | [] => s3
    | w :: ws =>
      let s4 := setImg s3 k { imgSt s3 k with abandonWait := ws }
      if w.1 = fillStamp s4 k then abandonWrite s4 k a w.2.1 w.1 else s4
  else s

end Sys2Proof.Machine
end

