-- ==== Sys2Proof/Machine/Ecc.lean ====
section
/-! DEFINITION. Ecc: the Reed-Solomon code of a DRAM line: what its decoder does with a pattern of symbol errors (13 R502, R503). -/
namespace Sys2Proof.Machine

/-! ## GF(2^8) (R502) -/

/-- A field element times α = 0x02, modulo x^8 + x^4 + x^3 + x^2 + 1. -/
def gfTwice (x : Nat) : Nat := if 2 * x < 256 then 2 * x else Nat.xor (2 * x) 0x11D

/-- A field element times α^n. -/
def gfPower : Nat → Nat → Nat
  | 0, x => x
  | n + 1, x => gfTwice (gfPower n x)

/-- Error value of symbol `b` in a list of errors. -/
def errAt (l : List (Fin 80 × Byte)) (b : Nat) : Nat := l.foldl (fun n e => if e.1.val = b then Nat.xor n e.2.toNat else n) 0

/-- Symbols in error. -/
def errPlaces (l : List (Fin 80 × Byte)) : List Nat := (rangeFrom 0 80).filter (fun b => errAt l b != 0)

/-- Value of an error pattern at the root α^j; symbol b stands at power 79 − b (log 151, PRESUMED). -/
def syndrome (j : Nat) (l : List (Fin 80 × Byte)) : Nat :=
  l.foldl (fun n e => Nat.xor n (gfPower (j * (79 - e.1.val) % 255) e.2.toNat)) 0

/-- Whether a pattern is a codeword: every generator root is a root of it. -/
def isCodeword (l : List (Fin 80 × Byte)) : Bool := (rangeFrom 0 8).all (fun j => syndrome j l == 0)

/-! ## The decoder (R502, R503) -/

/-- Device that carries a symbol (02 R36). -/
def symDevice (b : Nat) : Nat := b % 10

/-- Whether the decoder corrects errors in these symbols: 2e + f ≤ 8, where the 8 symbols of a marked device are erasures (R502, R504). -/
def inReach (mark : Option Nat) (places : List Nat) : Bool :=
  match mark with
  | none => decide (places.length ≤ 4)
  | some d => places.all (fun b => symDevice b == d)

/-- Device that held most of the symbols; of equals the lowest (R504) (log 33, DESIGN CHOICE). -/
def mostDevice (places : List Nat) : Nat :=
  let n (d : Nat) := (places.filter (fun b => symDevice b == d)).length
  (rangeFrom 1 9).foldl (fun d e => if n d < n e then e else d) 0

/-- Whether a decoder beyond its reach can take `w` for the error pattern `l`: within its reach, and leaving another codeword (R502). -/
def misTaken (mark : Option Nat) (l w : List (Fin 80 × Byte)) : Bool :=
  inReach mark (errPlaces w) && isCodeword (l ++ w) && !((errPlaces (l ++ w)).isEmpty)

/-- What becomes of a line that is read. -/
inductive EccOut where
  | clean
  /-- corrected; the device it is attributed to -/
  | fixed (dev : Nat)
  /-- corrected to a wrong codeword: what the line is off by -/
  | wrong (dev : Nat) (off : List (Fin 80 × Byte))
  | lost
deriving DecidableEq, Repr

/-- The decode of a line, and its decodes with each device erased where no device is marked: exactly one succeeds when every error lies in one device (R502, R503) (log 33, DESIGN CHOICE). -/
def decodeErrors (mark : Option Nat) (o : EccRead) : EccOut :=
  match o with
  | .clean => .clean
  | .errors l taken =>
    let p := errPlaces l
    let d := mostDevice p
    let again : EccOut := if mark.isNone && p.all (fun b => symDevice b == d) then .fixed d else .lost
    if p.isEmpty then .clean
    else if inReach mark p then .fixed d
    else
      match taken with
      | some w => if misTaken mark l w then .wrong (mostDevice (errPlaces w)) (l ++ w) else again
      | none => again

/-- What a SECDED word shows where the command carries `o` for it: one symbol in error stands for a corrected word, more for an uncorrectable one (02 R35, 13 R500) (log 33, DESIGN CHOICE). -/
def wordErrors (o : EccRead) : Nat :=
  match o with
  | .clean => 0
  | .errors l _ => (errPlaces l).length

end Sys2Proof.Machine
end

