-- ==== Sys2Proof/Machine/Cache.lean ====
section
/-! DEFINITION. Cache: caches of the clusters, directory slices, DRAM channels and I/O accesses to DRAM (13). The newest data of each line stand in `mem`; caches hold what the spec says of them beside the data. -/
namespace Sys2Proof.Machine

/-! ## DRAM (R497 to R499) -/

/-- Channel capacity C in bytes (R498). -/
def chanCap (s : Dev) : Nat := fget s (MC_STATUS 0) MC_STATUS_CAPACITY * 2 ^ 30

/-- Whether an address lies in populated DRAM (R498, R499). -/
def inDram (s : Dev) (pa : Nat) : Bool := decide (pa < 16 * chanCap s)

/-- Home channel of an address (R498). -/
def chanOf (s : Dev) (pa : Nat) : Nat :=
  if fget s (MC_CTRL 0) MC_CTRL_ILV = 1 then 4 * (pa / (4 * chanCap s) % 4) + pa / 4096 % 4
  else pa / 4096 % 16

/-- Lines touched by `n` bytes at `a`. -/
def linesOf (a n : Nat) : List Nat := if n = 0 then [] else rangeFrom (a / 64) ((a + n - 1) / 64 + 1 - a / 64)

def linePoisoned (s : Dev) (line : Nat) : Bool := anyPoison s (64 * line) 64

/-- A line goes to DRAM: on a rank and subchannel with a marked device, a line with any poisoned word is written with every word poisoned (R505). -/
def toDram (s : Dev) (line : Nat) : Dev :=
  let ch := chanOf s (64 * line)
  let s1 := countMc s ch 0x03
  if fbit s (MC_MARK ch) (MC_MARK_MARKED (Config.rankSub line % 8)) && linePoisoned s line then
    (rangeFrom (8 * line) 8).foldl (fun s w => setPoison s w true) s1
  else s1

/-! ## Replacement state (R472, R473) -/

/-- Way the tree points to, over `n` ways from `lo`; `nodes` are the nodes that point right (log 34, DESIGN CHOICE). -/
def plruVictim : Nat → List Nat → Nat → Nat → Nat
  | 0, _, lo, _ => lo
  | fuel + 1, nodes, lo, n =>
    if n ≤ 1 then lo
    else if nodes.contains (64 * lo + n) then plruVictim fuel nodes (lo + n / 2) (n - n / 2)
    else plruVictim fuel nodes lo (n / 2)

/-- The tree points away from the way used (log 34, DESIGN CHOICE). -/
def plruTouch : Nat → List Nat → Nat → Nat → Nat → List Nat
  | 0, nodes, _, _, _ => nodes
  | fuel + 1, nodes, lo, n, way =>
    if n ≤ 1 then nodes
    else
      let rest := nodes.filter (fun k => k != 64 * lo + n)
      if way < lo + n / 2 then plruTouch fuel ((64 * lo + n) :: rest) lo (n / 2) way
      else plruTouch fuel rest (lo + n / 2) (n - n / 2) way

/-- One step of the replacement LFSR, x^16 + x^15 + x^13 + x^4 + 1 (R473). -/
def lfsrStep (x : Nat) : Nat :=
  let b := (b2n (nbit x 15) + b2n (nbit x 14) + b2n (nbit x 12) + b2n (nbit x 3)) % 2
  x * 2 % 65536 + b

/-! ## Cache arrays (R469 to R474) -/

def l1Id (core : Nat) : Nat := core
def l2Id (c : Nat) : Nat := 192 + c
def l1iId (core : Nat) : Nat := 216 + core
def isL2 (cid : Nat) : Bool := decide (192 ≤ cid) && decide (cid < 216)
def cacheWays (cid : Nat) : Nat := if isL2 cid then 16 else 4
def cacheSet (cid line : Nat) : Nat := if isL2 cid then line % 4096 else line % 128
def setKey (cid line : Nat) : Nat := cid * 4096 + cacheSet cid line
def wayKey (cid line way : Nat) : Nat := setKey cid line * 16 + way

def modCache (s : Dev) (f : CacheSt → CacheSt) : Dev := { s with cache := f s.cache }

/-- Ways retired by repair records: kind 2, unit the cache number, argument the way (R473, 15 R568). -/
def retiredWays (s : Dev) (cid : Nat) : List Nat :=
  s.smp.repairs.filterMap (fun r => if r.kind = 2 ∧ r.unit = cid ∧ r.whole then some r.arg else none)

def enabledWays (s : Dev) (cid : Nat) : List Nat := (rangeFrom 0 (cacheWays cid)).filter (fun w => !((retiredWays s cid).contains w))

/-- The way that holds a line (R469). -/
def cFind (s : Dev) (cid line : Nat) : Option (Nat × CLine) :=
  (enabledWays s cid).findSome? (fun w =>
    match mfind s.cache.ways (wayKey cid line w) with
    | some x => if x.line = line then some (w, x) else none
    | none => none)

/-- State of an L1 data cache and of an L2: 0 OFF, 1 ON, 2 DRAIN (R492). -/
def l1State (s : Dev) (core : Nat) : Nat := bitsOf (reg s (CL_STATUS (core / 8))) (2 * (core % 8) + 1, 2 * (core % 8))
def l2State (s : Dev) (c : Nat) : Nat := fget s (CL_STATUS c) CL_STATUS_L2_STATE
def setL1State (s : Dev) (core v : Nat) : Dev := fset s (CL_STATUS (core / 8)) (2 * (core % 8) + 1, 2 * (core % 8)) v
def setL2State (s : Dev) (c v : Nat) : Dev := fset s (CL_STATUS c) CL_STATUS_L2_STATE v

/-- A hit or a fill of a way (R472). -/
def cTouch (s : Dev) (cid line way : Nat) : Dev :=
  let k := setKey cid line
  let nodes := plruTouch 8 (mget (fun _ => []) s.cache.plru k) 0 (cacheWays cid) way
  modCache s (fun x => { x with plru := mset (fun _ => []) x.plru k nodes })

/-- A hit on a line that a cache may hold (R472). -/
def cTouchLine (s : Dev) (cid line : Nat) : Dev :=
  match cFind s cid line with
  | some (w, _) => cTouch s cid line w
  | none => s

def cPut (s : Dev) (cid way : Nat) (x : CLine) : Dev := modCache s (fun c => { c with ways := mput c.ways (wayKey cid x.line way) x })
def cDel (s : Dev) (cid line : Nat) : Dev :=
  match cFind s cid line with
  | some (w, _) => modCache s (fun c => { c with ways := mdel c.ways (wayKey cid line w) })
  | none => s

/-- The line of a cache with a new state. -/
def cMod (s : Dev) (cid line : Nat) (f : CLine → CLine) : Dev :=
  match cFind s cid line with
  | some (w, x) => cPut s cid w (f x)
  | none => s

/-- The way a fill takes among `among`: the tree's way, or the LFSR's once a way is retired (R472 to R474). -/
def cVictim (s : Dev) (cid line : Nat) (among : List Nat) : Option (Nat × Dev) :=
  if among.isEmpty then none
  else if (retiredWays s cid).isEmpty then
    let lo := among.headD 0
    some (plruVictim 8 (mget (fun _ => []) s.cache.plru (setKey cid line)) (if among.length = cacheWays cid then 0 else lo) among.length, s)
  else
    let x := lfsrStep (mget (fun _ => 0xACE1) s.cache.lfsr cid)
    some (among.getD (x % among.length) 0, modCache s (fun c => { c with lfsr := mset (fun _ => 0xACE1) c.lfsr cid x }))

/-- The eight words of a line as they stand, for the copy of the next level. -/
def lineWords (s : Dev) (line : Nat) : List QWord := (rangeFrom 0 8).map (fun i => wordAt s (64 * line + 8 * i))
def linePoison (s : Dev) (line : Nat) : List Bool := (rangeFrom 0 8).map (fun i => poisonAt s (8 * line + i))

/-- A line becomes dirty in a cache; the next level's copy is kept beside it (R501). Called before the write. -/
def markDirtyLine (s : Dev) (cid line : Nat) : Dev :=
  cMod s cid line (fun x => if x.dirty then x else { x with dirty := true, back := lineWords s line, backPoison := linePoison s line })

/-- A dirty line is lost: the next level's copy is the newest again (R501). -/
def restoreBack (s : Dev) (x : CLine) : Dev :=
  let s1 := (x.back.zipIdx).foldl (fun s e => writeWord s (64 * x.line + 8 * e.2) e.1) s
  (x.backPoison.zipIdx).foldl (fun s e => setPoison s (8 * x.line + e.2) e.1) s1

def prefetched (s : Dev) (core : Nat) : List Nat := mget (fun _ => []) s.cache.pf core
def setPrefetched (s : Dev) (core : Nat) (l : List Nat) : Dev := modCache s (fun c => { c with pf := mset (fun _ => []) c.pf core l })
def evicted (s : Dev) (c : Nat) : List CLine := mget (fun _ => []) s.cache.evict c
def setEvicted (s : Dev) (c : Nat) (l : List CLine) : Dev := modCache s (fun x => { x with evict := mset (fun _ => []) x.evict c l })
def victimMode (s : Dev) (c : Nat) : Bool := mget (fun _ => false) s.cache.vicMode c

/-- The buffer takes a line and replaces its oldest (R475). -/
def putPrefetched (s : Dev) (core line : Nat) : Dev :=
  let l := prefetched s core
  setPrefetched s core ((if l.length < 32 then l else l.drop 1) ++ [line])

/-- Lines that the prefetchers of a core have requested (09 R341). -/
def wantedLines (s : Dev) (core : Nat) : List Nat := mget (fun _ => []) s.cache.pfWant core
def setWanted (s : Dev) (core : Nat) (l : List Nat) : Dev := modCache s (fun c => { c with pfWant := mset (fun _ => []) c.pfWant core l })

/-- A prefetcher of a core requests a line, while PF_EN is 1; the 32 newest requests stand (09 R341, R344) (log 35, DESIGN CHOICE). -/
def wantPrefetch (s : Dev) (core line : Nat) : Dev :=
  if !(fbit s (CL_CTRL (core / 8)) CL_CTRL_PF_EN) || !(inDram s (64 * line)) || (prefetched s core).contains line || (wantedLines s core).contains line then s
  else
    let l := wantedLines s core
    setWanted s core ((if l.length < 32 then l else l.drop 1) ++ [line])

/-- The line leaves the prefetch buffer (R475). -/
def dropPrefetch (s : Dev) (core line : Nat) : Dev := setPrefetched s core ((prefetched s core).filter (fun l => l != line))

def coresOf (c : Nat) : List Nat := rangeFrom (8 * c) 8

/-- What an L1 data cache holds dirty passes to the L2 (R470, R485). -/
def passDirty (s : Dev) (core line : Nat) : Dev :=
  match cFind s core line with
  | some (_, x) =>
    if x.dirty then
      cMod s (l2Id (core / 8)) line (fun y => if y.dirty then y else { y with dirty := true, back := x.back, backPoison := x.backPoison })
    else s
  | none => s

/-- The line leaves an L1 data cache; what it held dirty passes to the L2 with it (R470). -/
def dropL1 (s : Dev) (core line : Nat) : Dev := cDel (passDirty s core line) core line

/-- The line leaves every cache of a cluster (R470). -/
def dropCluster (s : Dev) (c line : Nat) : Dev :=
  let s1 := (coresOf c).foldl (fun s j => dropPrefetch (dropL1 s j line) j line) s
  setEvicted (cDel s1 (l2Id c) line) c ((evicted s1 c).filter (fun x => x.line != line))

/-- Whether a cluster holds a line dirty. -/
def clusterDirty (s : Dev) (c line : Nat) : Bool :=
  ((l2Id c) :: coresOf c).any (fun cid => match cFind s cid line with | some (_, x) => x.dirty | none => false) ||
    (evicted s c).any (fun x => x.line == line && x.dirty)

/-- A line as a shared clean copy. -/
def cleanCopy (x : CLine) : CLine := { x with excl := false, dirty := false, back := [], backPoison := [] }

/-- Lines of an eviction buffer or victim cache after `line` has been written back: the buffer, which holds lines that await their write-back, lets it go; the victim cache keeps it clean (R476, R477). -/
def writtenBack (s : Dev) (c line : Nat) : List CLine :=
  if victimMode s c then (evicted s c).map (fun x => if x.line = line then cleanCopy x else x) else (evicted s c).filter (fun x => x.line != line)

/-- The other cores of a cluster that hold a line exclusively keep a clean shared copy; dirty data pass to the L2 (R485). -/
def shareInCluster (s : Dev) (core line : Nat) : Dev :=
  (coresOf (core / 8)).foldl (fun s j => if j = core then s else cMod (passDirty s j line) j line cleanCopy) s

/-- Every other copy in the cluster of a core goes, and the copy in its own prefetch buffer (R471, R475). -/
def dropOthers (s : Dev) (core line : Nat) : Dev :=
  dropPrefetch ((coresOf (core / 8)).foldl (fun s j => if j = core then s else dropPrefetch (dropL1 s j line) j line) s) core line

/-- A cluster keeps a shared clean copy; dirty data go to DRAM in the same transaction (R486). -/
def shareCluster (s : Dev) (c line : Nat) : Dev :=
  let s0 := if clusterDirty s c line then toDram s line else s
  let s1 := ((l2Id c) :: coresOf c).foldl (fun s cid => cMod s cid line cleanCopy) s0
  setEvicted s1 c (writtenBack s1 c line)

/-! ## Holders (R479): the clusters, and the Oasis cores as sharer 31 -/

def isHolder (h : Nat) : Bool := decide (h < 24) || h == 31

/-- Whether a holder holds a line dirty. -/
def holderDirty (s : Dev) (h line : Nat) : Bool :=
  if h = 31 then s.cache.oasis.any (fun x => x.line == line && x.dirty) else clusterDirty s h line

/-- Whether a holder has a copy of a line. -/
def holdsLine (s : Dev) (h line : Nat) : Bool :=
  if h = 31 then s.cache.oasis.any (fun x => x.line == line)
  else (cFind s (l2Id h) line).isSome || (coresOf h).any (fun j => (cFind s j line).isSome) || (evicted s h).any (fun x => x.line == line)

/-- The line leaves every cache of a holder. -/
def dropHolder (s : Dev) (h line : Nat) : Dev :=
  if h = 31 then modCache s (fun c => { c with oasis := c.oasis.filter (fun x => x.line != line) }) else dropCluster s h line

/-- A holder keeps a shared clean copy (R486). -/
def shareHolder (s : Dev) (h line : Nat) : Dev :=
  if h = 31 then
    modCache (if holderDirty s 31 line then toDram s line else s) (fun c => { c with oasis := c.oasis.map (fun x => if x.line = line then cleanCopy x else x) })
  else shareCluster s h line

/-- Every agent that holds lines. -/
def allHolders : List Nat := rangeFrom 0 24 ++ [31]

/-! ## The directory (R480 to R486) -/

def dirSetKey (s : Dev) (line : Nat) : Nat := chanOf s (64 * line) * 16384 + Config.dirIndex line % 16384

def dirFind (s : Dev) (line : Nat) : Option (Nat × DirEnt) :=
  (rangeFrom 0 12).findSome? (fun w =>
    match mfind s.cache.dir (dirSetKey s line * 12 + w) with
    | some x => if x.line = line then some (w, x) else none
    | none => none)

def setDir (s : Dev) (line way : Nat) (e : DirEnt) : Dev :=
  let k := dirSetKey s line
  modCache s (fun c => { c with
    dir := mput c.dir (k * 12 + way) e
    dirPlru := mset (fun _ => []) c.dirPlru k (plruTouch 8 (mget (fun _ => []) c.dirPlru k) 0 12 way) })

/-- An entry leaves its slice: VALID falls, BCAST_NOW with it (R482). -/
def delDir (s : Dev) (line : Nat) : Dev :=
  match dirFind s line with
  | none => s
  | some (w, e) =>
    let ch := chanOf s (64 * line)
    let s1 := modCache s (fun c => { c with dir := mdel c.dir (dirSetKey s line * 12 + w) })
    let s2 := fset s1 (MC_DIR ch) MC_DIR_VALID (fget s1 (MC_DIR ch) MC_DIR_VALID - 1)
    if e.bcast then fset s2 (MC_DIR_BCAST ch) MC_DIR_BCAST_BCAST_NOW (fget s2 (MC_DIR_BCAST ch) MC_DIR_BCAST_BCAST_NOW - 1) else s2

/-- Holders that an invalidation of an entry reaches: every cluster and Oasis under broadcast (R482). -/
def dirHolders (e : DirEnt) : List Nat := if e.bcast then rangeFrom 0 24 ++ [31] else e.holders

/-- The line is invalidated in every holder but `keep`; dirty data reach DRAM first (R483, R484). -/
def invalidateHolders (s : Dev) (e : DirEnt) (keep : Nat) : Dev :=
  let s0 := if e.bcast then countMc s (chanOf s (64 * e.line)) 0x08 else s
  (dirHolders e).foldl (fun s h =>
    if h = keep || !(isHolder h) then s
    else
      let s1 := dropHolder (if holderDirty s h e.line then toDram s e.line else s) h e.line
      if h < 24 then countCl s1 h 0x04 else s1) s0

/-- A way for a new entry: a free one, or the pseudo-LRU one, whose line is invalidated everywhere first (R483) (log 34, DESIGN CHOICE). -/
def dirWay (s : Dev) (line : Nat) : Nat × Dev :=
  let k := dirSetKey s line
  match (rangeFrom 0 12).find? (fun w => (mfind s.cache.dir (k * 12 + w)).isNone) with
  | some w => (w, s)
  | none =>
    let w := plruVictim 8 (mget (fun _ => []) s.cache.dirPlru k) 0 12
    match mfind s.cache.dir (k * 12 + w) with
    | none => (w, s)
    | some e =>
      let ch := chanOf s (64 * line)
      let s1 := (dirHolders e).foldl (fun s h => if h < 24 then countCl s h 0x05 else s) (invalidateHolders s e 32)
      (w, countMc (fincSat (delDir s1 e.line) (MC_DIR ch) MC_DIR_BACK_INV 1) ch 0x07)

/-- The entry of a line takes new contents, in its way or a new one. -/
def putDir (s : Dev) (e : DirEnt) : Dev :=
  match dirFind s e.line with
  | some (w, old) =>
    let ch := chanOf s (64 * e.line)
    let s1 := setDir s e.line w e
    if old.bcast && !e.bcast then fset s1 (MC_DIR_BCAST ch) MC_DIR_BCAST_BCAST_NOW (fget s1 (MC_DIR_BCAST ch) MC_DIR_BCAST_BCAST_NOW - 1)
    else if e.bcast && !old.bcast then
      fincSat (fincWrap s1 (MC_DIR_BCAST ch) MC_DIR_BCAST_BCAST_NOW 1) (MC_DIR_BCAST ch) MC_DIR_BCAST_BCAST_ENTER 1
    else s1
  | none =>
    let w := dirWay s e.line
    let ch := chanOf s (64 * e.line)
    fincWrap (setDir w.2 e.line w.1 e) (MC_DIR ch) MC_DIR_VALID 1

/-- A cluster no longer holds a line: an entry without holders goes (R480). -/
def dirLeave (s : Dev) (c line : Nat) : Dev :=
  match dirFind s line with
  | none => s
  | some (_, e) =>
    if e.bcast then s
    else
      let l := e.holders.filter (fun h => h != c)
      if l.isEmpty then delDir s line else putDir s { e with holders := l }

/-- A holder is added to a SHARED entry; the fifth sets B (R482). -/
def addHolder (s : Dev) (e : DirEnt) (c : Nat) : Dev :=
  if e.bcast ∨ e.holders.contains c then putDir s { e with excl := false }
  else if 4 ≤ e.holders.length then putDir s { e with excl := false, bcast := true, holders := [] }
  else putDir s { e with excl := false, holders := e.holders ++ [c] }

/-! ## Fills (R470 to R477) -/

/-- A line leaves an L2 as a victim: L1 copies go with it; dirty into the eviction buffer, or every line into the victim cache, whose oldest leaves (R470, R476, R477). -/
def evictL2 (s : Dev) (c : Nat) (x : CLine) : Dev :=
  let s1 := (coresOf c).foldl (fun s j => dropPrefetch (dropL1 s j x.line) j x.line) s
  let y := match cFind s1 (l2Id c) x.line with | some (_, y) => y | none => x
  let s2 := cDel s1 (l2Id c) x.line
  if victimMode s c then
    let l := evicted s2 c ++ [y]
    if l.length ≤ 32 then setEvicted s2 c l
    else
      match l with
      | [] => s2
      | z :: rest =>
        let s3 := setEvicted (if z.dirty then toDram s2 z.line else s2) c rest
        dirLeave s3 c z.line
  else if y.dirty then setEvicted s2 c (evicted s2 c ++ [y])
  else dirLeave s2 c y.line

/-- A fill of an L2 among the ways given; `none` while the eviction buffer is full and the victim is dirty (R476), or no way may be filled (R474). -/
def fillL2 (s : Dev) (c : Nat) (x : CLine) (among : List Nat) : Option Dev :=
  match cVictim s (l2Id c) x.line among with
  | none => none
  | some (w, s1) =>
    match mfind s1.cache.ways (wayKey (l2Id c) x.line w) with
    | none => some (cTouch (cPut s1 (l2Id c) w x) (l2Id c) x.line w)
    | some v =>
      let dirty := clusterDirty s1 c v.line
      if dirty && !(victimMode s c) && decide (16 ≤ (evicted s1 c).length) then none
      else
        let s2 := evictL2 s1 c v
        some (cTouch (cPut s2 (l2Id c) w x) (l2Id c) x.line w)

/-- A fill of an L1 data cache; the victim's dirty data pass to the L2 (R469, R471). Nothing is filled unless the cache is ON (R493). -/
def fillL1 (s : Dev) (core line : Nat) (excl : Bool) : Dev :=
  if l1State s core ≠ 1 then s
  else if (cFind s core line).isSome then cTouchLine (cMod s core line (fun x => { x with excl := excl })) core line
  else
    match cVictim s core line (enabledWays s core) with
    | none => s
    | some (w, s1) =>
      let s2 := match mfind s1.cache.ways (wayKey core line w) with
        | some v => dropL1 s1 core v.line
        | none => s1
      cTouch (cPut s2 core w { line := line, excl := excl }) core line w

/-- A line that stands in a cluster's eviction buffer or victim cache returns to its L2: the write-back is cancelled, or the line swaps with the L2's victim (R476, R477). `none`: it stands in neither, the L2 allocates nothing (R493), or the fill must wait. -/
def reinstall (s : Dev) (c line : Nat) : Option Dev :=
  if l2State s c ≠ 1 then none
  else
  match (evicted s c).find? (fun y => y.line == line) with
  | none => none
  | some y =>
    let s1 := countCl (setEvicted s c ((evicted s c).filter (fun z => z.line != line))) c 0x07
    fillL2 s1 c y (enabledWays s1 (l2Id c))

/-- The line is brought into a cluster; a demand load or an ownership request of data also fills the core's L1 data cache (R471, R475). -/
def installLine (s : Dev) (core line : Nat) (excl data : Bool) : Option Dev :=
  let c := core / 8
  let l1 (s : Dev) : Dev := if data then fillL1 s core line excl else s
  if l2State s c ≠ 1 then some s
  else if (cFind s (l2Id c) line).isSome then
    some (l1 (cTouchLine (cMod s (l2Id c) line (fun x => { x with excl := excl })) (l2Id c) line))
  else
    (fillL2 s c { line := line, excl := excl } (enabledWays s (l2Id c))).map l1

/-! ## L1 instruction caches (R469, R494, 10 R400) -/

/-- A core's instruction cache is ON while its L1_EN bit is 1 (R494). -/
def l1iOn (s : Dev) (core : Nat) : Bool := nbit (fget s (CL_CTRL (core / 8)) CL_CTRL_L1_EN) (core % 8)

/-- A fetched line fills the instruction cache, which holds clean lines and is not tracked (R469). -/
def fillL1I (s : Dev) (core line : Nat) : Dev :=
  if !(l1iOn s core) || (cFind s (l1iId core) line).isSome then s
  else
    match cVictim s (l1iId core) line (enabledWays s (l1iId core)) with
    | none => s
    | some (w, s1) => cTouch (cPut s1 (l1iId core) w { line := line }) (l1iId core) line w

/-- The line leaves the instruction cache of every core (10 R400). -/
def dropL1I (s : Dev) (line : Nat) : Dev :=
  modCache s (fun c => { c with ways := c.ways.filter (fun e => !(decide (l1iId 0 ≤ e.1 / 65536) && e.2.line == line)) })

/-- The instruction cache of a core goes OFF: its lines are invalidated (R494). -/
def emptyL1I (s : Dev) (core : Nat) : Dev := modCache s (fun c => { c with ways := c.ways.filter (fun e => e.1 / 65536 != l1iId core) })

/-! ## DRAM reads and their errors (R502 to R504, 15 R572) -/

/-- The correction that a decode attributes to a device (R504, MC_ECC) (log 33, DESIGN CHOICE). -/
def noteCorrected (s : Dev) (ch rank sub dev : Nat) : Dev :=
  let s1 := logLimited (fincSat s (MC_ECC ch) MC_ECC_CORRECTED 1) INFO SB_MC ch 0x0F30 []
  let s2 := fset (fset (fset s1 (MC_ECC ch) MC_ECC_LAST_DEV dev) (MC_ECC ch) MC_ECC_LAST_SUB sub) (MC_ECC ch) MC_ECC_LAST_RANK rank
  let key := ch * 1024 + (2 * rank + sub) * 16 + dev
  let n := mget (fun _ => 0) s2.cache.corrected key + 1
  let s3 := countMc (modCache s2 (fun c => { c with corrected := mset (fun _ => 0) c.corrected key n })) ch 0x05
  let i := 2 * rank + sub
  if fget s3 (MC_SCRUB ch) MC_SCRUB_MARK_THRESH ≠ 0 ∧ fget s3 (MC_SCRUB ch) MC_SCRUB_MARK_THRESH ≤ n ∧ !(fbit s3 (MC_MARK ch) (MC_MARK_MARKED i)) then
    let s4 := fset (fset s3 (MC_MARK ch) (MC_MARK_DEVICE i) dev) (MC_MARK ch) (MC_MARK_MARKED i) 1
    addRepair (logRec s4 ALERT SB_MC ch 0x0D02 []) { kind := 3, unit := ch, arg := i * 16 + dev }
  else s3

/-- An uncorrectable line: its words are poisoned, the event is counted, recorded and logged (R503) (log 55, DESIGN CHOICE) (log 33, DESIGN CHOICE). -/
def noteUncorrected (s : Dev) (ch line : Nat) : Dev :=
  let s1 := (rangeFrom (8 * line) 8).foldl (fun s w => setPoison s w true) s
  let s2 := fincSat s1 (MC_ECC ch) MC_ECC_UNCORRECTED 1
  let s3 := fset (fset s2 (MC_ERR_ADDR ch) MC_ERR_ADDR_VALID 1) (MC_ERR_ADDR ch) MC_ERR_ADDR_ADDR line
  logLimited s3 ALERT SB_MC ch 0x0D03 []

/-- Rank and subchannel of a line, 2 × rank + subchannel (MC_MARK). -/
def lineLane (line : Nat) : Nat := Config.rankSub line % 8

/-- The marked device of a line's rank and subchannel (R504). -/
def lineMark (s : Dev) (line : Nat) : Option Nat :=
  let ch := chanOf s (64 * line)
  if fbit s (MC_MARK ch) (MC_MARK_MARKED (lineLane line)) then some (fget s (MC_MARK ch) (MC_MARK_DEVICE (lineLane line))) else none

/-- A line corrected to a wrong codeword is off by a pattern in its value and tag bytes (02 R34, R502) (log 33, DESIGN CHOICE). -/
def spoilLine (s : Dev) (line : Nat) (off : List (Fin 80 × Byte)) : Dev :=
  (errPlaces off).foldl (fun s b =>
    let v : Byte := BitVec.ofNat 8 (errAt off b)
    if b < 64 then wrByte s (64 * line + b) (rdByte s (64 * line + b) ^^^ v)
    else if b < 72 then setTag s (8 * line + (b - 64)) (tagAt s (8 * line + (b - 64)) ^^^ v)
    else s) s

/-- What the decoder makes of a line (R502 to R504) (log 33, DESIGN CHOICE). -/
def decodeLine (s : Dev) (line : Nat) (o : EccRead) : Dev :=
  let ch := chanOf s (64 * line)
  match decodeErrors (lineMark s line) o with
  | .clean => s
  | .fixed d => noteCorrected s ch (lineLane line / 2) (lineLane line % 2) d
  | .wrong d off => spoilLine (noteCorrected s ch (lineLane line / 2) (lineLane line % 2) d) line off
  | .lost => noteUncorrected s ch line

/-- A line is read from DRAM with the errors it has (R503) (log 33, DESIGN CHOICE). -/
def readDram (s : Dev) (line : Nat) (o : EccRead) : Dev := decodeLine (countMc s (chanOf s (64 * line)) 0x02) line o

/-! ## Transactions of a cluster (R484 to R486) -/

/-- A SHARED entry after its holders have supplied a line to cluster `c` (none: it keeps no copy): holders that kept no copy leave it; an entry without holders goes (R476, R480, R482, R486). -/
def joinHolders (s : Dev) (e : DirEnt) (c : Option Nat) : Dev :=
  let e1 := { e with excl := false, holders := e.holders.filter (fun h => holdsLine s h e.line) }
  match c with
  | some c => addHolder s e1 c
  | none => if e1.bcast || !e1.holders.isEmpty then putDir s e1 else delDir s e.line

/-- A demand load or a prefetch that misses to the home: the holder, if any, keeps a shared copy; alone, a demand load is installed exclusive (R471, R475, R486). `none` when the fill must wait. -/
def cohRead (s : Dev) (core line : Nat) (demand : Bool) (o : EccRead) : Option Dev :=
  let c := core / 8
  match dirFind s line with
  | some (_, e) =>
    let others := (dirHolders e).filter (fun h => h != c)
    if others.isEmpty && !e.bcast then
      installLine (if clusterDirty s c line then s else readDram s line o) core line (demand && e.excl) demand
    else
      let dirty := others.any (fun h => isHolder h && holderDirty s h line)
      let s1 := others.foldl (fun s h => if isHolder h then shareHolder s h line else s) s
      let s2 := if dirty then s1 else readDram s1 line o
      (installLine s2 core line false demand).map (fun s3 => joinHolders s3 e (if l2State s3 c = 1 then some c else none))
  | none =>
    let s1 := readDram s line o
    (installLine s1 core line demand demand).map (fun s2 =>
      if l2State s2 c = 1 then putDir s2 { line := line, excl := demand, holders := [c] } else s2)

/-- A request for ownership: every other copy is invalidated, the copy of the core's own prefetch buffer too (R471, R475, R484). `fetch`: the line's data are wanted; a line that CZERO clears is not read (10 R400). -/
def cohOwn (s : Dev) (core line : Nat) (fetch : Bool) (o : EccRead) : Option Dev :=
  let c := core / 8
  let s1 := match dirFind s line with
    | some (_, e) => invalidateHolders s e c
    | none => s
  let s2 := dropOthers s1 core line
  let held := (cFind s2 (l2Id c) line).isSome
  let s3 := if held || !fetch then s2 else readDram s2 line o
  (installLine s3 core line true true).map (fun s4 =>
    if l2State s4 c = 1 then putDir s4 { line := line, excl := true, holders := [c] } else s4)

/-- The memory controller accepts the oldest write-back of a cluster's eviction buffer (R476). -/
def cohWriteBack (s : Dev) (c : Nat) : Dev :=
  if victimMode s c then s
  else
    match evicted s c with
    | [] => s
    | x :: rest => dirLeave (toDram (setEvicted s c rest) x.line) c x.line

/-! ## I/O agents (R487 to R490) -/

/-- Every cached copy of a line is invalidated by an I/O write (R488). -/
def ioInvalidate (s : Dev) (line : Nat) : Dev :=
  match dirFind s line with
  | none => s
  | some (_, e) => delDir ((dirHolders e).foldl (fun s h =>
      if h < 24 then countCl (dropCluster s h line) h 0x04 else if isHolder h then dropHolder s h line else s) s) line

/-- What the decoder finds in a line that a partial-line write reads: a corrected line is counted, an uncorrectable one poisoned before the write covers its own words (R506). -/
def partialRead (s : Dev) (line : Nat) (o : EccRead) : Dev := decodeLine s line o

/-- Whether a cache holds a line dirty: the newest data are there, not in DRAM (R487). -/
def heldDirty (s : Dev) (line : Nat) : Bool := allHolders.any (fun h => holderDirty s h line)

/-- An I/O read returns the newest bytes and changes no cache state (R487). -/
def ioRead (s : Dev) (pa n : Nat) : List Byte × Dev :=
  (rdBytes s pa n, (linesOf pa n).foldl (fun s l => countMc s (chanOf s (64 * l)) 0x02) s)

/-- An I/O write of value bytes: untagged, coherent; a partial line is merged into the newest data, with what the decoder finds in each line read from DRAM (R488, R506). -/
def ioWriteEcc (s : Dev) (pa : Nat) (bs : List Byte) (os : List EccRead) : Dev :=
  let ls := linesOf pa bs.length
  let whole (l : Nat) : Bool := decide (pa ≤ 64 * l) && decide (64 * l + 64 ≤ pa + bs.length)
  let s0 := (ls.zipIdx).foldl (fun s e => if whole e.1 || heldDirty s e.1 then s else partialRead s e.1 (os.getD e.2 .clean)) s
  let s1 := writeUntagged (ls.foldl ioInvalidate s0) pa bs
  ls.foldl (fun s l => toDram (if whole l then s else countMc s (chanOf s (64 * l)) 0x06) l) s1

/-- An I/O write that finds no error in DRAM. -/
def ioWrite (s : Dev) (pa : Nat) (bs : List Byte) : Dev := ioWriteEcc s pa bs []

/-- Whether a stash hint of partition `part` to cluster `c` is followed for a line (R474, R490). -/
def stashOk (s : Dev) (part c line : Nat) : Bool :=
  decide (c < 24) && l2State s c == 1 && (coresOf c).any (fun j => corePart s j == part && coreMode s j != 3 && coreMode s j != 5) &&
    (partSt s part).s2.any (fun m => decide (m.pa ≤ 64 * line) && decide (64 * line + 64 ≤ m.pa + m.size)) &&
    !(((enabledWays s (l2Id c)).filter (fun w => decide (12 ≤ w))).isEmpty)

/-- One line of an I/O write with a stash hint: installed in the L2 of `c` exclusive and dirty instead of going to DRAM, or written to DRAM where the hint is ignored; a partial line is merged into the newest data, with the errors `o` where they come from DRAM (R488, R490, R506). A fill that finds the eviction buffer full waits until its oldest write-back has gone (R476) (log 153, DESIGN CHOICE). -/
def stashLine (s : Dev) (part c lo : Nat) (bs : List Byte) (o : EccRead) : Dev :=
  let l := lo / 64
  if stashOk s part c l then
    let s0 := if decide (bs.length = 64) || heldDirty s l then s else partialRead s l o
    let s1 := writeUntagged (ioInvalidate s0 l) lo bs
    let fill (s : Dev) : Option Dev :=
      fillL2 s c { line := l, excl := true, dirty := true, back := lineWords s0 l, backPoison := linePoison s0 l } ((enabledWays s (l2Id c)).filter (fun w => decide (12 ≤ w)))
    let s2 := match fill s1 with
      | some s2 => s2
      | none => (fill (cohWriteBack (countCl s1 c 0x08) c)).getD s1
    countCl (putDir s2 { line := l, excl := true, holders := [c] }) c 0x06
  else ioWriteEcc s lo bs [o]

/-- An I/O write with a stash hint, line by line (R490). -/
def ioStashWrite (s : Dev) (part c pa : Nat) (bs : List Byte) (os : List EccRead) : Dev :=
  ((linesOf pa bs.length).zipIdx).foldl (fun s e =>
    let lo := max pa (64 * e.1)
    let hi := min (pa + bs.length) (64 * e.1 + 64)
    stashLine s part c lo ((bs.drop (lo - pa)).take (hi - lo)) (os.getD e.2 .clean)) s

/-! ## Accesses of the Oasis cores (R479, R508) (log 152, DESIGN CHOICE) -/

/-- A line enters the caches of the Oasis cores, whose oldest line leaves, written back when dirty (log 152, DESIGN CHOICE). -/
def putOasis (s : Dev) (x : CLine) : Dev :=
  let l := s.cache.oasis.filter (fun y => y.line != x.line)
  match l with
  | y :: rest =>
    if l.length < 512 then modCache s (fun c => { c with oasis := l ++ [x] })
    else dirLeave (modCache (if y.dirty then toDram s y.line else s) (fun c => { c with oasis := rest ++ [x] })) 31 y.line
  | [] => modCache s (fun c => { c with oasis := [x] })

/-- The Oasis cores read a line: as sharer 31 of the directory (R471, R484, R486) (log 152, DESIGN CHOICE). -/
def oasisLoad (s : Dev) (line : Nat) : Dev :=
  if holdsLine s 31 line then s
  else
    match dirFind s line with
    | some (_, e) =>
      let others := (dirHolders e).filter isHolder
      let s1 := others.foldl (fun s h => shareHolder s h line) s
      joinHolders (putOasis (if others.any (fun h => holderDirty s h line) then s1 else readDram s1 line .clean) { line := line }) e (some 31)
    | none => putDir (putOasis (readDram s line .clean) { line := line, excl := true }) { line := line, excl := true, holders := [31] }

/-- The Oasis cores own a line and write it: every other copy goes, and the line is dirty in their caches (R471, R484). -/
def oasisStore (s : Dev) (line : Nat) (f : Dev → Dev) : Dev :=
  let s1 := match dirFind s line with | some (_, e) => invalidateHolders s e 31 | none => s
  let x : CLine := match s1.cache.oasis.find? (fun y => y.line == line) with
    | some y => if y.dirty then y else { line := line, dirty := true, excl := true, back := lineWords s1 line, backPoison := linePoison s1 line }
    | none => { line := line, dirty := true, excl := true, back := lineWords s1 line, backPoison := linePoison s1 line }
  f (putDir (putOasis s1 { x with excl := true }) { line := line, excl := true, holders := [31] })

end Sys2Proof.Machine
end

