-- ==== Sys2Proof/Machine/Arbiter.lean ====
section
/-! DEFINITION. Arbiter: the miss queues of the clusters, the credits to a home, and the arbiters on the way to a memory controller (01 R13 to R18, 05 R213, R214). -/
namespace Sys2Proof.Machine

/-- Key of a miss of a core. -/
def missKey (core line : Nat) : Nat := core * 2 ^ 40 + line

/-- A miss enters its cluster's miss queue, unless it stands there already (05 R213, R214). -/
def noteMiss (s : Dev) (core line : Nat) : Dev :=
  if (mfind s.cache.missAt (missKey core line)).isSome then s
  else modCache s (fun c => { c with missAt := mput c.missAt (missKey core line) s.smp.op })

/-- The miss is served. -/
def forgetMiss (s : Dev) (core line : Nat) : Dev := modCache s (fun c => { c with missAt := mdel c.missAt (missKey core line) })

/-- Whether an L1 data cache serves hits: ON or DRAIN (13 R493). -/
def l1Serves (s : Dev) (core : Nat) : Bool := l1State s core != 0

/-- Whether a core's L1 holds a line exclusively and is ON. -/
def l1Owns (s : Dev) (core line : Nat) : Bool :=
  l1State s core == 1 && (match cFind s core line with | some (_, x) => x.excl | none => false)

/-- Whether a cluster's L2 is ON and holds a line exclusively, itself or in its eviction buffer or victim cache (13 R471, R476, R477). -/
def l2Owns (s : Dev) (c line : Nat) : Bool :=
  l2State s c == 1 && ((match cFind s (l2Id c) line with | some (_, x) => x.excl | none => false) || (evicted s c).any (fun y => y.line == line && y.excl))

/-- Whether a core's store to a line needs nothing of the home: the line is exclusive in its cluster (13 R471). -/
def ownsHere (s : Dev) (core line : Nat) : Bool := l1Owns s core line || l2Owns s (core / 8) line

/-- Whether atomics of a core execute at the home controller: its L1 or its cluster's L2 is not ON (13 R491). -/
def cachesOff (s : Dev) (core : Nat) : Bool := l1State s core != 1 || l2State s (core / 8) != 1

/-! ## Credits to a home (01 R13, R15, R18) -/

/-- Number of a source's request queue at a channel. -/
def mcQueue (ch src : Nat) : Nat := 1024 + 32 * ch + src

/-- Whether a cluster's request may go to a channel: a credit of its miss queue into the mesh, and one of its request queue at the channel. -/
def homeCredit (s : Dev) (c ch : Nat) : Bool := mayIssue s (64 + c) && mayIssue s (mcQueue ch c)

/-- The request goes under both credits; CREDIT_RETURN gives them back. -/
def takeHome (s : Dev) (c ch : Nat) : Dev := takeCredit (takeCredit s (64 + c)) (mcQueue ch c)

/-- The request stalls on the queue that has no credit (R15). -/
def stallHome (s : Dev) (c ch : Nat) : Dev :=
  if mayIssue s (64 + c) then countMc (stallOn s (mcQueue ch c)) ch 0x09 else countCl (stallOn s (64 + c)) c 0x09

/-- A cluster's request to the home of a line: it stalls without credits, waits for room in the eviction buffer (R476), or is done. -/
def toHome (s : Dev) (c line : Nat) (f : Dev → Option Dev) : Option Dev × Dev :=
  let ch := chanOf s (64 * line)
  if !(homeCredit s c ch) then (none, stallHome s c ch)
  else
    match f (takeHome s c ch) with
    | some s1 => (some s1, s1)
    | none => (none, countCl s c 0x08)

/-! ## Arbiters (05 R213, R214) -/

/-- The next of `n` requesters after the one granted last that has a request: round-robin. -/
def rrNext (last n : Nat) (l : List Nat) : Option Nat :=
  (rangeFrom (last + 1) n).findSome? (fun i => if l.contains (i % n) then some (i % n) else none)

/-- Whether a core's cluster holds a line where a load or a fetch can be served without the home. -/
def inCluster (s : Dev) (core line : Nat) : Bool :=
  ((cFind s core line).isSome && l1Serves s core) || (prefetched s core).contains line ||
    ((cFind s (l2Id (core / 8)) line).isSome && l2State s (core / 8) != 0)

/-- Lines for which a thread of a core has a request in the L2 miss queue: a fetch or a load that misses, and ownership for its oldest store or its atomic. -/
def threadMisses (s : Dev) (t : Nat) : List Nat :=
  let core := t / 8
  let x := thr s t
  let own (atomic : Bool) (line : Nat) : List Nat := if ownsHere s core line && !(atomic && cachesOff s core) then [] else [line]
  (match mfind s.cache.fetch t with | some l => if x.st == .running && !(inCluster s core l) then [l] else [] | none => []) ++
  x.accs.flatMap (fun a =>
    if a.uncached || a.phase != .issued then []
    else if accIsAtomic a.op then own true (a.pa / 64)
    else if inCluster s core (a.pa / 64) || (evicted s (core / 8)).any (fun y => y.line == a.pa / 64) then [] else [a.pa / 64]) ++
  (match x.storeBuf.head? with | some e => if e.kind == .store || e.kind == .zero then own false (e.pa / 64) else [] | none => [])

/-- When a miss of a core entered the miss queue. -/
def missTime (s : Dev) (core line : Nat) : Nat := mget (fun _ => 0) s.cache.missAt (missKey core line)

/-- The requests of a core that its threads' issue order puts first (log 128, DESIGN CHOICE). -/
def coreHead (s : Dev) (core : Nat) : List Nat :=
  let l := (rangeFrom (8 * core) 8).flatMap (threadMisses s)
  l.filter (fun x => l.all (fun y => decide (missTime s core x ≤ missTime s core y)))

/-- The request at the head of a cluster's miss queue: the eight cores are granted round-robin (log 128, DESIGN CHOICE). -/
def clusterHead (s : Dev) (c : Nat) : Option (Nat × List Nat) :=
  (rrNext (mget (fun _ => 7) s.cache.lastCore c) 8 ((rangeFrom 0 8).filter (fun j => !((coreHead s (8 * c + j)).isEmpty)))).map
    (fun j => (8 * c + j, coreHead s (8 * c + j)))

/-- Whether a cluster can present a request to a channel: it has the credits, and room for the line its fill may evict (01 R15, 13 R476). -/
def canPresent (s : Dev) (c ch : Nat) : Bool := homeCredit s c ch && (victimMode s c || decide ((evicted s c).length < 16))

/-- Requests that stand at a channel, with their age: the head request of a cluster that can present it, and the accesses that other sources have asked for at this instant (R213, R479) (log 128, DESIGN CHOICE). -/
def chanSources (s : Dev) (ch : Nat) : List (Nat × Nat) :=
  (s.cache.asks.filterMap (fun e => if e.1 / 32 = ch ∧ e.2 = s.smp.op ∧ mayIssue s (mcQueue ch (e.1 % 32)) then some (e.1 % 32, e.2) else none)) ++
  ((rangeFrom 0 24).filter (fun c => canPresent s c ch)).filterMap (fun c =>
    match clusterHead s c with
    | some (core, ls) =>
      match ls.find? (fun l => chanOf s (64 * l) == ch) with
      | some l => some (c, missTime s core l)
      | none => none
    | none => none)

/-- Weight of a source: 0 counts as 1 (R214). -/
def sourceWeight (s : Dev) (ch src : Nat) : Nat :=
  max 1 (bitsOf (reg s (MC_ARB_WEIGHT ch (src / 16))) (4 * (src % 16) + 3, 4 * (src % 16)))

/-- The source of the requests `l` that a memory controller grants next, by MC_ARB.MODE (R214): round-robin, the oldest request with ties round-robin, or up to the source's weight in a row. -/
def pickSource (s : Dev) (ch : Nat) (l : List (Nat × Nat)) : Option Nat :=
  let last := mget (fun _ => 31) s.cache.lastSrc ch
  let all := l.map (·.1)
  match fget s (MC_ARB ch) MC_ARB_MODE with
  | 1 => rrNext last 32 ((l.filter (fun e => l.all (fun f => decide (e.2 ≤ f.2)))).map (·.1))
  | 2 => if all.contains last && decide (mget (fun _ => 0) s.cache.srcRun ch < sourceWeight s ch last) then some last else rrNext last 32 all
  | _ => rrNext last 32 all

/-- The source that a memory controller grants next. -/
def nextSource (s : Dev) (ch : Nat) : Option Nat := pickSource s ch (chanSources s ch)

/-- Whether a memory controller grants a request of a source that asks now (R213, R214) (log 128, DESIGN CHOICE). -/
def grantAt (s : Dev) (ch src : Nat) : Bool := pickSource s ch ((src, s.smp.op) :: (chanSources s ch).filter (fun e => e.1 != src)) == some src

/-- Whether the arbiters grant a core's request for a line now: its cluster's miss queue and the line's memory controller (R213). A request that cannot be presented goes on to its stall. -/
def granted (s : Dev) (core line : Nat) : Bool :=
  match clusterHead s (core / 8) with
  | some (j, ls) => j == core && ls.contains line &&
      (!(canPresent s (core / 8) (chanOf s (64 * line))) || nextSource s (chanOf s (64 * line)) == some (core / 8))
  | none => false

/-- A source has been granted at a channel (log 128, DESIGN CHOICE). -/
def noteSource (s : Dev) (ch src : Nat) : Dev :=
  let run := if mget (fun _ => 31) s.cache.lastSrc ch = src then mget (fun _ => 0) s.cache.srcRun ch + 1 else 1
  modCache s (fun c => { c with lastSrc := mset (fun _ => 31) c.lastSrc ch src, srcRun := mset (fun _ => 0) c.srcRun ch run, asks := mdel c.asks (32 * ch + src) })

/-- A request of a core has been granted: both arbiters move on, and the request leaves the miss queue. -/
def noteGrant (s : Dev) (core line : Nat) : Dev :=
  let s1 := noteSource s (chanOf s (64 * line)) (core / 8)
  modCache s1 (fun c => { c with lastCore := mset (fun _ => 7) c.lastCore (core / 8) (core % 8), missAt := mdel c.missAt (missKey core line) })

/-! ## DRAM accesses of the sources 24 to 31 (R213, R214, 01 R13, R15, R18, 13 R479) -/

/-- Channels that `n` bytes at `pa` touch. -/
def chansOf (s : Dev) (pa n : Nat) : List Nat := ((linesOf pa n).map (fun l => chanOf s (64 * l))).eraseDups

/-- What an access of a source to `n` bytes of DRAM waits for: a credit of its request queue at each channel, and the grant of the channel's arbiter (log 141, DESIGN CHOICE). -/
def dramWaits (s : Dev) (src pa n : Nat) : List Nat :=
  (chansOf s pa n).flatMap (fun ch => if !(mayIssue s (mcQueue ch src)) then [mcQueue ch src] else if grantAt s ch src then [] else [2 ^ 21 + 32 * ch + src])

/-- The same for the parts of a range (log 141, DESIGN CHOICE). -/
def partsWait (s : Dev) (src : Nat) (l : List (Nat × Nat)) : List Nat := l.flatMap (fun p => dramWaits s src p.1 p.2)

/-- The channels of an access have granted its source. -/
def dramTaken (s : Dev) (src pa n : Nat) : Dev := (chansOf s pa n).foldl (fun s ch => noteSource s ch src) s

def partsTaken (s : Dev) (src : Nat) (l : List (Nat × Nat)) : Dev := l.foldl (fun s p => dramTaken s src p.1 p.2) s

end Sys2Proof.Machine
end

