-- ==== Sys2Proof/Machine/Stage2.lean ====
section
/-! DEFINITION. Stage2: the stage-2 translation of a partition (12 R438 to R450, R462, R466). Oasis's tables are held as the list of mappings they express. -/
namespace Sys2Proof.Machine

/-- What a stage-2 lookup finds: physical address, permissions (R, W, X are bits 0 to 2), bytes of the leaf as a power of two; or the fault KIND and LEVEL of TFAULT. -/
inductive S2Result where
  | ok (pa perm size : Nat)
  | fault (kind level : Nat)
deriving DecidableEq, Repr

/-- The mapping that holds an intermediate physical address (log 32, DESIGN CHOICE). -/
def s2Map (s : Dev) (part ipa : Nat) : Option S2Ent :=
  (partSt s part).s2.find? (fun m => decide (m.ipa ≤ ipa) && decide (ipa < m.ipa + m.size))

/-- Bytes of one entry of a table of each level (R441). -/
def levelSize (l : Nat) : Nat := 2 ^ (39 - 9 * l)

/-- log2 of the largest leaf of a mapping at an address: a leaf lies whole inside the mapping and is aligned on both sides (R441). -/
def leafLog (m : S2Ent) (ipa : Nat) : Nat :=
  let fits (k : Nat) : Bool :=
    let lo := ipa / 2 ^ k * 2 ^ k
    decide (m.ipa ≤ lo) && decide (lo + 2 ^ k ≤ m.ipa + m.size) && (m.pa + (lo - m.ipa)) % 2 ^ k == 0
  if fits 30 then 30 else if fits 21 then 21 else 12

/-- Level of the invalid entry a walk meets at an unmapped address: not above the first level at which no mapping shares the entry's range; below it only where Oasis keeps a table that maps nothing, which the spec leaves to it (R466) (log 32, DESIGN CHOICE). -/
def missLevel (s : Dev) (part ipa : Nat) : Nat :=
  let meets (l : Nat) : Bool :=
    let n := levelSize l
    let lo := ipa / n * n
    (partSt s part).s2.any (fun m => decide (m.ipa < lo + n) && decide (lo < m.ipa + m.size))
  max (if !(meets 0) then 0 else if !(meets 1) then 1 else if !(meets 2) then 2 else 3)
    (Config.stage2Level part ((partSt s part).s2.map (fun m => [m.ipa, m.pa, m.size, m.perm])) ipa).val

/-- The stage-2 walk of an address (R449). -/
def stage2 (s : Dev) (part ipa : Nat) : S2Result :=
  if 2 ^ 48 ≤ ipa then .fault 2 0
  else
    match s2Map s part ipa with
    | none => .fault 2 (missLevel s part ipa)
    | some m =>
      let pa := m.pa + (ipa - m.ipa)
      let k := leafLog m ipa
      if 2 ^ 46 ≤ pa then .fault 5 (if k = 30 then 1 else if k = 21 then 2 else 3)
      else .ok pa (if nbit m.perm 1 && !(nbit m.perm 0) then m.perm + 1 else m.perm) k

/-- The I/O translation cache takes a translation it made (R462): 1,024 entries, the oldest leaves (log 34, DESIGN CHOICE). -/
def ioInstall (s : Dev) (part ipa pa perm size : Nat) : Dev :=
  let e : IoEnt := ⟨part, ipa / 2 ^ size, pa / 2 ^ size, perm, size⟩
  if s.ioTlb.contains e then s
  else { s with ioTlb := (if s.ioTlb.length < 1024 then s.ioTlb else s.ioTlb.drop 1) ++ [e] }

/-- Stage 2 for an agent that passes it alone (R439): the physical address where the access is permitted. -/
def ioTranslate (s : Dev) (part ipa : Nat) (write : Bool) : Option Nat × Dev :=
  match s.ioTlb.find? (fun e => e.part == part && e.ipaPage == ipa / 2 ^ e.size) with
  | some e => (if nbit e.perm (if write then 1 else 0) then some (e.physPage * 2 ^ e.size + ipa % 2 ^ e.size) else none, s)
  | none =>
    match stage2 s part ipa with
    | .fault _ _ => (none, s)
    | .ok pa perm size => (if nbit perm (if write then 1 else 0) then some pa else none, ioInstall s part ipa pa perm size)

/-- The parts of a range that lie in one 4 KiB page each: (address, bytes). -/
def pageParts : Nat → Nat → Nat → List (Nat × Nat)
  | 0, _, _ => []
  | fuel + 1, a, n =>
    if n = 0 then []
    else
      let k := min n (4096 - a % 4096)
      (a, k) :: pageParts fuel (a + k) (n - k)

/-- Physical parts of a range in DRAM; `none` when stage 2 refuses any part of it or it lies outside DRAM (06 R220). -/
def ioRange (s : Dev) (part ipa n : Nat) (write : Bool) : Option (List (Nat × Nat)) × Dev :=
  (pageParts (n / 4096 + 2) ipa n).foldl (fun x p =>
    match x with
    | (none, s) => (none, s)
    | (some l, s) =>
      match ioTranslate s part p.1 write with
      | (some pa, s1) => if inDram s1 pa then (some (l ++ [(pa, p.2)]), s1) else (none, s1)
      | (none, s1) => (none, s1)) (some [], s)

/-- Bytes of the parts of a range, read coherently by a source (13 R479, R487). -/
def ioReadParts (s : Dev) (src : Nat) (l : List (Nat × Nat)) : List Byte × Dev :=
  l.foldl (fun x p => let r := ioRead x.2 p.1 p.2; (x.1 ++ r.1, r.2)) ([], partsTaken s src l)

/-- Whether a word of the parts is poisoned (02 R66). -/
def partsPoisoned (s : Dev) (l : List (Nat × Nat)) : Bool := l.any (fun p => anyPoison s p.1 p.2)

/-- Bytes written by a source over the parts of a range (13 R479, R488), with a stash hint where `stash` names a cluster (06 R236). -/
def ioWriteParts (s : Dev) (src part : Nat) (stash : Option Nat) (l : List (Nat × Nat)) (bs : List Byte) : Dev :=
  (l.foldl (fun (x : List Byte × Dev) p =>
    (x.1.drop p.2, match stash with
      | some c => ioStashWrite x.2 part c p.1 (x.1.take p.2) []
      | none => ioWrite x.2 p.1 (x.1.take p.2))) (bs, partsTaken s src l)).2

/-- Whether a page of a TLB entry meets the physical range. -/
def tlbMeets (lo n : Nat) (e : TlbEnt) : Bool := decide (e.phys < lo + n) && decide (lo < e.phys + 2 ^ e.size)

/-! ## Changes of a partition's stage 2 (R459, R461) -/

/-- Cores of a partition. -/
def partCores (s : Dev) (part : Nat) : List Nat := (rangeFrom 0 192).filter (fun c => corePart s c == part)

/-- Every combined and stage-2 entry of a partition's cores and its I/O translations leave (R461). -/
def tlbDropAll (s : Dev) (part : Nat) : Dev :=
  { s with
    tlb := s.tlb.map (fun e => if corePart s e.1 = part then (e.1, { e.2 with itlb := [], dtlb := [], l2 := [] }) else e)
    ioTlb := s.ioTlb.filter (fun e => e.part != part) }

/-- Whether an access to a physical address may complete an invalidation: a translation of its core that stays maps it. One translated by a removed entry, or by an entry that has been replaced since, must be accepted first (R459) (log 56, DEDUCED). -/
def keptMaps (s : Dev) (core : Nat) (gone : TlbEnt → Bool) (pa : Nat) : Bool :=
  let x := mget (fun _ => {}) s.tlb core
  let l := x.itlb ++ x.dtlb ++ x.l2
  l.any (fun e => !e.2.s2 && !(gone e.2) && tlbMeets pa 1 e.2) && !(l.any (fun e => !e.2.s2 && gone e.2 && tlbMeets pa 1 e.2))

/-- Whether an invalidation may complete: every store-buffer entry has drained, and every access has been performed, that a removed entry translated (R459) (log 56, DEDUCED). -/
def partQuiet (s : Dev) (part : Nat) (gone : TlbEnt → Bool) : Bool :=
  s.threads.all (fun e => thrPart s e.1 != part ||
    (e.2.storeBuf.all (fun b => keptMaps s (e.1 / 8) gone b.pa) &&
      e.2.accs.all (fun a => a.phase == .done || a.phase == .returned || keptMaps s (e.1 / 8) gone a.pa)))

end Sys2Proof.Machine
end

