-- ==== Sys2Proof/Machine/Translate.lean ====
section
/-! DEFINITION. Translate: the two-stage translation of thread accesses, the TLBs, walks and invalidations (12). -/
namespace Sys2Proof.Machine

/-! ## Faults (R464) -/

/-- A translation that failed: KIND, STAGE, LEVEL, WALK and USER of TFAULT, the IPA of a stage-2 fault, and BE_KIND of a failed table read. -/
structure TFault where
  kind : Nat
  stage : Nat := 0
  level : Nat := 0
  walk : Bool := false
  user : Bool := false
  ipa : Nat := 0
  be : Nat := 0
  /-- where the access would have gone, for a permission fault -/
  pa : Option Nat := none
deriving DecidableEq, Repr

/-- The vector a fault is taken through (R464). -/
def TFault.vector (f : TFault) : Nat := if f.kind ≤ 5 then 4 else if f.kind ≤ 10 then 5 else 6

/-- TFAULT as a register (R464). -/
def TFault.word (f : TFault) : Nat := f.kind + 16 * f.stage + 32 * f.level + 128 * b2n f.walk + 256 * b2n f.user

/-! ## TLBs (R451 to R455) -/

def tlbOf (s : Dev) (core : Nat) : TlbSt := mget (fun _ => {}) s.tlb core
def setTlb (s : Dev) (core : Nat) (x : TlbSt) : Dev := { s with tlb := mset (fun _ => {}) s.tlb core x }

/-- R, W, X required of an access, as bits 0, 1, 2 (R446). -/
def needBits : AccKind → Nat
  | .load => 1
  | .store => 2
  | .atomic => 3
  | .fetch => 4

/-- The required bits that `perm` lacks (log 45, DEDUCED). -/
def lacking (k : AccKind) (perm : Nat) : Nat := needBits k - Nat.land (needBits k) perm

/-- A combined entry that maps a virtual address for an ASID (R452). -/
def tlbMatch (asid va : Nat) (e : TlbEnt) : Bool :=
  !e.s2 && e.page == va / 2 ^ e.size && (e.global || e.asid == asid)

/-- Whether a combined entry permits an access at a level; with stage 1 off it has no user bit (R446, R447) (log 44, DEDUCED). -/
def tlbPermits (e : TlbEnt) (k : AccKind) (sup en : Bool) : Bool :=
  lacking k e.perm == 0 && (!en || (if sup then !(k == .fetch && e.user) else e.user))

/-- The physical address an entry gives. -/
def tlbPhys (e : TlbEnt) (va : Nat) : Nat := e.phys + va % 2 ^ e.size

/-- Slot of a first-level TLB that maps an address (log 34, DESIGN CHOICE). -/
def tlbSlot (m : Map TlbEnt) (asid va : Nat) : Option (Nat × TlbEnt) := m.find? (fun e => tlbMatch asid va e.2)

/-- Whether two combined entries would both serve one address (R456). -/
def tlbClash (e f : TlbEnt) : Bool :=
  !e.s2 && !f.s2 && (e.global || f.global || e.asid == f.asid) && !(e.page == f.page && e.size == f.size && e.asid == f.asid) &&
    decide (e.page * 2 ^ e.size < (f.page + 1) * 2 ^ f.size) && decide (f.page * 2 ^ f.size < (e.page + 1) * 2 ^ e.size)

/-- A TLB without the old entries for what a new one maps: from now on accesses use the new one (R456) (log 56, DEDUCED). -/
def withoutOld (m : Map TlbEnt) (e : TlbEnt) : Map TlbEnt := m.filter (fun x => !(tlbClash x.2 e))

/-- A fill of a fully associative TLB of 48 slots: an entry for the same page, a free slot, or the pseudo-LRU one (R453). -/
def tlbFill (m : Map TlbEnt) (nodes : List Nat) (e : TlbEnt) : Map TlbEnt × List Nat :=
  let m := withoutOld m e
  let same := m.find? (fun x => x.2.page == e.page && x.2.size == e.size && x.2.asid == e.asid)
  let slot := match same with
    | some x => x.1
    | none => ((rangeFrom 0 48).find? (fun i => (mfind m i).isNone)).getD (plruVictim 8 nodes 0 48)
  (mput m slot e, plruTouch 8 nodes 0 48 slot)

/-- A first-level fill: the instruction TLB for fetches, the data TLB otherwise (R455). -/
def l1TlbFill (x : TlbSt) (k : AccKind) (e : TlbEnt) : TlbSt :=
  if k = .fetch then
    let r := tlbFill x.itlb x.itlbPlru e
    { x with itlb := r.1, itlbPlru := r.2 }
  else
    let r := tlbFill x.dtlb x.dtlbPlru e
    { x with dtlb := r.1, dtlbPlru := r.2 }

/-- Ways of a set of the L2 TLB that hold an entry, as (way, entry). -/
def l2Ways (x : TlbSt) (set : Nat) : List (Nat × TlbEnt) :=
  (rangeFrom 0 8).filterMap (fun w => (mfind x.l2 (set * 8 + w)).map (fun e => (w, e)))

/-- A fill of the L2 TLB: set by the page number at the entry's own size (R453). -/
def l2TlbFill (x : TlbSt) (e : TlbEnt) : TlbSt :=
  let x := { x with l2 := withoutOld x.l2 e }
  let set := e.page % 256
  let same := (l2Ways x set).find? (fun y => y.2.page == e.page && y.2.size == e.size && y.2.asid == e.asid && y.2.s2 == e.s2)
  let nodes := mget (fun _ => []) x.l2Plru set
  let way := match same with
    | some y => y.1
    | none => ((rangeFrom 0 8).find? (fun w => (mfind x.l2 (set * 8 + w)).isNone)).getD (plruVictim 8 nodes 0 8)
  { x with l2 := mput x.l2 (set * 8 + way) e, l2Plru := mset (fun _ => []) x.l2Plru set (plruTouch 8 nodes 0 8 way) }

/-- The combined entry of the L2 TLB for an address: the set of each size is probed (R453). -/
def l2TlbFind (x : TlbSt) (asid va : Nat) : Option TlbEnt :=
  [12, 21, 30].findSome? (fun z => ((l2Ways x (va / 2 ^ z % 256)).find? (fun y => y.2.size == z && tlbMatch asid va y.2)).map (·.2))

/-- A TLB lookup that permits the access: the first-level hit is touched; an L2 hit is touched and refills the first level (R453 to R455). A miss, or an entry that refuses the access, answers none: the page is walked. -/
def tlbLookup (s : Dev) (t va : Nat) (k : AccKind) (sup : Bool) : Option (Nat × Dev) :=
  let x := thr s t
  let c := t / 8
  let tl := tlbOf s c
  let en := nbit x.tctl 0
  match tlbSlot (if k = .fetch then tl.itlb else tl.dtlb) x.asid va with
  | some (i, e) =>
    if tlbPermits e k sup en then
      some (tlbPhys e va, setTlb s c (if k = .fetch then { tl with itlbPlru := plruTouch 8 tl.itlbPlru 0 48 i } else { tl with dtlbPlru := plruTouch 8 tl.dtlbPlru 0 48 i }))
    else none
  | none =>
    match l2TlbFind tl x.asid va with
    | some e => if tlbPermits e k sup en then some (tlbPhys e va, setTlb s c (l1TlbFill (l2TlbFill tl e) k e)) else none
    | none => none

/-! ## The walk (R449) -/

/-- What a walk finds: the combined entry and the stage-2 entries it used. -/
structure WalkOut where
  pa : Nat
  comb : TlbEnt
  used : List TlbEnt
deriving DecidableEq, Repr

/-- A stage-2 entry for the L2 TLB (log 32, DESIGN CHOICE). -/
def s2Ent (ipa pa perm size : Nat) : TlbEnt :=
  { s2 := true, page := ipa / 2 ^ size, size := size, perm := perm, phys := pa - pa % 2 ^ size }

/-- The stage-2 lookup of a walker: a stage-2 entry of the core's L2 TLB, else the walk of the tables (R451, R455). -/
def stage2On (s : Dev) (core part ipa : Nat) : S2Result :=
  match [12, 21, 30].findSome? (fun z => (l2Ways (tlbOf s core) (ipa / 2 ^ z % 256)).find? (fun y => y.2.s2 && y.2.size == z && y.2.page == ipa / 2 ^ z)) with
  | some e => .ok (tlbPhys e.2 ipa) e.2.perm e.2.size
  | none => stage2 s part ipa

/-- Level of a stage-2 leaf by its size. -/
def sizeLevel (size : Nat) : Nat := if size = 30 then 1 else if size = 21 then 2 else 3

/-- Fields of a table entry (R442, R443). -/
def teV (e : Nat) : Bool := nbit e 0
def teLeaf (e : Nat) : Bool := nbit e 1
def teAddr (e : Nat) : Nat := nbits e 47 12 * 4096
/-- R, W, X: an entry with W and no R is read as R = 1. -/
def tePerm (e : Nat) : Nat := (if nbit e 2 || nbit e 3 then 1 else 0) + 2 * b2n (nbit e 3) + 4 * b2n (nbit e 4)

/-- A stage-1 table entry is read at a physical table address (R445, R449). -/
def readTable (s : Dev) (pa idx level : Nat) : Except TFault Nat :=
  if 2 ^ 42 ≤ pa then .error { kind := 4, level := level }
  else if !(inDram s (pa + 8 * idx)) then .error { kind := 11, level := level, be := 3 }
  else if poisonAt s ((pa + 8 * idx) / 8) then .error { kind := 11, level := level, be := 1 }
  else .ok (leNat (rdBytes s (pa + 8 * idx) 8))

/-- log2 of the leaf size of a level (R441). -/
def leafBits (level : Nat) : Nat := 39 - 9 * level

/-- Stage 1: the leaf's entry, its level, and the stage-2 entries used for the tables (R449). -/
def walkStage1 (s : Dev) (core part va : Nat) : Nat → Nat → Nat → List TlbEnt → Except TFault (Nat × Nat × List TlbEnt)
  | 0, _, level, _ => .error { kind := 3, level := level }
  | fuel + 1, t, level, used =>
    match stage2On s core part t with
    | .fault k l => .error { kind := k, stage := 1, level := l, walk := true, ipa := t }
    | .ok pa perm size =>
      if !(nbit perm 0) then .error { kind := 6, stage := 1, level := sizeLevel size, walk := true, ipa := t }
      else
        match readTable s pa (va / 2 ^ leafBits level % 512) level with
        | .error f => .error f
        | .ok e =>
          let used := used ++ [s2Ent t pa perm size]
          if !(teV e) then .error { kind := 2, level := level }
          else if teLeaf e && level == 0 then .error { kind := 3, level := level }
          else if !(teLeaf e) && level == 3 then .error { kind := 3, level := level }
          else if teLeaf e then .ok (e, level, used)
          else walkStage1 s core part va fuel (teAddr e) (level + 1) used

/-- KIND of a refusal by the bits lacking: READ, WRITE or EXEC denied (R464) (log 45, DEDUCED). -/
def deniedKind (lack : Nat) : Nat := if nbit lack 0 then 6 else if nbit lack 1 then 7 else 8

/-- The walk of a thread's address (R449), with the permissions of R446 to R448. With TCTL.EN = 0 stage 1 is skipped (log 44, DEDUCED). -/
def walk (s : Dev) (t va : Nat) (k : AccKind) (sup : Bool) : Except TFault WalkOut :=
  let x := thr s t
  let part := thrPart s t
  let mark (f : TFault) : TFault := { f with user := !sup }
  if 2 ^ 48 ≤ va then .error (mark { kind := 1 })
  else
    let leaf : Except TFault (Option (Nat × Nat) × Nat × List TlbEnt) :=
      if nbit x.tctl 0 then
        match walkStage1 s (t / 8) part va 4 x.ttb 0 [] with
        | .error f => .error f
        | .ok (e, level, used) =>
          let z := leafBits level
          .ok (some (e, level), teAddr e / 2 ^ z * 2 ^ z + va % 2 ^ z, used)
      else .ok (none, va, [])
    match leaf with
    | .error f => .error (mark f)
    | .ok (leaf, ipa, used) =>
      match stage2On s (t / 8) part ipa with
      | .fault kd l => .error (mark { kind := kd, stage := 1, level := l, ipa := ipa })
      | .ok pa perm2 size2 =>
        let used := used ++ [s2Ent ipa pa perm2 size2]
        let size1 := match leaf with | some (_, l) => leafBits l | none => 30
        let size := min size1 size2
        let perm1 := match leaf with | some (e, _) => tePerm e | none => 7
        let user := match leaf with | some (e, _) => nbit e 5 | none => false
        let glob := match leaf with | some (e, _) => nbit e 6 | none => false
        let refuse1 : Option TFault := match leaf with
          | none => none
          | some (e, l) =>
            if !sup && !(nbit e 5) then some { kind := 9, level := l }
            else if sup && nbit e 5 && k == .fetch then some { kind := 10, level := l }
            else if lacking k perm1 ≠ 0 then some { kind := deniedKind (lacking k perm1), level := l }
            else none
        match refuse1 with
        | some f => .error (mark { f with pa := some pa })
        | none =>
          if lacking k perm2 ≠ 0 then
            .error (mark { kind := deniedKind (lacking k perm2), stage := 1, level := sizeLevel size2, ipa := ipa, pa := some pa })
          else
            .ok ⟨pa, { page := va / 2 ^ size, size := size, asid := x.asid, global := glob, user := user, perm := Nat.land perm1 perm2, phys := pa - pa % 2 ^ size }, used⟩

/-- Lines of DRAM from which a stage-1 walk reads its tables, in order (R445, R449). -/
def tableLines (s : Dev) (core part va : Nat) : Nat → Nat → Nat → List Nat
  | 0, _, _ => []
  | fuel + 1, t, level =>
    match stage2On s core part t with
    | .fault _ _ => []
    | .ok pa perm _ =>
      let a := pa + 8 * (va / 2 ^ leafBits level % 512)
      if !(nbit perm 0) || !(inDram s a) then []
      else
        match readTable s pa (va / 2 ^ leafBits level % 512) level with
        | .error _ => [a / 64]
        | .ok e => a / 64 :: (if teV e && !(teLeaf e) && level != 3 then tableLines s core part va fuel (teAddr e) (level + 1) else [])

/-- The walker reads a line of a table through the cluster's L2, which fills from the home where it does not hold it (R445, 13 R475); `none` while that request stalls. -/
def tableRead (s : Dev) (core line : Nat) : Option Dev × Dev :=
  let c := core / 8
  let hit (s : Dev) : Dev := countCl (cTouchLine s (l2Id c) line) c 0x02
  if l2State s c != 0 && (cFind s (l2Id c) line).isSome then (some (hit s), hit s)
  else if (evicted s c).any (fun y => y.line == line) then
    match (if l2State s c = 1 then reinstall s c line else some s) with
    | some s1 => (some s1, s1)
    | none => (none, countCl s c 0x08)
  else toHome s c line (fun s => cohRead (countCl s c 0x03) core line false .clean)

/-- The table reads of a walk, in order; `none` while one of them stalls. -/
def readTables (core : Nat) : List Nat → Dev → Option Dev × Dev
  | [], s => (some s, s)
  | l :: ls, s =>
    match tableRead s core l with
    | (some s1, _) => readTables core ls s1
    | (none, s1) => (none, s1)

/-- The table reads that a walk of a thread makes: none with stage 1 off. -/
def walkReads (s : Dev) (t va : Nat) : Option Dev × Dev :=
  readTables (t / 8) (if nbit (thr s t).tctl 0 && decide (va < 2 ^ 48) then tableLines s (t / 8) (thrPart s t) va 4 (thr s t).ttb 0 else []) s

/-- A walk that succeeded installs its entries (R455) (log 44, DEDUCED). -/
def installWalk (s : Dev) (t : Nat) (k : AccKind) (w : WalkOut) : Dev :=
  let c := t / 8
  let x := w.used.foldl l2TlbFill (tlbOf s c)
  setTlb s c (l1TlbFill (l2TlbFill x w.comb) k w.comb)

/-- An address translated at once, by the TLBs or by a walk: the accesses of an exception entry and return (11 R416, R421, R427) (log 44, DEDUCED). -/
def translateNow (s : Dev) (t va : Nat) (k : AccKind) (sup : Bool) : Except TFault (Nat × Dev) :=
  if 2 ^ 48 ≤ va then .error { kind := 1, user := !sup }
  else
    match tlbLookup s t va k sup with
    | some r => .ok r
    | none =>
      match walk s t va k sup with
      | .error f => .error f
      | .ok w => .ok (w.pa, installWalk (countCore (walkReads s t va).2 t 0x08) t k w)

/-! ## Invalidation (R457 to R459) -/

/-- Combined entries that `gone` names leave every TLB of the partition's cores (R457) (log 56, DEDUCED). -/
def tlbDrop (s : Dev) (part : Nat) (gone : TlbEnt → Bool) : Dev :=
  let keep (m : Map TlbEnt) : Map TlbEnt := m.filter (fun e => e.2.s2 || !(gone e.2))
  { s with tlb := s.tlb.map (fun e =>
      if corePart s e.1 = part then (e.1, { e.2 with itlb := keep e.2.itlb, dtlb := keep e.2.dtlb, l2 := keep e.2.l2 }) else e) }

end Sys2Proof.Machine
end

