-- ==== Sys2Proof/Machine/Except.lean ====
section
/-! DEFINITION. Except: taking an exception, nested entry, the emergency stack, HALTED_FAULT and the return (11 R416 to R430). -/
namespace Sys2Proof.Machine

/-- THREADID (09 R363). -/
def threadId (s : Dev) (t : Nat) : Nat :=
  t % 8 + 8 * (t / 8 % 8) + 64 * (t / 64) + 2048 * b2n (corePaired s (t / 8)) + 4096 * thrPart s t + 65536 * thrWorld s t

/-- A change of level flushes the core's prefetch state (09 R342, 11 R429). -/
def flushPrefetch (s : Dev) (core : Nat) : Dev :=
  modCache s (fun c => { c with pf := mset (fun _ => []) c.pf core [], stride := mset (fun _ => []) c.stride core [], pfWant := mset (fun _ => []) c.pfWant core [] })

/-- The level of a thread is set; a change flushes prefetch state. -/
def setLevel (s : Dev) (t : Nat) (sup : Bool) : Dev :=
  let s1 := modThr s t (fun x => { x with sup := sup })
  if (thr s t).sup = sup then s1 else flushPrefetch s1 (t / 8)

/-- Where a physical address lies (21 R690). -/
inductive Place where
  | dram
  | bank (n : Nat)
  | pcie (r : Nat)
  | regs (off : Nat)
  | none
deriving DecidableEq, Repr

def placeOf (s : Dev) (pa : Nat) : Place :=
  if inDram s pa then .dram
  else
    match bankOf pa with
    | some n => .bank n
    | none =>
      if 0x380000000000 ≤ pa ∧ pa < 0x3C0000000000 then .pcie ((pa - 0x380000000000) / 0x2000000000)
      else if 0x3F0000000000 ≤ pa ∧ pa < 0x3F0010000000 then .regs (pa - 0x3F0000000000)
      else .none

/-! ## The frame (R419, R420) -/

/-- CAUSE (R420). -/
def causeWord (v : Nat) (i : ExcInfo) : Nat :=
  v + 2 ^ 6 * b2n i.inSlot + 2 ^ 7 * b2n i.deferred + 2 ^ 8 * b2n i.partBytes.isSome + 2 ^ 9 * b2n i.nested + 2 ^ 10 * b2n i.fetch +
    2 ^ 11 * b2n i.write + 2 ^ 12 * (i.partBytes.getD 0 % 16) + 2 ^ 16 * (i.dest % 32) + 2 ^ 21 * (i.beKind % 8) + 2 ^ 24 * (i.code % 1024) +
    2 ^ 34 * (i.fpflags % 32) + 2 ^ 40 * (i.orig % 64)

/-- STATE (R419). -/
def stateWord (x : Thread) : Nat := b2n x.sup + 2 * x.ipl + 64 * b2n x.emerg + 128 * x.qmode

/-- The 8 words of a frame (R419). -/
def frameWords (v : Nat) (i : ExcInfo) (prev st : Nat) : List QWord :=
  let w (n : Nat) : QWord := ⟨BitVec.ofNat 64 n, 0⟩
  [w i.resume, w i.next, w (causeWord v i), w i.faddr, i.result, w prev, w i.insn, w st]

/-- A cacheable line becomes exclusive in the core's cluster without a read of its data: every other copy is invalidated (13 R471, R484). -/
def ownWhole (s : Dev) (core line : Nat) : Dev :=
  let c := core / 8
  match cFind s core line with
  | some (_, x) =>
    if x.excl then s
    else
      let s1 := match dirFind s line with | some (_, e) => invalidateHolders s e c | none => s
      let s2 := (coresOf c).foldl (fun s j => if j = core then s else dropL1 s j line) s1
      putDir (cMod (cMod s2 core line (fun y => { y with excl := true })) (l2Id c) line (fun y => { y with excl := true })) { line := line, excl := true, holders := [c] }
  | none =>
    let s1 := match dirFind s line with | some (_, e) => invalidateHolders s e c | none => s
    let s2 := (coresOf c).foldl (fun s j => dropPrefetch (dropL1 s j line) j line) s1
    match installLine s2 core line true true with
    | some s3 => if l2State s3 c = 1 then putDir s3 { line := line, excl := true, holders := [c] } else s3
    | none => s2

/-- A whole line written by a core: into its L1 where the line is exclusive there, else into the next level that holds it, else to DRAM (13 R471, R493, R495). -/
def lineWrite (s : Dev) (core line : Nat) (f : Dev → Dev) : Dev :=
  let c := core / 8
  if (cFind s core line).isSome && l1State s core == 1 then f (markDirtyLine s core line)
  else if (cFind s (l2Id c) line).isSome && l2State s c == 1 then f (markDirtyLine (dropL1 s core line) (l2Id c) line)
  else toDram (f s) line

/-- The words of a frame are written, poison cleared (R424). -/
def putFrameWords (s : Dev) (pa : Nat) (ws : List QWord) : Dev :=
  (ws.zipIdx).foldl (fun s e => writeWord s (pa + 8 * e.2) e.1) s

/-- The frame write at `sp`, translated at supervisor level: done, or the fault with BE_KIND for a bus error and what it leaves; a bank counts a refusal and serves its words by its ports (R424, 03 R83, R87). -/
def pushFrame (s : Dev) (t sp : Nat) (emerg : Bool) (ws : List QWord) : Except (TFault × Dev) Dev :=
  match translateNow s t sp .store true with
  | .error f => .error (f, s)
  | .ok (pa, s1) =>
    match placeOf s1 pa with
    | .dram =>
      if emerg then .error ({ kind := 0, be := 0 }, s1)
      else .ok (lineWrite (ownWhole s1 (t / 8) (pa / 64)) (t / 8) (pa / 64) (fun s => putFrameWords s pa ws))
    | .bank n =>
      if !(bankUp s1 (some (t / 384)) n) then .error ({ kind := 0, be := 5 }, s1)
      else
        match bankTarget s1 (thrMaster s1 t) n pa true false with
        | .plain _ => .ok (usePortOf (putFrameWords (countCore s1 t 0x0B) pa ws) n 1 t 8 (wordsBefore s1 pa 64))
        | _ => .error ({ kind := 0, be := 0 }, noteRefused s1 (thrMaster s1 t) n)
    | _ => .error ({ kind := 0, be := 3 }, s1)

/-- A value read of 8 bytes by the device for a thread: the vector word (R418, R421). Poison is an untagged read's bus error; a place other than DRAM and banks answers with BE_KIND 3 (log 47, DEDUCED). A failure comes with what it leaves: a bank's count of a refusal, and OVERRUN (03 R83, 09 R365). -/
def readVector (s : Dev) (t va : Nat) : Except (TFault × Dev) (Nat × Dev) :=
  let word (s : Dev) (pa : Nat) : Except (TFault × Dev) (Nat × Dev) :=
    if poisonAt s (pa / 8) then .error ({ kind := 0, be := 1 }, s) else .ok ((wordAt s pa).val.toNat, s)
  match translateNow s t va .load true with
  | .error f => .error (f, s)
  | .ok (pa, s1) =>
    match placeOf s1 pa with
    | .dram => word s1 pa
    | .bank n =>
      if !(bankUp s1 (some (t / 384)) n) then .error ({ kind := 0, be := 5 }, s1)
      else
        let m := thrMaster s1 t
        match bankTarget s1 m n pa false false with
        | .refused => .error ({ kind := 0, be := 0 }, noteRefused s1 m n)
        | .plain _ => word (usePort s1 n 1 t 1) pa
        | .pair k r w =>
          let x := pairReadNote s1 k r w (pinOf s1 k m)
          let s2 := useAddr (if x.1.overrun then modThr x.2 t (fun y => { y with overrun := true }) else x.2) 1 t x.1.addr
          if x.1.poisoned then .error ({ kind := 0, be := 1 }, s2) else .ok (x.1.q.val.toNat, s2)
    | _ => .error ({ kind := 0, be := 3 }, s1)

/-- A fetch of an address at a level: translated, and only from DRAM (10 R367, R393). -/
def fetchCheck (s : Dev) (t va : Nat) (sup : Bool) : Except TFault Dev :=
  match translateNow s t va .fetch sup with
  | .error f => .error f
  | .ok (pa, s1) => if inDram s1 pa then .ok s1 else .error { kind := 0, be := 4 }

/-- Vector and BE_KIND of a failure: KIND 0 is a bus error of the access itself (log 47, DEDUCED). -/
def faultVector (f : TFault) : Nat := if f.kind = 0 then 6 else f.vector

/-- The fields a failure brings to a frame (R464). -/
def faultRegs (f : TFault) : Option (Nat × Nat) := if f.kind = 0 then none else some (f.word, if f.stage = 1 then f.ipa else 0)

/-- TFAULT and TFIPA are written at the entry; a stage-2 fault is recorded (R464, R465). -/
def noteFault (s : Dev) (t : Nat) : Option (Nat × Nat) → Dev
  | none => s
  | some (w, ipa) =>
    let s1 := modThr s t (fun x => { x with tfault := w, tfipa := ipa })
    if nbit w 4 then logLimited s1 NOTICE SB_THREAD (thrPart s t) 0x0C01 [threadId s t, ipa] else s1

/-! ## Entry (R421 to R425) -/

/-- The emergency push faulted: HALTED_FAULT, ALERT 0x0B01 and source 0xF00 + p (R425). -/
def haltFault (s : Dev) (t v : Nat) : Dev :=
  let x := thr s t
  let s1 := trcFlush (modThr s t (fun x => { x with st := .haltedFault, slot := .none, twait := none, walk := none, exc := none, cycleEnd := false, stepping := false, stepWait := false })) t
  raise (logRec s1 ALERT SB_THREAD (thrPart s t) 0x0B01 [threadId s t, v, x.ssp, x.emsp]) (0xF00 + thrPart s t)

/-- A fault inside an entry begins a new one from the SSP of the entry that failed (R422). -/
def nestInfo (v : Nat) (i : ExcInfo) (f : TFault) (fetch write : Bool) (addr : Nat) : ExcInfo :=
  { i with vector := faultVector f, nested := true, fetch := fetch, write := write, beKind := if faultVector f = 6 then f.be else 0,
           orig := v, faddr := addr, tfault := faultRegs f }

/-- Steps of an entry that remain once its frame is written: level, QMODE, IPL, the vector word and the handler's fetch (R421) (log 54, DEDUCED). -/
def enterHandler (s : Dev) (t v : Nat) : Except (TFault × Bool × Nat × Dev) (Dev × Nat) :=
  let s1 := setLevel s t true
  let s2 := modThr s1 t (fun x => { x with qmode := 0, ipl := if 16 ≤ v ∧ v ≤ 31 then v - 15 else x.ipl })
  let va := (thr s2 t).vbr + 8 * v
  match readVector s2 t va with
  | .error (f, s3) => .error (f, false, va, s3)
  | .ok (h, s3) =>
    let h := h / 4 * 4
    match fetchCheck s3 t h true with
    | .error f => .error (f, true, h, s3)
    | .ok s4 => .ok (s4, h)

/-- An EXCEPTION packet, or EXCLUDED at entry into excluded code (16 R609, R610) (log 54, DEDUCED). -/
def trcException (s : Dev) (t v resume h : Nat) : Dev :=
  if tracing s && (trcSrc s t).en && nbit (thr s t).trcctl 0 then
    if trcExcluded s t then
      if (trcSrc s t).excluded then s
      else
        let s1 := trcSend (trcFlush s t) t 0x07 []
        setTrcSrc s1 t { trcSrc s1 t with excluded := true }
    else trcSend (trcFlush s t) t 0x05 (beBytes 1 v ++ beBytes 6 resume ++ beBytes 6 h)
  else s

/-- Exception entry (R421 to R425); `st` is STATE and `prev` is PREV_SSP as the first entry of the chain found them. -/
def enter : Nat → Dev → Nat → ExcInfo → Nat → Nat → Dev
  | 0, s, t, i, _, _ => haltFault s t i.vector
  | fuel + 1, s, t, i, prev, st =>
    let s0 := noteFault s t i.tfault
    let x := thr s0 t
    -- where the frame goes: (vector, information, place, emergency), or a halt
    let plan : Option (Nat × ExcInfo × Nat × Bool) :=
      if x.emerg then
        if x.ssp < 64 ∨ x.ssp - 64 < x.emsp - 1024 then none else some (i.vector, i, x.ssp - 64, true)
      else if x.ssp < 64 ∨ x.ssp - 64 < x.stackLimit then
        if x.emsp < 64 then none else some (1, { i with orig := i.vector }, x.emsp - 64, true)
      else some (i.vector, i, x.ssp - 64, false)
    match plan with
    | none => haltFault s0 t (if x.emerg then i.vector else 1)
    | some (v, i, sp, em) =>
      let overflow := em && !x.emerg
      let s1 := modThr s0 t (fun x => { x with ssp := sp, emerg := em })
      let s2 := if overflow then logLimited s1 WARNING SB_THREAD (thrPart s1 t) 0x0B02 [] else s1
      match pushFrame s2 t sp em (frameWords v i prev st) with
      | .error (f, s3) => if em then haltFault s3 t v else enter fuel s3 t (nestInfo v i f false true sp) prev st
      | .ok s3 =>
        match enterHandler s3 t v with
        | .error (f, fetch, addr, s4) => enter fuel s4 t (nestInfo v i f fetch false addr) prev st
        | .ok (s4, h) =>
          let s5 := modThr s4 t (fun x => { x with
            pc := h, slot := .none, twait := none, walk := none, exc := none, cycleEnd := false,
            st := if x.stepping then .haltedDebug else x.st, resume := if x.stepping then .running else x.resume, stepping := false, stepWait := false })
          trcException s5 t v i.resume h

/-- Whether every store of a thread has drained: the buffer is empty and the uncached ones are performed (R424). -/
def drained (x : Thread) : Bool :=
  x.storeBuf.isEmpty && x.accs.all (fun a => !(accIsStore a.op || accIsAtomic a.op) || a.phase == .done || a.phase == .returned)

/-- Pending deferred exceptions wait behind the handler of the one taken (10 R409). -/
def holdOthers (s : Dev) (t : Nat) : Dev :=
  let sp := (thr s t).ssp
  modThr s t (fun x => { x with accs := x.accs.map (fun a => if a.trap.isSome && a.hold.isNone then { a with hold := some sp } else a) })

/-- An exception is taken: STATE and PREV_SSP are those of this instant (R421). -/
def takeNow (s : Dev) (t : Nat) (i : ExcInfo) : Dev :=
  let x := thr s t
  let s1 := enter (x.ssp / 64 + 20) (countCore s t 0x0D) t i x.ssp (stateWord x)
  let s2 := if i.deferred then holdOthers s1 t else s1
  if x.stepping && s2.dbg.gStep == some t then { s2 with dbg := { s2.dbg with gStep := none, gStatus := 0 } } else s2

/-- An exception is taken once every earlier store of the thread has drained (R424); until then it waits and the thread issues nothing. -/
def takeExc (s : Dev) (t : Nat) (i : ExcInfo) : Dev :=
  if drained (thr s t) then takeNow s t i else modThr s t (fun x => { x with exc := some i, walk := none })

/-- The deferred exception to take next: the oldest in program order, unless it waits behind the handler of one before it (10 R409). -/
def nextDeferred (x : Thread) : Option Acc := (x.accs.find? (fun a => a.trap.isSome)).filter (fun a => a.hold.isNone)

/-- A pending deferred exception is taken once earlier stores have drained, unless a delay slot is still to run (10 R408, 11 R424). It comes before an exception of the instruction at the program counter that waits for the same stores: that instruction is younger, and runs again (10 R409). -/
def tryDeferred (s : Dev) (t : Nat) : Dev :=
  let x := thr s t
  if x.st != .running || x.slot != .none || !(drained x) then s
  else
    match nextDeferred x with
    | none => s
    | some a =>
      match a.trap with
      | none => s
      | some i => takeNow (modThr s t (fun x => { x with accs := x.accs.filter (fun b => b.id != a.id), walk := none, exc := none })) t { i with resume := x.pc }

/-- An entry that waited for the thread's stores begins once they have drained and no debugger holds the thread (R424, 09 R334). -/
def resumeExc (s : Dev) (t : Nat) : Dev :=
  let x := thr s t
  if x.st != .running || !(drained x) then s
  else if x.slot == .none && (nextDeferred x).isSome then tryDeferred s t
  else
    match x.exc with
    | some i => takeNow s t i
    | none => s

/-- Where an exception of the instruction at the program counter resumes: the instruction, with its slot's next address (R418, R419, 09 R339). -/
def atInsn (x : Thread) (v insn : Nat) : ExcInfo :=
  match x.slot with
  | .exec n => { vector := v, resume := x.pc, next := n, inSlot := true, insn := insn }
  | _ => { vector := v, resume := x.pc, insn := insn }

/-- The exception that a failed translation of a data access or a fetch takes (R418, R464). -/
def faultExc (x : Thread) (insn va : Nat) (k : AccKind) (f : TFault) : ExcInfo :=
  { atInsn x (faultVector f) (if k = .fetch then 0 else insn) with
    fetch := k == .fetch, write := k == .store || k == .atomic, beKind := if faultVector f = 6 then f.be else 0,
    faddr := va, tfault := faultRegs f }

/-! ## Return (R427, R428) -/

/-- The frame at SSP is read, translated at supervisor level; a fault is ERET's own (R428). A poisoned word of the frame ends it in a bus error with BE_KIND 1: R30 counts ERET among the tagged readers, and R65 and R66 list it in neither (log 155, DESIGN CHOICE). -/
def readFrame (s : Dev) (t : Nat) : Except (TFault × Nat × Dev) (List Nat × Dev) :=
  (rangeFrom 0 8).foldl (fun acc i =>
    match acc with
    | .error f => .error f
    | .ok (l, s) =>
      match readVector s t ((thr s t).ssp + 8 * i) with
      | .error (f, s1) => .error (f, (thr s t).ssp + 8 * i, s1)
      | .ok (v, s1) => .ok (l ++ [v], s1)) (.ok ([], s))

/-- The state that a frame restores (R427) (log 48, DEDUCED). -/
def restoreFrame (s : Dev) (t : Nat) (f : List Nat) : Dev :=
  let w (i : Nat) : Nat := f.getD i 0
  let st := w 7
  let ssp := (thr s t).ssp
  let s1 := setLevel s t (nbit st 0)
  modThr s1 t (fun x => { x with
    ipl := if 16 < nbits st 5 1 then 16 else nbits st 5 1
    emerg := nbit st 6
    qmode := nbits st 8 7
    ssp := nbits (w 5) 47 6 * 64
    pc := w 0 / 4 * 4
    slot := if nbit (w 2) 6 then .exec (w 1 / 4 * 4) else .none
    accs := x.accs.map (fun a => if a.hold = some ssp then { a with hold := none } else a) })

end Sys2Proof.Machine
end

