-- ==== Sys2Proof/Machine/RegAccess.lean ====
section
/-! DEFINITION. RegAccess: what a write does to the fields of a register by their access codes (00 R4), locks (15 R573, 21 R697) and dead domains (18 R640). -/
namespace Sys2Proof.Machine

/-- Power domain of a block's registers (21 R692). -/
def blockDomain (b : BlockId) (e : Nat) : Nat :=
  match b with
  | .CYC | .SW | .PI => 76
  | .IMG => 24 + 3 * e
  | .BK => 24 + e
  | .PORT => 56 + e / 8
  | .CL => e
  | .MC => 48 + e / 2
  | .TWIN => 78
  | .HIST => 77
  | .MGR | .CFG | .SMP | .TRC | .CTR | .PWR | .DBG => 79

/-- The lock of a block: the register and field of LOCK, and those of LOCK_VIOLATION. A port's fields lock with SW_CTRL.LOCK (05). -/
structure BlockLock where
  lockReg : Nat
  lock : Nat × Nat
  violReg : Nat
  viol : Nat × Nat
  /-- source block and instance of the NOTICE (15 R573, R574) -/
  source : Nat
  inst : Nat
deriving DecidableEq, Repr

/-- The lock of a block element; `none` for blocks without one. -/
def blockLock (b : BlockId) (e : Nat) : Option BlockLock :=
  match b with
  | .MGR | .CFG | .PI => none
  | .CYC => some ⟨CYC_CTRL, CYC_CTRL_LOCK, CYC_CTRL, CYC_CTRL_LOCK_VIOLATION, SB_CYC, 0⟩
  | .IMG => some ⟨IMG_CTRL e, IMG_CTRL_LOCK, IMG_CTRL e, IMG_CTRL_LOCK_VIOLATION, SB_IMG, e⟩
  | .BK => some ⟨BK_CTRL e, BK_CTRL_LOCK, BK_CTRL e, BK_CTRL_LOCK_VIOLATION, SB_BK, e⟩
  | .SW => some ⟨SW_CTRL, SW_CTRL_LOCK, SW_CTRL, SW_CTRL_LOCK_VIOLATION, SB_SW, 0xFF⟩
  | .PORT => some ⟨SW_CTRL, SW_CTRL_LOCK, PORT_CTRL e, PORT_CTRL_LOCK_VIOLATION, SB_SW, e⟩
  | .CL => some ⟨CL_CTRL e, CL_CTRL_LOCK, CL_CTRL e, CL_CTRL_LOCK_VIOLATION, SB_CL, e⟩
  | .MC => some ⟨MC_CTRL e, MC_CTRL_LOCK, MC_CTRL e, MC_CTRL_LOCK_VIOLATION, SB_MC, e⟩
  | .TWIN => some ⟨TWIN_CTRL, TWIN_CTRL_LOCK, TWIN_CTRL, TWIN_CTRL_LOCK_VIOLATION, SB_TWIN, 0⟩
  | .HIST => some ⟨HIST_CTRL, HIST_CTRL_LOCK, HIST_CTRL, HIST_CTRL_LOCK_VIOLATION, SB_HIST, 0⟩
  | .SMP => some ⟨SMP_CTRL, SMP_CTRL_LOCK, SMP_CTRL, SMP_CTRL_LOCK_VIOLATION, SB_SMP, 0⟩
  | .TRC => some ⟨TRC_CTRL, TRC_CTRL_LOCK, TRC_CTRL, TRC_CTRL_LOCK_VIOLATION, SB_DBG, 0⟩
  | .CTR => some ⟨CTR_CTRL, CTR_CTRL_LOCK, CTR_CTRL, CTR_CTRL_LOCK_VIOLATION, SB_CTR, 0⟩
  | .PWR => some ⟨PWR_CTRL, PWR_CTRL_LOCK, PWR_CTRL, PWR_CTRL_LOCK_VIOLATION, SB_PWR, 0⟩
  | .DBG => some ⟨DBG_CTRL, DBG_CTRL_LOCK, DBG_CTRL, DBG_CTRL_LOCK_VIOLATION, SB_DBG, 0⟩

/-- Whether the block's RWL fields are locked. -/
def isLocked (s : Dev) (b : BlockId) (e : Nat) : Bool :=
  match blockLock b e with
  | none => false
  | some l => fbit s l.lockReg l.lock

/-- Partition of a writer, 0xFF for Oasis and the debug bus master (15 R573). -/
def agentPart (s : Dev) : Agent → Nat
  | .thread t => thrPart s t.val
  | _ => 0xFF

/-- A dropped write to a locked field sets LOCK_VIOLATION; its rise writes a NOTICE 0x0F20 (15 R573). -/
def lockDrop (s : Dev) (who : Agent) (b : BlockId) (e off : Nat) : Dev :=
  match blockLock b e with
  | none => s
  | some l =>
    if fbit s l.violReg l.viol then s
    else logLimited (fset s l.violReg l.viol 1) NOTICE l.source l.inst 0x0F20 [off, agentPart s who]

/-- New contents of one field (00 R4); `locked` is the block's LOCK before the write (21 R697). -/
def fieldWrite (locked : Bool) (f : FieldDef) (old v : Word) (acc : Word) : Word :=
  let o := bitsOf old (f.hi, f.lo)
  let n := bitsOf v (f.hi, f.lo)
  match f.acc with
  | .rw => putBits acc (f.hi, f.lo) n
  | .ro => acc
  | .wo => acc
  | .w1c => putBits acc (f.hi, f.lo) (o - (Nat.land o n))
  | .w1s => putBits acc (f.hi, f.lo) (Nat.lor o n)
  | .rwl => if locked then acc else putBits acc (f.hi, f.lo) n
  | .woo => if o = f.reset then putBits acc (f.hi, f.lo) n else acc

/-- Whether a locked or write-once field would change: the write of that field is dropped and LOCK_VIOLATION set (00 R4) (log 86, DEDUCED). -/
def fieldDropped (locked : Bool) (f : FieldDef) (old v : Word) : Bool :=
  let o := bitsOf old (f.hi, f.lo)
  let n := bitsOf v (f.hi, f.lo)
  match f.acc with
  | .rwl => locked && o != n
  | .woo => o != f.reset && o != n
  | _ => false

/-- The register's fields after a write of `v`, and the lock violation it causes (log 86, DEDUCED). -/
def plainWrite (s : Dev) (who : Agent) (r : RegRef) (off : Nat) (v : Word) : Dev :=
  let old := reg s off
  let lk := isLocked s r.blk r.elem
  let new := r.row.fields.foldl (fun acc f => fieldWrite lk f old v acc) old
  let s1 := setReg s off new
  if r.row.fields.any (fun f => fieldDropped lk f old v) then lockDrop s1 who r.blk r.elem (off % 2 ^ 28) else s1

/-- A field whose written value is not permitted keeps its value, and the named error bit is set (21 R708). -/
def keepField (s : Dev) (old : Word) (off : Nat) (f : Nat × Nat) (errReg : Nat) (err : Nat × Nat) : Dev :=
  fset (fset s off f (bitsOf old f)) errReg err 1

/-- `keepField` where the value written breaks the rule `ok`, the field being writable (not locked) (log 86, DEDUCED). -/
def permit (s : Dev) (old v : Word) (off : Nat) (f : Nat × Nat) (locked : Bool) (ok : Nat → Bool) (errReg : Nat) (err : Nat × Nat) : Dev :=
  if locked || ok (bitsOf v f) then s else keepField s old off f errReg err

/-- A write that stands for one field of a register: the other fields are written with their present values. -/
def writeField (s : Dev) (who : Agent) (b : BlockId) (e off : Nat) (f : Nat × Nat) (n : Nat) (act : Dev → Dev) : Dev :=
  if isLocked s b e && fget s off f != n then lockDrop s who b e off else act s

/-- Register effects happen only while the block's domain is ON; otherwise the write is dropped and sets nothing (18 R640, 21 R700). -/
def whenOn (s : Dev) (d : Nat) (f : Dev → Dev) : Dev := if domOn s d then f s else s

/-- A register that starts an access with GO takes no second one while its DONE is 0: the write is dropped as a whole (21 R707). -/
def whenDone (off : Nat) (done : Nat × Nat) (f : Dev → Dev) (s : Dev) : Dev := if fbit s off done then f s else s

/-- A command whose effect is `f` on the device (log 2, DESIGN CHOICE). -/
def onDev (s : State) (f : Dev → Dev) : Host.Outcome State Fault Refusal := .next { s with dev := f s.dev }

end Sys2Proof.Machine
end

