-- ==== Sys2Proof/Machine/Issue.lean ====
section
/-! DEFINITION. Issue: what every instruction of a thread shares: readiness, annulled slots, the fetch, comparators, register results, the program counter, deferred exceptions (09 R330 to R340, 10 R405 to R409, 16 R599 to R601). -/
namespace Sys2Proof.Machine

/-- The word of an instruction command. -/
def wordOf (i : Instr) : Nat := (encodeInsn i).getD 0

/-! ## Registers (02 R32) -/

/-- A general register; w0 reads value 0, tag 0x00. -/
def gpr (x : Thread) (r : GReg) : QWord := if r.val = 0 then QWord.zero else mget (fun _ => QWord.zero) x.gpr r.val

/-- A register write; w0 discards it, and an older access still on its way to the register no longer writes it. -/
def setGpr (x : Thread) (r : Nat) (q : QWord) : Thread :=
  if r = 0 then x
  else { x with
    gpr := mset (fun _ => QWord.zero) x.gpr r q
    accs := x.accs.map (fun a => if a.rd = r then { a with live := false } else a) }

/-- Value and tag of a register of a thread. -/
def rv (s : Dev) (t : Nat) (r : GReg) : Word := (gpr (thr s t) r).val
def rt (s : Dev) (t : Nat) (r : GReg) : Byte := (gpr (thr s t) r).tag

/-! ## Halts and comparators (16 R597 to R601) -/

/-- Whether a TAP grant reaches a thread (16 R588). -/
def tapReaches (s : Dev) (t : Nat) : Bool :=
  let l := fget s DBG_STATUS DBG_STATUS_TAP_LEVEL
  coreMode s (t / 8) != 3 && (l == 2 || (l == 1 && thrWorld s t == 1))

/-- A thread halts for the debugger at an instruction boundary (16 R597). -/
def haltThread (s : Dev) (t : Nat) : Dev :=
  trcFlush (modThr s t (fun x => { x with resume := x.st, st := .haltedDebug, walk := none })) t

/-- An instruction or an access of a thread has completed: a step that waits for it ends (16 R599). -/
def stepEnd (s : Dev) (t : Nat) : Dev :=
  let x := thr s t
  if x.stepping && x.slot == .none then
    if x.accs.any (fun a => a.trap.isNone) then modThr s t (fun x => { x with stepWait := true })
    else
    let s1 := modThr s t (fun x => { x with st := .haltedDebug, resume := .running, stepping := false, stepWait := false })
    if s1.dbg.gStep = some t then { s1 with dbg := { s1.dbg with gStep := none, gStatus := 0 } } else s1
  else s

/-- Comparators of a core, instruction (index 0 to 3) or data (4 and 5), that watch a thread (log 50, DEDUCED). -/
def cmpHits (s : Dev) (t : Nat) (data store : Bool) (va : Nat) : List CmpSt :=
  (rangeFrom (if data then 4 else 0) (if data then 2 else 4)).filterMap (fun i =>
    match mfind s.dbg.cmps (t / 8 * 8 + i) with
    | some c =>
      if nbit c.mask (t % 8) && (if data then c.va / 8 == va / 8 && nbit c.access (b2n store) else c.va == va) then some c else none
    | none => none)

/-- What comparator hits do beside a halt: ACTION trigger or both triggers the trace (16 R600, R614) (log 50, DEDUCED). -/
def cmpTrigger (s : Dev) (hits : List CmpSt) : Dev :=
  if hits.any (fun c => decide (1 ≤ c.action)) && fget s TRC_TRIG TRC_TRIG_KIND == 2 then trcTrigger s 2 else s

/-- Whether comparator hits halt the thread: ACTION halt or both, under a TAP grant that reaches it (16 R600) (log 50, DEDUCED). -/
def cmpHalts (s : Dev) (t : Nat) (hits : List CmpSt) : Bool := hits.any (fun c => c.action != 1) && tapReaches s t

/-- A data access of a thread has completed at an address (16 R600). -/
def dataHit (s : Dev) (t : Nat) (store : Bool) (va : Nat) : Dev :=
  let h := cmpHits s t true store va
  let s1 := cmpTrigger s h
  if cmpHalts s t h && (thr s1 t).st == .running then haltThread s1 t else s1

/-! ## Issue -/

/-- What comes of a thread's turn to issue: nothing more (the state says why), or the instruction runs. -/
inductive Issue where
  | no (s : Dev)
  | go (s : Dev)
deriving DecidableEq, Repr

/-- RUNNING and held back by nothing of its own (09 R330). -/
def canIssue (x : Thread) : Bool := x.st == .running && x.twait.isNone && !x.cycleEnd && x.walk.isNone && x.exc.isNone && !x.stepWait

/-- Whether a register's value is still on its way from an access (09 R329). -/
def regWaits (x : Thread) (r : GReg) : Bool :=
  x.accs.any (fun a => a.rd == r.val && a.live && a.trap.isNone && r.val != 0 && !(accIsStore a.op))

/-- Walks in progress on a core (12 R454). -/
def walksOn (s : Dev) (core : Nat) : Nat := ((rangeFrom (8 * core) 8).filter (fun t => (thr s t).walk.isSome)).length

/-- An access waits for its walk; the walker runs two at once (12 R454). -/
def waitWalk (s : Dev) (t : Nat) (w : WalkWait) : Dev :=
  if 2 ≤ walksOn s (t / 8) then s else modThr s t (fun x => { x with walk := some w })

/-- The next-line prefetch asks for the line after one that a fetch took from the L2, while PBAR is 0 (09 R341, R343) (log 35, DESIGN CHOICE). -/
def nextLine (s : Dev) (t line : Nat) : Dev := if nbit (thr s t).pctl 0 then s else wantPrefetch s (t / 8) (line + 1)

/-- A fetched line arrives: the instruction cache takes it, and the thread's fetch no longer waits (13 R469). -/
def fetched (s : Dev) (t line : Nat) : Dev :=
  fillL1I (forgetMiss (modCache s (fun c => { c with fetch := mdel c.fetch t })) (t / 8) line) (t / 8) line

/-- Whether the directory names another holder that holds a line exclusively: its data come from there (13 R486). -/
def heldElsewhere (s : Dev) (c line : Nat) : Bool :=
  match dirFind s line with
  | some (_, e) => e.excl && e.holders != [c]
  | none => false

/-- The line of a thread's fetch: from the instruction cache, the prefetch buffer, the L2, or straight from DRAM while the L2 allocates nothing (13 R469, R475, R493, R495); `none` while it must come from its home first (log 43, DESIGN CHOICE). -/
def fetchLine (s : Dev) (t line : Nat) : Option Dev :=
  let core := t / 8
  let c := t / 64
  match (if l1iOn s core then cFind s (l1iId core) line else none) with
  | some (way, _) => some (cTouch s (l1iId core) line way)
  | none =>
    if (prefetched s core).contains line then some (fetched (countCore (dropPrefetch (countCore s t 0x06) core line) t 0x07) t line)
    else
      match (if l2State s c = 0 then none else cFind s (l2Id c) line) with
      | some (way, _) => some (nextLine (fetched (countCl (cTouch (countCore s t 0x06) (l2Id c) line way) c 0x02) t line) t line)
      | none =>
        if l2State s c = 2 && (evicted s c).any (fun y => y.line == line) then some (fetched (countCore s t 0x06) t line)
        else if l2State s c = 1 || heldElsewhere s c line then none else some (fetched (countMc (countCore s t 0x06) (chanOf s (64 * line)) 0x02) t line)

/-- A fetch waits for its line. -/
def waitFetch (s : Dev) (t line : Nat) : Dev :=
  modCache (noteMiss s (t / 8) line) (fun c => { c with fetch := mput c.fetch t line })

/-- An annulled slot issues and does nothing (09 R337). -/
def annulSlot (s : Dev) (t n : Nat) : Dev :=
  stepEnd (modThr (countCore (countCore s t 0x02) t 0x04) t (fun x => { x with pc := n, slot := .none })) t

/-- A thread's turn with an instruction that reads `srcs`: its own readiness, a deferred exception first, an annulled slot, the fetch and the instruction comparators (log 43, DESIGN CHOICE). -/
def issue (s : Dev) (t : Nat) (srcs : List GReg) : Issue :=
  let x := thr s t
  if !(canIssue x) then .no s
  else if x.slot == .none && (nextDeferred x).isSome then .no (tryDeferred s t)
  else
    match x.slot with
    | .annul n => .no (annulSlot s t n)
    | _ =>
      if srcs.any (regWaits x) then .no s
      else
        match tlbLookup s t x.pc .fetch x.sup with
        | none => .no (waitWalk s t { va := x.pc, kind := .fetch })
        | some (pa, s1) =>
          if !(inDram s1 pa) then
            .no (takeExc s1 t { atInsn x 6 0 with fetch := true, beKind := 4, faddr := x.pc })
          else
            match fetchLine s1 t (pa / 64) with
            | none => .no (waitFetch s1 t (pa / 64))
            | some s3 =>
              let h := cmpHits s3 t false false x.pc
              let s2 := cmpTrigger s3 h
              if cmpHalts s2 t h && !x.stepping then .no (haltThread s2 t)
              else .go (countCore s2 t 0x02)

/-- Whether an issue map owns every slot (09 R345) (log 88, DEDUCED). -/
def mapFull (s : Dev) (core : Nat) : Bool :=
  (rangeFrom 0 16).all (fun i => nbit (reg s (CL_ISSUE_MAP (core / 8) (core % 8))).toNat (4 * i + 3))

/-- Whether a thread owns a slot of its core's issue map (09 R345) (log 88, DEDUCED). -/
def ownsSlot (s : Dev) (t : Nat) : Bool :=
  let m := (reg s (CL_ISSUE_MAP (t / 64) (t / 8 % 8))).toNat
  (rangeFrom 0 16).any (fun i => nbit m (4 * i + 3) && nbits m (4 * i + 2) (4 * i) == t % 8)

/-- A thread that owns no slot of a map in use that owns all 16: it never issues (09 R349) (log 88, DEDUCED). -/
def mapStarved (s : Dev) (t : Nat) : Bool :=
  nbit (fget s (CL_CTRL (t / 64)) CL_CTRL_MAP_EN) (t / 8 % 8) && mapFull s (t / 8) && !(ownsSlot s t)

/-- An instruction runs where its thread may issue it (log 50, DEDUCED). -/
def onInsn (s : Dev) (t : Nat) (srcs : List GReg) (f : Dev → Dev) : Dev :=
  if mapStarved s t then s
  else
    match issue s t srcs with
    | .no s1 => s1
    | .go s1 => f s1

/-- The program counter moves on: to the next instruction, or from a slot to the address the branch resolved (09 R336) (log 49, DEDUCED). -/
def nextPc (x : Thread) : Thread :=
  match x.slot with
  | .exec n => { x with pc := n, slot := .none }
  | _ => { x with pc := x.pc + 4, slot := .none }

/-- An instruction has completed. -/
def advance (s : Dev) (t : Nat) : Dev := stepEnd (modThr s t nextPc) t

/-- The exception of the instruction at the program counter. -/
def insnExc (s : Dev) (t v w : Nat) : Dev := takeExc s t (atInsn (thr s t) v w)

/-- Illegal opcode (R369 and the rules R406 names). -/
def illegal (s : Dev) (t w : Nat) : Dev := insnExc s t 2 w

/-- Whether the instruction stands in a delay slot that executes. -/
def inSlot (s : Dev) (t : Nat) : Bool := match (thr s t).slot with | .exec _ => true | _ => false

/-- The tag a register result takes under QMODE (02 R53, R54). -/
def resultTag (qmode : Nat) (tag : Byte) : Byte := if qmode = 1 then 0 else tag

/-- In TRAP a result of CLASS BAD traps (02 R56) (log 48, DEDUCED). -/
def trapsOn (qmode : Nat) (tag : Byte) : Bool := qmode == 2 && tagClass tag == 1

/-- A register result: written under QMODE, or a quality trap before anything is written (02 R54 to R57); `before` is what the instruction writes beside its register. -/
def resultWith (s : Dev) (t w : Nat) (rd : GReg) (faddr : Nat) (before : Thread → Thread) (q : QWord) : Dev :=
  let x := thr s t
  if trapsOn x.qmode q.tag then takeExc s t { atInsn x 7 w with result := q, faddr := faddr }
  else advance (modThr s t (fun x => setGpr (before x) rd.val ⟨q.val, resultTag x.qmode q.tag⟩)) t

/-- A register result of an instruction that writes nothing else. -/
def result (s : Dev) (t w : Nat) (rd : GReg) (q : QWord) : Dev := resultWith s t w rd 0 (fun x => x) q

/-! ## Interrupts (11 R436, R437) -/

/-- The source a thread would take: the highest level at or above IPL, the lowest number in it (11 R436). -/
def bestSource (l : List (Nat × Nat)) (ipl : Nat) : Option (Nat × Nat) :=
  (l.filter (fun e => decide (ipl ≤ e.1))).foldl (fun b e =>
    match b with
    | none => some e
    | some x => if x.1 < e.1 ∨ (x.1 = e.1 ∧ e.2 < x.2) then some e else some x) none

/-- INTERRUPT (11 R436, R437): taken at an instruction boundary by a RUNNING thread; a pending deferred exception goes first. -/
def interrupt (s : Dev) (t : Nat) : Dev :=
  let x := thr s t
  if x.st != .running || x.slot != .none || x.exc.isSome || x.walk.isSome || x.cycleEnd || x.stepping then s
  else if (nextDeferred x).isSome then tryDeferred s t
  else
    match bestSource (pendingFor s t) x.ipl with
    | none => s
    | some (l, src) =>
      let s1 := { s with pendSrc := mset (fun _ => false) s.pendSrc src false }
      takeExc (countCore s1 t 0x0E) t { vector := 16 + l, resume := x.pc, faddr := src }

/-- An immediate of `n` bits sign-extended to 64 (R371). -/
def sext (n v : Nat) : Word := BitVec.ofInt 64 (toSigned n v)

end Sys2Proof.Machine
end

