-- ==== Sys2Proof/Machine/Alu.lean ====
section
/-! DEFINITION. Alu: the integer, Q-tag and long-immediate instructions (10 R372 to R374, R381, R394). -/
namespace Sys2Proof.Machine

/-! ## Shared operations -/

/-- A register-register operation under combine; `f` gives the value and whether R45's fault occurred. -/
def aluRR (s : State) (t : Thr) (w : Nat) (rd a b : GReg) (f : Word → Word → Word × Bool) : Host.Outcome State Fault Refusal :=
  onDev s (fun d => onInsn d t.val [a, b] (fun d =>
    let r := f (rv d t.val a) (rv d t.val b)
    result d t.val w rd ⟨r.1, combineFault [rt d t.val a, rt d t.val b] r.2⟩))

/-- A register-immediate operation under combine; the immediate has tag 0x00 (R371). -/
def aluRI (s : State) (t : Thr) (w : Nat) (rd a : GReg) (f : Word → Word) : Host.Outcome State Fault Refusal :=
  onDev s (fun d => onInsn d t.val [a] (fun d => result d t.val w rd ⟨f (rv d t.val a), combine [rt d t.val a, 0]⟩))

/-- A one-source operation under combine. -/
def aluR (s : State) (t : Thr) (w : Nat) (rd a : GReg) (f : Word → Word) : Host.Outcome State Fault Refusal :=
  onDev s (fun d => onInsn d t.val [a] (fun d => result d t.val w rd ⟨f (rv d t.val a), combine [rt d t.val a]⟩))

/-- 1 or 0 as a word. -/
def boolWord (b : Bool) : Word := if b then 1 else 0

/-- No fault. -/
def pureOp (f : Word → Word → Word) (a b : Word) : Word × Bool := (f a b, false)

/-- A checked operation: `exact` is the signed result without wrapping (R372). -/
def checkedOp (exact : Int → Int → Int) (a b : Word) : Word × Bool :=
  let r := exact a.toInt b.toInt
  let v := BitVec.ofInt 64 r
  (v, v.toInt != r)

/-- Shift counts are bits 5:0 (R372). -/
def shiftCount (b : Word) : Nat := b.toNat % 64

def shlW (a : Word) (n : Nat) : Word := a <<< n
def shrW (a : Word) (n : Nat) : Word := a >>> n
def shraW (a : Word) (n : Nat) : Word := a.sshiftRight n

/-- Leading zero bits, 0 to 64. -/
def clzW (a : Word) : Nat := if a.toNat = 0 then 64 else 63 - a.toNat.log2

/-- Number of set bits. -/
def popcW (a : Word) : Nat := ((rangeFrom 0 64).filter (nbit a.toNat)).length

/-- Quotient rounded toward zero, with the cases of R373. -/
def quotS (a b : Word) : Word × Bool :=
  if b = 0 then (0, true)
  else if a.toInt = -(2 ^ 63) ∧ b.toInt = -1 then (BitVec.ofInt 64 (2 ^ 63 - 1), false)
  else (BitVec.ofInt 64 (a.toInt.tdiv b.toInt), false)

def quotU (a b : Word) : Word × Bool := if b = 0 then (0, true) else (BitVec.ofNat 64 (a.toNat / b.toNat), false)

/-- Remainder with the sign of the dividend (R372, R373). -/
def rmdrS (a b : Word) : Word × Bool := if b = 0 then (0, true) else (BitVec.ofInt 64 (a.toInt.tmod b.toInt), false)

def rmdrU (a b : Word) : Word × Bool := if b = 0 then (0, true) else (BitVec.ofNat 64 (a.toNat % b.toNat), false)

/-! ## Integer instructions (R372, R373) -/

/-- ADD. -/
def execAdd (t : Thr) (rd rs1 rs2 : GReg) (s : State) : Host.Outcome State Fault Refusal :=
  aluRR s t (wordOf (.add t rd rs1 rs2)) rd rs1 rs2 (pureOp (· + ·))

/-- SUB. -/
def execSub (t : Thr) (rd rs1 rs2 : GReg) (s : State) : Host.Outcome State Fault Refusal :=
  aluRR s t (wordOf (.sub t rd rs1 rs2)) rd rs1 rs2 (pureOp (· - ·))

/-- ADDC: a signed overflow is a checked fault. -/
def execAddc (t : Thr) (rd rs1 rs2 : GReg) (s : State) : Host.Outcome State Fault Refusal :=
  aluRR s t (wordOf (.addc t rd rs1 rs2)) rd rs1 rs2 (checkedOp (· + ·))

/-- SUBC: a signed overflow is a checked fault. -/
def execSubc (t : Thr) (rd rs1 rs2 : GReg) (s : State) : Host.Outcome State Fault Refusal :=
  aluRR s t (wordOf (.subc t rd rs1 rs2)) rd rs1 rs2 (checkedOp (· - ·))

/-- AND. -/
def execAnd (t : Thr) (rd rs1 rs2 : GReg) (s : State) : Host.Outcome State Fault Refusal :=
  aluRR s t (wordOf (.and t rd rs1 rs2)) rd rs1 rs2 (pureOp (· &&& ·))

/-- OR. -/
def execOr (t : Thr) (rd rs1 rs2 : GReg) (s : State) : Host.Outcome State Fault Refusal :=
  aluRR s t (wordOf (.or t rd rs1 rs2)) rd rs1 rs2 (pureOp (· ||| ·))

/-- XOR. -/
def execXor (t : Thr) (rd rs1 rs2 : GReg) (s : State) : Host.Outcome State Fault Refusal :=
  aluRR s t (wordOf (.xor t rd rs1 rs2)) rd rs1 rs2 (pureOp (· ^^^ ·))

/-- ANDN: rs1 AND NOT rs2. -/
def execAndn (t : Thr) (rd rs1 rs2 : GReg) (s : State) : Host.Outcome State Fault Refusal :=
  aluRR s t (wordOf (.andn t rd rs1 rs2)) rd rs1 rs2 (pureOp (fun a b => a &&& ~~~b))

/-- SHL. -/
def execShl (t : Thr) (rd rs1 rs2 : GReg) (s : State) : Host.Outcome State Fault Refusal :=
  aluRR s t (wordOf (.shl t rd rs1 rs2)) rd rs1 rs2 (pureOp (fun a b => shlW a (shiftCount b)))

/-- SHR. -/
def execShr (t : Thr) (rd rs1 rs2 : GReg) (s : State) : Host.Outcome State Fault Refusal :=
  aluRR s t (wordOf (.shr t rd rs1 rs2)) rd rs1 rs2 (pureOp (fun a b => shrW a (shiftCount b)))

/-- SHRA. -/
def execShra (t : Thr) (rd rs1 rs2 : GReg) (s : State) : Host.Outcome State Fault Refusal :=
  aluRR s t (wordOf (.shra t rd rs1 rs2)) rd rs1 rs2 (pureOp (fun a b => shraW a (shiftCount b)))

/-- LESS: signed. -/
def execLess (t : Thr) (rd rs1 rs2 : GReg) (s : State) : Host.Outcome State Fault Refusal :=
  aluRR s t (wordOf (.less t rd rs1 rs2)) rd rs1 rs2 (pureOp (fun a b => boolWord (decide (a.toInt < b.toInt))))

/-- LESSU: unsigned. -/
def execLessu (t : Thr) (rd rs1 rs2 : GReg) (s : State) : Host.Outcome State Fault Refusal :=
  aluRR s t (wordOf (.lessu t rd rs1 rs2)) rd rs1 rs2 (pureOp (fun a b => boolWord (decide (a.toNat < b.toNat))))

/-- SAME. -/
def execSame (t : Thr) (rd rs1 rs2 : GReg) (s : State) : Host.Outcome State Fault Refusal :=
  aluRR s t (wordOf (.same t rd rs1 rs2)) rd rs1 rs2 (pureOp (fun a b => boolWord (a == b)))

/-- MIN: signed. -/
def execMin (t : Thr) (rd rs1 rs2 : GReg) (s : State) : Host.Outcome State Fault Refusal :=
  aluRR s t (wordOf (.min t rd rs1 rs2)) rd rs1 rs2 (pureOp (fun a b => if a.toInt ≤ b.toInt then a else b))

/-- MAX: signed. -/
def execMax (t : Thr) (rd rs1 rs2 : GReg) (s : State) : Host.Outcome State Fault Refusal :=
  aluRR s t (wordOf (.max t rd rs1 rs2)) rd rs1 rs2 (pureOp (fun a b => if b.toInt ≤ a.toInt then a else b))

/-- MUL: low 64 bits. -/
def execMul (t : Thr) (rd rs1 rs2 : GReg) (s : State) : Host.Outcome State Fault Refusal :=
  aluRR s t (wordOf (.mul t rd rs1 rs2)) rd rs1 rs2 (pureOp (· * ·))

/-- MULHI: high 64 bits of the signed product. -/
def execMulhi (t : Thr) (rd rs1 rs2 : GReg) (s : State) : Host.Outcome State Fault Refusal :=
  aluRR s t (wordOf (.mulhi t rd rs1 rs2)) rd rs1 rs2 (pureOp (fun a b => BitVec.ofInt 64 (a.toInt * b.toInt / 2 ^ 64)))

/-- MULHIU: high 64 bits of the unsigned product. -/
def execMulhiu (t : Thr) (rd rs1 rs2 : GReg) (s : State) : Host.Outcome State Fault Refusal :=
  aluRR s t (wordOf (.mulhiu t rd rs1 rs2)) rd rs1 rs2 (pureOp (fun a b => BitVec.ofNat 64 (a.toNat * b.toNat / 2 ^ 64)))

/-- MULC: a signed product outside 64 bits is a checked fault. -/
def execMulc (t : Thr) (rd rs1 rs2 : GReg) (s : State) : Host.Outcome State Fault Refusal :=
  aluRR s t (wordOf (.mulc t rd rs1 rs2)) rd rs1 rs2 (checkedOp (· * ·))

/-- QUOT (R373). -/
def execQuot (t : Thr) (rd rs1 rs2 : GReg) (s : State) : Host.Outcome State Fault Refusal :=
  aluRR s t (wordOf (.quot t rd rs1 rs2)) rd rs1 rs2 quotS

/-- QUOTU (R373). -/
def execQuotu (t : Thr) (rd rs1 rs2 : GReg) (s : State) : Host.Outcome State Fault Refusal :=
  aluRR s t (wordOf (.quotu t rd rs1 rs2)) rd rs1 rs2 quotU

/-- RMDR (R373). -/
def execRmdr (t : Thr) (rd rs1 rs2 : GReg) (s : State) : Host.Outcome State Fault Refusal :=
  aluRR s t (wordOf (.rmdr t rd rs1 rs2)) rd rs1 rs2 rmdrS

/-- RMDRU (R373). -/
def execRmdru (t : Thr) (rd rs1 rs2 : GReg) (s : State) : Host.Outcome State Fault Refusal :=
  aluRR s t (wordOf (.rmdru t rd rs1 rs2)) rd rs1 rs2 rmdrU

/-- CLZ. -/
def execClz (t : Thr) (rd rs1 : GReg) (s : State) : Host.Outcome State Fault Refusal :=
  aluR s t (wordOf (.clz t rd rs1)) rd rs1 (fun a => BitVec.ofNat 64 (clzW a))

/-- POPC. -/
def execPopc (t : Thr) (rd rs1 : GReg) (s : State) : Host.Outcome State Fault Refusal :=
  aluR s t (wordOf (.popc t rd rs1)) rd rs1 (fun a => BitVec.ofNat 64 (popcW a))

/-- MOV: the word under its own tag. -/
def execMov (t : Thr) (rd rs1 : GReg) (s : State) : Host.Outcome State Fault Refusal :=
  onDev s (fun d => onInsn d t.val [rs1] (fun d => result d t.val (wordOf (.mov t rd rs1)) rd (gpr (thr d t.val) rs1)))

/-- SEL: rs1 where the value of rs3 is not 0, else rs2, under its own tag. -/
def execSel (t : Thr) (rd rs1 rs2 rs3 : GReg) (s : State) : Host.Outcome State Fault Refusal :=
  onDev s (fun d => onInsn d t.val [rs1, rs2, rs3] (fun d =>
    result d t.val (wordOf (.sel t rd rs1 rs2 rs3)) rd (gpr (thr d t.val) (if rv d t.val rs3 ≠ 0 then rs1 else rs2))))

/-- ADDI. -/
def execAddi (t : Thr) (rd rs1 : GReg) (imm : BitVec 14) (s : State) : Host.Outcome State Fault Refusal :=
  aluRI s t (wordOf (.addi t rd rs1 imm)) rd rs1 (fun a => a + sext 14 imm.toNat)

/-- ANDI: the immediate is zero-extended (R371). -/
def execAndi (t : Thr) (rd rs1 : GReg) (imm : BitVec 14) (s : State) : Host.Outcome State Fault Refusal :=
  aluRI s t (wordOf (.andi t rd rs1 imm)) rd rs1 (fun a => a &&& imm.setWidth 64)

/-- ORI: the immediate is zero-extended. -/
def execOri (t : Thr) (rd rs1 : GReg) (imm : BitVec 14) (s : State) : Host.Outcome State Fault Refusal :=
  aluRI s t (wordOf (.ori t rd rs1 imm)) rd rs1 (fun a => a ||| imm.setWidth 64)

/-- XORI: the immediate is zero-extended. -/
def execXori (t : Thr) (rd rs1 : GReg) (imm : BitVec 14) (s : State) : Host.Outcome State Fault Refusal :=
  aluRI s t (wordOf (.xori t rd rs1 imm)) rd rs1 (fun a => a ^^^ imm.setWidth 64)

/-- LESSI: signed. -/
def execLessi (t : Thr) (rd rs1 : GReg) (imm : BitVec 14) (s : State) : Host.Outcome State Fault Refusal :=
  aluRI s t (wordOf (.lessi t rd rs1 imm)) rd rs1 (fun a => boolWord (decide (a.toInt < toSigned 14 imm.toNat)))

/-- LESSUI: unsigned, the immediate sign-extended first. -/
def execLessui (t : Thr) (rd rs1 : GReg) (imm : BitVec 14) (s : State) : Host.Outcome State Fault Refusal :=
  aluRI s t (wordOf (.lessui t rd rs1 imm)) rd rs1 (fun a => boolWord (decide (a.toNat < (sext 14 imm.toNat).toNat)))

/-- SHLI. -/
def execShli (t : Thr) (rd rs1 : GReg) (sh : Fin 64) (s : State) : Host.Outcome State Fault Refusal :=
  aluRI s t (wordOf (.shli t rd rs1 sh)) rd rs1 (fun a => shlW a sh.val)

/-- SHRI. -/
def execShri (t : Thr) (rd rs1 : GReg) (sh : Fin 64) (s : State) : Host.Outcome State Fault Refusal :=
  aluRI s t (wordOf (.shri t rd rs1 sh)) rd rs1 (fun a => shrW a sh.val)

/-- SHRAI. -/
def execShrai (t : Thr) (rd rs1 : GReg) (sh : Fin 64) (s : State) : Host.Outcome State Fault Refusal :=
  aluRI s t (wordOf (.shrai t rd rs1 sh)) rd rs1 (fun a => shraW a sh.val)

/-! ## Long immediates (R394) -/

/-- LIH: IMM20 sign-extended and shifted left by 14, tag 0x00. -/
def execLih (t : Thr) (rd : GReg) (imm : BitVec 20) (s : State) : Host.Outcome State Fault Refusal :=
  onDev s (fun d => onInsn d t.val [] (fun d => result d t.val (wordOf (.lih t rd imm)) rd ⟨sext 20 imm.toNat <<< 14, 0⟩))

/-- LIX: rd shifted left by 20, OR IMM20. -/
def execLix (t : Thr) (rd : GReg) (imm : BitVec 20) (s : State) : Host.Outcome State Fault Refusal :=
  aluRI s t (wordOf (.lix t rd imm)) rd rd (fun a => a <<< 20 ||| imm.setWidth 64)

/-! ## Q-tag instructions (R381) -/

/-- QGET: the tag of rs1 as a value, tag 0x00. -/
def execQget (t : Thr) (rd rs1 : GReg) (s : State) : Host.Outcome State Fault Refusal :=
  onDev s (fun d => onInsn d t.val [rs1] (fun d => result d t.val (wordOf (.qget t rd rs1)) rd ⟨(rt d t.val rs1).setWidth 64, 0⟩))

/-- QSET: the value of rs1 under bits 7:0 of the value of rs2. -/
def execQset (t : Thr) (rd rs1 rs2 : GReg) (s : State) : Host.Outcome State Fault Refusal :=
  onDev s (fun d => onInsn d t.val [rs1, rs2] (fun d =>
    result d t.val (wordOf (.qset t rd rs1 rs2)) rd ⟨rv d t.val rs1, (rv d t.val rs2).setWidth 8⟩))

/-- QMIN: the value of rs1 under worst-whole of both tags (02 R47). -/
def execQmin (t : Thr) (rd rs1 rs2 : GReg) (s : State) : Host.Outcome State Fault Refusal :=
  onDev s (fun d => onInsn d t.val [rs1, rs2] (fun d =>
    result d t.val (wordOf (.qmin t rd rs1 rs2)) rd ⟨rv d t.val rs1, worstWhole (rt d t.val rs1) [rt d t.val rs1, rt d t.val rs2]⟩))

/-- QSETI: the value of rs1 under an immediate tag. -/
def execQseti (t : Thr) (rd rs1 : GReg) (tag : Byte) (s : State) : Host.Outcome State Fault Refusal :=
  onDev s (fun d => onInsn d t.val [rs1] (fun d => result d t.val (wordOf (.qseti t rd rs1 tag)) rd ⟨rv d t.val rs1, tag⟩))

/-- QTEST: 1 where the CLASS of rs1 is in the mask, tag 0x00. -/
def execQtest (t : Thr) (rd rs1 : GReg) (mask : BitVec 4) (s : State) : Host.Outcome State Fault Refusal :=
  onDev s (fun d => onInsn d t.val [rs1] (fun d =>
    result d t.val (wordOf (.qtest t rd rs1 mask)) rd ⟨boolWord (nbit mask.toNat (tagClass (rt d t.val rs1))), 0⟩))

/-- QMODE: rd takes QMODE, which takes the mode; 0b11 is an illegal opcode (02 R51, R52). -/
def execQmode (t : Thr) (rd : GReg) (mode : Fin 4) (s : State) : Host.Outcome State Fault Refusal :=
  onDev s (fun d => onInsn d t.val [] (fun d =>
    if mode.val = 3 then illegal d t.val (wordOf (.qmode t rd mode))
    else advance (modThr d t.val (fun x => { setGpr x rd.val ⟨BitVec.ofNat 64 x.qmode, 0⟩ with qmode := mode.val })) t.val))

end Sys2Proof.Machine
end

