-- ==== Sys2Proof/Machine/Crc.lean ====
section
/-! DEFINITION. Crc: CRC-32C (08, 07 R261, 14, 15 R574), CRC-64 ECMA-182 (07 R276) and the Ethernet FCS (05, IEEE 802.3). -/
namespace Sys2Proof.Machine

/-- One bit of a reflected CRC. -/
def crcBitR (poly r : Nat) : Nat := if r % 2 = 1 then Nat.xor (r / 2) poly else r / 2

/-- One byte of a reflected CRC. -/
def crcByteR (poly r b : Nat) : Nat :=
  let f := crcBitR poly
  f (f (f (f (f (f (f (f (Nat.xor r b))))))))

def crcR (poly : Nat) : Nat → List Byte → Nat
  | r, [] => r
  | r, b :: bs => crcR poly (crcByteR poly r b.toNat) bs

/-- CRC-32C: Castagnoli polynomial 0x1EDC_6F41 (00 R5) (log 31, DEDUCED). -/
def crc32c (bs : List Byte) : Nat := Nat.xor (crcR 0x82F63B78 0xFFFFFFFF bs) 0xFFFFFFFF

/-- The frame check sequence of IEEE 802.3. -/
def crcFcs (bs : List Byte) : Nat := Nat.xor (crcR 0xEDB88320 0xFFFFFFFF bs) 0xFFFFFFFF

/-- One bit of CRC-64, most significant first. -/
def crcBit64 (r : Nat) : Nat :=
  if r / 2 ^ 63 = 1 then Nat.xor (r * 2 % 2 ^ 64) 0x42F0E1EBA9EA3693 else r * 2

def crcByte64 (r b : Nat) : Nat :=
  let f := crcBit64
  f (f (f (f (f (f (f (f (Nat.xor r (b * 2 ^ 56)))))))))

/-- CRC-64 of ECMA-182, initial value 0, no reflection, no final XOR (07 R276), continued from `r`. -/
def crc64 : Nat → List Byte → Nat
  | r, [] => r
  | r, b :: bs => crc64 (crcByte64 r b.toNat) bs

end Sys2Proof.Machine
end

