-- ==== Sys2Proof/Machine/Float.lean ====
section
/-! DEFINITION. Float: binary32 and binary64 arithmetic of IEEE 754-2019 by exact numbers and one rounding (10 R375 to R379). -/
namespace Sys2Proof.Machine

/-- A format: precision, largest exponent, width. -/
structure Fmt where
  p : Nat
  emax : Nat
  width : Nat
deriving DecidableEq, Repr

def b64 : Fmt := ⟨53, 1023, 64⟩
def b32 : Fmt := ⟨24, 127, 32⟩

/-- Flags in FPCSR order (R378): invalid, divide by zero, overflow, underflow, inexact (log 18, DEDUCED). -/
def F_NV : Nat := 1
def F_DZ : Nat := 2
def F_OF : Nat := 4
def F_UF : Nat := 8
def F_NX : Nat := 16

/-- A number of a format; a finite one is (−1)^neg × m × 2^e. -/
inductive FVal where
  | nan (quiet : Bool) (bits : Nat)
  | inf (neg : Bool)
  | fin (neg : Bool) (m : Nat) (e : Int)
deriving DecidableEq, Repr

/-- Exponent of the least significant bit of the smallest numbers. -/
def Fmt.qmin (f : Fmt) : Int := 2 - (f.emax : Int) - f.p

/-- Result of an operation: bits, flags, tininess (R376), whether it is a NaN. -/
structure FOut where
  bits : Nat
  flags : Nat := 0
  tiny : Bool := false
  nan : Bool := false
deriving DecidableEq, Repr

/-- The number a bit pattern stands for. -/
def unpack (f : Fmt) (b : Nat) : FVal :=
  let frac := b % 2 ^ (f.p - 1)
  let ex := b / 2 ^ (f.p - 1) % 2 ^ (f.width - f.p)
  let neg := b / 2 ^ (f.width - 1) % 2 == 1
  if ex = 2 ^ (f.width - f.p) - 1 then
    if frac = 0 then .inf neg else .nan (frac / 2 ^ (f.p - 2) == 1) (b % 2 ^ f.width)
  else if ex = 0 then .fin neg frac f.qmin
  else .fin neg (frac + 2 ^ (f.p - 1)) (f.qmin + (ex - 1 : Nat))

def signBit (f : Fmt) (neg : Bool) : Nat := if neg then 2 ^ (f.width - 1) else 0
def infBits (f : Fmt) (neg : Bool) : Nat := signBit f neg + (2 ^ (f.width - f.p) - 1) * 2 ^ (f.p - 1)
def maxBits (f : Fmt) (neg : Bool) : Nat := infBits f neg - 1
def zeroBits (f : Fmt) (neg : Bool) : Nat := signBit f neg
/-- The default NaN (R377) (log 19, PRESUMED). -/
def defaultNan (f : Fmt) : Nat := infBits f false + 2 ^ (f.p - 2)
/-- A NaN made quiet (R377) (log 19, PRESUMED). -/
def quietBits (f : Fmt) (b : Nat) : Nat := if b / 2 ^ (f.p - 2) % 2 = 1 then b else b + 2 ^ (f.p - 2)

/-- Bits of m × 2^q with m < 2^p, normal where m ≥ 2^(p−1), subnormal at q = qmin. -/
def packFin (f : Fmt) (neg : Bool) (m : Nat) (q : Int) : Nat :=
  if m < 2 ^ (f.p - 1) then signBit f neg + m
  else signBit f neg + ((q - f.qmin).toNat + 1) * 2 ^ (f.p - 1) + (m - 2 ^ (f.p - 1))

/-- m / 2^sh rounded in mode `rm` (R376: 0 to nearest even, 1 toward zero, 2 up, 3 down); whether it was inexact. -/
def roundShift (rm : Nat) (neg : Bool) (m : Nat) (sh : Int) : Nat × Bool :=
  if sh ≤ 0 then (m * 2 ^ (-sh).toNat, false)
  else
    let d := 2 ^ sh.toNat
    let q := m / d
    let r := m % d
    let up := match rm with
      | 0 => decide (d < 2 * r) || (decide (d = 2 * r) && q % 2 == 1)
      | 1 => false
      | 2 => !neg && decide (0 < r)
      | _ => neg && decide (0 < r)
    (if up then q + 1 else q, decide (0 < r))

/-- The correctly rounded result of the exact value (−1)^neg × m × 2^e; tininess is detected after rounding (R376). -/
def roundFin (f : Fmt) (rm : Nat) (neg : Bool) (m : Nat) (e : Int) : FOut :=
  if m = 0 then { bits := zeroBits f neg }
  else
    let nb : Int := Nat.log2 m + 1
    let qu := e + nb - f.p
    let q := if qu < f.qmin then f.qmin else qu
    let x := roundShift rm neg m (q - e)
    let m1 := if x.1 = 2 ^ f.p then 2 ^ (f.p - 1) else x.1
    let q1 := if x.1 = 2 ^ f.p then q + 1 else q
    let u := roundShift rm neg m (qu - e)
    let tiny := decide (qu < f.qmin) && !(u.1 == 2 ^ f.p && decide (qu + 1 = f.qmin))
    if f.qmin + 2 * (f.emax : Int) - 1 < q1 then
      let toInf := match rm with | 0 => true | 1 => false | 2 => !neg | _ => neg
      { bits := if toInf then infBits f neg else maxBits f neg, flags := F_OF + F_NX }
    else
      { bits := packFin f neg m1 q1, flags := (if x.2 then F_NX else 0) + (if tiny && x.2 then F_UF else 0), tiny := tiny }

/-- A quiet or signalling NaN among the operands, in source order: the result of R377 with invalid for a signalling one (log 19, PRESUMED). -/
def nanOf (f : Fmt) (ops : List FVal) : Option FOut :=
  let nans := ops.filterMap (fun v => match v with | .nan q b => some (q, b) | _ => none)
  match nans with
  | [] => none
  | (_, b) :: _ => some { bits := quietBits f b, flags := if nans.any (fun x => !x.1) then F_NV else 0, nan := true }

/-- The default NaN with invalid. -/
def invalid (f : Fmt) : FOut := { bits := defaultNan f, flags := F_NV, nan := true }

/-- Exact sum of two finite numbers as sign, magnitude and exponent; sign of an exact zero by the mode. -/
def addExact (rm : Nat) (na : Bool) (ma : Nat) (ea : Int) (nb : Bool) (mb : Nat) (eb : Int) : Bool × Nat × Int :=
  let e := if ea < eb then ea else eb
  let a : Int := (if na then -1 else 1) * (ma * 2 ^ (ea - e).toNat : Nat)
  let b : Int := (if nb then -1 else 1) * (mb * 2 ^ (eb - e).toNat : Nat)
  let s := a + b
  if s = 0 then ((if na == nb then na else rm == 3), 0, e) else (decide (s < 0), s.natAbs, e)

def fAddV (f : Fmt) (rm : Nat) (a b : FVal) : FOut :=
  match nanOf f [a, b] with
  | some r => r
  | none =>
    match a, b with
    | .inf x, .inf y => if x = y then { bits := infBits f x } else invalid f
    | .inf x, _ => { bits := infBits f x }
    | _, .inf y => { bits := infBits f y }
    | .fin na ma ea, .fin nb mb eb =>
      let r := addExact rm na ma ea nb mb eb
      roundFin f rm r.1 r.2.1 r.2.2
    | _, _ => invalid f

/-- A value with its sign inverted (subtraction of a number). -/
def negV : FVal → FVal
  | .inf n => .inf (!n)
  | .fin n m e => .fin (!n) m e
  | v => v

def fMulV (f : Fmt) (rm : Nat) (a b : FVal) : FOut :=
  match nanOf f [a, b] with
  | some r => r
  | none =>
    match a, b with
    | .inf x, .inf y => { bits := infBits f (x != y) }
    | .inf x, .fin y m _ => if m = 0 then invalid f else { bits := infBits f (x != y) }
    | .fin x m _, .inf y => if m = 0 then invalid f else { bits := infBits f (x != y) }
    | .fin na ma ea, .fin nb mb eb => roundFin f rm (na != nb) (ma * mb) (ea + eb)
    | _, _ => invalid f

def fDivV (f : Fmt) (rm : Nat) (a b : FVal) : FOut :=
  match nanOf f [a, b] with
  | some r => r
  | none =>
    match a, b with
    | .inf _, .inf _ => invalid f
    | .inf x, .fin y _ _ => { bits := infBits f (x != y) }
    | .fin x _ _, .inf y => { bits := zeroBits f (x != y) }
    | .fin na ma ea, .fin nb mb eb =>
      if mb = 0 then
        if ma = 0 then invalid f else { bits := infBits f (na != nb), flags := F_DZ }
      else
        let k := f.p + 2 + Nat.log2 mb + 1
        let n := ma * 2 ^ k
        roundFin f rm (na != nb) (2 * (n / mb) + (if n % mb = 0 then 0 else 1)) (ea - eb - k - 1)
    | _, _ => invalid f

/-- Integer square root, bit by bit from bit `k`. -/
def isqrt : Nat → Nat → Nat → Nat
  | 0, r, n => if (r + 1) * (r + 1) ≤ n then r + 1 else r
  | k + 1, r, n => let t := r + 2 ^ (k + 1); isqrt k (if t * t ≤ n then t else r) n

def fSqrtV (f : Fmt) (rm : Nat) (a : FVal) : FOut :=
  match nanOf f [a] with
  | some r => r
  | none =>
    match a with
    | .inf n => if n then invalid f else { bits := infBits f false }
    | .fin n m e =>
      if m = 0 then { bits := zeroBits f n }
      else if n then invalid f
      else
        let k := 2 * (f.p + 2) + (if e % 2 = 0 then 0 else 1)
        let x := m * 2 ^ k
        let r := isqrt ((Nat.log2 x) / 2 + 1) 0 x
        roundFin f rm false (2 * r + (if r * r = x then 0 else 1)) ((e - k) / 2 - 1)
    | _ => invalid f

/-- a × b + c with one rounding; a product of 0 and ∞ raises invalid even beside a quiet NaN (R379). -/
def fMaV (f : Fmt) (rm : Nat) (a b c : FVal) (orig : FVal) : FOut :=
  let zeroInf := match a, b with
    | .inf _, .fin _ m _ => m == 0
    | .fin _ m _, .inf _ => m == 0
    | _, _ => false
  match nanOf f [a, b, orig] with
  | some r => if zeroInf then { r with flags := F_NV } else r
  | none =>
    if zeroInf then invalid f
    else
      match a, b, c with
      | .fin na ma ea, .fin nb mb eb, .fin nc mc ec =>
        let r := addExact rm (na != nb) (ma * mb) (ea + eb) nc mc ec
        roundFin f rm r.1 r.2.1 r.2.2
      | .fin _ _ _, .fin _ _ _, .inf n => { bits := infBits f n }
      | x, y, z =>
        let sg (v : FVal) : Bool := match v with | .inf n => n | .fin n _ _ => n | _ => false
        let n := sg x != sg y
        match z with
        | .inf k => if k = n then { bits := infBits f n } else invalid f
        | _ => { bits := infBits f n }

/-- Order of two numbers that are no NaNs: −1, 0, 1. -/
def fCmp (a b : FVal) : Int :=
  let rank (v : FVal) : Int := match v with | .inf n => if n then -1 else 1 | _ => 0
  if rank a ≠ rank b then (if rank a < rank b then -1 else 1)
  else
    match a, b with
    | .fin na ma ea, .fin nb mb eb =>
      let e := if ea < eb then ea else eb
      let x : Int := (if na then -1 else 1) * (ma * 2 ^ (ea - e).toNat : Nat)
      let y : Int := (if nb then -1 else 1) * (mb * 2 ^ (eb - e).toNat : Nat)
      if x < y then -1 else if x = y then 0 else 1
    | _, _ => 0

def isSnan : FVal → Bool
  | .nan q _ => !q
  | _ => false
def isNan : FVal → Bool
  | .nan _ _ => true
  | _ => false
def isNeg : FVal → Bool
  | .inf n => n
  | .fin n _ _ => n
  | .nan _ _ => false

/-! Operations on bit patterns -/

def fAdd (f : Fmt) (rm a b : Nat) : FOut := fAddV f rm (unpack f a) (unpack f b)
def fSub (f : Fmt) (rm a b : Nat) : FOut := fAddV f rm (unpack f a) (negV (unpack f b))
def fMul (f : Fmt) (rm a b : Nat) : FOut := fMulV f rm (unpack f a) (unpack f b)
def fDiv (f : Fmt) (rm a b : Nat) : FOut := fDivV f rm (unpack f a) (unpack f b)
def fSqrt (f : Fmt) (rm a : Nat) : FOut := fSqrtV f rm (unpack f a)
def fMac (f : Fmt) (rm a b c : Nat) : FOut := fMaV f rm (unpack f a) (unpack f b) (unpack f c) (unpack f c)
def fMsc (f : Fmt) (rm a b c : Nat) : FOut := fMaV f rm (unpack f a) (unpack f b) (negV (unpack f c)) (unpack f c)

/-- minimumNumber and maximumNumber, −0 < +0 (R379). -/
def fMinMax (f : Fmt) (max : Bool) (a b : Nat) : FOut :=
  let x := unpack f a
  let y := unpack f b
  let nv := if isSnan x || isSnan y then F_NV else 0
  if isNan x && isNan y then { bits := quietBits f (a % 2 ^ f.width), flags := nv, nan := true }
  else if isNan x then { bits := b % 2 ^ f.width, flags := nv }
  else if isNan y then { bits := a % 2 ^ f.width, flags := nv }
  else
    let c := fCmp x y
    let aLess := decide (c < 0) || (decide (c = 0) && isNeg x && !(isNeg y))
    { bits := (if aLess != max then a else b) % 2 ^ f.width }

def fNeg (f : Fmt) (a : Nat) : FOut :=
  let v := a % 2 ^ f.width
  let h := 2 ^ (f.width - 1)
  { bits := if h ≤ v then v - h else v + h, nan := isNan (unpack f a) }

def fAbs (f : Fmt) (a : Nat) : FOut := { bits := a % 2 ^ (f.width - 1), nan := isNan (unpack f a) }

def fSame (f : Fmt) (a b : Nat) : FOut :=
  let x := unpack f a
  let y := unpack f b
  if isNan x || isNan y then { bits := 0, flags := if isSnan x || isSnan y then F_NV else 0 }
  else { bits := b2n (fCmp x y == 0) }

def fLess (f : Fmt) (orEqual : Bool) (a b : Nat) : FOut :=
  let x := unpack f a
  let y := unpack f b
  if isNan x || isNan y then { bits := 0, flags := F_NV }
  else { bits := b2n (decide (fCmp x y < 0) || (orEqual && fCmp x y == 0)) }

/-- An integer rounded and saturated to the range lo to hi; a NaN gives 0 (R379; 04 R140). -/
def toInt (f : Fmt) (rm : Nat) (a : Nat) (lo hi : Int) : Int × Nat :=
  match unpack f a with
  | .nan _ _ => (0, F_NV)
  | .inf n => (if n then lo else hi, F_NV)
  | .fin n m e =>
    let x := roundShift rm n m (-e)
    let i : Int := if n then -(x.1 : Int) else x.1
    if i < lo then (lo, F_NV) else if hi < i then (hi, F_NV) else (i, if x.2 then F_NX else 0)

/-- FTOI: to int64 (R379). -/
def fToI (f : Fmt) (rm a : Nat) : FOut :=
  let r := toInt f rm a (-(2 ^ 63)) (2 ^ 63 - 1)
  { bits := ofSigned 64 r.1, flags := r.2 }

/-- ITOF: from int64 (R379). -/
def iToF (f : Fmt) (rm : Nat) (i : Int) : FOut := roundFin f rm (decide (i < 0)) i.natAbs 0

/-- binary32 to binary64, exactly; a NaN keeps its sign and the high bits of its payload, made quiet (log 19, PRESUMED). -/
def fWiden (a : Nat) : FOut :=
  match unpack b32 a with
  | .nan q _ =>
    let s := a / 2 ^ 31 % 2
    { bits := quietBits b64 (s * 2 ^ 63 + 0x7FF * 2 ^ 52 + (a % 2 ^ 23) * 2 ^ 29), flags := if q then 0 else F_NV, nan := true }
  | .inf n => { bits := infBits b64 n }
  | .fin n m e => roundFin b64 0 n m e

/-- binary64 to binary32 (R379) (log 19, PRESUMED). -/
def fNarrow (rm a : Nat) : FOut :=
  match unpack b64 a with
  | .nan q _ =>
    let s := a / 2 ^ 63 % 2
    { bits := quietBits b32 (s * 2 ^ 31 + 0xFF * 2 ^ 23 + (a % 2 ^ 52) / 2 ^ 29), flags := if q then 0 else F_NV, nan := true }
  | .inf n => { bits := infBits b32 n }
  | .fin n m e => roundFin b32 rm n m e

end Sys2Proof.Machine
end

