-- ==== Sys2Proof/Machine/Cycle.lean ====
section
/-! DEFINITION. Cycle: the control cycle (04): schedule, enable checks, stream entries, scatter and gather lists, release and cycle end, CYC tables. -/
namespace Sys2Proof.Machine

/-! ## Schedule (R112 to R130) -/

/-- Period in ns (R113). -/
def periodNs (s : Dev) (c : Nat) : Nat := fget s (CYC_PERIOD c) CYC_PERIOD_PERIOD * 250

/-- Nominal time of boundary `m` (R117). -/
def boundaryNs (s : Dev) (c m : Nat) : Nat := (reg s (CYC_EPOCH c)).toNat + m * periodNs s c

/-- An entry of the Pricking table (R123). -/
structure PrickEntry where
  idx : Nat
  action : Nat
  offset : Nat
  arg : Nat
deriving DecidableEq, Repr

def prickWord (s : Dev) (c e : Nat) : Word := mget (fun _ => 0) s.cyc.pricking (64 * c + e)
def prickOf (e : Nat) (w : Word) : PrickEntry := ⟨e, bitsOf w (63, 60), bitsOf w (59, 30), bitsOf w (29, 0)⟩

/-- Entries of a class with an action, in index order; NONE is skipped (R125). -/
def prickEntries (s : Dev) (c : Nat) : List PrickEntry :=
  s.cyc.pricking.filterMap (fun x => if x.1 / 64 == c && bitsOf x.2 (63, 60) != 0 then some (prickOf (x.1 % 64) x.2) else none)

/-- Ascending offset, then index (R124). -/
def prickBefore (a b : PrickEntry) : Bool := decide (a.offset < b.offset) || (a.offset == b.offset && decide (a.idx ≤ b.idx))

def insPrick (e : PrickEntry) : List PrickEntry → List PrickEntry
  | [] => [e]
  | x :: xs => if prickBefore e x then e :: x :: xs else x :: insPrick e xs

/-- The schedule of a class in the order its entries run (R124). -/
def schedule (s : Dev) (c : Nat) : List PrickEntry := (prickEntries s c).foldr insPrick []

/-- Entries of this cycle still to run, in order. -/
def stillToRun (s : Dev) (c : Nat) : List PrickEntry := (schedule s c).filter (fun e => !((cls s c).ran.contains e.idx))

def deadlineEntry (s : Dev) (c : Nat) : Option PrickEntry := (schedule s c).find? (fun e => e.action == 2)
def agreeEntry (s : Dev) (c : Nat) : Option PrickEntry := (schedule s c).find? (fun e => e.action == 3)

/-- OPEN of the class's INPUT_DEADLINE entry, 0 without one (R161). -/
def openNs (s : Dev) (c : Nat) : Nat := match deadlineEntry s c with | some e => e.arg | none => 0

/-- Whether no controller appears in two masks of one action (R129). -/
def masksDisjoint (s : Dev) (c act : Nat) : Bool :=
  (rangeFrom 0 8).all (fun k => decide (((schedule s c).filter (fun e => e.action == act && nbit e.arg k)).length ≤ 1))

/-- The SCHEDULE check (R129). -/
def scheduleOk (s : Dev) (c : Nat) : Bool :=
  let l := schedule s c
  let n (a : Nat) := (l.filter (fun e => e.action == a)).length
  l.all (fun e => decide (e.offset < periodNs s c) && decide (e.action ≤ 8)) &&
    decide (n 2 ≤ 1) && l.all (fun e => e.action != 2 || decide (e.arg < e.offset)) &&
    decide (n 3 ≤ 1) &&
    (match agreeEntry s c, deadlineEntry s c with
     | none, _ => true
     | some _, none => false
     | some a, some d => decide (d.offset < a.offset) || (d.offset == a.offset && decide (d.idx < a.idx))) &&
    masksDisjoint s c 4 && masksDisjoint s c 5

/-! ## Stream entries (R131, R146) -/

def S_EN : Nat × Nat := (0, 0)
def S_CLASS : Nat × Nat := (3, 1)
def S_K : Nat × Nat := (6, 4)
def S_REGION : Nat × Nat := (8, 7)
def S_DBANK : Nat × Nat := (13, 9)
def S_DBASE : Nat × Nat := (33, 14)
def S_LEN : Nat × Nat := (47, 34)
def S_TWIN : Nat × Nat := (48, 48)
def S_PORT : Nat × Nat := (54, 48)
def S_TC : Nat × Nat := (57, 55)

def ingressNow (s : Dev) (i : Nat) : Word := mget (fun _ => 0) s.cyc.ingressNow i
def egressNow (s : Dev) (i : Nat) : Word := mget (fun _ => 0) s.cyc.egressNow i

/-- Enabled streams of a class in a table, ascending. -/
def streamsOf (m : Map Word) (c : Nat) : List (Nat × Word) :=
  m.filter (fun e => bitsOf e.2 S_EN == 1 && bitsOf e.2 S_CLASS == c)

/-- Enabled egress streams of a class on controller `k`, ascending (R147). -/
def egressOn (m : Map Word) (c k : Nat) : List (Nat × Word) := (streamsOf m c).filter (fun e => bitsOf e.2 S_K == k)

/-! ## Descriptor lists (R138 to R142) -/

/-- The word of a descriptor list or template in plain bank `b`, read by the engines of controller `k`; `none`: past the bank, refused, or in an island without power (R142, 01 R17). A DBANK of 24 to 31 names no bank: the fetch fails and no bank counts it; one that names a bank in pair mode is read through the pair (log 121, DESIGN CHOICE). -/
def fetchDesc (s : Dev) (k b w : Nat) : Option Word × Dev :=
  if 1048576 ≤ w then (none, s)
  else if 24 ≤ b then (none, s)
  else
    match masterReadWord s (0x10 + k) (bankBase b + 8 * w) with
    | (some x, s1) => (some x.q.val, s1)
    | (none, s1) => (none, s1)

def dKind (d : Word) : Nat := bitsOf d (63, 61)
def dType (d : Word) : Nat := bitsOf d (60, 57)
def dBE (d : Word) : Bool := bitsOf d (56, 56) == 1
def dBitOff (d : Word) : Nat := bitsOf d (55, 53)
def dWidth (d : Word) : Nat := bitsOf d (52, 49) + 1
def dSC (d : Word) : Bool := bitsOf d (48, 48) == 1
def dOff (d : Word) : Nat := bitsOf d (47, 34)
def dF2I (d : Word) : Bool := bitsOf d (33, 33) == 1
def dSpan (d : Word) : Nat := bitsOf d (31, 20) + 1
def dWord (d : Word) : Nat := bitsOf d (19, 0)
def dCoef (d : Word) : Nat := bitsOf d (11, 0)
def dSconst (d : Word) : Nat := bitsOf d (7, 0)

/-- Bytes of a field type; bit fields are handled apart (R140) (log 12, DESIGN CHOICE). -/
def typeBytes (t : Nat) : Nat :=
  if t ≤ 1 then 1 else if t ≤ 3 then 2 else if t ≤ 5 then 4 else if t ≤ 7 then 8 else if t = 8 then 4 else 8

def isBitField (t : Nat) : Bool := t == 0xA || t == 0xB
def isIntType (t : Nat) : Bool := decide (t ≤ 7)
def isSignedType (t : Nat) : Bool := (decide (t ≤ 7) && t % 2 == 0) || t == 0xB

/-- Which of the three bytes of a bit field hold bits of it (R140). -/
def bitFieldBytes (d : Word) : List Nat :=
  [0, 1, 2].filter (fun i =>
    let lo := if dBE d then 16 - 8 * i else 8 * i
    decide (dBitOff d < lo + 8) && decide (lo < dBitOff d + dWidth d))

/-- Whether the bytes a FIELD reads or writes lie within a frame of `n` bytes (R142). -/
def fieldInside (d : Word) (n : Nat) : Bool :=
  if isBitField (dType d) then (bitFieldBytes d).all (fun i => decide (dOff d + i < n))
  else decide (dOff d + typeBytes (dType d) ≤ n)

/-- The 24 bits from which a bit field is taken. -/
def bits24 (d : Word) (fr : List Byte) : Nat :=
  let b (i : Nat) := (fr.getD (dOff d + i) 0).toNat
  if dBE d then b 0 * 65536 + b 1 * 256 + b 2 else b 0 + b 1 * 256 + b 2 * 65536

/-- The bytes of a field as a number in the order BE gives. -/
def fieldNat (d : Word) (fr : List Byte) : Nat :=
  let bs := (fr.drop (dOff d)).take (typeBytes (dType d))
  if dBE d then beNat bs else leNat bs

/-- gain × x + offset with one rounding to nearest even (R140). -/
def scale (s : Dev) (coef x : Nat) : Nat :=
  (fMac b64 0 (mget (fun _ => 0) s.cyc.coef0 coef).toNat x (mget (fun _ => 0) s.cyc.coef1 coef).toNat).bits

/-- Conversion of a scatter FIELD: the word's value, and whether it came out as a NaN (R71, R140). -/
def scatterConvert (s : Dev) (d : Word) (coef : Nat) (fr : List Byte) : Nat × Bool :=
  let t := dType d
  if t = 0xC then
    -- raw bytes: frame byte i becomes value byte i, or 7 − i under BE
    let bs := (fr.drop (dOff d)).take 8
    (if dBE d then beNat bs else leNat bs, false)
  else
    let raw := if isBitField t then bits24 d fr / 2 ^ dBitOff d % 2 ^ dWidth d else fieldNat d fr
    let w := if isBitField t then dWidth d else 8 * typeBytes t
    if t = 8 || t = 9 then
      let x := if t = 8 then (fWiden raw).bits else raw
      let y := if dSC d then scale s coef x else x
      (y, isNan (unpack b64 y))
    else
      let i : Int := if isSignedType t then toSigned w raw else raw
      if dSC d then
        let y := scale s coef (iToF b64 0 i).bits
        (y, isNan (unpack b64 y))
      else (ofSigned 64 i, false)

/-- A descriptor error is counted and flagged (R142). -/
def descError (s : Dev) (c : Nat) : Dev := fset (fincSat s (CYC_FLOW c) CYC_FLOW_DESC 1) CYC_ERR CYC_ERR_DESC 1

def profIn (s : Dev) (p i : Nat) : Byte := BitVec.ofNat 8 (mget (fun _ => 0) s.cyc.profIn (256 * p + i)).toNat
def profOut (s : Dev) (p : Nat) (tag : Byte) : Byte := BitVec.ofNat 8 (mget (fun _ => 0) s.cyc.profOut (256 * p + tag.toNat)).toNat

/-- What a scatter has done so far. -/
structure ScatRun where
  dev : Dev
  tag : Byte
  coef : Nat := 0
  /-- words written, newest first -/
  words : List Nat := []
  descs : Nat := 0
  ended : Bool := false

/-- A word of the stream's input region is written by the engine, as one of the words of its line that the frame writes when `lines` says that it writes the whole line (R103); outside the region it is refused and the list goes on (R142). -/
def scatterWrite (s : Dev) (k r word : Nat) (q : QWord) (lines : List Nat) : Dev × List Nat :=
  if word < 8 * fget s (IMG_REGION k r) IMG_REGION_COUNT && r < 3 && fget s (IMG_REGION k r) IMG_REGION_KIND == 1 &&
      fbit s (IMG_CTRL k) IMG_CTRL_ENABLE then
    let w := 8 * fget s (IMG_REGION k r) IMG_REGION_BASE + word
    let full := if lines.contains (word / 8) then rangeFrom 0 8 else [w % 8]
    let s1 := pairWriteOf s k r w full q
    (countImg (usePort s1 (3 * k + bitsOf (ltEntry s1 k (w / 8)) E_B) 0 (0x10 + k) 1) k 0x02 1, [word])
  else (refusePair s k (0x10 + k), [])

/-- One descriptor of a scatter list (R138, R142). -/
def scatterDesc (k r c : Nat) (job : ScatterJob) (lines : List Nat) (d : Word) (x : ScatRun) : ScatRun :=
  let n := job.frame.length
  let x := { x with descs := x.descs + 1 }
  match dKind d with
  | 0 =>
    if 0xD ≤ dType d || !(fieldInside d n) then
      let w := scatterWrite (descError x.dev c) k r (dWord d) ⟨0, 0x78⟩ lines
      { x with dev := w.1, words := w.2 ++ x.words }
    else
      let v := scatterConvert x.dev d x.coef job.frame
      let tag := if v.2 then mkTag 1 5 (tagLimit x.tag) (tagMaint x.tag) else x.tag
      let w := scatterWrite x.dev k r (dWord d) ⟨BitVec.ofNat 64 v.1, tag⟩ lines
      { x with dev := w.1, words := w.2 ++ x.words }
  | 1 =>
    if bitsOf d (56, 56) = 1 then { x with tag := profIn x.dev (dType d) (dSconst d) }
    else if dOff d < n then { x with tag := profIn x.dev (dType d) (job.frame.getD (dOff d) 0).toNat }
    else { x with dev := descError x.dev c, tag := 0x78 }
  | 2 => { x with coef := dCoef d }
  | 3 =>
    let w := scatterWrite x.dev k r (dWord d) ⟨BitVec.ofNat 64 job.stamp, x.tag⟩ lines
    { x with dev := w.1, words := w.2 ++ x.words }
  | 7 => { x with ended := true }
  | _ => { x with dev := descError x.dev c, ended := true }

/-- The next `n` descriptors of the list from word `w` on, of which at most `fuel` may still follow (R138, R142). -/
def scatterList (k r c b : Nat) (job : ScatterJob) (lines : List Nat) : Nat → Nat → Nat → ScatRun → ScatRun
  | 0, _, _, x => x
  | _, 0, _, x => { x with dev := descError x.dev c, ended := true }
  | n + 1, fuel + 1, w, x =>
    match fetchDesc x.dev k b w with
    | (none, s1) => { x with dev := descError s1 c, ended := true }
    | (some d, s1) =>
      let y := scatterDesc k r c job lines d { x with dev := s1 }
      if y.ended then y else scatterList k r c b job lines n fuel (w + 1) y

/-- The next `n` descriptors of an accepted frame, from where its list stands (R138). -/
def scatterRun (s : Dev) (k : Nat) (job : ScatterJob) (n : Nat) (lines : List Nat) : ScatRun :=
  let at_ := job.run.getD (0, profIn s 0 0, 0)
  scatterList k (bitsOf job.entry S_REGION) job.cls (bitsOf job.entry S_DBANK) job lines n (4096 - at_.1) (bitsOf job.entry S_DBASE + at_.1)
    { dev := s, tag := at_.2.1, coef := at_.2.2 }

/-- Lines of which a list of words covers all eight words (R103) (log 122, DEDUCED). -/
def wholeLines (l : List Nat) : List Nat := (l.map (· / 8)).filter (fun i => (rangeFrom 0 8).all (fun j => l.contains (8 * i + j)))

/-- Scatter of the next `n` descriptors of one accepted frame: a line whose eight words they all write takes no merge (R103, R138) (log 122, DEDUCED). -/
def scatterPart (s : Dev) (k : Nat) (job : ScatterJob) (n : Nat) : ScatRun :=
  scatterRun s k job n (wholeLines (scatterRun s k job n []).words)

/-- Scatter of one accepted frame (R138). -/
def scatterFrame (s : Dev) (k : Nat) (job : ScatterJob) : ScatRun := scatterPart s k job 4097

def scatterQueue (s : Dev) (k : Nat) : List ScatterJob := mget (fun _ => []) s.cyc.scatterQ k
def setScatterQueue (s : Dev) (k : Nat) (l : List ScatterJob) : Dev :=
  { s with cyc := { s.cyc with scatterQ := mset (fun _ => []) s.cyc.scatterQ k l } }

/-- The oldest job without a credit. -/
def uncredited : List ScatterJob → Option Nat
  | [] => none
  | j :: js => if j.credit then (uncredited js).map (· + 1) else some 0

/-- Frames that wait for a controller whose island has lost power are refused at its boundary; those the queue had accepted complete (01 R17) (log 144, DESIGN CHOICE). -/
def refuseUncredited (s : Dev) (k : Nat) : Dev :=
  if domOn s (24 + 3 * k) then s else setScatterQueue s k ((scatterQueue s k).filter (fun j => j.credit))

/-- Jobs that wait in the frame buffer take the credits there are, oldest first; with none left the queue goes on waiting (01 R13, R15). -/
def scatterCredits : Nat → Dev → Nat → Dev
  | 0, s, _ => s
  | fuel + 1, s, k =>
    match uncredited (scatterQueue s k) with
    | none => s
    | some i =>
      if mayIssue s (32 + k) then
        let l := scatterQueue s k
        scatterCredits fuel (setScatterQueue (takeCredit s (32 + k)) k (listSet l i { (l[i]?).getD { stream := 0, entry := 0, frame := [], stamp := 0, cls := 0, cycle := 0 } with credit := true })) k
      else stallOn s (32 + k)

/-- A job enters a controller's scatter queue under a credit, or waits for one in the frame buffer (01 R13, R15); a controller whose island has no power refuses it (01 R17) (log 144, DESIGN CHOICE). -/
def enqueueScatter (s : Dev) (k : Nat) (job : ScatterJob) : Dev :=
  if !(domOn s (24 + 3 * k)) then s else
  let s1 := scatterCredits (scatterQueue s k).length s k
  let ok := mayIssue s1 (32 + k) && (uncredited (scatterQueue s1 k)).isNone
  let s2 := setScatterQueue s1 k (scatterQueue s1 k ++ [{ job with credit := ok }])
  if ok then takeCredit s2 (32 + k) else countImg (stallOn s2 (32 + k)) k 0x08 1

/-- What the scatter of the next `n` descriptors of a job waits for at the pair and at its descriptor bank (01 R15, 03 R90, R96). -/
def scatterWaits (s : Dev) (k : Nat) (job : ScatterJob) (n : Nat) : List Nat :=
  let b := bitsOf job.entry S_DBANK
  bankWaits s (3 * k) 0 0 ++
    (if b < 24 then bankWaits s b (bankBase b + 8 * (bitsOf job.entry S_DBASE + (job.run.getD (0, 0, 0)).1)) (8 * n) else [])

/-- SCATTER: the next `n` descriptors of the oldest queued frame of a controller run, the last word at device time `at_`; the frame leaves the queue, and its credit returns, at the end of its list (R138, R143, R145). -/
def scatterNext (s : Dev) (k at_ n : Nat) : Dev :=
  let s0 := scatterCredits (scatterQueue s k).length (refuseUncredited s k) k
  match scatterQueue s0 k with
  | [] => s0
  | job :: rest =>
    if !job.credit then s0
    else engineAct s0 (scatterWaits s0 k job n) (fun s0 =>
      let x := scatterPart (advanceTo s0 at_) k job n
      if x.ended then
        let s1 := scatterCredits rest.length (giveCredit (setScatterQueue x.dev k rest) (32 + k)) k
        fmax s1 (CYC_HWM job.cls) CYC_HWM_SCATTER_MAX (nowNs s1 - (cls s1 job.cls).t0)
      else setScatterQueue x.dev k ({ job with run := some ((job.run.getD (0, 0, 0)).1 + x.descs, x.tag, x.coef) } :: rest))

/-! ## The input window and cyclic frames (R134 to R137) -/

/-- Outcome codes of STREAM packets (16 R610). -/
inductive CyclicOutcome where
  | notCyclic | accepted | early | late | bad
deriving DecidableEq, Repr

/-- Judgement of a frame of stream `i` by its last-bit timestamp (R134). -/
def judgeCyclic (s : Dev) (i len ts : Nat) : CyclicOutcome :=
  let e := ingressNow s i
  if bitsOf e S_EN = 0 then .notCyclic
  else
    let c := bitsOf e S_CLASS
    if fbit s (CYC_CLASS_CTRL c) CYC_CLASS_CTRL_RUNNING then
      match deadlineEntry s c with
      | none => .late
      | some d =>
        let t0 := (cls s c).t0
        if ts < t0 + d.arg then .early
        else if t0 + d.offset ≤ ts then .late
        else if bitsOf e S_LEN ≠ 0 ∧ len ≠ bitsOf e S_LEN then .bad
        else .accepted
    else .late

/-- An accepted frame is queued for scatter and its arrival bit set (R134, R136). -/
def acceptCyclic (s : Dev) (i : Nat) (fr : List Byte) (ts : Nat) (filled : Bool) : Dev :=
  let e := ingressNow s i
  let c := bitsOf e S_CLASS
  let x := cls s c
  let s1 := if x.arrived.contains i then fincSat s (CYC_INPUT c) CYC_INPUT_REPEAT 1
    else setCls s c { x with arrived := x.arrived ++ [i] }
  enqueueScatter s1 (bitsOf e S_K)
    { stream := i, entry := e, frame := fr, stamp := ts, cls := c, cycle := (reg s (CYC_NUMBER c)).toNat, filled := filled }

/-- A cyclic frame at its last bit: accepted and queued, or discarded and counted (R134, R135). -/
def cyclicFrame (s : Dev) (i : Nat) (fr : List Byte) (ts : Nat) : Dev :=
  let c := bitsOf (ingressNow s i) S_CLASS
  match judgeCyclic s i fr.length ts with
  | .notCyclic => s
  | .accepted => trcStream (acceptCyclic s i fr ts false) i 0 ts
  | .early => trcStream (fincSat s (CYC_INPUT c) CYC_INPUT_EARLY 1) i 1 ts
  | .late => trcStream (fincSat s (CYC_INPUT c) CYC_INPUT_LATE 1) i 2 ts
  | .bad => trcStream (fincSat s (CYC_INPUT c) CYC_INPUT_BAD 1) i 3 ts

/-! ## Gather lists (R146 to R150) -/

/-- A status span under way (R148). -/
structure Span where
  left : Nat
  prof : Nat
  off : Nat
  tags : List Byte := []
  err : Bool := false
deriving DecidableEq, Repr

/-- What a gather has done so far. -/
structure GathRun where
  dev : Dev
  frame : List Byte
  coef : Nat := 0
  span : Option Span := none
  groups : List Nat := []
  descs : Nat := 0
  ended : Bool := false

/-- Bytes placed in the frame from position `o`. -/
def placeBytes (fr : List Byte) (o : Nat) : List Byte → List Byte
  | [] => fr
  | b :: bs => placeBytes (listSet fr o b) (o + 1) bs

/-- The status byte of a finished or cut span is placed (R148); an error makes it the entry for 0x78 (R142) (log 123, DESIGN CHOICE). -/
def closeSpan (c : Nat) (x : GathRun) : GathRun :=
  match x.span with
  | none => x
  | some sp =>
    let tag : Byte := if sp.err then 0x78 else worstWhole (sp.tags.headD 0) sp.tags
    if sp.off < x.frame.length then { x with span := none, frame := listSet x.frame sp.off (profOut x.dev sp.prof tag) }
    else { x with span := none, dev := descError x.dev c }

/-- A FIELD of the span has been processed under `tag`. -/
def spanField (c : Nat) (tag : Byte) (err : Bool) (x : GathRun) : GathRun :=
  match x.span with
  | none => x
  | some sp =>
    let sp1 := { sp with left := sp.left - 1, tags := sp.tags ++ [tag], err := sp.err || err }
    let y := { x with span := some sp1 }
    if sp1.left = 0 then closeSpan c y else y

/-- The bytes a gather FIELD places from the value `v` (R140) (log 12, DESIGN CHOICE). -/
def gatherBytes (s : Dev) (d : Word) (coef v : Nat) (fr : List Byte) : List Byte :=
  let t := dType d
  let x := if dSC d && t != 0xC then scale s coef v else v
  let order (bs : List Byte) := if dBE d then bs.reverse else bs
  if t = 0xC then order (leBytes 8 v)
  else if t = 8 then order (leBytes 4 (fNarrow 0 x).bits)
  else if t = 9 then order (leBytes 8 x)
  else
    let w := if isBitField t then dWidth d else 8 * typeBytes t
    let lo : Int := if isSignedType t then -(2 ^ (w - 1) : Nat) else 0
    let hi : Int := if isSignedType t then (2 ^ (w - 1) : Nat) - 1 else (2 ^ w : Nat) - 1
    let n := if dF2I d then ofSigned w (toInt b64 0 x lo hi).1 else x % 2 ^ w
    if isBitField t then
      let old := bits24 d fr
      let m := old % 2 ^ dBitOff d + n * 2 ^ dBitOff d + old / 2 ^ (dBitOff d + w) * 2 ^ (dBitOff d + w)
      (if dBE d then beBytes 3 m else leBytes 3 m)
    else order (leBytes (typeBytes t) n)

/-- Whether word `word` of region `r` is one of an output region, so that a gather reads it (R93, R149). -/
def inOutput (s : Dev) (k r word : Nat) : Bool :=
  word < 8 * fget s (IMG_REGION k r) IMG_REGION_COUNT && r < 3 && fget s (IMG_REGION k r) IMG_REGION_KIND == 2

/-- The word a gather FIELD reads from its output region at P = C − 1; a refused word counts as value 0 with tag 0x78 (R149). -/
def gatherWord (s : Dev) (k r word : Nat) : QWord × Dev :=
  if inOutput s k r word && fbit s (IMG_CTRL k) IMG_CTRL_ENABLE then
    let w := 8 * fget s (IMG_REGION k r) IMG_REGION_BASE + word
    let x := pairReadNote s k r w ((fillStamp s k + 65535) % 65536)
    (x.1.q, countImg (useAddr x.2 0 (0x10 + k) x.1.addr) k 0x06 1)
  else (⟨0, 0x78⟩, refusePair s k (0x10 + k))

/-- Whether a gather FIELD is a descriptor error in a frame of `n` bytes, so that it reads no word (R142). -/
def fieldError (d : Word) (n : Nat) : Bool :=
  decide (0xD ≤ dType d) || !(fieldInside d n) || (dSC d && (isIntType (dType d) || isBitField (dType d)) && !(dF2I d))

/-- A descriptor error outside a FIELD: counted, and a span under way takes the entry for 0x78 (R142, R148). -/
def gatherError (c : Nat) (x : GathRun) : GathRun :=
  { x with dev := descError x.dev c, span := x.span.map (fun sp => { sp with err := true }) }

/-- One descriptor of a gather list (R142, R148, R149). -/
def gatherDesc (k r c : Nat) (d : Word) (x : GathRun) : GathRun :=
  let n := x.frame.length
  let x := { x with descs := x.descs + 1 }
  match dKind d with
  | 0 =>
    let t := dType d
    if fieldError d n then
      spanField c 0x78 true { x with dev := descError x.dev c }
    else
      let q := gatherWord x.dev k r (dWord d)
      let bs := gatherBytes q.2 d x.coef q.1.val.toNat x.frame
      let fr := if isBitField t then
          (bitFieldBytes d).foldl (fun f i => listSet f (dOff d + i) (bs.getD i 0)) x.frame
        else placeBytes x.frame (dOff d) bs
      spanField c q.1.tag false { x with dev := q.2, frame := fr, groups := if inOutput x.dev k r (dWord d) then (dWord d / 4) :: x.groups else x.groups }
  | 1 =>
    let y := closeSpan c x
    { y with span := some { left := dSpan d, prof := dType d, off := dOff d } }
  | 2 => { x with coef := dCoef d }
  | 3 =>
    if dOff d + 4 ≤ n then
      { x with frame := placeBytes x.frame (dOff d) (beBytes 4 (((reg x.dev (CYC_NUMBER c)).toNat + (2 ^ 64 - 1)) % 2 ^ 32)) }
    else gatherError c x
  | 4 =>
    if dOff d + 4 ≤ n then
      { x with frame := placeBytes x.frame (dOff d) (beBytes 4 (fget x.dev TWIN_EPOCH TWIN_EPOCH_EPOCH)) }
    else gatherError c x
  | 7 => { closeSpan c x with ended := true }
  | _ => let y := closeSpan c { x with dev := descError x.dev c }
         { y with ended := true }

/-- A gather list from word `w` on. A span cut short by a reserved KIND, by the limit of descriptors or by a failed fetch is placed from the tags so far, as at END (R142, R148) (log 123, DESIGN CHOICE). -/
def gatherList (k r c b : Nat) : Nat → Nat → GathRun → GathRun
  | 0, _, x => let y := closeSpan c { x with dev := descError x.dev c }
               { y with ended := true }
  | fuel + 1, w, x =>
    match fetchDesc x.dev k b w with
    | (none, s1) => let y := closeSpan c { x with dev := descError s1 c }
                    { y with ended := true }
    | (some d, s1) =>
      let y := gatherDesc k r c d { x with dev := s1 }
      if y.ended then y else gatherList k r c b fuel (w + 1) y

/-- The template words of a stream, `n` of them from word `w`; `none` when a fetch is refused (R142). -/
def fetchTemplate (k b : Nat) : Nat → Nat → Dev → Option (List Byte) × Dev
  | 0, _, s => (some [], s)
  | n + 1, w, s =>
    match fetchDesc s k b w with
    | (none, s1) => (none, s1)
    | (some v, s1) =>
      match fetchTemplate k b n (w + 1) s1 with
      | (some l, s2) => (some (leBytes 8 v.toNat ++ l), s2)
      | (none, s2) => (none, s2)

def dedup : List Nat → List Nat
  | [] => []
  | x :: xs => if xs.contains x then dedup xs else x :: dedup xs

/-- Image clocks of a stream: 4 + max(ceil((T + D) / 8), A) (R150) (log 14, DESIGN CHOICE) (log 124, DESIGN CHOICE). -/
def gatherCost (t d a : Nat) : Nat := 4 + max ((t + d + 7) / 8) a

/-- A frame built from its template and list: the frame (none when the template is refused) and its cost (R147, R150). A stream whose template is refused costs 4 + ceil(T / 8) (log 124, DESIGN CHOICE). -/
def buildFrame (s : Dev) (k : Nat) (e : Word) : Option (List Byte) × Nat × Dev :=
  let c := bitsOf e S_CLASS
  let b := bitsOf e S_DBANK
  let tlen := bitsOf e S_LEN
  let t := (tlen + 7) / 8
  match fetchTemplate k b t (bitsOf e S_DBASE) s with
  | (none, s1) => (none, gatherCost t 0 0, descError s1 c)
  | (some l, s1) =>
    let x := gatherList k (bitsOf e S_REGION) c b 4096 (bitsOf e S_DBASE + t) { dev := s1, frame := l.take tlen }
    (some x.frame, gatherCost t x.descs (dedup x.groups).length, x.dev)

/-- Descriptors, and groups of words of the output region, of a list as it stands for a frame of `len` bytes, without effects: for the reaction check (R150, R161). -/
def listCost (s : Dev) (k r b len : Nat) : Nat → Nat → Nat → List Nat → Nat × List Nat
  | 0, _, n, g => (n, g)
  | fuel + 1, w, n, g =>
    match (fetchDesc s k b w).1 with
    | none => (n, g)
    | some d =>
      match dKind d with
      | 0 => listCost s k r b len fuel (w + 1) (n + 1) (if fieldError d len || !(inOutput s k r (dWord d)) then g else (dWord d / 4) :: g)
      | 1 | 2 | 3 | 4 => listCost s k r b len fuel (w + 1) (n + 1) g
      | _ => (n + 1, g)

/-- Cost c of an egress stream by its list as it stands (R150, R161). -/
def streamCost (s : Dev) (k : Nat) (e : Word) : Nat :=
  let t := (bitsOf e S_LEN + 7) / 8
  let x := listCost s k (bitsOf e S_REGION) (bitsOf e S_DBANK) (bitsOf e S_LEN) 4096 (bitsOf e S_DBASE + t) 0 []
  gatherCost t x.1 (dedup x.2).length

/-- S_k of a class over a table of egress entries (R161). -/
def costSum (s : Dev) (m : Map Word) (c k : Nat) : Nat := ((egressOn m c k).map (fun e => streamCost s k e.2)).sum

/-- Controllers in the masks of an action, with the entry's offset. -/
def maskedCtls (s : Dev) (c act : Nat) : List (Nat × Nat) :=
  (schedule s c).flatMap (fun e => if e.action = act then ((rangeFrom 0 8).filter (nbit e.arg)).map (fun k => (k, e.offset)) else [])

/-- The reaction check of a class over a table of egress entries (R161), in tenths of a nanosecond; and the largest S_k (log 125, DESIGN CHOICE). -/
def reactionCheck (s : Dev) (m : Map Word) (c : Nat) : Bool × Nat :=
  let l := (maskedCtls s c 4).map (fun x => (x.2, costSum s m c x.1))
  (l.all (fun x => decide (10 * x.1 + 320 + 8 * x.2 + 1000 + 3000 ≤ 20000 + 10 * openNs s c)),
   l.foldl (fun n x => max n x.2) 0)

/-! ## Gather runs -/

def gatherRuns (s : Dev) (k : Nat) : List GatherRun := mget (fun _ => []) s.cyc.gathers k
def setGatherRuns (s : Dev) (k : Nat) (l : List GatherRun) : Dev :=
  { s with cyc := { s.cyc with gathers := mset (fun _ => []) s.cyc.gathers k l } }
def builtFrames (s : Dev) (k : Nat) : List BuiltFrame := mget (fun _ => []) s.cyc.built k
def setBuilt (s : Dev) (k : Nat) (l : List BuiltFrame) : Dev :=
  { s with cyc := { s.cyc with built := mset (fun _ => []) s.cyc.built k l } }

/-- GATHER_START action: a gather starts on each masked controller whose island has power (R147, 01 R17). -/
def actGather (s : Dev) (c : Nat) (e : PrickEntry) : Dev :=
  ((rangeFrom 0 8).filter (nbit e.arg)).foldl (fun s k =>
    let l := egressOn s.cyc.egressNow c k
    if l.isEmpty || !(domOn s (24 + 3 * k)) then s
    else setGatherRuns s k (gatherRuns s k ++ [{ cls := c, todo := l.map (·.1), start := e.offset, entries := l }])) s

def findRun (c : Nat) : List GatherRun → Option GatherRun
  | [] => none
  | r :: rs => if r.cls = c then some r else findRun c rs
def putRun (x : GatherRun) : List GatherRun → List GatherRun
  | [] => []
  | r :: rs => if r.cls = x.cls then (if x.todo.isEmpty then rs else x :: rs) else r :: putRun x rs

/-- Offset from T0 at which a frame is handed over: g + 32 ns + 0.8 ns × cost + 100 ns, rounded up to whole ns (R150) (log 14, DESIGN CHOICE). -/
def handoverOffset (g cost : Nat) : Nat := (10 * g + 320 + 8 * cost + 1000 + 9) / 10

/-- What the building of a stream waits for: credits of the pair, of its descriptor bank and of the queue to the port queues, a word of its list or template that an atomic works on, the pair's initialisation (01 R15, 03 R90, R96). -/
def gatherWaits (s : Dev) (k : Nat) (e : Word) : List Nat :=
  let b := bitsOf e S_DBANK
  bankWaits s (3 * k) 0 0 ++ (if b < 24 then bankWaits s b (bankBase b + 8 * bitsOf e S_DBASE) (8 * (4096 + (bitsOf e S_LEN + 7) / 8)) else [])

/-- GATHER_STREAM: the next stream of the run is built; its frame waits for handover under a credit of the queue to the port queues (R147, R150, 01 R15) (log 22, DEDUCED). -/
def gatherStream (s : Dev) (k c : Nat) : Dev :=
  match findRun c (gatherRuns s k) with
  | none => s
  | some run =>
    match run.todo with
    | [] => s
    | st :: rest =>
      let e := mget (fun _ => 0) run.entries st
      if !(mayIssue s (40 + k)) then countImg (stallOn s (40 + k)) k 0x09 1
      else engineAct s (gatherWaits s k e) (fun s =>
      let b := buildFrame s k e
      let cost := run.cost + b.2.1
      let s1 := setGatherRuns b.2.2 k (putRun { run with todo := rest, cost := cost } (gatherRuns b.2.2 k))
      match b.1 with
      | none => s1
      | some fr =>
        setBuilt (takeCredit s1 (40 + k)) k (builtFrames s1 k ++ [{ stream := st, entry := e, frame := fr, cls := c, cycle := (reg s (CYC_NUMBER c)).toNat, offset := handoverOffset run.start cost }]))

/-! ## Release and cycle end (R153 to R158) -/

/-- A released thread (R154); an interrupt that waits for it is taken before the first instruction of its cycle function (11 R437). -/
def releaseThread (s : Dev) (t : Nat) (entry : Nat) (c : Nat) : Dev :=
  let n := (reg s (CYC_NUMBER c)).toNat
  let s1 := modThr s t (fun x => { x with
    st := .running, pc := entry, slot := .none, cycpin := BitVec.ofNat 64 (n + (2 ^ 64 - 1)),
    releaseT0 := (cls s c).t0, releaseCls := c, released := true, waitSpare := false, relHeld := none })
  interrupt (trcTarget s1 t entry) t

/-- Thread a thread-table entry names. -/
def entryThr (w : Word) : Nat := bitsOf w (8, 1) * 8 + bitsOf w (11, 9)

/-- A release that finds its thread not at cycle end (R158). -/
def skipRelease (s : Dev) (c i : Nat) : Dev :=
  logRec (fset (fincSat s (CYC_OVERRUN c) CYC_OVERRUN_SKIPPED 1) (CYC_OVERRUN c) CYC_OVERRUN_LAST_THREAD i) WARNING SB_CYC c 0x0405 []

/-- RELEASE of the masked groups (R154, R158). An entry whose CORE is above 191 names no thread of the device, and each RELEASE of it counts as skipped (log 145, DESIGN CHOICE). -/
def actRelease (s : Dev) (c mask : Nat) : Dev :=
  (classEntries s c).foldl (fun s e =>
    if nbit mask (bitsOf e.2 (15, 12)) then
      let t := entryThr e.2
      if t < 1536 ∧ (thr s t).st = .cycleWait ∧ s.smp.moves.any (fun m => m.1 == t / 8) then
        modThr s t (fun x => { x with relHeld := some (c, bitsOf e.2 (63, 16)) })
      else if t < 1536 ∧ (thr s t).st = .cycleWait then releaseThread s t (bitsOf e.2 (63, 16)) c
      else skipRelease s c e.1
    else s) s

/-- CYCLE_END: after TWAIT.C, once every store of the thread has been accepted, it waits for its next release; a thread halted meanwhile waits when it resumes (R156, R157, 09 R334). DONE_MAX takes the offset of a thread that runs under a release (log 51, DEDUCED). -/
def cycleEnd (s : Dev) (t : Nat) : Dev :=
  let x := thr s t
  if x.st == .running && x.cycleEnd && x.storeBuf.isEmpty && x.accs.all (fun a => a.phase == .returned || !(accIsStore a.op || accIsAtomic a.op)) then
    let s1 := modThr s t (fun x => { x with st := .cycleWait, cycleEnd := false })
    trcFlush (if x.released then fmax s1 (CYC_HWM x.releaseCls) CYC_HWM_DONE_MAX (nowNs s1 - x.releaseT0) else s1) t
  else s

/-! ## Class enable and disable (R119 to R121) -/

/-- CHECK 3: enabled entries name one partition, which a spare has not (09 R353), and no thread twice. -/
def threadsOk (s : Dev) (c : Nat) : Bool :=
  let l := classEntries s c
  let parts := dedup (l.map (fun e => corePart s (bitsOf e.2 (8, 1))))
  let ts := l.map (fun e => entryThr e.2)
  decide (parts.length ≤ 1) && (dedup ts).length == ts.length && l.all (fun e => coreMode s (bitsOf e.2 (8, 1)) != 3)

/-- CHECK 4: every controller named by the schedule or an enabled stream is enabled for the class. It judges the stream entries in force, where CHECK 5 judges the egress entries last written (log 125, DESIGN CHOICE). -/
def imagesOk (s : Dev) (c : Nat) : Bool :=
  let ks := (maskedCtls s c 4).map (·.1) ++ (maskedCtls s c 5).map (·.1) ++
    (streamsOf s.cyc.ingressNow c).map (fun e => bitsOf e.2 S_K) ++ (streamsOf s.cyc.egressNow c).map (fun e => bitsOf e.2 S_K)
  ks.all (fun k => fbit s (IMG_CTRL k) IMG_CTRL_ENABLE && imgClass s k == c)

/-- The first failing check of R119, 0 when all pass. -/
def enableCheck (s : Dev) (c : Nat) : Nat :=
  let p := fget s (CYC_PERIOD c) CYC_PERIOD_PERIOD
  if p < 250 ∨ 4000000 < p then 1
  else if !(scheduleOk s c) then 2
  else if !(threadsOk s c) then 3
  else if !(imagesOk s c) then 4
  else if !(reactionCheck s s.cyc.egress c).1 then 5
  else 0

/-- First boundary m ≥ 0 more than 10 µs after the write (R120) (log 16, DEDUCED). -/
def firstBoundary (s : Dev) (c : Nat) : Nat :=
  let lim := nowNs s + 10000
  let ep := (reg s (CYC_EPOCH c)).toNat
  if lim < ep then 0 else (lim - ep) / periodNs s c + 1

/-- The limit of the rate correction in 10^-3 ppb (R115) (log 74, DEDUCED). -/
def slewLimit (s : Dev) : Int := (fget s CYC_CTRL CYC_CTRL_SLEW_MAX * 10 ^ 6 : Nat)

/-- Whether a class is enabled (R114). -/
def anyClassOn (s : Dev) : Bool := (rangeFrom 0 8).any (fun c => fbit s (CYC_CLASS_CTRL c) CYC_CLASS_CTRL_ENABLE)

/-- A rate within the limit, which applies while a class is enabled (R115) (log 74, DEDUCED). -/
def clipRate (s : Dev) (r : Int) : Int :=
  if !(anyClassOn s) then r
  else if r < -(slewLimit s) then -(slewLimit s) else if slewLimit s < r then slewLimit s else r

/-- The rate in force comes within the limit when a class is enabled or the limit falls (R115). -/
def limitRate (s : Dev) : Dev := { s with rate := clipRate s s.rate }

/-- A write of 1 to CYC_CLASS_CTRL.ENABLE (R119 to R121). Written while ENABLE is 1 it runs no check and changes nothing (log 146, DESIGN CHOICE). -/
def classEnable (s : Dev) (c : Nat) : Dev :=
  if fbit s (CYC_CLASS_CTRL c) CYC_CLASS_CTRL_STOPPING then fset s CYC_ERR CYC_ERR_RUNNING 1
  else if fbit s (CYC_CLASS_CTRL c) CYC_CLASS_CTRL_ENABLE then s
  else
    let k := enableCheck s c
    let s1 := fset s (CYC_CLASS_CTRL c) CYC_CLASS_CTRL_CHECK k
    if k = 0 then
      let s2 := fset s1 (CYC_CLASS_CTRL c) CYC_CLASS_CTRL_ENABLE 1
      let s3 := fset s2 (CYC_SPAN c) CYC_SPAN_GATHER_COST (reactionCheck s s.cyc.egress c).2
      setCls (limitRate s3) c { cls s3 c with armed := true, nextM := firstBoundary s c, ran := [], arrived := [], counted := [] }
    else s1

/-- A write of 0 to ENABLE (R121). -/
def classDisable (s : Dev) (c : Nat) : Dev :=
  if fbit s (CYC_CLASS_CTRL c) CYC_CLASS_CTRL_ENABLE then
    let s1 := fset s (CYC_CLASS_CTRL c) CYC_CLASS_CTRL_ENABLE 0
    if fbit s (CYC_CLASS_CTRL c) CYC_CLASS_CTRL_RUNNING then fset s1 (CYC_CLASS_CTRL c) CYC_CLASS_CTRL_STOPPING 1
    else setCls s1 c { cls s1 c with armed := false }
  else s

/-! ## Table access (R165, R166, R122, R132, R133, R161) -/

/-- Entries of a CYC table (R166). -/
def cycTableSize : Nat → Nat
  | 0 => 512
  | 1 => 2048
  | 2 => 16384
  | 3 => 16384
  | 4 => 4096
  | 5 => 4096
  | 6 => 4096
  | _ => 0

/-- Both data words of a table entry. -/
def cycEntry (s : Dev) (table i : Nat) : Word × Word :=
  let g (m : Map Word) : Word := mget (fun _ => 0) m i
  match table with
  | 0 => (g s.cyc.pricking, 0)
  | 1 => (g s.cyc.threads, 0)
  | 2 => (g s.cyc.ingress, g s.cyc.ingress1)
  | 3 => (g s.cyc.egress, 0)
  | 4 => (g s.cyc.profIn, 0)
  | 5 => (g s.cyc.profOut, 0)
  | _ => (g s.cyc.coef0, g s.cyc.coef1)

/-- CYC_TBL_INDEX with GO and WRITE 0 (R165). -/
def cycTblRead (s : Dev) (table i : Nat) : Dev :=
  let s0 := fset (fset (fset s CYC_TBL_INDEX CYC_TBL_INDEX_TABLE table) CYC_TBL_INDEX CYC_TBL_INDEX_INDEX i) CYC_TBL_INDEX CYC_TBL_INDEX_WRITE 0
  if cycTableSize table ≤ i then fset s0 CYC_ERR CYC_ERR_TBL_RANGE 1
  else
    let e := cycEntry s table i
    let s1 := setReg s0 CYC_TBL_DATA0 e.1
    if table = 6 ∨ table = 2 then setReg s1 CYC_TBL_DATA1 e.2 else s1

/-- Class that governs a stream entry: that of the entry in force when it is enabled, else the one the write names (R133). -/
def governing (now new : Word) : Nat := if bitsOf now S_EN = 1 then bitsOf now S_CLASS else bitsOf new S_CLASS

/-- Whether a write that enables a stream entry is refused (R132); `kind` 1 input, 2 output. -/
def streamRefused (s : Dev) (kind : Nat) (v : Word) : Bool :=
  bitsOf v S_EN == 1 &&
    (bitsOf v S_REGION == 3 || fget s (IMG_REGION (bitsOf v S_K) (bitsOf v S_REGION)) IMG_REGION_KIND != kind ||
      imgClass s (bitsOf v S_K) != bitsOf v S_CLASS)

/-- A value into one table. -/
def putCyc (s : Dev) (table i : Nat) (v : Word) : Dev :=
  let p (m : Map Word) (v : Word) : Map Word := mset (fun _ => 0) m i v
  match table with
  | 0 => { s with cyc := { s.cyc with pricking := p s.cyc.pricking v } }
  | 1 => { s with cyc := { s.cyc with threads := p s.cyc.threads v } }
  | 2 => { s with cyc := { s.cyc with ingress := p s.cyc.ingress v, ingress1 := p s.cyc.ingress1 (reg s CYC_TBL_DATA1) } }
  | 3 => { s with cyc := { s.cyc with egress := p s.cyc.egress v } }
  | 4 => { s with cyc := { s.cyc with profIn := p s.cyc.profIn v } }
  | 5 => { s with cyc := { s.cyc with profOut := p s.cyc.profOut v } }
  | _ => { s with cyc := { s.cyc with coef0 := p s.cyc.coef0 v, coef1 := p s.cyc.coef1 (reg s CYC_TBL_DATA1) } }

/-- A stream entry takes effect when its governing class is not running, otherwise at that class's next boundary (R133). -/
def applyStream (s : Dev) (table i : Nat) : Dev :=
  if table = 2 then
    { s with cyc := { s.cyc with ingressNow := mset (fun _ => 0) s.cyc.ingressNow i (mget (fun _ => 0) s.cyc.ingress i) } }
  else
    { s with cyc := { s.cyc with egressNow := mset (fun _ => 0) s.cyc.egressNow i (mget (fun _ => 0) s.cyc.egress i) } }

/-- The stream writes waiting for a boundary of class `c` take effect (R133). -/
def applyPending (s : Dev) (c : Nat) : Dev :=
  let wait (w n : Map Word) : List Nat :=
    (dedup (w.map (·.1) ++ n.map (·.1))).filter (fun i =>
      let a : Word := mget (fun _ => 0) w i
      let b : Word := mget (fun _ => 0) n i
      a != b && governing b a == c)
  let s1 := (wait s.cyc.ingress s.cyc.ingressNow).foldl (fun s i => applyStream s 2 i) s
  (wait s1.cyc.egress s1.cyc.egressNow).foldl (fun s i => applyStream s 3 i) s1

/-- Whether a class is running, so that stream writes wait for its boundary. -/
def classRuns (s : Dev) (c : Nat) : Bool := fbit s (CYC_CLASS_CTRL c) CYC_CLASS_CTRL_RUNNING

/-- A value written to a table entry, with every check of R122, R132 and R161; `twinOk` is the budget check of 07 R271. -/
def cycPut (s : Dev) (table i : Nat) (v : Word) (twinOk : Bool) : Dev :=
  let en (c : Nat) := fbit s (CYC_CLASS_CTRL c) CYC_CLASS_CTRL_ENABLE
  if cycTableSize table ≤ i then fset s CYC_ERR CYC_ERR_TBL_RANGE 1
  else
    match table with
    | 0 => if en (i / 64) then fset s CYC_ERR CYC_ERR_RUNNING 1 else putCyc s 0 i v
    | 1 => if en (i / 256) then fset s CYC_ERR CYC_ERR_RUNNING 1 else putCyc s 1 i v
    | 2 =>
      if streamRefused s 1 v then fset s CYC_ERR CYC_ERR_STREAM 1
      else if !twinOk then s
      else
        let s1 := putCyc s 2 i v
        if classRuns s (governing (ingressNow s i) v) then s1 else applyStream s1 2 i
    | 3 =>
      if streamRefused s 2 v then fset s CYC_ERR CYC_ERR_STREAM 1
      else
        let old : Word := mget (fun _ => 0) s.cyc.egress i
        let cs := (if bitsOf old S_EN = 1 ∧ bitsOf old S_CLASS ≠ bitsOf v S_CLASS then [bitsOf old S_CLASS] else []) ++ [bitsOf v S_CLASS]
        let s1 := putCyc s 3 i v
        let checks := (cs.filter en).map (fun c => (c, reactionCheck s s1.cyc.egress c))
        if checks.any (fun r => !r.2.1) then fset s CYC_ERR CYC_ERR_REACTION 1
        else
          let s2 := checks.foldl (fun s r => fset s (CYC_SPAN r.1) CYC_SPAN_GATHER_COST r.2.2) s1
          if classRuns s (governing (egressNow s i) v) then s2 else applyStream s2 3 i
    | t => putCyc s t i v

/-- CYC_TBL_INDEX with GO and WRITE 1 (R165). -/
def cycTblWrite (s : Dev) (table i : Nat) (twinOk : Bool) : Dev :=
  let s0 := fset (fset (fset s CYC_TBL_INDEX CYC_TBL_INDEX_TABLE table) CYC_TBL_INDEX CYC_TBL_INDEX_INDEX i) CYC_TBL_INDEX CYC_TBL_INDEX_WRITE 1
  cycPut s0 table i (reg s CYC_TBL_DATA0) twinOk

/-! ## Time (R114 to R116) -/

/-- A read of CYC_TIME latches the fraction (R114, 21 R698). -/
def readCycTime (s : Dev) : Dev :=
  { fset s CYC_TIME_FRAC CYC_TIME_FRAC_FRAC (nowFrac s) with readData := BitVec.ofNat 64 (nowNs s) }

/-- The selected domain loses sync: device time goes on at its last rate (R116). -/
def holdover (s : Dev) : Dev :=
  if fget s CYC_CTRL CYC_CTRL_TSRC < 2 && fget s CYC_TIME_STATUS CYC_TIME_STATUS_STATE != 3 then
    logRec (fset s CYC_TIME_STATUS CYC_TIME_STATUS_STATE 3) NOTICE SB_CYC 0 0x0404 []
  else s

/-- The end of a cycle of class `c`: frames of it not yet scattered are cut (R144), gathers not complete are cut (R151). -/
def cutCycle (s : Dev) (c : Nat) : Dev :=
  let s1 := (rangeFrom 0 8).foldl (fun s k =>
    let q := scatterQueue s k
    let cut := q.filter (fun j => j.cls == c)
    cut.foldl (fun s j =>
      let s2 := giveCredit (fincSat s (CYC_FLOW c) CYC_FLOW_SCATTER_CUT 1) (32 + k)
      trcStream (logRec s2 WARNING SB_CYC c 0x0402 []) j.stream 6 (nowNs s2)) (setScatterQueue s k (q.filter (fun j => j.cls != c)))) s
  let open_ := (rangeFrom 0 8).filter (fun k => (gatherRuns s1 k).any (fun r => r.cls == c))
  let s2 := open_.foldl (fun s k => setGatherRuns s k ((gatherRuns s k).filter (fun r => r.cls != c))) s1
  if open_.isEmpty then s2
  else logRec (fincSat s2 (CYC_FLOW c) CYC_FLOW_GATHER_CUT 1) WARNING SB_CYC c 0x0403 []

/-- Controllers that serve a class. -/
def classCtls (s : Dev) (c : Nat) : List Nat :=
  (rangeFrom 0 8).filter (fun k => fbit s (IMG_CTRL k) IMG_CTRL_ENABLE && imgClass s k == c)

/-- The stamp changed: abandons that waited past the boundary are given up with an ALERT (15 R555); masks of the ended stamp are forgotten (R108). -/
def endAbandons (s : Dev) (c ended : Nat) : Dev :=
  (classCtls s c).foldl (fun s k =>
    let x := imgSt s k
    let lost := x.abandonWait.filter (fun w => w.1 == ended && w.2.2 == c)
    let s1 := setImg s k { x with abandonWait := x.abandonWait.filter (fun w => !(w.1 == ended && w.2.2 == c)), abandoned := x.abandoned.filter (fun a => a.1 != ended) }
    lost.foldl (fun s _ => logRec s ALERT SB_IMG k 0x0F07 [k, c]) s1) s

end Sys2Proof.Machine
end

