-- ==== Sys2Proof/Machine/Pcie.lean ====
section
/-! DEFINITION. Pcie: the PCIe root ports: numbering, inbound requests, completions, link state, PERST_N (05 R202 to R208, 11 R432). -/
namespace Sys2Proof.Machine

/-- Root ports of one half of a group by its split code (R202). -/
def halfPorts : Nat → Nat
  | 0 => 1
  | 1 => 2
  | 2 => 4
  | _ => 0

/-- Root ports of a group under a mode and a split byte: LOWER in bits 1:0, UPPER in bits 3:2 (R202). -/
def groupRoots (mode split : Nat) : Nat :=
  match mode with
  | 2 => 1
  | 3 => halfPorts (split % 4) + halfPorts (split / 4 % 4)
  | _ => 0

/-- Root ports of group `g` as configured. -/
def rootsOf (s : Dev) (g : Nat) : Nat :=
  groupRoots (fget s SW_GROUP_MODE (4 * g + 3, 4 * g)) (fget s SW_PCIE_SPLIT (4 * g + 3, 4 * g))

/-- Group of root port `r`: root ports are numbered by group, then by first lane (R203). -/
def rootGroupFrom (s : Dev) : Nat → Nat → Nat → Option Nat
  | 0, _, _ => none
  | n + 1, g, r => if r < rootsOf s g then some g else rootGroupFrom s n (g + 1) (r - rootsOf s g)

def rootGroup (s : Dev) (r : Nat) : Option Nat := rootGroupFrom s 16 0 r

def root (s : Dev) (r : Nat) : RootSt := mget (fun _ => {}) s.erg.roots r
def setRoot (s : Dev) (r : Nat) (x : RootSt) : Dev := { s with erg := { s.erg with roots := mset (fun _ => {}) s.erg.roots r x } }
def modRoot (s : Dev) (r : Nat) (f : RootSt → RootSt) : Dev := setRoot s r (f (root s r))

/-- Group and number in it of root port `r`. -/
def rootPlace (s : Dev) : Nat → Nat → Nat → Option (Nat × Nat)
  | 0, _, _ => none
  | n + 1, g, r => if r < rootsOf s g then some (g, r) else rootPlace s n (g + 1) (r - rootsOf s g)

/-- Lanes of root port `r` (R202). -/
def rootWidth (s : Dev) (r : Nat) : Nat :=
  match rootPlace s 16 0 r with
  | none => 0
  | some (g, i) =>
    if fget s SW_GROUP_MODE (4 * g + 3, 4 * g) = 2 then 8
    else
      let split := fget s SW_PCIE_SPLIT (4 * g + 3, 4 * g)
      4 / 2 ^ (if i < halfPorts (split % 4) then split % 4 else split / 4 % 4)

/-- A root port exists and its group has power. -/
def rootLive (s : Dev) (r : Nat) : Bool :=
  match rootGroup s r with
  | some g => domOn s (56 + g)
  | none => false

/-- The partition that owns a root port (no section assigns it: free) (log 10, DESIGN CHOICE). -/
def rootOwner (r : Nat) : Nat := Config.rootOwner r % 16

/-- First address of a root port's window, and its bytes (R205). -/
def rootBase (r : Nat) : Nat := 0x380000000000 + r * 0x2000000000
def rootOf (pa : Nat) : Option Nat :=
  if 0x380000000000 ≤ pa ∧ pa < 0x3C0000000000 then some ((pa - 0x380000000000) / 0x2000000000) else none

/-- The address MSI and MSI-X messages are written to (11 R432). -/
def msiAddr : Nat := 0x3F000FFFF000

/-! ## Configuration space of a root port (R204, R205) (log 132, PRESUMED) -/

/-- Reset value of a byte: a Type 1 header of a PCI bridge; the PCI Express capability of a root port with a slot at 0x40, payloads up to 512 bytes, 10-bit tags and 8 to 64 GT/s; AER at 0x100 with the root's error registers; DPC at 0x150 (log 132, PRESUMED). -/
def cfgReset (o : Nat) : Byte :=
  if o < 4 ∨ o = 8 ∨ o = 0x52 then Config.rootConfig o
  else
    match o with
    | 0x06 => 0x10 | 0x0A => 0x04 | 0x0B => 0x06 | 0x0E => 0x01 | 0x34 => 0x40
    | 0x40 => 0x10 | 0x42 => 0x42 | 0x43 => 0x01 | 0x44 => 0x22 | 0x45 => 0x80 | 0x48 => 0x10 | 0x49 => 0x28
    | 0x66 => 0x03 | 0x6C => 0x78 | 0x70 => 0x06 | 0x10C => 0x30 | 0x10D => 0x20 | 0x10E => 0x46 | 0x115 => 0xE0
    | 0x100 => 0x01 | 0x102 => 0x02 | 0x103 => 0x15 | 0x150 => 0x1D | 0x152 => 0x01
    | _ => 0

/-- Bits of a byte that software writes: command, bus numbers, windows, bridge control; device, slot and root control; AER masks and severity; DPC control (log 132, PRESUMED). -/
def cfgWritable (o : Nat) : Nat :=
  if (0x18 ≤ o ∧ o ≤ 0x1A) ∨ (0x28 ≤ o ∧ o ≤ 0x2F) ∨ o = 0x3C ∨ (0x108 ≤ o ∧ o ≤ 0x10F) ∨ (0x114 ≤ o ∧ o ≤ 0x117) then 0xFF
  else
    match o with
    | 0x04 => 0x46 | 0x05 => 0x05 | 0x20 => 0xF0 | 0x21 => 0xFF | 0x22 => 0xF0 | 0x23 => 0xFF | 0x24 => 0xF0 | 0x25 => 0xFF | 0x26 => 0xF0 | 0x27 => 0xFF
    | 0x3E => 0x43 | 0x48 => 0xFF | 0x49 => 0x7F | 0x50 => 0xC0 | 0x69 => 0x10 | 0x70 => 0x0F | 0x12C => 0x07 | 0x58 => 0xFF | 0x59 => 0x1F | 0x5C => 0x1F | 0x156 => 0xFF | 0x157 => 0x01
    | _ => 0

/-- Bits of a byte that a write of 1 clears: the status registers. -/
def cfgCleared (o : Nat) : Nat :=
  if (0x104 ≤ o ∧ o ≤ 0x107) ∨ (0x110 ≤ o ∧ o ≤ 0x113) then 0xFF
  else match o with | 0x07 => 0xF9 | 0x1F => 0xF9 | 0x4A => 0x0F | 0x130 => 0x7F | 0x5A => 0x1F | 0x158 => 0x09 | _ => 0

def cfgByte (s : Dev) (r o : Nat) : Byte := mget cfgReset (root s r).cfg o
def setCfg (s : Dev) (r o : Nat) (b : Byte) : Dev := modRoot s r (fun x => { x with cfg := mset cfgReset x.cfg o b })

/-- A byte as a load reads it: the link capabilities are 64 GT/s, the port's width, no ASPM and its number (R202 to R204); the link's state and the slot's presence detect follow the link (in band). -/
def cfgRead (s : Dev) (r o : Nat) : Byte :=
  match o with
  | 0x4C => BitVec.ofNat 8 (6 + 16 * rootWidth s r)
  | 0x4E => 0x70
  | 0x4F => BitVec.ofNat 8 r
  | 0x53 => if (root s r).up then 0x20 else 0
  | 0x5A => if (root s r).up then cfgByte s r o ||| 0x40 else cfgByte s r o
  | _ => cfgByte s r o

/-- A byte as a store writes it. -/
def cfgStore (s : Dev) (r o : Nat) (b : Byte) : Dev :=
  let old := (cfgByte s r o).toNat
  let kept := old - Nat.land old (cfgWritable o)
  setCfg s r o (BitVec.ofNat 8 (Nat.lor (kept - Nat.land kept (Nat.land b.toNat (cfgCleared o))) (Nat.land b.toNat (cfgWritable o))))

/-- Bytes of a load, and a store, at the root port's own configuration space: bus 0, device 0, function 0 of its ECAM (R205) (log 132, PRESUMED). -/
def cfgLoad (s : Dev) (r o n : Nat) : List Byte := (rangeFrom o n).map (cfgRead s r)
def cfgStores (s : Dev) (r o : Nat) (bs : List Byte) : Dev := bs.zipIdx.foldl (fun s e => cfgStore s r (o + e.2) e.1) s

/-- A bit of the configuration space. -/
def cfgBit (s : Dev) (r o b : Nat) : Bool := nbit (cfgByte s r (o + b / 8)).toNat (b % 8)

/-- Bits that go to 1 in a byte. -/
def cfgRaise (s : Dev) (r o v : Nat) : Dev := setCfg s r o (cfgByte s r o ||| BitVec.ofNat 8 v)

/-- Largest payload in bytes that a port takes: Max_Payload_Size as programmed, at most 512 (R204). -/
def maxPayload (s : Dev) (r : Nat) : Nat := min 512 (128 * 2 ^ bitsOf (BitVec.ofNat 64 (cfgByte s r 0x48).toNat) (7, 5))

/-- An error that AER logs: bit `b` of the uncorrectable error status, with the device status; where it is not masked and its reporting is enabled, the root error status takes it (log 132, PRESUMED). -/
def logAer (s : Dev) (r b : Nat) : Dev :=
  let fatal := cfgBit s r 0x10C b
  let first := (cfgByte s r 0x130).toNat
  let s1 := cfgRaise (cfgRaise s r (0x104 + b / 8) (2 ^ (b % 8))) r 0x4A ((if fatal then 4 else 2) + (if b = 20 then 8 else 0))
  let on := cfgBit s r 0x48 (if fatal then 2 else 1) || (b == 20 && cfgBit s r 0x48 3)
  if cfgBit s r 0x108 b || !on then s1
  else cfgRaise s1 r 0x130 (4 + (if nbit first 2 then 8 else if fatal then 16 else 0) + (if fatal then 64 else 32))

/-- Containment of a port by DPC: its trigger status stands until software clears it. -/
def contained (s : Dev) (r : Nat) : Bool := nbit (cfgByte s r 0x158).toNat 0

/-- An Unsupported Request is logged by AER and answered as such (R206). -/
def unsupported (s : Dev) (r : Nat) : Dev := modRoot (logAer s r 20) r (fun x => { x with aer := x.aer + 1, reply := some (false, false, []) })

/-- A request beyond the limits of R204, the payload size programmed and a read of 4,096 bytes: a malformed packet is logged and dropped. -/
def malformed (s : Dev) (r : Nat) : Dev := modRoot (logAer s r 18) r (fun x => { x with aer := x.aer + 1 })

/-- Physical parts of a range for an inbound request; `none` when stage 2 refuses one. -/
def inboundParts (s : Dev) (part : Nat) (write : Bool) : List (Nat × Nat) → Option (List (Nat × Nat)) × Dev
  | [] => (some [], s)
  | p :: ps =>
    match ioTranslate s part p.1 write with
    | (none, s1) => (none, s1)
    | (some pa, s1) =>
      match inboundParts s1 part write ps with
      | (none, s2) => (none, s2)
      | (some l, s2) => (some ((pa, p.2) :: l), s2)

/-- Bytes of words `a / 8` onwards read from a bank under a master code; `none` when one is refused (03 R82). -/
def bankRead (s : Dev) (code : Nat) : Nat → Nat → Option (List Byte × Bool) × Dev
  | 0, _ => (some ([], false), s)
  | n + 1, a =>
    match masterReadWord s code (a / 8 * 8) with
    | (none, s1) => (none, s1)
    | (some x, s1) =>
      match bankRead s1 code n (a + 8) with
      | (none, s2) => (none, s2)
      | (some l, s2) => (some (leBytes 8 x.q.val.toNat ++ l.1, l.2 || x.poisoned), s2)

/-- A part of an inbound read: from DRAM, or from a bank under the partition's code. -/
def inboundRead (s : Dev) (part pa n : Nat) : Option (List Byte × Bool) × Dev :=
  if inDram s pa && inDram s (pa + n - 1) then
    let r := ioRead s pa n
    (some (r.1, anyPoison s pa n), r.2)
  else
    match bankOf pa with
    | none => (none, s)
    | some _ =>
      match bankRead s part ((pa % 8 + n + 7) / 8) pa with
      | (none, s1) => (none, s1)
      | (some l, s1) => (some ((l.1.drop (pa % 8)).take n, l.2), s1)

/-- Untagged bytes of a master into a word of a pair, which takes tag 0x08 (02 R61, 03 R99); they pass the port of the bank they go to (03 R87). -/
def pairUntagged (part k r : Nat) (s : Dev) (w off : Nat) (bs : List Byte) : Dev :=
  let s1 := pairForeign s k r w off bs
  if lateRegion s k r then s1 else usePort s1 (3 * k + bitsOf (ltEntry s1 k (w / 8)) E_B) 2 part 1

/-- Bytes of an inbound write split at words: (address, bytes). -/
def wordParts : Nat → Nat → List Byte → List (Nat × List Byte)
  | 0, _, _ => []
  | fuel + 1, a, bs =>
    if bs.isEmpty then []
    else
      let n := 8 - a % 8
      (a, bs.take n) :: wordParts fuel (a + n) (bs.drop n)

/-- An inbound write to a bank or pair, word by word under the partition's code: whether every word was written; refused words are counted and not written (03 R82, R83). -/
def bankWrite (part : Nat) : List (Nat × List Byte) → Dev → Bool × Dev
  | [], s => (true, s)
  | e :: es, s =>
    match bankOf e.1 with
    | none => (false, s)
    | some n =>
      if !(bankUp s none n) then (false, s)
      else
        match bankTarget s { code := part } n e.1 true false with
        | .refused => (false, (bankWrite part es (noteRefused s { code := part } n)).2)
        | .plain _ => bankWrite part es (usePortOf (writeUntagged s e.1 e.2) n 2 part 1 (wordsBefore s e.1 e.2.length))
        | .pair k r w => bankWrite part es (pairUntagged part k r s w (e.1 % 8) e.2)

/-- A part of an inbound write: whether it was done; nothing stands at other addresses, and a bank may refuse it (03 R83). -/
def inboundWrite (s : Dev) (part pa : Nat) (bs : List Byte) : Bool × Dev :=
  if inDram s pa && inDram s (pa + bs.length - 1) then (true, ioWrite s pa bs)
  else if (bankOf pa).isSome then bankWrite part (wordParts (bs.length + 1) pa bs) s
  else (false, s)

/-- What a part of an inbound request waits for: a credit and a grant of its channel, as source 27, or a credit of its bank, the hold of its word, or the end of a pair's initialisation (01 R15, 03 R90, R96, 13 R479). -/
def partWaits (s : Dev) (p : Nat × Nat) : List Nat :=
  if inDram s p.1 && inDram s (p.1 + p.2 - 1) then dramWaits s 27 p.1 p.2 else addrWaits s p.1 p.2

/-- The channels of the parts in DRAM have granted source 27. -/
def partTaken (s : Dev) (p : Nat × Nat) : Dev := if inDram s p.1 && inDram s (p.1 + p.2 - 1) then dramTaken s 27 p.1 p.2 else s

/-- The parts of an inbound read in order. -/
def inboundReads (part : Nat) : List (Nat × Nat) → Dev → Option (List Byte × Bool) × Dev
  | [], s => (some ([], false), s)
  | p :: ps, s =>
    match inboundRead s part p.1 p.2 with
    | (none, s1) => (none, s1)
    | (some a, s1) =>
      match inboundReads part ps s1 with
      | (none, s2) => (none, s2)
      | (some b, s2) => (some (a.1 ++ b.1, a.2 || b.2), s2)

/-- The parts of an inbound write in order: whether all were done. -/
def inboundWrites (part : Nat) : List (Nat × Nat) → List Byte → Dev → Bool × Dev
  | [], _, s => (true, s)
  | p :: ps, bs, s =>
    match inboundWrite s part p.1 (bs.take p.2) with
    | (false, s1) => (false, s1)
    | (true, s1) => inboundWrites part ps (bs.drop p.2) s1

/-- PCIE_INBOUND_REQUEST (R206, 11 R432): a memory request of `n` bytes at a device's address, with its data when it is a write. -/
def inbound (s : Dev) (r : Nat) (write : Bool) (addr n : Nat) (data : List Byte) : Dev :=
  if !(rootLive s r && (root s r).up) || n = 0 then s
  else if (if write then maxPayload s r else 4096) < n then malformed s r
  else if write && addr == msiAddr then
    let m := leNat data % 128
    if n = 4 ∧ m ≤ 95 then raise (modRoot s r (fun x => { x with reply := some (true, false, []) })) (96 * r + m)
    else unsupported s r
  else if 0x380000000000 ≤ addr ∧ addr < 0x400000000000 then unsupported s r
  else
    let part := rootOwner r
    match inboundParts s part write (pageParts (n / 4096 + 2) addr n) with
    | (none, s1) => unsupported s1 r
    | (some l, s1) =>
      engineAct s1 (l.flatMap (partWaits s1)) (fun s1 =>
        let s1 := l.foldl partTaken s1
        if write then
          match inboundWrites part l (data.take n) s1 with
          | (false, s2) => unsupported s2 r
          | (true, s2) => modRoot s2 r (fun x => { x with reply := some (true, false, []) })
        else
          match inboundReads part l s1 with
          | (none, s2) => unsupported s2 r
          | (some d, s2) => modRoot s2 r (fun x => { x with reply := some (true, d.2, d.1) }))

/-! ## Outstanding requests of cores (R207) -/

/-- An address in the ECAM of its window (R205), and the offset in the window. -/
def rootOffset (pa : Nat) : Nat := (pa - 0x380000000000) % 0x2000000000
def inEcam (pa : Nat) : Bool := decide (rootOffset pa < 0x10000000)

/-- A request that needs a completion: a load, or a configuration write. -/
def nonPosted (a : Acc) : Bool := !(accIsAtomic a.op) && (!(accIsStore a.op) || inEcam a.pa)

/-- Whether an access is a non-posted request of root port `r` that waits for its completion; the port's own configuration space needs none. -/
def waitsOn (r : Nat) (a : Acc) : Bool := rootOf a.pa == some r && a.phase == .issued && nonPosted a && decide (0x1000 ≤ rootOffset a.pa)

/-- Threads and accesses with a non-posted request outstanding on root port `r`. -/
def outstanding (s : Dev) (r : Nat) : List (Nat × Acc) :=
  s.threads.flatMap (fun e => (e.2.accs.filter (waitsOn r)).map (fun a => (e.1, a)))

/-- A root port has at most 768 non-posted requests outstanding (R204); those beyond wait, in the order of their threads (log 132, PRESUMED). -/
def heldBack (s : Dev) (r t id : Nat) : Bool := ((outstanding s r).drop 768).any (fun e => e.1 == t && e.2.id == id)

/-- A request ends in error: a bus error with BE_KIND 2 (11 R420). -/
def failRoot (s : Dev) (e : Nat × Acc) : Dev := failAcc s e.1 e.2 { kind := 2 }

/-- COMPLETION_TIMEOUT (R207): the oldest outstanding non-posted request of a port times out. -/
def completionTimeout (s : Dev) (r : Nat) : Dev :=
  match outstanding s r with
  | [] => s
  | e :: _ => failRoot s e

/-- PCIE_LINK_DOWN (R207): the link goes down, or DPC contains the port where its control enables it (log 42, DEDUCED). -/
def rootDown (s : Dev) (r : Nat) : Dev :=
  if (root s r).up then
    let s1 := (outstanding s r).foldl failRoot (modRoot s r (fun x => { x with up := false }))
    logRec s1 WARNING SB_SW (match rootGroup s r with | some g => 8 * g | none => 0xFF) 0x0504 []
  else s

/-- PCIE_LINK_UP: the link trains after PERST_N is released, or again after a link down. -/
def rootUp (s : Dev) (r : Nat) : Dev :=
  if rootLive s r && !(root s r).perst && !(contained s r) then modRoot s r (fun x => { x with up := true }) else s

/-- PERST_RELEASE (R208): no earlier than 100 ms after REFCLK_PCIE and the supplies are stable. -/
def perstRelease (s : Dev) (r : Nat) : Dev :=
  if rootLive s r && (root s r).perst && fbit s PWR_STATUS PWR_STATUS_PCIE_OK then
    modRoot (advanceOp s (s.pwr.pcieStable + nsUnits 100000000)) r (fun x => { x with perst := false })
  else s

end Sys2Proof.Machine
end

