-- ==== Sys2Proof/Machine/Hist.lean ====
section
/-! DEFINITION. Hist: the historian engine: sampling and compression, the log format, segments, restart, index (08 R293 to R322). -/
namespace Sys2Proof.Machine

/-! ## Engine state and tables (R293 to R300) -/

def H_OFF : Nat := 0
def H_STARTING : Nat := 1
def H_RUNNING : Nat := 2
def H_STOPPING : Nat := 3
def H_FAULT : Nat := 4

def hState (s : Dev) : Nat := fget s HIST_STATUS HIST_STATUS_STATE
def setHState (s : Dev) (x : Nat) : Dev := fset s HIST_STATUS HIST_STATUS_STATE x
def modHist (s : Dev) (f : HistSt → HistSt) : Dev := { s with hist := f s.hist }
def hErr (s : Dev) (f : Nat × Nat) : Dev := fset s HIST_ERR f 1

def hKey (t i : Nat) : Nat := t * 2 ^ 20 + i
def hWord0 (s : Dev) (t i : Nat) : Word := mget (fun _ => 0) s.hist.d0 (hKey t i)
def hWord1 (s : Dev) (t i : Nat) : Word := mget (fun _ => 0) s.hist.d1 (hKey t i)

/-- The partition a role bit of the Slazal image names, the lowest one (14 R530). -/
def roleHolder (s : Dev) (bit : Nat) : Nat := ((rangeFrom 0 16).find? (fun p => nbit (partSt s p).roles bit)).getD 0

/-- The historian manager: role bit 4 (R294). -/
def hManager (s : Dev) : Nat := roleHolder s 4

/-- log2 of the stripe width, and the width D (R293). -/
def hLogD (s : Dev) : Nat := fget s HIST_CTRL HIST_CTRL_STRIPE
def hD (s : Dev) : Nat := 2 ^ hLogD s
/-- Log blocks per drive N (R297). -/
def hN (s : Dev) : Nat := bitsOf (hWord1 s 0 0) (33, 0)
/-- Blocks of a stripe in one segment (R298). -/
def hStripe (s : Dev) : Nat := 1024 / hD s
/-- Segments of the log. -/
def hS (s : Dev) : Nat := fget s HIST_LOG HIST_LOG_SEGMENTS
def hHead (s : Dev) : Nat := fget s HIST_STATUS HIST_STATUS_HEAD
def hTail (s : Dev) : Nat := fget s HIST_LOG HIST_LOG_TAIL

/-- Drive and drive block of block `b` of segment `seg` (R298). -/
def hPlace (s : Dev) (seg b : Nat) : Nat × Nat := (b * hD s / 1024, 256 + seg * hStripe s + b % hStripe s)

def regionBase (s : Dev) (r : Nat) : Nat := bitsOf (hWord0 s 3 r) (45, 0)
/-- Buffers of region 0. -/
def hBuffers (s : Dev) : Nat := (hWord1 s 3 0).toNat
/-- Entries of the command ring (R323). -/
def cqSize (s : Dev) : Nat := 2 ^ (4 + bitsOf (hWord1 s 3 4) (3, 0))

/-- Bytes of a region: entry 0 by its count, entries 1 to 3 by DATA1, entry 4 by LOG (log 57, DESIGN CHOICE). -/
def regionBytes (s : Dev) (r : Nat) : Nat :=
  if r = 0 then hBuffers s * 0x400000 else if r = 4 then cqSize s * 64 else (hWord1 s 3 r).toNat

/-- Segments that the tables give (R298). -/
def tableSegments (s : Dev) : Nat := hD s * hN s / 1024

/-- The checks of R293, R297 and R299 at the write of EN (log 57, DESIGN CHOICE). -/
def hConfigOk (s : Dev) : Bool :=
  let rs := rangeFrom 0 5
  decide (2 ≤ hBuffers s) && decide (hBuffers s ≤ 64) && regionBase s 0 % 0x400000 == 0 &&
    rs.all (fun r => regionBase s r % 4096 == 0) &&
    decide (1088 * tableSegments s ≤ regionBytes s 1) && decide (0x4000000 ≤ regionBytes s 2) &&
    decide (163840 * hD s ≤ regionBytes s 3) && decide (bitsOf (hWord1 s 3 4) (3, 0) ≤ 8) &&
    rs.all (fun a => rs.all (fun b => a == b ||
      decide (regionBase s a + regionBytes s a ≤ regionBase s b) || decide (regionBase s b + regionBytes s b ≤ regionBase s a))) &&
    (rangeFrom 0 (hD s)).all (fun j => bitsOf (hWord0 s 0 j) (5, 5) == 1 && bitsOf (hWord1 s 0 j) (33, 0) == hN s) &&
    decide (0 < hN s) && hN s % hStripe s == 0 && decide (hD s * hN s ≤ 2 ^ 33)

/-- HIST_ENABLE (R299): OFF to STARTING, which takes FORMAT (R301), or EN back to 0 with CONFIG. -/
def histEnable (s : Dev) : Dev :=
  if hState s ≠ H_OFF then fset s HIST_CTRL HIST_CTRL_EN 1
  else if hConfigOk s then
    let s1 := modHist s (fun h => { h with format := fbit s HIST_CTRL HIST_CTRL_FORMAT })
    fset (setHState (fset s1 HIST_CTRL HIST_CTRL_EN 1) H_STARTING) HIST_LOG HIST_LOG_SEGMENTS (tableSegments s)
  else hErr (fset s HIST_CTRL HIST_CTRL_EN 0) HIST_ERR_CONFIG

/-! ## Blocks (R308 to R312) -/

/-- A block of 4,096 bytes (R308). -/
def blockBytes (s : Dev) (seq seg : Nat) (b : HBlock) : List Byte :=
  let p := b.payload.take 4064
  let h := leBytes 8 seq ++ leBytes 4 seg ++ leBytes 1 b.kind ++ leBytes 1 (hLogD s) ++ leBytes 2 b.count ++
    leBytes 8 b.time0 ++ leBytes 4 b.stream ++ p ++ List.replicate (4064 - p.length) 0
  h ++ leBytes 4 (crc32c h)

def bkSeq (b : List Byte) : Nat := leNat (b.take 8)
def bkSeg (b : List Byte) : Nat := leNat ((b.drop 8).take 4)
def bkKind (b : List Byte) : Nat := leNat ((b.drop 12).take 1)
def bkStripe (b : List Byte) : Nat := leNat ((b.drop 13).take 1)
def bkCount (b : List Byte) : Nat := leNat ((b.drop 14).take 2)
def bkTime (b : List Byte) : Nat := leNat ((b.drop 16).take 8)
def bkStream (b : List Byte) : Nat := leNat ((b.drop 24).take 4)
def bkField (b : List Byte) (o n : Nat) : Nat := leNat ((b.drop o).take n)
/-- A correct check code (R308). -/
def bkCrcOk (b : List Byte) : Bool := leNat ((b.drop 4092).take 4) == crc32c (b.take 4092)

/-- A drive block as it stands on the media. -/
def driveBlock (s : Dev) (j blk : Nat) : List Byte :=
  mget (fun k => Config.driveBlock (k / 2 ^ 34) (k % 2 ^ 34)) s.hist.media (j * 2 ^ 34 + blk)
def putDrive (s : Dev) (j blk : Nat) (b : List Byte) : Dev :=
  modHist s (fun h => { h with media := mset (fun k => Config.driveBlock (k / 2 ^ 34) (k % 2 ^ 34)) h.media (j * 2 ^ 34 + blk) b })

/-- Block `b` of segment `seg` on the media. -/
def segBlock (s : Dev) (seg b : Nat) : List Byte := let p := hPlace s seg b; driveBlock s p.1 p.2

/-- GROUPS of a checkpoint (R312). -/
def groupBytes (l : List Nat) : List Byte :=
  (rangeFrom 0 1024).map (fun i => BitVec.ofNat 8 ((rangeFrom 0 8).foldl (fun n j => n + b2n (l.contains (8 * i + j)) * 2 ^ j) 0))

/-- The checkpoint block of a segment (R312) (log 58, DESIGN CHOICE). -/
def checkpoint (x : HBuf) : HBlock :=
  { kind := 3, time0 := x.padTime,
    payload := leBytes 8 x.firstSeq ++ leBytes 8 x.tFirst ++ leBytes 8 x.tLast ++ leBytes 4 x.records ++
      leBytes 4 x.bulk ++ leBytes 4 x.blocks.length ++ List.replicate 28 0 ++ groupBytes x.groups }

/-- Block `b` of a buffer (R312, R315): data, pad, or checkpoint. -/
def bufContent (s : Dev) (x : HBuf) (b : Nat) : List Byte :=
  let blk : HBlock := if b = 1023 then checkpoint x else x.blocks.getD b { kind := 4, time0 := x.padTime }
  blockBytes s (x.firstSeq + b) x.seg blk

/-- Block `b` of a segment being written. -/
def segContent (s : Dev) (x : HSeg) (b : Nat) : List Byte := bufContent s x.buf b

/-- The checkpoint of segment `seg` is valid (R313, first item). -/
def chkOk (s : Dev) (seg : Nat) : Bool :=
  let b := segBlock s seg 1023
  bkCrcOk b && bkKind b == 3 && bkSeg b == seg

/-- FIRST_SEQ of a segment's checkpoint block (log 61, DEDUCED). -/
def chkFirst (s : Dev) (seg : Nat) : Nat := bkField (segBlock s seg 1023) 28 8

/-- Whether a segment is valid (R313). -/
def segValid (s : Dev) (seg : Nat) : Bool :=
  chkOk s seg && (rangeFrom 0 1024).all (fun b =>
    let x := segBlock s seg b
    bkCrcOk x && bkSeg x == seg && bkSeq x == chkFirst s seg + b)

/-! ## Engine accesses to the manager's DRAM (R323, R324): coherent, tagged, under its stage 2 -/

/-- Source of the historian's DRAM accesses (13 R479). -/
def histSource : Nat := 26

/-- What an access to `n` bytes at an intermediate physical address waits for: credits, and the arbiters of the channels (01 R15, 05 R213). -/
def hWaits (s : Dev) (ipa n : Nat) (write : Bool) : List Nat :=
  match (ioRange s (hManager s) ipa n write).1 with
  | some l => partsWait s histSource l
  | none => []

/-- A word written with its tag at an intermediate physical address; `false` when stage 2 refuses it or no DRAM stands there. The line goes to DRAM with the last word written to it. -/
def hWriteWord (s : Dev) (ipa : Nat) (q : QWord) (last : Bool) : Bool × Dev :=
  match ioTranslate s (hManager s) ipa true with
  | (some pa, s1) =>
    if inDram s1 pa then
      let s2 := dramTaken (writeWord (ioInvalidate s1 (pa / 64)) pa q) histSource pa 8
      (true, if last || pa % 64 == 56 then toDram s2 (pa / 64) else s2)
    else (false, s1)
  | (none, s1) => (false, s1)

/-- Words written at rising addresses; `false` when one is refused. -/
def hWriteWords (s : Dev) : Nat → List QWord → Bool × Dev
  | _, [] => (true, s)
  | ipa, q :: qs =>
    let r := hWriteWord s ipa q qs.isEmpty
    if r.1 then hWriteWords r.2 (ipa + 8) qs else r

/-- A word read at an intermediate physical address; 0 where the access is refused. -/
def hReadWord (s : Dev) (ipa : Nat) : Word × Dev :=
  match ioTranslate s (hManager s) ipa false with
  | (some pa, s1) => if inDram s1 pa then ((readTagged s1 pa).val, dramTaken (ioRead s1 pa 8).2 histSource pa 8) else (0, s1)
  | (none, s1) => (0, s1)

/-- Words of little-endian bytes. -/
def wordsLE : Nat → List Byte → List Word
  | 0, _ => []
  | n + 1, bs => BitVec.ofNat 64 (leNat (bs.take 8)) :: wordsLE n (bs.drop 8)

/-- Words written whose tag the chapter does not state: one free tag for all of them. -/
def hWritePlain (s : Dev) (ipa : Nat) (ws : List Word) : Dev :=
  let f := drawFree s
  (hWriteWords f.2 ipa (ws.map (fun w => ⟨w, BitVec.ofNat 8 f.1.toNat⟩))).2

/-- `n` words whose contents the chapter does not lay out: free values (log 138, DESIGN CHOICE). -/
def hWriteFree (s : Dev) (ipa : Nat) : Nat → Dev
  | 0 => s
  | n + 1 => let f := drawFree (hWriteFree s ipa n); hWritePlain f.2 (ipa + 8 * n) [f.1]

/-- Blocks `a` to `a + n - 1` of a buffer as they stand in its place of the buffer region (R315) (log 138, DESIGN CHOICE). -/
def storeBlocks (s : Dev) (b : HBuf) (a n : Nat) : Dev :=
  (rangeFrom a n).foldl (fun s i => hWritePlain s (regionBase s 0 + 0x400000 * b.slot + 4096 * i) (wordsLE 512 (bufContent s b i))) s

/-! ## Index (R322) -/

def idxAddr (s : Dev) (seg : Nat) : Nat := regionBase s 1 + 1088 * seg

def idxClear (s : Dev) (seg : Nat) : Dev := hWritePlain s (idxAddr s seg) (List.replicate 136 0)

/-- The entry of a segment is filled from the checkpoint on the media. -/
def idxFill (s : Dev) (seg : Nat) : Dev := hWritePlain s (idxAddr s seg) (wordsLE 136 ((segBlock s seg 1023).drop 28))

/-- A 64-bit field of an index entry, by its offset in the checkpoint payload. -/
def idxWord (s : Dev) (seg o : Nat) : Nat × Dev := let r := hReadWord s (idxAddr s seg + o - 28); (r.1.toNat, r.2)

/-! ## Superblocks (R314) -/

/-- The superblock of a drive (R308, R314); `seg` stands in its SEGMENT field, which the spec leaves open. -/
def superBytes (s : Dev) (seg j : Nat) : List Byte :=
  blockBytes s s.hist.gen seg
    { kind := 5, time0 := nowNs s,
      payload := leBytes 8 s.hist.logId.toNat ++ leBytes 1 j ++ [0, 0, 0] ++ leBytes 8 (hN s) ++ leBytes 4 (hHead s) ++
        leBytes 4 (hTail s) ++ leBytes 8 s.hist.nextSeq }

/-- Root port of drive `j`. -/
def driveRoot (s : Dev) (j : Nat) : Nat := bitsOf (hWord0 s 0 j) (4, 0)

/-- Whether the engine reaches drive `j` (R294). -/
def driveReached (s : Dev) (j : Nat) : Bool :=
  rootLive s (driveRoot s j) && (root s (driveRoot s j)).up && rootOwner (driveRoot s j) == hManager s

/-- A write that failed leaves each block wholly old or wholly new, whichever (R295, R321): a free choice for each. -/
def maybeWrite (s : Dev) (j blk : Nat) (b : List Byte) : Dev :=
  let f := drawFree s
  if nbit f.1.toNat 0 then putDrive f.2 j blk b else f.2

/-- The next generation goes to block (generation mod 2) of every drive; the write fails below a root port that is down (R296) (log 61, DEDUCED) (log 58, DESIGN CHOICE). -/
def writeSuper (s : Dev) : Dev :=
  let f := drawFree s
  let s1 := (rangeFrom 0 (hD s)).foldl (fun t j =>
    let b := superBytes s (f.1.toNat % 2 ^ 23) j
    if driveReached s j then putDrive t j (s.hist.gen % 2) b else maybeWrite t j (s.hist.gen % 2) b) f.2
  modHist s1 (fun h => { h with gen := h.gen + 1, sbAt := nowNs s })

/-- Valid superblock copies on a drive. -/
def supers (s : Dev) (j : Nat) : List (List Byte) :=
  ([0, 1].map (driveBlock s j)).filter (fun b => bkCrcOk b && bkKind b == 5)

/-- The copy of highest generation. -/
def newest : List (List Byte) → Option (List Byte)
  | [] => none
  | b :: bs => match newest bs with
    | none => some b
    | some c => if bkSeq b < bkSeq c then some c else some b

/-! ## Restart (R299, R301, R320, R321) -/

/-- Entry to RUNNING: compression states reset, no time in effect (R299, R307). -/
def histRun (s : Dev) (kept discarded : Nat) : Dev :=
  let s1 := modHist s (fun h => { h with comp := [], timeNow := none, sbAt := nowNs s })
  logRec (setHState s1 H_RUNNING) NOTICE SB_HIST 0 0x0805 [kept, discarded]

/-- Entry to FAULT (R299). -/
def histFault (s : Dev) : Dev :=
  logRec (setHState (modHist s (fun h => { h with openBuf := none, sealedBufs := [], flight := [] })) H_FAULT) ALERT SB_HIST 0 0x0806 []

/-- A new log (R301): the superblock copies only (log 58, DESIGN CHOICE) (log 61, DEDUCED). -/
def histFormat (s : Dev) : Dev :=
  let f := drawFree s
  let s1 := modHist f.2 (fun h => { h with logId := f.1, nextSeq := 1, gen := 0 })
  let s2 := fset (fset s1 HIST_STATUS HIST_STATUS_HEAD 0) HIST_LOG HIST_LOG_TAIL 0
  let s3 := (rangeFrom 0 (hS s2)).foldl idxClear s2
  histRun (writeSuper (writeSuper s3)) 0 0

/-- The segments from TAIL to HEAD: valid checkpoints fill the index, others are discarded. Answers kept and discarded. -/
def scanLive (S : Nat) : Nat → Nat → Nat × Nat × Dev → Nat × Nat × Dev
  | 0, _, x => x
  | n + 1, seg, (kept, lost, s) =>
    scanLive S n ((seg + 1) % S)
      (if chkOk s seg then (kept + 1, lost, idxFill s seg) else (kept, lost + 1, fincSat s HIST_STAT HIST_STAT_DISCARDED 1))

/-- The loop after HEAD: valid segments with rising FIRST_SEQ are taken in. Answers the segment that ended it and the last FIRST_SEQ. -/
def scanMore (S tail : Nat) : Nat → Nat → Nat → Nat × Dev → Nat × Nat × Nat × Dev
  | 0, seg, last, (kept, s) => (seg, last, kept, s)
  | n + 1, seg, last, (kept, s) =>
    if seg ≠ tail ∧ segValid s seg ∧ last < chkFirst s seg then
      scanMore S tail n ((seg + 1) % S) (chkFirst s seg) (kept + 1, fset (idxFill s seg) HIST_STATUS HIST_STATUS_HEAD seg)
    else (seg, last, kept, s)

/-- The restart after power loss from the chosen superblock (R320, R321). A HEAD segment without a readable checkpoint has no FIRST_SEQ: a free value (log 61, DEDUCED). -/
def histRebuild (s : Dev) (sb : List Byte) : Dev :=
  let head := bkField sb 48 4
  let tail := bkField sb 52 4
  let next := bkField sb 56 8
  let S := hS s
  let s1 := modHist s (fun h => { h with logId := BitVec.ofNat 64 (bkField sb 28 8), gen := bkSeq sb + 1 })
  let s2 := fset (fset s1 HIST_STATUS HIST_STATUS_HEAD head) HIST_LOG HIST_LOG_TAIL tail
  let s3 := (rangeFrom 0 S).foldl idxClear s2
  let x := scanLive S ((head + S - tail) % S + 1) tail (0, 0, s3)
  let f := if chkOk x.2.2 head then (chkFirst x.2.2 head, x.2.2) else let d := drawFree x.2.2; (d.1.toNat, d.2)
  let y := scanMore S tail S ((head + 1) % S) f.1 (x.1, f.2)
  let s4 := y.2.2.2
  let torn := (rangeFrom 0 1024).any (fun b => let k := segBlock s4 y.1 b; bkCrcOk k && decide (next ≤ bkSeq k))
  let s5 := if torn then fincSat s4 HIST_STAT HIST_STAT_DISCARDED 1 else s4
  let s6 := modHist s5 (fun h => { h with nextSeq := max next (y.2.1 + 1024) })
  histRun s6 y.2.2.1 (x.2.1 + b2n torn)

/-- The requirements of R295 on a drive. -/
def driveMeets (s : Dev) (f : DriveFacts) : Bool :=
  f.base20 && f.nvmSet && f.lba4k && !f.metadata && !f.volatileCache && decide (256 + hN s ≤ f.blocks) && decide (256 ≤ f.entries)

/-- Whether drive `j` of the set is accepted; one that tells nothing of itself is not. -/
def driveAccepted (s : Dev) (drives : List DriveFacts) (j : Nat) : Bool :=
  driveReached s j && (match drives[j]? with | some f => driveMeets s f | none => false)

/-- HIST_RESTART (R295, R299, R320): drives accepted or refused; then format or restart. -/
def histRestart (s0 : Dev) (drives : List DriveFacts) : Dev :=
  if hState s0 ≠ H_STARTING then s0
  else
    let s := modHist s0 (fun h => { h with mdts := drives.map (fun f => f.maxTransfer) })
    let bad := (rangeFrom 0 (hD s)).filter (fun j => !(driveAccepted s drives j))
    if !bad.isEmpty then
      histFault (bad.foldl (fun s j => fset s HIST_STATUS HIST_STATUS_DRIVE_FAIL (Nat.lor (fget s HIST_STATUS HIST_STATUS_DRIVE_FAIL) (2 ^ j))) s)
    else if s.hist.format then histFormat s
    else
      let js := rangeFrom 0 (hD s)
      match newest (js.flatMap (supers s)) with
      | none => histFault (hErr s HIST_ERR_NO_LOG)
      | some sb =>
        let same (j : Nat) (b : List Byte) : Bool :=
          bkField b 28 8 == bkField sb 28 8 && bkField b 40 8 == hN s && bkStripe b == hLogD s && bkField b 36 1 == j
        if js.all (fun j => (supers s j).all (same j)) then histRebuild s sb
        else histFault (hErr s HIST_ERR_LOG_MISMATCH)

/-! ## Filling the open buffer (R309, R310, R315, R319) -/

/-- Whether a free buffer is left to open. -/
def bufferFree (s : Dev) : Bool := decide (s.hist.sealedBufs.length + s.hist.flight.length + (if s.hist.openBuf.isSome then 1 else 0) < hBuffers s)

/-- The lowest place of the buffer region that no buffer holds. -/
def freeSlot (s : Dev) : Nat :=
  let used := s.hist.openBuf.toList.map (·.slot) ++ s.hist.sealedBufs.map (·.slot) ++ s.hist.flight.map (·.buf.slot)
  ((rangeFrom 0 (hBuffers s)).find? (fun i => !(used.contains i))).getD 0

/-- The block being filled is finished. -/
def closeCur (b : HBuf) : HBuf :=
  match b.cur with
  | some c => { b with blocks := b.blocks ++ [c], cur := none }
  | none => b

/-- The open buffer is sealed (R315): its unused blocks are padded and its checkpoint built (log 138, DESIGN CHOICE). -/
def sealOpen (s : Dev) : Dev :=
  match s.hist.openBuf with
  | none => s
  | some b =>
    let f := drawFree s
    let b1 := { closeCur b with padTime := f.1.toNat }
    let s1 := storeBlocks f.2 b1 b.blocks.length (1024 - b.blocks.length)
    countHist (modHist s1 (fun h => { h with openBuf := none, sealedBufs := h.sealedBufs ++ [b1] })) 0x05

/-- The open buffer, opened if need be; `none` without a free buffer (R319). -/
def openBuffer (s : Dev) : Option (HBuf × Dev) :=
  match s.hist.openBuf with
  | some b => some (b, s)
  | none =>
    if bufferFree s then
      let b : HBuf := { firstAt := nowNs s, tFirst := 2 ^ 64 - 1, slot := freeSlot s,
                        firstSeq := s.hist.nextSeq + 1024 * s.hist.sealedBufs.length,
                        seg := (hHead s + 1 + s.hist.flight.length + s.hist.sealedBufs.length) % hS s }
      some (b, modHist s (fun h => { h with openBuf := some b }))
    else none

/-- The buffer stands with its new contents, its last finished block in DRAM; full at block 1,022, it is sealed. -/
def putBuffer (s : Dev) (b : HBuf) : Dev :=
  let s0 := if b.cur.isNone && !b.blocks.isEmpty then storeBlocks s b (b.blocks.length - 1) 1 else s
  let s1 := modHist s0 (fun h => { h with openBuf := some b })
  if 1023 ≤ b.blocks.length then sealOpen s1 else s1

/-- 12 bytes into the open sample block; a block of 338 is finished (log 59, DEDUCED). -/
def putRec (s : Dev) (time : Nat) (bs : List Byte) : Option Dev :=
  match openBuffer s with
  | none => none
  | some (b, s1) =>
    let c : HBlock := b.cur.getD { kind := 1, time0 := time }
    let c1 := { c with count := c.count + 1, payload := c.payload ++ bs }
    some (putBuffer s1 (if 338 ≤ c1.count then { b with blocks := b.blocks ++ [c1], cur := none } else { b with cur := some c1 }))

/-- A time marker where the time differs from the time in effect (R310): class, or a software time. -/
def putMarker (s : Dev) (t cls : Nat) (software : Bool) : Option Dev :=
  if s.hist.timeNow = some t then some s
  else
    (putRec s t ([0xFF, 0xFF, 0xFF, BitVec.ofNat 8 (if software then 8 else cls)] ++ leBytes 8 t)).map
      (fun s => modHist s (fun h => { h with timeNow := some t }))

/-- What the segment's checkpoint says of a record or bulk block (R312) (log 59, DEDUCED). -/
def noteTime (b : HBuf) (t : Nat) : HBuf := { b with tFirst := min b.tFirst t, tLast := max b.tLast t }

/-- A record of a signal with its marker; `none` when no buffer takes it (R319). -/
def putSample (s : Dev) (cls : Nat) (software : Bool) (sig : Nat) (x : HSample) : Option Dev :=
  match putMarker s x.t cls software with
  | none => none
  | some s1 =>
    match openBuffer s1 with
    | none => none
    | some (b, s2) =>
      let b1 := { noteTime b x.t with records := b.records + 1, groups := if b.groups.contains (sig / 128) then b.groups else (sig / 128) :: b.groups }
      (putRec (modHist s2 (fun h => { h with openBuf := some b1 })) x.t (leBytes 3 sig ++ [x.tag] ++ leBytes 8 x.raw.toNat)).map
        (fun s => countHist s 0x03)

/-! ## Compression (R306) -/

/-- The value a signal's rules judge: binary64, or int64 converted. -/
def hValue (int : Bool) (raw : Word) : Nat := if int then (iToF b64 0 raw.toInt).bits else raw.toNat

/-- What one sample leads to: the held sample and the sample stored, each with the compression state after it; the state when nothing is stored. -/
structure HOut where
  held : Option (HSample × HComp) := none
  now : Option (HSample × HComp) := none
  final : HComp := {}
deriving DecidableEq, Repr

/-- A difference of device times as binary64. -/
def hGap (t ta : Nat) : Nat := (iToF b64 0 ((t : Int) - (ta : Int))).bits

/-- The slopes from a stored sample to the current one under the deviation (R306, SWING). -/
def slopes (int : Bool) (dev : Nat) (a x : HSample) (up lo : Nat) : Nat × Nat :=
  let d := (fSub b64 0 (hValue int x.raw) (hValue int a.raw)).bits
  let g := hGap x.t a.t
  ((fMinMax b64 true up (fDiv b64 0 (fSub b64 0 d dev).bits g).bits).bits,
   (fMinMax b64 false lo (fDiv b64 0 (fAdd b64 0 d dev).bits g).bits).bits)

/-- The compression of R306: mode, deviation, MAXGAP in ms. -/
def compress (mode dev maxgap : Nat) (int : Bool) (k : HComp) (x : HSample) : HOut :=
  let v := hValue int x.raw
  let stored (y : HSample) : HComp := { a := some y }
  let both : HOut := match k.h with
    | some y => { held := some (y, stored y), now := some (x, stored x), final := stored x }
    | none => { now := some (x, stored x), final := stored x }
  match k.a with
  | none => both
  | some a =>
    if x.tag ≠ a.tag ∨ isNan (unpack b64 v) ∨ (maxgap ≠ 0 ∧ a.t + maxgap * 1000000 ≤ x.t) then both
    else
      match mode with
      | 0 => { now := some (x, stored x), final := stored x }
      | 3 => if x.raw ≠ a.raw then { now := some (x, stored x), final := stored x } else { final := k }
      | 1 =>
        if (fLess b64 false dev (fAbs b64 (fSub b64 0 v (hValue int a.raw)).bits).bits).bits = 1 then
          { now := some (x, stored x), final := stored x }
        else { final := k }
      | _ =>
        let p := slopes int dev a x k.up k.lo
        if (fLess b64 false p.2 p.1).bits = 1 then
          match k.h with
          | some y =>
            let q := slopes int dev y x 0xFFF0000000000000 0x7FF0000000000000
            let k1 : HComp := { a := some y, h := some x, up := q.1, lo := q.2 }
            { held := some (y, k1), final := k1 }
          | none =>
            let q := slopes int dev a x 0xFFF0000000000000 0x7FF0000000000000
            { final := { a := some a, h := some x, up := q.1, lo := q.2 } }
        else { final := { a := some a, h := some x, up := p.1, lo := p.2 } }

/-! ## Sampling (R302 to R305) -/

/-- One signal read for class `c` at time `t` (R303): word WORD of its region, as master 0x18. -/
def readSignal (s : Dev) (c t : Nat) (e : Word) : HSample × Dev :=
  let k := bitsOf e (22, 20)
  let r := bitsOf e (24, 23)
  let w := bitsOf e (19, 0)
  let bad (s : Dev) : HSample × Dev := (⟨t, 0, 0x78⟩, countHist (hErr s HIST_ERR_SIGNAL) 0x02)
  if imgClass s k ≠ c ∨ r = 3 ∨ !(decide (w < 8 * fget s (IMG_REGION k r) IMG_REGION_COUNT)) then bad s
  else if !(shared s (3 * k) 0x18) || !(fbit s (IMG_CTRL k) IMG_CTRL_ENABLE) then bad (refusePair s k 0x18)
  else if !(domOn s (24 + 3 * k)) || !(domOn s (24 + 3 * k + 1)) then bad s
  else
    let x := pairReadNote s k r (8 * fget s (IMG_REGION k r) IMG_REGION_BASE + w) ((fillStamp s k + 65535) % 65536)
    (⟨t, x.1.q.val, x.1.q.tag⟩, countHist (useAddr x.2 2 0x18 x.1.addr) 0x02)

/-- What the read of a signal waits for: credits of the pair's banks, a word an atomic works on, a pair that initialises (R304, 01 R15, 03 R90, R96). -/
def signalWaits (s : Dev) (e : Word) : List Nat :=
  let k := bitsOf e (22, 20)
  let w := 8 * fget s (IMG_REGION k (bitsOf e (24, 23))) IMG_REGION_BASE + bitsOf e (19, 0)
  bankWaits s (3 * k) (bankBase (3 * k) + 8 * w) 8 ++ (if mayIssue s (3 * k + 1) then [] else [3 * k + 1])

/-- Enabled signals of a list, ascending (R302). -/
def listSignals (s : Dev) (w : Word) : List (Nat × Word) :=
  let a := bitsOf w (19, 0)
  s.hist.d0.filterMap (fun e =>
    if decide (hKey 2 a ≤ e.1) && decide (e.1 < hKey 2 (a + bitsOf w (40, 20))) && decide (e.1 < hKey 3 0) && bitsOf e.2 (28, 28) == 1 then
      some (e.1 - hKey 2 0, e.2)
    else none)

/-- A signal's compression state is read from its 64 bytes of region 2; where stage 2 refuses the read there is none (12 R439) (log 138, DESIGN CHOICE). -/
def readComp (s : Dev) (x : Nat) : HComp × Dev :=
  match ioRange s (hManager s) (regionBase s 2 + 64 * x) 64 false with
  | (some l, s1) => (mget (fun _ => {}) s.hist.comp x, (ioReadParts s1 histSource l).2)
  | (none, s1) => ({}, s1)

/-- Samples read and compressed, in signal order. -/
def sampleAll (c t : Nat) : List (Nat × Word) → Dev → List (Nat × HOut) × Dev
  | [], s => ([], s)
  | (x, e) :: es, s =>
    let r := readSignal s c t e
    let g := readComp r.2 x
    let o := compress (bitsOf e (26, 25)) (hWord1 s 2 x).toNat (bitsOf e (63, 32)) (bitsOf e (27, 27) == 1) g.1 r.1
    let rest := sampleAll c t es g.2
    ((x, o) :: rest.1, rest.2)

/-- A signal's compression state, whose 64 bytes of the signal-state region the spec does not lay out (R307) (log 138, DESIGN CHOICE). -/
def setComp (s : Dev) (x : Nat) (k : HComp) : Dev :=
  modHist (hWriteFree s (regionBase s 2 + 64 * x) 8) (fun h => { h with comp := mset (fun _ => {}) h.comp x k })

/-- Records appended in order, each signal's state following; answers the signals whose record found no buffer. -/
def putAll (c : Nat) : List (Nat × HSample × HComp) → Dev → List Nat × Dev
  | [], s => ([], s)
  | (x, y, k) :: l, s =>
    match putSample s c false x y with
    | some s1 => putAll c l (setComp s1 x k)
    | none => ((x, y, k) :: l |>.map (·.1), countHist s 0x08)

/-- Signals are read, compressed and recorded (R306, R319). -/
def sampleNow (s : Dev) (c t : Nat) (sigs : List (Nat × Word)) : Dev :=
  if s.hist.openBuf.isNone ∧ !(bufferFree s) then
    logLimited (countHist (fincSat s HIST_STAT HIST_STAT_SAMPLES_LOST sigs.length) 0x08) WARNING SB_HIST 0 0x0801 []
  else
    let r := sampleAll c t sigs s
    let quiet := r.1.filter (fun e => e.2.held.isNone && e.2.now.isNone)
    let s1 := quiet.foldl (fun s e => setComp s e.1 e.2.final) r.2
    let recs := r.1.filterMap (fun e => e.2.held.map (fun h => (e.1, h.1, h.2))) ++ r.1.filterMap (fun e => e.2.now.map (fun h => (e.1, h.1, h.2)))
    let x := putAll c recs s1
    if x.1.isEmpty then x.2
    else logLimited (fincSat x.2 HIST_STAT HIST_STAT_SAMPLES_LOST (dedup x.1).length) WARNING SB_HIST 0 0x0801 []

/-- A list in progress reads on (R304): up to the signals its class's cycle leaves time for, and up to a signal whose read waits (01 R15, 03 R96). What is left of it stays first in line. -/
def runList (s : Dev) (j : HList) : Dev :=
  if hState s ≠ H_RUNNING then fincSat s HIST_STAT HIST_STAT_SAMPLES_LOST j.sigs.length
  else
    let now := (j.sigs.take j.n).takeWhile (fun e => (signalWaits s e.2).isEmpty)
    let s1 := if now.isEmpty then s else sampleNow s j.cls j.t now
    match j.sigs.drop now.length with
    | [] => s1
    | rest =>
      let s2 := if now.length < j.n then (rest.take 1).foldl (fun s e => (signalWaits s e.2).foldl stallQueue s) s1 else s1
      modHist s2 (fun h => { h with lists := { j with n := j.n - now.length, sigs := rest } :: h.lists })

/-- The lists in line go on, one after the other (R304). -/
def pumpLists : Nat → Dev → Dev
  | 0, s => s
  | n + 1, s =>
    match s.hist.lists with
    | [] => s
    | j :: js =>
      let s1 := runList (modHist s (fun h => { h with lists := js })) j
      if s1.hist.lists.length ≤ js.length then pumpLists n s1 else s1

/-- Every list in line goes on as far as it can. -/
def resumeLists (s : Dev) : Dev := pumpLists s.hist.lists.length s

/-- A list is taken up at `start`, in fifths of a nanosecond: it is complete 800 ns and 0.8 ns a signal later (R304). -/
def takeList (s : Dev) (j : HList) (start : Nat) : Dev :=
  let s1 := modHist s (fun h => { h with listEnd := start + 4000 + 4 * min j.n j.sigs.length })
  if s.hist.lists.isEmpty then runList s1 j else modHist s1 (fun h => { h with lists := h.lists ++ [j] })

/-- A SAMPLE action of list `L` for class `c`, with `n` signals read before the next boundary; it waits for the list in progress, which leaves it fewer (R300, R302 to R305) (log 16, DEDUCED). -/
def histSample (s : Dev) (c L n : Nat) : Dev :=
  if !(domOn s 77) then s
  else if 1023 < L ∨ bitsOf (hWord0 s 1 L) (41, 41) = 0 then hErr s HIST_ERR_LIST
  else if hState s ≠ H_RUNNING then fincSat s HIST_STAT HIST_STAT_SAMPLES_LOST (bitsOf (hWord0 s 1 L) (40, 20))
  else
    let start := max (5 * nowNs s) s.hist.listEnd
    takeList s { cls := c, t := nowNs s, n := n - (start - 5 * nowNs s + 3) / 4, sigs := listSignals s (hWord0 s 1 L) } start

/-- The boundary of a class cuts the signals not yet read (R305); a list that waited for one of them goes on. -/
def histCut (s : Dev) (c : Nat) : Dev :=
  let cut := s.hist.lists.filter (fun j => j.cls == c)
  if cut.isEmpty then s
  else
    let left := s.hist.lists.filter (fun j => j.cls != c)
    let s1 := modHist s (fun h => { h with lists := left, listEnd := if left.isEmpty then min h.listEnd (5 * nowNs s) else h.listEnd })
    resumeLists (logLimited (fincSat s1 HIST_STAT HIST_STAT_SAMPLE_CUT ((cut.map (fun j => j.sigs.length)).sum)) WARNING SB_HIST 0 0x0803 [])

/-! ## Completions of ring entries (R323) -/

def ringAddr (s : Dev) (entry : Nat) : Nat := regionBase s 4 + 64 * (entry % cqSize s)

/-- A completion overwrites word 7 of its entry and raises 0xE20 where the entry asks for it (log 58, DESIGN CHOICE). -/
def ringComplete (s : Dev) (entry : Nat) (irq more : Bool) (status : Nat) : Dev :=
  let s1 := hWritePlain s (ringAddr s entry + 56) [BitVec.ofNat 64 (status + 2 ^ 16 * b2n more + 2 ^ 63)]
  if irq then raise s1 0xE20 else s1

/-- A SYNC ends when its segments are valid: the superblock is written (R314, R324). -/
def syncCheck (s : Dev) : Dev :=
  match s.hist.sync with
  | some (entry, irq, 0) => ringComplete (writeSuper (modHist s (fun h => { h with sync := none }))) entry irq false ST_OK
  | _ => s

/-! ## Writing segments (R315 to R318) -/

/-- Blocks of each stripe of a segment, the checkpoint excepted. -/
def stripeLefts (s : Dev) : List Nat := (rangeFrom 0 (hD s)).map (fun j => if j + 1 = hD s then hStripe s - 1 else hStripe s)

/-- Blocks of one command to drive `j`: 32, or fewer by its maximum data transfer size (R296). -/
def maxBlocks (s : Dev) (j : Nat) : Nat := match s.hist.mdts.getD j 0 with | 0 => 32 | m => min 32 m

/-- Whether the drives' queue pairs, of 256 entries each, have room for another segment's commands, or none is in flight (R296) (log 60, DESIGN CHOICE). -/
def queueRoom (s : Dev) : Bool :=
  s.hist.flight.isEmpty || (rangeFrom 0 (hD s)).all (fun j =>
    let cmds (n : Nat) : Nat := (n + maxBlocks s j - 1) / maxBlocks s j
    decide ((s.hist.flight.map (fun x => cmds (x.left.getD j 0))).sum + cmds (hStripe s) ≤ 256 * (bitsOf (hWord0 s 0 j) (8, 6) + 1)))

/-- Segment that the next sealed buffer goes to. -/
def nextSegment (s : Dev) : Nat := (hHead s + 1 + s.hist.flight.length) % hS s

/-- A sealed buffer is issued to segment HEAD + 1 (R315, R316), under a write credit; its index entry is cleared, whose write may have to wait (log 59, DEDUCED) (log 138, DESIGN CHOICE). -/
def segmentWrite (s : Dev) : Dev :=
  if !(hState s == H_RUNNING || hState s == H_STOPPING) then s
  else
    match s.hist.sealedBufs with
    | [] => s
    | b :: rest =>
      if !(mayIssue s 513) then countHist (stallOn s 513) 0x09
      else if hS s ≤ s.hist.flight.length ∨ !(queueRoom s) then s
      else engineAct s (hWaits s (idxAddr s (nextSegment s)) 1088 true) (fun s =>
        let seg := nextSegment s
        let s1 := idxClear (takeCredit s 513) seg
        let s2 := if hTail s1 = seg then fset s1 HIST_LOG HIST_LOG_TAIL ((seg + 1) % hS s1) else s1
        let b1 := { b with firstSeq := s2.hist.nextSeq, seg := seg }
        let s3 := if b1 = b then s2 else storeBlocks s2 b1 0 1024
        let x : HSeg := { buf := b1, seg := seg, firstSeq := s2.hist.nextSeq, left := stripeLefts s2, issuedAt := nowNs s2 }
        modHist s3 (fun h => { h with sealedBufs := rest, flight := h.flight ++ [x], nextSeq := h.nextSeq + 1024 }))

/-- Block `b` of a segment ends its write (log 60, DESIGN CHOICE) (log 59, DEDUCED). -/
def endBlock (x : HSeg) (ok : Bool) (s : Dev) (b : Nat) : Dev :=
  let p := hPlace s x.seg b
  if ok then countHist (putDrive s p.1 p.2 (segContent s x b)) 0x04 else maybeWrite s p.1 p.2 (segContent s x b)

/-- A failed segment is written again with a fresh FIRST_SEQ, or the engine faults (R299, R317). -/
def segmentFailed (s : Dev) (i : Nat) (x : HSeg) : Dev :=
  let s1 := fset (fset (fset s HIST_SEGERR HIST_SEGERR_ATTEMPT x.attempt) HIST_SEGERR HIST_SEGERR_MASK x.fail) HIST_SEGERR HIST_SEGERR_SEGMENT x.seg
  let s2 := logRec (fincSat s1 HIST_STAT HIST_STAT_SEG_FAILED 1) ALERT SB_HIST 0 0x0802 [x.seg, x.fail]
  if x.attempt < fget s HIST_CTRL HIST_CTRL_RETRY then
    let b := { x.buf with firstSeq := s2.hist.nextSeq }
    modHist (storeBlocks s2 b 0 1024) (fun h => { h with
      flight := listSet h.flight i { x with buf := b, attempt := x.attempt + 1, fail := 0, left := stripeLefts s, firstSeq := h.nextSeq, issuedAt := nowNs s },
      nextSeq := h.nextSeq + 1024 })
  else
    let s3 := histFault (fset s2 HIST_STATUS HIST_STATUS_DRIVE_FAIL (Nat.lor (fget s2 HIST_STATUS HIST_STATUS_DRIVE_FAIL) x.fail))
    match s3.hist.sync with
    | some (entry, irq, _) => ringComplete (modHist s3 (fun h => { h with sync := none })) entry irq false ST_WRONG_STATE
    | none => s3

/-- HEAD moves to the oldest segment in flight, whose checkpoint is on the media (R316). -/
def segmentDone (s : Dev) (x : HSeg) : Dev :=
  let s1 := modHist (fset s HIST_STATUS HIST_STATUS_HEAD x.seg) (fun h => { h with
    flight := h.flight.drop 1
    chkDone := nowNs s
    sync := h.sync.map (fun y => (y.1, y.2.1, y.2.2 - 1)) })
  syncCheck (idxFill s1 x.seg)

/-- `n` blocks of stripe `j` of the `i`-th segment in flight end their write, or its checkpoint does (R316, R317) (log 60, DESIGN CHOICE). -/
def blocksEnd (s : Dev) (i j n : Nat) (ok : Bool) : Dev :=
  match s.hist.flight[i]? with
  | none => s
  | some x =>
    if x.left.all (· == 0) then
      if i = 0 ∧ j + 1 = hD s ∧ n = 1 then
        let s1 := endBlock x ok (countHist s 0x07) 1023
        if ok then segmentDone s1 x else segmentFailed s1 0 { x with fail := 2 ^ j }
      else s
    else
      let left := x.left.getD j 0
      if n = 0 ∨ left < n then s
      else
        let total := (stripeLefts s).getD j 0
        let s1 := (rangeFrom (j * hStripe s + (total - left)) n).foldl (endBlock x ok) (countHist s 0x07)
        let x1 := { x with left := listSet x.left j (left - n), fail := if ok then x.fail else Nat.lor x.fail (2 ^ j) }
        if x1.left.all (· == 0) && x1.fail != 0 then segmentFailed s1 i x1
        else modHist s1 (fun h => { h with flight := listSet h.flight i (if x1.left.all (· == 0) then { x1 with chkAt := nowNs s1 } else x1) })

/-- First block of stripe `j` that a segment has not written. -/
def firstLeft (s : Dev) (x : HSeg) (j : Nat) : Nat :=
  if x.left.all (· == 0) then 1023 else j * hStripe s + ((stripeLefts s).getD j 0 - x.left.getD j 0)

/-- The read of `n` blocks of the `i`-th segment's buffer, under the manager's stage 2 like every access to its regions (12 R439); the blocks are those the engine has built (log 138, DESIGN CHOICE). -/
def bufRead (s : Dev) (i j n : Nat) : Option (List (Nat × Nat)) × Dev :=
  match s.hist.flight[i]? with
  | none => (some [], s)
  | some x => ioRange s (hManager s) (regionBase s 0 + 0x400000 * x.buf.slot + 4096 * firstLeft s x j) (4096 * n) false

/-- A command of `n` blocks to drive `j` ends (R296); below a failed root port, or with a buffer that stage 2 refuses, it ends in error. -/
def driveEnds (s : Dev) (i j n : Nat) (ok : Bool) : Dev :=
  if maxBlocks s j < n then s
  else if ok && driveReached s j then
    match bufRead s i j n with
    | (some l, s1) => blocksEnd (partsTaken s1 histSource l) i j n true
    | (none, s1) => blocksEnd s1 i j n false
  else blocksEnd s i j n false

/-- Every command in flight to drive `j` fails: its blocks of the `i`-th segment in flight, or that segment's checkpoint. -/
def driveFails (j : Nat) (s : Dev) (i : Nat) : Dev :=
  match s.hist.flight[i]? with
  | none => s
  | some x => blocksEnd s i j (if x.left.all (· == 0) then 1 else x.left.getD j 0) false

/-- The commands in flight below a root port that fails count as failed (R296). -/
def portFails (s : Dev) (r : Nat) : Dev :=
  ((rangeFrom 0 (hD s)).filter (fun j => driveRoot s j == r)).foldl (fun s j => (rangeFrom 0 s.hist.flight.length).foldl (driveFails j) s) s

/-- PCIE_LINK_DOWN (05 R207): the link goes down, and with it the historian's commands behind it (R296). -/
def rootLost (s : Dev) (r : Nat) : Dev := if (root s r).up then portFails (rootDown s r) r else s

/-- Containment: the trigger status of DPC is set where its control enables the trigger, and the link goes down (05 R204, R207). -/
def rootContain (s : Dev) (r : Nat) : Dev :=
  if (root s r).up ∧ Nat.land (cfgByte s r 0x156).toNat 3 ≠ 0 then rootLost (setCfg s r 0x158 (cfgByte s r 0x158 ||| 1)) r else s

/-- NVME_TIMEOUT (R296): 2 s after submission, a checkpoint's when its own blocks and the previous checkpoint have completed (R316) (log 60, DESIGN CHOICE). -/
def driveTimeout (s : Dev) (i j n : Nat) : Dev :=
  match s.hist.flight[i]? with
  | none => s
  | some x => driveEnds (advanceTo s ((if x.left.all (· == 0) then max x.chkAt s.hist.chkDone else x.issuedAt) + 2000000000)) i j n false

/-- SEAL_TIMER (R315). -/
def sealTimer (s : Dev) : Dev :=
  let ms := fget s HIST_CTRL HIST_CTRL_SEAL_MS
  match s.hist.openBuf with
  | some b =>
    if hState s = H_RUNNING ∧ ms ≠ 0 ∧ !(b.blocks.isEmpty && b.cur.isNone) then sealOpen (advanceTo s (b.firstAt + ms * 1000000))
    else s
  | none => s

/-- SUPERBLOCK_TIMER (R314). -/
def superTimer (s : Dev) : Dev :=
  if hState s = H_RUNNING then writeSuper (advanceTo s (s.hist.sbAt + fget s HIST_CTRL HIST_CTRL_SB_S * 1000000000)) else s

/-- HIST_DISABLE (R299). -/
def histDisable (s : Dev) : Dev :=
  let s1 := fset s HIST_CTRL HIST_CTRL_EN 0
  if hState s = H_RUNNING then setHState (sealOpen s1) H_STOPPING
  else if hState s = H_FAULT then setHState s1 H_OFF
  else s1

/-- HIST_SHUTDOWN_DONE (R299): all writes completed, the superblock written, the drives shut down. -/
def shutdownDone (s : Dev) : Dev :=
  if hState s = H_STOPPING ∧ s.hist.sealedBufs.isEmpty ∧ s.hist.flight.isEmpty then setHState (writeSuper s) H_OFF else s

/-- Power is lost: blocks in flight are each old or new, everything not on the media is gone (R321) (log 60, DESIGN CHOICE). -/
def histPowerLost (s : Dev) : Dev :=
  let ends (s : Dev) (x : HSeg) : Dev :=
    if x.left.all (· == 0) then endBlock x false s 1023
    else
      (x.left.zipIdx).foldl (fun s e =>
        let total := (stripeLefts s).getD e.2 0
        (rangeFrom (e.2 * hStripe s + (total - e.1)) e.1).foldl (endBlock x false) s) s
  let s1 := s.hist.flight.foldl ends s
  { s1 with hist := { media := s1.hist.media } }

end Sys2Proof.Machine
end

