-- ==== Sys2Proof/Machine/Twin.lean ====
section
/-! DEFINITION. Twin: roles, messages, agreement, journal, digests, join and swap of the twin pair (07). -/
namespace Sys2Proof.Machine

/-! ## Roles (R253 to R258) -/

def ISOLATED : Nat := 0
def JOINING : Nat := 1
def STANDBY : Nat := 2
def ACTIVE : Nat := 3
def ORPHAN : Nat := 4
/-- PEER_ROLE while the link is lost. -/
def LOST : Nat := 7

def twinOn (s : Dev) : Bool := fbit s TWIN_CTRL TWIN_CTRL_EN
def role (s : Dev) : Nat := fget s TWIN_STATUS TWIN_STATUS_ROLE
def peerRole (s : Dev) : Nat := fget s TWIN_STATUS TWIN_STATUS_PEER_ROLE
def setTwin (s : Dev) (x : TwinSt) : Dev := { s with twin := x }
def modTwin (s : Dev) (f : TwinSt → TwinSt) : Dev := { s with twin := f s.twin }
def unitNo (s : Dev) : Nat := fget s TWIN_CTRL TWIN_CTRL_UNIT
def refClass (s : Dev) : Nat := fget s TWIN_CTRL TWIN_CTRL_REF_CLASS
def hbPeriodNs (s : Dev) : Nat := fget s TWIN_LINK TWIN_LINK_PERIOD * 1000
def lossNs (s : Dev) : Nat := fget s TWIN_LINK TWIN_LINK_LOSS * hbPeriodNs s

/-- The ROLE_ACTIVE pin is high exactly while TWIN_STATUS.ROLE reads ACTIVE (R258). -/
def roleActivePin (s : Dev) : Bool := role s == ACTIVE

/-- A role change: NOTICE 0x0701, or ALERT 0x0707 on entry into ORPHAN; source 0xE00 (R254). -/
def setRole (s : Dev) (r : Nat) : Dev :=
  if role s = r then s
  else
    let s1 := fset (modTwin s (fun x => { x with startPend := false, coldPend := false, demote := false })) TWIN_STATUS TWIN_STATUS_ROLE r
    let s2 := raise s1 0xE00
    if r = ORPHAN then logRec s2 ALERT SB_TWIN 0 0x0707 [] else logRec s2 NOTICE SB_TWIN 0 0x0701 []

/-- The smallest epoch above both last ones with bit 0 = UNIT (R256). -/
def nextEpoch (s : Dev) : Nat :=
  let m := max s.twin.lastEpoch (fget s TWIN_EPOCH TWIN_EPOCH_PEER_EPOCH) + 1
  if m % 2 = unitNo s then m else m + 1

/-- The device becomes ACTIVE with a new epoch, or keeps its role when none exists (R256). -/
def becomeActive (s : Dev) : Dev :=
  let e := nextEpoch s
  if 2 ^ 32 ≤ e then logRec s ALERT SB_TWIN 0 0x0708 []
  else setRole (fset (modTwin s (fun x => { x with lastEpoch := e })) TWIN_EPOCH TWIN_EPOCH_EPOCH e) ACTIVE

/-! ## Tables (R271, R292) -/

def twinTable (s : Dev) (t : Nat) : Map Word :=
  match t with | 0 => s.twin.table0 | 1 => s.twin.table1 | _ => s.twin.table2
def twinEntry (s : Dev) (t i : Nat) : Word := mget (fun _ => 0) (twinTable s t) i
def putTwinEntry (s : Dev) (t i : Nat) (v : Word) : Dev :=
  let m := mset (fun _ => 0) (twinTable s t) i v
  match t with
  | 0 => modTwin s (fun x => { x with table0 := m })
  | 1 => modTwin s (fun x => { x with table1 := m })
  | _ => modTwin s (fun x => { x with table2 := m })

def windowNs (s : Dev) (c : Nat) : Nat := bitsOf (twinEntry s 0 c) (19, 0)
def fillMax (s : Dev) (c : Nat) : Nat := bitsOf (twinEntry s 0 c) (29, 20)
def jnlMax (s : Dev) (c : Nat) : Nat := bitsOf (twinEntry s 0 c) (38, 30)
def pathEn (s : Dev) (j : Nat) : Bool := bitsOf (twinEntry s 1 j) (55, 55) == 1
def pathUp (s : Dev) (j : Nat) : Bool := nbit (fget s TWIN_STATUS TWIN_STATUS_PATHS_UP) j

/-- Words a scatter list writes and its descriptors, without effects: for c of R143. -/
def scatterWords (s : Dev) (k b : Nat) : Nat → Nat → Nat → List Nat → Nat × List Nat
  | 0, _, n, g => (n, g)
  | fuel + 1, w, n, g =>
    match (fetchDesc s k b w).1 with
    | none => (n, g)
    | some d =>
      match dKind d with
      | 0 | 3 => scatterWords s k b fuel (w + 1) (n + 1) (dWord d :: g)
      | 1 | 2 => scatterWords s k b fuel (w + 1) (n + 1) g
      | _ => (n + 1, g)

/-- c = max(A + 2L, ceil(D / 8)) of an ingress stream's list (R143). -/
def scatterCost (s : Dev) (e : Word) : Nat :=
  let x := scatterWords s (bitsOf e S_K) (bitsOf e S_DBANK) 4096 (bitsOf e S_DBASE) 0 []
  let ws := dedup x.2
  let groups := dedup (ws.map (· / 4))
  let lines := dedup (ws.map (· / 8))
  let part := lines.filter (fun l => decide ((ws.filter (fun w => w / 8 == l)).length < 8))
  max (groups.length + 2 * part.length) ((x.1 + 7) / 8)

/-- Whether AGREE + WINDOW + fill reserve fits the period on every controller (R271). -/
def budgetOk (s : Dev) (c : Nat) (w : Word) (m : Map Word) : Bool :=
  match agreeEntry s c with
  | none => true
  | some a =>
    (rangeFrom 0 8).all (fun k =>
      let cmax := ((streamsOf m c).filter (fun e => bitsOf e.2 S_TWIN == 1 && bitsOf e.2 S_K == k)).foldl (fun n e => max n (scatterCost s e.2)) 0
      decide (10 * (a.offset + bitsOf w (19, 0) + 800) + 8 * bitsOf w (29, 20) * cmax ≤ 10 * periodNs s c))

/-- Budget check of an ingress stream entry with TWIN = 1 (R271). -/
def ingressBudget (s : Dev) (i : Nat) (v : Word) : Bool :=
  !(bitsOf v S_EN == 1 && bitsOf v S_TWIN == 1) ||
    budgetOk s (bitsOf v S_CLASS) (twinEntry s 0 (bitsOf v S_CLASS)) (mset (fun _ => 0) s.cyc.ingress i v)

/-- A WINDOW shorter than 4 µs + 2 × DELAY (R270). -/
def isShort (s : Dev) (w : Word) : Bool := decide (bitsOf w (19, 0) < 4000 + 2 * fget s TWIN_STATUS TWIN_STATUS_DELAY)

/-- A short WINDOW is used as written and reported: when it is written, when a measured delay makes it short, and at an AGREE that uses one not reported since the bit was cleared (R270) (log 158, DESIGN CHOICE). -/
def shortWindow (s : Dev) (w : Word) : Dev :=
  if isShort s w then
    logRec (fset s TWIN_ERR TWIN_ERR_SHORT_WINDOW 1) WARNING SB_TWIN 0 0x0705 []
  else s

def twinTableSize : Nat → Nat
  | 0 => 8
  | 1 => 4
  | 2 => 16
  | _ => 0

/-- TWIN_TBL_INDEX with GO and WRITE 0. -/
def twinTblRead (s : Dev) (t i : Nat) : Dev :=
  let s0 := fset (fset (fset s TWIN_TBL_INDEX TWIN_TBL_INDEX_TABLE t) TWIN_TBL_INDEX TWIN_TBL_INDEX_INDEX i) TWIN_TBL_INDEX TWIN_TBL_INDEX_WRITE 0
  if twinTableSize t ≤ i then fset s0 TWIN_ERR TWIN_ERR_BAD_VALUE 1
  else
    let v := twinEntry s t i
    setReg s0 TWIN_TBL_DATA (if t = 1 then putBits v (56, 56) (b2n (pathUp s i)) else v)

def enabledPaths (s : Dev) : Nat := ((rangeFrom 0 4).filter (pathEn s)).length

/-- TWIN_ERR.PATHS with fewer than MIN_PATHS paths enabled (R279). -/
def notePaths (s : Dev) : Dev :=
  if enabledPaths s < fget s TWIN_CTRL TWIN_CTRL_MIN_PATHS then fset s TWIN_ERR TWIN_ERR_PATHS 1 else s

/-- The same after a write that may have left too few, while the twin function is on. -/
def notePathsOn (s : Dev) : Dev := if twinOn s then notePaths s else s

/-- Pages of every mirrored region but entry `i`. -/
def mirroredPages (s : Dev) (i : Nat) : Nat :=
  ((s.twin.table2.filter (fun e => e.1 != i && bitsOf e.2 (0, 0) == 1)).map (fun e => bitsOf e.2 (63, 46))).sum

/-- A value written to a TWIN table (R270, R271, R292). -/
def twinPut (s : Dev) (t i : Nat) (v : Word) : Dev :=
  if twinTableSize t ≤ i then fset s TWIN_ERR TWIN_ERR_BAD_VALUE 1
  else
    match t with
    | 0 =>
      if 256 < bitsOf v (38, 30) then fset s TWIN_ERR TWIN_ERR_BAD_VALUE 1
      else if classRuns s i && !(budgetOk s i v s.cyc.ingress) then fset s TWIN_ERR TWIN_ERR_BUDGET 1
      else shortWindow (putTwinEntry s 0 i v) v
    | 1 => notePathsOn (putTwinEntry s 1 i (putBits v (56, 56) 0))
    | _ =>
      if role s ≠ ISOLATED then fset s TWIN_ERR TWIN_ERR_RUNNING 1
      else if bitsOf v (0, 0) = 1 ∧ 1048576 < mirroredPages s i + bitsOf v (63, 46) then fset s TWIN_ERR TWIN_ERR_BAD_VALUE 1
      else putTwinEntry s 2 i v

def twinTblWrite (s : Dev) (t i : Nat) : Dev :=
  let s0 := fset (fset (fset s TWIN_TBL_INDEX TWIN_TBL_INDEX_TABLE t) TWIN_TBL_INDEX TWIN_TBL_INDEX_INDEX i) TWIN_TBL_INDEX TWIN_TBL_INDEX_WRITE 1
  twinPut s0 t i (reg s TWIN_TBL_DATA)

/-! ## Messages (R260 to R263) -/

/-- A message of the link: header, payload, CRC-32C (R261). -/
def twinMessage (s : Dev) (type cls endBit cycle : Nat) (payload : List Byte) : List Byte :=
  let body := beBytes 1 type ++ beBytes 1 (cls + 8 * endBit) ++ beBytes 2 payload.length ++ beBytes 4 s.twin.txSeq ++
    beBytes 4 (fget s TWIN_EPOCH TWIN_EPOCH_EPOCH) ++ beBytes 4 (cycle % 2 ^ 32) ++ payload
  body ++ beBytes 4 (crc32c body)

/-- Messages a lane takes before it has no credit: the queue's 32 over 8 lanes (log 135, DESIGN CHOICE). -/
def laneDepth : Nat := 4

/-- The next lane in use, round-robin, that has a credit (R260, R264). -/
def nextLane (s : Dev) : Option Nat :=
  ((rangeFrom (s.twin.lastLane + 1) 8).map (· % 8)).find? (fun l => nbit s.twin.lanes l && decide (s.twin.laneBusy.getD l 0 < laneDepth))

/-- A message of the queue that has a credit goes to a lane, whole (R260). -/
def toLane (s : Dev) (m : TwinOut) : TwinOut × Dev :=
  if m.credit && m.lane.isNone then
    match nextLane s with
    | some l => ({ m with lane := some l }, modTwin s (fun x => { x with lastLane := l, laneBusy := listSet x.laneBusy l (x.laneBusy.getD l 0 + 1) }))
    | none => (m, s)
  else (m, s)

/-- The messages of the queue, oldest first: those without a credit take one where there is one, then lanes are given (01 R13, R260). -/
def admitOut : List TwinOut → Dev → List TwinOut × Dev
  | [], s => ([], s)
  | m :: ms, s =>
    let fresh := !m.credit && mayIssue s 512
    let a := toLane (if fresh then takeCredit s 512 else s) { m with credit := m.credit || fresh }
    let r := admitOut ms a.2
    (a.1 :: r.1, r.2)

def twinAdmit (s : Dev) : Dev :=
  let r := admitOut s.twin.out s
  modTwin r.2 (fun x => { x with out := r.1 })

/-- A message enters the queue to the link, under a credit or stalled for one (01 R13, R15) (log 135, DESIGN CHOICE). -/
def twinSend (s : Dev) (type cls endBit cycle : Nat) (payload : List Byte) : Dev :=
  let m := twinMessage s type cls endBit cycle payload
  let s1 := if mayIssue s 512 then s else countTwin (stallOn s 512) 7
  countTwin (twinAdmit (modTwin s1 (fun x => { x with out := x.out ++ [{ bytes := m }], txSeq := (x.txSeq + 1) % 2 ^ 32 }))) 5

/-- The link takes the oldest message of the queue: its credits return, and the messages that wait move on (R260, 01 R13). -/
def twinLeave (s : Dev) : Dev :=
  match s.twin.out with
  | [] => s
  | m :: ms =>
    if m.lane.isNone then s
    else
      let l := m.lane.getD 0
      twinAdmit (giveCredit (modTwin s (fun x => { x with out := ms, laneBusy := listSet x.laneBusy l (x.laneBusy.getD l 0 - 1) })) 512)

/-- A received message taken apart (R261). -/
structure TwinMsg where
  type : Nat
  cls : Nat
  endBit : Bool
  seq : Nat
  epoch : Nat
  cycle : Nat
  payload : List Byte
deriving DecidableEq, Repr

/-- The message of a byte string with a correct CRC and length; `none` for a bad one (R262). -/
def parseTwin (m : List Byte) : Option TwinMsg :=
  let n := m.length
  if n < 20 then none
  else
    let body := m.take (n - 4)
    if beNat (m.drop (n - 4)) ≠ crc32c body ∨ beNat ((m.drop 2).take 2) ≠ n - 20 then none
    else
      let f := (m.getD 1 0).toNat
      some { type := (m.getD 0 0).toNat, cls := f % 8, endBit := f / 8 % 2 == 1, seq := beNat ((m.drop 4).take 4), epoch := beNat ((m.drop 8).take 4), cycle := beNat ((m.drop 12).take 4), payload := body.drop 16 }

/-- The SEQ of a message is judged: a jump is a gap (R262), remembered until a STATE_COPY has been judged by it (R286). -/
def noteSeq (s : Dev) (q : Nat) : Dev :=
  let gap := match s.twin.rxSeq with | some p => (p + 1) % 2 ^ 32 != q | none => false
  let s1 := modTwin s (fun x => { x with rxSeq := some q, lastGap := x.lastGap || gap })
  if gap then
    let missing := (s.twin.rxSeq.getD 0 + 1) % 2 ^ 32
    countTwin (modTwin s1 (fun x => { x with firstGap := if x.firstGap = 0 then missing else x.firstGap, roundGap := true })) 1
  else s1

/-- A message arrives at device time `at_`: discarded and counted with a bad CRC, otherwise its SEQ and EPOCH are noted (R256, R262) (log 140, DEDUCED). -/
def twinReceive (s : Dev) (at_ : Nat) (m : List Byte) (type : Nat) : Option (TwinMsg × Dev) × Dev :=
  let s0 := advanceTo s at_
  if !(twinOn s0) || !(domOn s0 78) then (none, s0)
  else
    match parseTwin m with
    | none => (none, countTwin (modTwin s0 (fun t => { t with goodBeats := 0 })) 0)
    | some x =>
      let s1 := fset (countTwin (modTwin (noteSeq s0 x.seq) (fun t => { t with lastRx := nowNs s0 })) 6) TWIN_EPOCH TWIN_EPOCH_PEER_EPOCH x.epoch
      if x.type = type then (some (x, s1), s1) else (none, s1)

/-! ## Heartbeats (R255, R263, R265, R281) -/

/-- The Slazal sections for bobbin pairs, cycle classes and Pricking tables, and streams (14 R527: types 5, 6 and 7) in force (log 10, DESIGN CHOICE). -/
def layoutSections (s : Dev) : List Byte := [5, 6, 7].flatMap (fun t => (s.oasis.inForce.filter (fun e => e.1 == t)).flatMap (fun e => e.2.2))

/-- Layout digest of this device: of the sections, and of every entry of tables 0 and 2 in order (R263) (log 10, DESIGN CHOICE). -/
def layoutDigest (s : Dev) : Nat := (Config.layoutDigest (layoutSections s) ((rangeFrom 0 8).map (twinEntry s 0) ++ (rangeFrom 0 16).map (twinEntry s 2))).toNat

/-- Payload of a HEARTBEAT (R263). -/
def heartbeatPayload (s : Dev) : List Byte :=
  let t := s.twin
  beBytes 1 (role s) ++ beBytes 1 (unitNo s) ++
    beBytes 1 (fget s TWIN_STATUS TWIN_STATUS_REDUCED + 2 * b2n t.swapReq.isSome) ++ [0] ++
    beBytes 8 (layoutDigest s) ++ beBytes 8 (nowNs s) ++ beBytes 4 t.lastCopySeq ++
    beBytes 4 (t.swapReq.getD 0) ++ beBytes 4 t.firstGap ++
    (rangeFrom 0 8).flatMap (fun c =>
      beBytes 4 (if classRuns s c then fget s (CYC_PERIOD c) CYC_PERIOD_PERIOD else 0) ++ [0, 0, 0, 0] ++
        beBytes 8 (reg s (CYC_EPOCH c)).toNat ++ beBytes 8 (reg s (CYC_NUMBER c)).toNat)

/-- Cycle number opened by the first reference-class boundary at least `ahead` ns from now (R290). -/
def swapBoundary (s : Dev) (ahead : Nat) : Nat :=
  let c := refClass s
  let t := (reg s (CYC_NEXT_T0 c)).toNat
  let p := periodNs s c
  let lim := nowNs s + ahead
  let j := if lim ≤ t ∨ p = 0 then 0 else (lim - t + p - 1) / p
  ((reg s (CYC_NUMBER c)).toNat + 1 + j) % 2 ^ 32

/-- The SWAP request is set in the device's heartbeats (R290). -/
def requestSwap (s : Dev) : Dev :=
  if s.twin.swapReq.isSome then s
  else
    let n := swapBoundary s (2 * hbPeriodNs s + 2 * fget s TWIN_STATUS TWIN_STATUS_DELAY)
    modTwin s (fun x => { x with swapReq := some n, swapAt := nowNs s, swapAgreed := false })

/-- An ACTIVE with reduced integrity requests a swap (R282). -/
def integritySwap (s : Dev) : Dev :=
  if fbit s TWIN_CTRL TWIN_CTRL_INTEGRITY_SWAP && role s == ACTIVE && fbit s TWIN_STATUS TWIN_STATUS_REDUCED &&
      peerRole s == STANDBY && !(fbit s TWIN_STATUS TWIN_STATUS_PEER_REDUCED) && s.twin.lastMatched then requestSwap s
  else s

/-- A HEARTBEAT is sent on the link (R263). -/
def heartbeatSend (s : Dev) : Dev :=
  let s1 := integritySwap s
  let s2 := twinSend s1 0x01 0 0 0 (heartbeatPayload s1)
  modTwin s2 (fun x => { x with firstGap := 0 })

/-- Network heartbeat frames of the enabled paths: (port, frame from DA to the byte before FCS) (R281), from the address of the device on that port (log 29, DESIGN CHOICE). -/
def networkFrames (s : Dev) : List (Nat × List Byte) :=
  (rangeFrom 0 4).filterMap (fun j =>
    if pathEn s j then
      let e := twinEntry s 1 j
      let body := beBytes 6 (bitsOf e (47, 0)) ++ beBytes 6 (Config.portMac (bitsOf e (54, 48))) ++ beBytes 2 (fget s TWIN_LINK TWIN_LINK_ETYPE) ++ (heartbeatPayload s).take 24
      some (bitsOf e (54, 48), body ++ List.replicate (60 - body.length) 0)
    else none)

/-- A valid network heartbeat on path `j`: the path is up (R255, R281). -/
def pathHeartbeat (s : Dev) (j : Nat) : Dev :=
  let s1 := modTwin s (fun x => { x with pathRx := listSet x.pathRx j (nowNs s) })
  fset s1 TWIN_STATUS TWIN_STATUS_PATHS_UP (Nat.lor (fget s1 TWIN_STATUS TWIN_STATUS_PATHS_UP) (2 ^ j))

/-- Enabled network paths that are lost. -/
def lostPaths (s : Dev) : Nat := ((rangeFrom 0 4).filter (fun j => pathEn s j && !(pathUp s j))).length
/-- Takeover condition; with fewer than MIN_PATHS paths enabled it never holds (R279). -/
def takeoverOk (s : Dev) : Bool :=
  decide (fget s TWIN_CTRL TWIN_CTRL_MIN_PATHS ≤ enabledPaths s) && decide (fget s TWIN_CTRL TWIN_CTRL_MIN_PATHS ≤ lostPaths s)

/-- Releases held by a freeze or a join are performed (R285, R286). -/
def performHeld (s : Dev) : Dev :=
  s.twin.heldRel.foldl (fun s r => actRelease s r.1 r.2.1) (modTwin s (fun x => { x with heldRel := [], freezeAt := none }))

/-- A class takes the Active's period and epoch, and the cycle number that the Active will hold at its first boundary, and is enabled (R283). -/
def joinClass (s : Dev) (c : Nat) : Dev :=
  let p := s.twin.peer
  let f := p.classes.getD c (0, 0, 0)
  let s0 := modTwin s (fun x => { x with joinWait := x.joinWait.filter (fun d => d != c) })
  if f.1 = 0 then s0
  else
    let s1 := setReg (fset s0 (CYC_PERIOD c) CYC_PERIOD_PERIOD f.1) (CYC_EPOCH c) (BitVec.ofNat 64 f.2.1)
    let m := firstBoundary s1 c
    let ms := (p.sendTime - f.2.1) / (f.1 * 250)
    classEnable (setReg s1 (CYC_NUMBER c) (BitVec.ofNat 64 (f.2.2 + m - ms))) c

/-- A class that a join has disabled is set up at once, or at the boundary at which it stops (04 R121, R283). -/
def joinStopped (s : Dev) (c : Nat) : Dev :=
  if s.twin.joinWait.contains c && !(classRuns s c) then (if role s == JOINING then joinClass s c else modTwin s (fun x => { x with joinWait := x.joinWait.filter (fun d => d != c) })) else s

/-- A copied line is discarded: the spec does not say what it then reads as, so its words are free values (log 156, DESIGN CHOICE). -/
def discardLine (s : Dev) (t : Nat) : Dev :=
  let at_ (i : Nat) : Nat :=
    if t / 2 ^ 63 = 1 then t % 2 ^ 46 / 64 * 64 + 8 * i
    else pairWordAddr (t / 2 ^ 17 % 8) (bitsOf (ltEntry s (t / 2 ^ 17 % 8) (t % 131072)) E_B) (8 * (t % 131072) + i)
  (rangeFrom 0 8).foldl (fun s i =>
    let v := drawFree s
    let g := drawFree v.2
    writeWord g.2 (at_ i) ⟨v.1, g.1.setWidth 8⟩) s

/-- The state copied by the present join is discarded (R254). -/
def discardCopies (s : Dev) : Dev := s.twin.copiedIn.foldl discardLine (modTwin s (fun x => { x with copiedIn := [] }))

/-- A join is abandoned: the releases it held are not performed, and no class waits for it any more (R254). -/
def abandonJoin (s : Dev) : Dev := modTwin s (fun x => { x with round := 0, roundGap := false, heldRel := [], joinWait := [], copiedIn := [] })

/-- Start of a join (R283): Oasis disables the classes; each takes the Active's values once it has stopped, and is enabled again. -/
def startJoin (s : Dev) : Dev :=
  let s1 := modTwin (setRole s JOINING) (fun x => { x with round := 0, roundGap := false, heldRel := [], journal := [], copiedIn := [], joinWait := rangeFrom 0 8 })
  (rangeFrom 0 8).foldl joinStopped ((rangeFrom 0 8).foldl classDisable s1)

/-- Joining by itself or by command is open: link up, peer ACTIVE, equal layouts (R254). -/
def joinPossible (s : Dev) : Bool := s.twin.linkUp && peerRole s == ACTIVE && s.twin.peer.layout == layoutDigest s

/-- The link is lost (R255): WARNING 0x0702; a JOINING device discards what it has copied and becomes ORPHAN, an ACTIVE goes on alone (R254, R287). -/
def linkLost (s : Dev) : Dev :=
  if s.twin.linkUp then
    let s1 := modTwin s (fun x => { x with linkUp := false, goodBeats := 0, lostAt := nowNs s, swapReq := none, swapAgreed := false })
    let s2 := logRec (fset s1 TWIN_STATUS TWIN_STATUS_PEER_ROLE LOST) WARNING SB_TWIN 0 0x0702 []
    if role s2 = JOINING then setRole (abandonJoin (discardCopies s2)) ORPHAN
    else if s2.twin.joining then performHeld (modTwin s2 (fun x => { x with joining := false, wantFreeze := false, copySent := [] }))
    else s2
  else s

/-- The peer's fields of a HEARTBEAT (R263). -/
def peerOf (x : TwinMsg) (now : Nat) : PeerSt :=
  let f (o n : Nat) := beNat ((x.payload.drop o).take n)
  { unit := f 1 1, layout := f 4 8, sendTime := f 12 8, recvTime := now, swap := f 2 1 / 2 % 2 == 1, swapCycle := f 24 4, copySeq := f 20 4, gap := f 28 4,
    classes := (rangeFrom 0 8).map (fun c => (f (32 + 24 * c) 4, f (40 + 24 * c) 8, f (48 + 24 * c) 8)) }

/-- STATE_COPY messages reported lost make their lines dirty again; the others are done with (R284). -/
def copyReport (s : Dev) : Dev :=
  let p := s.twin.peer
  let lost := if p.gap = 0 then [] else s.twin.copySent.filter (fun e => decide (p.gap ≤ e.1))
  let s1 := modTwin s (fun x => { x with copySent := if p.gap = 0 then x.copySent.filter (fun e => decide (p.copySeq < e.1)) else [] })
  (lost.flatMap (·.2)).foldl (fun s t =>
    if t / 2 ^ 63 = 1 then modTwin s (fun x => { x with dirtyPages := mset (fun _ => false) x.dirtyPages (t % 2 ^ 46 / 4096) true })
    else modTwin s (fun x => { x with copied := mdel x.copied (t / 2 ^ 17 % 8 * 131072 + t % 131072) })) s1

/-- A peer that no longer joins has its copy: the Active's rounds end (R284, R286). -/
def endCopy (s : Dev) : Dev :=
  if s.twin.joining && peerRole s != JOINING then performHeld (modTwin s (fun x => { x with joining := false, wantFreeze := false })) else s

/-- HEARTBEAT received at `at_`, with the one-way delay and skew the device measures from it (R254, R255, R265, R281, R290) (log 13, DESIGN CHOICE) (log 140, DEDUCED). -/
def heartbeat (s : Dev) (at_ : Nat) (m : List Byte) (delay skew : Nat) : Dev :=
  match twinReceive s at_ m 0x01 with
  | (none, s1) => s1
  | (some (x, s1), _) =>
    let p := peerOf x (nowNs s1)
    if p.unit = unitNo s1 then linkLost (fset (modTwin s1 (fun t => { t with goodBeats := 0 })) TWIN_ERR TWIN_ERR_UNIT 1)
    else
      -- a heartbeat that did not come for two periods breaks the row
      let g := if nowNs s1 < s1.twin.lastBeat + 2 * hbPeriodNs s1 then s1.twin.goodBeats + 1 else 1
      let s2 := modTwin s1 (fun t => { t with peer := p, goodBeats := g, lastBeat := nowNs s1, linkUp := t.linkUp || decide (16 ≤ g) })
      let s3 := fset (fset s2 TWIN_STATUS TWIN_STATUS_DELAY delay) TWIN_STATUS TWIN_STATUS_SKEW skew
      let s4 := if 1000 < (toSigned 16 skew).natAbs then logRec s3 WARNING SB_TWIN 0 0x0706 [] else s3
      let s5 := fset s4 TWIN_STATUS TWIN_STATUS_PEER_REDUCED ((x.payload.getD 2 0).toNat % 2)
      let s6 := if s5.twin.linkUp then fset s5 TWIN_STATUS TWIN_STATUS_PEER_ROLE ((x.payload.getD 0 0).toNat) else s5
      let s7 := (rangeFrom 0 8).foldl (fun s c => if classRuns s c && !(isShort s1 (twinEntry s1 0 c)) then shortWindow s (twinEntry s 0 c) else s) (endCopy (copyReport s6))
      let s8 := if role s7 = ACTIVE ∧ (x.payload.getD 0 0).toNat = ACTIVE ∧ fget s7 TWIN_EPOCH TWIN_EPOCH_EPOCH < x.epoch then modTwin s7 (fun t => { t with demote := true }) else s7
      let s9 :=
        if p.swap && (role s8 == ACTIVE || role s8 == STANDBY) then
          match s8.twin.swapReq with
          | some n => if n = p.swapCycle then modTwin s8 (fun t => { t with swapAgreed := true }) else s8
          | none => modTwin s8 (fun t => { t with swapReq := some p.swapCycle, swapAt := nowNs s8, swapAgreed := true })
        else s8
      if role s9 = JOINING ∧ p.layout ≠ layoutDigest s9 then setRole (abandonJoin s9) ISOLATED
      else if role s9 = ISOLATED ∧ joinPossible s9 ∧ fbit s9 TWIN_CTRL TWIN_CTRL_AUTO_JOIN then startJoin s9
      else s9

/-- LINK_LOST: no valid message for LOSS × PERIOD (R255) (log 2, DESIGN CHOICE). -/
def linkLostEvent (s : Dev) : Dev :=
  if twinOn s && s.twin.linkUp then linkLost (advanceTo s (s.twin.lastRx + lossNs s)) else s

/-- PATH_LOST: no valid network heartbeat on a path for LOSS × PERIOD (R255). -/
def pathLost (s : Dev) (j : Nat) : Dev :=
  if twinOn s && pathUp s j then
    let s1 := advanceTo s (s.twin.pathRx.getD j 0 + lossNs s)
    let s2 := fset s1 TWIN_STATUS TWIN_STATUS_PATHS_UP (fget s1 TWIN_STATUS TWIN_STATUS_PATHS_UP - 2 ^ j)
    logRec s2 WARNING SB_TWIN 0 0x0702 []
  else s

/-! ## Divergence and digests (R275 to R278) -/

/-- The two devices have diverged (R278). -/
def diverge (s : Dev) : Dev :=
  let s1 := raise (logRec (fincSat s TWIN_STAT TWIN_STAT_DIVERGE 1) ALERT SB_TWIN 0 0x0703 []) 0xE01
  let s2 := modTwin s1 (fun x => { x with lastMatched := false })
  if role s2 = STANDBY then
    if fbit s2 TWIN_CTRL TWIN_CTRL_AUTO_JOIN then startJoin s2 else setRole s2 ISOLATED
  else s2

def findDigest (c k cycle : Nat) (l : List DigestSt) : Option DigestSt :=
  l.find? (fun d => d.cls == c && d.k == k && d.cycle == cycle)
def dropDigest (c k cycle : Nat) (l : List DigestSt) : List DigestSt :=
  l.filter (fun d => !(d.cls == c && d.k == k && d.cycle == cycle))

/-- Both digests of a class, cycle and controller are held: they are compared (R277, R278). -/
def compareDigest (s : Dev) (c k cycle : Nat) : Dev :=
  match findDigest c k cycle s.twin.own, findDigest c k cycle s.twin.peerDig with
  | some a, some b =>
    let s1 := modTwin s (fun x => { x with own := dropDigest c k cycle x.own, peerDig := dropDigest c k cycle x.peerDig })
    if a.crc = b.crc then modTwin s1 (fun x => { x with lastMatched := true }) else diverge s1
  | _, _ => s

/-- DIGEST action: the computation of each masked controller starts at the committed version (R276). -/
def actDigest (s : Dev) (c : Nat) (e : PrickEntry) : Dev :=
  let n := ((reg s (CYC_NUMBER c)).toNat + (2 ^ 64 - 1)) % 2 ^ 32
  modTwin s (fun x => { x with digesting := x.digesting ++ ((rangeFrom 0 8).filter (nbit e.arg)).map (fun k => { cls := c, k := k, cycle := n, crc := 0 }) })

/-- Value and tag bytes of the version of a line committed at pin `p` (R276, 02 R77). A poisoned word contributes its stored value and tag (log 119, DESIGN CHOICE) (log 11, DEDUCED). -/
def digestLine (s : Dev) (k r line p : Nat) : List Byte :=
  let addr (i : Nat) := (pairRead s k r (8 * line + i) p).addr
  (rangeFrom 0 8).flatMap (fun i => rdBytes s (addr i) 8) ++ (rangeFrom 0 8).map (fun i => tagAt s (addr i / 8))

/-- Lines of a controller's output region, in ascending order. -/
def outputLines (s : Dev) (k : Nat) : List (Nat × Nat) :=
  ((rangeFrom 0 3).filter (fun r => fget s (IMG_REGION k r) IMG_REGION_KIND == 2)).flatMap (fun r =>
    (rangeFrom (fget s (IMG_REGION k r) IMG_REGION_BASE) (fget s (IMG_REGION k r) IMG_REGION_COUNT)).map (fun l => (r, l)))

/-- CRC-64 over a controller's committed output region in ascending line order (R276) (log 11, DEDUCED). -/
def outputDigest (s : Dev) (k p : Nat) : Nat :=
  (outputLines s k).foldl (fun crc x => crc64 crc (digestLine s k x.1 x.2 p)) 0

/-- Port cycles of a line's eight words: a port moves four words in one (03 R86). -/
def useLine (s : Dev) (place code k r line p : Nat) : Dev :=
  usePort s (((pairRead s k r (8 * line) p).addr - 0x300000000000) / 0x800000) place code 2

/-- What a digest waits for: credits of the pair's banks, and the end of the pair's initialisation (01 R15, 03 R96). -/
def digestWaits (s : Dev) (k : Nat) : List Nat := bankWaits s (3 * k) 0 0 ++ (if mayIssue s (3 * k + 1) then [] else [3 * k + 1])

/-- Whether the device takes part in agreement (R254, R266). -/
def inAgreement (s : Dev) : Bool := twinOn s && (role s == ACTIVE || role s == STANDBY || role s == JOINING)

/-- DIGEST_DONE: the digest of a controller is complete and sent (R276), and compared when the peer's is held (R277). -/
def digestDone (s : Dev) (c k : Nat) : Dev :=
  match s.twin.digesting.find? (fun d => d.cls == c && d.k == k) with
  | none => s
  | some d =>
    engineAct s (digestWaits s k) (fun s =>
    let p := d.cycle % 65536
    let crc := outputDigest s k p
    let s1 := modTwin ((outputLines s k).foldl (fun s x => useLine s 0 (0x10 + k) k x.1 x.2 p) s) (fun x => { x with digesting := dropDigest c k d.cycle x.digesting, own := x.own ++ [{ d with crc := crc, at_ := nowNs s }] })
    let s2 := if inAgreement s1 then twinSend s1 0x04 c 0 d.cycle (beBytes 1 k ++ List.replicate 7 0 ++ beBytes 8 crc) else s1
    compareDigest s2 c k d.cycle)

/-- DIGEST message received (R277). -/
def digestMessage (s : Dev) (at_ : Nat) (m : List Byte) : Dev :=
  match twinReceive s at_ m 0x04 with
  | (none, s1) => s1
  | (some (x, s1), _) =>
    if inAgreement s1 && x.payload.length == 16 then
      let k := (x.payload.getD 0 0).toNat
      compareDigest (modTwin s1 (fun t => { t with peerDig := t.peerDig ++ [{ cls := x.cls, k := k, cycle := x.cycle, crc := beNat (x.payload.drop 8), at_ := nowNs s1 }] })) x.cls k x.cycle
    else s1

/-- DIGEST_MISSED: an own digest stays unmatched for one period (R277). -/
def digestMissed (s : Dev) (c k : Nat) : Dev :=
  match s.twin.own.find? (fun d => d.cls == c && d.k == k) with
  | none => s
  | some d =>
    countTwin (modTwin (advanceTo s (d.at_ + periodNs s c)) (fun x => { x with own := dropDigest c k d.cycle x.own, lastMatched := false })) 3

/-! ## The input journal (R272 to R275) -/

/-- The input region of a controller. -/
def inputRegion (s : Dev) (k : Nat) : Option Nat :=
  (rangeFrom 0 3).find? (fun r => fget s (IMG_REGION k r) IMG_REGION_KIND == 1)

/-- A journal entry as the 16 bytes of JOURNAL (R263). -/
def journalBytes (e : JournalEnt) : List Byte := beBytes 8 e.target.toNat ++ beBytes 8 e.value.toNat

/-- Entries that apply in the present fill cycle of a class, in sequence order (R273) (log 11, DEDUCED). -/
def dueJournal (s : Dev) (c : Nat) : List JournalEnt :=
  s.twin.journal.filter (fun e => e.cls == c && e.apply == (reg s (CYC_NUMBER c)).toNat)

/-- A journal word goes to the input region; while its pair initialises it waits (R273, 03 R96). -/
def journalWord (s : Dev) (e : JournalEnt) : Dev :=
  match inputRegion s e.k with
  | some r =>
    if pairStalls s (3 * e.k) && decide (e.word < 8 * fget s (IMG_REGION e.k r) IMG_REGION_COUNT) then
      keepWrite s e.k { how := 0, code := 0x10 + e.k, region := r, word := 8 * fget s (IMG_REGION e.k r) IMG_REGION_BASE + e.word, words := [⟨e.value, e.tag⟩] }
    else (scatterWrite s e.k r e.word ⟨e.value, e.tag⟩ []).1
  | none => refusePair s e.k (0x10 + e.k)

/-- The entries of this cycle are written through the scatter engines (R273) (log 11, DEDUCED). -/
def journalApply (s : Dev) (c : Nat) : Dev :=
  let l := dueJournal s c
  let s1 := l.foldl journalWord s
  modTwin s1 (fun x => { x with journal := x.journal.filter (fun e => !(l.contains e)) })

/-- JOURNAL_SUBMIT: a write of TWIN_JNL_TARGET with GO = 1 (R272). -/
def journalSubmit (s : Dev) (v : Word) : Dev :=
  let c := bitsOf v TWIN_JNL_TARGET_CLASS
  let k := bitsOf v TWIN_JNL_TARGET_K
  let w := bitsOf v TWIN_JNL_TARGET_WORD
  let s0 := fset (fset (fset (fset s TWIN_JNL_TARGET TWIN_JNL_TARGET_TAG (bitsOf v TWIN_JNL_TARGET_TAG)) TWIN_JNL_TARGET TWIN_JNL_TARGET_CLASS c) TWIN_JNL_TARGET TWIN_JNL_TARGET_K k) TWIN_JNL_TARGET TWIN_JNL_TARGET_WORD w
  let apply := (reg s (CYC_NUMBER c)).toNat + 2
  let res := fun (s : Dev) (r : Nat) => fset s TWIN_JNL_TARGET TWIN_JNL_TARGET_RESULT r
  if role s ≠ ACTIVE ∨ classRuns s c = false then res s0 ST_WRONG_STATE
  else if jnlMax s c ≤ (s.twin.journal.filter (fun e => e.cls == c && e.apply == apply)).length then res s0 ST_NO_RESOURCE
  else
    let inside := match inputRegion s k with
      | some r => imgClass s k == c && decide (w < 8 * fget s (IMG_REGION k r) IMG_REGION_COUNT)
      | none => false
    if !inside then res s0 ST_BAD_ARG
    else
      let q := s.twin.journalSeq
      let s1 := fset (fset (res s0 ST_OK) TWIN_JNL_TARGET TWIN_JNL_TARGET_SEQ q) TWIN_JNL_TARGET TWIN_JNL_TARGET_APPLY apply
      let e : JournalEnt := { seq := q, cls := c, apply := apply, k := k, word := w, value := reg s TWIN_JNL_VALUE, tag := BitVec.ofNat 8 (bitsOf v TWIN_JNL_TARGET_TAG), target := reg s1 TWIN_JNL_TARGET }
      let s2 := modTwin s1 (fun x => { x with journal := x.journal ++ [e], journalSeq := (q + 1) % 2 ^ 32 })
      if twinOn s2 then twinSend s2 0x05 c 0 apply (beBytes 4 q ++ beBytes 4 1 ++ journalBytes e) else s2

/-- The full cycle number nearest to `near` whose low 32 bits are `low`. -/
def fullCycle (near low : Nat) : Nat := ((near : Int) + toSigned 32 ((low + 2 ^ 32 - near % 2 ^ 32) % 2 ^ 32)).toNat

/-- JOURNAL received: the Active's accepted entries are recorded for application (R272). -/
def journalMessage (s : Dev) (at_ : Nat) (m : List Byte) : Dev :=
  match twinReceive s at_ m 0x05 with
  | (none, s1) => s1
  | (some (x, s1), _) =>
    if (role s1 == STANDBY || role s1 == JOINING) then
      let q := beNat (x.payload.take 4)
      let n := beNat ((x.payload.drop 4).take 4)
      let apply := fullCycle (reg s1 (CYC_NUMBER x.cls)).toNat x.cycle
      let ents := (rangeFrom 0 (min n ((x.payload.length - 8) / 16))).map (fun i =>
        let b := (x.payload.drop (8 + 16 * i)).take 16
        let t : Word := BitVec.ofNat 64 (beNat (b.take 8))
        ({ seq := (q + i) % 2 ^ 32, cls := x.cls, apply := apply, k := bitsOf t TWIN_JNL_TARGET_K, word := bitsOf t TWIN_JNL_TARGET_WORD, value := BitVec.ofNat 64 (beNat (b.drop 8)), tag := BitVec.ofNat 8 (bitsOf t TWIN_JNL_TARGET_TAG), target := t } : JournalEnt))
      modTwin s1 (fun t => { t with journal := t.journal ++ ents, journalSeq := (q + n) % 2 ^ 32 })
    else s1

/-! ## Agreement (R266 to R270) -/

def agreeOf (s : Dev) (c : Nat) : AgreeSt := mget (fun _ => {}) s.twin.agree c
def setAgree (s : Dev) (c : Nat) (a : AgreeSt) : Dev := modTwin s (fun x => { x with agree := mset (fun _ => {}) x.agree c a })

/-- Bit map of the streams of a list, 2,048 bytes (R263). -/
def streamMap (l : List Nat) : List Byte :=
  (rangeFrom 0 2048).map (fun i => BitVec.ofNat 8 ((l.filter (fun n => n / 8 == i)).foldl (fun v n => Nat.lor v (2 ^ (n % 8))) 0))

/-- An accepted frame of a TWIN = 1 stream is held for the agreement (R266). -/
def holdFrame (s : Dev) (i : Nat) (fr : List Byte) (ts : Nat) : Dev :=
  let e := ingressNow s i
  let c := bitsOf e S_CLASS
  if bitsOf e S_TWIN = 1 ∧ inAgreement s ∧ (agreeEntry s c).isSome then
    let a := agreeOf s c
    setAgree s c { a with held := (a.held.filter (fun h => h.1 != i)) ++ [(i, ts, fr)] }
  else s

/-- The peer's map of the cycle of an open window is taken up: fills for what the peer lacks (R267), and the journals are compared (R275). -/
def takeMap (s : Dev) (c : Nat) (p : List Byte) : Dev :=
  let a := agreeOf s c
  let has (i : Nat) : Bool := nbit (p.getD (i / 8) 0).toNat (i % 8)
  let want := a.sent.filter (fun i => !(has i))
  let order := (rangeFrom 0 16384).filter (want.contains ·)
  let send := order.take (fillMax s c)
  let beyond := order.length - send.length
  let s1 := send.foldl (fun s i =>
    match a.held.find? (fun h => h.1 == i) with
    | some h => twinSend s 0x03 c 0 a.cycle (beBytes 2 i ++ [0, 0] ++ beBytes 8 h.2.1 ++ h.2.2)
    | none => s) s
  let s2 := if beyond = 0 then s1 else (rangeFrom 0 beyond).foldl (fun s _ => countTwin s 4) (fincSat s1 TWIN_STAT TWIN_STAT_FILL_OVER beyond)
  let s3 := setAgree s2 c { agreeOf s2 c with peerMap := true, fills := send.length }
  if (role s3 == STANDBY || role s3 == JOINING) && peerRole s3 == ACTIVE &&
      !(beNat ((p.drop 2048).take 4) == a.jcount && beNat (p.drop 2052) == a.jcrc) then diverge s3
  else s3

/-- AGREE action: a device outside agreement only applies its journal (R253, R273: log 157, DESIGN CHOICE); otherwise: map sent, journal entries queued, window opened; a map of the peer that came first is taken up (R267, R269, R273) (log 139, DEDUCED) (log 157, DESIGN CHOICE). -/
def actAgree (s : Dev) (c offset : Nat) : Dev :=
  if inAgreement s then
    let mine := (cls s c).arrived.filter (fun i => bitsOf (ingressNow s i) S_TWIN == 1)
    let due := dueJournal s c
    let crc := crc32c (due.flatMap journalBytes)
    let n := (reg s (CYC_NUMBER c)).toNat
    let s1 := twinSend s 0x02 c 0 n (streamMap mine ++ beBytes 4 due.length ++ beBytes 4 crc)
    let a := agreeOf s1 c
    let s1 := if fbit s1 TWIN_ERR TWIN_ERR_SHORT_WINDOW then s1 else shortWindow s1 (twinEntry s1 0 c)
    let s2 := journalApply (setAgree s1 c { a with
      cycle := n % 2 ^ 32, isOpen := true, ends := (cls s1 c).t0 + offset + windowNs s1 c, sent := mine, peerMap := false, filled := [], fills := 0,
      jcount := due.length, jcrc := crc, early := none }) c
    match a.early with
    | some (m, p) => if m = n % 2 ^ 32 then takeMap s2 c p else s2
    | none => s2
  else journalApply (setAgree s c { agreeOf s c with isOpen := false, held := [], early := none }) c

/-- ARRIVAL_MAP received (R267, R269, R275): one that comes before AGREE waits for it; one that is late is discarded, counted when its window has not been counted at its end (log 139, DEDUCED). -/
def arrivalMap (s : Dev) (at_ : Nat) (m : List Byte) : Dev :=
  match twinReceive s at_ m 0x02 with
  | (none, s1) => s1
  | (some (x, s1), _) =>
    if !(inAgreement s1) || x.payload.length != 2056 then s1
    else
      let a := agreeOf s1 x.cls
      if a.cycle == x.cycle then
        if a.isOpen && decide (nowNs s1 ≤ a.ends) then takeMap s1 x.cls x.payload
        else if a.peerMap then fincSat s1 TWIN_STAT TWIN_STAT_MAP_MISSED 1
        else s1
      else if 0 < toSigned 32 ((x.cycle + 2 ^ 32 - a.cycle) % 2 ^ 32) then setAgree s1 x.cls { a with early := some (x.cycle, x.payload) }
      else fincSat s1 TWIN_STAT TWIN_STAT_MAP_MISSED 1

/-- FRAME_FILL received (R268, R269). -/
def frameFill (s : Dev) (at_ : Nat) (m : List Byte) : Dev :=
  match twinReceive s at_ m 0x03 with
  | (none, s1) => s1
  | (some (x, s1), _) =>
    if !(inAgreement s1) || decide (x.payload.length < 12) then s1
    else
      let a := agreeOf s1 x.cls
      let i := beNat (x.payload.take 2)
      let e := ingressNow s1 i
      if a.isOpen && a.cycle == x.cycle && decide (nowNs s1 ≤ a.ends) then
        if (cls s1 x.cls).arrived.contains i || a.filled.contains i || bitsOf e S_EN == 0 || bitsOf e S_CLASS != x.cls then s1
        else
          let ts := beNat ((x.payload.drop 4).take 8)
          let s2 := setAgree s1 x.cls { a with filled := a.filled ++ [i] }
          let s3 := enqueueScatter s2 (bitsOf e S_K) { stream := i, entry := e, frame := x.payload.drop 12, stamp := ts, cls := x.cls, cycle := (reg s2 (CYC_NUMBER x.cls)).toNat, filled := true }
          trcStream s3 i 4 ts
      else fincSat s1 TWIN_STAT TWIN_STAT_FILL_LATE 1

/-- The agreement window ends: a missing peer map is counted, held frames are let go (R266, R269). -/
def windowEnd (s : Dev) (c : Nat) : Dev :=
  let a := agreeOf s c
  if a.isOpen then
    let s1 := advanceTo s a.ends
    let s2 := if a.peerMap then s1 else fincSat s1 TWIN_STAT TWIN_STAT_MAP_MISSED 1
    setAgree s2 c { a with isOpen := false, held := [] }
  else s

/-! ## Joining (R283 to R287) -/

/-- State regions of a controller. -/
def stateRegions (s : Dev) (k : Nat) : List Nat := (rangeFrom 0 3).filter (fun r => fget s (IMG_REGION k r) IMG_REGION_KIND == 3)

/-- Whether a class has a state region. -/
def hasState (s : Dev) (c : Nat) : Bool := (classCtls s c).any (fun k => !(stateRegions s k).isEmpty)

/-- Every state line: (controller, region, line). -/
def stateLines (s : Dev) : List (Nat × Nat × Nat) :=
  ((rangeFrom 0 8).filter (fun k => fbit s (IMG_CTRL k) IMG_CTRL_ENABLE)).flatMap (fun k =>
    (stateRegions s k).flatMap (fun r =>
      (rangeFrom (fget s (IMG_REGION k r) IMG_REGION_BASE) (fget s (IMG_REGION k r) IMG_REGION_COUNT)).map (fun l => (k, r, l))))

/-- Committed stamp of a line: that of the version read at C − 1 (R284). -/
def committedStamp (s : Dev) (k r line : Nat) : Nat :=
  let e := liveEntry s k r line
  let p := (fillStamp s k + 65535) % 65536
  if atOrBefore (bitsOf e E_W) p then bitsOf e E_W else bitsOf e E_WP

/-- Target word of a state line (R284). -/
def lineTarget (s : Dev) (x : Nat × Nat × Nat) : Nat := x.2.2 + x.1 * 2 ^ 17 + committedStamp s x.1 x.2.1 x.2.2 * 2 ^ 32

/-- Target words of the lines a round copies: every line in round 1, then the dirty ones (R284). -/
def dirtyTargets (s : Dev) (first : Bool) : List Nat :=
  ((stateLines s).filter (fun x => first || mfind s.twin.copied (x.1 * 131072 + x.2.2) != some (committedStamp s x.1 x.2.1 x.2.2))).map (lineTarget s) ++
    ((mirrorPages s).filter (fun p => first || mget (fun _ => false) s.twin.dirtyPages p)).flatMap (fun p =>
      (rangeFrom 0 64).map (fun i => 2 ^ 63 + 4096 * p + 64 * i))

/-- Whether the twin, master 0x1B, may read a state line: the pair is on, the line in a region, the first bank shared with it (R284, 03 R93, R94). -/
def copyTarget (s : Dev) (k line : Nat) : Option Nat :=
  match bankTarget s { code := 0x1B } (3 * k) (bankBase (3 * k) + 64 * line) false false with
  | .pair _ r _ => if bankUp s none (3 * k) then some r else none
  | _ => none

/-- Source of the twin's DRAM accesses (13 R479). -/
def twinSource : Nat := 28

/-- Record of a target: 8 bytes target, 64 value bytes, 8 tag bytes; `none` when the read is refused, which the bank counts (R284, 03 R83). A poisoned word goes as its stored value and tag (log 119, DESIGN CHOICE). -/
def copyRecord (s : Dev) (t : Nat) : Option (List Byte) × Dev :=
  if t / 2 ^ 63 = 1 then
    let a := t % 2 ^ 46 / 64 * 64
    let tags := (rangeFrom 0 8).map (fun i => tagAt s (a / 8 + i))
    if inDram s a then
      let r := ioReadParts s twinSource [(a, 64)]
      (some (beBytes 8 t ++ r.1 ++ tags), r.2)
    else
      match bankOf a with
      | none => (none, s)
      | some n =>
        if bankUp s none n && plainAllows s n 0x1B false && bankMode s n == 0 then (some (beBytes 8 t ++ rdBytes s a 64 ++ tags), usePort s n 2 0x1B 2)
        else (none, noteRefused s { code := 0x1B } n)
  else
    let k := t / 2 ^ 17 % 8
    let line := t % 131072
    let p := (fillStamp s k + 65535) % 65536
    match copyTarget s k line with
    | none => (none, noteRefused s { code := 0x1B } (3 * k))
    | some r => (some (beBytes 8 t ++ digestLine s k r line p), useLine s 2 0x1B k r line p)

/-- The records of a message's targets, and whether none of their reads was refused. -/
def copyRecords (s : Dev) (ts : List Nat) : Option (List Byte) × Dev :=
  ts.foldl (fun x t =>
    match x with
    | (none, s) => (none, s)
    | (some bs, s) =>
      match copyRecord s t with
      | (some r, s1) => (some (bs ++ r), s1)
      | (none, s1) => (none, s1)) (some [], s)

/-- What the reads of a target wait for: credits, the arbiters of DRAM, a pair that initialises, a word an atomic works on (01 R15, 03 R90, R96, 05 R213). -/
def copyWaits (s : Dev) (t : Nat) : List Nat :=
  if t / 2 ^ 63 = 1 then
    let a := t % 2 ^ 46 / 64 * 64
    if inDram s a then dramWaits s twinSource a 64 else addrWaits s a 64
  else
    let k := t / 2 ^ 17 % 8
    bankWaits s (3 * k) (bankBase (3 * k) + 64 * (t % 131072)) 64 ++ (if mayIssue s (3 * k + 1) then [] else [3 * k + 1])

/-- A join read was refused (R254): the Active ends the join with a STATE_COPY of round 0 with END and no record, at which the joining device leaves it (log 136, DESIGN CHOICE). -/
def refuseJoin (s : Dev) : Dev :=
  twinSend (performHeld (modTwin (fset s TWIN_ERR TWIN_ERR_REFUSED 1) (fun x => { x with joining := false, wantFreeze := false }))) 0x06 0 1 0 (beBytes 4 0)

/-- The lines of a round are sent in messages of up to 112 records, the last with END in a final round (R263, R284, R285). -/
def sendCopies (round : Nat) (final : Bool) : Nat → Dev → List Nat → Dev
  | 0, s, _ => s
  | fuel + 1, s, ts =>
    let now := ts.take 112
    let rest := ts.drop 112
    match copyRecords s now with
    | (none, s1) => refuseJoin s1
    | (some recs, s1) =>
    let q := s1.twin.txSeq
    let s2 := twinSend s1 0x06 0 (b2n (final && rest.isEmpty)) 0 (beBytes 4 round ++ recs)
    let s3 := modTwin s2 (fun x => { x with
      copySent := x.copySent ++ [(q, now)],
      copied := now.foldl (fun m t => if t / 2 ^ 63 = 1 then m else mput m (t / 2 ^ 17 % 8 * 131072 + t % 131072) (t / 2 ^ 32 % 65536)) x.copied,
      dirtyPages := now.foldl (fun m t => if t / 2 ^ 63 = 1 then mset (fun _ => false) m (t % 2 ^ 46 / 4096) false else m) x.dirtyPages })
    if rest.isEmpty then s3 else sendCopies round final fuel s3 rest

/-- COPY_ROUND: the Active copies the lines dirty at the round's start; in a freeze it is the final round, after which the held releases run (R284, R285). -/
def copyRound (s : Dev) : Dev :=
  if twinOn s && role s == ACTIVE && peerRole s == JOINING && s.twin.linkUp then
    let first := !s.twin.joining
    let s0 := modTwin s (fun x => { x with joining := true, round := if first then 1 else x.round + 1, copied := if first then [] else x.copied })
    let ts := dirtyTargets s0 first
    engineAct s (ts.flatMap (copyWaits s)) (fun _ =>
    let s1 := fset (fset s0 TWIN_CMD TWIN_CMD_ROUND (sat 255 s0.twin.round)) TWIN_CMD TWIN_CMD_DIRTY (sat (2 ^ 20 - 1) ts.length)
    let final := s1.twin.freezeAt.isSome
    let s2 := sendCopies s1.twin.round final (ts.length / 112 + 1) s1 ts
    if !s2.twin.joining then s2
    else if final then performHeld (modTwin s2 (fun x => { x with wantFreeze := false }))
    else modTwin s2 (fun x => { x with wantFreeze := true }))
  else s

/-- At a reference boundary: few enough dirty lines and every thread at cycle end open the freeze (R285). -/
def freezeOpen (s : Dev) : Dev :=
  if s.twin.joining && s.twin.wantFreeze && s.twin.freezeAt.isNone &&
      decide ((dirtyTargets s false).length ≤ fget s TWIN_LINK TWIN_LINK_FINAL_MAX) &&
      ((rangeFrom 0 8).filter (hasState s)).all (fun c => (classEntries s c).all (fun e => (thr s (entryThr e.2)).st == .cycleWait)) then
    modTwin s (fun x => { x with freezeAt := some (nowNs s) })
  else s

/-- FREEZE_TIMEOUT: the dirty set is not empty after FREEZE_MAX; held releases run and the join goes on (R285). -/
def freezeTimeout (s : Dev) : Dev :=
  match s.twin.freezeAt with
  | none => s
  | some t => logRec (performHeld (advanceTo s (t + 1000 * fget s TWIN_LINK TWIN_LINK_FREEZE_MAX))) NOTICE SB_TWIN 0 0x0704 []

/-- A line of the present join has been copied in. -/
def noteCopied (s : Dev) (t : Nat) : Dev :=
  let key := if t / 2 ^ 63 = 1 then t else t % 2 ^ 20
  if s.twin.copiedIn.contains key then s else modTwin s (fun x => { x with copiedIn := x.copiedIn ++ [key] })

/-- A mirrored line is written by the twin with its tags: in DRAM as an I/O write of source 28, in a plain bank as master 0x1B (13 R488, 03 R82). -/
def writeMirror (s : Dev) (a : Nat) (words : List QWord) : Dev :=
  let put (s : Dev) : Dev := (rangeFrom 0 8).foldl (fun s i => writeWord s (a + 8 * i) (words.getD i ⟨0, 0⟩)) s
  if inDram s a then dramTaken (toDram (put (ioInvalidate s (a / 64))) (a / 64)) twinSource a 64
  else
    match bankOf a with
    | none => s
    | some n =>
      if bankUp s none n && plainAllows s n 0x1B true && bankMode s n == 0 then usePortOf (put s) n 2 0x1B 2 (wordsBefore s a 64)
      else noteRefused s { code := 0x1B } n

/-- One record of a STATE_COPY is written: a state line as the newest version with the copied stamp and PV = 0, or a mirrored DRAM line (R284). -/
def applyRecord (s0 : Dev) (rec : List Byte) : Dev :=
  let t := beNat (rec.take 8)
  let s := noteCopied s0 t
  let val (i : Nat) : Word := BitVec.ofNat 64 (leNat ((rec.drop (8 + 8 * i)).take 8))
  let tag (i : Nat) : Byte := rec.getD (72 + i) 0
  let words := (rangeFrom 0 8).map (fun i => (⟨val i, tag i⟩ : QWord))
  if t / 2 ^ 63 = 1 then writeMirror s (t % 2 ^ 46 / 64 * 64) words
  else
    let k := t / 2 ^ 17 % 8
    if pairStalls s (3 * k) then keepWrite s k { how := 2, code := 0x1B, region := 0, word := 8 * (t % 131072), words := words, stamp := t / 2 ^ 32 % 65536 }
    else writeCopied s k (t % 131072) words (t / 2 ^ 32 % 65536)

/-- Of the releases a joining device holds, those of the present cycle of their class (R286). -/
def currentHeld (s : Dev) : Dev :=
  modTwin s (fun x => { x with heldRel := x.heldRel.filter (fun r => r.2.2 == (reg s (CYC_NUMBER r.1)).toNat) })

/-- What the writes of a STATE_COPY wait for: a line of a pair that initialises waits there (01 R15, 03 R96). -/
def applyWaits (s : Dev) (m : List Byte) : List Nat :=
  match parseTwin m with
  | none => []
  | some x =>
    if x.type = 0x06 ∧ role s = JOINING then
      ((rangeFrom 0 ((x.payload.length - 4) / 80)).map (fun i => beNat ((x.payload.drop (4 + 80 * i)).take 8))).flatMap (fun t =>
        if t / 2 ^ 63 = 0 ∧ pairStalls s (3 * (t / 2 ^ 17 % 8)) then [] else copyWaits s t)
    else []

/-- STATE_COPY received (R284, R286): with END and no gap in the final round the joining device becomes STANDBY and releases its threads (log 136, DESIGN CHOICE). -/
def stateCopy (s : Dev) (at_ : Nat) (m : List Byte) : Dev :=
  match twinReceive s at_ m 0x06 with
  | (none, s1) => s1
  | (some (x, s1), _) =>
    if role s1 = JOINING then
      let round := beNat (x.payload.take 4)
      -- a gap before the first message of a round may have held messages of it
      let s2 := if s1.twin.round = round then s1 else modTwin s1 (fun t => { t with round := round, roundGap := t.lastGap })
      let s3 := fset (modTwin s2 (fun t => { t with lastCopySeq := x.seq, lastGap := false })) TWIN_CMD TWIN_CMD_ROUND (sat 255 round)
      let n := (x.payload.length - 4) / 80
      let s4 := (rangeFrom 0 n).foldl (fun s i => applyRecord s ((x.payload.drop (4 + 80 * i)).take 80)) s3
      if x.endBit && round == 0 then setRole (abandonJoin s4) ISOLATED
      else if x.endBit && !s4.twin.roundGap then performHeld (setRole (modTwin (currentHeld s4) (fun t => { t with copiedIn := [] })) STANDBY)
      else s4
    else s1

/-! ## Commands, swap, boundaries (R253, R254, R279, R281, R289, R290) -/

/-- TWIN_CTRL.EN is written (R253): dropped while any class runs; on, the device is ISOLATED; off, it reads ACTIVE with epoch 0, and the messages that wait are gone with their credits given back (01 R13). -/
def twinEnable (s : Dev) (on : Bool) : Dev :=
  if (rangeFrom 0 8).any (classRuns s) then fset s TWIN_ERR TWIN_ERR_RUNNING 1
  else if twinOn s = on then s
  else if on then notePaths (setRole (modTwin (fset s TWIN_CTRL TWIN_CTRL_EN 1) (fun x => { x with hbAt := nowNs s })) ISOLATED)
  else
    let s1 := setRole (fset s TWIN_CTRL TWIN_CTRL_EN 0) ACTIVE
    let s2 := fset (fset s1 TWIN_EPOCH TWIN_EPOCH_EPOCH 0) TWIN_STATUS TWIN_STATUS_PEER_ROLE LOST
    (s.twin.out.filter (·.credit)).foldl (fun s _ => giveCredit s 512) { s2 with twin := { table0 := s.twin.table0, table1 := s.twin.table1, table2 := s.twin.table2, lanes := s.twin.lanes, txSeq := s.twin.txSeq } }

/-- Result of a twin command. -/
def twinResult (s : Dev) (cmd r : Nat) : Dev :=
  fset (fset s TWIN_CMD TWIN_CMD_CMD cmd) TWIN_CMD TWIN_CMD_RESULT r

/-- A command of TWIN_CMD: a GO while DONE is 0 is dropped with result BUSY (R289). -/
def twinGo (f : Dev → Dev) (s : Dev) : Dev := if fbit s TWIN_CMD TWIN_CMD_DONE then f s else fset s TWIN_CMD TWIN_CMD_RESULT ST_BUSY

/-- JOIN (R283, R289). -/
def cmdJoin (s : Dev) : Dev :=
  if twinOn s && (role s == ISOLATED || role s == ORPHAN) && s.twin.linkUp && peerRole s == ACTIVE then
    if s.twin.peer.layout = layoutDigest s then twinResult (startJoin s) 1 ST_OK else twinResult s 1 ST_DENIED
  else twinResult s 1 ST_WRONG_STATE

/-- LEAVE (R254, R289). -/
def cmdLeave (s : Dev) : Dev :=
  if twinOn s && (role s == JOINING || role s == STANDBY) then twinResult (setRole (abandonJoin s) ISOLATED) 2 ST_OK else twinResult s 2 ST_WRONG_STATE

/-- SWAP (R289, R290). -/
def cmdSwap (s : Dev) : Dev :=
  if twinOn s && s.twin.lastMatched && ((role s == ACTIVE && peerRole s == STANDBY) || (role s == STANDBY && peerRole s == ACTIVE)) then
    twinResult (requestSwap s) 3 ST_OK
  else twinResult s 3 ST_WRONG_STATE

/-- START (R254, R289). -/
def cmdStart (s : Dev) : Dev :=
  if twinOn s && role s == ISOLATED && s.twin.linkUp && (peerRole s == ISOLATED || peerRole s == ORPHAN) then
    twinResult (modTwin s (fun x => { x with startPend := true })) 5 ST_OK
  else twinResult s 5 ST_WRONG_STATE

/-- Whether COLD_START is accepted (R289). -/
def coldStartOk (s : Dev) : Bool := twinOn s && (role s == ISOLATED || role s == ORPHAN) && !s.twin.linkUp

/-- SWAP_TIMEOUT: a swap not agreed within 10 periods is dropped (R290); the periods are those of the heartbeats (log 137, DEDUCED). -/
def swapTimeout (s : Dev) : Dev :=
  if s.twin.swapReq.isSome && !s.twin.swapAgreed then
    modTwin (advanceTo s (s.twin.swapAt + 10 * hbPeriodNs s)) (fun x => { x with swapReq := none })
  else s

/-- An agreed swap whose boundary has gone by without it is dropped. -/
def dropPassedSwap (s : Dev) (n : Nat) : Dev :=
  match s.twin.swapReq with
  | some m => if 0 < toSigned 32 ((n + 2 ^ 32 - m) % 2 ^ 32) then modTwin s (fun x => { x with swapReq := none, swapAgreed := false }) else s
  | none => s

/-- Role changes at a boundary of the reference class (R254, R279, R281, R290). -/
def roleBoundary (s : Dev) : Dev :=
  if !(twinOn s) then s
  else
    let n := (reg s (CYC_NUMBER (refClass s))).toNat % 2 ^ 32
    let s := dropPassedSwap s n
    if (s.twin.startPend && role s == ISOLATED) || (s.twin.coldPend && (role s == ISOLATED || role s == ORPHAN)) then
      becomeActive (modTwin s (fun x => { x with startPend := false, coldPend := false }))
    else if s.twin.swapAgreed && s.twin.swapReq == some n then
      let s1 := modTwin s (fun x => { x with swapReq := none, swapAgreed := false })
      if role s = ACTIVE then setRole s1 STANDBY else if role s = STANDBY then becomeActive s1 else s1
    else if role s = ACTIVE then
      if s.twin.demote then setRole (modTwin s (fun x => { x with demote := false })) ISOLATED else s
    else if role s = ISOLATED then
      if s.twin.linkUp then
        if peerRole s = ISOLATED ∧ unitNo s = 0 ∧ fbit s TWIN_CTRL TWIN_CTRL_AUTO_JOIN then becomeActive s else s
      else if takeoverOk s then becomeActive s else notePaths s
    else if role s = STANDBY then
      if s.twin.linkUp then s
      else if nowNs s < s.twin.lostAt + lossNs s then s
      else if takeoverOk s then becomeActive s
      else setRole (notePaths s) ISOLATED
    else s

/-- A lane leaves or rejoins the round-robin; LANES_UP counts the lanes in use (R264). -/
def laneSet (s : Dev) (l : Nat) (up : Bool) : Dev :=
  let m := if up then Nat.lor s.twin.lanes (2 ^ l) else if nbit s.twin.lanes l then s.twin.lanes - 2 ^ l else s.twin.lanes
  twinAdmit (fset (modTwin s (fun x => { x with lanes := m })) TWIN_STATUS TWIN_STATUS_LANES_UP (((rangeFrom 0 8).filter (nbit m)).length))

/-- A RELEASE of a class: held in a freeze and while joining, none in ORPHAN (R259, R283, R285). -/
def releaseOrHold (s : Dev) (c mask : Nat) : Dev :=
  if twinOn s && role s == ORPHAN then s
  else if (twinOn s && role s == JOINING) then modTwin s (fun x => { x with heldRel := x.heldRel ++ [(c, mask, (reg s (CYC_NUMBER c)).toNat)] })
  else if s.twin.freezeAt.isSome && hasState s c then modTwin s (fun x => { x with heldRel := x.heldRel ++ [(c, mask, (reg s (CYC_NUMBER c)).toNat)] })
  else actRelease s c mask

end Sys2Proof.Machine
end

