-- ==== Sys2Proof/Machine/BankCmds.lean ====
section
/-! DEFINITION. BankCmds: the meanings of the bank and pair commands (03). -/
namespace Sys2Proof.Machine

/-- BANK_REQUEST (R82): the thread's oldest access reaches its bank and is checked. -/
def execBankRequest (t : Thr) (s : State) : Host.Outcome State Fault Refusal := onDev s (fun d => bankRequest d t.val)

/-- BANK_GRANT (R87): one bank cycle. -/
def execBankGrant (x : BankCycle) (s : State) : Host.Outcome State Fault Refusal :=
  onDev s (fun d => bankGrant d x.bank.val x.finds)

/-- HANDOVER_START (R84, R85). -/
def execHandoverStart (_who : Agent) (n : BankId) (next : Fin 64) (s : State) : Host.Outcome State Fault Refusal :=
  onDev s (fun d => whenOn d (bankDomain n.val) (fun d => handoverStart d n.val next.val))

/-- HANDOVER_END (R84). -/
def execHandoverEnd (n : BankId) (s : State) : Host.Outcome State Fault Refusal := onDev s (fun d => handoverEnd d n.val)

/-- CLEAR (02 R38, BK_CTRL.CLEAR). -/
def execBankClear (n : BankId) (s : State) : Host.Outcome State Fault Refusal :=
  onDev s (fun d => whenOn d (bankDomain n.val) (fun d => bankClearStart d n.val))

/-- BANK_CLEAR_DONE (02 R38). -/
def execBankClearDone (n : BankId) (s : State) : Host.Outcome State Fault Refusal := onDev s (fun d => bankClearEnd d n.val)

/-- ENABLE (R96): a write of 1 to IMG_CTRL.ENABLE, an RWL field. -/
def execPairEnable (who : Agent) (k : CtlId) (s : State) : Host.Outcome State Fault Refusal :=
  onDev s (fun d => whenOn d (24 + 3 * k.val) (fun d =>
    writeField d who .IMG k.val (IMG_CTRL k.val) IMG_CTRL_ENABLE 1 (fun d => pairEnable d k.val)))

/-- PAIR_DISABLE (R96): a write of 0 to IMG_CTRL.ENABLE. -/
def execPairDisable (who : Agent) (k : CtlId) (s : State) : Host.Outcome State Fault Refusal :=
  onDev s (fun d => whenOn d (24 + 3 * k.val) (fun d =>
    writeField d who .IMG k.val (IMG_CTRL k.val) IMG_CTRL_ENABLE 0 (fun d => pairDisable d k.val)))

/-- PAIR_INIT_DONE (R96). -/
def execPairInitDone (k : CtlId) (s : State) : Host.Outcome State Fault Refusal := onDev s (fun d => resumeLists (pairInitDone d k.val))

/-- LT_READ (R106). -/
def execLtRead (k : CtlId) (line : Fin 131072) (s : State) : Host.Outcome State Fault Refusal :=
  onDev s (fun d => whenOn d (24 + 3 * k.val) (whenDone (IMG_LT_INDEX k.val) IMG_LT_INDEX_DONE (fun d => ltRead d k.val line.val)))

/-- LT_WRITE (R106). -/
def execLtWrite (k : CtlId) (line : Fin 131072) (s : State) : Host.Outcome State Fault Refusal :=
  onDev s (fun d => whenOn d (24 + 3 * k.val) (whenDone (IMG_LT_INDEX k.val) IMG_LT_INDEX_DONE (fun d => ltWrite d k.val line.val)))

/-- ABANDON (R107). -/
def execAbandon (_who : Agent) (k : CtlId) (a : Fin 2) (regions : BitVec 3) (stamp : BitVec 16) (s : State) : Host.Outcome State Fault Refusal :=
  onDev s (fun d => whenOn d (24 + 3 * k.val) (fun d => abandonWrite d k.val a.val regions.toNat stamp.toNat))

/-- SWEEPER_VISIT (R110, R111). -/
def execSweeperVisit (k : CtlId) (n : Nat) (s : State) : Host.Outcome State Fault Refusal := onDev s (fun d => sweeperVisit d k.val n)

/-- ABANDON_SWEEP_DONE (R109). -/
def execAbandonSweepDone (k : CtlId) (a : Fin 2) (s : State) : Host.Outcome State Fault Refusal := onDev s (fun d => abandonSweepDone d k.val a.val)

/-! Credits (01 R13 to R18) -/

/-- Consumer of a queue: source block and instance of its record (R16, 15 R574). -/
def queueSource : Queue → Nat × Nat
  | .bank n => (SB_BK, n.val)
  | .scatter k => (SB_IMG, k.val)
  | .gather k => (SB_IMG, k.val)
  | .cluster c => (SB_CL, c.val)
  | .port p => (SB_SW, p.val)
  | .inst i => (SB_PI, i.val)
  | .twin => (SB_TWIN, 0)
  | .channel ch _ => (SB_MC, ch.val)
  | .hist => (SB_HIST, 0)
  | .trace => (SB_DBG, 0)

/-- Whether software writes the depth of a queue, and the depths it takes (IMG_CREDIT, MC_CREDIT, HIST_CREDIT: 1 to 64) (log 87, DESIGN CHOICE). -/
def depthWritable : Queue → Bool
  | .scatter _ => true
  | .gather _ => true
  | .channel _ _ => true
  | .hist => true
  | _ => false

/-- The consumer accepts the oldest entry of a queue; the twin link takes the oldest message (R13) (log 20, DEDUCED). -/
def creditReturn (d : Dev) (q : Queue) : Dev :=
  if q = .twin then twinLeave d else giveCredit d (queueNum q)

/-- CREDIT_RETURN (R13). -/
def execCreditReturn (q : Queue) (s : State) : Host.Outcome State Fault Refusal := onDev s (fun d => creditReturn d q)

/-- QUEUE_STARVED (R16): one WARNING for each starvation of more than 1 ms; time comes to the end of that 1 ms. The rule gives the record no code, a free value (log 8, DESIGN CHOICE), and no form for the queue's name: the payload is the model's number of the queue (log 120, DESIGN CHOICE) (log 6, DESIGN CHOICE). -/
def queueStarved (d : Dev) (q : Queue) : Dev :=
  let x := creditQ d (queueNum q)
  if x.waiting && !(mayIssue d (queueNum q)) && !x.recorded then
    let f := drawFree (advanceOp (setCreditQ d (queueNum q) { x with recorded := true }) (x.since + nsUnits 1000000 + 1))
    logRec f.2 WARNING (queueSource q).1 (queueSource q).2 (f.1.toNat % 65536) [queueNum q]
  else d

def execQueueStarved (q : Queue) (s : State) : Host.Outcome State Fault Refusal := onDev s (fun d => queueStarved d q)

/-- A depth outside 1 to 64 is dropped; where the queue's block has a BAD_VALUE bit it is set (00 R4, log on value ranges) (log 87, DESIGN CHOICE). -/
def depthBad (d : Dev) : Queue → Dev
  | .channel ch _ => fset d (MC_CTRL ch.val) MC_CTRL_BAD_VALUE 1
  | .hist => fset d HIST_ERR HIST_ERR_BAD_VALUE 1
  | _ => d

/-- Power domain of the register that holds a queue's depth. -/
def queueDomain : Queue → Nat
  | .scatter k => 24 + 3 * k.val
  | .gather k => 24 + 3 * k.val
  | .channel ch _ => 48 + ch.val / 2
  | .hist => 77
  | _ => 79

/-- A depth written to a queue applies to credits that return afterwards (R18) (log 20, DEDUCED) (log 87, DESIGN CHOICE). -/
def writeDepth (d : Dev) (q : Queue) (n : Nat) : Dev :=
  if depthWritable q then
    if 1 ≤ n ∧ n ≤ 64 then setCreditQ d (queueNum q) { creditQ d (queueNum q) with depth := n } else depthBad d q
  else d

/-- CREDIT_DEPTH_WRITE (R18). -/
def execCreditDepthWrite (q : Queue) (depth : Byte) (s : State) : Host.Outcome State Fault Refusal :=
  onDev s (fun d => whenOn d (queueDomain q) (fun d => writeDepth d q depth.toNat))

end Sys2Proof.Machine
end

