-- ==== Sys2Proof/Machine/Mem.lean ====
section
/-! DEFINITION. Mem: loads, stores, atomics and cache operations of threads, the store buffer, and the return of data (10 R382 to R388, R400 to R408, 09 R354 to R362). -/
namespace Sys2Proof.Machine

/-! ## Addresses -/

/-- The address an access names: the base's value plus the sign-extended offset (R382). -/
def effAddr (s : Dev) (t : Nat) (base : GReg) (off : BitVec 14) : Nat := (rv s t base + sext 14 off.toNat).toNat

/-- Where an access lies once translated: its physical address and the state after the lookup; or the walk it waits for; or misaligned (R383, R386). -/
inductive Located where
  | at_ (pa : Nat) (s : Dev)
  | walk (va : Nat)
  | misaligned (s : Dev)
deriving DecidableEq, Repr

/-- Whether an unaligned scalar access lies in a plain bank, where the rotator serves it (R383, 03 R91) (log 46, DEDUCED). -/
def rotated (s : Dev) (pa : Nat) : Bool := match bankOf pa with | some n => bankMode s n == 0 | none => false

/-- The translation of a data access of `n` bytes (R383, R406) (log 46, DEDUCED). -/
def locate (s : Dev) (t va n : Nat) (k : AccKind) : Located :=
  let sup := (thr s t).sup
  match tlbLookup s t va k sup with
  | none => .walk va
  | some (pa, s1) =>
    if va % n = 0 then .at_ pa s1
    else if !(rotated s1 pa) then .misaligned s1
    else if va / 4096 = (va + n - 1) / 4096 then .at_ pa s1
    else
      match tlbLookup s1 t (va + n - 1) k sup with
      | none => .walk (va + n - 1)
      | some (pb, s2) => if pb = pa + n - 1 then .at_ pa s2 else .misaligned s2

/-- The misaligned-access exception (R383, R386) (log 45, DEDUCED) (log 46, DEDUCED). -/
def misaligned (s : Dev) (t w va : Nat) (k : AccKind) : Dev :=
  takeExc s t { atInsn (thr s t) 3 w with faddr := va, write := k == .store || k == .atomic }

/-- A data access goes on once it is located; otherwise its walk or its misaligned exception (log 45, DEDUCED). -/
def withAddr (s : Dev) (t w va n : Nat) (k : AccKind) (f : Nat → Dev → Dev) : Dev :=
  match locate s t va n k with
  | .at_ pa s1 => f pa s1
  | .walk a => waitWalk s t { va := a, kind := k, insn := w, misaligned := va % n != 0 }
  | .misaligned s1 => misaligned s1 t w va k

/-! ## Outstanding accesses (09 R357 to R359) -/

/-- Uncached accesses that hold a credit. -/
def uncachedOut (x : Thread) : Nat := (x.accs.filter (fun a => a.uncached && !(a.phase == .returned))).length

/-- Whether an access has been performed with respect to every other thread: captured, or accepted by its target. -/
def performed (a : Acc) : Bool := a.phase == .done || a.phase == .returned

/-- Whether an atomic of the thread is still under way: no later access is performed before it (09 R359). -/
def atomicPending (x : Thread) : Bool := x.accs.any (fun a => accIsAtomic a.op && !(performed a))

/-- Whether every earlier cacheable load has been performed (09 R358) (log 53, DEDUCED). -/
def loadsBefore (x : Thread) (id : Nat) : Bool := x.accs.all (fun a => a.uncached || id ≤ a.id || performed a)

/-- An access is issued and its instruction completes; an older access to the same register no longer writes it. -/
def pushAcc (s : Dev) (t : Nat) (a : Acc) : Dev :=
  advance (modThr s t (fun x =>
    let old := if a.rd = 0 || accIsStore a.op then x.accs else x.accs.map (fun b => if b.rd = a.rd then { b with live := false } else b)
    { x with accs := old ++ [{ a with id := x.nextId, pc := x.pc, qmode := x.qmode }], nextId := x.nextId + 1 })) t

/-- An uncached access issues under one of the thread's 4 credits (09 R357). -/
def pushUncached (s : Dev) (t : Nat) (a : Acc) : Dev :=
  if 4 ≤ uncachedOut (thr s t) then countCore s t 0x0A else pushAcc s t { a with uncached := true }

/-! ## Loads -/

/-- Whether a store-buffer entry supplies or clears bytes, and the range it covers: CZERO covers its line. -/
def entRange (e : StoreEnt) : Option (Nat × Nat) :=
  match e.kind with
  | .store => some (e.pa, e.bytes)
  | .zero => some (e.pa / 64 * 64, 64)
  | _ => none

/-- Entries of the store buffer that touch a load's bytes, oldest first (09 R356). -/
def overlapping (x : Thread) (pa n : Nat) : List StoreEnt :=
  x.storeBuf.filter (fun e => match entRange e with | some (a, k) => decide (a < pa + n) && decide (pa < a + k) | none => false)

/-- What the store buffer does to a load: nothing, the data of the youngest store, or a wait (09 R356). -/
inductive Forward where
  | none | data (q : QWord) | wait
deriving DecidableEq, Repr

def forward (x : Thread) (op : AccOp) (pa : Nat) : Forward :=
  match (overlapping x pa (accBytes op)).getLast? with
  | none => .none
  | some e =>
    match e.kind with
    | .zero => .data ⟨0, 0⟩
    | _ =>
      if e.pa ≤ pa ∧ pa + accBytes op ≤ e.pa + e.bytes ∧ !(op == .loadTagged && decide (e.bytes < 8)) then
        let v := e.data.val.toNat / 2 ^ (8 * (pa - e.pa))
        match op with
        | .loadValue n sg => .data ⟨extendBytes n sg v, 0⟩
        | _ => .data ⟨e.data.val, if e.tagged then e.data.tag else 0⟩
      else .wait

/-- What a load reads from memory: its result and whether the word is poisoned (log 105, DEDUCED). -/
def loadData (s : Dev) (op : AccOp) (pa : Nat) : QWord × Bool :=
  match op with
  | .loadValue n sg => (⟨extendBytes n sg (leNat (rdBytes s pa n)), 0⟩, anyPoison s pa n)
  | _ => (readTagged s pa, poisonAt s (pa / 8))

/-- Whether a load that meets poison takes a bus error: untagged, or in IGNORE (02 R55, R66). -/
def poisonFails (op : AccOp) (qmode : Nat) : Bool := op != .loadTagged || qmode == 1

/-- A load that completes in its own instruction: from the store buffer or an L1 hit; its exceptions are precise (R407). -/
def loadNow (s : Dev) (t w va : Nat) (rd : GReg) (op : AccOp) (q : QWord) (poison : Bool) : Dev :=
  let x := thr s t
  if poison && poisonFails op x.qmode then takeExc s t { atInsn x 6 w with beKind := 1, faddr := va }
  else
    let s1 := resultWith s t w rd va (fun x => x) q
    if trapsOn x.qmode q.tag then s1 else dataHit (trcData s1 t false (op == .loadTagged) va q) t false va

/-- The stride prefetcher trains on cacheable loads while PBAR is 0 and PF_EN is 1: 16 entries; two loads in turn at different lines ask for the line one stride further (09 R341, R343, R344) (log 35, DESIGN CHOICE). -/
def trainStride (s : Dev) (t line : Nat) : Dev :=
  if nbit (thr s t).pctl 0 || !(fbit s (CL_CTRL (t / 64)) CL_CTRL_PF_EN) then s
  else
    let l := mget (fun _ => []) s.cache.stride (t / 8)
    let s1 := modCache s (fun c => { c with stride := mset (fun _ => []) c.stride (t / 8) ((if l.length < 16 then l else l.drop 1) ++ [line]) })
    match l.getLast? with
    | some p => if p ≠ line ∧ p ≤ 2 * line then wantPrefetch s1 (t / 8) (2 * line - p) else s1
    | none => s1

/-- A load once located (R382 to R384). One that L1 serves waits for the loads before it, for its exceptions are precise (R407) (log 53, DEDUCED). -/
def loadAt (s : Dev) (t w va : Nat) (rd : GReg) (op : AccOp) (pa : Nat) : Dev :=
  let x := thr s t
  let a : Acc := { id := 0, op := op, va := va, pa := pa, rd := rd.val, insn := w }
  if inDram s pa then
    let line := pa / 64
    match forward x op pa with
    | .wait => s
    | .data q => if loadsBefore x x.nextId then loadNow s t w va rd op q false else s
    | .none =>
      let s1 := trainStride s t line
      match cFind s1 (t / 8) line with
      | some (way, _) =>
        if l1Serves s1 (t / 8) && loadsBefore x x.nextId then
          let s2 := cTouch s1 (t / 8) line way
          loadNow s2 t w va rd op (loadData s2 op pa).1 (loadData s2 op pa).2
        else if l1Serves s1 (t / 8) then s
        else pushAcc s1 t a
      | none => pushAcc (noteMiss (countCore s1 t 0x05) (t / 8) line) t a
  else pushUncached s t a

/-- A load instruction (R382). -/
def load (s : State) (t : Thr) (w : Nat) (rd base : GReg) (off : BitVec 14) (op : AccOp) : Host.Outcome State Fault Refusal :=
  onDev s (fun d => onInsn d t.val [base] (fun d =>
    if atomicPending (thr d t.val) then d
    else
      let va := effAddr d t.val base off
      withAddr d t.val w va (accBytes op) .load (fun pa d => loadAt d t.val w va rd op pa)))

/-! ## Stores -/

/-- An entry joins the store buffer; a full buffer holds the thread (09 R330, R354). -/
def pushStore (s : Dev) (t : Nat) (e : StoreEnt) : Dev :=
  if 8 ≤ (thr s t).storeBuf.length then countCore s t 0x09
  else
    modThr s t (fun x => nextPc { x with storeBuf := x.storeBuf ++ [{ e with id := x.nextId }], nextId := x.nextId + 1 })

/-- Whether the buffer takes an entry. -/
def storeRoom (s : Dev) (t : Nat) : Bool := decide ((thr s t).storeBuf.length < 8)

/-- A store once located (R385). -/
def storeAt (s : Dev) (t w va : Nat) (op : AccOp) (q : QWord) (pa : Nat) : Dev :=
  if inDram s pa then
    let s1 := pushStore (if ownsHere s (t / 8) (pa / 64) then s else noteMiss s (t / 8) (pa / 64)) t { id := 0, pa := pa, bytes := accBytes op, tagged := op == .storeTagged, data := q }
    if storeRoom s t then dataHit (stepEnd (trcData s1 t true (op == .storeTagged) va q) t) t true va else s1
  else pushUncached s t { id := 0, op := op, va := va, pa := pa, data := q, insn := w }

/-- A store instruction (R382). -/
def store (s : State) (t : Thr) (w : Nat) (rs2 base : GReg) (off : BitVec 14) (op : AccOp) : Host.Outcome State Fault Refusal :=
  onDev s (fun d => onInsn d t.val [base, rs2] (fun d =>
    if atomicPending (thr d t.val) then d
    else
      let va := effAddr d t.val base off
      withAddr d t.val w va (accBytes op) .store (fun pa d => storeAt d t.val w va op (gpr (thr d t.val) rs2) pa)))

/-! ## Deferred results (R408) -/

/-- The deferred exception of an access: vector, BE_KIND and what it would have written. -/
def deferredExc (a : Acc) (v be : Nat) (q : QWord) : ExcInfo :=
  { vector := v, next := a.pc, deferred := true, dest := a.rd, beKind := be, faddr := a.va, insn := a.insn, result := q,
    write := accIsStore a.op || accIsAtomic a.op, partBytes := match a.err with | some e => e.partBytes | none => none }

/-- An access becomes a pending deferred exception, taken as soon as it may be. -/
def deferAcc (s : Dev) (t : Nat) (a : Acc) (i : ExcInfo) : Dev :=
  tryDeferred (modThr s t (fun x => putAcc x { a with phase := .returned, trap := some i })) t

/-- An access leaves the thread's list. -/
def dropAcc (s : Dev) (t id : Nat) : Dev := modThr s t (fun x => { x with accs := x.accs.filter (fun b => b.id != id) })

/-- What the register of an access would receive, and its exception (02 R55, R56, R65, R66; R408) (log 52, DEDUCED). -/
def accExc (a : Acc) : Option (Nat × Nat) :=
  match a.err with
  | some e => some (6, e.kind)
  | none =>
    match a.op with
    | .loadTagged => if a.poisoned && a.qmode == 1 then some (6, 1) else if trapsOn a.qmode a.result.tag then some (7, 0) else none
    | .atomic op => if atomicTraps a.qmode a.result (atomicResult op a.result a.data a.expect) then some (7, 0) else none
    | _ => none

/-- The value and tag an access with an error would have written (R408): a store's own bytes, under its tag where it writes one, else 0x00 (02 R48); a load's value is not known, and free, and so is the tag of a full word. An access by the rotator or to register space writes no tag, and its load's is 0x00 (02 R32, R48, R60, R383) (log 52, DEDUCED). -/
def lostResult (s : Dev) (a : Acc) : QWord × Dev :=
  let untagged := a.va % 8 != 0 || (match placeOf s a.pa with | .regs _ => true | _ => false)
  match a.op with
  | .storeTagged => (if untagged then ⟨a.data.val, 0⟩ else a.data, s)
  | .storeValue n => (⟨BitVec.ofNat 64 (a.data.val.toNat % 2 ^ (8 * n)), 0⟩, s)
  | .loadValue _ _ =>
    let f := drawFree s
    (⟨f.1, 0⟩, f.2)
  | .loadTagged =>
    let f := drawFree s
    let g := drawFree f.2
    if untagged then (⟨f.1, 0⟩, f.2) else (⟨f.1, resultTag a.qmode (g.1.setWidth 8)⟩, g.2)
  | _ =>
    let f := drawFree s
    let g := drawFree f.2
    (⟨f.1, resultTag a.qmode (g.1.setWidth 8)⟩, g.2)

/-- What an access that takes a quality trap would have written: the BAD one of an atomic's register and storage results, the register's first (02 R56, R57) (log 52, DEDUCED). -/
def trapResult (a : Acc) : QWord :=
  match a.op with
  | .atomic op => if tagClass a.result.tag == 1 then a.result else (atomicResult op a.result a.data a.expect).getD a.result
  | _ => a.result

/-- An access is complete: its register is written, or its exception is pending (R408). -/
def completeAcc (s : Dev) (t : Nat) (a : Acc) : Dev :=
  match accExc a with
  | some (6, be) =>
    let r := lostResult s a
    deferAcc r.2 t a (deferredExc a 6 be r.1)
  | some (v, be) => deferAcc s t a (deferredExc a v be (trapResult a))
  | none =>
    let store := accIsStore a.op
    let s1 := modThr (dropAcc s t a.id) t (fun x =>
      if store || !a.live then x else setGpr x a.rd ⟨a.result.val, resultTag a.qmode a.result.tag⟩)
    let s2 := dataHit (trcData s1 t (store || accIsAtomic a.op) (a.op == .loadTagged || a.op == .storeTagged || accIsAtomic a.op) a.va
      (if store then a.data else a.result)) t (store || accIsAtomic a.op) a.va
    stepEnd (if accIsStore a.op then s2 else tryDeferred s2 t) t

/-! ## Atomics (R386 to R388, 13 R491) -/

/-- A write into a line that is exclusive in the cluster: into the core's L1 data cache while that is ON, else into the L2, past an L1 in DRAIN that holds the line too (13 R471, R472, R493, R495). -/
def cacheWrite (s : Dev) (core line : Nat) (f : Dev → Dev) : Dev :=
  let l2 := l2Id (core / 8)
  let s1 := cTouchLine (fillL1 (dropOthers s core line) core line true) l2 line
  if l1Owns s1 core line then f (markDirtyLine s1 core line)
  else f (markDirtyLine (passDirty s1 core line) l2 line)

/-- A write at the home of a line, as a partial-line write: copies elsewhere go, a line that awaits its write-back is written back first, and an L2 in DRAIN that holds the line keeps it, written through (13 R480, R493, R495, R506). -/
def homeWrite (s : Dev) (core line : Nat) (f : Dev → Dev) : Dev :=
  let c := core / 8
  let s1 := dropOthers (match dirFind s line with | some (_, e) => invalidateHolders s e c | none => s) core line
  let out := (evicted s1 c).filter (fun y => y.line == line)
  let s2 := setEvicted (if out.any (·.dirty) then toDram s1 line else s1) c ((evicted s1 c).filter (fun y => y.line != line))
  let s3 := toDram (countMc (f s2) (chanOf s2 (64 * line)) 0x06) line
  if holdsLine s3 c line then putDir s3 { line := line, excl := true, holders := [c] } else delDir s3 line

/-- A read-modify-write at the home of a line: every copy of the line goes, written back where dirty (13 R491). -/
def homeAtomic (s : Dev) (line : Nat) (f : Dev → Dev) : Dev :=
  let s1 := match dirFind s line with | some (_, e) => delDir (invalidateHolders s e 32) line | none => s
  toDram (countMc (countMc (f s1) (chanOf s1 (64 * line)) 0x02) (chanOf s1 (64 * line)) 0x06) line

/-- An atomic to DRAM is performed, its storage result written by `put` (R386, 13 R491). -/
def atomicNow (s : Dev) (t : Nat) (a : Acc) (op : AtomicOp) (put : Dev → (Dev → Dev) → Dev) : Dev :=
  let old := readTagged s a.pa
  let s1 := match atomicStore a.qmode op old a.data a.expect with
    | some q => put s (fun s => writeWord s a.pa q)
    | none => put s (fun s => s)
  completeAcc s1 t { a with phase := .returned, result := old }

/-- An atomic executes in an L1 that may own the line without the home; one that stores nothing leaves the line as it is (13 R491). -/
def atomicHere (s : Dev) (t : Nat) (a : Acc) (op : AtomicOp) : Dev :=
  atomicNow s t a op (fun s f => if (atomicStore a.qmode op (readTagged s a.pa) a.data a.expect).isSome then cacheWrite s (t / 8) (a.pa / 64) f else fillL1 (dropOthers s (t / 8) (a.pa / 64)) (t / 8) (a.pa / 64) true)

/-- Whether an atomic of a core executes in its L1 without the home: the caches are ON and the line stands exclusive in the cluster (13 R471, R491). -/
def atomicReady (s : Dev) (core line : Nat) : Bool :=
  !(cachesOff s core) && (l1Owns s core line || (l2Owns s (core / 8) line && (cFind s (l2Id (core / 8)) line).isSome))

/-- An atomic once located: performed at once in an L1 that owns the line, else under way (R387, 09 R359) (log 53, DEDUCED). -/
def atomicAt (s : Dev) (t w va : Nat) (rd : GReg) (op : AtomicOp) (data expect : QWord) (pa : Nat) : Dev :=
  let a : Acc := { id := 0, op := .atomic op, va := va, pa := pa, rd := rd.val, data := data, expect := expect, insn := w }
  if inDram s pa then
    let x := thr s t
    let s1 := pushAcc (if atomicReady s (t / 8) (pa / 64) then s else noteMiss s (t / 8) (pa / 64)) t a
    if atomicReady s1 (t / 8) (pa / 64) then atomicHere s1 t { a with id := x.nextId, pc := x.pc, qmode := x.qmode } op else s1
  else pushUncached s t a

/-- An atomic instruction: issues only behind an empty store buffer and performed accesses (R386, 09 R359) (log 52, DEDUCED). -/
def atomicInsn (s : State) (t : Thr) (w : Nat) (rd base rs2 rs3 : GReg) (op : AtomicOp) : Host.Outcome State Fault Refusal :=
  onDev s (fun d => onInsn d t.val [base, rs2, rs3] (fun d =>
    let x := thr d t.val
    if !x.storeBuf.isEmpty || !(x.accs.all performed) then d
    else
      let va := (rv d t.val base).toNat
      if va % 8 ≠ 0 then misaligned d t.val w va .atomic
      else withAddr d t.val w va 8 .atomic (fun pa d => atomicAt d t.val w va rd op (gpr (thr d t.val) rs2) (gpr (thr d t.val) rs3) pa)))

/-! ## Cache operations (R400 to R403) -/

/-- A cache operation: outside DRAM it has no effect, but CZERO takes a bus error (R402). -/
def cacheOp (s : State) (t : Thr) (w : Nat) (base : GReg) (off : BitVec 14) (kind : Option StoreKind) : Host.Outcome State Fault Refusal :=
  onDev s (fun d => onInsn d t.val [base] (fun d =>
    let va := effAddr d t.val base off
    let k : AccKind := if kind = some .zero then .store else .load
    if atomicPending (thr d t.val) then d
    else withAddr d t.val w va 1 k (fun pa d =>
      if inDram d pa then
        match kind with
        | some sk =>
          let d1 := pushStore d t.val { id := 0, kind := sk, pa := pa / 64 * 64, bytes := 64 }
          if storeRoom d t.val then stepEnd d1 t.val else d1
        | none => advance ((rangeFrom 0 192).foldl (fun d j => dropPrefetch d j (pa / 64)) (dropL1I d (pa / 64))) t.val
      else if kind = some .zero then
        takeExc d t.val { atInsn (thr d t.val) 6 w with beKind := 6, faddr := va, write := true }
      else advance d t.val)))

/-! ## The store buffer drains (09 R354, R355) -/

/-- A line dirty in some cache of the device is written back; `keep`: the copies stay valid, else they go (R400). -/
def cleanLine (s : Dev) (line : Nat) (keep : Bool) : Dev :=
  let s0 := if heldDirty s line then toDram s line else s
  if keep then
    let clean (x : CLine) : CLine := { x with dirty := false, back := [], backPoison := [] }
    let s1 := (rangeFrom 0 24).foldl (fun s c =>
      let s1 := ((l2Id c) :: coresOf c).foldl (fun s cid => cMod s cid line clean) s
      setEvicted s1 c ((evicted s1 c).map (fun x => if x.line = line then clean x else x))) s0
    modCache s1 (fun c => { c with oasis := c.oasis.map (fun x => if x.line = line then clean x else x) })
  else delDir (allHolders.foldl (fun s h => dropHolder s h line) (dropL1I s0 line)) line

/-- A sub-word store in a cache line finds an error in its word: a correctable one is corrected, an uncorrectable one leaves the word poisoned, and a merge into a poisoned word is recorded (02 R68, 15 R572). -/
def mergeFound (s : Dev) (c pa : Nat) (o : EccRead) : Dev :=
  let bad (s : Dev) : Dev := logLimited s WARNING SB_CL c 0x0F31 [pa / 8 * 8]
  match wordErrors o with
  | 0 => if poisonAt s (pa / 8) then bad s else s
  | 1 => logLimited s INFO SB_CL c 0x0F30 []
  | _ => bad (setPoison s (pa / 8) true)

/-- What an entry writes; a sub-word store in a cache line of cluster `c` meets what it finds there. -/
def entWrite (s : Dev) (c : Nat) (inCache : Bool) (o : EccRead) (e : StoreEnt) : Dev :=
  match e.kind with
  | .zero => (rangeFrom 0 8).foldl (fun s i => writeWord s (e.pa + 8 * i) ⟨0, 0⟩) s
  | _ =>
    if e.bytes = 8 then writeWord s e.pa ⟨e.data.val, if e.tagged then e.data.tag else 0⟩
    else writeKeepTag (if inCache then mergeFound s c e.pa o else s) e.pa (leBytes e.bytes e.data.val.toNat)

/-- Whether a core's store writes a line in a cache: an L1 or an L2, ON or in DRAIN, that holds it (13 R471, R493, R495). -/
def storeInCache (s : Dev) (core line : Nat) : Bool :=
  (l1Serves s core && (cFind s core line).isSome) || (l2State s (core / 8) != 0 && (cFind s (l2Id (core / 8)) line).isSome)

/-- The oldest store of a thread reaches its line: in the cluster that owns it, or, while the L2 is not ON, at the home under the cluster's credits and the arbiters (13 R471, R476, R495, 01 R13, 05 R213). `none`: it waits for ownership, a credit, a grant, or room in the eviction buffer. A partial-line write to DRAM meets what the decoder finds in the line (13 R506); CZERO reads nothing (10 R400). -/
def storeOut (s : Dev) (core : Nat) (o : EccRead) (e : StoreEnt) : Option Dev × Dev :=
  let c := core / 8
  let line := e.pa / 64
  if l2State s c = 1 then
    let s? := if (cFind s (l2Id c) line).isNone && (evicted s c).any (fun y => y.line == line) then reinstall s c line else some s
    match s? with
    | none => (none, countCl s c 0x08)
    | some s0 =>
      if ownsHere s0 core line then
        let s1 := cacheWrite s0 core line (fun s => entWrite s c true o e)
        (some s1, s1)
      else (none, s0)
  else if !(granted s core line) then (none, s)
  else
    let inCache := storeInCache s core line
    let read (s : Dev) : Dev := if inCache || heldDirty s line || e.kind == .zero then s else partialRead s line o
    match toHome s c line (fun s => some (homeWrite (read s) core line (fun s => entWrite s c inCache o e))) with
    | (some s1, _) => (some (noteGrant s1 core line), s1)
    | (none, s1) => (none, s1)

/-- STORE_DRAIN (09 R354): the oldest entry of a thread drains, once the loads before it are performed and its line is owned. -/
def storeDrain (s : Dev) (t : Nat) (o : EccRead) : Dev :=
  let x := thr s t
  let core := t / 8
  match x.storeBuf with
  | [] => s
  | e :: rest =>
    let line := e.pa / 64
    if !(loadsBefore x e.id) then s
    else
      let pop (s : Dev) : Dev := resumeExc (modThr (forgetMiss s core line) t (fun x => { x with storeBuf := rest })) t
      match e.kind with
      | .clean => pop (cleanLine s line true)
      | .flush => pop (cleanLine s line false)
      | _ =>
        match storeOut s core o e with
        | (some s1, _) => pop s1
        | (none, s1) => s1

/-! ## The return of data (R408) -/

/-- Where a cacheable load that waits can be served inside its cluster: its L1, its prefetch buffer, the L2, or the eviction buffer or victim cache (13 R470, R475 to R477). -/
def servedIn (s : Dev) (core line : Nat) : Option Dev :=
  let c := core / 8
  match cFind s core line with
  | some (way, _) => if l1Serves s core then some (cTouch s core line way) else none
  | none =>
    if (prefetched s core).contains line then some (fillL1 (countCore (dropPrefetch s core line) (8 * core) 0x07) core line false)
    else
      match cFind s (l2Id c) line with
      | some (way, y) =>
        if l2State s c = 0 then none
        else
          let s1 := shareInCluster s core line
          let alone := (coresOf c).all (fun j => j == core || (cFind s j line).isNone)
          some (fillL1 (countCl (cTouch s1 (l2Id c) line way) c 0x02) core line (y.excl && alone))
      | none =>
        if l2State s c = 2 then (if (evicted s c).any (fun y => y.line == line) then some s else none)
        else (reinstall s c line).map (fun s2 => fillL1 s2 core line false)

/-- The load takes its data now. -/
def captureLoad (s : Dev) (a : Acc) : Acc :=
  let d := loadData s a.op a.pa
  let failed := d.2 && poisonFails a.op a.qmode
  { a with phase := .done, result := d.1, poisoned := d.2, err := if failed then some { kind := 1 } else none }

/-- A cacheable atomic that waits executes: in its core's L1 once the line is exclusive in the cluster, or at the home while the L1 or the L2 is not ON, under the cluster's credits and the arbiters (13 R476, R491, 01 R13, 05 R213). -/
def atomicOut (s : Dev) (t : Nat) (a : Acc) (op : AtomicOp) : Dev :=
  let core := t / 8
  let c := core / 8
  let line := a.pa / 64
  if cachesOff s core then
    if !(granted s core line) then s
    else
      match toHome s c line some with
      | (some s1, _) => atomicNow (noteGrant s1 core line) t a op (fun s f => homeAtomic s line f)
      | (none, s1) => s1
  else
    let s? := if (cFind s (l2Id c) line).isNone && (evicted s c).any (fun y => y.line == line) then reinstall s c line else some s
    match s? with
    | none => countCl s c 0x08
    | some s0 => if atomicReady s0 core line then atomicHere (forgetMiss s0 core line) t a op else s0

/-- LOAD_RETURN (R408): data return for the `n`-th access that is not complete. A cacheable load is served in order from its cluster, or with the data its directory transaction captured; a cacheable atomic executes once its line is owned; an uncached one completes once answered. -/
def loadReturn (s : Dev) (t n : Nat) : Dev :=
  let x := thr s t
  match (x.accs.filter (fun a => a.trap.isNone && !(accIsStore a.op)))[n]? with
  | none => s
  | some a =>
    if a.uncached then (if a.phase == .returned then completeAcc s t a else s)
    else
      match a.op with
      | .atomic op =>
        if !(loadsBefore x a.id) then s else atomicOut s t a op
      | _ =>
        if a.phase == .done then completeAcc s t a
        else if !(loadsBefore x a.id) then s
        else
          match servedIn s (t / 8) (a.pa / 64) with
          | some s1 => completeAcc (forgetMiss s1 (t / 8) (a.pa / 64)) t (captureLoad s1 a)
          | none => s

/-! ## Meanings -/

/-- LD: a full word with its tag. -/
def execLd (t : Thr) (rd rs1 : GReg) (off : BitVec 14) (s : State) : Host.Outcome State Fault Refusal :=
  load s t (wordOf (.ld t rd rs1 off)) rd rs1 off .loadTagged

/-- LDV: 8 value bytes. -/
def execLdv (t : Thr) (rd rs1 : GReg) (off : BitVec 14) (s : State) : Host.Outcome State Fault Refusal :=
  load s t (wordOf (.ldv t rd rs1 off)) rd rs1 off (.loadValue 8 false)

/-- LDB: 1 byte, sign-extended. -/
def execLdb (t : Thr) (rd rs1 : GReg) (off : BitVec 14) (s : State) : Host.Outcome State Fault Refusal :=
  load s t (wordOf (.ldb t rd rs1 off)) rd rs1 off (.loadValue 1 true)

/-- LDBU: 1 byte, zero-extended. -/
def execLdbu (t : Thr) (rd rs1 : GReg) (off : BitVec 14) (s : State) : Host.Outcome State Fault Refusal :=
  load s t (wordOf (.ldbu t rd rs1 off)) rd rs1 off (.loadValue 1 false)

/-- LDH: 2 bytes, sign-extended. -/
def execLdh (t : Thr) (rd rs1 : GReg) (off : BitVec 14) (s : State) : Host.Outcome State Fault Refusal :=
  load s t (wordOf (.ldh t rd rs1 off)) rd rs1 off (.loadValue 2 true)

/-- LDHU: 2 bytes, zero-extended. -/
def execLdhu (t : Thr) (rd rs1 : GReg) (off : BitVec 14) (s : State) : Host.Outcome State Fault Refusal :=
  load s t (wordOf (.ldhu t rd rs1 off)) rd rs1 off (.loadValue 2 false)

/-- LDW: 4 bytes, sign-extended. -/
def execLdw (t : Thr) (rd rs1 : GReg) (off : BitVec 14) (s : State) : Host.Outcome State Fault Refusal :=
  load s t (wordOf (.ldw t rd rs1 off)) rd rs1 off (.loadValue 4 true)

/-- LDWU: 4 bytes, zero-extended. -/
def execLdwu (t : Thr) (rd rs1 : GReg) (off : BitVec 14) (s : State) : Host.Outcome State Fault Refusal :=
  load s t (wordOf (.ldwu t rd rs1 off)) rd rs1 off (.loadValue 4 false)

/-- ST: 8 bytes with the register's tag. -/
def execSt (t : Thr) (rs2 rs1 : GReg) (off : BitVec 14) (s : State) : Host.Outcome State Fault Refusal :=
  store s t (wordOf (.st t rs2 rs1 off)) rs2 rs1 off .storeTagged

/-- STV: 8 bytes, tag 0x00. -/
def execStv (t : Thr) (rs2 rs1 : GReg) (off : BitVec 14) (s : State) : Host.Outcome State Fault Refusal :=
  store s t (wordOf (.stv t rs2 rs1 off)) rs2 rs1 off (.storeValue 8)

/-- STB: 1 byte, the word's tag kept. -/
def execStb (t : Thr) (rs2 rs1 : GReg) (off : BitVec 14) (s : State) : Host.Outcome State Fault Refusal :=
  store s t (wordOf (.stb t rs2 rs1 off)) rs2 rs1 off (.storeValue 1)

/-- STH: 2 bytes, the word's tag kept. -/
def execSth (t : Thr) (rs2 rs1 : GReg) (off : BitVec 14) (s : State) : Host.Outcome State Fault Refusal :=
  store s t (wordOf (.sth t rs2 rs1 off)) rs2 rs1 off (.storeValue 2)

/-- STW: 4 bytes, the word's tag kept. -/
def execStw (t : Thr) (rs2 rs1 : GReg) (off : BitVec 14) (s : State) : Host.Outcome State Fault Refusal :=
  store s t (wordOf (.stw t rs2 rs1 off)) rs2 rs1 off (.storeValue 4)

/-- ATSWAP. -/
def execAtswap (t : Thr) (rd rs1 rs2 : GReg) (s : State) : Host.Outcome State Fault Refusal :=
  atomicInsn s t (wordOf (.atswap t rd rs1 rs2)) rd rs1 rs2 0 .swap

/-- ATADD. -/
def execAtadd (t : Thr) (rd rs1 rs2 : GReg) (s : State) : Host.Outcome State Fault Refusal :=
  atomicInsn s t (wordOf (.atadd t rd rs1 rs2)) rd rs1 rs2 0 .add

/-- ATCAS. -/
def execAtcas (t : Thr) (rd rs1 rs2 rs3 : GReg) (s : State) : Host.Outcome State Fault Refusal :=
  atomicInsn s t (wordOf (.atcas t rd rs1 rs2 rs3)) rd rs1 rs2 rs3 .cas

/-- ATMIN. -/
def execAtmin (t : Thr) (rd rs1 rs2 : GReg) (s : State) : Host.Outcome State Fault Refusal :=
  atomicInsn s t (wordOf (.atmin t rd rs1 rs2)) rd rs1 rs2 0 .min

/-- ATMAX. -/
def execAtmax (t : Thr) (rd rs1 rs2 : GReg) (s : State) : Host.Outcome State Fault Refusal :=
  atomicInsn s t (wordOf (.atmax t rd rs1 rs2)) rd rs1 rs2 0 .max

/-- CCLEAN. -/
def execCclean (t : Thr) (rs1 : GReg) (off : BitVec 14) (s : State) : Host.Outcome State Fault Refusal :=
  cacheOp s t (wordOf (.cclean t rs1 off)) rs1 off (some .clean)

/-- CFLUSH. -/
def execCflush (t : Thr) (rs1 : GReg) (off : BitVec 14) (s : State) : Host.Outcome State Fault Refusal :=
  cacheOp s t (wordOf (.cflush t rs1 off)) rs1 off (some .flush)

/-- CZERO. -/
def execCzero (t : Thr) (rs1 : GReg) (off : BitVec 14) (s : State) : Host.Outcome State Fault Refusal :=
  cacheOp s t (wordOf (.czero t rs1 off)) rs1 off (some .zero)

/-- ICINV: the line leaves every instruction cache and every prefetch buffer (R400) (log 43, DESIGN CHOICE). -/
def execIcinv (t : Thr) (rs1 : GReg) (off : BitVec 14) (s : State) : Host.Outcome State Fault Refusal :=
  cacheOp s t (wordOf (.icinv t rs1 off)) rs1 off none

/-- STORE_DRAIN (09 R354). -/
def execStoreDrain (x : DrainTurn) (s : State) : Host.Outcome State Fault Refusal := onDev s (fun d => storeDrain d x.thr.val x.ecc)

/-- LOAD_RETURN (R408). -/
def execLoadReturn (t : Thr) (n : Nat) (s : State) : Host.Outcome State Fault Refusal := onDev s (fun d => loadReturn d t.val n)

end Sys2Proof.Machine
end

