-- ==== Sys2Proof/Machine/Coher.lean ====
section
/-! DEFINITION. Coher: directory transactions, I/O accesses to DRAM, cache enables and Drain, device marks, and the scrubs (13 R484 to R507, 15 R567 to R572). -/
namespace Sys2Proof.Machine

/-! ## Directory transactions (R484 to R486) -/

/-- Loads of a core that wait for a line take its data, in program order (09 R358). -/
def captureLoads (s : Dev) (core line : Nat) : Dev :=
  (rangeFrom (8 * core) 8).foldl (fun s t =>
    (thr s t).accs.foldl (fun s a =>
      if !a.uncached && a.phase == .issued && a.pa / 64 == line && !(accIsAtomic a.op) && loadsBefore (thr s t) a.id then
        modThr s t (fun x => putAcc x (captureLoad s a))
      else s) s) s

/-- Whether a load of a core waits for a line. -/
def wantsLine (s : Dev) (core line : Nat) : Bool :=
  (rangeFrom (8 * core) 8).any (fun t => (thr s t).accs.any (fun a => !a.uncached && a.phase == .issued && a.pa / 64 == line && !(accIsAtomic a.op)))

/-- Whether the oldest store of a thread of a core, of one of the kinds, needs ownership of a line: while the L2 is ON (13 R471, R495). -/
def storeWants (s : Dev) (core line : Nat) (ks : List StoreKind) : Bool :=
  l2State s (core / 8) == 1 && (rangeFrom (8 * core) 8).any (fun t =>
    match (thr s t).storeBuf.head? with
    | some e => e.pa / 64 == line && ks.contains e.kind
    | none => false)

/-- Whether an atomic of a core needs ownership of a line: one that executes in L1 (13 R491). -/
def atomicWants (s : Dev) (core line : Nat) : Bool :=
  !(cachesOff s core) && (rangeFrom (8 * core) 8).any (fun t =>
    (thr s t).accs.any (fun a => !a.uncached && a.phase == .issued && a.pa / 64 == line && accIsAtomic a.op))

/-- Whether a core needs ownership of a line. -/
def wantsOwn (s : Dev) (core line : Nat) : Bool := storeWants s core line [.store, .zero] || atomicWants s core line

/-- Whether a core that needs ownership of a line wants its data too: CZERO does not (10 R400). -/
def wantsData (s : Dev) (core line : Nat) : Bool := storeWants s core line [.store] || atomicWants s core line

/-- Whether the fetch of a thread of a core waits for a line. -/
def wantsFetch (s : Dev) (core line : Nat) : Bool :=
  (rangeFrom (8 * core) 8).any (fun t => mfind s.cache.fetch t == some line && (thr s t).st == .running)

/-- A demand load or a fetch: from the cluster's own eviction buffer or victim cache, else from the home (R476, R477, R484). -/
def dirLoad (s : Dev) (core line : Nat) (o : EccRead) : Dev :=
  let c := core / 8
  let data := wantsLine s core line
  if !(data || wantsFetch s core line) || (cFind s (l2Id c) line).isSome || !(granted s core line) then s
  else if l2State s c = 1 && (evicted s c).any (fun y => y.line == line) then (reinstall (noteGrant s core line) c line).getD (countCl s c 0x08)
  else
    match toHome s c line (fun s => cohRead (countCl s c 0x03) core line data o) with
    | (some s1, _) => captureLoads (noteGrant s1 core line) core line
    | (none, s1) => s1

/-- A prefetch that a prefetcher of the core has requested: into the L2 where it is not there, and into the prefetch buffer (R475, 09 R341) (log 35, DESIGN CHOICE). -/
def dirPrefetch (s : Dev) (core line : Nat) (o : EccRead) : Dev :=
  let c := core / 8
  let done (s : Dev) : Dev := putPrefetched (setWanted (shareInCluster s core line) core ((wantedLines s core).filter (fun l => l != line))) core line
  if !(fbit s (CL_CTRL c) CL_CTRL_PF_EN) || l2State s c != 1 || !((wantedLines s core).contains line) then s
  else if (cFind s (l2Id c) line).isSome then done s
  else if (evicted s c).any (fun y => y.line == line) then ((reinstall s c line).map done).getD (countCl s c 0x08)
  else if !(grantAt s (chanOf s (64 * line)) c) then s
  else
    match toHome s c line (fun s => cohRead s core line false o) with
    | (some s1, _) => done (noteSource s1 (chanOf s (64 * line)) c)
    | (none, s1) => s1

/-- Ownership for a core's oldest store or atomic (R471, R484). -/
def dirOwn (s : Dev) (core line : Nat) (o : EccRead) : Dev :=
  let c := core / 8
  if !(wantsOwn s core line) || !(granted s core line) then s
  else
    let s0? := if (evicted s c).any (fun y => y.line == line) then reinstall s c line else some s
    match s0? with
    | none => countCl s c 0x08
    | some s0 =>
      match toHome s0 c line (fun s => cohOwn s core line (wantsData s core line) o) with
      | (some s1, _) => noteGrant s1 core line
      | (none, s1) => s1

/-- The oldest write-back of a cluster's eviction buffer goes to its memory controller under the cluster's credits (R476). -/
def dirWriteBack (s : Dev) (c : Nat) : Dev :=
  if victimMode s c then s
  else
    match evicted s c with
    | [] => s
    | x :: _ =>
      let ch := chanOf s (64 * x.line)
      if !(grantAt s ch c) then s else (toHome s c x.line (fun s => some (noteSource (cohWriteBack s c) ch c))).2

/-- DIRECTORY_TRANSACTION. -/
def dirTransaction (s : Dev) (core line : Nat) (k : CohKind) (o : EccRead) : Dev :=
  if !(domOn s (core / 8)) || !(inDram s (64 * line)) then s
  else
    match k with
    | .load => dirLoad s core line o
    | .prefetch => dirPrefetch s core line o
    | .own => dirOwn s core line o
    | .writeBack => dirWriteBack s (core / 8)

/-- DIRECTORY_TRANSACTION (R484): one request, granted by the arbiters of R213 (log 35, DESIGN CHOICE) (log 128, DESIGN CHOICE). -/
def execDirectoryTransaction (core : CoreId) (line : Nat) (k : CohKind) (o : EccRead) (s : State) : Host.Outcome State Fault Refusal :=
  onDev s (fun d => dirTransaction d core.val line k o)

/-! ## I/O agents (R487 to R490) -/

/-- An access of an I/O agent, source 24 + `src`, to `n` bytes: it waits for credits of its request queues and for the grants of the channels' arbiters (01 R15, 05 R213, R214); CREDIT_RETURN gives the credits back. -/
def ioAgent (s : Dev) (src pa n : Nat) (f : Dev → Dev) : Dev :=
  engineAct s (dramWaits s (24 + src) pa n) (fun s =>
    dramTaken (f ((chansOf s pa n).foldl (fun s ch => takeCredit s (mcQueue ch (24 + src))) s)) (24 + src) pa n)

/-- IO_READ (R487): the newest data of one word, with what the decoder finds where they come from DRAM; the cache state stays. -/
def execIoRead (x : IoWord) (s : State) : Host.Outcome State Fault Refusal :=
  onDev s (fun d =>
    let pa := x.addr.toNat / 8 * 8
    if inDram d pa then
      ioAgent d x.src.val pa 8 (fun d =>
        let d1 := if heldDirty d (pa / 64) then d else partialRead d (pa / 64) x.ecc
        let r := ioRead d1 pa 8
        { r.2 with readData := BitVec.ofNat 64 (leNat r.1) })
    else d)

/-- IO_WRITE (R488, R490), with what the decoder finds in each line that a partial write reads (R506). -/
def execIoWrite (x : IoPlace) (y : IoBytes) (part : PartId) (stash : Option ClusterId) (s : State) : Host.Outcome State Fault Refusal :=
  onDev s (fun d =>
    let a := x.addr.toNat
    if y.bytes.isEmpty || !(inDram d a) || !(inDram d (a + y.bytes.length - 1)) then d
    else
      ioAgent d x.src.val a y.bytes.length (fun d =>
        match stash with
        | some c => ioStashWrite d part.val c.val a y.bytes y.eccs
        | none => ioWriteEcc d a y.bytes y.eccs))

/-! ## Cache enables and Drain (R492 to R496) -/

/-- Lines an array holds. -/
def linesIn (s : Dev) (cid : Nat) : List CLine :=
  (s.cache.ways.filter (fun e => e.1 / 65536 == cid)).map (·.2)

/-- Every line of an L1 data cache leaves it; dirty data pass to the next level (R492). -/
def emptyL1 (s : Dev) (core : Nat) : Dev :=
  (linesIn s (l1Id core)).foldl (fun s x =>
    if x.dirty && (cFind s (l2Id (core / 8)) x.line).isNone then cDel (toDram s x.line) core x.line else dropL1 s core x.line) s

/-- Every line of an L2 and its eviction buffer leaves the cluster; dirty ones are written back (R492, R493). -/
def emptyL2 (s : Dev) (c : Nat) : Dev :=
  let ls := (linesIn s (l2Id c)).map (·.line) ++ (evicted s c).map (·.line)
  ls.foldl (fun s l =>
    let s1 := if clusterDirty s c l then countCl (toDram s l) c 0x0A else s
    dirLeave (dropCluster s1 c l) c l) s

/-- An L1 data cache is turned off: OFF at once without a dirty line, else DRAIN (R492). -/
def l1Off (s : Dev) (core : Nat) : Dev :=
  if l1State s core ≠ 1 then s
  else if (linesIn s (l1Id core)).any (·.dirty) then setL1State s core 2
  else setL1State (emptyL1 s core) core 0

/-- An L1 data cache is turned on, while the L2 is ON (R492, R494). -/
def l1On (s : Dev) (core : Nat) : Dev := if l2State s (core / 8) = 1 then setL1State s core 1 else s

/-- The L2 is turned off: its L1 data caches first (R494); OFF where it holds no dirty line, else DRAIN. A line that an L1 in DRAIN holds dirty is written back with its copy (R470). -/
def l2Off (s : Dev) (c : Nat) : Dev :=
  let s1 := (coresOf c).foldl l1Off s
  if l2State s1 c ≠ 1 then s1
  else if !((linesIn s1 (l2Id c)).any (·.dirty)) then setL2State (emptyL2 s1 c) c 0
  else setL2State s1 c 2

/-- The L2 is turned on; leaving OFF it takes the VICTIM_MODE written (R478). -/
def l2On (s : Dev) (c : Nat) : Dev :=
  if l2State s c = 0 then
    setL2State (modCache s (fun x => { x with vicMode := mset (fun _ => false) x.vicMode c (fbit s (CL_CTRL c) CL_CTRL_VICTIM_MODE) })) c 1
  else setL2State s c 1

/-- L1_EN and L2_EN are written (R492, R494). -/
def cacheEnables (s : Dev) (c l1 : Nat) (l2 : Bool) : Dev :=
  let s1 := fset (fset s (CL_CTRL c) CL_CTRL_L1_EN l1) (CL_CTRL c) CL_CTRL_L2_EN (b2n l2)
  let s2 := if l2 then l2On s1 c else l2Off s1 c
  (rangeFrom 0 8).foldl (fun s j =>
    if nbit l1 j then l1On s (8 * c + j)
    else setPrefetched (emptyL1I (l1Off s (8 * c + j)) (8 * c + j)) (8 * c + j) []) s2

/-- CACHE_ENABLE_WRITE (R492). -/
def execCacheEnableWrite (_who : Agent) (c : ClusterId) (l1 : Byte) (l2 : Bool) (s : State) : Host.Outcome State Fault Refusal :=
  onDev s (fun d => whenOn d c.val (fun d => cacheEnables d c.val l1.toNat l2))

/-- DRAIN_COMPLETE (R492): the pass has ended; an L2 waits for its L1 data caches. -/
def drainComplete (s : Dev) (c : Nat) (core : Option Nat) : Dev :=
  match core with
  | some j => if l1State s (8 * c + j) = 2 then setL1State (emptyL1 s (8 * c + j)) (8 * c + j) 0 else s
  | none =>
    if l2State s c = 2 ∧ (coresOf c).all (fun j => l1State s j == 0) then setL2State (emptyL2 s c) c 0 else s

/-- DRAIN_COMPLETE. -/
def execDrainComplete (c : ClusterId) (core : Option (Fin 8)) (s : State) : Host.Outcome State Fault Refusal :=
  onDev s (fun d => drainComplete d c.val (core.map (·.val)))

/-! ## Device marks (R504, MC_MARK) -/

/-- A lane of MC_MARK is written with MARKED `mark` and DEVICE `dev`: DEVICE stays, with BAD_VALUE, for a write while the lane is marked and for a value above 9; a rise of MARKED is recorded and kept. -/
def markLane (s : Dev) (ch i : Nat) (mark : Bool) (dev : Nat) : Dev :=
  let marked := fbit s (MC_MARK ch) (MC_MARK_MARKED i)
  let s1 := if marked || decide (9 < dev) then fset s (MC_CTRL ch) MC_CTRL_BAD_VALUE 1
    else fset s (MC_MARK ch) (MC_MARK_DEVICE i) dev
  if mark && !marked then
    addRepair (logRec (fset s1 (MC_MARK ch) (MC_MARK_MARKED i) 1) ALERT SB_MC ch 0x0D02 [])
      { kind := 3, unit := ch, arg := i * 16 + fget s1 (MC_MARK ch) (MC_MARK_DEVICE i) }
  else s1

/-- DEVICE_MARK (R504). -/
def execDeviceMark (_who : Agent) (ch : ChanId) (i : Fin 8) (dev : Fin 16) (s : State) : Host.Outcome State Fault Refusal :=
  onDev s (fun d => whenOn d (48 + ch.val / 2) (fun d => markLane d ch.val i.val true dev.val))

/-! ## The DRAM scrub (15 R570) -/

/-- Lines of a channel. -/
def chanLines (s : Dev) : Nat := chanCap s / 64

/-- Line number of the n-th line of a channel, ascending (R498). -/
def chanLine (s : Dev) (ch n : Nat) : Nat :=
  if fget s (MC_CTRL 0) MC_CTRL_ILV = 1 then 4 * chanCap s * (ch / 4) / 64 + (n / 64 * 4 + ch % 4) * 64 + n % 64
  else (n / 64 * 16 + ch) * 64 + n % 64

def scrubSt (s : Dev) (ch : Nat) : ScrubSt := mget (fun _ => {}) s.cache.scrub ch
def setScrub (s : Dev) (ch : Nat) (x : ScrubSt) : Dev := modCache s (fun c => { c with scrub := mset (fun _ => {}) c.scrub ch x })

/-- SCRUB_LINE (15 R570): the next line of the pass, evenly spaced over the period; the last one ends the pass (log 55, DESIGN CHOICE). -/
def scrubLine (s : Dev) (ch : Nat) (o : EccRead) : Dev :=
  let n := chanLines s
  if n = 0 || !(domOn s (48 + ch / 2)) then s
  else
    let x := scrubSt s ch
    let period := fget s (MC_SCRUB ch) MC_SCRUB_HOURS * 3600 * opSecond
    let s0 := advanceOp s (x.start + period * (x.pos + 1) / n)
    let s1 := if x.pos = 0 then modCache s0 (fun c => { c with corrected := c.corrected.filter (fun e => e.1 / 1024 != ch) }) else s0
    let line := chanLine s ch x.pos
    let r : Dev × ScrubSt :=
      if heldDirty s1 line then (s1, x)
      else
        match decodeErrors (lineMark s1 line) o with
        | .clean => (s1, x)
        | .lost => (decodeLine s1 line o, { x with poisoned := x.poisoned + 1 })
        | _ => (decodeLine s1 line o, { x with corrected := x.corrected + 1 })
    if x.pos + 1 < n then setScrub r.1 ch { r.2 with pos := x.pos + 1 }
    else
      let s2 := fincWrap (setScrub r.1 ch { start := x.start + period }) (MC_SCRUB ch) MC_SCRUB_PASSES 1
      logRec s2 INFO SB_MC ch 0x0F50 [ch, r.2.corrected, r.2.poisoned]

/-- SCRUB_LINE. -/
def execScrubLine (ch : ChanId) (o : EccRead) (s : State) : Host.Outcome State Fault Refusal := onDev s (fun d => scrubLine d ch.val o)

/-! ## The scrub of the caches (15 R571, R567, 13 R500, R501) -/

/-- Number of a scrubbed array. -/
def arrayNum : CacheArray → Nat
  | .l1 j => j.val
  | .l1i j => 1280 + j.val
  | .l2 c => 192 + c.val
  | .prefetch j => 256 + j.val
  | .evict c => 512 + c.val
  | .dir ch => 1024 + ch.val

/-- Sets of an array. -/
def arraySets : CacheArray → Nat
  | .l1 _ => 128
  | .l1i _ => 128
  | .l2 _ => 4096
  | .prefetch _ => 1
  | .evict _ => 1
  | .dir _ => 16384

/-- Source of the records of an array (15 R574) (log 55, DESIGN CHOICE). -/
def arraySource : CacheArray → Nat × Nat
  | .l1 j => (SB_CL, j.val / 8)
  | .l1i j => (SB_CL, j.val / 8)
  | .l2 c => (SB_CL, c.val)
  | .prefetch j => (SB_CL, j.val / 8)
  | .evict c => (SB_CL, c.val)
  | .dir ch => (SB_MC, ch.val)

/-- Cache number of an L1 or L2 array. -/
def arrayCache : CacheArray → Option Nat
  | .l1 j => some (l1Id j.val)
  | .l1i j => some (l1iId j.val)
  | .l2 c => some (l2Id c.val)
  | _ => none

/-- Cluster of a cache number. -/
def cacheCluster (cid : Nat) : Nat := if isL2 cid then cid - 192 else if cid < 192 then cid / 8 else (cid - 216) / 8

/-- A line leaves one cache; one that leaves an L2 leaves its cluster (R470). -/
def dropFrom (s : Dev) (cid line : Nat) : Dev :=
  if cid < 192 then dropL1 s cid line
  else if !(isL2 cid) then cDel s cid line
  else
    let c := cid - 192
    let s1 := if clusterDirty s c line then toDram s line else s
    dirLeave (dropCluster s1 c line) c line

/-- A way is retired: its lines leave, a record is kept, L2_RETIRED shows it; beyond 1 way of an L1 or 4 of an L2 none is (15 R567). -/
def retireWay (s : Dev) (cid way : Nat) : Dev :=
  let c := cacheCluster cid
  if (retiredWays s cid).contains way then s
  else if (if isL2 cid then 4 else 1) ≤ (retiredWays s cid).length then logRec s ALERT SB_CL c 0x0F12 []
  else
    let ls := (s.cache.ways.filter (fun e => e.1 / 65536 == cid && e.1 % 16 == way)).map (fun e => e.2.line)
    let s1 := ls.foldl (fun s l => dropFrom s cid l) s
    let s2 := logRec (addRepair s1 { kind := 2, unit := cid, arg := way }) NOTICE SB_CL c 0x0F13 []
    if !(isL2 cid) then s2 else fset s2 (CL_STATUS c) CL_STATUS_L2_RETIRED (Nat.lor (fget s2 (CL_STATUS c) CL_STATUS_L2_RETIRED) (2 ^ way))

/-- Words corrected in a way within the last 24 operating hours, with `n` more now; 8 of them retire the way (15 R567). -/
def noteFixes (s : Dev) (cid way n : Nat) : Dev :=
  let k := cid * 16 + way
  let old := (mget (fun _ => []) s.cache.fixes k).filter (fun t => decide (s.smp.op < t + 24 * 3600 * opSecond))
  let l := old ++ List.replicate (min n 8) s.smp.op
  let s1 := modCache s (fun c => { c with fixes := mset (fun _ => []) c.fixes k l })
  if 8 ≤ l.length then retireWay s1 cid way else s1

/-- The line in a way of a set. -/
def lineInWay (s : Dev) (cid set way : Nat) : Option CLine := mfind s.cache.ways ((cid * 4096 + set) * 16 + way)

/-- An uncorrectable word: a clean line is dropped and fetched again when wanted; in a dirty line the word is poisoned (13 R500). -/
def uncorrectedIn (s : Dev) (cid set way word : Nat) : Dev :=
  match lineInWay s cid set way with
  | none => s
  | some x =>
    if x.dirty then
      let w := 8 * x.line + word
      logLimited (setPoison s w true) WARNING SB_CL (cacheCluster cid) 0x0F31 [8 * w]
    else dropFrom s cid x.line

/-- Both copies of a tag entry failed: a clean line goes; a dirty one is lost, and the next level's data return, but what an L1 of the cluster still holds dirty is written back with the L2's line (13 R470, R501). The way is retired (15 R567). -/
def tagLostIn (s : Dev) (cid set way : Nat) : Dev :=
  let s1 := match lineInWay s cid set way with
    | none => s
    | some x =>
      if x.dirty then
        let c := cacheCluster cid
        let gone := modCache s (fun k => { k with ways := mdel k.ways ((cid * 4096 + set) * 16 + way) })
        let above := isL2 cid && (coresOf c).any (fun j => match cFind s j x.line with | some (_, y) => y.dirty | none => false)
        let s2 := if above then toDram gone x.line else restoreBack gone x
        let s3 := if cid < 192 then s2 else dirLeave (dropCluster s2 c x.line) c x.line
        logRec s3 ALERT SB_CL c 0x0D01 [c, if cid < 192 then cid % 8 else 8, set, way]
      else dropFrom s cid x.line
  retireWay s1 cid way

/-- Both copies of a directory entry failed: the line is invalidated in every cluster, as under broadcast (13 R501). -/
def dirLost (s : Dev) (slice set way : Nat) : Dev :=
  match mfind s.cache.dir ((slice * 16384 + set) * 12 + way) with
  | none => s
  | some e => delDir (invalidateHolders s { e with bcast := true } 32) e.line

/-- One finding of a visit; `scrub`: it is the scrub's own, whose corrections count towards a retirement (15 R567) (log 129, DESIGN CHOICE). -/
def cacheFind (s : Dev) (a : CacheArray) (set : Nat) (scrub : Bool) (f : CacheFind) : Dev :=
  let src := arraySource a
  match f with
  | .corrected way n =>
    let s1 := logLimited s INFO src.1 src.2 0x0F30 []
    match arrayCache a with
    | some cid => if scrub then noteFixes s1 cid way.val n else s1
    | none => s1
  | .uncorrected way word =>
    match a with
    | .prefetch j => setPrefetched s j.val ((prefetched s j.val).eraseIdx way.val)
    | .evict c =>
      match (evicted s c.val)[way.val]? with
      | some x => if x.dirty then logLimited (setPoison s (8 * x.line + word.val) true) WARNING SB_CL c.val 0x0F31 [8 * (8 * x.line + word.val)] else s
      | none => s
    | .dir ch => dirLost s ch.val set way.val
    | _ => match arrayCache a with | some cid => uncorrectedIn s cid set way.val word.val | none => s
  | .tagLost way =>
    match a with
    | .prefetch j => setPrefetched s j.val ((prefetched s j.val).eraseIdx way.val)
    | .evict c =>
      match (evicted s c.val)[way.val]? with
      | some x =>
        let s1 := dirLeave (setEvicted s c.val ((evicted s c.val).eraseIdx way.val)) c.val x.line
        if x.dirty then logRec (restoreBack s1 x) ALERT SB_CL c.val 0x0D01 [c.val, 9, set, way.val] else s1
      | none => s
    | .dir ch => dirLost s ch.val set way.val
    | _ => match arrayCache a with | some cid => tagLostIn s cid set way.val | none => s

/-- Domain of an array. -/
def arrayDomain (a : CacheArray) : Nat := match a with | .dir ch => 48 + ch.val / 2 | _ => (arraySource a).2

/-- CACHE_SCRUB (15 R571): the next set of an array is visited. A finding that names a set is one that a read of that set has met since the last visit (13 R500, R501) (log 129, DESIGN CHOICE) (log 55, DESIGN CHOICE). -/
def cacheScrub (s : Dev) (a : CacheArray) (l : List (Option (Fin 16384) × CacheFind)) : Dev :=
  if !(domOn s (arrayDomain a)) then s
  else
    let set := mget (fun _ => 0) s.cache.cscrub (arrayNum a)
    let s1 := l.foldl (fun s f => cacheFind s a (match f.1 with | some k => k.val % arraySets a | none => set) f.1.isNone f.2) s
    modCache s1 (fun c => { c with cscrub := mset (fun _ => 0) c.cscrub (arrayNum a) ((set + 1) % arraySets a) })

/-- CACHE_SCRUB (log 129, DESIGN CHOICE). -/
def execCacheScrub (a : CacheArray) (finds : List (Option (Fin 16384) × CacheFind)) (s : State) : Host.Outcome State Fault Refusal :=
  onDev s (fun d => cacheScrub d a finds)

end Sys2Proof.Machine
end

