-- ==== Sys2Proof/Machine/Fdb.lean ====
section
/-! DEFINITION. Fdb: the SW tables and the forwarding database (05 R181 to R186). -/
namespace Sys2Proof.Machine

/-! ## SW tables (R181) -/

def swKey (t i d : Nat) : Nat := (t * 131072 + i) * 4 + d
def swWord (s : Dev) (t i d : Nat) : Word := mget (fun _ => 0) s.erg.tbl (swKey t i d)
def modErg (s : Dev) (f : ErgSt → ErgSt) : Dev := { s with erg := f s.erg }
def setSw (s : Dev) (t i d : Nat) (v : Word) : Dev := modErg s (fun x => { x with tbl := mset (fun _ => 0) x.tbl (swKey t i d) v })

/-- Entries of a SW table; VLAN indexes 0 and 4,095 are none (R181, R182). -/
def swInRange (t i : Nat) : Bool :=
  match t with
  | 0 => decide (1 ≤ i) && decide (i ≤ 4094)
  | 1 => decide (i < 131072)
  | 2 | 3 | 5 => decide (i < 16384)
  | 4 => decide (i < 4096)
  | _ => false

/-- Data words a table defines; all four are stored. -/
def swEntry (s : Dev) (t i : Nat) : List Word := (rangeFrom 0 4).map (swWord s t i)
def setSwEntry (s : Dev) (t i : Nat) (l : List Word) : Dev := (l.zipIdx).foldl (fun s e => setSw s t i e.2 e.1) s

/-! ## The forwarding database (R183 to R185) -/

def F_MAC : Nat × Nat := (47, 0)
def F_VID : Nat × Nat := (59, 48)
def F_VALID : Nat × Nat := (60, 60)
def F_STATIC : Nat × Nat := (61, 61)
def F_DEST : Nat × Nat := (8, 0)
def F_MASK : Nat × Nat := (9, 9)
def F_DISCARD : Nat × Nat := (10, 10)

/-- Set of a key: bits 13:0 of the CRC-32C over VID and MAC (R183). -/
def fdbSet (mac vid : Nat) : Nat := crc32c (beBytes 2 (vid % 4096) ++ beBytes 6 mac) % 16384

def fdbValid (s : Dev) (i : Nat) : Bool := bitsOf (swWord s 1 i 0) F_VALID == 1

/-- Index of the valid entry of a key. -/
def fdbFind (s : Dev) (mac vid : Nat) : Option Nat :=
  (rangeFrom (8 * fdbSet mac vid) 8).find? (fun i =>
    fdbValid s i && bitsOf (swWord s 1 i 0) F_MAC == mac && bitsOf (swWord s 1 i 0) F_VID == vid)

/-- A free way of a key's set. -/
def fdbFree (s : Dev) (mac vid : Nat) : Option Nat := (rangeFrom (8 * fdbSet mac vid) 8).find? (fun i => !(fdbValid s i))

/-- ENTRIES follows the VALID bits. -/
def fdbCount (s : Dev) (was now : Bool) : Dev :=
  if was = now then s
  else
    let n := fget s SW_FDB_STAT SW_FDB_STAT_ENTRIES
    fset s SW_FDB_STAT SW_FDB_STAT_ENTRIES (if now then n + 1 else n - 1)

/-- An FDB entry is written; its age starts. -/
def setFdb (s : Dev) (i : Nat) (l : List Word) : Dev :=
  let was := fdbValid s i
  let s1 := setSwEntry s 1 i l
  let s2 := modErg s1 (fun x => { x with seen := mput x.seen i (nowNs s) })
  fdbCount s2 was (fdbValid s2 i)

/-- An FDB entry is removed. -/
def clearFdb (s : Dev) (i : Nat) : Dev :=
  let was := fdbValid s i
  let s1 := modErg (setSwEntry s 1 i [0, 0, 0, 0]) (fun x => { x with seen := mdel x.seen i })
  fdbCount s1 was false

/-- The words of an entry that sends a key to one destination. -/
def fdbWords (mac vid dest : Nat) (static : Bool) : List Word :=
  [BitVec.ofNat 64 (mac + vid * 2 ^ 48 + 2 ^ 60 + b2n static * 2 ^ 61), BitVec.ofNat 64 dest, 0, 0]

/-- Learning of a source address at destination code `dest` (R183). A dynamic entry with MASK or DISCARD set becomes a plain DEST entry when its address is seen as a source, on whichever port (log 150, DESIGN CHOICE). -/
def fdbLearn (s : Dev) (mac vid dest : Nat) : Dev :=
  match fdbFind s mac vid with
  | some i =>
    if bitsOf (swWord s 1 i 0) F_STATIC = 1 then s
    else if bitsOf (swWord s 1 i 1) F_DEST = dest ∧ bitsOf (swWord s 1 i 1) F_MASK = 0 ∧ bitsOf (swWord s 1 i 1) F_DISCARD = 0 then
      modErg s (fun x => { x with seen := mput x.seen i (nowNs s) })
    else setFdb s i (fdbWords mac vid dest false)
  | none =>
    match fdbFree s mac vid with
    | some i => countErg (setFdb s i (fdbWords mac vid dest false)) 0x05
    | none => logLimited (fincSat s SW_FDB_STAT SW_FDB_STAT_LEARN_FAIL 1) WARNING SB_SW 0xFF 0x0503 []

/-- FDB_AGEING (R185): the dynamic entry is removed once its address is unseen for SECONDS. -/
def fdbAge (s : Dev) (i : Nat) : Dev :=
  let sec := fget s SW_AGEING SW_AGEING_SECONDS
  if fdbValid s i && bitsOf (swWord s 1 i 0) F_STATIC == 0 && decide (0 < sec) then
    clearFdb (advanceTo s (mget (fun _ => 0) s.erg.seen i + sec * 10 ^ 9)) i
  else s

/-- Every valid entry, by index. -/
def fdbEntries (s : Dev) : List Nat :=
  s.erg.tbl.filterMap (fun e => if e.1 % 4 = 0 ∧ e.1 / 4 / 131072 = 1 ∧ bitsOf e.2 F_VALID = 1 then some (e.1 / 4 % 131072) else none)

/-- The dynamic entries of a port are removed (R209). -/
def fdbFlushPort (s : Dev) (p : Nat) : Dev :=
  (fdbEntries s).foldl (fun s i =>
    if bitsOf (swWord s 1 i 0) F_STATIC = 0 ∧ bitsOf (swWord s 1 i 1) F_MASK = 0 ∧ bitsOf (swWord s 1 i 1) F_DEST = p then clearFdb s i else s) s

/-! ## Table access (SW_TBL_INDEX) -/

/-- OP and TABLE of an access to the SW tables, which the write with GO stores. -/
def swOpSet (s : Dev) (op t : Nat) : Dev := fset (fset s SW_TBL_INDEX SW_TBL_INDEX_OP op) SW_TBL_INDEX SW_TBL_INDEX_TABLE t

def swIndexSet (s : Dev) (op t i : Nat) : Dev := fset (swOpSet s op t) SW_TBL_INDEX SW_TBL_INDEX_INDEX i

def swData (s : Dev) : List Word := (rangeFrom 0 4).map (fun d => reg s (SW_TBL_DATA d))
def setSwData (s : Dev) (l : List Word) : Dev := (l.zipIdx).foldl (fun s e => setReg s (SW_TBL_DATA e.2) e.1) s

/-- OP 0b00 (R181). -/
def swTblRead (s : Dev) (t i : Nat) : Dev :=
  let s1 := swIndexSet s 0 t i
  if swInRange t i then setSwData s1 (swEntry s1 t i) else fset s1 SW_ERR SW_ERR_TBL_RANGE 1

/-- Whether another enabled entry of table 2 has the same KIND, MAC and VID (R186). -/
def dupStream (s : Dev) (i : Nat) (v : Word) : Bool :=
  bitsOf v (60, 60) == 1 &&
    s.erg.tbl.any (fun e => e.1 % 4 == 0 && e.1 / 4 / 131072 == 2 && e.1 / 4 % 131072 != i && bitsOf e.2 (60, 60) == 1 &&
      bitsOf e.2 (61, 61) == bitsOf v (61, 61) && bitsOf e.2 (59, 0) == bitsOf v (59, 0))

/-- Table entry written, by Oasis or through OP 0b01 (R181, R186). -/
def swPut (s : Dev) (t i : Nat) (l : List Word) : Dev :=
  if !(swInRange t i) then fset s SW_ERR SW_ERR_TBL_RANGE 1
  else if t = 2 ∧ dupStream s i (l.getD 0 0) then fset s SW_ERR SW_ERR_DUP_KEY 1
  else if t = 1 then setFdb s i l
  else setSwEntry s t i l

/-- OP 0b01. -/
def swTblWrite (s : Dev) (t i : Nat) : Dev := swPut (swIndexSet s 1 t i) t i (swData s)

/-- OP 0b10 on table 1: insert by key; the entry is written VALID (R181). -/
def fdbInsertOp (s : Dev) : Dev :=
  let l := swData s
  let w0 := l.getD 0 0
  let mac := bitsOf w0 F_MAC
  let vid := bitsOf w0 F_VID
  let s1 := swOpSet s 2 1
  let slot := match fdbFind s mac vid with | some i => some i | none => fdbFree s mac vid
  match slot with
  | some i => fset (setFdb s1 i (putBits w0 F_VALID 1 :: l.drop 1)) SW_TBL_INDEX SW_TBL_INDEX_INDEX i
  | none => fset s1 SW_ERR SW_ERR_FDB_SET_FULL 1

/-- OP 0b11 on table 1: delete by key. -/
def fdbDeleteOp (s : Dev) : Dev :=
  let w0 := (swData s).getD 0 0
  let s1 := swOpSet s 3 1
  match fdbFind s (bitsOf w0 F_MAC) (bitsOf w0 F_VID) with
  | some i => clearFdb s1 i
  | none => fset s1 SW_ERR SW_ERR_NOT_FOUND 1

end Sys2Proof.Machine
end

