-- ==== Sys2Proof/Machine/Mailbox.lean ====
section
/-! DEFINITION. Mailbox: the mailboxes between Oasis and its clients (06 R243 to R247, 14 R523, R536 to R540). -/
namespace Sys2Proof.Machine

/-- Number of a mailbox: instances 0 to 255, partitions 256 + p, the debug mailbox 272. -/
def mboxNum : Mailbox → Nat
  | .inst i => i.val
  | .part p => 256 + p.val
  | .debug => 272

/-- The control register of a mailbox; the debug mailbox's flags stand in a copy of their own of MGR_MBOX_CTRL (14 R523, R536). -/
def mboxCtrl (m : Nat) : Nat := if m < 256 then PI_MBOX_CTRL m else bankedReg MGR_MBOX_CTRL (m - 256)

def mbox (s : Dev) (m : Nat) : MboxSt := mget (fun _ => {}) s.mbox m
def setMbox (s : Dev) (m : Nat) (x : MboxSt) : Dev := { s with mbox := mset (fun _ => {}) s.mbox m x }

/-- A dropped mailbox write sets MBOX_BUSY of its block (06 R244, 14 MGR_ERR). -/
def mboxBusyErr (s : Dev) (m : Nat) : Dev :=
  if m < 256 then fset s (PI_ERR m) PI_ERR_MBOX_BUSY 1
  else if m < 272 then fset s MGR_ERR MGR_ERR_MBOX_BUSY 1
  else s

/-- Command code, SEQ and an argument word of the outbound mailbox (06 R243). -/
def mboxCode (s : Dev) (m : Nat) : Nat := bitsOf ((mbox s m).out.getD 0 0) (15, 0)
def mboxSeq (s : Dev) (m : Nat) : Nat := bitsOf ((mbox s m).out.getD 0 0) (23, 16)
def mboxArg (s : Dev) (m i : Nat) : Word := (mbox s m).out.getD i 0

/-- Whether Oasis firmware is restarting (14 R540). -/
def restarting (s : Dev) : Bool := fget s MGR_INFO MGR_INFO_STATE == 1

/-- A response is ready to be placed inbound: status, SEQ echoed, number of words (06 R243). -/
def respond (s : Dev) (m status : Nat) (ws : List Word) : Dev :=
  let h : Word := BitVec.ofNat 64 (status + mboxSeq s m * 2 ^ 16 + ws.length * 2 ^ 24)
  setMbox s m { mbox s m with posted := false, resp := some (h :: ws) }

/-- A BUSY response of a restart is counted for its phase (15 R581). -/
def noteBusy (s : Dev) (m : Nat) : Dev :=
  { s with oasis := { s.oasis with busy := mset (fun _ => 0) s.oasis.busy m (mget (fun _ => 0) s.oasis.busy m + 1) } }

/-- Commands each mailbox accepts (06 R247, 14 R523, R538). -/
def mboxKnows (m code : Nat) : Bool :=
  if m < 256 then (decide (0x0001 ≤ code) && decide (code ≤ 0x0007)) || (decide (0x0101 ≤ code) && decide (code ≤ 0x0105))
  else if m < 272 then
    (decide (0x0101 ≤ code) && decide (code ≤ 0x0105)) || (decide (0x0201 ≤ code) && decide (code ≤ 0x0207)) ||
      (decide (0x0210 ≤ code) && decide (code ≤ 0x0214)) || code == 0x0220 || code == 0x0221
  else code == 0x0220 || code == 0x0221 || code == 0x0230

/-- SEND (06 R244, R246): the outbound mailbox is posted, or the write is dropped while OUT_BUSY; a restarting Oasis answers BUSY. With a CFG_APPLY posted, the image of an earlier one is no longer committed (14 R529). -/
def mboxSend (s : Dev) (m : Nat) : Dev :=
  if fbit s (mboxCtrl m) PI_MBOX_CTRL_OUT_BUSY then mboxBusyErr s m
  else
    let x := mbox s m
    let s0 := if mboxCode s m = 0x0210 ∧ mboxKnows m 0x0210 then { s with oasis := { s.oasis with staged := none } } else s
    let s1 := fset (setMbox s0 m { x with posted := true, before := x.notes.length }) (mboxCtrl m) PI_MBOX_CTRL_OUT_BUSY 1
    if restarting s then respond (noteBusy s1 m) m ST_BUSY [] else s1

/-- A notice is queued for a client: code, KIND 1, SEQ 0 (06 R243, R245). Oasis holds at most 8 (log 36, DEDUCED). -/
def notify (s : Dev) (m code : Nat) (ws : List Word) : Dev :=
  let x := mbox s m
  if x.notes.length < 8 then
    let h : Word := BitVec.ofNat 64 (code + ws.length * 2 ^ 24 + 2 ^ 31)
    fset (setMbox s m { x with notes := x.notes ++ [h :: ws] }) (mboxCtrl m) PI_MBOX_CTRL_NOTE_QUEUED (x.notes.length + 1)
  else s

/-- A message stands in the inbound mailbox: IN_FULL, and the mailbox source if enabled (06 R245, 14 R536) (log 36, DEDUCED). -/
def placeInbound (s : Dev) (m : Nat) (ws : List Word) : Dev :=
  let s1 := fset (setMbox s m { mbox s m with inp := ws ++ List.replicate (16 - ws.length) 0 }) (mboxCtrl m) PI_MBOX_CTRL_IN_FULL 1
  if m < 256 then (if fbit s (PI_CTRL m) PI_CTRL_MB_IRQ_EN then raise s1 (0x0C01 + 2 * m) else s1)
  else if m < 272 then raise s1 (0xE40 + (m - 256))
  else s1

/-- MAILBOX_RESPONSE (06 R245): Oasis places its next message; a command it does not know is answered NOT_SUPPORTED (06 R247) (log 36, DEDUCED). -/
def mboxPlace (s : Dev) (m : Nat) : Dev :=
  if fbit s (mboxCtrl m) PI_MBOX_CTRL_IN_FULL || s.pwr.held != 0 || s.oasis.fw.isNone then s
  else
    let s := if (mbox s m).posted && !(mboxKnows m (mboxCode s m)) then respond s m ST_NOT_SUPPORTED [] else s
    let x := mbox s m
    match x.resp, x.notes with
    | some r, n :: rest =>
      if 0 < x.before then
        placeInbound (fset (setMbox s m { x with notes := rest, before := x.before - 1 }) (mboxCtrl m) PI_MBOX_CTRL_NOTE_QUEUED rest.length) m n
      else placeInbound (fset (setMbox s m { x with resp := none }) (mboxCtrl m) PI_MBOX_CTRL_OUT_BUSY 0) m r
    | some r, [] => placeInbound (fset (setMbox s m { x with resp := none }) (mboxCtrl m) PI_MBOX_CTRL_OUT_BUSY 0) m r
    | none, n :: rest =>
      -- one that was queued after a command was posted waits for its response
      if fbit s (mboxCtrl m) PI_MBOX_CTRL_OUT_BUSY && x.before == 0 then s
      else placeInbound (fset (setMbox s m { x with notes := rest, before := x.before - 1 }) (mboxCtrl m) PI_MBOX_CTRL_NOTE_QUEUED rest.length) m n
    | none, [] => s

/-- IN_ACK (06 R245). -/
def mboxAck (s : Dev) (m : Nat) : Dev := fset s (mboxCtrl m) PI_MBOX_CTRL_IN_FULL 0

/-- A read of the data register: word INDEX of the mailbox DIR selects; INDEX advances (21 R698). -/
def mboxRead (s : Dev) (m : Nat) : Dev :=
  let i := fget s (mboxCtrl m) PI_MBOX_CTRL_INDEX
  let w := if fbit s (mboxCtrl m) PI_MBOX_CTRL_DIR then (mbox s m).inp.getD i 0 else (mbox s m).out.getD i 0
  { fset s (mboxCtrl m) PI_MBOX_CTRL_INDEX ((i + 1) % 16) with readData := w }

/-- A write of the data register: dropped while OUT_BUSY or for an inbound word (06 R244, PI_MBOX_DATA); INDEX advances. -/
def mboxWrite (s : Dev) (m : Nat) (v : Word) : Dev :=
  let i := fget s (mboxCtrl m) PI_MBOX_CTRL_INDEX
  let s1 := fset s (mboxCtrl m) PI_MBOX_CTRL_INDEX ((i + 1) % 16)
  if fbit s (mboxCtrl m) PI_MBOX_CTRL_DIR || fbit s (mboxCtrl m) PI_MBOX_CTRL_OUT_BUSY then mboxBusyErr s1 m
  else setMbox s1 m { mbox s1 m with out := listSet (mbox s1 m).out i v }

/-- A posted command of a code is taken up by Oasis and carried out; without one, nothing happens. -/
def mboxRun (s : Dev) (m code : Nat) (f : Dev → Dev) : Dev :=
  if (mbox s m).posted && mboxCode s m == code && mboxKnows m code && !(restarting s) && s.pwr.held == 0 && s.oasis.fw.isSome then f (setMbox s m { mbox s m with posted := false })
  else s

/-- Both mailboxes are cleared (06 R240). -/
def mboxClear (s : Dev) (m : Nat) : Dev :=
  fset (fset (fset (setMbox s m {}) (mboxCtrl m) PI_MBOX_CTRL_OUT_BUSY 0) (mboxCtrl m) PI_MBOX_CTRL_IN_FULL 0) (mboxCtrl m) PI_MBOX_CTRL_NOTE_QUEUED 0

end Sys2Proof.Machine
end

