-- ==== Sys2Proof/Machine/Inst.lean ====
section
/-! DEFINITION. Inst: port instances: queue pairs, descriptors, completions, doorbells, receive delivery, resets and changes (06). -/
namespace Sys2Proof.Machine

/-- Instance states (R249). -/
def PI_FREE : Nat := 0
def PI_ACTIVE : Nat := 1
def PI_NOTICE : Nat := 2
def PI_RESETTING : Nat := 3

def inst (s : Dev) (i : Nat) : InstSt := mget (fun _ => {}) s.inst i
def setInst (s : Dev) (i : Nat) (x : InstSt) : Dev := { s with inst := mset (fun _ => {}) s.inst i x }
def modInst (s : Dev) (i : Nat) (f : InstSt → InstSt) : Dev := setInst s i (f (inst s i))
def piState (s : Dev) (i : Nat) : Nat := fget s (PI_CTRL i) PI_CTRL_STATE
def setPiState (s : Dev) (i v : Nat) : Dev := fset s (PI_CTRL i) PI_CTRL_STATE v
def piGen (s : Dev) (i : Nat) : Nat := fget s (PI_CTRL i) PI_CTRL_GEN
def qpCount (s : Dev) (i : Nat) : Nat := fget s (PI_CTRL i) PI_CTRL_QP_COUNT

/-- One direction of a queue pair: 0 receive, 1 transmit. -/
def qdir (s : Dev) (i q d : Nat) : QDir := mget (fun _ => {}) (inst s i).qs (2 * q + d)
def setQdir (s : Dev) (i q d : Nat) (x : QDir) : Dev := modInst s i (fun y => { y with qs := mset (fun _ => {}) y.qs (2 * q + d) x })

/-- Requests in flight, as PI_STATUS shows them. -/
def setReqs (s : Dev) (i : Nat) (l : List PiReq) : Dev := fset (modInst s i (fun x => { x with reqs := l })) (PI_STATUS i) PI_STATUS_OUTSTANDING (sat 4095 l.length)

/-! ## Rings (R226 to R233) -/

def ringSize (d : QDir) : Nat := 2 ^ (6 + d.log)
def slotAddr (d : QDir) (idx : Nat) : Nat := d.base + 16 * (idx % ringSize d)

/-- A queue direction is stopped (R231). -/
def stopQueue (s : Dev) (i q d code : Nat) : Dev :=
  let s1 := setQdir s i q d { qdir s i q d with state := 2, err := code }
  logLimited (fset s1 (PI_ERR i) PI_ERR_QP_STOPPED 1) NOTICE SB_PI i 0x0602 []

/-- A descriptor as the engine reads it. -/
structure Desc where
  w0 : Word
  w1 : Word
  /-- the read met poison (02 R66): what it returned is open, and so free values (log 133, DESIGN CHOICE) -/
  poisoned : Bool := false
deriving DecidableEq, Repr

/-- The descriptor of a slot; `none` when the ring address is refused (R220, R231) (log 133, DESIGN CHOICE). -/
def readDesc (s : Dev) (i q d idx : Nat) : Option Desc × Dev :=
  match ioRange s (inst s i).part (slotAddr (qdir s i q d) idx) 16 false with
  | (some l, s1) =>
    let r := ioReadParts s1 (24 + d) l
    if partsPoisoned s1 l then
      let a := drawFree r.2
      let b := drawFree a.2
      (some ⟨a.1, b.1, true⟩, b.2)
    else (some ⟨BitVec.ofNat 64 (leNat (r.1.take 8)), BitVec.ofNat 64 (leNat (r.1.drop 8)), false⟩, r.2)
  | (none, s1) => (none, s1)

/-- Word 1 of a completion (R227); it carries the generation current at issue (R238) (log 134, DEDUCED). -/
def completionWord (gen : Nat) (desc1 : Word) (status len port : Nat) (kept : Bool) : Word :=
  BitVec.ofNat 64 (gen % 256 + status * 2 ^ 8 + bitsOf desc1 (31, 16) * 2 ^ 16 + len % 2 ^ 14 * 2 ^ 32 + port * 2 ^ 46 +
    b2n kept * 2 ^ 53 + 2 ^ 63)

def stashOf (d : QDir) : Option Nat := if d.stash = 31 then none else some d.stash

/-- A completion overwrites its descriptor, and HEAD moves on; an interrupt follows where enabled (R227, R228, R237). -/
def complete (s : Dev) (i q d : Nat) (time : Nat) (w1 : Word) : Dev :=
  let x := qdir s i q d
  match ioRange s (inst s i).part (slotAddr x x.head) 16 true with
  | (some l, s1) =>
    let s2 := ioWriteParts s1 (24 + d) (inst s i).part (stashOf x) l (leBytes 8 time ++ leBytes 8 w1.toNat)
    let s3 := setQdir s2 i q d { qdir s2 i q d with head := (x.head + 1) % 65536 }
    if x.irq && fbit s3 (PI_CTRL i) PI_CTRL_CQ_IRQ_EN then raise s3 (0x0C00 + 2 * i) else s3
  | (none, s1) => stopQueue s1 i q d 2

/-- What an access to the head slot of a direction waits for: Erg receive is source 24 and Erg transmit source 25 (01 R15, 13 R479). -/
def slotWaits (s : Dev) (i q d : Nat) : List Nat :=
  let x := qdir s i q d
  if !(x.en) || x.state != 1 || x.early || x.head == x.tail then []
  else
    match (ioRange s (inst s i).part (slotAddr x x.head) 16 false).1 with
    | some l => partsWait s (24 + d) l
    | none => []

/-- The same with the buffer of `len` bytes that a descriptor names. -/
def bufferWaits (s : Dev) (i d : Nat) (w0 : Word) (len : Nat) : List Nat :=
  match (ioRange s (inst s i).part (bitsOf w0 (45, 0)) len (d == 0)).1 with
  | some l => partsWait s (24 + d) l
  | none => []

/-- What the engine finds at the head of a direction (R231, R232). -/
inductive HeadDesc where
  | none
  | desc (w0 w1 : Word)
  /-- a transmit descriptor whose read met poison (02 R66) -/
  | bad (w0 w1 : Word)
deriving DecidableEq, Repr

/-- The next descriptor of a direction is read: stale or refused, the queue stops; DONE, it waits for a doorbell (R231, R232) (log 133, DESIGN CHOICE). -/
def nextDesc (s : Dev) (i q d : Nat) : HeadDesc × Dev :=
  let x := qdir s i q d
  if !(x.en) || x.state != 1 || x.early || x.head == x.tail then (.none, s)
  else
    match readDesc s i q d x.head with
    | (none, s1) => (.none, stopQueue s1 i q d 2)
    | (some ⟨w0, w1, bad⟩, s1) =>
      if bad && d == 1 then (.bad w0 w1, s1)
      else if bitsOf w1 (63, 63) = 1 then (.none, fincSat (setQdir s1 i q d { x with early := true }) (PI_STATUS i) PI_STATUS_DB_EARLY 1)
      else if bitsOf w1 (7, 0) ≠ piGen s i then (.none, stopQueue s1 i q d 1)
      else (.desc w0 w1, s1)

/-- EN of a direction goes to 0: every descriptor between HEAD and TAIL completes with ABORTED (R233); LEN is that of a transmit descriptor, and 0 where no frame has come (log 134, DEDUCED). -/
def abortAll (i q d : Nat) : Nat → Dev → Dev
  | 0, s => s
  | fuel + 1, s =>
    let x := qdir s i q d
    if x.head = x.tail then s
    else
      match readDesc s i q d x.head with
      | (none, s1) => s1
      | (some e, s1) =>
        let s2 := complete s1 i q d (nowNs s1) (completionWord (piGen s1 i) e.w1 0x05 (if d = 1 then bitsOf e.w0 (59, 46) else 0) 0 false)
        if (qdir s2 i q d).head = x.head then s2 else abortAll i q d fuel s2

/-- EN of a direction is 0 (R233): HEAD and TAIL are 0. -/
def disableQueue (s : Dev) (i q d : Nat) : Dev :=
  let s1 := abortAll i q d 65536 s
  setQdir s1 i q d { qdir s1 i q d with en := false, state := 0, err := 0, head := 0, tail := 0, early := false, closing := none }

/-! ## Receive delivery (R225, R230) -/

/-- A frame that finds no place is counted (R230) (log 40, DEDUCED). -/
def rxDrop (s : Dev) (i : Nat) : Dev := fincSat s (PI_STATUS i) PI_STATUS_RX_DROP 1

/-- The frame as the tenant gets it: without its tag when its VID is the PVID, with one otherwise (R225); the tag of a yellow frame has DEI set (05 R188). `bytes` are DA to the last byte before FCS. -/
def tenantFrame (bytes : List Byte) (tagged : Bool) (vid prio pvid : Nat) (yellow : Bool) : List Byte × Bool :=
  if vid = pvid then (if tagged then bytes.take 12 ++ bytes.drop 16 else bytes, false)
  else if tagged then (if yellow then bytes.take 14 ++ [bytes.getD 14 0 ||| 0x10] ++ bytes.drop 15 else bytes, true)
  else (bytes.take 12 ++ beBytes 2 0x8100 ++ beBytes 2 (prio * 8192 + b2n yellow * 4096 + vid) ++ bytes.drop 12, true)

/-- Receive queue of a frame (R225) (log 31, DEDUCED). -/
def steerOf (s : Dev) (i : Nat) (bytes : List Byte) (vid : Nat) : Nat :=
  (inst s i).steer.getD (crc32c (bytes.take 12 ++ beBytes 2 vid) % 64) 0

/-- A frame is delivered to an instance, or dropped (R225, R230 to R232) (log 40, DEDUCED). -/
def rxDeliver (s : Dev) (i port first : Nat) (bytes : List Byte) (tagged : Bool) (vid prio : Nat) (yellow : Bool) : Dev :=
  let s := countErg s 0x08
  if piState s i = PI_FREE ∨ piState s i = PI_RESETTING then s
  else
    let f := tenantFrame bytes tagged vid prio (inst s i).pvid yellow
    let q := steerOf s i bytes vid
    match nextDesc s i q 0 with
    | (.none, s1) => rxDrop s1 i
    | (.bad _ _, s1) => rxDrop s1 i
    | (.desc w0 w1, s1) =>
      let len := f.1.length
      if bitsOf w0 (59, 46) < len then fset (rxDrop s1 i) (PI_ERR i) PI_ERR_RX_TOO_LONG 1
      else
        match ioRange s1 (inst s i).part (bitsOf w0 (45, 0)) len true with
        | (none, s2) => complete s2 i q 0 first (completionWord (piGen s2 i) w1 0x04 len port f.2)
        | (some l, s2) =>
          complete (ioWriteParts s2 24 (inst s i).part (stashOf (qdir s i q 0)) l f.1) i q 0 first (completionWord (piGen s2 i) w1 0x00 len port f.2)

/-- What the delivery of a frame to an instance waits for (01 R15). -/
def rxWaits (s : Dev) (i : Nat) (bytes : List Byte) (tagged : Bool) (vid prio : Nat) (yellow : Bool) : List Nat :=
  if piState s i = PI_FREE ∨ piState s i = PI_RESETTING then []
  else
    let f := tenantFrame bytes tagged vid prio (inst s i).pvid yellow
    let q := steerOf s i bytes vid
    match slotWaits s i q 0 with
    | [] =>
      match (nextDesc s i q 0).1 with
      | .desc w0 _ => if bitsOf w0 (59, 46) < f.1.length then [] else bufferWaits s i 0 w0 f.1.length
      | _ => []
    | l => l

/-! ## Doorbells and queue-pair access (R234, R236, R252) -/

/-- DOORBELL (R234). -/
def doorbell (s : Dev) (i : Nat) (v : Word) : Dev :=
  if bitsOf v (39, 32) ≠ piGen s i then fincSat s (PI_ERR i) PI_ERR_STALE_DB 1
  else
    let q := bitsOf v (9, 0)
    let d := bitsOf v (10, 10)
    let x := qdir s i q d
    let tail := bitsOf v (31, 16)
    if qpCount s i ≤ q ∨ ringSize x < (tail + 65536 - x.head) % 65536 then fset s (PI_ERR i) PI_ERR_DB_RANGE 1
    else setQdir s i q d { x with tail := tail, early := false }

/-- Word of a queue-pair entry (PI_QP_DATA). -/
def qpWord (s : Dev) (i q w : Nat) : Word :=
  let r := qdir s i q 0
  let t := qdir s i q 1
  let cfg (x : QDir) : Nat := x.base % 2 ^ 46 + x.log % 16 * 2 ^ 46 + x.stash % 32 * 2 ^ 50 + b2n x.en * 2 ^ 55 + b2n x.irq * 2 ^ 56
  match w with
  | 0 => BitVec.ofNat 64 (cfg r)
  | 1 => BitVec.ofNat 64 (cfg t)
  | 2 => BitVec.ofNat 64 (r.head + r.tail * 2 ^ 16 + t.head * 2 ^ 32 + t.tail * 2 ^ 48)
  | _ => BitVec.ofNat 64 (r.state + t.state * 4 + r.err * 2 ^ 8 + t.err * 2 ^ 12)

/-- Whether a STASH value names a cluster of the owning partition, or 31 (R236). -/
def stashNamed (s : Dev) (i v : Nat) : Bool :=
  v == 31 || (decide (v < 24) && (coresOf v).any (fun j => corePart s j == (inst s i).part && coreMode s j != 3 && coreMode s j != 5))

/-- A word of a queue-pair entry is written (R233, R236, R252); a BASE or LOG that R226 does not allow is dropped (log 86, DEDUCED). -/
def qpPut (s : Dev) (i q w : Nat) (v : Word) : Dev :=
  if 2 ≤ w then fset s (PI_ERR i) PI_ERR_QP_BUSY 1
  else
    let x := qdir s i q w
    let base := if bitsOf v (45, 0) % 64 = 0 then bitsOf v (45, 0) else x.base
    let log := if bitsOf v (49, 46) ≤ 9 then bitsOf v (49, 46) else x.log
    let stash := bitsOf v (54, 50)
    let en := bitsOf v (55, 55) == 1
    let irq := bitsOf v (56, 56) == 1
    if x.en && (base != x.base || log != x.log || stash != x.stash) then fset s (PI_ERR i) PI_ERR_QP_BUSY 1
    else
      let okStash := stashNamed s i stash
      let s1 := if okStash then s else fset s (PI_ERR i) PI_ERR_BAD_ARG 1
      let set (s : Dev) : Dev :=
        setQdir s i q w { qdir s i q w with base := base, log := log, irq := irq, stash := if okStash then stash else x.stash }
      if !en then set (disableQueue s1 i q w)
      else if x.en then set s1
      else
        let s2 := set s1
        setQdir s2 i q w { qdir s2 i q w with en := true, state := 1, err := 0 }

def qpIndexSet (s : Dev) (i q w wr : Nat) : Dev :=
  fset (fset (fset s (PI_QP_INDEX i) PI_QP_INDEX_QP q) (PI_QP_INDEX i) PI_QP_INDEX_WORD w) (PI_QP_INDEX i) PI_QP_INDEX_WRITE wr

/-- PI_QP_INDEX with GO (R252). -/
def qpRead (s : Dev) (i q w : Nat) : Dev :=
  let s1 := qpIndexSet s i q w 0
  if qpCount s i ≤ q then fset s1 (PI_ERR i) PI_ERR_DB_RANGE 1 else setReg s1 (PI_QP_DATA i) (qpWord s1 i q w)

def qpWrite (s : Dev) (i q w : Nat) : Dev :=
  let s1 := qpIndexSet s i q w 1
  if qpCount s i ≤ q then fset s1 (PI_ERR i) PI_ERR_DB_RANGE 1 else qpPut s1 i q w (reg s1 (PI_QP_DATA i))

/-! ## The instance's addresses in the FDB (R222) -/

/-- Entries of an address in every VLAN given; `none` when a set is full or another destination holds it static (R247). -/
def installMac (s : Dev) (i mac : Nat) : List Nat → Option Dev
  | [] => some s
  | v :: vs =>
    match fdbFind s mac v with
    | some k =>
      if bitsOf (swWord s 1 k 0) F_STATIC = 1 ∧ bitsOf (swWord s 1 k 1) F_DEST ≠ 0x100 + i then none
      else installMac (setFdb s k (fdbWords mac v (0x100 + i) true)) i mac vs
    | none =>
      match fdbFree s mac v with
      | some k => installMac (setFdb s k (fdbWords mac v (0x100 + i) true)) i mac vs
      | none => none

/-- Entries of an address are removed from the VLANs given. -/
def removeMac (s : Dev) (i mac : Nat) (vs : List Nat) : Dev :=
  vs.foldl (fun s v =>
    match fdbFind s mac v with
    | some k => if bitsOf (swWord s 1 k 1) F_DEST = 0x100 + i then clearFdb s k else s
    | none => s) s

/-! ## Resets and changes (R238 to R251) -/

/-- Generation that no request may carry before the reset completes (R240). -/
def oldestGen (g : Nat) : Nat := (g + 129) % 256

def resetBlocked (s : Dev) (i : Nat) : Bool := (inst s i).reqs.any (fun r => r.gen == oldestGen (piGen s i))

/-- R240 starts: fetching stops (INSTANCE_RESET). -/
def instResetStart (s : Dev) (i : Nat) : Dev :=
  let s1 := setPiState (modInst s i (fun x => { x with resetReq := false, resetAt := nowNs s, warned := false })) i PI_RESETTING
  fset s1 (PI_STATUS i) PI_STATUS_RESET_WAIT (b2n (resetBlocked s1 i))

/-- Queue pairs an instance holds, or will hold once an accepted resize is applied (R218, R250). -/
def qpClaimed (s : Dev) (i : Nat) : Nat :=
  match (inst s i).change with
  | some c => if c.code = 0x8001 then max (qpCount s i) c.count else qpCount s i
  | none => qpCount s i

/-- Queue pairs of the pool that are not free (R218). -/
def qpUsed (s : Dev) : Nat := ((rangeFrom 0 256).map (qpClaimed s)).sum

/-- The manager of a change is answered (R250). -/
def answerManager (s : Dev) (c : PiChange) : Dev :=
  if fbit s (mboxCtrl c.manager) PI_MBOX_CTRL_OUT_BUSY && (mbox s c.manager).resp.isNone then respond s c.manager ST_OK [] else s

/-- A resize is applied: fewer queue pairs are disabled and their steering entries cleared; more come disabled (R250). -/
def applyResize (s : Dev) (i count : Nat) : Dev :=
  let old := qpCount s i
  let s1 := if count < old then
      (rangeFrom count (old - count)).foldl (fun s q => disableQueue (disableQueue s i q 0) i q 1) s
    else s
  let s2 := modInst s1 i (fun x => { x with
    qs := x.qs.filter (fun e => decide (e.1 / 2 < count)),
    steer := x.steer.map (fun q => if q < count then q else 0) })
  fset s2 (PI_CTRL i) PI_CTRL_QP_COUNT count

/-- A policy change is applied: VIDs no longer permitted leave the list with their FDB entries (R250). -/
def applyPolicy (s : Dev) (i : Nat) (vids : List Nat) : Dev :=
  let x := inst s i
  let gone := x.vlans.filter (fun v => !(vids.contains v))
  let kept := x.vlans.filter (fun v => vids.contains v)
  let s1 := x.macs.foldl (fun s m => removeMac s i m gone) s
  modInst s1 i (fun x => { x with permitted := vids, vlans := kept, pvid := if vids.contains x.pvid then x.pvid else kept.headD 1 })

/-- Every static FDB entry of an instance is deleted (R249). -/
def clearInstFdb (s : Dev) (i : Nat) : Dev :=
  (fdbEntries s).foldl (fun s k =>
    if bitsOf (swWord s 1 k 0) F_STATIC = 1 ∧ bitsOf (swWord s 1 k 1) F_DEST = 0x100 + i ∧ bitsOf (swWord s 1 k 1) F_MASK = 0 then clearFdb s k else s) s

/-- The mapping of an instance's page leaves a partition's stage 2 (R219, 12 R466). -/
def unmapPage (s : Dev) (part pa : Nat) : Dev :=
  tlbDropAll (setPart s part { partSt s part with s2 := (partSt s part).s2.filter (fun m => m.pa != pa) }) part

def piPage (i : Nat) : Nat := 0x3F0002000000 + i * 0x10000

/-- The announced change of an instance is applied, when R240 or an acknowledgement lets it (R249, R250); a removal is left to R240. -/
def applyChange (s : Dev) (i : Nat) : Dev :=
  match (inst s i).change with
  | none => s
  | some c =>
    if c.code = 0x8001 then answerManager (modInst (applyResize s i c.count) i (fun x => { x with change := none })) c
    else if c.code = 0x8002 then answerManager (modInst (applyPolicy s i c.vids) i (fun x => { x with change := none })) c
    else modInst s i (fun x => { x with removing := true, resetReq := true })

/-- Whether a removal that ends with R240 must still wait for the accesses of the instance's partition (R249, 12 R459, R461). -/
def removalWaits (s : Dev) (i : Nat) : Bool :=
  let x := inst s i
  (x.removing || (match x.change with | some c => c.code == 0x8003 | none => false)) && !(partQuiet s x.part (fun _ => true))

/-- R240 ends (INSTANCE_RESET_COMPLETE): the generation moves on, queues are disabled, mailboxes clear, the instance is ACTIVE or FREE (R238, R240, R242, R249). -/
def instResetEnd (s : Dev) (i : Nat) : Dev :=
  if piState s i ≠ PI_RESETTING ∨ resetBlocked s i ∨ removalWaits s i then s
  else
    let x := inst s i
    let s1 := fset (fset s (PI_CTRL i) PI_CTRL_GEN ((piGen s i + 1) % 256)) (PI_STATUS i) PI_STATUS_RESET_WAIT 0
    let s2 := modInst s1 i (fun x => { x with qs := x.qs.map (fun e => (e.1, { e.2 with en := false, head := 0, tail := 0, state := 0, err := 0, early := false, closing := none })) })
    let s2 := fset s2 (PI_QP_INDEX i) PI_QP_INDEX_DONE 1
    let s3 := mboxClear s2 i
    let s4 := match x.tenantReset with
      | some seq =>
        let h : Word := BitVec.ofNat 64 (ST_OK + seq * 2 ^ 16)
        fset (setMbox s3 i { mbox s3 i with resp := some [h] }) (mboxCtrl i) PI_MBOX_CTRL_OUT_BUSY 1
      | none => s3
    let s5 := setPiState (modInst s4 i (fun x => { x with tenantReset := none })) i PI_ACTIVE
    let s6 := applyChange s5 i
    if (inst s6 i).removing then
      let s7 := unmapPage (clearInstFdb s6 i) (inst s6 i).part (piPage i)
      let s8 := match (inst s7 i).change with | some c => answerManager s7 c | none => s7
      let s9 := setInst s8 i { reqs := (inst s8 i).reqs, nextNotice := (inst s8 i).nextNotice }
      setPiState (fset s9 (PI_CTRL i) PI_CTRL_QP_COUNT 0) i PI_FREE
    else s6

/-- RESET_WAIT_TIMEOUT (R241): the first wait lasts over 1 ms. -/
def instResetLate (s : Dev) (i : Nat) : Dev :=
  if piState s i = PI_RESETTING ∧ resetBlocked s i ∧ !(inst s i).warned then
    let s1 := advanceTo s ((inst s i).resetAt + 1000000)
    logRec (modInst s1 i (fun x => { x with warned := true })) WARNING SB_PI i 0x0601 []
  else s

/-- Data returns for the oldest request of a generation that is no longer current (R239). -/
def staleReturn (s : Dev) (i : Nat) : Dev :=
  match (inst s i).reqs.find? (fun r => r.gen != piGen s i) with
  | none => s
  | some r =>
    let s1 := setReqs s i ((inst s i).reqs.erase r)
    fset (fincSat s1 (PI_ERR i) PI_ERR_STALE_CPL 1) (PI_STATUS i) PI_STATUS_RESET_WAIT (b2n (decide (piState s1 i = PI_RESETTING) && resetBlocked s1 i))

end Sys2Proof.Machine
end

