-- ==== Sys2Proof/Machine/Erg.lean ====
section
/-! DEFINITION. Erg: the forwarding pipeline, frame buffer, egress queues, gates and link states (05 R167 to R215). -/
namespace Sys2Proof.Machine

/-! ## Ports -/

def port (s : Dev) (p : Nat) : PortSt := mget (fun _ => {}) s.erg.ports p
def setPort (s : Dev) (p : Nat) (x : PortSt) : Dev := modErg s (fun e => { e with ports := mset (fun _ => {}) e.ports p x })
def modPort (s : Dev) (p : Nat) (f : PortSt → PortSt) : Dev := setPort s p (f (port s p))

/-- Mode of a group: 0 off, 1 Ethernet, 2 and 3 PCIe (R167). -/
def groupMode (s : Dev) (g : Nat) : Nat := fget s SW_GROUP_MODE (SW_GROUP_MODE_GMODE g)
def isEthernet (s : Dev) (p : Nat) : Bool := groupMode s (p / 8) == 1 && domOn s (56 + p / 8)
def linkUp (s : Dev) (p : Nat) : Bool := isEthernet s p && fbit s (PORT_STATUS p) PORT_STATUS_LINK

/-- Counter `j` of a port (PORT_CNT); it wraps. -/
def portCnt (s : Dev) (p j n : Nat) : Dev := setReg s (PORT_CNT p j) (BitVec.ofNat 64 ((reg s (PORT_CNT p j)).toNat + n))

/-- A write to a PORT register of a group that is off or in PCIe mode is dropped (R168); in a dead domain it sets nothing (21 R700). -/
def portModeDrop (s : Dev) (p : Nat) : Dev := if domOn s (56 + p / 8) then fset s SW_ERR SW_ERR_PORT_MODE 1 else s

/-- Byte time of a port in 10^-13 ns: 0.08 ns at 100 Gbit/s (R171). -/
def byteTime (s : Dev) (p : Nat) : Nat :=
  8 * 10 ^ 11 * (match fget s (PORT_STATUS p) PORT_STATUS_SPEED_ACT with | 0 => 1 | 1 => 2 | 2 => 4 | _ => 10)

/-! ## The frame buffer (R197 to R201) -/

def cellsOf (n : Nat) : Nat := (n + 255) / 256
def findFrame (s : Dev) (id : Nat) : Option BufFrame := s.erg.frames.find? (fun f => f.id == id)
def putFrame (s : Dev) (f : BufFrame) : Dev := modErg s (fun e => { e with frames := e.frames.map (fun g => if g.id = f.id then f else g) })
def addFrame (s : Dev) (f : BufFrame) : Dev := modErg s (fun e => { e with frames := e.frames ++ [f], nextId := e.nextId + 1 })
def sharedFree (s : Dev) : Nat := fget s SW_BUF SW_BUF_SHARED_FREE

/-- Cells of the shared pool that stored frames hold. -/
def sharedHeld (s : Dev) : Nat := (s.erg.frames.map (fun f => f.shared)).sum

/-- SW_BUF shows the shared pool: 374,784 cells less every reservation, and what the stored frames leave of it (R197). A pool that is smaller than what they hold has none free (log 131, DESIGN CHOICE). -/
def showShared (s : Dev) : Dev :=
  let size := 374784 - ((rangeFrom 0 128).map (fun p => fget s (PORT_BUF p) PORT_BUF_RES)).sum
  fset (fset s SW_BUF SW_BUF_SHARED_SIZE size) SW_BUF SW_BUF_SHARED_FREE (size - sharedHeld s)

/-- Cells charged to a port's reservation first, then to the shared pool; `none` when there are too few (R198). -/
def charge (s : Dev) (p need : Nat) : Option (Nat × Nat × Dev) :=
  let free := fget s (PORT_BUF p) PORT_BUF_RES - fget s (PORT_BUF p) PORT_BUF_HELD_RES
  let r := min free need
  let sh := need - r
  if sh ≤ sharedFree s then
    let s1 := fset s (PORT_BUF p) PORT_BUF_HELD_RES (fget s (PORT_BUF p) PORT_BUF_HELD_RES + r)
    let s2 := fset s1 (PORT_BUF p) PORT_BUF_SHARED_HELD (fget s1 (PORT_BUF p) PORT_BUF_SHARED_HELD + sh)
    some (r, sh, fset s2 SW_BUF SW_BUF_SHARED_FREE (sharedFree s2 - sh))
  else none

/-- `n` cells of a frame return, shared-pool cells first (R199). -/
def returnCells (s : Dev) (f : BufFrame) (n : Nat) : Dev :=
  let sh := min f.shared n
  let r := min f.res (n - sh)
  let s1 := match f.port with
    | some p =>
      let a := fset s (PORT_BUF p) PORT_BUF_SHARED_HELD (fget s (PORT_BUF p) PORT_BUF_SHARED_HELD - sh)
      fset a (PORT_BUF p) PORT_BUF_HELD_RES (fget a (PORT_BUF p) PORT_BUF_HELD_RES - r)
    | none => s
  let s2 := putFrame s1 { f with shared := f.shared - sh, res := f.res - r }
  fset s2 SW_BUF SW_BUF_SHARED_FREE (fget s2 SW_BUF SW_BUF_SHARED_SIZE - sharedHeld s2)

/-- A user of a stored frame is done; after the last one its cells return (R199). -/
def releaseFrame (s : Dev) (id : Nat) : Dev :=
  match findFrame s id with
  | none => s
  | some f =>
    if 1 < f.users then putFrame s { f with users := f.users - 1 }
    else
      let s1 := returnCells s f (f.res + f.shared)
      modErg s1 (fun e => { e with frames := e.frames.filter (fun g => g.id != id) })

def useFrame (s : Dev) (id : Nat) : Dev :=
  match findFrame s id with
  | none => s
  | some f => putFrame s { f with users := f.users + 1 }

/-- Frames of scatter jobs that have left the queues since `old` are released (R179, R199). -/
def releaseScattered (old s : Dev) : Dev :=
  let ids (d : Dev) : List Nat := d.cyc.scatterQ.flatMap (fun e => e.2.filterMap (fun j => j.buf))
  let now := ids s
  (ids old).foldl (fun s id => if now.contains id then s else releaseFrame s id) s

/-! ## Parsing (R175, stage 2) -/

/-- The fields of a frame's header. -/
structure Header where
  da : Nat
  sa : Nat
  /-- PCP, DEI and VID of the first tag -/
  tag : Option (Nat × Nat × Nat) := none
  rtag : Option Nat := none
  etype : Nat := 0
deriving DecidableEq, Repr

def byteAt (b : List Byte) (i : Nat) : Nat := (b.getD i 0).toNat
def be16 (b : List Byte) (i : Nat) : Nat := byteAt b i * 256 + byteAt b (i + 1)
def isVlan (t : Nat) : Bool := t == 0x8100 || t == 0x88A8

/-- Up to two VLAN tags and one R-TAG precede the EtherType; only the first 128 bytes are read (log 26, DEDUCED). -/
def parseHeader (bytes : List Byte) : Header :=
  let b := bytes.take 128
  let t1 := isVlan (be16 b 12)
  let o1 := if t1 then 16 else 12
  let o2 := if t1 && isVlan (be16 b o1) then o1 + 4 else o1
  let r := be16 b o2 == 0xF1C1
  let tci := be16 b 14
  { da := beNat (b.take 6), sa := beNat ((b.drop 6).take 6),
    tag := if t1 then some (tci / 8192, tci / 4096 % 2, tci % 4096) else none,
    rtag := if r then some (be16 b (o2 + 4)) else none,
    etype := be16 b (if r then o2 + 6 else o2) }

/-- VID, priority and whether the frame is VLAN-tagged (R182); a tag with VID 0 is a priority tag. -/
def classify (s : Dev) (p : Nat) (h : Header) : Nat × Nat × Bool :=
  match h.tag with
  | some (pcp, _, vid) => if vid = 0 then (fget s (PORT_VLAN p) PORT_VLAN_PVID, pcp, false) else (vid, pcp, true)
  | none => (fget s (PORT_VLAN p) PORT_VLAN_PVID, fget s (PORT_VLAN p) PORT_VLAN_DEF_PCP, false)

/-- Membership of a port in a VLAN (R181, R182). -/
def vlanMember (s : Dev) (vid p : Nat) : Bool := nbit (swWord s 0 vid (p / 64)).toNat (p % 64)
def vlanUntagged (s : Dev) (vid p : Nat) : Bool := nbit (swWord s 0 vid (2 + p / 64)).toNat (p % 64)

/-! ## Streams (R186 to R188) -/

/-- Index of the enabled table 2 entry of a KIND, address and VID. -/
def streamFind (s : Dev) (kind mac vid : Nat) : Option Nat :=
  s.erg.tbl.findSome? (fun e =>
    if e.1 % 4 = 0 ∧ e.1 / 4 / 131072 = 2 ∧ bitsOf e.2 (60, 60) = 1 ∧ bitsOf e.2 (61, 61) = kind ∧ bitsOf e.2 (47, 0) = mac ∧ bitsOf e.2 (59, 48) = vid then
      some (e.1 / 4 % 131072)
    else none)

/-- Stream handle of a frame (R186). -/
def streamHandle (s : Dev) (h : Header) (vid : Nat) : Option Nat :=
  match streamFind s 0 h.da vid with
  | some i => some i
  | none => streamFind s 1 h.sa vid

/-- Vector recovery of IEEE 802.1CB, history length 32 (R187): whether the frame is accepted, and the new state (log 23, PRESUMED). -/
def vectorRecovery (x : RecoverySt) (seq now : Nat) : Bool × RecoverySt :=
  let d := toSigned 16 ((seq + 65536 - x.seq) % 65536)
  if x.take then (true, { take := false, seq := seq, hist := 1, last := now })
  else if 32 ≤ d ∨ d ≤ -32 then (false, { x with last := now })
  else if d ≤ 0 then
    let k := (-d).toNat
    if nbit x.hist k then (false, { x with last := now }) else (true, { x with hist := x.hist + 2 ^ k, last := now })
  else (true, { x with seq := seq, hist := (x.hist * 2 ^ d.toNat + 1) % 2 ^ 32, last := now })

/-- Stage 5 (R187). A frame without an R-TAG: what becomes of it is a free value (log 30, DESIGN CHOICE) (log 23, PRESUMED). -/
def recoverStage (s : Dev) (hd : Nat) (rtag : Option Nat) : Bool × Dev :=
  if bitsOf (swWord s 2 hd 1) (14, 14) = 0 then (true, s)
  else
    match rtag with
    | none =>
      let f := drawFree s
      (bitsOf f.1 (0, 0) == 1, f.2)
    | some q =>
      let r := vectorRecovery (mget (fun _ => {}) s.erg.recovery hd) q (nowNs s)
      (r.1, modErg s (fun e => { e with recovery := mset (fun _ => {}) e.recovery hd r.2 }))

/-- RECOVERY_RESET (R187): RESET_MS after the last frame. -/
def recoveryReset (s : Dev) (hd : Nat) : Dev :=
  let x := mget (fun _ => {}) s.erg.recovery hd
  if x.take then s
  else
    let s1 := advanceTo s (x.last + bitsOf (swWord s 2 hd 1) (31, 16) * 1000000)
    modErg s1 (fun e => { e with recovery := mset (fun _ => {}) e.recovery hd {} })

/-- Colours of a metered frame. -/
inductive Colour where
  | green | yellow | red
deriving DecidableEq, Repr

/-- The bandwidth profile of IEEE 802.1Qci (R188): tokens in 10^-6 bits, rates in kbit/s (log 23, PRESUMED). -/
def meterFrame (s : Dev) (m len dei : Nat) : Colour × Dev :=
  let w0 := swWord s 4 m 0
  let w1 := swWord s 4 m 1
  let w2 := swWord s 4 m 2
  let capC := bitsOf w0 (63, 32) * 8 * 10 ^ 6
  let capE := bitsOf w1 (63, 32) * 8 * 10 ^ 6
  let x := mget (fun _ => {}) s.erg.meters m
  let now := nowNs s
  let dt := match x.at_ with | some t => now - t | none => 0
  let c0 := match x.at_ with | some _ => x.c + bitsOf w0 (31, 0) * dt | none => capC
  let c1 := min c0 capC
  let beyond := if bitsOf w2 (0, 0) = 1 then c0 - c1 else 0
  let e1 := match x.at_ with | some _ => min (x.e + bitsOf w1 (31, 0) * dt + beyond) capE | none => capE
  let need := len * 8 * 10 ^ 6
  let put (c e : Nat) : Dev := modErg s (fun g => { g with meters := mset (fun _ => {}) g.meters m { c := c, e := e, at_ := some now } })
  let green := !(bitsOf w2 (1, 1) == 1 && dei == 1) && decide (need ≤ c1)
  if bitsOf w2 (3, 3) = 1 ∧ bitsOf w2 (4, 4) = 1 then (.red, put c1 e1)
  else if green then (.green, put (c1 - need) e1)
  else if need ≤ e1 then (.yellow, put c1 (e1 - need))
  else
    let s1 := put c1 e1
    (.red, if bitsOf w2 (3, 3) = 1 then setSw s1 4 m 2 (putBits w2 (4, 4) 1) else s1)

/-- Stage 6 (R188): whether the frame passes, and whether it is yellow (log 25, DESIGN CHOICE). -/
def filterStage (s : Dev) (hd len dei : Nat) : Bool × Bool × Dev :=
  let f := bitsOf (swWord s 2 hd 1) (13, 0)
  let w := swWord s 3 f 0
  let max := bitsOf w (13, 0)
  if bitsOf w (28, 28) = 1 then (false, false, s)
  else if max ≠ 0 ∧ max < len then
    (false, false, if bitsOf w (27, 27) = 1 then setSw s 3 f 0 (putBits w (28, 28) 1) else s)
  else if bitsOf w (26, 26) = 1 then
    let m := bitsOf w (25, 14)
    let r := meterFrame s m len dei
    match r.1 with
    | .green => (true, false, r.2)
    | .yellow => if bitsOf (swWord s 4 m 2) (2, 2) = 1 then (false, true, r.2) else (true, true, r.2)
    | .red => (false, false, r.2)
  else (true, false, s)

/-! ## Forwarding decision (R184, R223) -/

def isMulticast (mac : Nat) : Bool := mac / 2 ^ 40 % 2 == 1
def broadcastMac : Nat := 2 ^ 48 - 1

/-- Ports of two mask words. -/
def maskPorts (lo hi : Word) : List Nat := (rangeFrom 0 128).filter (fun p => nbit (if p < 64 then lo else hi).toNat (p % 64))

/-- Instances a flooded frame reaches (R223): kind 0 broadcast, 1 multicast, 2 unknown unicast (log 39, DEDUCED). -/
def floodInsts (s : Dev) (vid kind : Nat) : List Nat :=
  s.inst.filterMap (fun e => if e.2.vlans.contains vid && nbit e.2.flood kind && piState s e.1 != PI_FREE then some e.1 else none)

/-- Stage 7 (R184): destinations, and whether the frame is discarded by its entry. `fromPort` or `fromInst` never gets it back. -/
def forwardTo (s : Dev) (fromPort fromInst : Option Nat) (da vid : Nat) : List Dest × Bool × Dev :=
  let okPort (p : Nat) : Bool := vlanMember s vid p && some p != fromPort && isEthernet s p
  let okInst (i : Nat) : Bool := some i != fromInst
  match fdbFind s da vid with
  | some k =>
    let s1 := countErg s 0x03
    let w := swWord s 1 k 1
    if bitsOf w F_DISCARD = 1 then ([], true, s1)
    else if bitsOf w F_MASK = 1 then
      (((maskPorts (swWord s 1 k 2) (swWord s 1 k 3)).filter okPort).map Dest.port, false, s1)
    else
      let d := bitsOf w F_DEST
      if d < 128 then (if okPort d then [.port d] else [], false, s1)
      else if 256 ≤ d then (if okInst (d - 256) && (inst s (d - 256)).vlans.contains vid then [.inst (d - 256)] else [], false, s1)
      else ([], false, s1)
  | none =>
    let kind := if da = broadcastMac then 0 else if isMulticast da then 1 else 2
    ((((rangeFrom 0 128).filter okPort).map Dest.port) ++ (((floodInsts s vid kind).filter okInst).map Dest.inst), false, countErg s 0x04)

/-! ## Egress (R177, R182, R195, R200) -/

/-- The frame as a port sends it, FCS recomputed: untagged for the VLAN's untagged ports, tagged otherwise; yellow frames carry DEI (R182, R188). `body` runs from DA to the last byte before FCS. -/
def egressFrame (s : Dev) (p : Nat) (body : List Byte) (hasTag : Bool) (vid prio : Nat) (yellow : Bool) : List Byte :=
  let rest := body.drop (if hasTag then 16 else 12)
  let tpid := if hasTag then (body.drop 12).take 2 else beBytes 2 0x8100
  let dei := if yellow then 1 else if hasTag then be16 body 14 / 4096 % 2 else 0
  let out := body.take 12 ++ (if vlanUntagged s vid p then [] else tpid ++ beBytes 2 (prio * 8192 + dei * 4096 + vid)) ++ rest
  out ++ leBytes 4 (crcFcs out)

/-- Traffic class of a priority on a port (PORT_TC.MAP). -/
def tcOf (s : Dev) (p prio : Nat) : Nat := bitsOf (reg s (PORT_TC p)) (3 * prio + 2, 3 * prio)

def queueOf (s : Dev) (p tc : Nat) : List TxEnt := mget (fun _ => []) (port s p).queues tc
def setQueue (s : Dev) (p tc : Nat) (l : List TxEnt) : Dev := modPort s p (fun x => { x with queues := mset (fun _ => []) x.queues tc l })

/-- A frame is handed to a port's queue: dropped and counted on a port that is down, or when the queue holds more than QLIMIT cells (R200, R209). -/
def enqueue (s : Dev) (p : Nat) (e : TxEnt) : Dev :=
  if !(linkUp s p) then releaseFrame (portCnt s p 11 1) e.id
  else
    let lim := fget s (PORT_TC p) PORT_TC_QLIMIT
    let held := ((queueOf s p e.tc).map (fun x => x.cells)).sum
    if lim ≠ 0 ∧ lim < held then releaseFrame (portCnt s p 8 1) e.id
    else setQueue s p e.tc (queueOf s p e.tc ++ [e])

/-! ## Gates (R192 to R195) -/

/-- Segments of an operational cycle: (end offset, gates); entries of interval 0 are skipped, the last lasts to the end of the cycle, which cuts a list that is longer (R192). -/
def gateSegs (cycle : Nat) : List GateEnt → Nat → List (Nat × Nat)
  | [], _ => []
  | g :: gs, o =>
    if g.interval = 0 then gateSegs cycle gs o
    else if cycle ≤ o then []
    else
      let rest := gs.filter (fun x => x.interval != 0)
      let e := if rest.isEmpty then cycle else min cycle (o + g.interval)
      (e, g.gates) :: gateSegs cycle gs (o + g.interval)

def operList (s : Dev) (p : Nat) : List GateEnt :=
  (rangeFrom 0 (fget s (PORT_GATE_CTRL p) PORT_GATE_CTRL_OPER_LEN)).map (mget (fun _ => {}) (port s p).oper)

def operSegs (s : Dev) (p : Nat) : List (Nat × Nat) := gateSegs (port s p).operCycle (operList s p) 0

/-- Gates of a cycle of segments at a device time, and the device time at which their segment ends; `none` before the base time or with an empty list. -/
def gatesIn (base cycle : Nat) (segs : List (Nat × Nat)) (t : Nat) : Option (Nat × Nat) :=
  if t < base ∨ cycle = 0 then none
  else
    let o := (t - base) % cycle
    (segs.find? (fun g => decide (o < g.1))).map (fun g => (g.2, t + (g.1 - o)))

/-- Gates of the operational list at a device time. -/
def gatesAt (s : Dev) (p t : Nat) : Option (Nat × Nat) := gatesIn (port s p).operBase (port s p).operCycle (operSegs s p) t

/-- Device time of the next closing of a gate in a cycle of segments, looking at most `fuel` segments ahead from `t`; `none` when it does not close. -/
def nextCloseIn (base cycle : Nat) (segs : List (Nat × Nat)) (tc : Nat) : Nat → Nat → Option Nat
  | 0, _ => none
  | fuel + 1, t =>
    match gatesIn base cycle segs t with
    | none => none
    | some (g, e) => if nbit g tc then nextCloseIn base cycle segs tc fuel e else some t

/-- The admin list of a pending change, as segments of its cycle (R193). -/
def adminSegs (s : Dev) (p : Nat) : List (Nat × Nat) :=
  gateSegs (fget s (PORT_GATE_CTRL p) PORT_GATE_CTRL_CYCLE)
    ((rangeFrom 0 (fget s (PORT_GATE_CTRL p) PORT_GATE_CTRL_ADMIN_LEN)).map (mget (fun _ => {}) (port s p).admin)) 0

/-- Next closing by the list that a pending change brings at its change time (R193). -/
def closeAfterChange (s : Dev) (p tc : Nat) : Option Nat :=
  nextCloseIn (reg s (PORT_GATE_BASE p)).toNat (fget s (PORT_GATE_CTRL p) PORT_GATE_CTRL_CYCLE) (adminSegs s p) tc
    ((adminSegs s p).length + 1) (port s p).changeAt

/-- Device time of the next closing of a traffic class's gate from `t` on, by the operational list up to a pending change and by the admin list from there; `none` when it does not close (R193, R195). -/
def nextClose (s : Dev) (p tc fuel t : Nat) : Option Nat :=
  let now := nextCloseIn (port s p).operBase (port s p).operCycle (operSegs s p) tc fuel t
  if fbit s (PORT_GATE_CTRL p) PORT_GATE_CTRL_PENDING then
    match now with
    | some c => if c < (port s p).changeAt then some c else closeAfterChange s p tc
    | none => closeAfterChange s p tc
  else now

def gatesOn (s : Dev) (p : Nat) : Bool := fbit s (PORT_GATE_CTRL p) PORT_GATE_CTRL_ENABLE
def gateOpen (s : Dev) (p tc : Nat) : Bool := !(gatesOn s p) || nbit (port s p).gates tc

/-- Whether preemption runs on a port (R196): enabled, and verified or not to be verified. -/
def preemptOn (s : Dev) (p : Nat) : Bool :=
  fbit s (PORT_PREEMPT p) PORT_PREEMPT_EN &&
    (fbit s (PORT_PREEMPT p) PORT_PREEMPT_VERIFY_DIS || fget s (PORT_PREEMPT p) PORT_PREEMPT_STATUS == 3)

def isPreemptable (s : Dev) (p tc : Nat) : Bool := preemptOn s p && nbit (fget s (PORT_PREEMPT p) PORT_PREEMPT_PREEMPTABLE) tc

/-- Bytes that must leave before the gate closes (R195): the frame, a cut-through frame's longest, or a preemptable frame's first fragment (log 28, PRESUMED). -/
def testLength (s : Dev) (p : Nat) (e : TxEnt) : Nat :=
  let n := match e.cut with | some q => fget s (PORT_MAXFRAME q) PORT_MAXFRAME_MAXFRAME | none => e.bytes.length
  if isPreemptable s p e.tc then min n (64 * (1 + fget s (PORT_PREEMPT p) PORT_PREEMPT_ADD_FRAG) - 4) else n

/-- A frame may start: its gate is open and it completes before the next closing (R195). Preamble and start delimiter take 8 byte times (log 28, PRESUMED). -/
def mayStart (s : Dev) (p : Nat) (e : TxEnt) : Bool :=
  if !(gatesOn s p) then true
  else gateOpen s p e.tc &&
    (match nextClose s p e.tc ((operSegs s p).length + 1) (nowNs s) with
     | none => true
     | some t => decide (s.time + (8 + testLength s p e) * byteTime s p ≤ t * 10 ^ 13))

/-- Whether the port can take a frame of a class now: idle, or only preemptable frames in transmission and an express frame ready (R196). -/
def portFree (s : Dev) (p tc : Nat) : Bool :=
  let l := (port s p).tx
  l.isEmpty || (preemptOn s p && !(isPreemptable s p tc) && l.all (fun t => t.preemptable))

/-- The frame that strict priority selects: the highest class with an open gate whose head may start (R175, stage 11). -/
def selectTx (s : Dev) (p : Nat) : List Nat → Option TxEnt
  | [] => none
  | tc :: rest =>
    match queueOf s p tc with
    | [] => selectTx s p rest
    | e :: _ => if portFree s p tc && mayStart s p e then some e else selectTx s p rest

/-- A cut-through entry that fails the gate test is stored and forwarded: it leaves the queue and is queued at its last bit (R195). -/
def uncut (s : Dev) (p : Nat) (id : Nat) : Dev :=
  let s1 := modPort s p (fun x => { x with queues := x.queues.filterMap (fun q =>
    let l := q.2.filter (fun e => !(e.id == id && e.cut.isSome)); if l.isEmpty then none else some (q.1, l)) })
  releaseFrame (modErg s1 (fun e => { e with ports := e.ports.map (fun q =>
    (q.1, { q.2 with rx := q.2.rx.map (fun r => if r.id = id then { r with cuts := r.cuts.filter (fun c => c != p) } else r) })) })) id

/-- Event messages of IEEE 802.1AS. -/
def isPtpEvent (bytes : List Byte) : Bool := (parseHeader bytes).etype == 0x88F7 && decide (byteAt bytes 14 % 16 ≤ 3)

/-- FRAME_TX_START: a frame starts on a port (R175, R177, R190, R195, R196). -/
def frameTxStart (s : Dev) (p : Nat) : Dev :=
  if !(linkUp s p) then s
  else
    let stale := ((rangeFrom 0 8).flatMap (queueOf s p)).filter (fun e => e.cut.isSome && gateOpen s p e.tc && !(mayStart s p e))
    let s := stale.foldl (fun s e => uncut s p e.id) s
    match selectTx s p [7, 6, 5, 4, 3, 2, 1, 0] with
    | none =>
      if (rangeFrom 0 8).any (fun tc => !(queueOf s p tc).isEmpty && !(gateOpen s p tc)) then countPort s p 0x05 else s
    | some e =>
      let s1 := setQueue s p e.tc ((queueOf s p e.tc).drop 1)
      let interrupts := !((port s p).tx.isEmpty)
      let s2 := modPort s1 p (fun x => { x with tx := x.tx.map (fun t => { t with preempted := true }) ++
        [{ ent := e, preemptable := isPreemptable s p e.tc, whole := e.cut.isNone }] })
      let s3 := portCnt (portCnt s2 p 2 1) p 3 e.bytes.length
      let s4 := countPort s3 p (if e.cut.isSome then 0x02 else 0x03)
      let s5 := if interrupts then countPort s4 p 0x04 else s4
      if isPtpEvent e.bytes then modErg s5 (fun x => { x with ptpTx := x.ptpTx ++ [(p, nowNs s5, e.bytes)] }) else s5

/-- FRAME_TX_DONE: the copy in transmission completes (R199); an interrupted frame goes on. -/
def frameTxDone (s : Dev) (p : Nat) : Dev :=
  match (port s p).tx.reverse with
  | [] => s
  | t :: rest =>
    if !t.whole then s
    else releaseFrame (modPort s p (fun x => { x with tx := rest.reverse.map (fun u => { u with preempted := false }) })) t.ent.id

/-! ## Reception (R173 to R180, R198) -/

/-- The reserved addresses of R180 (log 26, DEDUCED). -/
def isReserved (da : Nat) : Bool := decide (da / 16 = 0x0180C200000)

/-- Path of a network heartbeat that arrives on a port (07 R281) (log 29, DESIGN CHOICE). -/
def heartbeatPath (s : Dev) (p : Nat) (h : Header) : Option Nat :=
  if twinOn s && h.etype == fget s TWIN_LINK TWIN_LINK_ETYPE && h.da == Config.portMac p % 2 ^ 48 then
    (rangeFrom 0 4).find? (fun j => pathEn s j && bitsOf (twinEntry s 1 j) (54, 48) == p)
  else none

/-- Whether a frame that has begun may cut through to a port (R177). -/
def mayCut (s : Dev) (p q tc : Nat) : Bool :=
  fbit s (PORT_CTRL p) PORT_CTRL_CT_EN && fbit s (PORT_CTRL q) PORT_CTRL_CT_EN &&
    decide (fget s (PORT_STATUS p) PORT_STATUS_SPEED_ACT ≤ fget s (PORT_STATUS q) PORT_STATUS_SPEED_ACT) &&
    (queueOf s q tc).isEmpty && (port s q).tx.isEmpty && gateOpen s q tc && linkUp s q

/-- A frame discarded before admission still has its stage 1 checks at its last bit (log 27, DEDUCED). -/
def rxDiscard (s : Dev) (p : Nat) (r : RxFrame) : Dev := modPort s p (fun x => { x with rx := x.rx ++ [{ r with dropped := true }] })

/-- Stage 9 and the start of the egress copies that cut through (R177, R198) (log 25, DESIGN CHOICE). -/
def admitFrame (s : Dev) (p : Nat) (r : RxFrame) : Dev :=
  let need := r.need
  match charge s p need with
  | none => rxDiscard (countErg (portCnt s p 7 1) 0x09) p r
  | some (res, sh, s1) =>
    let id := s1.erg.nextId
    let s2 := addFrame s1 { id := id, port := some p, bytes := r.bytes, res := res, shared := sh, users := 1 }
    let s3 := if sharedFree s2 = 0 then countErg s2 0x0A else s2
    let body := r.bytes.take (r.bytes.length - 4)
    let hasTag := (parseHeader r.bytes).tag.isSome
    let x := r.dests.foldl (fun (x : Dev × List Nat) d =>
      match d with
      | .port q =>
        let tc := tcOf x.1 q r.prio
        if mayCut x.1 p q tc then
          (setQueue (useFrame x.1 id) q tc [{ id := id, bytes := egressFrame x.1 q body hasTag r.vid r.prio r.yellow, tc := tc, cells := need, cut := some p }], x.2 ++ [q])
        else x
      | _ => x) (s3, [])
    modPort x.1 p (fun y => { y with rx := y.rx ++ [{ r with id := id, cuts := x.2 }] })

/-- FRAME_RX_START: stages 2 to 9 (R175, R198) (log 25, DESIGN CHOICE) (log 26, DEDUCED). With LEARN_EN clear a frame does not renew the age of its source's entry (log 150, DESIGN CHOICE). -/
def frameRxStart (s : Dev) (p : Nat) (express : Bool) (bytes : List Byte) : Dev :=
  if !(linkUp s p) ∨ (port s p).rx.any (fun r => r.express == express && r.arrived.isNone) then s
  else
    let h := parseHeader bytes
    let first := nowNs s
    let maxLen := fget s (PORT_MAXFRAME p) PORT_MAXFRAME_MAXFRAME
    let r0 : RxFrame := { id := 0, bytes := bytes, express := express, first := first, maxLen := maxLen, need := cellsOf maxLen }
    let s := countErg s 0x02
    if h.etype = 0x8808 then rxDiscard s p { r0 with control := true }
    else
      let c := classify s p h
      let vid := c.1
      let r1 := { r0 with vid := vid, prio := c.2.1, tagged := c.2.2 }
      if (heartbeatPath s p h).isSome then admitFrame s p r1
      else if isReserved h.da then
        if h.da = 0x0180C200000E then
          let asym := toSigned 32 (fget s (PORT_PTP p) PORT_PTP_ASYM)
          admitFrame s p { r1 with dests := [.oasis], first := ((first : Int) + asym).toNat }
        else if fbit s SW_CTRL SW_CTRL_MGMT_EN then admitFrame s p { r1 with dests := [.inst (fget s SW_CTRL SW_CTRL_MGMT_PI)] }
        else rxDiscard s p r1
      else
        let acc := fget s (PORT_VLAN p) PORT_VLAN_ACCEPT
        if (acc = 1 ∧ !c.2.2) ∨ (acc = 2 ∧ c.2.2) ∨ (fbit s (PORT_VLAN p) PORT_VLAN_INGRESS_FILTER ∧ !(vlanMember s vid p)) then
          rxDiscard (portCnt s p 9 1) p r1
        else
          let hd := streamHandle s h vid
          let s1 := if hd.isSome then countErg s 0x06 else s
          let st5 := match hd with | some k => recoverStage s1 k h.rtag | none => (true, s1)
          if !st5.1 then rxDiscard (portCnt st5.2 p 10 1) p r1
          else
            let dei := match h.tag with | some t => t.2.1 | none => 0
            let st6 := match hd with | some k => filterStage st5.2 k bytes.length dei | none => (true, false, st5.2)
            if !st6.1 then rxDiscard (portCnt st6.2.2 p 9 1) p r1
            else
              let s2 := if fbit s SW_CTRL SW_CTRL_LEARN_EN && !(isMulticast h.sa) then fdbLearn st6.2.2 h.sa vid p else st6.2.2
              let cyclic := match hd with | some k => bitsOf (ingressNow s2 k) S_EN == 1 | none => false
              let fwd := !cyclic || (match hd with | some k => bitsOf (swWord s2 2 k 0) (62, 62) == 1 | none => true)
              let s3 := if cyclic then countErg s2 0x07 else s2
              let f := if fwd then forwardTo s3 (some p) none h.da vid else ([], false, s3)
              let s4 := if f.2.1 then portCnt f.2.2 p 9 1 else f.2.2
              let r2 := { r1 with handle := hd, cyclic := cyclic, dests := f.1, yellow := st6.2.1 }
              if f.2.1 && !cyclic then rxDiscard s4 p r2 else admitFrame s4 p r2

/-- The copies of a frame that cut through end: stored as they stand, or spoilt when the frame is bad (R178) (log 27, DEDUCED). -/
def endCuts (s : Dev) (r : RxFrame) (good : Bool) : Dev :=
  r.cuts.foldl (fun s q =>
    let x := port s q
    if x.tx.any (fun t => t.ent.id == r.id && !t.whole) then
      modPort s q (fun x => { x with tx := x.tx.map (fun t =>
        if t.ent.id = r.id ∧ !t.whole then
          { t with whole := true, ent := if good then t.ent else
            { t.ent with bytes := t.ent.bytes.take (t.ent.bytes.length - 4) ++ (t.ent.bytes.drop (t.ent.bytes.length - 4)).map (fun b => ~~~b) } }
        else t) })
    else if good then
      modPort s q (fun x => { x with queues := x.queues.map (fun e =>
        (e.1, e.2.map (fun t => if t.id = r.id then { t with cut := none, cells := cellsOf r.bytes.length } else t))) })
    else
      let had := (rangeFrom 0 8).any (fun tc => (queueOf s q tc).any (fun t => t.id == r.id))
      let s1 := modPort s q (fun x => { x with queues := x.queues.filterMap (fun e =>
        let l := e.2.filter (fun t => t.id != r.id); if l.isEmpty then none else some (e.1, l)) })
      if had then releaseFrame s1 r.id else s1) s

/-- A cyclic frame at its last bit: judged; an accepted frame stays in the buffer until it is scattered, and to the end of an agreement window (R134, R179, 07 R266). -/
def cyclicEnd (s : Dev) (r : RxFrame) (hd ts : Nat) : Dev :=
  let body := r.bytes.take (r.bytes.length - 4)
  let ok := judgeCyclic s hd body.length ts == .accepted
  let k := bitsOf (ingressNow s hd) S_K
  let c := bitsOf (ingressNow s hd) S_CLASS
  let s1 := cyclicFrame s hd body ts
  if ok then
    let l := scatterQueue s1 k
    let s3 := if (scatterQueue s k).length < l.length then
        useFrame (setScatterQueue s1 k ((l.take (l.length - 1)) ++ (l.drop (l.length - 1)).map (fun j => { j with buf := some r.id }))) r.id
      else s1
    let s4 := holdFrame s3 hd body ts
    if s4.twin.agree = s3.twin.agree then s4 else modErg (useFrame s4 r.id) (fun e => { e with held := e.held ++ [(c, r.id)] })
  else s1

/-- The frame of a reception goes to the destinations that have not begun (R175, stage 10). -/
def deliver (s : Dev) (p : Nat) (r : RxFrame) : Dev :=
  let body := r.bytes.take (r.bytes.length - 4)
  let hasTag := (parseHeader r.bytes).tag.isSome
  r.dests.foldl (fun s d =>
    match d with
    | .port q =>
      if r.cuts.contains q then s
      else
        let tc := tcOf s q r.prio
        enqueue (useFrame s r.id) q { id := r.id, bytes := egressFrame s q body hasTag r.vid r.prio r.yellow, tc := tc, cells := cellsOf r.bytes.length }
    | .inst i => rxDeliver s i p r.first body hasTag r.vid r.prio r.yellow
    | .oasis => if restarting s then s else modErg s (fun e => { e with ptpRx := e.ptpRx ++ [(p, r.first, body)] })) s

/-- What the FEC decoder of a port has corrected and found uncorrectable (PORT_FEC, R217). -/
def countFec (s : Dev) (p corrected uncorrected : Nat) : Dev :=
  fincSat (fincSat s (PORT_FEC p) PORT_FEC_CORRECTED corrected) (PORT_FEC p) PORT_FEC_UNCORRECTED uncorrected

/-- What the end of a good frame waits for: the DRAM accesses of its delivery to instances (01 R15, 06 R229). -/
def endWaits (s : Dev) (r : RxFrame) : List Nat :=
  let n := r.bytes.length
  if r.dropped || r.control || decide (n < 64) || decide (r.maxLen < n) || leNat (r.bytes.drop (n - 4)) != crcFcs (r.bytes.take (n - 4)) then []
  else
    r.dests.flatMap (fun d =>
      match d with
      | .inst i => rxWaits s i (r.bytes.take (n - 4)) (parseHeader r.bytes).tag.isSome r.vid r.prio r.yellow
      | _ => [])

/-- The last bit of a frame has arrived at `ts`; its end is still to come. -/
def noteArrived (s : Dev) (p : Nat) (r : RxFrame) (ts : Nat) : Dev :=
  modPort s p (fun x => { x with rx := x.rx.map (fun q => if q = r then { q with arrived := some ts } else q) })

/-- FRAME_RX_END: the last bit at device time `ts` (R173, R174, R178, R198) (log 27, DEDUCED). A frame for the pipeline needs a credit of the port's queue, and what its delivery to instances needs, and stalls without (01 R13, R15): the command then comes again (log 130, DESIGN CHOICE) (log 25, DESIGN CHOICE). -/
def frameRxEnd (s : Dev) (p : Nat) (express : Bool) (ts : Nat) : Dev :=
  match (port s p).rx.find? (fun r => r.express == express) with
  | none => s
  | some r =>
    let ts := r.arrived.getD ts
    let s0 := advanceTo s ts
    if !(r.dropped || r.control) && !(mayIssue s0 (128 + p)) then
      countPort (stallOn (noteArrived s0 p r ts) (128 + p)) p 0x06
    else if !(endWaits s0 r).isEmpty then (endWaits s0 r).foldl stallQueue (noteArrived s0 p r ts)
    else
    let s0 := if r.dropped || r.control then s0 else takeCredit s0 (128 + p)
    let s1 := modPort s0 p (fun x => { x with rx := x.rx.eraseP (fun q => q.express == express) })
    let n := r.bytes.length
    let s2 := portCnt (portCnt s1 p 0 1) p 1 n
    let badLen := decide (n < 64) || decide (r.maxLen < n)
    let badFcs := leNat (r.bytes.drop (n - 4)) != crcFcs (r.bytes.take (n - 4))
    let s2 := if badLen then portCnt s2 p 5 1 else s2
    let s2 := if badFcs then portCnt s2 p 4 1 else s2
    let s3 := if !badLen && !badFcs && r.control then portCnt s2 p 6 1 else s2
    if r.dropped || r.control then s3
    else
      let good := !badLen && !badFcs
      let s4 := match findFrame s3 r.id with
        | some f => returnCells s3 f (r.need - cellsOf n)
        | none => s3
      let s5 := endCuts s4 r good
      let s6 := if !good then s5
        else
          let h := parseHeader r.bytes
          match heartbeatPath s5 p h with
          | some j => pathHeartbeat s5 j
          | none =>
            let a := match r.handle, r.cyclic with
              | some hd, true => cyclicEnd s5 r hd ts
              | _, _ => s5
            deliver a p r
      releaseFrame s6 r.id

/-- The frames a class held for the window leave the buffer (R266). -/
def releaseHeld (s : Dev) (c : Nat) : Dev :=
  let mine := s.erg.held.filter (fun h => h.1 == c)
  mine.foldl (fun s h => releaseFrame s h.2) (modErg s (fun e => { e with held := e.held.filter (fun h => h.1 != c) }))

/-! ## Links and gates -/

/-- FAULT of a port that receives or finds a fault, and so goes down (R209, R217). -/
def notePortFault (s : Dev) (p : Nat) (fault : Bool) : Dev :=
  if fault && isEthernet s p then fset s (PORT_STATUS p) PORT_STATUS_FAULT 1 else s

/-- Link down (R209): queues are flushed and counted, dynamic FDB entries go, a NOTICE is written. A frame whose last bit has arrived is still forwarded or scattered when its credit comes. -/
def linkDown (s : Dev) (p : Nat) : Dev :=
  if !(linkUp s p) then s
  else
    let x := port s p
    let ents := (x.queues.flatMap (fun q => q.2)) ++ x.tx.map (fun t => t.ent)
    let queued := (x.queues.flatMap (fun q => q.2)).length
    let s1 := ents.foldl (fun s e => releaseFrame s e.id) (portCnt s p 11 queued)
    let s2 := (x.rx.filter (fun r => r.arrived.isNone)).foldl (fun s r => if r.dropped || r.control then s else releaseFrame (endCuts s r false) r.id) s1
    let s3 := modPort s2 p (fun y => { y with queues := [], tx := [], rx := y.rx.filter (fun r => r.arrived.isSome) })
    let s4 := fset (fset s3 (PORT_STATUS p) PORT_STATUS_LINK 0) (PORT_STATUS p) PORT_STATUS_AN_DONE 0
    let s5 := if fbit s4 (PORT_PREEMPT p) PORT_PREEMPT_EN && !(fbit s4 (PORT_PREEMPT p) PORT_PREEMPT_VERIFY_DIS) then fset s4 (PORT_PREEMPT p) PORT_PREEMPT_STATUS 1 else s4
    logRec (fdbFlushPort s5 p) NOTICE SB_SW p 0x0501 []

/-- Link up (R209). A SPEED of 10G over a FEC code of RS(528,514) written before it runs with that code (log 149, DESIGN CHOICE). With AN_EN clear the port runs SPEED and FEC; a 100G or 50G port always runs RS(544,514) (R171, R172). -/
def linkUpEvent (s : Dev) (p : Nat) : Dev :=
  if !(isEthernet s p) ∨ linkUp s p ∨ !(fbit s (PORT_CTRL p) PORT_CTRL_EN) then s
  else if fbit s (PORT_CTRL p) PORT_CTRL_AN_EN && !(fbit s (PORT_STATUS p) PORT_STATUS_AN_DONE) then s
  else
    let s1 := if fbit s (PORT_CTRL p) PORT_CTRL_AN_EN then s
      else
        let sp := fget s (PORT_CTRL p) PORT_CTRL_SPEED
        fset (fset s (PORT_STATUS p) PORT_STATUS_SPEED_ACT sp) (PORT_STATUS p) PORT_STATUS_FEC_ACT (if sp ≤ 1 then 3 else fget s (PORT_CTRL p) PORT_CTRL_FEC)
    let s2 := fset (fset s1 (PORT_STATUS p) PORT_STATUS_LINK 1) (PORT_STATUS p) PORT_STATUS_FAULT 0
    let s3 := if fbit s2 (PORT_PREEMPT p) PORT_PREEMPT_EN && !(fbit s2 (PORT_PREEMPT p) PORT_PREEMPT_VERIFY_DIS) then fset s2 (PORT_PREEMPT p) PORT_PREEMPT_STATUS 2 else s2
    logRec s3 NOTICE SB_SW p 0x0502 []

/-- FEC_ACT that IEEE 802.3 Clause 73 resolves for mode `v` (R171) when this end requests FEC or not and the partner sent F3 to F0: at 25G a request of either end for RS-FEC (F2), else one for BASE-R (F3), is met; at 10G a request of either end (F1) where the partner has the ability (F0) (log 41, DESIGN CHOICE). -/
def resolvedFec (v : Nat) (request : Bool) (f : Nat) : Nat :=
  if v ≤ 1 then 3
  else if v = 2 then (if request || nbit f 2 then 2 else if nbit f 3 then 1 else 0)
  else b2n (nbit f 0 && (request || nbit f 1))

/-- AUTO_NEGOTIATION_DONE (R172): the modes both ends advertise resolve to the fastest; the FEC follows the table of R171 (log 41, DESIGN CHOICE). -/
def autoNegotiation (s : Dev) (p : Nat) (ability : BitVec 32) (modes fec : Nat) : Dev :=
  if !(isEthernet s p) ∨ linkUp s p ∨ !(fbit s (PORT_CTRL p) PORT_CTRL_EN) ∨ !(fbit s (PORT_CTRL p) PORT_CTRL_AN_EN) then s
  else
    let adv := fget s (PORT_AN p) PORT_AN_ADV
    let m := Nat.land modes adv
    let s1 := fset s (PORT_AN p) PORT_AN_LP_ABILITY ability.toNat
    let speed := if nbit m 0 || nbit m 1 then some 0 else if nbit m 2 || nbit m 3 then some 1 else if nbit m 4 || nbit m 5 then some 2 else if nbit m 6 then some 3 else none
    match speed with
    | none => s1
    | some v =>
      fset (fset (fset s1 (PORT_STATUS p) PORT_STATUS_SPEED_ACT v) (PORT_STATUS p) PORT_STATUS_FEC_ACT (resolvedFec v (nbit adv 7) fec)) (PORT_STATUS p) PORT_STATUS_AN_DONE 1

/-- A write of PORT_CTRL.EN (R209): 0 takes the port down (log 90, DEDUCED). -/
def portEn (s : Dev) (p : Nat) (on : Bool) : Dev :=
  let s1 := if on then s else linkDown s p
  fset s1 (PORT_CTRL p) PORT_CTRL_EN (b2n on)

/-- CHANGE (R193): the change time of the admin list. -/
def gateChange (s : Dev) (p : Nat) : Dev :=
  let base := (reg s (PORT_GATE_BASE p)).toNat
  let cycle := fget s (PORT_GATE_CTRL p) PORT_GATE_CTRL_CYCLE
  let now := nowNs s
  let t := if now < base then base else base + ((now + 1000 - base) / cycle + 1) * cycle
  fset (modPort s p (fun x => { x with changeAt := t })) (PORT_GATE_CTRL p) PORT_GATE_CTRL_PENDING 1

/-- GATE_CONFIG_CHANGE (R193): the admin list, base and cycle time become operational. -/
def gateConfigChange (s : Dev) (p : Nat) : Dev :=
  if fbit s (PORT_GATE_CTRL p) PORT_GATE_CTRL_PENDING then
    let s1 := advanceTo s (port s p).changeAt
    let n := fget s1 (PORT_GATE_CTRL p) PORT_GATE_CTRL_ADMIN_LEN
    let s2 := modPort s1 p (fun x => { x with oper := x.admin, operBase := (reg s1 (PORT_GATE_BASE p)).toNat, operCycle := fget s1 (PORT_GATE_CTRL p) PORT_GATE_CTRL_CYCLE })
    fset (fset s2 (PORT_GATE_CTRL p) PORT_GATE_CTRL_OPER_LEN n) (PORT_GATE_CTRL p) PORT_GATE_CTRL_PENDING 0
  else s

/-- GATE_OPERATION (R194): time reaches the next segment of the operational list, whose gates hold from then on. -/
def gateOperation (s : Dev) (p : Nat) : Dev :=
  if !(gatesOn s p) ∨ (operSegs s p).isEmpty then s
  else
    let t := match gatesAt s p (nowNs s) with
      | some (g, e) => if (port s p).gates = g then e else nowNs s
      | none => (port s p).operBase
    let s1 := advanceTo s t
    match gatesAt s1 p (nowNs s1) with
    | some (g, _) => modPort s1 p (fun x => { x with gates := g })
    | none => s1

def gateIndexSet (s : Dev) (p list e wr : Nat) : Dev :=
  fset (fset (fset s (PORT_GATE_INDEX p) PORT_GATE_INDEX_LIST list) (PORT_GATE_INDEX p) PORT_GATE_INDEX_ENTRY e) (PORT_GATE_INDEX p) PORT_GATE_INDEX_WRITE wr

/-- GATE_LIST_READ (PORT_GATE_INDEX). -/
def gateListRead (s : Dev) (p list e : Nat) : Dev :=
  let s1 := gateIndexSet s p list e 0
  let g := mget (fun _ => {}) (if list = 0 then (port s p).admin else (port s p).oper) e
  fset (fset s1 (PORT_GATE_DATA p) PORT_GATE_DATA_GATES g.gates) (PORT_GATE_DATA p) PORT_GATE_DATA_INTERVAL g.interval

/-- GATE_LIST_WRITE (R193): dropped for the operational list and while PENDING. -/
def gateListWrite (s : Dev) (p list e : Nat) : Dev :=
  let s1 := gateIndexSet s p list e 1
  if list = 1 ∨ fbit s1 (PORT_GATE_CTRL p) PORT_GATE_CTRL_PENDING then fset s1 SW_ERR SW_ERR_BAD_VALUE 1
  else
    let g : GateEnt := ⟨fget s1 (PORT_GATE_DATA p) PORT_GATE_DATA_GATES, fget s1 (PORT_GATE_DATA p) PORT_GATE_DATA_INTERVAL⟩
    modPort s1 p (fun x => { x with admin := mset (fun _ => {}) x.admin e g })

/-- PREEMPT_VERIFY_DONE (R196). -/
def preemptVerify (s : Dev) (p : Nat) (ok : Bool) : Dev :=
  if fget s (PORT_PREEMPT p) PORT_PREEMPT_STATUS = 2 then
    let s1 := fset s (PORT_PREEMPT p) PORT_PREEMPT_STATUS (if ok then 3 else 4)
    if ok then s1 else logRec s1 NOTICE SB_SW p 0x0505 []
  else s

/-- A frame that a gather engine or Oasis hands to a port: gathered frames have their own cells (R197, R209). -/
def handToPort (s : Dev) (p tc : Nat) (body : List Byte) : Dev :=
  if !(isEthernet s p) then countErg s 0x09
  else
    let id := s.erg.nextId
    let s1 := addFrame s { id := id, bytes := body, users := 1 }
    enqueue s1 p { id := id, bytes := body ++ leBytes 4 (crcFcs body), tc := tc, cells := cellsOf (body.length + 4) }

end Sys2Proof.Machine
end

