-- ==== Sys2Proof/Machine/CycleCmds.lean ====
section
/-! DEFINITION. CycleCmds: the meanings of the commands of the control cycle (04) that no Pricking entry and no boundary runs. -/
namespace Sys2Proof.Machine

/-- CLASS_ENABLE (R119). -/
def execClassEnable (c : ClassId) (s : State) : Host.Outcome State Fault Refusal := onDev s (fun d => whenOn d 76 (fun d => classEnable d c.val))

/-- CLASS_DISABLE (R121). -/
def execClassDisable (c : ClassId) (s : State) : Host.Outcome State Fault Refusal := onDev s (fun d => whenOn d 76 (fun d => classDisable d c.val))

/-- SCATTER (R138, R199): the frame's cells return once it is scattered. -/
def execScatter (k : CtlId) (x : ScatterTurn) (s : State) : Host.Outcome State Fault Refusal :=
  onDev s (fun d => releaseScattered d (scatterNext d k.val x.at_ x.count))

/-- GATHER_STREAM (R147). -/
def execGatherStream (k : CtlId) (c : ClassId) (s : State) : Host.Outcome State Fault Refusal := onDev s (fun d => gatherStream d k.val c.val)

/-- HOLDOVER (R116). -/
def execHoldover (s : State) : Host.Outcome State Fault Refusal := onDev s holdover

/-- The one record that stands for the events counted in the second after a record (R159). -/
def rateFlush (s : Dev) (block inst code : Nat) : Dev :=
  match rateOf block inst code s.smp.rates with
  | none => s
  | some r =>
    if r.counted = 0 then s
    else
      let s1 := advanceOp s (r.last + opSecond)
      let s2 := smpRecord s1 { sev := r.sev, code := code, block := block, inst := inst, count := sat 0xFFFF r.counted, payload := r.payload }
      { s2 with smp := { s2.smp with rates := setRate { r with last := s2.smp.op, counted := 0 } s2.smp.rates } }

/-- RATE_LIMIT_FLUSH (R159). -/
def execRateLimitFlush (block inst : Byte) (code : BitVec 16) (s : State) : Host.Outcome State Fault Refusal :=
  onDev s (fun d => rateFlush d block.toNat inst.toNat code.toNat)

/-- CYC_TBL_READ (R165). -/
def execCycTblRead (table : Fin 16) (index : BitVec 16) (s : State) : Host.Outcome State Fault Refusal :=
  onDev s (fun d => whenOn d 76 (whenDone CYC_TBL_INDEX CYC_TBL_INDEX_DONE (fun d => cycTblRead d table.val index.toNat)))

/-- A CYC table write with the budget check of the twin (R165, 07 R271). -/
def cycTableWrite (s : Dev) (table i : Nat) : Dev :=
  let v := reg s CYC_TBL_DATA0
  if table = 2 ∧ !(streamRefused s 1 v) ∧ i < 16384 ∧ !(ingressBudget s i v) then
    fset (cycTblWrite s table i false) TWIN_ERR TWIN_ERR_BUDGET 1
  else cycTblWrite s table i true

/-- CYC_TBL_WRITE (R165). -/
def execCycTblWrite (table : Fin 16) (index : BitVec 16) (s : State) : Host.Outcome State Fault Refusal :=
  onDev s (fun d => whenOn d 76 (whenDone CYC_TBL_INDEX CYC_TBL_INDEX_DONE (fun d => cycTableWrite d table.val index.toNat)))

/-- CYC_TIME (21 R698): a read of the register. -/
def execCycTime (_who : Agent) (s : State) : Host.Outcome State Fault Refusal := onDev s (fun d => whenOn d 76 readCycTime)

/-- CYCLE_END (R156). -/
def execCycleEnd (t : Thr) (s : State) : Host.Outcome State Fault Refusal := onDev s (fun d => cycleEnd d t.val)

end Sys2Proof.Machine
end

