-- ==== Sys2Proof/Machine/ErgCmds.lean ====
section
/-! DEFINITION. ErgCmds: the meanings of the commands of Erg and the root ports (05). -/
namespace Sys2Proof.Machine

/-- FRAME_RX_START (R198). -/
def execFrameRxStart (p : PortId) (express : Bool) (frame : List Byte) (s : State) : Host.Outcome State Fault Refusal :=
  onDev s (fun d => frameRxStart d p.val express frame)

/-- FRAME_RX_END (R173). -/
def execFrameRxEnd (p : PortId) (express : Bool) (x : RxLastBit) (s : State) : Host.Outcome State Fault Refusal :=
  onDev s (fun d => frameRxEnd (countFec d p.val x.corrected.toNat x.uncorrected.toNat) p.val express x.at_)

/-- FRAME_TX_START (R195). -/
def execFrameTxStart (p : PortId) (s : State) : Host.Outcome State Fault Refusal := onDev s (fun d => frameTxStart d p.val)

/-- FRAME_TX_DONE (R199). -/
def execFrameTxDone (p : PortId) (s : State) : Host.Outcome State Fault Refusal := onDev s (fun d => frameTxDone d p.val)

/-- FDB_AGEING (R185). -/
def execFdbAgeing (index : BitVec 17) (s : State) : Host.Outcome State Fault Refusal := onDev s (fun d => fdbAge d index.toNat)

/-- RECOVERY_RESET (R187). -/
def execRecoveryReset (handle : Fin 16384) (s : State) : Host.Outcome State Fault Refusal := onDev s (fun d => recoveryReset d handle.val)

/-- CHANGE (R193): a write of 1 to PORT_GATE_CTRL.CHANGE. -/
def execGateChange (p : PortId) (s : State) : Host.Outcome State Fault Refusal :=
  onDev s (fun d => if isEthernet d p.val then gateChange d p.val else portModeDrop d p.val)

/-- GATE_CONFIG_CHANGE (R193). -/
def execGateConfigChange (p : PortId) (s : State) : Host.Outcome State Fault Refusal := onDev s (fun d => gateConfigChange d p.val)

/-- GATE_OPERATION (R194). -/
def execGateOperation (p : PortId) (s : State) : Host.Outcome State Fault Refusal := onDev s (fun d => gateOperation d p.val)

/-- GATE_LIST_READ (R192). -/
def execGateListRead (p : PortId) (list : Fin 2) (entry : Fin 1024) (s : State) : Host.Outcome State Fault Refusal :=
  onDev s (fun d => if isEthernet d p.val then whenDone (PORT_GATE_INDEX p.val) PORT_GATE_INDEX_DONE (fun d => gateListRead d p.val list.val entry.val) d else portModeDrop d p.val)

/-- GATE_LIST_WRITE (R193). -/
def execGateListWrite (p : PortId) (list : Fin 2) (entry : Fin 1024) (s : State) : Host.Outcome State Fault Refusal :=
  onDev s (fun d => if isEthernet d p.val then whenDone (PORT_GATE_INDEX p.val) PORT_GATE_INDEX_DONE (fun d => gateListWrite d p.val list.val entry.val) d else portModeDrop d p.val)

/-- PREEMPT_VERIFY_DONE (R196). -/
def execPreemptVerifyDone (p : PortId) (ok : Bool) (s : State) : Host.Outcome State Fault Refusal := onDev s (fun d => preemptVerify d p.val ok)

/-- AUTO_NEGOTIATION_DONE (R172). -/
def execAutoNegotiationDone (p : PortId) (ability : BitVec 32) (x : PartnerModes) (s : State) : Host.Outcome State Fault Refusal :=
  onDev s (fun d => autoNegotiation d p.val ability x.modes.toNat x.fec.toNat)

/-- LINK_DOWN (R209). -/
def execLinkDown (x : PortLoss) (s : State) : Host.Outcome State Fault Refusal := onDev s (fun d => linkDown (notePortFault d x.port.val x.fault) x.port.val)

/-- LINK_UP (R209). -/
def execLinkUp (p : PortId) (s : State) : Host.Outcome State Fault Refusal := onDev s (fun d => linkUpEvent d p.val)

/-- EN (R209): a write of PORT_CTRL.EN. -/
def execPortEn (_who : Agent) (p : PortId) (on : Bool) (s : State) : Host.Outcome State Fault Refusal :=
  onDev s (fun d => if isEthernet d p.val then portEn d p.val on else portModeDrop d p.val)

/-- SW_TBL_READ (R181). -/
def execSwTblRead (table : Fin 16) (index : BitVec 17) (s : State) : Host.Outcome State Fault Refusal :=
  onDev s (fun d => whenOn d 76 (whenDone SW_TBL_INDEX SW_TBL_INDEX_DONE (fun d => swTblRead d table.val index.toNat)))

/-- SW_TBL_WRITE (R181). -/
def execSwTblWrite (table : Fin 16) (index : BitVec 17) (s : State) : Host.Outcome State Fault Refusal :=
  onDev s (fun d => whenOn d 76 (whenDone SW_TBL_INDEX SW_TBL_INDEX_DONE (fun d => swTblWrite d table.val index.toNat)))

/-- FDB_INSERT (R181); on another table than 1 it does nothing but set TBL_RANGE. -/
def execFdbInsert (table : Fin 16) (s : State) : Host.Outcome State Fault Refusal :=
  onDev s (fun d => whenOn d 76 (whenDone SW_TBL_INDEX SW_TBL_INDEX_DONE (fun d => if table.val = 1 then fdbInsertOp d else fset (swOpSet d 2 table.val) SW_ERR SW_ERR_TBL_RANGE 1)))

/-- FDB_DELETE (R181). -/
def execFdbDelete (table : Fin 16) (s : State) : Host.Outcome State Fault Refusal :=
  onDev s (fun d => whenOn d 76 (whenDone SW_TBL_INDEX SW_TBL_INDEX_DONE (fun d => if table.val = 1 then fdbDeleteOp d else fset (swOpSet d 3 table.val) SW_ERR SW_ERR_TBL_RANGE 1)))

/-- PCIE_INBOUND_REQUEST (R206). -/
def execPcieInboundRequest (r : RootId) (write : Bool) (addr : Word) (n : BitVec 13) (data : List Byte) (s : State) : Host.Outcome State Fault Refusal :=
  onDev s (fun d => inbound d r.val write addr.toNat n.toNat data)

/-- COMPLETION_TIMEOUT (R207). -/
def execCompletionTimeout (r : RootId) (s : State) : Host.Outcome State Fault Refusal := onDev s (fun d => completionTimeout d r.val)

/-- PCIE_LINK_DOWN (R207). -/
def execPcieLinkDown (x : RootLoss) (s : State) : Host.Outcome State Fault Refusal :=
  onDev s (fun d => if x.contain then rootContain d x.root.val else rootLost d x.root.val)

/-- PCIE_LINK_UP (R207). -/
def execPcieLinkUp (r : RootId) (s : State) : Host.Outcome State Fault Refusal := onDev s (fun d => rootUp d r.val)

/-- PERST_RELEASE (R208). -/
def execPerstRelease (r : RootId) (s : State) : Host.Outcome State Fault Refusal := onDev s (fun d => perstRelease d r.val)

end Sys2Proof.Machine
end

