-- ==== Sys2Proof/Machine/HistCmds.lean ====
section
/-! DEFINITION. HistCmds: the command ring and the queries of the historian, and the meanings of its commands (08 R323 to R327). -/
namespace Sys2Proof.Machine

/-! ## The command ring (R323) -/

def cqHead (s : Dev) : Nat := fget s HIST_CQ HIST_CQ_HEAD
def cqTail (s : Dev) : Nat := fget s HIST_CQ HIST_CQ_TAIL

/-- The entry at HEAD is read: its translation is kept (12 R462). -/
def ringFetch (s : Dev) : Dev := (hReadWord s (ringAddr s (cqHead s))).2

/-- Word `w` of the entry at HEAD. -/
def ringWord (s : Dev) (w : Nat) : Word := (hReadWord s (ringAddr s (cqHead s) + 8 * w)).1

def ringCode (s : Dev) : Nat := bitsOf (ringWord s 0) (7, 0)
def ringIrq (s : Dev) : Bool := bitsOf (ringWord s 0) (8, 8) == 1

/-- The entry at HEAD is taken. -/
def ringNext (s : Dev) : Dev := fincWrap s HIST_CQ HIST_CQ_HEAD 1

/-- The entry at HEAD completes with a status. -/
def ringDone (s : Dev) (status : Nat) : Dev := ringComplete (ringNext s) (cqHead s) (ringIrq s) false status

/-- Entries whose code is no command complete with NOT_SUPPORTED (R324). -/
def ringSkip : Nat → Dev → Dev
  | 0, s => s
  | n + 1, s =>
    if cqHead s = cqTail s then s
    else if 1 ≤ ringCode s ∧ ringCode s ≤ 6 then ringFetch s
    else ringSkip n (ringDone (ringFetch s) ST_NOT_SUPPORTED)

/-- What the command at HEAD waits for: its ring entry, and the source of a BULK (01 R15, 05 R213). -/
def ringWaits (s : Dev) (code : Nat) : List Nat :=
  hWaits s (ringAddr s (cqHead s)) 64 true ++
    (if code = 2 then (rangeFrom 0 (min 1023 (ringWord s 3).toNat)).flatMap (fun i => hWaits s ((ringWord s 2).toNat + 4096 * i) 4064 false) else [])

/-- A command runs when the entry at HEAD holds its code; RECORD, BULK, SYNC and INFO keep ring order behind a SYNC that waits. -/
def ringRun (s : Dev) (code : Nat) (f : Dev → Dev) : Dev :=
  let ordered := code != 3 && code != 4
  if domOn s 77 && cqHead s != cqTail s && ringCode s == code && !(ordered && s.hist.sync.isSome) then
    engineAct s (ringWaits s code) (fun s => ringSkip 4096 (f (ringFetch s)))
  else s

/-- HIST_CQ (R323, register table): a TAIL more than the ring size ahead of HEAD is dropped. -/
def cqDoorbell (s : Dev) (tail : Nat) : Dev :=
  if cqSize s < (tail + 65536 - cqHead s) % 65536 then hErr s HIST_ERR_BAD_VALUE
  else ringSkip 4096 (fset s HIST_CQ HIST_CQ_TAIL tail)

/-- RECORD (R324): one software sample under its own software time; the signal's compression state stays (log 127, DESIGN CHOICE). -/
def doRecord (s : Dev) : Dev :=
  if hState s ≠ H_RUNNING then ringDone s ST_WRONG_STATE
  else
    let w1 := ringWord s 1
    let t := if ringWord s 2 = 0 then nowNs s else (ringWord s 2).toNat
    match putSample s 0 true (bitsOf w1 (19, 0)) ⟨t, ringWord s 3, BitVec.ofNat 8 (bitsOf w1 (27, 20))⟩ with
    | some s1 => ringDone s1 ST_OK
    | none => ringDone (countHist s 0x08) ST_NO_RESOURCE

/-- Blocks the buffers can still take. -/
def blocksFree (s : Dev) : Nat :=
  let used := s.hist.sealedBufs.length + s.hist.flight.length
  match s.hist.openBuf with
  | some b => 1023 - b.blocks.length - (if b.cur.isSome then 1 else 0) + 1023 * (hBuffers s - used - 1)
  | none => 1023 * (hBuffers s - used)

/-- One bulk block into the open buffer, behind the sample block it closes (R308, R311) (log 59, DEDUCED). -/
def putBulk (stream time : Nat) (s : Dev) (payload : List Byte) : Dev :=
  match openBuffer s with
  | none => s
  | some (b, s1) =>
    let put (s : Dev) (b : HBuf) : Dev :=
      let b1 := noteTime b time
      let blk : HBlock := { kind := 2, time0 := time, stream := stream, payload := payload }
      putBuffer s { b1 with bulk := b1.bulk + 1, blocks := b1.blocks ++ [blk] }
    let s2 := if b.cur.isSome then putBuffer s1 (closeCur b) else s1
    match openBuffer s2 with
    | none => s2
    | some (b2, s3) => put s3 b2

/-- Payloads of a BULK command, a poisoned word as 0 (02 R65); `none` when stage 2 refuses its source (log 62, DEDUCED). -/
def bulkSource (s : Dev) (ipa : Nat) : Nat → Option (List (List Byte)) × Dev
  | 0 => (some [], s)
  | n + 1 =>
    match ioTranslate s (hManager s) ipa false with
    | (none, s1) => (none, s1)
    | (some pa, s1) =>
      if !(inDram s1 pa) then (none, s1)
      else
        let bs := (rangeFrom 0 508).flatMap (fun i => leBytes 8 (readTagged s1 (pa + 8 * i)).val.toNat)
        match bulkSource (dramTaken (ioRead s1 pa 4064).2 histSource pa 4064) (ipa + 4096) n with
        | (none, s2) => (none, s2)
        | (some l, s2) => (some (bs :: l), s2)

/-- BULK (R324). A source that cannot be read has no status of its own: a free value (log 62, DEDUCED). -/
def doBulk (s : Dev) : Dev :=
  let n := (ringWord s 3).toNat
  let src := (ringWord s 2).toNat
  if hState s ≠ H_RUNNING then ringDone s ST_WRONG_STATE
  else if src % 4096 ≠ 0 ∨ n = 0 ∨ 1023 < n ∨ 2 ^ 32 ≤ (ringWord s 1).toNat then ringDone s ST_BAD_ARG
  else if blocksFree s < n then ringDone (countHist s 0x08) ST_NO_RESOURCE
  else
    match bulkSource s src n with
    | (none, s1) => let f := drawFree s1; ringDone f.2 (f.1.toNat % 65536)
    | (some l, s1) =>
      let t := (ringWord s 4).toNat
      ringDone (l.foldl (putBulk (ringWord s 1).toNat t) s1) ST_OK

/-- Live segments in log order with their FIRST_SEQ: those from TAIL to HEAD whose index entry is not zero (R322, R325). -/
def liveSegments (s : Dev) : List Nat :=
  let S := hS s
  if S = 0 then []
  else ((rangeFrom 0 ((hHead s + S - hTail s) % S + 1)).map (fun i => (hTail s + i) % S)).filter (fun g => (idxWord s g 28).1 != 0)

/-- Whether a query reads a live segment, judged by its index entry (R325). -/
def segMeets (s : Dev) (q : HQuery) (g : Nat) : Bool :=
  decide ((idxWord s g 36).1 < q.t2) && decide (q.t1 ≤ (idxWord s g 44).1) &&
    (q.bulk || nbit ((idxWord s g (92 + q.key / 128 / 64 * 8)).1) (q.key / 128 % 64))

/-- The index entries that a query judges by are read: their translations are kept (12 R462). -/
def idxFetch (s : Dev) (g : Nat) : Dev := (idxWord (idxWord s g 28).2 g 1108).2

/-- QUERY and QUERY_BULK (R323, R325): the query takes a slot, or waits at the ring head for one (log 62, DEDUCED). -/
def startQuery (s : Dev) (bulk : Bool) : Dev :=
  let key := (ringWord s 1).toNat
  let t1 := (ringWord s 2).toNat
  let t2 := (ringWord s 3).toNat
  let addr := (ringWord s 4).toNat
  if !(hState s == H_RUNNING || hState s == H_FAULT) then ringDone s ST_WRONG_STATE
  else if t2 ≤ t1 ∨ (!bulk ∧ 0xFFFFF < key) ∨ addr % (if bulk then 4096 else 16) ≠ 0 then ringDone s ST_BAD_ARG
  else
    match (rangeFrom 0 4).find? (fun i => (mfind s.hist.queries i).isNone) with
    | none => s
    | some i =>
      let q : HQuery := { entry := cqHead s, bulk := bulk, key := key, t1 := t1, t2 := t2, addr := addr, cap := (ringWord s 5).toNat, irq := ringIrq s }
      let segs := ((liveSegments s).filter (segMeets s q)).map (fun g => (g, (idxWord s g 28).1))
      modHist (ringNext ((liveSegments s).foldl idxFetch s)) (fun h => { h with queries := mput h.queries i { q with segs := segs } })

/-! ## Query results (R325, R326) -/

/-- Records of a sample block for one signal within [t1, t2): (time, value, tag). `t` is the time in effect. -/
def blockRecords (sig t1 t2 : Nat) : Nat → Nat → List Byte → List (Nat × QWord)
  | 0, _, _ => []
  | n + 1, t, bs =>
    let id := leNat (bs.take 3)
    let v := leNat ((bs.drop 4).take 8)
    if id = 0xFFFFFF then blockRecords sig t1 t2 n v (bs.drop 12)
    else
      let rest := blockRecords sig t1 t2 n t (bs.drop 12)
      if id = sig ∧ t1 ≤ t ∧ t < t2 then (t, ⟨BitVec.ofNat 64 v, (bs.drop 3).headD 0⟩) :: rest else rest

/-- Results of one segment: sample records, or bulk payloads by time. -/
def segResults (s : Dev) (q : HQuery) (g : Nat) : List (Nat × QWord × List Byte) :=
  (rangeFrom 0 1023).flatMap (fun b =>
    let x := segBlock s g b
    if q.bulk then
      (if bkKind x = 2 ∧ bkStream x = q.key ∧ q.t1 ≤ bkTime x ∧ bkTime x < q.t2 then [(bkTime x, QWord.zero, (x.drop 28).take 4064)] else [])
    else if bkKind x = 1 then
      (blockRecords q.key q.t1 q.t2 (min (bkCount x) 338) (bkTime x) (x.drop 28)).map (fun r => (r.1, r.2, []))
    else [])

/-- A segment that the query can no longer read is skipped: a read fails, also below a root port that is down, or the segment has been rewritten (R296, R326). -/
def segSkipped (s : Dev) (failed : List Nat) (e : Nat × Nat) : Bool :=
  failed.contains e.1 || (rangeFrom 0 (hD s)).any (fun j => !(driveReached s j)) || (rangeFrom 0 1024).any (fun b => bkSeq (segBlock s e.1 b) != e.2 + b)

/-- Result `j` of a query is written (R325). -/
def writeResult (q : HQuery) (x : Bool × Nat × Dev) (r : Nat × QWord × List Byte) : Bool × Nat × Dev :=
  let (ok, j, s) := x
  if q.bulk then
    let w := hWriteWords s (q.addr + 4096 * j) ((wordsLE 508 r.2.2).map (fun v => ⟨v, 0x00⟩))
    (ok && w.1, j + 1, w.2)
  else
    let w := hWriteWords s (q.addr + 16 * j) [⟨BitVec.ofNat 64 r.1, 0x00⟩, r.2.1]
    (ok && w.1, j + 1, w.2)

/-- The results of a query in its result area: whether stage 2 let them all through (R325). -/
def writeResults (s : Dev) (q : HQuery) (all : List (Nat × QWord × List Byte)) : Bool × Dev :=
  let w := (all.take q.cap).foldl (writeResult q) (true, 0, s)
  (w.1, w.2.2)

/-- Words 6 and 2 of a query's ring entry: results, segments skipped, and the time of the first result that found no room (R325, R326). -/
def writeCounts (s : Dev) (q : HQuery) (skipped : Nat) (all : List (Nat × QWord × List Byte)) : Dev :=
  let s1 := hWritePlain s (ringAddr s q.entry + 48) [BitVec.ofNat 64 ((all.take q.cap).length % 2 ^ 32 + skipped * 2 ^ 32)]
  match all.drop q.cap with
  | r :: _ => hWritePlain s1 (ringAddr s q.entry + 16) [BitVec.ofNat 64 r.1]
  | [] => s1

/-- What a query's completion waits for: its result area and its ring entry (01 R15, 05 R213). -/
def queryWaits (s : Dev) (slot : Nat) (failed : List Nat) : List Nat :=
  match mfind s.hist.queries slot with
  | none => []
  | some q =>
    let n := ((q.segs.filter (fun e => !(segSkipped s failed e))).flatMap (fun e => segResults s q e.1)).length
    hWaits s q.addr ((if q.bulk then 4096 else 16) * min n q.cap) true ++ hWaits s (ringAddr s q.entry) 64 true

/-- QUERY_COMPLETE (R325, R326). A result address that stage 2 refuses has no status of its own: a free value; any but OK writes nothing (R324) (log 62, DEDUCED). -/
def queryComplete (s : Dev) (slot : Nat) (failed : List Nat) : Dev :=
  match mfind s.hist.queries slot with
  | none => s
  | some q =>
    let good := q.segs.filter (fun e => !(segSkipped s failed e))
    let all := good.flatMap (fun e => segResults s q e.1)
    let more := decide (q.cap < all.length)
    let s1 := good.foldl (fun s _ => countHist s 0x06) (modHist s (fun h => { h with queries := mdel h.queries slot }))
    let f := drawFree s1
    let w := writeResults f.2 q all
    let status := if w.1 then ST_OK else f.1.toNat % 65536
    if status = ST_OK then ringComplete (writeCounts w.2 q (q.segs.length - good.length) all) q.entry q.irq more ST_OK
    else ringComplete f.2 q.entry q.irq false status

/-- SYNC (R324): the open buffer is sealed; the command ends when everything sealed is on the media (log 62, DEDUCED). -/
def doSync (s : Dev) : Dev :=
  if hState s ≠ H_RUNNING then ringDone s ST_WRONG_STATE
  else
    let s1 := sealOpen s
    let left := s1.hist.sealedBufs.length + s1.hist.flight.length
    syncCheck (modHist (ringNext s1) (fun h => { h with sync := some (cqHead s, ringIrq s, left) }))

/-- INFO (R324). -/
def doInfo (s : Dev) : Dev :=
  let t := idxWord s (hTail s) 36
  let ws : List Word := [BitVec.ofNat 64 (hHead s), BitVec.ofNat 64 (hTail s), BitVec.ofNat 64 t.1, BitVec.ofNat 64 s.hist.nextSeq]
  ringDone (hWritePlain t.2 (ringAddr s (cqHead s) + 8) ws) ST_OK

/-! ## Table access (R300, R307) -/

def histTableSize : Nat → Nat
  | 0 => 16
  | 1 => 1024
  | 2 => 1048576
  | _ => 5

/-- Bits of DATA0 and DATA1 that each table keeps (08 historian table entries). -/
def histMask : Nat → Nat × Nat
  | 0 => (2 ^ 41 - 1, 2 ^ 34 - 1)
  | 1 => (2 ^ 42 - 1, 0)
  | 2 => (0xFFFFFFFF1FFFFFFF, 2 ^ 64 - 1)
  | _ => (2 ^ 46 - 1, 2 ^ 64 - 1)

/-- The index register after an access. -/
def histIndex (s : Dev) (t i w : Nat) : Dev :=
  fset (fset (fset s HIST_TBL_INDEX HIST_TBL_INDEX_TABLE t) HIST_TBL_INDEX HIST_TBL_INDEX_INDEX i) HIST_TBL_INDEX HIST_TBL_INDEX_WRITE w

/-- HIST_TBL_INDEX with GO and WRITE 0. -/
def histTblRead (s : Dev) (t i : Nat) : Dev :=
  let s0 := histIndex s t i 0
  if histTableSize t ≤ i then hErr s0 HIST_ERR_BAD_VALUE
  else setReg (setReg s0 HIST_TBL_DATA0 (hWord0 s t i)) HIST_TBL_DATA1 (hWord1 s t i)

/-- HIST_TBL_INDEX with GO and WRITE 1: a signal's compression state is reset (R307); tables 0 and 3 only in OFF (R300). -/
def histTblWrite (s : Dev) (t i : Nat) : Dev :=
  let s0 := histIndex s t i 1
  if histTableSize t ≤ i then hErr s0 HIST_ERR_BAD_VALUE
  else if (t = 0 ∨ t = 3) ∧ hState s ≠ H_OFF then hErr s0 HIST_ERR_RUNNING
  else
    let m := histMask t
    let v0 : Word := BitVec.ofNat 64 (Nat.land (reg s HIST_TBL_DATA0).toNat m.1)
    let v1 : Word := BitVec.ofNat 64 (Nat.land (reg s HIST_TBL_DATA1).toNat m.2)
    modHist s0 (fun h => { h with
      d0 := mset (fun _ => 0) h.d0 (hKey t i) v0
      d1 := mset (fun _ => 0) h.d1 (hKey t i) v1
      comp := if t = 2 then mdel h.comp i else h.comp })

/-! ## Meanings -/

/-- HIST_ENABLE (R299): a write of 1 to HIST_CTRL.EN. -/
def execHistEnable (_who : Agent) (s : State) : Host.Outcome State Fault Refusal := onDev s (fun d => whenOn d 77 histEnable)

/-- HIST_DISABLE (R299): a write of 0 to HIST_CTRL.EN. -/
def execHistDisable (_who : Agent) (s : State) : Host.Outcome State Fault Refusal := onDev s (fun d => whenOn d 77 histDisable)

/-- HIST_RESTART (R320). -/
def execHistRestart (drives : List DriveFacts) (s : State) : Host.Outcome State Fault Refusal := onDev s (fun d => whenOn d 77 (fun d => histRestart d drives))

/-- HIST_SHUTDOWN_DONE (R299). -/
def execHistShutdownDone (s : State) : Host.Outcome State Fault Refusal := onDev s (fun d => whenOn d 77 shutdownDone)

/-- SEAL_TIMER (R315). -/
def execSealTimer (s : State) : Host.Outcome State Fault Refusal := onDev s (fun d => whenOn d 77 sealTimer)

/-- SEGMENT_WRITE (R316). -/
def execSegmentWrite (s : State) : Host.Outcome State Fault Refusal := onDev s (fun d => whenOn d 77 segmentWrite)

/-- NVME_COMPLETION (R316, R317). -/
def execNvmeCompletion (i : Nat) (j : Fin 16) (n : Nat) (ok : Bool) (s : State) : Host.Outcome State Fault Refusal :=
  onDev s (fun d => whenOn d 77 (fun d => driveEnds d i j.val n ok))

/-- NVME_TIMEOUT (R296). -/
def execNvmeTimeout (i : Nat) (j : Fin 16) (n : Nat) (s : State) : Host.Outcome State Fault Refusal :=
  onDev s (fun d => whenOn d 77 (fun d => driveTimeout d i j.val n))

/-- SUPERBLOCK_TIMER (R314). -/
def execSuperblockTimer (s : State) : Host.Outcome State Fault Refusal := onDev s (fun d => whenOn d 77 superTimer)

/-- HIST_CQ (R323). -/
def execHistCq (tail : BitVec 16) (s : State) : Host.Outcome State Fault Refusal := onDev s (fun d => whenOn d 77 (fun d => cqDoorbell d tail.toNat))

/-- RECORD (R324). -/
def execHistRecord (s : State) : Host.Outcome State Fault Refusal := onDev s (fun d => ringRun d 1 doRecord)

/-- BULK (R324). -/
def execHistBulk (s : State) : Host.Outcome State Fault Refusal := onDev s (fun d => ringRun d 2 doBulk)

/-- QUERY (R325). -/
def execHistQuery (s : State) : Host.Outcome State Fault Refusal := onDev s (fun d => ringRun d 3 (fun d => startQuery d false))

/-- QUERY_BULK (R325). -/
def execHistQueryBulk (s : State) : Host.Outcome State Fault Refusal := onDev s (fun d => ringRun d 4 (fun d => startQuery d true))

/-- SYNC (R324). -/
def execHistSync (s : State) : Host.Outcome State Fault Refusal := onDev s (fun d => ringRun d 5 doSync)

/-- INFO (R324). -/
def execHistInfo (s : State) : Host.Outcome State Fault Refusal := onDev s (fun d => ringRun d 6 doInfo)

/-- QUERY_COMPLETE (R326). -/
def execHistQueryComplete (slot : Fin 4) (failed : List Nat) (s : State) : Host.Outcome State Fault Refusal :=
  onDev s (fun d => whenOn d 77 (fun d => engineAct d (queryWaits d slot.val failed) (fun d => queryComplete d slot.val failed)))

/-- HIST_TBL_READ. -/
def execHistTblRead (table : Fin 4) (index : Fin 1048576) (s : State) : Host.Outcome State Fault Refusal :=
  onDev s (fun d => whenOn d 77 (whenDone HIST_TBL_INDEX HIST_TBL_INDEX_DONE (fun d => histTblRead d table.val index.val)))

/-- HIST_TBL_WRITE (R307). -/
def execHistTblWrite (table : Fin 4) (index : Fin 1048576) (s : State) : Host.Outcome State Fault Refusal :=
  onDev s (fun d => whenOn d 77 (whenDone HIST_TBL_INDEX HIST_TBL_INDEX_DONE (fun d => histTblWrite d table.val index.val)))

end Sys2Proof.Machine
end

