-- ==== Sys2Proof/Machine/Ctl.lean ====
section
/-! DEFINITION. Ctl: branches and jumps, time, fences, system instructions, special registers, TLB maintenance, interrupts, walks (10 R389 to R405, 11 R416 to R437, 12 R449 to R463). -/
namespace Sys2Proof.Machine

/-! ## Branches and jumps (R389 to R391, 09 R335 to R339) -/

/-- A byte offset of `4 × off` from an address, modulo 2^64. -/
def target (pc n off : Nat) : Nat := ofSigned 64 ((pc : Int) + 4 * toSigned n off)

/-- A control transfer resolves: the thread stands before its slot. -/
def resolve (s : Dev) (t : Nat) (f : Thread → Thread) (sl : Slot) : Dev :=
  modThr s t (fun x => let y := f x; { y with pc := x.pc + 4, slot := sl })

/-- A branch on a register against zero; in a delay slot it is illegal (09 R336, R338). -/
def branch (s : State) (t : Thr) (w : Nat) (r : GReg) (a : Bool) (off : BitVec 19) (cond : Int → Bool) : Host.Outcome State Fault Refusal :=
  onDev s (fun d => onInsn d t.val [r] (fun d =>
    if inSlot d t.val then illegal d t.val w
    else
      let pc := (thr d t.val).pc
      let taken := cond (rv d t.val r).toInt
      let d1 := trcBranch d t.val taken
      if taken then resolve d1 t.val (fun x => x) (.exec (target pc 19 off.toNat))
      else resolve d1 t.val (fun x => x) (if a then .annul (pc + 8) else .exec (pc + 8))))

/-- BEQ. -/
def execBeq (t : Thr) (rs1 : GReg) (a : Bool) (off : BitVec 19) (s : State) : Host.Outcome State Fault Refusal :=
  branch s t (wordOf (.beq t rs1 a off)) rs1 a off (fun v => v == 0)

/-- BNE. -/
def execBne (t : Thr) (rs1 : GReg) (a : Bool) (off : BitVec 19) (s : State) : Host.Outcome State Fault Refusal :=
  branch s t (wordOf (.bne t rs1 a off)) rs1 a off (fun v => v != 0)

/-- BLT. -/
def execBlt (t : Thr) (rs1 : GReg) (a : Bool) (off : BitVec 19) (s : State) : Host.Outcome State Fault Refusal :=
  branch s t (wordOf (.blt t rs1 a off)) rs1 a off (fun v => decide (v < 0))

/-- BGE. -/
def execBge (t : Thr) (rs1 : GReg) (a : Bool) (off : BitVec 19) (s : State) : Host.Outcome State Fault Refusal :=
  branch s t (wordOf (.bge t rs1 a off)) rs1 a off (fun v => decide (0 ≤ v))

/-- BGT. -/
def execBgt (t : Thr) (rs1 : GReg) (a : Bool) (off : BitVec 19) (s : State) : Host.Outcome State Fault Refusal :=
  branch s t (wordOf (.bgt t rs1 a off)) rs1 a off (fun v => decide (0 < v))

/-- BLE. -/
def execBle (t : Thr) (rs1 : GReg) (a : Bool) (off : BitVec 19) (s : State) : Host.Outcome State Fault Refusal :=
  branch s t (wordOf (.ble t rs1 a off)) rs1 a off (fun v => decide (v ≤ 0))

/-- A jump writes its address + 8 under tag 0x00; its slot always executes (R390). -/
def jumpTo (d : Dev) (t w : Nat) (rd : GReg) (dest : Nat) : Dev :=
  if inSlot d t then illegal d t w
  else resolve d t (fun x => setGpr x rd.val ⟨BitVec.ofNat 64 (x.pc + 8), 0⟩) (.exec dest)

/-- JAL. -/
def execJal (t : Thr) (rd : GReg) (imm : BitVec 20) (s : State) : Host.Outcome State Fault Refusal :=
  onDev s (fun d => onInsn d t.val [] (fun d => jumpTo d t.val (wordOf (.jal t rd imm)) rd (target (thr d t.val).pc 20 imm.toNat)))

/-- JALR: rs1 + IMM14 with bits 1:0 cleared; a TARGET packet (16 R610). -/
def execJalr (t : Thr) (rd rs1 : GReg) (imm : BitVec 14) (s : State) : Host.Outcome State Fault Refusal :=
  onDev s (fun d => onInsn d t.val [rs1] (fun d =>
    let dest := (rv d t.val rs1 + sext 14 imm.toNat).toNat / 4 * 4
    let d1 := if inSlot d t.val then d else trcTarget d t.val dest
    jumpTo d1 t.val (wordOf (.jalr t rd rs1 imm)) rd dest))

/-! ## Time and cycle (R395 to R398) -/

/-- TNOW: device time in whole ns. -/
def execTnow (t : Thr) (rd : GReg) (s : State) : Host.Outcome State Fault Refusal :=
  onDev s (fun d => onInsn d t.val [] (fun d => result d t.val (wordOf (.tnow t rd)) rd ⟨BitVec.ofNat 64 (nowNs d), 0⟩))

/-- TWAIT: the thread waits until device time reaches the value of rs1; a deadline passed costs nothing more. -/
def execTwait (t : Thr) (rs1 : GReg) (s : State) : Host.Outcome State Fault Refusal :=
  onDev s (fun d => onInsn d t.val [rs1] (fun d =>
    let until_ := (rv d t.val rs1).toNat
    if inSlot d t.val then illegal d t.val (wordOf (.twait t rs1))
    else if until_ ≤ nowNs d then advance d t.val
    else modThr d t.val (fun x => { x with twait := some until_ })))

/-- TWAIT_EXPIRY: device time reaches the deadline. -/
def execTwaitExpiry (t : Thr) (s : State) : Host.Outcome State Fault Refusal :=
  onDev s (fun d =>
    match (thr d t.val).twait with
    | some n => if (thr d t.val).st = .running then advance (modThr (advanceTo d n) t.val (fun x => { x with twait := none })) t.val else d
    | none => d)

/-- TWAIT.C: the cycle-end wait of a cyclic thread (R398, 04 R156) (log 51, DEDUCED). -/
def execTwaitC (t : Thr) (s : State) : Host.Outcome State Fault Refusal :=
  onDev s (fun d => onInsn d t.val [] (fun d =>
    if inSlot d t.val || (threadEntry d t.val).isNone then illegal d t.val (wordOf (.twaitC t))
    else modThr d t.val (fun x => { x with cycleEnd := true })))

/-- CYCN: the number of a class's current fill cycle. -/
def execCycn (t : Thr) (rd : GReg) (c : ClassId) (s : State) : Host.Outcome State Fault Refusal :=
  onDev s (fun d => onInsn d t.val [] (fun d => result d t.val (wordOf (.cycn t rd c)) rd ⟨reg d (CYC_NUMBER c.val), 0⟩))

/-! ## Fences and prefetch (R399, 09 R342, R360, R361) -/

/-- FENCE: completes once every cacheable load has completed and the store buffer is empty. -/
def execFence (t : Thr) (s : State) : Host.Outcome State Fault Refusal :=
  onDev s (fun d => onInsn d t.val [] (fun d =>
    let x := thr d t.val
    if x.storeBuf.isEmpty && x.accs.all (fun a => a.uncached || a.trap.isSome) then advance d t.val else d))

/-- FENCE.IO: completes once every earlier load has completed, the store buffer is empty, every uncached access is accepted and every deferred exception is taken (R409). -/
def execFenceIo (t : Thr) (s : State) : Host.Outcome State Fault Refusal :=
  onDev s (fun d => onInsn d t.val [] (fun d =>
    let x := thr d t.val
    if x.storeBuf.isEmpty && x.accs.isEmpty then advance d t.val else d))

/-- PFLUSH: the core's prefetch state is discarded. -/
def execPflush (t : Thr) (s : State) : Host.Outcome State Fault Refusal :=
  onDev s (fun d => onInsn d t.val [] (fun d => advance (flushPrefetch d (t.val / 8)) t.val))

/-! ## System instructions (R404) -/

/-- SYSCALL: vector 9; the frame records the code and resumes at the next instruction. A word given in its place that is no instruction (R369) takes the illegal-opcode exception (log 43, DESIGN CHOICE). -/
def execSyscall (t : Thr) (y : SysOperand) (s : State) : Host.Outcome State Fault Refusal :=
  onDev s (fun d =>
    match y.raw with
    | some w => if (decodeInsn t w.toNat).isSome then d else onInsn d t.val [] (fun d => illegal d t.val w.toNat)
    | none => onInsn d t.val [] (fun d =>
      let x := thr d t.val
      let w := wordOf (.syscall t ⟨y.code, none⟩)
      if inSlot d t.val then illegal d t.val w
      else takeExc d t.val { vector := 9, resume := x.pc + 4, code := y.code.toNat, insn := w }))

/-- BRK: halts for the debugger with its flag set and a grant that reaches the thread, else vector 10; the next instruction resumes, but in a delay slot the frame names the slot and the address it leads to (16 R601, 09 R339) (log 49, DEDUCED). -/
def execBrk (t : Thr) (code : BitVec 10) (s : State) : Host.Outcome State Fault Refusal :=
  onDev s (fun d => onInsn d t.val [] (fun d =>
    let x := thr d t.val
    let w := wordOf (.brk t code)
    if x.brkHalt && tapReaches d t.val then
      (if x.stepping then stepEnd (setThr d t.val (nextPc x)) t.val else haltThread (setThr d t.val (nextPc x)) t.val)
    else if inSlot d t.val then takeExc d t.val { atInsn x 10 w with code := code.toNat }
    else takeExc d t.val { vector := 10, resume := x.pc + 4, code := code.toNat, insn := w }))

/-- Code that is not excluded starts with SYNC after excluded code (16 R609). -/
def trcIncluded (s : Dev) (t : Nat) : Dev :=
  if (trcSrc s t).excluded && !(trcExcluded s t) then setTrcSrc s t { trcSrc s t with excluded := false, needSync := true } else s

/-- ERET: returns from the exception whose frame is at SSP, once earlier stores have drained (11 R427, R428) (log 48, DEDUCED) (log 49, DEDUCED). -/
def execEret (t : Thr) (s : State) : Host.Outcome State Fault Refusal :=
  onDev s (fun d => onInsn d t.val [] (fun d =>
    let x := thr d t.val
    let w := wordOf (.eret t)
    if !x.sup || inSlot d t.val then illegal d t.val w
    else if !(drained x) then d
    else
      match readFrame d t.val with
      | .error (f, a, d1) => takeExc d1 t.val (faultExc x w a .load f)
      | .ok (l, d1) =>
        let d2 := trcIncluded (restoreFrame d1 t.val l) t.val
        stepEnd (tryDeferred (trcTarget d2 t.val (thr d2 t.val).pc) t.val) t.val))

/-! ## Special registers (09 R363, R364, 11 R416, 12 R463, 16 R608) -/

/-- CYCSTAT: OVERRUN, CLASS and CYCLIC (09 R363). -/
def cycStat (s : Dev) (t : Nat) : Nat :=
  b2n (thr s t).overrun + (match threadClass s t with | some c => 2 * c + 16 | none => 0)

/-- The value of a special register for a level; none: unassigned, or not open to the level (09 R364). -/
def readSr (s : Dev) (t n : Nat) (sup : Bool) : Option Nat :=
  let x := thr s t
  let sv (v : Nat) : Option Nat := if sup then some v else none
  match n with
  | 0x00 => some (threadId s t)
  | 0x01 => some x.qmode
  | 0x02 => some x.fpcsr
  | 0x03 => some x.cycpin.toNat
  | 0x04 => some (cycStat s t)
  | 0x05 => sv x.pctl
  | 0x10 => sv (b2n x.sup + 2 * b2n x.emerg)
  | 0x11 => sv x.ipl
  | 0x12 => sv x.vbr
  | 0x13 => sv x.ssp
  | 0x14 => sv x.stackLimit
  | 0x15 => sv x.emsp
  | 0x16 => sv (ipend s t)
  | 0x17 => sv 0
  | 0x20 => sv x.ttb
  | 0x21 => sv x.asid
  | 0x22 => sv x.tctl
  | 0x23 => sv x.tfault
  | 0x24 => sv x.tfipa
  | 0x30 => sv x.trcctl
  | 0x31 => sv x.trcctx
  | _ => none

/-- SWRAISE: source 0xF40 + s, where its route names a thread of the writer's partition (11 R435). -/
def swRaise (s : Dev) (t src : Nat) : Dev :=
  let r : Word := mget (fun _ => 0) s.routes (0xF40 + src)
  if thrPart s (routeThr r) = thrPart s t then raise s (0xF40 + src) else s

/-- A write of a special register; none: an illegal opcode (02 R51, 09 R364). -/
def writeSr (s : Dev) (t n : Nat) (v : Word) (sup : Bool) : Option Dev :=
  let m := v.toNat
  let sv (f : Thread → Thread) : Option Dev := if sup then some (modThr s t f) else none
  match n with
  | 0x01 => if m % 4 = 3 then none else some (modThr s t (fun x => { x with qmode := m % 4 }))
  | 0x02 => some (modThr s t (fun x => { x with fpcsr := m % 2 ^ 12 }))
  | 0x04 => sv (fun x => { x with overrun := x.overrun && !(nbit m 0) })
  | 0x05 => sv (fun x => { x with pctl := m % 2 })
  | 0x11 => sv (fun x => { x with ipl := if 16 < m % 32 then 16 else m % 32 })
  | 0x12 => sv (fun x => { x with vbr := nbits m 47 9 * 512 })
  | 0x13 => sv (fun x => { x with ssp := nbits m 47 6 * 64 })
  | 0x14 => sv (fun x => { x with stackLimit := nbits m 47 6 * 64 })
  | 0x15 => sv (fun x => { x with emsp := nbits m 47 6 * 64 })
  | 0x17 => if sup then some (swRaise s t (m % 64)) else none
  | 0x20 => (sv (fun x => { x with ttb := nbits m 47 12 * 4096 })).map (fun s => flushPrefetch s (t / 8))
  | 0x21 => (sv (fun x => { x with asid := m % 65536 })).map (fun s => flushPrefetch s (t / 8))
  | 0x22 => (sv (fun x => { x with tctl := m % 2 })).map (fun s => flushPrefetch s (t / 8))
  | 0x30 => sv (fun x => { x with trcctl := m % 4 })
  | 0x31 => sv (fun x => { x with trcctx := m % 2 ^ 32 })
  | _ => none

/-- MFSR. -/
def execMfsr (t : Thr) (rd : GReg) (n : Fin 64) (s : State) : Host.Outcome State Fault Refusal :=
  onDev s (fun d => onInsn d t.val [] (fun d =>
    let w := wordOf (.mfsr t rd n)
    match readSr d t.val n.val (thr d t.val).sup with
    | some v => result d t.val w rd ⟨BitVec.ofNat 64 v, 0⟩
    | none => illegal d t.val w))

/-- MTSR: applies from the next instruction (R405). -/
def execMtsr (t : Thr) (n : Fin 64) (rs1 : GReg) (s : State) : Host.Outcome State Fault Refusal :=
  onDev s (fun d => onInsn d t.val [rs1] (fun d =>
    match writeSr d t.val n.val (rv d t.val rs1) (thr d t.val).sup with
    | some d1 => advance d1 t.val
    | none => illegal d t.val (wordOf (.mtsr t n rs1))))

/-! ## TLB maintenance (12 R457 to R459) -/

/-- An invalidation over the partition's cores; the instruction completes once the accesses translated by the removed entries are accepted (log 56, DEDUCED). -/
def tlbi (s : State) (t : Thr) (w : Nat) (srcs : List GReg) (gone : Dev → TlbEnt → Bool) : Host.Outcome State Fault Refusal :=
  onDev s (fun d => onInsn d t.val srcs (fun d =>
    let x := thr d t.val
    let part := thrPart d t.val
    if !x.sup then illegal d t.val w
    else if x.storeBuf.isEmpty && partQuiet d part (gone d) then advance (tlbDrop d part (gone d)) t.val
    else d))

/-- TLBIVA: entries that map the address, global or of the thread's ASID. -/
def execTlbiva (t : Thr) (rs1 : GReg) (s : State) : Host.Outcome State Fault Refusal :=
  tlbi s t (wordOf (.tlbiva t rs1)) [rs1] (fun d e => tlbMatch (thr d t.val).asid (rv d t.val rs1).toNat e)

/-- TLBIASID: entries that are not global, of the ASID in bits 15:0. -/
def execTlbiasid (t : Thr) (rs1 : GReg) (s : State) : Host.Outcome State Fault Refusal :=
  tlbi s t (wordOf (.tlbiasid t rs1)) [rs1] (fun d e => !e.global && e.asid == (rv d t.val rs1).toNat % 65536)

/-- TLBIALL: every combined entry. -/
def execTlbiall (t : Thr) (s : State) : Host.Outcome State Fault Refusal :=
  tlbi s t (wordOf (.tlbiall t)) [] (fun _ _ => true)

/-! ## Interrupts and walks -/

/-- INTERRUPT. -/
def execInterrupt (t : Thr) (s : State) : Host.Outcome State Fault Refusal := onDev s (fun d => interrupt d t.val)

/-- The walk of a waiting access ends: its entries are installed, or the access takes its fault. -/
def endWalk (s : Dev) (t : Nat) (w : WalkWait) : Dev :=
  let s1 := countCore (modThr s t (fun x => { x with walk := none })) t 0x08
  match walk s t w.va w.kind (thr s t).sup with
  | .ok o => installWalk s1 t w.kind o
  | .error f =>
    if w.misaligned && !(match f.pa with | some pa => rotated s1 pa | none => false) then misaligned s1 t w.insn w.va w.kind
    else takeExc s1 t (faultExc (thr s1 t) w.insn w.va w.kind f)

/-- PAGE_WALK (12 R445, R449 to R455): the tables are read, and the walk of the thread's waiting access ends; a table read that stalls leaves it waiting (01 R15). -/
def pageWalk (s : Dev) (t : Nat) : Dev :=
  match (thr s t).walk with
  | none => s
  | some w =>
    match walkReads s t w.va with
    | (some s1, _) => endWalk s1 t w
    | (none, s1) => s1

/-- PAGE_WALK. -/
def execPageWalk (t : Thr) (s : State) : Host.Outcome State Fault Refusal := onDev s (fun d => pageWalk d t.val)

end Sys2Proof.Machine
end

