-- ==== Sys2Proof/Machine/Lockstep.lean ====
section
/-! DEFINITION. Lockstep: comparator faults, the halt of a pair, spares (15 R551 to R562, 01 R21). A pair is named by its position: 4 × cluster + q. -/
namespace Sys2Proof.Machine

/-- The even core of a position. -/
def evenCore (p : Nat) : Nat := 2 * p

/-- Mode of a position (09 CL_PAIR.MODE). -/
def pairMode (s : Dev) (p : Nat) : Nat := bitsOf (reg s (CL_PAIR (p / 4))) (4 * (p % 4) + 3, 4 * (p % 4))
def setPairMode (s : Dev) (p m : Nat) : Dev := setReg s (CL_PAIR (p / 4)) (putBits (reg s (CL_PAIR (p / 4))) (4 * (p % 4) + 3, 4 * (p % 4)) m)
/-- Partition of a core in CL_PAIR. -/
def setCorePart (s : Dev) (core part : Nat) : Dev :=
  setReg s (CL_PAIR (core / 8)) (putBits (reg s (CL_PAIR (core / 8))) (35 + 4 * (core % 8), 32 + 4 * (core % 8)) part)

/-- TWIN_STATUS.REDUCED follows the pairs that run unchecked without a spare (R561, 07 R282). -/
def noteReduced (s : Dev) : Dev := fset s TWIN_STATUS TWIN_STATUS_REDUCED (b2n ((rangeFrom 0 96).any (fun p => pairMode s p == 2 && !(s.smp.moves.any (fun m => m.1 == evenCore p)))))

/-- Whether an access of a thread stands although the thread goes: a store or atomic that the comparators have passed into a bank's queue (R554). -/
def stands (a : Acc) : Bool := a.phase == .waiting && (accIsStore a.op || accIsAtomic a.op)

/-- A thread goes to OFF; requests of it that are dropped from a bank's queue give their credits back (09 R334, 01 R13). `kept`: its accesses that stand. -/
def stopWith (s : Dev) (t : Nat) (kept : Acc → Bool) : Dev :=
  let s1 := trcFlush s t
  let l := (thr s t).accs.filter kept
  let gone (q : BankReq) : Bool := q.thr == t && !(l.any (fun a => a.id == q.id))
  let s2 := modThr s1 t (fun x => { x with st := .off, storeBuf := [], accs := l, twait := none, cycleEnd := false, slot := .none, waitSpare := false, relHeld := none, walk := none, exc := none, stepping := false, stepWait := false })
  let s3 := s2.banks.foldl (fun s e => (e.2.queue.filter gone).foldl (fun s _ => giveCredit s e.1) s) s2
  { s3 with banks := s3.banks.map (fun e => (e.1, { e.2 with queue := e.2.queue.filter (fun q => !(gone q)) })) }

/-- A thread goes to OFF; stores and requests of it not yet accepted are lost (09 R334, 14 R542). -/
def stopThread (s : Dev) (t : Nat) : Dev := stopWith s t (fun _ => false)

/-- A thread of a pair that halts goes to OFF; the stores already released stand (R554). -/
def haltedThread (s : Dev) (t : Nat) : Dev := stopWith s t stands

/-- A thread with the registers of a start, every other register at its reset value (14 R538, 15 R556) (log 65, DEDUCED). -/
def startedThread (x : StartRegs) (st : ThState) : Thread :=
  { st := st, pc := x.entry, sup := x.sup, vbr := x.vbr, ssp := x.ssp, stackLimit := x.stackLimit, emsp := x.emsp, ipl := x.ipl,
    ttb := x.ttb, asid := x.asid, tctl := x.tctl, gpr := mset (fun _ => QWord.zero) [] 1 x.w1, start := x }

/-- Partition manager of a world: role bit 0 (14 R531). -/
def partManager (s : Dev) (world : Nat) : Option Nat :=
  (rangeFrom 0 16).find? (fun p => nbit (partSt s p).roles 0 && (partSt s p).world == world)

/-- Threads of a core that an enabled thread-table entry names. -/
def namedThreads (s : Dev) (core : Nat) : List Nat :=
  dedup ((s.cyc.threads.filter (fun e => bitsOf e.2 (0, 0) == 1 && bitsOf e.2 (8, 1) == core)).map (fun e => bitsOf e.2 (11, 9)))

/-- Running classes with an entry that names a core's thread in one of the given states. -/
def classesNaming (s : Dev) (core : Nat) (live : Thread → Bool) : List Nat :=
  (rangeFrom 0 8).filter (fun c => classRuns s c &&
    (classEntries s c).any (fun e => bitsOf e.2 (8, 1) == core && live (thr s (entryThr e.2))))

/-- Output and state regions of a controller, as a mask. -/
def outStateMask (s : Dev) (k : Nat) : Nat :=
  (rangeFrom 0 3).foldl (fun m r => let x := fget s (IMG_REGION k r) IMG_REGION_KIND; if x = 2 ∨ x = 3 then m + 2 ^ r else m) 0

/-- The present fill cycle of a class is abandoned in its output and state regions (R554, R555). The time to acceptance enters the phase as a free value (log 64, DEDUCED). -/
def abandonClass (s : Dev) (c : Nat) : Dev :=
  let s1 := (classCtls s c).foldl (fun s k =>
    let m := outStateMask s k
    if m = 0 then s
    else if fbit s (IMG_ABANDON k 0) IMG_ABANDON_BUSY = false then abandonWrite s k 0 m (fillStamp s k)
    else if fbit s (IMG_ABANDON k 1) IMG_ABANDON_BUSY = false then abandonWrite s k 1 m (fillStamp s k)
    else setImg s k { imgSt s k with abandonWait := (imgSt s k).abandonWait ++ [(fillStamp s k, m, c)] }) s
  let f := drawFree s1
  phaseValue f.2 3 0 (toSigned 16 f.1.toNat)

/-- The spare chosen for a position: one on the same die, else the lowest on another (01 R21). -/
def chooseSpare (s : Dev) (p : Nat) : Option Nat :=
  let free (q : Nat) : Bool := pairMode s q == 3 && !(s.smp.heal.any (fun h => h.2 == evenCore q)) && !(s.smp.moves.any (fun m => m.2.1 == evenCore q))
  let l := (rangeFrom 0 96).filter free
  match l.filter (fun q => q / 24 == p / 24) with
  | q :: _ => some q
  | [] => l.head?

/-- The change of die is recorded: R21 gives the NOTICE no code (free) (log 63, DEDUCED). -/
def noteDie (s : Dev) (p q : Nat) : Dev :=
  if p / 24 = q / 24 then s
  else let f := drawFree s; logRec f.2 NOTICE SB_CL (p / 4) (f.1.toNat % 65536) []

/-- A pair joins the open RECOVERY_PAIR phase, or opens one (R581). -/
def healPhase (s : Dev) (p : Nat) (q : Option Nat) : Dev :=
  let s1 := openPhase s 3
  match s1.smp.phase with
  | some ph => { s1 with smp := { s1.smp with phase := some { ph with pairs := ph.pairs ++ [(evenCore p, q.map evenCore, s1.smp.op)] } } }
  | none => s1

/-- Notice 0x8102 for the threads that no thread-table entry names (R558) (log 64, DEDUCED). -/
def noticeThreads (s : Dev) (p running : Nat) : Dev :=
  let core := evenCore p
  let lost := (rangeFrom 0 8).filter (fun t => nbit running t && !((namedThreads s core).contains t))
  if lost.isEmpty then s
  else
    match partManager s (partSt s (corePart s core)).world with
    | some m => notify s (256 + m) 0x8102 [BitVec.ofNat 64 (p / 4 + p % 4 * 32), BitVec.ofNat 64 running]
    | none => s

/-- A pair halts (R554 to R558) with the record `code` of R553 (log 64, DEDUCED) (log 63, DEDUCED). -/
def haltPair (s : Dev) (p code : Nat) : Dev :=
  let core := evenCore p
  let running := (rangeFrom 0 8).foldl (fun m t => if (thr s (8 * core + t)).st = .off then m else m + 2 ^ t) 0
  let cs := classesNaming s core (fun x => x.st == .running)
  let s := { s with smp := { s.smp with moves := s.smp.moves.filter (fun m => m.1 != core), halted := dedup (s.smp.halted ++ [p]) } }
  let q := chooseSpare s p
  let s1 := noticeThreads s p running
  let s2 := setPairMode ((rangeFrom (8 * core) 8).foldl haltedThread s1) p 4
  let s3 := healPhase (addRepair (logRec s2 ALERT SB_CL (p / 4) code []) { kind := 4, unit := p, arg := 0 }) p q
  let s4 := noteReduced (cs.foldl abandonClass s3)
  match q with
  | none => logRec s4 ALERT SB_CL (p / 4) 0x0F06 []
  | some q => { noteDie s4 p q with smp := { (noteDie s4 p q).smp with heal := (noteDie s4 p q).smp.heal ++ [(core, evenCore q)] } }

/-- CORE_MISMATCH (R553): both comparators, or one, flag real data of a checked pair; the comparator that stayed silent, if one did, awaits its next self-test (log 63, DEDUCED). -/
def coreMismatch (s : Dev) (p : Nat) (silent : Option Bool) : Dev :=
  if pairMode s p = 1 then
    let s1 := haltPair s p 0x0F01
    match silent with
    | some b => { s1 with smp := { s1.smp with silent := (p, b) :: s1.smp.silent.filter (fun e => e.1 != p) } }
    | none => s1
  else s

/-- DELAY_REGISTER_FAULT (R553) (log 64, DEDUCED). -/
def delayFault (s : Dev) (p : Nat) : Dev := if pairMode s p = 1 ∨ pairMode s p = 2 then haltPair s p 0x0F02 else s

/-- The next self-test of a pair is that of the other comparator: A and B in turn (R552). -/
def turnTest (s : Dev) (p : Nat) : Dev := { s with smp := { s.smp with tests := mset (fun _ => false) s.smp.tests p (!(mget (fun _ => false) s.smp.tests p)) } }

/-- The self-test of the comparator that stayed silent at a halt: not flagged within 4 clocks, a comparator fault is recorded too (R553, R562). -/
def silentTest (s : Dev) (p : Nat) (ok : Bool) : Dev :=
  let s1 := { s with smp := { s.smp with silent := s.smp.silent.filter (fun e => e.1 != p) } }
  if ok then s1 else addRepair (logRec s1 ALERT SB_CL (p / 4) 0x0F03 []) { kind := 4, unit := p, arg := 1 }

/-- COMPARATOR_SELF_TEST (R552, R553, R560, R561): an injection flagged within 4 clocks has no effect; the latency enters an open SELF_TEST. One not flagged in time is a comparator fault. -/
def selfTest (s0 : Dev) (p : Nat) (flagged : Option Nat) : Dev :=
  let which := mget (fun _ => false) s0.smp.tests p
  let ok := match flagged with | some n => decide (n ≤ 4) | none => false
  let s := if pairMode s0 p = 1 ∨ pairMode s0 p = 2 ∨ pairMode s0 p = 4 then turnTest s0 p else s0
  if pairMode s p = 4 then (if s.smp.silent.contains (p, which) then silentTest s p ok else s)
  else if pairMode s p ≠ 1 then s
  else
    if ok then phaseValue s 2 2 (flagged.getD 0)
    else
      let q := chooseSpare s p
      let s1 := setPairMode s p 2
      let s2 := healPhase (addRepair (logRec s1 ALERT SB_CL (p / 4) 0x0F03 []) { kind := 4, unit := p, arg := 1 }) p q
      match q with
      | none => noteReduced (logRec s2 ALERT SB_CL (p / 4) 0x0F05 [])
      | some q => noteReduced { s2 with smp := { s2.smp with moves := s2.smp.moves ++ [(evenCore p, evenCore q, s2.smp.op, nowNs s2)] } }

/-- Thread-table entries, routes and gate owners that named a core name another (R556) (log 96, DEDUCED). -/
def rename (s : Dev) (old new : Nat) : Dev :=
  let thrd := s.cyc.threads.map (fun e => if bitsOf e.2 (0, 0) = 1 ∧ bitsOf e.2 (8, 1) = old then (e.1, putBits e.2 (8, 1) new) else e)
  let rts := s.routes.map (fun e =>
    if bitsOf e.2 (9, 5) == old / 8 && bitsOf e.2 (12, 10) == old % 8 then
      (e.1, putBits (putBits e.2 (9, 5) (new / 8)) (12, 10) (new % 8))
    else e)
  let gts := s.oasis.gates.map (fun e => if e.2.st = 1 ∧ e.2.thr / 8 = old then (e.1, { e.2 with thr := 8 * new + e.2.thr % 8 }) else e)
  { s with cyc := { s.cyc with threads := thrd }, routes := rts, oasis := { s.oasis with gates := gts } }

/-- State of a partition (14 R541, MGR_PART_STATUS): 0 UNUSED, 1 OFF, 2 BOOTING, 3 RUNNING, 4 STOPPING, 5 RESETTING. -/
def partState (s : Dev) (p : Nat) : Nat := bitsOf (reg s MGR_PART_STATUS) (4 * p + 3, 4 * p)

/-- The spare takes the place of a position: mode paired, the failed pair's partition, empty TLBs (R556, R559) (log 65, DEDUCED). -/
def takePlace (s : Dev) (old new : Nat) : Dev :=
  let part := corePart s old
  let s1 := setCorePart (setCorePart (setPairMode s (new / 2) 1) new part) (new + 1) part
  { s1 with tlb := mdel s1.tlb new }

/-- SPARE_READY (R556, R559): within 20 µs of the halt (log 65, DEDUCED). -/
def spareReady (s : Dev) (p : Nat) : Dev :=
  match s.smp.heal.find? (fun h => h.1 == evenCore p) with
  | none => s
  | some (old, new) =>
    let ts := if partState s (corePart s old) = 3 then namedThreads s old else []
    let s0 := { s with smp := { s.smp with heal := s.smp.heal.filter (fun h => h.1 != old) } }
    let s1 := rename (takePlace s0 old new) old new
    let s2 := ts.foldl (fun s t => setThr s (8 * new + t) { startedThread (thr s (8 * old + t)).start .cycleWait with waitSpare := true, brkHalt := (thr s (8 * new + t)).brkHalt }) s1
    let halt := match s2.smp.phase with
      | some ph => ((ph.pairs.find? (fun x => x.1 == old)).map (fun x => x.2.2)).getD s2.smp.op
      | none => s2.smp.op
    ts.foldl (fun s _ => phaseValue s 3 2 ((s.smp.op - halt) / nsUnits 1000)) s2

/-- Whether a running class whose thread table names a core has had a boundary since a device time. -/
def boundarySince (s : Dev) (core t : Nat) : Bool :=
  (classesNaming s core (fun _ => true)).any (fun c => decide (t < (cls s c).t0))

/-- A RELEASE that was held while its thread moved is performed (R560). -/
def heldRelease (s : Dev) (t : Nat) : Dev :=
  match (thr s t).relHeld with
  | some (c, entry) => if (thr s t).st = .cycleWait then releaseThread s t entry c else modThr s t (fun x => { x with relHeld := none })
  | none => s

/-- UNCHECKED_PAIR_MOVE (R560): at the first boundary of a class that names the pair, or 1 ms after the fault; the pair's store buffers have drained, and the releases held meanwhile follow (log 65, DEDUCED). -/
def pairMove (s : Dev) (p : Nat) : Dev :=
  match s.smp.moves.find? (fun m => m.1 == evenCore p) with
  | none => s
  | some (old, new, at_, ns) =>
    let idle := (rangeFrom (8 * old) 8).all (fun t => (thr s t).storeBuf.isEmpty && (thr s t).accs.isEmpty)
    let named := !(classesNaming s old (fun _ => true)).isEmpty
    if pairMode s p ≠ 2 then { s with smp := { s.smp with moves := s.smp.moves.filter (fun m => m.1 != old) } }
    else if !idle || (named && !(boundarySince s old ns)) then s
    else
      let s0 := if named then s else advanceOp s (at_ + nsUnits 1000000)
      let s1 := { s0 with smp := { s0.smp with moves := s0.smp.moves.filter (fun m => m.1 != old) } }
      let s2 := rename (takePlace s1 old new) old new
      let s3 := (rangeFrom 0 8).foldl (fun s t => setThr (setThr s (8 * new + t) (thr s (8 * old + t))) (8 * old + t) {}) s2
      let s4 := logRec (noteReduced (setPairMode (noteDie s3 p (new / 2)) p 4)) NOTICE SB_CL (p / 4) 0x0F04 []
      let s5 := { s4 with smp := { s4.smp with halted := dedup (s4.smp.halted ++ [p]) } }
      (rangeFrom (8 * new) 8).foldl heldRelease s5

/-! ## Meanings -/

/-- COMPARATOR_SELF_TEST (R552). -/
def execComparatorSelfTest (p : Fin 96) (flagged : Option Nat) (s : State) : Host.Outcome State Fault Refusal := onDev s (fun d => selfTest d p.val flagged)

/-- CORE_MISMATCH (R554). -/
def execCoreMismatch (x : Mismatch) (s : State) : Host.Outcome State Fault Refusal := onDev s (fun d => coreMismatch d x.pair.val x.silent)

/-- DELAY_REGISTER_FAULT (R553). -/
def execDelayRegisterFault (p : Fin 96) (s : State) : Host.Outcome State Fault Refusal := onDev s (fun d => delayFault d p.val)

/-- SPARE_READY (R559). -/
def execSpareReady (p : Fin 96) (s : State) : Host.Outcome State Fault Refusal := onDev s (fun d => spareReady d p.val)

/-- UNCHECKED_PAIR_MOVE (R560). -/
def execUncheckedPairMove (p : Fin 96) (s : State) : Host.Outcome State Fault Refusal := onDev s (fun d => pairMove d p.val)

end Sys2Proof.Machine
end

