-- ==== Sys2Proof/Machine/Sampler.lean ====
section
/-! DEFINITION. Sampler: Darning, repair, the stores of the Sampler and their reading, phases and operating hours (15 R563 to R584). -/
namespace Sys2Proof.Machine

/-! ## Darning (R563 to R566) -/

/-- Instance of the Darning source (R574). -/
def darnInst : DarnUnit → Nat
  | .bank n => n.val
  | .lineTable k => 0x80 + k.val

/-- Power domain of a Darning engine: that of its bank, or of the pair's first bank. -/
def darnDomain : DarnUnit → Nat
  | .bank n => 24 + n.val
  | .lineTable k => 24 + 3 * k.val

/-- Regions of a unit (R563). -/
def darnRegions : DarnUnit → Nat
  | .bank _ => 8192
  | .lineTable _ => 1024

/-- Whether a unit is tested: its enable bit, a bank's mode not off, its domain ON. -/
def darnEnabled (s : Dev) (u : DarnUnit) : Bool :=
  domOn s (darnDomain u) &&
    (match u with
     | .bank n => nbit (fget s SMP_DARN_CTRL SMP_DARN_CTRL_BANK_EN) n.val && bankMode s n.val != 3
     | .lineTable k => nbit (fget s SMP_DARN_CTRL SMP_DARN_CTRL_LT_EN) k.val)

/-- Next region, operating time of the last test, and regions repaired of a unit. -/
def darnPosOf (s : Dev) : DarnUnit → Nat
  | .bank n => (bank s n.val).darnPos
  | .lineTable k => (imgSt s k.val).darnPos

def darnAtOf (s : Dev) : DarnUnit → Nat
  | .bank n => (bank s n.val).darnAt
  | .lineTable k => (imgSt s k.val).darnAt

def darnRepaired (s : Dev) : DarnUnit → List Nat
  | .bank n => (bank s n.val).repaired
  | .lineTable k => (imgSt s k.val).repaired

/-- Spares of a unit (R566). -/
def darnSpares : DarnUnit → Nat
  | .bank _ => 16
  | .lineTable _ => 4

def setDarn (s : Dev) (pos at_ : Nat) : DarnUnit → Dev
  | .bank n => setBank s n.val { bank s n.val with darnPos := pos, darnAt := at_ }
  | .lineTable k => setImg s k.val { imgSt s k.val with darnPos := pos, darnAt := at_ }

def addSpare (s : Dev) (r : Nat) : DarnUnit → Dev
  | .bank n => setBank s n.val { bank s n.val with repaired := (bank s n.val).repaired ++ [r] }
  | .lineTable k => setImg s k.val { imgSt s k.val with repaired := (imgSt s k.val).repaired ++ [r] }

/-- Unit number of a record. -/
def darnUnitNum : DarnUnit → Nat
  | .bank n => n.val
  | .lineTable k => k.val

def darnIsLt : DarnUnit → Bool
  | .bank _ => false
  | .lineTable _ => true

/-- A region that failed twice takes the next free spare, or stays in service (R566). -/
def darnRepair (s : Dev) (u : DarnUnit) (r : Nat) : Dev :=
  let used := (darnRepaired s u).length
  if used < darnSpares u then
    let s1 := addRepair (addSpare s r u) { kind := b2n (darnIsLt u), unit := darnUnitNum u, arg := r }
    logRec (fincSat s1 SMP_DARN_STAT SMP_DARN_STAT_REPAIRS 1) NOTICE SB_DARN (darnInst u) 0x0F11 [darnUnitNum u, r, used + 1]
  else logRec s ALERT SB_DARN (darnInst u) 0x0F12 []

/-- The last failure, as SMP_DARN_STAT shows it. -/
def darnLast (s : Dev) (u : DarnUnit) (r : Nat) : Dev :=
  fset (fset (fset s SMP_DARN_STAT SMP_DARN_STAT_LAST_LT (b2n (darnIsLt u))) SMP_DARN_STAT SMP_DARN_STAT_LAST_UNIT (darnUnitNum u))
    SMP_DARN_STAT SMP_DARN_STAT_LAST_REGION r

/-- Outcome of the March test of a region (R563, R565, R566) (log 66, DEDUCED). -/
def darnFailed (s : Dev) (u : DarnUnit) (r fails : Nat) : Dev :=
  if fails = 0 then s
  else if fails = 1 then
    logRec (fincSat (darnLast s u r) SMP_DARN_STAT SMP_DARN_STAT_TRANSIENTS 1) WARNING SB_DARN (darnInst u) 0x0F10 []
  else darnRepair (darnLast s u r) u r

/-- Words the save step corrected or found uncorrectable (R563, R572, 13 R500) (log 66, DEDUCED). A word of a line table has no physical address, and its record names none (log 159, DESIGN CHOICE). -/
def darnFound (s : Dev) (u : DarnUnit) (r corrected : Nat) (bad : List (Fin 128)) : Dev :=
  let s1 := (rangeFrom 0 corrected).foldl (fun s _ => logLimited s INFO SB_DARN (darnInst u) 0x0F30 []) s
  match u with
  | .lineTable _ => bad.foldl (fun s _ => logLimited s WARNING SB_DARN (darnInst u) 0x0F31 []) s1
  | .bank n =>
    bad.foldl (fun s i =>
      let a := bankBase n.val + 1024 * r + 8 * i.val
      logLimited (setPoison s (a / 8) true) WARNING SB_DARN (darnInst u) 0x0F31 [a]) s1

/-- A region's test asks for about 640 cycles of its bank, at the lowest priority (R564, 03 R87, R88) (log 116, DESIGN CHOICE). -/
def darnPorts (s : Dev) : DarnUnit → Dev
  | .bank n => usePort s n.val 3 0 640
  | .lineTable _ => s

/-- DARNING_REGION (R563): the next region of a unit is tested, PERIOD_US after the one before (log 66, DEDUCED). -/
def darnRegion (s : Dev) (u : DarnUnit) (fails corrected : Nat) (bad : List (Fin 128)) : Dev :=
  if !(darnEnabled s u) then s
  else
    let s0 := advanceOp s (darnAtOf s u + nsUnits (1000 * fget s SMP_DARN_CTRL SMP_DARN_CTRL_PERIOD_US))
    let r := darnPosOf s0 u
    let s1 := darnPorts (darnFailed (darnFound s0 u r corrected bad) u r fails) u
    let s2 := setDarn s1 ((r + 1) % darnRegions u) s1.smp.op u
    if r + 1 = darnRegions u && !(darnIsLt u) then fincWrap s2 SMP_DARN_STAT SMP_DARN_STAT_PASSES 1 else s2

/-- DARNING_REGION. -/
def execDarningRegion (u : DarnUnit) (fails : Fin 3) (corrected : Fin 129) (bad : List (Fin 128)) (s : State) : Host.Outcome State Fault Refusal :=
  onDev s (fun d => darnRegion d u fails.val corrected.val bad)

/-! ## The flash store (R577) -/

/-- Severity of a record for the erase rule: a summary counts as INFO (R577). -/
def flashSev (r : SRec) : Nat := if r.summary then INFO else r.sev

/-- Whether a sector may be erased for a record. -/
def sectorYields (sev : Nat) (l : List (Option SRec)) : Bool :=
  l.all (fun x => match x with | some r => decide (flashSev r ≤ sev) | none => true)

/-- The sectors without the first that yields. -/
def eraseFirst (sev : Nat) : List (List (Option SRec)) → Option (List (List (Option SRec)))
  | [] => none
  | x :: xs => if sectorYields sev x then some xs else (eraseFirst sev xs).map (x :: ·)

/-- The sectors with the next slot written; `none` when no slot is free and no sector yields (R577). -/
def flashSlot (sev : Nat) (r : Option SRec) (l : List (List (Option SRec))) : Option (List (List (Option SRec))) :=
  match l.getLast? with
  | some x =>
    if x.length < 16 then some (l.dropLast ++ [x ++ [r]])
    else if l.length < 896 then some (l ++ [[r]])
    else (eraseFirst sev l).map (· ++ [[r]])
  | none => some [[r]]

/-- The sectors with a record in the next slot. -/
def flashPut (r : SRec) (l : List (List (Option SRec))) : Option (List (List (Option SRec))) := flashSlot (flashSev r) (some r) l

/-- The RAM store with the copy of one record no longer pending. -/
def copied (seq : Nat) (l : List SRec) : List SRec := l.map (fun r => if r.seq = seq then { r with flashPend := false } else r)

/-- FLASH_COPY (R577): the oldest waiting record is copied, or counted in SMP_DROPPED.FLASH (log 67, DESIGN CHOICE). -/
def flashCopy (s : Dev) : Dev :=
  match s.smp.ram.find? (fun r => r.flashPend) with
  | none => s
  | some r =>
    let s1 := { s with smp := { s.smp with ram := copied r.seq s.smp.ram } }
    match flashPut { r with flashPend := false } s.smp.flash with
    | some l => { s1 with smp := { s1.smp with flash := l } }
    | none => fincSat s1 SMP_DROPPED SMP_DROPPED_FLASH 1

/-- FLASH_COPY. -/
def execFlashCopy (s : State) : Host.Outcome State Fault Refusal := onDev s flashCopy

/-- Valid records of the flash store, oldest first. -/
def flashRecords (s : Dev) : List SRec := s.smp.flash.flatMap (fun l => l.filterMap id)

/-! ## Reading records (R574, R584) -/

/-- The bytes of a record (R574, R705). -/
def recordBytes (r : SRec) : List Byte :=
  let n := 24 + r.payload.length
  let body := leBytes 1 (n / 4 - 1) ++ leBytes 1 (r.sev + 8 * b2n r.summary) ++ leBytes 2 r.code ++ leBytes 1 r.inst ++ leBytes 1 r.block ++
    leBytes 2 r.count ++ leBytes 4 r.seq ++ leBytes 4 (r.hours + r.secs * 2 ^ 20) ++ leBytes 3 r.cycles ++ [0] ++ r.payload
  body ++ leBytes 4 (crc32c body)

/-- SAMPLER_READ (SMP_RD_CTRL with GO): the record of a rank goes into the read buffer. -/
def samplerRead (s : Dev) (flash : Bool) (ordinal word : Nat) : Dev :=
  let l := if flash then flashRecords s else s.smp.ram
  let s1 := fset (fset (fset (fset s SMP_RD_CTRL SMP_RD_CTRL_STORE (b2n flash)) SMP_RD_CTRL SMP_RD_CTRL_ORDINAL ordinal) SMP_RD_CTRL SMP_RD_CTRL_WORD word)
    SMP_RD_CTRL SMP_RD_CTRL_DONE 1
  match l[ordinal]? with
  | some r => fset { s1 with smp := { s1.smp with readBuf := recordBytes r } } SMP_RD_CTRL SMP_RD_CTRL_VALID 1
  | none => fset { s1 with smp := { s1.smp with readBuf := [] } } SMP_RD_CTRL SMP_RD_CTRL_VALID 0

/-- SAMPLER_READ. -/
def execSamplerRead (flash : Bool) (ordinal : BitVec 14) (word : Fin 32) (s : State) : Host.Outcome State Fault Refusal :=
  onDev s (whenDone SMP_RD_CTRL SMP_RD_CTRL_DONE (fun d => samplerRead d flash ordinal.toNat word.val))

/-- A read of SMP_RD_DATA: a word of the buffer, and WORD advances (21 R698). -/
def samplerData (s : Dev) : Dev :=
  let w := fget s SMP_RD_CTRL SMP_RD_CTRL_WORD
  { fset s SMP_RD_CTRL SMP_RD_CTRL_WORD ((w + 1) % 32) with readData := BitVec.ofNat 64 (leNat ((s.smp.readBuf.drop (8 * w)).take 8)) }

/-- SMP_RD_DATA. -/
def execSmpRdData (s : State) : Host.Outcome State Fault Refusal := onDev s samplerData

/-- CLEAR_RAM (SMP_CTRL.CLEAR_RAM): the records that wait for their flash copy stay. -/
def clearRam (s : Dev) : Dev := { s with smp := { s.smp with ram := s.smp.ram.filter (fun r => r.flashPend) } }

/-- CLEAR_RAM. -/
def execClearRam (s : State) : Host.Outcome State Fault Refusal := onDev s clearRam

/-! ## Operating hours (R568, R580) -/

/-- An entry of the time log; the log alternates between its two sectors of 512 entries (log 68, DESIGN CHOICE). -/
def timeEntry (s : Dev) : Dev :=
  let l := s.smp.timeLog
  { s with smp := { s.smp with timeLog := (if l.length < 1024 then l else l.drop 512) ++ [(s.smp.hours, s.smp.cycles)] } }

/-- One hour of operating time, 10^-13 ns. -/
def opHour : Nat := 3600 * opSecond

/-- OPERATING_HOUR (R580) (log 68, DESIGN CHOICE). -/
def operatingHour (s : Dev) : Dev :=
  let at_ := s.smp.hourStart + opHour
  let s1 := advanceOp s at_
  timeEntry { s1 with smp := { s1.smp with hours := sat 0xFFFFF (s1.smp.hours + 1), hourStart := at_ } }

/-- OPERATING_HOUR. -/
def execOperatingHour (s : State) : Host.Outcome State Fault Refusal := onDev s operatingHour

/-- The time log at power-good: HOURS and CYCLES go one past the highest entry, and an entry is appended (R580) (log 68, DESIGN CHOICE). -/
def timeAtPowerGood (s : Dev) : Dev :=
  let best : Nat × Nat := s.smp.timeLog.foldl (fun b e => if b.1 ≤ e.1 then e else b) (0, 0)
  let x := { s.smp with hours := sat 0xFFFFF (best.1 + 1), cycles := sat 0xFFFFFF (best.2 + 1), op := 0, hourStart := 0 }
  timeEntry { s with smp := x }

/-! ## Closing of phases (R581) -/

/-- Partitions started at boot that do not run (log 69, DEDUCED). -/
def startsMissing (s : Dev) : Bool :=
  (rangeFrom 0 16).any (fun p => (partSt s p).startAtBoot && fget s MGR_PART_STATUS (MGR_PART_STATUS_STATE p) != 3)

/-- Whether the threads of a pair absorbed by RECOVERY_PAIR have been released on its spare. -/
def pairHealed (s : Dev) (p : Nat × Option Nat × Nat) : Bool :=
  match p.2.1 with
  | none => false
  | some q => !(s.smp.heal.any (fun h => h.1 == p.1)) && !(s.smp.moves.any (fun m => m.1 == p.1)) &&
      (rangeFrom (8 * q) 8).all (fun t => !(thr s t).waitSpare)

/-- How an open phase closes now: its outcome, and the operating time it waits for where only its timeout closes it (log 69, DEDUCED). -/
def phaseEnd (s : Dev) (p : PhaseSt) : Nat × Nat :=
  match p.kind with
  | 1 =>
    if fget s MGR_INFO MGR_INFO_STATE = 2 then (2, 0)
    else if s.oasis.fw.isSome && !(startsMissing s) then (0, 0)
    else (1, p.opened + 60 * opSecond)
  | 3 =>
    if p.pairs.any (fun x => x.2.1.isNone) then (2, 0)
    else if p.pairs.all (pairHealed s) then (0, 0)
    else (1, p.lastEvent + nsUnits 10000000)
  | 4 => if fget s MGR_INFO MGR_INFO_STATE = 1 then (1, p.opened + opSecond) else (0, 0)
  | _ => (0, 0)

/-- PHASE_CLOSE (R581): the open phase closes on its condition, or at its timeout (log 2, DESIGN CHOICE). -/
def phaseCloseNow (s : Dev) : Dev :=
  match s.smp.phase with
  | none => s
  | some p => closePhase (advanceOp s (phaseEnd s p).2) false (phaseEnd s p).1

/-- PHASE_CLOSE. -/
def execPhaseClose (s : State) : Host.Outcome State Fault Refusal := onDev s phaseCloseNow

/-- FAULT_N is driven low (14 R509, R519, 18 R653, R656): no firmware, no image, a trip, or a FATAL record less than 1 s old. The trip is the caller's. -/
def faultLow (s : Dev) : Bool :=
  s.oasis.fw.isNone || fget s MGR_INFO MGR_INFO_STATE == 2 || decide (s.smp.op < s.smp.faultUntil)

end Sys2Proof.Machine
end

