-- ==== Sys2Proof/Machine/Power.lean ====
section
/-! DEFINITION. Power: power domains, core voltage, junction alerts, references, what a reset clears (18). -/
namespace Sys2Proof.Machine

/-! ## What a domain holds (R639) -/

/-- Power domain of a register by its offset. -/
def regDomain (off : Nat) : Option Nat := (findReg (off % 2 ^ 28)).map (fun r => blockDomain r.blk r.elem)

/-- The registers of a domain go to their reset values, LOCK fields included; its counters to 0 and their reset configuration (R639, 17 R626). -/
def clearDomRegs (s : Dev) (d : Nat) : Dev :=
  { s with
    regs := s.regs.filter (fun e => regDomain e.1 != some d)
    ctr := { s.ctr with
      value := s.ctr.value.filter (fun e => ctrDomain e.1 != d)
      config := s.ctr.config.filter (fun e => ctrDomain e.1 != d) } }

/-- Number of the cluster an SRAM array belongs to (`arrayNum`), none for a directory slice. -/
def arrayCluster (n : Nat) : Option Nat :=
  if n < 192 then some (n / 8) else if n < 256 then some (n - 192) else if n < 512 then some ((n - 256) / 8) else if n < 1024 then some (n - 512) else none

/-- A cluster's caches, TLBs and prefetch state are empty, its threads OFF (R639). -/
def clearCluster (s : Dev) (c : Nat) : Dev :=
  let x := s.cache
  let mine (cid : Nat) : Bool := cacheCluster cid == c
  { s with
    threads := s.threads.filter (fun e => e.1 / 64 != c)
    tlb := s.tlb.filter (fun e => e.1 / 8 != c)
    cache := { x with
      ways := x.ways.filter (fun e => !(mine (e.1 / 65536)))
      plru := x.plru.filter (fun e => !(mine (e.1 / 4096)))
      lfsr := x.lfsr.filter (fun e => !(mine e.1))
      pf := x.pf.filter (fun e => e.1 / 8 != c)
      stride := x.stride.filter (fun e => e.1 / 8 != c)
      pfWant := x.pfWant.filter (fun e => e.1 / 8 != c)
      fetch := x.fetch.filter (fun e => e.1 / 64 != c)
      missAt := x.missAt.filter (fun e => e.1 / 2 ^ 40 / 8 != c)
      lastCore := mdel x.lastCore c
      evict := mdel x.evict c
      vicMode := mdel x.vicMode c
      fixes := x.fixes.filter (fun e => !(mine (e.1 / 16)))
      cscrub := x.cscrub.filter (fun e => arrayCluster e.1 != some c) }
    credits := mdel s.credits (64 + c) }

/-- Regions repaired by the repair records of a unit (15 R569): kind 0 banks, 1 line tables. -/
def repairedBy (s : Dev) (kind unit : Nat) : List Nat :=
  s.smp.repairs.filterMap (fun r => if r.kind = kind ∧ r.unit = unit ∧ r.whole then some r.arg else none)

/-- A bank is cleared, and the image controller beside it where it has one; repair marks are applied again (R639, R651, 02 R38). -/
def clearBankDomain (s : Dev) (n : Nat) : Dev :=
  let s1 := setBank (clearRange s (bankBase n) (bankBase (n + 1))) n { repaired := repairedBy s 0 n }
  let s2 := { s1 with credits := mdel s1.credits n }
  if n % 3 ≠ 0 then s2
  else
    let k := n / 3
    let s3 := setImg s2 k { repaired := repairedBy s 1 k }
    { s3 with
      cyc := { s3.cyc with scatterQ := mdel s3.cyc.scatterQ k, gathers := mdel s3.cyc.gathers k, built := mdel s3.cyc.built k }
      credits := mdel (mdel s3.credits (32 + k)) (40 + k) }

/-- A port group's ports and root ports start afresh, with the reset reservations (05 R197) (log 71, DEDUCED). -/
def clearGroup (s : Dev) (g : Nat) : Dev :=
  showShared <| (rangeFrom (8 * g) 8).foldl (fun s p => { setPort s p {} with credits := mdel s.credits (128 + p) }) s

/-- The lookup tables of the pipelines: one copy in the model, cleared with the first pipeline to power up (R639) (log 71, DEDUCED). -/
def clearErgTables (s : Dev) (e : Nat) : Dev :=
  if (rangeFrom 72 4).any (fun d => d != 72 + e && domSt s d != 0) then s
  else { s with erg := { s.erg with tbl := [], seen := [], meters := [], recovery := [] } }

/-- Contents of a domain that powers up (R639). -/
def domainInit (s : Dev) (d : Nat) : Dev :=
  let s1 := clearDomRegs s d
  if d < 24 then clearCluster s1 d
  else if d < 48 then clearBankDomain s1 (d - 24)
  else if d < 56 then s1
  else if d < 72 then clearGroup s1 (d - 56)
  else if d < 76 then clearErgTables s1 (d - 72)
  else if d = 77 then let z := histPowerLost s; { s1 with free := z.free, hist := z.hist, credits := mdel s1.credits 513 }
  else if d = 78 then { s1 with twin := {}, credits := mdel s1.credits 512 }
  else s1

/-! ## Requests (R636 to R638) -/

/-- Every change to ON or OFF writes a NOTICE (R636). -/
def domNotice (s : Dev) (d : Nat) : Dev := logRec s NOTICE SB_PWR d 0x1201 []

/-- The power-down condition of a domain (R637); MC, MESH and AON never power down (log 71, DEDUCED). -/
def downOk (s : Dev) (d : Nat) : Bool :=
  if d < 24 then
    (rangeFrom (64 * d) 64).all (fun t => (thr s t).st == .off) && (rangeFrom (4 * d) 4).all (fun p => pairMode s p != 3) && l2State s d == 0
  else if d < 48 then
    let n := d - 24
    (bankMode s n == 3 || (bankMode s n == 0 && fget s (BK_OWNER n) BK_OWNER_OWNER == 0x3F)) &&
      (n % 3 != 0 || !(fbit s (IMG_CTRL (n / 3)) IMG_CTRL_ENABLE))
  else if d < 56 then false
  else if d < 72 then groupMode s (d - 56) == 0
  else if d < 76 then (rangeFrom (56 + 4 * (d - 72)) 4).all (fun g => domSt s g == 0)
  else if d = 77 then fget s HIST_STATUS HIST_STATUS_STATE == 0
  else if d = 78 then !(fbit s TWIN_CTRL TWIN_CTRL_EN)
  else false

/-- Whether a domain can be powered down at all. -/
def downSupported (d : Nat) : Bool := decide (d < 48) || (decide (56 ≤ d) && decide (d < 76)) || d == 77 || d == 78

/-- The debugger is attached (16 R594) (log 71, DEDUCED). -/
def attached (s : Dev) : Bool := fbit s DBG_STATUS DBG_STATUS_ATTACHED

/-- The power-up condition of a domain that is OFF (R638, R644). -/
def upOk (s : Dev) (d : Nat) : Bool :=
  if 56 ≤ d ∧ d < 72 then domSt s (72 + (d - 56) / 4) == 2
  else if d < 24 then !(fbit s PWR_STATUS PWR_STATUS_PMBUS_FAULT)
  else true

/-- A request for a domain: its status where it is final at once, and the device (R636 to R638) (log 73, DEDUCED). -/
def domRequest (s : Dev) (d : Nat) (on : Bool) : Option Nat × Dev :=
  let st := domSt s d
  if st = 1 ∨ st = 3 then (some ST_BUSY, s)
  else if on then
    if st = 2 then (some ST_OK, s)
    else if st = 4 then (some ST_OK, domNotice (setDom s d 2) d)
    else if upOk s d then (none, setDom (domainInit s d) d 1)
    else (some ST_WRONG_STATE, s)
  else
    if st = 0 then (some ST_OK, s)
    else if st = 4 then (some ST_OK, s)
    else if !(downSupported d) then (some ST_NOT_SUPPORTED, s)
    else if !(downOk s d) then (some ST_WRONG_STATE, s)
    else if attached s ∧ d < 48 then (some ST_OK, setDom s d 4)
    else (none, setDom s d 3)

/-- The last request's RESULT is final (PWR_DOM_DATA). -/
def domResult (s : Dev) (r : Nat) : Dev :=
  fset (fset { s with pwr := { s.pwr with pend := none } } PWR_DOM_DATA PWR_DOM_DATA_RESULT r) PWR_DOM_INDEX PWR_DOM_INDEX_DONE 1

/-- PWR_DOM_INDEX with GO (R658); dropped while DONE is 0 (21 R707) (log 91, DEDUCED). -/
def domAccess (s : Dev) (write : Bool) (d : Nat) : Dev :=
  if !(fbit s PWR_DOM_INDEX PWR_DOM_INDEX_DONE) then s
  else
    let s1 := fset (fset s PWR_DOM_INDEX PWR_DOM_INDEX_WRITE (b2n write)) PWR_DOM_INDEX PWR_DOM_INDEX_DOMAIN d
    if 79 < d then fset s1 PWR_CTRL PWR_CTRL_BAD_VALUE 1
    else if !write then fset s1 PWR_DOM_DATA PWR_DOM_DATA_STATE (domSt s1 d)
    else
      match domRequest s1 d (fbit s1 PWR_DOM_DATA PWR_DOM_DATA_REQ) with
      | (some r, s2) => domResult s2 r
      | (none, s2) => fset { s2 with pwr := { s2.pwr with pend := some d } } PWR_DOM_INDEX PWR_DOM_INDEX_DONE 0

/-- POWER_UP_REQUEST (R636). -/
def execPowerUpRequest (d : Fin 128) (s : State) : Host.Outcome State Fault Refusal :=
  onDev s (fun x => domAccess (fset x PWR_DOM_DATA PWR_DOM_DATA_REQ 1) true d.val)

/-- POWER_DOWN_REQUEST (R637). -/
def execPowerDownRequest (d : Fin 128) (s : State) : Host.Outcome State Fault Refusal :=
  onDev s (fun x => domAccess (fset x PWR_DOM_DATA PWR_DOM_DATA_REQ 0) true d.val)

/-- DOMAIN_STATE_READ (R636). -/
def execDomainStateRead (d : Fin 128) (s : State) : Host.Outcome State Fault Refusal := onDev s (fun x => domAccess x false d.val)

/-- The access that waited for a domain ends with OK. -/
def domSettle (s : Dev) (d : Nat) : Dev := if s.pwr.pend = some d then domResult s ST_OK else s

/-- POWER_UP_DONE (R639). -/
def powerUpDone (s : Dev) (d : Nat) : Dev := if domSt s d = 1 then domSettle (domNotice (setDom s d 2) d) d else s
def execPowerUpDone (d : Fin 80) (s : State) : Host.Outcome State Fault Refusal := onDev s (fun x => powerUpDone x d.val)

/-- POWER_DOWN_DONE (R636): requests a bank had accepted complete first (01 R17). -/
def powerDownDone (s : Dev) (d : Nat) : Dev :=
  if domSt s d = 3 ∧ (d < 24 ∨ 48 ≤ d ∨ (bank s (d - 24)).queue.isEmpty) then domSettle (domNotice (setDom s d 0) d) d else s
def execPowerDownDone (d : Fin 80) (s : State) : Host.Outcome State Fault Refusal := onDev s (fun x => powerDownDone x d.val)

/-- The TAP grant ends (16 R594): emulated domains are powered down as by a request made now (R636). -/
def endTapGrant (s : Dev) : Dev :=
  let s1 := fset (fset s DBG_STATUS DBG_STATUS_TAP_LEVEL 0) DBG_STATUS DBG_STATUS_ATTACHED 0
  (rangeFrom 0 48).foldl (fun s d => if domSt s d = 4 ∧ downOk s d then setDom s d 3 else s) s1

/-- The software grant ends (16 R594). -/
def endSwGrant (s : Dev) : Dev := fset s DBG_STATUS DBG_STATUS_SW_LEVEL 0

/-! ## Core voltage and junction (R643 to R645) -/

def vcore (s : Dev) : Nat := fget s PWR_STATUS PWR_STATUS_VCORE_MV

/-- One step of at most 5 mV toward a target. -/
def stepToward (v target : Nat) : Nat := if v < target then v + min 5 (target - v) else v - min 5 (v - target)

/-- The target of VDD_CORE (R643) (log 73, DEDUCED). -/
def vcoreTarget (s : Dev) (vmin : Nat) : Nat :=
  if fbit s PWR_CTRL PWR_CTRL_AVS_EN then min 800 (max (vmin + 15) (fget s PWR_CTRL PWR_CTRL_VCORE_FLOOR)) else 800

/-- A PMBus fault (R644) (log 73, DEDUCED). -/
def pmbusFault (s : Dev) : Dev :=
  if fbit s PWR_STATUS PWR_STATUS_PMBUS_FAULT then s
  else
    logRec (fset { s with pwr := { s.pwr with pmbusAt := s.smp.op } } PWR_STATUS PWR_STATUS_PMBUS_FAULT 1) ALERT SB_PWR 79 0x1202 []

/-- Junction readings enter the open phase, and TJ_MAX (R645, 15 R581). -/
def noteTemp (s : Dev) (t8 : Int) : Dev :=
  let s1 := fset s PWR_STATUS PWR_STATUS_TJ_MAX (ofSigned 8 (t8 / 8))
  phaseValue (phaseValue (phaseValue s1 1 0 t8) 3 3 t8) 4 3 t8

/-- AVS_TICK (R643): every 10 ms (log 73, DEDUCED). -/
def avsTick (s : Dev) (vmin : Nat) (t8 : Int) (ok : Bool) : Dev :=
  if s.pwr.held ≠ 0 then s
  else
    let s1 := advanceOp s (s.pwr.avsAt + nsUnits 10000000)
    let s2 := noteTemp { s1 with pwr := { s1.pwr with avsAt := s1.smp.op } } t8
    if fbit s2 PWR_STATUS PWR_STATUS_PMBUS_FAULT then s2
    else if !ok then pmbusFault s2
    else
      let v := stepToward (vcore s2) (vcoreTarget s2 vmin)
      phaseValue (fset s2 PWR_STATUS PWR_STATUS_VCORE_MV v) 1 1 v
def execAvsTick (vmin : BitVec 10) (temp : BitVec 16) (ok : Bool) (s : State) : Host.Outcome State Fault Refusal :=
  onDev s (fun d => avsTick d vmin.toNat temp.toInt ok)

/-- PMBUS_RETRY (R644): every 100 ms while the fault lasts (log 73, DEDUCED). -/
def pmbusRetry (s : Dev) (ok : Bool) : Dev :=
  if fbit s PWR_STATUS PWR_STATUS_PMBUS_FAULT then
    let s1 := advanceOp s (s.pwr.pmbusAt + nsUnits 100000000)
    let s2 := { s1 with pwr := { s1.pwr with pmbusAt := s1.smp.op } }
    if ok then fset s2 PWR_STATUS PWR_STATUS_PMBUS_FAULT 0 else s2
  else s
def execPmbusRetry (ok : Bool) (s : State) : Host.Outcome State Fault Refusal := onDev s (fun d => pmbusRetry d ok)

/-- TJ_ALERT (R645): 105 °C is 840 eighths. -/
def tjAlert (s : Dev) (t8 : Int) (d : Nat) : Dev :=
  if 840 ≤ t8 then
    logLimited (fset (fset s PWR_STATUS PWR_STATUS_TJ_MAX (ofSigned 8 (t8 / 8))) PWR_STATUS PWR_STATUS_TJ_ALERT 1) ALERT SB_PWR d 0x1203 []
  else s
def execTjAlert (temp : BitVec 16) (d : Fin 80) (s : State) : Host.Outcome State Fault Refusal := onDev s (fun x => tjAlert x temp.toInt d.val)

/-- TJ_ALERT_END (R645). -/
def tjAlertEnd (s : Dev) (t8 : Int) : Dev :=
  if t8 < 840 then fset (fset s PWR_STATUS PWR_STATUS_TJ_MAX (ofSigned 8 (t8 / 8))) PWR_STATUS PWR_STATUS_TJ_ALERT 0 else s
def execTjAlertEnd (temp : BitVec 16) (s : State) : Host.Outcome State Fault Refusal := onDev s (fun x => tjAlertEnd x temp.toInt)

/-! ## What a reset clears (R651, R652) -/

/-- Fields of a register kept over a reset (log 72, DEDUCED). -/
def keepFields (old new : Dev) (off : Nat) (fs : List (Nat × Nat)) : Dev := fs.foldl (fun s f => fset s off f (fget old off f)) new

/-- Fuses, flash, key store and lockout state are kept by every reset; everything else of Oasis goes (log 72, DEDUCED). -/
def keptOasis (o : OasisSt) : OasisSt :=
  { flash := o.flash, marginal := o.marginal, w1 := o.w1, w2 := o.w2, w3 := o.w3, fwMin := o.fwMin, key := o.key, password := o.password }

/-- The device with every register, table, memory and thread reset; what the drives hold, the fuses and the flash stay (log 72, DEDUCED). -/
def clearedDev (s : Dev) : Dev :=
  let z : Dev := {}
  let h := histPowerLost s
  { z with
    free := h.free
    oasis := keptOasis s.oasis
    hist := h.hist
    banks := (rangeFrom 0 24).foldl (fun m n => mset (fun _ => {}) m n { repaired := repairedBy s 0 n }) []
    img := (rangeFrom 0 8).foldl (fun m k => mset (fun _ => {}) m k { repaired := repairedBy s 1 k }) []
    pwr := { vpp := s.pwr.vpp }
    smp := s.smp }

/-- Lockout state in DBG_STATUS (16 R593). -/
def lockFields : List (Nat × Nat) := [DBG_STATUS_LOCKOUT_N, DBG_STATUS_FAILS]

/-- PWRGOOD is low or has just risen: what R651 keeps over power-on, with a lockout in force restarted in full (16 R593). -/
def powerOnReset (s : Dev) : Dev :=
  let z := clearedDev s
  let z1 := { z with
    smp := { flash := s.smp.flash, timeLog := s.smp.timeLog, repairs := s.smp.repairs, hours := s.smp.hours, cycles := s.smp.cycles }
    dbg := { lockFrom := if s.dbg.lockFrom.isSome then some 0 else none, lockFor := s.dbg.lockFor } }
  keepFields s z1 DBG_STATUS lockFields

/-- BRK_HALT flags: only power-good clears them (16 R601). -/
def keptThreads (m : Map Thread) : Map Thread := m.filterMap (fun e => if e.2.brkHalt then some (e.1, { brkHalt := true }) else none)

/-- RESET_N or a trip: the Sampler's store, the TAP grant, comparators and what PWR_STATUS reports of the pins stay (R651, R652, 16 R601) (log 92, DEDUCED) (log 72, DEDUCED). -/
def externalReset (s : Dev) (cause : Nat) : Dev :=
  let z := clearedDev s
  let z1 := { z with
    threads := keptThreads s.threads
    smp := { s.smp with heal := [], moves := [], readBuf := [] }
    dbg := s.dbg
    pwr := { vpp := s.pwr.vpp, held := cause, pcieStable := s.pwr.pcieStable } }
  let z2 := keepFields s z1 DBG_STATUS (lockFields ++ [DBG_STATUS_TAP_LEVEL, DBG_STATUS_ATTACHED, DBG_STATUS_CHALLENGE_OUT])
  let z3 := keepFields s z2 SMP_STATUS [SMP_STATUS_NEXT_SEQ, SMP_STATUS_PHASE]
  let z4 := keepFields s z3 PWR_STATUS [PWR_STATUS_TJ_MAX, PWR_STATUS_TJ_ALERT, PWR_STATUS_SDS_OK, PWR_STATUS_PCIE_OK, PWR_STATUS_CLK10M_OK, PWR_STATUS_PPS_OK]
  fset z4 PWR_STATUS PWR_STATUS_LAST_RESET cause

/-- EXTERNAL_RESET (R652). -/
def execExternalReset (s : State) : Host.Outcome State Fault Refusal :=
  onDev s (fun d => if 2 ≤ d.pwr.held then d else externalReset d 1)

/-- THERMAL_TRIP (R653) (log 72, DEDUCED). -/
def thermalTrip (s : Dev) (d : Nat) : Dev :=
  if 4 ≤ s.pwr.held ∨ s.pwr.held = 2 then s else externalReset (logRec s FATAL SB_PWR d 0x1204 []) 2
def execThermalTrip (d : Fin 80) (s : State) : Host.Outcome State Fault Refusal := onDev s (fun x => thermalTrip x d.val)

/-! ## References (R649, R650) -/

/-- The _OK bit of a reference; REFCLK_SYS has none. -/
def refBit : RefClock → Option (Nat × Nat)
  | .sys => none
  | .sds j => some (PWR_STATUS_SDS_OK.2 + j.val, PWR_STATUS_SDS_OK.2 + j.val)
  | .pcie => some PWR_STATUS_PCIE_OK
  | .clk10m => some PWR_STATUS_CLK10M_OK
  | .pps => some PWR_STATUS_PPS_OK

/-- Serial trace stops with SINK_ERR when its lane clock is lost (R650). -/
def serialTraceLost (s : Dev) : Dev :=
  if tracing s && fget s TRC_CTRL TRC_CTRL_SINK == 2 then
    fset (fset (fset s TRC_STATUS TRC_STATUS_SINK_ERR 1) TRC_STATUS TRC_STATUS_STATE 3) TRC_CTRL TRC_CTRL_EN 0
  else s

/-- REFERENCE_LOSS (R650, R653). -/
def referenceLoss (s : Dev) (r : RefClock) : Dev :=
  let note (s : Dev) : Dev := logRec s ALERT SB_PWR 79 0x1205 []
  match refBit r with
  | none => if 4 ≤ s.pwr.held ∨ s.pwr.held = 3 then s else externalReset (logRec (note s) FATAL SB_PWR 79 0x1205 []) 3
  | some b =>
    if !(fbit s PWR_STATUS b) then s
    else
      let s1 := note (fset s PWR_STATUS b 0)
      match r with
      | .sds j =>
        let s2 := (rangeFrom (16 * j.val) 16).foldl linkDown s1
        if j.val = 7 then (if twinOn s2 then linkLost s2 else s2) else if j.val = 0 then serialTraceLost s2 else s2
      | .pcie => (rangeFrom 0 32).foldl rootLost s1
      | _ => s1
def execReferenceLoss (r : RefClock) (s : State) : Host.Outcome State Fault Refusal := onDev s (fun d => referenceLoss d r)

/-- REFERENCE_RETURN (R650). -/
def referenceReturn (s : Dev) (r : RefClock) : Dev :=
  match refBit r with
  | none => s
  | some b =>
    let s1 := fset s PWR_STATUS b 1
    if r = .pcie ∧ !(fbit s PWR_STATUS b) then { s1 with pwr := { s1.pwr with pcieStable := s1.smp.op } } else s1
def execReferenceReturn (r : RefClock) (s : State) : Host.Outcome State Fault Refusal := onDev s (fun d => referenceReturn d r)

/-- Half a second and a second in ns. -/
def oneSecond : Nat := 1000000000

/-- PPS_EDGE (R649): the edge is timestamped; with the local reference selected and PPS_OK, device time slews so that the edges fall on whole seconds (log 74, DEDUCED); a restarting Oasis leaves the rate (05 R212). -/
def ppsEdge (s : Dev) (at_ : Nat) : Dev :=
  let s0 := advanceTo s at_
  let s1 := { s0 with pwr := { s0.pwr with ppsAt := at_ } }
  if restarting s1 then s1
  else if fget s1 CYC_CTRL CYC_CTRL_TSRC = 2 ∧ fbit s1 PWR_STATUS PWR_STATUS_PPS_OK then
    let r := at_ % oneSecond
    let off : Int := if r < oneSecond / 2 then -(r : Int) else ((oneSecond - r : Nat) : Int)
    let lim := slewLimit s1
    let want := off * 1000
    { s1 with rate := if want < -lim then -lim else if lim < want then lim else want }
  else s1
def execPpsEdge (at_ : BitVec 64) (s : State) : Host.Outcome State Fault Refusal := onDev s (fun d => ppsEdge d at_.toNat)

/-- VPP_FUSE_CHANGE (20 R672). -/
def execVppFuseChange (present : Bool) (s : State) : Host.Outcome State Fault Refusal :=
  onDev s (fun d => { d with pwr := { d.pwr with vpp := present } })

/-- FAULT_N_RELEASE (R656): a second after the last FATAL record. -/
def execFaultNRelease (s : State) : Host.Outcome State Fault Refusal :=
  onDev s (fun d => if d.smp.op < d.smp.faultUntil then advanceOp d d.smp.faultUntil else d)

/-- FAULT_N is low (R656): no firmware, no image, a trip or a reset that holds, or a recent FATAL record. -/
def faultN (s : Dev) : Bool := faultLow s || s.oasis.noImage || s.pwr.held != 0

/-! ## Cells of the flash (14 R512, R513) -/

/-- A byte of the flash stands as written; a marginal one reads freely in every bit that it does not hold. -/
def flashSet (s : Dev) (a : Nat) (b : Byte) (marginal : Bool) : Dev :=
  { s with oasis := { s.oasis with flash := mset (fun _ => 0xFF) s.oasis.flash a b, marginal := mset (fun _ => false) s.oasis.marginal a marginal } }

end Sys2Proof.Machine
end

