-- ==== Sys2Proof/Machine/Debug.lean ====
section
/-! DEFINITION. Debug: the Garir TAP, authorisation, thread commands, comparators and virtual terminals (16 R585 to R606). -/
namespace Sys2Proof.Machine

def modDbg (s : Dev) (f : DbgSt → DbgSt) : Dev := { s with dbg := f s.dbg }

/-! ## The TAP (R585 to R587, R594) -/

/-- TCK has run for an instruction of code `ir`; the pins are in functional mode unless the instruction says otherwise. -/
def tapRun (s : Dev) (ir : Nat) : Dev := modDbg s (fun d => { d with ir := ir, tckAt := s.smp.op, pins := .functional })

def tapLevel (s : Dev) : Nat := fget s DBG_STATUS DBG_STATUS_TAP_LEVEL

/-- BYPASS: its bit captures 0 (R587). -/
def tapBypass (s : Dev) : Dev := modDbg (tapRun s 0xFF) (fun d => { d with tdo := 0 })

/-- A boundary-scan instruction: its cells capture and take what is shifted in (log 78, DESIGN CHOICE). -/
def tapScan (s : Dev) (ir : Nat) (mode : PinMode) (captured shifted : BitVec 2944) : Dev :=
  modDbg (tapRun s ir) (fun d => { d with pins := mode, tdo := captured.toNat, bsr := shifted })

/-- An instruction that needs level 2 acts as BYPASS without it (R587). -/
def atLevel2 (s : Dev) (f : Dev → Dev) : Dev := if tapLevel s = 2 then f s else tapBypass s

/-- EXTEST (R586). -/
def execExtest (captured shifted : BitVec 2944) (s : State) : Host.Outcome State Fault Refusal :=
  onDev s (fun d => atLevel2 d (fun d => tapScan d 0x00 .extest captured shifted))

/-- SAMPLE/PRELOAD (R586): level 0. -/
def execSamplePreload (captured shifted : BitVec 2944) (s : State) : Host.Outcome State Fault Refusal :=
  onDev s (fun d => tapScan d 0x01 .functional captured shifted)

/-- IDCODE (R586). -/
def execIdcode (s : State) : Host.Outcome State Fault Refusal :=
  onDev s (fun d => modDbg (tapRun d 0x02) (fun x => { x with tdo := 0x1D7280F3 }))

/-- CLAMP (R586): the pins hold the boundary-scan values, the bypass register is selected. -/
def execClamp (s : State) : Host.Outcome State Fault Refusal :=
  onDev s (fun d => atLevel2 d (fun d => modDbg (tapRun d 0x03) (fun x => { x with pins := .clamp, tdo := 0 })))

/-- HIGHZ (R586). -/
def execHighz (s : State) : Host.Outcome State Fault Refusal :=
  onDev s (fun d => atLevel2 d (fun d => modDbg (tapRun d 0x04) (fun x => { x with pins := .highz, tdo := 0 })))

/-- EXTEST_PULSE (R586). -/
def execExtestPulse (captured shifted : BitVec 2944) (s : State) : Host.Outcome State Fault Refusal :=
  onDev s (fun d => atLevel2 d (fun d => tapScan d 0x08 .pulse captured shifted))

/-- EXTEST_TRAIN (R586). -/
def execExtestTrain (captured shifted : BitVec 2944) (s : State) : Host.Outcome State Fault Refusal :=
  onDev s (fun d => atLevel2 d (fun d => tapScan d 0x09 .train captured shifted))

/-- BYPASS, and every code R586 does not list. -/
def execBypass (s : State) : Host.Outcome State Fault Refusal := onDev s tapBypass

/-- The TAP in Test-Logic-Reset selects IDCODE (R585). -/
def execTestLogicReset (s : State) : Host.Outcome State Fault Refusal := onDev s (fun d => tapRun d 0x02)

/-- TRST_N asserted (R594). -/
def execTrst (s : State) : Host.Outcome State Fault Refusal :=
  onDev s (fun d => endTapGrant (modDbg d (fun x => { x with ir := 0x02, pins := .functional })))

/-- What Capture-IR loads (R585). -/
def captureIr (s : Dev) : Nat := 1 + 4 * b2n (decide (0 < tapLevel s)) + 8 * tapLevel s

/-! ## The life cycle (14 R547) -/

/-- Number of blown bits of a fuse word. -/
def blownBits (w : Nat) : Nat := ((rangeFrom 0 32).filter (nbit w)).length

def LC_BLANK : Nat := 0
def LC_OPEN : Nat := 1
def LC_FIELD : Nat := 2
def LC_RETURN : Nat := 3

/-- The life-cycle state: that of the highest blown word (14 R547). -/
def lcState (s : Dev) : Nat :=
  if 24 ≤ blownBits s.oasis.w3 then LC_RETURN else if 24 ≤ blownBits s.oasis.w2 then LC_FIELD else if 24 ≤ blownBits s.oasis.w1 then LC_OPEN else LC_BLANK

/-! ## Authorisation (R588 to R594) -/

/-! Status codes (R595). -/
def G_OK : Nat := 0
def G_PENDING : Nat := 1
def G_DENIED : Nat := 2
def G_BUS_ERROR : Nat := 3
def G_BAD_ARG : Nat := 4
def G_WRONG_STATE : Nat := 5
def G_INVALID : Nat := 6
def G_STALE : Nat := 7
def G_LOCKOUT : Nat := 8
def G_BUSY : Nat := 9

/-- A state in which a REQUEST grants at once (R589). -/
def authOpen (s : Dev) : Bool := lcState s == LC_BLANK || (lcState s == LC_OPEN && s.oasis.password.isNone)

/-- The holder of a role (14 R531). -/
def roleOwner (s : Dev) (bit : Nat) : Option Nat := (rangeFrom 0 16).find? (fun p => nbit (partSt s p).roles bit)

/-- The outstanding challenge is consumed (R592). -/
def consume (s : Dev) : Dev := fset (modDbg s (fun d => { d with challenge := none })) DBG_STATUS DBG_STATUS_CHALLENGE_OUT 0

/-- A level is granted to a path: 0 TAP, 1 software (R593, R594). -/
def grant (s : Dev) (path level : Nat) : Dev :=
  let s1 := if path = 0 then
      fset (fset (modDbg s (fun d => { d with tckAt := s.smp.op })) DBG_STATUS DBG_STATUS_TAP_LEVEL level) DBG_STATUS DBG_STATUS_ATTACHED 1
    else fset s DBG_STATUS DBG_STATUS_SW_LEVEL level
  consume (logRec s1 NOTICE SB_DBG 0 0x1001 [])

def pathNum : AuthPath → Nat
  | .tap => 0
  | .software _ => 1

/-- The outcome of an operation on a path: GARIR_AUTH's status, or RESULT with DONE (R591, R617). -/
def authResult (s : Dev) (path status : Nat) : Dev :=
  if path = 0 then modDbg s (fun d => { d with authStatus := status })
  else fset (fset s DBG_AUTH DBG_AUTH_RESULT status) DBG_AUTH DBG_AUTH_DONE 1

/-- The buffer of the software path, in the trace manager partition (R617) (log 76, DEDUCED). -/
def authBuffer (s : Dev) (buffer : Nat) (write : Bool) : Option (Nat × List (Nat × Nat)) × Dev :=
  match roleOwner s 9 with
  | none => (none, s)
  | some p =>
    match ioRange s p buffer 64 write with
    | (some l, s1) => (some (p, l), s1)
    | (none, s1) => (none, s1)

/-- `n` random bytes. -/
def randomBytes : Nat → Dev → List Byte × Dev
  | 0, s => ([], s)
  | n + 1, s =>
    let f := drawFree s
    let r := randomBytes n f.2
    (leBytes 8 f.1.toNat ++ r.1, r.2)

/-- A new challenge for a path (R592). -/
def issueChallenge (s : Dev) (path : Nat) : Challenge × Dev :=
  let f := drawFree s
  let r := randomBytes 4 f.2
  let c : Challenge := { id := f.1.toNat % 2 ^ 32, bytes := r.1, path := path, at_ := s.smp.op }
  (c, fset (modDbg r.2 (fun d => { d with challenge := some c })) DBG_STATUS DBG_STATUS_CHALLENGE_OUT 1)

/-- REQUEST once its fields are in order (R589, R592) (log 76, DEDUCED). -/
def authRequest (s : Dev) (path : AuthPath) (level : Nat) : Dev :=
  let n := pathNum path
  if authOpen s then authResult (grant s n level) n G_OK
  else if s.dbg.lockFrom.isSome then authResult s n G_LOCKOUT
  else if s.dbg.challenge.isSome then authResult s n G_BUSY
  else
    match path with
    | .tap =>
      let c := issueChallenge s 0
      authResult (modDbg c.2 (fun d => { d with authId := c.1.id, authChal := c.1.bytes })) 0 G_OK
    | .software b =>
      match authBuffer s b.toNat true with
      | (none, s1) => authResult s1 1 G_BUS_ERROR
      | (some (p, l), s1) =>
        let c := issueChallenge s1 1
        let bytes := leBytes 4 c.1.id ++ c.1.bytes
        authResult (ioWriteParts c.2 31 p none [((l.headD (0, 0)).1, 36)] bytes) 1 G_OK

/-- The software path is permitted (DBG_CTRL.SW_AUTH_EN) (log 76, DEDUCED). -/
def swAuth (s : Dev) : Bool := fbit s DBG_CTRL DBG_CTRL_SW_AUTH_EN

/-- GARIR_AUTH is shifted through the TAP. -/
def authTap (s : Dev) : Dev := modDbg (tapRun s 0x21) (fun d => { d with authChal := [] })

/-- The LEVEL field of DBG_AUTH takes 1 or 2; another value is dropped with BAD_VALUE (R617, 21 R708). -/
def swLevel (s : Dev) (level : Nat) : Dev :=
  if level = 1 ∨ level = 2 then fset s DBG_AUTH DBG_AUTH_LEVEL level else fset s DBG_CTRL DBG_CTRL_BAD_VALUE 1

/-- DBG_AUTH with GO: OP, LEVEL and BUFFER of the write (R617); dropped while DONE is 0 (21 R707) (log 91, DEDUCED). -/
def swAuthOp (s : Dev) (op level buffer : Nat) (f : Dev → Nat → Dev) : Dev :=
  if !(fbit s DBG_AUTH DBG_AUTH_DONE) then s
  else
    let s1 := fset (swLevel (fset s DBG_AUTH DBG_AUTH_OP op) level) DBG_AUTH DBG_AUTH_BUFFER (buffer / 64)
    if swAuth s1 then f s1 (fget s1 DBG_AUTH DBG_AUTH_LEVEL) else authResult s1 1 G_DENIED

/-- A buffer address as BUFFER holds it: 64-byte aligned. -/
def bufferAddr (b : PAddr) : AuthPath := .software (BitVec.ofNat 46 (b.toNat / 64 * 64))

/-- REQUEST on either path. -/
def authRequestOp (s : Dev) (path : AuthPath) (level : Nat) : Dev :=
  match path with
  | .tap => let s1 := authTap s; if level = 1 ∨ level = 2 then authRequest s1 .tap level else authResult s1 0 G_BAD_ARG
  | .software b => swAuthOp s 0 level b.toNat (fun s l => authRequest s (bufferAddr b) l)

/-- REQUEST (R592). -/
def execAuthRequest (path : AuthPath) (level : BitVec 4) (s : State) : Host.Outcome State Fault Refusal :=
  onDev s (fun d => authRequestOp d path level.toNat)

/-- A response joins those of this tick (R593). -/
def authQueue (s : Dev) (r : AuthResp) : Dev := modDbg s (fun d => { d with resps := d.resps ++ [r] })

/-- RESPOND on either path: it waits for the tick; on the software path the buffer gives ID and response. -/
def authRespondOp (s : Dev) (path : AuthPath) (level id : Nat) (payload : List Byte) : Dev :=
  match path with
  | .tap =>
    let s1 := authTap s
    if level = 1 ∨ level = 2 then authQueue (authResult s1 0 G_PENDING) { path := 0, id := id, level := level, payload := payload }
    else authResult s1 0 G_BAD_ARG
  | .software b =>
    swAuthOp s 1 level b.toNat (fun s l =>
      match authBuffer s (b.toNat / 64 * 64) false with
      | (none, s1) => authResult s1 1 G_BUS_ERROR
      | (some (_, ps), s1) =>
        let r := ioReadParts s1 31 ps
        fset (authQueue r.2 { path := 1, id := leNat (r.1.take 4), level := l, payload := (r.1.drop 4).take 32 }) DBG_AUTH DBG_AUTH_DONE 0)

/-- RESPOND (R593). -/
def execAuthRespond (path : AuthPath) (level : BitVec 4) (id : BitVec 32) (payload : BitVec 256) (s : State) : Host.Outcome State Fault Refusal :=
  onDev s (fun d => authRespondOp d path level.toNat id.toNat (leBytes 32 payload.toNat))

/-- The message of FIELD and RETURN (R589). -/
def authMessage (c : Challenge) (r : AuthResp) : List Byte :=
  beBytes 4 c.id ++ c.bytes ++ beBytes 1 r.level ++ beBytes 1 r.path ++ Config.deviceId

/-- Whether a response verifies (R589). -/
def authValid (s : Dev) (c : Challenge) (r : AuthResp) : Bool :=
  let st := lcState s
  if st = LC_OPEN then s.oasis.password == some r.payload
  else if st = LC_FIELD then r.payload == Config.hmacSha256 Config.deviceKey (authMessage c r)
  else if st = LC_RETURN then r.payload == Config.hmacSha256 Config.makerKey (authMessage c r)
  else true

/-- What the tick carries from one response to the next. -/
structure TickSt where
  dev : Dev
  granted : Bool := false
  bad : Nat := 0
deriving DecidableEq, Repr

/-- One response is judged, under the challenge outstanding when the tick began (R593) (log 76, DEDUCED). -/
def judge (c : Option Challenge) (x : TickSt) (r : AuthResp) : TickSt :=
  if x.dev.dbg.lockFrom.isSome then { x with dev := authResult x.dev r.path G_LOCKOUT }
  else
    match c with
    | none => { x with dev := authResult x.dev r.path G_STALE }
    | some c =>
      if r.id ≠ c.id then { x with dev := authResult x.dev r.path G_STALE }
      else if authValid x.dev c r then
        if x.granted then { x with dev := authResult x.dev r.path G_STALE }
        else { x with dev := authResult (grant x.dev r.path r.level) r.path G_OK, granted := true }
      else { x with dev := authResult (logLimited x.dev WARNING SB_DBG 0 0x1004 []) r.path G_INVALID, bad := x.bad + 1 }

/-- Lockout of 60 × 2^n s (R593). -/
def startLockout (s : Dev) : Dev :=
  let n := fget s DBG_STATUS DBG_STATUS_LOCKOUT_N
  let s1 := modDbg (consume s) (fun d => { d with lockFrom := some s.smp.op, lockFor := 60 * 2 ^ n * opSecond })
  logRec (fset (fset s1 DBG_STATUS DBG_STATUS_LOCKOUT_N (min (n + 1) 10)) DBG_STATUS DBG_STATUS_FAILS 0) ALERT SB_DBG 0 0x1002 []

/-- AUTHORISATION_TICK (R593) (log 76, DEDUCED). -/
def authTick (s : Dev) : Dev :=
  let us := nsUnits 1000
  let s0 := advanceOp s ((s.smp.op / us + 1) * us)
  let x := s0.dbg.resps.foldl (judge s0.dbg.challenge) { dev := modDbg s0 (fun d => { d with resps := [] }) }
  let s1 := if x.granted then fset (fset x.dev DBG_STATUS DBG_STATUS_FAILS 0) DBG_STATUS DBG_STATUS_LOCKOUT_N 0 else x.dev
  let fails := fget s1 DBG_STATUS DBG_STATUS_FAILS + x.bad
  if 5 ≤ fails then startLockout s1 else fset s1 DBG_STATUS DBG_STATUS_FAILS fails

/-- AUTHORISATION_TICK. -/
def execAuthorisationTick (s : State) : Host.Outcome State Fault Refusal := onDev s authTick

/-- CHALLENGE_EXPIRY (R592): 60 s after it was issued. -/
def execChallengeExpiry (s : State) : Host.Outcome State Fault Refusal :=
  onDev s (fun d => match d.dbg.challenge with | some c => consume (advanceOp d (c.at_ + 60 * opSecond)) | none => d)

/-- LOCKOUT_EXPIRY (R593). -/
def execLockoutExpiry (s : State) : Host.Outcome State Fault Refusal :=
  onDev s (fun d =>
    match d.dbg.lockFrom with
    | some t => modDbg (advanceOp d (t + d.dbg.lockFor)) (fun x => { x with lockFrom := none })
    | none => d)

/-- DETACH (R594): an operation of GARIR_AUTH. -/
def execAuthDetach (s : State) : Host.Outcome State Fault Refusal := onDev s (fun d => authResult (endTapGrant (authTap d)) 0 G_OK)

/-- REVOKE (R594): an operation of DBG_AUTH. -/
def swRevoke (s : Dev) : Dev :=
  if !(fbit s DBG_AUTH DBG_AUTH_DONE) then s
  else
    let s1 := fset s DBG_AUTH DBG_AUTH_OP 2
    if swAuth s1 then authResult (endSwGrant s1) 1 G_OK else authResult s1 1 G_DENIED
def execAuthRevoke (s : State) : Host.Outcome State Fault Refusal := onDev s swRevoke

/-- SET_PASSWORD (R590). -/
def setPassword (s : Dev) (payload : BitVec 256) : Dev :=
  let s1 := authTap s
  if lcState s1 ≠ LC_OPEN then authResult s1 0 G_WRONG_STATE
  else if tapLevel s1 ≠ 2 then authResult s1 0 G_DENIED
  else
    let pw := if payload = 0 then none else some (leBytes 32 payload.toNat)
    authResult { s1 with oasis := { s1.oasis with password := pw } } 0 G_OK
def execSetPassword (payload : BitVec 256) (s : State) : Host.Outcome State Fault Refusal := onDev s (fun d => setPassword d payload)

/-- TAP_IDLE_TIMEOUT (R594): 10 s without an edge on TCK. -/
def execTapIdleTimeout (s : State) : Host.Outcome State Fault Refusal :=
  onDev s (fun d => if tapLevel d = 0 then d else endTapGrant (advanceOp d (d.dbg.tckAt + 10 * opSecond)))

/-- Seconds of lockout remaining (DBG_STATUS.LOCKOUT_S). -/
def lockoutSeconds (s : Dev) : Nat :=
  match s.dbg.lockFrom with
  | some t => sat 0xFFFF ((t + s.dbg.lockFor - s.smp.op + opSecond - 1) / opSecond)
  | none => 0

/-! ## Garir commands (R595, R596) -/

/-- The status of a command, with the tag and data it returned. -/
def garirEnd (s : Dev) (status tag : Nat) (data : Word) : Dev := modDbg s (fun d => { d with gStatus := status, gTag := tag, gData := data })

/-- A command is shifted in: dropped while the last one is still running (R595). -/
def garirDo (s : Dev) (addr : Nat) (f : Dev → Dev) : Dev :=
  let s1 := tapRun s 0x20
  if s1.dbg.gStep.isSome then s1 else f (modDbg s1 (fun d => { d with gAddr := addr, gNext := 0 }))

/-- ADDR of a thread command (R596). -/
def thrAddr (core th : Nat) : Nat := core * 2 ^ 40 + th * 2 ^ 37

/-- A thread command: the core is one of 192, and the level held reaches the thread (R588, R596). -/
def garirThread (s : Dev) (core th low : Nat) (f : Dev → Nat → Dev) : Dev :=
  garirDo s (thrAddr core th + low) (fun s =>
    if 192 ≤ core then garirEnd s G_BAD_ARG 0 0
    else if !(tapReaches s (8 * core + th)) then garirEnd s G_DENIED 0 0
    else f s (8 * core + th))

/-- NOP (R596). -/
def execGarirNop (s : State) : Host.Outcome State Fault Refusal := onDev s (fun d => garirDo d 0 (fun d => garirEnd d G_OK 0 0))

/-- HALT (R597): at an instruction boundary, never between a branch and its slot, and not inside an exception entry that waits for stores (log 77, DEDUCED). -/
def garirHalt (s : Dev) (t : Nat) : Dev :=
  let x := thr s t
  if x.st ≠ .running ∧ x.st ≠ .cycleWait then garirEnd s G_WRONG_STATE 0 0
  else if x.slot = .none ∧ x.exc.isNone then garirEnd (haltThread s t) G_OK 0 0
  else modDbg (modThr s t (fun x => { x with stepping := true })) (fun d => { d with gStep := some t, gStatus := G_PENDING })
def execGarirHalt (core : Byte) (th : Fin 8) (s : State) : Host.Outcome State Fault Refusal :=
  onDev s (fun d => garirThread d core.toNat th.val 0 garirHalt)

/-- RESUME (R598); an exception entry that waited begins once it may (09 R334). -/
def garirResume (s : Dev) (t : Nat) : Dev :=
  if (thr s t).st = .haltedDebug then garirEnd (resumeExc (modThr s t (fun x => { x with st := x.resume })) t) G_OK 0 0
  else garirEnd s G_WRONG_STATE 0 0
def execGarirResume (core : Byte) (th : Fin 8) (s : State) : Host.Outcome State Fault Refusal :=
  onDev s (fun d => garirThread d core.toNat th.val 0 garirResume)

/-- STEP (R599): PENDING until the thread's next instruction has completed. -/
def garirStep (s : Dev) (t : Nat) : Dev :=
  if (thr s t).st = .haltedDebug then
    resumeExc (modDbg (modThr s t (fun x => { x with st := x.resume, stepping := true, stepWait := false })) (fun d => { d with gStep := some t, gStatus := G_PENDING })) t
  else garirEnd s G_WRONG_STATE 0 0
def execGarirStep (core : Byte) (th : Fin 8) (s : State) : Host.Outcome State Fault Refusal :=
  onDev s (fun d => garirThread d core.toNat th.val 0 garirStep)

/-- REG_READ (R596, R599). -/
def garirRegRead (r : Nat) (s : Dev) (t : Nat) : Dev :=
  let x := thr s t
  if x.st ≠ .haltedDebug then garirEnd s G_WRONG_STATE 0 0
  else if r < 32 then
    let q := if r = 0 then QWord.zero else mget (fun _ => QWord.zero) x.gpr r
    garirEnd s G_OK q.tag.toNat q.val
  else if r = 32 then garirEnd s G_OK 0 (BitVec.ofNat 64 x.pc)
  else if r < 64 then garirEnd s G_BAD_ARG 0 0
  else
    match readSr s t (r - 64) true with
    | some v => garirEnd s G_OK 0 (BitVec.ofNat 64 v)
    | none => garirEnd s G_BAD_ARG 0 0
def execGarirRegRead (core : Byte) (th : Fin 8) (r : BitVec 7) (s : State) : Host.Outcome State Fault Refusal :=
  onDev s (fun d => garirThread d core.toNat th.val r.toNat (garirRegRead r.toNat))

/-- REG_WRITE (R596, R599) (log 77, DEDUCED). -/
def garirRegWrite (r : Nat) (v : Word) (tag : Byte) (s : Dev) (t : Nat) : Dev :=
  if (thr s t).st ≠ .haltedDebug then garirEnd s G_WRONG_STATE 0 0
  else if r < 32 then garirEnd (modThr s t (fun x => setGpr x r ⟨v, tag⟩)) G_OK 0 0
  else if r = 32 then
    if v.toNat % 4 = 0 ∧ v.toNat < 2 ^ 48 then garirEnd (modThr s t (fun x => { x with pc := v.toNat })) G_OK 0 0
    else garirEnd s G_BAD_ARG 0 0
  else if r < 64 then garirEnd s G_BAD_ARG 0 0
  else
    match writeSr s t (r - 64) v true with
    | some s1 => garirEnd s1 G_OK 0 0
    | none => garirEnd s G_BAD_ARG 0 0
def execGarirRegWrite (core : Byte) (th : Fin 8) (r : BitVec 7) (v : Word) (tag : Byte) (s : State) : Host.Outcome State Fault Refusal :=
  onDev s (fun d => garirThread d core.toNat th.val r.toNat (garirRegWrite r.toNat v tag))

/-- Key of a comparator: instruction 0 to 3, data from 4 (R600). -/
def cmpKey (core : Nat) (data : Bool) (idx : Nat) : Nat := 8 * core + (if data then 4 else 0) + idx

/-- A comparator command: core and index in range, the level reaches the core's partition (R588, R600) (log 77, DEDUCED). -/
def garirCmp (s : Dev) (core : Nat) (data : Bool) (idx : Nat) (ok : Bool) (f : Dev → Dev) : Dev :=
  garirDo s (core * 2 ^ 40 + b2n data * 2 ^ 35 + idx * 2 ^ 32) (fun s =>
    if decide (192 ≤ core) || decide ((if data then 2 else 4) ≤ idx) || !ok then garirEnd s G_BAD_ARG 0 0
    else if !(tapReaches s (8 * core)) then garirEnd s G_DENIED 0 0
    else garirEnd (f s) G_OK 0 0)

/-- BP_SET (R596, R600). -/
def execBpSet (core : Byte) (data : Bool) (idx : BitVec 3) (va : BitVec 48) (mask : Byte) (action access : BitVec 2) (s : State) : Host.Outcome State Fault Refusal :=
  onDev s (fun d => garirCmp d core.toNat data idx.toNat (action.toNat != 3 && (!data || access.toNat != 0)) (fun d =>
    modDbg d (fun x => { x with cmps := mput x.cmps (cmpKey core.toNat data idx.toNat) { va := va.toNat, mask := mask.toNat, action := action.toNat, access := access.toNat } })))

/-- BP_CLEAR (R596). -/
def execBpClear (core : Byte) (data : Bool) (idx : BitVec 3) (s : State) : Host.Outcome State Fault Refusal :=
  onDev s (fun d => garirCmp d core.toNat data idx.toNat true (fun d => modDbg d (fun x => { x with cmps := mdel x.cmps (cmpKey core.toNat data idx.toNat) })))

/-- Number of a thread state in STATE (R596). -/
def stateCode : ThState → Nat
  | .off => 0
  | .running => 1
  | .cycleWait => 2
  | .haltedDebug => 3
  | .haltedFault => 4

/-- STATE (R596): bit 3 is a halt in TWAIT. -/
def garirState (s : Dev) (t : Nat) : Dev :=
  let x := thr s t
  garirEnd s G_OK 0 (BitVec.ofNat 64 (stateCode x.st + 8 * b2n (x.st == .haltedDebug && x.twait.isSome)))
def execGarirState (core : Byte) (th : Fin 8) (s : State) : Host.Outcome State Fault Refusal :=
  onDev s (fun d => garirThread d core.toNat th.val 0 garirState)

/-- BRK_HALT (R596, R601). -/
def execBrkHalt (core : Byte) (th : Fin 8) (flag : Bool) (s : State) : Host.Outcome State Fault Refusal :=
  onDev s (fun d => garirThread d core.toNat th.val 0 (fun d t => garirEnd (modThr d t (fun x => { x with brkHalt := flag })) G_OK 0 0))

/-! ## Virtual terminals (R603 to R605) -/

/-- VT_READ (R605): at level 1 or 2; FULL and DROPPED clear. -/
def vtRead (s : Dev) (p : Nat) : Dev :=
  garirDo s p (fun s =>
    if tapLevel s = 0 then garirEnd s G_DENIED 0 0
    else
      let o := bankedReg DBG_VT_TX p
      let v := reg s o
      garirEnd (fset (fset s o DBG_VT_TX_FULL 0) o DBG_VT_TX_DROPPED 0) G_OK 0 v)
def execVtRead (p : PartId) (s : State) : Host.Outcome State Fault Refusal := onDev s (fun d => vtRead d p.val)

/-- VT_WRITE (R605). -/
def vtWrite (s : Dev) (p count data : Nat) : Dev :=
  garirDo s p (fun s =>
    let o := bankedReg DBG_VT_RX p
    if tapLevel s = 0 then garirEnd s G_DENIED 0 0
    else if fbit s o DBG_VT_RX_VALID then garirEnd s G_BUSY 0 0
    else
      let s1 := fset (fset (fset s o DBG_VT_RX_COUNT count) o DBG_VT_RX_DATA data) o DBG_VT_RX_VALID 1
      garirEnd (if fbit s1 o DBG_VT_RX_IRQ_EN then raise s1 (0xE50 + p) else s1) G_OK 0 0)
def execVtWrite (p : PartId) (count : Fin 8) (data : BitVec 56) (s : State) : Host.Outcome State Fault Refusal :=
  onDev s (fun d => vtWrite d p.val count.val data.toNat)

/-- A partition's write to DBG_VT_TX (R604). -/
def vtTx (s : Dev) (p count data : Nat) : Dev :=
  let o := bankedReg DBG_VT_TX p
  if count = 0 then s
  else if fbit s o DBG_VT_TX_FULL then fset s o DBG_VT_TX_DROPPED 1
  else fset (fset (fset s o DBG_VT_TX_COUNT count) o DBG_VT_TX_DATA data) o DBG_VT_TX_FULL 1
def execDbgVtTx (p : PartId) (count : Fin 8) (data : BitVec 56) (s : State) : Host.Outcome State Fault Refusal :=
  onDev s (fun d => vtTx d p.val count.val data.toNat)

/-- ACK (R605). -/
def vtAck (s : Dev) (p : Nat) : Dev := fset s (bankedReg DBG_VT_RX p) DBG_VT_RX_VALID 0
def execVtRxAck (p : PartId) (s : State) : Host.Outcome State Fault Refusal := onDev s (fun d => vtAck d p.val)

/-! ## The debug mailbox (R596, 14 R523) -/

/-- Number of the debug mailbox. -/
def dbgMbox : Nat := 272

/-- MB_WRITE: level 2; BUSY, with no effect, while a command is in progress (log 77, DEDUCED). -/
def mbWrite (s : Dev) (idx : Nat) (send : Bool) (v : Word) : Dev :=
  garirDo s (idx + 256 * b2n send) (fun s =>
    if tapLevel s ≠ 2 then garirEnd s G_DENIED 0 0
    else if fbit s (mboxCtrl dbgMbox) PI_MBOX_CTRL_OUT_BUSY then garirEnd s G_BUSY 0 0
    else
      let s1 := setMbox s dbgMbox { mbox s dbgMbox with out := listSet (mbox s dbgMbox).out idx v }
      garirEnd (if send then mboxSend s1 dbgMbox else s1) G_OK 0 0)
def execMbWrite (idx : Fin 16) (send : Bool) (v : Word) (s : State) : Host.Outcome State Fault Refusal := onDev s (fun d => mbWrite d idx.val send v)

/-- MB_READ. -/
def mbRead (s : Dev) (idx : Nat) (ack : Bool) : Dev :=
  garirDo s (idx + 256 * b2n ack) (fun s =>
    if tapLevel s ≠ 2 then garirEnd s G_DENIED 0 0
    else
      let w := (mbox s dbgMbox).inp.getD idx 0
      garirEnd (if ack then mboxAck s dbgMbox else s) G_OK 0 w)
def execMbRead (idx : Fin 16) (ack : Bool) (s : State) : Host.Outcome State Fault Refusal := onDev s (fun d => mbRead d idx.val ack)

end Sys2Proof.Machine
end

