-- ==== Sys2Proof/Machine/InstCmds.lean ====
section
/-! DEFINITION. InstCmds: the meanings of the commands of port instances and mailboxes (06). -/
namespace Sys2Proof.Machine

/-! ## Transmission (R224, R227 to R229) -/

/-- Cells of an instance's frame from the shared pool; `none` when it has too few (R200). -/
def poolFrame (s : Dev) (body : List Byte) : Option (Nat × Dev) :=
  let need := cellsOf (body.length + 4)
  if need ≤ sharedFree s then
    let id := s.erg.nextId
    some (id, addFrame (fset s SW_BUF SW_BUF_SHARED_FREE (sharedFree s - need)) { id := id, bytes := body, shared := need, users := 1 })
  else none

/-- The frame of an instance enters the pipeline: destinations of stage 7, reserved addresses to Oasis or the management instance (R180, R222 to R224). For an untagged frame the priority, and for a receiving instance the ingress port, are free values (log 40, DEDUCED). -/
def injectFrame (s : Dev) (i id tc : Nat) (body : List Byte) : Dev :=
  let h := parseHeader body
  let f := drawFree s
  let hasTag := h.tag.isSome
  let vid := match h.tag with | some (_, _, v) => if v = 0 then (inst s i).pvid else v | none => (inst s i).pvid
  let prio := match h.tag with | some (p, _, _) => p | none => bitsOf f.1 (2, 0)
  let from_ := bitsOf f.1 (14, 8)
  let s := countErg f.2 0x02
  let x : List Dest × Dev :=
    if isReserved h.da then
      if h.da = 0x0180C200000E then ([.oasis], s)
      else if fbit s SW_CTRL SW_CTRL_MGMT_EN && fget s SW_CTRL SW_CTRL_MGMT_PI != i then ([.inst (fget s SW_CTRL SW_CTRL_MGMT_PI)], s)
      else ([], s)
    else let g := forwardTo s none (some i) h.da vid
         (g.1, g.2.2)
  let s1 := x.1.foldl (fun s d =>
    match d with
    | .port q => enqueue (useFrame s id) q { id := id, bytes := egressFrame s q body hasTag vid prio false, tc := tc, cells := cellsOf (body.length + 4) }
    | .inst j => rxDeliver s j from_ (nowNs s) body hasTag vid prio false
    | .oasis => if restarting s then s else modErg s (fun e => { e with ptpRx := e.ptpRx ++ [(128 + i, nowNs s, body)] })) x.2
  releaseFrame s1 id

/-- Whether the frame of an instance is filtered: its VID is not in the VLAN list, or its source address is not installed (R224). -/
def txFiltered (s : Dev) (i : Nat) (body : List Byte) : Bool :=
  let h := parseHeader body
  let vid := match h.tag with | some (_, _, v) => if v = 0 then (inst s i).pvid else v | none => (inst s i).pvid
  !((inst s i).vlans.contains vid) || !((inst s i).macs.contains h.sa)

/-- The buffer read of queue `q` that is in flight under the current generation. -/
def txReq (s : Dev) (i q : Nat) : Option PiReq := (inst s i).reqs.find? (fun r => r.qp == q && r.gen == piGen s i)

def dropReq (s : Dev) (i q : Nat) : Dev :=
  match txReq s i q with
  | none => s
  | some r => setReqs s i ((inst s i).reqs.erase r)

/-- A write with EN 0 that waited for the frame in progress is done now (R233, 21 R707). -/
def closeQueue (s : Dev) (i q : Nat) : Dev :=
  match (qdir s i q 1).closing with
  | none => s
  | some v =>
    if (txReq s i q).isSome then s
    else fset (qpPut (setQdir s i q 1 { qdir s i q 1 with closing := none }) i q 1 v) (PI_QP_INDEX i) PI_QP_INDEX_DONE 1

/-- A resize that is due is applied once no frame is in progress on the queue pairs it removes (R233, R250). -/
def resizeNow (s : Dev) (i : Nat) : Dev :=
  match (inst s i).change with
  | none => s
  | some c =>
    if !c.due || (inst s i).reqs.any (fun r => r.gen == piGen s i && decide (c.count ≤ r.qp)) then s
    else applyChange (setPiState s i PI_ACTIVE) i

/-- The data of a transmit buffer have been read: the frame is sent, or the descriptor completes without (R224, R229). -/
def txFrame (s : Dev) (i q : Nat) (w1 : Word) (l : List (Nat × Nat)) : Dev :=
  if partsPoisoned s l then complete (dropReq s i q) i q 1 (nowNs s) (completionWord (piGen s i) w1 0x02 ((l.map (fun p => p.2)).sum) 0 false)
  else
    let r := ioReadParts s 25 l
    let body := r.1
    if txFiltered r.2 i body then complete (dropReq r.2 i q) i q 1 (nowNs s) (completionWord (piGen s i) w1 0x01 body.length 0 false)
    else if !(mayIssue r.2 (256 + i)) then countErg (stallOn r.2 (256 + i)) 0x0B
    else
      match poolFrame r.2 body with
      | none => modErg (stallOn r.2 (256 + i)) (fun e => { e with waitPool := (e.waitPool.filter (fun x => x != (i, q))) ++ [(i, q)] })
      | some (id, s1) =>
        let s2 := takeCredit (modErg (dropReq s1 i q) (fun e => { e with waitPool := e.waitPool.filter (fun x => x != (i, q)) })) (256 + i)
        let s3 := complete s2 i q 1 (nowNs s2) (completionWord (piGen s i) w1 0x00 body.length 0 false)
        injectFrame s3 i id (bitsOf w1 (10, 8)) body

/-- PI_TX_DESCRIPTOR: the next transmit descriptor of queue `q`; `slow` leaves its buffer read in flight (R224, R229 to R232, R239) (log 133, DESIGN CHOICE). -/
def txDescriptor (s : Dev) (i q : Nat) (slow : Bool) : Dev :=
  if piState s i ≠ PI_ACTIVE ∧ piState s i ≠ PI_NOTICE then s
  else if qpCount s i ≤ q then s
  else
    let fail (s : Dev) (w1 : Word) (status len : Nat) : Dev :=
      complete (dropReq s i q) i q 1 (nowNs s) (completionWord (piGen s i) w1 status len 0 false)
    let next : HeadDesc × Dev := match txReq s i q with
      | some r => (.desc r.w0 r.w1, s)
      | none => nextDesc s i q 1
    (fun s => resizeNow (closeQueue s i q) i) <| match next with
    | (.none, s1) => s1
    | (.bad w0 w1, s1) => fail s1 w1 0x02 (bitsOf w0 (59, 46))
    | (.desc w0 w1, s1) =>
      let len := bitsOf w0 (59, 46)
      if len < 60 ∨ 9216 < len then fail s1 w1 0x03 len
      else
        match ioRange s1 (inst s1 i).part (bitsOf w0 (45, 0)) len false with
        | (none, s2) => fail s2 w1 0x04 len
        | (some l, s2) =>
          if slow then
            if (txReq s2 i q).isSome then s2 else setReqs s2 i ((inst s2 i).reqs ++ [⟨q, piGen s2 i, w0, w1⟩])
          else txFrame s2 i q w1 l

/-- What the next frame of a transmit queue waits for (01 R15). -/
def txWaits (s : Dev) (i q : Nat) : List Nat :=
  let buf (w0 : Word) : List Nat := bufferWaits s i 1 w0 (bitsOf w0 (59, 46))
  match txReq s i q with
  | some r => buf r.w0
  | none =>
    match slotWaits s i q 1 with
    | [] => (match (nextDesc s i q 1).1 with | .desc w0 _ => buf w0 | _ => [])
    | l => l

/-- Frames in progress on an instance are finished before its queues are disabled (R233). -/
def finishTx (s : Dev) (i : Nat) : Dev :=
  ((inst s i).reqs.filter (fun r => r.gen == piGen s i)).foldl (fun s r => txDescriptor s i r.qp false) s

/-- PI_QP_WRITE (R233, R252): a frame in progress goes first; while it waits for a credit or for cells, so does the write, with DONE at 0. -/
def qpWriteCmd (s : Dev) (i q w : Nat) : Dev :=
  if w = 1 ∧ (qdir s i q 1).en ∧ bitsOf (reg s (PI_QP_DATA i)) (55, 55) = 0 ∧ (txReq s i q).isSome then
    let s1 := txDescriptor s i q false
    if (txReq s1 i q).isSome then
      fset (setQdir (qpIndexSet s1 i q w 1) i q 1 { qdir s1 i q 1 with closing := some (reg s (PI_QP_DATA i)) }) (PI_QP_INDEX i) PI_QP_INDEX_DONE 0
    else qpWrite s1 i q w
  else qpWrite s i q w

/-! ## Tenant commands (R247) -/

/-- GET_INFO. -/
def cmdGetInfo (s : Dev) (i : Nat) : Dev :=
  let x := inst s i
  respond s i ST_OK
    [BitVec.ofNat 64 (i + x.part % 16 * 2 ^ 8 + qpCount s i * 2 ^ 12 + piGen s i * 2 ^ 23), BitVec.ofNat 64 (x.pvid % 4096 + x.flood % 8 * 2 ^ 12)]

/-- One address of SET_MAC: the status and the device with it done. -/
def setOneMac (s : Dev) (i : Nat) (w : Word) : Nat × Dev :=
  let mac := bitsOf w (47, 0)
  let x := inst s i
  if isMulticast mac then (ST_BAD_ARG, s)
  else if bitsOf w (48, 48) = 1 then
    (ST_OK, modInst (removeMac s i mac x.vlans) i (fun x => { x with macs := x.macs.filter (fun m => m != mac) }))
  else if x.vlans.any (fun v => match fdbFind s mac v with
      | some k => bitsOf (swWord s 1 k 0) F_STATIC == 1 && bitsOf (swWord s 1 k 1) F_DEST != 0x100 + i
      | none => false) then (ST_DENIED, s)
  else if x.macs.contains mac then (ST_OK, s)
  else if 16 ≤ x.macs.length then (ST_NO_RESOURCE, s)
  else
    match installMac s i mac x.vlans with
    | none => (ST_NO_RESOURCE, s)
    | some s1 => (ST_OK, modInst s1 i (fun x => { x with macs := x.macs ++ [mac] }))

/-- The valid addresses of SET_MAC in order: statuses by word, and the device (log 39, DEDUCED). -/
def setMacs (i : Nat) : List (Nat × Word) → Dev → List (Nat × Nat) × Dev
  | [], s => ([], s)
  | (j, w) :: rest, s =>
    let r := setOneMac s i w
    let q := setMacs i rest r.2
    ((j, r.1) :: q.1, q.2)

/-- SET_MAC (log 39, DEDUCED). -/
def cmdSetMac (s : Dev) (i : Nat) : Dev :=
  let ws := ((rangeFrom 0 4).map (fun j => (j, mboxArg s i (j + 1)))).filter (fun e => bitsOf e.2 (63, 63) == 1)
  let r := setMacs i ws s
  let bad := r.1.filter (fun e => e.2 != ST_OK)
  let good := r.1.filter (fun e => e.2 == ST_OK)
  match bad with
  | [] => respond r.2 i ST_OK []
  | b :: _ =>
    if good.isEmpty then respond s i b.2 []
    else respond r.2 i ST_PARTIAL [BitVec.ofNat 64 ((good.map (fun e => 2 ^ e.1)).sum)]

/-- VIDs of packed words, four per word, zeros left out. -/
def vidsOf (ws : List Word) : List Nat :=
  dedup ((ws.flatMap (fun w => (rangeFrom 0 4).map (fun j => bitsOf w (12 * j + 11, 12 * j)))).filter (fun v => v != 0))

/-- Every address of an instance in every VLAN given; `none` when the FDB cannot hold them. -/
def installAll (i : Nat) (vs : List Nat) : List Nat → Dev → Option Dev
  | [], s => some s
  | m :: ms, s =>
    match installMac s i m vs with
    | none => none
    | some s1 => installAll i vs ms s1

/-- SET_VLANS (log 38, DEDUCED). -/
def cmdSetVlans (s : Dev) (i : Nat) : Dev :=
  let x := inst s i
  let pvid := bitsOf (mboxArg s i 1) (11, 0)
  let vs := vidsOf [mboxArg s i 2, mboxArg s i 3]
  if pvid = 4095 ∨ vs.contains 4095 then respond s i ST_BAD_ARG []
  else if !((pvid :: vs).all (fun v => x.permitted.contains v)) then respond s i ST_DENIED []
  else
    let s1 := x.macs.foldl (fun s m => removeMac s i m (x.vlans.filter (fun v => !(vs.contains v)))) s
    match installAll i vs x.macs s1 with
    | none => respond s i ST_NO_RESOURCE []
    | some s2 => respond (modInst s2 i (fun x => { x with pvid := pvid, vlans := vs })) i ST_OK []

/-- SET_FLOOD (log 39, DEDUCED). -/
def cmdSetFlood (s : Dev) (i : Nat) : Dev :=
  respond (modInst s i (fun x => { x with flood := bitsOf (mboxArg s i 1) (2, 0) })) i ST_OK []

/-- SET_STEER. -/
def cmdSetSteer (s : Dev) (i : Nat) : Dev :=
  let l := (rangeFrom 0 64).map (fun e => bitsOf (mboxArg s i (e / 6 + 1)) (10 * (e % 6) + 9, 10 * (e % 6)))
  if l.all (fun q => decide (q < qpCount s i)) then respond (modInst s i (fun x => { x with steer := l })) i ST_OK []
  else respond s i ST_BAD_ARG []

/-- RESET (R242): R240 is asked for; the response waits for its end. Only ACTIVE and NOTICE take it (R247, R249). -/
def cmdReset (s : Dev) (i : Nat) : Dev :=
  if piState s i ≠ PI_ACTIVE ∧ piState s i ≠ PI_NOTICE then respond s i ST_WRONG_STATE []
  else modInst s i (fun x => { x with resetReq := true, tenantReset := some (mboxSeq s i) })

/-- The announced change is applied now (R250): a removal is left to R240; a resize waits for the frames in progress on the queue pairs it removes (R233). -/
def changeNow (s : Dev) (i : Nat) : Dev :=
  match (inst s i).change with
  | none => s
  | some c =>
    if c.code = 0x8003 then applyChange s i
    else
      let s1 := finishTx s i
      if c.code = 0x8001 then resizeNow (modInst s1 i (fun x => { x with change := x.change.map (fun c => { c with due := true }) })) i
      else applyChange (setPiState s1 i PI_ACTIVE) i

/-- ACK_NOTICE. -/
def cmdAckNotice (s : Dev) (i : Nat) : Dev :=
  match (inst s i).change with
  | some c =>
    if piState s i = PI_NOTICE ∧ c.id = bitsOf (mboxArg s i 1) (15, 0) ∧ !(inst s i).removing then changeNow (respond s i ST_OK []) i
    else respond s i ST_WRONG_STATE []
  | none => respond s i ST_WRONG_STATE []

/-! ## Manager commands (R247 to R251) -/

/-- Whether a mailbox is that of the instance manager (14 R531). -/
def isManager (s : Dev) (m role : Nat) : Bool := decide (256 ≤ m) && decide (m < 272) && nbit (partSt s (m - 256)).roles role

/-- An instance is made ACTIVE in a partition: queue pairs disabled, STEER 0, its page mapped and the partition's translations removed (R249, 12 R461) (log 37, DESIGN CHOICE). -/
def createInst (s : Dev) (i part count : Nat) (vids : List Nat) : Dev :=
  let s1 := setInst s i { part := part, permitted := vids, nextNotice := (inst s i).nextNotice, reqs := (inst s i).reqs }
  let s2 := setPiState (fset s1 (PI_CTRL i) PI_CTRL_QP_COUNT count) i PI_ACTIVE
  tlbDropAll (setPart s2 part { partSt s2 part with s2 := (partSt s2 part).s2 ++ [⟨piPage i, piPage i, 0x10000, 3⟩] }) part

/-- Status of PI_CREATE (R247). -/
def createStatus (s : Dev) (i part count : Nat) (vids : List Nat) : Nat :=
  if 255 < i ∨ 15 < part ∨ 1024 < count ∨ vids.contains 4095 then ST_BAD_ARG
  else if piState s i ≠ PI_FREE then ST_WRONG_STATE
  else if 4096 < qpUsed s + count then ST_NO_RESOURCE
  else ST_OK

/-- The permitted VIDs of PI_CREATE (R247) (log 38, DEDUCED). -/
def createVids (s : Dev) (m : Nat) : List Nat := vidsOf [mboxArg s m 4, mboxArg s m 5, mboxArg s m 6, mboxArg s m 7]

/-- Whether PI_CREATE may complete: one that changes its partition's stage 2 waits until the partition's accesses are performed (12 R459, R461) (log 56, DEDUCED). -/
def createReady (s : Dev) (m : Nat) : Bool :=
  let a (j : Nat) := (mboxArg s m j).toNat
  !(isManager s m 5) || createStatus s (a 1) (a 2) (a 3) (createVids s m) != ST_OK || partQuiet s (a 2) (fun _ => true)

/-- PI_CREATE: words 1 to 3 instance, partition, count; words 4 to 7 permitted VIDs (log 38, DEDUCED). -/
def cmdPiCreate (s : Dev) (m : Nat) : Dev :=
  let a (j : Nat) := (mboxArg s m j).toNat
  let vids := createVids s m
  let st := createStatus s (a 1) (a 2) (a 3) vids
  if st = ST_OK then respond (createInst s (a 1) (a 2) (a 3) vids) m ST_OK [] else respond s m st []

/-- A change is announced to the tenant: notice with a new id, state NOTICE (R249, R251). -/
def announce (s : Dev) (i : Nat) (c : PiChange) (time : Nat) (w2 : List Word) : Dev :=
  let id := (inst s i).nextNotice
  let s1 := modInst s i (fun x => { x with change := some { c with id := id, deadline := nowNs s + time * 1000000 }, nextNotice := (id + 1) % 65536 })
  notify (setPiState s1 i PI_NOTICE) i c.code (BitVec.ofNat 64 (id + time * 2 ^ 16) :: w2)

/-- Status of a change of a running instance. -/
def changeStatus (s : Dev) (i time : Nat) (badArg noRoom : Bool) : Nat :=
  if 255 < i ∨ time < 1 ∨ 10000 < time ∨ badArg then ST_BAD_ARG
  else if piState s i ≠ PI_ACTIVE ∨ (inst s i).resetReq then ST_WRONG_STATE
  else if noRoom then ST_NO_RESOURCE
  else ST_OK

/-- PI_RESIZE: words 1 to 3 instance, new count, notice time (log 38, DEDUCED). -/
def cmdPiResize (s : Dev) (m : Nat) : Dev :=
  let a (j : Nat) := (mboxArg s m j).toNat
  let st := changeStatus s (a 1) (a 3) (decide (1024 < a 2)) (decide (4096 < qpUsed s - qpCount s (a 1) + a 2))
  if st = ST_OK then announce s (a 1) { code := 0x8001, id := 0, count := a 2, manager := m } (a 3) [BitVec.ofNat 64 (a 2)]
  else respond s m st []

/-- PI_POLICY: word 1 instance, words 2 to 5 permitted VIDs, word 6 notice time (log 38, DEDUCED). -/
def cmdPiPolicy (s : Dev) (m : Nat) : Dev :=
  let a (j : Nat) := (mboxArg s m j).toNat
  let vids := vidsOf [mboxArg s m 2, mboxArg s m 3, mboxArg s m 4, mboxArg s m 5]
  let st := changeStatus s (a 1) (a 6) (vids.contains 4095) false
  if st = ST_OK then announce s (a 1) { code := 0x8002, id := 0, vids := vids, manager := m } (a 6) [BitVec.ofNat 64 (bitsOf (mboxArg s m 2) (47, 0))]
  else respond s m st []

/-- PI_REMOVE: words 1 and 2 instance, notice time (log 38, DEDUCED). -/
def cmdPiRemove (s : Dev) (m : Nat) : Dev :=
  let a (j : Nat) := (mboxArg s m j).toNat
  let st := changeStatus s (a 1) (a 2) false false
  if st = ST_OK then announce s (a 1) { code := 0x8003, id := 0, manager := m } (a 2) [0]
  else respond s m st []

/-- NOTICE_DEADLINE (R250). -/
def noticeDeadline (s : Dev) (i : Nat) : Dev :=
  match (inst s i).change with
  | some c => if piState s i = PI_NOTICE ∧ !(inst s i).removing then changeNow (advanceTo s c.deadline) i else s
  | none => s

/-- A tenant command of an instance. -/
def tenantCmd (s : Dev) (i code : Nat) (f : Dev → Nat → Dev) : Dev := mboxRun s i code (fun d => f d i)

/-- A manager command: from another sender it is DENIED (R247). -/
def managerCmd (s : Dev) (m code : Nat) (f : Dev → Nat → Dev) : Dev :=
  mboxRun s m code (fun d => if isManager d m 5 then f d m else respond d m ST_DENIED [])

/-! ## Meanings -/

/-- DOORBELL (R234). -/
def execDoorbell (i : InstId) (v : Word) (s : State) : Host.Outcome State Fault Refusal :=
  onDev s (fun d => whenOn d 76 (fun d => doorbell d i.val v))

/-- PI_TX_DESCRIPTOR (R224). -/
def execPiTxDescriptor (i : InstId) (q : Fin 1024) (slow : Bool) (s : State) : Host.Outcome State Fault Refusal :=
  onDev s (fun d => engineAct d (txWaits d i.val q.val) (fun d => txDescriptor d i.val q.val slow))

/-- STALE_DATA_RETURN (R239). -/
def execStaleDataReturn (i : InstId) (s : State) : Host.Outcome State Fault Refusal := onDev s (fun d => staleReturn d i.val)

/-- PI_QP_READ (R252). -/
def execPiQpRead (i : InstId) (q : Fin 1024) (word : Fin 4) (s : State) : Host.Outcome State Fault Refusal :=
  onDev s (fun d => whenOn d 76 (whenDone (PI_QP_INDEX i.val) PI_QP_INDEX_DONE (fun d => qpRead d i.val q.val word.val)))

/-- PI_QP_WRITE (R252). -/
def execPiQpWrite (i : InstId) (q : Fin 1024) (word : Fin 4) (s : State) : Host.Outcome State Fault Refusal :=
  onDev s (fun d => whenOn d 76 (whenDone (PI_QP_INDEX i.val) PI_QP_INDEX_DONE (fun d => qpWriteCmd d i.val q.val word.val)))

/-- INSTANCE_RESET (R240): an asked-for reset starts. -/
def execInstanceReset (i : InstId) (s : State) : Host.Outcome State Fault Refusal :=
  onDev s (fun d => if (inst d i.val).resetReq && piState d i.val != PI_FREE && piState d i.val != PI_RESETTING then instResetStart d i.val else d)

/-- RESET_WAIT_TIMEOUT (R241). -/
def execResetWaitTimeout (i : InstId) (s : State) : Host.Outcome State Fault Refusal := onDev s (fun d => instResetLate d i.val)

/-- SEND (R244). -/
def execMboxSend (m : Mailbox) (s : State) : Host.Outcome State Fault Refusal := onDev s (fun d => mboxSend d (mboxNum m))

/-- MAILBOX_RESPONSE (R245). -/
def execMailboxResponse (m : Mailbox) (s : State) : Host.Outcome State Fault Refusal := onDev s (fun d => mboxPlace d (mboxNum m))

/-- IN_ACK (R245). -/
def execMboxInAck (m : Mailbox) (s : State) : Host.Outcome State Fault Refusal := onDev s (fun d => mboxAck d (mboxNum m))

/-- MBOX_DATA (21 R698): an access to the data register. -/
def execMboxData (m : Mailbox) (w : Option Word) (s : State) : Host.Outcome State Fault Refusal :=
  onDev s (fun d => match w with | some v => mboxWrite d (mboxNum m) v | none => mboxRead d (mboxNum m))

/-- GET_INFO (R247). -/
def execGetInfo (i : InstId) (s : State) : Host.Outcome State Fault Refusal := onDev s (fun d => tenantCmd d i.val 0x0001 cmdGetInfo)

/-- SET_MAC (R247). -/
def execSetMac (i : InstId) (s : State) : Host.Outcome State Fault Refusal := onDev s (fun d => tenantCmd d i.val 0x0002 cmdSetMac)

/-- SET_VLANS (R247). -/
def execSetVlans (i : InstId) (s : State) : Host.Outcome State Fault Refusal := onDev s (fun d => tenantCmd d i.val 0x0003 cmdSetVlans)

/-- SET_FLOOD (R247). -/
def execSetFlood (i : InstId) (s : State) : Host.Outcome State Fault Refusal := onDev s (fun d => tenantCmd d i.val 0x0004 cmdSetFlood)

/-- SET_STEER (R247). -/
def execSetSteer (i : InstId) (s : State) : Host.Outcome State Fault Refusal := onDev s (fun d => tenantCmd d i.val 0x0005 cmdSetSteer)

/-- RESET (R242). -/
def execTenantReset (i : InstId) (s : State) : Host.Outcome State Fault Refusal := onDev s (fun d => tenantCmd d i.val 0x0006 cmdReset)

/-- ACK_NOTICE (R250). -/
def execAckNotice (i : InstId) (s : State) : Host.Outcome State Fault Refusal := onDev s (fun d => tenantCmd d i.val 0x0007 cmdAckNotice)

/-- PI_CREATE (R249). -/
def execPiCreate (m : Mailbox) (s : State) : Host.Outcome State Fault Refusal := onDev s (fun d => if createReady d (mboxNum m) then managerCmd d (mboxNum m) 0x0101 cmdPiCreate else d)

/-- PI_RESIZE (R250). -/
def execPiResize (m : Mailbox) (s : State) : Host.Outcome State Fault Refusal := onDev s (fun d => managerCmd d (mboxNum m) 0x0102 cmdPiResize)

/-- PI_POLICY (R250). -/
def execPiPolicy (m : Mailbox) (s : State) : Host.Outcome State Fault Refusal := onDev s (fun d => managerCmd d (mboxNum m) 0x0103 cmdPiPolicy)

/-- PI_REMOVE (R249). -/
def execPiRemove (m : Mailbox) (s : State) : Host.Outcome State Fault Refusal := onDev s (fun d => managerCmd d (mboxNum m) 0x0104 cmdPiRemove)

/-- PI_MIGRATE (R247, R248): NOT_SUPPORTED, always. -/
def execPiMigrate (m : Mailbox) (s : State) : Host.Outcome State Fault Refusal :=
  onDev s (fun d => mboxRun d (mboxNum m) 0x0105 (fun d => respond d (mboxNum m) ST_NOT_SUPPORTED []))

/-- NOTICE_DEADLINE (R250). -/
def execNoticeDeadline (i : InstId) (s : State) : Host.Outcome State Fault Refusal := onDev s (fun d => noticeDeadline d i.val)

end Sys2Proof.Machine
end

