-- ==== Sys2Proof/Machine/TwinCmds.lean ====
section
/-! DEFINITION. TwinCmds: the meanings of the commands of the twin standby (07), but for COLD_START, which restarts partitions. -/
namespace Sys2Proof.Machine

/-- TWIN_ENABLE (R253): a write of TWIN_CTRL.EN, an RWL field. -/
def execTwinEnable (who : Agent) (on : Bool) (s : State) : Host.Outcome State Fault Refusal :=
  onDev s (fun d => whenOn d 78 (fun d => writeField d who .TWIN 0 TWIN_CTRL TWIN_CTRL_EN (b2n on) (fun d => twinEnable d on)))

/-- The network heartbeats of the enabled paths, in traffic class 7 (R281). -/
def sendNetwork (s : Dev) : Dev := (networkFrames s).foldl (fun s e => handToPort s e.1 7 e.2) s

/-- HEARTBEAT_SEND (R263, R281): one PERIOD after the last was due, on the link and on each enabled path. -/
def heartbeatTick (s : Dev) : Dev :=
  if twinOn s && domOn s 78 then
    let due := s.twin.hbAt + hbPeriodNs s
    sendNetwork (heartbeatSend (modTwin (advanceTo s due) (fun x => { x with hbAt := due })))
  else s

def execHeartbeatSend (s : State) : Host.Outcome State Fault Refusal := onDev s heartbeatTick

/-- HEARTBEAT (R254, R255, R263) (log 13, DESIGN CHOICE). -/
def execHeartbeat (at_ : Nat) (m : List Byte) (delay skew : BitVec 16) (s : State) : Host.Outcome State Fault Refusal :=
  onDev s (fun d => heartbeat d at_ m delay.toNat skew.toNat)

/-- ARRIVAL_MAP (R267). -/
def execArrivalMap (at_ : Nat) (m : List Byte) (s : State) : Host.Outcome State Fault Refusal := onDev s (fun d => arrivalMap d at_ m)

/-- FRAME_FILL (R268). -/
def execFrameFill (at_ : Nat) (m : List Byte) (s : State) : Host.Outcome State Fault Refusal := onDev s (fun d => frameFill d at_ m)

/-- DIGEST_MESSAGE (R277). -/
def execDigestMessage (at_ : Nat) (m : List Byte) (s : State) : Host.Outcome State Fault Refusal := onDev s (fun d => digestMessage d at_ m)

/-- JOURNAL (R272). -/
def execJournalMsg (at_ : Nat) (m : List Byte) (s : State) : Host.Outcome State Fault Refusal := onDev s (fun d => journalMessage d at_ m)

/-- STATE_COPY (R284). -/
def execStateCopy (at_ : Nat) (m : List Byte) (s : State) : Host.Outcome State Fault Refusal := onDev s (fun d => engineAct d (applyWaits d m) (fun d => stateCopy d at_ m))

/-- LINK_LOST (R255). -/
def execLinkLost (s : State) : Host.Outcome State Fault Refusal := onDev s linkLostEvent

/-- PATH_LOST (R255). -/
def execPathLost (j : Fin 4) (s : State) : Host.Outcome State Fault Refusal := onDev s (fun d => pathLost d j.val)

/-- TWIN_LANE_DOWN (R264). -/
def execTwinLaneDown (l : Fin 8) (s : State) : Host.Outcome State Fault Refusal := onDev s (fun d => laneSet d l.val false)

/-- TWIN_LANE_UP (R264). -/
def execTwinLaneUp (l : Fin 8) (s : State) : Host.Outcome State Fault Refusal := onDev s (fun d => laneSet d l.val true)

/-- AGREEMENT_WINDOW_END (R266, R269). -/
def agreementEnd (s : Dev) (c : Nat) : Dev := if (agreeOf s c).isOpen then releaseHeld (windowEnd s c) c else s

def execAgreementWindowEnd (c : ClassId) (s : State) : Host.Outcome State Fault Refusal := onDev s (fun d => agreementEnd d c.val)

/-- DIGEST_DONE (R276). -/
def execDigestDone (c : ClassId) (k : CtlId) (s : State) : Host.Outcome State Fault Refusal := onDev s (fun d => digestDone d c.val k.val)

/-- DIGEST_MISSED (R277). -/
def execDigestMissed (c : ClassId) (k : CtlId) (s : State) : Host.Outcome State Fault Refusal := onDev s (fun d => digestMissed d c.val k.val)

/-- JOURNAL_SUBMIT (R272). -/
def execJournalSubmit (v : Word) (s : State) : Host.Outcome State Fault Refusal := onDev s (fun d => whenOn d 78 (fun d => journalSubmit d v))

/-- JOIN (R283, R289). -/
def execTwinJoin (s : State) : Host.Outcome State Fault Refusal := onDev s (fun d => whenOn d 78 (twinGo cmdJoin))

/-- LEAVE (R289). -/
def execTwinLeave (s : State) : Host.Outcome State Fault Refusal := onDev s (fun d => whenOn d 78 (twinGo cmdLeave))

/-- SWAP (R289, R290). -/
def execTwinSwap (s : State) : Host.Outcome State Fault Refusal := onDev s (fun d => whenOn d 78 (twinGo cmdSwap))

/-- START (R289). -/
def execTwinStart (s : State) : Host.Outcome State Fault Refusal := onDev s (fun d => whenOn d 78 (twinGo cmdStart))

/-- SWAP_TIMEOUT (R290). -/
def execSwapTimeout (s : State) : Host.Outcome State Fault Refusal := onDev s swapTimeout

/-- COPY_ROUND (R284). -/
def execCopyRound (s : State) : Host.Outcome State Fault Refusal := onDev s copyRound

/-- FREEZE_TIMEOUT (R285). -/
def execFreezeTimeout (s : State) : Host.Outcome State Fault Refusal := onDev s freezeTimeout

/-- TWIN_TBL_READ (R292). -/
def execTwinTblRead (table : Fin 4) (index : Fin 16) (s : State) : Host.Outcome State Fault Refusal :=
  onDev s (fun d => whenOn d 78 (whenDone TWIN_TBL_INDEX TWIN_TBL_INDEX_DONE (fun d => twinTblRead d table.val index.val)))

/-- TWIN_TBL_WRITE (R271, R292). -/
def execTwinTblWrite (table : Fin 4) (index : Fin 16) (s : State) : Host.Outcome State Fault Refusal :=
  onDev s (fun d => whenOn d 78 (whenDone TWIN_TBL_INDEX TWIN_TBL_INDEX_DONE (fun d => twinTblWrite d table.val index.val)))

end Sys2Proof.Machine
end

