-- ==== Sys2Proof/Machine/Parts.lean ====
section
/-! DEFINITION. Parts: partitions, their commands and their states, routes, mappings and hardware gates (14 R535 to R545; 11 R433; 12 R461). -/
namespace Sys2Proof.Machine

def P_UNUSED : Nat := 0
def P_OFF : Nat := 1
def P_BOOTING : Nat := 2
def P_RUNNING : Nat := 3
def P_STOPPING : Nat := 4
def P_RESETTING : Nat := 5

/-- A partition changes state: NOTICE 0x0E07, and notice 0x8101 to the partition manager of its world (R541). -/
def setPartState (s : Dev) (p v : Nat) : Dev :=
  let s1 := setReg s MGR_PART_STATUS (putBits (reg s MGR_PART_STATUS) (4 * p + 3, 4 * p) v)
  let s2 := logRec s1 NOTICE SB_OASIS 0 0x0E07 []
  match partManager s2 (partSt s2 p).world with
  | some m => notify s2 (256 + m) 0x8101 [BitVec.ofNat 64 (p + v * 16)]
  | none => s2

/-! ## Start (R535, R538, R541) -/

/-- Physical parts of a range that stage 2 of a partition maps into its own DRAM; `none` when some byte lies elsewhere (R535). -/
def ownRange (s : Dev) (p ipa n : Nat) : Option (List (Nat × Nat)) :=
  (pageParts (n / 4096 + 2) ipa n).foldr (fun x acc =>
    match acc, stage2 s p x.1 with
    | some l, .ok pa _ _ =>
      if decide ((partSt s p).dramBase ≤ pa) && decide (pa + x.2 ≤ (partSt s p).dramBase + (partSt s p).dramSize) then some ((pa, x.2) :: l) else none
    | _, _ => none) (some [])

/-- Oasis writes bytes with tag 0x00, as sharer 31 of the directory: every word it touches takes that tag, a word written whole loses its poison (R508, R535, 02 R67). -/
def oasisWrite (s : Dev) (pa : Nat) (bs : List Byte) : Dev :=
  let s1 := (linesOf pa bs.length).foldl (fun s l => oasisStore s l (fun s => s)) s
  (wordsOf pa bs.length).foldl (fun s w =>
    let s1 := setTag s w 0x00
    if decide (pa ≤ 8 * w) && decide (8 * w + 8 ≤ pa + bs.length) then setPoison s1 w false else s1) (markDirty (wrBytes s1 pa bs) pa bs.length)

/-- A load record of a boot blob: written, or refused. -/
def applyLoad (s : Dev) (p : Nat) (b : BlobLoad) : Option Dev :=
  (ownRange s p b.ipa b.bytes.length).map (fun l =>
    (l.foldl (fun (x : List Byte × Dev) q => (x.1.drop q.2, oasisWrite x.2 q.1 (x.1.take q.2))) (b.bytes, s)).2)

/-- The load records in order; `none` at the first that is refused (log 80, DEDUCED). -/
def applyLoads (p : Nat) : List BlobLoad → Dev → Option Dev × Dev
  | [], s => (some s, s)
  | b :: bs, s =>
    match applyLoad s p b with
    | some s1 => applyLoads p bs s1
    | none => (none, s)

/-- Word `j` of a thread start, 1 to 11 (R538). -/
def startWord (ws : List Word) (j : Nat) : Word := ws.getD (j - 1) 0

def startCore (ws : List Word) : Nat := bitsOf (startWord ws 1) (7, 0)
def startThr (ws : List Word) : Nat := 8 * startCore ws + bitsOf (startWord ws 1) (10, 8)

/-- A thread start whose arguments lie in their ranges: a core that runs threads, aligned addresses, an IPL up to 16 (R538, 09 R363, 11 R416, 12 R463) (log 81, DEDUCED). -/
def startArgsOk (s : Dev) (ws : List Word) : Bool :=
  let core := startCore ws
  let z (j hi lo : Nat) : Bool := (startWord ws j).toNat % 2 ^ lo == 0 && decide ((startWord ws j).toNat < 2 ^ (hi + 1))
  decide ((startWord ws 1).toNat < 2 ^ 12) && decide (core < 192) && (coreMode s core == 0 || (corePaired s core && core % 2 == 0)) &&
    z 2 47 2 && z 3 47 9 && z 4 47 6 && z 5 47 6 && z 6 47 6 && decide ((startWord ws 7).toNat ≤ 16) && z 8 47 12 && z 9 15 0 && z 10 0 0

/-- Registers of a thread start (log 81, DEDUCED). -/
def startRegs (ws : List Word) : StartRegs :=
  { entry := (startWord ws 2).toNat, sup := bitsOf (startWord ws 1) (11, 11) == 1, vbr := (startWord ws 3).toNat, ssp := (startWord ws 4).toNat,
    stackLimit := (startWord ws 5).toNat, emsp := (startWord ws 6).toNat, ipl := (startWord ws 7).toNat, ttb := (startWord ws 8).toNat,
    asid := (startWord ws 9).toNat, tctl := (startWord ws 10).toNat, w1 := ⟨startWord ws 11, 0⟩ }

/-- The thread starts (R334, R538): BRK_HALT stays (16 R601) (log 81, DEDUCED). -/
def startThread (s : Dev) (ws : List Word) : Dev :=
  let t := startThr ws
  setThr s t { startedThread (startRegs ws) .running with brkHalt := (thr s t).brkHalt }

/-- Whether a thread is OFF and its cluster runs. -/
def startable (s : Dev) (ws : List Word) : Bool := (thr s (startThr ws)).st == .off && domOn s (startCore ws / 8)

/-- Whether every thread start of a boot blob is accepted: arguments, core of the partition, thread OFF, none named twice (R541) (log 80, DEDUCED). -/
def startsOk (s : Dev) (p : Nat) (l : List (List Word)) : Bool :=
  l.all (fun ws => startArgsOk s ws && corePart s (startCore ws) == p && startable s ws) &&
    (dedup (l.map startThr)).length == l.length

/-- A boot-blob record is refused: ALERT 0x0E02, state OFF (R541) (log 80, DEDUCED). -/
def bootRefused (s : Dev) (p : Nat) : Dev := setPartState (logRec s ALERT SB_CFG 0 0x0E02 [15]) p P_OFF

/-- A partition reaches RUNNING; with the last of those that START_AT_BOOT names, the second of R521 begins. -/
def startedPart (s : Dev) (p : Nat) : Dev :=
  let s1 := setPartState s p P_RUNNING
  if startsMissing s && !(startsMissing s1) then { s1 with oasis := { s1.oasis with heldFrom := s1.smp.op } } else s1

/-- From OFF: DRAM cleared where CLEAR_ON_RESET, loads, thread starts, RUNNING (R541). -/
def bootPart (s : Dev) (p : Nat) : Dev :=
  let x := partSt s p
  let lo := x.dramBase
  let hi := x.dramBase + x.dramSize
  let s1 := setPartState s p P_BOOTING
  let s2 := if x.clearOnReset then
      clearRange ((s1.cache.dir.filter (fun e => decide (lo ≤ 64 * e.2.line) && decide (64 * e.2.line < hi))).foldl (fun s e => ioInvalidate s e.2.line) s1) lo hi
    else s1
  match applyLoads p x.loads s2 with
  | (none, s3) => bootRefused s3 p
  | (some s3, _) =>
    if startsOk s3 p x.starts then startedPart (x.starts.foldl startThread s3) p else bootRefused s3 p

/-- The status of a start or reset: OK once RUNNING. After a refused boot blob a reset ends not RUNNING; for a start the spec names no status: a free choice of the two others that its row permits (log 80, DEDUCED). -/
def bootStatus (s : Dev) (p : Nat) (reset : Bool) : Nat × Dev :=
  if partState s p = P_RUNNING then (ST_OK, s)
  else if reset then (ST_WRONG_STATE, s)
  else
    let f := drawFree s
    (if bitsOf f.1 (0, 0) = 1 then ST_WRONG_STATE else ST_BAD_ARG, f.2)

/-- The mailbox that waits for a start is answered. -/
def answerStart (s : Dev) (p : Nat) (reset : Bool) (m : Option Nat) : Dev :=
  match m with
  | none => s
  | some m => let r := bootStatus s p reset; respond r.2 m r.1 []

/-! ## Stop and reset (R542, R544) -/

/-- Gates of a partition become BROKEN (R544). -/
def breakGates (s : Dev) (p : Nat) : Dev :=
  let held := s.oasis.gates.filter (fun e => e.2.st == 1 && e.2.part == p)
  let s1 := { s with oasis := { s.oasis with gates := s.oasis.gates.map (fun e => if e.2.st = 1 ∧ e.2.part = p then (e.1, { e.2 with st := 2 }) else e) } }
  held.foldl (fun s e => logRec s NOTICE SB_OASIS 0 0x0E08 [e.1]) s1

/-- Instances of a partition. -/
def partInsts (s : Dev) (p : Nat) : List Nat := (rangeFrom 0 256).filter (fun i => (inst s i).part == p && piState s i != PI_FREE)

/-- Steps 4 and 5 of R542, and what follows (log 82, DEDUCED). -/
def finishStop (s : Dev) (p : Nat) : Dev :=
  let s1 := { s with pendSrc := s.pendSrc.filter (fun e => bitsOf (mget (fun _ => 0) s.routes e.1) (19, 16) != p) }
  let m := (partSt s1 p).answer
  let s2 := setPart s1 p { partSt s1 p with gen := ((partSt s1 p).gen + 1) % 256, answer := none }
  if partState s p = P_RESETTING then answerStart (bootPart s2 p) p true m
  else
    let s3 := setPartState s2 p P_OFF
    match m with
    | some m => respond s3 m ST_OK []
    | none => s3

/-- A stop or reset goes on once R240 has ended for every instance of the partition (log 82, DEDUCED). -/
def stopProgress (s : Dev) (p : Nat) : Dev :=
  if (partState s p = P_STOPPING ∨ partState s p = P_RESETTING) ∧
      (partInsts s p).all (fun i => !(inst s i).resetReq && piState s i != PI_RESETTING) then finishStop s p
  else s

/-- PART_STOP or PART_RESET starts: threads OFF, gates BROKEN, R240 for every instance (R542); the software grant ends with its partition (18 R651). -/
def stopPart (s : Dev) (p : Nat) (reset : Bool) (m : Option Nat) : Dev :=
  let s1 := setPartState s p (if reset then P_RESETTING else P_STOPPING)
  let s2 := setPart s1 p { partSt s1 p with answer := m }
  let ts := (rangeFrom 0 1536).filter (fun t => thrPart s2 t == p && (thr s2 t).st != .off)
  let s3 := breakGates (ts.foldl stopThread s2) p
  let s4 := if nbit (partSt s3 p).roles 9 then endSwGrant s3 else s3
  let s5 := (partInsts s4 p).foldl (fun s i => if piState s i = PI_RESETTING then s else modInst s i (fun x => { x with resetReq := true })) s4
  stopProgress s5 p

/-- INSTANCE_RESET_COMPLETE (06 R240): its partition's stop goes on. -/
def instResetComplete (s : Dev) (i : Nat) : Dev := stopProgress (instResetEnd s i) (inst s i).part

/-! ## Commands (R538) -/

/-- The partition a mailbox belongs to. -/
def senderPart (m : Nat) : Nat := m - 256

/-- Whether a partition exists. -/
def partUsed (s : Dev) (p : Nat) : Bool := decide (p < 16) && partState s p != P_UNUSED

/-- Whether a sender is the partition manager of the world of partition `p`. -/
def isPM (s : Dev) (m p : Nat) : Bool :=
  isManager s m 0 && partUsed s p && (partSt s (senderPart m)).world == (partSt s p).world

/-- PART_INFO. -/
def cmdPartInfo (s : Dev) (m : Nat) : Dev :=
  let p := senderPart m
  let x := partSt s p
  respond s m ST_OK [BitVec.ofNat 64 (p + x.world * 16 + x.gen % 256 * 2 ^ 5 + x.roles % 2 ^ 12 * 2 ^ 32)]

/-- PART_START (log 80, DEDUCED). -/
def cmdPartStart (s : Dev) (m : Nat) : Dev :=
  let p := (mboxArg s m 1).toNat
  if !(partUsed s p) then respond s m ST_BAD_ARG []
  else if !(isPM s m p) then respond s m ST_DENIED []
  else if partState s p ≠ P_OFF then respond s m ST_WRONG_STATE []
  else answerStart (bootPart s p) p false (some m)

/-- PART_STOP; a partition that does not exist is not RUNNING (log 80, DEDUCED). -/
def cmdPartStop (s : Dev) (m : Nat) : Dev :=
  let p := (mboxArg s m 1).toNat
  if !(partUsed s p) then respond s m ST_WRONG_STATE []
  else if !(isPM s m p) || p == senderPart m then respond s m ST_DENIED []
  else if partState s p ≠ P_RUNNING then respond s m ST_WRONG_STATE []
  else stopPart s p false (some m)

/-- PART_RESET; a partition that does not exist is not RUNNING (log 80, DEDUCED). -/
def cmdPartReset (s : Dev) (m : Nat) : Dev :=
  let p := (mboxArg s m 1).toNat
  if !(partUsed s p) then respond s m ST_WRONG_STATE []
  else if !(isPM s m p) && p != senderPart m then respond s m ST_DENIED []
  else if partState s p ≠ P_RUNNING then respond s m ST_WRONG_STATE []
  else stopPart s p true (some m)

/-- THREAD_START (log 81, DEDUCED). -/
def cmdThreadStart (s : Dev) (m : Nat) : Dev :=
  let ws := (rangeFrom 1 11).map (mboxArg s m)
  let p := corePart s (startCore ws)
  if !(startArgsOk s ws) then respond s m ST_BAD_ARG []
  else if p != senderPart m && !(isPM s m p) then respond s m ST_DENIED []
  else if partState s p ≠ P_RUNNING ∨ !(startable s ws) then respond s m ST_WRONG_STATE []
  else respond (startThread s ws) m ST_OK []

/-- Whether a route word is accepted (11 R433): with EN its PART is that of the target core, which runs threads; without, it is stored as written (log 83, DEDUCED). -/
def routeOk (s : Dev) (w : Word) : Bool :=
  decide (w.toNat < 2 ^ 20) &&
    (!(nbit w.toNat 0) ||
      (let core := bitsOf w (9, 5) * 8 + bitsOf w (12, 10)
       decide (core < 192) && (coreMode s core == 0 || (corePaired s core && core % 2 == 0)) && corePart s core == bitsOf w (19, 16)))

def setRoute (s : Dev) (src : Nat) (w : Word) : Dev := { s with routes := mset (fun _ => 0) s.routes src w }

/-- ROUTE (log 83, DEDUCED). -/
def cmdRoute (s : Dev) (m : Nat) : Dev :=
  let src := (mboxArg s m 1).toNat
  let w := mboxArg s m 2
  if 4096 ≤ src ∨ !(routeOk s w) then respond s m ST_BAD_ARG []
  else if bitsOf w (19, 16) != senderPart m && !(isPM s m (bitsOf w (19, 16))) then respond s m ST_DENIED []
  else respond (setRoute s src w) m ST_OK []

/-- Whether two ranges meet. -/
def rangesMeet (a n b k : Nat) : Bool := decide (a < b + k) && decide (b < a + n)

/-- The mappings without those of a range of intermediate addresses (log 83, DEDUCED). -/
def s2Without (lo n : Nat) (l : List S2Ent) : List S2Ent :=
  l.flatMap (fun e =>
    if rangesMeet e.ipa e.size lo n then
      (if e.ipa < lo then [{ e with size := lo - e.ipa }] else []) ++
        (if lo + n < e.ipa + e.size then [{ e with ipa := lo + n, pa := e.pa + (lo + n - e.ipa), size := e.ipa + e.size - (lo + n) }] else [])
    else [e])

/-- MAP: 4 KiB pages of the partition's DRAM at an intermediate address, or their removal; OK once R461 is done (log 83, DEDUCED). -/
def cmdMap (s : Dev) (m : Nat) : Dev :=
  let a (j : Nat) := (mboxArg s m j).toNat
  let p := a 1
  let n := a 4 * 4096
  let x := partSt s p
  let remove := nbit (a 5) 8
  if !(partUsed s p) || a 2 % 4096 != 0 || a 3 % 4096 != 0 || a 4 == 0 || decide (2 ^ 48 < a 2 + n) || a 5 % 256 / 8 != 0 || decide (512 ≤ a 5) then
    respond s m ST_BAD_ARG []
  else if p != senderPart m && !(isPM s m p) then respond s m ST_DENIED []
  else if decide (a 3 < x.dramBase) || decide (x.dramBase + x.dramSize < a 3 + n) then respond s m ST_DENIED []
  else if !remove && x.s2.any (fun e => rangesMeet e.ipa e.size (a 2) n) then respond s m ST_BAD_ARG []
  else
    let s2 := if remove then s2Without (a 2) n x.s2 else x.s2 ++ [⟨a 2, a 3, n, a 5 % 8⟩]
    respond (tlbDropAll (setPart s p { x with s2 := s2 }) p) m ST_OK []

/-- MAP waits until every access translated by an entry to be removed has been accepted (12 R459, R461); until then the old mapping is in use (log 83, DEDUCED). -/
def mapRun (s : Dev) (m : Nat) : Dev :=
  if partQuiet s ((mboxArg s m 1).toNat) (fun _ => true) then mboxRun s m 0x0207 (fun d => cmdMap d m) else s

/-! ## Hardware gates (R543 to R545) -/

def gateSt (s : Dev) (g : Nat) : GateSt := mget (fun _ => {}) s.oasis.gates g
def setGate (s : Dev) (g : Nat) (x : GateSt) : Dev := { s with oasis := { s.oasis with gates := mset (fun _ => {}) s.oasis.gates g x } }

/-- Result of an operation (0 ACQUIRE, 1 RELEASE, 2 QUERY) of a thread, and the gate after it (R543) (log 82, DEDUCED). -/
def gateStep (x : GateSt) (allowed : Bool) (t part gen op : Nat) : Nat × GateSt :=
  if !allowed then (5, x)
  else if op = 2 then (7 + x.st, x)
  else if x.st = 1 then
    if x.thr = t then (if op = 0 then (6, x) else (3, { x with st := 0 }))
    else (if op = 0 then 1 else 4, x)
  else if op = 1 then (4, x)
  else (if x.st = 0 then 0 else 2, { st := 1, thr := t, part := part, gen := gen })

/-- MGR_GATE_RESULT (R543) (log 82, DEDUCED). -/
def gateResult (x : GateSt) (g r : Nat) : Word :=
  BitVec.ofNat 64 (r + g * 2 ^ 8 + x.st * 2 ^ 23 + x.thr % 8 * 2 ^ 25 + x.thr / 8 * 2 ^ 28 + x.part * 2 ^ 36 + x.gen * 2 ^ 40)

/-- A write of MGR_GATE_OP by a thread. -/
def gateOp (s : Dev) (t op g : Nat) : Dev :=
  if op = 3 then fset s MGR_ERR MGR_ERR_BAD_OP 1
  else
    let p := thrPart s t
    let r := gateStep (gateSt s g) (nbit (partSt s p).gates g) t p (partSt s p).gen op
    setReg (setGate s g r.2) (bankedReg MGR_GATE_RESULT t) (gateResult r.2 g r.1)

/-! ## Meanings -/

/-- INSTANCE_RESET_COMPLETE. -/
def execInstanceResetComplete (i : InstId) (s : State) : Host.Outcome State Fault Refusal := onDev s (fun d => instResetComplete d i.val)

/-- PART_INFO. -/
def execPartInfo (m : Mailbox) (s : State) : Host.Outcome State Fault Refusal :=
  onDev s (fun d => mboxRun d (mboxNum m) 0x0201 (fun d => cmdPartInfo d (mboxNum m)))

/-- PART_START. -/
def execPartStart (m : Mailbox) (s : State) : Host.Outcome State Fault Refusal :=
  onDev s (fun d => mboxRun d (mboxNum m) 0x0202 (fun d => cmdPartStart d (mboxNum m)))

/-- PART_STOP. -/
def execPartStop (m : Mailbox) (s : State) : Host.Outcome State Fault Refusal :=
  onDev s (fun d => mboxRun d (mboxNum m) 0x0203 (fun d => cmdPartStop d (mboxNum m)))

/-- PART_RESET. -/
def execPartReset (m : Mailbox) (s : State) : Host.Outcome State Fault Refusal :=
  onDev s (fun d => mboxRun d (mboxNum m) 0x0204 (fun d => cmdPartReset d (mboxNum m)))

/-- THREAD_START. -/
def execThreadStart (m : Mailbox) (s : State) : Host.Outcome State Fault Refusal :=
  onDev s (fun d => mboxRun d (mboxNum m) 0x0205 (fun d => cmdThreadStart d (mboxNum m)))

/-- ROUTE. -/
def execRouteCmd (m : Mailbox) (s : State) : Host.Outcome State Fault Refusal :=
  onDev s (fun d => mboxRun d (mboxNum m) 0x0206 (fun d => cmdRoute d (mboxNum m)))

/-- MAP. -/
def execMapCmd (m : Mailbox) (s : State) : Host.Outcome State Fault Refusal := onDev s (fun d => mapRun d (mboxNum m))

/-- ACQUIRE: MGR_GATE_OP with OP 0 (R543). -/
def execGateAcquire (t : Thr) (g : Byte) (s : State) : Host.Outcome State Fault Refusal := onDev s (fun d => whenOn d 79 (fun d => gateOp d t.val 0 g.toNat))

/-- RELEASE: OP 1. -/
def execGateRelease (t : Thr) (g : Byte) (s : State) : Host.Outcome State Fault Refusal := onDev s (fun d => whenOn d 79 (fun d => gateOp d t.val 1 g.toNat))

/-- QUERY: OP 2. -/
def execGateQuery (t : Thr) (g : Byte) (s : State) : Host.Outcome State Fault Refusal := onDev s (fun d => whenOn d 79 (fun d => gateOp d t.val 2 g.toNat))

/-- COLD_START (07 R254, R289): the Plant-world partitions that run restart from their boot blobs; the new epoch comes at the first boundary after (log 84, DEDUCED). -/
def coldStart (s : Dev) : Dev :=
  if coldStartOk s then
    let ps := (rangeFrom 0 16).filter (fun p => partState s p == P_RUNNING && (partSt s p).world == 0)
    twinResult (modTwin (ps.foldl (fun s p => stopPart s p true none) s) (fun x => { x with coldPend := true })) 4 ST_OK
  else twinResult s 4 ST_WRONG_STATE
def execTwinColdStart (s : State) : Host.Outcome State Fault Refusal := onDev s (fun d => whenOn d 78 (twinGo coldStart))

end Sys2Proof.Machine
end

