-- ==== Sys2Proof/Machine/Trace.lean ====
section
/-! DEFINITION. Trace: the trace hub's commands, counter access and the snapshot collector (16 R607 to R618, 17 R626 to R633). -/
namespace Sys2Proof.Machine

def modTrc (s : Dev) (f : TrcSt → TrcSt) : Dev := { s with trc := f s.trc }

/-! ## Starting and stopping (R612, R614, R615) -/

/-- ASYNC of the hub. -/
def trcAsync (s : Dev) : Dev := trcHub s 0x01 (List.replicate 14 0xFF)

/-- SYNC of a source at the start of tracing: a thread's only where its flow is traced (R608, R609, R612) (log 79, DEDUCED). -/
def trcStartSync (s : Dev) (src : Nat) : Dev :=
  let e := trcSrc s src
  if !(e.en) || (decide (src < 1536) && !(trcFlow s src)) || decide (1544 < src) then s
  else
    match trcAdmit s e.prio (packet src 0x02 (syncPayload s src)) with
    | some s1 => setTrcSrc s1 src { e with needSync := false, since := 0 }
    | none => trcDrop s src

/-- Tracing starts (R615). -/
def traceStart (s : Dev) : Dev :=
  let s1 := fset (fset (fset (fset s TRC_CTRL TRC_CTRL_EN 1) TRC_STATUS TRC_STATUS_STATE 1) TRC_STATUS TRC_STATUS_WRPTR 0) TRC_STATUS TRC_STATUS_WRAPPED 0
  let s2 := modTrc s1 (fun x => { x with
    srcs := x.srcs.map (fun e => (e.1, { e.2 with lost := 0, needSync := true, since := 0, outcomes := [], excluded := false }))
    sunk := 0, post := 0, triggered := false, started := nowNs s, times := 0 })
  (s2.trc.srcs.map (·.1)).foldl trcStartSync (trcAsync s2)

/-- Tracing stops: the FIFO drains to the sink (R615). -/
def traceStop (s : Dev) : Dev :=
  let s1 := fset s TRC_CTRL TRC_CTRL_EN 0
  if tracing s then fset s1 TRC_STATUS TRC_STATUS_STATE 3 else s1

/-- A write of TRC_CTRL.EN (R615): the value it holds already changes nothing (log 79, DEDUCED). -/
def traceEnable (s : Dev) (on : Bool) : Dev :=
  if fbit s TRC_CTRL TRC_CTRL_EN = on then s else if on then traceStart s else traceStop s

/-- TRACE_ENABLE. -/
def execTraceEnable (on : Bool) (s : State) : Host.Outcome State Fault Refusal := onDev s (fun d => traceEnable d on)

/-- TRIGGER (R614): a trigger of the kind TRC_TRIG chooses, or FIRE. -/
def execTraceTrigger (kind : Fin 5) (s : State) : Host.Outcome State Fault Refusal :=
  onDev s (fun d => if kind.val = 0 ∨ fget d TRC_TRIG TRC_TRIG_KIND = kind.val then trcTrigger d kind.val else d)

/-- FIRE (R614) (log 79, DEDUCED). -/
def execTraceFire (s : State) : Host.Outcome State Fault Refusal := onDev s (fun d => trcTrigger d 0)

/-- POST_END (R615): POST × 256 bytes of sink output, or POST µs, after the trigger. -/
def postEnd (s : Dev) : Dev :=
  if fget s TRC_STATUS TRC_STATUS_STATE ≠ 2 then s
  else
    let n := fget s TRC_TRIG TRC_TRIG_POST
    if fbit s TRC_TRIG TRC_TRIG_UNIT then traceStop (advanceTo s (s.trc.trigAt + 1000 * n))
    else if 256 * n ≤ s.trc.post then traceStop s else s

/-- POST_END. -/
def execPostEnd (s : State) : Host.Outcome State Fault Refusal := onDev s postEnd

/-- TRACE_TIME_TICK (R612): every TS_US µs. -/
def traceTime (s : Dev) : Dev :=
  if tracing s then
    let s1 := advanceTo s (s.trc.started + 1000 * fget s TRC_CTRL TRC_CTRL_TS_US * (s.trc.times + 1))
    modTrc (trcHub s1 0x0A (beBytes 8 (nowNs s1))) (fun x => { x with times := x.times + 1 })
  else s

/-- TRACE_TIME_TICK. -/
def execTraceTimeTick (s : State) : Host.Outcome State Fault Refusal := onDev s traceTime

/-! ## The sink (R616) -/

/-- A write of bytes to the sink bank from WRPTR, circular: whether it was done; the bank counts a refusal (03 R83). -/
def sinkBank (s : Dev) (bs : List Byte) : Bool × Dev :=
  let n := fget s TRC_CTRL TRC_CTRL_BANK
  let w := fget s TRC_STATUS TRC_STATUS_WRPTR
  let a := bs.take (0x800000 - w)
  let b := bs.drop (0x800000 - w)
  match masterWriteBytes s 0x1A (bankBase n + w) a with
  | (false, s1) => (false, s1)
  | (true, s1) =>
    let s2 := fset s1 TRC_STATUS TRC_STATUS_WRPTR ((w + bs.length) % 0x800000)
    if w + bs.length < 0x800000 then (true, s2)
    else
      let s3 := fset s2 TRC_STATUS TRC_STATUS_WRAPPED 1
      if b.isEmpty then (true, s3) else masterWriteBytes s3 0x1A (bankBase n) b

/-- A refused write of the sink stops tracing (log 79, DEDUCED). -/
def sinkRefused (s : Dev) : Dev := logRec (traceStop (fset s TRC_STATUS TRC_STATUS_SINK_ERR 1)) WARNING SB_DBG 0 0x1003 []

/-- Output of `n` bytes has been made: ASYNC at every 4,096 bytes, and the count since the trigger (R612, R615). -/
def sinkCount (s : Dev) (n : Nat) : Dev :=
  let old := s.trc.sunk
  let s1 := modTrc s (fun x => { x with sunk := old + n, post := if fget s TRC_STATUS TRC_STATUS_STATE = 2 then x.post + n else x.post })
  (rangeFrom 0 ((old + n) / 4096 - old / 4096)).foldl (fun s _ => trcAsync s) s1

/-- TRACE_SINK_WRITE (R616): the oldest bytes of the FIFO go to the sink, under a credit of its queue (01 R13) (log 79, DEDUCED). -/
def traceSink (s : Dev) (n : Nat) : Dev :=
  let bs := s.trc.fifo.take n
  if bs.isEmpty || fbit s TRC_STATUS TRC_STATUS_SINK_ERR then s
  else if !(mayIssue s 514) then stallOn s 514
  else
    let s := takeCredit s 514
    let rest (s : Dev) : Dev := sinkCount (modTrc s (fun x => { x with fifo := x.fifo.drop n })) bs.length
    if fget s TRC_CTRL TRC_CTRL_SINK = 0 then
      match sinkBank s bs with
      | (true, s1) => rest s1
      | (false, s1) => sinkRefused s1
    else rest (modTrc s (fun x => { x with port := bs }))

/-- What a write of the sink waits for at its bank (01 R15, 03 R90, R96). -/
def sinkWaits (s : Dev) (n : Nat) : List Nat :=
  if fget s TRC_CTRL TRC_CTRL_SINK = 0 && !((s.trc.fifo.take n).isEmpty) && !(fbit s TRC_STATUS TRC_STATUS_SINK_ERR) then
    bankWaits s (fget s TRC_CTRL TRC_CTRL_BANK) (bankBase (fget s TRC_CTRL TRC_CTRL_BANK) + fget s TRC_STATUS TRC_STATUS_WRPTR) (s.trc.fifo.take n).length
  else []

/-- TRACE_SINK_WRITE. -/
def execTraceSinkWrite (n : Nat) (s : State) : Host.Outcome State Fault Refusal :=
  onDev s (fun d => engineAct d (sinkWaits d n) (fun d => traceSink d n))

/-! ## The source table (R618) -/

def trcIndexSet (s : Dev) (idx wr : Nat) : Dev := fset (fset s TRC_SRC_INDEX TRC_SRC_INDEX_WRITE wr) TRC_SRC_INDEX TRC_SRC_INDEX_INDEX idx

/-- TRC_SRC_INDEX with GO and WRITE 0. -/
def trcSrcRead (s : Dev) (idx : Nat) : Dev :=
  let s1 := trcIndexSet s idx 0
  if 1548 < idx then fset s1 TRC_CTRL TRC_CTRL_BAD_VALUE 1
  else
    let e := trcSrc s1 idx
    setReg s1 TRC_SRC_DATA (BitVec.ofNat 64 (e.loss * 2 ^ 32 + b2n e.data * 8 + e.prio * 2 + b2n e.en))

/-- TRC_SRC_INDEX with GO and WRITE 1. -/
def trcSrcWrite (s : Dev) (idx : Nat) : Dev :=
  let s1 := trcIndexSet s idx 1
  if 1548 < idx then fset s1 TRC_CTRL TRC_CTRL_BAD_VALUE 1
  else
    let e := trcSrc s1 idx
    let en := fbit s1 TRC_SRC_DATA TRC_SRC_DATA_EN
    setTrcSrc s1 idx { e with en := en, prio := fget s1 TRC_SRC_DATA TRC_SRC_DATA_PRIO, data := fbit s1 TRC_SRC_DATA TRC_SRC_DATA_DATA,
                              loss := if s1.trc.clr then 0 else e.loss, needSync := e.needSync || !(e.en) }

/-- TRC_SRC_READ. -/
def execTrcSrcRead (idx : BitVec 11) (s : State) : Host.Outcome State Fault Refusal := onDev s (whenDone TRC_SRC_INDEX TRC_SRC_INDEX_DONE (fun d => trcSrcRead d idx.toNat))

/-- TRC_SRC_WRITE. -/
def execTrcSrcWrite (idx : BitVec 11) (s : State) : Host.Outcome State Fault Refusal := onDev s (whenDone TRC_SRC_INDEX TRC_SRC_INDEX_DONE (fun d => trcSrcWrite d idx.toNat))

/-! ## Counters (17 R622, R626, R627) -/

/-- COUNTER_OVERFLOW (17 R622): a counter at 2^48 − 1 counts once more. -/
def counterOverflow (s : Dev) (i : Nat) : Dev :=
  if nbit (ctrCfg s i) 0 && ctrVal s i == 2 ^ 48 - 1 && domOn s (ctrDomain i) then ctrAdd 32 s i 1 else s

/-- COUNTER_OVERFLOW. -/
def execCounterOverflow (i : Fin 2144) (s : State) : Host.Outcome State Fault Refusal := onDev s (fun d => counterOverflow d i.val)

def ctrAccessSet (s : Dev) (wr word idx data : Nat) : Dev :=
  fset (fset (fset (fset s CTR_ACCESS CTR_ACCESS_WRITE wr) CTR_ACCESS CTR_ACCESS_WORD word) CTR_ACCESS CTR_ACCESS_INDEX idx) CTR_ACCESS CTR_ACCESS_DATA data

/-- CTR_ACCESS with GO and WRITE 0 (17 R626): a counter whose domain is down reads 0. -/
def ctrRead (s : Dev) (config : Bool) (idx : Nat) : Dev :=
  let s1 := ctrAccessSet s 0 (b2n config) idx (fget s CTR_ACCESS CTR_ACCESS_DATA)
  if 2143 < idx then fset s1 CTR_CTRL CTR_CTRL_BAD_VALUE 1
  else fset s1 CTR_ACCESS CTR_ACCESS_DATA (if domOn s1 (ctrDomain idx) then (if config then ctrCfg s1 idx else ctrVal s1 idx) else 0)

/-- A configuration word as a write leaves it: OVF clears on 1, reserved bits read 0; a twin counter takes CHAIN, IRQ and OVF only (17 R620, R624). -/
def ctrCfgWrite (i old v : Nat) : Nat :=
  let ovf := if nbit v 4 then 0 else old / 16 % 2
  if 2088 ≤ i ∧ i < 2096 then nbits old 1 0 + nbits v 3 2 * 4 + ovf * 16 + nbits old 47 5 * 32
  else nbits v 3 0 + ovf * 16 + nbits v 6 5 * 32 + nbits v 23 8 * 256

/-- CTR_ACCESS with GO and WRITE 1 (17 R626, R627) (log 114, DEDUCED). -/
def ctrWrite (s : Dev) (config : Bool) (idx data : Nat) : Dev :=
  let s1 := ctrAccessSet s 1 (b2n config) idx data
  if 2143 < idx then fset s1 CTR_CTRL CTR_CTRL_BAD_VALUE 1
  else if !(domOn s1 (ctrDomain idx)) then s1
  else if config then setCtrCfg s1 idx (ctrCfgWrite idx (ctrCfg s1 idx) data)
  else setCtrVal s1 idx data

/-- CTR_READ. -/
def execCtrRead (config : Bool) (idx : BitVec 12) (s : State) : Host.Outcome State Fault Refusal := onDev s (whenDone CTR_ACCESS CTR_ACCESS_DONE (fun d => ctrRead d config idx.toNat))

/-- CTR_WRITE. -/
def execCtrWrite (config : Bool) (idx : BitVec 12) (data : BitVec 48) (s : State) : Host.Outcome State Fault Refusal :=
  onDev s (whenDone CTR_ACCESS CTR_ACCESS_DONE (fun d => ctrWrite d config idx.toNat data.toNat))

/-! ## Snapshots (17 R628 to R633) -/

/-- SNAPSHOT_PERIOD (17 R628): PERIOD_US after the cause before. -/
def snapPeriod (s : Dev) : Dev :=
  if nbit (fget s CTR_CTRL CTR_CTRL_MODE) 0 then
    let s1 := advanceTo s (s.ctr.since + 1000 * fget s CTR_CTRL CTR_CTRL_PERIOD_US * (s.ctr.periods + 1))
    snapCause { s1 with ctr := { s1.ctr with periods := s1.ctr.periods + 1 } } 0
  else s

/-- SNAPSHOT_PERIOD. -/
def execSnapshotPeriod (s : State) : Host.Outcome State Fault Refusal := onDev s snapPeriod

/-- SNAPSHOT_FIRE (17 R628). -/
def execSnapshotFire (s : State) : Host.Outcome State Fault Refusal := onDev s (fun d => snapCause d 4)

/-- An entry of a record (17 R630). -/
def snapEntry (e : Nat × Nat × Bool × Bool) : List Byte :=
  leBytes 8 (e.2.1 + e.1 * 2 ^ 48 + b2n e.2.2.1 * 2 ^ 60 + b2n e.2.2.2 * 2 ^ 61)

/-- The record of a snapshot (17 R630). -/
def snapRecord (x : Snapshot) (seq : Nat) : List Byte :=
  leBytes 8 x.time ++ leBytes 4 seq ++ leBytes 2 x.entries.length ++ leBytes 1 x.cause ++ [0] ++ x.entries.flatMap snapEntry

/-- A write of the collector into its buffer at an offset: DRAM as sharer 29, a bank as master 0x19, which counts a refusal (17 R633, 03 R83): whether it was done. -/
def snapPut (s : Dev) (off : Nat) (bs : List Byte) : Bool × Dev :=
  let base := 4096 * fget s CTR_BUF CTR_BUF_BASE
  if bs.isEmpty then (true, s)
  else if fbit s CTR_BUF CTR_BUF_DEST then
    let n := fget s CTR_BUF CTR_BUF_BANK
    if base + off + bs.length ≤ 0x800000 then masterWriteBytes s 0x19 (bankBase n + base + off) bs else (false, s)
  else if inDram s (base + off) && inDram s (base + off + bs.length - 1) then (true, ioWrite (dramTaken s 29 (base + off) bs.length) (base + off) bs)
  else (false, s)

/-- The collector's write of a record at WRPTR (17 R631): whether it was done. -/
def snapWrite (s : Dev) (bs : List Byte) : Bool × Dev :=
  let size := 4096 * 2 ^ fget s CTR_BUF CTR_BUF_SIZE
  let w := fget s CTR_STATUS CTR_STATUS_WRPTR
  match snapPut s w (bs.take (size - w)) with
  | (false, s1) => (false, s1)
  | (true, s1) =>
    match snapPut s1 0 (bs.drop (size - w)) with
    | (false, s2) => (false, s2)
    | (true, s2) =>
      let s3 := fset s2 CTR_STATUS CTR_STATUS_WRPTR ((w + bs.length) % size)
      (true, if size ≤ w + bs.length then fset s3 CTR_STATUS CTR_STATUS_WRAPPED 1 else s3)

/-- SNAPSHOT_RECORD_DONE (17 R631, R633): 100 ns + 0.8 ns × (entries + 2) after the edge. -/
def snapDone (s : Dev) : Dev :=
  match s.ctr.snap with
  | none => s
  | some x =>
    let s1 := advanceTo s (x.time + 100 + (4 * (x.entries.length + 2) + 4) / 5)
    let s2 := fset { s1 with ctr := { s1.ctr with snap := none, seq := (s1.ctr.seq + 1) % 2 ^ 32 } } CTR_CTRL CTR_CTRL_BUSY 0
    match snapWrite s2 (snapRecord x s1.ctr.seq) with
    | (true, s3) => if fbit s3 CTR_CTRL CTR_CTRL_SNAP_IRQ_EN then raise s3 0xE61 else s3
    | (false, s3) => logRec (fset (fset s3 CTR_CTRL CTR_CTRL_SINK_ERR 1) CTR_CTRL CTR_CTRL_MODE 0) WARNING SB_CTR 0 0x1101 []

/-- What the write of a record waits for: a bank, or DRAM as source 29 (01 R15, 03 R90, R96, 13 R479). -/
def snapWaits (s : Dev) : List Nat :=
  match s.ctr.snap with
  | none => []
  | some x =>
    let base := 4096 * fget s CTR_BUF CTR_BUF_BASE
    let size := 4096 * 2 ^ fget s CTR_BUF CTR_BUF_SIZE
    let w := fget s CTR_STATUS CTR_STATUS_WRPTR
    let n := 16 + 8 * x.entries.length
    let one (off n : Nat) : List Nat :=
      if n = 0 then []
      else if fbit s CTR_BUF CTR_BUF_DEST then bankWaits s (fget s CTR_BUF CTR_BUF_BANK) (bankBase (fget s CTR_BUF CTR_BUF_BANK) + base + off) n
      else if inDram s (base + off) && inDram s (base + off + n - 1) then dramWaits s 29 (base + off) n
      else []
    one w (min n (size - w)) ++ one 0 (n - (size - w))

/-- SNAPSHOT_RECORD_DONE. -/
def execSnapshotRecordDone (s : State) : Host.Outcome State Fault Refusal := onDev s (fun d => engineAct d (snapWaits d) snapDone)

/-- A write of CTR_CTRL.MODE (17 R628, R630, CTR_STATUS): leaving 0b00 restarts WRPTR, WRAPPED and SEQ; admitting periodic causes starts their count. -/
def snapMode (s : Dev) (m : Nat) : Dev :=
  let old := fget s CTR_CTRL CTR_CTRL_MODE
  let s1 := fset s CTR_CTRL CTR_CTRL_MODE m
  let s2 := if old = 0 ∧ m ≠ 0 then
      let s2 := fset (fset s1 CTR_STATUS CTR_STATUS_WRPTR 0) CTR_STATUS CTR_STATUS_WRAPPED 0
      { s2 with ctr := { s2.ctr with seq := 0 } }
    else s1
  if nbit m 0 && !(nbit old 0) then { s2 with ctr := { s2.ctr with since := nowNs s, periods := 0 } } else s2

end Sys2Proof.Machine
end

