-- ==== Sys2Proof/Machine/RegBus.lean ====
section
/-! DEFINITION. RegBus: a read and a write of any register by its offset (21 R692 to R708): the access codes of 00 R4 and the effects the register tables give their fields. -/
namespace Sys2Proof.Machine

/-! ## Field rules (21 R708) -/

/-- A field that takes some values only, and the error bit a dropped value sets. -/
structure FieldRule where
  f : Nat × Nat
  ok : Nat → Bool
  err : Option (Nat × (Nat × Nat))

/-- Whether a field is RWL under LOCK. -/
def fieldLocked (s : Dev) (r : RegRef) (f : Nat × Nat) : Bool :=
  isLocked s r.blk r.elem && r.row.fields.any (fun d => d.hi == f.1 && d.lo == f.2 && d.acc == .rwl)

/-- A write in which each field with an unpermitted value keeps its value and sets its error bit (21 R708). -/
def screened (s : Dev) (who : Agent) (r : RegRef) (off : Nat) (v : Word) (rules : List FieldRule) : Dev :=
  let old := reg s off
  let bad := rules.filter (fun q => !(fieldLocked s r q.f) && !(q.ok (bitsOf v q.f)))
  let v1 := bad.foldl (fun a q => putBits a q.f (bitsOf old q.f)) v
  bad.foldl (fun s q => match q.err with | some e => fset s e.1 e.2 1 | none => s) (plainWrite s who r off v1)

/-- The value with a field of a further effect left as it stands; a locked field keeps the written value, so that its drop is noted. -/
def heldField (s : Dev) (r : RegRef) (off : Nat) (v : Word) (f : Nat × Nat) : Word :=
  if fieldLocked s r f then v else putBits v f (bitsOf (reg s off) f)

/-- The further effect of a field that was not locked (log 91, DEDUCED). -/
def whenFree (s0 : Dev) (r : RegRef) (f : Nat × Nat) (act : Dev → Dev) (s : Dev) : Dev := if fieldLocked s0 r f then s else act s

/-- A register with GO: the access, the plain fields without GO, or nothing while DONE is 0 (21 R707) (log 91, DEDUCED). -/
def goAccess (s : Dev) (who : Agent) (r : RegRef) (off : Nat) (v : Word) (go done : Nat × Nat) (act : Dev → Dev) : Dev :=
  if bitsOf v go = 0 then plainWrite s who r off v
  else if fbit s off done then act s
  else s

def inRange (lo hi n : Nat) : Bool := decide (lo ≤ n) && decide (n ≤ hi)

def finOf (n i : Nat) (h : 0 < n) : Fin n := ⟨i % n, Nat.mod_lt i h⟩

/-! ## Writes, block by block -/

/-- BK (03). -/
def writeBk (s : Dev) (who : Agent) (r : RegRef) (off : Nat) (v : Word) : Dev :=
  match r.name with
  | .BK_CTRL =>
    let s1 := plainWrite s who r off v
    if bitsOf v BK_CTRL_CLEAR = 1 then bankClearStart s1 r.elem else s1
  | .BK_OWNER => handoverStart s r.elem (bitsOf v BK_OWNER_NEXT)
  | _ => plainWrite s who r off v

/-- IMG (03). -/
def writeImg (s : Dev) (who : Agent) (r : RegRef) (off : Nat) (v : Word) : Dev :=
  let k := r.elem
  match r.name with
  | .IMG_CTRL =>
    whenFree s r IMG_CTRL_ENABLE (fun s => if bitsOf v IMG_CTRL_ENABLE = 1 then pairEnable s k else pairDisable s k)
      (plainWrite s who r off (heldField s r off v IMG_CTRL_ENABLE))
  | .IMG_ABANDON => abandonWrite s k r.idx (bitsOf v IMG_ABANDON_REGIONS) (bitsOf v IMG_ABANDON_STAMP)
  | .IMG_LT_INDEX =>
    goAccess s who r off v IMG_LT_INDEX_GO IMG_LT_INDEX_DONE (fun s =>
      if bitsOf v IMG_LT_INDEX_WRITE = 1 then ltWrite s k (bitsOf v IMG_LT_INDEX_LINE) else ltRead s k (bitsOf v IMG_LT_INDEX_LINE))
  | .IMG_CREDIT =>
    let q := finOf 8 k (by decide)
    writeDepth (writeDepth s (.scatter q) (bitsOf v IMG_CREDIT_SCATTER_DEPTH)) (.gather q) (bitsOf v IMG_CREDIT_GATHER_DEPTH)
  | _ => plainWrite s who r off v

/-- CYC (04). -/
def writeCyc (s : Dev) (who : Agent) (r : RegRef) (off : Nat) (v : Word) : Dev :=
  let bad := some (CYC_ERR, CYC_ERR_BAD_VALUE)
  let running (s : Dev) : Dev :=
    if fbit s (CYC_CLASS_CTRL r.idx) CYC_CLASS_CTRL_ENABLE then fset s CYC_ERR CYC_ERR_RUNNING 1 else plainWrite s who r off v
  match r.name with
  | .CYC_CTRL => limitRate (screened s who r off v [⟨CYC_CTRL_SLEW_MAX, inRange 1 200, bad⟩, ⟨CYC_CTRL_TSRC, fun n => n != 3, bad⟩])
  | .CYC_TBL_INDEX =>
    goAccess s who r off v CYC_TBL_INDEX_GO CYC_TBL_INDEX_DONE (fun s =>
      let t := bitsOf v CYC_TBL_INDEX_TABLE
      let i := bitsOf v CYC_TBL_INDEX_INDEX
      if bitsOf v CYC_TBL_INDEX_WRITE = 1 then cycTableWrite s t i else cycTblRead s t i)
  | .CYC_CLASS_CTRL => if bitsOf v CYC_CLASS_CTRL_ENABLE = 1 then classEnable s r.idx else classDisable s r.idx
  | .CYC_PERIOD => running s
  | .CYC_EPOCH => running s
  | .CYC_NUMBER => running s
  | _ => plainWrite s who r off v

/-- SW (05). -/
def writeSw (s : Dev) (who : Agent) (r : RegRef) (off : Nat) (v : Word) : Dev :=
  match r.name with
  | .SW_AGEING => screened s who r off v [⟨SW_AGEING_SECONDS, fun n => n == 0 || inRange 10 1000000 n, some (SW_ERR, SW_ERR_BAD_VALUE)⟩]
  | .SW_TBL_INDEX =>
    goAccess s who r off v SW_TBL_INDEX_GO SW_TBL_INDEX_DONE (fun s =>
      let t := bitsOf v SW_TBL_INDEX_TABLE
      let i := bitsOf v SW_TBL_INDEX_INDEX
      match bitsOf v SW_TBL_INDEX_OP with
      | 0 => swTblRead s t i
      | 1 => swTblWrite s t i
      | 2 => let s1 := swIndexSet s 2 t i
             if t = 1 then fdbInsertOp s1 else fset s1 SW_ERR SW_ERR_TBL_RANGE 1
      | _ => let s1 := swIndexSet s 3 t i
             if t = 1 then fdbDeleteOp s1 else fset s1 SW_ERR SW_ERR_TBL_RANGE 1)
  | _ => plainWrite s who r off v

/-- Cells a port holds. -/
def portCells (s : Dev) (p : Nat) : Nat := fget s (PORT_BUF p) PORT_BUF_HELD_RES + fget s (PORT_BUF p) PORT_BUF_SHARED_HELD

/-- A write of PORT_BUF.RES moves cells between the reservation and the shared pool, or is dropped (R197) (log 90, DEDUCED). -/
def writeRes (s : Dev) (p n : Nat) : Dev :=
  let old := fget s (PORT_BUF p) PORT_BUF_RES
  let size := fget s SW_BUF SW_BUF_SHARED_SIZE
  if !(inRange 48 16384 n) || fbit s (PORT_CTRL p) PORT_CTRL_EN || portCells s p != 0 || decide (size + old < n) then fset s SW_ERR SW_ERR_BUF_RES 1
  else showShared (fset s (PORT_BUF p) PORT_BUF_RES n)

/-- STATUS of frame preemption after a write of EN or VERIFY_DIS (R196) (log 89, PRESUMED). -/
def preemptStatus (s : Dev) (p : Nat) : Nat :=
  if fbit s (PORT_PREEMPT p) PORT_PREEMPT_EN && !(fbit s (PORT_PREEMPT p) PORT_PREEMPT_VERIFY_DIS) then (if linkUp s p then 2 else 1) else 0

/-- FEC codes a forced mode takes (R171, PORT_CTRL.FEC) (log 89, PRESUMED). -/
def fecOk (speed n : Nat) : Bool := if speed ≤ 1 then n == 0 else if speed = 2 then decide (n ≤ 2) else decide (n ≤ 1)

/-- PORT (05): only where the group is an Ethernet group (R168) (log 41, DESIGN CHOICE). A write to PORT_STATUS elsewhere is a dropped write that sets PORT_MODE too (log 148, DESIGN CHOICE). -/
def writePort (s : Dev) (who : Agent) (r : RegRef) (off : Nat) (v : Word) : Dev :=
  let p := r.elem
  let bad := some (SW_ERR, SW_ERR_BAD_VALUE)
  if !(isEthernet s p) then portModeDrop s p
  else
    match r.name with
    | .PORT_CTRL =>
      let sp := if fieldLocked s r PORT_CTRL_SPEED || 3 < bitsOf v PORT_CTRL_SPEED then fget s off PORT_CTRL_SPEED else bitsOf v PORT_CTRL_SPEED
      let s1 := screened s who r off (putBits v PORT_CTRL_EN (fget s off PORT_CTRL_EN))
        [⟨PORT_CTRL_SPEED, fun n => decide (n ≤ 3), bad⟩, ⟨PORT_CTRL_FEC, fecOk sp, bad⟩]
      if bitsOf v PORT_CTRL_EN = fget s off PORT_CTRL_EN then s1 else portEn s1 p (bitsOf v PORT_CTRL_EN == 1)
    | .PORT_MAXFRAME => screened s who r off v [⟨PORT_MAXFRAME_MAXFRAME, inRange 1518 9220, bad⟩]
    | .PORT_BUF =>
      if fieldLocked s r PORT_BUF_RES then plainWrite s who r off v else writeRes s p (bitsOf v PORT_BUF_RES)
    | .PORT_VLAN => screened s who r off v [⟨PORT_VLAN_ACCEPT, fun n => n != 3, bad⟩, ⟨PORT_VLAN_PVID, inRange 1 4094, bad⟩]
    | .PORT_GATE_CTRL =>
      let s1 := screened s who r off v [⟨PORT_GATE_CTRL_CYCLE, inRange 1 1000000000, bad⟩, ⟨PORT_GATE_CTRL_ADMIN_LEN, fun n => decide (n ≤ 1024), bad⟩]
      if bitsOf v PORT_GATE_CTRL_CHANGE = 1 then gateChange s1 p else s1
    | .PORT_GATE_INDEX =>
      goAccess s who r off v PORT_GATE_INDEX_GO PORT_GATE_INDEX_DONE (fun s =>
        let l := bitsOf v PORT_GATE_INDEX_LIST
        let e := bitsOf v PORT_GATE_INDEX_ENTRY
        if bitsOf v PORT_GATE_INDEX_WRITE = 1 then gateListWrite s p l e else gateListRead s p l e)
    | .PORT_PREEMPT =>
      let s1 := screened s who r off v [⟨PORT_PREEMPT_VERIFY_TIME, inRange 1 128, bad⟩]
      if fget s1 off PORT_PREEMPT_EN = fget s off PORT_PREEMPT_EN ∧ fget s1 off PORT_PREEMPT_VERIFY_DIS = fget s off PORT_PREEMPT_VERIFY_DIS then s1
      else fset s1 off PORT_PREEMPT_STATUS (preemptStatus s1 p)
    | _ => plainWrite s who r off v

/-- A mailbox control register: DIR and INDEX, then IN_ACK, then SEND. -/
def writeMboxCtrl (s : Dev) (m : Nat) (v : Word) : Dev :=
  let c := mboxCtrl m
  let s1 := fset (fset s c PI_MBOX_CTRL_DIR (bitsOf v PI_MBOX_CTRL_DIR)) c PI_MBOX_CTRL_INDEX (bitsOf v PI_MBOX_CTRL_INDEX)
  let s2 := if bitsOf v PI_MBOX_CTRL_IN_ACK = 1 then mboxAck s1 m else s1
  if bitsOf v PI_MBOX_CTRL_SEND = 1 then mboxSend s2 m else s2

/-- PI (06). -/
def writePi (s : Dev) (who : Agent) (r : RegRef) (off : Nat) (v : Word) : Dev :=
  let i := r.elem
  match r.name with
  | .PI_DOORBELL => doorbell s i v
  | .PI_QP_INDEX =>
    goAccess s who r off v PI_QP_INDEX_GO PI_QP_INDEX_DONE (fun s =>
      let q := bitsOf v PI_QP_INDEX_QP
      let w := bitsOf v PI_QP_INDEX_WORD
      if bitsOf v PI_QP_INDEX_WRITE = 1 then qpWriteCmd s i q w else qpRead s i q w)
  | .PI_MBOX_CTRL => writeMboxCtrl s i v
  | .PI_MBOX_DATA => mboxWrite s i v
  | _ => plainWrite s who r off v

/-- MAP_EN is written (09 R345, R349): a map that owns every slot leaves a RUNNING thread without a slot to starve (log 88, DEDUCED). -/
def mapEnable (s0 s : Dev) (c : Nat) : Dev :=
  let rises (j : Nat) : Bool := nbit (fget s (CL_CTRL c) CL_CTRL_MAP_EN) j && !(nbit (fget s0 (CL_CTRL c) CL_CTRL_MAP_EN) j)
  if (rangeFrom 0 8).any (fun j => rises j && (rangeFrom (8 * (8 * c + j)) 8).any (fun t => (thr s t).st == .running && mapStarved s t)) then
    fset s (CL_ERR c) CL_ERR_MAP_STARVE 1
  else s

/-- CL (09, 13). -/
def writeCl (s : Dev) (who : Agent) (r : RegRef) (off : Nat) (v : Word) : Dev :=
  let c := r.elem
  match r.name with
  | .CL_CTRL =>
    let v1 := putBits (putBits v CL_CTRL_L1_EN (fget s off CL_CTRL_L1_EN)) CL_CTRL_L2_EN (fget s off CL_CTRL_L2_EN)
    let s1 := mapEnable s (plainWrite s who r off v1) c
    if bitsOf v CL_CTRL_L1_EN = fget s off CL_CTRL_L1_EN ∧ bitsOf v CL_CTRL_L2_EN = fget s off CL_CTRL_L2_EN then s1
    else cacheEnables s1 c (bitsOf v CL_CTRL_L1_EN) (bitsOf v CL_CTRL_L2_EN == 1)
  | .CL_ISSUE_MAP =>
    if r.idx % 2 = 1 ∧ corePaired s (8 * c + r.idx) then s
    else if nbit (fget s (CL_CTRL c) CL_CTRL_MAP_EN) r.idx then fset s (CL_ERR c) CL_ERR_MAP_BUSY 1 else plainWrite s who r off v
  | _ => plainWrite s who r off v

/-- MC (13): one element a channel. -/
def writeMc (s : Dev) (who : Agent) (r : RegRef) (off : Nat) (v : Word) : Dev :=
  let ch := r.elem
  let bad := some (MC_CTRL ch, MC_CTRL_BAD_VALUE)
  match r.name with
  | .MC_ARB => screened s who r off v [⟨MC_ARB_MODE, fun n => n != 3, bad⟩]
  | .MC_SCRUB => screened s who r off v [⟨MC_SCRUB_HOURS, inRange 1 8760, bad⟩]
  | .MC_CREDIT =>
    let src := bitsOf v MC_CREDIT_SOURCE
    writeDepth (fset s off MC_CREDIT_SOURCE src) (.channel (finOf 16 ch (by decide)) (finOf 32 src (by decide))) (bitsOf v MC_CREDIT_DEPTH)
  | .MC_MARK =>
    (rangeFrom 0 8).foldl (fun s i => markLane s ch i (bitsOf v (MC_MARK_MARKED i) == 1) (bitsOf v (MC_MARK_DEVICE i))) s
  | _ => plainWrite s who r off v

/-- MGR (14): the mailbox of the writer's partition, gate operations of the writing thread (21 R699). -/
def writeMgr (s : Dev) (who : Agent) (r : RegRef) (off : Nat) (v : Word) : Dev :=
  match r.name, who with
  | .MGR_MBOX_CTRL, .thread t => writeMboxCtrl s (256 + thrPart s t.val) v
  | .MGR_MBOX_DATA, .thread t => mboxWrite s (256 + thrPart s t.val) v
  | .MGR_GATE_OP, .thread t => gateOp s t.val (bitsOf v MGR_GATE_OP_OP) (bitsOf v MGR_GATE_OP_GATE)
  | .MGR_ERR, _ => plainWrite s who r off v
  | _, _ => s

/-- SMP (15). -/
def writeSmp (s : Dev) (who : Agent) (r : RegRef) (off : Nat) (v : Word) : Dev :=
  let bad := some (SMP_CTRL, SMP_CTRL_BAD_VALUE)
  match r.name with
  | .SMP_CTRL =>
    let s1 := screened s who r off v [⟨SMP_CTRL_RAM_MIN, fun n => decide (n ≤ 4), bad⟩]
    if bitsOf v SMP_CTRL_CLEAR_RAM = 1 then clearRam s1 else s1
  | .SMP_RD_CTRL =>
    goAccess s who r off v SMP_RD_CTRL_GO SMP_RD_CTRL_DONE (fun s =>
      samplerRead s (bitsOf v SMP_RD_CTRL_STORE == 1) (bitsOf v SMP_RD_CTRL_ORDINAL) (bitsOf v SMP_RD_CTRL_WORD))
  | .SMP_DARN_CTRL => screened s who r off v [⟨SMP_DARN_CTRL_PERIOD_US, inRange 10 10000, bad⟩]
  | _ => plainWrite s who r off v

/-- A write of DBG_AUTH with GO: the operation; OP 3 is a value the field drops (16 R617, 21 R708) (log 90, DEDUCED). -/
def writeAuth (s : Dev) (v : Word) : Dev :=
  let l := bitsOf v DBG_AUTH_LEVEL
  let a : AuthPath := .software (BitVec.ofNat 46 (bitsOf v DBG_AUTH_BUFFER * 64))
  if !(fbit s DBG_AUTH DBG_AUTH_DONE) then s
  else
    let drop := bitsOf v DBG_AUTH_OP == 3
    let s1 := if drop then fset s DBG_CTRL DBG_CTRL_BAD_VALUE 1 else s
    match if drop then fget s DBG_AUTH DBG_AUTH_OP else bitsOf v DBG_AUTH_OP with
    | 0 => authRequestOp s1 a l
    | 1 => authRespondOp s1 a l 0 []
    | _ => swRevoke (fset (swLevel s1 l) DBG_AUTH DBG_AUTH_BUFFER (bitsOf v DBG_AUTH_BUFFER))

/-- DBG (16). -/
def writeDbg (s : Dev) (who : Agent) (r : RegRef) (off : Nat) (v : Word) : Dev :=
  let bad := some (DBG_CTRL, DBG_CTRL_BAD_VALUE)
  match r.name, who with
  | .DBG_VT_TX, .thread t => vtTx s (thrPart s t.val) (bitsOf v DBG_VT_TX_COUNT) (bitsOf v DBG_VT_TX_DATA)
  | .DBG_VT_TX, _ => s
  | .DBG_VT_RX, .thread t =>
    let p := thrPart s t.val
    let s1 := fset s (bankedReg DBG_VT_RX p) DBG_VT_RX_IRQ_EN (bitsOf v DBG_VT_RX_IRQ_EN)
    if bitsOf v DBG_VT_RX_ACK = 1 then vtAck s1 p else s1
  | .DBG_VT_RX, _ => s
  | .DBG_AUTH, _ =>
    if bitsOf v DBG_AUTH_GO = 1 then writeAuth s v
    else screened s who r off v [⟨DBG_AUTH_OP, fun n => n != 3, bad⟩, ⟨DBG_AUTH_LEVEL, inRange 1 2, bad⟩]
  | _, _ => plainWrite s who r off v

/-- TRC (16 R615, R618) (log 90, DEDUCED) (log 86, DEDUCED). -/
def writeTrc (s : Dev) (who : Agent) (r : RegRef) (off : Nat) (v : Word) : Dev :=
  let bad := some (TRC_CTRL, TRC_CTRL_BAD_VALUE)
  match r.name with
  | .TRC_CTRL =>
    let on := fbit s off TRC_CTRL_EN
    let same (f : Nat × Nat) (n : Nat) : Bool := !on || n == fget s off f
    let s1 := screened s who r off (putBits v TRC_CTRL_EN (fget s off TRC_CTRL_EN))
      [⟨TRC_CTRL_TS_US, fun n => n != 0 && same TRC_CTRL_TS_US n, bad⟩, ⟨TRC_CTRL_SINK, fun n => n != 3 && same TRC_CTRL_SINK n, bad⟩,
       ⟨TRC_CTRL_BANK, fun n => same TRC_CTRL_BANK n, bad⟩, ⟨TRC_CTRL_BANK, fun n => decide (n ≤ 23), none⟩]
    traceEnable s1 (bitsOf v TRC_CTRL_EN == 1)
  | .TRC_TRIG =>
    let s1 := screened s who r off v [⟨TRC_TRIG_SEVERITY, fun n => decide (n ≤ 5), none⟩, ⟨TRC_TRIG_KIND, fun n => decide (n ≤ 4), bad⟩]
    if bitsOf v TRC_TRIG_FIRE = 1 then trcTrigger s1 0 else s1
  | .TRC_SRC_INDEX =>
    goAccess s who r off v TRC_SRC_INDEX_GO TRC_SRC_INDEX_DONE (fun s =>
      let i := bitsOf v TRC_SRC_INDEX_INDEX
      if bitsOf v TRC_SRC_INDEX_WRITE = 1 then trcSrcWrite s i else trcSrcRead s i)
  | .TRC_SRC_DATA => modTrc (plainWrite s who r off v) (fun x => { x with clr := bitsOf v TRC_SRC_DATA_CLR == 1 })
  | _ => plainWrite s who r off v

/-- CTR (17). -/
def writeCtr (s : Dev) (who : Agent) (r : RegRef) (off : Nat) (v : Word) : Dev :=
  let bad := some (CTR_CTRL, CTR_CTRL_BAD_VALUE)
  match r.name with
  | .CTR_CTRL =>
    let s1 := screened s who r off (putBits v CTR_CTRL_MODE (fget s off CTR_CTRL_MODE))
      [⟨CTR_CTRL_PERIOD_US, inRange 1 1000000, bad⟩, ⟨CTR_CTRL_TRIG, fun n => decide (n ≤ 3), bad⟩]
    let s2 := snapMode s1 (bitsOf v CTR_CTRL_MODE)
    if bitsOf v CTR_CTRL_FIRE = 1 then snapCause s2 4 else s2
  | .CTR_BUF =>
    let dest := if fieldLocked s r CTR_BUF_DEST then fget s off CTR_BUF_DEST else bitsOf v CTR_BUF_DEST
    screened s who r off v [⟨CTR_BUF_BANK, fun n => decide (n ≤ 23), bad⟩, ⟨CTR_BUF_SIZE, fun n => decide (n ≤ if dest = 0 then 16 else 11), bad⟩]
  | .CTR_ACCESS =>
    goAccess s who r off v CTR_ACCESS_GO CTR_ACCESS_DONE (fun s =>
      let w := bitsOf v CTR_ACCESS_WORD == 1
      let i := bitsOf v CTR_ACCESS_INDEX
      if bitsOf v CTR_ACCESS_WRITE = 1 then ctrWrite s w i (bitsOf v CTR_ACCESS_DATA)
      else ctrRead (fset s CTR_ACCESS CTR_ACCESS_DATA (bitsOf v CTR_ACCESS_DATA)) w i)
  | _ => plainWrite s who r off v

/-- PWR (18). -/
def writePwr (s : Dev) (who : Agent) (r : RegRef) (off : Nat) (v : Word) : Dev :=
  match r.name with
  | .PWR_CTRL => screened s who r off v [⟨PWR_CTRL_VCORE_FLOOR, inRange 700 800, some (PWR_CTRL, PWR_CTRL_BAD_VALUE)⟩]
  | .PWR_DOM_INDEX =>
    if bitsOf v PWR_DOM_INDEX_GO = 1 then domAccess s (bitsOf v PWR_DOM_INDEX_WRITE == 1) (bitsOf v PWR_DOM_INDEX_DOMAIN) else plainWrite s who r off v
  | _ => plainWrite s who r off v

/-- TWIN_CMD with GO (07 R289). -/
def writeTwinCmd (s : Dev) (c : Nat) : Dev :=
  match c with
  | 1 => cmdJoin s
  | 2 => cmdLeave s
  | 3 => cmdSwap s
  | 4 => coldStart s
  | 5 => cmdStart s
  | _ => twinResult s c ST_NOT_SUPPORTED

/-- TWIN (07). -/
def writeTwin (s : Dev) (who : Agent) (r : RegRef) (off : Nat) (v : Word) : Dev :=
  let bad := some (TWIN_ERR, TWIN_ERR_BAD_VALUE)
  match r.name with
  | .TWIN_CTRL =>
    let s1 := screened s who r off (heldField s r off v TWIN_CTRL_EN) [⟨TWIN_CTRL_MIN_PATHS, inRange 2 4, bad⟩]
    whenFree s r TWIN_CTRL_EN (fun d => if bitsOf v TWIN_CTRL_EN = fget s off TWIN_CTRL_EN then d else twinEnable d (bitsOf v TWIN_CTRL_EN == 1)) (notePathsOn s1)
  | .TWIN_LINK =>
    screened s who r off v [⟨TWIN_LINK_FREEZE_MAX, inRange 10 50, bad⟩, ⟨TWIN_LINK_LOSS, inRange 2 15, bad⟩, ⟨TWIN_LINK_PERIOD, inRange 1 1000, bad⟩]
  | .TWIN_CMD => if bitsOf v TWIN_CMD_GO = 1 then twinGo (fun s => writeTwinCmd s (bitsOf v TWIN_CMD_CMD)) s else plainWrite s who r off v
  | .TWIN_TBL_INDEX =>
    goAccess s who r off v TWIN_TBL_INDEX_GO TWIN_TBL_INDEX_DONE (fun s =>
      let t := bitsOf v TWIN_TBL_INDEX_TABLE
      let i := bitsOf v TWIN_TBL_INDEX_INDEX
      if bitsOf v TWIN_TBL_INDEX_WRITE = 1 then twinTblWrite s t i else twinTblRead s t i)
  | .TWIN_JNL_TARGET => if bitsOf v TWIN_JNL_TARGET_GO = 1 then journalSubmit s v else plainWrite s who r off v
  | _ => plainWrite s who r off v

/-- HIST (08) (log 90, DEDUCED). -/
def writeHist (s : Dev) (who : Agent) (r : RegRef) (off : Nat) (v : Word) : Dev :=
  let bad := some (HIST_ERR, HIST_ERR_BAD_VALUE)
  match r.name with
  | .HIST_CTRL =>
    let s1 := screened s who r off (heldField s r off v HIST_CTRL_EN)
      [⟨HIST_CTRL_SEAL_MS, fun n => n == 0 || inRange 10 60000 n, bad⟩, ⟨HIST_CTRL_SB_S, inRange 1 60, bad⟩, ⟨HIST_CTRL_STRIPE, fun n => decide (n ≤ 4), bad⟩,
       ⟨HIST_CTRL_STRIPE, fun n => hState s == H_OFF || n == fget s off HIST_CTRL_STRIPE, some (HIST_ERR, HIST_ERR_RUNNING)⟩]
    whenFree s r HIST_CTRL_EN (fun d =>
      if bitsOf v HIST_CTRL_EN = fget s off HIST_CTRL_EN then d else if bitsOf v HIST_CTRL_EN = 1 then histEnable d else histDisable d) s1
  | .HIST_TBL_INDEX =>
    goAccess s who r off v HIST_TBL_INDEX_GO HIST_TBL_INDEX_DONE (fun s =>
      let t := bitsOf v HIST_TBL_INDEX_TABLE
      let i := bitsOf v HIST_TBL_INDEX_INDEX
      if bitsOf v HIST_TBL_INDEX_WRITE = 1 then histTblWrite s t i else histTblRead s t i)
  | .HIST_CQ => cqDoorbell s (bitsOf v HIST_CQ_TAIL)
  | .HIST_CREDIT => writeDepth s .hist (bitsOf v HIST_CREDIT_WRITE_DEPTH)
  | _ => plainWrite s who r off v

/-- A write of a register: dropped without a mark while the block's domain is down (18 R640, 21 R700). -/
def regWrite (s : Dev) (who : Agent) (r : RegRef) (off : Nat) (v : Word) : Dev :=
  if !(domOn s (blockDomain r.blk r.elem)) then s
  else
    match r.blk with
    | .MGR => writeMgr s who r off v
    | .CFG => plainWrite s who r off v
    | .CYC => writeCyc s who r off v
    | .IMG => writeImg s who r off v
    | .BK => writeBk s who r off v
    | .SW => writeSw s who r off v
    | .PORT => writePort s who r off v
    | .PI => writePi s who r off v
    | .CL => writeCl s who r off v
    | .MC => writeMc s who r off v
    | .TWIN => writeTwin s who r off v
    | .HIST => writeHist s who r off v
    | .SMP => writeSmp s who r off v
    | .TRC => writeTrc s who r off v
    | .CTR => writeCtr s who r off v
    | .PWR => writePwr s who r off v
    | .DBG => writeDbg s who r off v

/-! ## Reads -/

/-- CREDIT_DEPTH (63:56) and CREDITS (55:48) of a status register. -/
def putCredits (s : Dev) (v : Word) (q : Nat) : Word :=
  putBits (putBits v (63, 56) (creditQ s q).depth) (55, 48) (creditQ s q).free

/-- The fields a read computes from other state; every other field is stored. -/
def computed (s : Dev) (r : RegRef) (v : Word) : Word :=
  let e := r.elem
  match r.name with
  | .BK_STAT => putCredits s v e
  | .IMG_STATUS =>
    putBits v IMG_STATUS_ABANDON_BUSY (fget s (IMG_ABANDON e 0) IMG_ABANDON_BUSY + 2 * fget s (IMG_ABANDON e 1) IMG_ABANDON_BUSY)
  | .IMG_REGION => putBits v IMG_REGION_OWNER (regionOwner s e r.idx)
  | .IMG_CYCLE =>
    let c := fillStamp s e
    putBits (putBits v IMG_CYCLE_COMMITTED ((c + 65535) % 65536)) IMG_CYCLE_FILL c
  | .IMG_CREDIT =>
    let x := creditQ s (32 + e)
    let y := creditQ s (40 + e)
    putBits (putBits (putBits (putBits v IMG_CREDIT_GATHER_CREDITS y.free) IMG_CREDIT_GATHER_DEPTH y.depth) IMG_CREDIT_SCATTER_CREDITS x.free)
      IMG_CREDIT_SCATTER_DEPTH x.depth
  | .CYC_TIME_FRAC => putBits v CYC_TIME_FRAC_RATE (ofSigned 32 (s.rate / 1000))
  | .PORT_STATUS => putBits (putCredits s v (128 + e)) PORT_STATUS_GMODE (groupMode s (e / 8))
  | .PI_STATUS => putCredits s v (256 + e)
  | .TWIN_STATUS => putCredits s v 512
  | .HIST_CREDIT => putBits (putBits v HIST_CREDIT_WRITE_CREDITS (creditQ s 513).free) HIST_CREDIT_WRITE_DEPTH (creditQ s 513).depth
  | .CL_ISSUE_MAP => if r.idx % 2 = 1 ∧ corePaired s (8 * e + r.idx) then 0 else v
  | .CL_STATUS => putBits (putCredits s v (64 + e)) CL_STATUS_L2_RETIRED ((retiredWays s (l2Id e)).foldl (fun m w => if nbit m w then m else m + 2 ^ w) 0)
  | .MC_CREDIT =>
    let x := creditQ s (1024 + 32 * e + bitsOf v MC_CREDIT_SOURCE)
    putBits (putBits v MC_CREDIT_CREDITS x.free) MC_CREDIT_DEPTH x.depth
  | .CFG_LC =>
    putBits (putBits (putBits (putBits v CFG_LC_FW_MIN s.oasis.fwMin) CFG_LC_VPP_OK (b2n s.pwr.vpp)) CFG_LC_KEY_FUSED (b2n s.oasis.key.isSome)) CFG_LC_STATE (lcState s)
  | .SMP_STATUS => putBits (putBits v SMP_STATUS_FLASH_HELD (flashRecords s).length) SMP_STATUS_RAM_HELD s.smp.ram.length
  | .DBG_STATUS => putBits v DBG_STATUS_LOCKOUT_S (lockoutSeconds s)
  | .TRC_STATUS => putBits (putCredits s v 514) TRC_STATUS_FIFO_LEVEL s.trc.fifo.length
  | _ => v

/-- MGR_INFO as a partition reads it (21 R699). -/
def mgrInfo (s : Dev) (p : Nat) : Word :=
  putBits (putBits (reg s MGR_INFO) MGR_INFO_GEN (partSt s p).gen) MGR_INFO_PARTITION p

/-- A read of a banked register by a thread reaches the copy of its partition or of itself (21 R699); `none` for another register. -/
def readBanked (s : Dev) (t : Nat) (r : RegRef) : Option Dev :=
  let p := thrPart s t
  match r.name with
  | .MGR_INFO => some { s with readData := mgrInfo s p }
  | .MGR_MBOX_CTRL => some { s with readData := reg s (bankedReg MGR_MBOX_CTRL p) }
  | .MGR_MBOX_DATA => some (mboxRead s (256 + p))
  | .MGR_GATE_OP => some { s with readData := 0 }
  | .MGR_GATE_RESULT => some { s with readData := reg s (bankedReg MGR_GATE_RESULT t) }
  | .DBG_VT_TX => some { s with readData := reg s (bankedReg DBG_VT_TX p) }
  | .DBG_VT_RX => some { s with readData := reg s (bankedReg DBG_VT_RX p) }
  | _ => none

/-- Registers banked per partition or thread (21 R699). -/
def isBanked (n : RegName) : Bool :=
  n == .MGR_INFO || n == .MGR_MBOX_CTRL || n == .MGR_MBOX_DATA || n == .MGR_GATE_OP || n == .MGR_GATE_RESULT || n == .DBG_VT_TX || n == .DBG_VT_RX

/-- A read of a register that is not banked, with its side effect (21 R698). -/
def readPlain (s : Dev) (r : RegRef) (off : Nat) : Dev :=
  match r.name with
  | .CYC_TIME => readCycTime s
  | .PI_MBOX_DATA => mboxRead s r.elem
  | .SMP_RD_DATA => samplerData s
  | _ =>
    if r.blk == .PORT && r.name != .PORT_STATUS && !(isEthernet s r.elem) then { s with readData := 0 }
    else { s with readData := computed s r (reg s off) }

/-- A read of a register, its value in `readData`: the reset value while the block's domain is down (18 R640). -/
def regRead (s : Dev) (who : Agent) (r : RegRef) (off : Nat) : Dev :=
  if !(domOn s (blockDomain r.blk r.elem)) then { s with readData := resetOf r.row.fields }
  else
    match who with
    | .thread t =>
      match readBanked s t.val r with
      | some s1 => s1
      | none => readPlain s r off
    | _ => readPlain s r off

/-! ## The bus (21 R693, R694, R699) -/

/-- The register an agent reaches at an offset; `none` is a bus error: a reserved offset, or a banked register for an agent that is no thread. -/
def reachReg (who : Agent) (off : Nat) : Option RegRef :=
  match findReg off, who with
  | some r, .thread _ => some r
  | some r, _ => if isBanked r.name then none else some r
  | none, _ => none

/-- REGISTER_WRITE: a write performed at a register; a bus error has no effect (21 R693, R694). -/
def registerWrite (s : Dev) (who : Agent) (off : Nat) (v : Word) : Dev :=
  match reachReg who off with
  | some r => regWrite s who r off v
  | none => s

/-- REGISTER_WRITE. -/
def execRegisterWrite (who : Agent) (off : BitVec 28) (v : Word) (s : State) : Host.Outcome State Fault Refusal :=
  onDev s (fun d => registerWrite d who off.toNat v)

end Sys2Proof.Machine
end

