-- ==== Sys2Proof/Machine/Slazal.lean ====
section
/-! DEFINITION. Slazal: the image, its checks (14 R515, R516), its sections and what Oasis does with their records (14 R517, R518, R530 to R535; 04 R164; 05 R216; 11 R414, R415; 18 R647, R657). -/
namespace Sys2Proof.Machine

/-! ## The image (R515, R516) -/

/-- `n` bytes at offset `o`, little-endian. -/
def leAt (b : List Byte) (o n : Nat) : Nat := leNat ((b.drop o).take n)

/-- Whether `n` bytes at `o` are zero. -/
def zeroAt (b : List Byte) (o n : Nat) : Bool := ((b.drop o).take n).all (fun x => x == 0)

/-- An entry of the section table. -/
structure SecEnt where
  typ : Nat
  off : Nat
  size : Nat
  scrc : Nat
deriving DecidableEq, Repr

/-- The section table, which starts at byte 128. -/
def secTable (img : List Byte) : List SecEnt :=
  (rangeFrom 0 (leAt img 6 2)).map (fun i =>
    let o := 128 + 16 * i
    ⟨leAt img o 1, leAt img (o + 4) 4, leAt img (o + 8) 4, leAt img (o + 12) 4⟩)

def secBytes (img : List Byte) (e : SecEnt) : List Byte := (img.drop e.off).take e.size

/-- Fields of the header, and of the section table, with permitted values. MAGIC is "SLZL" (log 93, DEDUCED). -/
def headerOk (img : List Byte) : Bool :=
  leAt img 0 4 == 0x4C5A4C53 && leAt img 4 2 == 1 && inRange 1 15 (leAt img 6 2) && leAt img 8 4 == img.length && img.length % 8 == 0 &&
    inRange 256 12578816 img.length && leAt img 16 4 == 0x00720128 && leAt img 20 1 / 4 == 0 && zeroAt img 21 11 &&
    (rangeFrom 0 (leAt img 6 2)).all (fun i => zeroAt img (129 + 16 * i) 3) &&
    (secTable img).all (fun e => inRange 1 15 e.typ && e.off % 8 == 0)

/-- Whether two sections share a byte. -/
def secsMeet (a b : SecEnt) : Bool := decide (a.off < b.off + b.size) && decide (b.off < a.off + a.size) && a.size != 0 && b.size != 0

/-- No two sections overlap and no TYPE appears twice (log 93, DEDUCED). -/
def secsApart : List SecEnt → Bool
  | [] => true
  | e :: es => es.all (fun d => !(secsMeet e d) && d.typ != e.typ) && secsApart es

/-- Every section lies between the section table and the trailer, with its SCRC correct. -/
def secsInside (img : List Byte) : Bool :=
  (secTable img).all (fun e => decide (128 + 16 * leAt img 6 2 ≤ e.off) && decide (e.off + e.size ≤ img.length - 4) && crc32c (secBytes img e) == e.scrc)

/-- The GRADES bit of the device's ordering code is set. -/
def gradeOk (img : List Byte) : Bool := nbit (leAt img 20 1) (if Config.grade20 then 0 else 1)

def imagePubkey (img : List Byte) : List Byte := (img.drop 32).take 32
def imageSeq (img : List Byte) : Nat := leAt img 12 4

/-- SIG verifies over bytes 0 to 63 and bytes 128 to LENGTH − 1. -/
def sigOk (img : List Byte) : Bool := Config.ed25519Valid (imagePubkey img) (img.take 64 ++ img.drop 128) ((img.drop 64).take 64)

/-- What R516 asks of an image beside its key. -/
def imageSound (img : List Byte) : Bool :=
  headerOk img && leAt img (img.length - 4) 4 == crc32c (img.take (img.length - 4)) && secsInside img && secsApart (secTable img) && gradeOk img && sigOk img

/-- Keys accepted in each life-cycle state (R546) (log 93, DEDUCED). -/
def keyAccepted (s : Dev) (pub : List Byte) : Bool :=
  match lcState s, s.oasis.key with
  | 0, _ => true
  | 1, none => true
  | 3, _ => pub == Config.brimalorKey
  | _, some k => pub == k
  | _, none => false

/-- A whole image (R516) (log 93, DEDUCED). -/
def imageWhole (s : Dev) (img : List Byte) : Bool := imageSound img && keyAccepted s (imagePubkey img)

/-- The section of a TYPE, if the image has one: SCRC and bytes. -/
def sectionOf (img : List Byte) (t : Nat) : Option (Nat × List Byte) :=
  ((secTable img).find? (fun e => e.typ == t)).map (fun e => (e.scrc, secBytes img e))

/-! ## Records (R518) -/

/-- `k` pieces of `n` bytes. -/
def pieces (n : Nat) : Nat → List Byte → List (List Byte)
  | 0, _ => []
  | k + 1, b => b.take n :: pieces n k (b.drop n)

/-- The records of a section of fixed length; `none` where the last one is cut short. -/
def recordsOf (n : Nat) (b : List Byte) : Option (List (List Byte)) := if b.length % n = 0 then some (pieces n (b.length / n) b) else none

/-- Records of the section in force, for comparison. -/
def oldRecords (n : Nat) (b : List Byte) : List (List Byte) := (recordsOf n b).getD []

/-- Records to apply: all at boot, those that differ from the section in force in a live change (log 94, DEDUCED). -/
def freshRecs (live : Bool) (old new : List (List Byte)) : List (List Byte) := if live then new.filter (fun r => !(old.contains r)) else new

/-- Records of the section in force whose key no record of the new section has (log 94, DEDUCED). -/
def goneRecs (live : Bool) (old new : List (List Byte)) (key : List Byte → Nat) : List (List Byte) :=
  if live then old.filter (fun r => !((new.map key).contains (key r))) else []

/-- A record is refused: CFG_APPLY_ERR.RECORDS counts it (log 95, DEDUCED). -/
def refuseRec (s : Dev) : Dev := fincSat s CFG_APPLY_ERR CFG_APPLY_ERR_RECORDS 1

/-- A write of a record and whether it was accepted (log 95, DEDUCED). -/
def counted (x : Dev × Bool) : Dev := if x.2 then x.1 else refuseRec x.1

/-- A write watched by an error register: it is refused where a bit of the register rises; bits that stood stay. -/
def watched (s : Dev) (err : Option Nat) (f : Dev → Dev) : Dev × Bool :=
  match err with
  | none => (f s, true)
  | some e =>
    let old := reg s e
    let s1 := f (setReg s e 0)
    (setReg s1 e (old ||| reg s1 e), reg s1 e == 0)

/-- The error register that the writes of a block's records set. -/
def errRegOf (r : RegRef) (off : Nat) : Option Nat :=
  let e := match r.blk with
    | .IMG => some (IMG_ERR r.elem)
    | .CYC => some CYC_ERR
    | .SW => some SW_ERR
    | .PORT => some SW_ERR
    | _ => none
  if e = some off then none else e

/-- Whether every field that a write sets reads as written. -/
def readsBack (s : Dev) (r : RegRef) (off : Nat) (v : Word) : Bool :=
  let now := computed s r (reg s off)
  r.row.fields.all (fun f =>
    match f.acc with
    | .rw => bitsOf now (f.hi, f.lo) == bitsOf v (f.hi, f.lo)
    | .rwl => bitsOf now (f.hi, f.lo) == bitsOf v (f.hi, f.lo)
    | .woo => bitsOf now (f.hi, f.lo) == bitsOf v (f.hi, f.lo)
    | _ => true)

/-- A register record: the write, as Oasis makes it, and whether it took (log 85, DEDUCED) (log 92, DEDUCED). -/
def recordWrite (s : Dev) (r : RegRef) (off : Nat) (v : Word) : Dev × Bool :=
  let x := watched s (errRegOf r off) (fun d => regWrite d .oasis r off v)
  (x.1, x.2 && domOn s (blockDomain r.blk r.elem) && readsBack x.1 r off v)

def wordAtOff (b : List Byte) (o : Nat) : Word := BitVec.ofNat 64 (leAt b o 8)

/-! ## Sections 1 to 3: partitions, cores, spares (R530 to R532) -/

/-- Core after the moves of retired positions at boot (15 R562) (log 96, DEDUCED). -/
def movedCore (s : Dev) (core : Nat) : Nat :=
  match s.oasis.moved.find? (fun e => e.1 == core / 2) with
  | some e => 2 * e.2 + core % 2
  | none => core

def isPartRec (r : List Byte) : Bool := leAt r 0 1 == 1
def partRecKey (r : List Byte) : Nat := leAt r 0 1 * 4096 + (if isPartRec r then leAt r 1 1 else leAt r 8 2 % 4096)

/-- The rule of R531 over the partition records of a section. -/
def rolesOk (l : List (List Byte)) : Bool :=
  let owners (b : Nat) (w : Option Nat) : Nat :=
    (dedup ((l.filter (fun r => nbit (leAt r 4 4) b && (match w with | some x => leAt r 2 1 == x | none => true))).map (fun r => leAt r 1 1))).length
  l.all (fun r => decide (leAt r 4 4 < 4096)) && decide (owners 0 (some 0) ≤ 1) && decide (owners 0 (some 1) ≤ 1) &&
    (rangeFrom 1 11).all (fun b => decide (owners b none ≤ 1))

/-- Whether a partition record is accepted: fields in range, its DRAM inside DRAM and apart from every other partition's (R530). -/
def partRecOk (s : Dev) (r : List Byte) : Bool :=
  let p := leAt r 1 1
  let base := leAt r 8 8
  let n := leAt r 16 8
  let ipa := leAt r 24 8
  decide (p < 16) && decide (leAt r 2 1 ≤ 1) && base % 2 ^ 21 == 0 && n % 2 ^ 21 == 0 && ipa % 2 ^ 21 == 0 && decide (base + n ≤ 16 * chanCap s) &&
    decide (ipa + n ≤ 2 ^ 48) &&
    (rangeFrom 0 16).all (fun q => q == p || partState s q == P_UNUSED || n == 0 || (partSt s q).dramSize == 0 ||
      !(rangesMeet base n (partSt s q).dramBase (partSt s q).dramSize))

/-- A partition record is applied; an UNUSED partition goes to OFF (R541). -/
def applyPartRec (s : Dev) (r : List Byte) : Dev :=
  if partRecOk s r then
    let p := leAt r 1 1
    let s1 := setPart s p { partSt s p with
      world := leAt r 2 1, roles := leAt r 4 4, startAtBoot := nbit (leAt r 3 1) 0, clearOnReset := nbit (leAt r 3 1) 1,
      dramBase := leAt r 8 8, dramSize := leAt r 16 8, ipaBase := leAt r 24 8, gates := leAt r 32 32 }
    if partState s1 p = P_UNUSED then setPartState s1 p P_OFF else s1
  else refuseRec s

/-- A partition whose record is gone is UNUSED; the boot blobs in force stay those of section 15 (R535). -/
def dropPart (s : Dev) (p : Nat) : Dev :=
  if 16 ≤ p ∨ partState s p = P_UNUSED then s else setPart (setPartState s p P_UNUSED) p { gen := (partSt s p).gen, loads := (partSt s p).loads, starts := (partSt s p).starts }

/-- A state in which a live change of a partition's record is permitted. -/
def partIdle (s : Dev) (p : Nat) : Bool := decide (16 ≤ p) || partState s p == P_OFF || partState s p == P_UNUSED

/-- Section 1 without its routes; `none`: refused as a whole. -/
def sectionParts (live : Bool) (old new : List Byte) (s : Dev) : Option Dev :=
  match recordsOf 64 new with
  | none => none
  | some l =>
    let o := oldRecords 64 old
    let fresh := (freshRecs live o l).filter isPartRec
    let gone := (goneRecs live o l partRecKey).filter isPartRec
    if l.any (fun r => !(inRange 1 2 (leAt r 0 1))) || !(rolesOk (l.filter isPartRec)) then none
    else if live && (fresh ++ gone).any (fun r => !(partIdle s (leAt r 1 1))) then none
    else some (fresh.foldl applyPartRec (gone.foldl (fun s r => dropPart s (leAt r 1 1)) s))

/-- A route record, its target core renamed where its position is retired. -/
def applyRouteRec (s : Dev) (r : List Byte) : Dev :=
  let w := wordAtOff r 16
  let core := movedCore s (bitsOf w (9, 5) * 8 + bitsOf w (12, 10))
  let w1 := putBits (putBits w (9, 5) (core / 8)) (12, 10) (core % 8)
  if routeOk s w1 then setRoute s (leAt r 8 2 % 4096) w1 else refuseRec s

/-- The routes of section 1, once the cores and spares that judge them are in place (log 96, DEDUCED). -/
def sectionRoutes (live : Bool) (old new : List Byte) (s : Dev) : Dev :=
  let l := oldRecords 64 new
  let o := oldRecords 64 old
  let gone := (goneRecs live o l partRecKey).filter (fun r => !(isPartRec r))
  ((freshRecs live o l).filter (fun r => !(isPartRec r))).foldl applyRouteRec (gone.foldl (fun s r => setRoute s (leAt r 8 2 % 4096) 0) s)

/-- Position of a record of the cores or spares section. -/
def recPos (r : List Byte) : Nat := 4 * leAt r 0 1 + leAt r 1 1
def recPosOk (r : List Byte) : Bool := decide (leAt r 0 1 < 24) && decide (leAt r 1 1 < 4)

/-- Threads of a position. -/
def posThreads (p : Nat) : List Nat := rangeFrom (16 * p) 16
def posRunning (s : Dev) (p : Nat) : Bool := (posThreads p).any (fun t => (thr s t).st == .running)

/-- A position takes a mode and its partitions; its threads are OFF and its TLBs empty, since a thread changes partition only when it is started afresh (11 R411) (log 96, DEDUCED). -/
def setPosition (s : Dev) (p mode p0 p1 : Nat) : Dev :=
  let s1 := ((posThreads p).filter (fun t => (thr s t).st != .off)).foldl stopThread s
  let s2 := setCorePart (setCorePart (setPairMode s1 p mode) (2 * p) p0) (2 * p + 1) p1
  { s2 with tlb := mdel (mdel s2.tlb (2 * p)) (2 * p + 1) }

/-- Partitions of a position by a record's mode. -/
def recParts (r : List Byte) : Nat × Nat :=
  match leAt r 2 1 with
  | 0 => (leAt r 3 1, leAt r 4 1)
  | 1 => (leAt r 3 1, leAt r 3 1)
  | _ => (0, 0)

def coreRecOk (r : List Byte) : Bool :=
  let m := leAt r 2 1
  recPosOk r && (m == 0 || m == 1 || m == 5) && (m == 5 || (decide (leAt r 3 1 < 16) && (m == 1 || decide (leAt r 4 1 < 16)))) &&
    (leAt r 1 1 != 0 || decide (leAt r 5 1 < 16))

/-- A position with two or more pair-fault records (15 R562). -/
def retiredPos (s : Dev) (p : Nat) : Bool := decide (2 ≤ (s.smp.repairs.filter (fun x => x.kind == 4 && x.unit == p && x.whole)).length)

/-- A record of the cores section; a halted position stays so, and its record is refused, but at boot a spare may yet take the record's place. -/
def applyCoreRec (live : Bool) (s : Dev) (r : List Byte) : Dev :=
  if !(coreRecOk r) then refuseRec s
  else
    let c := leAt r 0 1
    let s1 := if leAt r 1 1 = 0 then { s with oasis := { s.oasis with clMgr := mput s.oasis.clMgr c (leAt r 5 1) } } else s
    if pairMode s1 (recPos r) = 4 then (if live then refuseRec s1 else s1)
    else setPosition s1 (recPos r) (leAt r 2 1) (recParts r).1 (recParts r).2

/-- Section 2. -/
def sectionCores (live : Bool) (old new : List Byte) (s : Dev) : Option Dev :=
  match recordsOf 8 new with
  | none => none
  | some l =>
    let o := oldRecords 8 old
    let fresh := freshRecs live o l
    let gone := (goneRecs live o l recPos).filter recPosOk
    if live && ((fresh.filter recPosOk) ++ gone).any (fun r => posRunning s (recPos r)) then none
    else
      let drop (s : Dev) (r : List Byte) : Dev :=
        let s1 := if leAt r 1 1 = 0 then { s with oasis := { s.oasis with clMgr := mdel s.oasis.clMgr (leAt r 0 1) } } else s
        if pairMode s1 (recPos r) = 4 || pairMode s1 (recPos r) = 3 then s1 else setPosition s1 (recPos r) 5 0 0
      some (fresh.foldl (applyCoreRec live) (gone.foldl drop s))

/-- Section 3: at most four records, each of an unassigned position. -/
def sectionSpares (live : Bool) (old new : List Byte) (s : Dev) : Option Dev :=
  match recordsOf 8 new with
  | none => none
  | some l =>
    let o := oldRecords 8 old
    let fresh := freshRecs live o l
    let gone := (goneRecs live o l recPos).filter recPosOk
    if 4 < l.length then none
    else if live && ((fresh.filter recPosOk) ++ gone).any (fun r => posRunning s (recPos r)) then none
    else
      let s1 := gone.foldl (fun s r => if pairMode s (recPos r) = 3 then setPairMode s (recPos r) 5 else s) s
      some (fresh.foldl (fun s r => if recPosOk r && pairMode s (recPos r) == 5 then setPosition s (recPos r) 3 0 0 else refuseRec s) s1)

/-- At boot a spare takes the place of each retired position that a record assigns; without one the record is refused (15 R562, 01 R21) (log 96, DEDUCED). -/
def replaceRetired (cores : List Byte) (s : Dev) : Dev :=
  ((oldRecords 8 cores).filter (fun r => coreRecOk r && retiredPos s (recPos r) && leAt r 2 1 != 5)).foldl (fun s r =>
    match chooseSpare s (recPos r) with
    | some q =>
      let s1 := noteDie (setPosition s q (leAt r 2 1) (recParts r).1 (recParts r).2) (recPos r) q
      { s1 with oasis := { s1.oasis with moved := s1.oasis.moved ++ [(recPos r, q)] } }
    | none => refuseRec s) s

/-! ## Sections 13 and 12: clock grades and power policy (18 R647, R657) -/

/-- Section 13 (log 98, DEDUCED). -/
def sectionGrades (live : Bool) (old new : List Byte) (s : Dev) : Option Dev :=
  match recordsOf 8 new with
  | none => none
  | some l =>
    let o := oldRecords 8 old
    let key (r : List Byte) : Nat := leAt r 0 1
    let fresh := freshRecs live o l
    let gone := goneRecs live o l key
    let running (r : List Byte) : Bool := decide (key r < 24) && (rangeFrom (64 * key r) 64).any (fun t => (thr s t).st == .running)
    let put (s : Dev) (c g : Nat) : Dev := { s with pwr := { s.pwr with grades := mset (fun _ => 0) s.pwr.grades c g } }
    let fault := live && fbit s PWR_STATUS PWR_STATUS_PMBUS_FAULT
    if live && (fresh ++ gone).any running then none
    else
      let s1 := if fault then s else gone.foldl (fun s r => put s (key r) 0) s
      some (fresh.foldl (fun s r => if decide (key r < 24) && decide (leAt r 1 1 ≤ 2) && !fault then put s (key r) (leAt r 1 1) else refuseRec s) s1)

/-- Whether a KIND 1 record is refused at boot: an unknown domain or state, or what R637 and R638 refuse. L2_STATE of a cluster that no thread has used counts as OFF (log 98, DEDUCED). -/
def bootPowerBad (s : Dev) (d st : Nat) : Bool :=
  decide (79 < d) || decide (1 < st) ||
    (st == 1 && decide (56 ≤ d) && decide (d < 72) && domSt s (72 + (d - 56) / 4) == 0) ||
    (st == 0 && (!(downSupported d) || (decide (d < 24) && (rangeFrom (4 * d) 4).any (fun p => pairMode s p == 3)) ||
      (decide (72 ≤ d) && decide (d < 76) && (rangeFrom (56 + 4 * (d - 72)) 4).any (fun g => domSt s g != 0))))

/-- KIND 2 and KIND 3 records: the regulator of VDD_CORE and the voltage floor (log 98, DEDUCED). -/
def applyPolicyRec (s : Dev) (r : List Byte) : Dev :=
  if leAt r 0 1 = 2 then
    if leAt r 1 1 = 0 ∧ leAt r 2 1 ≤ 1 ∧ leAt r 3 1 < 128 then
      { s with pwr := { s.pwr with regulator := some (leAt r 2 1, leAt r 3 1, leAt r 4 1), policy := s.pwr.policy ++ [r] } }
    else refuseRec s
  else if inRange 700 800 (leAt r 8 2) then
    let s1 := fset s PWR_CTRL PWR_CTRL_VCORE_FLOOR (leAt r 8 2)
    { s1 with pwr := { s1.pwr with policy := s1.pwr.policy ++ [r] } }
  else refuseRec (fset s PWR_CTRL PWR_CTRL_BAD_VALUE 1)

/-- Domains at boot: those that sections use start ON; then the records are applied in order (R517), KIND 1 to the domains; and every domain then ON writes its NOTICE (R636, R657) (log 98, DEDUCED). -/
def bootDomains (used : List Nat) (recs : List (List Byte)) (s : Dev) : Dev :=
  let s1 := used.foldl (fun s d => setDom s d 2) s
  let s2 := recs.foldl (fun s r =>
    let d := leAt r 1 1
    let st := leAt r 2 1
    if leAt r 0 1 ≠ 1 then applyPolicyRec s r else if bootPowerBad s d st then refuseRec s else setDom s d (2 * st)) s1
  ((rangeFrom 0 79).filter (fun d => domSt s2 d == 2 && domSt s d != 2)).foldl domNotice s2

/-- A KIND 1 record of a live change is a power request (log 98, DEDUCED). -/
def livePower (s : Dev) (r : List Byte) : Dev :=
  if 79 < leAt r 1 1 ∨ 1 < leAt r 2 1 then refuseRec s
  else
    match domRequest s (leAt r 1 1) (leAt r 2 1 == 1) with
    | (some st, s1) => if st = ST_OK then s1 else refuseRec s1
    | (none, s1) => s1

/-- Section 12; at boot it also decides the domains, whether or not the image has one. -/
def sectionPower (live : Bool) (used : List Nat) (old new : List Byte) (s : Dev) : Option Dev :=
  match recordsOf 16 new with
  | none => none
  | some l =>
    let kind (k : Nat) (r : List Byte) : Bool := leAt r 0 1 == k
    let fixed (m : List (List Byte)) : List (List Byte) := m.filter (fun r => !(kind 1 r))
    if l.any (fun r => !(inRange 1 3 (leAt r 0 1))) || !(l.any (fun r => kind 2 r && leAt r 1 1 == 0)) then none
    else if live then
      if fixed l ≠ fixed (oldRecords 16 old) then none else some ((l.filter (kind 1)).foldl livePower s)
    else some (bootDomains used l s)

/-! ## Sections 4 and 5: banks and bobbin pairs (R533) -/

/-- Bytes of the record at the head of the banks section (log 97, DEDUCED). -/
def bankRecLen (b : List Byte) : Nat := if leAt b 0 4 = 0xFFFFFFFF then (20 + 9 * leAt b 16 4 + 7) / 8 * 8 else 16

/-- The records of the banks section; `none` where the last one is cut short. -/
def bankRecs : Nat → List Byte → Option (List (List Byte))
  | 0, b => if b.isEmpty then some [] else none
  | k + 1, b =>
    if b.isEmpty then some []
    else if b.length < 16 ∨ (leAt b 0 4 = 0xFFFFFFFF ∧ b.length < 24) ∨ b.length < bankRecLen b then none
    else (bankRecs k (b.drop (bankRecLen b))).map (b.take (bankRecLen b) :: ·)

def bankRecords (b : List Byte) : Option (List (List Byte)) := bankRecs b.length b

/-- Bank that a record concerns, if any. -/
def recBank (r : List Byte) : Option Nat :=
  if 0xFFFFFFFE ≤ leAt r 0 4 then (if leAt r 8 1 < 24 then some (leAt r 8 1) else none)
  else
    match findReg (leAt r 0 4) with
    | some x => if x.blk = .BK then some x.elem else none
    | none => none

/-- A bank register as Oasis writes it: also MODE, OWNER and CREDIT_DEPTH (R533, 03 R85). -/
def bankRegRec (s : Dev) (r : RegRef) (off : Nat) (v : Word) : Dev × Bool :=
  let n := r.elem
  match r.name with
  | .BK_CTRL =>
    let m := bitsOf v BK_CTRL_MODE
    let ok := m == 0 || m == 3 || (m == 1 && n % 3 == 0) || (m == 2 && n % 3 == 1)
    if !(domOn s (24 + n)) || !ok then (s, false)
    else
      let s1 := fset (regWrite s .oasis r off v) off BK_CTRL_MODE m
      (if m = 0 then s1 else fset s1 (BK_OWNER n) BK_OWNER_OWNER 0x3F, true)
  | .BK_OWNER =>
    if !(domOn s (24 + n)) || (bankMode s n != 0 && bitsOf v BK_OWNER_OWNER != 0x3F) then (s, false)
    else (fset s off BK_OWNER_OWNER (bitsOf v BK_OWNER_OWNER), true)
  | .BK_STAT =>
    let x := recordWrite s r off v
    if bitsOf v (63, 56) = 0 then x
    else if inRange 1 64 (bitsOf v (63, 56)) then (setCreditQ x.1 n { creditQ x.1 n with depth := bitsOf v (63, 56) }, x.2)
    else (x.1, false)
  | _ => recordWrite s r off v

/-- The words of a content record, 8 value bytes and a tag byte each (log 97, DEDUCED). -/
def loadWords (s : Dev) (a : Nat) : Nat → List Byte → Dev
  | 0, _ => s
  | k + 1, b => loadWords (writeWord s a ⟨BitVec.ofNat 64 (leAt b 0 8), BitVec.ofNat 8 (leAt b 8 1)⟩) (a + 8) k (b.drop 9)

/-- A record of the banks section (log 97, DEDUCED) (log 85, DEDUCED). -/
def applyBankRec (s : Dev) (r : List Byte) : Dev :=
  match leAt r 0 4 with
  | 0xFFFFFFFE =>
    if leAt r 8 1 < 24 ∧ leAt r 9 1 < 16 then { s with oasis := { s.oasis with bkMgr := mput s.oasis.bkMgr (leAt r 8 1) (leAt r 9 1) } } else refuseRec s
  | 0xFFFFFFFF =>
    let n := leAt r 8 1
    if n < 24 ∧ leAt r 12 4 + leAt r 16 4 ≤ 1048576 ∧ domOn s (24 + n) then loadWords s (bankBase n + 8 * leAt r 12 4) (leAt r 16 4) (r.drop 20)
    else refuseRec s
  | off =>
    match findReg off with
    | some x => if x.blk = .BK then counted (bankRegRec s x off (wordAtOff r 8)) else refuseRec s
    | none => refuseRec s

/-- Whether a bank lies in a pair whose controller is enabled. -/
def inLivePair (s : Dev) (n : Nat) : Bool := decide (n % 3 < 2) && bankMode s n != 0 && bankMode s n != 3 && fbit s (IMG_CTRL (n / 3)) IMG_CTRL_ENABLE

/-- Section 4. -/
def sectionBanks (live : Bool) (old new : List Byte) (s : Dev) : Option Dev :=
  match bankRecords new with
  | none => none
  | some l =>
    let o := (bankRecords old).getD []
    let fresh := freshRecs live o l
    let key (r : List Byte) : Nat := if leAt r 0 4 = 0xFFFFFFFE then leAt r 8 1 + 2 ^ 33 else if leAt r 0 4 = 0xFFFFFFFF then leAt r 8 1 + 2 ^ 34 else leAt r 0 4
    let gone := (goneRecs live o l key).filter (fun r => leAt r 0 4 == 0xFFFFFFFE)
    if live && (fresh ++ gone).any (fun r => match recBank r with | some n => inLivePair s n | none => false) then none
    else some (fresh.foldl applyBankRec (gone.foldl (fun s r => { s with oasis := { s.oasis with bkMgr := mdel s.oasis.bkMgr (leAt r 8 1) } }) s))

/-- Controller that a bobbin record concerns. -/
def recCtl (r : List Byte) : Option RegRef := (findReg (leAt r 0 4)).bind (fun x => if x.blk = .IMG then some x else none)

/-- Section 5: register records in IMG[k]. -/
def sectionPairs (live : Bool) (old new : List Byte) (s : Dev) : Option Dev :=
  match recordsOf 16 new with
  | none => none
  | some l =>
    let fresh := freshRecs live (oldRecords 16 old) l
    if live && fresh.any (fun r => match recCtl r with | some x => fbit s (CYC_CLASS_CTRL (imgClass s x.elem)) CYC_CLASS_CTRL_ENABLE | none => false) then none
    else some (fresh.foldl (fun s r =>
      match recCtl r with
      | some x => counted (recordWrite s x (leAt r 0 4) (wordAtOff r 8))
      | none => refuseRec s) s)

/-! ## Sections 8 and 9: port groups and switch tables (05 R169, R203, R216) -/

/-- Root ports of the groups below `g` (log 99, DEDUCED). -/
def rootsBelow (s : Dev) (g : Nat) : Nat := ((rangeFrom 0 g).map (rootsOf s)).sum

/-- SW_GROUP_MODE and SW_PCIE_SPLIT take new values: the links of every group that changes go down first, and root ports are numbered anew (R169, R203) (log 99, DEDUCED). -/
def setGroups (s : Dev) (mode split : Word) : Dev :=
  let changed (g : Nat) : Bool := bitsOf mode (4 * g + 3, 4 * g) != groupMode s g || bitsOf split (4 * g + 3, 4 * g) != fget s SW_PCIE_SPLIT (4 * g + 3, 4 * g)
  let gs := (rangeFrom 0 16).filter changed
  let s1 := gs.foldl (fun s g => (rangeFrom (rootsBelow s g) (rootsOf s g)).foldl rootLost ((rangeFrom (8 * g) 8).foldl linkDown s)) s
  let s2 := setReg (setReg s1 SW_GROUP_MODE mode) SW_PCIE_SPLIT split
  let kept := (rangeFrom 0 16).flatMap (fun g =>
    (rangeFrom 0 (rootsOf s2 g)).map (fun j =>
      let r := rootsBelow s2 g + j
      (r, if changed g then {} else root s1 (rootsBelow s1 g + j))))
  let clear := { s2 with erg := { s2.erg with roots := [] } }
  kept.foldl (fun s e => setRoot s e.1 e.2) clear

/-- Fields of SW_GROUP_MODE with permitted values (log 99, DEDUCED). -/
def modesOk (v : Word) : Bool := (rangeFrom 0 16).all (fun g => decide (bitsOf v (4 * g + 3, 4 * g) ≤ 3))

/-- Table, port and index that a switch record selects. -/
def swRecTable (r : List Byte) : Nat := leAt r 0 1 % 16
def swRecPort (r : List Byte) : Nat := leAt r 0 2 / 16 % 256
def swRecIndex (r : List Byte) : Nat := leAt r 2 4

/-- Register offset that a TABLE 14 or 15 record names. -/
def swRecOff (r : List Byte) : Nat := if swRecTable r = 14 then 0x1000000 + 0x10000 * swRecPort r + swRecIndex r else 0x400000 + swRecIndex r

/-- The register of a TABLE 14 or 15 record, in the block it must lie in. -/
def swRecReg (r : List Byte) : Option RegRef :=
  (findReg (swRecOff r)).bind (fun x =>
    if (swRecTable r = 14 ∧ x.blk = .PORT ∧ swRecPort r = x.elem ∧ swRecIndex r < 0x10000) ∨ (swRecTable r = 15 ∧ x.blk = .SW ∧ swRecIndex r < 0x10000) then some x else none)

def swRecKnown (r : List Byte) : Bool := decide (swRecTable r ≤ 5) || swRecTable r == 14 || swRecTable r == 15
def isGroupReg (r : List Byte) : Bool := swRecTable r == 15 && (swRecOff r == SW_GROUP_MODE || swRecOff r == SW_PCIE_SPLIT)

/-- A record of the port-groups section. -/
def applyGroupRec (s : Dev) (r : List Byte) : Dev :=
  let v := wordAtOff r 8
  if isGroupReg r then
    if swRecOff r = SW_GROUP_MODE then (if modesOk v then setGroups s v (reg s SW_PCIE_SPLIT) else refuseRec s)
    else setGroups s (reg s SW_GROUP_MODE) v
  else if swRecTable r = 14 then
    match swRecReg r with
    | some x => counted (recordWrite s x (swRecOff r) v)
    | none => refuseRec s
  else refuseRec s

/-- The value that the last record of a register in a section gives it, or its present one. -/
def lastValue (s : Dev) (l : List (List Byte)) (off : Nat) : Word :=
  match (l.filter (fun r => swRecTable r == 15 && swRecOff r == off && (off != SW_GROUP_MODE || modesOk (wordAtOff r 8)))).getLast? with
  | some r => wordAtOff r 8
  | none => reg s off

/-- Root ports that a port-groups section would make (log 99, DEDUCED). -/
def rootsAfter (s : Dev) (l : List (List Byte)) : Nat :=
  let m := lastValue s l SW_GROUP_MODE
  let p := lastValue s l SW_PCIE_SPLIT
  ((rangeFrom 0 16).map (fun g => groupRoots (bitsOf m (4 * g + 3, 4 * g)) (bitsOf p (4 * g + 3, 4 * g)))).sum

/-- Section 8: more than 32 root ports refuse it as a whole (R203). -/
def sectionGroups (live : Bool) (old new : List Byte) (s : Dev) : Option Dev :=
  match recordsOf 40 new with
  | none => none
  | some l =>
    if l.any (fun r => !(swRecKnown r)) || decide (32 < rootsAfter s l) then none
    else some ((freshRecs live (oldRecords 40 old) l).foldl applyGroupRec s)

/-- A record of the switch-tables section. -/
def applySwitchRec (s : Dev) (r : List Byte) : Dev :=
  let t := swRecTable r
  if t ≤ 5 then counted (watched s (some SW_ERR) (fun d => swPut d t (swRecIndex r) ((rangeFrom 0 4).map (fun d => wordAtOff r (8 + 8 * d)))))
  else if t = 15 && !(isGroupReg r) then
    match swRecReg r with
    | some x => counted (recordWrite s x (swRecOff r) (wordAtOff r 8))
    | none => refuseRec s
  else refuseRec s

/-- Section 9. -/
def sectionSwitch (live : Bool) (old new : List Byte) (s : Dev) : Option Dev :=
  match recordsOf 40 new with
  | none => none
  | some l =>
    if l.any (fun r => !(swRecKnown r)) then none else some ((freshRecs live (oldRecords 40 old) l).foldl applySwitchRec s)

/-! ## Sections 10 and 11: instances and bridge windows (R534; 11 R414, R415) -/

/-- The permitted VIDs of an instance record, 16 of 12 bits. -/
def recVids (r : List Byte) : List Nat := ((rangeFrom 0 16).map (fun j => leAt r 8 24 / 2 ^ (12 * j) % 4096)).filter (fun v => v != 0)

/-- Section 10. -/
def sectionInsts (live : Bool) (old new : List Byte) (s : Dev) : Option Dev :=
  match recordsOf 32 new with
  | none => none
  | some l =>
    let o := oldRecords 32 old
    let key (r : List Byte) : Nat := leAt r 0 1
    let fresh := freshRecs live o l
    if live && (fresh ++ goneRecs live o l key).any (fun r => piState s (key r) != PI_FREE) then none
    else some (fresh.foldl (fun s r =>
      if createStatus s (leAt r 0 1) (leAt r 1 1) (leAt r 2 2) (recVids r) = ST_OK then createInst s (leAt r 0 1) (leAt r 1 1) (leAt r 2 2) (recVids r)
      else refuseRec s) s)

/-! ### Stage-2 mappings (12 R466, 14 R536) -/

/-- A page of register space seen at its own address, R W (log 102, DESIGN CHOICE). -/
def regMap (off n : Nat) : S2Ent := ⟨0x3F0000000000 + off, 0x3F0000000000 + off, n, 3⟩

/-- Register pages of the roles of a partition (14 R531). The IMG pages go to the cycle manager (log 102, DESIGN CHOICE). -/
def roleMaps (roles : Nat) : List S2Ent :=
  let w (b : Nat) (l : List S2Ent) : List S2Ent := if nbit roles b then l else []
  w 1 [regMap 0x100000 0x10000] ++ w 2 [regMap 0x4800000 0x80000] ++ w 3 [regMap 0x4A00000 0x10000] ++ w 4 [regMap 0x4B00000 0x10000] ++
    w 6 [regMap 0x200000 0x10000, regMap 0x300000 0x80000] ++ w 7 [regMap 0x400000 0x10000, regMap 0x1000000 0x800000] ++
    w 8 [regMap 0x4C00000 0x10000] ++ w 9 [regMap 0x4D00000 0x10000, regMap 0x5001000 0x1000] ++ w 10 [regMap 0x4E00000 0x10000] ++
    w 11 [regMap 0x4F00000 0x10000]

/-- Owners that the banks section names for a bank, by its last OWNER record; and its sharers. -/
def namedIn (banks : List Byte) (reg_ : Nat) : Option Word :=
  ((((bankRecords banks).getD []).filter (fun r => leAt r 0 4 == reg_)).getLast?).map (fun r => wordAtOff r 8)

/-- Whether the image names a partition as owner, sharer, region owner or region reader of a bank; the threads of a class read the regions of its pairs (R466, 03 R94) (log 97, DEDUCED). -/
def namesBank (s : Dev) (banks : List Byte) (n p : Nat) : Bool :=
  let share := match namedIn banks (BK_SHARE n) with | some v => nbit v.toNat p | none => false
  let owns := match namedIn banks (BK_OWNER n) with | some v => bitsOf v BK_OWNER_OWNER == p | none => false
  match bankMode s n with
  | 0 => owns || share
  | 1 => share || (rangeFrom 0 3).any (fun r => regionOwner s (n / 3) r == p) ||
      (classEntries s (imgClass s (n / 3))).any (fun e => thrPart s (entryThr e.2) == p)
  | _ => false

/-- The mappings of a partition but for its instances' pages, which PI_CREATE makes (log 97, DEDUCED). -/
def imageMaps (s : Dev) (banks : List Byte) (p : Nat) : List S2Ent :=
  let x := partSt s p
  if partState s p = P_UNUSED then []
  else (if x.dramSize = 0 then [] else [⟨x.ipaBase, x.dramBase, x.dramSize, 7⟩]) ++
    s.oasis.windows.filterMap (fun w => (w.parts.find? (fun e => e.1 == p)).map (fun e => ⟨w.ipa, w.pa, w.size, e.2⟩)) ++
    ((rangeFrom 0 24).filter (fun n => namesBank s banks n p)).map (fun n => ⟨bankBase n, bankBase n, 0x800000, 3⟩) ++
    [regMap 0 0x10000, regMap 0x5000000 0x1000] ++ roleMaps x.roles ++
    (s.oasis.clMgr.filter (fun e => e.2 == p)).map (fun e => regMap (0x3000000 + 0x100000 * e.1) 0x10000) ++
    (s.oasis.bkMgr.filter (fun e => e.2 == p)).map (fun e => regMap (0x380000 + 0x1000 * e.1) 0x1000) ++
    ((rangeFrom 0 32).filter (fun r => (rootGroup s r).isSome && rootOwner r == p)).map (fun r => ⟨rootBase r, rootBase r, 0x2000000000, 3⟩)

/-- Partitions that a window record names, with their permissions. -/
def windowParts (r : List Byte) : List (Nat × Nat) :=
  (rangeFrom 0 16).filterMap (fun p =>
    if nbit (leAt r 14 2) p then some (p, 3) else if nbit (leAt r 12 2) p then some (p, 1) else none)

def windowOf (r : List Byte) : WindowSt := ⟨leAt r 16 8, leAt r 0 8, 4096 * leAt r 8 4, windowParts r⟩

/-- Mappings of DRAM that MAP made in a partition: those that neither its image nor its windows in force account for (14 R543). -/
def madeMaps (s : Dev) (banks : List Byte) (p : Nat) : List S2Ent :=
  (partSt s p).s2.filter (fun m => decide (m.pa < 16 * chanCap s) && !((imageMaps s banks p).contains m))

/-- Whether a window record is accepted (R415); `made` are the mappings that MAP made in each partition. -/
def windowOk (s : Dev) (made : Nat → List S2Ent) (banks : List Byte) (r : List Byte) : Bool :=
  let w := windowOf r
  let writers := (rangeFrom 0 16).filter (fun p => nbit (leAt r 14 2) p)
  w.pa % 4096 == 0 && w.ipa % 4096 == 0 && inRange 1 (2 ^ 20) (leAt r 8 4) && decide (w.pa + w.size ≤ 16 * chanCap s) && decide (w.ipa + w.size ≤ 2 ^ 48) &&
    !(writers.any (fun p => (partSt s p).world == 0) && writers.any (fun p => (partSt s p).world == 1)) &&
    w.parts.all (fun e =>
      (imageMaps s banks e.1 ++ made e.1).all (fun m => !(rangesMeet m.ipa m.size w.ipa w.size)) &&
        (rangeFrom 0 256).all (fun i => piState s i == PI_FREE || (inst s i).part != e.1 || !(rangesMeet (piPage i) 0x10000 w.ipa w.size)))

/-- The windows of a section, in order; `none` at the first that is refused. -/
def addWindows (made : Nat → List S2Ent) (banks : List Byte) : List (List Byte) → Dev → Option Dev
  | [], s => some s
  | r :: rs, s => if windowOk s made banks r then addWindows made banks rs { s with oasis := { s.oasis with windows := s.oasis.windows ++ [windowOf r] } } else none

/-- Section 11. A bad record refuses it as a whole (R415) (log 95, DEDUCED). `made` are the mappings that MAP had made before the change: those count that still stand. -/
def sectionWindows (live : Bool) (made : Nat → List S2Ent) (banks old new : List Byte) (s : Dev) : Option Dev :=
  match recordsOf 32 new with
  | none => none
  | some l =>
    let o := oldRecords 32 old
    let changed := freshRecs live o l ++ freshRecs live l o
    if 32 < l.length || (live && changed.any (fun r => (windowParts r).any (fun e => !(partIdle s e.1)))) then none
    else addWindows (fun p => (made p).filter (fun m => (partSt s p).s2.contains m)) banks l { s with oasis := { s.oasis with windows := [] } }

/-! ## Sections 7 and 6: streams and cycle classes (04 R164) -/

def cycRecTable (r : List Byte) : Nat := leAt r 0 1 % 16
def cycRecIndex (r : List Byte) : Nat := leAt r 2 2
def cycRecKnown (r : List Byte) : Bool := decide (cycRecTable r ≤ 6) || cycRecTable r == 15

/-- A table record: the matching CYC table write, DATA1 for a table 6 record only (04 R164); a thread-table entry of a retired position's core names the spare's. The words stay in CYC_TBL_DATA0, DATA1 and INDEX afterwards (log 126, DESIGN CHOICE). -/
def cycTableRec (s : Dev) (r : List Byte) : Dev :=
  let t := cycRecTable r
  let v := wordAtOff r 8
  let v1 := if t = 1 then putBits v (8, 1) (movedCore s (bitsOf v (8, 1))) else v
  let s1 := setReg (setReg s CYC_TBL_DATA0 v1) CYC_TBL_DATA1 (if t = 6 then wordAtOff r 16 else 0)
  let x := watched s1 (some CYC_ERR) (fun d => cycTableWrite d t (cycRecIndex r))
  let now := (cycEntry x.1 t (cycRecIndex r)).1
  counted (x.1, x.2 && now == v1)

/-- The register of a TABLE 15 record. -/
def cycRecReg (r : List Byte) : Option RegRef := (findReg (0x200000 + cycRecIndex r)).bind (fun x => if x.blk = .CYC then some x else none)

/-- Class that a record of section 6 concerns, if any. -/
def cycRecClass (r : List Byte) : Option Nat :=
  match cycRecTable r with
  | 0 => some (cycRecIndex r / 64)
  | 1 => some (cycRecIndex r / 256)
  | 15 => if 0x100 ≤ cycRecIndex r ∧ cycRecIndex r < 0x500 then some ((cycRecIndex r - 0x100) / 0x80) else none
  | _ => none

/-- The CYC_CLASS_CTRL record of a class, which is written last. -/
def isClassCtrl (r : List Byte) : Bool := match cycRecReg r with | some x => x.name == .CYC_CLASS_CTRL && cycRecTable r == 15 | none => false

/-- A record of section 6. At boot the enable of a class with an enabled thread-table entry is held (14 R521). -/
def applyCycRec (live : Bool) (s : Dev) (r : List Byte) : Dev :=
  let t := cycRecTable r
  if t = 15 then
    match cycRecReg r with
    | none => refuseRec s
    | some x =>
      if isClassCtrl r && !live && nbit (leAt r 8 1) 0 && !(classEntries s x.idx).isEmpty then
        { s with oasis := { s.oasis with heldEnables := dedup (s.oasis.heldEnables ++ [x.idx]) } }
      else counted (recordWrite s x (0x200000 + cycRecIndex r) (wordAtOff r 8))
  else if t = 2 ∨ t = 3 then refuseRec s
  else cycTableRec s r

/-- Section 7: tables 2 and 3. -/
def sectionStreams (live : Bool) (old new : List Byte) (s : Dev) : Option Dev :=
  match recordsOf 24 new with
  | none => none
  | some l =>
    if l.any (fun r => !(cycRecKnown r)) then none
    else some ((freshRecs live (oldRecords 24 old) l).foldl (fun s r => if cycRecTable r = 2 ∨ cycRecTable r = 3 then cycTableRec s r else refuseRec s) s)

/-- Section 6. -/
def sectionCycle (live : Bool) (old new : List Byte) (s : Dev) : Option Dev :=
  match recordsOf 24 new with
  | none => none
  | some l =>
    let fresh := freshRecs live (oldRecords 24 old) l
    let enabled (r : List Byte) : Bool :=
      match cycRecClass r with
      | some c => decide (c < 8) && fbit s (CYC_CLASS_CTRL c) CYC_CLASS_CTRL_ENABLE
      | none => false
    if l.any (fun r => !(cycRecKnown r)) || (live && fresh.any enabled) then none
    else some ((fresh.filter (fun r => !(isClassCtrl r)) ++ fresh.filter isClassCtrl).foldl (applyCycRec live) s)

/-! ## Section 15: boot blobs (R535) -/

/-- Bytes of the record at the head; `none` for a kind that the layout does not define. -/
def blobRecLen (b : List Byte) : Option Nat :=
  match leAt b 0 1 with
  | 1 => some (24 + (leAt b 16 8 + 7) / 8 * 8)
  | 2 => some 96
  | _ => none

/-- The records of the section. -/
def blobRecs : Nat → List Byte → Option (List (List Byte))
  | 0, b => if b.isEmpty then some [] else none
  | k + 1, b =>
    if b.isEmpty then some []
    else
      match blobRecLen b with
      | some n => if b.length < 24 ∨ b.length < n then none else (blobRecs k (b.drop n)).map (b.take n :: ·)
      | none => none

/-- A record joins the boot blob of its partition; a thread start of a retired position's core names the spare's. -/
def applyBlobRec (s : Dev) (r : List Byte) : Dev :=
  let p := leAt r 1 1
  if 16 ≤ p then refuseRec s
  else if leAt r 0 1 = 1 then
    setPart s p { partSt s p with loads := (partSt s p).loads ++ [⟨leAt r 8 8, (r.drop 24).take (leAt r 16 8)⟩] }
  else
    let ws := (rangeFrom 0 11).map (fun j => wordAtOff r (8 + 8 * j))
    let w := ws.getD 0 0
    setPart s p { partSt s p with starts := (partSt s p).starts ++ [listSet ws 0 (putBits w (7, 0) (movedCore s (bitsOf w (7, 0))))] }

/-- Section 15: the blobs of every partition are those of the section. -/
def sectionBlobs (new : List Byte) (s : Dev) : Option Dev :=
  (blobRecs new.length new).map (fun l =>
    l.foldl applyBlobRec ((rangeFrom 0 16).foldl (fun s p => setPart s p { partSt s p with loads := [], starts := [] }) s))

/-! ## A whole image (R517, R518, R527) -/

/-- Domains that the sections of an image use (18 R657): every MC, and the mesh, always. -/
def usedDomains (sec : Nat → List Byte) : List Nat :=
  let cores := ((oldRecords 8 (sec 2)).filter (fun r => recPosOk r && leAt r 2 1 != 5) ++ (oldRecords 8 (sec 3)).filter recPosOk).map (fun r => leAt r 0 1)
  let banks := ((bankRecords (sec 4)).getD []).filterMap recBank ++ (oldRecords 16 (sec 5)).filterMap (fun r => (recCtl r).map (fun x => 3 * x.elem))
  let modes := ((oldRecords 40 (sec 8)).filter (fun r => isGroupReg r && swRecOff r == SW_GROUP_MODE)).map (fun r => wordAtOff r 8)
  let groups := (rangeFrom 0 16).filter (fun g => modes.any (fun v => bitsOf v (4 * g + 3, 4 * g) != 0))
  let role (b : Nat) : Bool := ((oldRecords 64 (sec 1)).filter isPartRec).any (fun r => nbit (leAt r 4 4) b)
  dedup (cores ++ banks.map (24 + ·) ++ rangeFrom 48 8 ++ groups.map (56 + ·) ++ groups.map (fun g => 72 + g / 4) ++ [76] ++
    (if role 4 then [77] else []) ++ (if role 3 then [78] else []))

/-- Order of application (R517); 16 stands for the routes of section 1 and the places of retired positions. -/
def sectionOrder : List Nat := [1, 2, 3, 16, 13, 12, 4, 5, 8, 9, 10, 11, 14, 7, 15, 6]

/-- One section; `none`: refused as a whole. -/
def applySection (live : Bool) (made : Nat → List S2Ent) (used : List Nat) (banks : List Byte) (t : Nat) (old new : List Byte) (s : Dev) : Option Dev :=
  match t with
  | 1 => sectionParts live old new s
  | 2 => sectionCores live old new s
  | 3 => sectionSpares live old new s
  | 13 => sectionGrades live old new s
  | 12 => sectionPower live used old new s
  | 4 => sectionBanks live old new s
  | 5 => sectionPairs live old new s
  | 8 => sectionGroups live old new s
  | 9 => sectionSwitch live old new s
  | 10 => sectionInsts live old new s
  | 11 => sectionWindows live made banks old new s
  | 7 => sectionStreams live old new s
  | 15 => sectionBlobs new s
  | 6 => sectionCycle live old new s
  | _ => some s

/-- A section is refused as a whole: its bit, and LAST_TYPE (log 85, DEDUCED) (log 95, DEDUCED). -/
def refuseSection (s : Dev) (t : Nat) : Dev :=
  fset (fset s CFG_APPLY_ERR CFG_APPLY_ERR_SECTIONS (Nat.lor (fget s CFG_APPLY_ERR CFG_APPLY_ERR_SECTIONS) (2 ^ (t - 1)))) CFG_APPLY_ERR CFG_APPLY_ERR_LAST_TYPE t

/-- Section in force of a TYPE. -/
def inForceOf (s : Dev) (t : Nat) : Option (Nat × List Byte) := (s.oasis.inForce.find? (fun e => e.1 == t)).map (·.2)

def setInForce (s : Dev) (t : Nat) (x : Nat × List Byte) : Dev :=
  { s with oasis := { s.oasis with inForce := s.oasis.inForce.filter (fun e => e.1 != t) ++ [(t, x)] } }

/-- One step of the order. `base` are the sections in force before (log 94, DEDUCED). -/
def applyStep (live : Bool) (made : Nat → List S2Ent) (img : List Byte) (base : Nat → Option (Nat × List Byte)) (s : Dev) (t : Nat) : Dev :=
  let bytes (u : Nat) : List Byte := ((sectionOf img u).map (·.2)).getD []
  let old (u : Nat) : List Byte := ((base u).map (·.2)).getD []
  if t = 16 then
    let s1 := if live then s else replaceRetired (bytes 2) s
    if (inForceOf s1 1).map (·.2) = some (bytes 1) then sectionRoutes live (old 1) (bytes 1) s1 else s1
  else
    match sectionOf img t with
    | none =>
      if live && (base t).isSome then refuseSection s t
      else if t = 12 && !live then bootDomains (usedDomains bytes) [] s
      else s
    | some x =>
      if live && (base t).map (·.1) == some x.1 then s
      else
        match applySection live made (usedDomains bytes) (((inForceOf s 4).map (·.2)).getD []) t (old t) x.2 s with
        | some s1 => setInForce s1 t x
        | none => refuseSection s t

/-- The sections of an image, at boot or live; CFG_APPLY_ERR.SECTIONS shows those refused (log 100, DEDUCED). -/
def applySections (live : Bool) (img : List Byte) (s : Dev) : Dev :=
  sectionOrder.foldl (applyStep live (madeMaps s (((inForceOf s 4).map (·.2)).getD [])) img (inForceOf s)) (fset s CFG_APPLY_ERR CFG_APPLY_ERR_SECTIONS 0)

/-- Sections refused as a whole, bit t for TYPE t. -/
def refusedMask (s : Dev) : Nat := fget s CFG_APPLY_ERR CFG_APPLY_ERR_SECTIONS * 2

/-- Bytes of the banks section in force. -/
def banksInForce (s : Dev) : List Byte := ((inForceOf s 4).map (·.2)).getD []

/-- After a boot every partition has the mappings of the image, beside those of its instances. -/
def bootMaps (s : Dev) : Dev :=
  (rangeFrom 0 16).foldl (fun s p =>
    setPart s p { partSt s p with s2 := imageMaps s (banksInForce s) p ++ (partSt s p).s2 }) s

/-- Mappings that a live change takes from a partition (log 101, DEDUCED). -/
def lostMaps (s0 s1 : Dev) (p : Nat) : List S2Ent :=
  let new := imageMaps s1 (banksInForce s1) p
  (imageMaps s0 (banksInForce s0) p).filter (fun e => !(new.contains e))

/-- After a live change the mappings of each partition follow the image (R466, R461). -/
def liveMaps (s0 s1 : Dev) : Dev :=
  (rangeFrom 0 16).foldl (fun s p =>
    let old := imageMaps s0 (banksInForce s0) p
    let new := imageMaps s1 (banksInForce s1) p
    if old = new then s
    else
      let kept := (lostMaps s0 s1 p).foldl (fun l e => s2Without e.ipa e.size l) (partSt s p).s2
      tlbDropAll (setPart s p { partSt s p with s2 := kept ++ new.filter (fun e => !(old.contains e)) }) p) s1

end Sys2Proof.Machine
end

