-- ==== Sys2Proof/Machine/Boot.lean ====
section
/-! DEFINITION. Boot: the flash as Oasis reads and writes it, the choice of firmware and of a configuration copy, the boot (14 R508 to R521, 18 R651 to R653, 13 R497, 15 R569, 20 R674). -/
namespace Sys2Proof.Machine

/-! ## The flash (14 R510 to R513) -/

/-- A byte of the flash as one read finds it: of a marginal byte, every bit that is not held may read 1. -/
def flashByte (s : Dev) (draw a : Nat) : Byte :=
  let b := mget (fun _ => 0xFF) s.oasis.flash a
  if mget (fun _ => false) s.oasis.marginal a then b ||| Config.freeFlash a draw else b

/-- `n` bytes read at an address. -/
def readFlash (s : Dev) (a n : Nat) : List Byte × Dev := ((rangeFrom a n).map (flashByte s s.free), { s with free := s.free + 1 })

/-- Bytes programmed and verified (log 106, DESIGN CHOICE). -/
def programFlash (s : Dev) (a : Nat) : List Byte → Dev
  | [] => s
  | b :: bs => programFlash (flashSet s a b false) (a + 1) bs

/-- Bytes of a page, or a commit byte, whose program failed its verification twice: they read freely until they are erased (log 106, DESIGN CHOICE). -/
def failedFlash (s : Dev) (a n : Nat) : Dev := (rangeFrom a n).foldl (fun s x => flashSet s x 0x00 true) s

/-- The sectors that `n` bytes at an address cover are erased (log 106, DESIGN CHOICE). -/
def eraseFlash (s : Dev) (a n : Nat) : Dev :=
  let hi := a + (n + 4095) / 4096 * 4096
  { s with oasis := { s.oasis with flash := mclear s.oasis.flash a hi, marginal := mclear s.oasis.marginal a hi } }

def fwBase (slot : Nat) : Nat := 0x200000 * slot
def cfgBase (slot : Nat) : Nat := 0x400000 + 0xC00000 * slot
def commitAddr (slot : Nat) : Nat := cfgBase slot + 0xBFF000

/-! ## Firmware (R509) -/

/-- Version and SEQ of a slot that the ROM may run. -/
def fwSlot (s : Dev) (slot : Nat) : Option (Nat × Nat) × Dev :=
  let r := readFlash s (fwBase slot) 0x200000
  match Config.firmware r.1 with
  | some x => (if s.oasis.fwMin ≤ x.1 then some x else none, r.2)
  | none => (none, r.2)

/-- The slot that R509 chooses, and its version. -/
def chooseFw (s : Dev) : Option (Nat × Nat) × Dev :=
  let a := fwSlot s 0
  let b := fwSlot a.2 1
  match a.1, b.1 with
  | some x, some y => (if x.2 < y.2 then some (1, y.1) else some (0, x.1), b.2)
  | some x, none => (some (0, x.1), b.2)
  | none, some y => (some (1, y.1), b.2)
  | none, none => (none, b.2)

/-- Firmware of a slot runs. -/
def runFw (s : Dev) (slot version : Nat) : Dev :=
  fset (fset { s with oasis := { s.oasis with fw := some slot } } MGR_INFO MGR_INFO_FW_SLOT slot) MGR_INFO MGR_INFO_FW_VERSION version

/-! ## Configuration slots (R511, R516, CFG_SLOT) -/

/-- Whether a slot's commit byte reads 0xA5, and its whole image, if it holds one. -/
def slotView (s : Dev) (slot : Nat) : Bool × Option (List Byte) × Dev :=
  let c := readFlash s (commitAddr slot) 1
  let h := readFlash c.2 (cfgBase slot) 12
  let n := leAt h.1 8 4
  if inRange 256 12578816 n then
    let r := readFlash h.2 (cfgBase slot) n
    (c.1 == [0xA5], if imageWhole r.2 r.1 then some r.1 else none, r.2)
  else (c.1 == [0xA5], none, h.2)

/-- The slot that a load under way writes. -/
def writingSlot (s : Dev) : Option Nat := match s.oasis.load with | some l => if l.config then some l.slot else none | none => none

/-- CFG_SLOT of a slot. -/
def noteSlot (s : Dev) (slot : Nat) : Dev :=
  let v := slotView s slot
  let s1 := fset (fset v.2.2 (CFG_SLOT slot) CFG_SLOT_COMMITTED (b2n v.1)) (CFG_SLOT slot) CFG_SLOT_WHOLE (b2n v.2.1.isSome)
  let s2 := fset s1 (CFG_SLOT slot) CFG_SLOT_SEQ (match v.2.1 with | some img => imageSeq img | none => 0)
  fset (fset s2 (CFG_SLOT slot) CFG_SLOT_IN_USE (b2n (s.oasis.slotInUse == some slot))) (CFG_SLOT slot) CFG_SLOT_WRITING (b2n (writingSlot s == some slot))

def noteSlots (s : Dev) : Dev := noteSlot (noteSlot s 0) 1

/-! ## Choosing a copy (R519) -/

/-- Valid copies: by SEQ descending, slot A first when equal. -/
def copies (s : Dev) : List (Nat × List Byte) × Dev :=
  let a := slotView s 0
  let b := slotView a.2.2 1
  let va := if a.1 then a.2.1 else none
  let vb := if b.1 then b.2.1 else none
  match va, vb with
  | some x, some y => (if imageSeq x < imageSeq y then [(1, y), (0, x)] else [(0, x), (1, y)], b.2.2)
  | some x, none => ([(0, x)], b.2.2)
  | none, some y => ([(1, y)], b.2.2)
  | none, none => ([], b.2.2)

/-- Every block that a copy configures is reset; PD_MC, PD_MESH and PD_AON keep their power, DRAM its contents. -/
def configReset (s : Dev) : Dev :=
  let s1 := ((rangeFrom 0 48) ++ rangeFrom 56 23).foldl domainInit s
  let o := s1.oasis
  let s2 := { s1 with
    cyc := {}, inst := [], erg := {}, parts := [], routes := [], pendSrc := [], ioTlb := [],
    doms := s1.doms.filter (fun e => (decide (48 ≤ e.1) && decide (e.1 < 56)) || e.1 == 76 || e.1 == 79)
    oasis := { o with inForce := [], moved := [], staged := none, heldEnables := [], clMgr := [], bkMgr := [], windows := [], gates := [], slotInUse := none }
    pwr := { s1.pwr with grades := [], regulator := none, policy := [] } }
  fset (setReg s2 MGR_PART_STATUS 0) PWR_CTRL PWR_CTRL_VCORE_FLOOR 700

/-- A position with two or more pair-fault records shows halted, and one that has halted since power-good stays so (15 R562) (log 96, DEDUCED). -/
def retirePositions (s : Dev) : Dev := ((rangeFrom 0 96).filter (fun p => retiredPos s p || s.smp.halted.contains p)).foldl (fun s p => setPairMode s p 4) s

/-- The copy's sections were all taken: it is in force (CFG_ACTIVE, R528; 12 R466). -/
def takeCopy (s : Dev) (slot : Nat) (img : List Byte) (source : Nat) : Dev :=
  let s1 := fset (fset (fset s CFG_ACTIVE CFG_ACTIVE_SEQ (imageSeq img)) CFG_ACTIVE CFG_ACTIVE_SLOT slot) CFG_ACTIVE CFG_ACTIVE_SOURCE source
  let s2 := fset s1 MGR_INFO MGR_INFO_STATE 0
  let s3 := bootMaps { s2 with oasis := { s2.oasis with slotInUse := some slot, noImage := false } }
  if (rangeFrom 0 16).any (fun p => (partSt s3 p).startAtBoot) then s3 else { s3 with oasis := { s3.oasis with heldFrom := s3.smp.op } }

/-- The interleave that the image chooses (13 R498) (log 85, DEDUCED). -/
def setInterleave (s : Dev) (img : List Byte) : Dev :=
  (rangeFrom 0 16).foldl (fun s ch => fset s (MC_CTRL ch) MC_CTRL_ILV (b2n (Config.interleave img))) s

/-- The candidates in order, up to the first of which no section is refused as a whole (log 100, DEDUCED). -/
def tryCopies (source : Nat) : List (Nat × List Byte) → Dev → Dev
  | [], s =>
    let s1 := fset (logRec s FATAL SB_CFG 0 0x0E03 []) MGR_INFO MGR_INFO_STATE 2
    { s1 with oasis := { s1.oasis with noImage := true } }
  | c :: cs, s =>
    let s1 := flashSet s (commitAddr c.1) 0xA5 false
    let v := slotView s1 (1 - c.1)
    let s2 := match v.2.1 with
      | some y => if imageSeq c.2 < imageSeq y then flashSet v.2.2 (commitAddr (1 - c.1)) 0x00 false else v.2.2
      | none => v.2.2
    let s3 := applySections false c.2 (setInterleave (retirePositions s2) c.2)
    if refusedMask s3 = 0 then takeCopy s3 c.1 c.2 source
    else tryCopies source cs (logRec (configReset s3) ALERT SB_CFG 0 0x0E02 [fget s3 CFG_APPLY_ERR CFG_APPLY_ERR_LAST_TYPE])

/-- boot_config (log 100, DEDUCED). -/
def bootConfig (s : Dev) (source : Nat) : Dev :=
  let c := copies s
  noteSlots (tryCopies source c.1 c.2)

/-- The partitions with START_AT_BOOT start (R541). -/
def startParts (s : Dev) : Dev :=
  (rangeFrom 0 16).foldl (fun s p => if (partSt s p).startAtBoot && partState s p == P_OFF then bootPart s p else s) s

/-! ## Life cycle at boot (R548) -/

/-- The customer's secrets, and the configuration slots, are erased (log 104, DEDUCED). -/
def eraseCustomer (s : Dev) : Dev :=
  let s1 := eraseFlash (eraseFlash s (cfgBase 0) 0xC00000) (cfgBase 1) 0xC00000
  { s1 with oasis := { s1.oasis with key := none, password := none, staged := none } }

def lifeAtBoot (s : Dev) : Dev := if lcState s = LC_RETURN then eraseCustomer s else s

/-! ## The boot (18 R651 to R653) -/

/-- The population of a channel. -/
def popOf (b : BootIn) (ch : Nat) : DramPop :=
  match b.others.find? (fun e => e.1.val == ch) with
  | some e => e.2
  | none => { two := b.two, gib := b.gib, ranks := b.ranks, rate := b.rate }

/-- The first channel that differs from channel 0, holds what R497 does not accept, or fails training (log 108, DEDUCED). -/
def dramBad (b : BootIn) : Option Nat :=
  (rangeFrom 0 16).find? (fun ch =>
    let x := popOf b ch
    x != popOf b 0 || !x.x4 || !(inRange 1 128 x.gib.toNat) || !(inRange 4800 6400 x.rate.toNat) || b.bad.map (·.val) == some ch)

/-- A population that R497 accepts, trained (log 108, DEDUCED). -/
def dramOk (b : BootIn) : Bool := (dramBad b).isNone

/-- Every channel is trained. -/
def dramTrained (s : Dev) : Bool := (rangeFrom 0 16).all (fun ch => fbit s (MC_CTRL ch) MC_CTRL_TRAINED)

/-- DRAM trained and cleared, with its device marks set again (13 R497, R498, R504), or the FATAL record that names a channel (log 108, DEDUCED). -/
def trainDram (s : Dev) (b : BootIn) : Dev :=
  if dramOk b then
    let s1 := (rangeFrom 0 16).foldl (fun s ch =>
      let x := popOf b ch
      let a := fset (fset s (MC_CTRL ch) MC_CTRL_TRAINED 1) (MC_CTRL ch) MC_CTRL_DIMMS (if x.two then 2 else 1)
      fset (fset (fset a (MC_STATUS ch) MC_STATUS_CAPACITY (if x.two then 2 * x.gib.toNat else x.gib.toNat)) (MC_STATUS ch) MC_STATUS_RATE x.rate.toNat)
        (MC_STATUS ch) MC_STATUS_RANKS (x.ranks.val + 1)) s
    (s1.smp.repairs.filter (fun r => r.kind == 3 && r.whole)).foldl (fun s r =>
      fset (fset s (MC_MARK r.unit) (MC_MARK_DEVICE (r.arg / 16)) (r.arg % 16)) (MC_MARK r.unit) (MC_MARK_MARKED (r.arg / 16)) 1) s1
  else
    let ch := (dramBad b).getD 0
    logRec s FATAL SB_MC ch 0x0D04 [ch]

/-- Signed 16-bit readings enter a quantity. -/
def readings (s : Dev) (kind q : Nat) (l : List (BitVec 16)) : Dev := l.foldl (fun s x => phaseValue s kind q x.toInt) s

/-- Regions that fail the self test, taken modulo the unit's regions (log 108, DEDUCED). -/
def failRegion (s : Dev) (e : DarnUnit × Fin 8192) : Dev := darnRepair s e.1 (e.2.val % darnRegions e.1)

/-- SELF_TEST (15 R581): regions that fail are repaired, failing pairs kept as pair faults (log 108, DEDUCED). -/
def bootSelfTest (s : Dev) (b : BootIn) : Dev :=
  let s1 := readings (readings (readings (openPhase s 2) 2 0 b.march) 2 2 b.latencies) 2 3 b.corrected
  let s2 := b.regions.foldl failRegion s1
  let s3 := b.pairs.foldl (fun s p => addRepair s { kind := 4, unit := p.val, arg := 2 }) s2
  let s4 := (rangeFrom 0 24).foldl (fun s n => phaseValue s 2 1 (bank s n).repaired.length) s3
  closePhase s4 true (if b.regions.isEmpty && b.pairs.isEmpty then 0 else 2)

/-- START_UP closes where its condition holds (15 R581) (log 69, DEDUCED). -/
def closeStartUp (s : Dev) : Dev :=
  match s.smp.phase with
  | some p =>
    if p.kind ≠ 1 then s
    else if fget s MGR_INFO MGR_INFO_STATE = 2 then closePhase s false 2
    else if startsMissing s then s
    else closePhase s false 0
  | none => s

/-- The boot from the moment firmware runs: life cycle, core voltage, DRAM, self test, configuration, partitions (log 107, DESIGN CHOICE). -/
def bootRest (s : Dev) (b : BootIn) : Dev :=
  let s1 := fset (lifeAtBoot s) PWR_STATUS PWR_STATUS_VCORE_MV 800
  let s2 := trainDram s1 b
  let s3 := readings (readings (phaseValue (b.temps.foldl (fun s t => noteTemp s t.toInt) s2) 1 1 800) 1 2 b.eyes) 1 3 b.heights
  let s4 := if dramOk b then bootSelfTest s3 b else s3
  let s5 := bootConfig s4 0
  closeStartUp (if dramOk b then startParts s5 else s5)

/-- The boot ROM chooses firmware; with none it reports on the console UART, in words the spec does not give, and waits for the recovery loader (R509, R522) (log 107, DESIGN CHOICE). -/
def bootRom (s : Dev) (b : BootIn) : Dev :=
  let c := chooseFw s
  match c.1 with
  | some x => bootRest (runFw c.2 x.1 x.2) b
  | none => { c.2 with oasis := { c.2.oasis with fw := none, reports := c.2.oasis.reports + 1 } }

/-- Reset is released: the boot, with device time at 0 (log 107, DESIGN CHOICE). -/
def bootFrom (s : Dev) (b : BootIn) : Dev := bootRom (openPhase { s with time := 0, pwr := { s.pwr with held := 0 } } 1) b

/-- In BLANK and in OPEN without a password the TAP holds level 2 from power-good (16 R589). -/
def tapAtPowerGood (s : Dev) : Dev :=
  if authOpen s then fset (fset s DBG_STATUS DBG_STATUS_TAP_LEVEL 2) DBG_STATUS DBG_STATUS_ATTACHED 1 else s

/-- POWER_ON (18 R651): PWRGOOD rises. TEST_EN high in BLANK holds the device in its production test mode (20 R674) (log 107, DESIGN CHOICE). -/
def powerOn (s : Dev) (sds : Nat) (pcie clk10m pps vpp testEn : Bool) (b : BootIn) : Dev :=
  let z := timeAtPowerGood (powerOnReset s)
  let z1 := fset (fset (fset (fset z PWR_STATUS PWR_STATUS_SDS_OK sds) PWR_STATUS PWR_STATUS_PCIE_OK (b2n pcie)) PWR_STATUS PWR_STATUS_CLK10M_OK (b2n clk10m))
    PWR_STATUS PWR_STATUS_PPS_OK (b2n pps)
  let z2 := tapAtPowerGood { z1 with pwr := { z1.pwr with vpp := vpp } }
  if testEn && lcState z2 == LC_BLANK then 
    { openPhase z2 1 with pwr := { z2.pwr with held := 5 }, oasis := { z2.oasis with fw := none } }
   else bootFrom z2 b

/-- POWER_ON. -/
def execPowerOn (sds : Byte) (pcie clk10m pps vpp testEn : Bool) (b : BootIn) (s : State) : Host.Outcome State Fault Refusal :=
  onDev s (fun d => powerOn d sds.toNat pcie clk10m pps vpp testEn b)

/-- RESET_RELEASE (18 R652). -/
def execResetRelease (b : BootIn) (s : State) : Host.Outcome State Fault Refusal := onDev s (fun d => if d.pwr.held = 1 then bootFrom d b else d)

/-- TRIP_RELEASE (18 R653): the cause has cleared for 1 s, the junction below 100 °C (800 eighths) after a thermal trip (log 107, DESIGN CHOICE). -/
def tripRelease (s : Dev) (b : BootIn) : Dev :=
  if s.pwr.held = 3 ∨ (s.pwr.held = 2 ∧ b.temps.all (fun t => decide (t.toInt < 800))) then bootFrom (advanceOp s (s.smp.op + opSecond)) b else s
def execTripRelease (b : BootIn) (s : State) : Host.Outcome State Fault Refusal := onDev s (fun d => tripRelease d b)

end Sys2Proof.Machine
end

