-- ==== Sys2Proof/Machine/Boundary.lean ====
section
/-! DEFINITION. Boundary: class boundaries, the Pricking actions and the handover of gathered frames (04 R117 to R162, 05 R189, 07 R257). -/
namespace Sys2Proof.Machine

/-! ## The Pricking actions (R124 to R126) -/

/-- Argument of a CYCLE packet: the entry's index, or the marker of a MARK (16 R610). -/
def cycleArg (e : PrickEntry) : Nat := if e.action = 8 then e.arg % 65536 else e.idx

/-- A MARK action: a trigger of KIND 1 and the snapshot cause of TRIG 2 beside its packet (R126, 16 R614, 17 R628). -/
def actMark (s : Dev) (e : PrickEntry) : Dev :=
  let m := e.arg % 65536
  let s1 := if fget s TRC_TRIG TRC_TRIG_KIND = 1 ∧ fget s TRC_TRIG TRC_TRIG_ARG = m then trcTrigger s 1 else s
  if fget s CTR_CTRL CTR_CTRL_ARG = m then snapTrig s1 2 2 else s1

/-- INPUT_DEADLINE: the window has closed; the journal is written here when the class has no AGREE (R134, 07 R273). -/
def actDeadline (s : Dev) (c : Nat) : Dev := if (agreeEntry s c).isSome then s else journalApply s c

/-- The effect of an action of class `c`; `n` signals of a SAMPLE are read before the next boundary (R126). -/
def actEffect (s : Dev) (c n : Nat) (e : PrickEntry) : Dev :=
  match e.action with
  | 1 => releaseOrHold s c (e.arg % 65536)
  | 2 => actDeadline s c
  -- without agreement the frames held for a window are let go (07 R266)
  | 3 => if inAgreement s then actAgree s c e.offset else releaseHeld (actAgree s c e.offset) c
  | 4 => actGather s c e
  | 5 => actDigest s c e
  | 6 => histSample s c (e.arg % 65536) n
  | 7 => raise s (0xF80 + 8 * c + e.arg % 8)
  | 8 => actMark s e
  | _ => s

/-- An entry runs at T0 + OFFSET (R124). -/
def runOne (c n : Nat) (s : Dev) (e : PrickEntry) : Dev :=
  let s1 := advanceTo s ((cls s c).t0 + e.offset)
  let s2 := setCls s1 c { cls s1 c with ran := (cls s1 c).ran ++ [e.idx] }
  actEffect (trcCycle s2 c e.action (cycleArg e)) c n e

/-- Signals a SAMPLE at `offset` can read before the next boundary: 800 ns and 0.8 ns each (08 R304, R305) (log 16, DEDUCED). -/
def signalsInTime (s : Dev) (c offset : Nat) : Nat := (periodNs s c - offset - 800) * 5 / 4

/-- An entry runs when its cycle does, as far as a boundary leaves it time. -/
def runInTime (c : Nat) (s : Dev) (e : PrickEntry) : Dev := runOne c (signalsInTime s c e.offset) s e

/-- The row of an action: entry `i` of a running class is the next to run and holds that action (log 16, DEDUCED). -/
def runEntry (s : Dev) (c i action n : Nat) : Dev :=
  if classRuns s c && domOn s 76 then
    match stillToRun s c with
    | e :: _ => if e.idx = i ∧ e.action = action then runOne c n s e else s
    | [] => s
  else s

/-! ## Boundaries (R117 to R121) -/

/-- The journal at offset 0 where the class has neither AGREE nor INPUT_DEADLINE (07 R273). -/
def journalZero (s : Dev) (c : Nat) : Dev :=
  if (agreeEntry s c).isNone && (deadlineEntry s c).isNone then journalApply s c else s

/-- A handover at `offset` in class cycle `n`: one beyond 2,000 − 300 + OPEN ns counts that cycle, once (R162) (log 14, DESIGN CHOICE). -/
def noteReaction (s : Dev) (c n offset : Nat) : Dev :=
  if decide (1700 + openNs s c < offset) && !((cls s c).counted.contains n) then
    setCls (fincSat s (CYC_FLOW c) CYC_FLOW_REACTION 1) c { cls s c with counted := (n :: (cls s c).counted).take 16 }
  else s

/-- A new cycle of a class opens at nominal time `t0`: trace, snapshot, role changes, journal, entries at offset 0 (log 16, DEDUCED). -/
def openCycle (s : Dev) (c t0 : Nat) : Dev :=
  let s1 := setCls s c { armed := false, nextM := (cls s c).nextM + 1, t0 := t0, counted := (cls s c).counted }
  let s2 := setReg s1 (CYC_NEXT_T0 c) (BitVec.ofNat 64 (t0 + periodNs s1 c))
  let s3 := trcCycle s2 c 0 0
  let s4 := if fget s3 CTR_CTRL CTR_CTRL_CLASS = c then snapTrig s3 1 1 else s3
  let s5 := if twinOn s4 ∧ c = refClass s4 then freezeOpen (roleBoundary s4) else s4
  ((stillToRun s5 c).filter (fun e => e.offset == 0)).foldl (runInTime c) (journalZero s5 c)

/-- The cycle of a class ends: commit, scatter cut-off, gathers and samples cut (R98, R118, R144, R151, 08 R305) (log 16, DEDUCED). -/
def endCycle (s : Dev) (c : Nat) : Dev :=
  let ended := classStamp s c
  let s1 := releaseScattered s (cutCycle s c)
  let s2 := histCut s1 c
  let s3 := setReg s2 (CYC_NUMBER c) (reg s2 (CYC_NUMBER c) + 1)
  applyPending (endAbandons s3 c ended) c

/-- A boundary of a class (R117 to R121): the entries of the cycle still to run come first (log 16, DEDUCED). Its nominal time follows PERIOD and EPOCH as they stand, so that a write to them while STOPPING moves the last boundary (log 147, DESIGN CHOICE). -/
def boundary (s : Dev) (c : Nat) : Dev :=
  if !(domOn s 76) then s
  else if classRuns s c then
    let s1 := (stillToRun s c).foldl (runInTime c) s
    let t0 := boundaryNs s1 c (cls s1 c).nextM
    let s2 := endCycle (advanceTo s1 t0) c
    if fbit s2 (CYC_CLASS_CTRL c) CYC_CLASS_CTRL_STOPPING then
      let s3 := fset (fset s2 (CYC_CLASS_CTRL c) CYC_CLASS_CTRL_RUNNING 0) (CYC_CLASS_CTRL c) CYC_CLASS_CTRL_STOPPING 0
      joinStopped (setReg (setCls s3 c { t0 := t0, counted := (cls s3 c).counted }) (CYC_NEXT_T0 c) 0) c
    else openCycle s2 c t0
  else if (cls s c).armed then
    let t0 := boundaryNs s c (cls s c).nextM
    openCycle (fset (advanceTo s t0) (CYC_CLASS_CTRL c) CYC_CLASS_CTRL_RUNNING 1) c t0
  else s

/-! ## Handover (R150 to R152, 05 R189, 07 R257) -/

/-- Bytes of VLAN tags after the addresses, at most two (05 stage 2). -/
def tagBytes (fr : List Byte) : Nat :=
  if isVlan (be16 fr 12) then (if isVlan (be16 fr 16) then 8 else 4) else 0

/-- An R-TAG with its sequence number stands before the EtherType (05 R189) (log 23, PRESUMED). -/
def insertRtag (fr : List Byte) (seq : Nat) : List Byte :=
  let o := 12 + tagBytes fr
  fr.take o ++ [0xF1, 0xC1, 0, 0] ++ beBytes 2 (seq % 65536) ++ fr.drop o

/-- GATHER_HANDOVER (R162 counts its cycle): the oldest built frame of a controller goes to its port queue, with its copy; a twin device that is not ACTIVE drops it (log 22, DEDUCED) (log 24, DEDUCED) (log 14, DESIGN CHOICE). -/
def handover (s : Dev) (k : Nat) : Dev :=
  match builtFrames s k with
  | [] => s
  | f :: rest =>
    let c := f.cls
    let n := (reg s (CYC_NUMBER c)).toNat
    let t0 := (cls s c).t0 - (n - f.cycle) * periodNs s c
    let s1 := giveCredit (setBuilt (advanceTo s (t0 + f.offset)) k rest) (40 + k)
    let s2 := fmax s1 (CYC_SPAN c) CYC_SPAN_HANDOVER_MAX f.offset
    let s3 := noteReaction s2 c f.cycle f.offset
    if twinOn s3 ∧ role s3 ≠ ACTIVE then countTwin s3 2
    else
      let r := swWord s3 5 f.stream 0
      let fr := if nbit r.toNat 0 then insertRtag f.frame (f.cycle + 65535) else f.frame
      let tc := bitsOf f.entry S_TC
      let s4 := handToPort s3 (bitsOf f.entry S_PORT) tc fr
      let s5 := if nbit r.toNat 1 then handToPort s4 (bitsOf r (8, 2)) tc fr else s4
      trcStream s5 f.stream 5 (nowNs s5)

/-! ## Meanings -/

/-- CLASS_BOUNDARY (R118). -/
def execClassBoundary (c : ClassId) (s : State) : Host.Outcome State Fault Refusal := onDev s (fun d => boundary d c.val)

/-- RELEASE (R154). -/
def execReleaseAction (c : ClassId) (e : Fin 64) (s : State) : Host.Outcome State Fault Refusal := onDev s (fun d => runEntry d c.val e.val 1 0)

/-- INPUT_DEADLINE (R134). -/
def execInputDeadline (c : ClassId) (e : Fin 64) (s : State) : Host.Outcome State Fault Refusal := onDev s (fun d => runEntry d c.val e.val 2 0)

/-- AGREE (07 R267). -/
def execAgreeAction (c : ClassId) (e : Fin 64) (s : State) : Host.Outcome State Fault Refusal := onDev s (fun d => runEntry d c.val e.val 3 0)

/-- GATHER_START (R147). -/
def execGatherStart (c : ClassId) (e : Fin 64) (s : State) : Host.Outcome State Fault Refusal := onDev s (fun d => runEntry d c.val e.val 4 0)

/-- DIGEST (07 R276). -/
def execDigestAction (c : ClassId) (e : Fin 64) (s : State) : Host.Outcome State Fault Refusal := onDev s (fun d => runEntry d c.val e.val 5 0)

/-- SAMPLE (08 R302). -/
def execSampleAction (c : ClassId) (e : Fin 64) (n : Nat) (s : State) : Host.Outcome State Fault Refusal := onDev s (fun d => runEntry d c.val e.val 6 n)

/-- EVENT (R126). -/
def execEventAction (c : ClassId) (e : Fin 64) (s : State) : Host.Outcome State Fault Refusal := onDev s (fun d => runEntry d c.val e.val 7 0)

/-- MARK (R126). -/
def execMarkAction (c : ClassId) (e : Fin 64) (s : State) : Host.Outcome State Fault Refusal := onDev s (fun d => runEntry d c.val e.val 8 0)

/-- GATHER_HANDOVER (R150). -/
def execGatherHandover (k : CtlId) (s : State) : Host.Outcome State Fault Refusal := onDev s (fun d => handover d k.val)

end Sys2Proof.Machine
end

