-- ==== Sys2Proof/Machine/Fp.lean ====
section
/-! DEFINITION. Fp: the floating-point instructions (10 R375 to R380). -/
namespace Sys2Proof.Machine

/-- Format of a suffix (R375). -/
def fmtOf : Prec → Fmt
  | .b64 => b64
  | .b32 => b32

/-- Rounding mode of a thread (R376). -/
def fpRm (s : Dev) (t : Nat) : Nat := nbits (thr s t).fpcsr 1 0

/-- Trap enables, in FPCSR order (R378) (log 18, DEDUCED). -/
def fpEnables (x : Thread) : Nat := nbits x.fpcsr 11 7

/-- Flags an operation raises: with underflow's enable set, every tiny result raises it (R376) (log 18, DEDUCED). -/
def fpRaised (x : Thread) (o : FOut) : Nat := if nbit (fpEnables x) 3 && o.tiny then Nat.lor o.flags F_UF else o.flags

/-- A floating-point result: a trap when an enabled flag is raised, else the flags are ORed into FPCSR and the register written under combine with the fault of R45 (R378 to R380). -/
def fpResult (s : Dev) (t w : Nat) (rd : GReg) (tags : List Byte) (o : FOut) : Dev :=
  let x := thr s t
  let fl := fpRaised x o
  let q : QWord := ⟨BitVec.ofNat 64 o.bits, combineFault tags (nbit fl 0 || o.nan)⟩
  if Nat.land fl (fpEnables x) ≠ 0 then takeExc s t { atInsn x 8 w with fpflags := fl, result := ⟨q.val, resultTag x.qmode q.tag⟩ }
  else resultWith s t w rd 0 (fun x => { x with fpcsr := Nat.lor x.fpcsr (fl * 4) }) q

/-- A two-source operation. -/
def fp2 (s : State) (t : Thr) (w : Nat) (f : Prec) (rd a b : GReg) (op : Fmt → Nat → Nat → Nat → FOut) : Host.Outcome State Fault Refusal :=
  onDev s (fun d => onInsn d t.val [a, b] (fun d =>
    fpResult d t.val w rd [rt d t.val a, rt d t.val b] (op (fmtOf f) (fpRm d t.val) (rv d t.val a).toNat (rv d t.val b).toNat)))

/-- A one-source operation. -/
def fp1 (s : State) (t : Thr) (w : Nat) (rd a : GReg) (op : Nat → Nat → FOut) : Host.Outcome State Fault Refusal :=
  onDev s (fun d => onInsn d t.val [a] (fun d =>
    fpResult d t.val w rd [rt d t.val a] (op (fpRm d t.val) (rv d t.val a).toNat)))

/-- A fused operation. -/
def fp3 (s : State) (t : Thr) (w : Nat) (f : Prec) (rd a b c : GReg) (op : Fmt → Nat → Nat → Nat → Nat → FOut) : Host.Outcome State Fault Refusal :=
  onDev s (fun d => onInsn d t.val [a, b, c] (fun d =>
    fpResult d t.val w rd [rt d t.val a, rt d t.val b, rt d t.val c]
      (op (fmtOf f) (fpRm d t.val) (rv d t.val a).toNat (rv d t.val b).toNat (rv d t.val c).toNat)))

/-- FADD. -/
def execFadd (t : Thr) (f : Prec) (rd rs1 rs2 : GReg) (s : State) : Host.Outcome State Fault Refusal :=
  fp2 s t (wordOf (.fadd t f rd rs1 rs2)) f rd rs1 rs2 fAdd

/-- FSUB. -/
def execFsub (t : Thr) (f : Prec) (rd rs1 rs2 : GReg) (s : State) : Host.Outcome State Fault Refusal :=
  fp2 s t (wordOf (.fsub t f rd rs1 rs2)) f rd rs1 rs2 fSub

/-- FMUL. -/
def execFmul (t : Thr) (f : Prec) (rd rs1 rs2 : GReg) (s : State) : Host.Outcome State Fault Refusal :=
  fp2 s t (wordOf (.fmul t f rd rs1 rs2)) f rd rs1 rs2 fMul

/-- FDIV. -/
def execFdiv (t : Thr) (f : Prec) (rd rs1 rs2 : GReg) (s : State) : Host.Outcome State Fault Refusal :=
  fp2 s t (wordOf (.fdiv t f rd rs1 rs2)) f rd rs1 rs2 fDiv

/-- FSQRT. -/
def execFsqrt (t : Thr) (f : Prec) (rd rs1 : GReg) (s : State) : Host.Outcome State Fault Refusal :=
  fp1 s t (wordOf (.fsqrt t f rd rs1)) rd rs1 (fSqrt (fmtOf f))

/-- FMAC. -/
def execFmac (t : Thr) (f : Prec) (rd rs1 rs2 rs3 : GReg) (s : State) : Host.Outcome State Fault Refusal :=
  fp3 s t (wordOf (.fmac t f rd rs1 rs2 rs3)) f rd rs1 rs2 rs3 fMac

/-- FMSC. -/
def execFmsc (t : Thr) (f : Prec) (rd rs1 rs2 rs3 : GReg) (s : State) : Host.Outcome State Fault Refusal :=
  fp3 s t (wordOf (.fmsc t f rd rs1 rs2 rs3)) f rd rs1 rs2 rs3 fMsc

/-- FMIN: minimumNumber. -/
def execFmin (t : Thr) (f : Prec) (rd rs1 rs2 : GReg) (s : State) : Host.Outcome State Fault Refusal :=
  fp2 s t (wordOf (.fmin t f rd rs1 rs2)) f rd rs1 rs2 (fun m _ a b => fMinMax m false a b)

/-- FMAX: maximumNumber. -/
def execFmax (t : Thr) (f : Prec) (rd rs1 rs2 : GReg) (s : State) : Host.Outcome State Fault Refusal :=
  fp2 s t (wordOf (.fmax t f rd rs1 rs2)) f rd rs1 rs2 (fun m _ a b => fMinMax m true a b)

/-- FNEG: no flag is raised. -/
def execFneg (t : Thr) (f : Prec) (rd rs1 : GReg) (s : State) : Host.Outcome State Fault Refusal :=
  fp1 s t (wordOf (.fneg t f rd rs1)) rd rs1 (fun _ a => fNeg (fmtOf f) a)

/-- FABS: no flag is raised. -/
def execFabs (t : Thr) (f : Prec) (rd rs1 : GReg) (s : State) : Host.Outcome State Fault Refusal :=
  fp1 s t (wordOf (.fabs t f rd rs1)) rd rs1 (fun _ a => fAbs (fmtOf f) a)

/-- FSAME. -/
def execFsame (t : Thr) (f : Prec) (rd rs1 rs2 : GReg) (s : State) : Host.Outcome State Fault Refusal :=
  fp2 s t (wordOf (.fsame t f rd rs1 rs2)) f rd rs1 rs2 (fun m _ a b => fSame m a b)

/-- FLESS. -/
def execFless (t : Thr) (f : Prec) (rd rs1 rs2 : GReg) (s : State) : Host.Outcome State Fault Refusal :=
  fp2 s t (wordOf (.fless t f rd rs1 rs2)) f rd rs1 rs2 (fun m _ a b => fLess m false a b)

/-- FLESSEQ. -/
def execFlesseq (t : Thr) (f : Prec) (rd rs1 rs2 : GReg) (s : State) : Host.Outcome State Fault Refusal :=
  fp2 s t (wordOf (.flesseq t f rd rs1 rs2)) f rd rs1 rs2 (fun m _ a b => fLess m true a b)

/-- FTOI: to int64 in the FPCSR mode, saturated. -/
def execFtoi (t : Thr) (f : Prec) (rd rs1 : GReg) (s : State) : Host.Outcome State Fault Refusal :=
  fp1 s t (wordOf (.ftoi t f rd rs1)) rd rs1 (fToI (fmtOf f))

/-- ITOF: from int64. -/
def execItof (t : Thr) (f : Prec) (rd rs1 : GReg) (s : State) : Host.Outcome State Fault Refusal :=
  fp1 s t (wordOf (.itof t f rd rs1)) rd rs1 (fun rm a => iToF (fmtOf f) rm (toSigned 64 a))

/-- FWIDEN: binary32 to binary64, exactly. -/
def execFwiden (t : Thr) (rd rs1 : GReg) (s : State) : Host.Outcome State Fault Refusal :=
  fp1 s t (wordOf (.fwiden t rd rs1)) rd rs1 (fun _ a => fWiden a)

/-- FNARROW: binary64 to binary32. -/
def execFnarrow (t : Thr) (rd rs1 : GReg) (s : State) : Host.Outcome State Fault Refusal :=
  fp1 s t (wordOf (.fnarrow t rd rs1)) rd rs1 fNarrow

end Sys2Proof.Machine
end

