-- ==== Sys2Proof/Machine/Late.lean ====
section
/-! DEFINITION. Late: uncached accesses of threads at register space and PCIe windows, and the debug bus master (09 R357, 10 R387, 21 R694, 05 R205 to R207, 16 R602). -/
namespace Sys2Proof.Machine

/-! ## Uncached accesses of threads (09 R357) -/

/-- An access answered with an error (log 112, DEDUCED). -/
def answerErr (a : Acc) (k : Nat) : Acc := { a with phase := .returned, err := some { kind := k } }

/-- The value a load takes from an aligned word of a device: its low bytes, extended. -/
def loadedValue (op : AccOp) (v : Word) : Word :=
  match op with
  | .loadValue n sg => extendBytes n sg v.toNat
  | _ => v

/-- An access of a thread to register space is performed (21 R694, 10 R387): only aligned words at registers; a load answers with tag 0x00, a store's tag is discarded (02 R32). -/
def regAccess (s : Dev) (t : Thr) (a : Acc) (off : Nat) : Acc × Dev :=
  if accIsAtomic a.op then (answerErr a 7, s)
  else if accBytes a.op ≠ 8 then (answerErr a 3, s)
  else
    match reachReg (.thread t) off with
    | none => (answerErr a 3, s)
    | some r =>
      if accIsStore a.op then ({ a with phase := .returned }, regWrite s (.thread t) r off a.data.val)
      else
        let s1 := regRead s (.thread t) r off
        ({ a with phase := .returned, result := ⟨s1.readData, 0⟩ }, s1)

/-- An access of a thread to a PCIe window is performed (05 R205 to R207, 10 R387): a load answers `data` or fails; a configuration read that finds no device, its link down or `fail` with all ones, answers all ones; a store to memory space is posted, and dropped while the link is down; the root port's own registers answer themselves. The tag of a word loaded is not stated: free (log 110, DEDUCED). -/
def rootAccess (s : Dev) (a : Acc) (r : Nat) (data : Word) (fail : Bool) : Acc × Dev :=
  if accIsAtomic a.op then (answerErr a 7, s)
  else if (rootGroup s r).isNone then (answerErr a 3, s)
  else if !(rootLive s r) then (answerErr a 5, s)
  else
    let off := a.pa - rootBase r
    let own := decide (off < 0x1000)
    let up := (root s r).up
    if accIsStore a.op then
      let bs := leBytes (accBytes a.op) a.data.val.toNat
      if own then ({ a with phase := .returned }, cfgStores s r off bs)
      else if inEcam a.pa && !up then (answerErr a 2, s)
      else ({ a with phase := .returned }, if up && !fail then modRoot s r (fun x => { x with sent := x.sent ++ [(off, bs)] }) else s)
    else if (if inEcam a.pa then !own && up && fail && data != BitVec.allOnes 64 else fail || !up) then (answerErr a 2, s)
    else
      let word := if own then BitVec.ofNat 64 (leNat (cfgLoad s r off (accBytes a.op))) else if fail || !up then BitVec.allOnes 64 else data
      let f := drawFree s
      let tag : Byte := if a.op = .loadTagged then f.1.setWidth 8 else 0
      ({ a with phase := .returned, result := ⟨loadedValue a.op word, tag⟩ }, f.2)

/-- An uncached access is performed at a target that is no bank (log 110, DEDUCED) (log 112, DEDUCED) (log 53, DEDUCED). -/
def performAt (s : Dev) (t : Thr) (a : Acc) (data : Word) (fail : Bool) : Acc × Dev :=
  match placeOf s a.pa with
  | .regs off => regAccess s t a off
  | .pcie r => rootAccess s a r data fail
  | _ => (answerErr a 3, s)

/-- The oldest uncached access of a thread that its target has not answered. -/
def nextUncached (x : Thread) : Option Acc := x.accs.find? (fun a => a.uncached && !(a.phase == .returned))

/-- The credit of an access returns: a store completes, a load or atomic holds its answer until its data returns (R357, R408) (log 110, DEDUCED). -/
def answered (s : Dev) (t : Nat) (a : Acc) : Dev :=
  resumeExc (if accIsStore a.op then completeAcc s t a else modThr s t (fun x => putAcc x a)) t

/-- UNCACHED_RESPONSE (R357): the target of the oldest unanswered uncached access accepts the store or answers the load. A bank's answer stands since its grant (log 53, DEDUCED). -/
def uncachedResponse (s : Dev) (t : Thr) (data : Word) (fail : Bool) : Dev :=
  match nextUncached (thr s t.val) with
  | none => s
  | some a =>
    match a.phase with
    | .done => answered s t.val { a with phase := .returned }
    | .issued =>
      if (bankOf a.pa).isSome then s
      else if (match rootOf a.pa with | some r => heldBack s r t.val a.id | none => false) then s
      else
        let r := performAt s t a data fail
        answered r.2 t.val r.1
    | _ => s

/-- UNCACHED_RESPONSE. -/
def execUncachedResponse (t : Thr) (data : Word) (fail : Bool) (s : State) : Host.Outcome State Fault Refusal :=
  onDev s (fun d => uncachedResponse d t data fail)

/-! ## The debug bus master (16 R588, R596, R602) -/

/-- Whether stage 2 of a partition maps a physical address (12 R466). -/
def mapsPhys (s : Dev) (p pa : Nat) : Bool := (partSt s p).s2.any (fun m => decide (m.pa ≤ pa) && decide (pa < m.pa + m.size))

/-- Oasis's own DRAM: pages no partition maps, where the device places them (12 R466) (log 109, DESIGN CHOICE). -/
def oasisOwn (s : Dev) (pa : Nat) : Bool :=
  inDram s pa && Config.oasisPage (pa / 4096) && !((rangeFrom 0 16).any (fun p => mapsPhys s p pa))

/-- Whether the level of the TAP grant reaches a physical address (R588) (log 109, DESIGN CHOICE) (log 111, DEDUCED). -/
def memReaches (s : Dev) (pa : Nat) : Bool :=
  let l := tapLevel s
  if l = 1 then (rangeFrom 0 16).any (fun p => (partSt s p).world == 1 && mapsPhys s p pa)
  else l == 2 && !(oasisOwn s pa)

/-- What the debug bus master reads: value and tag; `none` is BUS_ERROR (R602) (log 111, DEDUCED). -/
def debugRead (s : Dev) (pa : Nat) (tagged : Bool) : Option QWord × Dev :=
  match placeOf s pa with
  | .dram =>
    let s1 := (ioRead (dramTaken s 30 pa 8) pa 8).2
    if tagged then (some (readTagged s pa), s1)
    else if poisonAt s (pa / 8) then (none, s1)
    else (some ⟨(wordAt s pa).val, 0⟩, s1)
  | .bank _ =>
    match masterReadWord s 0x1C pa with
    | (none, s1) => (none, s1)
    | (some x, s1) => if tagged then (some x.q, s1) else if x.poisoned then (none, s1) else (some ⟨x.q.val, 0⟩, s1)
  | .regs off =>
    match reachReg .debug off with
    | none => (none, s)
    | some r =>
      let s1 := regRead s .debug r off
      (some ⟨s1.readData, 0⟩, s1)
  | .pcie r =>
    if !(rootLive s r) then (none, s)
    else if pa - rootBase r < 0x1000 then (some ⟨BitVec.ofNat 64 (leNat (cfgLoad s r (pa - rootBase r) 8)), 0⟩, s)
    else if inEcam pa && !((root s r).up) then (some ⟨BitVec.allOnes 64, 0⟩, s)
    else
      -- the spec states no answer of a device to the debug bus master
      let f := drawFree s
      let g := drawFree f.2
      (if g.1.toNat % 2 = 0 then none else some ⟨f.1, if tagged then (g.1 >>> 8).setWidth 8 else 0⟩, g.2)
  | .none => (none, s)

/-- What the debug bus master writes; `false` is BUS_ERROR (R602) (log 111, DEDUCED). -/
def debugWrite (s : Dev) (pa : Nat) (v : Word) (tag : Byte) (tagged : Bool) : Bool × Dev :=
  let q : QWord := ⟨v, if tagged then tag else 0x08⟩
  match placeOf s pa with
  | .dram => (true, toDram (countMc (writeWord (ioInvalidate (dramTaken s 30 pa 8) (pa / 64)) pa q) (chanOf s pa) 0x06) (pa / 64))
  | .bank n =>
    if !(bankUp s none n) then (false, s)
    else
      match bankTarget s { code := 0x1C } n pa true false with
      | .plain _ => (true, usePortOf (writeWord s pa q) n 2 0x1C 1 (wordsBefore s pa 8))
      | _ => (false, noteRefused s { code := 0x1C } n)
  | .regs off =>
    match reachReg .debug off with
    | none => (false, s)
    | some r => (true, regWrite s .debug r off v)
  | .pcie r =>
    if !(rootLive s r) then (false, s)
    else if pa - rootBase r < 0x1000 then (true, cfgStores s r (pa - rootBase r) (leBytes 8 v.toNat))
    else (true, if (root s r).up then modRoot s r (fun x => { x with sent := x.sent ++ [(pa - rootBase r, leBytes 8 v.toNat)] }) else s)
  | .none => (false, s)

/-- What an access of the debug bus master waits for: as source 30 a credit and a grant of a channel, or a bank (01 R15, 03 R90, R96, 13 R479). -/
def debugWaits (s : Dev) (pa : Nat) : List Nat :=
  match placeOf s pa with
  | .dram => dramWaits s 30 pa 8
  | .bank _ => addrWaits s pa 8
  | _ => []

/-- A READ or WRITE: its address, after AUTOINC when ADDR is 0; alignment, then the level, then the access (R588, R596) (log 111, DEDUCED). -/
def garirMem (s : Dev) (a : Nat) (autoinc : Bool) (f : Dev → Nat → Option QWord × Dev) : Dev :=
  let pa := if a = 0 then s.dbg.gNext else a
  engineAct s (if decide (pa % 8 = 0) && memReaches s pa then debugWaits s pa else []) (fun s => garirDo s pa (fun s =>
    if pa % 8 ≠ 0 then garirEnd s G_BAD_ARG 0 0
    else if !(memReaches s pa) then garirEnd s G_DENIED 0 0
    else
      match f s pa with
      | (none, s1) => garirEnd s1 G_BUS_ERROR 0 0
      | (some q, s1) =>
        let s2 := garirEnd s1 G_OK q.tag.toNat q.val
        if autoinc then modDbg s2 (fun d => { d with gNext := pa + 8 }) else s2))

/-- READ (R602). -/
def execGarirRead (a : PAddr) (tagged autoinc : Bool) (s : State) : Host.Outcome State Fault Refusal :=
  onDev s (fun d => garirMem d a.toNat autoinc (fun d pa => debugRead d pa tagged))

/-- WRITE (R602). -/
def execGarirWrite (a : PAddr) (v : Word) (tag : Byte) (tagged autoinc : Bool) (s : State) : Host.Outcome State Fault Refusal :=
  onDev s (fun d => garirMem d a.toNat autoinc (fun d pa =>
    match debugWrite d pa v tag tagged with
    | (false, d1) => (none, d1)
    | (true, d1) => (some ⟨0, 0⟩, d1)))

end Sys2Proof.Machine
end

