-- ==== Sys2Proof/Machine/OasisCmds.lean ====
section
/-! DEFINITION. OasisCmds: live changes and commits, firmware, restarts, fuses, the recovery loader (14 R520 to R529, R538 to R540, R546 to R549; 18 R654). -/
namespace Sys2Proof.Machine

/-! ## One command at a time (R539) -/

/-- Commands that Oasis runs one at a time for the whole device (log 101, DEDUCED). -/
def isExclusive (code : Nat) : Bool := inRange 0x0210 0x0214 code || code == 0x0220 || code == 0x0221 || code == 0x0230

/-- Another such command that is posted has arrived while this one is in progress, and receives BUSY, or stays for later: when it arrived is free (log 101, DEDUCED). -/
def othersBusy (s : Dev) (m : Nat) : Dev :=
  (rangeFrom 256 17).foldl (fun s q =>
    if q != m && (mbox s q).posted && isExclusive (mboxCode s q) && mboxKnows q (mboxCode s q) then
      let f := drawFree s
      if nbit f.1.toNat 0 then respond f.2 q ST_BUSY [] else f.2
    else s) s

/-- A posted command of a code that runs alone (log 101, DEDUCED). -/
def oasisRun (s : Dev) (m code : Nat) (f : Dev → Dev) : Dev := mboxRun s m code (fun d => f (othersBusy d m))

/-- Whether a mailbox belongs to the configuration manager. -/
def isCM (s : Dev) (m : Nat) : Bool := isManager s m 1

/-! ## CFG_APPLY (R526 to R528) -/

/-- The bytes of a staged image, which Oasis reads as sharer 31 (R508); a poisoned word reads 0 (02 R65). -/
def stagedBytes (s : Dev) (l : List (Nat × Nat)) : List Byte × Dev :=
  (l.flatMap (fun p => (rangeFrom p.1 p.2).map (fun a => if poisonAt s (a / 8) then 0 else rdByte s a)),
    l.foldl (fun s p => (linesOf p.1 p.2).foldl oasisLoad s) s)

def activeSeq (s : Dev) : Nat := fget s CFG_ACTIVE CFG_ACTIVE_SEQ

/-- An image that passed its checks is applied, and the response carries the mask of the sections refused as a whole (log 94, DEDUCED). -/
def applyLive (s : Dev) (m : Nat) (img : List Byte) : Dev :=
  let s1 := applySections true img s
  let s2 := fset (liveMaps s s1) CFG_ACTIVE CFG_ACTIVE_SEQ (imageSeq img)
  if refusedMask s1 = 0 then respond { fset s2 CFG_ACTIVE CFG_ACTIVE_SOURCE 1 with oasis := { s2.oasis with staged := some img } } m ST_OK []
  else respond (fset s2 CFG_ACTIVE CFG_ACTIVE_SOURCE 2) m ST_PARTIAL [BitVec.ofNat 64 (refusedMask s1)]

/-- CFG_APPLY. Posting one ends what a CFG_COMMIT could write (R529) (log 93, DEDUCED) (log 100, DEDUCED). -/
def cfgApply (s0 : Dev) (m : Nat) : Dev :=
  let s := { s0 with oasis := { s0.oasis with staged := none } }
  let n := (mboxArg s m 2).toNat
  if !(isCM s m) then respond s m ST_DENIED []
  else if activeSeq s = 0xFFFFFFFF then respond s m ST_NO_RESOURCE []
  else
    match if inRange 256 12578816 n then ownRange s (senderPart m) (mboxArg s m 1).toNat n else none with
    | none => respond s m ST_BAD_ARG []
    | some l =>
      let r := stagedBytes s l
      if !(imageSound r.1) then respond r.2 m ST_BAD_ARG []
      else if !(keyAccepted s (imagePubkey r.1)) then respond r.2 m ST_DENIED []
      else if imageSeq r.1 ≤ activeSeq s then respond r.2 m ST_BAD_ARG []
      else applyLive r.2 m r.1

/-- CFG_APPLY is not taken up while a partition whose mappings it changes has accesses under way (12 R461) (log 56, DEDUCED). -/
def cfgApplyRun (s : Dev) (m : Nat) : Dev :=
  let d := oasisRun s m 0x0210 (fun d => cfgApply d m)
  if (rangeFrom 0 16).all (fun p => imageMaps s (banksInForce s) p == imageMaps d (banksInForce d) p || partQuiet s p (fun _ => true)) then d else s

/-- CFG_APPLY. -/
def execCfgApply (m : Mailbox) (s : State) : Host.Outcome State Fault Refusal := onDev s (fun d => cfgApplyRun d (mboxNum m))

/-! ## Writing a copy (R525) -/

/-- The write of a flash image failed its verification twice. -/
def flashAlert (s : Dev) : Dev := logRec s ALERT SB_CFG 0 0x0E06 []

/-- Bytes programmed over erased sectors; the page of `fail` fails its verification twice. -/
def writePages (s : Dev) (base : Nat) (img : List Byte) (fail : Option FlashFail) : Bool × Dev :=
  let s1 := programFlash (eraseFlash s base img.length) base img
  match fail with
  | some (.page n) => if 256 * n.val < img.length then (false, failedFlash s1 (base + 256 * n.val) 256) else (true, s1)
  | _ => (true, s1)

/-- The commit byte is programmed and read back (log 106, DESIGN CHOICE). -/
def writeCommit (s : Dev) (slot : Nat) (fail : Option FlashFail) : Bool × Dev :=
  if fail = some .commit then (false, failedFlash s (commitAddr slot) 1) else (true, programFlash s (commitAddr slot) [0xA5])

/-- Steps 1 to 6 of R525. -/
def writeCopy (s : Dev) (slot : Nat) (img : List Byte) (fail : Option FlashFail) : Bool × Dev :=
  let x := writePages (eraseFlash s (commitAddr slot) 4096) (cfgBase slot) img fail
  if x.1 then writeCommit x.2 slot fail else x

/-- The configuration slot not in use, or slot A when none is. -/
def spareCfg (s : Dev) : Nat := if s.oasis.slotInUse = some 0 then 1 else 0

/-- CFG_COMMIT (R526, R529) (log 92, DEDUCED). -/
def cfgCommit (s : Dev) (m : Nat) (fail : Option FlashFail) : Dev :=
  if !(isCM s m) then respond s m ST_DENIED []
  else if activeSeq s = 0xFFFFFFFF then respond s m ST_NO_RESOURCE []
  else
    match s.oasis.staged with
    | none => respond s m ST_WRONG_STATE []
    | some img =>
      let x := writeCopy s (spareCfg s) img fail
      if x.1 then respond (logRec (noteSlots x.2) NOTICE SB_CFG 0 0x0E05 []) m ST_OK []
      else respond (flashAlert (noteSlots x.2)) m ST_NO_RESOURCE []

/-- CFG_COMMIT. -/
def execCfgCommit (m : Mailbox) (fail : Option FlashFail) (s : State) : Host.Outcome State Fault Refusal :=
  onDev s (fun d => oasisRun d (mboxNum m) 0x0211 (fun d => cfgCommit d (mboxNum m) fail))

/-! ## Firmware and restarts (R538, R540, 18 R654) -/

/-- The firmware slot not running, or slot A when none runs. -/
def spareFw (s : Dev) : Nat := if s.oasis.fw = some 0 then 1 else 0

/-- FW_WRITE: an image that the slot would not hold valid is refused without effect (log 106, DESIGN CHOICE). -/
def fwWrite (s : Dev) (m : Nat) (fail : Option FlashFail) : Dev :=
  let n := (mboxArg s m 2).toNat
  if !(isCM s m) then respond s m ST_DENIED []
  else
    match if inRange 1 0x200000 n then ownRange s (senderPart m) (mboxArg s m 1).toNat n else none with
    | none => respond s m ST_BAD_ARG []
    | some l =>
      let r := stagedBytes s l
      let x := writePages r.2 (fwBase (spareFw s)) r.1 fail
      if !x.1 then respond (flashAlert x.2) m ST_NO_RESOURCE []
      else
        let v := fwSlot x.2 (spareFw s)
        if v.1.isSome then respond v.2 m ST_OK [] else respond r.2 m ST_BAD_ARG []

/-- FW_WRITE. -/
def execFwWrite (m : Mailbox) (fail : Option FlashFail) (s : State) : Host.Outcome State Fault Refusal :=
  onDev s (fun d => oasisRun d (mboxNum m) 0x0212 (fun d => fwWrite d (mboxNum m) fail))

/-- A posted command that Oasis has not taken up receives BUSY and has no effect (06 R246, R247) (log 103, DEDUCED). -/
def busyNow (s : Dev) (m : Nat) : Dev := if (mbox s m).posted then respond (noteBusy s m) m ST_BUSY [] else s

/-- Oasis firmware restarts (R540, 15 R581): commands posted and not taken up receive BUSY; what commands in progress have begun goes on, and they are answered at its end (log 103, DEDUCED). -/
def restartOasis (s : Dev) (choose : Bool) : Dev :=
  let s1 := openPhase (fset (logRec s NOTICE SB_OASIS 0 0x0E0A []) MGR_INFO MGR_INFO_STATE 1) 4
  let s2 := noteSlots { s1 with
    oasis := { s1.oasis with load := none, chooseSlot := choose, restartAt := s1.smp.op, busy := [] } }
  (rangeFrom 0 273).foldl busyNow s2

/-- OASIS_RESTART: OK is posted before the restart (log 103, DEDUCED). -/
def oasisRestart (s : Dev) (m : Nat) : Dev :=
  if !(isCM s m) then respond s m ST_DENIED []
  else if 1 < (mboxArg s m 1).toNat then respond s m ST_BAD_ARG []
  else if s.oasis.load.isSome then respond s m ST_WRONG_STATE []
  else restartOasis (respond s m ST_OK []) ((mboxArg s m 1).toNat == 1)

/-- OASIS_RESTART. -/
def execOasisRestart (m : Mailbox) (s : State) : Host.Outcome State Fault Refusal :=
  onDev s (fun d => oasisRun d (mboxNum m) 0x0213 (fun d => oasisRestart d (mboxNum m)))

/-- The firmware that the restart runs (log 103, DEDUCED) (log 92, DEDUCED). -/
def restartFw (s : Dev) : Dev :=
  if s.oasis.chooseSlot then
    let c := chooseFw s
    match c.1 with
    | some x => runFw c.2 x.1 x.2
    | none => { c.2 with oasis := { c.2.oasis with fw := none } }
  else s

/-- OASIS_RESTART_DONE (R540, 15 R581), `ms` after the restart: firmware runs and commands are served again (log 103, DEDUCED). -/
def restartDone (s : Dev) (ms : Nat) (t8 : Int) : Dev :=
  if !(restarting s) then s
  else
    let s1 := restartFw (advanceOp s (s.oasis.restartAt + nsUnits (ms * 1000000)))
    if s1.oasis.fw.isNone then s1
    else
      let s2 := fset s1 MGR_INFO MGR_INFO_STATE (if s1.oasis.noImage then 2 else 0)
      let waiting := ((rangeFrom 0 273).filter (fun m => (mbox s2 m).posted)).length
      let s3 := phaseValue (s2.oasis.busy.foldl (fun s e => phaseValue s 4 1 e.2) (phaseValue s2 4 0 ms)) 4 2 waiting
      let s4 := noteTemp s3 t8
      match s4.smp.phase with
      | some p => if p.kind = 4 then closePhase s4 false (if opSecond < s4.smp.op - p.opened then 1 else 0) else s4
      | none => s4

/-- OASIS_RESTART_DONE. -/
def execOasisRestartDone (ms temp : BitVec 16) (s : State) : Host.Outcome State Fault Refusal := onDev s (fun d => restartDone d ms.toNat temp.toInt)

/-- WATCHDOG (18 R654). -/
def watchdog (s : Dev) : Dev :=
  if s.pwr.held ≠ 0 ∨ s.oasis.fw.isNone then s
  else fincSat (restartOasis (logRec s ALERT SB_PWR 79 0x1206 []) false) PWR_STATUS PWR_STATUS_WDOG_RESTARTS 1
def execWatchdog (s : State) : Host.Outcome State Fault Refusal := onDev s watchdog

/-- FW_MIN_SET (R538). -/
def fwMinSet (s : Dev) (m : Nat) : Dev :=
  if !(isCM s m) then respond s m ST_DENIED []
  else if !s.pwr.vpp then respond s m ST_WRONG_STATE []
  else respond { s with oasis := { s.oasis with fwMin := fget s MGR_INFO MGR_INFO_FW_VERSION } } m ST_OK []

/-- FW_MIN_SET. -/
def execFwMinSet (m : Mailbox) (s : State) : Host.Outcome State Fault Refusal :=
  onDev s (fun d => oasisRun d (mboxNum m) 0x0214 (fun d => fwMinSet d (mboxNum m)))

/-! ## The life cycle (R546 to R549) -/

/-- A transition: all 32 bits of the word are blown, and its ALERT is written; in RETURN the customer's secrets are erased (log 104, DEDUCED). -/
def blowWord (s : Dev) (target : Nat) : Dev :=
  let o := s.oasis
  let s1 := { s with oasis := match target with
    | 1 => { o with w1 := 2 ^ 32 - 1 }
    | 2 => { o with w2 := 2 ^ 32 - 1 }
    | _ => { o with w3 := 2 ^ 32 - 1 } }
  let s2 := logRec s1 ALERT SB_OASIS 0 0x0E09 []
  if target = 3 then noteSlots (eraseCustomer s2) else s2

/-- The signature of a transition to RETURN (R549), asked where a key is fused (log 104, DEDUCED). -/
def returnSigned (s : Dev) (m : Nat) : Bool :=
  match s.oasis.key with
  | none => true
  | some k => Config.ed25519Valid k (Config.deviceId ++ leBytes 8 (mboxArg s m 1).toNat) ((rangeFrom 2 8).flatMap (fun j => leBytes 8 (mboxArg s m j).toNat))

/-- The status of a posted LC_ADVANCE (R538, R548, R549, 20 R672) (log 104, DEDUCED). -/
def lcVerdict (s : Dev) (m : Nat) : Nat :=
  let target := (mboxArg s m 1).toNat
  let st := lcState s
  if m ≠ dbgMbox ∧ !(isCM s m) then ST_DENIED
  else if 3 < target ∨ target ≤ st then ST_BAD_ARG
  else if st = LC_BLANK ∧ target = 1 ∧ m ≠ dbgMbox then ST_DENIED
  else if (st = LC_BLANK ∧ target ≠ 1) ∨ (target = 2 ∧ s.oasis.key.isNone) ∨ !s.pwr.vpp then ST_WRONG_STATE
  else if target = 3 ∧ !(returnSigned s m) then ST_DENIED
  else ST_OK

/-- LC_ADVANCE (R538, R548): from the configuration manager or the debug mailbox (log 104, DEDUCED). -/
def lcAdvance (s : Dev) (m : Nat) : Dev :=
  let v := lcVerdict s m
  respond (if v = ST_OK then blowWord s (mboxArg s m 1).toNat else s) m v []

/-- LC_ADVANCE. -/
def execLcAdvance (m : Mailbox) (s : State) : Host.Outcome State Fault Refusal :=
  onDev s (fun d => oasisRun d (mboxNum m) 0x0220 (fun d => lcAdvance d (mboxNum m)))

/-- KEY_FUSE (R538): CFG_SLOT shows which slots the new key accepts (R516, R550). -/
def keyFuse (s : Dev) (m : Nat) : Dev :=
  if m ≠ dbgMbox ∧ !(isCM s m) then respond s m ST_DENIED []
  else if lcState s ≠ LC_OPEN ∨ s.oasis.key.isSome ∨ !s.pwr.vpp then respond s m ST_WRONG_STATE []
  else respond (noteSlots { s with oasis := { s.oasis with key := some ((rangeFrom 1 4).flatMap (fun j => leBytes 8 (mboxArg s m j).toNat)) } }) m ST_OK []

/-- KEY_FUSE. -/
def execKeyFuse (m : Mailbox) (s : State) : Host.Outcome State Fault Refusal :=
  onDev s (fun d => oasisRun d (mboxNum m) 0x0221 (fun d => keyFuse d (mboxNum m)))

/-! ## The recovery loader (R520, R522 to R524) -/

/-- Loader status bytes. -/
def L_OK : Nat := 0
def L_CRC : Nat := 1
def L_WRONG_STATE : Nat := 2
def L_BAD_ARG : Nat := 3
def L_FLASH : Nat := 4
def L_DENIED : Nat := 5

/-- The load is closed. -/
def closeLoad (s : Dev) : Dev := noteSlots { s with oasis := { s.oasis with load := none } }

/-- A frame that ends in FLASH. -/
def loaderFlash (s : Dev) : Nat × Dev := (L_FLASH, flashAlert (closeLoad s))

/-- BEGIN; `rom`: the boot ROM runs the loader. With `fail` an erase fails its verification twice (log 105, DEDUCED). -/
def loadBegin (s : Dev) (rom : Bool) (target length : Nat) (fail : Bool) : Nat × Dev :=
  if 1 < target then (L_BAD_ARG, s)
  else if s.oasis.load.isSome || (target == 1 && rom) then (L_WRONG_STATE, s)
  else if target = 1 ∧ lcState s = LC_FIELD then (L_DENIED, s)
  else if length = 0 ∨ (target = 0 ∧ 0x200000 < length) ∨ (target = 1 ∧ (12578816 < length ∨ length % 8 ≠ 0)) then (L_BAD_ARG, s)
  else
    let slot := if target = 0 then spareFw s else spareCfg s
    let base := if target = 0 then fwBase slot else cfgBase slot
    let s1 := eraseFlash (if target = 1 then eraseFlash s (commitAddr slot) 4096 else s) base length
    if fail then loaderFlash (failedFlash s1 base 4096)
    else (L_OK, noteSlots { s1 with oasis := { s1.oasis with load := some { config := target == 1, slot := slot, length := length } } })

/-- DATA: the bytes join the page under way; a page now complete is programmed and read back. With `fail` it fails twice (log 105, DEDUCED). -/
def loadData' (s : Dev) (target offset : Nat) (bytes : List Byte) (fail : Bool) : Nat × Dev :=
  if 1 < target then (L_BAD_ARG, s)
  else
    match s.oasis.load with
    | none => (L_WRONG_STATE, s)
    | some l =>
      if offset ≠ l.next ∨ (l.length + 255) / 256 * 256 ≤ offset then (L_BAD_ARG, s)
      else
        let page := l.page ++ bytes
        let put (x : LoadSt) (s : Dev) : Dev := { s with oasis := { s.oasis with load := some x } }
        if page.length < 256 then (L_OK, put { l with next := offset + bytes.length, page := page } s)
        else
          let a := (if l.config then cfgBase l.slot else fwBase l.slot) + (offset + bytes.length - 256)
          if fail then loaderFlash (failedFlash s a 256)
          else (L_OK, noteSlots (put { l with next := offset + bytes.length, page := [] } (programFlash s a page)))

/-- The boot sequence starts again with the new copy (R519, R520): every block configured so far is reset first; without trained DRAM no partition is started (13 R497). -/
def rebootConfig (s : Dev) : Dev :=
  let s1 := configReset s
  let s2 := (rangeFrom 0 16).foldl (fun s p => setReg s (bankedReg MGR_MBOX_CTRL p) (regReset (bankedReg MGR_MBOX_CTRL p))) s1
  let s3 := bootConfig { s2 with mbox := s2.mbox.filter (fun e => e.1 == dbgMbox) } 3
  closeStartUp (if dramTrained s3 then startParts s3 else s3)

/-- Firmware loaded: the boot ROM goes on with the boot, or with the restart that found none; running firmware restarts by R509 (log 105, DEDUCED). -/
def runLoaded (s : Dev) (b : BootIn) : Dev :=
  if s.oasis.fw.isSome then restartOasis s true
  else
    let c := chooseFw s
    match c.1 with
    | none => c.2
    | some x =>
      let s1 := runFw c.2 x.1 x.2
      if restarting s1 then s1 else bootRest s1 b

/-- END: the slot is checked; a configuration is committed and booted, firmware run (log 105, DEDUCED). -/
def loadEnd (s : Dev) (target arg : Nat) (fail : Bool) (b : BootIn) : Nat × Dev :=
  if 1 < target ∨ arg ≠ 0 then (L_BAD_ARG, s)
  else
    match s.oasis.load with
    | none => (L_WRONG_STATE, s)
    | some l =>
      if l.next < l.length then (L_WRONG_STATE, s)
      else if l.config then
        let v := slotView s l.slot
        match v.2.1 with
        | none => (L_DENIED, closeLoad v.2.2)
        | some img =>
          if s.oasis.slotInUse.isSome && decide (imageSeq img ≤ activeSeq s) then (L_DENIED, closeLoad v.2.2)
          else
            let x := writeCommit v.2.2 l.slot (if fail then some .commit else none)
            if x.1 then (L_OK, rebootConfig (closeLoad x.2)) else loaderFlash x.2
      else
        let v := fwSlot s l.slot
        if v.1.isSome then (L_OK, runLoaded (closeLoad v.2) b) else (L_DENIED, closeLoad v.2)

/-- ABORT. -/
def loadAbort (s : Dev) (target arg : Nat) : Nat × Dev := if 1 < target ∨ arg ≠ 0 then (L_BAD_ARG, s) else (L_OK, closeLoad s)

/-- The loader runs on the console UART: in the boot ROM, or in firmware while no configuration is in force. -/
def uartLoader (s : Dev) : Bool := s.pwr.held == 0 && (s.oasis.fw.isNone || fget s MGR_INFO MGR_INFO_STATE == 2)

/-- A frame on the console UART and its status byte: the boot ROM takes firmware frames only (R522); what is out of range is BAD_ARG. -/
def uartFrame (s : Dev) (crcOk : Bool) (target : Nat) (f : Dev → Nat × Dev) : Dev :=
  if !(uartLoader s) then s
  else
    let r := if !crcOk then (L_CRC, s) else if target = 1 ∧ s.oasis.fw.isNone then (L_WRONG_STATE, s) else f s
    { r.2 with oasis := { r.2.oasis with answer := some r.1 } }

/-- BEGIN. -/
def execLoaderBegin (target : Byte) (arg : BitVec 32) (crcOk fail : Bool) (s : State) : Host.Outcome State Fault Refusal :=
  onDev s (fun d => uartFrame d crcOk target.toNat (fun d => loadBegin d d.oasis.fw.isNone target.toNat arg.toNat fail))

/-- DATA: 256 bytes, a short frame padded with 0xFF; its offset is a multiple of 256 (R522). -/
def execLoaderData (target : Byte) (arg : BitVec 32) (data : List Byte) (crcOk fail : Bool) (s : State) : Host.Outcome State Fault Refusal :=
  onDev s (fun d => uartFrame d crcOk target.toNat (fun d =>
    if arg.toNat % 256 ≠ 0 then (L_BAD_ARG, d)
    else loadData' d target.toNat arg.toNat (data.take 256 ++ List.replicate (256 - data.length) 0xFF) fail))

/-- END. -/
def execLoaderEnd (target : Byte) (arg : BitVec 32) (crcOk fail : Bool) (b : BootIn) (s : State) : Host.Outcome State Fault Refusal :=
  onDev s (fun d => uartFrame d crcOk target.toNat (fun d => loadEnd d target.toNat arg.toNat fail b))

/-- ABORT. -/
def execLoaderAbort (target : Byte) (arg : BitVec 32) (crcOk : Bool) (s : State) : Host.Outcome State Fault Refusal :=
  onDev s (fun d => uartFrame d crcOk target.toNat (fun d => loadAbort d target.toNat arg.toNat))

/-- LOADER_FRAME_TIMEOUT (R522): the frame is discarded without an answer, 1 s after its last byte. -/
def execLoaderFrameTimeout (s : State) : Host.Outcome State Fault Refusal :=
  onDev s (fun d => if uartLoader d then advanceOp d (d.smp.op + opSecond) else d)

/-- Mailbox status of a loader status (R523). -/
def loaderStatus (n : Nat) : Nat :=
  if n = L_OK then ST_OK else if n = L_WRONG_STATE then ST_WRONG_STATE else if n = L_BAD_ARG then ST_BAD_ARG else if n = L_FLASH then ST_NO_RESOURCE else ST_DENIED

/-- What a LOAD command carries (R523). -/
def loadCommand (s : Dev) (fail : Bool) (b : BootIn) : Nat × Dev :=
  let w := mboxArg s dbgMbox 1
  let target := bitsOf w (15, 8)
  let arg := bitsOf w (63, 32)
  match bitsOf w (7, 0) with
  | 1 => loadBegin s false target arg fail
  | 2 => if arg % 64 = 0 then loadData' s target arg ((rangeFrom 2 8).flatMap (fun j => leBytes 8 (mboxArg s dbgMbox j).toNat)) fail else (L_BAD_ARG, s)
  | 3 => loadEnd s target arg fail b
  | 4 => loadAbort s target arg
  | _ => (L_BAD_ARG, s)

/-- LOAD. -/
def execLoaderLoad (fail : Bool) (b : BootIn) (s : State) : Host.Outcome State Fault Refusal :=
  onDev s (fun d => oasisRun d dbgMbox 0x0230 (fun d =>
    let r := loadCommand d fail b
    respond r.2 dbgMbox (loaderStatus r.1) []))

/-! ## Class enables held at boot (R521) -/

/-- The write of a held enable is made. -/
def releaseEnable (s : Dev) (c : Nat) : Dev :=
  let s1 := classEnable { s with oasis := { s.oasis with heldEnables := s.oasis.heldEnables.filter (fun x => x != c) } } c
  if fbit s1 (CYC_CLASS_CTRL c) CYC_CLASS_CTRL_ENABLE then s1 else refuseRec s1

/-- CLASS_ENABLE_RELEASE: every thread of the class waits, or the second has passed. -/
def classEnableRelease (s : Dev) (c : Nat) : Dev :=
  if !(s.oasis.heldEnables.contains c) then s
  else if (classEntries s c).all (fun e => (thr s (entryThr e.2)).st == .cycleWait) then releaseEnable s c
  else if startsMissing s then s
  else releaseEnable (logRec (advanceOp s (s.oasis.heldFrom + opSecond)) NOTICE SB_OASIS 0 0x0E0B []) c

/-- CLASS_ENABLE_RELEASE. -/
def execClassEnableRelease (c : ClassId) (s : State) : Host.Outcome State Fault Refusal := onDev s (fun d => classEnableRelease d c.val)

/-! ## Power failure (14 R512, R513, R547, 15 R569, R578, R580, 18 R641) -/

/-- Flash addresses of the firmware and configuration slots that may be being written: not the firmware slot that runs, not the configuration slot in use (log 67, DESIGN CHOICE). -/
def flashIdle (s : Dev) (a : Nat) : Bool :=
  if a < 0x200000 then s.oasis.fw != some 0
  else if a < 0x400000 then s.oasis.fw != some 1
  else if a < 0x1000000 then s.oasis.slotInUse != some 0
  else decide (a < 0x1C00000) && s.oasis.slotInUse != some 1

/-- The bytes of a page whose program is cut short: programmed ones stand, the one in progress is marginal, those not yet reached read 0xFF (R512). -/
def cutProgram (s : Dev) (a done : Nat) : Nat → List Byte → Dev
  | _, [] => s
  | i, b :: bs =>
    let s1 := if i < done then flashSet s (a + i) b false else flashSet s (a + i) (if i = done then b else 0xFF) (i == done)
    cutProgram s1 a done (i + 1) bs

/-- Whether a fuse word is one that a transition may be blowing: its LC_ADVANCE is posted, and Oasis carries it out (R548, R549, 20 R672) (log 104, DEDUCED). -/
def fuseNext (s : Dev) (w : Nat) : Bool :=
  s.pwr.held == 0 && s.oasis.fw.isSome && !(restarting s) &&
    (rangeFrom 256 17).any (fun m =>
      (mbox s m).posted && mboxCode s m == 0x0220 && mboxKnows m 0x0220 && (mboxArg s m 1).toNat == w + 1 && lcVerdict s m == ST_OK)

/-- A transition's blow of a fuse word is cut short: the bits that were blown stay blown (R547). Word 0 is W1. -/
def cutFuse (s : Dev) (w : Nat) (bits : Nat) : Dev :=
  let o := s.oasis
  match w with
  | 0 => { s with oasis := { o with w1 := Nat.lor o.w1 bits } }
  | 1 => { s with oasis := { o with w2 := Nat.lor o.w2 bits } }
  | _ => { s with oasis := { o with w3 := Nat.lor o.w3 bits } }

/-- The copy of the oldest waiting record is cut short after `done` bytes of its page: the slot holds the whole record, or none (15 R578) (log 67, DESIGN CHOICE). -/
def cutCopy (s : Dev) (done : Nat) : Dev :=
  match s.smp.ram.find? (fun r => r.flashPend) with
  | none => s
  | some r =>
    if (s.smp.flash.getLast?.map (·.length)).getD 0 = 16 ∧ 896 ≤ s.smp.flash.length then s
    else
      match flashSlot (flashSev r) (if (recordBytes r).length ≤ done then some { r with flashPend := false } else none) s.smp.flash with
      | some l => { s with smp := { s.smp with flash := l } }
      | none => s

/-- A slot of a sector whose erase is cut short: its record is still whole, or absent (15 R578), freely. -/
def cutSlot (x : List (Option SRec) × Dev) (r : Option SRec) : List (Option SRec) × Dev :=
  let f := drawFree x.2
  (x.1 ++ [if nbit f.1.toNat 0 then r else none], f.2)

/-- The sectors with the first that yields to a record of severity `sev` cut in its erase (log 67, DESIGN CHOICE). -/
def cutSectors (s : Dev) (sev : Nat) : List (List (Option SRec)) → List (List (Option SRec)) × Dev
  | [] => ([], s)
  | x :: xs =>
    if sectorYields sev x then let c := x.foldl cutSlot ([], s); (c.1 :: xs, c.2)
    else let r := cutSectors s sev xs; (x :: r.1, r.2)

/-- The erase that makes room for the oldest waiting record is cut short (R513, 15 R577, R578). -/
def cutStoreErase (s : Dev) : Dev :=
  match s.smp.ram.find? (fun r => r.flashPend) with
  | none => s
  | some r =>
    if (s.smp.flash.getLast?.map (·.length)).getD 0 = 16 ∧ 896 ≤ s.smp.flash.length then
      let c := cutSectors s (flashSev r) s.smp.flash
      { c.2 with smp := { c.2.smp with flash := c.1 } }
    else s

/-- The last repair record is torn where its page is the one cut before its end (15 R569) (log 67, DESIGN CHOICE). -/
def cutRepair (s : Dev) (page done : Nat) : Dev :=
  let n := s.smp.repairs.length
  let a := 0x1F83000 + 32 * (n - 1)
  if n = 0 ∨ a / 256 ≠ page ∨ a % 256 + 32 ≤ done then s
  else { s with smp := { s.smp with repairs := s.smp.repairs.dropLast ++ (s.smp.repairs.getLast?.map (fun r => { r with whole := false })).toList } }

/-- The last entry of the time log is torn where its page is the one cut before its end: its CRC-8 fails (15 R580). -/
def cutTime (s : Dev) (page done : Nat) : Dev :=
  let n := s.smp.timeLog.length
  let a := 8 * ((n - 1) % 512)
  if n = 0 ∨ a / 256 ≠ page % 16 ∨ a % 256 + 8 ≤ done then s
  else { s with smp := { s.smp with timeLog := s.smp.timeLog.dropLast } }

/-- A page program that is cut short, by the region of its page (R510): Sampler, time log, repair records; the device identity is never written. -/
def cutPage (s : Dev) (page done : Nat) (bs : List Byte) : Dev :=
  if page < 0x1C000 then (if flashIdle s (256 * page) then cutProgram s (256 * page) done 0 (bs.take 256) else s)
  else if page < 0x1F800 then cutCopy s done
  else if page < 0x1F810 then s
  else if page < 0x1F830 then cutTime s page done
  else cutRepair s page done

/-- What a power failure leaves of the flash or fuse operation under way. A sector cut during its erase reads freely until it is erased (R513) (log 67, DESIGN CHOICE). -/
def flashCut (s : Dev) : FlashCut → Dev
  | .fuse w bits => if fuseNext s w.val then cutFuse s w.val bits.toNat else s
  | .program page bs done => cutPage s page.val done.val bs
  | .erase sector =>
    if 0x1C00 ≤ sector.val ∧ sector.val < 0x1F80 then cutStoreErase s
    else if flashIdle s (4096 * sector.val) then (rangeFrom (4096 * sector.val) 4096).foldl (fun s a => flashSet s a 0x00 true) s
    else s

/-- POWER_FAIL (R641): the device stops; the flash, the fuses and the key store stay. -/
def powerFail (s : Dev) (cut : Option FlashCut) : Dev :=
  let s1 := match cut with | some c => flashCut s c | none => s
  let z := powerOnReset s1
  { z with pwr := { z.pwr with held := 4 }, doms := mset domReset [] 79 0 }
def execPowerFail (cut : Option FlashCut) (s : State) : Host.Outcome State Fault Refusal := onDev s (fun d => powerFail d cut)

end Sys2Proof.Machine
end

