-- ==== Sys2Proof/Machine/Ptp.lean ====
section
/-! DEFINITION. Ptp: IEEE 802.1AS in Oasis firmware (05 R190, R191) and the servo of device time (04 R115). -/
namespace Sys2Proof.Machine

/-! ## Messages (log 75, PRESUMED) -/

/-- A received or transmitted message: its header fields, what follows the header, and the timestamp of its first bit. -/
structure PtpMsg where
  kind : Nat
  dom : Nat
  seq : Nat
  twoStep : Bool
  /-- correctionField in whole ns -/
  corr : Int
  /-- sourcePortIdentity -/
  source : List Byte
  body : List Byte
  at_ : Nat
deriving DecidableEq, Repr

/-- Reads a frame (DA onwards) as IEEE 802.1AS lays out its messages (log 75, PRESUMED). -/
def ptpMsg (at_ : Nat) (b : List Byte) : PtpMsg :=
  let h := b.drop 14
  { kind := byteAt h 0 % 16, dom := byteAt h 4, seq := be16 h 30, twoStep := nbit (byteAt h 6) 1,
    corr := toSigned 64 (beNat ((h.drop 8).take 8)) / 65536, source := (h.drop 20).take 10, body := h.drop 34, at_ := at_ }

/-- A timestamp: seconds and nanoseconds. -/
def stampNs (b : List Byte) : Nat := beNat (b.take 6) * oneSecond + beNat ((b.drop 6).take 4)
def stampBytes (n : Nat) : List Byte := beBytes 6 (n / oneSecond) ++ beBytes 4 (n % oneSecond)

def portIdentity (p : Nat) : List Byte := beBytes 8 Config.clockIdentity ++ beBytes 2 (p + 1)

/-- A message as port `p` sends it (log 75, PRESUMED). -/
def ptpFrame (p kind domain seq : Nat) (twoStep : Bool) (interval : Nat) (rest : List Byte) : List Byte :=
  beBytes 6 0x0180C200000E ++ beBytes 6 (Config.portMac p) ++ beBytes 2 0x88F7 ++
    (beBytes 1 (0x10 + kind) ++ beBytes 1 0x12 ++ beBytes 2 (34 + rest.length) ++ beBytes 1 domain ++ beBytes 1 0 ++
      beBytes 2 (if twoStep then 0x0208 else 0x0008) ++ beBytes 12 0 ++ portIdentity p ++ beBytes 2 seq ++ beBytes 1 0 ++ beBytes 1 interval) ++ rest

/-! ## Domains and links -/

def domNumber (s : Dev) (d : Nat) : Nat := if d = 0 then fget s SW_PTP SW_PTP_DOM0 else fget s SW_PTP SW_PTP_DOM1
def ptpDomain (s : Dev) (d : Nat) : PtpDomain := mget (fun _ => {}) s.erg.ptpDoms d
def setPtpDomain (s : Dev) (d : Nat) (x : PtpDomain) : Dev := modErg s (fun e => { e with ptpDoms := mset (fun _ => {}) e.ptpDoms d x })
def ptpLink (s : Dev) (p : Nat) : PtpLink := mget (fun _ => {}) s.erg.ptpLinks p
def setPtpLink (s : Dev) (p : Nat) (x : PtpLink) : Dev := modErg s (fun e => { e with ptpLinks := mset (fun _ => {}) e.ptpLinks p x })

/-- Time of a domain at device time `t`: an offset and a rate against device time (R191). -/
def domainTime (x : PtpDomain) (t : Nat) : Int := (t : Int) + x.offset + x.rate * ((t : Int) - x.at_) / 1000000000

/-- The domain's time `now` at device time `rx`: a Sync of the slave port, with its origin time, has been taken up. -/
def syncTaken (s : Dev) (d p rx : Nat) (origin : Int) : Dev :=
  let x := ptpDomain s d
  if x.slave ≠ some p then s
  else
    let now := origin + fget s (PORT_PTP p) PORT_PTP_PDELAY
    let rate : Int := match x.synced with
      | some (r0, t0) => if r0 < rx then ((now - t0) - ((rx : Int) - r0)) * 1000000000 / ((rx : Int) - r0) else x.rate
      | none => 0
    setPtpDomain s d { x with offset := now - rx, rate := rate, at_ := rx, synced := some (rx, now) }

/-- Priority vector of this device as a grandmaster (SW_PTP.GM_CAP). -/
def ownVector (s : Dev) : Option Nat := if fbit s SW_PTP SW_PTP_GM_CAP then some (Config.ptpPriority * 2 ^ 16) else none

/-- The port with the smallest vector among those heard, the lowest port first. -/
def smallest : List (Nat × Nat) → Option (Nat × Nat)
  | [] => none
  | e :: es =>
    match smallest es with
    | some b => if b.2 < e.2 then some b else some e
    | none => some e

/-- Announces that ports hold: (port, vector with its source identity). -/
def announces (x : PtpDomain) : List (Nat × Nat) := x.heardOn.filterMap (fun e => e.2.map (fun a => (e.1, a.1)))

/-- Best-master selection: the smallest vector heard on any port wins, unless this device's own is smaller. -/
def selectMaster (s : Dev) (d : Nat) : Dev :=
  let x := ptpDomain s d
  let win : Option (Nat × Nat) := match smallest (announces x) with
    | some (p, k) => if (ownVector s).all (fun b => decide (k / 2 ^ 80 < b)) then some (p, k / 2 ^ 80) else none
    | none => none
  let slave : Option Nat := win.map (·.1)
  setPtpDomain s d { x with best := win.map (·.2), slave := slave, synced := if x.slave = slave then x.synced else none }

/-- An Announce is taken up on its port; one that this device sent itself is none (log 75, PRESUMED). -/
def announceTaken (s : Dev) (d p vec : Nat) (source : List Byte) : Dev :=
  if source.take 8 = beBytes 8 Config.clockIdentity then s
  else
    let x := ptpDomain s d
    selectMaster (setPtpDomain s d { x with heardOn := mset (fun _ => none) x.heardOn p (some (vec * 2 ^ 80 + beNat source, nowNs s)) }) d

/-- A master that has not been heard for three seconds is forgotten. -/
def announceAge (s : Dev) (d : Nat) : Dev :=
  let x := ptpDomain s d
  selectMaster (setPtpDomain s d { x with heardOn := x.heardOn.filter (fun e => e.2.all (fun a => decide (nowNs s ≤ a.2 + 3 * oneSecond))) }) d

/-- The mean link delay of a finished exchange, with the neighbour's rate from the exchange before it; PORT_PTP.PDELAY saturates (R191). -/
def peerDelay (s : Dev) (p t1 t2 t3 t4 : Nat) : Dev :=
  let l := ptpLink s p
  let turn : Int := match l.last with
    | some (u3, u4) => if u4 < t4 then ((t4 : Int) - t1) * ((t3 : Int) - u3) / ((t4 : Int) - u4) else (t4 : Int) - t1
    | none => (t4 : Int) - t1
  let d := ((turn - ((t3 : Int) - t2)) / 2).toNat
  fset (setPtpLink s p { l with resp := none, last := some (t3, t4) }) (PORT_PTP p) PORT_PTP_PDELAY (min d 0xFFFF)

/-- Oasis takes up a message of domain `d` that arrived on port `p`; a Pdelay_Resp answers the identity that asked, and counts only for this port's own; both one-step and two-step Sync are received (R191). -/
def ptpTake (d p : Nat) (s : Dev) (m : PtpMsg) : Dev :=
  let l := ptpLink s p
  let asked := (m.body.drop 10).take 10 == portIdentity p
  match m.kind with
  | 0 => if m.twoStep then setPtpLink s p { l with sync := some (m.dom, m.seq, m.at_) } else syncTaken s d p m.at_ (stampNs m.body + m.corr)
  | 2 => handToPort s p 7 (ptpFrame p 3 m.dom m.seq true 0x7F (stampBytes m.at_ ++ m.source))
  | 3 => if asked then setPtpLink s p { l with resp := some (m.seq, stampNs m.body, m.at_) } else s
  | 8 =>
    match l.sync with
    | some (dom, seq, rx) => if dom = m.dom ∧ seq = m.seq then syncTaken (setPtpLink s p { l with sync := none }) d p rx (stampNs m.body + m.corr) else s
    | none => s
  | 10 =>
    match l.resp, s.erg.ptpTx.find? (fun x => x.1 == p && (ptpMsg x.2.1 x.2.2).kind == 2 && (ptpMsg x.2.1 x.2.2).seq == m.seq) with
    | some (seq, t2, t4), some (_, t1, _) => if seq = m.seq ∧ asked then peerDelay s p t1 t2 (stampNs m.body) t4 else s
    | _, _ => s
  | 11 => announceTaken s d p (beNat ((m.body.drop 13).take 14) * 2 ^ 16 + beNat ((m.body.drop 27).take 2)) m.source
  | _ => s

/-- The follow-up of a transmitted Sync or Pdelay_Resp, with the timestamp of its first bit (two-step transmission). -/
def ptpFollow (d p interval : Nat) (s : Dev) (m : PtpMsg) : Dev :=
  match m.kind with
  | 0 =>
    handToPort s p 7 (ptpFrame p 8 m.dom m.seq false interval
      (stampBytes (domainTime (ptpDomain s d) m.at_).toNat ++ (beBytes 2 3 ++ beBytes 2 28 ++ beBytes 3 0x0080C2 ++ beBytes 3 1 ++ beBytes 22 0)))
  | 3 => handToPort s p 7 (ptpFrame p 10 m.dom m.seq false 0x7F (stampBytes m.at_ ++ (m.body.drop 10).take 10))
  | _ => s

/-- Whether a port is passive: it hears a vector better than the one this device would send there. -/
def passivePort (x : PtpDomain) (p v : Nat) : Bool :=
  match mget (fun _ => none) x.heardOn p with
  | some a => decide (a.1 < v * 2 ^ 80 + beNat (portIdentity p))
  | none => false

/-- Announce and Sync, as a master port sends them: any but the slave port and passive ones, where there is a grandmaster. -/
def ptpMaster (s : Dev) (d p interval : Nat) : Dev :=
  let x := ptpDomain s d
  let vec := match x.best with | some v => some (v + 1) | none => ownVector s
  match vec with
  | none => s
  | some v =>
    if x.slave = some p ∨ passivePort x p v then s
    else
      let n := domNumber s d
      let seq := (x.seq + 1) % 65536
      let announce := beBytes 13 0 ++ beBytes 14 (v / 2 ^ 16) ++ beBytes 2 (v % 2 ^ 16) ++ beBytes 1 0xA0 ++ (beBytes 2 8 ++ beBytes 2 8 ++ beBytes 8 Config.clockIdentity)
      handToPort (handToPort (setPtpDomain s d { x with seq := seq }) p 7 (ptpFrame p 11 n seq false 0 announce)) p 7 (ptpFrame p 0 n seq true interval (beBytes 10 0))

/-- Pdelay_Req, with the next sequence number of the link. -/
def ptpRequest (s : Dev) (d p : Nat) : Dev :=
  let l := ptpLink s p
  let seq := (l.seq + 1) % 65536
  handToPort (setPtpLink s p { l with seq := seq }) p 7 (ptpFrame p 2 (domNumber s d) seq false 0 (beBytes 20 0))

/-! ## The servo (04 R115) -/

/-- The servo of the selected domain corrects device time: by rate, or by a step, which is slewed at the limit while a class is enabled or where it would go backwards (04 R114, R115) (log 74, DEDUCED). -/
def servoApply (s : Dev) (v : Servo) : Dev :=
  match v with
  | .rate r =>
    fset (fset { s with rate := clipRate s r } CYC_TIME_STATUS CYC_TIME_STATUS_STEP_DEFERRED 0) CYC_TIME_STATUS CYC_TIME_STATUS_STATE 1
  | .step n =>
    let s1 := fset s CYC_TIME_STATUS CYC_TIME_STATUS_OFFSET (ofSigned 32 (max (-(2 ^ 31)) (min n (2 ^ 31 - 1))))
    if !(anyClassOn s) && decide (0 ≤ n) then
      fset (fset { s1 with time := s1.time + nsUnits n.toNat } CYC_TIME_STATUS CYC_TIME_STATUS_STEP_DEFERRED 0) CYC_TIME_STATUS CYC_TIME_STATUS_STATE 1
    else
      fset (fset { s1 with rate := if n < 0 then -(slewLimit s) else slewLimit s } CYC_TIME_STATUS CYC_TIME_STATUS_STEP_DEFERRED 1)
        CYC_TIME_STATUS CYC_TIME_STATUS_STATE 2

/-- Messages of a domain on a port, in a list of timestamped frames. -/
def ptpOf (n p : Nat) (l : List (Nat × Nat × List Byte)) : List PtpMsg :=
  (l.filterMap (fun x => if x.1 = p then some (ptpMsg x.2.1 x.2.2) else none)).filter (fun m => m.dom == n)

/-- SYNC_INTERVAL (05 R191): Oasis firmware takes up what arrived of domain `d` on an enabled port, follows up what left there, and sends Announce, Sync and Pdelay_Req; its servo disciplines device time in the selected domain once that is in sync (04 R115) (log 75, PRESUMED). `interval` is the log sync interval, −7 to 0 (log 74, DEDUCED). -/
def syncInterval (s : Dev) (d p interval : Nat) (servo : Option Servo) : Dev :=
  if restarting s || s.pwr.held != 0 || !(fbit s (PORT_PTP p) (if d = 0 then PORT_PTP_DOM0_EN else PORT_PTP_DOM1_EN)) || !(linkUp s p) then s
  else
    let n := domNumber s d
    let rx := ptpOf n p s.erg.ptpRx
    let tx := ptpOf n p s.erg.ptpTx
    let keepTx (x : Nat × Nat × List Byte) : Bool :=
      let m := ptpMsg x.2.1 x.2.2
      x.1 != p || m.dom != n || (m.kind == 2 && m.seq == (ptpLink s p).seq)
    let s1 := rx.foldl (ptpTake d p) (announceAge s d)
    let s2 := tx.foldl (ptpFollow d p interval) s1
    let s3 := modErg s2 (fun e => { e with
      ptpRx := e.ptpRx.filter (fun x => x.1 != p || (ptpMsg x.2.1 x.2.2).dom != n), ptpTx := e.ptpTx.filter keepTx })
    let s4 := ptpRequest (ptpMaster s3 d p interval) d p
    match servo with
    | some v => if fget s4 CYC_CTRL CYC_CTRL_TSRC = d ∧ (ptpDomain s4 d).synced.isSome then servoApply s4 v else s4
    | none => s4

/-- SYNC_INTERVAL (05 R191): the log sync interval is −`back`. -/
def execSyncInterval (dom : Fin 2) (p : PortId) (back : Fin 8) (decides step : Bool) (n : Int) (s : State) : Host.Outcome State Fault Refusal :=
  onDev s (fun d => syncInterval d dom.val p.val ((256 - back.val) % 256) (if decides then some (if step then .step n else .rate n) else none))

end Sys2Proof.Machine
end

