-- ==== Sys2Proof/Machine/Dispatch.lean ====
section
/-! DEFINITION. Dispatch: one arm per command, each one call of its meaning. -/
namespace Sys2Proof.Machine

/-- The effect of a command on everything but the queue (log 1, DESIGN CHOICE). -/
def exec (i : Instr) (s : State) : Host.Outcome State Fault Refusal :=
  match i with
  | .registerWrite who off v => Sys2Proof.Machine.execRegisterWrite who off v s
  | .creditReturn q => Sys2Proof.Machine.execCreditReturn q s
  | .queueStarved q => Sys2Proof.Machine.execQueueStarved q s
  | .creditDepthWrite q depth => Sys2Proof.Machine.execCreditDepthWrite q depth s
  | .bankRequest t => Sys2Proof.Machine.execBankRequest t s
  | .bankGrant x => Sys2Proof.Machine.execBankGrant x s
  | .handoverStart who n next => Sys2Proof.Machine.execHandoverStart who n next s
  | .handoverEnd n => Sys2Proof.Machine.execHandoverEnd n s
  | .bankClear n => Sys2Proof.Machine.execBankClear n s
  | .bankClearDone n => Sys2Proof.Machine.execBankClearDone n s
  | .pairEnable who k => Sys2Proof.Machine.execPairEnable who k s
  | .pairDisable who k => Sys2Proof.Machine.execPairDisable who k s
  | .pairInitDone k => Sys2Proof.Machine.execPairInitDone k s
  | .ltRead k line => Sys2Proof.Machine.execLtRead k line s
  | .ltWrite k line => Sys2Proof.Machine.execLtWrite k line s
  | .abandon who k a regions stamp => Sys2Proof.Machine.execAbandon who k a regions stamp s
  | .sweeperVisit k n => Sys2Proof.Machine.execSweeperVisit k n s
  | .abandonSweepDone k a => Sys2Proof.Machine.execAbandonSweepDone k a s
  | .classBoundary c => Sys2Proof.Machine.execClassBoundary c s
  | .classEnable c => Sys2Proof.Machine.execClassEnable c s
  | .classDisable c => Sys2Proof.Machine.execClassDisable c s
  | .releaseAction c e => Sys2Proof.Machine.execReleaseAction c e s
  | .inputDeadline c e => Sys2Proof.Machine.execInputDeadline c e s
  | .agreeAction c e => Sys2Proof.Machine.execAgreeAction c e s
  | .gatherStart c e => Sys2Proof.Machine.execGatherStart c e s
  | .digestAction c e => Sys2Proof.Machine.execDigestAction c e s
  | .sampleAction c e n => Sys2Proof.Machine.execSampleAction c e n s
  | .eventAction c e => Sys2Proof.Machine.execEventAction c e s
  | .markAction c e => Sys2Proof.Machine.execMarkAction c e s
  | .holdover => Sys2Proof.Machine.execHoldover s
  | .scatter k x => Sys2Proof.Machine.execScatter k x s
  | .gatherStream k c => Sys2Proof.Machine.execGatherStream k c s
  | .gatherHandover k => Sys2Proof.Machine.execGatherHandover k s
  | .rateLimitFlush block inst code => Sys2Proof.Machine.execRateLimitFlush block inst code s
  | .cycTblRead table index => Sys2Proof.Machine.execCycTblRead table index s
  | .cycTblWrite table index => Sys2Proof.Machine.execCycTblWrite table index s
  | .cycTime who => Sys2Proof.Machine.execCycTime who s
  | .frameRxStart p express frame => Sys2Proof.Machine.execFrameRxStart p express frame s
  | .frameRxEnd p express x => Sys2Proof.Machine.execFrameRxEnd p express x s
  | .frameTxStart p => Sys2Proof.Machine.execFrameTxStart p s
  | .frameTxDone p => Sys2Proof.Machine.execFrameTxDone p s
  | .fdbAgeing index => Sys2Proof.Machine.execFdbAgeing index s
  | .recoveryReset handle => Sys2Proof.Machine.execRecoveryReset handle s
  | .gateChange p => Sys2Proof.Machine.execGateChange p s
  | .gateConfigChange p => Sys2Proof.Machine.execGateConfigChange p s
  | .gateOperation p => Sys2Proof.Machine.execGateOperation p s
  | .gateListRead p list entry => Sys2Proof.Machine.execGateListRead p list entry s
  | .gateListWrite p list entry => Sys2Proof.Machine.execGateListWrite p list entry s
  | .preemptVerifyDone p ok => Sys2Proof.Machine.execPreemptVerifyDone p ok s
  | .autoNegotiationDone p ability x => Sys2Proof.Machine.execAutoNegotiationDone p ability x s
  | .linkDown x => Sys2Proof.Machine.execLinkDown x s
  | .linkUp p => Sys2Proof.Machine.execLinkUp p s
  | .portEn who p on => Sys2Proof.Machine.execPortEn who p on s
  | .swTblRead table index => Sys2Proof.Machine.execSwTblRead table index s
  | .swTblWrite table index => Sys2Proof.Machine.execSwTblWrite table index s
  | .fdbInsert table => Sys2Proof.Machine.execFdbInsert table s
  | .fdbDelete table => Sys2Proof.Machine.execFdbDelete table s
  | .pcieInboundRequest r write addr n data => Sys2Proof.Machine.execPcieInboundRequest r write addr n data s
  | .completionTimeout r => Sys2Proof.Machine.execCompletionTimeout r s
  | .pcieLinkDown x => Sys2Proof.Machine.execPcieLinkDown x s
  | .perstRelease r => Sys2Proof.Machine.execPerstRelease r s
  | .doorbell ix v => Sys2Proof.Machine.execDoorbell ix v s
  | .piTxDescriptor ix q slow => Sys2Proof.Machine.execPiTxDescriptor ix q slow s
  | .staleDataReturn ix => Sys2Proof.Machine.execStaleDataReturn ix s
  | .piQpRead ix q word => Sys2Proof.Machine.execPiQpRead ix q word s
  | .piQpWrite ix q word => Sys2Proof.Machine.execPiQpWrite ix q word s
  | .instanceReset ix => Sys2Proof.Machine.execInstanceReset ix s
  | .instanceResetComplete ix => Sys2Proof.Machine.execInstanceResetComplete ix s
  | .resetWaitTimeout ix => Sys2Proof.Machine.execResetWaitTimeout ix s
  | .mboxSend m => Sys2Proof.Machine.execMboxSend m s
  | .mailboxResponse m => Sys2Proof.Machine.execMailboxResponse m s
  | .mboxInAck m => Sys2Proof.Machine.execMboxInAck m s
  | .mboxData m w => Sys2Proof.Machine.execMboxData m w s
  | .getInfo ix => Sys2Proof.Machine.execGetInfo ix s
  | .setMac ix => Sys2Proof.Machine.execSetMac ix s
  | .setVlans ix => Sys2Proof.Machine.execSetVlans ix s
  | .setFlood ix => Sys2Proof.Machine.execSetFlood ix s
  | .setSteer ix => Sys2Proof.Machine.execSetSteer ix s
  | .tenantReset ix => Sys2Proof.Machine.execTenantReset ix s
  | .ackNotice ix => Sys2Proof.Machine.execAckNotice ix s
  | .piCreate m => Sys2Proof.Machine.execPiCreate m s
  | .piResize m => Sys2Proof.Machine.execPiResize m s
  | .piPolicy m => Sys2Proof.Machine.execPiPolicy m s
  | .piRemove m => Sys2Proof.Machine.execPiRemove m s
  | .piMigrate m => Sys2Proof.Machine.execPiMigrate m s
  | .noticeDeadline ix => Sys2Proof.Machine.execNoticeDeadline ix s
  | .twinEnable who on => Sys2Proof.Machine.execTwinEnable who on s
  | .heartbeatSend => Sys2Proof.Machine.execHeartbeatSend s
  | .heartbeat at_ m delay skew => Sys2Proof.Machine.execHeartbeat at_ m delay skew s
  | .arrivalMap at_ m => Sys2Proof.Machine.execArrivalMap at_ m s
  | .frameFill at_ m => Sys2Proof.Machine.execFrameFill at_ m s
  | .digestMessage at_ m => Sys2Proof.Machine.execDigestMessage at_ m s
  | .journalMsg at_ m => Sys2Proof.Machine.execJournalMsg at_ m s
  | .stateCopy at_ m => Sys2Proof.Machine.execStateCopy at_ m s
  | .linkLost => Sys2Proof.Machine.execLinkLost s
  | .pathLost j => Sys2Proof.Machine.execPathLost j s
  | .twinLaneDown l => Sys2Proof.Machine.execTwinLaneDown l s
  | .agreementWindowEnd c => Sys2Proof.Machine.execAgreementWindowEnd c s
  | .digestDone c k => Sys2Proof.Machine.execDigestDone c k s
  | .digestMissed c k => Sys2Proof.Machine.execDigestMissed c k s
  | .journalSubmit v => Sys2Proof.Machine.execJournalSubmit v s
  | .twinJoin => Sys2Proof.Machine.execTwinJoin s
  | .twinLeave => Sys2Proof.Machine.execTwinLeave s
  | .twinSwap => Sys2Proof.Machine.execTwinSwap s
  | .twinColdStart => Sys2Proof.Machine.execTwinColdStart s
  | .twinStart => Sys2Proof.Machine.execTwinStart s
  | .swapTimeout => Sys2Proof.Machine.execSwapTimeout s
  | .copyRound => Sys2Proof.Machine.execCopyRound s
  | .freezeTimeout => Sys2Proof.Machine.execFreezeTimeout s
  | .twinTblRead table index => Sys2Proof.Machine.execTwinTblRead table index s
  | .twinTblWrite table index => Sys2Proof.Machine.execTwinTblWrite table index s
  | .histEnable who => Sys2Proof.Machine.execHistEnable who s
  | .histDisable who => Sys2Proof.Machine.execHistDisable who s
  | .histRestart drives => Sys2Proof.Machine.execHistRestart drives s
  | .histShutdownDone => Sys2Proof.Machine.execHistShutdownDone s
  | .sealTimer => Sys2Proof.Machine.execSealTimer s
  | .segmentWrite => Sys2Proof.Machine.execSegmentWrite s
  | .nvmeCompletion ix j n ok => Sys2Proof.Machine.execNvmeCompletion ix j n ok s
  | .nvmeTimeout ix j n => Sys2Proof.Machine.execNvmeTimeout ix j n s
  | .superblockTimer => Sys2Proof.Machine.execSuperblockTimer s
  | .histCq tail => Sys2Proof.Machine.execHistCq tail s
  | .histRecord => Sys2Proof.Machine.execHistRecord s
  | .histBulk => Sys2Proof.Machine.execHistBulk s
  | .histQuery => Sys2Proof.Machine.execHistQuery s
  | .histQueryBulk => Sys2Proof.Machine.execHistQueryBulk s
  | .histQueryComplete slot failed => Sys2Proof.Machine.execHistQueryComplete slot failed s
  | .histSync => Sys2Proof.Machine.execHistSync s
  | .histInfo => Sys2Proof.Machine.execHistInfo s
  | .histTblRead table index => Sys2Proof.Machine.execHistTblRead table index s
  | .histTblWrite table index => Sys2Proof.Machine.execHistTblWrite table index s
  | .storeDrain x => Sys2Proof.Machine.execStoreDrain x s
  | .uncachedResponse t data fail => Sys2Proof.Machine.execUncachedResponse t data fail s
  | .loadReturn t n => Sys2Proof.Machine.execLoadReturn t n s
  | .cycleEnd t => Sys2Proof.Machine.execCycleEnd t s
  | .twaitExpiry t => Sys2Proof.Machine.execTwaitExpiry t s
  | .add t rd rs1 rs2 => Sys2Proof.Machine.execAdd t rd rs1 rs2 s
  | .sub t rd rs1 rs2 => Sys2Proof.Machine.execSub t rd rs1 rs2 s
  | .addc t rd rs1 rs2 => Sys2Proof.Machine.execAddc t rd rs1 rs2 s
  | .subc t rd rs1 rs2 => Sys2Proof.Machine.execSubc t rd rs1 rs2 s
  | .and t rd rs1 rs2 => Sys2Proof.Machine.execAnd t rd rs1 rs2 s
  | .or t rd rs1 rs2 => Sys2Proof.Machine.execOr t rd rs1 rs2 s
  | .xor t rd rs1 rs2 => Sys2Proof.Machine.execXor t rd rs1 rs2 s
  | .andn t rd rs1 rs2 => Sys2Proof.Machine.execAndn t rd rs1 rs2 s
  | .shl t rd rs1 rs2 => Sys2Proof.Machine.execShl t rd rs1 rs2 s
  | .shr t rd rs1 rs2 => Sys2Proof.Machine.execShr t rd rs1 rs2 s
  | .shra t rd rs1 rs2 => Sys2Proof.Machine.execShra t rd rs1 rs2 s
  | .less t rd rs1 rs2 => Sys2Proof.Machine.execLess t rd rs1 rs2 s
  | .lessu t rd rs1 rs2 => Sys2Proof.Machine.execLessu t rd rs1 rs2 s
  | .same t rd rs1 rs2 => Sys2Proof.Machine.execSame t rd rs1 rs2 s
  | .min t rd rs1 rs2 => Sys2Proof.Machine.execMin t rd rs1 rs2 s
  | .max t rd rs1 rs2 => Sys2Proof.Machine.execMax t rd rs1 rs2 s
  | .mul t rd rs1 rs2 => Sys2Proof.Machine.execMul t rd rs1 rs2 s
  | .mulhi t rd rs1 rs2 => Sys2Proof.Machine.execMulhi t rd rs1 rs2 s
  | .mulhiu t rd rs1 rs2 => Sys2Proof.Machine.execMulhiu t rd rs1 rs2 s
  | .mulc t rd rs1 rs2 => Sys2Proof.Machine.execMulc t rd rs1 rs2 s
  | .quot t rd rs1 rs2 => Sys2Proof.Machine.execQuot t rd rs1 rs2 s
  | .quotu t rd rs1 rs2 => Sys2Proof.Machine.execQuotu t rd rs1 rs2 s
  | .rmdr t rd rs1 rs2 => Sys2Proof.Machine.execRmdr t rd rs1 rs2 s
  | .rmdru t rd rs1 rs2 => Sys2Proof.Machine.execRmdru t rd rs1 rs2 s
  | .clz t rd rs1 => Sys2Proof.Machine.execClz t rd rs1 s
  | .popc t rd rs1 => Sys2Proof.Machine.execPopc t rd rs1 s
  | .mov t rd rs1 => Sys2Proof.Machine.execMov t rd rs1 s
  | .sel t rd rs1 rs2 rs3 => Sys2Proof.Machine.execSel t rd rs1 rs2 rs3 s
  | .addi t rd rs1 imm => Sys2Proof.Machine.execAddi t rd rs1 imm s
  | .andi t rd rs1 imm => Sys2Proof.Machine.execAndi t rd rs1 imm s
  | .ori t rd rs1 imm => Sys2Proof.Machine.execOri t rd rs1 imm s
  | .xori t rd rs1 imm => Sys2Proof.Machine.execXori t rd rs1 imm s
  | .lessi t rd rs1 imm => Sys2Proof.Machine.execLessi t rd rs1 imm s
  | .lessui t rd rs1 imm => Sys2Proof.Machine.execLessui t rd rs1 imm s
  | .shli t rd rs1 sh => Sys2Proof.Machine.execShli t rd rs1 sh s
  | .shri t rd rs1 sh => Sys2Proof.Machine.execShri t rd rs1 sh s
  | .shrai t rd rs1 sh => Sys2Proof.Machine.execShrai t rd rs1 sh s
  | .fadd t f rd rs1 rs2 => Sys2Proof.Machine.execFadd t f rd rs1 rs2 s
  | .fsub t f rd rs1 rs2 => Sys2Proof.Machine.execFsub t f rd rs1 rs2 s
  | .fmul t f rd rs1 rs2 => Sys2Proof.Machine.execFmul t f rd rs1 rs2 s
  | .fdiv t f rd rs1 rs2 => Sys2Proof.Machine.execFdiv t f rd rs1 rs2 s
  | .fsqrt t f rd rs1 => Sys2Proof.Machine.execFsqrt t f rd rs1 s
  | .fmac t f rd rs1 rs2 rs3 => Sys2Proof.Machine.execFmac t f rd rs1 rs2 rs3 s
  | .fmsc t f rd rs1 rs2 rs3 => Sys2Proof.Machine.execFmsc t f rd rs1 rs2 rs3 s
  | .fmin t f rd rs1 rs2 => Sys2Proof.Machine.execFmin t f rd rs1 rs2 s
  | .fmax t f rd rs1 rs2 => Sys2Proof.Machine.execFmax t f rd rs1 rs2 s
  | .fneg t f rd rs1 => Sys2Proof.Machine.execFneg t f rd rs1 s
  | .fabs t f rd rs1 => Sys2Proof.Machine.execFabs t f rd rs1 s
  | .fsame t f rd rs1 rs2 => Sys2Proof.Machine.execFsame t f rd rs1 rs2 s
  | .fless t f rd rs1 rs2 => Sys2Proof.Machine.execFless t f rd rs1 rs2 s
  | .flesseq t f rd rs1 rs2 => Sys2Proof.Machine.execFlesseq t f rd rs1 rs2 s
  | .ftoi t f rd rs1 => Sys2Proof.Machine.execFtoi t f rd rs1 s
  | .itof t f rd rs1 => Sys2Proof.Machine.execItof t f rd rs1 s
  | .fwiden t rd rs1 => Sys2Proof.Machine.execFwiden t rd rs1 s
  | .fnarrow t rd rs1 => Sys2Proof.Machine.execFnarrow t rd rs1 s
  | .qget t rd rs1 => Sys2Proof.Machine.execQget t rd rs1 s
  | .qset t rd rs1 rs2 => Sys2Proof.Machine.execQset t rd rs1 rs2 s
  | .qmin t rd rs1 rs2 => Sys2Proof.Machine.execQmin t rd rs1 rs2 s
  | .qseti t rd rs1 tag => Sys2Proof.Machine.execQseti t rd rs1 tag s
  | .qtest t rd rs1 mask => Sys2Proof.Machine.execQtest t rd rs1 mask s
  | .qmode t rd mode => Sys2Proof.Machine.execQmode t rd mode s
  | .ld t rd rs1 off => Sys2Proof.Machine.execLd t rd rs1 off s
  | .ldv t rd rs1 off => Sys2Proof.Machine.execLdv t rd rs1 off s
  | .ldb t rd rs1 off => Sys2Proof.Machine.execLdb t rd rs1 off s
  | .ldbu t rd rs1 off => Sys2Proof.Machine.execLdbu t rd rs1 off s
  | .ldh t rd rs1 off => Sys2Proof.Machine.execLdh t rd rs1 off s
  | .ldhu t rd rs1 off => Sys2Proof.Machine.execLdhu t rd rs1 off s
  | .ldw t rd rs1 off => Sys2Proof.Machine.execLdw t rd rs1 off s
  | .ldwu t rd rs1 off => Sys2Proof.Machine.execLdwu t rd rs1 off s
  | .st t rs2 rs1 off => Sys2Proof.Machine.execSt t rs2 rs1 off s
  | .stv t rs2 rs1 off => Sys2Proof.Machine.execStv t rs2 rs1 off s
  | .stb t rs2 rs1 off => Sys2Proof.Machine.execStb t rs2 rs1 off s
  | .sth t rs2 rs1 off => Sys2Proof.Machine.execSth t rs2 rs1 off s
  | .stw t rs2 rs1 off => Sys2Proof.Machine.execStw t rs2 rs1 off s
  | .atswap t rd rs1 rs2 => Sys2Proof.Machine.execAtswap t rd rs1 rs2 s
  | .atadd t rd rs1 rs2 => Sys2Proof.Machine.execAtadd t rd rs1 rs2 s
  | .atcas t rd rs1 rs2 rs3 => Sys2Proof.Machine.execAtcas t rd rs1 rs2 rs3 s
  | .atmin t rd rs1 rs2 => Sys2Proof.Machine.execAtmin t rd rs1 rs2 s
  | .atmax t rd rs1 rs2 => Sys2Proof.Machine.execAtmax t rd rs1 rs2 s
  | .beq t rs1 a off => Sys2Proof.Machine.execBeq t rs1 a off s
  | .bne t rs1 a off => Sys2Proof.Machine.execBne t rs1 a off s
  | .blt t rs1 a off => Sys2Proof.Machine.execBlt t rs1 a off s
  | .bge t rs1 a off => Sys2Proof.Machine.execBge t rs1 a off s
  | .bgt t rs1 a off => Sys2Proof.Machine.execBgt t rs1 a off s
  | .ble t rs1 a off => Sys2Proof.Machine.execBle t rs1 a off s
  | .jal t rd imm => Sys2Proof.Machine.execJal t rd imm s
  | .jalr t rd rs1 imm => Sys2Proof.Machine.execJalr t rd rs1 imm s
  | .lih t rd imm => Sys2Proof.Machine.execLih t rd imm s
  | .lix t rd imm => Sys2Proof.Machine.execLix t rd imm s
  | .tnow t rd => Sys2Proof.Machine.execTnow t rd s
  | .twait t rs1 => Sys2Proof.Machine.execTwait t rs1 s
  | .twaitC t => Sys2Proof.Machine.execTwaitC t s
  | .cycn t rd c => Sys2Proof.Machine.execCycn t rd c s
  | .fence t => Sys2Proof.Machine.execFence t s
  | .fenceIo t => Sys2Proof.Machine.execFenceIo t s
  | .pflush t => Sys2Proof.Machine.execPflush t s
  | .cclean t rs1 off => Sys2Proof.Machine.execCclean t rs1 off s
  | .cflush t rs1 off => Sys2Proof.Machine.execCflush t rs1 off s
  | .czero t rs1 off => Sys2Proof.Machine.execCzero t rs1 off s
  | .icinv t rs1 off => Sys2Proof.Machine.execIcinv t rs1 off s
  | .syscall t x => Sys2Proof.Machine.execSyscall t x s
  | .brk t code => Sys2Proof.Machine.execBrk t code s
  | .eret t => Sys2Proof.Machine.execEret t s
  | .tlbiva t rs1 => Sys2Proof.Machine.execTlbiva t rs1 s
  | .tlbiasid t rs1 => Sys2Proof.Machine.execTlbiasid t rs1 s
  | .tlbiall t => Sys2Proof.Machine.execTlbiall t s
  | .mfsr t rd n => Sys2Proof.Machine.execMfsr t rd n s
  | .mtsr t n rs1 => Sys2Proof.Machine.execMtsr t n rs1 s
  | .interrupt t => Sys2Proof.Machine.execInterrupt t s
  | .pageWalk t => Sys2Proof.Machine.execPageWalk t s
  | .directoryTransaction core line k o => Sys2Proof.Machine.execDirectoryTransaction core line k o s
  | .ioRead x => Sys2Proof.Machine.execIoRead x s
  | .ioWrite x y part stash => Sys2Proof.Machine.execIoWrite x y part stash s
  | .cacheEnableWrite who c l1 l2 => Sys2Proof.Machine.execCacheEnableWrite who c l1 l2 s
  | .drainComplete c core => Sys2Proof.Machine.execDrainComplete c core s
  | .deviceMark who ch ix dev => Sys2Proof.Machine.execDeviceMark who ch ix dev s
  | .scrubLine ch o => Sys2Proof.Machine.execScrubLine ch o s
  | .cacheScrub a finds => Sys2Proof.Machine.execCacheScrub a finds s
  | .powerOn sds pcie clk10m pps vpp testEn b => Sys2Proof.Machine.execPowerOn sds pcie clk10m pps vpp testEn b s
  | .classEnableRelease c => Sys2Proof.Machine.execClassEnableRelease c s
  | .loaderBegin target arg crcOk fail => Sys2Proof.Machine.execLoaderBegin target arg crcOk fail s
  | .loaderData target arg data crcOk fail => Sys2Proof.Machine.execLoaderData target arg data crcOk fail s
  | .loaderEnd target arg crcOk fail b => Sys2Proof.Machine.execLoaderEnd target arg crcOk fail b s
  | .loaderAbort target arg crcOk => Sys2Proof.Machine.execLoaderAbort target arg crcOk s
  | .loaderFrameTimeout => Sys2Proof.Machine.execLoaderFrameTimeout s
  | .loaderLoad fail b => Sys2Proof.Machine.execLoaderLoad fail b s
  | .partInfo m => Sys2Proof.Machine.execPartInfo m s
  | .partStart m => Sys2Proof.Machine.execPartStart m s
  | .partStop m => Sys2Proof.Machine.execPartStop m s
  | .partReset m => Sys2Proof.Machine.execPartReset m s
  | .threadStart m => Sys2Proof.Machine.execThreadStart m s
  | .routeCmd m => Sys2Proof.Machine.execRouteCmd m s
  | .mapCmd m => Sys2Proof.Machine.execMapCmd m s
  | .cfgApply m => Sys2Proof.Machine.execCfgApply m s
  | .cfgCommit m fail => Sys2Proof.Machine.execCfgCommit m fail s
  | .fwWrite m fail => Sys2Proof.Machine.execFwWrite m fail s
  | .oasisRestart m => Sys2Proof.Machine.execOasisRestart m s
  | .fwMinSet m => Sys2Proof.Machine.execFwMinSet m s
  | .lcAdvance m => Sys2Proof.Machine.execLcAdvance m s
  | .keyFuse m => Sys2Proof.Machine.execKeyFuse m s
  | .oasisRestartDone ms temp => Sys2Proof.Machine.execOasisRestartDone ms temp s
  | .gateAcquire t g => Sys2Proof.Machine.execGateAcquire t g s
  | .gateRelease t g => Sys2Proof.Machine.execGateRelease t g s
  | .gateQuery t g => Sys2Proof.Machine.execGateQuery t g s
  | .comparatorSelfTest p flagged => Sys2Proof.Machine.execComparatorSelfTest p flagged s
  | .coreMismatch x => Sys2Proof.Machine.execCoreMismatch x s
  | .delayRegisterFault p => Sys2Proof.Machine.execDelayRegisterFault p s
  | .spareReady p => Sys2Proof.Machine.execSpareReady p s
  | .uncheckedPairMove p => Sys2Proof.Machine.execUncheckedPairMove p s
  | .darningRegion u fails corrected bad => Sys2Proof.Machine.execDarningRegion u fails corrected bad s
  | .flashCopy => Sys2Proof.Machine.execFlashCopy s
  | .phaseClose => Sys2Proof.Machine.execPhaseClose s
  | .operatingHour => Sys2Proof.Machine.execOperatingHour s
  | .clearRam => Sys2Proof.Machine.execClearRam s
  | .samplerRead flash ordinal word => Sys2Proof.Machine.execSamplerRead flash ordinal word s
  | .smpRdData => Sys2Proof.Machine.execSmpRdData s
  | .extest captured shifted => Sys2Proof.Machine.execExtest captured shifted s
  | .samplePreload captured shifted => Sys2Proof.Machine.execSamplePreload captured shifted s
  | .idcode => Sys2Proof.Machine.execIdcode s
  | .clamp => Sys2Proof.Machine.execClamp s
  | .highz => Sys2Proof.Machine.execHighz s
  | .extestPulse captured shifted => Sys2Proof.Machine.execExtestPulse captured shifted s
  | .extestTrain captured shifted => Sys2Proof.Machine.execExtestTrain captured shifted s
  | .bypass => Sys2Proof.Machine.execBypass s
  | .testLogicReset => Sys2Proof.Machine.execTestLogicReset s
  | .trst => Sys2Proof.Machine.execTrst s
  | .authRequest path level => Sys2Proof.Machine.execAuthRequest path level s
  | .authRespond path level id payload => Sys2Proof.Machine.execAuthRespond path level id payload s
  | .authDetach => Sys2Proof.Machine.execAuthDetach s
  | .authRevoke => Sys2Proof.Machine.execAuthRevoke s
  | .setPassword payload => Sys2Proof.Machine.execSetPassword payload s
  | .authorisationTick => Sys2Proof.Machine.execAuthorisationTick s
  | .challengeExpiry => Sys2Proof.Machine.execChallengeExpiry s
  | .lockoutExpiry => Sys2Proof.Machine.execLockoutExpiry s
  | .tapIdleTimeout => Sys2Proof.Machine.execTapIdleTimeout s
  | .garirNop => Sys2Proof.Machine.execGarirNop s
  | .garirRead a tagged autoinc => Sys2Proof.Machine.execGarirRead a tagged autoinc s
  | .garirWrite a v tag tagged autoinc => Sys2Proof.Machine.execGarirWrite a v tag tagged autoinc s
  | .garirHalt core th => Sys2Proof.Machine.execGarirHalt core th s
  | .garirResume core th => Sys2Proof.Machine.execGarirResume core th s
  | .garirStep core th => Sys2Proof.Machine.execGarirStep core th s
  | .garirRegRead core th r => Sys2Proof.Machine.execGarirRegRead core th r s
  | .garirRegWrite core th r v tag => Sys2Proof.Machine.execGarirRegWrite core th r v tag s
  | .bpSet core data idx va mask action access => Sys2Proof.Machine.execBpSet core data idx va mask action access s
  | .bpClear core data idx => Sys2Proof.Machine.execBpClear core data idx s
  | .vtRead p => Sys2Proof.Machine.execVtRead p s
  | .vtWrite p count data => Sys2Proof.Machine.execVtWrite p count data s
  | .garirState core th => Sys2Proof.Machine.execGarirState core th s
  | .brkHalt core th flag => Sys2Proof.Machine.execBrkHalt core th flag s
  | .mbWrite idx send v => Sys2Proof.Machine.execMbWrite idx send v s
  | .mbRead idx ack => Sys2Proof.Machine.execMbRead idx ack s
  | .dbgVtTx p count data => Sys2Proof.Machine.execDbgVtTx p count data s
  | .vtRxAck p => Sys2Proof.Machine.execVtRxAck p s
  | .traceEnable on => Sys2Proof.Machine.execTraceEnable on s
  | .traceTrigger kind => Sys2Proof.Machine.execTraceTrigger kind s
  | .traceFire => Sys2Proof.Machine.execTraceFire s
  | .postEnd => Sys2Proof.Machine.execPostEnd s
  | .traceTimeTick => Sys2Proof.Machine.execTraceTimeTick s
  | .traceSinkWrite n => Sys2Proof.Machine.execTraceSinkWrite n s
  | .trcSrcRead idx => Sys2Proof.Machine.execTrcSrcRead idx s
  | .trcSrcWrite idx => Sys2Proof.Machine.execTrcSrcWrite idx s
  | .counterOverflow ix => Sys2Proof.Machine.execCounterOverflow ix s
  | .ctrRead config idx => Sys2Proof.Machine.execCtrRead config idx s
  | .ctrWrite config idx data => Sys2Proof.Machine.execCtrWrite config idx data s
  | .snapshotPeriod => Sys2Proof.Machine.execSnapshotPeriod s
  | .snapshotFire => Sys2Proof.Machine.execSnapshotFire s
  | .snapshotRecordDone => Sys2Proof.Machine.execSnapshotRecordDone s
  | .powerUpRequest d => Sys2Proof.Machine.execPowerUpRequest d s
  | .powerDownRequest d => Sys2Proof.Machine.execPowerDownRequest d s
  | .domainStateRead d => Sys2Proof.Machine.execDomainStateRead d s
  | .powerUpDone d => Sys2Proof.Machine.execPowerUpDone d s
  | .powerDownDone d => Sys2Proof.Machine.execPowerDownDone d s
  | .avsTick vmin temp ok => Sys2Proof.Machine.execAvsTick vmin temp ok s
  | .pmbusRetry ok => Sys2Proof.Machine.execPmbusRetry ok s
  | .tjAlert temp d => Sys2Proof.Machine.execTjAlert temp d s
  | .thermalTrip d => Sys2Proof.Machine.execThermalTrip d s
  | .referenceLoss r => Sys2Proof.Machine.execReferenceLoss r s
  | .tripRelease b => Sys2Proof.Machine.execTripRelease b s
  | .externalReset => Sys2Proof.Machine.execExternalReset s
  | .resetRelease b => Sys2Proof.Machine.execResetRelease b s
  | .powerFail cut => Sys2Proof.Machine.execPowerFail cut s
  | .watchdog => Sys2Proof.Machine.execWatchdog s
  | .ppsEdge at_ => Sys2Proof.Machine.execPpsEdge at_ s
  | .vppFuseChange present => Sys2Proof.Machine.execVppFuseChange present s
  | .pcieLinkUp r => Sys2Proof.Machine.execPcieLinkUp r s
  | .referenceReturn r => Sys2Proof.Machine.execReferenceReturn r s
  | .faultNRelease => Sys2Proof.Machine.execFaultNRelease s
  | .tjAlertEnd temp => Sys2Proof.Machine.execTjAlertEnd temp s
  | .twinLaneUp l => Sys2Proof.Machine.execTwinLaneUp l s
  | .syncInterval dom p back decides step n => Sys2Proof.Machine.execSyncInterval dom p back decides step n s

end Sys2Proof.Machine
end

