-- ==== Sys2Proof/Machine/Step.lean ====
section
/-! DEFINITION. Step: take the front command of the queue; on an empty queue one image clock passes (04 R114). -/
namespace Sys2Proof.Machine

/-- One step of the block (log 1, DESIGN CHOICE) (log 4, DESIGN CHOICE). -/
def step (s : State) : Host.Outcome State Fault Refusal :=
  match s.pending with
  | [] => .next { s with dev := tick s.dev }
  | c :: rest => exec c { s with pending := rest }

/-- The command a word spells, put at the front of the queue; no word spells one (log 5, DESIGN CHOICE). -/
def State.withFetchWord (s : State) (nbits w : Nat) : State :=
  match decodeTableWord nbits w with
  | none => s
  | some c => { s with pending := c :: s.pending }

end Sys2Proof.Machine
end

