-- ==== Sys2Proof/Safety.lean ====
section
/-! DEFINITION. Safety: the terms that statements about the machine use: safe steps and runs, when a thread issues, what a command leaves as it was. -/
namespace Sys2Proof.Machine

/-- A step that answers a next state. -/
def StepSafe (s : State) : Prop := ∃ t, step s = .next t

/-- `k` steps that all answer next states. -/
def RunSafe : Nat → State → Prop
  | 0, _ => True
  | k + 1, s => ∃ t, step s = .next t ∧ RunSafe k t

/-- Storage is as it was: every value byte, every tag, every poison mark. -/
def StorageKept (a b : Dev) : Prop := (∀ x, rdByte b x = rdByte a x) ∧ (∀ w, tagAt b w = tagAt a w) ∧ (∀ w, poisonAt b w = poisonAt a w)

/-- Every register but those of a list is as it was. -/
def RegsKept (a b : Dev) (l : List Nat) : Prop := ∀ o, o ∉ l → reg b o = reg a o

/-- Every hardware thread but `t` is as it was. -/
def OthersKept (a b : Dev) (t : Nat) : Prop := ∀ u, u ≠ t → thr b u = thr a u

/-- A thread may issue an instruction that reads `srcs` now (09 R329, R330, R345, R349, 12 R449, 16 R597): it is RUNNING, waits for nothing, its operands are there, its fetch translates to DRAM, and no comparator halts it. -/
def Issues (d : Dev) (t : Nat) (srcs : List GReg) : Prop := mapStarved d t = false ∧ ∃ d1, issue d t srcs = .go d1

/-- The special state of a thread that no arithmetic, move or control instruction touches (09 R363, 11 R416, 12 R463, 16 R608). -/
def SpecialKept (x y : Thread) : Prop :=
  y.cycpin = x.cycpin ∧ y.overrun = x.overrun ∧ y.pctl = x.pctl ∧ y.sup = x.sup ∧ y.emerg = x.emerg ∧ y.ipl = x.ipl ∧ y.vbr = x.vbr ∧
  y.ssp = x.ssp ∧ y.stackLimit = x.stackLimit ∧ y.emsp = x.emsp ∧ y.ttb = x.ttb ∧ y.asid = x.asid ∧ y.tctl = x.tctl ∧
  y.tfault = x.tfault ∧ y.tfipa = x.tfipa ∧ y.trcctl = x.trcctl ∧ y.trcctx = x.trcctx ∧ y.brkHalt = x.brkHalt

/-- The frame of an instruction that only writes a register and moves on: special state, QMODE, FPCSR, memory, store buffer and outstanding accesses of the thread and every other thread are as they were, and the program counter is that of the next instruction. -/
def PlainFrame (a b : Dev) (t : Nat) : Prop :=
  SpecialKept (thr a t) (thr b t) ∧ (thr b t).qmode = (thr a t).qmode ∧ (thr b t).fpcsr = (thr a t).fpcsr ∧
  (thr b t).storeBuf = (thr a t).storeBuf ∧ (thr b t).pc = (nextPc (thr a t)).pc ∧ OthersKept a b t ∧ StorageKept a b

/-- What register `r` of a thread reads as after `rd` has received a word: w0 takes nothing (02 R32), every other register keeps its word. -/
def gprAfter (x : Thread) (rd : GReg) (q : QWord) (r : GReg) : QWord := if r = rd ∧ rd ≠ 0 then q else gpr x r

/-- The register `rd` of thread `t` receives `q` under the thread's QMODE (02 R53, R54), and nothing else changes but what `PlainFrame` lets move. -/
def RegisterResult (a b : Dev) (t : Nat) (rd : GReg) (q : QWord) : Prop :=
  (∀ r, gpr (thr b t) r = gprAfter (thr a t) rd ⟨q.val, resultTag (thr a t).qmode q.tag⟩ r) ∧ PlainFrame a b t

/-- A thread may issue an instruction that reads `srcs` now, no atomic of it is under way, and the `n` bytes it accesses at `va` lie at physical address `pa` (09 R359, 12 R449 to R454). -/
def Reaches (d : Dev) (t : Nat) (srcs : List GReg) (va n : Nat) (k : AccKind) (pa : Nat) : Prop :=
  mapStarved d t = false ∧ atomicPending (thr d t) = false ∧ ∃ d1 d2, issue d t srcs = .go d1 ∧ locate d1 t va n k = .at_ pa d2

/-- One word of storage receives value and tag together, free of poison; every other byte, tag and poison mark is as it was (02 R30). -/
def StoredWord (a b : Dev) (pa : Nat) (q : QWord) : Prop :=
  (∀ x, rdByte b x = if pa ≤ x ∧ x < pa + 8 then (leBytes 8 q.val.toNat).getD (x - pa) 0 else rdByte a x) ∧
  (∀ w, tagAt b w = if w = pa / 8 then q.tag else tagAt a w) ∧ (∀ w, poisonAt b w = (poisonAt a w && !(decide (w = pa / 8))))

/-- An exception with vector `v` can enter at once from the ordinary stack: every store has drained, the frame fits above the stack limit and lies at physical address `pa`, and its push, the vector word and the handler's fetch at `h` succeed (11 R421 to R424). -/
def EntryGoes (d : Dev) (t v : Nat) (i : ExcInfo) (pa h : Nat) : Prop :=
  let x := thr d t
  let d1 := modThr (countCore d t 0x0D) t (fun x => { x with ssp := x.ssp - 64, emerg := false })
  drained x = true ∧ x.emerg = false ∧ 64 ≤ x.ssp ∧ x.stackLimit ≤ x.ssp - 64 ∧ (∃ d2, translateNow d1 t (x.ssp - 64) .store true = .ok (pa, d2)) ∧
  ∃ d3 d4, pushFrame d1 t (x.ssp - 64) false (frameWords v i x.ssp (stateWord x)) = .ok d3 ∧ enterHandler d3 t v = .ok (d4, h)

/-- What an entry leaves: the handler runs as supervisor under PROPAGATE at its IPL, the 8 words of the frame stand at `pa` with the saved pc, CAUSE, PREV_SSP and STATE, and nothing else of the thread's registers, of other threads or of storage has changed (11 R419 to R421). -/
def Entered (a b : Dev) (t v : Nat) (i : ExcInfo) (pa h : Nat) : Prop :=
  let x := thr a t
  let y := thr b t
  y.pc = h ∧ y.slot = .none ∧ y.sup = true ∧ y.emerg = false ∧ y.qmode = 0 ∧ y.ipl = (if 16 ≤ v ∧ v ≤ 31 then v - 15 else x.ipl) ∧ y.ssp = x.ssp - 64 ∧
  y.exc = none ∧ y.walk = none ∧ (∀ r, gpr y r = gpr x r) ∧ y.fpcsr = x.fpcsr ∧ y.vbr = x.vbr ∧ y.stackLimit = x.stackLimit ∧ y.emsp = x.emsp ∧
  y.ttb = x.ttb ∧ y.asid = x.asid ∧ y.tctl = x.tctl ∧ y.pctl = x.pctl ∧ y.tfault = x.tfault ∧ y.tfipa = x.tfipa ∧ y.storeBuf = x.storeBuf ∧ OthersKept a b t ∧
  (∀ k, k < 8 → some (wordAt b (pa + 8 * k)) = (frameWords v i x.ssp (stateWord x))[k]?) ∧
  (∀ p, p < pa ∨ pa + 64 ≤ p → rdByte b p = rdByte a p) ∧ (∀ w, w < pa / 8 ∨ pa / 8 + 8 ≤ w → tagAt b w = tagAt a w)

/-- Entry `i` of a running class is the next of its cycle to run and holds `action` (04 R124). -/
def NextAction (d : Dev) (c i action : Nat) (p : PrickEntry) : Prop :=
  classRuns d c = true ∧ domOn d 76 = true ∧ (stillToRun d c).head? = some p ∧ p.idx = i ∧ p.action = action

/-- The entry has run at T0 + OFFSET (04 R124). -/
def ActionRan (a b : Dev) (c : Nat) (p : PrickEntry) : Prop :=
  (cls b c).ran = (cls a c).ran ++ [p.idx] ∧ (cls b c).t0 = (cls a c).t0 ∧ nowNs b = max (nowNs a) ((cls a c).t0 + p.offset)

/-- The cores' side is as it was: every hardware thread, every value byte, tag and poison mark. -/
def CoresKept (a b : Dev) : Prop := b.threads = a.threads ∧ StorageKept a b

/-- A command of code `code` is posted in mailbox `m` and Oasis can take it up (06 R244, R246). -/
def Posts (d : Dev) (m code : Nat) : Prop :=
  (mbox d m).posted = true ∧ mboxCode d m = code ∧ mboxKnows m code = true ∧ restarting d = false ∧ d.pwr.held = 0 ∧ d.oasis.fw.isSome = true

/-- The command of mailbox `m` is answered: status, SEQ echoed, the number of words and the words (06 R243). -/
def Answers (a b : Dev) (m st : Nat) (ws : List Word) : Prop :=
  (mbox b m).posted = false ∧ (mbox b m).resp = some (BitVec.ofNat 64 (st + mboxSeq a m * 2 ^ 16 + ws.length * 2 ^ 24) :: ws) ∧
  (mbox b m).out = (mbox a m).out ∧ (mbox b m).inp = (mbox a m).inp ∧ (mbox b m).notes = (mbox a m).notes

/-- Entry `n` of the historian's command ring lies at physical address `p`, in DRAM, under a translation the I/O cache holds (08 R323, R324, 12 R462). -/
def RingAt (d : Dev) (n p : Nat) : Prop :=
  ringAddr d n % 64 = 0 ∧ d.ioTlb.length < 1000 ∧ (∀ w, w < 8 → inDram d (p + 8 * w) = true) ∧
  ∃ e, d.ioTlb.find? (fun e => e.part == hManager d && e.ipaPage == ringAddr d n / 4096) = some e ∧ nbit e.perm 0 = true ∧ nbit e.perm 1 = true ∧ p = e.physPage * 4096 + ringAddr d n % 4096

/-- The ring entry at physical address `p` is complete with a status: word 7 holds it and DONE (08 R323). -/
def RingDone (d : Dev) (p st : Nat) : Prop := rdBytes d (p + 56) 8 = leBytes 8 (st + 2 ^ 63)

end Sys2Proof.Machine
end

