-- ==== Sys2Proof/WellFormed.lean ====
section
/-! DEFINITION. WellFormed: the bounds on a command's operands that its operand types do not already hold. -/
namespace Sys2Proof

/-- The array a scrub visits has the ways that its finds name: an L1 4, an L2 16, a prefetch buffer and a victim cache 32, a directory slice 12 (13 R469 to R480). -/
def arrayWays : CacheArray → Nat
  | .l1 _ => 4
  | .l1i _ => 4
  | .l2 _ => 16
  | .dir _ => 12
  | _ => 32

/-- The way a find names. -/
def CacheFind.way : CacheFind → Nat
  | .corrected w _ => w.val
  | .uncorrected w _ => w.val
  | .tagLost w => w.val

/-- A command whose operands keep the bounds of the spec; each of the other commands holds its bounds in its operand types. -/
def wellFormed : Instr → Bool
  -- a pass of the sweeper has 131,072 entries (03 R110)
  | .sweeperVisit _ n => decide (n ≤ 131072)
  -- a frame has a first octet; its length is judged by 05 R173
  | .frameRxStart _ _ f => !f.isEmpty
  -- a memory request has a byte, and its data when it writes (05 R204, R206)
  | .pcieInboundRequest _ write _ n data => decide (1 ≤ n.toNat) && data.length == (if write then n.toNat else 0)
  -- a message of the link is at least its header (07 R257)
  | .heartbeat _ m _ _ => !m.isEmpty
  | .arrivalMap _ m => !m.isEmpty
  | .frameFill _ m => !m.isEmpty
  | .digestMessage _ m => !m.isEmpty
  | .journalMsg _ m => !m.isEmpty
  | .stateCopy _ m => !m.isEmpty
  -- a physical line number (21 R690)
  | .directoryTransaction _ line _ _ => decide (line < 2 ^ 40)
  -- a write carries a byte, within one 4 KiB page (12 R462)
  | .ioWrite x y _ _ => !y.bytes.isEmpty && decide (x.addr.toNat % 4096 + y.bytes.length ≤ 4096)
  | .cacheScrub a finds => finds.all (fun f => decide (f.2.way < arrayWays a))
  -- a loader frame or a debug mailbox DATA carries 256 or 64 bytes (14 R522, R523)
  | .loaderData _ _ data _ _ => data.length == 256 || data.length == 64
  -- a word of the region is found uncorrectable once (15 R563)
  | .darningRegion _ _ _ bad => decide bad.Nodup
  | _ => true

end Sys2Proof
end

