-- ==== Sys2Proof/Certificates/Slice0/Obligations.lean ====
section
/-! DEFINITION. Obligations: the statements about the machine, one definition each. A clause "exec c s = .next …" says that the command answers that next state; a register named in a list of `RegsKept` is the only one that may change. -/
open Sys2Proof Sys2Proof.Machine

/-! ## The block as a whole -/

/-- First in, first out: a step with a command at the front of the queue is that command on the state with the rest of the queue; on an empty queue one image clock passes and nothing but time moves (the model's choice, log 4). -/
def Obligations.StepTakesFrontCommand : Prop :=
  (∀ (s : State) (c : Instr), step { s with pending := c :: s.pending } = exec c s) ∧
  (∀ (s : State) (c : Instr) (rest : List Instr), s.pending = c :: rest → step s = exec c { s with pending := rest }) ∧
  (∀ s : State, s.pending = [] → ∃ d, step s = .next { s with dev := d } ∧ d.regs = s.dev.regs ∧ d.threads = s.dev.threads ∧ StorageKept s.dev d ∧
    (0 ≤ s.dev.rate → s.dev.time < d.time))

/-- No command stops the block: each of the 365 forms answers a next state, at every state and with every operand, and none touches the commands that wait. -/
def Obligations.EveryCommandAnswers : Prop :=
  ∀ (c : Instr) (s : State), ∃ d, exec c s = .next { s with dev := d }

/-- Every step keeps the queue well formed. -/
def Obligations.StepKeepsQueueWellFormed : Prop :=
  ∀ s s' : State, s.pending.all wellFormed = true → step s = .next s' → s'.pending.all wellFormed = true ∧ s'.pending = s.pending.drop 1

/-- Every step keeps the canonical form of storage: value bytes, tags and poison marks are listed at strictly rising addresses, and no entry equals what an unlisted one reads as, so equal memories are equal data. -/
def Obligations.StepKeepsMemoryCanonical : Prop :=
  ∀ s s' : State, Memory.wf s.dev = true → step s = .next s' → Memory.wf s'.dev = true

/-- Reset: no command waits, the queue is well formed, storage lists nothing and has its canonical form, every DRAM and bank word reads value 0 with tag 0x00 and no poison (what unwritten memory reads is the model's choice, log 7), and every thread is OFF (09, log 6). R701: the register map has exactly 6,240 registers of 64 bits, every offset aligned to 8. -/
def Obligations.ResetStateAndRegisterMap : Prop :=
  (
    State.reset.pending = [] ∧ Memory.wf State.reset.dev = true ∧
    (∀ a, rdByte State.reset.dev a = 0) ∧ (∀ w, tagAt State.reset.dev w = 0 ∧ poisonAt State.reset.dev w = false) ∧
    (∀ o, reg State.reset.dev o = regReset o) ∧ (∀ t, (thr State.reset.dev t).st = .off) ∧
    (∀ d, domSt State.reset.dev d = if d = 79 then 2 else 0)) ∧
  (
    (allBlocks.map (fun b => b.count * b.halves * (b.rows.map (fun r => r.count)).sum)).sum = 6240 ∧
    (∀ b ∈ allBlocks, b.base % 8 = 0 ∧ b.stride % 8 = 0 ∧ ∀ r ∈ b.rows, r.first % 8 = 0 ∧ r.stride % 8 = 0))


/-! ## Palael instructions (10) -/

/-- The word of each instruction decodes to that instruction, and it is a 32-bit word: no operand bit of the six formats is dropped (R368 to R370). -/
def Obligations.DecodeOfEncode : Prop :=
  ∀ (i : Instr) (w : Nat), encodeInsn i = some w → w < 2 ^ 32 ∧ ∃ t, decodeInsn t w = some i

/-- A word that decodes is the word of what it decodes to: no reserved encoding falls to a neighbour, and two instructions never share a word (R369, R370). -/
def Obligations.EncodeOfDecode : Prop :=
  ∀ (t : Thr) (w : Nat) (i : Instr), w < 2 ^ 32 → decodeInsn t w = some i → encodeInsn i = some w

/-- R372: the register results of the integer instructions that raise no fault, under combine; rd receives the value and the tag QMODE gives it, and nothing else of the machine that software sees changes. It says of each of these commands that exec answers the next state described, under conditions on the state and the operands alone: add, sub, and, or, xor, andn, shl, shr, shra, less, lessu, same, min, max, mul, mulhi, mulhiu. -/
def Obligations.IntegerResults : Prop :=
  ∀ (s : State) (t : Thr) (rd a b : GReg), Issues s.dev t.val [a, b] →
    let x := rv s.dev t.val a
    let y := rv s.dev t.val b
    let g := combine [rt s.dev t.val a, rt s.dev t.val b]
    trapsOn (thr s.dev t.val).qmode g = false →
    ∀ e ∈ [(Instr.add t rd a b, x + y), (.sub t rd a b, x - y), (.and t rd a b, x &&& y), (.or t rd a b, x ||| y), (.xor t rd a b, x ^^^ y),
           (.andn t rd a b, x &&& ~~~y), (.shl t rd a b, x <<< (y.toNat % 64)), (.shr t rd a b, x >>> (y.toNat % 64)),
           (.shra t rd a b, x.sshiftRight (y.toNat % 64)),
           (.less t rd a b, if x.toInt < y.toInt then 1 else 0), (.lessu t rd a b, if x.toNat < y.toNat then 1 else 0),
           (.same t rd a b, if x = y then 1 else 0),
           (.min t rd a b, if x.toInt ≤ y.toInt then x else y), (.max t rd a b, if y.toInt ≤ x.toInt then x else y),
           (.mul t rd a b, x * y), (.mulhi t rd a b, BitVec.ofInt 64 (x.toInt * y.toInt / 2 ^ 64)),
           (.mulhiu t rd a b, BitVec.ofNat 64 (x.toNat * y.toNat / 2 ^ 64))],
      ∃ d, exec e.1 s = .next { s with dev := d } ∧ RegisterResult s.dev d t.val rd ⟨e.2, g⟩

/-- R372, R373, R45: the checked and dividing instructions write the wrapped or defined value; a signed overflow or a zero divisor marks it BAD / arithmetic fault and takes no exception unless TRAP meets a BAD result. It says of each of these commands that exec answers the next state described, under conditions on the state and the operands alone: addc, subc, mulc, quot, quotu, rmdr, rmdru. -/
def Obligations.CheckedResults : Prop :=
  ∀ (s : State) (t : Thr) (rd a b : GReg), Issues s.dev t.val [a, b] →
    let x := rv s.dev t.val a
    let y := rv s.dev t.val b
    let g := combine [rt s.dev t.val a, rt s.dev t.val b]
    let bad (p : Bool) : Byte := if p then mkTag 1 5 0 (tagMaint g) else g
    let wraps (r : Int) : Bool := decide (r < -(2 ^ 63) ∨ 2 ^ 63 ≤ r)
    ∀ e ∈ [(Instr.addc t rd a b, x + y, wraps (x.toInt + y.toInt)), (.subc t rd a b, x - y, wraps (x.toInt - y.toInt)),
           (.mulc t rd a b, x * y, wraps (x.toInt * y.toInt)),
           (.quot t rd a b, if y = 0 then 0 else if x.toInt = -(2 ^ 63) ∧ y.toInt = -1 then BitVec.ofInt 64 (2 ^ 63 - 1) else BitVec.ofInt 64 (x.toInt.tdiv y.toInt),
             decide (y = 0)),
           (.quotu t rd a b, BitVec.ofNat 64 (x.toNat / y.toNat), decide (y = 0)),
           (.rmdr t rd a b, if y = 0 then 0 else BitVec.ofInt 64 (x.toInt.tmod y.toInt), decide (y = 0)),
           (.rmdru t rd a b, if y = 0 then 0 else BitVec.ofNat 64 (x.toNat % y.toNat), decide (y = 0))],
      trapsOn (thr s.dev t.val).qmode (bad e.2.2) = false →
      ∃ d, exec e.1 s = .next { s with dev := d } ∧ RegisterResult s.dev d t.val rd ⟨e.2.1, bad e.2.2⟩

/-- R372, R371, R394: one-source, move and immediate instructions; an immediate counts as a source with tag 0x00, ANDI, ORI and XORI take it zero-extended. R372, R394, R395, R381: SEL takes a source by the value of rs3 alone; LIH, TNOW, CYCN, QGET and QTEST write tag 0x00; QSET, QMIN and QSETI replace the tag. It says of each of these commands that exec answers the next state described, under conditions on the state and the operands alone: clz, popc, mov, addi, andi, ori, xori, lessi, lessui, shli, shri, shrai, lix, sel, lih, tnow, cycn, qget, qset, qmin, qseti, qtest. -/
def Obligations.MoveSelectAndTagResults : Prop :=
  (
    ∀ (s : State) (t : Thr) (rd a : GReg) (imm : BitVec 14) (sh : Fin 64) (i20 : BitVec 20), Issues s.dev t.val [a] →
      let x := rv s.dev t.val a
      let g := combine [rt s.dev t.val a]
      ∀ e ∈ [(Instr.clz t rd a, rd, (⟨BitVec.ofNat 64 (if x.toNat = 0 then 64 else 63 - x.toNat.log2), g⟩ : QWord)),
             (.popc t rd a, rd, ⟨BitVec.ofNat 64 ((List.range 64).filter (fun i => x.getLsbD i)).length, g⟩),
             (.mov t rd a, rd, gpr (thr s.dev t.val) a),
             (.addi t rd a imm, rd, ⟨x + imm.signExtend 64, g⟩), (.andi t rd a imm, rd, ⟨x &&& imm.setWidth 64, g⟩), (.ori t rd a imm, rd, ⟨x ||| imm.setWidth 64, g⟩),
             (.xori t rd a imm, rd, ⟨x ^^^ imm.setWidth 64, g⟩), (.lessi t rd a imm, rd, ⟨if x.toInt < imm.toInt then 1 else 0, g⟩),
             (.lessui t rd a imm, rd, ⟨if x.toNat < (imm.signExtend 64).toNat then 1 else 0, g⟩),
             (.shli t rd a sh, rd, ⟨x <<< sh.val, g⟩), (.shri t rd a sh, rd, ⟨x >>> sh.val, g⟩), (.shrai t rd a sh, rd, ⟨x.sshiftRight sh.val, g⟩),
             (.lix t a i20, a, ⟨x <<< 20 ||| i20.setWidth 64, g⟩)],
        trapsOn (thr s.dev t.val).qmode e.2.2.tag = false →
        ∃ d, exec e.1 s = .next { s with dev := d } ∧ RegisterResult s.dev d t.val e.2.1 e.2.2) ∧
  (
    ∀ (s : State) (t : Thr) (rd a b c : GReg) (cl : ClassId) (tag : Byte) (mask : BitVec 4) (i20 : BitVec 20), Issues s.dev t.val [a, b, c] →
      Issues s.dev t.val [a, b] → Issues s.dev t.val [a] → Issues s.dev t.val [] →
      let x := gpr (thr s.dev t.val) a
      let y := gpr (thr s.dev t.val) b
      ∀ e ∈ [(Instr.sel t rd a b c, if rv s.dev t.val c ≠ 0 then x else y), (.lih t rd i20, ⟨i20.signExtend 64 <<< 14, 0⟩),
             (.tnow t rd, ⟨BitVec.ofNat 64 (nowNs s.dev), 0⟩), (.cycn t rd cl, ⟨reg s.dev (CYC_NUMBER cl.val), 0⟩),
             (.qget t rd a, ⟨x.tag.setWidth 64, 0⟩), (.qset t rd a b, ⟨x.val, y.val.setWidth 8⟩), (.qmin t rd a b, ⟨x.val, worstWhole x.tag [x.tag, y.tag]⟩),
             (.qseti t rd a tag, ⟨x.val, tag⟩), (.qtest t rd a mask, ⟨if mask.getLsbD (tagClass x.tag) then 1 else 0, 0⟩)],
        trapsOn (thr s.dev t.val).qmode e.2.tag = false →
        ∃ d, exec e.1 s = .next { s with dev := d } ∧ RegisterResult s.dev d t.val rd e.2)

/-- R56, R57: in TRAP, an instruction whose register result would have CLASS BAD writes no register and no memory; once earlier stores have drained the thread leaves for its handler. R51, R52, R381: QMODE reads the old mode into rd under tag 0x00 and sets PROPAGATE, IGNORE or TRAP. It says of each of these commands that exec answers the next state described, under conditions on the state and the operands alone: qmode. -/
def Obligations.QualityTrapAndMode : Prop :=
  (
    ∀ (s : State) (t : Thr) (rd a b : GReg), Issues s.dev t.val [a, b] → (thr s.dev t.val).qmode = 2 →
      tagClass (combine [rt s.dev t.val a, rt s.dev t.val b]) = 1 → drained (thr s.dev t.val) = false →
      ∀ i ∈ [Instr.add t rd a b, .sub t rd a b, .and t rd a b, .or t rd a b, .xor t rd a b, .min t rd a b, .max t rd a b, .mul t rd a b],
        ∃ d, exec i s = .next { s with dev := d } ∧ (∀ r, gpr (thr d t.val) r = gpr (thr s.dev t.val) r) ∧ (thr d t.val).pc = (thr s.dev t.val).pc ∧
          (∃ x, (thr d t.val).exc = some x ∧ x.vector = 7 ∧ x.resume = (thr s.dev t.val).pc) ∧ OthersKept s.dev d t.val ∧ StorageKept s.dev d) ∧
  (
    ∀ (s : State) (t : Thr) (rd : GReg) (m : Fin 4), Issues s.dev t.val [] → m.val ≠ 3 →
      ∃ d, exec (.qmode t rd m) s = .next { s with dev := d } ∧ (thr d t.val).qmode = m.val ∧
        (∀ r, gpr (thr d t.val) r = gprAfter (thr s.dev t.val) rd ⟨BitVec.ofNat 64 (thr s.dev t.val).qmode, 0⟩ r) ∧
        SpecialKept (thr s.dev t.val) (thr d t.val) ∧ (thr d t.val).pc = (nextPc (thr s.dev t.val)).pc ∧ OthersKept s.dev d t.val ∧ StorageKept s.dev d)

/-- R375 to R380: a floating-point instruction none of whose raised flags is enabled ORs its flags into FPCSR bits 6:2 and writes its result under combine, BAD for an invalid operation or a NaN; a binary32 result has bits 63:32 zero. R378: an instruction that raises an enabled exception writes no register and leaves FPCSR as it was; behind undrained stores its trap (vector 8, with the flags) waits. It says of each of these commands that exec answers the next state described, under conditions on the state and the operands alone: fadd, fsub, fmul, fdiv, fsqrt, fmac, fmsc, fmin, fmax, fneg, fabs, fsame, fless, flesseq, ftoi, itof, fwiden, fnarrow. -/
def Obligations.FloatingPointInstructions : Prop :=
  (
    ∀ (s : State) (t : Thr) (f : Prec) (rd a b c : GReg), Issues s.dev t.val [a, b, c] → Issues s.dev t.val [a, b] → Issues s.dev t.val [a] →
      let rm := fpRm s.dev t.val
      let x := (rv s.dev t.val a).toNat
      let y := (rv s.dev t.val b).toNat
      let z := (rv s.dev t.val c).toNat
      let m := fmtOf f
      let t1 := [rt s.dev t.val a]
      let t2 := [rt s.dev t.val a, rt s.dev t.val b]
      let t3 := [rt s.dev t.val a, rt s.dev t.val b, rt s.dev t.val c]
      ∀ e ∈ [(Instr.fadd t f rd a b, t2, fAdd m rm x y), (.fsub t f rd a b, t2, fSub m rm x y), (.fmul t f rd a b, t2, fMul m rm x y),
             (.fdiv t f rd a b, t2, fDiv m rm x y), (.fsqrt t f rd a, t1, fSqrt m rm x), (.fmac t f rd a b c, t3, fMac m rm x y z),
             (.fmsc t f rd a b c, t3, fMsc m rm x y z), (.fmin t f rd a b, t2, fMinMax m false x y), (.fmax t f rd a b, t2, fMinMax m true x y),
             (.fneg t f rd a, t1, fNeg m x), (.fabs t f rd a, t1, fAbs m x), (.fsame t f rd a b, t2, fSame m x y),
             (.fless t f rd a b, t2, fLess m false x y), (.flesseq t f rd a b, t2, fLess m true x y), (.ftoi t f rd a, t1, fToI m rm x),
             (.itof t f rd a, t1, iToF m rm (toSigned 64 x)), (.fwiden t rd a, t1, fWiden x), (.fnarrow t rd a, t1, fNarrow rm x)],
        trapsOn (thr s.dev t.val).qmode (combineFault e.2.1 (nbit e.2.2.flags 0 || e.2.2.nan)) = false → Nat.land e.2.2.flags (fpEnables (thr s.dev t.val)) = 0 →
        ∃ d, exec e.1 s = .next { s with dev := d } ∧
          (∀ r, gpr (thr d t.val) r =
            gprAfter (thr s.dev t.val) rd ⟨BitVec.ofNat 64 e.2.2.bits, resultTag (thr s.dev t.val).qmode (combineFault e.2.1 (nbit e.2.2.flags 0 || e.2.2.nan))⟩ r) ∧
          (thr d t.val).fpcsr = Nat.lor (thr s.dev t.val).fpcsr (e.2.2.flags * 4) ∧
          SpecialKept (thr s.dev t.val) (thr d t.val) ∧ (thr d t.val).qmode = (thr s.dev t.val).qmode ∧
          (thr d t.val).pc = (nextPc (thr s.dev t.val)).pc ∧ OthersKept s.dev d t.val ∧ StorageKept s.dev d) ∧
  (
    ∀ (s : State) (t : Thr) (f : Prec) (rd a b : GReg), Issues s.dev t.val [a, b] → drained (thr s.dev t.val) = false →
      ∀ e ∈ [(Instr.fadd t f rd a b, fAdd), (.fsub t f rd a b, fSub), (.fmul t f rd a b, fMul), (.fdiv t f rd a b, fDiv)],
        Nat.land (e.2 (fmtOf f) (fpRm s.dev t.val) (rv s.dev t.val a).toNat (rv s.dev t.val b).toNat).flags (fpEnables (thr s.dev t.val)) ≠ 0 →
        nbit (fpEnables (thr s.dev t.val)) 3 = false →
        ∃ d x, exec e.1 s = .next { s with dev := d } ∧ (thr d t.val).exc = some x ∧ x.vector = 8 ∧
          x.fpflags = (e.2 (fmtOf f) (fpRm s.dev t.val) (rv s.dev t.val a).toNat (rv s.dev t.val b).toNat).flags ∧
          (∀ r, gpr (thr d t.val) r = gpr (thr s.dev t.val) r) ∧ (thr d t.val).fpcsr = (thr s.dev t.val).fpcsr ∧ OthersKept s.dev d t.val ∧ StorageKept s.dev d)

/-- R336, R389: a branch resolves at once and its delay slot follows: taken, the slot executes and leads to the target; not taken, the slot executes, or with A = 1 is annulled, and leads to the branch's address + 8. No register, flag or memory changes. R390: a jump writes its address + 8 to rd under tag 0x00 and its slot executes before the target; JALR clears bits 1:0 of the sum. It says of each of these commands that exec answers the next state described, under conditions on the state and the operands alone: beq, bne, blt, bge, bgt, ble, jal, jalr. -/
def Obligations.BranchesAndJumps : Prop :=
  (
    ∀ (s : State) (t : Thr) (r : GReg) (a : Bool) (off : BitVec 19), Issues s.dev t.val [r] → (thr s.dev t.val).slot = .none →
      let v := (rv s.dev t.val r).toInt
      let pc := (thr s.dev t.val).pc
      ∀ e ∈ [(Instr.beq t r a off, decide (v = 0)), (.bne t r a off, decide (v ≠ 0)), (.blt t r a off, decide (v < 0)), (.bge t r a off, decide (0 ≤ v)),
             (.bgt t r a off, decide (0 < v)), (.ble t r a off, decide (v ≤ 0))],
        ∃ d, exec e.1 s = .next { s with dev := d } ∧ (thr d t.val).pc = pc + 4 ∧
          (thr d t.val).slot = (if e.2 then .exec (((pc : Int) + 4 * off.toInt) % 2 ^ 64).toNat else if a then .annul (pc + 8) else .exec (pc + 8)) ∧
          (∀ q, gpr (thr d t.val) q = gpr (thr s.dev t.val) q) ∧ SpecialKept (thr s.dev t.val) (thr d t.val) ∧
          (thr d t.val).qmode = (thr s.dev t.val).qmode ∧ (thr d t.val).fpcsr = (thr s.dev t.val).fpcsr ∧ OthersKept s.dev d t.val ∧ StorageKept s.dev d) ∧
  (
    ∀ (s : State) (t : Thr) (rd a : GReg) (i20 : BitVec 20) (imm : BitVec 14), Issues s.dev t.val [a] → Issues s.dev t.val [] → (thr s.dev t.val).slot = .none →
      let pc := (thr s.dev t.val).pc
      ∀ e ∈ [(Instr.jal t rd i20, (((pc : Int) + 4 * i20.toInt) % 2 ^ 64).toNat), (.jalr t rd a imm, (rv s.dev t.val a + imm.signExtend 64).toNat / 4 * 4)],
        ∃ d, exec e.1 s = .next { s with dev := d } ∧ (thr d t.val).pc = pc + 4 ∧ (thr d t.val).slot = .exec e.2 ∧
          (∀ q, gpr (thr d t.val) q = gprAfter (thr s.dev t.val) rd ⟨BitVec.ofNat 64 (pc + 8), 0⟩ q) ∧ SpecialKept (thr s.dev t.val) (thr d t.val) ∧
          (thr d t.val).qmode = (thr s.dev t.val).qmode ∧ (thr d t.val).fpcsr = (thr s.dev t.val).fpcsr ∧ OthersKept s.dev d t.val ∧ StorageKept s.dev d)


/-! ## Loads, stores, atomics, fences and cache operations (09, 10) -/

/-- R382, R383, R384, R356: a load of a line the core's L1 holds, past every store of the thread that touches its bytes, writes rd with the bytes at its address, extended, under tag 0x00, and LD with the word and its tag. It says of each of these commands that exec answers the next state described, under conditions on the state and the operands alone: ld, ldv, ldb, ldbu, ldh, ldhu, ldw, ldwu. -/
def Obligations.LoadsFromL1 : Prop :=
  ∀ (s : State) (t : Thr) (rd base : GReg) (off : BitVec 14) (pa : Nat),
    inDram s.dev pa = true → loadsBefore (thr s.dev t.val) (thr s.dev t.val).nextId = true → l1Serves s.dev (t.val / 8) = true →
    (cFind s.dev (t.val / 8) (pa / 64)).isSome = true →
    let va := (rv s.dev t.val base + off.signExtend 64).toNat
    let v (n : Nat) : Nat := leNat (rdBytes s.dev pa n)
    ∀ e ∈ [(Instr.ld t rd base off, 8, (⟨BitVec.ofNat 64 (v 8), tagAt s.dev (pa / 8)⟩ : QWord)), (.ldv t rd base off, 8, ⟨BitVec.ofNat 64 (v 8), 0⟩),
           (.ldb t rd base off, 1, ⟨(BitVec.ofNat 8 (v 1)).signExtend 64, 0⟩), (.ldbu t rd base off, 1, ⟨BitVec.ofNat 64 (v 1), 0⟩),
           (.ldh t rd base off, 2, ⟨(BitVec.ofNat 16 (v 2)).signExtend 64, 0⟩), (.ldhu t rd base off, 2, ⟨BitVec.ofNat 64 (v 2), 0⟩),
           (.ldw t rd base off, 4, ⟨(BitVec.ofNat 32 (v 4)).signExtend 64, 0⟩), (.ldwu t rd base off, 4, ⟨BitVec.ofNat 64 (v 4), 0⟩)],
      Reaches s.dev t.val [base] va e.2.1 .load pa → overlapping (thr s.dev t.val) pa e.2.1 = [] → anyPoison s.dev pa e.2.1 = false →
      trapsOn (thr s.dev t.val).qmode e.2.2.tag = false →
      ∃ d, exec e.1 s = .next { s with dev := d } ∧ RegisterResult s.dev d t.val rd e.2.2

/-- R357, 12 R449: a load or store outside DRAM leaves under one of the thread's 4 credits as its newest outstanding access, and its instruction is complete: no register and no storage changes. It says of each of these commands that exec answers the next state described, under conditions on the state and the operands alone: ld, ldv, ldb, ldbu, ldh, ldhu, ldw, ldwu, st, stv, stb, sth, stw. -/
def Obligations.UncachedAccesses : Prop :=
  ∀ (s : State) (t : Thr) (rd rs2 base : GReg) (off : BitVec 14) (pa : Nat),
    inDram s.dev pa = false → uncachedOut (thr s.dev t.val) < 4 →
    let va := (rv s.dev t.val base + off.signExtend 64).toNat
    let x := thr s.dev t.val
    let b (op : AccOp) : Acc := { id := x.nextId, op := op, va := va, pa := pa, rd := rd.val, pc := x.pc, uncached := true, qmode := x.qmode }
    let w (op : AccOp) : Acc := { id := x.nextId, op := op, va := va, pa := pa, data := gpr x rs2, pc := x.pc, uncached := true, qmode := x.qmode }
    ∀ e ∈ [(Instr.ld t rd base off, [base], AccKind.load, 8, b .loadTagged), (.ldv t rd base off, [base], .load, 8, b (.loadValue 8 false)),
           (.ldb t rd base off, [base], .load, 1, b (.loadValue 1 true)), (.ldbu t rd base off, [base], .load, 1, b (.loadValue 1 false)),
           (.ldh t rd base off, [base], .load, 2, b (.loadValue 2 true)), (.ldhu t rd base off, [base], .load, 2, b (.loadValue 2 false)),
           (.ldw t rd base off, [base], .load, 4, b (.loadValue 4 true)), (.ldwu t rd base off, [base], .load, 4, b (.loadValue 4 false)),
           (.st t rs2 base off, [base, rs2], .store, 8, w .storeTagged), (.stv t rs2 base off, [base, rs2], .store, 8, w (.storeValue 8)),
           (.stb t rs2 base off, [base, rs2], .store, 1, w (.storeValue 1)), (.sth t rs2 base off, [base, rs2], .store, 2, w (.storeValue 2)),
           (.stw t rs2 base off, [base, rs2], .store, 4, w (.storeValue 4))],
      Reaches s.dev t.val e.2.1 va e.2.2.2.1 e.2.2.1 pa →
      ∃ d a, exec e.1 s = .next { s with dev := d } ∧ (thr d t.val).accs.getLast? = some a ∧ { a with insn := 0 } = e.2.2.2.2 ∧
        (thr d t.val).accs.length = x.accs.length + 1 ∧ (∀ r, gpr (thr d t.val) r = gpr x r) ∧ PlainFrame s.dev d t.val

/-- R354, R385, R400, R401: a store or a CCLEAN, CFLUSH or CZERO to DRAM joins the thread's store buffer of 8 and its instruction is complete; memory changes only when the entry drains. It says of each of these commands that exec answers the next state described, under conditions on the state and the operands alone: st, stv, stb, sth, stw, cclean, cflush, czero. -/
def Obligations.StoresEnterTheBuffer : Prop :=
  ∀ (s : State) (t : Thr) (rs2 base : GReg) (off : BitVec 14) (pa : Nat), inDram s.dev pa = true → (thr s.dev t.val).storeBuf.length < 8 →
    let va := (rv s.dev t.val base + off.signExtend 64).toNat
    let x := thr s.dev t.val
    let q := gpr x rs2
    let line : Nat := pa / 64 * 64
    ∀ e ∈ [(Instr.st t rs2 base off, [base, rs2], AccKind.store, 8, ({ id := x.nextId, pa := pa, bytes := 8, tagged := true, data := q } : StoreEnt)),
           (.stv t rs2 base off, [base, rs2], .store, 8, { id := x.nextId, pa := pa, bytes := 8, data := q }),
           (.stb t rs2 base off, [base, rs2], .store, 1, { id := x.nextId, pa := pa, bytes := 1, data := q }),
           (.sth t rs2 base off, [base, rs2], .store, 2, { id := x.nextId, pa := pa, bytes := 2, data := q }),
           (.stw t rs2 base off, [base, rs2], .store, 4, { id := x.nextId, pa := pa, bytes := 4, data := q }),
           (.cclean t base off, [base], .load, 1, { id := x.nextId, kind := .clean, pa := line, bytes := 64 }),
           (.cflush t base off, [base], .load, 1, { id := x.nextId, kind := .flush, pa := line, bytes := 64 }),
           (.czero t base off, [base], .store, 1, { id := x.nextId, kind := .zero, pa := line, bytes := 64 })],
      Reaches s.dev t.val e.2.1 va e.2.2.2.1 e.2.2.1 pa →
      ∃ d, exec e.1 s = .next { s with dev := d } ∧ (thr d t.val).storeBuf = x.storeBuf ++ [e.2.2.2.2] ∧ (∀ r, gpr (thr d t.val) r = gpr x r) ∧
        SpecialKept x (thr d t.val) ∧ (thr d t.val).qmode = x.qmode ∧ (thr d t.val).fpcsr = x.fpcsr ∧ (thr d t.val).pc = (nextPc x).pc ∧
        OthersKept s.dev d t.val ∧ StorageKept s.dev d

/-- R354, R385, R60, R401: the oldest entry of a store buffer drains into an L1 that owns its line, under an L2 that is ON and holds it too: its own bytes change and nothing else; ST stores its tag, STV tag 0x00, a shorter store keeps the word's tag (into a poisoned word it writes a record beside it); CZERO leaves 8 words of value 0 and tag 0x00. It says of each of these commands that exec answers the next state described, under conditions on the state and the operands alone: storeDrain. -/
def Obligations.StoreDrainWritesItsBytes : Prop :=
  ∀ (s : State) (t : Thr) (e : StoreEnt) (rest : List StoreEnt), (thr s.dev t.val).storeBuf = e :: rest → (thr s.dev t.val).exc = none → nextDeferred (thr s.dev t.val) = none →
    loadsBefore (thr s.dev t.val) e.id = true → l2State s.dev (t.val / 64) = 1 → l1Owns s.dev (t.val / 8) (e.pa / 64) = true →
    (cFind s.dev (l2Id (t.val / 64)) (e.pa / 64)).isSome = true →
    (e.kind = .store →
      ∃ d, exec (.storeDrain ⟨t, .clean⟩) s = .next { s with dev := d } ∧
        (∀ a, rdByte d a = if e.pa ≤ a ∧ a < e.pa + e.bytes then (leBytes e.bytes e.data.val.toNat).getD (a - e.pa) 0 else rdByte s.dev a) ∧
        (∀ w, tagAt d w = if e.bytes = 8 ∧ w = e.pa / 8 then (if e.tagged then e.data.tag else 0) else tagAt s.dev w) ∧
        (∀ w, poisonAt d w = (poisonAt s.dev w && !(decide (e.bytes = 8 ∧ w = e.pa / 8)))) ∧
        thr d t.val = { thr s.dev t.val with storeBuf := rest } ∧ OthersKept s.dev d t.val ∧
        (e.bytes = 8 ∨ poisonAt s.dev (e.pa / 8) = false → RegsKept s.dev d [])) ∧
    (e.kind = .zero → e.pa % 64 = 0 →
      ∃ d, exec (.storeDrain ⟨t, .clean⟩) s = .next { s with dev := d } ∧
        (∀ a, rdByte d a = if e.pa ≤ a ∧ a < e.pa + 64 then 0 else rdByte s.dev a) ∧
        (∀ w, tagAt d w = if w / 8 = e.pa / 64 then 0 else tagAt s.dev w) ∧ (∀ w, poisonAt d w = (poisonAt s.dev w && !(decide (w / 8 = e.pa / 64)))) ∧
        thr d t.val = { thr s.dev t.val with storeBuf := rest } ∧ OthersKept s.dev d t.val ∧ RegsKept s.dev d [])

/-- R386, R388, R48: an atomic on a word of a line that stands exclusive in its cluster, the caches ON: rd receives the old word with its tag, the word receives the atomic's result, and no other byte of memory changes; ATCAS stores only where value and tag are those expected. It says of each of these commands that exec answers the next state described, under conditions on the state and the operands alone: atswap, atadd, atcas, atmin, atmax. -/
def Obligations.AtomicsInAnOwnedLine : Prop :=
  ∀ (s : State) (t : Thr) (rd base b c : GReg) (pa : Nat),
    let x := thr s.dev t.val
    let va := (rv s.dev t.val base).toNat
    let o := wordAt s.dev pa
    let y := gpr x b
    let sum : Int := o.val.toInt + y.val.toInt
    x.storeBuf = [] → x.accs.all performed = true → nextDeferred x = none → inDram s.dev pa = true → va % 8 = 0 →
    atomicReady s.dev (t.val / 8) (pa / 64) = true → poisonAt s.dev (pa / 8) = false →
    ∀ e ∈ [(Instr.atswap t rd base b, (0 : GReg), some y),
           (.atadd t rd base b, 0, some ⟨o.val + y.val, if sum < -(2 ^ 63) ∨ 2 ^ 63 ≤ sum then mkTag 1 5 0 (tagMaint (combine [o.tag, y.tag])) else combine [o.tag, y.tag]⟩),
           (.atcas t rd base b c, c, if o = gpr x c then some y else none),
           (.atmin t rd base b, 0, some ⟨if o.val.toInt ≤ y.val.toInt then o.val else y.val, combine [o.tag, y.tag]⟩),
           (.atmax t rd base b, 0, some ⟨if y.val.toInt ≤ o.val.toInt then o.val else y.val, combine [o.tag, y.tag]⟩)],
      Reaches s.dev t.val [base, b, e.2.1] va 8 .atomic pa → trapsOn x.qmode o.tag = false → (∀ z, e.2.2 = some z → trapsOn x.qmode z.tag = false) →
      ∃ d, exec e.1 s = .next { s with dev := d } ∧ (∀ r, gpr (thr d t.val) r = gprAfter x rd ⟨o.val, resultTag x.qmode o.tag⟩ r) ∧
        (∀ z, e.2.2 = some z → StoredWord s.dev d pa z) ∧ (e.2.2 = none → StorageKept s.dev d) ∧
        SpecialKept x (thr d t.val) ∧ (thr d t.val).qmode = x.qmode ∧ (thr d t.val).fpcsr = x.fpcsr ∧ (thr d t.val).pc = (nextPc x).pc ∧ OthersKept s.dev d t.val

/-- R357, R408: data return of the oldest outstanding access: answered by its target, or cacheable and served by the core's L1; its register receives the data unless a newer write to it has issued, and the access is gone. It says of each of these commands that exec answers the next state described, under conditions on the state and the operands alone: loadReturn. -/
def Obligations.LoadReturnCompletesAnAccess : Prop :=
  ∀ (s : State) (t : Thr) (a : Acc), (thr s.dev t.val).accs = [a] → a.trap = none → a.err = none → a.live = true → a.poisoned = false →
    (∃ n sg, a.op = .loadValue n sg) ∨ a.op = .loadTagged →
    (a.uncached = true → a.phase = .returned → (a.op = .loadTagged → trapsOn a.qmode a.result.tag = false) →
      ∃ d, exec (.loadReturn t 0) s = .next { s with dev := d } ∧
        (∀ r : GReg, gpr (thr d t.val) r = if r.val = a.rd ∧ r ≠ 0 then ⟨a.result.val, resultTag a.qmode a.result.tag⟩ else gpr (thr s.dev t.val) r) ∧
        (thr d t.val).accs = [] ∧ (thr d t.val).pc = (thr s.dev t.val).pc ∧ SpecialKept (thr s.dev t.val) (thr d t.val) ∧ OthersKept s.dev d t.val ∧ StorageKept s.dev d) ∧
    (a.uncached = false → a.phase = .issued → a.op = .loadTagged → poisonAt s.dev (a.pa / 8) = false → trapsOn a.qmode (tagAt s.dev (a.pa / 8)) = false →
      (cFind s.dev (t.val / 8) (a.pa / 64)).isSome = true → l1Serves s.dev (t.val / 8) = true →
      ∃ d, exec (.loadReturn t 0) s = .next { s with dev := d } ∧
        (∀ r : GReg, gpr (thr d t.val) r = if r.val = a.rd ∧ r ≠ 0 then ⟨(wordAt s.dev a.pa).val, resultTag a.qmode (tagAt s.dev (a.pa / 8))⟩ else gpr (thr s.dev t.val) r) ∧
        (thr d t.val).accs = [] ∧ (thr d t.val).pc = (thr s.dev t.val).pc ∧ SpecialKept (thr s.dev t.val) (thr d t.val) ∧ OthersKept s.dev d t.val ∧ StorageKept s.dev d)

/-- R82, R83, R86, R13, R30: a thread's access reaches a plain bank over islands that have power: the bank accepts it under a credit of its queue where its owner or share mask lets it in, and answers it with an error, the bank as it was but for its counts, where not. A bank cycle performs an accepted access: a word store changes that word alone, tag and value together; a word load takes value and tag; its answer then goes back to the thread. It says of each of these commands that exec answers the next state described, under conditions on the state and the operands alone: bankRequest, bankGrant, uncachedResponse. -/
def Obligations.BankAccessOfAThread : Prop :=
  ∀ (s : State) (t : Thr) (n : BankId) (a : Acc), bankOf a.pa = some n.val → a.uncached = true → a.pa % 8 = 0 → bankMode s.dev n.val = 0 →
    (a.op = .storeTagged ∨ a.op = .loadTagged) → a.firstDone = false → a.trap = none → (thr s.dev t.val).accs = [a] →
    (a.phase = .issued → bankUp s.dev (some (t.val / 384)) n.val = true → mayIssue s.dev n.val = true →
      (plainAllows s.dev n.val (thrPart s.dev t.val) (accIsStore a.op) = true →
        ∃ d, exec (.bankRequest t) s = .next { s with dev := d } ∧
          (bank d n.val).queue = (bank s.dev n.val).queue ++ [{ thr := t.val, id := a.id, part := 0 }] ∧ (creditQ d n.val).out = (creditQ s.dev n.val).out + 1 ∧
          thr d t.val = { thr s.dev t.val with accs := [{ a with phase := .waiting }] } ∧ OthersKept s.dev d t.val ∧ StorageKept s.dev d ∧ RegsKept s.dev d []) ∧
      (plainAllows s.dev n.val (thrPart s.dev t.val) (accIsStore a.op) = false →
        ∃ d, exec (.bankRequest t) s = .next { s with dev := d } ∧ (bank d n.val).queue = (bank s.dev n.val).queue ∧
          thr d t.val = { thr s.dev t.val with accs := [{ a with phase := .done, err := some { kind := 0 } }] } ∧
          OthersKept s.dev d t.val ∧ StorageKept s.dev d ∧ RegsKept s.dev d [BK_STAT n.val])) ∧
    (∀ q : BankReq, q.thr = t.val → q.id = a.id → q.part = 0 → (bank s.dev n.val).queue = [q] → (bank s.dev n.val).occ = [] → (bank s.dev n.val).uses = [] →
      fbit s.dev (BK_CTRL n.val) BK_CTRL_CLEAR_BUSY = false → a.phase = .waiting →
      ∃ d, exec (.bankGrant ⟨n, []⟩) s = .next { s with dev := d } ∧ (bank d n.val).queue = [] ∧
        (a.op = .storeTagged → StoredWord s.dev d a.pa a.data ∧ thr d t.val = { thr s.dev t.val with accs := [{ a with phase := .done, result := ⟨0, 0⟩, poisoned := false }] }) ∧
        (a.op = .loadTagged → StorageKept s.dev d ∧
          thr d t.val = { thr s.dev t.val with accs := [{ a with phase := .done, result := readTagged s.dev a.pa, poisoned := poisonAt s.dev (a.pa / 8) }] }) ∧
        OthersKept s.dev d t.val) ∧
    (∀ (data : Word) (fail : Bool), a.phase = .done → (thr s.dev t.val).exc = none → a.op = .loadTagged →
      exec (.uncachedResponse t data fail) s = .next { s with dev := setThr s.dev t.val { thr s.dev t.val with accs := [{ a with phase := .returned }] } })

/-- R399, R360, R361, R342, R400, R402: with an empty store buffer FENCE completes once no cacheable access is outstanding, FENCE.IO once no access is; PFLUSH completes and leaves the core's prefetch buffer and requests empty; ICINV completes, and of a line of DRAM leaves no copy in any instruction cache or prefetch buffer; CCLEAN and CFLUSH outside DRAM complete with no effect. None of them writes a register, a special register or memory. R396, R397, R398: TWAIT with a deadline that has passed goes on; else the thread waits, and its expiry brings device time to the deadline and lets it go on; TWAIT.C of a cyclic thread starts the wait for the end of its cycle, and CYCLE_END, once its stores have drained and its stores and atomics are answered, brings it to CYCLE_WAIT. No register, memory or other thread changes. It says of each of these commands that exec answers the next state described, under conditions on the state and the operands alone: fence, fenceIo, pflush, cclean, cflush, icinv, twait, twaitExpiry, twaitC, cycleEnd. -/
def Obligations.FencesAndTimeWaits : Prop :=
  (
    ∀ (s : State) (t : Thr) (base : GReg) (off : BitVec 14) (pa : Nat),
      (Issues s.dev t.val [] → (thr s.dev t.val).storeBuf = [] → (∀ a ∈ (thr s.dev t.val).accs, a.uncached = true) →
        ∃ d, exec (.fence t) s = .next { s with dev := d } ∧ (∀ r, gpr (thr d t.val) r = gpr (thr s.dev t.val) r) ∧ PlainFrame s.dev d t.val) ∧
      (Issues s.dev t.val [] → (thr s.dev t.val).storeBuf = [] → (thr s.dev t.val).accs = [] →
        ∃ d, exec (.fenceIo t) s = .next { s with dev := d } ∧ (∀ r, gpr (thr d t.val) r = gpr (thr s.dev t.val) r) ∧ PlainFrame s.dev d t.val) ∧
      (Issues s.dev t.val [] →
        ∃ d, exec (.pflush t) s = .next { s with dev := d } ∧ (∀ r, gpr (thr d t.val) r = gpr (thr s.dev t.val) r) ∧ PlainFrame s.dev d t.val ∧
          prefetched d (t.val / 8) = [] ∧ wantedLines d (t.val / 8) = []) ∧
      (Reaches s.dev t.val [base] (rv s.dev t.val base + off.signExtend 64).toNat 1 .load pa → inDram s.dev pa = false → ∀ i ∈ [Instr.cclean t base off, .cflush t base off],
        ∃ d, exec i s = .next { s with dev := d } ∧ (∀ r, gpr (thr d t.val) r = gpr (thr s.dev t.val) r) ∧ PlainFrame s.dev d t.val) ∧
      (Reaches s.dev t.val [base] (rv s.dev t.val base + off.signExtend 64).toNat 1 .load pa → 
        ∃ d, exec (.icinv t base off) s = .next { s with dev := d } ∧ (∀ r, gpr (thr d t.val) r = gpr (thr s.dev t.val) r) ∧ PlainFrame s.dev d t.val ∧
          (inDram s.dev pa = true → ∀ core, core < 192 → pa / 64 ∉ prefetched d core ∧ cFind d (l1iId core) (pa / 64) = none))) ∧
  (
    ∀ (s : State) (t : Thr) (a : GReg), (thr s.dev t.val).slot = .none →
      (Issues s.dev t.val [a] → (rv s.dev t.val a).toNat ≤ nowNs s.dev →
        ∃ d, exec (.twait t a) s = .next { s with dev := d } ∧ (∀ r, gpr (thr d t.val) r = gpr (thr s.dev t.val) r) ∧ PlainFrame s.dev d t.val) ∧
      (Issues s.dev t.val [a] → nowNs s.dev < (rv s.dev t.val a).toNat →
        ∃ d, exec (.twait t a) s = .next { s with dev := d } ∧ thr d t.val = { thr s.dev t.val with twait := some (rv s.dev t.val a).toNat } ∧
          OthersKept s.dev d t.val ∧ StorageKept s.dev d) ∧
      (∀ n, (thr s.dev t.val).twait = some n → (thr s.dev t.val).st = .running → (thr s.dev t.val).stepping = false →
        ∃ d, exec (.twaitExpiry t) s = .next { s with dev := d } ∧ n ≤ nowNs d ∧
          thr d t.val = { thr s.dev t.val with twait := none, pc := (thr s.dev t.val).pc + 4 } ∧ OthersKept s.dev d t.val ∧ StorageKept s.dev d) ∧
      (Issues s.dev t.val [] → (threadEntry s.dev t.val).isSome = true →
        ∃ d, exec (.twaitC t) s = .next { s with dev := d } ∧ thr d t.val = { thr s.dev t.val with cycleEnd := true } ∧
          OthersKept s.dev d t.val ∧ StorageKept s.dev d) ∧
      ((thr s.dev t.val).cycleEnd = true → (thr s.dev t.val).st = .running → (thr s.dev t.val).storeBuf = [] →
        (∀ a ∈ (thr s.dev t.val).accs, accIsStore a.op = true ∨ accIsAtomic a.op = true → a.phase = .returned) →
        ∃ d, exec (.cycleEnd t) s = .next { s with dev := d } ∧ thr d t.val = { thr s.dev t.val with st := .cycleWait, cycleEnd := false } ∧
          OthersKept s.dev d t.val ∧ StorageKept s.dev d))


/-! ## Exceptions, special registers, translation (11, 12, 09 R363) -/

/-- R404, R419, R420, R421, R436: SYSCALL takes vector 9, BRK vector 10 where no debugger halts it, both to resume at the next instruction with their code in CAUSE; a word that is no instruction takes vector 2 and resumes at itself (R369; which command carries it is the model's choice, log 43); INTERRUPT takes vector 16 + level of the best pending source, resumes at the interrupted instruction, and ends the source's pending bit. R601: BRK with its flag set, under a grant that reaches the thread, halts it for the debugger at the next instruction and takes no exception. It says of each of these commands that exec answers the next state described, under conditions on the state and the operands alone: syscall, brk, interrupt. -/
def Obligations.ExceptionEntryAndBreak : Prop :=
  (
    ∀ (s : State) (t : Thr) (d1 : Dev) (code : BitVec 10) (pa h : Nat), (thr s.dev t.val).slot = .none →
      let x := thr s.dev t.val
      let sys : ExcInfo := { vector := 9, resume := x.pc + 4, code := code.toNat, insn := wordOf (.syscall t ⟨code, none⟩) }
      let brk : ExcInfo := { vector := 10, resume := x.pc + 4, code := code.toNat, insn := wordOf (.brk t code) }
      (mapStarved s.dev t.val = false → issue s.dev t.val [] = .go d1 → EntryGoes d1 t.val 9 sys pa h →
        ∃ d, exec (.syscall t ⟨code, none⟩) s = .next { s with dev := d } ∧ Entered s.dev d t.val 9 sys pa h) ∧
      (∀ w : BitVec 32, decodeInsn t w.toNat = none → mapStarved s.dev t.val = false → issue s.dev t.val [] = .go d1 →
        let ill : ExcInfo := { vector := 2, resume := x.pc, insn := w.toNat }
        EntryGoes d1 t.val 2 ill pa h → ∃ d, exec (.syscall t ⟨code, some w⟩) s = .next { s with dev := d } ∧ Entered s.dev d t.val 2 ill pa h) ∧
      (mapStarved s.dev t.val = false → issue s.dev t.val [] = .go d1 → x.brkHalt = false ∨ tapReaches s.dev t.val = false → EntryGoes d1 t.val 10 brk pa h →
        ∃ d, exec (.brk t code) s = .next { s with dev := d } ∧ Entered s.dev d t.val 10 brk pa h) ∧
      (∀ l src, x.st = .running → x.exc = none → x.walk = none → x.cycleEnd = false → x.stepping = false → nextDeferred x = none →
        bestSource (pendingFor s.dev t.val) x.ipl = some (l, src) →
        let int : ExcInfo := { vector := 16 + l, resume := x.pc, faddr := src }
        EntryGoes (countCore { s.dev with pendSrc := mset (fun _ => false) s.dev.pendSrc src false } t.val 0x0E) t.val (16 + l) int pa h →
        ∃ d, exec (.interrupt t) s = .next { s with dev := d } ∧ Entered s.dev d t.val (16 + l) int pa h ∧ (src ≠ 0xE60 → mget (fun _ => false) d.pendSrc src = false))) ∧
  (
    ∀ (s : State) (t : Thr) (code : BitVec 10), Issues s.dev t.val [] → (thr s.dev t.val).brkHalt = true → tapReaches s.dev t.val = true → (thr s.dev t.val).stepping = false →
      ∃ d, exec (.brk t code) s = .next { s with dev := d } ∧ (thr d t.val).st = .haltedDebug ∧ (thr d t.val).pc = (nextPc (thr s.dev t.val)).pc ∧
        (∀ r, gpr (thr d t.val) r = gpr (thr s.dev t.val) r) ∧ SpecialKept (thr s.dev t.val) (thr d t.val) ∧ OthersKept s.dev d t.val ∧ StorageKept s.dev d)

/-- R427: ERET restores pc, slot, level, IPL, QMODE, the emergency mark and SSP from the 8 words of the frame at SSP, and no general register. It says of each of these commands that exec answers the next state described, under conditions on the state and the operands alone: eret. -/
def Obligations.ReturnFromException : Prop :=
  ∀ (s : State) (t : Thr) (d1 d2 : Dev) (l : List Nat), mapStarved s.dev t.val = false → issue s.dev t.val [] = .go d1 → (thr s.dev t.val).sup = true →
    (thr s.dev t.val).slot = .none → (thr s.dev t.val).storeBuf = [] → (thr s.dev t.val).accs = [] → readFrame d1 t.val = .ok (l, d2) →
    let w (i : Nat) : Nat := l.getD i 0
    ∃ d, exec (.eret t) s = .next { s with dev := d } ∧ (thr d t.val).pc = w 0 / 4 * 4 ∧
      (thr d t.val).slot = (if nbit (w 2) 6 then .exec (w 1 / 4 * 4) else .none) ∧ (thr d t.val).sup = nbit (w 7) 0 ∧
      (thr d t.val).ipl = min 16 (w 7 / 2 % 32) ∧ (thr d t.val).emerg = nbit (w 7) 6 ∧ (thr d t.val).qmode = w 7 / 128 % 4 ∧
      (thr d t.val).ssp = w 5 / 64 % 2 ^ 42 * 64 ∧ (∀ r, gpr (thr d t.val) r = gpr (thr s.dev t.val) r) ∧ (thr d t.val).fpcsr = (thr s.dev t.val).fpcsr ∧
      (thr d t.val).vbr = (thr s.dev t.val).vbr ∧ OthersKept s.dev d t.val ∧ StorageKept d2 d ∧
      (∀ a, rdByte d a = rdByte s.dev a) ∧ (∀ x, tagAt d x = tagAt s.dev x)

/-- R363, R364: MFSR reads every special register that can be read, under tag 0x00: those of every level, and in supervisor mode the rest but IPEND; SWRAISE reads 0. R363, R405: MTSR writes the fields of each writable special register and nothing else of the thread; the address registers keep their alignment, IPL at most 16, OVERRUN clears by a 1; the program counter moves on. It says of each of these commands that exec answers the next state described, under conditions on the state and the operands alone: mfsr, mtsr. -/
def Obligations.SpecialRegisterReadsAndWrites : Prop :=
  (
    ∀ (s : State) (t : Thr) (rd : GReg), Issues s.dev t.val [] →
      let x := thr s.dev t.val
      ∀ e ∈ [((0x00 : Fin 64), false, threadId s.dev t.val), (0x01, false, x.qmode), (0x02, false, x.fpcsr), (0x03, false, x.cycpin.toNat), (0x04, false, cycStat s.dev t.val),
             (0x05, true, x.pctl), (0x10, true, b2n x.sup + 2 * b2n x.emerg), (0x11, true, x.ipl), (0x12, true, x.vbr), (0x13, true, x.ssp), (0x14, true, x.stackLimit),
             (0x15, true, x.emsp), (0x17, true, 0), (0x20, true, x.ttb), (0x21, true, x.asid), (0x22, true, x.tctl),
             (0x23, true, x.tfault), (0x24, true, x.tfipa), (0x30, true, x.trcctl), (0x31, true, x.trcctx)],
        (e.2.1 = true → x.sup = true) →
        ∃ d, exec (.mfsr t rd e.1) s = .next { s with dev := d } ∧ RegisterResult s.dev d t.val rd ⟨BitVec.ofNat 64 e.2.2, 0⟩) ∧
  (
    ∀ (s : State) (t : Thr) (a : GReg), Issues s.dev t.val [a] → (thr s.dev t.val).stepping = false →
      let x := thr s.dev t.val
      let m := (rv s.dev t.val a).toNat
      ∀ e ∈ [((0x01 : Fin 64), false, { x with qmode := m % 4 }), (0x02, false, { x with fpcsr := m % 4096 }), (0x04, true, { x with overrun := x.overrun && !(nbit m 0) }),
             (0x05, true, { x with pctl := m % 2 }), (0x11, true, { x with ipl := min 16 (m % 32) }), (0x12, true, { x with vbr := m % 2 ^ 48 / 512 * 512 }),
             (0x13, true, { x with ssp := m % 2 ^ 48 / 64 * 64 }), (0x14, true, { x with stackLimit := m % 2 ^ 48 / 64 * 64 }), (0x15, true, { x with emsp := m % 2 ^ 48 / 64 * 64 }),
             (0x20, true, { x with ttb := m % 2 ^ 48 / 4096 * 4096 }), (0x21, true, { x with asid := m % 65536 }), (0x22, true, { x with tctl := m % 2 }),
             (0x30, true, { x with trcctl := m % 4 }), (0x31, true, { x with trcctx := m % 2 ^ 32 })],
        (e.2.1 = true → x.sup = true) → (e.1 = 0x01 → m % 4 ≠ 3) →
        ∃ d, exec (.mtsr t e.1 a) s = .next { s with dev := d } ∧ thr d t.val = { e.2.2 with pc := (nextPc x).pc, slot := .none } ∧
          OthersKept s.dev d t.val ∧ StorageKept s.dev d)

/-- R416, R435, R436: IPEND has bit L set exactly where a source of level L routed to the thread is pending; a write of SWRAISE raises source 0xF40 + s where its route names a thread of the writer's partition, and else nothing. It says of each of these commands that exec answers the next state described, under conditions on the state and the operands alone: mfsr, mtsr. -/
def Obligations.PendingAndSoftwareInterrupts : Prop :=
  ∀ (s : State) (t : Thr) (rd a : GReg) (d1 : Dev), mapStarved s.dev t.val = false → (thr s.dev t.val).sup = true →
    (issue s.dev t.val [] = .go d1 → ∃ d v, exec (.mfsr t rd 0x16) s = .next { s with dev := d } ∧ RegisterResult s.dev d t.val rd ⟨BitVec.ofNat 64 v, 0⟩ ∧
      ∀ l, nbit v l = (pendingFor d1 t.val).any (fun e => e.1 == l)) ∧
    (issue s.dev t.val [a] = .go d1 → 
      let src := 0xF40 + (rv s.dev t.val a).toNat % 64
      let r : Word := mget (fun _ => 0) s.dev.routes src
      ∃ d, exec (.mtsr t 0x17 a) s = .next { s with dev := d } ∧ PlainFrame s.dev d t.val ∧
        d.pendSrc = (if nbit r.toNat 0 = true ∧ thrPart s.dev (routeThr r) = thrPart s.dev t.val then mset (fun _ => false) d1.pendSrc src true else d1.pendSrc))

/-- R364, R404, R457: in user mode ERET, the TLB invalidations and the supervisor's special registers are illegal opcodes (vector 2); behind undrained stores the entry waits, and nothing is written. -/
def Obligations.PrivilegedInUserMode : Prop :=
  ∀ (s : State) (t : Thr) (rd a : GReg), Issues s.dev t.val [] → Issues s.dev t.val [a] → (thr s.dev t.val).sup = false → drained (thr s.dev t.val) = false →
    ∀ i ∈ [Instr.eret t, .tlbiva t a, .tlbiasid t a, .tlbiall t, .mfsr t rd 0x10, .mfsr t rd 0x13, .mfsr t rd 0x20, .mtsr t 0x12 a, .mtsr t 0x13 a, .mtsr t 0x17 a, .mtsr t 0x20 a],
      ∃ d y, exec i s = .next { s with dev := d } ∧ (thr d t.val).exc = some y ∧ y.vector = 2 ∧ y.resume = (thr s.dev t.val).pc ∧
        (thr d t.val).pc = (thr s.dev t.val).pc ∧ (∀ r, gpr (thr d t.val) r = gpr (thr s.dev t.val) r) ∧ SpecialKept (thr s.dev t.val) (thr d t.val) ∧
        OthersKept s.dev d t.val ∧ StorageKept s.dev d

/-- R457, R458, R459, R455: once the accesses they concern are accepted, TLBIVA, TLBIASID and TLBIALL leave no combined entry they name in any TLB of the partition's cores; PAGE_WALK, once its table reads are served, installs what the walk found and ends the wait. It says of each of these commands that exec answers the next state described, under conditions on the state and the operands alone: tlbiva, tlbiasid, tlbiall, pageWalk. -/
def Obligations.TlbMaintenance : Prop :=
  ∀ (s : State) (t : Thr) (a : GReg) (d1 : Dev), mapStarved s.dev t.val = false → (thr s.dev t.val).storeBuf = [] →
    let x := thr s.dev t.val
    ((thr s.dev t.val).sup = true →
      ∀ e ∈ [(Instr.tlbiva t a, [a], fun z : TlbEnt => tlbMatch x.asid (rv s.dev t.val a).toNat z), (.tlbiasid t a, [a], fun z => !z.global && z.asid == (rv s.dev t.val a).toNat % 65536),
             (.tlbiall t, [], fun _ => true)],
        issue s.dev t.val e.2.1 = .go d1 → partQuiet d1 (thrPart s.dev t.val) e.2.2 = true →
        ∃ d, exec e.1 s = .next { s with dev := d } ∧ (∀ r, gpr (thr d t.val) r = gpr x r) ∧ PlainFrame s.dev d t.val ∧
          ∀ core z, corePart s.dev core = thrPart s.dev t.val →
            z ∈ ((tlbOf d core).itlb ++ (tlbOf d core).dtlb ++ (tlbOf d core).l2).map (fun y => y.2) → z.s2 = true ∨ e.2.2 z = false) ∧
    (∀ w o d0, x.walk = some w → (walkReads s.dev t.val w.va).1 = some d0 → walk d0 t.val w.va w.kind x.sup = .ok o →
      ∃ d, exec (.pageWalk t) s = .next { s with dev := d } ∧ thr d t.val = { x with walk := none } ∧
        tlbOf d (t.val / 8) = l1TlbFill (l2TlbFill (o.used.foldl l2TlbFill (tlbOf s.dev (t.val / 8))) o.comb) w.kind o.comb ∧ OthersKept s.dev d t.val ∧
        StorageKept d0 d ∧ (∀ a, rdByte d a = rdByte s.dev a) ∧ (∀ y, tagAt d y = tagAt s.dev y))


/-! ## Caches and coherence (13) -/

/-- R484, R485, R486, R476, R213, R13, R15: a request that the arbiters grant and that finds its credits: one for a load or a fetch brings the line in and hands the loads that wait their data, one for ownership brings it in exclusive; a prefetch asked for puts a line into the core's buffer, from the L2 that holds it or from its home; the oldest write-back leaves the eviction buffer. A request without a credit stalls and moves nothing. It says of each of these commands that exec answers the next state described, under conditions on the state and the operands alone: directoryTransaction. -/
def Obligations.DirectoryTransactions : Prop :=
  ∀ (s : State) (core : CoreId) (line : Nat) (o : EccRead) (d1 : Dev), domOn s.dev (core.val / 8) = true → inDram s.dev (64 * line) = true →
    let c := core.val / 8
    let ch := chanOf s.dev (64 * line)
    ((wantsLine s.dev core.val line = true ∨ wantsFetch s.dev core.val line = true) → granted s.dev core.val line = true → homeCredit s.dev c ch = true →
      cFind s.dev (l2Id c) line = none → (evicted s.dev c).any (fun y => y.line == line) = false →
      cohRead (countCl (takeHome s.dev c ch) c 0x03) core.val line (wantsLine s.dev core.val line) o = some d1 →
      exec (.directoryTransaction core line .load o) s = .next { s with dev := captureLoads (noteGrant d1 core.val line) core.val line }) ∧
    (wantsOwn s.dev core.val line = true → granted s.dev core.val line = true → homeCredit s.dev c ch = true → (evicted s.dev c).any (fun y => y.line == line) = false →
      cohOwn (takeHome s.dev c ch) core.val line (wantsData s.dev core.val line) o = some d1 →
      exec (.directoryTransaction core line .own o) s = .next { s with dev := noteGrant d1 core.val line }) ∧
    (fbit s.dev (CL_CTRL c) CL_CTRL_PF_EN = true → l2State s.dev c = 1 → line ∈ wantedLines s.dev core.val → (cFind s.dev (l2Id c) line).isSome = true →
      ∃ d, exec (.directoryTransaction core line .prefetch o) s = .next { s with dev := d } ∧ line ∈ prefetched d core.val ∧ line ∉ wantedLines d core.val ∧
        d.threads = s.dev.threads ∧ d.regs = s.dev.regs ∧ StorageKept s.dev d) ∧
    (fbit s.dev (CL_CTRL c) CL_CTRL_PF_EN = true → l2State s.dev c = 1 → line ∈ wantedLines s.dev core.val → cFind s.dev (l2Id c) line = none →
      (evicted s.dev c).any (fun y => y.line == line) = false → grantAt s.dev ch c = true → homeCredit s.dev c ch = true → cohRead (takeHome s.dev c ch) core.val line false o = some d1 →
      ∃ d, exec (.directoryTransaction core line .prefetch o) s = .next { s with dev := d } ∧ line ∈ prefetched d core.val ∧ line ∉ wantedLines d core.val ∧
        d.threads = d1.threads ∧ d.regs = d1.regs ∧ StorageKept d1 d) ∧
    (∀ x rest, victimMode s.dev c = false → evicted s.dev c = x :: rest → grantAt s.dev (chanOf s.dev (64 * x.line)) c = true →
      (homeCredit s.dev c (chanOf s.dev (64 * x.line)) = true →
        ∃ d, exec (.directoryTransaction core line .writeBack o) s = .next { s with dev := d } ∧ evicted d c = rest ∧ d.threads = s.dev.threads ∧
          (∀ a, rdByte d a = rdByte s.dev a) ∧ ∀ w, tagAt d w = tagAt s.dev w) ∧
      (mayIssue s.dev (64 + c) = false →
        ∃ d, exec (.directoryTransaction core line .writeBack o) s = .next { s with dev := d } ∧ (creditQ d (64 + c)).waiting = true ∧ d.cache = s.dev.cache ∧
          d.threads = s.dev.threads ∧ StorageKept s.dev d))

/-- R487, R488, R61, R67, R15: once each channel it touches has a credit for it and grants it, an I/O read returns the newest bytes of its word and changes no cache, and an I/O write changes its own bytes alone and gives every word it touches tag 0x08; until then both wait and change no storage. R492 to R494, R504, R570, R571: a write of the cache enables turns the L2 on and each L1 that is enabled with it; a Drain that has ended leaves its cache OFF; a mark is kept with its device and recorded; the scrubs visit the next line and the next set. It says of each of these commands that exec answers the next state described, under conditions on the state and the operands alone: ioRead, ioWrite, cacheEnableWrite, drainComplete, deviceMark, scrubLine, cacheScrub. -/
def Obligations.IoAccessesAndCacheManagement : Prop :=
  (
    ∀ (s : State) (src : Fin 8) (a : PAddr) (bs : List Byte) (part : PartId),
      let word := a.toNat / 8 * 8
      let queue (pa : Nat) : Nat := mcQueue (chanOf s.dev pa) (24 + src.val)
      (inDram s.dev word = true →
        (dramWaits s.dev (24 + src.val) word 8 = [] →
          ∃ d, exec (.ioRead ⟨src, a, .clean⟩) s = .next { s with dev := d } ∧ d.readData = BitVec.ofNat 64 (leNat (rdBytes s.dev word 8)) ∧
            (creditQ d (queue word)).out = (creditQ s.dev (queue word)).out + 1 ∧ d.cache.ways = s.dev.cache.ways ∧ d.cache.dir = s.dev.cache.dir ∧
            d.cache.evict = s.dev.cache.evict ∧ d.threads = s.dev.threads ∧ d.regs = s.dev.regs ∧ StorageKept s.dev d) ∧
        (dramWaits s.dev (24 + src.val) word 8 ≠ [] →
          ∃ d, exec (.ioRead ⟨src, a, .clean⟩) s = .next { s with dev := d } ∧ (mayIssue s.dev (queue word) = false → (creditQ d (queue word)).waiting = true) ∧
            d.readData = s.dev.readData ∧ d.threads = s.dev.threads ∧ d.regs = s.dev.regs ∧ StorageKept s.dev d)) ∧
      (bs ≠ [] → inDram s.dev a.toNat = true → inDram s.dev (a.toNat + bs.length - 1) = true →
        (dramWaits s.dev (24 + src.val) a.toNat bs.length = [] →
          ∃ d, exec (.ioWrite ⟨src, a⟩ ⟨bs, []⟩ part none) s = .next { s with dev := d } ∧ (creditQ d (queue a.toNat)).out = (creditQ s.dev (queue a.toNat)).out + 1 ∧
            (∀ x, rdByte d x = if a.toNat ≤ x ∧ x < a.toNat + bs.length then bs.getD (x - a.toNat) 0 else rdByte s.dev x) ∧
            (∀ w, tagAt d w = if a.toNat / 8 ≤ w ∧ w ≤ (a.toNat + bs.length - 1) / 8 then 0x08 else tagAt s.dev w) ∧ d.threads = s.dev.threads) ∧
        (dramWaits s.dev (24 + src.val) a.toNat bs.length ≠ [] →
          ∃ d, exec (.ioWrite ⟨src, a⟩ ⟨bs, []⟩ part none) s = .next { s with dev := d } ∧ (mayIssue s.dev (queue a.toNat) = false → (creditQ d (queue a.toNat)).waiting = true) ∧
            d.threads = s.dev.threads ∧ d.regs = s.dev.regs ∧ StorageKept s.dev d))) ∧
  (
    ∀ (s : State) (who : Agent) (c : ClusterId) (l1 : Byte) (j : Fin 8) (ch : ChanId) (i : Fin 8) (dev : Fin 16) (a : CacheArray),
      (domOn s.dev c.val = true →
        ∃ d, exec (.cacheEnableWrite who c l1 true) s = .next { s with dev := d } ∧ l2State d c.val = 1 ∧ (∀ k, k < 8 → nbit l1.toNat k = true → l1State d (8 * c.val + k) = 1) ∧
          d.threads = s.dev.threads ∧ (∀ x, rdByte d x = rdByte s.dev x) ∧ ∀ w, tagAt d w = tagAt s.dev w) ∧
      (l1State s.dev (8 * c.val + j.val) = 2 →
        ∃ d, exec (.drainComplete c (some j)) s = .next { s with dev := d } ∧ l1State d (8 * c.val + j.val) = 0 ∧ d.threads = s.dev.threads ∧
          RegsKept s.dev d [CL_STATUS c.val] ∧ (∀ x, rdByte d x = rdByte s.dev x) ∧ ∀ w, tagAt d w = tagAt s.dev w) ∧
      (domOn s.dev (48 + ch.val / 2) = true → fbit s.dev (MC_MARK ch.val) (MC_MARK_MARKED i.val) = false → dev.val ≤ 9 → s.dev.smp.repairs.length < 16000 →
        ∃ d, exec (.deviceMark who ch i dev) s = .next { s with dev := d } ∧ fbit d (MC_MARK ch.val) (MC_MARK_MARKED i.val) = true ∧
          fget d (MC_MARK ch.val) (MC_MARK_DEVICE i.val) = dev.val ∧ d.smp.repairs = s.dev.smp.repairs ++ [{ kind := 3, unit := ch.val, arg := i.val * 16 + dev.val }] ∧
          StorageKept s.dev d) ∧
      (domOn s.dev (48 + ch.val / 2) = true → (scrubSt s.dev ch.val).pos + 1 < chanLines s.dev →
        ∃ d, exec (.scrubLine ch .clean) s = .next { s with dev := d } ∧ (scrubSt d ch.val).pos = (scrubSt s.dev ch.val).pos + 1 ∧ d.regs = s.dev.regs ∧ StorageKept s.dev d) ∧
      (domOn s.dev (arrayDomain a) = true →
        ∃ d, exec (.cacheScrub a []) s = .next { s with dev := d } ∧
          mget (fun _ => 0) d.cache.cscrub (arrayNum a) = (mget (fun _ => 0) s.dev.cache.cscrub (arrayNum a) + 1) % arraySets a ∧ d.regs = s.dev.regs ∧ StorageKept s.dev d))

/-! ## Registers and credits (00 R4, 01 R13 to R18, 21) -/

/-- R4, R640, R700: a write of a register of a block without power sets nothing anywhere; one to the share mask of a powered bank takes effect unless LOCK is set, which sets LOCK_VIOLATION instead; a 1 clears a W1C bit. It says of each of these commands that exec answers the next state described, under conditions on the state and the operands alone: registerWrite. -/
def Obligations.RegisterWrites : Prop :=
  ∀ (s : State) (who : Agent) (n : BankId) (c : ClusterId) (off : BitVec 28) (v : Word),
    (∀ r, reachReg who off.toNat = some r → domOn s.dev (blockDomain r.blk r.elem) = false → exec (.registerWrite who off v) s = .next s) ∧
    (reachReg who off.toNat = none → exec (.registerWrite who off v) s = .next s) ∧
    (domOn s.dev (24 + n.val) = true →
      ∃ d, exec (.registerWrite who (BitVec.ofNat 28 (BK_SHARE n.val)) v) s = .next { s with dev := d } ∧
        fget d (BK_SHARE n.val) BK_SHARE_MASK = (if fbit s.dev (BK_CTRL n.val) BK_CTRL_LOCK then fget s.dev (BK_SHARE n.val) BK_SHARE_MASK else v.toNat % 2 ^ 29) ∧
        (fbit s.dev (BK_CTRL n.val) BK_CTRL_LOCK = true → fget s.dev (BK_SHARE n.val) BK_SHARE_MASK ≠ v.toNat % 2 ^ 29 → fbit d (BK_CTRL n.val) BK_CTRL_LOCK_VIOLATION = true) ∧
        (fbit s.dev (BK_CTRL n.val) BK_CTRL_LOCK = false → RegsKept s.dev d [BK_SHARE n.val]) ∧ d.threads = s.dev.threads ∧ StorageKept s.dev d) ∧
    (domOn s.dev c.val = true →
      ∃ d, exec (.registerWrite who (BitVec.ofNat 28 (CL_ERR c.val)) v) s = .next { s with dev := d } ∧
        fbit d (CL_ERR c.val) CL_ERR_MAP_BUSY = (fbit s.dev (CL_ERR c.val) CL_ERR_MAP_BUSY && !(v.getLsbD 0)) ∧
        fbit d (CL_ERR c.val) CL_ERR_MAP_STARVE = (fbit s.dev (CL_ERR c.val) CL_ERR_MAP_STARVE && !(v.getLsbD 1)) ∧ RegsKept s.dev d [CL_ERR c.val] ∧ StorageKept s.dev d)

/-- R18: a new credit depth applies to credits that return after the write, and discards nothing; with a depth smaller than what is outstanding the producer issues nothing until enough has returned. It says of each of these commands that exec answers the next state described, under conditions on the state and the operands alone: creditDepthWrite. -/
def Obligations.CreditDepth : Prop :=
  ∀ (s : State) (q : Queue) (n : Byte), depthWritable q = true → domOn s.dev (queueDomain q) = true → 1 ≤ n.toNat → n.toNat ≤ 64 →
    ∃ d, exec (.creditDepthWrite q n) s = .next { s with dev := d } ∧ creditQ d (queueNum q) = { creditQ s.dev (queueNum q) with depth := n.toNat } ∧
      (∀ p, queueNum p ≠ queueNum q → creditQ d (queueNum p) = creditQ s.dev (queueNum p)) ∧ d.regs = s.dev.regs ∧ StorageKept s.dev d ∧
      (n.toNat ≤ (creditQ d (queueNum q)).out → mayIssue d (queueNum q) = false)

/-- R13, R16: the consumer returns one credit for each entry it accepts, which ends a stall; the twin link returns one for each message it takes; a queue that starves for more than 1 ms with a waiting request is recorded once, until a credit returns. It says of each of these commands that exec answers the next state described, under conditions on the state and the operands alone: creditReturn, queueStarved. -/
def Obligations.CreditReturnAndStarvation : Prop :=
  ∀ (s : State) (q : Queue) (n : Nat),
    (q ≠ .twin → (creditQ s.dev (queueNum q)).out = n + 1 → ∃ d, exec (.creditReturn q) s = .next { s with dev := d } ∧ (creditQ d (queueNum q)).out = n ∧ (creditQ d (queueNum q)).depth = (creditQ s.dev (queueNum q)).depth ∧
      (creditQ d (queueNum q)).free = (creditQ s.dev (queueNum q)).depth - n ∧ (creditQ d (queueNum q)).waiting = false ∧ (creditQ d (queueNum q)).recorded = false ∧
      (n < (creditQ s.dev (queueNum q)).depth → mayIssue d (queueNum q) = true) ∧ d.regs = s.dev.regs ∧ StorageKept s.dev d) ∧
    (∀ (m : TwinOut) (l : Nat), s.dev.twin.out = [m] → m.lane = some l → (creditQ s.dev 512).out = n + 1 →
      ∃ d, exec (.creditReturn .twin) s = .next { s with dev := d } ∧ d.twin.out = [] ∧ (creditQ d 512).out = n ∧ (creditQ d 512).waiting = false ∧
        d.regs = s.dev.regs ∧ StorageKept s.dev d) ∧
    ((creditQ s.dev (queueNum q)).waiting = true → mayIssue s.dev (queueNum q) = false → (creditQ s.dev (queueNum q)).recorded = false →
      s.dev.smp.phase = none → s.dev.smp.selfTest = none → fget s.dev SMP_CTRL SMP_CTRL_RAM_MIN ≤ 3 → s.dev.smp.ram.length < 1024 → fget s.dev TRC_TRIG TRC_TRIG_KIND ≠ 3 →
      ∃ d r, exec (.queueStarved q) s = .next { s with dev := d } ∧ (creditQ d (queueNum q)).recorded = true ∧ d.smp.ram = s.dev.smp.ram ++ [r] ∧ r.sev = 3 ∧
        r.block = (queueSource q).1 ∧ r.inst = (queueSource q).2 ∧ (creditQ s.dev (queueNum q)).since + nsUnits 1000000 < d.smp.op ∧ StorageKept s.dev d ∧
        ∀ d2, exec (.queueStarved q) { s with dev := d } = .next { s with dev := d2 } → d2 = d)

/-! ## Banks and bobbin pairs (03) -/

/-- R84, R85: a write of NEXT starts a handover, during which the old and the new owner are refused; its end, which comes once every request accepted from the old owner has completed, makes the new code the owner; while HBUSY is 1, and in pair and off mode, the write is dropped with HDROP. R38: a clear of a plain bank refuses every access while it runs and leaves every word of the bank, and no other, at value 0 with tag 0x00 and no poison. It says of each of these commands that exec answers the next state described, under conditions on the state and the operands alone: handoverStart, handoverEnd, bankClear, bankClearDone. -/
def Obligations.BankHandoverAndClear : Prop :=
  (
    ∀ (s : State) (who : Agent) (n : BankId) (next : Fin 64), 
      (domOn s.dev (24 + n.val) = true → fbit s.dev (BK_OWNER n.val) BK_OWNER_HBUSY = false → bankMode s.dev n.val = 0 →
        ∃ d, exec (.handoverStart who n next) s = .next { s with dev := d } ∧ fbit d (BK_OWNER n.val) BK_OWNER_HBUSY = true ∧ (bank d n.val).next = next.val ∧
          fget d (BK_OWNER n.val) BK_OWNER_OWNER = fget s.dev (BK_OWNER n.val) BK_OWNER_OWNER ∧ (bank d n.val).queue = (bank s.dev n.val).queue ∧
          (∀ wr, plainAllows d n.val next.val wr = false ∧ plainAllows d n.val (fget s.dev (BK_OWNER n.val) BK_OWNER_OWNER) wr = false) ∧
          RegsKept s.dev d [BK_OWNER n.val] ∧ d.threads = s.dev.threads ∧ StorageKept s.dev d) ∧
      (domOn s.dev (24 + n.val) = true → (fbit s.dev (BK_OWNER n.val) BK_OWNER_HBUSY = true ∨ bankMode s.dev n.val ≠ 0) →
        ∃ d, exec (.handoverStart who n next) s = .next { s with dev := d } ∧ fbit d (BK_CTRL n.val) BK_CTRL_HDROP = true ∧
          RegsKept s.dev d [BK_CTRL n.val] ∧ d.banks = s.dev.banks ∧ d.threads = s.dev.threads ∧ StorageKept s.dev d) ∧
      (fbit s.dev (BK_OWNER n.val) BK_OWNER_HBUSY = true → oldOwnerWaits s.dev n.val = true → exec (.handoverEnd n) s = .next s) ∧
      (fbit s.dev (BK_OWNER n.val) BK_OWNER_HBUSY = true → oldOwnerWaits s.dev n.val = false → (bank s.dev n.val).next = next.val →
        ∃ d, exec (.handoverEnd n) s = .next { s with dev := d } ∧ fbit d (BK_OWNER n.val) BK_OWNER_HBUSY = false ∧ fget d (BK_OWNER n.val) BK_OWNER_OWNER = next.val ∧
          (fbit s.dev (BK_CTRL n.val) BK_CTRL_CLEAR_BUSY = false → ∀ wr, plainAllows d n.val next.val wr = true) ∧
          RegsKept s.dev d [BK_OWNER n.val] ∧ d.threads = s.dev.threads ∧ StorageKept s.dev d)) ∧
  (
    ∀ (s : State) (n : BankId),
      (domOn s.dev (24 + n.val) = true → bankMode s.dev n.val = 0 → fbit s.dev (BK_CTRL n.val) BK_CTRL_CLEAR_BUSY = false →
        ∃ d, exec (.bankClear n) s = .next { s with dev := d } ∧ fbit d (BK_CTRL n.val) BK_CTRL_CLEAR_BUSY = true ∧ (∀ code wr, plainAllows d n.val code wr = false) ∧
          RegsKept s.dev d [BK_CTRL n.val] ∧ d.threads = s.dev.threads ∧ StorageKept s.dev d) ∧
      (fbit s.dev (BK_CTRL n.val) BK_CTRL_CLEAR_BUSY = true →
        let base := 0x300000000000 + n.val * 0x800000
        ∃ d, exec (.bankClearDone n) s = .next { s with dev := d } ∧ fbit d (BK_CTRL n.val) BK_CTRL_CLEAR_BUSY = false ∧
          (∀ a, rdByte d a = if base ≤ a ∧ a < base + 0x800000 then 0 else rdByte s.dev a) ∧
          (∀ w, tagAt d w = if base / 8 ≤ w ∧ w < base / 8 + 0x100000 then 0 else tagAt s.dev w) ∧
          (∀ w, poisonAt d w = (poisonAt s.dev w && !(decide (base / 8 ≤ w ∧ w < base / 8 + 0x100000)))) ∧
          (bank s.dev n.val).clearAt + 262144 * clockUnits ≤ d.smp.op ∧ RegsKept s.dev d [BK_CTRL n.val] ∧ d.threads = s.dev.threads))

/-- R96: enabling a controller clears both banks of its pair and starts the initialisation, whose end leaves every line-table entry with B 0, W one before the fill stamp, PV 0 and its policy and limit index; disabling stops it; bad regions are refused with REGION. It says of each of these commands that exec answers the next state described, under conditions on the state and the operands alone: pairEnable, pairDisable, pairInitDone. -/
def Obligations.PairEnableAndInitialisation : Prop :=
  ∀ (s : State) (who : Agent) (k : CtlId),
    let base := 0x300000000000 + 3 * k.val * 0x800000
    (domOn s.dev (24 + 3 * k.val) = true → isLocked s.dev .IMG k.val = false → fbit s.dev (IMG_CTRL k.val) IMG_CTRL_ENABLE = false → regionsValid s.dev k.val = true →
      bankMode s.dev (3 * k.val) = 1 → bankMode s.dev (3 * k.val + 1) = 2 →
      ∃ d, exec (.pairEnable who k) s = .next { s with dev := d } ∧ fbit d (IMG_CTRL k.val) IMG_CTRL_ENABLE = true ∧ fbit d (IMG_STATUS k.val) IMG_STATUS_INIT_BUSY = true ∧
        fbit d (IMG_STATUS k.val) IMG_STATUS_RUNNING = true ∧ (∀ a, rdByte d a = if base ≤ a ∧ a < base + 0x1000000 then 0 else rdByte s.dev a) ∧
        (∀ w, tagAt d w = if base / 8 ≤ w ∧ w < base / 8 + 0x200000 then 0 else tagAt s.dev w) ∧
        RegsKept s.dev d [IMG_CTRL k.val, IMG_STATUS k.val] ∧ d.threads = s.dev.threads) ∧
    (domOn s.dev (24 + 3 * k.val) = true → isLocked s.dev .IMG k.val = false → fbit s.dev (IMG_CTRL k.val) IMG_CTRL_ENABLE = false → regionsValid s.dev k.val = false →
      ∃ d, exec (.pairEnable who k) s = .next { s with dev := d } ∧ fbit d (IMG_ERR k.val) IMG_ERR_REGION = true ∧ RegsKept s.dev d [IMG_ERR k.val] ∧ StorageKept s.dev d) ∧
    (domOn s.dev (24 + 3 * k.val) = true → isLocked s.dev .IMG k.val = false → fbit s.dev (IMG_CTRL k.val) IMG_CTRL_ENABLE = true →
      ∃ d, exec (.pairDisable who k) s = .next { s with dev := d } ∧ fbit d (IMG_CTRL k.val) IMG_CTRL_ENABLE = false ∧ fbit d (IMG_STATUS k.val) IMG_STATUS_INIT_BUSY = false ∧
        fbit d (IMG_STATUS k.val) IMG_STATUS_RUNNING = false ∧ RegsKept s.dev d [IMG_CTRL k.val, IMG_STATUS k.val] ∧ StorageKept s.dev d) ∧
    (fbit s.dev (IMG_STATUS k.val) IMG_STATUS_INIT_BUSY = true → (imgSt s.dev k.val).heldWrites = [] → s.dev.hist.lists = [] →
      ∃ d, exec (.pairInitDone k) s = .next { s with dev := d } ∧ fbit d (IMG_STATUS k.val) IMG_STATUS_INIT_BUSY = false ∧
        (∀ line, bitsOf (ltEntry d k.val line) E_B = 0 ∧ bitsOf (ltEntry d k.val line) E_W = (fillStamp s.dev k.val + 65535) % 65536 ∧ bitsOf (ltEntry d k.val line) E_PV = 0 ∧
          ((imgSt s.dev k.val).lt.countP (fun e => e.1 == line) ≤ 1 →
            bitsOf (ltEntry d k.val line) E_POL = bitsOf (ltEntry s.dev k.val line) E_POL ∧ bitsOf (ltEntry d k.val line) E_STL = bitsOf (ltEntry s.dev k.val line) E_STL)) ∧
        RegsKept s.dev d [IMG_STATUS k.val] ∧ StorageKept s.dev d)

/-- R106: a line-table write with POL = 0b11 is dropped with BAD_POLICY, one while the controller is enabled with LT_RUNNING; otherwise the entry is written and no other; reads are accepted at any time, but no access while DONE is 0 (R707). It says of each of these commands that exec answers the next state described, under conditions on the state and the operands alone: ltRead, ltWrite. -/
def Obligations.LineTableAccess : Prop :=
  ∀ (s : State) (k : CtlId) (line : Fin 131072), domOn s.dev (24 + 3 * k.val) = true →
    (fbit s.dev (IMG_LT_INDEX k.val) IMG_LT_INDEX_DONE = false → ∀ i ∈ [Instr.ltRead k line, .ltWrite k line], exec i s = .next s) ∧
    (fbit s.dev (IMG_LT_INDEX k.val) IMG_LT_INDEX_DONE = true →
    (∃ d, exec (.ltRead k line) s = .next { s with dev := d } ∧ fget d (IMG_LT_DATA k.val) IMG_LT_DATA_ENTRY = (ltEntry s.dev k.val line.val).toNat % 2 ^ 39 ∧
      (∀ l, ltEntry d k.val l = ltEntry s.dev k.val l) ∧ RegsKept s.dev d [IMG_LT_INDEX k.val, IMG_LT_DATA k.val] ∧ StorageKept s.dev d) ∧
    (fbit s.dev (IMG_CTRL k.val) IMG_CTRL_ENABLE = false → bitsOf (reg s.dev (IMG_LT_DATA k.val)) E_POL ≠ 3 →
      ∃ d, exec (.ltWrite k line) s = .next { s with dev := d } ∧ ltEntry d k.val line.val = BitVec.ofNat 64 ((reg s.dev (IMG_LT_DATA k.val)).toNat % 2 ^ 39) ∧
        (∀ l, l ≠ line.val → ltEntry d k.val l = ltEntry s.dev k.val l) ∧ RegsKept s.dev d [IMG_LT_INDEX k.val] ∧ StorageKept s.dev d) ∧
    (bitsOf (reg s.dev (IMG_LT_DATA k.val)) E_POL = 3 →
      ∃ d, exec (.ltWrite k line) s = .next { s with dev := d } ∧ fbit d (IMG_ERR k.val) IMG_ERR_BAD_POLICY = true ∧ (∀ l, ltEntry d k.val l = ltEntry s.dev k.val l) ∧
        RegsKept s.dev d [IMG_LT_INDEX k.val, IMG_ERR k.val] ∧ StorageKept s.dev d) ∧
    (fbit s.dev (IMG_CTRL k.val) IMG_CTRL_ENABLE = true →
      ∃ d, exec (.ltWrite k line) s = .next { s with dev := d } ∧ fbit d (IMG_ERR k.val) IMG_ERR_LT_RUNNING = true ∧ (∀ l, ltEntry d k.val l = ltEntry s.dev k.val l) ∧
        RegsKept s.dev d [IMG_LT_INDEX k.val, IMG_ERR k.val] ∧ StorageKept s.dev d))

/-- R107, R109, R110, R111: an abandon of the current fill stamp by a free register is accepted, any other is dropped with ABANDON_REFUSED; one pass later BUSY has cleared; each visit of the sweeper moves it on by one entry, whose stamp it clamps to 32,767 behind the fill stamp. It says of each of these commands that exec answers the next state described, under conditions on the state and the operands alone: abandon, abandonSweepDone, sweeperVisit. -/
def Obligations.AbandonAndSweeper : Prop :=
  ∀ (s : State) (who : Agent) (k : CtlId) (a : Fin 2) (regions : BitVec 3) (stamp : BitVec 16),
    (domOn s.dev (24 + 3 * k.val) = true → stamp.toNat = fillStamp s.dev k.val → fbit s.dev (IMG_ABANDON k.val a.val) IMG_ABANDON_BUSY = false →
      ∃ d, exec (.abandon who k a regions stamp) s = .next { s with dev := d } ∧ fbit d (IMG_ABANDON k.val a.val) IMG_ABANDON_BUSY = true ∧
        fget d (IMG_ABANDON k.val a.val) IMG_ABANDON_REGIONS = regions.toNat ∧ fget d (IMG_ABANDON k.val a.val) IMG_ABANDON_STAMP = stamp.toNat ∧
        (∀ r, nbit regions.toNat r = true → lateRegion d k.val r = true) ∧ RegsKept s.dev d [IMG_ABANDON k.val a.val] ∧ StorageKept s.dev d) ∧
    (domOn s.dev (24 + 3 * k.val) = true → (stamp.toNat ≠ fillStamp s.dev k.val ∨ fbit s.dev (IMG_ABANDON k.val a.val) IMG_ABANDON_BUSY = true) →
      ∃ d, exec (.abandon who k a regions stamp) s = .next { s with dev := d } ∧ fbit d (IMG_ERR k.val) IMG_ERR_ABANDON_REFUSED = true ∧
        reg d (IMG_ABANDON k.val a.val) = reg s.dev (IMG_ABANDON k.val a.val) ∧ d.img = s.dev.img ∧ StorageKept s.dev d) ∧
    (fbit s.dev (IMG_ABANDON k.val a.val) IMG_ABANDON_BUSY = true → (imgSt s.dev k.val).abandonWait = [] →
      ∃ d, exec (.abandonSweepDone k a) s = .next { s with dev := d } ∧ fbit d (IMG_ABANDON k.val a.val) IMG_ABANDON_BUSY = false ∧
        (imgSt s.dev k.val).abandonAt.getD a.val 0 + 32768 * clockUnits ≤ d.smp.op ∧ StorageKept s.dev d ∧ d.threads = s.dev.threads) ∧
    (fbit s.dev (IMG_CTRL k.val) IMG_CTRL_ENABLE = true → (∀ r st, busyAbandon s.dev k.val r st = false) →
      let pos := (imgSt s.dev k.val).sweepPos
      let e := ltEntry s.dev k.val pos
      let c := fillStamp s.dev k.val
      ∃ d, exec (.sweeperVisit k 1) s = .next { s with dev := d } ∧ (imgSt d k.val).sweepPos = (pos + 1) % 131072 ∧
        bitsOf (ltEntry d k.val pos) E_W = (if 32767 ≤ (c + 65536 - bitsOf e E_W) % 65536 then (c + 32769) % 65536 else bitsOf e E_W) ∧
        bitsOf (ltEntry d k.val pos) E_B = bitsOf e E_B ∧ bitsOf (ltEntry d k.val pos) E_PV = bitsOf e E_PV ∧ bitsOf (ltEntry d k.val pos) E_POL = bitsOf e E_POL ∧
        (∀ l, l ≠ pos → ltEntry d k.val l = ltEntry s.dev k.val l) ∧ StorageKept s.dev d)


/-! ## The control cycle (04) -/

/-- R124, R126, R154, R158, R147, R267, R276: each action of a running class runs at T0 + OFFSET: RELEASE starts a thread at its cycle end at its entry with the pin of the fill cycle before, where no interrupt waits for it, and skips and counts one that is not there; GATHER_START queues the enabled streams of each masked controller that has power; DIGEST starts one digest per masked controller; AGREE opens the window of a twin pair; EVENT raises its source; MARK triggers the trace; INPUT_DEADLINE leaves the journal to AGREE. R302, R303, R306: a SAMPLE of a list of one readable signal, met for the first time, taken up while no other list is read, stores its committed value and tag at the time of the action as the sample its compression goes on from; nothing outside DRAM changes. It says of each of these commands that exec answers the next state described, under conditions on the state and the operands alone: releaseAction, inputDeadline, agreeAction, gatherStart, digestAction, eventAction, markAction, sampleAction. -/
def Obligations.PrickingActionsAndSamples : Prop :=
  (
    ∀ (s : State) (c : ClassId) (e : Fin 64) (p : PrickEntry),
      (NextAction s.dev c.val e.val 1 p → twinOn s.dev = false → s.dev.twin.freezeAt = none → s.dev.smp.moves = [] →
        ∀ i w, classEntries s.dev c.val = [(i, w)] → nbit (p.arg % 65536) (bitsOf w (15, 12)) = true → entryThr w < 1536 →
        let t := entryThr w
        let x := thr s.dev t
        nextDeferred x = none → bestSource (pendingFor s.dev t) x.ipl = none →
        ∃ d, exec (.releaseAction c e) s = .next { s with dev := d } ∧ ActionRan s.dev d c.val p ∧ StorageKept s.dev d ∧ OthersKept s.dev d t ∧
          (x.st = .cycleWait → thr d t = { x with st := .running, pc := bitsOf w (63, 16), slot := .none, cycpin := reg s.dev (CYC_NUMBER c.val) - 1,
                                                  releaseT0 := (cls s.dev c.val).t0, releaseCls := c.val, released := true, waitSpare := false, relHeld := none }) ∧
          (x.st ≠ .cycleWait → thr d t = x ∧ fget d (CYC_OVERRUN c.val) CYC_OVERRUN_LAST_THREAD = i % 256 ∧
            fget d (CYC_OVERRUN c.val) CYC_OVERRUN_SKIPPED = min 65535 (fget s.dev (CYC_OVERRUN c.val) CYC_OVERRUN_SKIPPED + 1))) ∧
      (NextAction s.dev c.val e.val 2 p → (agreeEntry s.dev c.val).isSome = true ∨ s.dev.twin.journal = [] →
        ∃ d, exec (.inputDeadline c e) s = .next { s with dev := d } ∧ ActionRan s.dev d c.val p ∧ d.regs = s.dev.regs ∧ d.threads = s.dev.threads ∧ StorageKept s.dev d) ∧
      (NextAction s.dev c.val e.val 3 p → inAgreement s.dev = true → s.dev.twin.journal = [] → (agreeOf s.dev c.val).early = none →
        ∃ d, exec (.agreeAction c e) s = .next { s with dev := d } ∧ ActionRan s.dev d c.val p ∧ (agreeOf d c.val).isOpen = true ∧
          (agreeOf d c.val).ends = (cls s.dev c.val).t0 + p.offset + windowNs s.dev c.val ∧
          (agreeOf d c.val).sent = (cls s.dev c.val).arrived.filter (fun i => bitsOf (ingressNow s.dev i) S_TWIN == 1) ∧ d.twin.out.length = s.dev.twin.out.length + 1 ∧
          d.threads = s.dev.threads ∧ StorageKept s.dev d) ∧
      (NextAction s.dev c.val e.val 4 p →
        ∃ d, exec (.gatherStart c e) s = .next { s with dev := d } ∧ ActionRan s.dev d c.val p ∧
          (∀ k, k < 8 → gatherRuns d k = gatherRuns s.dev k ++ (if nbit p.arg k = true ∧ egressOn s.dev.cyc.egressNow c.val k ≠ [] ∧ domOn s.dev (24 + 3 * k) = true then
              [{ cls := c.val, todo := (egressOn s.dev.cyc.egressNow c.val k).map (fun x => x.1), start := p.offset, entries := egressOn s.dev.cyc.egressNow c.val k }] else [])) ∧
          d.regs = s.dev.regs ∧ d.threads = s.dev.threads ∧ StorageKept s.dev d) ∧
      (NextAction s.dev c.val e.val 5 p →
        ∃ d, exec (.digestAction c e) s = .next { s with dev := d } ∧ ActionRan s.dev d c.val p ∧
          d.twin.digesting.map (fun x => (x.cls, x.k)) = s.dev.twin.digesting.map (fun x => (x.cls, x.k)) ++ ((rangeFrom 0 8).filter (nbit p.arg)).map (fun k => (c.val, k)) ∧
          d.regs = s.dev.regs ∧ d.threads = s.dev.threads ∧ StorageKept s.dev d) ∧
      (NextAction s.dev c.val e.val 7 p → nbit (mget (fun _ => (0 : Word)) s.dev.routes (0xF80 + 8 * c.val + p.arg % 8)).toNat 0 = true →
        ∃ d, exec (.eventAction c e) s = .next { s with dev := d } ∧ ActionRan s.dev d c.val p ∧ mget (fun _ => false) d.pendSrc (0xF80 + 8 * c.val + p.arg % 8) = true ∧
          d.regs = s.dev.regs ∧ d.threads = s.dev.threads ∧ StorageKept s.dev d) ∧
      (NextAction s.dev c.val e.val 8 p → fget s.dev TRC_TRIG TRC_TRIG_KIND = 1 → fget s.dev TRC_TRIG TRC_TRIG_ARG = p.arg % 65536 →
        fget s.dev TRC_STATUS TRC_STATUS_STATE = 1 → s.dev.trc.triggered = false →
        ∃ d, exec (.markAction c e) s = .next { s with dev := d } ∧ ActionRan s.dev d c.val p ∧ fget d TRC_STATUS TRC_STATUS_STATE = 2 ∧ d.trc.triggered = true ∧
          d.threads = s.dev.threads ∧ StorageKept s.dev d)) ∧
  (
    ∀ (s : State) (c : ClassId) (e : Fin 64) (p : PrickEntry) (x : Nat) (w : Word) (b : HBuf), NextAction s.dev c.val e.val 6 p → domOn s.dev 77 = true → p.arg % 65536 ≤ 1023 →
      bitsOf (hWord0 s.dev 1 (p.arg % 65536)) (41, 41) ≠ 0 → listSignals s.dev (hWord0 s.dev 1 (p.arg % 65536)) = [(x, w)] → hState s.dev = H_RUNNING →
      s.dev.hist.lists = [] → s.dev.hist.listEnd ≤ 5 * nowNs s.dev → signalWaits s.dev w = [] → regionBase s.dev 0 % 4096 = 0 → regionBase s.dev 2 % 4096 = 0 →
      s.dev.hist.openBuf = some b → b.blocks.length < 1000 → mget (fun _ => {}) s.dev.hist.comp x = ({} : HComp) →
      let k := bitsOf w (22, 20)
      let r := bitsOf w (24, 23)
      imgClass s.dev k = c.val → r ≠ 3 → bitsOf w (19, 0) < 8 * fget s.dev (IMG_REGION k r) IMG_REGION_COUNT → shared s.dev (3 * k) 0x18 = true → fbit s.dev (IMG_CTRL k) IMG_CTRL_ENABLE = true →
      domOn s.dev (24 + 3 * k) = true → domOn s.dev (24 + 3 * k + 1) = true →
      let y := pairRead s.dev k r (8 * fget s.dev (IMG_REGION k r) IMG_REGION_BASE + bitsOf w (19, 0)) ((fillStamp s.dev k + 65535) % 65536)
      ∃ d, exec (.sampleAction c e 1) s = .next { s with dev := d } ∧ ActionRan s.dev d c.val p ∧
        mget (fun _ => {}) d.hist.comp x = ({ a := some ⟨nowNs d, y.q.val, y.q.tag⟩ } : HComp) ∧ d.hist.lists = [] ∧ d.threads = s.dev.threads ∧
        (∀ a, inDram s.dev a = false → rdByte d a = rdByte s.dev a) ∧ ∀ w, inDram s.dev (8 * w) = false → tagAt d w = tagAt s.dev w)

/-- R119, R120, R121: enabling a class records the first failing check; when none fails ENABLE is set and the class waits for its first boundary more than 10 µs ahead; disabling a running class sets STOPPING. R98, R117, R118, R121: the first boundary of an enabled class sets RUNNING; each later one adds 1 to the class cycle number, brings device time to its nominal time and opens the next cycle, or ends the class when STOPPING is set. It says of each of these commands that exec answers the next state described, under conditions on the state and the operands alone: classEnable, classDisable, classBoundary. -/
def Obligations.ClassesAndBoundaries : Prop :=
  (
    ∀ (s : State) (c : ClassId), domOn s.dev 76 = true → fbit s.dev (CYC_CLASS_CTRL c.val) CYC_CLASS_CTRL_STOPPING = false →
      (fbit s.dev (CYC_CLASS_CTRL c.val) CYC_CLASS_CTRL_ENABLE = false →
        ∃ d, exec (.classEnable c) s = .next { s with dev := d } ∧ fget d (CYC_CLASS_CTRL c.val) CYC_CLASS_CTRL_CHECK = enableCheck s.dev c.val ∧
          fbit d (CYC_CLASS_CTRL c.val) CYC_CLASS_CTRL_ENABLE = (enableCheck s.dev c.val == 0) ∧ (cls d c.val).armed = ((cls s.dev c.val).armed || enableCheck s.dev c.val == 0) ∧
          (enableCheck s.dev c.val = 0 → nowNs s.dev + 10000 < boundaryNs s.dev c.val (cls d c.val).nextM ∧
            ((cls d c.val).nextM = 0 ∨ boundaryNs s.dev c.val ((cls d c.val).nextM - 1) ≤ nowNs s.dev + 10000)) ∧
          RegsKept s.dev d [CYC_CLASS_CTRL c.val, CYC_SPAN c.val] ∧ d.threads = s.dev.threads ∧ StorageKept s.dev d) ∧
      (fbit s.dev (CYC_CLASS_CTRL c.val) CYC_CLASS_CTRL_ENABLE = true →
        ∃ d, exec (.classDisable c) s = .next { s with dev := d } ∧ fbit d (CYC_CLASS_CTRL c.val) CYC_CLASS_CTRL_ENABLE = false ∧
          fbit d (CYC_CLASS_CTRL c.val) CYC_CLASS_CTRL_STOPPING = classRuns s.dev c.val ∧ (classRuns s.dev c.val = false → (cls d c.val).armed = false) ∧
          RegsKept s.dev d [CYC_CLASS_CTRL c.val] ∧ d.threads = s.dev.threads ∧ StorageKept s.dev d)) ∧
  (
    ∀ (s : State) (c : ClassId),
      let t0 := boundaryNs s.dev c.val (cls s.dev c.val).nextM
      domOn s.dev 76 = true → twinOn s.dev = false → s.dev.twin.journal = [] → s.dev.twin.joinWait = [] →
      (∀ j ∈ s.dev.hist.lists, j.cls ≠ c.val) → stillToRun s.dev c.val = [] → (∀ e ∈ schedule s.dev c.val, e.offset ≠ 0) →
      (classRuns s.dev c.val = false → (cls s.dev c.val).armed = true →
        ∃ d, exec (.classBoundary c) s = .next { s with dev := d } ∧ classRuns d c.val = true ∧ reg d (CYC_NUMBER c.val) = reg s.dev (CYC_NUMBER c.val) ∧
          cls d c.val = { nextM := (cls s.dev c.val).nextM + 1, t0 := t0, counted := (cls s.dev c.val).counted } ∧ t0 ≤ nowNs d ∧ reg d (CYC_NEXT_T0 c.val) = BitVec.ofNat 64 (t0 + periodNs s.dev c.val) ∧
          d.threads = s.dev.threads ∧ StorageKept s.dev d) ∧
      (classRuns s.dev c.val = true → fbit s.dev (CYC_CLASS_CTRL c.val) CYC_CLASS_CTRL_STOPPING = false →
        ∃ d, exec (.classBoundary c) s = .next { s with dev := d } ∧ classRuns d c.val = true ∧ reg d (CYC_NUMBER c.val) = reg s.dev (CYC_NUMBER c.val) + 1 ∧
          cls d c.val = { nextM := (cls s.dev c.val).nextM + 1, t0 := t0, counted := (cls s.dev c.val).counted } ∧ t0 ≤ nowNs d ∧ reg d (CYC_NEXT_T0 c.val) = BitVec.ofNat 64 (t0 + periodNs s.dev c.val) ∧
          d.threads = s.dev.threads ∧ StorageKept s.dev d) ∧
      (classRuns s.dev c.val = true → fbit s.dev (CYC_CLASS_CTRL c.val) CYC_CLASS_CTRL_STOPPING = true →
        ∃ d, exec (.classBoundary c) s = .next { s with dev := d } ∧ classRuns d c.val = false ∧ fbit d (CYC_CLASS_CTRL c.val) CYC_CLASS_CTRL_STOPPING = false ∧
          reg d (CYC_NUMBER c.val) = reg s.dev (CYC_NUMBER c.val) + 1 ∧ reg d (CYC_NEXT_T0 c.val) = 0 ∧ d.threads = s.dev.threads ∧ StorageKept s.dev d))

/-- R138, R143, R147, R150, R152, R13, R15, R17: a scatter of a controller that has power and waits for nothing at its banks runs the next descriptors of the oldest frame of its controller's queue; at the end of the frame's list the frame leaves and its credit returns, before it the rest of the list waits. A gather builds its next stream under a credit, for the offset that the costs of the run so far give, and without a credit it stalls; the frame built is handed over at its offset, returning the credit. It says of each of these commands that exec answers the next state described, under conditions on the state and the operands alone: scatter, gatherStream, gatherHandover. -/
def Obligations.ScatterAndGather : Prop :=
  ∀ (s : State) (k : CtlId) (c : ClassId) (at_ n : Nat),
    (∀ job rest, domOn s.dev (24 + 3 * k.val) = true → scatterQueue s.dev k.val = job :: rest → uncredited (job :: rest) = none → scatterWaits s.dev k.val job n = [] → job.buf = none →
      let x := scatterPart (advanceTo s.dev at_) k.val job n
      (x.ended = true →
        ∃ d, exec (.scatter k ⟨at_, n⟩) s = .next { s with dev := d } ∧ scatterQueue d k.val = rest ∧ at_ ≤ nowNs d ∧
          (creditQ d (32 + k.val)).out = (creditQ x.dev (32 + k.val)).out - 1 ∧ StorageKept x.dev d ∧ d.img = x.dev.img) ∧
      (x.ended = false →
        ∃ d, exec (.scatter k ⟨at_, n⟩) s = .next { s with dev := d } ∧
          scatterQueue d k.val = { job with run := some ((job.run.getD (0, 0, 0)).1 + x.descs, x.tag, x.coef) } :: rest ∧ at_ ≤ nowNs d ∧
          creditQ d (32 + k.val) = creditQ x.dev (32 + k.val) ∧ StorageKept x.dev d ∧ d.img = x.dev.img)) ∧
    (∀ run st rest, findRun c.val (gatherRuns s.dev k.val) = some run → run.todo = st :: rest →
      let e := mget (fun _ => 0) run.entries st
      (∀ fr, mayIssue s.dev (40 + k.val) = true → gatherWaits s.dev k.val e = [] → (buildFrame s.dev k.val e).1 = some fr →
        ∃ d b, exec (.gatherStream k c) s = .next { s with dev := d } ∧ builtFrames d k.val = builtFrames s.dev k.val ++ [b] ∧ b.stream = st ∧ b.frame = fr ∧ b.cls = c.val ∧
          b.offset = handoverOffset run.start (run.cost + (buildFrame s.dev k.val e).2.1) ∧
          (creditQ d (40 + k.val)).out = (creditQ s.dev (40 + k.val)).out + 1 ∧ d.threads = s.dev.threads ∧ StorageKept s.dev d) ∧
      (mayIssue s.dev (40 + k.val) = false →
        ∃ d, exec (.gatherStream k c) s = .next { s with dev := d } ∧ (creditQ d (40 + k.val)).waiting = true ∧ gatherRuns d k.val = gatherRuns s.dev k.val ∧
          builtFrames d k.val = builtFrames s.dev k.val ∧ d.threads = s.dev.threads ∧ StorageKept s.dev d)) ∧
    (∀ f rest, builtFrames s.dev k.val = f :: rest → 0 < (creditQ s.dev (40 + k.val)).out →
      ∃ d, exec (.gatherHandover k) s = .next { s with dev := d } ∧ builtFrames d k.val = rest ∧ (creditQ d (40 + k.val)).out + 1 = (creditQ s.dev (40 + k.val)).out ∧
        (f.cycle = (reg s.dev (CYC_NUMBER f.cls)).toNat → (cls s.dev f.cls).t0 + f.offset ≤ nowNs d) ∧ d.threads = s.dev.threads ∧ StorageKept s.dev d)

/-- R114, R116, R159, R165, R166, R132, R133: a read of CYC_TIME gives whole nanoseconds and latches the fraction; the loss of the selected domain sets HOLDOVER, in which device time goes on at its rate; once a second has passed since a record, the events counted since become one record with their count; a table access beyond its table sets TBL_RANGE and changes no entry, one inside it copies the entry, and a write puts the data words into that entry and no other: a Pricking or thread entry while its class is not enabled, a profile or a coefficient at any time, an ingress stream that is not refused and whose twin budget holds, an egress stream that is not refused while no class it concerns is enabled; a stream entry is in force at once while its class does not run, and a refused one sets STREAM and is dropped; while DONE is 0 an access is dropped (R707). It says of each of these commands that exec answers the next state described, under conditions on the state and the operands alone: cycTime, holdover, rateLimitFlush, cycTblRead, cycTblWrite. -/
def Obligations.CycleTimeAndTables : Prop :=
  ∀ (s : State) (who : Agent) (table : Fin 16) (i : BitVec 16) (block inst : Byte) (code : BitVec 16),
    (domOn s.dev 76 = true →
      ∃ d, exec (.cycTime who) s = .next { s with dev := d } ∧ d.readData = BitVec.ofNat 64 (nowNs s.dev) ∧ fget d CYC_TIME_FRAC CYC_TIME_FRAC_FRAC = nowFrac s.dev % 65536 ∧
        RegsKept s.dev d [CYC_TIME_FRAC] ∧ d.time = s.dev.time ∧ d.threads = s.dev.threads ∧ StorageKept s.dev d) ∧
    (fget s.dev CYC_CTRL CYC_CTRL_TSRC < 2 → fget s.dev CYC_TIME_STATUS CYC_TIME_STATUS_STATE ≠ 3 →
      ∃ d, exec .holdover s = .next { s with dev := d } ∧ fget d CYC_TIME_STATUS CYC_TIME_STATUS_STATE = 3 ∧ d.time = s.dev.time ∧ d.rate = s.dev.rate ∧
        d.threads = s.dev.threads ∧ StorageKept s.dev d) ∧
    (∀ r n, rateOf block.toNat inst.toNat code.toNat s.dev.smp.rates = some r → r.counted = n + 1 →
      ∃ d, exec (.rateLimitFlush block inst code) s = .next { s with dev := d } ∧ r.last + opSecond ≤ d.smp.op ∧
        rateOf block.toNat inst.toNat code.toNat d.smp.rates = some { r with last := d.smp.op, counted := 0 } ∧ d.threads = s.dev.threads ∧ StorageKept s.dev d ∧
        (s.dev.smp.phase = none → s.dev.smp.selfTest = none → fget s.dev SMP_CTRL SMP_CTRL_RAM_MIN ≤ r.sev → s.dev.smp.ram.length < 1024 → fget s.dev TRC_TRIG TRC_TRIG_KIND ≠ 3 →
          ∃ q, d.smp.ram = s.dev.smp.ram ++ [q] ∧ q.sev = r.sev ∧ q.code = code.toNat ∧ q.block = block.toNat ∧ q.inst = inst.toNat ∧ q.count = min 65535 (n + 1) ∧
            q.payload = r.payload)) ∧
    (fbit s.dev CYC_TBL_INDEX CYC_TBL_INDEX_DONE = false → ∀ cmd ∈ [Instr.cycTblRead table i, .cycTblWrite table i], exec cmd s = .next s) ∧
    (fbit s.dev CYC_TBL_INDEX CYC_TBL_INDEX_DONE = true → domOn s.dev 76 = true → cycTableSize table.val ≤ i.toNat → ∀ cmd ∈ [Instr.cycTblRead table i, .cycTblWrite table i],
      ∃ d, exec cmd s = .next { s with dev := d } ∧ fbit d CYC_ERR CYC_ERR_TBL_RANGE = true ∧ RegsKept s.dev d [CYC_TBL_INDEX, CYC_ERR] ∧ d.cyc = s.dev.cyc ∧
        d.threads = s.dev.threads ∧ StorageKept s.dev d) ∧
    (fbit s.dev CYC_TBL_INDEX CYC_TBL_INDEX_DONE = true → domOn s.dev 76 = true → i.toNat < cycTableSize table.val →
      ∃ d, exec (.cycTblRead table i) s = .next { s with dev := d } ∧ reg d CYC_TBL_DATA0 = (cycEntry s.dev table.val i.toNat).1 ∧
        (table.val = 6 ∨ table.val = 2 → reg d CYC_TBL_DATA1 = (cycEntry s.dev table.val i.toNat).2) ∧ RegsKept s.dev d [CYC_TBL_INDEX, CYC_TBL_DATA0, CYC_TBL_DATA1] ∧
        d.cyc = s.dev.cyc ∧ d.threads = s.dev.threads ∧ StorageKept s.dev d) ∧
    (fbit s.dev CYC_TBL_INDEX CYC_TBL_INDEX_DONE = true → domOn s.dev 76 = true → i.toNat < cycTableSize table.val →
      let v := reg s.dev CYC_TBL_DATA0
      let on (c : Nat) : Bool := fbit s.dev (CYC_CLASS_CTRL c) CYC_CLASS_CTRL_ENABLE
      (table.val = 0 ∧ on (i.toNat / 64) = false ∨ table.val = 1 ∧ on (i.toNat / 256) = false ∨
        table.val = 2 ∧ streamRefused s.dev 1 v = false ∧ ingressBudget s.dev i.toNat v = true ∨
        table.val = 3 ∧ streamRefused s.dev 2 v = false ∧ on (bitsOf v S_CLASS) = false ∧ on (bitsOf (cycEntry s.dev 3 i.toNat).1 S_CLASS) = false ∨ 4 ≤ table.val →
        ∃ d, exec (.cycTblWrite table i) s = .next { s with dev := d } ∧ (cycEntry d table.val i.toNat).1 = v ∧
          (table.val = 6 ∨ table.val = 2 → (cycEntry d table.val i.toNat).2 = reg s.dev CYC_TBL_DATA1) ∧
          (table.val = 2 → classRuns s.dev (governing (ingressNow s.dev i.toNat) v) = false → ingressNow d i.toNat = v) ∧
          (table.val = 3 → classRuns s.dev (governing (egressNow s.dev i.toNat) v) = false → egressNow d i.toNat = v) ∧
          (∀ tb j, (tb, j) ≠ (table.val, i.toNat) → tb ≤ 6 → cycEntry d tb j = cycEntry s.dev tb j) ∧ RegsKept s.dev d [CYC_TBL_INDEX] ∧
          d.threads = s.dev.threads ∧ StorageKept s.dev d) ∧
      (table.val = 2 ∧ streamRefused s.dev 1 v = true ∨ table.val = 3 ∧ streamRefused s.dev 2 v = true →
        ∃ d, exec (.cycTblWrite table i) s = .next { s with dev := d } ∧ fbit d CYC_ERR CYC_ERR_STREAM = true ∧ d.cyc = s.dev.cyc ∧
          RegsKept s.dev d [CYC_TBL_INDEX, CYC_ERR] ∧ d.threads = s.dev.threads ∧ StorageKept s.dev d))


/-! ## Erg (05) -/

/-- R173, R178, R182, R184, R185, R187, R195, R198, R199: a frame is admitted under the reservation and the shared pool, with its VLAN classification and its destinations; at its last bit a good frame joins the queue of its destination port as that port sends it, and a bad one nothing, its length held to the PORT_MAXFRAME of its start; without a credit of the port's queue its end waits, the frame with its time of arrival kept; the head of the highest class in which a frame waits goes out; the last copy frees the frame. An unseen dynamic FDB entry is removed, and recovery resets. It says of each of these commands that exec answers the next state described, under conditions on the state and the operands alone: frameRxStart, frameRxEnd, frameTxStart, frameTxDone, fdbAgeing, recoveryReset. -/
def Obligations.FrameReceptionAndTransmission : Prop :=
  ∀ (s : State) (p : PortId) (ex : Bool) (bytes : List Byte) (at_ : Nat) (i : BitVec 17) (hd : Fin 16384) (corrected uncorrected : BitVec 32),
    (
      let h := parseHeader bytes
      linkUp s.dev p.val = true → (port s.dev p.val).rx.any (fun r => r.express == ex && r.arrived.isNone) = false → twinOn s.dev = false → h.etype ≠ 0x8808 → isReserved h.da = false →
       fget s.dev (PORT_VLAN p.val) PORT_VLAN_ACCEPT = 0 → fbit s.dev (PORT_VLAN p.val) PORT_VLAN_INGRESS_FILTER = false → fbit s.dev SW_CTRL SW_CTRL_LEARN_EN = false →
       streamHandle s.dev h (classify s.dev p.val h).1 = none → fbit s.dev (PORT_CTRL p.val) PORT_CTRL_CT_EN = false →
       (forwardTo s.dev (some p.val) none h.da (classify s.dev p.val h).1).2.1 = false →
       let full := (charge s.dev p.val (cellsOf (fget s.dev (PORT_MAXFRAME p.val) PORT_MAXFRAME_MAXFRAME))).isNone
       ∃ d r, exec (.frameRxStart p ex bytes) s = .next { s with dev := d } ∧ (port d p.val).rx = (port s.dev p.val).rx ++ [r] ∧ r.bytes = bytes ∧ r.express = ex ∧
         r.maxLen = fget s.dev (PORT_MAXFRAME p.val) PORT_MAXFRAME_MAXFRAME ∧ r.need = cellsOf r.maxLen ∧ r.first = nowNs s.dev ∧ r.dropped = full ∧ (r.vid, r.prio, r.tagged) = classify s.dev p.val h ∧
         r.dests = (forwardTo s.dev (some p.val) none h.da (classify s.dev p.val h).1).1 ∧ r.cuts = [] ∧
         (full = true → reg d (PORT_CNT p.val 7) = reg s.dev (PORT_CNT p.val 7) + 1) ∧
         (full = false → reg d (PORT_CNT p.val 7) = reg s.dev (PORT_CNT p.val 7) ∧ r.id = s.dev.erg.nextId ∧ d.erg.nextId = s.dev.erg.nextId + 1) ∧
         (∀ q tc, queueOf d q tc = queueOf s.dev q tc) ∧ CoresKept s.dev d) ∧
    (∀ r q, (port s.dev p.val).rx.find? (fun r => r.express == ex) = some r → r.arrived = none → r.dropped = false → r.control = false → r.cyclic = false → r.cuts = [] → r.dests = [.port q] → twinOn s.dev = false →
      let n := r.bytes.length
      let goodFcs := leNat (r.bytes.drop (n - 4)) == crcFcs (r.bytes.take (n - 4))
      64 ≤ n → n ≤ r.maxLen → mayIssue s.dev (128 + p.val) = true → linkUp s.dev q = true → fget s.dev (PORT_TC q) PORT_TC_QLIMIT = 0 → q < 128 → (∀ f ∈ s.dev.erg.frames, f.id = r.id → f.port = some p.val) →
      let tc := tcOf s.dev q r.prio
      ∃ d, exec (.frameRxEnd p ex ⟨at_, corrected, uncorrected⟩) s = .next { s with dev := d } ∧ at_ ≤ nowNs d ∧ creditQ d (128 + p.val) = { creditQ s.dev (128 + p.val) with free := (creditQ s.dev (128 + p.val)).free - 1, out := (creditQ s.dev (128 + p.val)).out + 1 } ∧ (port d p.val).rx = (port s.dev p.val).rx.eraseP (fun r => r.express == ex) ∧
        reg d (PORT_CNT p.val 0) = reg s.dev (PORT_CNT p.val 0) + 1 ∧ reg d (PORT_CNT p.val 1) = reg s.dev (PORT_CNT p.val 1) + BitVec.ofNat 64 n ∧
        (goodFcs = true → reg d (PORT_CNT p.val 4) = reg s.dev (PORT_CNT p.val 4) ∧ queueOf d q tc = queueOf s.dev q tc ++
          [{ id := r.id, bytes := egressFrame s.dev q (r.bytes.take (n - 4)) (parseHeader r.bytes).tag.isSome r.vid r.prio r.yellow, tc := tc, cells := cellsOf n }]) ∧
        (goodFcs = false → reg d (PORT_CNT p.val 4) = reg s.dev (PORT_CNT p.val 4) + 1 ∧ queueOf d q tc = queueOf s.dev q tc) ∧
        (∀ q1 tc1, (q1, tc1) ≠ (q, tc) → queueOf d q1 tc1 = queueOf s.dev q1 tc1) ∧ CoresKept s.dev d) ∧
    (∀ r, (port s.dev p.val).rx.find? (fun r => r.express == ex) = some r → r.arrived = none → r.dropped = false → r.control = false → mayIssue s.dev (128 + p.val) = false →
      ∃ d, exec (.frameRxEnd p ex ⟨at_, corrected, uncorrected⟩) s = .next { s with dev := d } ∧ at_ ≤ nowNs d ∧ (port d p.val).rx = (port s.dev p.val).rx.map (fun q => if q = r then { q with arrived := some at_ } else q) ∧
        (∀ q tc, queueOf d q tc = queueOf s.dev q tc) ∧ d.erg.frames = s.dev.erg.frames ∧ (creditQ d (128 + p.val)).waiting = true ∧
        (∀ j, reg d (PORT_CNT p.val j) = reg s.dev (PORT_CNT p.val j)) ∧ CoresKept s.dev d) ∧
    (∀ tc e rest, tc < 8 → linkUp s.dev p.val = true → gatesOn s.dev p.val = false → (port s.dev p.val).tx = [] → queueOf s.dev p.val tc = e :: rest → e.tc = tc →
      (∀ u, tc < u → u < 8 → queueOf s.dev p.val u = []) →
      ∃ d, exec (.frameTxStart p) s = .next { s with dev := d } ∧ queueOf d p.val tc = rest ∧ (∀ q u, (q, u) ≠ (p.val, tc) → queueOf d q u = queueOf s.dev q u) ∧
        (∃ t, (port d p.val).tx = [t] ∧ t.ent = e ∧ t.whole = e.cut.isNone) ∧ reg d (PORT_CNT p.val 2) = reg s.dev (PORT_CNT p.val 2) + 1 ∧
        reg d (PORT_CNT p.val 3) = reg s.dev (PORT_CNT p.val 3) + BitVec.ofNat 64 e.bytes.length ∧ CoresKept s.dev d) ∧
    (∀ t f, (port s.dev p.val).tx = [t] → t.whole = true → findFrame s.dev t.ent.id = some f → f.users ≤ 1 → (∀ q, f.port = some q → q < 128) → s.dev.erg.frames.filter (fun g => g.id == t.ent.id) = [f] →
      sharedFree s.dev + sharedHeld s.dev = fget s.dev SW_BUF SW_BUF_SHARED_SIZE →
      ∃ d, exec (.frameTxDone p) s = .next { s with dev := d } ∧ (port d p.val).tx = [] ∧ findFrame d t.ent.id = none ∧ sharedFree d = sharedFree s.dev + f.shared ∧
        (∀ id, id ≠ t.ent.id → findFrame d id = findFrame s.dev id) ∧ (∀ q u, queueOf d q u = queueOf s.dev q u) ∧ CoresKept s.dev d) ∧
    (fdbValid s.dev i.toNat = true → bitsOf (swWord s.dev 1 i.toNat 0) F_STATIC = 0 → 0 < fget s.dev SW_AGEING SW_AGEING_SECONDS →
      ∃ d, exec (.fdbAgeing i) s = .next { s with dev := d } ∧ fdbValid d i.toNat = false ∧ (∀ j k, j ≠ i.toNat → k < 4 → swWord d 1 j k = swWord s.dev 1 j k) ∧
        fget d SW_FDB_STAT SW_FDB_STAT_ENTRIES = fget s.dev SW_FDB_STAT SW_FDB_STAT_ENTRIES - 1 ∧
        mget (fun _ => 0) s.dev.erg.seen i.toNat + fget s.dev SW_AGEING SW_AGEING_SECONDS * 10 ^ 9 ≤ nowNs d ∧ RegsKept s.dev d [SW_FDB_STAT] ∧ CoresKept s.dev d) ∧
    ((mget (fun _ => {}) s.dev.erg.recovery hd.val).take = false →
      ∃ d, exec (.recoveryReset hd) s = .next { s with dev := d } ∧ mget (fun _ => {}) d.erg.recovery hd.val = ({} : RecoverySt) ∧
        (mget (fun _ => {}) s.dev.erg.recovery hd.val).last + bitsOf (swWord s.dev 2 hd.val 1) (31, 16) * 1000000 ≤ nowNs d ∧
        (∀ j, j ≠ hd.val → mget (fun _ => {}) d.erg.recovery j = mget (fun _ => {}) s.dev.erg.recovery j) ∧ d.regs = s.dev.regs ∧ CoresKept s.dev d)

/-- R181 to R183, R186: the SW tables: an entry read comes back in the data registers, an entry written holds them, an index beyond its table or a second entry with one key is refused; FDB_INSERT writes the entry of its key VALID, in a free way when there is none, and FDB_DELETE removes it. R168, R171, R172, R192 to R194, R196, R209: ports and their gates: CHANGE sets PENDING and a change time, at which the admin list becomes operational; the operational list moves the gates; verification of preemption ends in success or failure; auto-negotiation resolves to the fastest common mode and to the FEC that either end's request gives it (the FEC bits as log 41 reads them); a link that goes down flushes its queues and its dynamic FDB entries. It says of each of these commands that exec answers the next state described, under conditions on the state and the operands alone: swTblRead, swTblWrite, fdbInsert, fdbDelete, gateChange, gateConfigChange, gateOperation, gateListRead, gateListWrite, preemptVerifyDone, autoNegotiationDone, linkDown, portEn, linkUp. -/
def Obligations.SwitchTablesAndPorts : Prop :=
  (
    ∀ (s : State) (table : Fin 16) (i : BitVec 17), domOn s.dev 76 = true → fbit s.dev SW_TBL_INDEX SW_TBL_INDEX_DONE = true →
      let w0 := reg s.dev (SW_TBL_DATA 0)
      let mac := bitsOf w0 F_MAC
      let vid := bitsOf w0 F_VID
      let others (d : Dev) (t j : Nat) : Prop := ∀ t1 j1 k, (t1, j1) ≠ (t, j) → j1 < 131072 → k < 4 → swWord d t1 j1 k = swWord s.dev t1 j1 k
      (∀ cmd ∈ [Instr.swTblRead table i, .swTblWrite table i], swInRange table.val i.toNat = false →
        ∃ d, exec cmd s = .next { s with dev := d } ∧ fbit d SW_ERR SW_ERR_TBL_RANGE = true ∧ d.erg = s.dev.erg ∧ RegsKept s.dev d [SW_TBL_INDEX, SW_ERR] ∧ CoresKept s.dev d) ∧
      (swInRange table.val i.toNat = true →
        ∃ d, exec (.swTblRead table i) s = .next { s with dev := d } ∧ (∀ k, k < 4 → reg d (SW_TBL_DATA k) = swWord s.dev table.val i.toNat k) ∧ d.erg = s.dev.erg ∧
          RegsKept s.dev d [SW_TBL_INDEX, SW_TBL_DATA 0, SW_TBL_DATA 1, SW_TBL_DATA 2, SW_TBL_DATA 3] ∧ CoresKept s.dev d) ∧
      (swInRange table.val i.toNat = true →
        ∃ d, exec (.swTblWrite table i) s = .next { s with dev := d } ∧ CoresKept s.dev d ∧
          (table.val = 2 ∧ dupStream s.dev i.toNat w0 = true → fbit d SW_ERR SW_ERR_DUP_KEY = true ∧ d.erg = s.dev.erg ∧ RegsKept s.dev d [SW_TBL_INDEX, SW_ERR]) ∧
          (¬(table.val = 2 ∧ dupStream s.dev i.toNat w0 = true) → (∀ k, k < 4 → swWord d table.val i.toNat k = reg s.dev (SW_TBL_DATA k)) ∧ others d table.val i.toNat ∧
            RegsKept s.dev d [SW_TBL_INDEX, SW_FDB_STAT])) ∧
      (∀ cmd ∈ [Instr.fdbInsert table, .fdbDelete table], table.val ≠ 1 →
        ∃ d, exec cmd s = .next { s with dev := d } ∧ fbit d SW_ERR SW_ERR_TBL_RANGE = true ∧ fget d SW_TBL_INDEX SW_TBL_INDEX_TABLE = table.val ∧ fget d SW_TBL_INDEX SW_TBL_INDEX_INDEX = fget s.dev SW_TBL_INDEX SW_TBL_INDEX_INDEX ∧
          d.erg = s.dev.erg ∧ RegsKept s.dev d [SW_TBL_INDEX, SW_ERR] ∧ CoresKept s.dev d) ∧
      (∀ j, table.val = 1 → (fdbFind s.dev mac vid).or (fdbFree s.dev mac vid) = some j →
        ∃ d, exec (.fdbInsert table) s = .next { s with dev := d } ∧ swWord d 1 j 0 = putBits w0 F_VALID 1 ∧ (∀ k, 1 ≤ k → k < 4 → swWord d 1 j k = reg s.dev (SW_TBL_DATA k)) ∧ others d 1 j ∧
          fget d SW_TBL_INDEX SW_TBL_INDEX_INDEX = j ∧ RegsKept s.dev d [SW_TBL_INDEX, SW_FDB_STAT] ∧ CoresKept s.dev d) ∧
      (table.val = 1 → fdbFind s.dev mac vid = none → fdbFree s.dev mac vid = none →
        ∃ d, exec (.fdbInsert table) s = .next { s with dev := d } ∧ fbit d SW_ERR SW_ERR_FDB_SET_FULL = true ∧ fget d SW_TBL_INDEX SW_TBL_INDEX_INDEX = fget s.dev SW_TBL_INDEX SW_TBL_INDEX_INDEX ∧ d.erg = s.dev.erg ∧ RegsKept s.dev d [SW_TBL_INDEX, SW_ERR] ∧ CoresKept s.dev d) ∧
      (∀ j, table.val = 1 → fdbFind s.dev mac vid = some j →
        ∃ d, exec (.fdbDelete table) s = .next { s with dev := d } ∧ fdbValid d j = false ∧ others d 1 j ∧ fget d SW_TBL_INDEX SW_TBL_INDEX_INDEX = fget s.dev SW_TBL_INDEX SW_TBL_INDEX_INDEX ∧
          RegsKept s.dev d [SW_TBL_INDEX, SW_FDB_STAT] ∧ CoresKept s.dev d) ∧
      (table.val = 1 → fdbFind s.dev mac vid = none →
        ∃ d, exec (.fdbDelete table) s = .next { s with dev := d } ∧ fbit d SW_ERR SW_ERR_NOT_FOUND = true ∧ d.erg = s.dev.erg ∧ RegsKept s.dev d [SW_TBL_INDEX, SW_ERR] ∧ CoresKept s.dev d)) ∧
  (
    ∀ (s : State) (p : PortId) (list : Fin 2) (e : Fin 1024) (ok on : Bool) (who : Agent) (ability : BitVec 32) (modes : BitVec 7) (fec : BitVec 4) (fault : Bool),
      let g := PORT_GATE_CTRL p.val
      (isEthernet s.dev p.val = true →
        let base := (reg s.dev (PORT_GATE_BASE p.val)).toNat
        ∃ d, exec (.gateChange p) s = .next { s with dev := d } ∧ fbit d g PORT_GATE_CTRL_PENDING = true ∧ (nowNs s.dev < base → (port d p.val).changeAt = base) ∧
          (∀ c, c = fget s.dev g PORT_GATE_CTRL_CYCLE → 0 < c → base ≤ nowNs s.dev →
            nowNs s.dev + 1000 < (port d p.val).changeAt ∧ (port d p.val).changeAt ≤ nowNs s.dev + 1000 + c ∧ (∃ m, (port d p.val).changeAt = base + m * c)) ∧
          (port d p.val).oper = (port s.dev p.val).oper ∧ RegsKept s.dev d [g] ∧ CoresKept s.dev d) ∧
      (fbit s.dev g PORT_GATE_CTRL_PENDING = true →
        ∃ d, exec (.gateConfigChange p) s = .next { s with dev := d } ∧ fbit d g PORT_GATE_CTRL_PENDING = false ∧ (port d p.val).oper = (port s.dev p.val).admin ∧
          fget d g PORT_GATE_CTRL_OPER_LEN = fget s.dev g PORT_GATE_CTRL_ADMIN_LEN ∧ (port d p.val).operBase = (reg s.dev (PORT_GATE_BASE p.val)).toNat ∧
          (port d p.val).operCycle = fget s.dev g PORT_GATE_CTRL_CYCLE ∧ (port s.dev p.val).changeAt ≤ nowNs d ∧ RegsKept s.dev d [g] ∧ CoresKept s.dev d) ∧
      (∀ x, gatesOn s.dev p.val = true → operSegs s.dev p.val ≠ [] → gatesAt s.dev p.val (nowNs s.dev) = some x → (port s.dev p.val).gates ≠ x.1 →
        ∃ d, exec (.gateOperation p) s = .next { s with dev := d } ∧ (port d p.val).gates = x.1 ∧ d.time = s.dev.time ∧ d.regs = s.dev.regs ∧ CoresKept s.dev d) ∧
      (∀ x, isEthernet s.dev p.val = true → fbit s.dev (PORT_GATE_INDEX p.val) PORT_GATE_INDEX_DONE = true → mget (fun _ => {}) (if list.val = 0 then (port s.dev p.val).admin else (port s.dev p.val).oper) e.val = x → x.gates < 256 → x.interval < 2 ^ 32 →
        ∃ d, exec (.gateListRead p list e) s = .next { s with dev := d } ∧ fget d (PORT_GATE_DATA p.val) PORT_GATE_DATA_GATES = x.gates ∧
          fget d (PORT_GATE_DATA p.val) PORT_GATE_DATA_INTERVAL = x.interval ∧ d.erg = s.dev.erg ∧ RegsKept s.dev d [PORT_GATE_INDEX p.val, PORT_GATE_DATA p.val] ∧ CoresKept s.dev d) ∧
      (isEthernet s.dev p.val = true → fbit s.dev (PORT_GATE_INDEX p.val) PORT_GATE_INDEX_DONE = true →
        ∃ d, exec (.gateListWrite p list e) s = .next { s with dev := d } ∧ (port d p.val).oper = (port s.dev p.val).oper ∧ RegsKept s.dev d [PORT_GATE_INDEX p.val, SW_ERR] ∧ CoresKept s.dev d ∧
          (list.val = 0 ∧ fbit s.dev g PORT_GATE_CTRL_PENDING = false →
            mget (fun _ => {}) (port d p.val).admin e.val = ⟨fget s.dev (PORT_GATE_DATA p.val) PORT_GATE_DATA_GATES, fget s.dev (PORT_GATE_DATA p.val) PORT_GATE_DATA_INTERVAL⟩ ∧
            ∀ j, j ≠ e.val → mget (fun _ => {}) (port d p.val).admin j = mget (fun _ => {}) (port s.dev p.val).admin j) ∧
          (list.val = 1 ∨ fbit s.dev g PORT_GATE_CTRL_PENDING = true → fbit d SW_ERR SW_ERR_BAD_VALUE = true ∧ (port d p.val).admin = (port s.dev p.val).admin)) ∧
      (isEthernet s.dev p.val = true → fbit s.dev (PORT_GATE_INDEX p.val) PORT_GATE_INDEX_DONE = false → ∀ cmd ∈ [Instr.gateListRead p list e, .gateListWrite p list e], exec cmd s = .next s) ∧
      (fget s.dev (PORT_PREEMPT p.val) PORT_PREEMPT_STATUS = 2 →
        ∃ d, exec (.preemptVerifyDone p ok) s = .next { s with dev := d } ∧ fget d (PORT_PREEMPT p.val) PORT_PREEMPT_STATUS = (if ok then 3 else 4) ∧ d.erg = s.dev.erg ∧ CoresKept s.dev d) ∧
      (isEthernet s.dev p.val = true → fbit s.dev (PORT_STATUS p.val) PORT_STATUS_LINK = false → fbit s.dev (PORT_CTRL p.val) PORT_CTRL_EN = true → fbit s.dev (PORT_CTRL p.val) PORT_CTRL_AN_EN = true →
        let adv := fget s.dev (PORT_AN p.val) PORT_AN_ADV
        let m := Nat.land modes.toNat adv
        ∃ d, exec (.autoNegotiationDone p ability ⟨modes, fec⟩) s = .next { s with dev := d } ∧ fget d (PORT_AN p.val) PORT_AN_LP_ABILITY = ability.toNat ∧
          (∀ v, (v = 0 ∧ (nbit m 0 || nbit m 1) = true ∨ v = 1 ∧ nbits m 1 0 = 0 ∧ (nbit m 2 || nbit m 3) = true ∨ v = 2 ∧ nbits m 3 0 = 0 ∧ (nbit m 4 || nbit m 5) = true ∨
              v = 3 ∧ nbits m 5 0 = 0 ∧ nbit m 6 = true) →
            fget d (PORT_STATUS p.val) PORT_STATUS_SPEED_ACT = v ∧ fbit d (PORT_STATUS p.val) PORT_STATUS_AN_DONE = true ∧ (v ≤ 1 → fget d (PORT_STATUS p.val) PORT_STATUS_FEC_ACT = 3) ∧
            (v = 2 → fget d (PORT_STATUS p.val) PORT_STATUS_FEC_ACT = if nbit adv 7 || nbit fec.toNat 2 then 2 else if nbit fec.toNat 3 then 1 else 0) ∧
            (v = 3 → fget d (PORT_STATUS p.val) PORT_STATUS_FEC_ACT = if nbit fec.toNat 0 && (nbit adv 7 || nbit fec.toNat 1) then 1 else 0)) ∧
          (nbits m 6 0 = 0 → reg d (PORT_STATUS p.val) = reg s.dev (PORT_STATUS p.val)) ∧ RegsKept s.dev d [PORT_AN p.val, PORT_STATUS p.val] ∧ CoresKept s.dev d) ∧
      (linkUp s.dev p.val = true → ∀ cmd ∈ [Instr.linkDown ⟨p, fault⟩, .portEn who p false],
        ∃ d, exec cmd s = .next { s with dev := d } ∧ fbit d (PORT_STATUS p.val) PORT_STATUS_LINK = false ∧ (∀ tc, queueOf d p.val tc = []) ∧ (port d p.val).tx = [] ∧
          (∀ i, i < 131072 → fdbValid d i = true → fdbValid s.dev i = true ∧
            ¬(bitsOf (swWord s.dev 1 i 0) F_STATIC = 0 ∧ bitsOf (swWord s.dev 1 i 1) F_MASK = 0 ∧ bitsOf (swWord s.dev 1 i 1) F_DEST = p.val)) ∧
          reg d (PORT_CNT p.val 11) = reg s.dev (PORT_CNT p.val 11) + BitVec.ofNat 64 ((port s.dev p.val).queues.flatMap (fun q => q.2)).length ∧
          (cmd = .linkDown ⟨p, fault⟩ → fault = true → fbit d (PORT_STATUS p.val) PORT_STATUS_FAULT = true) ∧ (cmd = .portEn who p false → fbit d (PORT_CTRL p.val) PORT_CTRL_EN = false) ∧ CoresKept s.dev d) ∧
      (isEthernet s.dev p.val = true → fbit s.dev (PORT_STATUS p.val) PORT_STATUS_LINK = false → fbit s.dev (PORT_CTRL p.val) PORT_CTRL_EN = true → fbit s.dev (PORT_CTRL p.val) PORT_CTRL_AN_EN = false →
        ∃ d, exec (.linkUp p) s = .next { s with dev := d } ∧ linkUp d p.val = true ∧ fget d (PORT_STATUS p.val) PORT_STATUS_SPEED_ACT = fget s.dev (PORT_CTRL p.val) PORT_CTRL_SPEED ∧
          d.erg = s.dev.erg ∧ CoresKept s.dev d) ∧
      (isEthernet s.dev p.val = true →
        ∃ d, exec (.portEn who p true) s = .next { s with dev := d } ∧ fbit d (PORT_CTRL p.val) PORT_CTRL_EN = true ∧ d.erg = s.dev.erg ∧ RegsKept s.dev d [PORT_CTRL p.val] ∧ CoresKept s.dev d) ∧
      (isEthernet s.dev p.val = false → domOn s.dev (56 + p.val / 8) = true → ∀ cmd ∈ [Instr.gateChange p, .gateListRead p list e, .gateListWrite p list e, .portEn who p on],
        ∃ d, exec cmd s = .next { s with dev := d } ∧ fbit d SW_ERR SW_ERR_PORT_MODE = true ∧ d.erg = s.dev.erg ∧ RegsKept s.dev d [SW_ERR] ∧ CoresKept s.dev d))


/-! ## Root ports and port instances (05 R202 to R208, 06) -/

/-- R206 to R208, R432: an MSI write raises its source; a request to the addresses of the device's windows is an Unsupported Request, logged by AER, and one beyond the limits of R204 a malformed packet, dropped (the payload as the port's Max_Payload_Size has it); a read returns the bytes of the translated address with their poison, a write stores untagged bytes there; a completion timeout and a link down end non-posted requests in BE_KIND 2, and containment sets the trigger status where its control enables it (the bits as log 132 presumes them); PERST_N is released 100 ms of operating time after REFCLK_PCIE and the supplies are stable, and the link trains after it. It says of each of these commands that exec answers the next state described, under conditions on the state and the operands alone: pcieInboundRequest, completionTimeout, pcieLinkDown, pcieLinkUp, perstRelease. -/
def Obligations.RootPorts : Prop :=
  ∀ (s : State) (r : RootId) (data : List Byte) (n : BitVec 13) (addr : Word) (write : Bool),
    (rootLive s.dev r.val = true → (root s.dev r.val).up = true →
      (leNat data % 128 ≤ 95 →
        ∃ d, exec (.pcieInboundRequest r true (BitVec.ofNat 64 msiAddr) 4 data) s = .next { s with dev := d } ∧ (root d r.val).reply = some (true, false, []) ∧ (root d r.val).aer = (root s.dev r.val).aer ∧
          (nbit (mget (fun _ => (0 : Word)) s.dev.routes (96 * r.val + leNat data % 128)).toNat 0 = true → mget (fun _ => false) d.pendSrc (96 * r.val + leNat data % 128) = true) ∧
          (∀ x, x ≠ 96 * r.val + leNat data % 128 → mget (fun _ => false) d.pendSrc x = mget (fun _ => false) s.dev.pendSrc x) ∧ d.regs = s.dev.regs ∧ CoresKept s.dev d) ∧
      (n ≠ 0 → n.toNat ≤ (if write then maxPayload s.dev r.val else 4096) → 0x380000000000 ≤ addr.toNat → addr.toNat < 0x400000000000 → addr.toNat ≠ msiAddr →
        ∃ d, exec (.pcieInboundRequest r write addr n data) s = .next { s with dev := d } ∧ (root d r.val).aer = (root s.dev r.val).aer + 1 ∧ (root d r.val).reply = some (false, false, []) ∧
          nbit (cfgByte d r.val 0x106).toNat 4 = true ∧ (∀ o, o ≠ 0x106 → cfgByte d r.val o = cfgByte s.dev r.val o) ∧ d.regs = s.dev.regs ∧ CoresKept s.dev d) ∧
      ((if write then maxPayload s.dev r.val else 4096) < n.toNat →
        ∃ d, exec (.pcieInboundRequest r write addr n data) s = .next { s with dev := d } ∧ (root d r.val).aer = (root s.dev r.val).aer + 1 ∧ (root d r.val).reply = (root s.dev r.val).reply ∧
          nbit (cfgByte d r.val 0x106).toNat 2 = true ∧ d.regs = s.dev.regs ∧ CoresKept s.dev d) ∧
      (∀ pa, n ≠ 0 → n.toNat ≤ (if write then maxPayload s.dev r.val else 4096) → addr.toNat + n.toNat ≤ 0x380000000000 → addr.toNat % 4096 + n.toNat ≤ 4096 → (ioTranslate s.dev (rootOwner r.val) addr.toNat write).1 = some pa →
        inDram s.dev pa = true → inDram s.dev (pa + n.toNat - 1) = true → partWaits (ioTranslate s.dev (rootOwner r.val) addr.toNat write).2 (pa, n.toNat) = [] →
        (write = false → ∃ d, exec (.pcieInboundRequest r false addr n data) s = .next { s with dev := d } ∧ (root d r.val).reply = some (true, anyPoison s.dev pa n.toNat, rdBytes s.dev pa n.toNat) ∧
          CoresKept s.dev d) ∧
        (write = true → data.length = n.toNat → ∃ d, exec (.pcieInboundRequest r true addr n data) s = .next { s with dev := d } ∧ (root d r.val).reply = some (true, false, []) ∧
          (∀ x, rdByte d x = if pa ≤ x ∧ x < pa + n.toNat then data.getD (x - pa) 0 else rdByte s.dev x) ∧
          (∀ w, tagAt d w = if pa / 8 ≤ w ∧ w ≤ (pa + n.toNat - 1) / 8 then 0x08 else tagAt s.dev w) ∧ d.threads = s.dev.threads))) ∧
    (∀ t a rest, outstanding s.dev r.val = (t, a) :: rest → (thr s.dev t).accs = [a] →
      ∃ d, exec (.completionTimeout r) s = .next { s with dev := d } ∧ (thr d t).accs = [{ a with phase := .done, err := some { kind := 2 } }] ∧ OthersKept s.dev d t ∧ d.regs = s.dev.regs ∧ StorageKept s.dev d) ∧
    ((root s.dev r.val).up = true → s.dev.hist.flight = [] →
      (∃ d, exec (.pcieLinkDown ⟨r, false⟩) s = .next { s with dev := d } ∧ root d r.val = { root s.dev r.val with up := false } ∧ outstanding d r.val = [] ∧ StorageKept s.dev d) ∧
      (Nat.land (cfgByte s.dev r.val 0x156).toNat 3 ≠ 0 →
        ∃ d, exec (.pcieLinkDown ⟨r, true⟩) s = .next { s with dev := d } ∧ (root d r.val).up = false ∧ contained d r.val = true ∧ outstanding d r.val = [] ∧ StorageKept s.dev d) ∧
      (Nat.land (cfgByte s.dev r.val 0x156).toNat 3 = 0 → exec (.pcieLinkDown ⟨r, true⟩) s = .next s)) ∧
    (rootLive s.dev r.val = true → contained s.dev r.val = true → exec (.pcieLinkUp r) s = .next s) ∧
    (rootLive s.dev r.val = true → (root s.dev r.val).perst = false → contained s.dev r.val = false →
      ∃ d, exec (.pcieLinkUp r) s = .next { s with dev := d } ∧ root d r.val = { root s.dev r.val with up := true } ∧ d.regs = s.dev.regs ∧ CoresKept s.dev d) ∧
    (rootLive s.dev r.val = true → (root s.dev r.val).perst = true → fbit s.dev PWR_STATUS PWR_STATUS_PCIE_OK = true →
      ∃ d, exec (.perstRelease r) s = .next { s with dev := d } ∧ root d r.val = { root s.dev r.val with perst := false } ∧ s.dev.pwr.pcieStable + nsUnits 100000000 ≤ d.smp.op ∧
        d.regs = s.dev.regs ∧ CoresKept s.dev d)

/-- R226 to R241, R252: queue pairs and resets: a doorbell under the current generation sets TAIL and a stale one is counted; a transmit descriptor is read, its frame goes to its port and its completion stands in its place; data of an old generation are discarded; queue-pair words read back and are written, and an access while DONE is 0 is dropped; a direction disabled starts again at 0; a reset stops the instance, and its end moves the generation on. It says of each of these commands that exec answers the next state described, under conditions on the state and the operands alone: doorbell, piQpRead, piQpWrite, piTxDescriptor, staleDataReturn, instanceReset, instanceResetComplete, resetWaitTimeout. -/
def Obligations.QueuePairsAndResets : Prop :=
  ∀ (s : State) (i : InstId) (q : Fin 1024) (v : Word) (w : Fin 4),
    (domOn s.dev 76 = true →
      (bitsOf v (39, 32) ≠ piGen s.dev i.val →
        ∃ d, exec (.doorbell i v) s = .next { s with dev := d } ∧ fget d (PI_ERR i.val) PI_ERR_STALE_DB = min 65535 (fget s.dev (PI_ERR i.val) PI_ERR_STALE_DB + 1) ∧ d.inst = s.dev.inst ∧
          RegsKept s.dev d [PI_ERR i.val] ∧ CoresKept s.dev d) ∧
      (bitsOf v (39, 32) = piGen s.dev i.val →
        let x := qdir s.dev i.val (bitsOf v (9, 0)) (bitsOf v (10, 10))
        let ok := bitsOf v (9, 0) < qpCount s.dev i.val ∧ (bitsOf v (31, 16) + 65536 - x.head) % 65536 ≤ ringSize x
        ∃ d, exec (.doorbell i v) s = .next { s with dev := d } ∧ CoresKept s.dev d ∧
          (ok → qdir d i.val (bitsOf v (9, 0)) (bitsOf v (10, 10)) = { x with tail := bitsOf v (31, 16), early := false } ∧ d.regs = s.dev.regs ∧
            ∀ q1 d1, 2 * q1 + d1 ≠ 2 * bitsOf v (9, 0) + bitsOf v (10, 10) → qdir d i.val q1 d1 = qdir s.dev i.val q1 d1) ∧
          (¬ok → fbit d (PI_ERR i.val) PI_ERR_DB_RANGE = true ∧ d.inst = s.dev.inst ∧ RegsKept s.dev d [PI_ERR i.val])) ∧
      (qpCount s.dev i.val ≤ q.val → fbit s.dev (PI_QP_INDEX i.val) PI_QP_INDEX_DONE = true → ∀ cmd ∈ [Instr.piQpRead i q w], ∃ d, exec cmd s = .next { s with dev := d } ∧ fbit d (PI_ERR i.val) PI_ERR_DB_RANGE = true ∧ d.inst = s.dev.inst ∧
        RegsKept s.dev d [PI_QP_INDEX i.val, PI_ERR i.val] ∧ CoresKept s.dev d) ∧
      (fbit s.dev (PI_QP_INDEX i.val) PI_QP_INDEX_DONE = false → ∀ cmd ∈ [Instr.piQpRead i q w, .piQpWrite i q w], exec cmd s = .next s) ∧
      (q.val < qpCount s.dev i.val → fbit s.dev (PI_QP_INDEX i.val) PI_QP_INDEX_DONE = true →
        ∃ d, exec (.piQpRead i q w) s = .next { s with dev := d } ∧ reg d (PI_QP_DATA i.val) = qpWord s.dev i.val q.val w.val ∧ d.inst = s.dev.inst ∧
          RegsKept s.dev d [PI_QP_INDEX i.val, PI_QP_DATA i.val] ∧ CoresKept s.dev d) ∧
      (q.val < qpCount s.dev i.val → fbit s.dev (PI_QP_INDEX i.val) PI_QP_INDEX_DONE = true → 2 ≤ w.val →
        ∃ d, exec (.piQpWrite i q w) s = .next { s with dev := d } ∧ fbit d (PI_ERR i.val) PI_ERR_QP_BUSY = true ∧ d.inst = s.dev.inst ∧ RegsKept s.dev d [PI_QP_INDEX i.val, PI_ERR i.val] ∧ CoresKept s.dev d) ∧
      (q.val < qpCount s.dev i.val → fbit s.dev (PI_QP_INDEX i.val) PI_QP_INDEX_DONE = true → w.val < 2 → (qdir s.dev i.val q.val w.val).en = false → stashNamed s.dev i.val (bitsOf (reg s.dev (PI_QP_DATA i.val)) (54, 50)) = true →
        let u := reg s.dev (PI_QP_DATA i.val)
        let x := qdir s.dev i.val q.val w.val
        let en := bitsOf u (55, 55) == 1
        bitsOf u (45, 0) % 64 = 0 → bitsOf u (49, 46) ≤ 9 → (en = false → x.head = x.tail) →
        ∃ d, exec (.piQpWrite i q w) s = .next { s with dev := d } ∧
          qdir d i.val q.val w.val = { base := bitsOf u (45, 0), log := bitsOf u (49, 46), stash := bitsOf u (54, 50), irq := bitsOf u (56, 56) == 1, en := en,
                                       head := if en then x.head else 0, tail := if en then x.tail else 0, state := if en then 1 else 0, err := 0,
                                       early := en && x.early, closing := if en then x.closing else none } ∧
          RegsKept s.dev d [PI_QP_INDEX i.val] ∧ CoresKept s.dev d)) ∧
    (∀ w0 w1 d1, (piState s.dev i.val = PI_ACTIVE ∨ piState s.dev i.val = PI_NOTICE) → q.val < qpCount s.dev i.val → nextDesc s.dev i.val q.val 1 = (.desc w0 w1, d1) →
      60 ≤ bitsOf w0 (59, 46) → bitsOf w0 (59, 46) ≤ 9216 →
      let x := qdir s.dev i.val q.val 1
      x.closing = none → txWaits s.dev i.val q.val = [] → ∀ l d2, ioRange d1 (inst s.dev i.val).part (bitsOf w0 (45, 0)) (bitsOf w0 (59, 46)) false = (some l, d2) →
        (txReq s.dev i.val q.val = none →
          ∃ d, exec (.piTxDescriptor i q true) s = .next { s with dev := d } ∧ (inst d i.val).reqs = (inst s.dev i.val).reqs ++ [⟨q.val, piGen s.dev i.val, w0, w1⟩] ∧ qdir d i.val q.val 1 = x ∧ CoresKept s.dev d) ∧
        (∀ pa p2 pcp dei vid, partsPoisoned d2 l = false →
          let body := (ioReadParts d2 24 l).1
          let h := parseHeader body
          txFiltered s.dev i.val body = false → mayIssue s.dev (256 + i.val) = true → cellsOf (body.length + 4) ≤ sharedFree s.dev →
          (ioRange d2 (inst s.dev i.val).part (slotAddr x x.head) 16 true).1 = some [(pa, 16)] → x.stash = 31 → isReserved h.da = false → h.tag = some (pcp, dei, vid) → vid ≠ 0 →
          (forwardTo s.dev none (some i.val) h.da vid).1 = [.port p2] → p2 < 128 → linkUp s.dev p2 = true → fget s.dev (PORT_TC p2) PORT_TC_QLIMIT = 0 → txReq s.dev i.val q.val = none →
          ∃ d e, exec (.piTxDescriptor i q false) s = .next { s with dev := d } ∧ (qdir d i.val q.val 1).head = (x.head + 1) % 65536 ∧
            rdBytes d pa 16 = leBytes 8 (nowNs s.dev) ++ leBytes 8 (completionWord (piGen s.dev i.val) w1 0x00 body.length 0 false).toNat ∧
            queueOf d p2 (bitsOf w1 (10, 8)) = queueOf s.dev p2 (bitsOf w1 (10, 8)) ++ [e] ∧ e.bytes = egressFrame s.dev p2 body true vid pcp false ∧
            (creditQ d (256 + i.val)).out = (creditQ s.dev (256 + i.val)).out + 1 ∧ d.threads = s.dev.threads)) ∧
    (∀ r, (inst s.dev i.val).reqs.find? (fun r => r.gen != piGen s.dev i.val) = some r →
      ∃ d, exec (.staleDataReturn i) s = .next { s with dev := d } ∧ (inst d i.val).reqs = (inst s.dev i.val).reqs.erase r ∧
        fget d (PI_ERR i.val) PI_ERR_STALE_CPL = min 65535 (fget s.dev (PI_ERR i.val) PI_ERR_STALE_CPL + 1) ∧ (inst d i.val).qs = (inst s.dev i.val).qs ∧
        RegsKept s.dev d [PI_ERR i.val, PI_STATUS i.val] ∧ CoresKept s.dev d) ∧
    ((inst s.dev i.val).resetReq = true → piState s.dev i.val = PI_ACTIVE ∨ piState s.dev i.val = PI_NOTICE →
      ∃ d, exec (.instanceReset i) s = .next { s with dev := d } ∧ piState d i.val = PI_RESETTING ∧ (inst d i.val).resetReq = false ∧ (inst d i.val).qs = (inst s.dev i.val).qs ∧
        fbit d (PI_STATUS i.val) PI_STATUS_RESET_WAIT = resetBlocked s.dev i.val ∧ RegsKept s.dev d [PI_CTRL i.val, PI_STATUS i.val] ∧ CoresKept s.dev d) ∧
    (piState s.dev i.val = PI_RESETTING → resetBlocked s.dev i.val = false → (inst s.dev i.val).change = none → (inst s.dev i.val).removing = false →
      partState s.dev (inst s.dev i.val).part = P_RUNNING →
      ∃ d, exec (.instanceResetComplete i) s = .next { s with dev := d } ∧ piGen d i.val = (piGen s.dev i.val + 1) % 256 ∧ piState d i.val = PI_ACTIVE ∧
        (∀ q1 d1, (qdir d i.val q1 d1).en = false ∧ (qdir d i.val q1 d1).head = 0 ∧ (qdir d i.val q1 d1).tail = 0) ∧
        (∀ q1, (inst s.dev i.val).tenantReset = some q1 → (mbox d i.val).resp = some [BitVec.ofNat 64 (ST_OK + q1 * 2 ^ 16)]) ∧
        fbit d (mboxCtrl i.val) PI_MBOX_CTRL_IN_FULL = false ∧ fget d (mboxCtrl i.val) PI_MBOX_CTRL_NOTE_QUEUED = 0 ∧ CoresKept s.dev d) ∧
    (piState s.dev i.val = PI_RESETTING → resetBlocked s.dev i.val = true → (inst s.dev i.val).warned = false →
      ∃ d, exec (.resetWaitTimeout i) s = .next { s with dev := d } ∧ (inst d i.val).warned = true ∧ (inst s.dev i.val).resetAt + 1000000 ≤ nowNs d ∧ piState d i.val = PI_RESETTING ∧ CoresKept s.dev d)

/-- R243 to R247: a mailbox: SEND posts the outbound words and sets OUT_BUSY, and is dropped while it stands; a restarting Oasis answers BUSY; a response is placed inbound, sets IN_FULL and clears OUT_BUSY; a notice queued after the command waits for its response; a code that no row lists is answered NOT_SUPPORTED; IN_ACK clears IN_FULL; the data register reads and writes word INDEX, which advances. It says of each of these commands that exec answers the next state described, under conditions on the state and the operands alone: mboxSend, mailboxResponse, mboxInAck, mboxData. -/
def Obligations.Mailboxes : Prop :=
  ∀ (s : State) (mb : Mailbox) (v : Word),
    let m := mboxNum mb
    let c := mboxCtrl m
    let i := fget s.dev c PI_MBOX_CTRL_INDEX
    (fbit s.dev c PI_MBOX_CTRL_OUT_BUSY = false →
      ∃ d, exec (.mboxSend mb) s = .next { s with dev := d } ∧ fbit d c PI_MBOX_CTRL_OUT_BUSY = true ∧ (mbox d m).out = (mbox s.dev m).out ∧
        (restarting s.dev = false → (mbox d m).posted = true ∧ (mbox d m).resp = (mbox s.dev m).resp) ∧
        (restarting s.dev = true → Answers s.dev d m ST_BUSY []) ∧ RegsKept s.dev d [c] ∧ CoresKept s.dev d) ∧
    (fbit s.dev c PI_MBOX_CTRL_OUT_BUSY = true →
      ∃ d, exec (.mboxSend mb) s = .next { s with dev := d } ∧ d.mbox = s.dev.mbox ∧ (m < 256 → fbit d (PI_ERR m) PI_ERR_MBOX_BUSY = true) ∧
        (256 ≤ m → m < 272 → fbit d MGR_ERR MGR_ERR_MBOX_BUSY = true) ∧ RegsKept s.dev d [PI_ERR m, MGR_ERR] ∧ CoresKept s.dev d) ∧
    (∀ r, fbit s.dev c PI_MBOX_CTRL_IN_FULL = false → s.dev.pwr.held = 0 → s.dev.oasis.fw.isSome = true → (mbox s.dev m).posted = false → (mbox s.dev m).resp = some r →
      (mbox s.dev m).before = 0 →
      ∃ d, exec (.mailboxResponse mb) s = .next { s with dev := d } ∧ (mbox d m).inp = r ++ List.replicate (16 - r.length) 0 ∧ (mbox d m).resp = none ∧ fbit d c PI_MBOX_CTRL_IN_FULL = true ∧
        fbit d c PI_MBOX_CTRL_OUT_BUSY = false ∧ (mbox d m).notes = (mbox s.dev m).notes ∧
        (m < 256 → fbit s.dev (PI_CTRL m) PI_CTRL_MB_IRQ_EN = true → nbit (mget (fun _ => (0 : Word)) s.dev.routes (0x0C01 + 2 * m)).toNat 0 = true → mget (fun _ => false) d.pendSrc (0x0C01 + 2 * m) = true) ∧
        RegsKept s.dev d [c] ∧ CoresKept s.dev d) ∧
    ((mbox s.dev m).resp = none → fbit s.dev c PI_MBOX_CTRL_OUT_BUSY = true → (mbox s.dev m).before = 0 → ((mbox s.dev m).posted = true → mboxKnows m (mboxCode s.dev m) = true) →
      exec (.mailboxResponse mb) s = .next s) ∧
    (fbit s.dev c PI_MBOX_CTRL_IN_FULL = false → s.dev.pwr.held = 0 → s.dev.oasis.fw.isSome = true → (mbox s.dev m).posted = true → mboxKnows m (mboxCode s.dev m) = false → (mbox s.dev m).notes = [] →
      ∃ d, exec (.mailboxResponse mb) s = .next { s with dev := d } ∧ fbit d c PI_MBOX_CTRL_OUT_BUSY = false ∧ fbit d c PI_MBOX_CTRL_IN_FULL = true ∧
        (mbox d m).inp.getD 0 0 = BitVec.ofNat 64 (ST_NOT_SUPPORTED + mboxSeq s.dev m * 2 ^ 16) ∧ RegsKept s.dev d [c] ∧ CoresKept s.dev d) ∧
    (∃ d, exec (.mboxInAck mb) s = .next { s with dev := d } ∧ fbit d c PI_MBOX_CTRL_IN_FULL = false ∧ d.mbox = s.dev.mbox ∧ RegsKept s.dev d [c] ∧ CoresKept s.dev d) ∧
    (∃ d, exec (.mboxData mb none) s = .next { s with dev := d } ∧ fget d c PI_MBOX_CTRL_INDEX = (i + 1) % 16 ∧ d.mbox = s.dev.mbox ∧
      d.readData = (if fbit s.dev c PI_MBOX_CTRL_DIR then (mbox s.dev m).inp.getD i 0 else (mbox s.dev m).out.getD i 0) ∧ RegsKept s.dev d [c] ∧ CoresKept s.dev d) ∧
    (fbit s.dev c PI_MBOX_CTRL_DIR = false → fbit s.dev c PI_MBOX_CTRL_OUT_BUSY = false →
      ∃ d, exec (.mboxData mb (some v)) s = .next { s with dev := d } ∧ fget d c PI_MBOX_CTRL_INDEX = (i + 1) % 16 ∧ (mbox d m).out = listSet (mbox s.dev m).out i v ∧
        (mbox d m).inp = (mbox s.dev m).inp ∧ RegsKept s.dev d [c] ∧ CoresKept s.dev d)

/-- R242, R247: commands of a tenant, each answered OK with its effect, or refused with none: GET_INFO, SET_MAC of one address, SET_VLANS, SET_FLOOD, SET_STEER, RESET, and ACK_NOTICE of a resize to no fewer queue pairs. R247 to R251: commands of the instance manager: PI_CREATE makes a FREE instance ACTIVE in its partition; PI_RESIZE, PI_POLICY and PI_REMOVE announce a change with a new notice id and its deadline; another sender is DENIED; PI_MIGRATE is never supported; at the deadline the change is applied without acknowledgement. It says of each of these commands that exec answers the next state described, under conditions on the state and the operands alone: getInfo, setMac, setVlans, setFlood, setSteer, tenantReset, ackNotice, piCreate, piResize, piPolicy, piRemove, piMigrate, noticeDeadline. -/
def Obligations.InstanceCommands : Prop :=
  (
    ∀ (s : State) (i : InstId),
      let a (j : Nat) := mboxArg s.dev i.val j
      let x := inst s.dev i.val
      (Posts s.dev i.val 0x0001 →
        ∃ d, exec (.getInfo i) s = .next { s with dev := d } ∧ d.inst = s.dev.inst ∧ d.regs = s.dev.regs ∧ CoresKept s.dev d ∧
          Answers s.dev d i.val ST_OK [BitVec.ofNat 64 (i.val + x.part % 16 * 2 ^ 8 + qpCount s.dev i.val * 2 ^ 12 + piGen s.dev i.val * 2 ^ 23), BitVec.ofNat 64 (x.pvid % 4096 + x.flood % 8 * 2 ^ 12)]) ∧
      (∀ v k, Posts s.dev i.val 0x0002 → bitsOf (a 1) (63, 63) = 1 → bitsOf (a 1) (48, 48) = 0 → (∀ j, 2 ≤ j → j ≤ 4 → bitsOf (a j) (63, 63) = 0) →
        let mac := bitsOf (a 1) (47, 0)
        (isMulticast mac = true → ∃ d, exec (.setMac i) s = .next { s with dev := d } ∧ Answers s.dev d i.val ST_BAD_ARG [] ∧ d.inst = s.dev.inst ∧ d.erg = s.dev.erg ∧ d.regs = s.dev.regs) ∧
        (isMulticast mac = false → x.vlans = [v] → v < 4096 → fdbFind s.dev mac v = none → fdbFree s.dev mac v = some k → x.macs.contains mac = false → x.macs.length < 16 →
          ∃ d, exec (.setMac i) s = .next { s with dev := d } ∧ Answers s.dev d i.val ST_OK [] ∧ (inst d i.val).macs = x.macs ++ [mac] ∧ swWord d 1 k 1 = BitVec.ofNat 64 (0x100 + i.val) ∧
            bitsOf (swWord d 1 k 0) F_MAC = mac ∧ bitsOf (swWord d 1 k 0) F_VID = v ∧ fdbValid d k = true ∧ bitsOf (swWord d 1 k 0) F_STATIC = 1 ∧ RegsKept s.dev d [SW_FDB_STAT] ∧ CoresKept s.dev d)) ∧
      (Posts s.dev i.val 0x0003 →
        let pvid := bitsOf (a 1) (11, 0)
        let vs := vidsOf [a 2, a 3]
        pvid ≠ 4095 → vs.contains 4095 = false →
        ((pvid :: vs).all (fun v => x.permitted.contains v) = false → ∃ d, exec (.setVlans i) s = .next { s with dev := d } ∧ Answers s.dev d i.val ST_DENIED [] ∧ d.inst = s.dev.inst ∧ d.erg = s.dev.erg) ∧
        ((pvid :: vs).all (fun v => x.permitted.contains v) = true → x.macs = [] →
          ∃ d, exec (.setVlans i) s = .next { s with dev := d } ∧ Answers s.dev d i.val ST_OK [] ∧ inst d i.val = { x with pvid := pvid, vlans := vs } ∧ d.erg = s.dev.erg ∧ d.regs = s.dev.regs ∧ CoresKept s.dev d)) ∧
      (Posts s.dev i.val 0x0004 →
        ∃ d, exec (.setFlood i) s = .next { s with dev := d } ∧ Answers s.dev d i.val ST_OK [] ∧ inst d i.val = { x with flood := bitsOf (a 1) (2, 0) } ∧ d.regs = s.dev.regs ∧ CoresKept s.dev d) ∧
      (Posts s.dev i.val 0x0005 →
        let entry (e : Nat) := bitsOf (a (e / 6 + 1)) (10 * (e % 6) + 9, 10 * (e % 6))
        ∃ d, exec (.setSteer i) s = .next { s with dev := d } ∧ d.regs = s.dev.regs ∧ CoresKept s.dev d ∧
          ((∀ e, e < 64 → entry e < qpCount s.dev i.val) → Answers s.dev d i.val ST_OK [] ∧ ∀ e, e < 64 → (inst d i.val).steer[e]? = some (entry e)) ∧
          (¬(∀ e, e < 64 → entry e < qpCount s.dev i.val) → Answers s.dev d i.val ST_BAD_ARG [] ∧ d.inst = s.dev.inst)) ∧
      (Posts s.dev i.val 0x0006 → piState s.dev i.val ≠ PI_ACTIVE → piState s.dev i.val ≠ PI_NOTICE →
        ∃ d, exec (.tenantReset i) s = .next { s with dev := d } ∧ Answers s.dev d i.val ST_WRONG_STATE [] ∧ d.inst = s.dev.inst ∧ d.regs = s.dev.regs ∧ CoresKept s.dev d) ∧
      (Posts s.dev i.val 0x0006 → piState s.dev i.val = PI_ACTIVE ∨ piState s.dev i.val = PI_NOTICE →
        ∃ d, exec (.tenantReset i) s = .next { s with dev := d } ∧ inst d i.val = { x with resetReq := true, tenantReset := some (mboxSeq s.dev i.val) } ∧ (mbox d i.val).resp = (mbox s.dev i.val).resp ∧
          d.regs = s.dev.regs ∧ CoresKept s.dev d) ∧
      (Posts s.dev i.val 0x0007 →
        (∀ c, x.change = some c → c.id ≠ bitsOf (a 1) (15, 0) → ∃ d, exec (.ackNotice i) s = .next { s with dev := d } ∧ Answers s.dev d i.val ST_WRONG_STATE [] ∧ d.inst = s.dev.inst ∧ d.regs = s.dev.regs) ∧
        (∀ c, x.change = some c → c.code = 0x8001 → c.id = bitsOf (a 1) (15, 0) → piState s.dev i.val = PI_NOTICE → x.removing = false → x.reqs = [] → qpCount s.dev i.val ≤ c.count → c.count ≤ 1024 →
          c.manager ≠ i.val →
          ∃ d, exec (.ackNotice i) s = .next { s with dev := d } ∧ Answers s.dev d i.val ST_OK [] ∧ piState d i.val = PI_ACTIVE ∧ qpCount d i.val = c.count ∧ (inst d i.val).change = none ∧
            (fbit s.dev (mboxCtrl c.manager) PI_MBOX_CTRL_OUT_BUSY = true → (mbox s.dev c.manager).resp = none →
              (mbox d c.manager).resp = some [BitVec.ofNat 64 (ST_OK + mboxSeq s.dev c.manager * 2 ^ 16)]) ∧
            RegsKept s.dev d [PI_CTRL i.val] ∧ CoresKept s.dev d))) ∧
  (
    ∀ (s : State) (mb : Mailbox) (i : InstId),
      let m := mboxNum mb
      let a (j : Nat) := (mboxArg s.dev m j).toNat
      let x := inst s.dev i.val
      let noted (d : Dev) (c : PiChange) : Prop := piState d i.val = PI_NOTICE ∧ (inst d i.val).change = some c ∧ (inst d i.val).nextNotice = (x.nextNotice + 1) % 65536 ∧
        (mbox d m).resp = (mbox s.dev m).resp ∧ (mbox d i.val).notes.length = (mbox s.dev i.val).notes.length + 1 ∧ RegsKept s.dev d [PI_CTRL i.val, mboxCtrl i.val] ∧ CoresKept s.dev d
      (∀ e ∈ [(Instr.piCreate mb, 0x0101), (.piResize mb, 0x0102), (.piPolicy mb, 0x0103), (.piRemove mb, 0x0104)], Posts s.dev m e.2 → isManager s.dev m 5 = false →
        ∃ d, exec e.1 s = .next { s with dev := d } ∧ Answers s.dev d m ST_DENIED [] ∧ d.inst = s.dev.inst ∧ d.regs = s.dev.regs ∧ CoresKept s.dev d) ∧
      (Posts s.dev m 0x0101 → isManager s.dev m 5 = true → a 1 = i.val → createReady s.dev m = true →
        let vids := vidsOf [mboxArg s.dev m 4, mboxArg s.dev m 5, mboxArg s.dev m 6, mboxArg s.dev m 7]
        a 2 ≤ 15 → a 3 ≤ 1024 → vids.contains 4095 = false → piState s.dev i.val = PI_FREE → qpUsed s.dev + a 3 ≤ 4096 →
        ∃ d, exec (.piCreate mb) s = .next { s with dev := d } ∧ Answers s.dev d m ST_OK [] ∧ piState d i.val = PI_ACTIVE ∧ qpCount d i.val = a 3 ∧ (inst d i.val).part = a 2 ∧
          (inst d i.val).permitted = vids ∧ (∀ q1 d1, (qdir d i.val q1 d1).en = false) ∧ (inst d i.val).steer = List.replicate 64 0 ∧
          (partSt d (a 2)).s2 = (partSt s.dev (a 2)).s2 ++ [⟨piPage i.val, piPage i.val, 0x10000, 3⟩] ∧ RegsKept s.dev d [PI_CTRL i.val] ∧ CoresKept s.dev d) ∧
      (isManager s.dev m 5 = true → a 1 = i.val → piState s.dev i.val = PI_ACTIVE → x.resetReq = false → (mbox s.dev i.val).notes.length < 8 →
        (Posts s.dev m 0x0102 → 1 ≤ a 3 → a 3 ≤ 10000 → a 2 ≤ 1024 → qpUsed s.dev - qpCount s.dev i.val + a 2 ≤ 4096 →
          ∃ d, exec (.piResize mb) s = .next { s with dev := d } ∧
            noted d { code := 0x8001, id := x.nextNotice, count := a 2, deadline := nowNs s.dev + a 3 * 1000000, manager := m }) ∧
        (Posts s.dev m 0x0103 → 1 ≤ a 6 → a 6 ≤ 10000 →
          let vids := vidsOf [mboxArg s.dev m 2, mboxArg s.dev m 3, mboxArg s.dev m 4, mboxArg s.dev m 5]
          vids.contains 4095 = false →
          ∃ d, exec (.piPolicy mb) s = .next { s with dev := d } ∧ noted d { code := 0x8002, id := x.nextNotice, vids := vids, deadline := nowNs s.dev + a 6 * 1000000, manager := m }) ∧
        (Posts s.dev m 0x0104 → 1 ≤ a 2 → a 2 ≤ 10000 →
          ∃ d, exec (.piRemove mb) s = .next { s with dev := d } ∧ noted d { code := 0x8003, id := x.nextNotice, deadline := nowNs s.dev + a 2 * 1000000, manager := m })) ∧
      (Posts s.dev m 0x0105 → ∃ d, exec (.piMigrate mb) s = .next { s with dev := d } ∧ Answers s.dev d m ST_NOT_SUPPORTED [] ∧ d.inst = s.dev.inst ∧ d.regs = s.dev.regs ∧ CoresKept s.dev d) ∧
      (∀ c, x.change = some c → piState s.dev i.val = PI_NOTICE → x.removing = false →
        (c.code = 0x8003 → ∃ d, exec (.noticeDeadline i) s = .next { s with dev := d } ∧ c.deadline ≤ nowNs d ∧ inst d i.val = { x with removing := true, resetReq := true } ∧ d.regs = s.dev.regs ∧ CoresKept s.dev d) ∧
        (c.code = 0x8002 → x.reqs = [] → x.macs = [] →
          ∃ d, exec (.noticeDeadline i) s = .next { s with dev := d } ∧ c.deadline ≤ nowNs d ∧ piState d i.val = PI_ACTIVE ∧ (inst d i.val).permitted = c.vids ∧ (inst d i.val).change = none ∧
            (inst d i.val).vlans = x.vlans.filter (fun v => c.vids.contains v) ∧ (c.vids.contains x.pvid = true → (inst d i.val).pvid = x.pvid) ∧ RegsKept s.dev d [PI_CTRL i.val] ∧ CoresKept s.dev d)))


/-! ## The twin standby (07) -/

/-- R255, R261 to R269, R272, R276, R277, R281, R284, R286: what a device sends and what it does with a valid message of its peer: heartbeats each PERIOD and what they report, of which 16 in a row bring the link up, a bad CRC breaking the row; the arrival map and the fills it asks for, at most FILL_MAX, and one that comes before AGREE kept for it (log 139); a fill joins its controller's scatter queue; late ones are counted; digests that match, and digests that do not; journal entries; state copies, lines of mirrored DRAM written as they come, the last of which ends the join (a refused one as log 136 has it); the loss of the link, of which a joining device discards what was copied in (log 156), of a path and of a lane. R253, R254, R271, R272, R284, R285, R289, R290, R292: the twin's commands and their results: EN, JOIN, LEAVE, SWAP, START and COLD_START where the role allows them, WRONG_STATE elsewhere, and BUSY while DONE is 0; the ROLE_ACTIVE pin, high exactly while ROLE is ACTIVE; a swap not agreed is dropped after 10 heartbeat periods (as log 137 reads it); copy rounds; the end of a freeze; the journal; the tables. It says of each of these commands that exec answers the next state described, under conditions on the state and the operands alone: heartbeatSend, heartbeat, arrivalMap, frameFill, digestMessage, journalMsg, stateCopy, digestDone, digestMissed, linkLost, pathLost, twinLaneDown, twinLaneUp, agreementWindowEnd, twinEnable, twinJoin, twinLeave, twinSwap, twinStart, twinColdStart, swapTimeout, copyRound, freezeTimeout, journalSubmit, twinTblRead, twinTblWrite. -/
def Obligations.TwinMessagesAndCommands : Prop :=
  (
    ∀ (s : State) (at_ : Nat) (m : List Byte) (x : TwinMsg) (delay skew : BitVec 16) (c : ClassId) (k : CtlId) (l : Fin 8) (j : Fin 4), twinOn s.dev = true → domOn s.dev 78 = true →
      let hears (type : Nat) : Prop := parseTwin m = some x ∧ x.type = type
      let a := agreeOf s.dev x.cls
      let inWindow : Prop := inAgreement s.dev = true ∧ a.isOpen = true ∧ a.cycle = x.cycle ∧ nowNs s.dev ≤ a.ends ∧ at_ ≤ a.ends
      (∃ d b, exec .heartbeatSend s = .next { s with dev := d } ∧ d.twin.out.map (fun o => o.bytes) = s.dev.twin.out.map (fun o => o.bytes) ++ [b] ∧ b.headD 0 = 0x01 ∧ d.twin.txSeq = (s.dev.twin.txSeq + 1) % 2 ^ 32 ∧
        d.twin.hbAt = s.dev.twin.hbAt + hbPeriodNs s.dev ∧ nowNs d = max (nowNs s.dev) (s.dev.twin.hbAt + hbPeriodNs s.dev) ∧ CoresKept s.dev d) ∧
      (parseTwin m = none → ∀ cmd ∈ [Instr.heartbeat at_ m delay skew, .arrivalMap at_ m, .frameFill at_ m, .digestMessage at_ m, .journalMsg at_ m, .stateCopy at_ m],
        ∃ d, exec cmd s = .next { s with dev := d } ∧ d.twin = { s.dev.twin with goodBeats := 0 } ∧ at_ ≤ nowNs d ∧ role d = role s.dev ∧ peerRole d = peerRole s.dev ∧ CoresKept s.dev d) ∧
      (hears 0x01 → (peerOf x 0).unit ≠ unitNo s.dev → (peerOf x 0).swap = false → role s.dev = ISOLATED → s.dev.twin.joining = false → fbit s.dev TWIN_CTRL TWIN_CTRL_AUTO_JOIN = false →
        ∃ d, exec (.heartbeat at_ m delay skew) s = .next { s with dev := d } ∧ at_ ≤ nowNs d ∧ d.twin.lastRx = nowNs d ∧ d.twin.peer = peerOf x (nowNs d) ∧ d.twin.lastBeat = nowNs d ∧
          d.twin.goodBeats = (if nowNs d < s.dev.twin.lastBeat + 2 * hbPeriodNs s.dev then s.dev.twin.goodBeats + 1 else 1) ∧
          d.twin.linkUp = (s.dev.twin.linkUp || decide (16 ≤ d.twin.goodBeats)) ∧ fget d TWIN_STATUS TWIN_STATUS_DELAY = delay.toNat ∧ fget d TWIN_STATUS TWIN_STATUS_SKEW = skew.toNat ∧
          (d.twin.linkUp = true → peerRole d = (x.payload.getD 0 0).toNat % 8) ∧ (d.twin.linkUp = false → peerRole d = peerRole s.dev) ∧ role d = ISOLATED ∧
          fget d TWIN_EPOCH TWIN_EPOCH_PEER_EPOCH = x.epoch ∧ CoresKept s.dev d) ∧
      (hears 0x01 → (peerOf x 0).unit = unitNo s.dev → role s.dev ≠ JOINING → s.dev.twin.joining = false →
        ∃ d, exec (.heartbeat at_ m delay skew) s = .next { s with dev := d } ∧ fbit d TWIN_ERR TWIN_ERR_UNIT = true ∧ d.twin.linkUp = false ∧ d.twin.goodBeats = 0 ∧ role d = role s.dev ∧ CoresKept s.dev d) ∧
      (hears 0x02 → x.payload.length = 2056 → role s.dev = ACTIVE → inWindow → (∀ i ∈ a.sent, ∃ h ∈ a.held, h.1 = i) →
        let want := (rangeFrom 0 16384).filter (fun i => a.sent.contains i && !(nbit (x.payload.getD (i / 8) 0).toNat (i % 8)))
        ∃ d, exec (.arrivalMap at_ m) s = .next { s with dev := d } ∧ (agreeOf d x.cls).peerMap = true ∧ (agreeOf d x.cls).fills = min (fillMax s.dev x.cls) want.length ∧
          d.twin.out.length = s.dev.twin.out.length + min (fillMax s.dev x.cls) want.length ∧
          fget d TWIN_STAT TWIN_STAT_FILL_OVER = min 65535 (fget s.dev TWIN_STAT TWIN_STAT_FILL_OVER + (want.length - fillMax s.dev x.cls)) ∧ CoresKept s.dev d) ∧
      (inAgreement s.dev = true → a.isOpen = false →
        (hears 0x02 → x.payload.length = 2056 → ∃ d, exec (.arrivalMap at_ m) s = .next { s with dev := d } ∧ d.twin.out = s.dev.twin.out ∧ CoresKept s.dev d ∧
          (x.cycle ≠ a.cycle → 0 < toSigned 32 ((x.cycle + 2 ^ 32 - a.cycle) % 2 ^ 32) → agreeOf d x.cls = { a with early := some (x.cycle, x.payload) } ∧
            fget d TWIN_STAT TWIN_STAT_MAP_MISSED = fget s.dev TWIN_STAT TWIN_STAT_MAP_MISSED) ∧
          (x.cycle ≠ a.cycle → ¬0 < toSigned 32 ((x.cycle + 2 ^ 32 - a.cycle) % 2 ^ 32) → agreeOf d x.cls = a ∧
            fget d TWIN_STAT TWIN_STAT_MAP_MISSED = min 65535 (fget s.dev TWIN_STAT TWIN_STAT_MAP_MISSED + 1)) ∧
          (x.cycle = a.cycle → a.peerMap = false → agreeOf d x.cls = a ∧ fget d TWIN_STAT TWIN_STAT_MAP_MISSED = fget s.dev TWIN_STAT TWIN_STAT_MAP_MISSED)) ∧
        (hears 0x03 → 12 ≤ x.payload.length → ∃ d, exec (.frameFill at_ m) s = .next { s with dev := d } ∧ d.cyc = s.dev.cyc ∧
          fget d TWIN_STAT TWIN_STAT_FILL_LATE = min 65535 (fget s.dev TWIN_STAT TWIN_STAT_FILL_LATE + 1) ∧ CoresKept s.dev d)) ∧
      (hears 0x03 → 12 ≤ x.payload.length → inWindow →
        let i := beNat (x.payload.take 2)
        let e := ingressNow s.dev i
        bitsOf e S_EN = 1 → bitsOf e S_CLASS = x.cls → domOn s.dev (24 + 3 * bitsOf e S_K) = true → (cls s.dev x.cls).arrived.contains i = false → a.filled.contains i = false →
        ∃ d job, exec (.frameFill at_ m) s = .next { s with dev := d } ∧ scatterQueue d (bitsOf e S_K) = scatterQueue s.dev (bitsOf e S_K) ++ [job] ∧ job.stream = i ∧ job.frame = x.payload.drop 12 ∧
          job.stamp = beNat ((x.payload.drop 4).take 8) ∧ job.filled = true ∧ (cls d x.cls).arrived = (cls s.dev x.cls).arrived ∧ (agreeOf d x.cls).filled = a.filled ++ [i] ∧ CoresKept s.dev d) ∧
      (∀ own, hears 0x04 → x.payload.length = 16 → role s.dev = ACTIVE → findDigest x.cls (x.payload.getD 0 0).toNat x.cycle s.dev.twin.own = some own →
        findDigest x.cls (x.payload.getD 0 0).toNat x.cycle s.dev.twin.peerDig = none →
        ∃ d, exec (.digestMessage at_ m) s = .next { s with dev := d } ∧ findDigest x.cls (x.payload.getD 0 0).toNat x.cycle d.twin.own = none ∧ role d = ACTIVE ∧
          d.twin.lastMatched = (own.crc == beNat (x.payload.drop 8)) ∧
          fget d TWIN_STAT TWIN_STAT_DIVERGE = (if own.crc = beNat (x.payload.drop 8) then fget s.dev TWIN_STAT TWIN_STAT_DIVERGE else min 65535 (fget s.dev TWIN_STAT TWIN_STAT_DIVERGE + 1)) ∧ CoresKept s.dev d) ∧
      (∀ g, s.dev.twin.digesting.find? (fun d => d.cls == c.val && d.k == k.val) = some g → inAgreement s.dev = true → findDigest c.val k.val g.cycle s.dev.twin.peerDig = none → digestWaits s.dev k.val = [] →
        ∃ d b, exec (.digestDone c k) s = .next { s with dev := d } ∧ d.twin.own = s.dev.twin.own ++ [{ g with crc := outputDigest s.dev k.val (g.cycle % 65536), at_ := nowNs s.dev }] ∧
          d.twin.digesting = dropDigest c.val k.val g.cycle s.dev.twin.digesting ∧ d.twin.out.map (fun o => o.bytes) = s.dev.twin.out.map (fun o => o.bytes) ++ [b] ∧ b.headD 0 = 0x04 ∧ CoresKept s.dev d) ∧
      (∀ g, s.dev.twin.own.find? (fun d => d.cls == c.val && d.k == k.val) = some g →
        ∃ d, exec (.digestMissed c k) s = .next { s with dev := d } ∧ d.twin.own = dropDigest c.val k.val g.cycle s.dev.twin.own ∧ d.twin.lastMatched = false ∧ g.at_ + periodNs s.dev c.val ≤ nowNs d ∧ CoresKept s.dev d) ∧
      (hears 0x05 → x.payload.length = 24 → beNat ((x.payload.drop 4).take 4) = 1 → role s.dev = STANDBY →
        ∃ d e, exec (.journalMsg at_ m) s = .next { s with dev := d } ∧ d.twin.journal = s.dev.twin.journal ++ [e] ∧ e.seq = beNat (x.payload.take 4) ∧ e.cls = x.cls ∧
          e.value = BitVec.ofNat 64 (beNat ((x.payload.drop 16).take 8)) ∧ e.target = BitVec.ofNat 64 (beNat ((x.payload.drop 8).take 8)) ∧ e.k = bitsOf e.target TWIN_JNL_TARGET_K ∧
          e.word = bitsOf e.target TWIN_JNL_TARGET_WORD ∧ CoresKept s.dev d) ∧
      (hears 0x06 → role s.dev = JOINING → x.endBit = false → x.payload.length = 84 → beNat ((x.payload.drop 4).take 8) / 2 ^ 63 = 1 → applyWaits s.dev m = [] →
        let pa := beNat ((x.payload.drop 4).take 8) % 2 ^ 46 / 64 * 64
        inDram s.dev pa = true →
        ∃ d, exec (.stateCopy at_ m) s = .next { s with dev := d } ∧ role d = JOINING ∧ d.twin.lastCopySeq = x.seq ∧
          (∀ i, i < 64 → rdByte d (pa + i) = x.payload.getD (12 + i) 0) ∧ (∀ i, i < 8 → tagAt d (pa / 8 + i) = x.payload.getD (76 + i) 0) ∧
          (∀ b, b < pa ∨ pa + 64 ≤ b → rdByte d b = rdByte s.dev b) ∧ d.threads = s.dev.threads) ∧
      (hears 0x06 → role s.dev = JOINING → x.endBit = true → x.payload.length = 4 → beNat x.payload ≠ 0 → (if s.dev.twin.round = beNat x.payload then s.dev.twin.roundGap else s.dev.twin.lastGap) = false →
        (∀ p, s.dev.twin.rxSeq = some p → (p + 1) % 2 ^ 32 = x.seq) → s.dev.twin.heldRel = [] →
        ∃ d, exec (.stateCopy at_ m) s = .next { s with dev := d } ∧ role d = STANDBY ∧ d.twin.freezeAt = none ∧ CoresKept s.dev d) ∧
      (hears 0x06 → role s.dev = JOINING → x.endBit = true → x.payload.length = 4 → beNat x.payload = 0 →
        ∃ d, exec (.stateCopy at_ m) s = .next { s with dev := d } ∧ role d = ISOLATED ∧ d.twin.heldRel = [] ∧ CoresKept s.dev d) ∧
      (s.dev.twin.linkUp = true → s.dev.twin.joining = false →
        ∃ d, exec .linkLost s = .next { s with dev := d } ∧ d.twin.linkUp = false ∧ peerRole d = LOST ∧ s.dev.twin.lastRx + lossNs s.dev ≤ nowNs d ∧
          role d = (if role s.dev = JOINING then ORPHAN else role s.dev) ∧ (role s.dev = JOINING → d.twin.copiedIn = [] ∧ d.twin.heldRel = []) ∧ d.threads = s.dev.threads ∧
          (role s.dev ≠ JOINING ∨ s.dev.twin.copiedIn = [] → CoresKept s.dev d)) ∧
      (pathUp s.dev j.val = true →
        ∃ d, exec (.pathLost j) s = .next { s with dev := d } ∧ (∀ i, i < 4 → pathUp d i = (pathUp s.dev i && decide (i ≠ j.val))) ∧ s.dev.twin.pathRx.getD j.val 0 + lossNs s.dev ≤ nowNs d ∧ CoresKept s.dev d) ∧
      (∀ e ∈ [(Instr.twinLaneDown l, false), (.twinLaneUp l, true)],
        ∃ d, exec e.1 s = .next { s with dev := d } ∧ nbit d.twin.lanes l.val = e.2 ∧ (∀ i, i ≠ l.val → nbit d.twin.lanes i = nbit s.dev.twin.lanes i) ∧
          fget d TWIN_STATUS TWIN_STATUS_LANES_UP = ((rangeFrom 0 8).filter (nbit d.twin.lanes)).length ∧ RegsKept s.dev d [TWIN_STATUS] ∧ CoresKept s.dev d) ∧
      ((agreeOf s.dev c.val).isOpen = true → (∀ f ∈ s.dev.erg.frames, ∀ q, f.port = some q → q < 128) →
        ∃ d, exec (.agreementWindowEnd c) s = .next { s with dev := d } ∧ (agreeOf d c.val).isOpen = false ∧ (agreeOf d c.val).held = [] ∧ (agreeOf s.dev c.val).ends ≤ nowNs d ∧
          fget d TWIN_STAT TWIN_STAT_MAP_MISSED = (if (agreeOf s.dev c.val).peerMap then fget s.dev TWIN_STAT TWIN_STAT_MAP_MISSED else min 65535 (fget s.dev TWIN_STAT TWIN_STAT_MAP_MISSED + 1)) ∧
          d.erg.held = s.dev.erg.held.filter (fun h => h.1 != c.val) ∧ CoresKept s.dev d)) ∧
  (
    ∀ (s : State) (table : Fin 4) (i : Fin 16) (v : Word), domOn s.dev 78 = true →
      let done := fbit s.dev TWIN_CMD TWIN_CMD_DONE
      let tblDone := fbit s.dev TWIN_TBL_INDEX TWIN_TBL_INDEX_DONE
      let result (d : Dev) (cmd r : Nat) : Prop := fget d TWIN_CMD TWIN_CMD_CMD = cmd ∧ fget d TWIN_CMD TWIN_CMD_RESULT = r
      let c := bitsOf v TWIN_JNL_TARGET_CLASS
      let k := bitsOf v TWIN_JNL_TARGET_K
      let w := bitsOf v TWIN_JNL_TARGET_WORD
      let u := reg s.dev TWIN_TBL_DATA
      (∀ on, fbit s.dev TWIN_CTRL TWIN_CTRL_LOCK = false → (∀ c, c < 8 → classRuns s.dev c = false) → twinOn s.dev ≠ on →
        ∃ d, exec (.twinEnable .oasis on) s = .next { s with dev := d } ∧ twinOn d = on ∧ role d = (if on then ISOLATED else ACTIVE) ∧ roleActivePin d = !on ∧ (on = false → fget d TWIN_EPOCH TWIN_EPOCH_EPOCH = 0 ∧ peerRole d = LOST) ∧
          CoresKept s.dev d) ∧
      (∀ on c, fbit s.dev TWIN_CTRL TWIN_CTRL_LOCK = false → c < 8 → classRuns s.dev c = true →
        ∃ d, exec (.twinEnable .oasis on) s = .next { s with dev := d } ∧ fbit d TWIN_ERR TWIN_ERR_RUNNING = true ∧ d.twin = s.dev.twin ∧ RegsKept s.dev d [TWIN_ERR] ∧ CoresKept s.dev d) ∧
      (done = true → twinOn s.dev = true → role s.dev = ISOLATED ∨ role s.dev = ORPHAN → s.dev.twin.linkUp = true → peerRole s.dev = ACTIVE →
        ∃ d, exec .twinJoin s = .next { s with dev := d } ∧
          (s.dev.twin.peer.layout = layoutDigest s.dev → role d = JOINING ∧ result d 1 ST_OK) ∧
          (s.dev.twin.peer.layout ≠ layoutDigest s.dev → role d = role s.dev ∧ result d 1 ST_DENIED) ∧ CoresKept s.dev d) ∧
      (done = true → twinOn s.dev = true → role s.dev = JOINING ∨ role s.dev = STANDBY →
        ∃ d, exec .twinLeave s = .next { s with dev := d } ∧ role d = ISOLATED ∧ result d 2 ST_OK ∧ CoresKept s.dev d) ∧
      (done = true → twinOn s.dev = true → s.dev.twin.lastMatched = true → role s.dev = ACTIVE ∧ peerRole s.dev = STANDBY ∨ role s.dev = STANDBY ∧ peerRole s.dev = ACTIVE →
        ∃ d, exec .twinSwap s = .next { s with dev := d } ∧ d.twin.swapReq.isSome = true ∧ result d 3 ST_OK ∧ role d = role s.dev ∧ RegsKept s.dev d [TWIN_CMD] ∧ CoresKept s.dev d) ∧
      (done = true → twinOn s.dev = true → role s.dev = ISOLATED → s.dev.twin.linkUp = true → peerRole s.dev = ISOLATED ∨ peerRole s.dev = ORPHAN →
        ∃ d, exec .twinStart s = .next { s with dev := d } ∧ d.twin = { s.dev.twin with startPend := true } ∧ result d 5 ST_OK ∧ RegsKept s.dev d [TWIN_CMD] ∧ CoresKept s.dev d) ∧
      (done = true → twinOn s.dev = true → role s.dev = ISOLATED ∨ role s.dev = ORPHAN → s.dev.twin.linkUp = false →
        ∃ d, exec .twinColdStart s = .next { s with dev := d } ∧ d.twin.coldPend = true ∧ result d 4 ST_OK) ∧
      (done = false → ∀ e ∈ [Instr.twinJoin, .twinLeave, .twinSwap, .twinColdStart, .twinStart],
        ∃ d, exec e s = .next { s with dev := d } ∧ fget d TWIN_CMD TWIN_CMD_RESULT = ST_BUSY ∧ d.twin = s.dev.twin ∧ RegsKept s.dev d [TWIN_CMD] ∧ CoresKept s.dev d) ∧
      (done = true → twinOn s.dev = false → ∀ e ∈ [(Instr.twinJoin, 1), (.twinLeave, 2), (.twinSwap, 3), (.twinColdStart, 4), (.twinStart, 5)],
        ∃ d, exec e.1 s = .next { s with dev := d } ∧ result d e.2 ST_WRONG_STATE ∧ d.twin = s.dev.twin ∧ RegsKept s.dev d [TWIN_CMD] ∧ CoresKept s.dev d) ∧
      (s.dev.twin.swapReq.isSome = true → s.dev.twin.swapAgreed = false →
        ∃ d, exec .swapTimeout s = .next { s with dev := d } ∧ d.twin = { s.dev.twin with swapReq := none } ∧ s.dev.twin.swapAt + 10 * hbPeriodNs s.dev ≤ nowNs d ∧ d.regs = s.dev.regs ∧ CoresKept s.dev d) ∧
      (twinOn s.dev = true → role s.dev = ACTIVE → peerRole s.dev = JOINING → s.dev.twin.linkUp = true → s.dev.twin.joining = false → s.dev.twin.freezeAt = none →
        (dirtyTargets s.dev true).flatMap (copyWaits s.dev) = [] →
        let n := (dirtyTargets s.dev true).length
        ((∃ t ∈ (dirtyTargets s.dev true).take 112, (copyRecord s.dev t).1 = none) → s.dev.twin.heldRel = [] →
          ∃ d, exec .copyRound s = .next { s with dev := d } ∧ fbit d TWIN_ERR TWIN_ERR_REFUSED = true ∧ d.twin.joining = false ∧ d.twin.out.length = s.dev.twin.out.length + 1 ∧ CoresKept s.dev d) ∧
        ((∀ t ∈ dirtyTargets s.dev true, (copyRecord s.dev t).1.isSome = true) → ∃ d, exec .copyRound s = .next { s with dev := d } ∧ d.twin.round = 1 ∧ d.twin.wantFreeze = true ∧ d.twin.out.length = s.dev.twin.out.length + max 1 ((n + 111) / 112) ∧
          fget d TWIN_CMD TWIN_CMD_ROUND = 1 ∧ fget d TWIN_CMD TWIN_CMD_DIRTY = min (2 ^ 20 - 1) n ∧ d.twin.joining = true ∧ CoresKept s.dev d)) ∧
      (∀ t, s.dev.twin.freezeAt = some t → s.dev.twin.heldRel = [] →
        ∃ d, exec .freezeTimeout s = .next { s with dev := d } ∧ d.twin.freezeAt = none ∧ t + 1000 * fget s.dev TWIN_LINK TWIN_LINK_FREEZE_MAX ≤ nowNs d ∧ CoresKept s.dev d) ∧
      (role s.dev ≠ ACTIVE ∨ classRuns s.dev c = false →
        ∃ d, exec (.journalSubmit v) s = .next { s with dev := d } ∧ fget d TWIN_JNL_TARGET TWIN_JNL_TARGET_RESULT = ST_WRONG_STATE ∧ d.twin = s.dev.twin ∧ RegsKept s.dev d [TWIN_JNL_TARGET] ∧ CoresKept s.dev d) ∧
      (∀ r, role s.dev = ACTIVE → classRuns s.dev c = true → (s.dev.twin.journal.filter (fun e => e.cls == c && e.apply == (reg s.dev (CYC_NUMBER c)).toNat + 2)).length < jnlMax s.dev c →
        inputRegion s.dev k = some r → imgClass s.dev k = c → w < 8 * fget s.dev (IMG_REGION k r) IMG_REGION_COUNT →
        ∃ d e, exec (.journalSubmit v) s = .next { s with dev := d } ∧ fget d TWIN_JNL_TARGET TWIN_JNL_TARGET_RESULT = ST_OK ∧ d.twin.journal = s.dev.twin.journal ++ [e] ∧ e.seq = s.dev.twin.journalSeq ∧
          e.cls = c ∧ e.k = k ∧ e.word = w ∧ e.apply = (reg s.dev (CYC_NUMBER c)).toNat + 2 ∧ e.value = reg s.dev TWIN_JNL_VALUE ∧ e.tag = BitVec.ofNat 8 (bitsOf v TWIN_JNL_TARGET_TAG) ∧
          d.twin.out.length = s.dev.twin.out.length + (if twinOn s.dev then 1 else 0) ∧ CoresKept s.dev d) ∧
      (tblDone = false → ∀ cmd ∈ [Instr.twinTblRead table i, .twinTblWrite table i], exec cmd s = .next s) ∧
      (tblDone = true → twinTableSize table.val ≤ i.val → ∀ cmd ∈ [Instr.twinTblRead table i, .twinTblWrite table i],
        ∃ d, exec cmd s = .next { s with dev := d } ∧ fbit d TWIN_ERR TWIN_ERR_BAD_VALUE = true ∧ d.twin = s.dev.twin ∧ RegsKept s.dev d [TWIN_TBL_INDEX, TWIN_ERR] ∧ CoresKept s.dev d) ∧
      (tblDone = true → i.val < twinTableSize table.val →
        ∃ d, exec (.twinTblRead table i) s = .next { s with dev := d } ∧ (table.val ≠ 1 → reg d TWIN_TBL_DATA = twinEntry s.dev table.val i.val) ∧
          (table.val = 1 → reg d TWIN_TBL_DATA = putBits (twinEntry s.dev 1 i.val) (56, 56) (b2n (pathUp s.dev i.val))) ∧ d.twin = s.dev.twin ∧ RegsKept s.dev d [TWIN_TBL_INDEX, TWIN_TBL_DATA] ∧ CoresKept s.dev d) ∧
      (tblDone = true → i.val < twinTableSize table.val → table.val = 1 ∨ table.val = 0 ∧ bitsOf u (38, 30) ≤ 256 ∧ classRuns s.dev i.val = false ∨
          table.val = 2 ∧ role s.dev = ISOLATED ∧ mirroredPages s.dev i.val + bitsOf u (63, 46) ≤ 1048576 →
        ∃ d, exec (.twinTblWrite table i) s = .next { s with dev := d } ∧ twinEntry d table.val i.val = (if table.val = 1 then putBits u (56, 56) 0 else u) ∧
          (∀ t j, t ≤ 2 → (t, j) ≠ (table.val, i.val) → twinEntry d t j = twinEntry s.dev t j) ∧ CoresKept s.dev d))


/-! ## The historian (08) -/

/-- R295, R296, R299, R301, R307, R313 to R318, R320, R322: the engine: enabling with its checks, which takes FORMAT, drives judged, restart or format, disabling and shutting down; a buffer is sealed by time and written to the segment after HEAD with SEQ values never used before; each drive write puts its blocks on the media, the checkpoint last, and HEAD follows; a command of a drive that is not reached, or whose buffer stage 2 refuses, fails; a failed segment is written again; an access to the tables while DONE is 0 is dropped; superblocks; the tables. It says of each of these commands that exec answers the next state described, under conditions on the state and the operands alone: histEnable, histDisable, histRestart, histShutdownDone, sealTimer, segmentWrite, nvmeCompletion, nvmeTimeout, superblockTimer, histTblRead, histTblWrite. -/
def Obligations.HistorianEngine : Prop :=
  ∀ (s : State) (who : Agent) (drives : List DriveFacts) (i : Nat) (j : Fin 16) (n : Nat) (table : Fin 4) (ix : Fin 1048576), domOn s.dev 77 = true →
    (hState s.dev = H_OFF →
      (hConfigOk s.dev = true → ∃ d, exec (.histEnable who) s = .next { s with dev := d } ∧ hState d = H_STARTING ∧ fbit d HIST_CTRL HIST_CTRL_EN = true ∧ hS d = tableSegments s.dev % 2 ^ 24 ∧
        d.hist = { s.dev.hist with format := fbit s.dev HIST_CTRL HIST_CTRL_FORMAT } ∧ RegsKept s.dev d [HIST_CTRL, HIST_STATUS, HIST_LOG] ∧ CoresKept s.dev d) ∧
      (hConfigOk s.dev = false → ∃ d, exec (.histEnable who) s = .next { s with dev := d } ∧ hState d = H_OFF ∧ fbit d HIST_CTRL HIST_CTRL_EN = false ∧ fbit d HIST_ERR HIST_ERR_CONFIG = true ∧
        d.hist = s.dev.hist ∧ RegsKept s.dev d [HIST_CTRL, HIST_ERR] ∧ CoresKept s.dev d)) ∧
    (hState s.dev = H_RUNNING → ∃ d, exec (.histDisable who) s = .next { s with dev := d } ∧ hState d = H_STOPPING ∧ fbit d HIST_CTRL HIST_CTRL_EN = false ∧ d.hist.openBuf = none ∧
      d.hist.sealedBufs.length = s.dev.hist.sealedBufs.length + (if s.dev.hist.openBuf.isSome then 1 else 0) ∧ d.threads = s.dev.threads) ∧
    (hState s.dev = H_FAULT → ∃ d, exec (.histDisable who) s = .next { s with dev := d } ∧ hState d = H_OFF ∧ fbit d HIST_CTRL HIST_CTRL_EN = false ∧ d.hist = s.dev.hist ∧ CoresKept s.dev d) ∧
    (hState s.dev = H_STARTING →
      (∀ k, k < hD s.dev → driveAccepted s.dev drives k = false → ∃ d, exec (.histRestart drives) s = .next { s with dev := d } ∧ hState d = H_FAULT ∧
        (k < 16 → nbit (fget d HIST_STATUS HIST_STATUS_DRIVE_FAIL) k = true) ∧ d.hist.openBuf = none ∧ CoresKept s.dev d) ∧
      ((∀ k, k < hD s.dev → driveReached s.dev k = true ∧ ∃ f, drives[k]? = some f ∧ driveMeets s.dev f = true) →
        (s.dev.hist.format = true → ∃ d, exec (.histRestart drives) s = .next { s with dev := d } ∧ hState d = H_RUNNING ∧ hHead d = 0 ∧ hTail d = 0 ∧ d.hist.nextSeq = 1 ∧
          d.hist.comp = [] ∧ d.threads = s.dev.threads) ∧
        (s.dev.hist.format = false → (∀ k, k < hD s.dev → supers s.dev k = []) → ∃ d, exec (.histRestart drives) s = .next { s with dev := d } ∧ hState d = H_FAULT ∧
          fbit d HIST_ERR HIST_ERR_NO_LOG = true ∧ CoresKept s.dev d))) ∧
    (hState s.dev = H_STOPPING → s.dev.hist.sealedBufs = [] → s.dev.hist.flight = [] →
      ∃ d, exec .histShutdownDone s = .next { s with dev := d } ∧ hState d = H_OFF ∧ d.hist.gen = s.dev.hist.gen + 1 ∧ CoresKept s.dev d) ∧
    (∀ b, hState s.dev = H_RUNNING → fget s.dev HIST_CTRL HIST_CTRL_SEAL_MS ≠ 0 → s.dev.hist.openBuf = some b → b.cur = none → b.blocks ≠ [] →
      ∃ d time, exec .sealTimer s = .next { s with dev := d } ∧ d.hist.openBuf = none ∧ d.hist.sealedBufs = s.dev.hist.sealedBufs ++ [{ b with padTime := time }] ∧
        b.firstAt + fget s.dev HIST_CTRL HIST_CTRL_SEAL_MS * 1000000 ≤ nowNs d ∧ d.threads = s.dev.threads) ∧
    (∀ b rest, hState s.dev = H_RUNNING → s.dev.hist.sealedBufs = b :: rest → mayIssue s.dev 513 = true → s.dev.hist.flight.length < hS s.dev → queueRoom s.dev = true → hWaits s.dev (idxAddr s.dev (nextSegment s.dev)) 1088 true = [] →
      ∃ d x, exec .segmentWrite s = .next { s with dev := d } ∧ d.hist.sealedBufs = rest ∧ d.hist.flight = s.dev.hist.flight ++ [x] ∧ x.buf = { b with firstSeq := s.dev.hist.nextSeq, seg := x.seg } ∧
        x.seg = (hHead s.dev + 1 + s.dev.hist.flight.length) % hS s.dev ∧ x.firstSeq = s.dev.hist.nextSeq ∧ d.hist.nextSeq = s.dev.hist.nextSeq + 1024 ∧
        hTail d = (if hTail s.dev = x.seg then (x.seg + 1) % hS s.dev else hTail s.dev) % 2 ^ 23 ∧ d.hist.media = s.dev.hist.media ∧ (creditQ d 513).out = (creditQ s.dev 513).out + 1 ∧ d.threads = s.dev.threads) ∧
    (∀ x, s.dev.hist.flight[i]? = some x →
      (x.left.all (· == 0) = false → 1 ≤ n → n ≤ maxBlocks s.dev j.val → n ≤ x.left.getD j.val 0 → x.left.getD j.val 0 ≤ (stripeLefts s.dev).getD j.val 0 → x.fail = 0 →
        let first := j.val * hStripe s.dev + ((stripeLefts s.dev).getD j.val 0 - x.left.getD j.val 0)
        let left := listSet x.left j.val (x.left.getD j.val 0 - n)
        (driveReached s.dev j.val = true → (bufRead s.dev i j.val n).1.isSome = true → ∃ d, exec (.nvmeCompletion i j n true) s = .next { s with dev := d } ∧
          d.hist.flight[i]? = some { x with left := left, chkAt := if left.all (· == 0) then nowNs s.dev else x.chkAt } ∧
          (∀ b, first ≤ b → b < first + n → segBlock d x.seg b = segContent s.dev x b) ∧ CoresKept s.dev d) ∧
        (driveReached s.dev j.val = true → (bufRead s.dev i j.val n).1 = none → left.all (· == 0) = false →
          ∃ d, exec (.nvmeCompletion i j n true) s = .next { s with dev := d } ∧ d.hist.flight[i]? = some { x with left := left, fail := 2 ^ j.val } ∧ CoresKept s.dev d) ∧
        (left.all (· == 0) = false → ∀ e ∈ [Instr.nvmeCompletion i j n (!driveReached s.dev j.val), .nvmeCompletion i j n false, .nvmeTimeout i j n],
          ∃ d, exec e s = .next { s with dev := d } ∧ d.hist.flight[i]? = some { x with left := left, fail := 2 ^ j.val } ∧ (e = .nvmeTimeout i j n → x.issuedAt + 2000000000 ≤ nowNs d) ∧ CoresKept s.dev d)) ∧
      (i = 0 → x.left.all (· == 0) = true → j.val + 1 = hD s.dev →
        (s.dev.hist.sync = none → driveReached s.dev j.val = true → (bufRead s.dev 0 j.val 1).1.isSome = true → ∃ d, exec (.nvmeCompletion i j 1 true) s = .next { s with dev := d } ∧ hHead d = x.seg % 2 ^ 23 ∧ d.hist.flight = s.dev.hist.flight.drop 1 ∧
          segBlock d x.seg 1023 = segContent s.dev x 1023 ∧ d.threads = s.dev.threads) ∧
        (x.attempt < fget s.dev HIST_CTRL HIST_CTRL_RETRY → ∃ d, exec (.nvmeCompletion i j 1 false) s = .next { s with dev := d } ∧ hHead d = hHead s.dev ∧
          d.hist.flight[0]? = some { x with buf := { x.buf with firstSeq := s.dev.hist.nextSeq }, attempt := x.attempt + 1, fail := 0, left := stripeLefts s.dev, firstSeq := s.dev.hist.nextSeq, issuedAt := nowNs s.dev } ∧
          d.hist.nextSeq = s.dev.hist.nextSeq + 1024 ∧ fget d HIST_SEGERR HIST_SEGERR_MASK = 2 ^ j.val ∧
          fget d HIST_STAT HIST_STAT_SEG_FAILED = min 65535 (fget s.dev HIST_STAT HIST_STAT_SEG_FAILED + 1) ∧ d.threads = s.dev.threads))) ∧
    (hState s.dev = H_RUNNING →
      ∃ d, exec .superblockTimer s = .next { s with dev := d } ∧ d.hist.gen = s.dev.hist.gen + 1 ∧ s.dev.hist.sbAt + fget s.dev HIST_CTRL HIST_CTRL_SB_S * 1000000000 ≤ nowNs d ∧
        d.hist.sbAt = nowNs d ∧ CoresKept s.dev d) ∧
    (fbit s.dev HIST_TBL_INDEX HIST_TBL_INDEX_DONE = false → ∀ cmd ∈ [Instr.histTblRead table ix, .histTblWrite table ix], exec cmd s = .next s) ∧
    (fbit s.dev HIST_TBL_INDEX HIST_TBL_INDEX_DONE = true → histTableSize table.val ≤ ix.val → ∀ cmd ∈ [Instr.histTblRead table ix, .histTblWrite table ix],
      ∃ d, exec cmd s = .next { s with dev := d } ∧ fbit d HIST_ERR HIST_ERR_BAD_VALUE = true ∧ d.hist = s.dev.hist ∧ RegsKept s.dev d [HIST_TBL_INDEX, HIST_ERR] ∧ CoresKept s.dev d) ∧
    (fbit s.dev HIST_TBL_INDEX HIST_TBL_INDEX_DONE = true → ix.val < histTableSize table.val →
      (∃ d, exec (.histTblRead table ix) s = .next { s with dev := d } ∧ reg d HIST_TBL_DATA0 = hWord0 s.dev table.val ix.val ∧ reg d HIST_TBL_DATA1 = hWord1 s.dev table.val ix.val ∧ d.hist = s.dev.hist ∧
        RegsKept s.dev d [HIST_TBL_INDEX, HIST_TBL_DATA0, HIST_TBL_DATA1] ∧ CoresKept s.dev d) ∧
      ((table.val = 0 ∨ table.val = 3) ∧ hState s.dev ≠ H_OFF → ∃ d, exec (.histTblWrite table ix) s = .next { s with dev := d } ∧ fbit d HIST_ERR HIST_ERR_RUNNING = true ∧ d.hist = s.dev.hist ∧
        RegsKept s.dev d [HIST_TBL_INDEX, HIST_ERR] ∧ CoresKept s.dev d) ∧
      (¬((table.val = 0 ∨ table.val = 3) ∧ hState s.dev ≠ H_OFF) → ∃ d, exec (.histTblWrite table ix) s = .next { s with dev := d } ∧
        (hWord0 d table.val ix.val).toNat = Nat.land (reg s.dev HIST_TBL_DATA0).toNat (histMask table.val).1 ∧ (hWord1 d table.val ix.val).toNat = Nat.land (reg s.dev HIST_TBL_DATA1).toNat (histMask table.val).2 ∧
        (table.val = 2 → mget (fun _ => {}) d.hist.comp ix.val = ({} : HComp)) ∧
        (∀ t k, k < 1048576 → (t, k) ≠ (table.val, ix.val) → hWord0 d t k = hWord0 s.dev t k ∧ hWord1 d t k = hWord1 s.dev t k) ∧ RegsKept s.dev d [HIST_TBL_INDEX] ∧ CoresKept s.dev d))

/-- R300, R311, R323 to R326: the command ring, with one command in it: TAIL takes a doorbell within the ring; RECORD appends its sample, BULK its block; a query takes a slot and gives it back when it completes; SYNC seals what is open and waits; INFO answers HEAD, TAIL and NEXT_SEQ; a command the engine's state does not allow completes WRONG_STATE with no effect. It says of each of these commands that exec answers the next state described, under conditions on the state and the operands alone: histCq, histRecord, histBulk, histSync, histQuery, histQueryBulk, histQueryComplete, histInfo. -/
def Obligations.HistorianCommands : Prop :=
  ∀ (s : State) (tail : BitVec 16) (slot : Fin 4) (p : Nat), domOn s.dev 77 = true →
    let h := cqHead s.dev
    let alone (code : Nat) : Prop := (h + 1) % 65536 = cqTail s.dev ∧ ringCode s.dev = code ∧ s.dev.hist.sync = none ∧ RingAt s.dev h p ∧ ringWaits s.dev code = []
    let taken (d : Dev) : Prop := cqHead d = (h + 1) % 65536 ∧ cqTail d = cqTail s.dev ∧ d.threads = s.dev.threads
    (cqSize s.dev < (tail.toNat + 65536 - h) % 65536 →
      ∃ d, exec (.histCq tail) s = .next { s with dev := d } ∧ fbit d HIST_ERR HIST_ERR_BAD_VALUE = true ∧ d.hist = s.dev.hist ∧ RegsKept s.dev d [HIST_ERR] ∧ CoresKept s.dev d) ∧
    ((tail.toNat + 65536 - h) % 65536 ≤ cqSize s.dev → 1 ≤ ringCode s.dev → ringCode s.dev ≤ 6 →
      ∃ d, exec (.histCq tail) s = .next { s with dev := d } ∧ cqTail d = tail.toNat ∧ cqHead d = h ∧ d.hist = s.dev.hist ∧ RegsKept s.dev d [HIST_CQ] ∧ CoresKept s.dev d) ∧
    (hState s.dev ≠ H_RUNNING → ∀ e ∈ [(Instr.histRecord, 1), (.histBulk, 2), (.histSync, 5)], alone e.2 →
      ∃ d, exec e.1 s = .next { s with dev := d } ∧ RingDone d p ST_WRONG_STATE ∧ d.hist = s.dev.hist ∧ taken d) ∧
    (∀ b c, alone 1 → hState s.dev = H_RUNNING → ringWord s.dev 2 ≠ 0 → s.dev.hist.timeNow = some (ringWord s.dev 2).toNat → s.dev.hist.openBuf = some b → b.blocks.length < 1023 → b.cur = some c →
      c.count + 1 < 338 →
      let w := ringWord s.dev 1
      ∃ d b1, exec .histRecord s = .next { s with dev := d } ∧ RingDone d p ST_OK ∧ d.hist.openBuf = some b1 ∧ b1.records = b.records + 1 ∧ b1.blocks = b.blocks ∧
        b1.cur = some { c with count := c.count + 1, payload := c.payload ++ (leBytes 3 (bitsOf w (19, 0)) ++ [BitVec.ofNat 8 (bitsOf w (27, 20))] ++ leBytes 8 (ringWord s.dev 3).toNat) } ∧
        b1.tFirst = min b.tFirst (ringWord s.dev 2).toNat ∧ b1.tLast = max b.tLast (ringWord s.dev 2).toNat ∧ taken d) ∧
    (∀ b pa, alone 2 → hState s.dev = H_RUNNING → (ringWord s.dev 2).toNat % 4096 = 0 → ringWord s.dev 3 = 1 → (ringWord s.dev 1).toNat < 2 ^ 32 → s.dev.hist.openBuf = some b → b.cur = none →
      b.blocks.length < 1022 → (ioTranslate s.dev (hManager s.dev) (ringWord s.dev 2).toNat false).1 = some pa → inDram s.dev pa = true →
      ∃ d b1, exec .histBulk s = .next { s with dev := d } ∧ RingDone d p ST_OK ∧ d.hist.openBuf = some b1 ∧ b1.bulk = b.bulk + 1 ∧
        b1.blocks = b.blocks ++ [{ kind := 2, time0 := (ringWord s.dev 4).toNat, stream := (ringWord s.dev 1).toNat, payload := (rangeFrom 0 508).flatMap (fun i => leBytes 8 (readTagged s.dev (pa + 8 * i)).val.toNat) }] ∧ taken d) ∧
    (∀ e ∈ [(Instr.histQuery, 3, false), (.histQueryBulk, 4, true)], alone e.2.1 → hState s.dev = H_RUNNING ∨ hState s.dev = H_FAULT →
      let t1 := (ringWord s.dev 2).toNat
      let t2 := (ringWord s.dev 3).toNat
      (t2 ≤ t1 → ∃ d, exec e.1 s = .next { s with dev := d } ∧ RingDone d p ST_BAD_ARG ∧ d.hist = s.dev.hist ∧ taken d) ∧
      (t1 < t2 → (ringWord s.dev 1).toNat ≤ 0xFFFFF → (ringWord s.dev 4).toNat % 4096 = 0 → mfind s.dev.hist.queries 0 = none →
        ∃ d q, exec e.1 s = .next { s with dev := d } ∧ mfind d.hist.queries 0 = some q ∧ q.entry = h ∧ q.bulk = e.2.2 ∧ q.key = (ringWord s.dev 1).toNat ∧ q.t1 = t1 ∧ q.t2 = t2 ∧
          q.cap = (ringWord s.dev 5).toNat ∧ (∀ g ∈ q.segs, g.1 ∈ liveSegments s.dev) ∧ taken d ∧ CoresKept s.dev d)) ∧
    (∀ q failed, mfind s.dev.hist.queries slot.val = some q → q.segs = [] → RingAt s.dev q.entry p → queryWaits s.dev slot.val failed = [] →
      ∃ d, exec (.histQueryComplete slot failed) s = .next { s with dev := d } ∧ mfind d.hist.queries slot.val = none ∧ rdBytes d (p + 48) 8 = leBytes 8 0 ∧ RingDone d p ST_OK ∧ d.threads = s.dev.threads) ∧
    (∀ b, alone 5 → hState s.dev = H_RUNNING → s.dev.hist.openBuf = some b →
      ∃ d, exec .histSync s = .next { s with dev := d } ∧ d.hist.openBuf = none ∧ d.hist.sync = some (h, ringIrq s.dev, s.dev.hist.sealedBufs.length + 1 + s.dev.hist.flight.length) ∧ taken d) ∧
    (alone 6 →
      ∃ d, exec .histInfo s = .next { s with dev := d } ∧ RingDone d p ST_OK ∧ rdBytes d (p + 8) 8 = leBytes 8 (hHead s.dev) ∧ rdBytes d (p + 16) 8 = leBytes 8 (hTail s.dev) ∧
        rdBytes d (p + 32) 8 = leBytes 8 s.dev.hist.nextSeq ∧ d.hist = s.dev.hist ∧ taken d)


/-! ## Power, clocks, resets (18) -/

/-- R635 to R639, R658: requests for a power domain through PWR_DOM_INDEX: a read shows the state; a request is answered at once where the domain is there already, changes now, is refused or only emulates OFF, and waits for its end otherwise; a domain that powers up holds its reset values, its threads OFF, its memory cleared, and a port group gives its cells back to the shared pool (05 R197). It says of each of these commands that exec answers the next state described, under conditions on the state and the operands alone: powerUpRequest, powerDownRequest, domainStateRead, powerUpDone, powerDownDone. -/
def Obligations.PowerDomains : Prop :=
  ∀ (s : State) (d : Fin 128),
    let x := s.dev
    let dn := d.val
    let two := [PWR_DOM_INDEX, PWR_DOM_DATA]
    let answered (e : Dev) (st : Nat) : Prop := fget e PWR_DOM_DATA PWR_DOM_DATA_RESULT = st ∧ fbit e PWR_DOM_INDEX PWR_DOM_INDEX_DONE = true ∧ e.pwr.pend = none
    let waits (e : Dev) : Prop := fbit e PWR_DOM_INDEX PWR_DOM_INDEX_DONE = false ∧ e.pwr.pend = some dn
    let becomes (e : Dev) (st : Nat) : Prop := domSt e dn = st ∧ ∀ k, k ≠ dn → domSt e k = domSt x k
    let same (e : Dev) : Prop := e.doms = x.doms ∧ RegsKept x e two ∧ CoresKept x e
    (fbit x PWR_DOM_INDEX PWR_DOM_INDEX_DONE = false → ∀ c ∈ [Instr.powerUpRequest d, .powerDownRequest d, .domainStateRead d],
      ∃ e, exec c s = .next { s with dev := e } ∧ e.doms = x.doms ∧ RegsKept x e [PWR_DOM_DATA] ∧ CoresKept x e) ∧
    (fbit x PWR_DOM_INDEX PWR_DOM_INDEX_DONE = true →
      (79 < dn → ∀ c ∈ [Instr.powerUpRequest d, .powerDownRequest d, .domainStateRead d],
        ∃ e, exec c s = .next { s with dev := e } ∧ fbit e PWR_CTRL PWR_CTRL_BAD_VALUE = true ∧ e.doms = x.doms ∧ RegsKept x e (PWR_CTRL :: two) ∧ CoresKept x e) ∧
      (dn ≤ 79 →
        (∃ e, exec (.domainStateRead d) s = .next { s with dev := e } ∧ fget e PWR_DOM_DATA PWR_DOM_DATA_STATE = domSt x dn % 16 ∧ fget e PWR_DOM_INDEX PWR_DOM_INDEX_DOMAIN = dn ∧ same e) ∧
        (domSt x dn = 1 ∨ domSt x dn = 3 → ∀ c ∈ [Instr.powerUpRequest d, .powerDownRequest d], ∃ e, exec c s = .next { s with dev := e } ∧ answered e ST_BUSY ∧ same e) ∧
        (domSt x dn = 2 → ∃ e, exec (.powerUpRequest d) s = .next { s with dev := e } ∧ answered e ST_OK ∧ same e) ∧
        (domSt x dn = 4 → ∃ e, exec (.powerUpRequest d) s = .next { s with dev := e } ∧ answered e ST_OK ∧ becomes e 2 ∧ CoresKept x e) ∧
        (domSt x dn = 0 → upOk x dn = false → ∃ e, exec (.powerUpRequest d) s = .next { s with dev := e } ∧ answered e ST_WRONG_STATE ∧ same e) ∧
        (domSt x dn = 0 → upOk x dn = true → ∃ e, exec (.powerUpRequest d) s = .next { s with dev := e } ∧ waits e ∧ becomes e 1 ∧
          (dn ≠ 79 → ∀ o, o ∉ two → (o = SW_BUF → dn < 56 ∨ 72 ≤ dn) → reg e o = if regDomain o = some dn then regReset o else reg x o) ∧
          (56 ≤ dn → dn < 72 → fget e SW_BUF SW_BUF_SHARED_SIZE = 374784 - ((rangeFrom 0 128).map (fun q => fget e (PORT_BUF q) PORT_BUF_RES)).sum) ∧
          (∀ t, thr e t = if dn < 24 ∧ t / 64 = dn then {} else thr x t) ∧
          (∀ a, if 24 ≤ dn ∧ dn < 48 ∧ bankBase (dn - 24) ≤ a ∧ a < bankBase (dn - 24 + 1) then rdByte e a = 0 ∧ tagAt e (a / 8) = 0 ∧ poisonAt e (a / 8) = false
            else rdByte e a = rdByte x a ∧ tagAt e (a / 8) = tagAt x (a / 8) ∧ poisonAt e (a / 8) = poisonAt x (a / 8))) ∧
        (domSt x dn = 0 ∨ domSt x dn = 4 → ∃ e, exec (.powerDownRequest d) s = .next { s with dev := e } ∧ answered e ST_OK ∧ same e) ∧
        (domSt x dn = 2 → downSupported dn = false → ∃ e, exec (.powerDownRequest d) s = .next { s with dev := e } ∧ answered e ST_NOT_SUPPORTED ∧ same e) ∧
        (domSt x dn = 2 → downSupported dn = true → downOk x dn = false → ∃ e, exec (.powerDownRequest d) s = .next { s with dev := e } ∧ answered e ST_WRONG_STATE ∧ same e) ∧
        (domSt x dn = 2 → downSupported dn = true → downOk x dn = true →
          (attached x = true ∧ dn < 48 → ∃ e, exec (.powerDownRequest d) s = .next { s with dev := e } ∧ answered e ST_OK ∧ becomes e 4 ∧ RegsKept x e two ∧ CoresKept x e) ∧
          (¬(attached x = true ∧ dn < 48) → ∃ e, exec (.powerDownRequest d) s = .next { s with dev := e } ∧ waits e ∧ becomes e 3 ∧ RegsKept x e two ∧ CoresKept x e)))) ∧
    (∀ h : dn < 80,
      (domSt x dn = 1 → ∃ e, exec (.powerUpDone ⟨dn, h⟩) s = .next { s with dev := e } ∧ becomes e 2 ∧ (x.pwr.pend = some dn → answered e ST_OK) ∧ CoresKept x e) ∧
      (domSt x dn = 3 → (24 ≤ dn → dn < 48 → (bank x (dn - 24)).queue = []) →
        ∃ e, exec (.powerDownDone ⟨dn, h⟩) s = .next { s with dev := e } ∧ becomes e 0 ∧ (x.pwr.pend = some dn → answered e ST_OK) ∧ CoresKept x e))

/-- R641, R643 to R645, R649 to R653, R656, 04 R114, R115, 05 R191, 20 R672: core voltage, junction and reference events and what a reset, a trip and a power failure leave: one voltage step of at most 5 mV each 10 ms; PMBus faults and their end; TJ_ALERT; a lost reference clears its bit and takes the links it clocks down, the system clock trips; a PPS edge slews device time; Sync and Pdelay_Req go out (as log 75 takes IEEE 802.1AS) and the servo corrects device time in the selected domain once that is in sync; RESET_N and a trip hold the device with every other register at reset. It says of each of these commands that exec answers the next state described, under conditions on the state and the operands alone: avsTick, pmbusRetry, tjAlert, tjAlertEnd, externalReset, thermalTrip, referenceLoss, referenceReturn, ppsEdge, syncInterval, vppFuseChange, faultNRelease, powerFail. -/
def Obligations.VoltageReferencesAndResets : Prop :=
  ∀ (s : State) (vmin : BitVec 10) (temp : BitVec 16) (d : Fin 80) (edge : BitVec 64) (v : Bool) (ref : RefClock) (dom : Fin 2) (p : PortId) (back : Fin 8),
    let x := s.dev
    let held (e : Dev) (cause : Nat) : Prop :=
      e.pwr.held = cause ∧ fget e PWR_STATUS PWR_STATUS_LAST_RESET = cause ∧ (∀ o, o ∉ [DBG_STATUS, SMP_STATUS, PWR_STATUS] → reg e o = regReset o) ∧ (∀ t, (thr e t).st = .off) ∧
      e.oasis = keptOasis x.oasis ∧ (x.hist.flight = [] → e.hist.media = x.hist.media) ∧ e.smp.flash = x.smp.flash ∧ e.smp.repairs = x.smp.repairs ∧ e.smp.timeLog = x.smp.timeLog ∧ e.mem = [] ∧ e.inst = [] ∧ e.routes = []
    (x.pwr.held = 0 → fbit x PWR_STATUS PWR_STATUS_PMBUS_FAULT = false →
      (∃ e, exec (.avsTick vmin temp true) s = .next { s with dev := e } ∧ vcore e = stepToward (vcore x) (vcoreTarget x vmin.toNat) % 1024 ∧
        fget e PWR_STATUS PWR_STATUS_TJ_MAX = ofSigned 8 (temp.toInt / 8) ∧ x.pwr.avsAt + nsUnits 10000000 ≤ e.smp.op ∧ e.pwr.avsAt = e.smp.op ∧ RegsKept x e [PWR_STATUS] ∧ CoresKept x e) ∧
      (∃ e, exec (.avsTick vmin temp false) s = .next { s with dev := e } ∧ fbit e PWR_STATUS PWR_STATUS_PMBUS_FAULT = true ∧ vcore e = vcore x ∧ CoresKept x e)) ∧
    (x.pwr.held = 0 → fbit x PWR_STATUS PWR_STATUS_PMBUS_FAULT = true →
      ∃ e, exec (.avsTick vmin temp v) s = .next { s with dev := e } ∧ vcore e = vcore x ∧ RegsKept x e [PWR_STATUS] ∧ CoresKept x e) ∧
    (fbit x PWR_STATUS PWR_STATUS_PMBUS_FAULT = true →
      ∃ e, exec (.pmbusRetry v) s = .next { s with dev := e } ∧ fbit e PWR_STATUS PWR_STATUS_PMBUS_FAULT = !v ∧ x.pwr.pmbusAt + nsUnits 100000000 ≤ e.smp.op ∧ RegsKept x e [PWR_STATUS] ∧ CoresKept x e) ∧
    (840 ≤ temp.toInt → ∃ e, exec (.tjAlert temp d) s = .next { s with dev := e } ∧ fbit e PWR_STATUS PWR_STATUS_TJ_ALERT = true ∧ fget e PWR_STATUS PWR_STATUS_TJ_MAX = ofSigned 8 (temp.toInt / 8) ∧ CoresKept x e) ∧
    (temp.toInt < 840 → ∃ e, exec (.tjAlertEnd temp) s = .next { s with dev := e } ∧ fbit e PWR_STATUS PWR_STATUS_TJ_ALERT = false ∧ fget e PWR_STATUS PWR_STATUS_TJ_MAX = ofSigned 8 (temp.toInt / 8) ∧
      RegsKept x e [PWR_STATUS] ∧ CoresKept x e) ∧
    (x.pwr.held < 2 → ∃ e, exec .externalReset s = .next { s with dev := e } ∧ held e 1) ∧
    (x.pwr.held < 2 ∨ x.pwr.held = 3 → ∃ e, exec (.thermalTrip d) s = .next { s with dev := e } ∧ held e 2) ∧
    (x.pwr.held < 3 → ∃ e, exec (.referenceLoss .sys) s = .next { s with dev := e } ∧ held e 3) ∧
    (∀ b, refBit ref = some b →
      (fbit x PWR_STATUS b = true → (∀ j, ref = .sds j → j.val ≠ 7 ∨ twinOn x = false) → (ref = .pcie → x.hist.flight = []) →
        ∃ e, exec (.referenceLoss ref) s = .next { s with dev := e } ∧ fbit e PWR_STATUS b = false ∧ (∀ j, ref = .sds j → ∀ q, q / 16 = j.val → linkUp e q = false) ∧
          (ref = .pcie → ∀ r, r < 32 → (root e r).up = false) ∧ StorageKept x e) ∧
      (∃ e, exec (.referenceReturn ref) s = .next { s with dev := e } ∧ fbit e PWR_STATUS b = true ∧ (ref = .pcie → fbit x PWR_STATUS b = false → e.pwr.pcieStable = x.smp.op) ∧
        RegsKept x e [PWR_STATUS] ∧ CoresKept x e)) ∧
    (∃ e, exec (.ppsEdge edge) s = .next { s with dev := e } ∧ e.pwr.ppsAt = edge.toNat ∧ edge.toNat ≤ nowNs e ∧ e.regs = x.regs ∧ CoresKept x e ∧
      (restarting x = true ∨ fget x CYC_CTRL CYC_CTRL_TSRC ≠ 2 ∨ fbit x PWR_STATUS PWR_STATUS_PPS_OK = false → e.rate = x.rate) ∧
      (restarting x = false → fget x CYC_CTRL CYC_CTRL_TSRC = 2 → fbit x PWR_STATUS PWR_STATUS_PPS_OK = true → -(slewLimit x) ≤ e.rate ∧ e.rate ≤ slewLimit x ∧
        (edge.toNat % oneSecond = 0 → e.rate = 0) ∧ (0 < edge.toNat % oneSecond → edge.toNat % oneSecond < oneSecond / 2 → e.rate ≤ 0) ∧ (oneSecond / 2 ≤ edge.toNat % oneSecond → 0 ≤ e.rate))) ∧
    (∀ (decides step : Bool) (m : Int), restarting x = false → x.pwr.held = 0 → fbit x (PORT_PTP p.val) (if dom.val = 0 then PORT_PTP_DOM0_EN else PORT_PTP_DOM1_EN) = true → linkUp x p.val = true →
      ∃ e, exec (.syncInterval dom p back decides step m) s = .next { s with dev := e } ∧ (∀ f ∈ e.erg.ptpRx, f.1 ≠ p.val ∨ (ptpMsg f.2.1 f.2.2).dom ≠ domNumber x dom.val) ∧
        (fget x (PORT_TC p.val) PORT_TC_QLIMIT = 0 → (∃ f ∈ queueOf e p.val 7, (ptpMsg 0 f.bytes).kind = 2) ∧
          (fbit x SW_PTP SW_PTP_GM_CAP = true → ptpDomain x dom.val = {} → (∀ f ∈ x.erg.ptpRx, f.1 ≠ p.val) → ∃ f ∈ queueOf e p.val 7, (ptpMsg 0 f.bytes).kind = 0)) ∧
        (decides = true → step = false → fget x CYC_CTRL CYC_CTRL_TSRC = dom.val → (ptpDomain e dom.val).synced.isSome = true → e.rate = clipRate x m ∧ fget e CYC_TIME_STATUS CYC_TIME_STATUS_STATE = 1) ∧
        (decides = true → step = true → 0 ≤ m → fget x CYC_CTRL CYC_CTRL_TSRC = dom.val → (ptpDomain e dom.val).synced.isSome = true → anyClassOn x = false → e.time = x.time + nsUnits m.toNat ∧ e.rate = x.rate) ∧
        (decides = true → step = true → 0 ≤ m → fget x CYC_CTRL CYC_CTRL_TSRC = dom.val → (ptpDomain e dom.val).synced.isSome = true → anyClassOn x = true → e.time = x.time ∧ e.rate = slewLimit x ∧ fbit e CYC_TIME_STATUS CYC_TIME_STATUS_STEP_DEFERRED = true) ∧
        (decides = false ∨ fget x CYC_CTRL CYC_CTRL_TSRC ≠ dom.val ∨ (ptpDomain e dom.val).synced = none → e.time = x.time ∧ e.rate = x.rate) ∧ CoresKept x e) ∧
    (∃ e, exec (.vppFuseChange v) s = .next { s with dev := e } ∧ e = { x with pwr := { x.pwr with vpp := v } }) ∧
    (∃ e, exec .faultNRelease s = .next { s with dev := e } ∧ x.smp.faultUntil ≤ e.smp.op ∧ e.regs = x.regs ∧ CoresKept x e) ∧
    (∃ e, exec (.powerFail none) s = .next { s with dev := e } ∧ e.pwr.held = 4 ∧ (∀ k, domSt e k = 0) ∧ e.oasis = keptOasis x.oasis ∧ (∀ o, o ≠ DBG_STATUS → reg e o = regReset o) ∧
      (∀ t, thr e t = {}) ∧ e.smp.flash = x.smp.flash ∧ e.smp.repairs = x.smp.repairs ∧ e.mem = [])


/-! ## Lockstep, spares (15 R551 to R562) -/

/-- R551 to R561, 01 R21: a checked pair that mismatches, or a pair whose delay registers fail, halts: its threads stop, the fault is kept as a repair record and a spare is chosen; a comparator that misses its self test, or flags the injection after more than 4 clocks, leaves the pair running unchecked until it moves, and one of a halted pair is a fault of its own; the spare takes mode, partition, names and threads of the pair. It says of each of these commands that exec answers the next state described, under conditions on the state and the operands alone: coreMismatch, delayRegisterFault, comparatorSelfTest, spareReady, uncheckedPairMove. -/
def Obligations.LockstepPairs : Prop :=
  ∀ (s : State) (p : Fin 96) (flagged : Option Nat) (silent : Option Bool) (old new : Nat),
    let x := s.dev
    let core := 2 * p.val
    let y := { x with smp := { x.smp with moves := x.smp.moves.filter (fun m => m.1 != core) } }
    let late : Prop := ∀ n, flagged = some n → 4 < n
    x.smp.repairs.length < 16000 →
    (∀ e ∈ [Instr.coreMismatch ⟨p, silent⟩, .delayRegisterFault p], pairMode x p.val = 1 ∨ (e = .delayRegisterFault p ∧ pairMode x p.val = 2) →
      ∃ d, exec e s = .next { s with dev := d } ∧ pairMode d p.val = 4 ∧ (∀ k, k < 96 → k ≠ p.val → pairMode d k = pairMode x k) ∧
        (∀ t, t / 8 = core → (thr d t).st = .off ∧ (thr d t).storeBuf = [] ∧ (thr d t).accs = (thr x t).accs.filter stands) ∧ (∀ t, t / 8 ≠ core → thr d t = thr x t) ∧
        d.smp.repairs = x.smp.repairs ++ [{ kind := 4, unit := p.val, arg := 0 }] ∧
        (∀ q, chooseSpare y p.val = some q → d.smp.heal = x.smp.heal ++ [(core, 2 * q)]) ∧ (chooseSpare y p.val = none → d.smp.heal = x.smp.heal) ∧ d.smp.moves = y.smp.moves ∧
        (∀ b, e = .coreMismatch ⟨p, silent⟩ → silent = some b → d.smp.silent.contains (p.val, b) = true)) ∧
    (pairMode x p.val = 4 → x.smp.silent.contains (p.val, mget (fun _ => false) x.smp.tests p.val) = true →
      ∃ d, exec (.comparatorSelfTest p flagged) s = .next { s with dev := d } ∧ d.smp.silent = x.smp.silent.filter (fun e => e.1 != p.val) ∧
        (late → d.smp.repairs = x.smp.repairs ++ [{ kind := 4, unit := p.val, arg := 1 }]) ∧ (¬late → d.smp.repairs = x.smp.repairs ∧ d.regs = x.regs) ∧ CoresKept x d) ∧
    (pairMode x p.val = 1 →
      (∀ n, flagged = some n → n ≤ 4 → ∃ d, exec (.comparatorSelfTest p flagged) s = .next { s with dev := d } ∧ d.regs = x.regs ∧ d.smp.repairs = x.smp.repairs ∧ CoresKept x d) ∧
      (late → ∃ d, exec (.comparatorSelfTest p flagged) s = .next { s with dev := d } ∧ pairMode d p.val = 2 ∧ (∀ k, k < 96 → k ≠ p.val → pairMode d k = pairMode x k) ∧
        (chooseSpare x p.val = none → x.smp.moves.any (fun m => m.1 == core) = false → fbit d TWIN_STATUS TWIN_STATUS_REDUCED = true) ∧ d.smp.repairs = x.smp.repairs ++ [{ kind := 4, unit := p.val, arg := 1 }] ∧
        (∀ q, chooseSpare x p.val = some q → d.smp.moves = x.smp.moves ++ [(core, 2 * q, x.smp.op, nowNs x)]) ∧ CoresKept x d)) ∧
    (x.smp.heal.find? (fun h => h.1 == core) = some (old, new) → new % 2 = 0 → new < 192 → new ≠ core →
      ∃ d, exec (.spareReady p) s = .next { s with dev := d } ∧ pairMode d (new / 2) = 1 ∧ corePart d new = corePart x core ∧ corePart d (new + 1) = corePart x core ∧
        d.smp.heal = x.smp.heal.filter (fun h => h.1 != core) ∧ mfind d.tlb new = none ∧
        (∀ e ∈ d.cyc.threads, bitsOf e.2 (0, 0) = 1 → bitsOf e.2 (8, 1) ≠ core) ∧ (∀ e ∈ d.routes, bitsOf e.2 (9, 5) * 8 + bitsOf e.2 (12, 10) ≠ core) ∧
        (partState x (corePart x core) = 3 → ∀ t ∈ namedThreads x core,
          thr d (8 * new + t) = { startedThread (thr x (8 * core + t)).start .cycleWait with waitSpare := true, brkHalt := (thr x (8 * new + t)).brkHalt }) ∧
        (∀ t, t / 8 ≠ new → thr d t = thr x t) ∧ StorageKept x d) ∧
    (∀ m, x.smp.moves.find? (fun m => m.1 == core) = some m → pairMode x p.val ≠ 2 → ∃ d, exec (.uncheckedPairMove p) s = .next { s with dev := d } ∧ d = y) ∧
    (∀ at_ ns, x.smp.moves.find? (fun m => m.1 == core) = some (old, new, at_, ns) → pairMode x p.val = 2 → new % 2 = 0 → new < 192 → new ≠ core →
      (∀ t, t / 8 = core → (thr x t).storeBuf = [] ∧ (thr x t).accs = [] ∧ (thr x t).relHeld = none) → classesNaming x core (fun _ => true) = [] ∨ boundarySince x core ns = true →
      ∃ d, exec (.uncheckedPairMove p) s = .next { s with dev := d } ∧ pairMode d p.val = 4 ∧ pairMode d (new / 2) = 1 ∧ corePart d new = corePart x core ∧
        d.smp.moves = x.smp.moves.filter (fun m => m.1 != core) ∧ (classesNaming x core (fun _ => true) = [] → at_ + nsUnits 1000000 ≤ d.smp.op) ∧
        (∀ t, t < 8 → thr d (8 * new + t) = thr x (8 * core + t) ∧ thr d (8 * core + t) = {}) ∧ (∀ t, t / 8 ≠ new → t / 8 ≠ core → thr d t = thr x t) ∧ StorageKept x d)

/-! ## Darning, the Sampler's stores, hardware gates (15, 14) -/

/-- R563 to R566, R568, R574, R577, R580, R581, R584, 14 R543: Darning tests a unit's regions in turn and takes a spare for one that failed twice; a record goes to the flash store, or is counted; a phase closes; operating hours and the time log move on; the RAM store is cleared but for what waits for the flash; a record of either store is read through the read buffer, and a read while DONE is 0 is dropped; ACQUIRE, RELEASE and QUERY of a hardware gate answer by owner and permission. It says of each of these commands that exec answers the next state described, under conditions on the state and the operands alone: darningRegion, flashCopy, phaseClose, operatingHour, clearRam, samplerRead, smpRdData, gateAcquire, gateRelease, gateQuery. -/
def Obligations.SamplerAndGates : Prop :=
  ∀ (s : State) (u : DarnUnit) (fails : Fin 3) (corrected : Fin 129) (bad : List (Fin 128)) (flash : Bool) (ordinal : BitVec 14) (word : Fin 32) (t : Thr) (g : Byte),
    let x := s.dev
    (darnEnabled x u = false → ∃ d, exec (.darningRegion u fails corrected bad) s = .next { s with dev := d } ∧ d = x) ∧
    (darnEnabled x u = true →
      let r := darnPosOf x u
      ∃ d, exec (.darningRegion u fails corrected bad) s = .next { s with dev := d } ∧ darnPosOf d u = (r + 1) % darnRegions u ∧ darnAtOf d u = d.smp.op ∧
        darnAtOf x u + nsUnits (1000 * fget x SMP_DARN_CTRL SMP_DARN_CTRL_PERIOD_US) ≤ d.smp.op ∧
        darnRepaired d u = darnRepaired x u ++ (if fails.val = 2 ∧ (darnRepaired x u).length < darnSpares u then [r] else []) ∧
        (fails.val = 2 → (darnRepaired x u).length < darnSpares u → x.smp.repairs.length < 16000 → d.smp.repairs = x.smp.repairs ++ [{ kind := b2n (darnIsLt u), unit := darnUnitNum u, arg := r }]) ∧
        (fails.val ≠ 0 → fget d SMP_DARN_STAT SMP_DARN_STAT_LAST_UNIT = darnUnitNum u ∧ fget d SMP_DARN_STAT SMP_DARN_STAT_LAST_REGION = r % 8192) ∧
        (∀ n, u = .bank n → ∀ w, poisonAt d w = (poisonAt x w || bad.any (fun i => w == (bankBase n.val + 1024 * r + 8 * i.val) / 8))) ∧
        (∀ k, u = .lineTable k → ∀ w, poisonAt d w = poisonAt x w) ∧ (∀ a, rdByte d a = rdByte x a) ∧ (∀ w, tagAt d w = tagAt x w) ∧ d.threads = x.threads) ∧
    (∀ r, x.smp.ram.find? (fun r => r.flashPend) = some r →
      ∃ d, exec .flashCopy s = .next { s with dev := d } ∧ d.smp.ram = copied r.seq x.smp.ram ∧
        (∀ l, flashPut { r with flashPend := false } x.smp.flash = some l → d.smp.flash = l ∧ d.regs = x.regs) ∧
        (flashPut { r with flashPend := false } x.smp.flash = none → d.smp.flash = x.smp.flash ∧ RegsKept x d [SMP_DROPPED]) ∧ CoresKept x d) ∧
    (∀ p, x.smp.phase = some p →
      ∃ d, exec .phaseClose s = .next { s with dev := d } ∧ d.smp.phase = none ∧ fget d SMP_STATUS SMP_STATUS_PHASE = 0 ∧ (phaseEnd x p).2 ≤ d.smp.op ∧
        RegsKept x d [SMP_STATUS, SMP_DROPPED] ∧ CoresKept x d) ∧
    (∃ d, exec .operatingHour s = .next { s with dev := d } ∧ d.smp.hours = min 0xFFFFF (x.smp.hours + 1) ∧ d.smp.hourStart = x.smp.hourStart + opHour ∧ d.smp.hourStart ≤ d.smp.op ∧
      d.smp.timeLog.getLast? = some (d.smp.hours, x.smp.cycles) ∧ d.regs = x.regs ∧ CoresKept x d) ∧
    (∃ d, exec .clearRam s = .next { s with dev := d } ∧ (∀ r, r ∈ d.smp.ram ↔ r ∈ x.smp.ram ∧ r.flashPend = true) ∧ d.smp.flash = x.smp.flash ∧ d.regs = x.regs ∧ CoresKept x d) ∧
    (fbit x SMP_RD_CTRL SMP_RD_CTRL_DONE = false → exec (.samplerRead flash ordinal word) s = .next s) ∧
    (fbit x SMP_RD_CTRL SMP_RD_CTRL_DONE = true → let l := if flash then flashRecords x else x.smp.ram
      ∃ d, exec (.samplerRead flash ordinal word) s = .next { s with dev := d } ∧ fbit d SMP_RD_CTRL SMP_RD_CTRL_DONE = true ∧ fget d SMP_RD_CTRL SMP_RD_CTRL_WORD = word.val ∧
        fbit d SMP_RD_CTRL SMP_RD_CTRL_VALID = l[ordinal.toNat]?.isSome ∧ (∀ r, l[ordinal.toNat]? = some r → d.smp.readBuf = recordBytes r) ∧ RegsKept x d [SMP_RD_CTRL] ∧ CoresKept x d) ∧
    (let w := fget x SMP_RD_CTRL SMP_RD_CTRL_WORD
      ∃ d, exec .smpRdData s = .next { s with dev := d } ∧ d.readData = BitVec.ofNat 64 (leNat ((x.smp.readBuf.drop (8 * w)).take 8)) ∧ fget d SMP_RD_CTRL SMP_RD_CTRL_WORD = (w + 1) % 32 ∧
        RegsKept x d [SMP_RD_CTRL] ∧ CoresKept x d) ∧
    (domOn x 79 = true →
      let o := gateSt x g.toNat
      let part := thrPart x t.val
      let may := nbit (partSt x part).gates g.toNat
      let answers (c : Instr) (code : Nat) (y : GateSt) : Prop :=
        ∃ d, exec c s = .next { s with dev := d } ∧ reg d (bankedReg MGR_GATE_RESULT t.val) = gateResult y g.toNat code ∧ gateSt d g.toNat = y ∧
          (∀ k, k ≠ g.toNat → gateSt d k = gateSt x k) ∧ RegsKept x d [bankedReg MGR_GATE_RESULT t.val] ∧ CoresKept x d
      (may = false → ∀ c ∈ [Instr.gateAcquire t g, .gateRelease t g, .gateQuery t g], answers c 5 o) ∧
      (may = true →
        answers (.gateQuery t g) (7 + o.st) o ∧
        (o.st = 0 → answers (.gateAcquire t g) 0 { st := 1, thr := t.val, part := part, gen := (partSt x part).gen }) ∧
        (o.st = 2 → answers (.gateAcquire t g) 2 { st := 1, thr := t.val, part := part, gen := (partSt x part).gen }) ∧
        (o.st = 1 → o.thr = t.val → answers (.gateAcquire t g) 6 o ∧ answers (.gateRelease t g) 3 { o with st := 0 }) ∧
        (o.st = 1 → o.thr ≠ t.val → answers (.gateAcquire t g) 1 o) ∧
        (o.st ≠ 1 ∨ o.thr ≠ t.val → answers (.gateRelease t g) 4 o)))


/-! ## The Garir TAP, authorisation, the debugger's commands (16) -/

/-- R585 to R594, 14 R547: each TAP instruction selects its register and pin mode, at level 2 where it needs it and as BYPASS otherwise; REQUEST grants at once in BLANK and in OPEN without a password and issues a challenge otherwise; the tick judges a response: a grant, STALE, INVALID, and the lockout after 5; DETACH, REVOKE, TRST_N and 10 s without TCK end a grant; a challenge ends after 60 s and a lockout after its time; SET_PASSWORD holds in OPEN at level 2; an operation of the software path while DONE is 0 is dropped, and its result stands in RESULT with DONE. It says of each of these commands that exec answers the next state described, under conditions on the state and the operands alone: samplePreload, extest, extestPulse, extestTrain, clamp, highz, bypass, idcode, testLogicReset, trst, authDetach, tapIdleTimeout, authRequest, authRespond, authRevoke, setPassword, authorisationTick, challengeExpiry, lockoutExpiry. -/
def Obligations.TapAndAuthorisation : Prop :=
  ∀ (s : State) (cap sh : BitVec 2944) (level : BitVec 4) (id : BitVec 32) (payload : BitVec 256) (buf : PAddr),
    let x := s.dev
    let lvl := level.toNat
    let ungranted (d : Dev) : Prop := tapLevel d = 0 ∧ attached d = false
    (∀ e ∈ [(Instr.samplePreload cap sh, 0x01, PinMode.functional, false), (.extest cap sh, 0x00, .extest, true), (.extestPulse cap sh, 0x08, .pulse, true), (.extestTrain cap sh, 0x09, .train, true)],
      e.2.2.2 = false ∨ tapLevel x = 2 →
      ∃ d, exec e.1 s = .next { s with dev := d } ∧ d = { x with dbg := { x.dbg with ir := e.2.1, tckAt := x.smp.op, pins := e.2.2.1, tdo := cap.toNat, bsr := sh } }) ∧
    (∀ e ∈ [(Instr.clamp, 0x03, PinMode.clamp), (.highz, 0x04, .highz)], tapLevel x = 2 →
      ∃ d, exec e.1 s = .next { s with dev := d } ∧ d = { x with dbg := { x.dbg with ir := e.2.1, tckAt := x.smp.op, pins := e.2.2, tdo := 0 } }) ∧
    (∀ c ∈ [Instr.extest cap sh, .extestPulse cap sh, .extestTrain cap sh, .clamp, .highz, .bypass], c = .bypass ∨ tapLevel x ≠ 2 →
      ∃ d, exec c s = .next { s with dev := d } ∧ d = { x with dbg := { x.dbg with ir := 0xFF, tckAt := x.smp.op, pins := .functional, tdo := 0 } }) ∧
    (∃ d, exec .idcode s = .next { s with dev := d } ∧ d = { x with dbg := { x.dbg with ir := 0x02, tckAt := x.smp.op, pins := .functional, tdo := 0x1D7280F3 } }) ∧
    (∃ d, exec .testLogicReset s = .next { s with dev := d } ∧ d = { x with dbg := { x.dbg with ir := 0x02, tckAt := x.smp.op, pins := .functional } }) ∧
    (∃ d, exec .trst s = .next { s with dev := d } ∧ d.dbg.ir = 0x02 ∧ d.dbg.pins = .functional ∧ ungranted d ∧ RegsKept x d [DBG_STATUS] ∧ CoresKept x d) ∧
    (∃ d, exec .authDetach s = .next { s with dev := d } ∧ d.dbg.authStatus = G_OK ∧ ungranted d ∧ RegsKept x d [DBG_STATUS] ∧ CoresKept x d) ∧
    (tapLevel x = 0 → exec .tapIdleTimeout s = .next s) ∧
    (tapLevel x ≠ 0 → ∃ d, exec .tapIdleTimeout s = .next { s with dev := d } ∧ ungranted d ∧ x.dbg.tckAt + 10 * opSecond ≤ d.smp.op ∧ RegsKept x d [DBG_STATUS] ∧ CoresKept x d) ∧
    (lvl ≠ 1 → lvl ≠ 2 → ∀ c ∈ [Instr.authRequest .tap level, .authRespond .tap level id payload],
      ∃ d, exec c s = .next { s with dev := d } ∧ d.dbg.authStatus = G_BAD_ARG ∧ d.regs = x.regs ∧ d.dbg.resps = x.dbg.resps ∧ CoresKept x d) ∧
    (lvl = 1 ∨ lvl = 2 →
      (authOpen x = true → ∃ d, exec (.authRequest .tap level) s = .next { s with dev := d } ∧ d.dbg.authStatus = G_OK ∧ tapLevel d = lvl ∧ attached d = true ∧ d.dbg.challenge = none ∧ CoresKept x d) ∧
      (authOpen x = false → x.dbg.lockFrom.isSome = true → ∃ d, exec (.authRequest .tap level) s = .next { s with dev := d } ∧ d.dbg.authStatus = G_LOCKOUT ∧ d.regs = x.regs ∧ CoresKept x d) ∧
      (authOpen x = false → x.dbg.lockFrom = none → x.dbg.challenge.isSome = true → ∃ d, exec (.authRequest .tap level) s = .next { s with dev := d } ∧ d.dbg.authStatus = G_BUSY ∧ d.regs = x.regs ∧ CoresKept x d) ∧
      (authOpen x = false → x.dbg.lockFrom = none → x.dbg.challenge = none →
        ∃ d c, exec (.authRequest .tap level) s = .next { s with dev := d } ∧ d.dbg.authStatus = G_OK ∧ d.dbg.challenge = some c ∧ c.path = 0 ∧ c.at_ = x.smp.op ∧ c.bytes.length = 32 ∧
          d.dbg.authId = c.id ∧ d.dbg.authChal = c.bytes ∧ fbit d DBG_STATUS DBG_STATUS_CHALLENGE_OUT = true ∧ tapLevel d = tapLevel x ∧ RegsKept x d [DBG_STATUS] ∧ CoresKept x d) ∧
      (∃ d, exec (.authRespond .tap level id payload) s = .next { s with dev := d } ∧ d.dbg.authStatus = G_PENDING ∧
        d.dbg.resps = x.dbg.resps ++ [{ path := 0, id := id.toNat, level := lvl, payload := leBytes 32 payload.toNat }] ∧ d.regs = x.regs ∧ CoresKept x d)) ∧
    (fbit x DBG_AUTH DBG_AUTH_DONE = true →
      (swAuth x = true → ∃ d, exec .authRevoke s = .next { s with dev := d } ∧ fget d DBG_STATUS DBG_STATUS_SW_LEVEL = 0 ∧ fget d DBG_AUTH DBG_AUTH_RESULT = G_OK ∧ tapLevel d = tapLevel x ∧
        RegsKept x d [DBG_STATUS, DBG_AUTH] ∧ CoresKept x d) ∧
      (swAuth x = false → ∀ c ∈ [Instr.authRevoke, .authRequest (.software buf) level, .authRespond (.software buf) level id payload],
        ∃ d, exec c s = .next { s with dev := d } ∧ fget d DBG_AUTH DBG_AUTH_RESULT = G_DENIED ∧ reg d DBG_STATUS = reg x DBG_STATUS ∧ CoresKept x d) ∧
      (swAuth x = true → authOpen x = true → lvl = 1 ∨ lvl = 2 → ∃ d, exec (.authRequest (.software buf) level) s = .next { s with dev := d } ∧
        fget d DBG_STATUS DBG_STATUS_SW_LEVEL = lvl ∧ fget d DBG_AUTH DBG_AUTH_RESULT = G_OK ∧ tapLevel d = tapLevel x ∧ CoresKept x d)) ∧
    (fbit x DBG_AUTH DBG_AUTH_DONE = false → ∀ c ∈ [Instr.authRevoke, .authRequest (.software buf) level, .authRespond (.software buf) level id payload], exec c s = .next s) ∧
    (fbit x DBG_AUTH DBG_AUTH_DONE = true → swAuth x = true → lvl = 1 ∨ lvl = 2 →
      let answers (c : Instr) (r : Nat) : Prop := ∃ d, exec c s = .next { s with dev := d } ∧ fget d DBG_AUTH DBG_AUTH_RESULT = r ∧ fbit d DBG_AUTH DBG_AUTH_DONE = true ∧ d.dbg = x.dbg ∧ CoresKept x d
      (authOpen x = false → x.dbg.lockFrom.isSome = true → answers (.authRequest (.software buf) level) G_LOCKOUT) ∧
      (authOpen x = false → x.dbg.lockFrom = none → x.dbg.challenge.isSome = true → answers (.authRequest (.software buf) level) G_BUSY) ∧
      (authOpen x = false → x.dbg.lockFrom = none → x.dbg.challenge = none → (authBuffer x (buf.toNat / 64 * 64) true).1 = none → answers (.authRequest (.software buf) level) G_BUS_ERROR) ∧
      (∀ b, authOpen x = false → x.dbg.lockFrom = none → x.dbg.challenge = none → (authBuffer x (buf.toNat / 64 * 64) true).1 = some b →
        ∃ d c, exec (.authRequest (.software buf) level) s = .next { s with dev := d } ∧ fget d DBG_AUTH DBG_AUTH_RESULT = G_OK ∧ d.dbg.challenge = some c ∧ c.path = 1 ∧ c.at_ = x.smp.op ∧
          c.bytes.length = 32 ∧ fbit d DBG_STATUS DBG_STATUS_CHALLENGE_OUT = true ∧ d.threads = x.threads) ∧
      ((authBuffer x (buf.toNat / 64 * 64) false).1 = none → answers (.authRespond (.software buf) level id payload) G_BUS_ERROR) ∧
      (∀ b, (authBuffer x (buf.toNat / 64 * 64) false).1 = some b →
        ∃ d r, exec (.authRespond (.software buf) level id payload) s = .next { s with dev := d } ∧ d.dbg = { x.dbg with resps := x.dbg.resps ++ [r] } ∧ r.path = 1 ∧ r.level = lvl ∧
          fbit d DBG_AUTH DBG_AUTH_DONE = false ∧ CoresKept x d)) ∧
    (lcState x ≠ LC_OPEN → ∃ d, exec (.setPassword payload) s = .next { s with dev := d } ∧ d.dbg.authStatus = G_WRONG_STATE ∧ d.oasis = x.oasis ∧ d.regs = x.regs ∧ CoresKept x d) ∧
    (lcState x = LC_OPEN → tapLevel x ≠ 2 → ∃ d, exec (.setPassword payload) s = .next { s with dev := d } ∧ d.dbg.authStatus = G_DENIED ∧ d.oasis = x.oasis ∧ d.regs = x.regs ∧ CoresKept x d) ∧
    (lcState x = LC_OPEN → tapLevel x = 2 → ∃ d, exec (.setPassword payload) s = .next { s with dev := d } ∧ d.dbg.authStatus = G_OK ∧
      d.oasis = { x.oasis with password := if payload = 0 then none else some (leBytes 32 payload.toNat) } ∧ d.regs = x.regs ∧ CoresKept x d) ∧
    (
      let fails := fget x DBG_STATUS DBG_STATUS_FAILS
      fails < 5 →
      (x.dbg.resps = [] → ∃ d, exec .authorisationTick s = .next { s with dev := d } ∧ RegsKept x d [] ∧ x.smp.op < d.smp.op ∧ CoresKept x d) ∧
      (∀ r, x.dbg.resps = [r] → r.path = 0 → x.dbg.lockFrom.isSome = true ∨ x.dbg.challenge = none → ∃ d, exec .authorisationTick s = .next { s with dev := d } ∧
        d.dbg.authStatus = (if x.dbg.lockFrom.isSome then G_LOCKOUT else G_STALE) ∧ d.dbg.challenge = x.dbg.challenge ∧ d.dbg.resps = [] ∧ RegsKept x d [] ∧ CoresKept x d) ∧
      (∀ r c, x.dbg.resps = [r] → x.dbg.lockFrom = none → x.dbg.challenge = some c → r.path = 0 → r.level < 4 →
        (r.id ≠ c.id → ∃ d, exec .authorisationTick s = .next { s with dev := d } ∧ d.dbg.authStatus = G_STALE ∧ d.dbg.challenge = some c ∧ tapLevel d = tapLevel x ∧ d.dbg.resps = [] ∧ CoresKept x d) ∧
        (r.id = c.id → authValid x c r = true → ∃ d, exec .authorisationTick s = .next { s with dev := d } ∧ d.dbg.authStatus = G_OK ∧ d.dbg.challenge = none ∧ tapLevel d = r.level ∧ attached d = true ∧
          fget d DBG_STATUS DBG_STATUS_FAILS = 0 ∧ fget d DBG_STATUS DBG_STATUS_LOCKOUT_N = 0 ∧ d.dbg.resps = [] ∧ CoresKept x d) ∧
        (r.id = c.id → authValid x c r = false → fails < 4 → ∃ d, exec .authorisationTick s = .next { s with dev := d } ∧ d.dbg.authStatus = G_INVALID ∧ d.dbg.challenge = some c ∧ tapLevel d = tapLevel x ∧
          fget d DBG_STATUS DBG_STATUS_FAILS = fails + 1 ∧ d.dbg.lockFrom = none ∧ CoresKept x d) ∧
        (r.id = c.id → authValid x c r = false → fails = 4 → ∃ d, exec .authorisationTick s = .next { s with dev := d } ∧ d.dbg.authStatus = G_INVALID ∧ d.dbg.challenge = none ∧ tapLevel d = tapLevel x ∧
          fget d DBG_STATUS DBG_STATUS_FAILS = 0 ∧ d.dbg.lockFrom = some d.smp.op ∧ d.dbg.lockFor = 60 * 2 ^ fget x DBG_STATUS DBG_STATUS_LOCKOUT_N * opSecond ∧
          fget d DBG_STATUS DBG_STATUS_LOCKOUT_N = min (fget x DBG_STATUS DBG_STATUS_LOCKOUT_N + 1) 10 ∧ CoresKept x d))) ∧
    (x.dbg.challenge = none → exec .challengeExpiry s = .next s) ∧ (x.dbg.lockFrom = none → exec .lockoutExpiry s = .next s) ∧
    (∀ c, x.dbg.challenge = some c → ∃ d, exec .challengeExpiry s = .next { s with dev := d } ∧ d.dbg.challenge = none ∧ fbit d DBG_STATUS DBG_STATUS_CHALLENGE_OUT = false ∧
      c.at_ + 60 * opSecond ≤ d.smp.op ∧ RegsKept x d [DBG_STATUS] ∧ CoresKept x d) ∧
    (∀ t, x.dbg.lockFrom = some t → ∃ d, exec .lockoutExpiry s = .next { s with dev := d } ∧ d.dbg.lockFrom = none ∧ t + x.dbg.lockFor ≤ d.smp.op ∧ d.regs = x.regs ∧ CoresKept x d)

/-- R588, R595 to R602: the debugger's thread, comparator and memory commands: a core that does not exist is BAD_ARG, a thread the level does not reach DENIED; HALT, RESUME, STEP, STATE, BRK_HALT; the registers of a halted thread with their tags; comparators set and cleared; READ and WRITE of DRAM by the debug bus master, with AUTOINC. RESUME and STEP are said for a thread in which no exception entry waits to begin. R523, R588, R596, R603 to R605: the virtual terminals and the debug mailbox: a partition's word waits in DBG_VT_TX until VT_READ takes it, a second is dropped; VT_WRITE hands a word to DBG_VT_RX and raises its source with IRQ_EN, BUSY until ACK; at level 2 MB_WRITE fills and sends the debug mailbox and MB_READ reads and acknowledges it. It says of each of these commands that exec answers the next state described, under conditions on the state and the operands alone: garirHalt, garirResume, garirStep, garirRegRead, garirRegWrite, garirState, brkHalt, garirNop, bpSet, bpClear, garirRead, garirWrite, vtRead, vtWrite, vtRxAck, dbgVtTx, mbWrite, mbRead. -/
def Obligations.DebuggerCommands : Prop :=
  (
    ∀ (s : State) (core : Byte) (th : Fin 8) (r : BitVec 7) (v : Word) (tag : Byte) (data flag tagged autoinc : Bool) (idx : BitVec 3) (va : BitVec 48) (mask : Byte) (action access : BitVec 2) (a : PAddr),
      s.dev.dbg.gStep = none →
      let x := s.dev
      let t := 8 * core.toNat + th.val
      let y := thr x t
      let ends (d : Dev) (st tg : Nat) (q : Word) : Prop := d.dbg.gStatus = st ∧ d.dbg.gTag = tg ∧ d.dbg.gData = q
      let quiet (d : Dev) : Prop := d.regs = x.regs ∧ d.dbg.cmps = x.dbg.cmps ∧ CoresKept x d
      let stays : Prop := y.resume ≠ .running ∨ drained y = false ∨ y.exc = none ∧ (y.slot = .none → nextDeferred y = none)
      let thrCmds := [Instr.garirHalt core th, .garirResume core th, .garirStep core th, .garirRegRead core th r, .garirRegWrite core th r v tag, .garirState core th, .brkHalt core th flag]
      (∃ d, exec .garirNop s = .next { s with dev := d } ∧ ends d G_OK 0 0 ∧ quiet d) ∧
      (192 ≤ core.toNat → ∀ c ∈ thrCmds, ∃ d, exec c s = .next { s with dev := d } ∧ ends d G_BAD_ARG 0 0 ∧ quiet d) ∧
      (core.toNat < 192 → tapReaches x t = false → ∀ c ∈ thrCmds, ∃ d, exec c s = .next { s with dev := d } ∧ ends d G_DENIED 0 0 ∧ quiet d) ∧
      (core.toNat < 192 → tapReaches x t = true →
        (y.st = .running ∨ y.st = .cycleWait → y.slot = .none → y.exc = none → ∃ d, exec (.garirHalt core th) s = .next { s with dev := d } ∧ ends d G_OK 0 0 ∧
          thr d t = { y with resume := y.st, st := .haltedDebug, walk := none } ∧ OthersKept x d t ∧ StorageKept x d) ∧
        (y.st = .running ∨ y.st = .cycleWait → ¬(y.slot = .none ∧ y.exc = none) → ∃ d, exec (.garirHalt core th) s = .next { s with dev := d } ∧ d.dbg.gStatus = G_PENDING ∧ d.dbg.gStep = some t ∧
          thr d t = { y with stepping := true } ∧ OthersKept x d t ∧ StorageKept x d) ∧
        (y.st ≠ .haltedDebug → ∀ c ∈ [Instr.garirResume core th, .garirStep core th, .garirRegRead core th r, .garirRegWrite core th r v tag],
          ∃ d, exec c s = .next { s with dev := d } ∧ ends d G_WRONG_STATE 0 0 ∧ quiet d) ∧
        (y.st = .haltedDebug →
          (stays → ∃ d, exec (.garirResume core th) s = .next { s with dev := d } ∧ ends d G_OK 0 0 ∧ thr d t = { y with st := y.resume } ∧ d.regs = x.regs ∧ OthersKept x d t ∧ StorageKept x d) ∧
          (stays → ∃ d, exec (.garirStep core th) s = .next { s with dev := d } ∧ d.dbg.gStatus = G_PENDING ∧ d.dbg.gStep = some t ∧
            thr d t = { y with st := y.resume, stepping := true, stepWait := false } ∧ d.regs = x.regs ∧ OthersKept x d t ∧ StorageKept x d) ∧
          (r.toNat < 32 → ∀ q, q = (if r.toNat = 0 then QWord.zero else mget (fun _ => QWord.zero) y.gpr r.toNat) →
            ∃ d, exec (.garirRegRead core th r) s = .next { s with dev := d } ∧ ends d G_OK q.tag.toNat q.val ∧ quiet d) ∧
          (r.toNat = 32 → ∃ d, exec (.garirRegRead core th r) s = .next { s with dev := d } ∧ ends d G_OK 0 (BitVec.ofNat 64 y.pc) ∧ quiet d) ∧
          (∀ n, 64 ≤ r.toNat → readSr x t (r.toNat - 64) true = some n → ∃ d, exec (.garirRegRead core th r) s = .next { s with dev := d } ∧ ends d G_OK 0 (BitVec.ofNat 64 n) ∧ quiet d) ∧
          (r.toNat < 32 → ∃ d, exec (.garirRegWrite core th r v tag) s = .next { s with dev := d } ∧ ends d G_OK 0 0 ∧ thr d t = setGpr y r.toNat ⟨v, tag⟩ ∧ d.regs = x.regs ∧ OthersKept x d t ∧ StorageKept x d) ∧
          (r.toNat = 32 → v.toNat % 4 = 0 → v.toNat < 2 ^ 48 → ∃ d, exec (.garirRegWrite core th r v tag) s = .next { s with dev := d } ∧ ends d G_OK 0 0 ∧
            thr d t = { y with pc := v.toNat } ∧ d.regs = x.regs ∧ OthersKept x d t ∧ StorageKept x d)) ∧
        (∃ d, exec (.garirState core th) s = .next { s with dev := d } ∧ ends d G_OK 0 (BitVec.ofNat 64 (stateCode y.st + 8 * b2n (y.st == .haltedDebug && y.twait.isSome))) ∧ quiet d) ∧
        (∃ d, exec (.brkHalt core th flag) s = .next { s with dev := d } ∧ ends d G_OK 0 0 ∧ thr d t = { y with brkHalt := flag } ∧ d.regs = x.regs ∧ OthersKept x d t ∧ StorageKept x d)) ∧
      (core.toNat < 192 → tapReaches x (8 * core.toNat) = true → idx.toNat < (if data then 2 else 4) →
        let k := cmpKey core.toNat data idx.toNat
        (action ≠ 3 → (data = true → access ≠ 0) → ∃ d, exec (.bpSet core data idx va mask action access) s = .next { s with dev := d } ∧ ends d G_OK 0 0 ∧
          mfind d.dbg.cmps k = some { va := va.toNat, mask := mask.toNat, action := action.toNat, access := access.toNat } ∧ (∀ j, j ≠ k → mfind d.dbg.cmps j = mfind x.dbg.cmps j) ∧ d.regs = x.regs ∧ CoresKept x d) ∧
        (∃ d, exec (.bpClear core data idx) s = .next { s with dev := d } ∧ ends d G_OK 0 0 ∧ mfind d.dbg.cmps k = none ∧ (∀ j, j ≠ k → mfind d.dbg.cmps j = mfind x.dbg.cmps j) ∧ d.regs = x.regs ∧ CoresKept x d)) ∧
      (
        let pa := if a.toNat = 0 then x.dbg.gNext else a.toNat
        (pa % 8 ≠ 0 → ∀ c ∈ [Instr.garirRead a tagged autoinc, .garirWrite a v tag tagged autoinc], ∃ d, exec c s = .next { s with dev := d } ∧ ends d G_BAD_ARG 0 0 ∧ quiet d) ∧
        (pa % 8 = 0 → memReaches x pa = false → ∀ c ∈ [Instr.garirRead a tagged autoinc, .garirWrite a v tag tagged autoinc], ∃ d, exec c s = .next { s with dev := d } ∧ ends d G_DENIED 0 0 ∧ quiet d) ∧
        (pa % 8 = 0 → memReaches x pa = true → inDram x pa = true → debugWaits x pa = [] →
          (tagged = true ∨ poisonAt x (pa / 8) = false → ∃ d, exec (.garirRead a tagged autoinc) s = .next { s with dev := d } ∧
            ends d G_OK (if tagged then (readTagged x pa).tag.toNat else 0) (readTagged x pa).val ∧ (autoinc = true → d.dbg.gNext = pa + 8) ∧ quiet d) ∧
          (tagged = false → poisonAt x (pa / 8) = true → ∃ d, exec (.garirRead a tagged autoinc) s = .next { s with dev := d } ∧ ends d G_BUS_ERROR 0 0 ∧ quiet d) ∧
          (∃ d, exec (.garirWrite a v tag tagged autoinc) s = .next { s with dev := d } ∧ d.dbg.gStatus = G_OK ∧ (∀ b, rdByte d b = if pa ≤ b ∧ b < pa + 8 then (leBytes 8 v.toNat).getD (b - pa) 0 else rdByte x b) ∧
            (∀ w, tagAt d w = if w = pa / 8 then (if tagged then tag else 0x08) else tagAt x w) ∧ (autoinc = true → d.dbg.gNext = pa + 8) ∧ d.threads = x.threads ∧
            ((∀ w, w / 8 = pa / 64 → w ≠ pa / 8 → poisonAt x w = false) → StoredWord x d pa ⟨v, if tagged then tag else 0x08⟩))))) ∧
  (
    ∀ (s : State) (p : PartId) (count : Fin 8) (data : BitVec 56) (idx : Fin 16) (send : Bool) (v : Word),
      s.dev.dbg.gStep = none →
      let x := s.dev
      let tx := bankedReg DBG_VT_TX p.val
      let rx := bankedReg DBG_VT_RX p.val
      let ctl := mboxCtrl dbgMbox
      let ends (d : Dev) (st : Nat) (q : Word) : Prop := d.dbg.gStatus = st ∧ d.dbg.gTag = 0 ∧ d.dbg.gData = q
      (tapLevel x = 0 → ∀ c ∈ [Instr.vtRead p, .vtWrite p count data], ∃ d, exec c s = .next { s with dev := d } ∧ ends d G_DENIED 0 ∧ d.regs = x.regs ∧ CoresKept x d) ∧
      (tapLevel x ≠ 0 →
        (∃ d, exec (.vtRead p) s = .next { s with dev := d } ∧ ends d G_OK (reg x tx) ∧ fbit d tx DBG_VT_TX_FULL = false ∧ fbit d tx DBG_VT_TX_DROPPED = false ∧
          fget d tx DBG_VT_TX_DATA = fget x tx DBG_VT_TX_DATA ∧ RegsKept x d [tx] ∧ CoresKept x d) ∧
        (fbit x rx DBG_VT_RX_VALID = true → ∃ d, exec (.vtWrite p count data) s = .next { s with dev := d } ∧ ends d G_BUSY 0 ∧ d.regs = x.regs ∧ CoresKept x d) ∧
        (fbit x rx DBG_VT_RX_VALID = false → ∃ d, exec (.vtWrite p count data) s = .next { s with dev := d } ∧ ends d G_OK 0 ∧ fbit d rx DBG_VT_RX_VALID = true ∧ fget d rx DBG_VT_RX_COUNT = count.val ∧
          fget d rx DBG_VT_RX_DATA = data.toNat ∧ (fbit x rx DBG_VT_RX_IRQ_EN = true → nbit (mget (fun _ => (0 : Word)) x.routes (0xE50 + p.val)).toNat 0 = true → mget (fun _ => false) d.pendSrc (0xE50 + p.val) = true) ∧
          (fbit x rx DBG_VT_RX_IRQ_EN = false → d.pendSrc = x.pendSrc) ∧ RegsKept x d [rx] ∧ CoresKept x d)) ∧
      (∃ d, exec (.vtRxAck p) s = .next { s with dev := d } ∧ fbit d rx DBG_VT_RX_VALID = false ∧ fget d rx DBG_VT_RX_DATA = fget x rx DBG_VT_RX_DATA ∧ RegsKept x d [rx] ∧ CoresKept x d) ∧
      (count.val = 0 → ∃ d, exec (.dbgVtTx p count data) s = .next { s with dev := d } ∧ d = x) ∧
      (count.val ≠ 0 →
        (fbit x tx DBG_VT_TX_FULL = true → ∃ d, exec (.dbgVtTx p count data) s = .next { s with dev := d } ∧ fbit d tx DBG_VT_TX_DROPPED = true ∧ fget d tx DBG_VT_TX_DATA = fget x tx DBG_VT_TX_DATA ∧
          RegsKept x d [tx] ∧ CoresKept x d) ∧
        (fbit x tx DBG_VT_TX_FULL = false → ∃ d, exec (.dbgVtTx p count data) s = .next { s with dev := d } ∧ fbit d tx DBG_VT_TX_FULL = true ∧ fget d tx DBG_VT_TX_COUNT = count.val ∧
          fget d tx DBG_VT_TX_DATA = data.toNat ∧ RegsKept x d [tx] ∧ CoresKept x d)) ∧
      (tapLevel x ≠ 2 → ∀ c ∈ [Instr.mbWrite idx send v, .mbRead idx send], ∃ d, exec c s = .next { s with dev := d } ∧ ends d G_DENIED 0 ∧ d.regs = x.regs ∧ d.mbox = x.mbox ∧ CoresKept x d) ∧
      (tapLevel x = 2 →
        (fbit x ctl PI_MBOX_CTRL_OUT_BUSY = true → ∃ d, exec (.mbWrite idx send v) s = .next { s with dev := d } ∧ ends d G_BUSY 0 ∧ d.regs = x.regs ∧ d.mbox = x.mbox ∧ CoresKept x d) ∧
        (fbit x ctl PI_MBOX_CTRL_OUT_BUSY = false → ∃ d, exec (.mbWrite idx send v) s = .next { s with dev := d } ∧ ends d G_OK 0 ∧ (mbox d dbgMbox).out = listSet (mbox x dbgMbox).out idx.val v ∧
          (send = true → restarting x = false → (mbox d dbgMbox).posted = true) ∧ fbit d ctl PI_MBOX_CTRL_OUT_BUSY = send ∧ RegsKept x d [ctl] ∧ CoresKept x d) ∧
        (∃ d, exec (.mbRead idx send) s = .next { s with dev := d } ∧ ends d G_OK ((mbox x dbgMbox).inp.getD idx.val 0) ∧ (send = true → fbit d ctl PI_MBOX_CTRL_IN_FULL = false) ∧ d.mbox = x.mbox ∧
          RegsKept x d [ctl] ∧ CoresKept x d)))


/-! ## Trace and performance counters (16 R607 to R618, 17) -/

/-- R612 to R618: EN starts tracing at WRPTR 0 and stops it; the first trigger of the kind chosen, or FIRE, enters POST and later ones count for nothing; POST ends tracing after its bytes or µs; TIME packets; the sink takes the oldest bytes of the FIFO, in the bank at WRPTR or on its port, stalls without a credit and stops tracing when its bank refuses; the source table, whose accesses while DONE is 0 are dropped. It says of each of these commands that exec answers the next state described, under conditions on the state and the operands alone: traceEnable, traceFire, traceTrigger, postEnd, traceTimeTick, traceSinkWrite, trcSrcRead, trcSrcWrite. -/
def Obligations.TraceCommands : Prop :=
  ∀ (s : State) (on : Bool) (kind : Fin 5) (n : Nat) (idx : BitVec 11),
    let x := s.dev
    let st (d : Dev) : Nat := fget d TRC_STATUS TRC_STATUS_STATE
    (fbit x TRC_CTRL TRC_CTRL_EN = on → ∃ d, exec (.traceEnable on) s = .next { s with dev := d } ∧ d = x) ∧
    (fbit x TRC_CTRL TRC_CTRL_EN = false → ∃ d, exec (.traceEnable true) s = .next { s with dev := d } ∧ fbit d TRC_CTRL TRC_CTRL_EN = true ∧ st d = 1 ∧
      fget d TRC_STATUS TRC_STATUS_WRPTR = 0 ∧ fbit d TRC_STATUS TRC_STATUS_WRAPPED = false ∧ d.trc.triggered = false ∧ d.trc.sunk = 0 ∧ d.trc.started = nowNs x ∧ d.trc.times = 0 ∧
      RegsKept x d [TRC_CTRL, TRC_STATUS] ∧ CoresKept x d) ∧
    (fbit x TRC_CTRL TRC_CTRL_EN = true → ∃ d, exec (.traceEnable false) s = .next { s with dev := d } ∧ fbit d TRC_CTRL TRC_CTRL_EN = false ∧ st d = (if tracing x then 3 else st x) ∧
      d.trc = x.trc ∧ RegsKept x d [TRC_CTRL, TRC_STATUS] ∧ CoresKept x d) ∧
    (∀ c, c = Instr.traceFire ∨ (c = .traceTrigger kind ∧ (kind.val = 0 ∨ fget x TRC_TRIG TRC_TRIG_KIND = kind.val)) →
      (st x = 1 → x.trc.triggered = false → ∃ d, exec c s = .next { s with dev := d } ∧ st d = 2 ∧ d.trc.triggered = true ∧ d.trc.trigAt = nowNs x ∧ d.trc.post = 0 ∧
        RegsKept x d [TRC_STATUS, CTR_CTRL, CTR_STATUS] ∧ CoresKept x d) ∧
      (st x ≠ 1 ∨ x.trc.triggered = true → ∃ d, exec c s = .next { s with dev := d } ∧ d = x)) ∧
    (st x = 2 →
      let post := fget x TRC_TRIG TRC_TRIG_POST
      let stops (d : Dev) : Prop := st d = 3 ∧ fbit d TRC_CTRL TRC_CTRL_EN = false ∧ RegsKept x d [TRC_CTRL, TRC_STATUS] ∧ CoresKept x d
      (fbit x TRC_TRIG TRC_TRIG_UNIT = true → ∃ d, exec .postEnd s = .next { s with dev := d } ∧ stops d ∧ x.trc.trigAt + 1000 * post ≤ nowNs d) ∧
      (fbit x TRC_TRIG TRC_TRIG_UNIT = false → 256 * post ≤ x.trc.post → ∃ d, exec .postEnd s = .next { s with dev := d } ∧ stops d) ∧
      (fbit x TRC_TRIG TRC_TRIG_UNIT = false → x.trc.post < 256 * post → ∃ d, exec .postEnd s = .next { s with dev := d } ∧ d = x)) ∧
    (tracing x = true → x.trc.fifo.length + 10 ≤ 65536 →
      ∃ d, exec .traceTimeTick s = .next { s with dev := d } ∧ x.trc.started + 1000 * fget x TRC_CTRL TRC_CTRL_TS_US * (x.trc.times + 1) ≤ nowNs d ∧
        d.trc = { x.trc with times := x.trc.times + 1, fifo := x.trc.fifo ++ packet 0x7FF 0x0A (beBytes 8 (nowNs d)) } ∧ d.regs = x.regs ∧ CoresKept x d) ∧
    (let bs := x.trc.fifo.take n
      let w := fget x TRC_STATUS TRC_STATUS_WRPTR
      let b := fget x TRC_CTRL TRC_CTRL_BANK
      fbit x TRC_STATUS TRC_STATUS_SINK_ERR = false → bs ≠ [] → sinkWaits x n = [] →
      (mayIssue x 514 = false → ∃ d, exec (.traceSinkWrite n) s = .next { s with dev := d } ∧ (creditQ d 514).waiting = true ∧ d.trc = x.trc ∧ d.regs = x.regs ∧ CoresKept x d) ∧
      (mayIssue x 514 = true →
        (fget x TRC_CTRL TRC_CTRL_SINK ≠ 0 → (x.trc.sunk + bs.length) / 4096 = x.trc.sunk / 4096 → ∃ d, exec (.traceSinkWrite n) s = .next { s with dev := d } ∧ d.trc.port = bs ∧ (creditQ d 514).out = (creditQ x 514).out + 1 ∧
          d.trc.fifo = x.trc.fifo.drop n ∧ d.trc.sunk = x.trc.sunk + bs.length ∧ d.trc.post = (if st x = 2 then x.trc.post + bs.length else x.trc.post) ∧ d.regs = x.regs ∧ CoresKept x d) ∧
        (∀ s1, fget x TRC_CTRL TRC_CTRL_SINK = 0 → masterWriteBytes x 0x1A (bankBase b + w) bs = (true, s1) → domOn x (24 + b) = true → w + bs.length < 0x800000 → (x.trc.sunk + bs.length) / 4096 = x.trc.sunk / 4096 →
          ∃ d, exec (.traceSinkWrite n) s = .next { s with dev := d } ∧ StorageKept s1 d ∧ fget d TRC_STATUS TRC_STATUS_WRPTR = w + bs.length ∧
          d.trc.fifo = x.trc.fifo.drop n ∧ d.trc.sunk = x.trc.sunk + bs.length ∧ d.threads = x.threads) ∧
        (fget x TRC_CTRL TRC_CTRL_SINK = 0 → domOn x (24 + b) = false → ∃ d, exec (.traceSinkWrite n) s = .next { s with dev := d } ∧ fbit d TRC_STATUS TRC_STATUS_SINK_ERR = true ∧
          fbit d TRC_CTRL TRC_CTRL_EN = false ∧ d.trc.fifo = x.trc.fifo ∧ CoresKept x d))) ∧
    (fbit x TRC_SRC_INDEX TRC_SRC_INDEX_DONE = false → ∀ c ∈ [Instr.trcSrcRead idx, .trcSrcWrite idx], exec c s = .next s) ∧
    (fbit x TRC_SRC_INDEX TRC_SRC_INDEX_DONE = true → 1548 < idx.toNat → ∀ c ∈ [Instr.trcSrcRead idx, .trcSrcWrite idx], ∃ d, exec c s = .next { s with dev := d } ∧ fbit d TRC_CTRL TRC_CTRL_BAD_VALUE = true ∧ d.trc = x.trc ∧
      RegsKept x d [TRC_CTRL, TRC_SRC_INDEX] ∧ CoresKept x d) ∧
    (fbit x TRC_SRC_INDEX TRC_SRC_INDEX_DONE = true → idx.toNat ≤ 1548 →
      let e := trcSrc x idx.toNat
      (∃ d, exec (.trcSrcRead idx) s = .next { s with dev := d } ∧ reg d TRC_SRC_DATA = BitVec.ofNat 64 (e.loss * 2 ^ 32 + b2n e.data * 8 + e.prio * 2 + b2n e.en) ∧ d.trc = x.trc ∧
        RegsKept x d [TRC_SRC_INDEX, TRC_SRC_DATA] ∧ CoresKept x d) ∧
      (∃ d, exec (.trcSrcWrite idx) s = .next { s with dev := d } ∧ (trcSrc d idx.toNat).en = fbit x TRC_SRC_DATA TRC_SRC_DATA_EN ∧ (trcSrc d idx.toNat).prio = fget x TRC_SRC_DATA TRC_SRC_DATA_PRIO ∧
        (trcSrc d idx.toNat).data = fbit x TRC_SRC_DATA TRC_SRC_DATA_DATA ∧ (trcSrc d idx.toNat).loss = (if x.trc.clr then 0 else e.loss) ∧
        (∀ k, k ≠ idx.toNat → trcSrc d k = trcSrc x k) ∧ RegsKept x d [TRC_SRC_INDEX] ∧ CoresKept x d))

/-- 17 R620 to R633: a counter that passes its maximum wraps, sets OVF, raises 0xE60 with IRQ; values and configuration words read and written through CTR_ACCESS, 0 and no effect where the domain is down, the access dropped while DONE is 0; a snapshot starts on its period or on FIRE and is counted as skipped while another is in progress; its record goes to the buffer at WRPTR. It says of each of these commands that exec answers the next state described, under conditions on the state and the operands alone: counterOverflow, ctrRead, ctrWrite, snapshotPeriod, snapshotFire, snapshotRecordDone. -/
def Obligations.CounterCommands : Prop :=
  ∀ (s : State) (i : Fin 2144) (config : Bool) (idx : BitVec 12) (data : BitVec 48),
    let x := s.dev
    let busy (d : Dev) : Bool := fbit d CTR_CTRL CTR_CTRL_BUSY
    (nbit (ctrCfg x i.val) 0 = true → ctrVal x i.val = 2 ^ 48 - 1 → domOn x (ctrDomain i.val) = true →
      ∃ d, exec (.counterOverflow i) s = .next { s with dev := d } ∧ ctrVal d i.val = 0 ∧ nbit (ctrCfg d i.val) 4 = true ∧
        (nbit (ctrCfg x i.val) 3 = true → nbit (mget (fun _ => (0 : Word)) x.routes 0xE60).toNat 0 = true → mget (fun _ => false) d.pendSrc 0xE60 = true) ∧
        (∀ j, j < i.val → ctrVal d j = ctrVal x j ∧ ctrCfg d j = ctrCfg x j) ∧
        (nbit (ctrCfg x i.val) 2 = false → ∀ j, j ≠ i.val → ctrVal d j = ctrVal x j ∧ ctrCfg d j = ctrCfg x j) ∧ d.regs = x.regs ∧ CoresKept x d) ∧
    (fbit x CTR_ACCESS CTR_ACCESS_DONE = false → ∀ c ∈ [Instr.ctrRead config idx, .ctrWrite config idx data], exec c s = .next s) ∧
    (fbit x CTR_ACCESS CTR_ACCESS_DONE = true → 2143 < idx.toNat → ∀ c ∈ [Instr.ctrRead config idx, .ctrWrite config idx data], ∃ d, exec c s = .next { s with dev := d } ∧ fbit d CTR_CTRL CTR_CTRL_BAD_VALUE = true ∧ d.ctr = x.ctr ∧
      RegsKept x d [CTR_CTRL, CTR_ACCESS] ∧ CoresKept x d) ∧
    (fbit x CTR_ACCESS CTR_ACCESS_DONE = true → idx.toNat ≤ 2143 →
      let old := if config then ctrCfg x idx.toNat else ctrVal x idx.toNat
      (∃ d, exec (.ctrRead config idx) s = .next { s with dev := d } ∧ fget d CTR_ACCESS CTR_ACCESS_DATA = (if domOn x (ctrDomain idx.toNat) then old else 0) % 2 ^ 48 ∧ d.ctr = x.ctr ∧
        RegsKept x d [CTR_ACCESS] ∧ CoresKept x d) ∧
      (domOn x (ctrDomain idx.toNat) = false → ∃ d, exec (.ctrWrite config idx data) s = .next { s with dev := d } ∧ d.ctr = x.ctr ∧ RegsKept x d [CTR_ACCESS] ∧ CoresKept x d) ∧
      (domOn x (ctrDomain idx.toNat) = true → ∃ d, exec (.ctrWrite config idx data) s = .next { s with dev := d } ∧
        (∀ j, ctrVal d j = if config = false ∧ j = idx.toNat then data.toNat else ctrVal x j) ∧
        (∀ j, ctrCfg d j = if config = true ∧ j = idx.toNat then ctrCfgWrite j (ctrCfg x j) data.toNat else ctrCfg x j) ∧ d.ctr.snap = x.ctr.snap ∧ RegsKept x d [CTR_ACCESS] ∧ CoresKept x d)) ∧
    (busy x = false →
      (nbit (fget x CTR_CTRL CTR_CTRL_MODE) 0 = true → ∃ d, exec .snapshotPeriod s = .next { s with dev := d } ∧ busy d = true ∧ d.ctr.periods = x.ctr.periods + 1 ∧
        x.ctr.since + 1000 * fget x CTR_CTRL CTR_CTRL_PERIOD_US * (x.ctr.periods + 1) ≤ nowNs d ∧ d.ctr.snap = some { time := nowNs d, cause := 0, entries := snapEntries x } ∧
        RegsKept x d [CTR_CTRL] ∧ CoresKept x d) ∧
      (∃ d, exec .snapshotFire s = .next { s with dev := d } ∧ busy d = true ∧ d.ctr.snap = some { time := nowNs x, cause := 4, entries := snapEntries x } ∧ RegsKept x d [CTR_CTRL] ∧ CoresKept x d)) ∧
    (∀ y, busy x = true → x.ctr.snap = some y → y.time ≠ nowNs x → ∃ d, exec .snapshotFire s = .next { s with dev := d } ∧ d.ctr = x.ctr ∧
      fget d CTR_STATUS CTR_STATUS_SKIPPED = min 65535 (fget x CTR_STATUS CTR_STATUS_SKIPPED + 1) ∧ RegsKept x d [CTR_STATUS] ∧ CoresKept x d) ∧
    (∀ y, x.ctr.snap = some y → fbit x CTR_BUF CTR_BUF_DEST = false →
      let rec_ := snapRecord y x.ctr.seq
      let w := fget x CTR_STATUS CTR_STATUS_WRPTR
      let a := 4096 * fget x CTR_BUF CTR_BUF_BASE + w
      w + rec_.length < 4096 * 2 ^ fget x CTR_BUF CTR_BUF_SIZE → w + rec_.length < 2 ^ 28 → inDram x a = true → inDram x (a + rec_.length - 1) = true → snapWaits x = [] →
      ∃ d, exec .snapshotRecordDone s = .next { s with dev := d } ∧ busy d = false ∧ d.ctr.snap = none ∧ d.ctr.seq = (x.ctr.seq + 1) % 2 ^ 32 ∧ y.time + 100 ≤ nowNs d ∧
        (∀ b, rdByte d b = if a ≤ b ∧ b < a + rec_.length then rec_.getD (b - a) 0 else rdByte x b) ∧ fget d CTR_STATUS CTR_STATUS_WRPTR = w + rec_.length ∧ d.threads = x.threads)


/-! ## Oasis: partitions, configuration, firmware, loader, boot (14, 18) -/

/-- R334, R433, R458 to R461, R535 to R544: PART_INFO answers the sender's identity; PART_START runs the boot blob's threads; PART_STOP and PART_RESET stop every thread of a partition, break its gates, move its generation on, and a reset starts it again; THREAD_START starts a thread with the registers given; ROUTE sets a route; MAP adds and removes a mapping. To start a partition that is not used is BAD_ARG, to stop or reset it WRONG_STATE (log 80). It says of each of these commands that exec answers the next state described, under conditions on the state and the operands alone: partInfo, partStart, partStop, partReset, threadStart, routeCmd, mapCmd. -/
def Obligations.PartitionCommands : Prop :=
  ∀ (s : State) (q : PartId),
    let x := s.dev
    let m := 256 + q.val
    let a (j : Nat) := (mboxArg x m j).toNat
    let p := a 1
    let y := partSt x p
    let ok (d : Dev) : Prop := (mbox d m).posted = false ∧ (mbox d m).resp = some [BitVec.ofNat 64 (mboxSeq x m * 2 ^ 16)]
    let broken (d : Dev) : Prop := ∀ g, gateSt d g = if (gateSt x g).st = 1 ∧ (gateSt x g).part = p then { gateSt x g with st := 2 } else gateSt x g
    let stopped (d : Dev) : Prop := (∀ t, t < 1536 → thrPart x t = p → (thr d t).st = .off) ∧ (∀ t, t < 1536 → thrPart x t ≠ p → thr d t = thr x t)
    (Posts x m 0x0201 → ∃ d, exec (.partInfo (.part q)) s = .next { s with dev := d } ∧
      Answers x d m ST_OK [BitVec.ofNat 64 (q.val + (partSt x q.val).world * 16 + (partSt x q.val).gen % 256 * 2 ^ 5 + (partSt x q.val).roles % 2 ^ 12 * 2 ^ 32)] ∧ d.regs = x.regs ∧ CoresKept x d) ∧
    (partUsed x p = false → ∀ e ∈ [(Instr.partStart (.part q), 0x0202, ST_BAD_ARG), (.partStop (.part q), 0x0203, ST_WRONG_STATE), (.partReset (.part q), 0x0204, ST_WRONG_STATE)], Posts x m e.2.1 →
      ∃ d, exec e.1 s = .next { s with dev := d } ∧ Answers x d m e.2.2 [] ∧ d.regs = x.regs ∧ CoresKept x d) ∧
    (Posts x m 0x0202 → isPM x m p = true → partState x p = P_OFF → y.clearOnReset = false → y.loads = [] → startsOk x p y.starts = true →
      ∃ d, exec (.partStart (.part q)) s = .next { s with dev := d } ∧ ok d ∧ partState d p = P_RUNNING ∧
        (∀ ws ∈ y.starts, thr d (startThr ws) = { startedThread (startRegs ws) .running with brkHalt := (thr x (startThr ws)).brkHalt }) ∧
        (∀ t, (∀ ws ∈ y.starts, startThr ws ≠ t) → thr d t = thr x t) ∧ StorageKept x d) ∧
    (Posts x m 0x0203 → isPM x m p = true → p ≠ q.val → partState x p = P_RUNNING → partInsts x p = [] →
      ∃ d, exec (.partStop (.part q)) s = .next { s with dev := d } ∧ ok d ∧ partState d p = P_OFF ∧ stopped d ∧ broken d ∧ (partSt d p).gen = (y.gen + 1) % 256 ∧ StorageKept x d) ∧
    (Posts x m 0x0204 → isPM x m p = true ∨ p = q.val → partUsed x p = true → partState x p = P_RUNNING → partInsts x p = [] → y.clearOnReset = false → y.loads = [] → y.starts = [] →
      ∃ d, exec (.partReset (.part q)) s = .next { s with dev := d } ∧ ok d ∧ partState d p = P_RUNNING ∧ stopped d ∧ broken d ∧ (partSt d p).gen = (y.gen + 1) % 256 ∧ StorageKept x d) ∧
    (
      let ws := (rangeFrom 1 11).map (mboxArg x m)
      Posts x m 0x0205 → startArgsOk x ws = true → corePart x (startCore ws) = q.val ∨ isPM x m (corePart x (startCore ws)) = true → partState x (corePart x (startCore ws)) = P_RUNNING → startable x ws = true →
      ∃ d, exec (.threadStart (.part q)) s = .next { s with dev := d } ∧ Answers x d m ST_OK [] ∧
        thr d (startThr ws) = { startedThread (startRegs ws) .running with brkHalt := (thr x (startThr ws)).brkHalt } ∧ OthersKept x d (startThr ws) ∧ d.regs = x.regs ∧ StorageKept x d) ∧
    (
      let w := mboxArg x m 2
      Posts x m 0x0206 → a 1 < 4096 → routeOk x w = true → bitsOf w (19, 16) = q.val ∨ isPM x m (bitsOf w (19, 16)) = true →
      ∃ d, exec (.routeCmd (.part q)) s = .next { s with dev := d } ∧ Answers x d m ST_OK [] ∧ (∀ k, mget (fun _ => (0 : Word)) d.routes k = if k = a 1 then w else mget (fun _ => (0 : Word)) x.routes k) ∧
        d.regs = x.regs ∧ CoresKept x d) ∧
    (Posts x m 0x0207 → partUsed x p = true → p = q.val ∨ isPM x m p = true → partQuiet x p (fun _ => true) = true →
      a 2 % 4096 = 0 → a 3 % 4096 = 0 → a 4 ≠ 0 → a 2 + a 4 * 4096 ≤ 2 ^ 48 → a 5 % 256 / 8 = 0 → y.dramBase ≤ a 3 → a 3 + a 4 * 4096 ≤ y.dramBase + y.dramSize →
      (a 5 < 256 → y.s2.any (fun e => rangesMeet e.ipa e.size (a 2) (a 4 * 4096)) = false → ∃ d, exec (.mapCmd (.part q)) s = .next { s with dev := d } ∧ Answers x d m ST_OK [] ∧
        (partSt d p).s2 = y.s2 ++ [⟨a 2, a 3, a 4 * 4096, a 5 % 8⟩] ∧ (∀ k, k ≠ p → partSt d k = partSt x k) ∧ d.regs = x.regs ∧ CoresKept x d) ∧
      (256 ≤ a 5 → a 5 < 512 → ∃ d, exec (.mapCmd (.part q)) s = .next { s with dev := d } ∧ Answers x d m ST_OK [] ∧
        (partSt d p).s2 = s2Without (a 2) (a 4 * 4096) y.s2 ∧ (∀ e ∈ d.ioTlb, e.part ≠ p) ∧ (∀ k, k ≠ p → partSt d k = partSt x k) ∧ d.regs = x.regs ∧ CoresKept x d))

/-- R516, R525 to R529, R538 to R540, R546 to R549, 18 R654: CFG_APPLY judges the staged image and puts it in force, CFG_COMMIT writes it to the slot not in use, FW_WRITE writes firmware; OASIS_RESTART, the watchdog and the restart's end; FW_MIN_SET, LC_ADVANCE and KEY_FUSE. It says of each of these commands that exec answers the next state described, under conditions on the state and the operands alone: cfgApply, cfgCommit, fwWrite, oasisRestart, oasisRestartDone, watchdog, fwMinSet, lcAdvance, keyFuse. -/
def Obligations.ConfigurationAndFirmware : Prop :=
  ∀ (s : State) (q : PartId) (mb : Mailbox) (ms temp : BitVec 16),
    let x := s.dev
    let m := 256 + q.val
    let n := mboxNum mb
    let alone (k : Nat) : Prop := ∀ j, 256 ≤ j → j < 273 → j ≠ k → (mbox x j).posted = false
    let runs (k code : Nat) : Prop := Posts x k code ∧ alone k
    let flashAt (d : Dev) (a : Nat) : Byte := mget (fun _ => 0xFF) d.oasis.flash a
    (∀ l, runs m 0x0210 → isCM x m = true → activeSeq x ≠ 0xFFFFFFFF → inRange 256 12578816 (mboxArg x m 2).toNat = true → ownRange x q.val (mboxArg x m 1).toNat (mboxArg x m 2).toNat = some l →
      (∀ p, p < 16 → partQuiet x p (fun _ => true) = true) →
      let img := (stagedBytes x l).1
      ∃ d, exec (.cfgApply (.part q)) s = .next { s with dev := d } ∧ (mbox d m).posted = false ∧ (mbox d m).resp.isSome = true ∧
        (imageSound img = false → Answers x d m ST_BAD_ARG [] ∧ d.oasis.staged = none ∧ reg d CFG_ACTIVE = reg x CFG_ACTIVE) ∧
        (imageSound img = true → keyAccepted x (imagePubkey img) = false → Answers x d m ST_DENIED [] ∧ d.oasis.staged = none ∧ reg d CFG_ACTIVE = reg x CFG_ACTIVE) ∧
        (imageSound img = true → keyAccepted x (imagePubkey img) = true → imageSeq img ≤ activeSeq x → Answers x d m ST_BAD_ARG [] ∧ d.oasis.staged = none ∧ reg d CFG_ACTIVE = reg x CFG_ACTIVE) ∧
        (imageSound img = true → keyAccepted x (imagePubkey img) = true → activeSeq x < imageSeq img → activeSeq d = imageSeq img ∧
          (fget d CFG_ACTIVE CFG_ACTIVE_SOURCE = 1 ∧ d.oasis.staged = some img ∨ fget d CFG_ACTIVE CFG_ACTIVE_SOURCE = 2 ∧ d.oasis.staged = none))) ∧
    (∀ img, runs m 0x0211 → isCM x m = true → activeSeq x ≠ 0xFFFFFFFF → x.oasis.staged = some img → img.length ≤ 12578816 →
      let base := cfgBase (spareCfg x)
      (∃ d, exec (.cfgCommit (.part q) none) s = .next { s with dev := d } ∧ Answers x d m ST_OK [] ∧ (∀ i, i < img.length → flashAt d (base + i) = img.getD i 0) ∧ flashAt d (commitAddr (spareCfg x)) = 0xA5 ∧
        (∀ k, k < base ∨ base + 0xC00000 ≤ k → flashAt d k = flashAt x k) ∧ CoresKept x d) ∧
      (∃ d, exec (.cfgCommit (.part q) (some .commit)) s = .next { s with dev := d } ∧ Answers x d m ST_NO_RESOURCE [] ∧ CoresKept x d)) ∧
    (∀ l, runs m 0x0212 → isCM x m = true → inRange 1 0x200000 (mboxArg x m 2).toNat = true → ownRange x q.val (mboxArg x m 1).toNat (mboxArg x m 2).toNat = some l →
      let img := (stagedBytes x l).1
      ∃ d st, exec (.fwWrite (.part q) none) s = .next { s with dev := d } ∧ (st = ST_OK ∨ st = ST_BAD_ARG) ∧ Answers x d m st [] ∧
        (st = ST_OK → ∀ i, i < img.length → flashAt d (fwBase (spareFw x) + i) = img.getD i 0) ∧ (st = ST_BAD_ARG → d.oasis = x.oasis) ∧ d.threads = x.threads ∧ (∀ k, rdByte d k = rdByte x k) ∧ ∀ w, tagAt d w = tagAt x w) ∧
    (runs m 0x0213 → isCM x m = true → (mboxArg x m 1).toNat ≤ 1 → x.oasis.load = none →
      ∃ d, exec (.oasisRestart (.part q)) s = .next { s with dev := d } ∧ Answers x d m ST_OK [] ∧ restarting d = true ∧ d.oasis.restartAt = x.smp.op ∧ d.oasis.chooseSlot = ((mboxArg x m 1).toNat == 1) ∧ CoresKept x d) ∧
    (restarting x = true → x.oasis.chooseSlot = false → x.oasis.fw.isSome = true →
      ∃ d, exec (.oasisRestartDone ms temp) s = .next { s with dev := d } ∧ fget d MGR_INFO MGR_INFO_STATE = (if x.oasis.noImage then 2 else 0) ∧ d.oasis.fw = x.oasis.fw ∧
        x.oasis.restartAt + nsUnits (ms.toNat * 1000000) ≤ d.smp.op ∧ CoresKept x d) ∧
    (x.pwr.held = 0 → x.oasis.fw.isSome = true →
      ∃ d, exec .watchdog s = .next { s with dev := d } ∧ restarting d = true ∧ d.oasis.chooseSlot = false ∧ d.oasis.load = none ∧
        fget d PWR_STATUS PWR_STATUS_WDOG_RESTARTS = min 65535 (fget x PWR_STATUS PWR_STATUS_WDOG_RESTARTS + 1) ∧ CoresKept x d) ∧
    (runs m 0x0214 → isCM x m = true →
      (x.pwr.vpp = true → ∃ d, exec (.fwMinSet (.part q)) s = .next { s with dev := d } ∧ Answers x d m ST_OK [] ∧ d.oasis = { x.oasis with fwMin := fget x MGR_INFO MGR_INFO_FW_VERSION } ∧ d.regs = x.regs ∧ CoresKept x d) ∧
      (x.pwr.vpp = false → ∃ d, exec (.fwMinSet (.part q)) s = .next { s with dev := d } ∧ Answers x d m ST_WRONG_STATE [] ∧ d.oasis = x.oasis ∧ d.regs = x.regs ∧ CoresKept x d)) ∧
    (runs n 0x0220 → n = dbgMbox ∨ isCM x n = true →
      let target := (mboxArg x n 1).toNat
      (3 < target ∨ target ≤ lcState x → ∃ d, exec (.lcAdvance mb) s = .next { s with dev := d } ∧ Answers x d n ST_BAD_ARG [] ∧ d.oasis = x.oasis ∧ CoresKept x d) ∧
      (lcState x = LC_BLANK → target = 1 → n = dbgMbox → x.pwr.vpp = true → ∃ d, exec (.lcAdvance mb) s = .next { s with dev := d } ∧ Answers x d n ST_OK [] ∧
        d.oasis = { x.oasis with w1 := 2 ^ 32 - 1 } ∧ CoresKept x d) ∧
      (lcState x = LC_OPEN → target = 2 → x.oasis.key.isSome = true → x.pwr.vpp = true → ∃ d, exec (.lcAdvance mb) s = .next { s with dev := d } ∧ Answers x d n ST_OK [] ∧
        d.oasis = { x.oasis with w2 := 2 ^ 32 - 1 } ∧ lcState d = LC_FIELD ∧ CoresKept x d) ∧
      (lcState x = LC_OPEN ∨ lcState x = LC_FIELD → target = 3 → x.pwr.vpp = true → ∃ d, exec (.lcAdvance mb) s = .next { s with dev := d } ∧ CoresKept x d ∧
        (returnSigned x n = true → Answers x d n ST_OK [] ∧ lcState d = LC_RETURN ∧ d.oasis.key = none ∧ d.oasis.password = none ∧ (∀ k, 0x400000 ≤ k → k < 0x1C00000 → flashAt d k = 0xFF)) ∧
        (returnSigned x n = false → Answers x d n ST_DENIED [] ∧ d.oasis = x.oasis))) ∧
    (runs n 0x0221 → n = dbgMbox ∨ isCM x n = true →
      (lcState x = LC_OPEN → x.oasis.key = none → x.pwr.vpp = true → ∃ d, exec (.keyFuse mb) s = .next { s with dev := d } ∧ Answers x d n ST_OK [] ∧
        d.oasis = { x.oasis with key := some ((rangeFrom 1 4).flatMap (fun j => leBytes 8 (mboxArg x n j).toNat)) } ∧ RegsKept x d [CFG_SLOT 0, CFG_SLOT 1] ∧ CoresKept x d) ∧
      (lcState x ≠ LC_OPEN ∨ x.oasis.key.isSome = true ∨ x.pwr.vpp = false → ∃ d, exec (.keyFuse mb) s = .next { s with dev := d } ∧ Answers x d n ST_WRONG_STATE [] ∧ d.oasis = x.oasis ∧ d.regs = x.regs ∧ CoresKept x d))

/-- R508, R509, R520 to R524, 18 R651 to R653, 15 R580, 20 R674: the recovery loader takes its frames, opens, fills and closes a load, and in the boot ROM takes no frame for a configuration; power-on counts the cycle and boots, or holds a blank device with TEST_EN in its production test mode; RESET_N and a trip released boot again; a held class enable is made when its threads wait. It says of each of these commands that exec answers the next state described, under conditions on the state and the operands alone: loaderBegin, loaderData, loaderEnd, loaderAbort, loaderFrameTimeout, loaderLoad, powerOn, resetRelease, tripRelease, classEnableRelease. -/
def Obligations.LoaderAndBoot : Prop :=
  ∀ (s : State) (target : Byte) (arg : BitVec 32) (data : List Byte) (fail : Bool) (b : BootIn) (sds : Byte) (pcie clk10m pps vpp testEn : Bool) (c : ClassId),
    let x := s.dev
    let t := target.toNat
    let len := arg.toNat
    let said (d : Dev) (st : Nat) : Prop := d.oasis.answer = some st
    let flashAt (d : Dev) (a : Nat) : Byte := mget (fun _ => 0xFF) d.oasis.flash a
    let slot := if t = 0 then spareFw x else spareCfg x
    let base := if t = 0 then fwBase slot else cfgBase slot
    let fits : Prop := t ≤ 1 ∧ x.oasis.load = none ∧ ¬(t = 1 ∧ lcState x = LC_FIELD) ∧ 0 < len ∧ (t = 0 → len ≤ 0x200000) ∧ (t = 1 → len ≤ 12578816 ∧ len % 8 = 0)
    (uartLoader x = true →
      (∀ f ∈ [Instr.loaderBegin target arg false fail, .loaderData target arg data false fail, .loaderEnd target arg false fail b, .loaderAbort target arg false],
        ∃ d, exec f s = .next { s with dev := d } ∧ d = { x with oasis := { x.oasis with answer := some L_CRC } }) ∧
      (fits → ¬(t = 1 ∧ x.oasis.fw = none) →
        (∃ d, exec (.loaderBegin target arg true false) s = .next { s with dev := d } ∧ said d L_OK ∧ d.oasis.load = some { config := t == 1, slot := slot, length := len } ∧
          (∀ i, i < len → flashAt d (base + i) = 0xFF) ∧ CoresKept x d) ∧
        (∃ d, exec (.loaderBegin target arg true true) s = .next { s with dev := d } ∧ said d L_FLASH ∧ d.oasis.load = none ∧ CoresKept x d)) ∧
      (t = 1 → x.oasis.fw = none → ∀ f ∈ [Instr.loaderBegin target arg true fail, .loaderData target arg data true fail, .loaderEnd target arg true fail b, .loaderAbort target arg true],
        ∃ d, exec f s = .next { s with dev := d } ∧ d = { x with oasis := { x.oasis with answer := some L_WRONG_STATE } }) ∧
      (∀ l, t ≤ 1 → ¬(t = 1 ∧ x.oasis.fw = none) → arg.toNat % 256 = 0 → x.oasis.load = some l → l.page = [] → arg.toNat = l.next → l.next < (l.length + 255) / 256 * 256 →
        let page := data.take 256 ++ List.replicate (256 - data.length) 0xFF
        let home := if l.config then cfgBase l.slot else fwBase l.slot
        ∃ d, exec (.loaderData target arg data true false) s = .next { s with dev := d } ∧ said d L_OK ∧ d.oasis.load = some { l with next := l.next + 256 } ∧
          (∀ i, i < 256 → flashAt d (home + l.next + i) = page.getD i 0) ∧ (∀ k, k < home + l.next ∨ home + l.next + 256 ≤ k → flashAt d k = flashAt x k) ∧ RegsKept x d [CFG_SLOT 0, CFG_SLOT 1] ∧ CoresKept x d) ∧
      (∀ l, t ≤ 1 → ¬(t = 1 ∧ x.oasis.fw = none) → x.oasis.load = some l → l.next < l.length → arg.toNat = 0 →
        ∃ d, exec (.loaderEnd target arg true fail b) s = .next { s with dev := d } ∧ said d L_WRONG_STATE ∧ d.oasis.load = x.oasis.load ∧ d.regs = x.regs ∧ CoresKept x d) ∧
      (∀ l, t ≤ 1 → ¬(t = 1 ∧ x.oasis.fw = none) → x.oasis.load = some l → l.length ≤ l.next → arg.toNat = 0 →
        ∃ d, exec (.loaderEnd target arg true false b) s = .next { s with dev := d } ∧ (said d L_OK ∨ said d L_DENIED) ∧ d.oasis.load = none ∧ (said d L_DENIED → d.threads = x.threads)) ∧
      (t ≤ 1 → ¬(t = 1 ∧ x.oasis.fw = none) → arg.toNat = 0 → ∃ d, exec (.loaderAbort target arg true) s = .next { s with dev := d } ∧ said d L_OK ∧ d.oasis.load = none ∧ d.oasis.flash = x.oasis.flash ∧ CoresKept x d) ∧
      (∃ d, exec .loaderFrameTimeout s = .next { s with dev := d } ∧ x.smp.op + opSecond ≤ d.smp.op ∧ d.oasis = x.oasis ∧ d.regs = x.regs ∧ CoresKept x d)) ∧
    (Posts x dbgMbox 0x0230 → (∀ j, 256 ≤ j → j < 272 → (mbox x j).posted = false) →
      let w := mboxArg x dbgMbox 1
      bitsOf w (15, 8) = t → bitsOf w (63, 32) = len →
      (bitsOf w (7, 0) = 1 → fits → ∃ d, exec (.loaderLoad false b) s = .next { s with dev := d } ∧ Answers x d dbgMbox ST_OK [] ∧ d.oasis.load = some { config := t == 1, slot := slot, length := len } ∧ CoresKept x d) ∧
      (bitsOf w (7, 0) = 4 → t ≤ 1 → len = 0 → ∃ d, exec (.loaderLoad fail b) s = .next { s with dev := d } ∧ Answers x d dbgMbox ST_OK [] ∧ d.oasis.load = none ∧ CoresKept x d) ∧
      (bitsOf w (7, 0) = 0 ∨ 4 < bitsOf w (7, 0) → ∃ d, exec (.loaderLoad fail b) s = .next { s with dev := d } ∧ Answers x d dbgMbox ST_BAD_ARG [] ∧ d.oasis.load = x.oasis.load ∧ CoresKept x d)) ∧
    (∃ d, exec (.powerOn sds pcie clk10m pps vpp testEn b) s = .next { s with dev := d } ∧ d.pwr.vpp = vpp ∧ d.smp.hours = (timeAtPowerGood x).smp.hours ∧ d.smp.cycles = (timeAtPowerGood x).smp.cycles ∧
      (testEn = true → lcState x = LC_BLANK → d.pwr.held = 5 ∧ d.oasis.fw = none ∧ fget d PWR_STATUS PWR_STATUS_SDS_OK = sds.toNat ∧ d.threads = [] ∧ tapLevel d = 2) ∧
      (testEn = false ∨ lcState x ≠ LC_BLANK → d.pwr.held = 0)) ∧
    (x.pwr.held = 1 → ∃ d, exec (.resetRelease b) s = .next { s with dev := d } ∧ d.pwr.held = 0 ∧ d.pwr.vpp = x.pwr.vpp ∧ d.smp.cycles = x.smp.cycles) ∧
    (x.pwr.held ≠ 1 → ∃ d, exec (.resetRelease b) s = .next { s with dev := d } ∧ d = x) ∧
    (x.pwr.held = 3 ∨ (x.pwr.held = 2 ∧ ∀ v ∈ b.temps, v.toInt < 800) → ∃ d, exec (.tripRelease b) s = .next { s with dev := d } ∧ d.pwr.held = 0 ∧ x.smp.op + opSecond ≤ d.smp.op) ∧
    (x.pwr.held = 2 → (∃ v ∈ b.temps, 800 ≤ v.toInt) → ∃ d, exec (.tripRelease b) s = .next { s with dev := d } ∧ d = x) ∧
    (x.oasis.heldEnables.contains c.val = true → (classEntries x c.val).all (fun e => (thr x (entryThr e.2)).st == .cycleWait) = true →
      ∃ d, exec (.classEnableRelease c) s = .next { s with dev := d } ∧ d.oasis.heldEnables = x.oasis.heldEnables.filter (fun k => k != c.val) ∧
        (fbit x (CYC_CLASS_CTRL c.val) CYC_CLASS_CTRL_STOPPING = false → enableCheck { x with oasis := { x.oasis with heldEnables := x.oasis.heldEnables.filter (fun k => k != c.val) } } c.val = 0 →
          fbit d (CYC_CLASS_CTRL c.val) CYC_CLASS_CTRL_ENABLE = true) ∧ CoresKept x d)
end

