-- ==== Sys2Proof/Laws/Map.lean ====
section
/-! SUPPORT. Laws of maps and of the bit ranges of a 64-bit value. -/
namespace Sys2Proof.Machine

variable {α : Type}

theorem mfind_mdel_same (m : Map α) (k : Nat) : mfind (mdel m k) k = none := by
  induction m with
  | nil => rfl
  | cons e m ih => obtain ⟨j, v⟩ := e; by_cases h : j = k <;> simp [mdel, mfind, h, ih]

theorem mfind_mdel_ne (m : Map α) {k j : Nat} (h : j ≠ k) : mfind (mdel m k) j = mfind m j := by
  induction m with
  | nil => rfl
  | cons e m ih =>
    obtain ⟨i, v⟩ := e
    by_cases hi : i = k
    · subst hi; simp [mdel, mfind, ih, Ne.symm h]
    · by_cases hj : i = j
      · subst hj; simp [mdel, mfind, hi]
      · simp [mdel, mfind, hi, hj, ih]

theorem mfind_mins_same (m : Map α) (k : Nat) (v : α) (h : mfind m k = none) : mfind (mins k v m) k = some v := by
  induction m with
  | nil => simp [mins, mfind]
  | cons e m ih =>
    obtain ⟨j, w⟩ := e
    by_cases hj : j = k
    · simp [mfind, hj] at h
    · simp only [mfind, hj, if_false] at h
      by_cases hk : k < j
      · simp [mins, mfind, hk]
      · simp [mins, mfind, hk, hj, ih h]

theorem mfind_mins_ne (m : Map α) {k j : Nat} (v : α) (h : j ≠ k) : mfind (mins k v m) j = mfind m j := by
  induction m with
  | nil => simp [mins, mfind, Ne.symm h]
  | cons e m ih =>
    obtain ⟨i, w⟩ := e
    by_cases hk : k < i
    · simp [mins, mfind, hk, Ne.symm h]
    · by_cases hj : i = j
      · subst hj; simp [mins, mfind, hk]
      · simp [mins, mfind, hk, hj, ih]

section
variable [DecidableEq α]

/-- A key just written reads as what was written. -/
@[simp] theorem mget_mset_same (d : Nat → α) (m : Map α) (k : Nat) (v : α) : mget d (mset d m k v) k = v := by
  unfold mset mget
  split
  · next h => rw [mfind_mdel_same]; exact h.symm
  · rw [mfind_mins_same _ _ _ (mfind_mdel_same m k)]; rfl

/-- A write leaves every other key as it was. -/
theorem mget_mset_ne (d : Nat → α) (m : Map α) {k j : Nat} (v : α) (h : j ≠ k) : mget d (mset d m k v) j = mget d m j := by
  unfold mset mget
  split
  · rw [mfind_mdel_ne m h]
  · rw [mfind_mins_ne _ v h, mfind_mdel_ne m h]

/-- Reading after a write, in one equation. -/
theorem mget_mset (d : Nat → α) (m : Map α) (k j : Nat) (v : α) : mget d (mset d m k v) j = if j = k then v else mget d m j := by
  by_cases h : j = k
  · subst h; simp
  · simp [h, mget_mset_ne d m v h]

/-! ## The canonical form -/

omit [DecidableEq α] in
/-- Keys strictly rising, as a pairwise relation. -/
theorem msorted_iff (m : Map α) : msorted m = true ↔ (m.map Prod.fst).Pairwise (· < ·) := by
  induction m with
  | nil => simp [msorted]
  | cons e m ih =>
    obtain ⟨j, v⟩ := e
    cases m with
    | nil => simp [msorted]
    | cons f m =>
      obtain ⟨k, w⟩ := f
      simp only [msorted, Bool.and_eq_true, decide_eq_true_eq, ih]
      simp only [List.map_cons, List.pairwise_cons, List.mem_cons, forall_eq_or_imp]
      constructor
      · rintro ⟨h1, h2, h3⟩
        exact ⟨⟨h1, fun a ha => Nat.lt_trans h1 (h2 a ha)⟩, h2, h3⟩
      · rintro ⟨⟨h1, -⟩, h2, h3⟩; exact ⟨h1, h2, h3⟩

omit [DecidableEq α] in
theorem mem_mdel {m : Map α} {k : Nat} {e : Nat × α} (h : e ∈ mdel m k) : e ∈ m ∧ e.1 ≠ k := by
  induction m with
  | nil => simp [mdel] at h
  | cons f m ih =>
    obtain ⟨j, v⟩ := f
    by_cases hj : j = k
    · simp only [mdel, hj, if_true] at h
      exact ⟨List.mem_cons_of_mem _ (ih h).1, (ih h).2⟩
    · simp only [mdel, hj, if_false, List.mem_cons] at h
      rcases h with rfl | h
      · exact ⟨List.mem_cons_self .., hj⟩
      · exact ⟨List.mem_cons_of_mem _ (ih h).1, (ih h).2⟩

omit [DecidableEq α] in
theorem mem_mins {m : Map α} {k : Nat} {v : α} {e : Nat × α} (h : e ∈ mins k v m) : e = (k, v) ∨ e ∈ m := by
  induction m with
  | nil => simpa [mins] using h
  | cons f m ih =>
    obtain ⟨j, w⟩ := f
    by_cases hk : k < j
    · simp only [mins, hk, if_true, List.mem_cons] at h ⊢; exact h
    · simp only [mins, hk, if_false, List.mem_cons] at h ⊢
      rcases h with rfl | h
      · exact Or.inr (Or.inl rfl)
      · rcases ih h with rfl | h
        · exact Or.inl rfl
        · exact Or.inr (Or.inr h)

omit [DecidableEq α] in
theorem mdel_sorted {m : Map α} (k : Nat) (h : (m.map Prod.fst).Pairwise (· < ·)) : ((mdel m k).map Prod.fst).Pairwise (· < ·) := by
  induction m with
  | nil => simp [mdel]
  | cons f m ih =>
    obtain ⟨j, v⟩ := f
    simp only [List.map_cons, List.pairwise_cons] at h
    by_cases hj : j = k
    · simp only [mdel, hj, if_true]; exact ih h.2
    · simp only [mdel, hj, if_false, List.map_cons, List.pairwise_cons]
      refine ⟨fun a ha => ?_, ih h.2⟩
      obtain ⟨e, he, rfl⟩ := List.mem_map.1 ha
      exact h.1 _ (List.mem_map_of_mem (mem_mdel he).1)

omit [DecidableEq α] in
theorem mins_sorted {m : Map α} (k : Nat) (v : α) (h : (m.map Prod.fst).Pairwise (· < ·)) (hk : ∀ e ∈ m, e.1 ≠ k) :
    ((mins k v m).map Prod.fst).Pairwise (· < ·) := by
  induction m with
  | nil => simp [mins]
  | cons f m ih =>
    obtain ⟨j, w⟩ := f
    simp only [List.map_cons, List.pairwise_cons] at h
    by_cases hj : k < j
    · simp only [mins, hj, if_true, List.map_cons, List.pairwise_cons, List.mem_cons]
      refine ⟨?_, h.1, h.2⟩
      rintro a (rfl | ha)
      · exact hj
      · exact Nat.lt_trans hj (h.1 a ha)
    · simp only [mins, hj, if_false, List.map_cons, List.pairwise_cons]
      have hne : j ≠ k := hk (j, w) (List.mem_cons_self ..)
      refine ⟨fun a ha => ?_, ih h.2 (fun e he => hk e (List.mem_cons_of_mem _ he))⟩
      obtain ⟨e, he, rfl⟩ := List.mem_map.1 ha
      rcases mem_mins he with rfl | he
      · simp only; omega
      · exact h.1 _ (List.mem_map_of_mem he)

/-- A write keeps the canonical form. -/
theorem mset_wf {d : Nat → α} {m : Map α} (k : Nat) (v : α) (h : mwf d m = true) : mwf d (mset d m k v) = true := by
  simp only [mwf, Bool.and_eq_true, msorted_iff, List.all_eq_true, decide_eq_true_eq] at h ⊢
  unfold mset
  split
  · exact ⟨mdel_sorted k h.1, fun e he => h.2 e (mem_mdel he).1⟩
  · next hv =>
    refine ⟨mins_sorted k v (mdel_sorted k h.1) (fun e he => (mem_mdel he).2), fun e he => ?_⟩
    rcases mem_mins he with rfl | he
    · exact hv
    · exact h.2 e (mem_mdel he).1

/-- Clearing a range keeps the canonical form. -/
theorem mclear_wf {d : Nat → α} {m : Map α} (lo hi : Nat) (h : mwf d m = true) : mwf d (mclear m lo hi) = true := by
  simp only [mwf, Bool.and_eq_true, msorted_iff, List.all_eq_true, decide_eq_true_eq] at h ⊢
  exact ⟨h.1.sublist ((List.filter_sublist).map _), fun e he => h.2 e (List.mem_filter.1 he).1⟩

end

/-- A cleared range reads as unlisted; every other key as before. -/
theorem mfind_mclear (m : Map α) (lo hi k : Nat) : mfind (mclear m lo hi) k = if lo ≤ k ∧ k < hi then none else mfind m k := by
  induction m with
  | nil => simp [mclear, mfind]
  | cons e m ih =>
    obtain ⟨j, v⟩ := e
    unfold mclear at ih ⊢
    by_cases hj : lo ≤ j ∧ j < hi
    · simp only [List.filter_cons, hj.1, hj.2, decide_true, Bool.and_self, Bool.not_true, Bool.false_eq_true, if_false, ih, mfind]
      by_cases hk : j = k
      · subst hk; simp [hj]
      · simp [hk]
    · have : (!(decide (lo ≤ j) && decide (j < hi))) = true := by
        by_cases h1 : lo ≤ j
        · have h2 : ¬ j < hi := fun h2 => hj ⟨h1, h2⟩
          simp [h1, h2]
        · simp [h1]
      simp only [List.filter_cons, this, if_true, mfind, ih]
      by_cases hk : j = k
      · subst hk; simp [hj]
      · simp [hk]

/-! ## Bit ranges -/

/-- A field just written reads as the value's low bits. -/
theorem bitsOf_putBits_same (v : Word) {f : Nat × Nat} (n : Nat) (h : f.2 ≤ f.1) (h1 : f.1 < 64) :
    bitsOf (putBits v f n) f = n % 2 ^ (f.1 + 1 - f.2) := by
  obtain ⟨hi, lo⟩ := f
  simp only at h h1
  have hv : v.toNat < 2 ^ 64 := v.isLt
  simp only [bitsOf, putBits, BitVec.toNat_ofNat]
  generalize v.toNat = x at hv
  have e1 : (2:Nat) ^ (hi + 1) = 2 ^ (hi + 1 - lo) * 2 ^ lo := by rw [← pow_add]; congr 1; omega
  have e2 : (2:Nat) ^ 64 = 2 ^ (63 - hi) * 2 ^ (hi + 1) := by rw [← pow_add]; congr 1; omega
  have hp : 0 < (2:Nat) ^ lo := by positivity
  have hw : 0 < (2:Nat) ^ (hi + 1 - lo) := by positivity
  have hm : n % 2 ^ (hi + 1 - lo) < 2 ^ (hi + 1 - lo) := Nat.mod_lt _ hw
  have hq : x / 2 ^ (hi + 1) < 2 ^ (63 - hi) := by
    rw [Nat.div_lt_iff_lt_mul (by positivity), ← e2]; exact hv
  have hr : x % 2 ^ lo < 2 ^ lo := Nat.mod_lt _ hp
  generalize n % 2 ^ (hi + 1 - lo) = a at hm
  generalize x / 2 ^ (hi + 1) = b at hq
  generalize x % 2 ^ lo = c at hr
  rw [e1]
  generalize 2 ^ (hi + 1 - lo) = W at *
  generalize 2 ^ lo = P at *
  have hlt : c + a * P + b * (W * P) < 2 ^ 64 := by
    rw [e2, e1]
    have h1 : c + a * P < W * P := by
      have : (a + 1) * P ≤ W * P := Nat.mul_le_mul_right _ hm
      have h3 : (a + 1) * P = a * P + P := by ring
      omega
    have : (b + 1) * (W * P) ≤ 2 ^ (63 - hi) * (W * P) := Nat.mul_le_mul_right _ hq
    have h3 : (b + 1) * (W * P) = b * (W * P) + W * P := by ring
    omega
  rw [Nat.mod_eq_of_lt hlt]
  have : c + a * P + b * (W * P) = c + P * (a + W * b) := by ring
  rw [this, Nat.add_mul_div_left _ _ hp, Nat.div_eq_of_lt hr, Nat.zero_add, Nat.add_mul_mod_self_left, Nat.mod_eq_of_lt hm]

/-- A one-bit field just set reads as 1. -/
theorem bitsOf_putBits_one (v : Word) {i : Nat} (h : i < 64) : bitsOf (putBits v (i, i) 1) (i, i) = 1 := by
  rw [bitsOf_putBits_same _ _ (Nat.le_refl _) h]; simp

/-- A write of a field leaves a field apart from it as it was. -/
theorem bitsOf_putBits_ne (v : Word) {f g : Nat × Nat} (n : Nat) (hf : f.2 ≤ f.1) (hf1 : f.1 < 64) (hg : g.2 ≤ g.1) (hg1 : g.1 < 64)
    (h : f.1 < g.2 ∨ g.1 < f.2) : bitsOf (putBits v f n) g = bitsOf v g := by
  obtain ⟨hi, lo⟩ := f
  obtain ⟨gi, go⟩ := g
  simp only at *
  have hv : v.toNat < 2 ^ 64 := v.isLt
  simp only [bitsOf, putBits, BitVec.toNat_ofNat]
  generalize v.toNat = x at hv
  have e1 : (2:Nat) ^ (hi + 1) = 2 ^ (hi + 1 - lo) * 2 ^ lo := by rw [← pow_add]; congr 1; omega
  have e2 : (2:Nat) ^ 64 = 2 ^ (63 - hi) * 2 ^ (hi + 1) := by rw [← pow_add]; congr 1; omega
  have hp : 0 < (2:Nat) ^ lo := by positivity
  have hw : 0 < (2:Nat) ^ (hi + 1 - lo) := by positivity
  have hm : n % 2 ^ (hi + 1 - lo) < 2 ^ (hi + 1 - lo) := Nat.mod_lt _ hw
  have hq : x / 2 ^ (hi + 1) < 2 ^ (63 - hi) := by
    rw [Nat.div_lt_iff_lt_mul (by positivity), ← e2]; exact hv
  have hr : x % 2 ^ lo < 2 ^ lo := Nat.mod_lt _ hp
  have hlow : x % 2 ^ lo + n % 2 ^ (hi + 1 - lo) * 2 ^ lo < 2 ^ (hi + 1) := by
    rw [e1]
    have : (n % 2 ^ (hi + 1 - lo) + 1) * 2 ^ lo ≤ 2 ^ (hi + 1 - lo) * 2 ^ lo := Nat.mul_le_mul_right _ hm
    have h3 : (n % 2 ^ (hi + 1 - lo) + 1) * 2 ^ lo = n % 2 ^ (hi + 1 - lo) * 2 ^ lo + 2 ^ lo := by ring
    omega
  have hlt : x % 2 ^ lo + n % 2 ^ (hi + 1 - lo) * 2 ^ lo + x / 2 ^ (hi + 1) * 2 ^ (hi + 1) < 2 ^ 64 := by
    have : (x / 2 ^ (hi + 1) + 1) * 2 ^ (hi + 1) ≤ 2 ^ (63 - hi) * 2 ^ (hi + 1) := Nat.mul_le_mul_right _ hq
    have h3 : (x / 2 ^ (hi + 1) + 1) * 2 ^ (hi + 1) = x / 2 ^ (hi + 1) * 2 ^ (hi + 1) + 2 ^ (hi + 1) := by ring
    omega
  rw [Nat.mod_eq_of_lt hlt]
  rcases h with h | h
  · have e3 : (2:Nat) ^ go = 2 ^ (hi + 1) * 2 ^ (go - (hi + 1)) := by rw [← pow_add]; congr 1; omega
    have hd : (x % 2 ^ lo + n % 2 ^ (hi + 1 - lo) * 2 ^ lo + x / 2 ^ (hi + 1) * 2 ^ (hi + 1)) / 2 ^ (hi + 1) = x / 2 ^ (hi + 1) := by
      rw [Nat.add_mul_div_right _ _ (by positivity), Nat.div_eq_of_lt hlow, Nat.zero_add]
    rw [e3, ← Nat.div_div_eq_div_mul, ← Nat.div_div_eq_div_mul, hd]
  · -- the field below: only x % 2^lo matters
    have e3 : (2:Nat) ^ lo = 2 ^ (gi + 1) * 2 ^ (lo - (gi + 1)) := by rw [← pow_add]; congr 1; omega
    have e4 : (2:Nat) ^ (gi + 1) = 2 ^ go * 2 ^ (gi + 1 - go) := by rw [← pow_add]; congr 1; omega
    have key : (x % 2 ^ lo + n % 2 ^ (hi + 1 - lo) * 2 ^ lo + x / 2 ^ (hi + 1) * 2 ^ (hi + 1)) % 2 ^ (gi + 1) = x % 2 ^ (gi + 1) := by
      rw [e1]
      have : x % 2 ^ lo + n % 2 ^ (hi + 1 - lo) * 2 ^ lo + x / (2 ^ (hi + 1 - lo) * 2 ^ lo) * (2 ^ (hi + 1 - lo) * 2 ^ lo)
          = x % 2 ^ lo + 2 ^ (gi + 1) * (2 ^ (lo - (gi + 1)) * (n % 2 ^ (hi + 1 - lo) + x / (2 ^ (hi + 1 - lo) * 2 ^ lo) * 2 ^ (hi + 1 - lo))) := by
        rw [← Nat.mul_assoc (2 ^ (gi + 1)), ← e3]; ring
      rw [this, Nat.add_mul_mod_self_left, e3, Nat.mod_mul_right_mod]
    have half (y : Nat) : y / 2 ^ go % 2 ^ (gi + 1 - go) = y % 2 ^ (gi + 1) / 2 ^ go := by
      rw [e4, Nat.mod_mul_right_div_self]
    rw [half, half, key]

end Sys2Proof.Machine
end

