-- ==== Sys2Proof/Laws/State.lean ====
section
/-! SUPPORT. Laws of the state: what each update of the device leaves as it was, field by field and accessor by accessor, and what reading after writing gives. -/
namespace Sys2Proof.Machine

variable (s : Dev)

/-! ## setReg -/

@[simp] theorem setReg_mem (o : Nat) (v : Word) : (setReg s o v).mem = s.mem := rfl
@[simp] theorem setReg_tags (o : Nat) (v : Word) : (setReg s o v).tags = s.tags := rfl
@[simp] theorem setReg_poison (o : Nat) (v : Word) : (setReg s o v).poison = s.poison := rfl
@[simp] theorem setReg_free (o : Nat) (v : Word) : (setReg s o v).free = s.free := rfl
@[simp] theorem setReg_time (o : Nat) (v : Word) : (setReg s o v).time = s.time := rfl
@[simp] theorem setReg_rate (o : Nat) (v : Word) : (setReg s o v).rate = s.rate := rfl
@[simp] theorem setReg_readData (o : Nat) (v : Word) : (setReg s o v).readData = s.readData := rfl
@[simp] theorem setReg_credits (o : Nat) (v : Word) : (setReg s o v).credits = s.credits := rfl
@[simp] theorem setReg_banks (o : Nat) (v : Word) : (setReg s o v).banks = s.banks := rfl
@[simp] theorem setReg_img (o : Nat) (v : Word) : (setReg s o v).img = s.img := rfl
@[simp] theorem setReg_cyc (o : Nat) (v : Word) : (setReg s o v).cyc = s.cyc := rfl
@[simp] theorem setReg_threads (o : Nat) (v : Word) : (setReg s o v).threads = s.threads := rfl
@[simp] theorem setReg_routes (o : Nat) (v : Word) : (setReg s o v).routes = s.routes := rfl
@[simp] theorem setReg_pendSrc (o : Nat) (v : Word) : (setReg s o v).pendSrc = s.pendSrc := rfl
@[simp] theorem setReg_twin (o : Nat) (v : Word) : (setReg s o v).twin = s.twin := rfl
@[simp] theorem setReg_hist (o : Nat) (v : Word) : (setReg s o v).hist = s.hist := rfl
@[simp] theorem setReg_erg (o : Nat) (v : Word) : (setReg s o v).erg = s.erg := rfl
@[simp] theorem setReg_inst (o : Nat) (v : Word) : (setReg s o v).inst = s.inst := rfl
@[simp] theorem setReg_mbox (o : Nat) (v : Word) : (setReg s o v).mbox = s.mbox := rfl
@[simp] theorem setReg_cache (o : Nat) (v : Word) : (setReg s o v).cache = s.cache := rfl
@[simp] theorem setReg_tlb (o : Nat) (v : Word) : (setReg s o v).tlb = s.tlb := rfl
@[simp] theorem setReg_ioTlb (o : Nat) (v : Word) : (setReg s o v).ioTlb = s.ioTlb := rfl
@[simp] theorem setReg_parts (o : Nat) (v : Word) : (setReg s o v).parts = s.parts := rfl
@[simp] theorem setReg_oasis (o : Nat) (v : Word) : (setReg s o v).oasis = s.oasis := rfl
@[simp] theorem setReg_doms (o : Nat) (v : Word) : (setReg s o v).doms = s.doms := rfl
@[simp] theorem setReg_smp (o : Nat) (v : Word) : (setReg s o v).smp = s.smp := rfl
@[simp] theorem setReg_trc (o : Nat) (v : Word) : (setReg s o v).trc = s.trc := rfl
@[simp] theorem setReg_dbg (o : Nat) (v : Word) : (setReg s o v).dbg = s.dbg := rfl
@[simp] theorem setReg_ctr (o : Nat) (v : Word) : (setReg s o v).ctr = s.ctr := rfl
@[simp] theorem setReg_pwr (o : Nat) (v : Word) : (setReg s o v).pwr = s.pwr := rfl
@[simp] theorem thr_setReg (o : Nat) (v : Word) (i1 : Nat) : thr (setReg s o v) i1 = thr s i1 := rfl
@[simp] theorem bank_setReg (o : Nat) (v : Word) (i1 : Nat) : bank (setReg s o v) i1 = bank s i1 := rfl
@[simp] theorem imgSt_setReg (o : Nat) (v : Word) (i1 : Nat) : imgSt (setReg s o v) i1 = imgSt s i1 := rfl
@[simp] theorem cls_setReg (o : Nat) (v : Word) (i1 : Nat) : cls (setReg s o v) i1 = cls s i1 := rfl
@[simp] theorem partSt_setReg (o : Nat) (v : Word) (i1 : Nat) : partSt (setReg s o v) i1 = partSt s i1 := rfl
@[simp] theorem domSt_setReg (o : Nat) (v : Word) (i1 : Nat) : domSt (setReg s o v) i1 = domSt s i1 := rfl
@[simp] theorem domOn_setReg (o : Nat) (v : Word) (i1 : Nat) : domOn (setReg s o v) i1 = domOn s i1 := rfl
@[simp] theorem creditQ_setReg (o : Nat) (v : Word) (i1 : Nat) : creditQ (setReg s o v) i1 = creditQ s i1 := rfl
@[simp] theorem rdByte_setReg (o : Nat) (v : Word) (i1 : Nat) : rdByte (setReg s o v) i1 = rdByte s i1 := rfl
@[simp] theorem tagAt_setReg (o : Nat) (v : Word) (i1 : Nat) : tagAt (setReg s o v) i1 = tagAt s i1 := rfl
@[simp] theorem poisonAt_setReg (o : Nat) (v : Word) (i1 : Nat) : poisonAt (setReg s o v) i1 = poisonAt s i1 := rfl

/-! ## fset -/

@[simp] theorem fset_mem (o : Nat) (f : Nat × Nat) (n : Nat) : (fset s o f n).mem = s.mem := rfl
@[simp] theorem fset_tags (o : Nat) (f : Nat × Nat) (n : Nat) : (fset s o f n).tags = s.tags := rfl
@[simp] theorem fset_poison (o : Nat) (f : Nat × Nat) (n : Nat) : (fset s o f n).poison = s.poison := rfl
@[simp] theorem fset_free (o : Nat) (f : Nat × Nat) (n : Nat) : (fset s o f n).free = s.free := rfl
@[simp] theorem fset_time (o : Nat) (f : Nat × Nat) (n : Nat) : (fset s o f n).time = s.time := rfl
@[simp] theorem fset_rate (o : Nat) (f : Nat × Nat) (n : Nat) : (fset s o f n).rate = s.rate := rfl
@[simp] theorem fset_readData (o : Nat) (f : Nat × Nat) (n : Nat) : (fset s o f n).readData = s.readData := rfl
@[simp] theorem fset_credits (o : Nat) (f : Nat × Nat) (n : Nat) : (fset s o f n).credits = s.credits := rfl
@[simp] theorem fset_banks (o : Nat) (f : Nat × Nat) (n : Nat) : (fset s o f n).banks = s.banks := rfl
@[simp] theorem fset_img (o : Nat) (f : Nat × Nat) (n : Nat) : (fset s o f n).img = s.img := rfl
@[simp] theorem fset_cyc (o : Nat) (f : Nat × Nat) (n : Nat) : (fset s o f n).cyc = s.cyc := rfl
@[simp] theorem fset_threads (o : Nat) (f : Nat × Nat) (n : Nat) : (fset s o f n).threads = s.threads := rfl
@[simp] theorem fset_routes (o : Nat) (f : Nat × Nat) (n : Nat) : (fset s o f n).routes = s.routes := rfl
@[simp] theorem fset_pendSrc (o : Nat) (f : Nat × Nat) (n : Nat) : (fset s o f n).pendSrc = s.pendSrc := rfl
@[simp] theorem fset_twin (o : Nat) (f : Nat × Nat) (n : Nat) : (fset s o f n).twin = s.twin := rfl
@[simp] theorem fset_hist (o : Nat) (f : Nat × Nat) (n : Nat) : (fset s o f n).hist = s.hist := rfl
@[simp] theorem fset_erg (o : Nat) (f : Nat × Nat) (n : Nat) : (fset s o f n).erg = s.erg := rfl
@[simp] theorem fset_inst (o : Nat) (f : Nat × Nat) (n : Nat) : (fset s o f n).inst = s.inst := rfl
@[simp] theorem fset_mbox (o : Nat) (f : Nat × Nat) (n : Nat) : (fset s o f n).mbox = s.mbox := rfl
@[simp] theorem fset_cache (o : Nat) (f : Nat × Nat) (n : Nat) : (fset s o f n).cache = s.cache := rfl
@[simp] theorem fset_tlb (o : Nat) (f : Nat × Nat) (n : Nat) : (fset s o f n).tlb = s.tlb := rfl
@[simp] theorem fset_ioTlb (o : Nat) (f : Nat × Nat) (n : Nat) : (fset s o f n).ioTlb = s.ioTlb := rfl
@[simp] theorem fset_parts (o : Nat) (f : Nat × Nat) (n : Nat) : (fset s o f n).parts = s.parts := rfl
@[simp] theorem fset_oasis (o : Nat) (f : Nat × Nat) (n : Nat) : (fset s o f n).oasis = s.oasis := rfl
@[simp] theorem fset_doms (o : Nat) (f : Nat × Nat) (n : Nat) : (fset s o f n).doms = s.doms := rfl
@[simp] theorem fset_smp (o : Nat) (f : Nat × Nat) (n : Nat) : (fset s o f n).smp = s.smp := rfl
@[simp] theorem fset_trc (o : Nat) (f : Nat × Nat) (n : Nat) : (fset s o f n).trc = s.trc := rfl
@[simp] theorem fset_dbg (o : Nat) (f : Nat × Nat) (n : Nat) : (fset s o f n).dbg = s.dbg := rfl
@[simp] theorem fset_ctr (o : Nat) (f : Nat × Nat) (n : Nat) : (fset s o f n).ctr = s.ctr := rfl
@[simp] theorem fset_pwr (o : Nat) (f : Nat × Nat) (n : Nat) : (fset s o f n).pwr = s.pwr := rfl
@[simp] theorem thr_fset (o : Nat) (f : Nat × Nat) (n : Nat) (i1 : Nat) : thr (fset s o f n) i1 = thr s i1 := rfl
@[simp] theorem bank_fset (o : Nat) (f : Nat × Nat) (n : Nat) (i1 : Nat) : bank (fset s o f n) i1 = bank s i1 := rfl
@[simp] theorem imgSt_fset (o : Nat) (f : Nat × Nat) (n : Nat) (i1 : Nat) : imgSt (fset s o f n) i1 = imgSt s i1 := rfl
@[simp] theorem cls_fset (o : Nat) (f : Nat × Nat) (n : Nat) (i1 : Nat) : cls (fset s o f n) i1 = cls s i1 := rfl
@[simp] theorem partSt_fset (o : Nat) (f : Nat × Nat) (n : Nat) (i1 : Nat) : partSt (fset s o f n) i1 = partSt s i1 := rfl
@[simp] theorem domSt_fset (o : Nat) (f : Nat × Nat) (n : Nat) (i1 : Nat) : domSt (fset s o f n) i1 = domSt s i1 := rfl
@[simp] theorem domOn_fset (o : Nat) (f : Nat × Nat) (n : Nat) (i1 : Nat) : domOn (fset s o f n) i1 = domOn s i1 := rfl
@[simp] theorem creditQ_fset (o : Nat) (f : Nat × Nat) (n : Nat) (i1 : Nat) : creditQ (fset s o f n) i1 = creditQ s i1 := rfl
@[simp] theorem rdByte_fset (o : Nat) (f : Nat × Nat) (n : Nat) (i1 : Nat) : rdByte (fset s o f n) i1 = rdByte s i1 := rfl
@[simp] theorem tagAt_fset (o : Nat) (f : Nat × Nat) (n : Nat) (i1 : Nat) : tagAt (fset s o f n) i1 = tagAt s i1 := rfl
@[simp] theorem poisonAt_fset (o : Nat) (f : Nat × Nat) (n : Nat) (i1 : Nat) : poisonAt (fset s o f n) i1 = poisonAt s i1 := rfl

/-! ## setThr -/

@[simp] theorem setThr_regs (t : Nat) (x : Thread) : (setThr s t x).regs = s.regs := rfl
@[simp] theorem setThr_mem (t : Nat) (x : Thread) : (setThr s t x).mem = s.mem := rfl
@[simp] theorem setThr_tags (t : Nat) (x : Thread) : (setThr s t x).tags = s.tags := rfl
@[simp] theorem setThr_poison (t : Nat) (x : Thread) : (setThr s t x).poison = s.poison := rfl
@[simp] theorem setThr_free (t : Nat) (x : Thread) : (setThr s t x).free = s.free := rfl
@[simp] theorem setThr_time (t : Nat) (x : Thread) : (setThr s t x).time = s.time := rfl
@[simp] theorem setThr_rate (t : Nat) (x : Thread) : (setThr s t x).rate = s.rate := rfl
@[simp] theorem setThr_readData (t : Nat) (x : Thread) : (setThr s t x).readData = s.readData := rfl
@[simp] theorem setThr_credits (t : Nat) (x : Thread) : (setThr s t x).credits = s.credits := rfl
@[simp] theorem setThr_banks (t : Nat) (x : Thread) : (setThr s t x).banks = s.banks := rfl
@[simp] theorem setThr_img (t : Nat) (x : Thread) : (setThr s t x).img = s.img := rfl
@[simp] theorem setThr_cyc (t : Nat) (x : Thread) : (setThr s t x).cyc = s.cyc := rfl
@[simp] theorem setThr_routes (t : Nat) (x : Thread) : (setThr s t x).routes = s.routes := rfl
@[simp] theorem setThr_pendSrc (t : Nat) (x : Thread) : (setThr s t x).pendSrc = s.pendSrc := rfl
@[simp] theorem setThr_twin (t : Nat) (x : Thread) : (setThr s t x).twin = s.twin := rfl
@[simp] theorem setThr_hist (t : Nat) (x : Thread) : (setThr s t x).hist = s.hist := rfl
@[simp] theorem setThr_erg (t : Nat) (x : Thread) : (setThr s t x).erg = s.erg := rfl
@[simp] theorem setThr_inst (t : Nat) (x : Thread) : (setThr s t x).inst = s.inst := rfl
@[simp] theorem setThr_mbox (t : Nat) (x : Thread) : (setThr s t x).mbox = s.mbox := rfl
@[simp] theorem setThr_cache (t : Nat) (x : Thread) : (setThr s t x).cache = s.cache := rfl
@[simp] theorem setThr_tlb (t : Nat) (x : Thread) : (setThr s t x).tlb = s.tlb := rfl
@[simp] theorem setThr_ioTlb (t : Nat) (x : Thread) : (setThr s t x).ioTlb = s.ioTlb := rfl
@[simp] theorem setThr_parts (t : Nat) (x : Thread) : (setThr s t x).parts = s.parts := rfl
@[simp] theorem setThr_oasis (t : Nat) (x : Thread) : (setThr s t x).oasis = s.oasis := rfl
@[simp] theorem setThr_doms (t : Nat) (x : Thread) : (setThr s t x).doms = s.doms := rfl
@[simp] theorem setThr_smp (t : Nat) (x : Thread) : (setThr s t x).smp = s.smp := rfl
@[simp] theorem setThr_trc (t : Nat) (x : Thread) : (setThr s t x).trc = s.trc := rfl
@[simp] theorem setThr_dbg (t : Nat) (x : Thread) : (setThr s t x).dbg = s.dbg := rfl
@[simp] theorem setThr_ctr (t : Nat) (x : Thread) : (setThr s t x).ctr = s.ctr := rfl
@[simp] theorem setThr_pwr (t : Nat) (x : Thread) : (setThr s t x).pwr = s.pwr := rfl
@[simp] theorem reg_setThr (t : Nat) (x : Thread) (o1 : Nat) : reg (setThr s t x) o1 = reg s o1 := rfl
@[simp] theorem fget_setThr (t : Nat) (x : Thread) (o1 : Nat) (f1 : Nat × Nat) : fget (setThr s t x) o1 f1 = fget s o1 f1 := rfl
@[simp] theorem fbit_setThr (t : Nat) (x : Thread) (o1 : Nat) (f1 : Nat × Nat) : fbit (setThr s t x) o1 f1 = fbit s o1 f1 := rfl
@[simp] theorem bank_setThr (t : Nat) (x : Thread) (i1 : Nat) : bank (setThr s t x) i1 = bank s i1 := rfl
@[simp] theorem imgSt_setThr (t : Nat) (x : Thread) (i1 : Nat) : imgSt (setThr s t x) i1 = imgSt s i1 := rfl
@[simp] theorem cls_setThr (t : Nat) (x : Thread) (i1 : Nat) : cls (setThr s t x) i1 = cls s i1 := rfl
@[simp] theorem partSt_setThr (t : Nat) (x : Thread) (i1 : Nat) : partSt (setThr s t x) i1 = partSt s i1 := rfl
@[simp] theorem domSt_setThr (t : Nat) (x : Thread) (i1 : Nat) : domSt (setThr s t x) i1 = domSt s i1 := rfl
@[simp] theorem domOn_setThr (t : Nat) (x : Thread) (i1 : Nat) : domOn (setThr s t x) i1 = domOn s i1 := rfl
@[simp] theorem creditQ_setThr (t : Nat) (x : Thread) (i1 : Nat) : creditQ (setThr s t x) i1 = creditQ s i1 := rfl
@[simp] theorem rdByte_setThr (t : Nat) (x : Thread) (i1 : Nat) : rdByte (setThr s t x) i1 = rdByte s i1 := rfl
@[simp] theorem tagAt_setThr (t : Nat) (x : Thread) (i1 : Nat) : tagAt (setThr s t x) i1 = tagAt s i1 := rfl
@[simp] theorem poisonAt_setThr (t : Nat) (x : Thread) (i1 : Nat) : poisonAt (setThr s t x) i1 = poisonAt s i1 := rfl

/-! ## modThr -/

@[simp] theorem modThr_regs (t : Nat) (f : Thread → Thread) : (modThr s t f).regs = s.regs := rfl
@[simp] theorem modThr_mem (t : Nat) (f : Thread → Thread) : (modThr s t f).mem = s.mem := rfl
@[simp] theorem modThr_tags (t : Nat) (f : Thread → Thread) : (modThr s t f).tags = s.tags := rfl
@[simp] theorem modThr_poison (t : Nat) (f : Thread → Thread) : (modThr s t f).poison = s.poison := rfl
@[simp] theorem modThr_free (t : Nat) (f : Thread → Thread) : (modThr s t f).free = s.free := rfl
@[simp] theorem modThr_time (t : Nat) (f : Thread → Thread) : (modThr s t f).time = s.time := rfl
@[simp] theorem modThr_rate (t : Nat) (f : Thread → Thread) : (modThr s t f).rate = s.rate := rfl
@[simp] theorem modThr_readData (t : Nat) (f : Thread → Thread) : (modThr s t f).readData = s.readData := rfl
@[simp] theorem modThr_credits (t : Nat) (f : Thread → Thread) : (modThr s t f).credits = s.credits := rfl
@[simp] theorem modThr_banks (t : Nat) (f : Thread → Thread) : (modThr s t f).banks = s.banks := rfl
@[simp] theorem modThr_img (t : Nat) (f : Thread → Thread) : (modThr s t f).img = s.img := rfl
@[simp] theorem modThr_cyc (t : Nat) (f : Thread → Thread) : (modThr s t f).cyc = s.cyc := rfl
@[simp] theorem modThr_routes (t : Nat) (f : Thread → Thread) : (modThr s t f).routes = s.routes := rfl
@[simp] theorem modThr_pendSrc (t : Nat) (f : Thread → Thread) : (modThr s t f).pendSrc = s.pendSrc := rfl
@[simp] theorem modThr_twin (t : Nat) (f : Thread → Thread) : (modThr s t f).twin = s.twin := rfl
@[simp] theorem modThr_hist (t : Nat) (f : Thread → Thread) : (modThr s t f).hist = s.hist := rfl
@[simp] theorem modThr_erg (t : Nat) (f : Thread → Thread) : (modThr s t f).erg = s.erg := rfl
@[simp] theorem modThr_inst (t : Nat) (f : Thread → Thread) : (modThr s t f).inst = s.inst := rfl
@[simp] theorem modThr_mbox (t : Nat) (f : Thread → Thread) : (modThr s t f).mbox = s.mbox := rfl
@[simp] theorem modThr_cache (t : Nat) (f : Thread → Thread) : (modThr s t f).cache = s.cache := rfl
@[simp] theorem modThr_tlb (t : Nat) (f : Thread → Thread) : (modThr s t f).tlb = s.tlb := rfl
@[simp] theorem modThr_ioTlb (t : Nat) (f : Thread → Thread) : (modThr s t f).ioTlb = s.ioTlb := rfl
@[simp] theorem modThr_parts (t : Nat) (f : Thread → Thread) : (modThr s t f).parts = s.parts := rfl
@[simp] theorem modThr_oasis (t : Nat) (f : Thread → Thread) : (modThr s t f).oasis = s.oasis := rfl
@[simp] theorem modThr_doms (t : Nat) (f : Thread → Thread) : (modThr s t f).doms = s.doms := rfl
@[simp] theorem modThr_smp (t : Nat) (f : Thread → Thread) : (modThr s t f).smp = s.smp := rfl
@[simp] theorem modThr_trc (t : Nat) (f : Thread → Thread) : (modThr s t f).trc = s.trc := rfl
@[simp] theorem modThr_dbg (t : Nat) (f : Thread → Thread) : (modThr s t f).dbg = s.dbg := rfl
@[simp] theorem modThr_ctr (t : Nat) (f : Thread → Thread) : (modThr s t f).ctr = s.ctr := rfl
@[simp] theorem modThr_pwr (t : Nat) (f : Thread → Thread) : (modThr s t f).pwr = s.pwr := rfl
@[simp] theorem reg_modThr (t : Nat) (f : Thread → Thread) (o1 : Nat) : reg (modThr s t f) o1 = reg s o1 := rfl
@[simp] theorem fget_modThr (t : Nat) (f : Thread → Thread) (o1 : Nat) (f1 : Nat × Nat) : fget (modThr s t f) o1 f1 = fget s o1 f1 := rfl
@[simp] theorem fbit_modThr (t : Nat) (f : Thread → Thread) (o1 : Nat) (f1 : Nat × Nat) : fbit (modThr s t f) o1 f1 = fbit s o1 f1 := rfl
@[simp] theorem bank_modThr (t : Nat) (f : Thread → Thread) (i1 : Nat) : bank (modThr s t f) i1 = bank s i1 := rfl
@[simp] theorem imgSt_modThr (t : Nat) (f : Thread → Thread) (i1 : Nat) : imgSt (modThr s t f) i1 = imgSt s i1 := rfl
@[simp] theorem cls_modThr (t : Nat) (f : Thread → Thread) (i1 : Nat) : cls (modThr s t f) i1 = cls s i1 := rfl
@[simp] theorem partSt_modThr (t : Nat) (f : Thread → Thread) (i1 : Nat) : partSt (modThr s t f) i1 = partSt s i1 := rfl
@[simp] theorem domSt_modThr (t : Nat) (f : Thread → Thread) (i1 : Nat) : domSt (modThr s t f) i1 = domSt s i1 := rfl
@[simp] theorem domOn_modThr (t : Nat) (f : Thread → Thread) (i1 : Nat) : domOn (modThr s t f) i1 = domOn s i1 := rfl
@[simp] theorem creditQ_modThr (t : Nat) (f : Thread → Thread) (i1 : Nat) : creditQ (modThr s t f) i1 = creditQ s i1 := rfl
@[simp] theorem rdByte_modThr (t : Nat) (f : Thread → Thread) (i1 : Nat) : rdByte (modThr s t f) i1 = rdByte s i1 := rfl
@[simp] theorem tagAt_modThr (t : Nat) (f : Thread → Thread) (i1 : Nat) : tagAt (modThr s t f) i1 = tagAt s i1 := rfl
@[simp] theorem poisonAt_modThr (t : Nat) (f : Thread → Thread) (i1 : Nat) : poisonAt (modThr s t f) i1 = poisonAt s i1 := rfl

/-! ## setBank -/

@[simp] theorem setBank_regs (n : Nat) (x : BankSt) : (setBank s n x).regs = s.regs := rfl
@[simp] theorem setBank_mem (n : Nat) (x : BankSt) : (setBank s n x).mem = s.mem := rfl
@[simp] theorem setBank_tags (n : Nat) (x : BankSt) : (setBank s n x).tags = s.tags := rfl
@[simp] theorem setBank_poison (n : Nat) (x : BankSt) : (setBank s n x).poison = s.poison := rfl
@[simp] theorem setBank_free (n : Nat) (x : BankSt) : (setBank s n x).free = s.free := rfl
@[simp] theorem setBank_time (n : Nat) (x : BankSt) : (setBank s n x).time = s.time := rfl
@[simp] theorem setBank_rate (n : Nat) (x : BankSt) : (setBank s n x).rate = s.rate := rfl
@[simp] theorem setBank_readData (n : Nat) (x : BankSt) : (setBank s n x).readData = s.readData := rfl
@[simp] theorem setBank_credits (n : Nat) (x : BankSt) : (setBank s n x).credits = s.credits := rfl
@[simp] theorem setBank_img (n : Nat) (x : BankSt) : (setBank s n x).img = s.img := rfl
@[simp] theorem setBank_cyc (n : Nat) (x : BankSt) : (setBank s n x).cyc = s.cyc := rfl
@[simp] theorem setBank_threads (n : Nat) (x : BankSt) : (setBank s n x).threads = s.threads := rfl
@[simp] theorem setBank_routes (n : Nat) (x : BankSt) : (setBank s n x).routes = s.routes := rfl
@[simp] theorem setBank_pendSrc (n : Nat) (x : BankSt) : (setBank s n x).pendSrc = s.pendSrc := rfl
@[simp] theorem setBank_twin (n : Nat) (x : BankSt) : (setBank s n x).twin = s.twin := rfl
@[simp] theorem setBank_hist (n : Nat) (x : BankSt) : (setBank s n x).hist = s.hist := rfl
@[simp] theorem setBank_erg (n : Nat) (x : BankSt) : (setBank s n x).erg = s.erg := rfl
@[simp] theorem setBank_inst (n : Nat) (x : BankSt) : (setBank s n x).inst = s.inst := rfl
@[simp] theorem setBank_mbox (n : Nat) (x : BankSt) : (setBank s n x).mbox = s.mbox := rfl
@[simp] theorem setBank_cache (n : Nat) (x : BankSt) : (setBank s n x).cache = s.cache := rfl
@[simp] theorem setBank_tlb (n : Nat) (x : BankSt) : (setBank s n x).tlb = s.tlb := rfl
@[simp] theorem setBank_ioTlb (n : Nat) (x : BankSt) : (setBank s n x).ioTlb = s.ioTlb := rfl
@[simp] theorem setBank_parts (n : Nat) (x : BankSt) : (setBank s n x).parts = s.parts := rfl
@[simp] theorem setBank_oasis (n : Nat) (x : BankSt) : (setBank s n x).oasis = s.oasis := rfl
@[simp] theorem setBank_doms (n : Nat) (x : BankSt) : (setBank s n x).doms = s.doms := rfl
@[simp] theorem setBank_smp (n : Nat) (x : BankSt) : (setBank s n x).smp = s.smp := rfl
@[simp] theorem setBank_trc (n : Nat) (x : BankSt) : (setBank s n x).trc = s.trc := rfl
@[simp] theorem setBank_dbg (n : Nat) (x : BankSt) : (setBank s n x).dbg = s.dbg := rfl
@[simp] theorem setBank_ctr (n : Nat) (x : BankSt) : (setBank s n x).ctr = s.ctr := rfl
@[simp] theorem setBank_pwr (n : Nat) (x : BankSt) : (setBank s n x).pwr = s.pwr := rfl
@[simp] theorem reg_setBank (n : Nat) (x : BankSt) (o1 : Nat) : reg (setBank s n x) o1 = reg s o1 := rfl
@[simp] theorem fget_setBank (n : Nat) (x : BankSt) (o1 : Nat) (f1 : Nat × Nat) : fget (setBank s n x) o1 f1 = fget s o1 f1 := rfl
@[simp] theorem fbit_setBank (n : Nat) (x : BankSt) (o1 : Nat) (f1 : Nat × Nat) : fbit (setBank s n x) o1 f1 = fbit s o1 f1 := rfl
@[simp] theorem thr_setBank (n : Nat) (x : BankSt) (i1 : Nat) : thr (setBank s n x) i1 = thr s i1 := rfl
@[simp] theorem imgSt_setBank (n : Nat) (x : BankSt) (i1 : Nat) : imgSt (setBank s n x) i1 = imgSt s i1 := rfl
@[simp] theorem cls_setBank (n : Nat) (x : BankSt) (i1 : Nat) : cls (setBank s n x) i1 = cls s i1 := rfl
@[simp] theorem partSt_setBank (n : Nat) (x : BankSt) (i1 : Nat) : partSt (setBank s n x) i1 = partSt s i1 := rfl
@[simp] theorem domSt_setBank (n : Nat) (x : BankSt) (i1 : Nat) : domSt (setBank s n x) i1 = domSt s i1 := rfl
@[simp] theorem domOn_setBank (n : Nat) (x : BankSt) (i1 : Nat) : domOn (setBank s n x) i1 = domOn s i1 := rfl
@[simp] theorem creditQ_setBank (n : Nat) (x : BankSt) (i1 : Nat) : creditQ (setBank s n x) i1 = creditQ s i1 := rfl
@[simp] theorem rdByte_setBank (n : Nat) (x : BankSt) (i1 : Nat) : rdByte (setBank s n x) i1 = rdByte s i1 := rfl
@[simp] theorem tagAt_setBank (n : Nat) (x : BankSt) (i1 : Nat) : tagAt (setBank s n x) i1 = tagAt s i1 := rfl
@[simp] theorem poisonAt_setBank (n : Nat) (x : BankSt) (i1 : Nat) : poisonAt (setBank s n x) i1 = poisonAt s i1 := rfl

/-! ## setImg -/

@[simp] theorem setImg_regs (k : Nat) (x : ImgSt) : (setImg s k x).regs = s.regs := rfl
@[simp] theorem setImg_mem (k : Nat) (x : ImgSt) : (setImg s k x).mem = s.mem := rfl
@[simp] theorem setImg_tags (k : Nat) (x : ImgSt) : (setImg s k x).tags = s.tags := rfl
@[simp] theorem setImg_poison (k : Nat) (x : ImgSt) : (setImg s k x).poison = s.poison := rfl
@[simp] theorem setImg_free (k : Nat) (x : ImgSt) : (setImg s k x).free = s.free := rfl
@[simp] theorem setImg_time (k : Nat) (x : ImgSt) : (setImg s k x).time = s.time := rfl
@[simp] theorem setImg_rate (k : Nat) (x : ImgSt) : (setImg s k x).rate = s.rate := rfl
@[simp] theorem setImg_readData (k : Nat) (x : ImgSt) : (setImg s k x).readData = s.readData := rfl
@[simp] theorem setImg_credits (k : Nat) (x : ImgSt) : (setImg s k x).credits = s.credits := rfl
@[simp] theorem setImg_banks (k : Nat) (x : ImgSt) : (setImg s k x).banks = s.banks := rfl
@[simp] theorem setImg_cyc (k : Nat) (x : ImgSt) : (setImg s k x).cyc = s.cyc := rfl
@[simp] theorem setImg_threads (k : Nat) (x : ImgSt) : (setImg s k x).threads = s.threads := rfl
@[simp] theorem setImg_routes (k : Nat) (x : ImgSt) : (setImg s k x).routes = s.routes := rfl
@[simp] theorem setImg_pendSrc (k : Nat) (x : ImgSt) : (setImg s k x).pendSrc = s.pendSrc := rfl
@[simp] theorem setImg_twin (k : Nat) (x : ImgSt) : (setImg s k x).twin = s.twin := rfl
@[simp] theorem setImg_hist (k : Nat) (x : ImgSt) : (setImg s k x).hist = s.hist := rfl
@[simp] theorem setImg_erg (k : Nat) (x : ImgSt) : (setImg s k x).erg = s.erg := rfl
@[simp] theorem setImg_inst (k : Nat) (x : ImgSt) : (setImg s k x).inst = s.inst := rfl
@[simp] theorem setImg_mbox (k : Nat) (x : ImgSt) : (setImg s k x).mbox = s.mbox := rfl
@[simp] theorem setImg_cache (k : Nat) (x : ImgSt) : (setImg s k x).cache = s.cache := rfl
@[simp] theorem setImg_tlb (k : Nat) (x : ImgSt) : (setImg s k x).tlb = s.tlb := rfl
@[simp] theorem setImg_ioTlb (k : Nat) (x : ImgSt) : (setImg s k x).ioTlb = s.ioTlb := rfl
@[simp] theorem setImg_parts (k : Nat) (x : ImgSt) : (setImg s k x).parts = s.parts := rfl
@[simp] theorem setImg_oasis (k : Nat) (x : ImgSt) : (setImg s k x).oasis = s.oasis := rfl
@[simp] theorem setImg_doms (k : Nat) (x : ImgSt) : (setImg s k x).doms = s.doms := rfl
@[simp] theorem setImg_smp (k : Nat) (x : ImgSt) : (setImg s k x).smp = s.smp := rfl
@[simp] theorem setImg_trc (k : Nat) (x : ImgSt) : (setImg s k x).trc = s.trc := rfl
@[simp] theorem setImg_dbg (k : Nat) (x : ImgSt) : (setImg s k x).dbg = s.dbg := rfl
@[simp] theorem setImg_ctr (k : Nat) (x : ImgSt) : (setImg s k x).ctr = s.ctr := rfl
@[simp] theorem setImg_pwr (k : Nat) (x : ImgSt) : (setImg s k x).pwr = s.pwr := rfl
@[simp] theorem reg_setImg (k : Nat) (x : ImgSt) (o1 : Nat) : reg (setImg s k x) o1 = reg s o1 := rfl
@[simp] theorem fget_setImg (k : Nat) (x : ImgSt) (o1 : Nat) (f1 : Nat × Nat) : fget (setImg s k x) o1 f1 = fget s o1 f1 := rfl
@[simp] theorem fbit_setImg (k : Nat) (x : ImgSt) (o1 : Nat) (f1 : Nat × Nat) : fbit (setImg s k x) o1 f1 = fbit s o1 f1 := rfl
@[simp] theorem thr_setImg (k : Nat) (x : ImgSt) (i1 : Nat) : thr (setImg s k x) i1 = thr s i1 := rfl
@[simp] theorem bank_setImg (k : Nat) (x : ImgSt) (i1 : Nat) : bank (setImg s k x) i1 = bank s i1 := rfl
@[simp] theorem cls_setImg (k : Nat) (x : ImgSt) (i1 : Nat) : cls (setImg s k x) i1 = cls s i1 := rfl
@[simp] theorem partSt_setImg (k : Nat) (x : ImgSt) (i1 : Nat) : partSt (setImg s k x) i1 = partSt s i1 := rfl
@[simp] theorem domSt_setImg (k : Nat) (x : ImgSt) (i1 : Nat) : domSt (setImg s k x) i1 = domSt s i1 := rfl
@[simp] theorem domOn_setImg (k : Nat) (x : ImgSt) (i1 : Nat) : domOn (setImg s k x) i1 = domOn s i1 := rfl
@[simp] theorem creditQ_setImg (k : Nat) (x : ImgSt) (i1 : Nat) : creditQ (setImg s k x) i1 = creditQ s i1 := rfl
@[simp] theorem rdByte_setImg (k : Nat) (x : ImgSt) (i1 : Nat) : rdByte (setImg s k x) i1 = rdByte s i1 := rfl
@[simp] theorem tagAt_setImg (k : Nat) (x : ImgSt) (i1 : Nat) : tagAt (setImg s k x) i1 = tagAt s i1 := rfl
@[simp] theorem poisonAt_setImg (k : Nat) (x : ImgSt) (i1 : Nat) : poisonAt (setImg s k x) i1 = poisonAt s i1 := rfl

/-! ## setCls -/

@[simp] theorem setCls_regs (c : Nat) (x : ClassSt) : (setCls s c x).regs = s.regs := rfl
@[simp] theorem setCls_mem (c : Nat) (x : ClassSt) : (setCls s c x).mem = s.mem := rfl
@[simp] theorem setCls_tags (c : Nat) (x : ClassSt) : (setCls s c x).tags = s.tags := rfl
@[simp] theorem setCls_poison (c : Nat) (x : ClassSt) : (setCls s c x).poison = s.poison := rfl
@[simp] theorem setCls_free (c : Nat) (x : ClassSt) : (setCls s c x).free = s.free := rfl
@[simp] theorem setCls_time (c : Nat) (x : ClassSt) : (setCls s c x).time = s.time := rfl
@[simp] theorem setCls_rate (c : Nat) (x : ClassSt) : (setCls s c x).rate = s.rate := rfl
@[simp] theorem setCls_readData (c : Nat) (x : ClassSt) : (setCls s c x).readData = s.readData := rfl
@[simp] theorem setCls_credits (c : Nat) (x : ClassSt) : (setCls s c x).credits = s.credits := rfl
@[simp] theorem setCls_banks (c : Nat) (x : ClassSt) : (setCls s c x).banks = s.banks := rfl
@[simp] theorem setCls_img (c : Nat) (x : ClassSt) : (setCls s c x).img = s.img := rfl
@[simp] theorem setCls_threads (c : Nat) (x : ClassSt) : (setCls s c x).threads = s.threads := rfl
@[simp] theorem setCls_routes (c : Nat) (x : ClassSt) : (setCls s c x).routes = s.routes := rfl
@[simp] theorem setCls_pendSrc (c : Nat) (x : ClassSt) : (setCls s c x).pendSrc = s.pendSrc := rfl
@[simp] theorem setCls_twin (c : Nat) (x : ClassSt) : (setCls s c x).twin = s.twin := rfl
@[simp] theorem setCls_hist (c : Nat) (x : ClassSt) : (setCls s c x).hist = s.hist := rfl
@[simp] theorem setCls_erg (c : Nat) (x : ClassSt) : (setCls s c x).erg = s.erg := rfl
@[simp] theorem setCls_inst (c : Nat) (x : ClassSt) : (setCls s c x).inst = s.inst := rfl
@[simp] theorem setCls_mbox (c : Nat) (x : ClassSt) : (setCls s c x).mbox = s.mbox := rfl
@[simp] theorem setCls_cache (c : Nat) (x : ClassSt) : (setCls s c x).cache = s.cache := rfl
@[simp] theorem setCls_tlb (c : Nat) (x : ClassSt) : (setCls s c x).tlb = s.tlb := rfl
@[simp] theorem setCls_ioTlb (c : Nat) (x : ClassSt) : (setCls s c x).ioTlb = s.ioTlb := rfl
@[simp] theorem setCls_parts (c : Nat) (x : ClassSt) : (setCls s c x).parts = s.parts := rfl
@[simp] theorem setCls_oasis (c : Nat) (x : ClassSt) : (setCls s c x).oasis = s.oasis := rfl
@[simp] theorem setCls_doms (c : Nat) (x : ClassSt) : (setCls s c x).doms = s.doms := rfl
@[simp] theorem setCls_smp (c : Nat) (x : ClassSt) : (setCls s c x).smp = s.smp := rfl
@[simp] theorem setCls_trc (c : Nat) (x : ClassSt) : (setCls s c x).trc = s.trc := rfl
@[simp] theorem setCls_dbg (c : Nat) (x : ClassSt) : (setCls s c x).dbg = s.dbg := rfl
@[simp] theorem setCls_ctr (c : Nat) (x : ClassSt) : (setCls s c x).ctr = s.ctr := rfl
@[simp] theorem setCls_pwr (c : Nat) (x : ClassSt) : (setCls s c x).pwr = s.pwr := rfl
@[simp] theorem reg_setCls (c : Nat) (x : ClassSt) (o1 : Nat) : reg (setCls s c x) o1 = reg s o1 := rfl
@[simp] theorem fget_setCls (c : Nat) (x : ClassSt) (o1 : Nat) (f1 : Nat × Nat) : fget (setCls s c x) o1 f1 = fget s o1 f1 := rfl
@[simp] theorem fbit_setCls (c : Nat) (x : ClassSt) (o1 : Nat) (f1 : Nat × Nat) : fbit (setCls s c x) o1 f1 = fbit s o1 f1 := rfl
@[simp] theorem thr_setCls (c : Nat) (x : ClassSt) (i1 : Nat) : thr (setCls s c x) i1 = thr s i1 := rfl
@[simp] theorem bank_setCls (c : Nat) (x : ClassSt) (i1 : Nat) : bank (setCls s c x) i1 = bank s i1 := rfl
@[simp] theorem imgSt_setCls (c : Nat) (x : ClassSt) (i1 : Nat) : imgSt (setCls s c x) i1 = imgSt s i1 := rfl
@[simp] theorem partSt_setCls (c : Nat) (x : ClassSt) (i1 : Nat) : partSt (setCls s c x) i1 = partSt s i1 := rfl
@[simp] theorem domSt_setCls (c : Nat) (x : ClassSt) (i1 : Nat) : domSt (setCls s c x) i1 = domSt s i1 := rfl
@[simp] theorem domOn_setCls (c : Nat) (x : ClassSt) (i1 : Nat) : domOn (setCls s c x) i1 = domOn s i1 := rfl
@[simp] theorem creditQ_setCls (c : Nat) (x : ClassSt) (i1 : Nat) : creditQ (setCls s c x) i1 = creditQ s i1 := rfl
@[simp] theorem rdByte_setCls (c : Nat) (x : ClassSt) (i1 : Nat) : rdByte (setCls s c x) i1 = rdByte s i1 := rfl
@[simp] theorem tagAt_setCls (c : Nat) (x : ClassSt) (i1 : Nat) : tagAt (setCls s c x) i1 = tagAt s i1 := rfl
@[simp] theorem poisonAt_setCls (c : Nat) (x : ClassSt) (i1 : Nat) : poisonAt (setCls s c x) i1 = poisonAt s i1 := rfl

/-! ## setPart -/

@[simp] theorem setPart_regs (p : Nat) (x : PartSt) : (setPart s p x).regs = s.regs := rfl
@[simp] theorem setPart_mem (p : Nat) (x : PartSt) : (setPart s p x).mem = s.mem := rfl
@[simp] theorem setPart_tags (p : Nat) (x : PartSt) : (setPart s p x).tags = s.tags := rfl
@[simp] theorem setPart_poison (p : Nat) (x : PartSt) : (setPart s p x).poison = s.poison := rfl
@[simp] theorem setPart_free (p : Nat) (x : PartSt) : (setPart s p x).free = s.free := rfl
@[simp] theorem setPart_time (p : Nat) (x : PartSt) : (setPart s p x).time = s.time := rfl
@[simp] theorem setPart_rate (p : Nat) (x : PartSt) : (setPart s p x).rate = s.rate := rfl
@[simp] theorem setPart_readData (p : Nat) (x : PartSt) : (setPart s p x).readData = s.readData := rfl
@[simp] theorem setPart_credits (p : Nat) (x : PartSt) : (setPart s p x).credits = s.credits := rfl
@[simp] theorem setPart_banks (p : Nat) (x : PartSt) : (setPart s p x).banks = s.banks := rfl
@[simp] theorem setPart_img (p : Nat) (x : PartSt) : (setPart s p x).img = s.img := rfl
@[simp] theorem setPart_cyc (p : Nat) (x : PartSt) : (setPart s p x).cyc = s.cyc := rfl
@[simp] theorem setPart_threads (p : Nat) (x : PartSt) : (setPart s p x).threads = s.threads := rfl
@[simp] theorem setPart_routes (p : Nat) (x : PartSt) : (setPart s p x).routes = s.routes := rfl
@[simp] theorem setPart_pendSrc (p : Nat) (x : PartSt) : (setPart s p x).pendSrc = s.pendSrc := rfl
@[simp] theorem setPart_twin (p : Nat) (x : PartSt) : (setPart s p x).twin = s.twin := rfl
@[simp] theorem setPart_hist (p : Nat) (x : PartSt) : (setPart s p x).hist = s.hist := rfl
@[simp] theorem setPart_erg (p : Nat) (x : PartSt) : (setPart s p x).erg = s.erg := rfl
@[simp] theorem setPart_inst (p : Nat) (x : PartSt) : (setPart s p x).inst = s.inst := rfl
@[simp] theorem setPart_mbox (p : Nat) (x : PartSt) : (setPart s p x).mbox = s.mbox := rfl
@[simp] theorem setPart_cache (p : Nat) (x : PartSt) : (setPart s p x).cache = s.cache := rfl
@[simp] theorem setPart_tlb (p : Nat) (x : PartSt) : (setPart s p x).tlb = s.tlb := rfl
@[simp] theorem setPart_ioTlb (p : Nat) (x : PartSt) : (setPart s p x).ioTlb = s.ioTlb := rfl
@[simp] theorem setPart_oasis (p : Nat) (x : PartSt) : (setPart s p x).oasis = s.oasis := rfl
@[simp] theorem setPart_doms (p : Nat) (x : PartSt) : (setPart s p x).doms = s.doms := rfl
@[simp] theorem setPart_smp (p : Nat) (x : PartSt) : (setPart s p x).smp = s.smp := rfl
@[simp] theorem setPart_trc (p : Nat) (x : PartSt) : (setPart s p x).trc = s.trc := rfl
@[simp] theorem setPart_dbg (p : Nat) (x : PartSt) : (setPart s p x).dbg = s.dbg := rfl
@[simp] theorem setPart_ctr (p : Nat) (x : PartSt) : (setPart s p x).ctr = s.ctr := rfl
@[simp] theorem setPart_pwr (p : Nat) (x : PartSt) : (setPart s p x).pwr = s.pwr := rfl
@[simp] theorem reg_setPart (p : Nat) (x : PartSt) (o1 : Nat) : reg (setPart s p x) o1 = reg s o1 := rfl
@[simp] theorem fget_setPart (p : Nat) (x : PartSt) (o1 : Nat) (f1 : Nat × Nat) : fget (setPart s p x) o1 f1 = fget s o1 f1 := rfl
@[simp] theorem fbit_setPart (p : Nat) (x : PartSt) (o1 : Nat) (f1 : Nat × Nat) : fbit (setPart s p x) o1 f1 = fbit s o1 f1 := rfl
@[simp] theorem thr_setPart (p : Nat) (x : PartSt) (i1 : Nat) : thr (setPart s p x) i1 = thr s i1 := rfl
@[simp] theorem bank_setPart (p : Nat) (x : PartSt) (i1 : Nat) : bank (setPart s p x) i1 = bank s i1 := rfl
@[simp] theorem imgSt_setPart (p : Nat) (x : PartSt) (i1 : Nat) : imgSt (setPart s p x) i1 = imgSt s i1 := rfl
@[simp] theorem cls_setPart (p : Nat) (x : PartSt) (i1 : Nat) : cls (setPart s p x) i1 = cls s i1 := rfl
@[simp] theorem domSt_setPart (p : Nat) (x : PartSt) (i1 : Nat) : domSt (setPart s p x) i1 = domSt s i1 := rfl
@[simp] theorem domOn_setPart (p : Nat) (x : PartSt) (i1 : Nat) : domOn (setPart s p x) i1 = domOn s i1 := rfl
@[simp] theorem creditQ_setPart (p : Nat) (x : PartSt) (i1 : Nat) : creditQ (setPart s p x) i1 = creditQ s i1 := rfl
@[simp] theorem rdByte_setPart (p : Nat) (x : PartSt) (i1 : Nat) : rdByte (setPart s p x) i1 = rdByte s i1 := rfl
@[simp] theorem tagAt_setPart (p : Nat) (x : PartSt) (i1 : Nat) : tagAt (setPart s p x) i1 = tagAt s i1 := rfl
@[simp] theorem poisonAt_setPart (p : Nat) (x : PartSt) (i1 : Nat) : poisonAt (setPart s p x) i1 = poisonAt s i1 := rfl

/-! ## setDom -/

@[simp] theorem setDom_regs (d v : Nat) : (setDom s d v).regs = s.regs := rfl
@[simp] theorem setDom_mem (d v : Nat) : (setDom s d v).mem = s.mem := rfl
@[simp] theorem setDom_tags (d v : Nat) : (setDom s d v).tags = s.tags := rfl
@[simp] theorem setDom_poison (d v : Nat) : (setDom s d v).poison = s.poison := rfl
@[simp] theorem setDom_free (d v : Nat) : (setDom s d v).free = s.free := rfl
@[simp] theorem setDom_time (d v : Nat) : (setDom s d v).time = s.time := rfl
@[simp] theorem setDom_rate (d v : Nat) : (setDom s d v).rate = s.rate := rfl
@[simp] theorem setDom_readData (d v : Nat) : (setDom s d v).readData = s.readData := rfl
@[simp] theorem setDom_credits (d v : Nat) : (setDom s d v).credits = s.credits := rfl
@[simp] theorem setDom_banks (d v : Nat) : (setDom s d v).banks = s.banks := rfl
@[simp] theorem setDom_img (d v : Nat) : (setDom s d v).img = s.img := rfl
@[simp] theorem setDom_cyc (d v : Nat) : (setDom s d v).cyc = s.cyc := rfl
@[simp] theorem setDom_threads (d v : Nat) : (setDom s d v).threads = s.threads := rfl
@[simp] theorem setDom_routes (d v : Nat) : (setDom s d v).routes = s.routes := rfl
@[simp] theorem setDom_pendSrc (d v : Nat) : (setDom s d v).pendSrc = s.pendSrc := rfl
@[simp] theorem setDom_twin (d v : Nat) : (setDom s d v).twin = s.twin := rfl
@[simp] theorem setDom_hist (d v : Nat) : (setDom s d v).hist = s.hist := rfl
@[simp] theorem setDom_erg (d v : Nat) : (setDom s d v).erg = s.erg := rfl
@[simp] theorem setDom_inst (d v : Nat) : (setDom s d v).inst = s.inst := rfl
@[simp] theorem setDom_mbox (d v : Nat) : (setDom s d v).mbox = s.mbox := rfl
@[simp] theorem setDom_cache (d v : Nat) : (setDom s d v).cache = s.cache := rfl
@[simp] theorem setDom_tlb (d v : Nat) : (setDom s d v).tlb = s.tlb := rfl
@[simp] theorem setDom_ioTlb (d v : Nat) : (setDom s d v).ioTlb = s.ioTlb := rfl
@[simp] theorem setDom_parts (d v : Nat) : (setDom s d v).parts = s.parts := rfl
@[simp] theorem setDom_oasis (d v : Nat) : (setDom s d v).oasis = s.oasis := rfl
@[simp] theorem setDom_smp (d v : Nat) : (setDom s d v).smp = s.smp := rfl
@[simp] theorem setDom_trc (d v : Nat) : (setDom s d v).trc = s.trc := rfl
@[simp] theorem setDom_dbg (d v : Nat) : (setDom s d v).dbg = s.dbg := rfl
@[simp] theorem setDom_ctr (d v : Nat) : (setDom s d v).ctr = s.ctr := rfl
@[simp] theorem setDom_pwr (d v : Nat) : (setDom s d v).pwr = s.pwr := rfl
@[simp] theorem reg_setDom (d v : Nat) (o1 : Nat) : reg (setDom s d v) o1 = reg s o1 := rfl
@[simp] theorem fget_setDom (d v : Nat) (o1 : Nat) (f1 : Nat × Nat) : fget (setDom s d v) o1 f1 = fget s o1 f1 := rfl
@[simp] theorem fbit_setDom (d v : Nat) (o1 : Nat) (f1 : Nat × Nat) : fbit (setDom s d v) o1 f1 = fbit s o1 f1 := rfl
@[simp] theorem thr_setDom (d v : Nat) (i1 : Nat) : thr (setDom s d v) i1 = thr s i1 := rfl
@[simp] theorem bank_setDom (d v : Nat) (i1 : Nat) : bank (setDom s d v) i1 = bank s i1 := rfl
@[simp] theorem imgSt_setDom (d v : Nat) (i1 : Nat) : imgSt (setDom s d v) i1 = imgSt s i1 := rfl
@[simp] theorem cls_setDom (d v : Nat) (i1 : Nat) : cls (setDom s d v) i1 = cls s i1 := rfl
@[simp] theorem partSt_setDom (d v : Nat) (i1 : Nat) : partSt (setDom s d v) i1 = partSt s i1 := rfl
@[simp] theorem creditQ_setDom (d v : Nat) (i1 : Nat) : creditQ (setDom s d v) i1 = creditQ s i1 := rfl
@[simp] theorem rdByte_setDom (d v : Nat) (i1 : Nat) : rdByte (setDom s d v) i1 = rdByte s i1 := rfl
@[simp] theorem tagAt_setDom (d v : Nat) (i1 : Nat) : tagAt (setDom s d v) i1 = tagAt s i1 := rfl
@[simp] theorem poisonAt_setDom (d v : Nat) (i1 : Nat) : poisonAt (setDom s d v) i1 = poisonAt s i1 := rfl

/-! ## setCreditQ -/

@[simp] theorem setCreditQ_regs (q : Nat) (x : CreditQ) : (setCreditQ s q x).regs = s.regs := rfl
@[simp] theorem setCreditQ_mem (q : Nat) (x : CreditQ) : (setCreditQ s q x).mem = s.mem := rfl
@[simp] theorem setCreditQ_tags (q : Nat) (x : CreditQ) : (setCreditQ s q x).tags = s.tags := rfl
@[simp] theorem setCreditQ_poison (q : Nat) (x : CreditQ) : (setCreditQ s q x).poison = s.poison := rfl
@[simp] theorem setCreditQ_free (q : Nat) (x : CreditQ) : (setCreditQ s q x).free = s.free := rfl
@[simp] theorem setCreditQ_time (q : Nat) (x : CreditQ) : (setCreditQ s q x).time = s.time := rfl
@[simp] theorem setCreditQ_rate (q : Nat) (x : CreditQ) : (setCreditQ s q x).rate = s.rate := rfl
@[simp] theorem setCreditQ_readData (q : Nat) (x : CreditQ) : (setCreditQ s q x).readData = s.readData := rfl
@[simp] theorem setCreditQ_banks (q : Nat) (x : CreditQ) : (setCreditQ s q x).banks = s.banks := rfl
@[simp] theorem setCreditQ_img (q : Nat) (x : CreditQ) : (setCreditQ s q x).img = s.img := rfl
@[simp] theorem setCreditQ_cyc (q : Nat) (x : CreditQ) : (setCreditQ s q x).cyc = s.cyc := rfl
@[simp] theorem setCreditQ_threads (q : Nat) (x : CreditQ) : (setCreditQ s q x).threads = s.threads := rfl
@[simp] theorem setCreditQ_routes (q : Nat) (x : CreditQ) : (setCreditQ s q x).routes = s.routes := rfl
@[simp] theorem setCreditQ_pendSrc (q : Nat) (x : CreditQ) : (setCreditQ s q x).pendSrc = s.pendSrc := rfl
@[simp] theorem setCreditQ_twin (q : Nat) (x : CreditQ) : (setCreditQ s q x).twin = s.twin := rfl
@[simp] theorem setCreditQ_hist (q : Nat) (x : CreditQ) : (setCreditQ s q x).hist = s.hist := rfl
@[simp] theorem setCreditQ_erg (q : Nat) (x : CreditQ) : (setCreditQ s q x).erg = s.erg := rfl
@[simp] theorem setCreditQ_inst (q : Nat) (x : CreditQ) : (setCreditQ s q x).inst = s.inst := rfl
@[simp] theorem setCreditQ_mbox (q : Nat) (x : CreditQ) : (setCreditQ s q x).mbox = s.mbox := rfl
@[simp] theorem setCreditQ_cache (q : Nat) (x : CreditQ) : (setCreditQ s q x).cache = s.cache := rfl
@[simp] theorem setCreditQ_tlb (q : Nat) (x : CreditQ) : (setCreditQ s q x).tlb = s.tlb := rfl
@[simp] theorem setCreditQ_ioTlb (q : Nat) (x : CreditQ) : (setCreditQ s q x).ioTlb = s.ioTlb := rfl
@[simp] theorem setCreditQ_parts (q : Nat) (x : CreditQ) : (setCreditQ s q x).parts = s.parts := rfl
@[simp] theorem setCreditQ_oasis (q : Nat) (x : CreditQ) : (setCreditQ s q x).oasis = s.oasis := rfl
@[simp] theorem setCreditQ_doms (q : Nat) (x : CreditQ) : (setCreditQ s q x).doms = s.doms := rfl
@[simp] theorem setCreditQ_smp (q : Nat) (x : CreditQ) : (setCreditQ s q x).smp = s.smp := rfl
@[simp] theorem setCreditQ_trc (q : Nat) (x : CreditQ) : (setCreditQ s q x).trc = s.trc := rfl
@[simp] theorem setCreditQ_dbg (q : Nat) (x : CreditQ) : (setCreditQ s q x).dbg = s.dbg := rfl
@[simp] theorem setCreditQ_ctr (q : Nat) (x : CreditQ) : (setCreditQ s q x).ctr = s.ctr := rfl
@[simp] theorem setCreditQ_pwr (q : Nat) (x : CreditQ) : (setCreditQ s q x).pwr = s.pwr := rfl
@[simp] theorem reg_setCreditQ (q : Nat) (x : CreditQ) (o1 : Nat) : reg (setCreditQ s q x) o1 = reg s o1 := rfl
@[simp] theorem fget_setCreditQ (q : Nat) (x : CreditQ) (o1 : Nat) (f1 : Nat × Nat) : fget (setCreditQ s q x) o1 f1 = fget s o1 f1 := rfl
@[simp] theorem fbit_setCreditQ (q : Nat) (x : CreditQ) (o1 : Nat) (f1 : Nat × Nat) : fbit (setCreditQ s q x) o1 f1 = fbit s o1 f1 := rfl
@[simp] theorem thr_setCreditQ (q : Nat) (x : CreditQ) (i1 : Nat) : thr (setCreditQ s q x) i1 = thr s i1 := rfl
@[simp] theorem bank_setCreditQ (q : Nat) (x : CreditQ) (i1 : Nat) : bank (setCreditQ s q x) i1 = bank s i1 := rfl
@[simp] theorem imgSt_setCreditQ (q : Nat) (x : CreditQ) (i1 : Nat) : imgSt (setCreditQ s q x) i1 = imgSt s i1 := rfl
@[simp] theorem cls_setCreditQ (q : Nat) (x : CreditQ) (i1 : Nat) : cls (setCreditQ s q x) i1 = cls s i1 := rfl
@[simp] theorem partSt_setCreditQ (q : Nat) (x : CreditQ) (i1 : Nat) : partSt (setCreditQ s q x) i1 = partSt s i1 := rfl
@[simp] theorem domSt_setCreditQ (q : Nat) (x : CreditQ) (i1 : Nat) : domSt (setCreditQ s q x) i1 = domSt s i1 := rfl
@[simp] theorem domOn_setCreditQ (q : Nat) (x : CreditQ) (i1 : Nat) : domOn (setCreditQ s q x) i1 = domOn s i1 := rfl
@[simp] theorem rdByte_setCreditQ (q : Nat) (x : CreditQ) (i1 : Nat) : rdByte (setCreditQ s q x) i1 = rdByte s i1 := rfl
@[simp] theorem tagAt_setCreditQ (q : Nat) (x : CreditQ) (i1 : Nat) : tagAt (setCreditQ s q x) i1 = tagAt s i1 := rfl
@[simp] theorem poisonAt_setCreditQ (q : Nat) (x : CreditQ) (i1 : Nat) : poisonAt (setCreditQ s q x) i1 = poisonAt s i1 := rfl

/-! ## wrByte -/

@[simp] theorem wrByte_regs (a : Nat) (b : Byte) : (wrByte s a b).regs = s.regs := rfl
@[simp] theorem wrByte_tags (a : Nat) (b : Byte) : (wrByte s a b).tags = s.tags := rfl
@[simp] theorem wrByte_poison (a : Nat) (b : Byte) : (wrByte s a b).poison = s.poison := rfl
@[simp] theorem wrByte_free (a : Nat) (b : Byte) : (wrByte s a b).free = s.free := rfl
@[simp] theorem wrByte_time (a : Nat) (b : Byte) : (wrByte s a b).time = s.time := rfl
@[simp] theorem wrByte_rate (a : Nat) (b : Byte) : (wrByte s a b).rate = s.rate := rfl
@[simp] theorem wrByte_readData (a : Nat) (b : Byte) : (wrByte s a b).readData = s.readData := rfl
@[simp] theorem wrByte_credits (a : Nat) (b : Byte) : (wrByte s a b).credits = s.credits := rfl
@[simp] theorem wrByte_banks (a : Nat) (b : Byte) : (wrByte s a b).banks = s.banks := rfl
@[simp] theorem wrByte_img (a : Nat) (b : Byte) : (wrByte s a b).img = s.img := rfl
@[simp] theorem wrByte_cyc (a : Nat) (b : Byte) : (wrByte s a b).cyc = s.cyc := rfl
@[simp] theorem wrByte_threads (a : Nat) (b : Byte) : (wrByte s a b).threads = s.threads := rfl
@[simp] theorem wrByte_routes (a : Nat) (b : Byte) : (wrByte s a b).routes = s.routes := rfl
@[simp] theorem wrByte_pendSrc (a : Nat) (b : Byte) : (wrByte s a b).pendSrc = s.pendSrc := rfl
@[simp] theorem wrByte_twin (a : Nat) (b : Byte) : (wrByte s a b).twin = s.twin := rfl
@[simp] theorem wrByte_hist (a : Nat) (b : Byte) : (wrByte s a b).hist = s.hist := rfl
@[simp] theorem wrByte_erg (a : Nat) (b : Byte) : (wrByte s a b).erg = s.erg := rfl
@[simp] theorem wrByte_inst (a : Nat) (b : Byte) : (wrByte s a b).inst = s.inst := rfl
@[simp] theorem wrByte_mbox (a : Nat) (b : Byte) : (wrByte s a b).mbox = s.mbox := rfl
@[simp] theorem wrByte_cache (a : Nat) (b : Byte) : (wrByte s a b).cache = s.cache := rfl
@[simp] theorem wrByte_tlb (a : Nat) (b : Byte) : (wrByte s a b).tlb = s.tlb := rfl
@[simp] theorem wrByte_ioTlb (a : Nat) (b : Byte) : (wrByte s a b).ioTlb = s.ioTlb := rfl
@[simp] theorem wrByte_parts (a : Nat) (b : Byte) : (wrByte s a b).parts = s.parts := rfl
@[simp] theorem wrByte_oasis (a : Nat) (b : Byte) : (wrByte s a b).oasis = s.oasis := rfl
@[simp] theorem wrByte_doms (a : Nat) (b : Byte) : (wrByte s a b).doms = s.doms := rfl
@[simp] theorem wrByte_smp (a : Nat) (b : Byte) : (wrByte s a b).smp = s.smp := rfl
@[simp] theorem wrByte_trc (a : Nat) (b : Byte) : (wrByte s a b).trc = s.trc := rfl
@[simp] theorem wrByte_dbg (a : Nat) (b : Byte) : (wrByte s a b).dbg = s.dbg := rfl
@[simp] theorem wrByte_ctr (a : Nat) (b : Byte) : (wrByte s a b).ctr = s.ctr := rfl
@[simp] theorem wrByte_pwr (a : Nat) (b : Byte) : (wrByte s a b).pwr = s.pwr := rfl
@[simp] theorem reg_wrByte (a : Nat) (b : Byte) (o1 : Nat) : reg (wrByte s a b) o1 = reg s o1 := rfl
@[simp] theorem fget_wrByte (a : Nat) (b : Byte) (o1 : Nat) (f1 : Nat × Nat) : fget (wrByte s a b) o1 f1 = fget s o1 f1 := rfl
@[simp] theorem fbit_wrByte (a : Nat) (b : Byte) (o1 : Nat) (f1 : Nat × Nat) : fbit (wrByte s a b) o1 f1 = fbit s o1 f1 := rfl
@[simp] theorem thr_wrByte (a : Nat) (b : Byte) (i1 : Nat) : thr (wrByte s a b) i1 = thr s i1 := rfl
@[simp] theorem bank_wrByte (a : Nat) (b : Byte) (i1 : Nat) : bank (wrByte s a b) i1 = bank s i1 := rfl
@[simp] theorem imgSt_wrByte (a : Nat) (b : Byte) (i1 : Nat) : imgSt (wrByte s a b) i1 = imgSt s i1 := rfl
@[simp] theorem cls_wrByte (a : Nat) (b : Byte) (i1 : Nat) : cls (wrByte s a b) i1 = cls s i1 := rfl
@[simp] theorem partSt_wrByte (a : Nat) (b : Byte) (i1 : Nat) : partSt (wrByte s a b) i1 = partSt s i1 := rfl
@[simp] theorem domSt_wrByte (a : Nat) (b : Byte) (i1 : Nat) : domSt (wrByte s a b) i1 = domSt s i1 := rfl
@[simp] theorem domOn_wrByte (a : Nat) (b : Byte) (i1 : Nat) : domOn (wrByte s a b) i1 = domOn s i1 := rfl
@[simp] theorem creditQ_wrByte (a : Nat) (b : Byte) (i1 : Nat) : creditQ (wrByte s a b) i1 = creditQ s i1 := rfl
@[simp] theorem tagAt_wrByte (a : Nat) (b : Byte) (i1 : Nat) : tagAt (wrByte s a b) i1 = tagAt s i1 := rfl
@[simp] theorem poisonAt_wrByte (a : Nat) (b : Byte) (i1 : Nat) : poisonAt (wrByte s a b) i1 = poisonAt s i1 := rfl

/-! ## setTag -/

@[simp] theorem setTag_regs (w : Nat) (b : Byte) : (setTag s w b).regs = s.regs := rfl
@[simp] theorem setTag_mem (w : Nat) (b : Byte) : (setTag s w b).mem = s.mem := rfl
@[simp] theorem setTag_poison (w : Nat) (b : Byte) : (setTag s w b).poison = s.poison := rfl
@[simp] theorem setTag_free (w : Nat) (b : Byte) : (setTag s w b).free = s.free := rfl
@[simp] theorem setTag_time (w : Nat) (b : Byte) : (setTag s w b).time = s.time := rfl
@[simp] theorem setTag_rate (w : Nat) (b : Byte) : (setTag s w b).rate = s.rate := rfl
@[simp] theorem setTag_readData (w : Nat) (b : Byte) : (setTag s w b).readData = s.readData := rfl
@[simp] theorem setTag_credits (w : Nat) (b : Byte) : (setTag s w b).credits = s.credits := rfl
@[simp] theorem setTag_banks (w : Nat) (b : Byte) : (setTag s w b).banks = s.banks := rfl
@[simp] theorem setTag_img (w : Nat) (b : Byte) : (setTag s w b).img = s.img := rfl
@[simp] theorem setTag_cyc (w : Nat) (b : Byte) : (setTag s w b).cyc = s.cyc := rfl
@[simp] theorem setTag_threads (w : Nat) (b : Byte) : (setTag s w b).threads = s.threads := rfl
@[simp] theorem setTag_routes (w : Nat) (b : Byte) : (setTag s w b).routes = s.routes := rfl
@[simp] theorem setTag_pendSrc (w : Nat) (b : Byte) : (setTag s w b).pendSrc = s.pendSrc := rfl
@[simp] theorem setTag_twin (w : Nat) (b : Byte) : (setTag s w b).twin = s.twin := rfl
@[simp] theorem setTag_hist (w : Nat) (b : Byte) : (setTag s w b).hist = s.hist := rfl
@[simp] theorem setTag_erg (w : Nat) (b : Byte) : (setTag s w b).erg = s.erg := rfl
@[simp] theorem setTag_inst (w : Nat) (b : Byte) : (setTag s w b).inst = s.inst := rfl
@[simp] theorem setTag_mbox (w : Nat) (b : Byte) : (setTag s w b).mbox = s.mbox := rfl
@[simp] theorem setTag_cache (w : Nat) (b : Byte) : (setTag s w b).cache = s.cache := rfl
@[simp] theorem setTag_tlb (w : Nat) (b : Byte) : (setTag s w b).tlb = s.tlb := rfl
@[simp] theorem setTag_ioTlb (w : Nat) (b : Byte) : (setTag s w b).ioTlb = s.ioTlb := rfl
@[simp] theorem setTag_parts (w : Nat) (b : Byte) : (setTag s w b).parts = s.parts := rfl
@[simp] theorem setTag_oasis (w : Nat) (b : Byte) : (setTag s w b).oasis = s.oasis := rfl
@[simp] theorem setTag_doms (w : Nat) (b : Byte) : (setTag s w b).doms = s.doms := rfl
@[simp] theorem setTag_smp (w : Nat) (b : Byte) : (setTag s w b).smp = s.smp := rfl
@[simp] theorem setTag_trc (w : Nat) (b : Byte) : (setTag s w b).trc = s.trc := rfl
@[simp] theorem setTag_dbg (w : Nat) (b : Byte) : (setTag s w b).dbg = s.dbg := rfl
@[simp] theorem setTag_ctr (w : Nat) (b : Byte) : (setTag s w b).ctr = s.ctr := rfl
@[simp] theorem setTag_pwr (w : Nat) (b : Byte) : (setTag s w b).pwr = s.pwr := rfl
@[simp] theorem reg_setTag (w : Nat) (b : Byte) (o1 : Nat) : reg (setTag s w b) o1 = reg s o1 := rfl
@[simp] theorem fget_setTag (w : Nat) (b : Byte) (o1 : Nat) (f1 : Nat × Nat) : fget (setTag s w b) o1 f1 = fget s o1 f1 := rfl
@[simp] theorem fbit_setTag (w : Nat) (b : Byte) (o1 : Nat) (f1 : Nat × Nat) : fbit (setTag s w b) o1 f1 = fbit s o1 f1 := rfl
@[simp] theorem thr_setTag (w : Nat) (b : Byte) (i1 : Nat) : thr (setTag s w b) i1 = thr s i1 := rfl
@[simp] theorem bank_setTag (w : Nat) (b : Byte) (i1 : Nat) : bank (setTag s w b) i1 = bank s i1 := rfl
@[simp] theorem imgSt_setTag (w : Nat) (b : Byte) (i1 : Nat) : imgSt (setTag s w b) i1 = imgSt s i1 := rfl
@[simp] theorem cls_setTag (w : Nat) (b : Byte) (i1 : Nat) : cls (setTag s w b) i1 = cls s i1 := rfl
@[simp] theorem partSt_setTag (w : Nat) (b : Byte) (i1 : Nat) : partSt (setTag s w b) i1 = partSt s i1 := rfl
@[simp] theorem domSt_setTag (w : Nat) (b : Byte) (i1 : Nat) : domSt (setTag s w b) i1 = domSt s i1 := rfl
@[simp] theorem domOn_setTag (w : Nat) (b : Byte) (i1 : Nat) : domOn (setTag s w b) i1 = domOn s i1 := rfl
@[simp] theorem creditQ_setTag (w : Nat) (b : Byte) (i1 : Nat) : creditQ (setTag s w b) i1 = creditQ s i1 := rfl
@[simp] theorem rdByte_setTag (w : Nat) (b : Byte) (i1 : Nat) : rdByte (setTag s w b) i1 = rdByte s i1 := rfl
@[simp] theorem poisonAt_setTag (w : Nat) (b : Byte) (i1 : Nat) : poisonAt (setTag s w b) i1 = poisonAt s i1 := rfl

/-! ## setPoison -/

@[simp] theorem setPoison_regs (w : Nat) (b : Bool) : (setPoison s w b).regs = s.regs := rfl
@[simp] theorem setPoison_mem (w : Nat) (b : Bool) : (setPoison s w b).mem = s.mem := rfl
@[simp] theorem setPoison_tags (w : Nat) (b : Bool) : (setPoison s w b).tags = s.tags := rfl
@[simp] theorem setPoison_free (w : Nat) (b : Bool) : (setPoison s w b).free = s.free := rfl
@[simp] theorem setPoison_time (w : Nat) (b : Bool) : (setPoison s w b).time = s.time := rfl
@[simp] theorem setPoison_rate (w : Nat) (b : Bool) : (setPoison s w b).rate = s.rate := rfl
@[simp] theorem setPoison_readData (w : Nat) (b : Bool) : (setPoison s w b).readData = s.readData := rfl
@[simp] theorem setPoison_credits (w : Nat) (b : Bool) : (setPoison s w b).credits = s.credits := rfl
@[simp] theorem setPoison_banks (w : Nat) (b : Bool) : (setPoison s w b).banks = s.banks := rfl
@[simp] theorem setPoison_img (w : Nat) (b : Bool) : (setPoison s w b).img = s.img := rfl
@[simp] theorem setPoison_cyc (w : Nat) (b : Bool) : (setPoison s w b).cyc = s.cyc := rfl
@[simp] theorem setPoison_threads (w : Nat) (b : Bool) : (setPoison s w b).threads = s.threads := rfl
@[simp] theorem setPoison_routes (w : Nat) (b : Bool) : (setPoison s w b).routes = s.routes := rfl
@[simp] theorem setPoison_pendSrc (w : Nat) (b : Bool) : (setPoison s w b).pendSrc = s.pendSrc := rfl
@[simp] theorem setPoison_twin (w : Nat) (b : Bool) : (setPoison s w b).twin = s.twin := rfl
@[simp] theorem setPoison_hist (w : Nat) (b : Bool) : (setPoison s w b).hist = s.hist := rfl
@[simp] theorem setPoison_erg (w : Nat) (b : Bool) : (setPoison s w b).erg = s.erg := rfl
@[simp] theorem setPoison_inst (w : Nat) (b : Bool) : (setPoison s w b).inst = s.inst := rfl
@[simp] theorem setPoison_mbox (w : Nat) (b : Bool) : (setPoison s w b).mbox = s.mbox := rfl
@[simp] theorem setPoison_cache (w : Nat) (b : Bool) : (setPoison s w b).cache = s.cache := rfl
@[simp] theorem setPoison_tlb (w : Nat) (b : Bool) : (setPoison s w b).tlb = s.tlb := rfl
@[simp] theorem setPoison_ioTlb (w : Nat) (b : Bool) : (setPoison s w b).ioTlb = s.ioTlb := rfl
@[simp] theorem setPoison_parts (w : Nat) (b : Bool) : (setPoison s w b).parts = s.parts := rfl
@[simp] theorem setPoison_oasis (w : Nat) (b : Bool) : (setPoison s w b).oasis = s.oasis := rfl
@[simp] theorem setPoison_doms (w : Nat) (b : Bool) : (setPoison s w b).doms = s.doms := rfl
@[simp] theorem setPoison_smp (w : Nat) (b : Bool) : (setPoison s w b).smp = s.smp := rfl
@[simp] theorem setPoison_trc (w : Nat) (b : Bool) : (setPoison s w b).trc = s.trc := rfl
@[simp] theorem setPoison_dbg (w : Nat) (b : Bool) : (setPoison s w b).dbg = s.dbg := rfl
@[simp] theorem setPoison_ctr (w : Nat) (b : Bool) : (setPoison s w b).ctr = s.ctr := rfl
@[simp] theorem setPoison_pwr (w : Nat) (b : Bool) : (setPoison s w b).pwr = s.pwr := rfl
@[simp] theorem reg_setPoison (w : Nat) (b : Bool) (o1 : Nat) : reg (setPoison s w b) o1 = reg s o1 := rfl
@[simp] theorem fget_setPoison (w : Nat) (b : Bool) (o1 : Nat) (f1 : Nat × Nat) : fget (setPoison s w b) o1 f1 = fget s o1 f1 := rfl
@[simp] theorem fbit_setPoison (w : Nat) (b : Bool) (o1 : Nat) (f1 : Nat × Nat) : fbit (setPoison s w b) o1 f1 = fbit s o1 f1 := rfl
@[simp] theorem thr_setPoison (w : Nat) (b : Bool) (i1 : Nat) : thr (setPoison s w b) i1 = thr s i1 := rfl
@[simp] theorem bank_setPoison (w : Nat) (b : Bool) (i1 : Nat) : bank (setPoison s w b) i1 = bank s i1 := rfl
@[simp] theorem imgSt_setPoison (w : Nat) (b : Bool) (i1 : Nat) : imgSt (setPoison s w b) i1 = imgSt s i1 := rfl
@[simp] theorem cls_setPoison (w : Nat) (b : Bool) (i1 : Nat) : cls (setPoison s w b) i1 = cls s i1 := rfl
@[simp] theorem partSt_setPoison (w : Nat) (b : Bool) (i1 : Nat) : partSt (setPoison s w b) i1 = partSt s i1 := rfl
@[simp] theorem domSt_setPoison (w : Nat) (b : Bool) (i1 : Nat) : domSt (setPoison s w b) i1 = domSt s i1 := rfl
@[simp] theorem domOn_setPoison (w : Nat) (b : Bool) (i1 : Nat) : domOn (setPoison s w b) i1 = domOn s i1 := rfl
@[simp] theorem creditQ_setPoison (w : Nat) (b : Bool) (i1 : Nat) : creditQ (setPoison s w b) i1 = creditQ s i1 := rfl
@[simp] theorem rdByte_setPoison (w : Nat) (b : Bool) (i1 : Nat) : rdByte (setPoison s w b) i1 = rdByte s i1 := rfl
@[simp] theorem tagAt_setPoison (w : Nat) (b : Bool) (i1 : Nat) : tagAt (setPoison s w b) i1 = tagAt s i1 := rfl

/-! ## clearRange -/

@[simp] theorem clearRange_regs (lo hi : Nat) : (clearRange s lo hi).regs = s.regs := rfl
@[simp] theorem clearRange_free (lo hi : Nat) : (clearRange s lo hi).free = s.free := rfl
@[simp] theorem clearRange_time (lo hi : Nat) : (clearRange s lo hi).time = s.time := rfl
@[simp] theorem clearRange_rate (lo hi : Nat) : (clearRange s lo hi).rate = s.rate := rfl
@[simp] theorem clearRange_readData (lo hi : Nat) : (clearRange s lo hi).readData = s.readData := rfl
@[simp] theorem clearRange_credits (lo hi : Nat) : (clearRange s lo hi).credits = s.credits := rfl
@[simp] theorem clearRange_banks (lo hi : Nat) : (clearRange s lo hi).banks = s.banks := rfl
@[simp] theorem clearRange_img (lo hi : Nat) : (clearRange s lo hi).img = s.img := rfl
@[simp] theorem clearRange_cyc (lo hi : Nat) : (clearRange s lo hi).cyc = s.cyc := rfl
@[simp] theorem clearRange_threads (lo hi : Nat) : (clearRange s lo hi).threads = s.threads := rfl
@[simp] theorem clearRange_routes (lo hi : Nat) : (clearRange s lo hi).routes = s.routes := rfl
@[simp] theorem clearRange_pendSrc (lo hi : Nat) : (clearRange s lo hi).pendSrc = s.pendSrc := rfl
@[simp] theorem clearRange_hist (lo hi : Nat) : (clearRange s lo hi).hist = s.hist := rfl
@[simp] theorem clearRange_erg (lo hi : Nat) : (clearRange s lo hi).erg = s.erg := rfl
@[simp] theorem clearRange_inst (lo hi : Nat) : (clearRange s lo hi).inst = s.inst := rfl
@[simp] theorem clearRange_mbox (lo hi : Nat) : (clearRange s lo hi).mbox = s.mbox := rfl
@[simp] theorem clearRange_cache (lo hi : Nat) : (clearRange s lo hi).cache = s.cache := rfl
@[simp] theorem clearRange_tlb (lo hi : Nat) : (clearRange s lo hi).tlb = s.tlb := rfl
@[simp] theorem clearRange_ioTlb (lo hi : Nat) : (clearRange s lo hi).ioTlb = s.ioTlb := rfl
@[simp] theorem clearRange_parts (lo hi : Nat) : (clearRange s lo hi).parts = s.parts := rfl
@[simp] theorem clearRange_oasis (lo hi : Nat) : (clearRange s lo hi).oasis = s.oasis := rfl
@[simp] theorem clearRange_doms (lo hi : Nat) : (clearRange s lo hi).doms = s.doms := rfl
@[simp] theorem clearRange_smp (lo hi : Nat) : (clearRange s lo hi).smp = s.smp := rfl
@[simp] theorem clearRange_trc (lo hi : Nat) : (clearRange s lo hi).trc = s.trc := rfl
@[simp] theorem clearRange_dbg (lo hi : Nat) : (clearRange s lo hi).dbg = s.dbg := rfl
@[simp] theorem clearRange_ctr (lo hi : Nat) : (clearRange s lo hi).ctr = s.ctr := rfl
@[simp] theorem clearRange_pwr (lo hi : Nat) : (clearRange s lo hi).pwr = s.pwr := rfl
@[simp] theorem reg_clearRange (lo hi : Nat) (o1 : Nat) : reg (clearRange s lo hi) o1 = reg s o1 := rfl
@[simp] theorem fget_clearRange (lo hi : Nat) (o1 : Nat) (f1 : Nat × Nat) : fget (clearRange s lo hi) o1 f1 = fget s o1 f1 := rfl
@[simp] theorem fbit_clearRange (lo hi : Nat) (o1 : Nat) (f1 : Nat × Nat) : fbit (clearRange s lo hi) o1 f1 = fbit s o1 f1 := rfl
@[simp] theorem thr_clearRange (lo hi : Nat) (i1 : Nat) : thr (clearRange s lo hi) i1 = thr s i1 := rfl
@[simp] theorem bank_clearRange (lo hi : Nat) (i1 : Nat) : bank (clearRange s lo hi) i1 = bank s i1 := rfl
@[simp] theorem imgSt_clearRange (lo hi : Nat) (i1 : Nat) : imgSt (clearRange s lo hi) i1 = imgSt s i1 := rfl
@[simp] theorem cls_clearRange (lo hi : Nat) (i1 : Nat) : cls (clearRange s lo hi) i1 = cls s i1 := rfl
@[simp] theorem partSt_clearRange (lo hi : Nat) (i1 : Nat) : partSt (clearRange s lo hi) i1 = partSt s i1 := rfl
@[simp] theorem domSt_clearRange (lo hi : Nat) (i1 : Nat) : domSt (clearRange s lo hi) i1 = domSt s i1 := rfl
@[simp] theorem domOn_clearRange (lo hi : Nat) (i1 : Nat) : domOn (clearRange s lo hi) i1 = domOn s i1 := rfl
@[simp] theorem creditQ_clearRange (lo hi : Nat) (i1 : Nat) : creditQ (clearRange s lo hi) i1 = creditQ s i1 := rfl

/-! ## Reading after writing -/

@[simp] theorem reg_setReg_same (o : Nat) (v : Word) : reg (setReg s o v) o = v := by simp [reg, setReg]
theorem reg_setReg_ne {o o1 : Nat} (v : Word) (h : o1 ≠ o) : reg (setReg s o v) o1 = reg s o1 := by simp [reg, setReg, mget_mset_ne _ _ _ h]
theorem reg_fset_ne {o o1 : Nat} (f : Nat × Nat) (n : Nat) (h : o1 ≠ o) : reg (fset s o f n) o1 = reg s o1 := by simp [fset, reg_setReg_ne s _ h]
@[simp] theorem reg_fset_same (o : Nat) (f : Nat × Nat) (n : Nat) : reg (fset s o f n) o = putBits (reg s o) f n := by simp [fset]

/-- A field just written reads as the value's low bits. -/
theorem fget_fset_same (o : Nat) (f : Nat × Nat) (n : Nat) (h : f.2 ≤ f.1) (h1 : f.1 < 64) :
    fget (fset s o f n) o f = n % 2 ^ (f.1 + 1 - f.2) := by simp [fget, bitsOf_putBits_same _ _ h h1]

/-- Another field of the register stays. -/
theorem fget_fset_field (o : Nat) (f g : Nat × Nat) (n : Nat) (hf : f.2 ≤ f.1) (hf1 : f.1 < 64) (hg : g.2 ≤ g.1) (hg1 : g.1 < 64)
    (h : f.1 < g.2 ∨ g.1 < f.2) : fget (fset s o f n) o g = fget s o g := by
  simp [fget, bitsOf_putBits_ne _ _ hf hf1 hg hg1 h]

/-- Another register stays. -/
theorem fget_fset_ne {o o1 : Nat} (f g : Nat × Nat) (n : Nat) (h : o1 ≠ o) : fget (fset s o f n) o1 g = fget s o1 g := by
  simp [fget, reg_fset_ne s f n h]

theorem fbit_fset_ne {o o1 : Nat} (f g : Nat × Nat) (n : Nat) (h : o1 ≠ o) : fbit (fset s o f n) o1 g = fbit s o1 g := by
  simp [fbit, fget_fset_ne s f g n h]

@[simp] theorem thr_setThr_same (t : Nat) (x : Thread) : thr (setThr s t x) t = x := by simp [thr, setThr]
theorem thr_setThr_ne {t u : Nat} (x : Thread) (h : u ≠ t) : thr (setThr s t x) u = thr s u := by simp [thr, setThr, mget_mset_ne _ _ _ h]
@[simp] theorem thr_modThr_same (t : Nat) (f : Thread → Thread) : thr (modThr s t f) t = f (thr s t) := by simp [modThr]
theorem thr_modThr_ne {t u : Nat} (f : Thread → Thread) (h : u ≠ t) : thr (modThr s t f) u = thr s u := by simp [modThr, thr_setThr_ne s _ h]
@[simp] theorem bank_setBank_same (n : Nat) (x : BankSt) : bank (setBank s n x) n = x := by simp [bank, setBank]
theorem bank_setBank_ne {n m : Nat} (x : BankSt) (h : m ≠ n) : bank (setBank s n x) m = bank s m := by simp [bank, setBank, mget_mset_ne _ _ _ h]
@[simp] theorem imgSt_setImg_same (k : Nat) (x : ImgSt) : imgSt (setImg s k x) k = x := by simp [imgSt, setImg]
theorem imgSt_setImg_ne {k j : Nat} (x : ImgSt) (h : j ≠ k) : imgSt (setImg s k x) j = imgSt s j := by simp [imgSt, setImg, mget_mset_ne _ _ _ h]
@[simp] theorem cls_setCls_same (c : Nat) (x : ClassSt) : cls (setCls s c x) c = x := by simp [cls, setCls]
theorem cls_setCls_ne {c b : Nat} (x : ClassSt) (h : b ≠ c) : cls (setCls s c x) b = cls s b := by simp [cls, setCls, mget_mset_ne _ _ _ h]
@[simp] theorem partSt_setPart_same (p : Nat) (x : PartSt) : partSt (setPart s p x) p = x := by simp [partSt, setPart]
theorem partSt_setPart_ne {p q : Nat} (x : PartSt) (h : q ≠ p) : partSt (setPart s p x) q = partSt s q := by simp [partSt, setPart, mget_mset_ne _ _ _ h]
@[simp] theorem domSt_setDom_same (d v : Nat) : domSt (setDom s d v) d = v := by simp [domSt, setDom]
theorem domSt_setDom_ne {d e : Nat} (v : Nat) (h : e ≠ d) : domSt (setDom s d v) e = domSt s e := by simp [domSt, setDom, mget_mset_ne _ _ _ h]
@[simp] theorem creditQ_setCreditQ_same (q : Nat) (x : CreditQ) : creditQ (setCreditQ s q x) q = x := by simp [creditQ, setCreditQ]
theorem creditQ_setCreditQ_ne {q p : Nat} (x : CreditQ) (h : p ≠ q) : creditQ (setCreditQ s q x) p = creditQ s p := by
  simp [creditQ, setCreditQ, mget_mset_ne _ _ _ h]

/-! ## Storage -/

@[simp] theorem rdByte_wrByte_same (a : Nat) (b : Byte) : rdByte (wrByte s a b) a = b := by simp [rdByte, wrByte]
theorem rdByte_wrByte_ne {a c : Nat} (b : Byte) (h : c ≠ a) : rdByte (wrByte s a b) c = rdByte s c := by simp [rdByte, wrByte, mget_mset_ne _ _ _ h]
@[simp] theorem tagAt_setTag_same (w : Nat) (b : Byte) : tagAt (setTag s w b) w = b := by simp [tagAt, setTag]
theorem tagAt_setTag_ne {w v : Nat} (b : Byte) (h : v ≠ w) : tagAt (setTag s w b) v = tagAt s v := by simp [tagAt, setTag, mget_mset_ne _ _ _ h]
@[simp] theorem poisonAt_setPoison_same (w : Nat) (b : Bool) : poisonAt (setPoison s w b) w = b := by simp [poisonAt, setPoison]
theorem poisonAt_setPoison_ne {w v : Nat} (b : Bool) (h : v ≠ w) : poisonAt (setPoison s w b) v = poisonAt s v := by
  simp [poisonAt, setPoison, mget_mset_ne _ _ _ h]

/-- Bytes outside a written range read as before. -/
theorem rdByte_wrBytes_out (bs : List Byte) : ∀ (s : Dev) (a c : Nat), (c < a ∨ a + bs.length ≤ c) → rdByte (wrBytes s a bs) c = rdByte s c := by
  induction bs with
  | nil => intro s a c _; rfl
  | cons b bs ih =>
    intro s a c h
    simp only [wrBytes]
    rw [ih _ _ _ (by simp only [List.length_cons] at h; omega), rdByte_wrByte_ne]
    simp only [List.length_cons] at h; omega

/-- A written byte reads back. -/
theorem rdByte_wrBytes_in (bs : List Byte) : ∀ (s : Dev) (a i : Nat) (h : i < bs.length), rdByte (wrBytes s a bs) (a + i) = bs[i] := by
  induction bs with
  | nil => intro s a i h; simp at h
  | cons b bs ih =>
    intro s a i h
    simp only [wrBytes]
    cases i with
    | zero => rw [rdByte_wrBytes_out _ _ _ _ (by omega)]; simp
    | succ i =>
      have := ih (wrByte s a b) (a + 1) i (by simpa using h)
      rw [show a + (i + 1) = a + 1 + i by omega, this]; rfl

/-- Every operation on storage keeps the canonical form. -/
theorem wrByte_wf (a : Nat) (b : Byte) (h : Memory.wf s = true) : Memory.wf (wrByte s a b) = true := by
  simp only [Memory.wf, wrByte, Bool.and_eq_true] at h ⊢
  exact ⟨⟨mset_wf a b h.1.1, h.1.2⟩, h.2⟩
theorem setTag_wf (w : Nat) (b : Byte) (h : Memory.wf s = true) : Memory.wf (setTag s w b) = true := by
  simp only [Memory.wf, setTag, Bool.and_eq_true] at h ⊢
  exact ⟨⟨h.1.1, mset_wf w b h.1.2⟩, h.2⟩
theorem setPoison_wf (w : Nat) (b : Bool) (h : Memory.wf s = true) : Memory.wf (setPoison s w b) = true := by
  simp only [Memory.wf, setPoison, Bool.and_eq_true] at h ⊢
  exact ⟨h.1, mset_wf w b h.2⟩
theorem clearRange_wf (lo hi : Nat) (h : Memory.wf s = true) : Memory.wf (clearRange s lo hi) = true := by
  simp only [Memory.wf, clearRange, Bool.and_eq_true] at h ⊢
  exact ⟨⟨mclear_wf _ _ h.1.1, mclear_wf _ _ h.1.2⟩, mclear_wf _ _ h.2⟩
theorem wrBytes_wf (bs : List Byte) : ∀ (s : Dev) (a : Nat), Memory.wf s = true → Memory.wf (wrBytes s a bs) = true := by
  induction bs with
  | nil => intro s a h; exact h
  | cons b bs ih => intro s a h; exact ih _ _ (wrByte_wf s a b h)
theorem markDirty_wf (a n : Nat) (h : Memory.wf s = true) : Memory.wf (markDirty s a n) = true := by
  unfold markDirty; split <;> exact h
theorem writeWord_wf (a : Nat) (q : QWord) (h : Memory.wf s = true) : Memory.wf (writeWord s a q) = true :=
  markDirty_wf _ _ _ (setPoison_wf _ _ _ (setTag_wf _ _ _ (wrBytes_wf _ _ _ h)))
theorem writeKeepTag_wf (a : Nat) (bs : List Byte) (h : Memory.wf s = true) : Memory.wf (writeKeepTag s a bs) = true :=
  markDirty_wf _ _ _ (wrBytes_wf _ _ _ h)
theorem writeUntagged_wf (a : Nat) (bs : List Byte) (h : Memory.wf s = true) : Memory.wf (writeUntagged s a bs) = true := by
  have key : ∀ (l : List Nat) (d : Dev), Memory.wf d = true → Memory.wf (l.foldl (fun s w =>
      let s1 := setTag s w 0x08
      if decide (a ≤ 8 * w) && decide (8 * w + 8 ≤ a + bs.length) then setPoison s1 w false else s1) d) = true := by
    intro l
    induction l with
    | nil => intro d hd; exact hd
    | cons w l ih =>
      intro d hd
      apply ih
      dsimp only
      split
      · exact setPoison_wf _ _ _ (setTag_wf _ _ _ hd)
      · exact setTag_wf _ _ _ hd
  exact key _ _ (markDirty_wf _ _ _ (wrBytes_wf _ _ _ h))

end Sys2Proof.Machine
end

