-- ==== Sys2Proof/Laws/Issue.lean ====
section
/-! SUPPORT. Laws of issue and of register results: what fetching, counting and tracing can touch, and what a register result leaves. -/
namespace Sys2Proof.Machine

/-- Registers that counting and tracing may write. -/
def MetaRegs : List Nat := [TRC_STATUS, CTR_CTRL, CTR_STATUS]

/-- What counting, tracing and TLB look-ups leave as it was: threads, storage, time, partitions, domains, and every register but those of the trace hub and the collector. -/
structure MetaOnly (a b : Dev) : Prop where
  threads : b.threads = a.threads
  mem : b.mem = a.mem
  tags : b.tags = a.tags
  poison : b.poison = a.poison
  time : b.time = a.time
  cyc : b.cyc = a.cyc
  doms : b.doms = a.doms
  parts : b.parts = a.parts
  routes : b.routes = a.routes
  dbg : b.dbg = a.dbg
  ways : ∀ k, k / 65536 < 216 → mfind b.cache.ways k = mfind a.cache.ways k
  dir : b.cache.dir = a.cache.dir
  evict : b.cache.evict = a.cache.evict
  vicMode : b.cache.vicMode = a.cache.vicMode
  regs : RegsKept a b MetaRegs

namespace MetaOnly

/-- An update of parts that the frame does not name. -/
theorem of_rfl {a b : Dev} (h1 : b.threads = a.threads) (h2 : (b.mem, b.tags, b.poison) = (a.mem, a.tags, a.poison)) (h3 : (b.time, b.cyc, b.doms) = (a.time, a.cyc, a.doms))
    (h4 : (b.parts, b.routes) = (a.parts, a.routes)) (h5 : b.dbg = a.dbg) (h6 : b.cache = a.cache) (h7 : b.regs = a.regs) : MetaOnly a b := by
  simp only [Prod.mk.injEq] at h2 h3 h4
  exact ⟨h1, h2.1, h2.2.1, h2.2.2, h3.1, h3.2.1, h3.2.2, h4.1, h4.2, h5, fun _ _ => by rw [h6], by rw [h6], by rw [h6], by rw [h6], fun _ _ => by simp [reg, h7]⟩

theorem refl (a : Dev) : MetaOnly a a := of_rfl rfl rfl rfl rfl rfl rfl rfl

theorem trans {a b c : Dev} (h : MetaOnly a b) (k : MetaOnly b c) : MetaOnly a c :=
  ⟨k.threads.trans h.threads, k.mem.trans h.mem, k.tags.trans h.tags, k.poison.trans h.poison, k.time.trans h.time, k.cyc.trans h.cyc,
   k.doms.trans h.doms, k.parts.trans h.parts, k.routes.trans h.routes, k.dbg.trans h.dbg,
   fun x hx => (k.ways x hx).trans (h.ways x hx), k.dir.trans h.dir, k.evict.trans h.evict, k.vicMode.trans h.vicMode,
   fun o ho => (k.regs o ho).trans (h.regs o ho)⟩

theorem thr {a b : Dev} (h : MetaOnly a b) (t : Nat) : thr b t = Machine.thr a t := by simp [Machine.thr, h.threads]

theorem storage {a b : Dev} (h : MetaOnly a b) : StorageKept a b := by
  refine ⟨fun x => ?_, fun w => ?_, fun w => ?_⟩
  · simp [rdByte, h.mem]
  · simp [tagAt, h.tags]
  · simp [poisonAt, h.poison]

/-- A fold of such operations is one. -/
theorem foldl {β : Type} (f : Dev → β → Dev) (hf : ∀ s e, MetaOnly s (f s e)) : ∀ (l : List β) (s : Dev), MetaOnly s (l.foldl f s) := by
  intro l
  induction l with
  | nil => intro s; exact refl s
  | cons e l ih => intro s; exact (hf s e).trans (ih _)

end MetaOnly

/-- A write of one of the collector's or the hub's registers. -/
theorem fset_meta (s : Dev) (o : Nat) (f : Nat × Nat) (n : Nat) (h : o ∈ MetaRegs) : MetaOnly s (fset s o f n) :=
  ⟨rfl, rfl, rfl, rfl, rfl, rfl, rfl, rfl, rfl, rfl, fun _ _ => rfl, rfl, rfl, rfl, fun _ h1 => reg_fset_ne s f n (fun e => h1 (e ▸ h))⟩

theorem raise_meta (s : Dev) (src : Nat) : MetaOnly s (raise s src) := by
  unfold raise; split
  · exact MetaOnly.of_rfl rfl rfl rfl rfl rfl rfl rfl
  · exact MetaOnly.refl s

theorem setCtrVal_meta (s : Dev) (i v : Nat) : MetaOnly s (setCtrVal s i v) := MetaOnly.of_rfl rfl rfl rfl rfl rfl rfl rfl
theorem setCtrCfg_meta (s : Dev) (i v : Nat) : MetaOnly s (setCtrCfg s i v) := MetaOnly.of_rfl rfl rfl rfl rfl rfl rfl rfl

theorem ctrAdd_meta : ∀ (fuel : Nat) (s : Dev) (i n : Nat), MetaOnly s (ctrAdd fuel s i n)
  | 0, s, _, _ => MetaOnly.refl s
  | fuel + 1, s, i, n => by
    have h1 := setCtrVal_meta s i ((ctrVal s i + n) % 2 ^ 48)
    simp only [ctrAdd]
    split
    · exact h1
    · have h2 := h1.trans (setCtrCfg_meta _ i (if nbit (ctrCfg s i) 4 then ctrCfg s i else ctrCfg s i + 16))
      have h3 : MetaOnly s (if nbit (ctrCfg s i) 3 = true then raise (setCtrCfg (setCtrVal s i ((ctrVal s i + n) % 2 ^ 48)) i
          (if nbit (ctrCfg s i) 4 then ctrCfg s i else ctrCfg s i + 16)) 0xE60
          else setCtrCfg (setCtrVal s i ((ctrVal s i + n) % 2 ^ 48)) i (if nbit (ctrCfg s i) 4 then ctrCfg s i else ctrCfg s i + 16)) := by
        split
        · exact h2.trans (raise_meta _ _)
        · exact h2
      split
      · exact h3.trans (ctrAdd_meta fuel _ _ _)
      · exact h3

theorem countCore_meta (s : Dev) (t ev : Nat) : MetaOnly s (countCore s t ev) := by
  unfold countCore
  apply MetaOnly.foldl
  intro s e
  dsimp only
  split <;> split <;> first | exact ctrAdd_meta _ _ _ _ | exact MetaOnly.refl _

theorem countEv_meta (s : Dev) (b k ev n : Nat) : MetaOnly s (countEv s b k ev n) := by
  unfold countEv
  apply MetaOnly.foldl
  intro s e
  split
  · exact ctrAdd_meta _ _ _ _
  · exact MetaOnly.refl _

theorem tlbLookup_meta {s s1 : Dev} {t va pa : Nat} {k : AccKind} {sup : Bool} (h : tlbLookup s t va k sup = some (pa, s1)) : MetaOnly s s1 := by
  have key : ∀ c x, MetaOnly s (setTlb s c x) := fun c x => MetaOnly.of_rfl rfl rfl rfl rfl rfl rfl rfl
  unfold tlbLookup at h
  dsimp only at h
  repeat' split at h
  all_goals first
    | (simp only [Option.some.injEq, Prod.mk.injEq] at h; rw [← h.2]; exact key _ _)
    | exact absurd h (by simp)

/-! ## Trace -/

theorem trcAdmit_meta {s s1 : Dev} {prio : Nat} {p : List Byte} (h : trcAdmit s prio p = some s1) : MetaOnly s s1 := by
  simp only [trcAdmit] at h
  split at h
  · exact absurd h (by simp)
  · simp only [Option.some.injEq] at h
    rw [← h]; exact MetaOnly.of_rfl rfl rfl rfl rfl rfl rfl rfl

theorem setTrcSrc_meta (s : Dev) (src : Nat) (x : TrcSrc) : MetaOnly s (setTrcSrc s src x) := MetaOnly.of_rfl rfl rfl rfl rfl rfl rfl rfl

theorem trcDrop_meta (s : Dev) (src : Nat) : MetaOnly s (trcDrop s src) := setTrcSrc_meta _ _ _

theorem trcSend_meta (s : Dev) (src kind : Nat) (p : List Byte) : MetaOnly s (trcSend s src kind p) := by
  unfold trcSend
  dsimp only
  split
  · exact MetaOnly.refl s
  · split
    · exact trcDrop_meta _ _
    · next s1 h1 =>
      have m1 : MetaOnly s s1 := by
        split at h1
        · simp only [Option.map_eq_some_iff] at h1
          obtain ⟨d, hd, rfl⟩ := h1
          exact (trcAdmit_meta hd).trans (setTrcSrc_meta _ _ _)
        · simp only [Option.some.injEq] at h1
          rw [← h1]; exact MetaOnly.refl s
      split
      · exact m1.trans (trcDrop_meta _ _)
      · next s2 h2 =>
        have m2 : MetaOnly s1 s2 := by
          split at h2
          · simp only [Option.map_eq_some_iff] at h2
            obtain ⟨d, hd, rfl⟩ := h2
            exact (trcAdmit_meta hd).trans (setTrcSrc_meta _ _ _)
          · simp only [Option.some.injEq] at h2
            rw [← h2]; exact MetaOnly.refl s1
        split
        · exact (m1.trans m2).trans (trcDrop_meta _ _)
        · next s3 h3 => exact ((m1.trans m2).trans (trcAdmit_meta h3)).trans (setTrcSrc_meta _ _ _)

theorem trcHub_meta (s : Dev) (kind : Nat) (p : List Byte) : MetaOnly s (trcHub s kind p) := by
  unfold trcHub
  split
  · cases h : trcAdmit s 3 (packet 0x7FF kind p) with
    | none => exact MetaOnly.refl s
    | some d => exact trcAdmit_meta h
  · exact MetaOnly.refl s

theorem trcFlush_meta (s : Dev) (src : Nat) : MetaOnly s (trcFlush s src) := by
  unfold trcFlush
  dsimp only
  split
  · exact MetaOnly.refl s
  · exact (setTrcSrc_meta _ _ _).trans (trcSend_meta _ _ _ _)

theorem trcBranch_meta (s : Dev) (t : Nat) (taken : Bool) : MetaOnly s (trcBranch s t taken) := by
  unfold trcBranch
  split
  · dsimp only
    split
    · exact (setTrcSrc_meta _ _ _).trans (trcFlush_meta _ _)
    · exact setTrcSrc_meta _ _ _
  · exact MetaOnly.refl s

theorem trcTarget_meta (s : Dev) (t a : Nat) : MetaOnly s (trcTarget s t a) := by
  unfold trcTarget
  split
  · exact (trcFlush_meta _ _).trans (trcSend_meta _ _ _ _)
  · exact MetaOnly.refl s

theorem trcData_meta (s : Dev) (t : Nat) (store tagged : Bool) (va : Nat) (q : QWord) : MetaOnly s (trcData s t store tagged va q) := by
  unfold trcData
  split
  · exact (trcFlush_meta _ _).trans (trcSend_meta _ _ _ _)
  · exact MetaOnly.refl s

theorem snapCause_meta (s : Dev) (cause : Nat) : MetaOnly s (snapCause s cause) := by
  have ctr : ∀ (d : Dev) (x : CtrSt), MetaOnly d { d with ctr := x } := fun d x => MetaOnly.of_rfl rfl rfl rfl rfl rfl rfl rfl
  unfold snapCause
  split
  · split
    · split
      · exact ctr _ _
      · exact fset_meta _ _ _ _ (by simp [MetaRegs])
    · exact fset_meta _ _ _ _ (by simp [MetaRegs])
  · exact (fset_meta _ _ _ _ (by simp [MetaRegs])).trans (ctr _ _)

theorem trcTrigger_meta (s : Dev) (kind : Nat) : MetaOnly s (trcTrigger s kind) := by
  unfold trcTrigger
  split
  · dsimp only
    have h1 := (trcHub_meta s 0x0C (beBytes 1 kind ++ beBytes 8 (nowNs s))).trans (fset_meta _ TRC_STATUS TRC_STATUS_STATE 2 (by simp [MetaRegs]))
    have trc : ∀ (d : Dev) (x : TrcSt), MetaOnly d { d with trc := x } := fun d x => MetaOnly.of_rfl rfl rfl rfl rfl rfl rfl rfl
    unfold snapTrig
    split
    · exact (h1.trans (trc _ _)).trans (snapCause_meta _ _)
    · exact h1.trans (trc _ _)
  · exact MetaOnly.refl s

theorem cmpTrigger_meta (s : Dev) (h : List CmpSt) : MetaOnly s (cmpTrigger s h) := by
  unfold cmpTrigger
  split
  · exact trcTrigger_meta _ _
  · exact MetaOnly.refl s

/-! ## The fetch -/

/-- A change of cache state that keeps the tracked lines, the directory and the eviction buffers. -/
theorem modCache_meta (s : Dev) (f : CacheSt → CacheSt) (h : ∀ k, k / 65536 < 216 → mfind (f s.cache).ways k = mfind s.cache.ways k)
    (h1 : (f s.cache).dir = s.cache.dir) (h2 : (f s.cache).evict = s.cache.evict) (h3 : (f s.cache).vicMode = s.cache.vicMode) : MetaOnly s (modCache s f) :=
  ⟨rfl, rfl, rfl, rfl, rfl, rfl, rfl, rfl, rfl, rfl, h, h1, h2, h3, fun _ _ => rfl⟩

theorem cTouch_meta (s : Dev) (cid line way : Nat) : MetaOnly s (cTouch s cid line way) := by
  unfold cTouch; exact modCache_meta s _ (fun _ _ => rfl) rfl rfl rfl

theorem cVictim_meta {s s1 : Dev} {cid line w : Nat} {l : List Nat} (h : cVictim s cid line l = some (w, s1)) : MetaOnly s s1 := by
  unfold cVictim at h
  split at h
  · exact absurd h (by simp)
  · split at h <;> simp only [Option.some.injEq, Prod.mk.injEq] at h <;> rw [← h.2]
    · exact MetaOnly.refl s
    · exact modCache_meta s _ (fun _ _ => rfl) rfl rfl rfl

/-- A fill of an instruction cache touches no tracked line. -/
theorem fillL1I_meta (s : Dev) (core line : Nat) : MetaOnly s (fillL1I s core line) := by
  unfold fillL1I
  split
  · exact MetaOnly.refl s
  · split
    · exact MetaOnly.refl s
    · next w s1 h =>
      have put : MetaOnly s1 (cPut s1 (l1iId core) w { line := line }) := by
        unfold cPut
        refine modCache_meta s1 _ (fun k hk => ?_) rfl rfl rfl
        have hne : k ≠ wayKey (l1iId core) line w := by
          rintro rfl
          simp only [wayKey, setKey, l1iId] at hk
          omega
        show mfind (mput _ _ _) k = _
        rw [mput, mfind_mins_ne _ _ hne, mfind_mdel_ne _ hne]
      exact ((cVictim_meta h).trans put).trans (cTouch_meta _ _ _ _)

theorem fetched_meta (s : Dev) (t line : Nat) : MetaOnly s (fetched s t line) :=
  ((modCache_meta s _ (fun _ _ => rfl) rfl rfl rfl).trans (modCache_meta _ _ (fun _ _ => rfl) rfl rfl rfl)).trans (fillL1I_meta _ _ _)

theorem nextLine_meta (s : Dev) (t line : Nat) : MetaOnly s (nextLine s t line) := by
  unfold nextLine wantPrefetch
  split
  · exact MetaOnly.refl s
  · split
    · exact MetaOnly.refl s
    · exact modCache_meta s _ (fun _ _ => rfl) rfl rfl rfl

/-- A fetch that is served touches counters, replacement state, the instruction cache and the prefetch buffer. -/
theorem fetchLine_meta {s s1 : Dev} {t line : Nat} (h : fetchLine s t line = some s1) : MetaOnly s s1 := by
  unfold fetchLine at h
  dsimp only at h
  split at h
  · simp only [Option.some.injEq] at h; rw [← h]; exact cTouch_meta _ _ _ _
  · split at h
    · simp only [Option.some.injEq] at h; rw [← h]
      exact (((countCore_meta _ _ _).trans (modCache_meta _ _ (fun _ _ => rfl) rfl rfl rfl)).trans (countCore_meta _ _ _)).trans (fetched_meta _ _ _)
    · split at h
      · simp only [Option.some.injEq] at h; rw [← h]
        exact ((((countCore_meta _ _ _).trans (cTouch_meta _ _ _ _)).trans (countEv_meta _ _ _ _ _)).trans (fetched_meta _ _ _)).trans (nextLine_meta _ _ _)
      · split at h
        · simp only [Option.some.injEq] at h; rw [← h]
          exact (countCore_meta _ _ _).trans (fetched_meta _ _ _)
        · split at h
          · exact absurd h (by simp)
          · simp only [Option.some.injEq] at h; rw [← h]
            exact ((countCore_meta _ _ _).trans (countEv_meta _ _ _ _ _)).trans (fetched_meta _ _ _)

/-! ## Issue -/

/-- Everything issue does before an instruction runs: it counts, fetches and may trigger the trace; the thread was free to issue. -/
theorem issue_go {d d1 : Dev} {t : Nat} {srcs : List GReg} (h : issue d t srcs = .go d1) :
    MetaOnly d d1 ∧ canIssue (thr d t) = true ∧ (∀ n, (thr d t).slot ≠ .annul n) := by
  unfold issue at h
  dsimp only at h
  split at h
  · exact absurd h (by simp)
  · next hc =>
    split at h
    · exact absurd h (by simp)
    · split at h
      · exact absurd h (by simp)
      · next hs =>
        split at h
        · exact absurd h (by simp)
        · split at h
          · exact absurd h (by simp)
          · next hl =>
            split at h
            · exact absurd h (by simp)
            · split at h
              · exact absurd h (by simp)
              · next hf =>
                split at h
                · exact absurd h (by simp)
                · simp only [Issue.go.injEq] at h
                  refine ⟨?_, by simpa using hc, fun n hn => hs n hn⟩
                  rw [← h]
                  exact (((tlbLookup_meta hl).trans (fetchLine_meta hf)).trans (cmpTrigger_meta _ _)).trans (countCore_meta _ _ _)

/-- An instruction that issues runs on a state that differs in counters, TLBs, instruction caches, prefetch buffers and trace only. -/
theorem onInsn_of_issues {d : Dev} {t : Nat} {srcs : List GReg} (h : Issues d t srcs) (f : Dev → Dev) :
    ∃ d1, onInsn d t srcs f = f d1 ∧ MetaOnly d d1 ∧ canIssue (thr d t) = true ∧ (∀ n, (thr d t).slot ≠ .annul n) := by
  obtain ⟨h0, d1, h1⟩ := h
  obtain ⟨hm, hc, hs⟩ := issue_go h1
  exact ⟨d1, by simp [onInsn, h0, h1], hm, hc, hs⟩

/-! ## Register results -/

theorem mget_setGpr (x : Thread) (n : Nat) (q : QWord) (r : GReg) : gpr (setGpr x n q) r = if r.val = n ∧ n ≠ 0 then q else gpr x r := by
  unfold setGpr
  split
  · next h => simp [h]
  · next h =>
    unfold gpr
    by_cases hr : r.val = 0
    · have : ¬ r.val = n := fun e => h (e ▸ hr)
      simp [hr, Ne.symm h]
    · by_cases e : r.val = n
      · subst e; simp [hr]
      · simp [hr, e, mget_mset_ne _ _ _ e]

theorem thr_dbg (d : Dev) (x : DbgSt) (u : Nat) : thr { d with dbg := x } u = thr d u := rfl

/-- A step that waits for an instruction may end: run state and the step's marks of the thread may change, nothing else of any thread. -/
theorem stepEnd_thr (d : Dev) (t : Nat) :
    ∃ a b c e, thr (stepEnd d t) t = { thr d t with st := a, resume := b, stepping := c, stepWait := e } := by
  unfold stepEnd
  dsimp only
  split
  · split
    · exact ⟨(thr d t).st, (thr d t).resume, (thr d t).stepping, true, thr_modThr_same ..⟩
    · split
      · exact ⟨.haltedDebug, .running, false, false, (thr_dbg ..).trans (thr_modThr_same ..)⟩
      · exact ⟨.haltedDebug, .running, false, false, thr_modThr_same ..⟩
  · exact ⟨(thr d t).st, (thr d t).resume, (thr d t).stepping, (thr d t).stepWait, rfl⟩

theorem stepEnd_others (d : Dev) (t : Nat) : OthersKept d (stepEnd d t) t := by
  intro u hu
  unfold stepEnd
  dsimp only
  split
  · split
    · exact thr_modThr_ne _ _ hu
    · split
      · exact (thr_dbg ..).trans (thr_modThr_ne _ _ hu)
      · exact thr_modThr_ne _ _ hu
  · rfl

theorem stepEnd_storage (d : Dev) (t : Nat) : (stepEnd d t).mem = d.mem ∧ (stepEnd d t).tags = d.tags ∧ (stepEnd d t).poison = d.poison ∧
    (stepEnd d t).regs = d.regs := by
  unfold stepEnd
  dsimp only
  split
  · split
    · exact ⟨rfl, rfl, rfl, rfl⟩
    · split <;> exact ⟨rfl, rfl, rfl, rfl⟩
  · exact ⟨rfl, rfl, rfl, rfl⟩

theorem nextPc_keeps (x : Thread) : ∃ p, nextPc x = { x with pc := p, slot := .none } := by
  unfold nextPc
  split <;> exact ⟨_, rfl⟩

/-- The end of an instruction: the program counter moves on, and a step that waits for it may end. -/
theorem advance_thr (d : Dev) (t : Nat) :
    ∃ a b c e, thr (advance d t) t = { thr d t with pc := (nextPc (thr d t)).pc, slot := .none, st := a, resume := b, stepping := c, stepWait := e } := by
  obtain ⟨a, b, c, e, h⟩ := stepEnd_thr (modThr d t nextPc) t
  obtain ⟨p, hp⟩ := nextPc_keeps (thr d t)
  refine ⟨a, b, c, e, ?_⟩
  unfold advance
  rw [h, thr_modThr_same, hp]

theorem advance_frame (d : Dev) (t : Nat) : PlainFrame d (advance d t) t := by
  obtain ⟨a, b, c, e, h⟩ := advance_thr d t
  have hs := stepEnd_storage (modThr d t nextPc) t
  refine ⟨?_, ?_, ?_, ?_, ?_, ?_, ?_⟩
  · rw [h]; unfold SpecialKept; simp
  · rw [h]
  · rw [h]
  · rw [h]
  · rw [h]
  · intro u hu
    exact (stepEnd_others _ _ u hu).trans (thr_modThr_ne _ _ hu)
  · refine ⟨fun x => ?_, fun w => ?_, fun w => ?_⟩
    · show rdByte (stepEnd _ t) x = _; simp [rdByte, hs.1]
    · show tagAt (stepEnd _ t) w = _; simp [tagAt, hs.2.1]
    · show poisonAt (stepEnd _ t) w = _; simp [poisonAt, hs.2.2.1]

theorem advance_gpr (d : Dev) (t : Nat) (r : GReg) : gpr (thr (advance d t) t) r = gpr (thr d t) r := by
  obtain ⟨a, b, c, e, h⟩ := advance_thr d t
  rw [h]; rfl

/-- A register result that does not trap, in one step: from the state in which the instruction runs. -/
theorem result_spec (d : Dev) (t w : Nat) (rd : GReg) (q : QWord) (h : trapsOn (thr d t).qmode q.tag = false) :
    RegisterResult d (result d t w rd q) t rd q := by
  have e : result d t w rd q = advance (modThr d t (fun x => setGpr x rd.val ⟨q.val, resultTag (thr d t).qmode q.tag⟩)) t := by
    simp only [result, resultWith, h, Bool.false_eq_true, if_false]; rfl
  obtain ⟨f1, f2, f3, f4, f5, f6, f7⟩ := advance_frame (modThr d t (fun x => setGpr x rd.val ⟨q.val, resultTag (thr d t).qmode q.tag⟩)) t
  have k : ∃ g ac, setGpr (thr d t) rd.val ⟨q.val, resultTag (thr d t).qmode q.tag⟩ = { thr d t with gpr := g, accs := ac } := by
    unfold setGpr
    split
    · exact ⟨(thr d t).gpr, (thr d t).accs, rfl⟩
    · exact ⟨_, _, rfl⟩
  obtain ⟨g, ac, k⟩ := k
  rw [thr_modThr_same, k] at f1 f2 f3 f4 f5
  rw [e]
  refine ⟨fun r => ?_, f1, f2, f3, f4, ?_, ?_, ?_⟩
  · rw [advance_gpr, thr_modThr_same, mget_setGpr]
    unfold gprAfter
    by_cases h0 : r = rd
    · subst h0
      by_cases h1 : r = 0
      · simp [h1]
      · have : r.val ≠ 0 := fun h => h1 (Fin.ext h)
        simp [h1, this]
    · have : ¬ r.val = rd.val := fun h => h0 (Fin.ext h)
      simp [h0, this]
  · rw [f5]
    unfold nextPc
    cases (thr d t).slot <;> simp
  · intro u hu; exact (f6 u hu).trans (thr_modThr_ne _ _ hu)
  · exact f7

/-- `RegisterResult` may start before the counting and tracing of issue. -/
theorem RegisterResult_of_meta {a b c : Dev} {t : Nat} {rd : GReg} {q : QWord} (h : MetaOnly a b) (k : RegisterResult b c t rd q) :
    RegisterResult a c t rd q := by
  obtain ⟨k1, k2, k3, k4, k5, k6, k7, k8, k9, k10⟩ := k
  have e := h.thr t
  have st := h.storage
  rw [e] at k1 k2 k3 k4 k5 k6
  exact ⟨k1, k2, k3, k4, k5, k6, fun u hu => (k7 u hu).trans (h.thr u), fun x => (k8 x).trans (st.1 x), fun x => (k9 x).trans (st.2.1 x),
    fun x => (k10 x).trans (st.2.2 x)⟩

end Sys2Proof.Machine
end

