-- ==== Sys2Proof/Tests/Slice0.lean ====
section
/-! SUPPORT. Slice0: the smoke tests of WellFormed, words and values of the spec's worked examples, and for each statement witnesses that meet its hypotheses. -/
namespace Sys2Proof.Tests
open Sys2Proof Sys2Proof.Machine
set_option maxRecDepth 100000
set_option linter.unusedVariables false

/-! ## Reading a hypothesis off an evaluation -/

theorem issues_of {d : Dev} {t : Nat} {l : List GReg} (h : (!(mapStarved d t) && match issue d t l with | .go _ => true | _ => false) = true) : Issues d t l := by
  rw [Bool.and_eq_true] at h
  refine ⟨by simpa using h.1, ?_⟩
  cases hi : issue d t l <;> simp [hi] at h ⊢
theorem reaches_of {d : Dev} {t : Nat} {l : List GReg} {va n : Nat} {k : AccKind} {pa : Nat}
    (h : (!(mapStarved d t) && !(atomicPending (thr d t)) && match issue d t l with | .go d1 => (match locate d1 t va n k with | .at_ p _ => p == pa | _ => false) | _ => false) = true) :
    Reaches d t l va n k pa := by
  simp only [Bool.and_eq_true] at h
  refine ⟨by simpa using h.1.1, by simpa using h.1.2, ?_⟩
  cases hi : issue d t l with
  | go d1 =>
    cases hl : locate d1 t va n k with
    | at_ p d2 => simp [hi, hl] at h; exact ⟨d1, d2, rfl, by rw [hl, h.2]⟩
    | _ => simp [hi, hl] at h
  | _ => simp [hi] at h
theorem entry_of {d : Dev} {t v : Nat} {i : ExcInfo} {pa h : Nat}
    (hb : (let x := thr d t
           let d1 := modThr (countCore d t 0x0D) t (fun x => { x with ssp := x.ssp - 64, emerg := false })
           drained x && !x.emerg && decide (64 ≤ x.ssp) && decide (x.stackLimit ≤ x.ssp - 64) &&
             (match translateNow d1 t (x.ssp - 64) .store true with | .ok (p, _) => p == pa | _ => false) &&
             (match pushFrame d1 t (x.ssp - 64) false (frameWords v i x.ssp (stateWord x)) with
              | .ok d3 => (match enterHandler d3 t v with | .ok (_, k) => k == h | _ => false)
              | _ => false)) = true) : EntryGoes d t v i pa h := by
  simp only [Bool.and_eq_true] at hb
  obtain ⟨⟨⟨⟨⟨h1, h2⟩, h3⟩, h4⟩, h5⟩, h6⟩ := hb
  refine ⟨h1, by simpa using h2, by simpa using h3, by simpa using h4, ?_, ?_⟩
  · split at h5
    · next p d2 he => exact ⟨d2, by rw [he, eq_of_beq h5]⟩
    · cases h5
  · split at h6
    · next d3 he =>
      split at h6
      · next d4 k hk => exact ⟨d3, d4, he, by rw [hk, eq_of_beq h6]⟩
      · cases h6
    · cases h6
theorem all_between {a b : Nat} {P : Nat → Prop} [DecidablePred P] (h : (List.range (b - a)).all (fun k => decide (P (a + k))) = true) :
    ∀ j, a ≤ j → j < b → P j := by
  intro j h1 h2
  have := List.all_eq_true.1 h (j - a) (List.mem_range.2 (by omega))
  simpa [Nat.add_sub_cancel' h1] using this
theorem all_upto {a b : Nat} {P : Nat → Prop} [DecidablePred P] (h : (List.range (b + 1 - a)).all (fun k => decide (P (a + k))) = true) :
    ∀ j, a ≤ j → j ≤ b → P j := fun j h1 h2 => all_between h j h1 (by omega)
theorem all_of_core {c : Nat} {P : Nat → Prop} [DecidablePred P] (h : (List.range 8).all (fun k => decide (P (8 * c + k))) = true) :
    ∀ t, t / 8 = c → P t := fun t ht => all_between (a := 8 * c) (b := 8 * c + 8) (by simpa using h) t (by omega) (by omega)
theorem no_abandon {d : Dev} {k : Nat} (h : (fbit d (IMG_ABANDON k 0) IMG_ABANDON_BUSY || fbit d (IMG_ABANDON k 1) IMG_ABANDON_BUSY) = false) :
    ∀ r st, busyAbandon d k r st = false := by
  rw [Bool.or_eq_false_iff] at h
  intro r st; simp [busyAbandon, h.1, h.2]
def ent : TlbEnt := { page := 0, size := 30, perm := 7, phys := 0 }
def base : Dev :=
  fillL1I (
  fset { doms := (rangeFrom 0 79).map (fun d => (d, 2)), tlb := [(0, { itlb := [(0, ent)], dtlb := [(0, ent)] })], parts := [(0, { s2 := [⟨0, 0, 2 ^ 30, 7⟩], dramSize := 2 ^ 30 })] } (MC_STATUS 0) MC_STATUS_CAPACITY 16) 0 64
def th0 : Thread := { st := .running, sup := true, pc := 0x1000, gpr := [(1, ⟨7, 0⟩), (2, ⟨5, 0⟩), (3, ⟨1, 0⟩)], ssp := 0x8000, vbr := 0x2000, stackLimit := 0x4000 }
def run0 : State := { dev := setThr base 0 th0 }

/-! ## Operands that WellFormed refuses -/

theorem test_refuses_long_sweep : wellFormed (.sweeperVisit 0 131073) = false := by decide
theorem test_refuses_empty_frame : wellFormed (.frameRxStart 0 false []) = false := by decide
theorem test_refuses_short_write_data : wellFormed (.pcieInboundRequest 0 true 0 2 [7]) = false := by decide
theorem test_refuses_empty_request : wellFormed (.pcieInboundRequest 0 false 0 0 []) = false := by decide
theorem test_refuses_empty_heartbeat : wellFormed (.heartbeat 0 [] 0 0) = false := by decide
theorem test_refuses_empty_arrival_map : wellFormed (.arrivalMap 0 []) = false := by decide
theorem test_refuses_empty_fill : wellFormed (.frameFill 0 []) = false := by decide
theorem test_refuses_empty_digest : wellFormed (.digestMessage 0 []) = false := by decide
theorem test_refuses_empty_journal : wellFormed (.journalMsg 0 []) = false := by decide
theorem test_refuses_empty_state_copy : wellFormed (.stateCopy 0 []) = false := by decide
theorem test_refuses_line_number : wellFormed (.directoryTransaction 0 (2 ^ 40) .load .clean) = false := by decide
theorem test_refuses_empty_io_write : wellFormed (.ioWrite ⟨0, 0⟩ ⟨[], []⟩ 0 none) = false := by decide
theorem test_refuses_io_write_across_pages : wellFormed (.ioWrite ⟨0, 4095⟩ ⟨[1, 2], []⟩ 0 none) = false := by decide
theorem test_refuses_way_of_l1 : wellFormed (.cacheScrub (.l1 0) [(none, .tagLost 8)]) = false := by decide
theorem test_refuses_data_length : wellFormed (.loaderData 0 0 [1, 2] true false) = false := by decide
theorem test_refuses_bad_word_twice : wellFormed (.darningRegion (.bank 0) 0 0 [5, 5]) = false := by decide

/-! ## The encoded loop of class 0 (10, worked example), and words written out from R368 -/

theorem test_loop_ld : decodeInsn 0 0x0000A2A0 = some (.ld 0 5 10 0) := by decide
theorem test_loop_addi : decodeInsn 0 0x0010A508 = some (.addi 0 10 10 8) := by decide
theorem test_loop_addi_minus_one : decodeInsn 0 0x7FFEB588 = some (.addi 0 11 11 0x3FFF) := by decide
theorem test_loop_fmul : decodeInsn 0 0x100E5302 = some (.fmul 0 .b64 6 5 7) := by decide
theorem test_loop_fadd : decodeInsn 0 0x00126402 = some (.fadd 0 .b64 8 6 9) := by decide
theorem test_loop_bne : decodeInsn 0 0xFFFF45C1 = some (.bne 0 11 false 0x7FFFA) := by decide
theorem test_loop_bne_annulling : decodeInsn 0 0xFFFF55C1 = some (.bne 0 11 true 0x7FFFA) := by decide
theorem test_loop_st : decodeInsn 0 0x7FF0C428 = some (.st 0 8 12 0x3FF8) := by decide
/-- FN 0x01, rs3 0, rs2 2, rs1 1, rd 3, OP 0x01. -/
theorem test_sub_word : decodeInsn 0 0b00001_00000_00010_00001_00011_0000001 = some (.sub 0 3 1 2) := by decide
/-- IMM20, rd 31, OP 0x48. -/
theorem test_jal_word : decodeInsn 0 0b00000000000000000101_11111_1001000 = some (.jal 0 31 5) := by decide
/-- Bit 31 of format I is zero (R369). -/
theorem test_format_i_bit_31 : decodeInsn 0 0x8010A508 = none := by decide

/-! ## Quality tags (02, worked example of the mass flow) -/

theorem test_tag_product : combine [0xC4, 0xA1] = 0xA1 := by decide
theorem test_tag_void_is_neutral : combine [0xA1, 0x00] = 0xA1 := by decide
theorem test_tag_aged : ageTagWith 0xA1 (ageTag 0 3 3) = 0xB1 := by decide
theorem test_tag_beyond_the_limit : ageTagWith 0xA1 (ageTag 0 4 3) = 0x51 := by decide
theorem test_tag_zero_times_infinity : combineFault [0xC4, 0xA1] true = 0x69 := by decide

/-! ## Register addresses (21, worked example of the class 0 supervisor) -/

theorem test_address_overrun : CYC_OVERRUN 0 = 0x00200138 := by decide
theorem test_address_abandon : IMG_ABANDON 1 0 = 0x00310030 := by decide
theorem test_address_port_counter : PORT_CNT 17 7 = 0x01110138 := by decide
theorem test_address_directory_broadcast : MC_DIR_BCAST 1 = 0x04800158 := by decide
theorem test_no_register : (findReg 0x00200150).isNone = true := by decide

/-! ## One step -/

/-- The queue answers first in, first out. -/
theorem test_step_takes_the_front : (match step { run0 with pending := [.add 0 3 1 2, .sub 0 4 1 2] } with
    | .next s => decide (s.pending = [.sub 0 4 1 2] ∧ rv s.dev 0 3 = 12) | _ => false) = true := by decide +kernel

/-! ## Witnesses: for each statement a state and operands that meet the hypotheses of its clauses -/

theorem witness_StepTakesFrontCommand : ({ run0 with pending := [.add 0 3 1 2] } : State).pending = .add 0 3 1 2 :: [] ∧ run0.pending = [] ∧ 0 ≤ run0.dev.rate := by decide +kernel

theorem witness_StepKeepsQueueWellFormed : ∃ s', ({ run0 with pending := [.add 0 3 1 2] } : State).pending.all wellFormed = true ∧
    step { run0 with pending := [.add 0 3 1 2] } = .next s' := ⟨_, by decide, rfl⟩

theorem witness_StepKeepsMemoryCanonical : ∃ s', Memory.wf ({ run0 with dev := setTag (wrByte run0.dev 0x1000 7) 0x200 5 } : State).dev = true ∧
    step { run0 with dev := setTag (wrByte run0.dev 0x1000 7) 0x200 5 } = .next s' := ⟨_, by decide +kernel, rfl⟩

theorem witness_DecodeOfEncode : encodeInsn (.ld 0 5 10 0) = some 0x0000A2A0 := by decide

theorem witness_EncodeOfDecode : 0xFFFF45C1 < 2 ^ 32 ∧ decodeInsn 0 0xFFFF45C1 = some (.bne 0 11 false 0x7FFFA) := by decide

namespace F01
def run2 : State := { dev := setThr base 0 { th0 with qmode := 2, gpr := [(1, ⟨7, 0⟩), (2, ⟨5, 0⟩), (3, ⟨2 ^ 63 - 1, 0⟩), (5, ⟨9, mkTag 1 5 0 0⟩)] } }
def fp0 (en q : Nat) : State := { dev := setThr base 0 { th0 with qmode := q, fpcsr := en * 128 + 4, gpr := [(1, ⟨0x3FF0000000000000, 0⟩), (2, ⟨0x4008000000000000, 0⟩), (3, ⟨0x3FF0000000000000, 0⟩), (5, ⟨0x7FF8000000000001, 0⟩), (6, ⟨0x3FF00000, 0⟩)] } }
def stb : Thread → Thread := fun x => { x with storeBuf := [{ id := 0, pa := 0x100, bytes := 8 }] }
def fpt (en : Nat) : State := { dev := setThr (fp0 en 0).dev 0 (stb (thr (fp0 en 0).dev 0)) }

theorem witness_IntegerResults :
  (let s : State := run0; let t : Thr := 0; let a : GReg := 1; let b : GReg := 2; let g := combine [rt s.dev t.val a, rt s.dev t.val b]; (Issues s.dev t.val [a, b]) ∧ trapsOn (thr s.dev t.val).qmode g = false) :=
  ⟨issues_of (by decide +kernel), by decide +kernel⟩

theorem witness_CheckedResults :
  (let s : State := run0; let t : Thr := 0; let rd : GReg := 4; let a : GReg := 1; let b : GReg := 2; let x := rv s.dev t.val a; let y := rv s.dev t.val b; let g := combine [rt s.dev t.val a, rt s.dev t.val b]; let bad (p : Bool) : Byte := if p then mkTag 1 5 0 (tagMaint g) else g; let wraps (r : Int) : Bool := decide (r < -(2 ^ 63) ∨ 2 ^ 63 ≤ r); let e := (Instr.addc t rd a b, x + y, wraps (x.toInt + y.toInt)); (Issues s.dev t.val [a, b]) ∧ trapsOn (thr s.dev t.val).qmode (bad e.2.2) = false) :=
  ⟨issues_of (by decide +kernel), by decide +kernel⟩

theorem witness_MoveSelectAndTagResults_MoveAndImmediateResults :
  (let s : State := run0; let t : Thr := 0; let rd : GReg := 4; let a : GReg := 1; let x := rv s.dev t.val a; let g := combine [rt s.dev t.val a]; let e := (Instr.clz t rd a, rd, (⟨BitVec.ofNat 64 (if x.toNat = 0 then 64 else 63 - x.toNat.log2), g⟩ : QWord)); (Issues s.dev t.val [a]) ∧ trapsOn (thr s.dev t.val).qmode e.2.2.tag = false) :=
  ⟨issues_of (by decide +kernel), by decide +kernel⟩

theorem witness_MoveSelectAndTagResults_SelectTimeAndTagResults :
  (let s : State := run0; let t : Thr := 0; let rd : GReg := 4; let a : GReg := 1; let b : GReg := 2; let c : GReg := 3; let tag : Byte := 0x21; let x := gpr (thr s.dev t.val) a; let y := gpr (thr s.dev t.val) b; let e := (Instr.sel t rd a b c, if rv s.dev t.val c ≠ 0 then x else y); (Issues s.dev t.val [a, b, c]) ∧ (Issues s.dev t.val [a, b]) ∧ (Issues s.dev t.val [a]) ∧ (Issues s.dev t.val []) ∧ trapsOn (thr s.dev t.val).qmode e.2.tag = false) :=
  ⟨issues_of (by decide +kernel), issues_of (by decide +kernel), issues_of (by decide +kernel), issues_of (by decide +kernel), by decide +kernel⟩

theorem witness_FloatingPointInstructions_FloatingPointResults :
  (let s : State := (fp0 0 0); let t : Thr := 0; let f : Prec := .b64; let rd : GReg := 4; let a : GReg := 1; let b : GReg := 2; let c : GReg := 3; let rm := fpRm s.dev t.val; let x := (rv s.dev t.val a).toNat; let y := (rv s.dev t.val b).toNat; let m := fmtOf f; let t2 := [rt s.dev t.val a, rt s.dev t.val b]; let e := (Instr.fadd t f rd a b, t2, fAdd m rm x y); (Issues s.dev t.val [a, b, c]) ∧ (Issues s.dev t.val [a, b]) ∧ (Issues s.dev t.val [a]) ∧ (trapsOn (thr s.dev t.val).qmode (combineFault e.2.1 (nbit e.2.2.flags 0 || e.2.2.nan)) = false) ∧ Nat.land e.2.2.flags (fpEnables (thr s.dev t.val)) = 0) :=
  by refine ⟨issues_of (by decide +kernel), issues_of (by decide +kernel), issues_of (by decide +kernel), ?_, ?_⟩ <;> decide +kernel

theorem witness_FloatingPointInstructions_FloatingPointTrap :
  (let s : State := (fpt 16); let t : Thr := 0; let f : Prec := .b64; let rd : GReg := 4; let a : GReg := 1; let b : GReg := 2; let e := (Instr.fdiv t f rd a b, fDiv); (Issues s.dev t.val [a, b]) ∧ drained (thr s.dev t.val) = false ∧ Nat.land (e.2 (fmtOf f) (fpRm s.dev t.val) (rv s.dev t.val a).toNat (rv s.dev t.val b).toNat).flags (fpEnables (thr s.dev t.val)) ≠ 0 ∧ nbit (fpEnables (thr s.dev t.val)) 3 = false) :=
  by refine ⟨issues_of (by decide +kernel), ?_, ?_, ?_⟩ <;> decide +kernel

theorem witness_QualityTrapAndMode_QualityTrapWritesNothing :
  (let s : State := { dev := setThr run2.dev 0 (stb (thr run2.dev 0)) }; let t : Thr := 0; let a : GReg := 1; let b : GReg := 5; (Issues s.dev t.val [a, b]) ∧ ((thr s.dev t.val).qmode = 2) ∧ (tagClass (combine [rt s.dev t.val a, rt s.dev t.val b]) = 1) ∧ drained (thr s.dev t.val) = false) :=
  by refine ⟨issues_of (by decide +kernel), ?_, ?_, ?_⟩ <;> decide +kernel

theorem witness_QualityTrapAndMode_QmodeInstruction :
  (let s : State := run0; let t : Thr := 0; let m : Fin 4 := 2; (Issues s.dev t.val []) ∧ m.val ≠ 3) :=
  ⟨issues_of (by decide +kernel), by decide +kernel⟩

theorem witness_BranchesAndJumps_Branches :
  (let s : State := run0; let t : Thr := 0; let r : GReg := 1; (Issues s.dev t.val [r]) ∧ ((thr s.dev t.val).slot = .none)) :=
  ⟨issues_of (by decide +kernel), by decide +kernel⟩

theorem witness_BranchesAndJumps_Jumps :
  (let s : State := run0; let t : Thr := 0; let a : GReg := 1; (Issues s.dev t.val [a]) ∧ (Issues s.dev t.val []) ∧ ((thr s.dev t.val).slot = .none)) :=
  ⟨issues_of (by decide +kernel), issues_of (by decide +kernel), by decide +kernel⟩
end F01

namespace F02
def tf : Thread := { th0 with gpr := [(1, ⟨0x3ff0000000000000, 0⟩), (2, ⟨0x4010000000000000, 0⟩), (3, ⟨0x7ff8000000000000, 0⟩), (5, ⟨0x4000, 0⟩), (6, ⟨0x300000000100, 0⟩), (7, ⟨0x8000000000000000, 0x40⟩), (8, ⟨0, 0⟩),(9,⟨1000000000000,0⟩)] }
def bentry : TlbEnt := { page := 0x1800000, size := 21, perm := 7, phys := 0x300000000000 }
def withBanks (d : Dev) : Dev := fset (fset { d with tlb := [(0, { itlb := [(0, ent)], dtlb := [(0, ent), (1, bentry)] })] } (BK_CTRL 0) BK_CTRL_MODE 0) (BK_OWNER 0) BK_OWNER_OWNER 0
def runF : State := { dev := setThr base 0 tf }
def dirtyBase : Dev := setTag (wrByte (wrByte base 0x4001 0x85) 0x4007 0x12) 0x800 0x43
def l1d : Dev := cPut (setL1State dirtyBase 0 1) 0 0 { line := 0x100, excl := true, dirty := false }
def l2d : Dev := cPut (setL2State l1d 0 1) (l2Id 0) 0 { line := 0x100, excl := true, dirty := false }
def runL : State := { dev := setThr l1d 0 tf }
def runLb : State := { dev := setThr (withBanks l2d) 0 { tf with storeBuf := [{ id := 0, pa := 0x4000, bytes := 8, tagged := true, data := ⟨0x123456789, 7⟩ }], nextId := 1 } }
def runLz : State := { dev := setThr l2d 0 { tf with storeBuf := [{ id := 0, pa := 0x4000, kind := .zero, bytes := 64 }], nextId := 1 } }
def accU : Acc := { id := 0, op := .loadTagged, va := 0x4000, pa := 0x4000, rd := 4, uncached := true, phase := .returned, result := ⟨9, 3⟩ }
def runA : State := { dev := setThr l1d 0 { tf with accs := [accU], nextId := 1 } }
def runA2 : State := { dev := setThr l1d 0 { tf with accs := [{ accU with uncached := false, phase := .issued }], nextId := 1 } }
def bacc (op : AccOp) (ph : AccPhase) : Acc := { id := 0, op := op, va := 0x300000000100, pa := 0x300000000100, rd := 4, uncached := true, phase := ph, data := ⟨77, 3⟩ }
def bk (op : AccOp) (ph : AccPhase) : State := { dev := setThr (withBanks base) 0 { tf with accs := [bacc op ph], nextId := 1 } }
def bkR (op : AccOp) : State := { dev := fset (bk op .issued).dev (BK_OWNER 0) BK_OWNER_OWNER 3 }
def bkq (op : AccOp) : State := { dev := setBank (setThr (withBanks base) 0 { tf with accs := [bacc op .waiting], nextId := 1 }) 0 { bank base 0 with queue := [{ thr := 0, id := 0, part := 0 }] } }

theorem witness_LoadsFromL1 :
  (let s : State := runL; let t : Thr := 0; let rd : GReg := 4; let base : GReg := 5; let off : BitVec 14 := 0; let pa : Nat := 0x4000; let va := (rv s.dev t.val base + off.signExtend 64).toNat; let v (n : Nat) : Nat := leNat (rdBytes s.dev pa n); let e := (Instr.ld t rd base off, 8, (⟨BitVec.ofNat 64 (v 8), tagAt s.dev (pa / 8)⟩ : QWord)); inDram s.dev pa = true ∧ loadsBefore (thr s.dev t.val) (thr s.dev t.val).nextId = true ∧ (l1Serves s.dev (t.val / 8) = true) ∧ ((cFind s.dev (t.val / 8) (pa / 64)).isSome = true) ∧ (Reaches s.dev t.val [base] va e.2.1 .load pa) ∧ (overlapping (thr s.dev t.val) pa e.2.1 = []) ∧ anyPoison s.dev pa e.2.1 = false ∧ trapsOn (thr s.dev t.val).qmode e.2.2.tag = false) :=
  by refine ⟨?_, ?_, ?_, ?_, reaches_of (by decide +kernel), ?_, ?_, ?_⟩ <;> decide +kernel

theorem witness_UncachedAccesses :
  (let s : State := { dev := setThr (withBanks base) 0 tf }; let t : Thr := 0; let rd : GReg := 4; let base : GReg := 6; let off : BitVec 14 := 0; let pa : Nat := 0x300000000100; let va := (rv s.dev t.val base + off.signExtend 64).toNat; let x := thr s.dev t.val; let b (op : AccOp) : Acc := { id := x.nextId, op := op, va := va, pa := pa, rd := rd.val, pc := x.pc, uncached := true, qmode := x.qmode }; let e := (Instr.ld t rd base off, [base], AccKind.load, 8, b .loadTagged); inDram s.dev pa = false ∧ uncachedOut (thr s.dev t.val) < 4 ∧ (Reaches s.dev t.val e.2.1 va e.2.2.2.1 e.2.2.1 pa)) :=
  by refine ⟨?_, ?_, reaches_of (by decide +kernel)⟩ <;> decide +kernel

theorem witness_StoresEnterTheBuffer :
  (let s : State := runL; let t : Thr := 0; let rs2 : GReg := 1; let base : GReg := 5; let off : BitVec 14 := 0; let pa : Nat := 0x4000; let va := (rv s.dev t.val base + off.signExtend 64).toNat; let x := thr s.dev t.val; let q := gpr x rs2; let e := (Instr.st t rs2 base off, [base, rs2], AccKind.store, 8, ({ id := x.nextId, pa := pa, bytes := 8, tagged := true, data := q } : StoreEnt)); inDram s.dev pa = true ∧ ((thr s.dev t.val).storeBuf.length < 8) ∧ (Reaches s.dev t.val e.2.1 va e.2.2.2.1 e.2.2.1 pa)) :=
  by refine ⟨?_, ?_, reaches_of (by decide +kernel)⟩ <;> decide +kernel

theorem witness_StoreDrainWritesItsBytes :
  (let s : State := runLb; let t : Thr := 0; let e : StoreEnt := { id := 0, pa := 0x4000, bytes := 8, tagged := true, data := ⟨0x123456789, 7⟩ }; let rest : List StoreEnt := []; ((thr s.dev t.val).storeBuf = e :: rest) ∧ ((thr s.dev t.val).exc = none) ∧ nextDeferred (thr s.dev t.val) = none ∧ loadsBefore (thr s.dev t.val) e.id = true ∧ (l2State s.dev (t.val / 64) = 1) ∧ (l1Owns s.dev (t.val / 8) (e.pa / 64) = true) ∧ ((cFind s.dev (l2Id (t.val / 64)) (e.pa / 64)).isSome = true) ∧ e.kind = .store) ∧
  (let s : State := runLz; let t : Thr := 0; let e : StoreEnt := { id := 0, pa := 0x4000, kind := .zero, bytes := 64 }; let rest : List StoreEnt := []; ((thr s.dev t.val).storeBuf = e :: rest) ∧ ((thr s.dev t.val).exc = none) ∧ nextDeferred (thr s.dev t.val) = none ∧ loadsBefore (thr s.dev t.val) e.id = true ∧ (l2State s.dev (t.val / 64) = 1) ∧ (l1Owns s.dev (t.val / 8) (e.pa / 64) = true) ∧ ((cFind s.dev (l2Id (t.val / 64)) (e.pa / 64)).isSome = true) ∧ e.kind = .zero ∧ e.pa % 64 = 0) := by
  refine ⟨?_, ?_⟩ <;> (dsimp only; decide +kernel)

theorem witness_AtomicsInAnOwnedLine :
  (let s : State := runL; let t : Thr := 0; let rd : GReg := 4; let base : GReg := 5; let b : GReg := 1; let pa : Nat := 0x4000; let x := thr s.dev t.val; let va := (rv s.dev t.val base).toNat; let o := wordAt s.dev pa; let y := gpr x b; let e := (Instr.atswap t rd base b, (0 : GReg), some y); (x.storeBuf = []) ∧ x.accs.all performed = true ∧ nextDeferred x = none ∧ inDram s.dev pa = true ∧ va % 8 = 0 ∧ (atomicReady s.dev (t.val / 8) (pa / 64) = true) ∧ (poisonAt s.dev (pa / 8) = false) ∧ (Reaches s.dev t.val [base, b, e.2.1] va 8 .atomic pa) ∧ trapsOn x.qmode o.tag = false ∧ ((∀ z, e.2.2 = some z → trapsOn x.qmode z.tag = false))) :=
  by refine ⟨?_, ?_, ?_, ?_, ?_, ?_, ?_, reaches_of (by decide +kernel), ?_, ?_⟩ <;> decide +kernel

theorem witness_LoadReturnCompletesAnAccess :
  (let s : State := runA; let t : Thr := 0; let a : Acc := accU; ((thr s.dev t.val).accs = [a]) ∧ a.trap = none ∧ a.err = none ∧ a.live = true ∧ a.poisoned = false ∧ ((∃ n sg, a.op = .loadValue n sg) ∨ a.op = .loadTagged) ∧ a.uncached = true ∧ a.phase = .returned ∧ ((a.op = .loadTagged → trapsOn a.qmode a.result.tag = false))) ∧
  (let s : State := runA2; let t : Thr := 0; let a : Acc := { accU with uncached := false, phase := .issued }; ((thr s.dev t.val).accs = [a]) ∧ a.trap = none ∧ a.err = none ∧ a.live = true ∧ a.poisoned = false ∧ ((∃ n sg, a.op = .loadValue n sg) ∨ a.op = .loadTagged) ∧ a.uncached = false ∧ a.phase = .issued ∧ a.op = .loadTagged ∧ (poisonAt s.dev (a.pa / 8) = false) ∧ (trapsOn a.qmode (tagAt s.dev (a.pa / 8)) = false) ∧ ((cFind s.dev (t.val / 8) (a.pa / 64)).isSome = true) ∧ (l1Serves s.dev (t.val / 8) = true)) := 
  ⟨by refine ⟨?_, ?_, ?_, ?_, ?_, Or.inr rfl, ?_, ?_, ?_⟩ <;> decide +kernel,
   by refine ⟨?_, ?_, ?_, ?_, ?_, Or.inr rfl, ?_, ?_, ?_, ?_, ?_, ?_, ?_⟩ <;> decide +kernel⟩

theorem witness_BankAccessOfAThread_1 :
  (let s : State := (bk .loadTagged .issued); let t : Thr := 0; let n : BankId := 0; let a : Acc := (bacc .loadTagged .issued); bankOf a.pa = some n.val ∧ a.uncached = true ∧ a.pa % 8 = 0 ∧ bankMode s.dev n.val = 0 ∧ ((a.op = .storeTagged ∨ a.op = .loadTagged)) ∧ a.firstDone = false ∧ a.trap = none ∧ ((thr s.dev t.val).accs = [a]) ∧ a.phase = .issued ∧ (bankUp s.dev (some (t.val / 384)) n.val = true) ∧ mayIssue s.dev n.val = true ∧ plainAllows s.dev n.val (thrPart s.dev t.val) (accIsStore a.op) = true) ∧
  (let s : State := (bkR .loadTagged); let t : Thr := 0; let n : BankId := 0; let a : Acc := (bacc .loadTagged .issued); bankOf a.pa = some n.val ∧ a.uncached = true ∧ a.pa % 8 = 0 ∧ bankMode s.dev n.val = 0 ∧ ((a.op = .storeTagged ∨ a.op = .loadTagged)) ∧ a.firstDone = false ∧ a.trap = none ∧ ((thr s.dev t.val).accs = [a]) ∧ a.phase = .issued ∧ (bankUp s.dev (some (t.val / 384)) n.val = true) ∧ mayIssue s.dev n.val = true ∧ plainAllows s.dev n.val (thrPart s.dev t.val) (accIsStore a.op) = false) := by
  refine ⟨?_, ?_⟩ <;> (dsimp only; decide +kernel)

theorem witness_BankAccessOfAThread_2 :
  (let s : State := (bkq .loadTagged); let t : Thr := 0; let n : BankId := 0; let a : Acc := (bacc .loadTagged .waiting); let q : BankReq := ((bank s.dev n.val).queue).head (by decide +kernel); bankOf a.pa = some n.val ∧ a.uncached = true ∧ a.pa % 8 = 0 ∧ bankMode s.dev n.val = 0 ∧ ((a.op = .storeTagged ∨ a.op = .loadTagged)) ∧ a.firstDone = false ∧ a.trap = none ∧ ((thr s.dev t.val).accs = [a]) ∧ q.thr = t.val ∧ q.id = a.id ∧ q.part = 0 ∧ ((bank s.dev n.val).queue = [q]) ∧ ((bank s.dev n.val).occ = []) ∧ ((bank s.dev n.val).uses = []) ∧ fbit s.dev (BK_CTRL n.val) BK_CTRL_CLEAR_BUSY = false ∧ a.phase = .waiting) ∧
  (let s : State := (bk .loadTagged .done); let t : Thr := 0; let n : BankId := 0; let a : Acc := (bacc .loadTagged .done); bankOf a.pa = some n.val ∧ a.uncached = true ∧ a.pa % 8 = 0 ∧ bankMode s.dev n.val = 0 ∧ ((a.op = .storeTagged ∨ a.op = .loadTagged)) ∧ a.firstDone = false ∧ a.trap = none ∧ ((thr s.dev t.val).accs = [a]) ∧ a.phase = .done ∧ ((thr s.dev t.val).exc = none) ∧ a.op = .loadTagged) := by
  refine ⟨?_, ?_⟩ <;> (dsimp only; decide +kernel)

theorem witness_FencesAndTimeWaits_FencesAndPrefetch :
  (let s : State := runF; let t : Thr := 0; (Issues s.dev t.val []) ∧ ((thr s.dev t.val).storeBuf = []) ∧ ((∀ a ∈ (thr s.dev t.val).accs, a.uncached = true))) ∧
  (let s : State := runF; let t : Thr := 0; (Issues s.dev t.val []) ∧ ((thr s.dev t.val).storeBuf = []) ∧ ((thr s.dev t.val).accs = [])) ∧
  (let s : State := runF; let t : Thr := 0; (Issues s.dev t.val [])) ∧
  (let s : State := { dev := withBanks runF.dev }; let t : Thr := 0; let base : GReg := 6; let off : BitVec 14 := 0; let pa : Nat := 0x300000000100; (Reaches s.dev t.val [base] (rv s.dev t.val base + off.signExtend 64).toNat 1 .load pa) ∧ inDram s.dev pa = false) ∧
  (let s : State := runF; let t : Thr := 0; let base : GReg := 5; let off : BitVec 14 := 0; let pa : Nat := 0x4000; (Reaches s.dev t.val [base] (rv s.dev t.val base + off.signExtend 64).toNat 1 .load pa)) := 
  ⟨by refine ⟨issues_of (by decide +kernel), ?_, ?_⟩ <;> decide +kernel,
   by refine ⟨issues_of (by decide +kernel), ?_, ?_⟩ <;> decide +kernel,
   issues_of (by decide +kernel),
   ⟨reaches_of (by decide +kernel), by decide +kernel⟩,
   reaches_of (by decide +kernel)⟩

theorem witness_FencesAndTimeWaits_TimeWaits :
  (let s : State := runF; let t : Thr := 0; let a : GReg := 8; ((thr s.dev t.val).slot = .none) ∧ (Issues s.dev t.val [a]) ∧ ((rv s.dev t.val a).toNat ≤ nowNs s.dev)) ∧
  (let s : State := runF; let t : Thr := 0; let a : GReg := 9; ((thr s.dev t.val).slot = .none) ∧ (Issues s.dev t.val [a]) ∧ nowNs s.dev < (rv s.dev t.val a).toNat) ∧
  (let s : State := { dev := setThr base 0 { tf with twait := some 2000 } }; let t : Thr := 0; let n := ((thr s.dev t.val).twait).get (by decide +kernel); ((thr s.dev t.val).slot = .none) ∧ ((thr s.dev t.val).twait = some n) ∧ ((thr s.dev t.val).st = .running) ∧ ((thr s.dev t.val).stepping = false)) ∧
  (let s : State := { dev := setThr { base with cyc := { base.cyc with threads := [(0, 1)] } } 0 tf }; let t : Thr := 0; ((thr s.dev t.val).slot = .none) ∧ (Issues s.dev t.val []) ∧ ((threadEntry s.dev t.val).isSome = true)) ∧
  (let s : State := { dev := setThr base 0 { tf with cycleEnd := true } }; let t : Thr := 0; let a : GReg := 9; ((thr s.dev t.val).slot = .none) ∧ ((thr s.dev t.val).cycleEnd = true) ∧ ((thr s.dev t.val).st = .running) ∧ ((thr s.dev t.val).storeBuf = []) ∧ ((∀ a ∈ (thr s.dev t.val).accs, accIsStore a.op = true ∨ accIsAtomic a.op = true → a.phase = .returned))) := by
  refine ⟨by refine ⟨?_, issues_of (by decide +kernel), ?_⟩ <;> decide +kernel,
    by refine ⟨?_, issues_of (by decide +kernel), ?_⟩ <;> decide +kernel,
    ?_,
    by refine ⟨?_, issues_of (by decide +kernel), ?_⟩ <;> decide +kernel,
    ?_⟩ <;> (try dsimp only) <;> decide +kernel
end F02

namespace F03
def goDev (d : Dev) (t : Nat) (l : List GReg) : Dev := match issue d t l with | .go d1 => d1 | _ => d
def excBase : Dev := setThr (wrByte (wrByte base 0x2048 0) 0x2049 0x30) 0 { th0 with sup := false, qmode := 1, ipl := 3, fpcsr := 5 }
def excBase2 : Dev := wrByte (wrByte excBase 0x2011 0x30) 0x2051 0x30
def runE : State := { dev := excBase2 }
def irqDev2 : Dev := { wrByte excBase2 0x20C1 0x30 with routes := [(0xF40, 0x11)], pendSrc := [(0xF40, true)] }
def irq3 : Dev := { irqDev2 with pendSrc := [] }
def runI : State := { dev := irqDev2 }
def brkH : State := { dev := fset (setThr base 0 { th0 with brkHalt := true }) DBG_STATUS DBG_STATUS_TAP_LEVEL 2 }
def frm : Dev := wrByte (wrByte (wrByte (wrByte base 0x8000 0x34) 0x8001 0x12) 0x8038 0xC7) 0x8029 0x90
def runR : State := { dev := setThr frm 0 { th0 with ipl := 0 } }
def rfD (d : Dev) : Dev := match readFrame d 0 with | .ok (_, e) => e | _ => d
def rfL (d : Dev) : List Nat := match readFrame d 0 with | .ok (l, _) => l | _ => []
def runS : State := { dev := setThr irq3 0 { th0 with cycpin := 7, tfault := 9 } }
def userSt : State := { dev := setThr base 0 { th0 with sup := false, storeBuf := [{ id := 0, pa := 0x100, bytes := 8 }], nextId := 1 } }
def wk : WalkWait := { va := 0x5000, kind := .load }
def tbase : Thread := { th0 with asid := 0 }
def tlbDev : Dev := { base with tlb := [(0, { itlb := [(0, ent)], dtlb := [(0, ent), (3, { ent with page := 5, size := 12, asid := 4 })], l2 := [(8, { ent with page := 1 })] }), (9, { dtlb := [(0, ent)] })] }
def runT : State := { dev := setThr tlbDev 0 tbase }
def runW : State := { dev := setThr base 0 { tbase with walk := some wk } }
def wOut (d : Dev) : WalkOut := match walk d 0 0x5000 .load true with | .ok o => o | _ => { pa := 0, comb := ent, used := [] }
theorem go_of {d : Dev} {t : Nat} {l : List GReg} (h : (match issue d t l with | .go _ => true | _ => false) = true) :
    issue d t l = .go (goDev d t l) := by
  unfold goDev; cases hi : issue d t l <;> simp [hi] at h ⊢
theorem frame_of {d : Dev} (h : (match readFrame d 0 with | .ok _ => true | _ => false) = true) :
    readFrame d 0 = .ok (rfL d, rfD d) := by
  unfold rfL rfD; cases hi : readFrame d 0 <;> simp [hi] at h ⊢
theorem walk_of {d : Dev} (h : (match walk d 0 0x5000 .load true with | .ok _ => true | _ => false) = true) :
    walk d 0 0x5000 .load true = .ok (wOut d) := by
  unfold wOut; cases hi : walk d 0 0x5000 .load true <;> simp [hi] at h ⊢

theorem witness_ExceptionEntryAndBreak_ExceptionEntry_1 :
  (let s : State := runE; let t : Thr := 0; let d1 : Dev := (goDev excBase2 0 []); let code : BitVec 10 := 0x155; let pa : Nat := 0x7fc0; let h : Nat := 0x3000; let x := thr s.dev t.val; let sys : ExcInfo := { vector := 9, resume := x.pc + 4, code := code.toNat, insn := wordOf (.syscall t ⟨code, none⟩) }; ((thr s.dev t.val).slot = .none) ∧ mapStarved s.dev t.val = false ∧ (issue s.dev t.val [] = .go d1) ∧ (EntryGoes d1 t.val 9 sys pa h)) ∧
  (let s : State := runE; let t : Thr := 0; let d1 : Dev := (goDev excBase2 0 []); let pa : Nat := 0x7fc0; let h : Nat := 0x3000; let x := thr s.dev t.val; let w : BitVec 32 := default; let ill : ExcInfo := { vector := 2, resume := x.pc, insn := w.toNat }; ((thr s.dev t.val).slot = .none) ∧ decodeInsn t w.toNat = none ∧ mapStarved s.dev t.val = false ∧ (issue s.dev t.val [] = .go d1) ∧ (EntryGoes d1 t.val 2 ill pa h)) := 
  ⟨by refine ⟨?_, ?_, go_of (by decide +kernel), entry_of (by decide +kernel)⟩ <;> decide +kernel,
   by refine ⟨?_, ?_, ?_, go_of (by decide +kernel), entry_of (by decide +kernel)⟩ <;> decide +kernel⟩

theorem witness_ExceptionEntryAndBreak_ExceptionEntry_2 :
  (let s : State := runE; let t : Thr := 0; let d1 : Dev := (goDev excBase2 0 []); let code : BitVec 10 := 0x155; let pa : Nat := 0x7fc0; let h : Nat := 0x3000; let x := thr s.dev t.val; let brk : ExcInfo := { vector := 10, resume := x.pc + 4, code := code.toNat, insn := wordOf (.brk t code) }; ((thr s.dev t.val).slot = .none) ∧ mapStarved s.dev t.val = false ∧ (issue s.dev t.val [] = .go d1) ∧ (x.brkHalt = false ∨ tapReaches s.dev t.val = false) ∧ (EntryGoes d1 t.val 10 brk pa h)) ∧
  (let s : State := runI; let t : Thr := 0; let pa : Nat := 0x7fc0; let h : Nat := 0x3000; let x := thr s.dev t.val; let l := 8; let src := 0xF40; let int : ExcInfo := { vector := 16 + l, resume := x.pc, faddr := src }; ((thr s.dev t.val).slot = .none) ∧ x.st = .running ∧ x.exc = none ∧ x.walk = none ∧ x.cycleEnd = false ∧ x.stepping = false ∧ nextDeferred x = none ∧ (bestSource (pendingFor s.dev t.val) x.ipl = some (l, src)) ∧ (EntryGoes (countCore { s.dev with pendSrc := mset (fun _ => false) s.dev.pendSrc src false } t.val 0x0E) t.val (16 + l) int pa h)) := 
  ⟨by refine ⟨?_, ?_, go_of (by decide +kernel), ?_, entry_of (by decide +kernel)⟩ <;> decide +kernel,
   by refine ⟨?_, ?_, ?_, ?_, ?_, ?_, ?_, ?_, entry_of (by decide +kernel)⟩ <;> decide +kernel⟩

theorem witness_ExceptionEntryAndBreak_BreakHaltsForTheDebugger :
  (let s : State := brkH; let t : Thr := 0; (Issues s.dev t.val []) ∧ ((thr s.dev t.val).brkHalt = true) ∧ tapReaches s.dev t.val = true ∧ ((thr s.dev t.val).stepping = false)) :=
  by refine ⟨issues_of (by decide +kernel), ?_, ?_, ?_⟩ <;> decide +kernel

theorem witness_ReturnFromException :
  (let s : State := runR; let t : Thr := 0; let d1 : Dev := (goDev runR.dev 0 []); let d2 : Dev := (rfD (goDev runR.dev 0 [])); let l : List Nat := (rfL (goDev runR.dev 0 [])); mapStarved s.dev t.val = false ∧ (issue s.dev t.val [] = .go d1) ∧ ((thr s.dev t.val).sup = true) ∧ ((thr s.dev t.val).slot = .none) ∧ ((thr s.dev t.val).storeBuf = []) ∧ ((thr s.dev t.val).accs = []) ∧ (readFrame d1 t.val = .ok (l, d2))) :=
  by refine ⟨?_, go_of (by decide +kernel), ?_, ?_, ?_, ?_, frame_of (by decide +kernel)⟩ <;> decide +kernel

theorem witness_SpecialRegisterReadsAndWrites_SpecialRegisterReads :
  (let s : State := runS; let t : Thr := 0; let x := thr s.dev t.val; let e := ((0x00 : Fin 64), false, threadId s.dev t.val); (Issues s.dev t.val []) ∧ ((e.2.1 = true → x.sup = true))) :=
  ⟨issues_of (by decide +kernel), by decide +kernel⟩

theorem witness_PendingAndSoftwareInterrupts :
  (let s : State := { dev := setThr irqDev2 0 th0 }; let t : Thr := 0; let d1 : Dev := (goDev (setThr irqDev2 0 th0) 0 []); mapStarved s.dev t.val = false ∧ ((thr s.dev t.val).sup = true) ∧ (issue s.dev t.val [] = .go d1)) ∧
  (let s : State := { dev := setThr irqDev2 0 th0 }; let t : Thr := 0; let a : GReg := 2; let d1 : Dev := (goDev (setThr irqDev2 0 th0) 0 []); mapStarved s.dev t.val = false ∧ ((thr s.dev t.val).sup = true) ∧ (issue s.dev t.val [a] = .go d1)) := 
  ⟨by refine ⟨?_, ?_, go_of (by decide +kernel)⟩ <;> decide +kernel,
   by refine ⟨?_, ?_, go_of (by decide +kernel)⟩ <;> decide +kernel⟩

theorem witness_SpecialRegisterReadsAndWrites_SpecialRegisterWrites :
  (let s : State := runS; let t : Thr := 0; let a : GReg := 1; let x := thr s.dev t.val; let m := (rv s.dev t.val a).toNat; let e := (0x02, false, { x with fpcsr := m % 4096 }); (Issues s.dev t.val [a]) ∧ ((thr s.dev t.val).stepping = false) ∧ ((e.2.1 = true → x.sup = true)) ∧ ((e.1 = 0x01 → m % 4 ≠ 3))) :=
  by refine ⟨issues_of (by decide +kernel), ?_, ?_, ?_⟩ <;> decide +kernel

theorem witness_PrivilegedInUserMode :
  (let s : State := userSt; let t : Thr := 0; let a : GReg := 1; (Issues s.dev t.val []) ∧ (Issues s.dev t.val [a]) ∧ ((thr s.dev t.val).sup = false) ∧ drained (thr s.dev t.val) = false) :=
  by refine ⟨issues_of (by decide +kernel), issues_of (by decide +kernel), ?_, ?_⟩ <;> decide +kernel

theorem witness_TlbMaintenance :
  (let s : State := runT; let t : Thr := 0; let a : GReg := 1; let d1 : Dev := (goDev runT.dev 0 [1]); let x := thr s.dev t.val; let e := (Instr.tlbiva t a, [a], fun z : TlbEnt => tlbMatch x.asid (rv s.dev t.val a).toNat z); mapStarved s.dev t.val = false ∧ ((thr s.dev t.val).storeBuf = []) ∧ ((thr s.dev t.val).sup = true) ∧ issue s.dev t.val e.2.1 = .go d1 ∧ partQuiet d1 (thrPart s.dev t.val) e.2.2 = true) ∧
  (let s : State := runW; let t : Thr := 0; let x := thr s.dev t.val; let w := wk; let o := (wOut runW.dev); let d0 := ((walkReads s.dev t.val w.va).1).get (by decide +kernel); mapStarved s.dev t.val = false ∧ ((thr s.dev t.val).storeBuf = []) ∧ x.walk = some w ∧ ((walkReads s.dev t.val w.va).1 = some d0) ∧ walk d0 t.val w.va w.kind x.sup = .ok o) := 
  ⟨by refine ⟨?_, ?_, ?_, go_of (by decide +kernel), ?_⟩ <;> decide +kernel,
   by refine ⟨?_, ?_, ?_, ?_, walk_of (by decide +kernel)⟩ <;> decide +kernel⟩
end F03

namespace F04
def caOn (d : Dev) : Dev := fset (setL2State (setL1State d 0 1) 0 1) (CL_CTRL 0) CL_CTRL_PF_EN 1
def mem4 : Dev := setTag (wrByte (wrByte base 0x4001 0x85) 0x4007 0x12) 0x800 0x43
def waiting (d : Dev) : Dev := setThr d 0 { th0 with accs := [{ id := 0, op := .loadTagged, va := 0x4000, pa := 0x4000, rd := 4, phase := .issued }], nextId := 1 }
def wantD : Dev := waiting (caOn mem4)
def wantOwnD : Dev := setThr (caOn mem4) 0 { th0 with storeBuf := [{ id := 0, pa := 0x4000, bytes := 8 }], nextId := 1 }
def pfD : Dev := cPut (cPut (caOn mem4) 0 0 { line := 0x100, excl := true }) (l2Id 0) 0 { line := 0x100, excl := true }
def evD : Dev := setEvicted (caOn mem4) 0 [{ line := 0x100, dirty := true, back := List.replicate 8 ⟨0, 0⟩, backPoison := List.replicate 8 false }]
def crRd (d : Dev) : Dev := (cohRead (countCl (takeHome d 0 (chanOf d 0x4000)) 0 0x03) 0 0x100 (wantsLine d 0 0x100) .clean).getD d
def crOwn (d : Dev) : Dev := (cohOwn (takeHome d 0 (chanOf d 0x4000)) 0 0x100 (wantsData d 0 0x100) .clean).getD d
def wantPf : Dev := setWanted (caOn mem4) 0 [0x100]
def crPf (d : Dev) : Dev := (cohRead (takeHome d 0 (chanOf d 0x4000)) 0 0x100 false .clean).getD d
def bk0 (m : Nat) : Dev := fset (fset base (BK_CTRL 0) BK_CTRL_MODE m) (BK_OWNER 0) BK_OWNER_OWNER 3
def hb : Dev := setBank (fset (bk0 0) (BK_OWNER 0) BK_OWNER_HBUSY 1) 0 { bank base 0 with next := 5 }
def bkmem (d : Dev) : Dev := setPoison (setTag (wrByte (wrByte d 0x300000000008 4) 0x300000800008 9) 0x60000000001 4) 0x60000000002 true
def pairD : Dev := bkmem (fset (fset base (BK_CTRL 0) BK_CTRL_MODE 1) (BK_CTRL 1) BK_CTRL_MODE 2)
def pairBad : Dev := fset (fset pairD (IMG_REGION 0 0) IMG_REGION_KIND 1) (IMG_REGION 0 0) IMG_REGION_COUNT 131073
def pairEn : Dev := fset (fset pairD (IMG_CTRL 0) IMG_CTRL_ENABLE 1) (IMG_STATUS 0) IMG_STATUS_RUNNING 1
def pairInit : Dev := { fset pairEn (IMG_STATUS 0) IMG_STATUS_INIT_BUSY 1 with img := [(0, { lt := [(4, 0x7fffffffff)] })] }
def ltD : Dev := fset { pairD with img := [(0, { lt := [(4, 0x5fffffffff)] })] } (IMG_LT_DATA 0) IMG_LT_DATA_ENTRY 0x1234
def ltBad : Dev := setReg ltD (IMG_LT_DATA 0) 0x7fffffffff
def ltEn : Dev := fset ltD (IMG_CTRL 0) IMG_CTRL_ENABLE 1
def abBusy : Dev := fset pairEn (IMG_ABANDON 0 1) IMG_ABANDON_BUSY 1
def twm : TwinOut := { bytes := [1, 2], credit := true, lane := some 3 }
theorem some_of {r : Option Dev} {d : Dev} (h : r.isSome = true) : r = some (r.getD d) := by
  cases r <;> simp at h ⊢

theorem witness_DirectoryTransactions_1 :
  (let s : State := { dev := wantD }; let core : CoreId := 0; let line : Nat := 0x100; let o : EccRead := .clean; let d1 : Dev := (crRd wantD); let c := core.val / 8; let ch := chanOf s.dev (64 * line); (domOn s.dev (core.val / 8) = true) ∧ inDram s.dev (64 * line) = true ∧ ((wantsLine s.dev core.val line = true ∨ wantsFetch s.dev core.val line = true)) ∧ granted s.dev core.val line = true ∧ homeCredit s.dev c ch = true ∧ cFind s.dev (l2Id c) line = none ∧ ((evicted s.dev c).any (fun y => y.line == line) = false) ∧ cohRead (countCl (takeHome s.dev c ch) c 0x03) core.val line (wantsLine s.dev core.val line) o = some d1) ∧
  (let s : State := { dev := wantOwnD }; let core : CoreId := 0; let line : Nat := 0x100; let o : EccRead := .clean; let d1 : Dev := (crOwn wantOwnD); let c := core.val / 8; let ch := chanOf s.dev (64 * line); (domOn s.dev (core.val / 8) = true) ∧ inDram s.dev (64 * line) = true ∧ wantsOwn s.dev core.val line = true ∧ granted s.dev core.val line = true ∧ homeCredit s.dev c ch = true ∧ ((evicted s.dev c).any (fun y => y.line == line) = false) ∧ cohOwn (takeHome s.dev c ch) core.val line (wantsData s.dev core.val line) o = some d1) := 
  ⟨by refine ⟨?_, ?_, ?_, ?_, ?_, ?_, ?_, some_of (by decide +kernel)⟩ <;> decide +kernel,
   by refine ⟨?_, ?_, ?_, ?_, ?_, ?_, some_of (by decide +kernel)⟩ <;> decide +kernel⟩

theorem witness_DirectoryTransactions_2 :
  (let s : State := { dev := setWanted pfD 0 [0x100] }; let core : CoreId := 0; let line : Nat := 0x100; let c := core.val / 8; (domOn s.dev (core.val / 8) = true) ∧ inDram s.dev (64 * line) = true ∧ fbit s.dev (CL_CTRL c) CL_CTRL_PF_EN = true ∧ l2State s.dev c = 1 ∧ (line ∈ wantedLines s.dev core.val) ∧ ((cFind s.dev (l2Id c) line).isSome = true)) ∧
  (let s : State := { dev := wantPf }; let core : CoreId := 0; let line : Nat := 0x100; let o : EccRead := .clean; let d1 : Dev := (crPf wantPf); let c := core.val / 8; let ch := chanOf s.dev (64 * line); (domOn s.dev (core.val / 8) = true) ∧ inDram s.dev (64 * line) = true ∧ fbit s.dev (CL_CTRL c) CL_CTRL_PF_EN = true ∧ l2State s.dev c = 1 ∧ (line ∈ wantedLines s.dev core.val) ∧ cFind s.dev (l2Id c) line = none ∧ ((evicted s.dev c).any (fun y => y.line == line) = false) ∧ grantAt s.dev ch c = true ∧ homeCredit s.dev c ch = true ∧ cohRead (takeHome s.dev c ch) core.val line false o = some d1) := 
  ⟨by dsimp only; decide +kernel,
   by refine ⟨?_, ?_, ?_, ?_, ?_, ?_, ?_, ?_, ?_, some_of (by decide +kernel)⟩ <;> decide +kernel⟩

theorem witness_DirectoryTransactions_3 :
  (let s : State := { dev := evD }; let core : CoreId := 0; let line : Nat := 0x100; let c := core.val / 8; let x := (evicted s.dev c).head (by decide +kernel); let rest := (evicted s.dev c).tail; (domOn s.dev (core.val / 8) = true) ∧ inDram s.dev (64 * line) = true ∧ victimMode s.dev c = false ∧ (evicted s.dev c = x :: rest) ∧ grantAt s.dev (chanOf s.dev (64 * x.line)) c = true ∧ homeCredit s.dev c (chanOf s.dev (64 * x.line)) = true) ∧
  (let s : State := { dev := { evD with credits := [(64, { out := 32, free := 0 })] } }; let core : CoreId := 0; let line : Nat := 0x100; let c := core.val / 8; let x := (evicted s.dev c).head (by decide +kernel); let rest := (evicted s.dev c).tail; (domOn s.dev (core.val / 8) = true) ∧ inDram s.dev (64 * line) = true ∧ victimMode s.dev c = false ∧ (evicted s.dev c = x :: rest) ∧ grantAt s.dev (chanOf s.dev (64 * x.line)) c = true ∧ mayIssue s.dev (64 + c) = false) := by
  refine ⟨?_, ?_⟩ <;> (dsimp only; decide +kernel)

theorem witness_IoAccessesAndCacheManagement_IoAccessesToDram :
  (let s : State := { dev := mem4 }; let src : Fin 8 := 0; let a : PAddr := 0x4001; let word := a.toNat / 8 * 8; inDram s.dev word = true ∧ (dramWaits s.dev (24 + src.val) word 8 = [])) ∧
  (let s : State := { dev := { mem4 with credits := [(mcQueue (chanOf mem4 0x4000) 24, { out := 32, free := 0 })] } }; let src : Fin 8 := 0; let a : PAddr := 0x4001; let word := a.toNat / 8 * 8; inDram s.dev word = true ∧ (dramWaits s.dev (24 + src.val) word 8 ≠ [])) ∧
  (let s : State := { dev := mem4 }; let src : Fin 8 := 0; let a : PAddr := 0x4001; let bs : List Byte := [1,2,3,4,5,6,7,8,9]; (bs ≠ []) ∧ inDram s.dev a.toNat = true ∧ (inDram s.dev (a.toNat + bs.length - 1) = true) ∧ (dramWaits s.dev (24 + src.val) a.toNat bs.length = [])) ∧
  (let s : State := { dev := { mem4 with credits := [(mcQueue (chanOf mem4 0x4000) 24, { out := 32, free := 0 })] } }; let src : Fin 8 := 0; let a : PAddr := 0x4001; let bs : List Byte := [1]; (bs ≠ []) ∧ inDram s.dev a.toNat = true ∧ (inDram s.dev (a.toNat + bs.length - 1) = true) ∧ (dramWaits s.dev (24 + src.val) a.toNat bs.length ≠ [])) := by
  refine ⟨?_, ?_, ?_, ?_⟩ <;> (dsimp only; decide +kernel)

theorem witness_IoAccessesAndCacheManagement_CacheManagement :
  (let s : State := { dev := mem4 }; let c : ClusterId := 0; let dev : Fin 16 := 9; domOn s.dev c.val = true) ∧
  (let s : State := { dev := setL1State mem4 3 2 }; let c : ClusterId := 0; let j : Fin 8 := 3; let dev : Fin 16 := 0; l1State s.dev (8 * c.val + j.val) = 2) ∧
  (let s : State := { dev := mem4 }; let ch : ChanId := 3; let i : Fin 8 := 2; let dev : Fin 16 := 9; (domOn s.dev (48 + ch.val / 2) = true) ∧ fbit s.dev (MC_MARK ch.val) (MC_MARK_MARKED i.val) = false ∧ dev.val ≤ 9 ∧ s.dev.smp.repairs.length < 16000) ∧
  (let s : State := { dev := mem4 }; let ch : ChanId := 3; let dev : Fin 16 := 9; (domOn s.dev (48 + ch.val / 2) = true) ∧ ((scrubSt s.dev ch.val).pos + 1 < chanLines s.dev)) ∧
  (let s : State := { dev := mem4 }; let l1 : Byte := 0x81; let dev : Fin 16 := 9; let a : CacheArray := (.l1 0); domOn s.dev (arrayDomain a) = true) := by
  refine ⟨?_, ?_, ?_, ?_, ?_⟩ <;> (dsimp only; decide +kernel)

theorem witness_RegisterWrites :
  (let s : State := State.reset; let who : Agent := .oasis; let off : BitVec 28 := 0x400000; let r := (reachReg who off.toNat).get (by decide +kernel); reachReg who off.toNat = some r ∧ domOn s.dev (blockDomain r.blk r.elem) = false) ∧
  (let who : Agent := .oasis; let off : BitVec 28 := 0xfffffff; reachReg who off.toNat = none) ∧
  (let s : State := { dev := mem4 }; let n : BankId := 0; domOn s.dev (24 + n.val) = true) ∧
  (let s : State := { dev := mem4 }; let c : ClusterId := 0; domOn s.dev c.val = true) := by
  refine ⟨?_, ?_, ?_, ?_⟩ <;> (dsimp only; decide +kernel)

theorem witness_CreditDepth :
  (let s : State := { dev := base }; let q : Queue := (.scatter 0); let n : Byte := 64; depthWritable q = true ∧ domOn s.dev (queueDomain q) = true ∧ 1 ≤ n.toNat ∧ n.toNat ≤ 64) :=
  by dsimp only; decide +kernel

theorem witness_CreditReturnAndStarvation :
  (let s : State := { dev := { base with credits := [(513, { out := 5, free := 27 })] } }; let q : Queue := .hist; let n : Nat := 4; q ≠ .twin ∧ ((creditQ s.dev (queueNum q)).out = n + 1)) ∧
  (let s : State := { dev := { base with credits := [(512, { out := 5, free := 27 })], twin := { base.twin with out := [twm] } } }; let n : Nat := 4; let m : TwinOut := (s.dev.twin.out).head (by decide +kernel); let l : Nat := (m.lane).get (by decide +kernel); (s.dev.twin.out = [m]) ∧ m.lane = some l ∧ ((creditQ s.dev 512).out = n + 1)) ∧
  (let s : State := { dev := { base with credits := [(513, { out := 32, free := 0, waiting := true })] } }; let q : Queue := .hist; ((creditQ s.dev (queueNum q)).waiting = true) ∧ mayIssue s.dev (queueNum q) = false ∧ ((creditQ s.dev (queueNum q)).recorded = false) ∧ s.dev.smp.phase = none ∧ s.dev.smp.selfTest = none ∧ fget s.dev SMP_CTRL SMP_CTRL_RAM_MIN ≤ 3 ∧ s.dev.smp.ram.length < 1024 ∧ fget s.dev TRC_TRIG TRC_TRIG_KIND ≠ 3) := by
  refine ⟨?_, ?_, ?_⟩ <;> (dsimp only; decide +kernel)

theorem witness_BankHandoverAndClear_BankHandover :
  (let s : State := { dev := bk0 0 }; let n : BankId := 0; domOn s.dev (24 + n.val) = true ∧ fbit s.dev (BK_OWNER n.val) BK_OWNER_HBUSY = false ∧ bankMode s.dev n.val = 0) ∧
  (let s : State := { dev := hb }; let n : BankId := 0; domOn s.dev (24 + n.val) = true ∧ ((fbit s.dev (BK_OWNER n.val) BK_OWNER_HBUSY = true ∨ bankMode s.dev n.val ≠ 0))) ∧
  (let s : State := { dev := setBank (fset hb (BK_OWNER 0) BK_OWNER_OWNER 0) 0 { bank hb 0 with queue := [{ thr := 0, id := 0, part := 0 }] } }; let n : BankId := 0; fbit s.dev (BK_OWNER n.val) BK_OWNER_HBUSY = true ∧ oldOwnerWaits s.dev n.val = true) ∧
  (let s : State := { dev := hb }; let n : BankId := 0; let next : Fin 64 := 5; fbit s.dev (BK_OWNER n.val) BK_OWNER_HBUSY = true ∧ oldOwnerWaits s.dev n.val = false ∧ ((bank s.dev n.val).next = next.val)) := by
  refine ⟨?_, ?_, ?_, ?_⟩ <;> (dsimp only; decide +kernel)

theorem witness_BankHandoverAndClear_BankClear :
  (let s : State := { dev := bkmem (bk0 0) }; let n : BankId := 0; domOn s.dev (24 + n.val) = true ∧ bankMode s.dev n.val = 0 ∧ fbit s.dev (BK_CTRL n.val) BK_CTRL_CLEAR_BUSY = false) ∧
  (let s : State := { dev := bkmem (fset (bk0 0) (BK_CTRL 0) BK_CTRL_CLEAR_BUSY 1) }; let n : BankId := 0; fbit s.dev (BK_CTRL n.val) BK_CTRL_CLEAR_BUSY = true) := by
  refine ⟨?_, ?_⟩ <;> (dsimp only; decide +kernel)

theorem witness_PairEnableAndInitialisation :
  (let s : State := { dev := pairD }; let k : CtlId := 0; domOn s.dev (24 + 3 * k.val) = true ∧ isLocked s.dev .IMG k.val = false ∧ fbit s.dev (IMG_CTRL k.val) IMG_CTRL_ENABLE = false ∧ regionsValid s.dev k.val = true ∧ bankMode s.dev (3 * k.val) = 1 ∧ bankMode s.dev (3 * k.val + 1) = 2) ∧
  (let s : State := { dev := pairBad }; let k : CtlId := 0; domOn s.dev (24 + 3 * k.val) = true ∧ isLocked s.dev .IMG k.val = false ∧ fbit s.dev (IMG_CTRL k.val) IMG_CTRL_ENABLE = false ∧ regionsValid s.dev k.val = false) ∧
  (let s : State := { dev := pairEn }; let k : CtlId := 0; domOn s.dev (24 + 3 * k.val) = true ∧ isLocked s.dev .IMG k.val = false ∧ fbit s.dev (IMG_CTRL k.val) IMG_CTRL_ENABLE = true) ∧
  (let s : State := { dev := pairInit }; let k : CtlId := 0; fbit s.dev (IMG_STATUS k.val) IMG_STATUS_INIT_BUSY = true ∧ ((imgSt s.dev k.val).heldWrites = []) ∧ (s.dev.hist.lists = [])) := by
  refine ⟨?_, ?_, ?_, ?_⟩ <;> (dsimp only; decide +kernel)

theorem witness_LineTableAccess :
  (let s : State := { dev := fset ltD (IMG_LT_INDEX 0) IMG_LT_INDEX_DONE 0 }; let k : CtlId := 0; domOn s.dev (24 + 3 * k.val) = true ∧ fbit s.dev (IMG_LT_INDEX k.val) IMG_LT_INDEX_DONE = false) ∧
  (let s : State := { dev := ltD }; let k : CtlId := 0; domOn s.dev (24 + 3 * k.val) = true ∧ fbit s.dev (IMG_LT_INDEX k.val) IMG_LT_INDEX_DONE = true) ∧
  (let s : State := { dev := ltD }; let k : CtlId := 0; domOn s.dev (24 + 3 * k.val) = true ∧ fbit s.dev (IMG_LT_INDEX k.val) IMG_LT_INDEX_DONE = true ∧ fbit s.dev (IMG_CTRL k.val) IMG_CTRL_ENABLE = false ∧ bitsOf (reg s.dev (IMG_LT_DATA k.val)) E_POL ≠ 3) ∧
  (let s : State := { dev := ltBad }; let k : CtlId := 0; domOn s.dev (24 + 3 * k.val) = true ∧ fbit s.dev (IMG_LT_INDEX k.val) IMG_LT_INDEX_DONE = true ∧ bitsOf (reg s.dev (IMG_LT_DATA k.val)) E_POL = 3) ∧
  (let s : State := { dev := ltEn }; let k : CtlId := 0; domOn s.dev (24 + 3 * k.val) = true ∧ fbit s.dev (IMG_LT_INDEX k.val) IMG_LT_INDEX_DONE = true ∧ fbit s.dev (IMG_CTRL k.val) IMG_CTRL_ENABLE = true) := by
  refine ⟨?_, ?_, ?_, ?_, ?_⟩ <;> (dsimp only; decide +kernel)

theorem witness_AbandonAndSweeper :
  (let s : State := { dev := pairEn }; let k : CtlId := 0; let a : Fin 2 := 0; let stamp : BitVec 16 := 0; domOn s.dev (24 + 3 * k.val) = true ∧ stamp.toNat = fillStamp s.dev k.val ∧ fbit s.dev (IMG_ABANDON k.val a.val) IMG_ABANDON_BUSY = false) ∧
  (let s : State := { dev := pairEn }; let k : CtlId := 0; let a : Fin 2 := 1; let stamp : BitVec 16 := 3; domOn s.dev (24 + 3 * k.val) = true ∧ ((stamp.toNat ≠ fillStamp s.dev k.val ∨ fbit s.dev (IMG_ABANDON k.val a.val) IMG_ABANDON_BUSY = true))) ∧
  (let s : State := { dev := abBusy }; let k : CtlId := 0; let a : Fin 2 := 1; fbit s.dev (IMG_ABANDON k.val a.val) IMG_ABANDON_BUSY = true ∧ ((imgSt s.dev k.val).abandonWait = [])) ∧
  (let s : State := { dev := pairEn }; let k : CtlId := 0; fbit s.dev (IMG_CTRL k.val) IMG_CTRL_ENABLE = true ∧ ((∀ r st, busyAbandon s.dev k.val r st = false))) := by
  refine ⟨?_,
    ?_,
    ?_,
    ⟨by decide +kernel, no_abandon (by decide +kernel)⟩⟩ <;> (try dsimp only) <;> decide +kernel
end F04

namespace F05
def pw (a o g : Nat) : Word := BitVec.ofNat 64 (a * 2 ^ 60 + o * 2 ^ 30 + g)
def pe (a o g : Nat) : PrickEntry := ⟨3, a, o, g⟩
def cycD (a o g : Nat) : Dev :=
  fset (fset (fset { base with time := 10 ^ 19, cyc := { pricking := [(3, pw a o g), (7, pw 8 900 5)], classes := [(0, { t0 := 1000000, nextM := 2, ran := [] })] } } (CYC_CLASS_CTRL 0) CYC_CLASS_CTRL_ENABLE 1) (CYC_CLASS_CTRL 0) CYC_CLASS_CTRL_RUNNING 1) (CYC_PERIOD 0) CYC_PERIOD_PERIOD 4000
def thrW : Word := BitVec.ofNat 64 (0x12340 * 2 ^ 16 + 5 * 2 ^ 12 + 0 + 1)
def modCyc (d : Dev) : Dev := { d with cyc := { d.cyc with threads := [(2, thrW), (2047, 0)] } }
def withBk (d : Dev) : Dev := fset d (BK_CTRL 2) BK_CTRL_MODE 0
def relD : Dev := setThr (modCyc (cycD 1 500 0x20)) 0 { th0 with st := .cycleWait }
def tw (d : Dev) : Dev := fset (fset d TWIN_CTRL TWIN_CTRL_EN 1) TWIN_STATUS TWIN_STATUS_ROLE 1
def gathD : Dev := let d := cycD 4 500 0x81; { d with cyc := { d.cyc with egressNow := [(5, 1), (6, 0x71), (9, 3)] } }
def markD : Dev := fset (fset (fset (cycD 8 500 77) TRC_TRIG TRC_TRIG_KIND 1) TRC_TRIG TRC_TRIG_ARG 77) TRC_STATUS TRC_STATUS_STATE 1
def sampBase : Dev :=
  let d := cycD 6 500 2
  let d1 := { d with hist := { d.hist with openBuf := some {}, d0 := [(hKey 1 2, BitVec.ofNat 64 (2 ^ 41 + 2 ^ 20 * 4 + 10)), (hKey 2 11, BitVec.ofNat 64 (2 ^ 28 + 8))] } }
  fset (fset (fset (fset (fset (fset (fset d1 HIST_STATUS HIST_STATUS_STATE 2) (IMG_REGION 0 0) IMG_REGION_KIND 2) (IMG_REGION 0 0) IMG_REGION_COUNT 8) (BK_SHARE 0) BK_SHARE_MASK 0x1000000) (IMG_CTRL 0) IMG_CTRL_ENABLE 1)
    (BK_CTRL 0) BK_CTRL_MODE 1) (BK_CTRL 1) BK_CTRL_MODE 2
def offD : Dev := fset (cycD 4 500 1) (CYC_CLASS_CTRL 0) CYC_CLASS_CTRL_RUNNING 0
def dis : Dev := fset offD (CYC_CLASS_CTRL 0) CYC_CLASS_CTRL_ENABLE 0
def armedD : Dev := { offD with cyc := { offD.cyc with classes := [(0, { armed := true, nextM := 2, t0 := 1000000, ran := [3, 7] })] } }
def runD : Dev := let d := cycD 4 500 1; { d with cyc := { d.cyc with classes := [(0, { nextM := 2, t0 := 1000000, ran := [3, 7] })] } }
def stopD : Dev := fset runD (CYC_CLASS_CTRL 0) CYC_CLASS_CTRL_STOPPING 1
def job : ScatterJob := { stream := 5, entry := 0, frame := List.replicate 60 1, stamp := 5, cls := 0, cycle := 3, credit := true }
def scD : Dev := { base with credits := [(32, { out := 1, free := 31 })], cyc := { scatterQ := [(0, [job])] } }
def gruD : Dev :=
  let d := withBk (fset (cycD 4 500 1) (BK_OWNER 2) BK_OWNER_OWNER 0x10)
  { d with cyc := { d.cyc with gathers := [(0, [{ cls := 0, todo := [5], start := 500, entries := [(5, BitVec.ofNat 64 (1 + 2 * 2 ^ 9 + 64 * 2 ^ 34))] }])] } }
def bfr : BuiltFrame := { stream := 5, entry := BitVec.ofNat 64 (1 + 2 * 2 ^ 9 + 64 * 2 ^ 34), frame := List.replicate 64 0, cls := 0, cycle := 3, offset := 700 }
def hoD : Dev := let d := cycD 4 500 1; { d with credits := [(40, { out := 1, free := 31 })], cyc := { d.cyc with built := [(0, [bfr])] } }
def rst : RateSt := { block := 4, inst := 0, code := 0x105, last := 0, counted := 3 }
def rlD : Dev := { base with smp := { base.smp with rates := [rst] } }

theorem witness_PrickingActionsAndSamples_PrickingActions_1 :
  (let s : State := { dev := relD }; let c : ClassId := 0; let e : Fin 64 := 3; let p : PrickEntry := (pe 1 500 0x20); let i := 2; let w := thrW; let t := entryThr w; let x := thr s.dev t; (NextAction s.dev c.val e.val 1 p) ∧ twinOn s.dev = false ∧ s.dev.twin.freezeAt = none ∧ (s.dev.smp.moves = []) ∧ (classEntries s.dev c.val = [(i, w)]) ∧ (nbit (p.arg % 65536) (bitsOf w (15, 12)) = true) ∧ entryThr w < 1536 ∧ nextDeferred x = none ∧ bestSource (pendingFor s.dev t) x.ipl = none) ∧
  (let s : State := { dev := cycD 2 500 100 }; let c : ClassId := 0; let e : Fin 64 := 3; let p : PrickEntry := (pe 2 500 100); (NextAction s.dev c.val e.val 2 p) ∧ ((agreeEntry s.dev c.val).isSome = true ∨ s.dev.twin.journal = [])) ∧
  (let s : State := { dev := tw (cycD 3 500 0) }; let c : ClassId := 0; let e : Fin 64 := 3; let p : PrickEntry := (pe 3 500 0); (NextAction s.dev c.val e.val 3 p) ∧ inAgreement s.dev = true ∧ (s.dev.twin.journal = []) ∧ ((agreeOf s.dev c.val).early = none)) ∧
  (let s : State := { dev := gathD }; let c : ClassId := 0; let e : Fin 64 := 3; let p : PrickEntry := (pe 4 500 0x81); (NextAction s.dev c.val e.val 4 p)) ∧
  (let s : State := { dev := cycD 5 500 0x81 }; let c : ClassId := 0; let e : Fin 64 := 3; let p : PrickEntry := (pe 5 500 0x81); (NextAction s.dev c.val e.val 5 p)) := 
  ⟨by refine ⟨by unfold NextAction; decide +kernel, ?_, ?_, ?_, ?_, ?_, ?_, ?_, ?_⟩ <;> decide +kernel,
   ⟨by unfold NextAction; decide +kernel, by decide +kernel⟩,
   by refine ⟨by unfold NextAction; decide +kernel, ?_, ?_, ?_⟩ <;> decide +kernel,
   by unfold NextAction; decide +kernel,
   by unfold NextAction; decide +kernel⟩

theorem witness_PrickingActionsAndSamples_PrickingActions_2 :
  (let s : State := { dev := { cycD 7 500 6 with routes := [(0xF86, 0x11)] } }; let c : ClassId := 0; let e : Fin 64 := 3; let p : PrickEntry := (pe 7 500 6); (NextAction s.dev c.val e.val 7 p) ∧ (nbit (mget (fun _ => (0 : Word)) s.dev.routes (0xF80 + 8 * c.val + p.arg % 8)).toNat 0 = true)) ∧
  (let s : State := { dev := markD }; let c : ClassId := 0; let e : Fin 64 := 3; let p : PrickEntry := (pe 8 500 77); (NextAction s.dev c.val e.val 8 p) ∧ fget s.dev TRC_TRIG TRC_TRIG_KIND = 1 ∧ fget s.dev TRC_TRIG TRC_TRIG_ARG = p.arg % 65536 ∧ fget s.dev TRC_STATUS TRC_STATUS_STATE = 1 ∧ s.dev.trc.triggered = false) := 
  ⟨⟨by unfold NextAction; decide +kernel, by decide +kernel⟩,
   by refine ⟨by unfold NextAction; decide +kernel, ?_, ?_, ?_, ?_⟩ <;> decide +kernel⟩

theorem witness_PrickingActionsAndSamples_SampleAction :
  (let s : State := { dev := sampBase }; let c : ClassId := 0; let e : Fin 64 := 3; let p : PrickEntry := (pe 6 500 2); let x : Nat := 11; let w : Word := (BitVec.ofNat 64 (2 ^ 28 + 8)); let b : HBuf := {}; let k := bitsOf w (22, 20); let r := bitsOf w (24, 23); (NextAction s.dev c.val e.val 6 p) ∧ domOn s.dev 77 = true ∧ p.arg % 65536 ≤ 1023 ∧ (bitsOf (hWord0 s.dev 1 (p.arg % 65536)) (41, 41) ≠ 0) ∧ (listSignals s.dev (hWord0 s.dev 1 (p.arg % 65536)) = [(x, w)]) ∧ hState s.dev = H_RUNNING ∧ (s.dev.hist.lists = []) ∧ s.dev.hist.listEnd ≤ 5 * nowNs s.dev ∧ (signalWaits s.dev w = []) ∧ regionBase s.dev 0 % 4096 = 0 ∧ regionBase s.dev 2 % 4096 = 0 ∧ s.dev.hist.openBuf = some b ∧ b.blocks.length < 1000 ∧ (mget (fun _ => {}) s.dev.hist.comp x = ({} : HComp)) ∧ imgClass s.dev k = c.val ∧ r ≠ 3 ∧ (bitsOf w (19, 0) < 8 * fget s.dev (IMG_REGION k r) IMG_REGION_COUNT) ∧ shared s.dev (3 * k) 0x18 = true ∧ fbit s.dev (IMG_CTRL k) IMG_CTRL_ENABLE = true ∧ domOn s.dev (24 + 3 * k) = true ∧ domOn s.dev (24 + 3 * k + 1) = true) :=
  by refine ⟨by unfold NextAction; decide +kernel, ?_, ?_, ?_, ?_, ?_, ?_, ?_, ?_, ?_, ?_, ?_, ?_, ?_, ?_, ?_, ?_, ?_, ?_, ?_, ?_⟩ <;> decide +kernel

theorem witness_ClassesAndBoundaries_ClassEnableAndDisable :
  (let s : State := { dev := dis }; let c : ClassId := 0; domOn s.dev 76 = true ∧ fbit s.dev (CYC_CLASS_CTRL c.val) CYC_CLASS_CTRL_STOPPING = false ∧ fbit s.dev (CYC_CLASS_CTRL c.val) CYC_CLASS_CTRL_ENABLE = false) ∧
  (let s : State := { dev := cycD 4 500 1 }; let c : ClassId := 0; domOn s.dev 76 = true ∧ fbit s.dev (CYC_CLASS_CTRL c.val) CYC_CLASS_CTRL_STOPPING = false ∧ fbit s.dev (CYC_CLASS_CTRL c.val) CYC_CLASS_CTRL_ENABLE = true) := by
  refine ⟨?_, ?_⟩ <;> (dsimp only; decide +kernel)

theorem witness_ClassesAndBoundaries_ClassBoundaries :
  (let s : State := { dev := armedD }; let c : ClassId := 0; domOn s.dev 76 = true ∧ twinOn s.dev = false ∧ (s.dev.twin.journal = []) ∧ (s.dev.twin.joinWait = []) ∧ ((∀ j ∈ s.dev.hist.lists, j.cls ≠ c.val)) ∧ (stillToRun s.dev c.val = []) ∧ ((∀ e ∈ schedule s.dev c.val, e.offset ≠ 0)) ∧ classRuns s.dev c.val = false ∧ ((cls s.dev c.val).armed = true)) ∧
  (let s : State := { dev := runD }; let c : ClassId := 0; domOn s.dev 76 = true ∧ twinOn s.dev = false ∧ (s.dev.twin.journal = []) ∧ (s.dev.twin.joinWait = []) ∧ ((∀ j ∈ s.dev.hist.lists, j.cls ≠ c.val)) ∧ (stillToRun s.dev c.val = []) ∧ ((∀ e ∈ schedule s.dev c.val, e.offset ≠ 0)) ∧ classRuns s.dev c.val = true ∧ fbit s.dev (CYC_CLASS_CTRL c.val) CYC_CLASS_CTRL_STOPPING = false) ∧
  (let s : State := { dev := stopD }; let c : ClassId := 0; domOn s.dev 76 = true ∧ twinOn s.dev = false ∧ (s.dev.twin.journal = []) ∧ (s.dev.twin.joinWait = []) ∧ ((∀ j ∈ s.dev.hist.lists, j.cls ≠ c.val)) ∧ (stillToRun s.dev c.val = []) ∧ ((∀ e ∈ schedule s.dev c.val, e.offset ≠ 0)) ∧ classRuns s.dev c.val = true ∧ fbit s.dev (CYC_CLASS_CTRL c.val) CYC_CLASS_CTRL_STOPPING = true) := by
  refine ⟨?_, ?_, ?_⟩ <;> (dsimp only; decide +kernel)

theorem witness_ScatterAndGather_1 :
  (let s : State := { dev := scD }; let k : CtlId := 0; let at_ : Nat := 700; let n : Nat := 9; let job := (scatterQueue s.dev k.val).head (by decide +kernel); let rest := (scatterQueue s.dev k.val).tail; let x := scatterPart (advanceTo s.dev at_) k.val job n; domOn s.dev (24 + 3 * k.val) = true ∧ (scatterQueue s.dev k.val = job :: rest) ∧ (uncredited (job :: rest) = none) ∧ (scatterWaits s.dev k.val job n = []) ∧ job.buf = none ∧ x.ended = true) :=
  by dsimp only; decide +kernel

theorem witness_ScatterAndGather_2 :
  (let s : State := { dev := scD }; let k : CtlId := 0; let at_ : Nat := 700; let n : Nat := 0; let job := (scatterQueue s.dev k.val).head (by decide +kernel); let rest := (scatterQueue s.dev k.val).tail; let x := scatterPart (advanceTo s.dev at_) k.val job n; domOn s.dev (24 + 3 * k.val) = true ∧ (scatterQueue s.dev k.val = job :: rest) ∧ (uncredited (job :: rest) = none) ∧ (scatterWaits s.dev k.val job n = []) ∧ job.buf = none ∧ x.ended = false) :=
  by dsimp only; decide +kernel

theorem witness_ScatterAndGather_3 :
  (let s : State := { dev := { gruD with credits := [(40, { out := 32, free := 0 })] } }; let k : CtlId := 0; let c : ClassId := 0; let run := (findRun c.val (gatherRuns s.dev k.val)).get (by decide +kernel); let st := (run.todo).head (by decide +kernel); let rest := (run.todo).tail; findRun c.val (gatherRuns s.dev k.val) = some run ∧ (run.todo = st :: rest) ∧ mayIssue s.dev (40 + k.val) = false) :=
  by dsimp only; decide +kernel

theorem witness_ScatterAndGather_4 :
  (let s : State := { dev := hoD }; let k : CtlId := 0; let f := (builtFrames s.dev k.val).head (by decide +kernel); let rest := (builtFrames s.dev k.val).tail; (builtFrames s.dev k.val = f :: rest) ∧ 0 < (creditQ s.dev (40 + k.val)).out) :=
  by dsimp only; decide +kernel

theorem witness_CycleTimeAndTables_1 :
  (let s : State := { dev := cycD 4 500 1 }; domOn s.dev 76 = true) ∧
  (let s : State := { dev := fset (fset rlD CYC_CTRL CYC_CTRL_TSRC 0) CYC_TIME_STATUS CYC_TIME_STATUS_STATE 1 }; fget s.dev CYC_CTRL CYC_CTRL_TSRC < 2 ∧ fget s.dev CYC_TIME_STATUS CYC_TIME_STATUS_STATE ≠ 3) ∧
  (let s : State := { dev := fset (fset rlD CYC_CTRL CYC_CTRL_TSRC 0) CYC_TIME_STATUS CYC_TIME_STATUS_STATE 1 }; let block : Byte := 4; let inst : Byte := 0; let code : BitVec 16 := 0x105; let r := (rateOf block.toNat inst.toNat code.toNat s.dev.smp.rates).get (by decide +kernel); let n := (r.counted - 1); rateOf block.toNat inst.toNat code.toNat s.dev.smp.rates = some r ∧ r.counted = n + 1) ∧
  (let s : State := { dev := fset (cycD 4 500 1) CYC_TBL_INDEX CYC_TBL_INDEX_DONE 0 }; fbit s.dev CYC_TBL_INDEX CYC_TBL_INDEX_DONE = false) ∧
  (let s : State := { dev := cycD 4 500 1 }; let table : Fin 16 := 9; let i : BitVec 16 := 5; fbit s.dev CYC_TBL_INDEX CYC_TBL_INDEX_DONE = true ∧ domOn s.dev 76 = true ∧ cycTableSize table.val ≤ i.toNat) ∧
  (let s : State := { dev := setReg (fset (cycD 4 500 1) (CYC_CLASS_CTRL 0) CYC_CLASS_CTRL_ENABLE 0) CYC_TBL_DATA0 0x1234 }; let table : Fin 16 := 0; let i : BitVec 16 := 3; fbit s.dev CYC_TBL_INDEX CYC_TBL_INDEX_DONE = true ∧ domOn s.dev 76 = true ∧ i.toNat < cycTableSize table.val) := by
  refine ⟨?_, ?_, ?_, ?_, ?_, ?_⟩ <;> (dsimp only; decide +kernel)

theorem witness_CycleTimeAndTables_2 :
  (let s : State := { dev := setReg (fset (cycD 4 500 1) (CYC_CLASS_CTRL 0) CYC_CLASS_CTRL_ENABLE 0) CYC_TBL_DATA0 0x1234 }; let table : Fin 16 := 0; let i : BitVec 16 := 3; let v := reg s.dev CYC_TBL_DATA0; let on (c : Nat) : Bool := fbit s.dev (CYC_CLASS_CTRL c) CYC_CLASS_CTRL_ENABLE; fbit s.dev CYC_TBL_INDEX CYC_TBL_INDEX_DONE = true ∧ domOn s.dev 76 = true ∧ i.toNat < cycTableSize table.val ∧ (table.val = 0 ∧ on (i.toNat / 64) = false ∨ table.val = 1 ∧ on (i.toNat / 256) = false ∨
        table.val = 2 ∧ streamRefused s.dev 1 v = false ∧ ingressBudget s.dev i.toNat v = true ∨
        table.val = 3 ∧ streamRefused s.dev 2 v = false ∧ on (bitsOf v S_CLASS) = false ∧ on (bitsOf (cycEntry s.dev 3 i.toNat).1 S_CLASS) = false ∨ 4 ≤ table.val)) ∧
  (let s : State := { dev := setReg (cycD 4 500 1) CYC_TBL_DATA0 0xffffffffffffffff }; let table : Fin 16 := 2; let i : BitVec 16 := 300; let v := reg s.dev CYC_TBL_DATA0; fbit s.dev CYC_TBL_INDEX CYC_TBL_INDEX_DONE = true ∧ domOn s.dev 76 = true ∧ i.toNat < cycTableSize table.val ∧ (table.val = 2 ∧ streamRefused s.dev 1 v = true ∨ table.val = 3 ∧ streamRefused s.dev 2 v = true)) := by
  refine ⟨?_, ?_⟩ <;> (dsimp only; decide +kernel)
end F05

namespace F06
def ergB : Dev :=
  let d := fset (fset (fset { base with time := 10 ^ 19 } SW_GROUP_MODE (SW_GROUP_MODE_GMODE 0) 1) (PORT_STATUS 0) PORT_STATUS_LINK 1) (PORT_STATUS 1) PORT_STATUS_LINK 1
  let d1 := fset (fset (fset d SW_CTRL SW_CTRL_LEARN_EN 0) (PORT_CTRL 0) PORT_CTRL_CT_EN 0) (PORT_VLAN 0) PORT_VLAN_ACCEPT 0
  let d2 := fset (fset (fset d1 (PORT_VLAN 0) PORT_VLAN_INGRESS_FILTER 0) (PORT_TC 1) PORT_TC_QLIMIT 0) SW_BUF SW_BUF_SHARED_FREE 100
  { d2 with erg := { d2.erg with tbl := [(swKey 0 1 0, 3)], nextId := 9 } }
def body : List Byte := [2, 0, 0, 0, 0, 1, 2, 0, 0, 0, 0, 2, 8, 0] ++ List.replicate 46 0x55
def goodF : List Byte := body ++ leBytes 4 (crcFcs body)
def rxf (b : List Byte) : RxFrame := { id := 4, bytes := b, express := true, first := 3, dests := [.port 1], vid := 1, prio := 2 }
def rxD (b : List Byte) : Dev := setPort { ergB with erg := { ergB.erg with frames := [{ id := 4, port := some 0, bytes := b, shared := 6, users := 1 }] } } 0 { rx := [rxf b] }
def te : TxEnt := { id := 4, bytes := goodF, tc := 3, cells := 1 }
def txD : Dev := setPort ergB 0 { queues := [(1, [te]), (3, [te])] }
def tnow : TxNow := { ent := te, whole := true }
def bf : BufFrame := { id := 4, port := some 1, bytes := goodF, shared := 1, users := 1 }
def tdD : Dev := setPort { fset ergB SW_BUF SW_BUF_SHARED_SIZE 102 with erg := { ergB.erg with frames := [bf, { bf with id := 5 }] } } 0 { tx := [tnow] }
def fdbW (st : Nat) : Word := putBits (putBits (putBits 0 F_VALID 1) F_MAC 0x20000000001) F_VID 1
def fdbI : Nat := 8 * fdbSet 0x20000000001 1
def fdbD : Dev := fset { ergB with erg := { ergB.erg with tbl := mset (fun _ => 0) ergB.erg.tbl (swKey 1 fdbI 0) (fdbW 0) } } SW_FDB_STAT SW_FDB_STAT_ENTRIES 3
def ageD : Dev := { fset (fset { ergB with erg := { ergB.erg with tbl := [(swKey 0 1 0, 3), (swKey 1 77 0, fdbW 0)] } } SW_FDB_STAT SW_FDB_STAT_ENTRIES 3) SW_AGEING SW_AGEING_SECONDS 10 with time := 5 }
def recD : Dev := { ergB with erg := { ergB.erg with recovery := [(7, { take := false, last := 2000 })] } }
def d0w (d : Dev) : Dev := setReg (setReg d (SW_TBL_DATA 0) (fdbW 0)) (SW_TBL_DATA 1) 5
def fullD : Dev := { d0w ergB with erg := { ergB.erg with tbl := (rangeFrom 0 8).map (fun j => (swKey 1 (fdbI + j) 0, putBits (putBits 0 F_VALID 1) F_MAC j)) } }
def gateD (p c : Nat) : Dev := setPort (fset (fset ergB (PORT_GATE_CTRL 0) PORT_GATE_CTRL_PENDING p) (PORT_GATE_CTRL 0) PORT_GATE_CTRL_CYCLE c) 0 { admin := [(0, ⟨5, 1000⟩), (1, ⟨6, 500⟩)], oper := [(0, ⟨9, 700⟩)], changeAt := 3, gates := 1, operCycle := 1000 }
def gOn : Dev := fset (fset (gateD 0 1000) (PORT_GATE_CTRL 0) PORT_GATE_CTRL_ENABLE 1) (PORT_GATE_CTRL 0) PORT_GATE_CTRL_OPER_LEN 1
def verD : Dev := fset (fset ergB (PORT_PREEMPT 0) PORT_PREEMPT_EN 1) (PORT_PREEMPT 0) PORT_PREEMPT_STATUS 2
def anD : Dev := fset (fset (fset (fset ergB (PORT_STATUS 0) PORT_STATUS_LINK 0) (PORT_CTRL 0) PORT_CTRL_EN 1) (PORT_CTRL 0) PORT_CTRL_AN_EN 1) (PORT_AN 0) PORT_AN_ADV 0x7f
def noAn : Dev := fset (fset (fset anD (PORT_CTRL 0) PORT_CTRL_AN_EN 0) (PORT_CTRL 0) PORT_CTRL_SPEED 2) (PORT_CTRL 0) PORT_CTRL_EN 1
def ldD : Dev := { setPort tdD 0 { tx := [tnow], queues := [(1, [te]), (3, [te])] } with erg := { (setPort tdD 0 { tx := [tnow], queues := [(1, [te]), (3, [te])] }).erg with tbl := [(swKey 0 1 0, 3), (swKey 1 77 0, fdbW 0), (swKey 1 78 0, putBits (fdbW 0) F_STATIC 1)] } }

theorem witness_FrameReceptionAndTransmission_1 :
  (let s : State := { dev := ergB }; let p : PortId := 0; let ex : Bool := true; let bytes : List Byte := goodF; let h := parseHeader bytes; linkUp s.dev p.val = true ∧ ((port s.dev p.val).rx.any (fun r => r.express == ex && r.arrived.isNone) = false) ∧ twinOn s.dev = false ∧ h.etype ≠ 0x8808 ∧ isReserved h.da = false ∧ fget s.dev (PORT_VLAN p.val) PORT_VLAN_ACCEPT = 0 ∧ fbit s.dev (PORT_VLAN p.val) PORT_VLAN_INGRESS_FILTER = false ∧ fbit s.dev SW_CTRL SW_CTRL_LEARN_EN = false ∧ streamHandle s.dev h (classify s.dev p.val h).1 = none ∧ fbit s.dev (PORT_CTRL p.val) PORT_CTRL_CT_EN = false ∧ ((forwardTo s.dev (some p.val) none h.da (classify s.dev p.val h).1).2.1 = false)) :=
  by dsimp only; decide +kernel

theorem witness_FrameReceptionAndTransmission_2 :
  (let s : State := { dev := rxD goodF }; let p : PortId := 0; let ex : Bool := true; let bytes : List Byte := goodF; let r := ((port s.dev p.val).rx.find? (fun r => r.express == ex)).get (by decide +kernel); let q := 1; let n := r.bytes.length; ((port s.dev p.val).rx.find? (fun r => r.express == ex) = some r) ∧ r.arrived = none ∧ r.dropped = false ∧ r.control = false ∧ r.cyclic = false ∧ (r.cuts = []) ∧ (r.dests = [.port q]) ∧ twinOn s.dev = false ∧ 64 ≤ n ∧ n ≤ r.maxLen ∧ mayIssue s.dev (128 + p.val) = true ∧ linkUp s.dev q = true ∧ fget s.dev (PORT_TC q) PORT_TC_QLIMIT = 0 ∧ q < 128 ∧ ((∀ f ∈ s.dev.erg.frames, f.id = r.id → f.port = some p.val))) ∧
  (let s : State := { dev := { rxD goodF with credits := [(128, { out := 32, free := 0 })] } }; let p : PortId := 0; let ex : Bool := true; let r := ((port s.dev p.val).rx.find? (fun r => r.express == ex)).get (by decide +kernel); ((port s.dev p.val).rx.find? (fun r => r.express == ex) = some r) ∧ r.arrived = none ∧ r.dropped = false ∧ r.control = false ∧ mayIssue s.dev (128 + p.val) = false) := by
  refine ⟨?_, ?_⟩ <;> (dsimp only; decide +kernel)

theorem witness_FrameReceptionAndTransmission_3 :
  (let s : State := { dev := txD }; let p : PortId := 0; let tc := 3; let e := (queueOf s.dev p.val tc).head (by decide +kernel); let rest := (queueOf s.dev p.val tc).tail; tc < 8 ∧ linkUp s.dev p.val = true ∧ gatesOn s.dev p.val = false ∧ ((port s.dev p.val).tx = []) ∧ (queueOf s.dev p.val tc = e :: rest) ∧ e.tc = tc ∧ ((∀ u, tc < u → u < 8 → queueOf s.dev p.val u = []))) ∧
  (let s : State := { dev := tdD }; let p : PortId := 0; let t := ((port s.dev p.val).tx).head (by decide +kernel); let f := (findFrame s.dev t.ent.id).get (by decide +kernel); ((port s.dev p.val).tx = [t]) ∧ t.whole = true ∧ findFrame s.dev t.ent.id = some f ∧ f.users ≤ 1 ∧ ((∀ q, f.port = some q → q < 128)) ∧ (s.dev.erg.frames.filter (fun g => g.id == t.ent.id) = [f]) ∧ sharedFree s.dev + sharedHeld s.dev = fget s.dev SW_BUF SW_BUF_SHARED_SIZE) ∧
  (let s : State := { dev := ageD }; let i : BitVec 17 := 77; fdbValid s.dev i.toNat = true ∧ bitsOf (swWord s.dev 1 i.toNat 0) F_STATIC = 0 ∧ 0 < fget s.dev SW_AGEING SW_AGEING_SECONDS) ∧
  (let s : State := { dev := recD }; let hd : Fin 16384 := 7; ((mget (fun _ => {}) s.dev.erg.recovery hd.val).take = false)) := by
  refine ⟨by refine ⟨?_, ?_, ?_, ?_, ?_, ?_, all_between (by decide +kernel)⟩ <;> decide +kernel,
    ?_,
    ?_,
    ?_⟩ <;> (try dsimp only) <;> decide +kernel

theorem witness_SwitchTablesAndPorts_SwitchTables_1 :
  (let s : State := { dev := ergB }; let table : Fin 16 := 0; let i : BitVec 17 := 0; domOn s.dev 76 = true ∧ fbit s.dev SW_TBL_INDEX SW_TBL_INDEX_DONE = true ∧ swInRange table.val i.toNat = false) ∧
  (let s : State := { dev := d0w ergB }; let table : Fin 16 := 0; let i : BitVec 17 := 1; domOn s.dev 76 = true ∧ fbit s.dev SW_TBL_INDEX SW_TBL_INDEX_DONE = true ∧ swInRange table.val i.toNat = true) ∧
  (let s : State := { dev := d0w ergB }; let table : Fin 16 := 0; let i : BitVec 17 := 1; domOn s.dev 76 = true ∧ fbit s.dev SW_TBL_INDEX SW_TBL_INDEX_DONE = true ∧ swInRange table.val i.toNat = true) ∧
  (let s : State := { dev := ergB }; let table : Fin 16 := 0; domOn s.dev 76 = true ∧ fbit s.dev SW_TBL_INDEX SW_TBL_INDEX_DONE = true ∧ table.val ≠ 1) ∧
  (let s : State := { dev := d0w ergB }; let table : Fin 16 := 1; let w0 := reg s.dev (SW_TBL_DATA 0); let mac := bitsOf w0 F_MAC; let vid := bitsOf w0 F_VID; let j := ((fdbFind s.dev mac vid).or (fdbFree s.dev mac vid)).get (by decide +kernel); domOn s.dev 76 = true ∧ fbit s.dev SW_TBL_INDEX SW_TBL_INDEX_DONE = true ∧ table.val = 1 ∧ ((fdbFind s.dev mac vid).or (fdbFree s.dev mac vid) = some j)) := by
  refine ⟨?_, ?_, ?_, ?_, ?_⟩ <;> (dsimp only; decide +kernel)

theorem witness_SwitchTablesAndPorts_SwitchTables_2 :
  (let s : State := { dev := fullD }; let table : Fin 16 := 1; let w0 := reg s.dev (SW_TBL_DATA 0); let mac := bitsOf w0 F_MAC; let vid := bitsOf w0 F_VID; domOn s.dev 76 = true ∧ fbit s.dev SW_TBL_INDEX SW_TBL_INDEX_DONE = true ∧ table.val = 1 ∧ fdbFind s.dev mac vid = none ∧ fdbFree s.dev mac vid = none) ∧
  (let s : State := { dev := d0w fdbD }; let table : Fin 16 := 1; let w0 := reg s.dev (SW_TBL_DATA 0); let mac := bitsOf w0 F_MAC; let vid := bitsOf w0 F_VID; let j := (fdbFind s.dev mac vid).get (by decide +kernel); domOn s.dev 76 = true ∧ fbit s.dev SW_TBL_INDEX SW_TBL_INDEX_DONE = true ∧ table.val = 1 ∧ fdbFind s.dev mac vid = some j) ∧
  (let s : State := { dev := d0w ergB }; let table : Fin 16 := 1; let w0 := reg s.dev (SW_TBL_DATA 0); let mac := bitsOf w0 F_MAC; let vid := bitsOf w0 F_VID; domOn s.dev 76 = true ∧ fbit s.dev SW_TBL_INDEX SW_TBL_INDEX_DONE = true ∧ table.val = 1 ∧ fdbFind s.dev mac vid = none) := by
  refine ⟨?_, ?_, ?_⟩ <;> (dsimp only; decide +kernel)

theorem witness_SwitchTablesAndPorts_PortsAndGates_1 :
  (let s : State := { dev := gateD 0 1000 }; let p : PortId := 0; isEthernet s.dev p.val = true) ∧
  (let s : State := { dev := gateD 1 1000 }; let p : PortId := 0; let g := PORT_GATE_CTRL p.val; fbit s.dev g PORT_GATE_CTRL_PENDING = true) ∧
  (let s : State := { dev := gOn }; let p : PortId := 0; let x := (gatesAt s.dev p.val (nowNs s.dev)).get (by decide +kernel); gatesOn s.dev p.val = true ∧ (operSegs s.dev p.val ≠ []) ∧ gatesAt s.dev p.val (nowNs s.dev) = some x ∧ ((port s.dev p.val).gates ≠ x.1)) ∧
  (let s : State := { dev := gateD 0 1000 }; let p : PortId := 0; let list : Fin 2 := 0; let e : Fin 1024 := 1; let x := (mget (fun _ => {}) (if list.val = 0 then (port s.dev p.val).admin else (port s.dev p.val).oper) e.val); isEthernet s.dev p.val = true ∧ fbit s.dev (PORT_GATE_INDEX p.val) PORT_GATE_INDEX_DONE = true ∧ (mget (fun _ => {}) (if list.val = 0 then (port s.dev p.val).admin else (port s.dev p.val).oper) e.val = x) ∧ x.gates < 256 ∧ x.interval < 2 ^ 32) ∧
  (let s : State := { dev := gateD 0 1000 }; let p : PortId := 0; isEthernet s.dev p.val = true ∧ fbit s.dev (PORT_GATE_INDEX p.val) PORT_GATE_INDEX_DONE = true) := by
  refine ⟨?_, ?_, ?_, ?_, ?_⟩ <;> (dsimp only; decide +kernel)

theorem witness_SwitchTablesAndPorts_PortsAndGates_2 :
  (let s : State := { dev := fset ldD (PORT_GATE_INDEX 0) PORT_GATE_INDEX_DONE 0 }; let p : PortId := 0; isEthernet s.dev p.val = true ∧ fbit s.dev (PORT_GATE_INDEX p.val) PORT_GATE_INDEX_DONE = false) ∧
  (let s : State := { dev := verD }; let p : PortId := 0; fget s.dev (PORT_PREEMPT p.val) PORT_PREEMPT_STATUS = 2) ∧
  (let s : State := { dev := anD }; let p : PortId := 0; isEthernet s.dev p.val = true ∧ fbit s.dev (PORT_STATUS p.val) PORT_STATUS_LINK = false ∧ fbit s.dev (PORT_CTRL p.val) PORT_CTRL_EN = true ∧ fbit s.dev (PORT_CTRL p.val) PORT_CTRL_AN_EN = true) ∧
  (let s : State := { dev := gateD 0 1000 }; let p : PortId := 0; linkUp s.dev p.val = true) ∧
  (let s : State := { dev := noAn }; let p : PortId := 0; isEthernet s.dev p.val = true ∧ fbit s.dev (PORT_STATUS p.val) PORT_STATUS_LINK = false ∧ fbit s.dev (PORT_CTRL p.val) PORT_CTRL_EN = true ∧ fbit s.dev (PORT_CTRL p.val) PORT_CTRL_AN_EN = false) ∧
  (let s : State := { dev := gateD 0 1000 }; let p : PortId := 0; isEthernet s.dev p.val = true) := by
  refine ⟨?_, ?_, ?_, ?_, ?_, ?_⟩ <;> (dsimp only; decide +kernel)

theorem witness_SwitchTablesAndPorts_PortsAndGates_3 :
  (let s : State := { dev := base }; let p : PortId := 0; isEthernet s.dev p.val = false ∧ (domOn s.dev (56 + p.val / 8) = true)) :=
  by dsimp only; decide +kernel
end F06

namespace F07
def ergB : Dev :=
  let d := fset (fset (fset { base with time := 10 ^ 19 } SW_GROUP_MODE (SW_GROUP_MODE_GMODE 0) 1) (PORT_STATUS 0) PORT_STATUS_LINK 1) (PORT_STATUS 1) PORT_STATUS_LINK 1
  let d2 := fset (fset (fset d (PORT_VLAN 0) PORT_VLAN_INGRESS_FILTER 0) (PORT_TC 1) PORT_TC_QLIMIT 0) SW_BUF SW_BUF_SHARED_FREE 100
  { d2 with erg := { d2.erg with tbl := [(swKey 0 1 0, 2), (swKey 0 5 0, 2)], nextId := 9 } }
def io0 : List IoEnt := [⟨0, 4, 8, 7, 12⟩, ⟨0, 16, 16, 7, 12⟩]
def rootD : Dev := { setRoot (fset (fset base SW_GROUP_MODE (SW_GROUP_MODE_GMODE 0) 2) SW_PCIE_SPLIT (3, 0) 0) 0 { up := true, perst := false } with ioTlb := io0, routes := [(7, 0x11)] }
def rootP : Dev := setPoison (setTag (wrByte rootD 0x8009 7) 0x1001 5) 0x1001 true
def racc : Acc := { id := 0, op := .loadTagged, va := 0x4000, pa := 0x380000001008, rd := 4, uncached := true, phase := .issued }
def rootT : Dev := setThr rootP 0 { th0 with accs := [racc], nextId := 1 }
def rootPerst (b : Bool) : Dev := fset (setRoot rootD 0 { perst := b }) PWR_STATUS PWR_STATUS_PCIE_OK 1
def rootDpc : Dev := setRoot rootT 0 { up := true, perst := false, cfg := [(0x156, 1)] }
def rootHeld : Dev := setRoot rootT 0 { perst := false, cfg := [(0x158, 1)] }
def instD : Dev :=
  setPiState (fset (fset { ergB with ioTlb := io0 } (PI_CTRL 3) PI_CTRL_GEN 6) (PI_CTRL 3) PI_CTRL_QP_COUNT 8) 3 PI_ACTIVE
def db (q d g t : Nat) : Word := BitVec.ofNat 64 (g * 2 ^ 32 + t * 2 ^ 16 + d * 2 ^ 10 + q)
def fr6 : List Byte := [2, 0, 0, 0, 0, 1, 2, 0, 0, 0, 0, 2, 0x81, 0, 0x60, 5, 8, 0] ++ List.replicate 46 0x55
def w0d : Word := BitVec.ofNat 64 (0x10040 + 64 * 2 ^ 46)
def w1d : Word := BitVec.ofNat 64 (6 + 3 * 256 + 0x1234 * 2 ^ 16)
def qd1 : QDir := { base := 0x10000, log := 0, stash := 31, en := true, head := 2, tail := 3, state := 1 }
def txInst : InstSt := { vlans := [5], macs := [0x20000000002], qs := [(3, qd1)] }
def txD : Dev := setInst (wrBytes (wrBytes instD 0x10020 (leBytes 8 w0d.toNat ++ leBytes 8 w1d.toNat)) 0x10040 fr6) 3 txInst
def txD1 : Dev := (nextDesc txD 3 1 1).2
def txD2 : Dev := (ioRange txD1 0 (bitsOf w0d (45, 0)) (bitsOf w0d (59, 46)) false).2
def txL : List (Nat × Nat) := ((ioRange txD1 0 (bitsOf w0d (45, 0)) (bitsOf w0d (59, 46)) false).1).getD []
def qpD : Dev := setReg (setInst instD 3 { qs := [(0, { en := false })] }) (PI_QP_DATA 3) (BitVec.ofNat 64 (0x12340 + 2 ^ 46 * 3 + 31 * 2 ^ 50 + 3 * 2 ^ 55))
def stl : Dev := setReqs instD 3 [⟨1, 5, 0, 0⟩, ⟨1, 6, 0, 0⟩]
def rstD : Dev := setInst instD 3 { resetReq := true, reqs := [⟨1, 6, 0, 0⟩] }
def rstg : Dev := setPiState (fset (setInst instD 3 { qs := [(3, qd1)], tenantReset := some 9 }) MGR_PART_STATUS (3, 0) 3) 3 PI_RESETTING
def rstb : Dev := setInst rstg 3 { reqs := [⟨1, oldestGen 6, 0, 0⟩], resetAt := 7 }
def post (d : Dev) (m code : Nat) (ws : List Word) : Dev := fset (setMbox d m { posted := true, out := (BitVec.ofNat 64 (code + 0x2A * 2 ^ 16) :: ws) ++ List.replicate (15 - ws.length) 0 }) (mboxCtrl m) PI_MBOX_CTRL_OUT_BUSY 1
def macW : Word := BitVec.ofNat 64 (0x20000000001 + 2 ^ 63)
def fk : Nat := 8 * fdbSet 0x20000000001 5
def tI (x : InstSt) (code : Nat) (ws : List Word) : Dev := post (setInst instD 3 x) 3 code ws
def chg (c : Nat) : PiChange := { code := c, id := 7, count := 9, vids := [5], deadline := 10 ^ 7, manager := 256 }
def nt (x : InstSt) : Dev := setPiState (setInst instD 3 x) 3 PI_NOTICE
def mg (code : Nat) (ws : List Word) : Dev := post { instD with parts := [(0, { (partSt instD 0) with roles := 32 })] } 256 code ws
def mgF (code : Nat) (ws : List Word) : Dev := setPiState (mg code ws) 3 PI_FREE

theorem witness_RootPorts_1 :
  (let s : State := { dev := rootP }; let r : RootId := 0; let data : List Byte := [7, 0, 0, 0]; rootLive s.dev r.val = true ∧ ((root s.dev r.val).up = true) ∧ leNat data % 128 ≤ 95) ∧
  (let s : State := { dev := rootP }; let r : RootId := 0; let n : BitVec 13 := 8; let addr : Word := 0x380000000000; let write : Bool := false; rootLive s.dev r.val = true ∧ ((root s.dev r.val).up = true) ∧ n ≠ 0 ∧ n.toNat ≤ (if write then maxPayload s.dev r.val else 4096) ∧ 0x380000000000 ≤ addr.toNat ∧ addr.toNat < 0x400000000000 ∧ addr.toNat ≠ msiAddr) ∧
  (let s : State := { dev := rootP }; let r : RootId := 0; let n : BitVec 13 := 8191; let write : Bool := false; rootLive s.dev r.val = true ∧ ((root s.dev r.val).up = true) ∧ ((if write then maxPayload s.dev r.val else 4096) < n.toNat)) ∧
  (let s : State := { dev := rootT }; let r : RootId := 0; let t := 0; let a := racc; let rest := []; (outstanding s.dev r.val = (t, a) :: rest) ∧ ((thr s.dev t).accs = [a])) ∧
  (let s : State := { dev := rootP }; let r : RootId := 0; ((root s.dev r.val).up = true) ∧ (s.dev.hist.flight = [])) ∧
  (let s : State := { dev := rootDpc }; let r : RootId := 0; ((root s.dev r.val).up = true) ∧ (s.dev.hist.flight = []) ∧ Nat.land (cfgByte s.dev r.val 0x156).toNat 3 ≠ 0) := by
  refine ⟨?_, ?_, ?_, ?_, ?_, ?_⟩ <;> (dsimp only; decide +kernel)

theorem witness_RootPorts_2 :
  (let s : State := { dev := rootP }; let r : RootId := 0; ((root s.dev r.val).up = true) ∧ (s.dev.hist.flight = []) ∧ Nat.land (cfgByte s.dev r.val 0x156).toNat 3 = 0) ∧
  (let s : State := { dev := rootHeld }; let r : RootId := 0; rootLive s.dev r.val = true ∧ contained s.dev r.val = true) ∧
  (let s : State := { dev := rootP }; let r : RootId := 0; rootLive s.dev r.val = true ∧ ((root s.dev r.val).perst = false) ∧ contained s.dev r.val = false) ∧
  (let s : State := { dev := rootPerst true }; let r : RootId := 0; rootLive s.dev r.val = true ∧ ((root s.dev r.val).perst = true) ∧ fbit s.dev PWR_STATUS PWR_STATUS_PCIE_OK = true) := by
  refine ⟨?_, ?_, ?_, ?_⟩ <;> (dsimp only; decide +kernel)

theorem witness_QueuePairsAndResets_1 :
  (let s : State := { dev := instD }; let i : InstId := 3; let v : Word := (db 1 1 5 9); domOn s.dev 76 = true ∧ (bitsOf v (39, 32) ≠ piGen s.dev i.val)) ∧
  (let s : State := { dev := instD }; let i : InstId := 3; let v : Word := (db 1 1 6 64); domOn s.dev 76 = true ∧ (bitsOf v (39, 32) = piGen s.dev i.val)) ∧
  (let s : State := { dev := instD }; let i : InstId := 3; let q : Fin 1024 := 8; domOn s.dev 76 = true ∧ qpCount s.dev i.val ≤ q.val ∧ fbit s.dev (PI_QP_INDEX i.val) PI_QP_INDEX_DONE = true) ∧
  (let s : State := { dev := fset instD (PI_QP_INDEX 3) PI_QP_INDEX_DONE 0 }; let i : InstId := 3; domOn s.dev 76 = true ∧ fbit s.dev (PI_QP_INDEX i.val) PI_QP_INDEX_DONE = false) ∧
  (let s : State := { dev := instD }; let i : InstId := 3; let q : Fin 1024 := 7; domOn s.dev 76 = true ∧ q.val < qpCount s.dev i.val ∧ fbit s.dev (PI_QP_INDEX i.val) PI_QP_INDEX_DONE = true) ∧
  (let s : State := { dev := instD }; let i : InstId := 3; let q : Fin 1024 := 7; let w : Fin 4 := 2; domOn s.dev 76 = true ∧ q.val < qpCount s.dev i.val ∧ fbit s.dev (PI_QP_INDEX i.val) PI_QP_INDEX_DONE = true ∧ 2 ≤ w.val) := by
  refine ⟨?_, ?_, ?_, ?_, ?_, ?_⟩ <;> (dsimp only; decide +kernel)

theorem witness_QueuePairsAndResets_2 :
  (let s : State := { dev := qpD }; let i : InstId := 3; let q : Fin 1024 := 0; let w : Fin 4 := 0; let u := reg s.dev (PI_QP_DATA i.val); let x := qdir s.dev i.val q.val w.val; let en := bitsOf u (55, 55) == 1; domOn s.dev 76 = true ∧ q.val < qpCount s.dev i.val ∧ fbit s.dev (PI_QP_INDEX i.val) PI_QP_INDEX_DONE = true ∧ w.val < 2 ∧ ((qdir s.dev i.val q.val w.val).en = false) ∧ (stashNamed s.dev i.val (bitsOf (reg s.dev (PI_QP_DATA i.val)) (54, 50)) = true) ∧ (bitsOf u (45, 0) % 64 = 0) ∧ (bitsOf u (49, 46) ≤ 9) ∧ ((en = false → x.head = x.tail))) ∧
  (let s : State := { dev := txD }; let i : InstId := 3; let q : Fin 1024 := 1; let w0 := w0d; let w1 := w1d; let d1 := txD1; let x := qdir s.dev i.val q.val 1; let l := txL; let d2 := txD2; ((piState s.dev i.val = PI_ACTIVE ∨ piState s.dev i.val = PI_NOTICE)) ∧ q.val < qpCount s.dev i.val ∧ (nextDesc s.dev i.val q.val 1 = (.desc w0 w1, d1)) ∧ (60 ≤ bitsOf w0 (59, 46)) ∧ (bitsOf w0 (59, 46) ≤ 9216) ∧ x.closing = none ∧ (txWaits s.dev i.val q.val = []) ∧ (ioRange d1 (inst s.dev i.val).part (bitsOf w0 (45, 0)) (bitsOf w0 (59, 46)) false = (some l, d2)) ∧ txReq s.dev i.val q.val = none) := by
  refine ⟨?_, ?_⟩ <;> (dsimp only; decide +kernel)

theorem witness_QueuePairsAndResets_3 :
  (let s : State := { dev := txD }; let i : InstId := 3; let q : Fin 1024 := 1; let w0 := w0d; let w1 := w1d; let d1 := txD1; let x := qdir s.dev i.val q.val 1; let l := txL; let d2 := txD2; let pa := 0x10020; let p2 := 1; let pcp := 3; let dei := 0; let vid := 5; let body := (ioReadParts d2 24 l).1; let h := parseHeader body; ((piState s.dev i.val = PI_ACTIVE ∨ piState s.dev i.val = PI_NOTICE)) ∧ q.val < qpCount s.dev i.val ∧ (nextDesc s.dev i.val q.val 1 = (.desc w0 w1, d1)) ∧ (60 ≤ bitsOf w0 (59, 46)) ∧ (bitsOf w0 (59, 46) ≤ 9216) ∧ x.closing = none ∧ (txWaits s.dev i.val q.val = []) ∧ (ioRange d1 (inst s.dev i.val).part (bitsOf w0 (45, 0)) (bitsOf w0 (59, 46)) false = (some l, d2)) ∧ partsPoisoned d2 l = false ∧ txFiltered s.dev i.val body = false ∧ mayIssue s.dev (256 + i.val) = true ∧ cellsOf (body.length + 4) ≤ sharedFree s.dev ∧ ((ioRange d2 (inst s.dev i.val).part (slotAddr x x.head) 16 true).1 = some [(pa, 16)]) ∧ x.stash = 31 ∧ isReserved h.da = false ∧ (h.tag = some (pcp, dei, vid)) ∧ vid ≠ 0 ∧ ((forwardTo s.dev none (some i.val) h.da vid).1 = [.port p2]) ∧ p2 < 128 ∧ linkUp s.dev p2 = true ∧ fget s.dev (PORT_TC p2) PORT_TC_QLIMIT = 0 ∧ txReq s.dev i.val q.val = none) :=
  by dsimp only; decide +kernel

theorem witness_QueuePairsAndResets_4 :
  (let s : State := { dev := stl }; let i : InstId := 3; let r := ((inst s.dev i.val).reqs.find? (fun r => r.gen != piGen s.dev i.val)).get (by decide +kernel); ((inst s.dev i.val).reqs.find? (fun r => r.gen != piGen s.dev i.val) = some r)) ∧
  (let s : State := { dev := rstD }; let i : InstId := 3; ((inst s.dev i.val).resetReq = true) ∧ (piState s.dev i.val = PI_ACTIVE ∨ piState s.dev i.val = PI_NOTICE)) ∧
  (let s : State := { dev := rstg }; let i : InstId := 3; piState s.dev i.val = PI_RESETTING ∧ resetBlocked s.dev i.val = false ∧ ((inst s.dev i.val).change = none) ∧ ((inst s.dev i.val).removing = false) ∧ partState s.dev (inst s.dev i.val).part = P_RUNNING) ∧
  (let s : State := { dev := rstb }; let i : InstId := 3; piState s.dev i.val = PI_RESETTING ∧ resetBlocked s.dev i.val = true ∧ ((inst s.dev i.val).warned = false)) := by
  refine ⟨?_, ?_, ?_, ?_⟩ <;> (dsimp only; decide +kernel)

theorem witness_Mailboxes_1 :
  (let s : State := { dev := instD }; let mb : Mailbox := (.inst 3); let m := mboxNum mb; let c := mboxCtrl m; fbit s.dev c PI_MBOX_CTRL_OUT_BUSY = false) ∧
  (let s : State := { dev := fset instD (mboxCtrl 3) PI_MBOX_CTRL_OUT_BUSY 1 }; let mb : Mailbox := (.inst 3); let m := mboxNum mb; let c := mboxCtrl m; fbit s.dev c PI_MBOX_CTRL_OUT_BUSY = true) ∧
  (let s : State := { dev := fset (fset { setMbox instD 3 { resp := some [5, 6], out := [1, 2, 3] } with routes := [(0x0C07, 0x11)] } (PI_CTRL 3) PI_CTRL_MB_IRQ_EN 1) (mboxCtrl 3) PI_MBOX_CTRL_OUT_BUSY 1 }; let mb : Mailbox := (.inst 3); let m := mboxNum mb; let c := mboxCtrl m; let r := ((mbox s.dev m).resp).get (by decide +kernel); fbit s.dev c PI_MBOX_CTRL_IN_FULL = false ∧ s.dev.pwr.held = 0 ∧ s.dev.oasis.fw.isSome = true ∧ ((mbox s.dev m).posted = false) ∧ ((mbox s.dev m).resp = some r) ∧ ((mbox s.dev m).before = 0)) ∧
  (let s : State := { dev := fset instD (mboxCtrl 3) PI_MBOX_CTRL_OUT_BUSY 1 }; let mb : Mailbox := (.inst 3); let m := mboxNum mb; let c := mboxCtrl m; ((mbox s.dev m).resp = none) ∧ fbit s.dev c PI_MBOX_CTRL_OUT_BUSY = true ∧ ((mbox s.dev m).before = 0) ∧ (((mbox s.dev m).posted = true → mboxKnows m (mboxCode s.dev m) = true))) := by
  refine ⟨?_, ?_, ?_, ?_⟩ <;> (dsimp only; decide +kernel)

theorem witness_Mailboxes_2 :
  (let s : State := { dev := post instD 3 0x77 [] }; let mb : Mailbox := (.inst 3); let m := mboxNum mb; let c := mboxCtrl m; fbit s.dev c PI_MBOX_CTRL_IN_FULL = false ∧ s.dev.pwr.held = 0 ∧ s.dev.oasis.fw.isSome = true ∧ ((mbox s.dev m).posted = true) ∧ mboxKnows m (mboxCode s.dev m) = false ∧ ((mbox s.dev m).notes = [])) ∧
  (let s : State := { dev := instD }; let mb : Mailbox := (.inst 3); let m := mboxNum mb; let c := mboxCtrl m; fbit s.dev c PI_MBOX_CTRL_DIR = false ∧ fbit s.dev c PI_MBOX_CTRL_OUT_BUSY = false) := by
  refine ⟨?_, ?_⟩ <;> (dsimp only; decide +kernel)

theorem witness_InstanceCommands_TenantCommands_1 :
  (let s : State := { dev := tI {} 1 [] }; let i : InstId := 3; (Posts s.dev i.val 0x0001)) ∧
  (let s : State := { dev := tI { vlans := [5] } 2 [BitVec.ofNat 64 (0x010000000001 + 2 ^ 63)] }; let i : InstId := 3; let a (j : Nat) := mboxArg s.dev i.val j; let mac := bitsOf (a 1) (47, 0); (Posts s.dev i.val 0x0002) ∧ (bitsOf (a 1) (63, 63) = 1) ∧ (bitsOf (a 1) (48, 48) = 0) ∧ ((∀ j, 2 ≤ j → j ≤ 4 → bitsOf (a j) (63, 63) = 0)) ∧ isMulticast mac = true) ∧
  (let s : State := { dev := tI { vlans := [5] } 2 [macW] }; let i : InstId := 3; let a (j : Nat) := mboxArg s.dev i.val j; let x := inst s.dev i.val; let v := 5; let k := fk; let mac := bitsOf (a 1) (47, 0); (Posts s.dev i.val 0x0002) ∧ (bitsOf (a 1) (63, 63) = 1) ∧ (bitsOf (a 1) (48, 48) = 0) ∧ ((∀ j, 2 ≤ j → j ≤ 4 → bitsOf (a j) (63, 63) = 0)) ∧ isMulticast mac = false ∧ (x.vlans = [v]) ∧ v < 4096 ∧ fdbFind s.dev mac v = none ∧ fdbFree s.dev mac v = some k ∧ x.macs.contains mac = false ∧ x.macs.length < 16) := 
  ⟨by unfold Posts; decide +kernel,
   by refine ⟨by unfold Posts; decide +kernel, ?_, ?_, all_upto (by decide +kernel), ?_⟩ <;> decide +kernel,
   by refine ⟨by unfold Posts; decide +kernel, ?_, ?_, all_upto (by decide +kernel), ?_, ?_, ?_, ?_, ?_, ?_, ?_⟩ <;> decide +kernel⟩

theorem witness_InstanceCommands_TenantCommands_2 :
  (let s : State := { dev := tI { permitted := [5] } 3 [5, 6, 0] }; let i : InstId := 3; let a (j : Nat) := mboxArg s.dev i.val j; let x := inst s.dev i.val; let pvid := bitsOf (a 1) (11, 0); let vs := vidsOf [a 2, a 3]; (Posts s.dev i.val 0x0003) ∧ pvid ≠ 4095 ∧ vs.contains 4095 = false ∧ ((pvid :: vs).all (fun v => x.permitted.contains v) = false)) ∧
  (let s : State := { dev := tI { permitted := [5, 6] } 3 [5, 6, 0] }; let i : InstId := 3; let a (j : Nat) := mboxArg s.dev i.val j; let x := inst s.dev i.val; let pvid := bitsOf (a 1) (11, 0); let vs := vidsOf [a 2, a 3]; (Posts s.dev i.val 0x0003) ∧ pvid ≠ 4095 ∧ vs.contains 4095 = false ∧ ((pvid :: vs).all (fun v => x.permitted.contains v) = true) ∧ (x.macs = [])) ∧
  (let s : State := { dev := tI {} 4 [5] }; let i : InstId := 3; (Posts s.dev i.val 0x0004)) ∧
  (let s : State := { dev := tI {} 5 [5] }; let i : InstId := 3; (Posts s.dev i.val 0x0005)) ∧
  (let s : State := { dev := setPiState (tI {} 6 [8]) 3 PI_RESETTING }; let i : InstId := 3; (Posts s.dev i.val 0x0006) ∧ piState s.dev i.val ≠ PI_ACTIVE ∧ piState s.dev i.val ≠ PI_NOTICE) ∧
  (let s : State := { dev := tI {} 6 [8] }; let i : InstId := 3; (Posts s.dev i.val 0x0006) ∧ (piState s.dev i.val = PI_ACTIVE ∨ piState s.dev i.val = PI_NOTICE)) := 
  ⟨by refine ⟨by unfold Posts; decide +kernel, ?_, ?_, ?_⟩ <;> decide +kernel,
   by refine ⟨by unfold Posts; decide +kernel, ?_, ?_, ?_, ?_⟩ <;> decide +kernel,
   by unfold Posts; decide +kernel,
   by unfold Posts; decide +kernel,
   by refine ⟨by unfold Posts; decide +kernel, ?_, ?_⟩ <;> decide +kernel,
   ⟨by unfold Posts; decide +kernel, by decide +kernel⟩⟩

theorem witness_InstanceCommands_TenantCommands_3 :
  (let s : State := { dev := tI { change := some (chg 0x8001) } 7 [8] }; let i : InstId := 3; let a (j : Nat) := mboxArg s.dev i.val j; let x := inst s.dev i.val; let c := (x.change).get (by decide +kernel); (Posts s.dev i.val 0x0007) ∧ x.change = some c ∧ (c.id ≠ bitsOf (a 1) (15, 0))) ∧
  (let s : State := { dev := post (fset (setMbox (nt { change := some (chg 0x8001) }) 256 {}) (mboxCtrl 256) PI_MBOX_CTRL_OUT_BUSY 1) 3 7 [7] }; let i : InstId := 3; let a (j : Nat) := mboxArg s.dev i.val j; let x := inst s.dev i.val; let c := (x.change).get (by decide +kernel); (Posts s.dev i.val 0x0007) ∧ x.change = some c ∧ c.code = 0x8001 ∧ (c.id = bitsOf (a 1) (15, 0)) ∧ piState s.dev i.val = PI_NOTICE ∧ x.removing = false ∧ (x.reqs = []) ∧ qpCount s.dev i.val ≤ c.count ∧ c.count ≤ 1024 ∧ c.manager ≠ i.val) := 
  ⟨by refine ⟨by unfold Posts; decide +kernel, ?_, ?_⟩ <;> decide +kernel,
   by refine ⟨by unfold Posts; decide +kernel, ?_, ?_, ?_, ?_, ?_, ?_, ?_, ?_, ?_⟩ <;> decide +kernel⟩

theorem witness_InstanceCommands_ManagerCommands_1 :
  (let s : State := { dev := post instD 256 0x0101 [3] }; let mb : Mailbox := (.part 0); let m := mboxNum mb; let e := (Instr.piCreate mb, 0x0101); (Posts s.dev m e.2) ∧ isManager s.dev m 5 = false) ∧
  (let s : State := { dev := mgF 0x0101 [3, 2, 1024, 5] }; let mb : Mailbox := (.part 0); let i : InstId := 3; let m := mboxNum mb; let a (j : Nat) := (mboxArg s.dev m j).toNat; let vids := vidsOf [mboxArg s.dev m 4, mboxArg s.dev m 5, mboxArg s.dev m 6, mboxArg s.dev m 7]; (Posts s.dev m 0x0101) ∧ isManager s.dev m 5 = true ∧ a 1 = i.val ∧ createReady s.dev m = true ∧ a 2 ≤ 15 ∧ a 3 ≤ 1024 ∧ vids.contains 4095 = false ∧ piState s.dev i.val = PI_FREE ∧ qpUsed s.dev + a 3 ≤ 4096) ∧
  (let s : State := { dev := mg 0x0102 [3, 1024, 10000] }; let mb : Mailbox := (.part 0); let i : InstId := 3; let m := mboxNum mb; let a (j : Nat) := (mboxArg s.dev m j).toNat; let x := inst s.dev i.val; isManager s.dev m 5 = true ∧ a 1 = i.val ∧ piState s.dev i.val = PI_ACTIVE ∧ x.resetReq = false ∧ ((mbox s.dev i.val).notes.length < 8) ∧ (Posts s.dev m 0x0102) ∧ 1 ≤ a 3 ∧ a 3 ≤ 10000 ∧ a 2 ≤ 1024 ∧ (qpUsed s.dev - qpCount s.dev i.val + a 2 ≤ 4096)) := 
  ⟨⟨by unfold Posts; decide +kernel, by decide +kernel⟩,
   by refine ⟨by unfold Posts; decide +kernel, ?_, ?_, ?_, ?_, ?_, ?_, ?_, ?_⟩ <;> decide +kernel,
   by refine ⟨?_, ?_, ?_, ?_, ?_, by unfold Posts; decide +kernel, ?_, ?_, ?_, ?_⟩ <;> decide +kernel⟩

theorem witness_InstanceCommands_ManagerCommands_2 :
  (let s : State := { dev := mg 0x0103 [3, 5, 6, 7, 8, 1] }; let mb : Mailbox := (.part 0); let i : InstId := 3; let m := mboxNum mb; let a (j : Nat) := (mboxArg s.dev m j).toNat; let x := inst s.dev i.val; let vids := vidsOf [mboxArg s.dev m 2, mboxArg s.dev m 3, mboxArg s.dev m 4, mboxArg s.dev m 5]; isManager s.dev m 5 = true ∧ a 1 = i.val ∧ piState s.dev i.val = PI_ACTIVE ∧ x.resetReq = false ∧ ((mbox s.dev i.val).notes.length < 8) ∧ (Posts s.dev m 0x0103) ∧ 1 ≤ a 6 ∧ a 6 ≤ 10000 ∧ vids.contains 4095 = false) ∧
  (let s : State := { dev := mg 0x0104 [3, 1] }; let mb : Mailbox := (.part 0); let i : InstId := 3; let m := mboxNum mb; let a (j : Nat) := (mboxArg s.dev m j).toNat; let x := inst s.dev i.val; isManager s.dev m 5 = true ∧ a 1 = i.val ∧ piState s.dev i.val = PI_ACTIVE ∧ x.resetReq = false ∧ ((mbox s.dev i.val).notes.length < 8) ∧ (Posts s.dev m 0x0104) ∧ 1 ≤ a 2 ∧ a 2 ≤ 10000) ∧
  (let s : State := { dev := mg 0x0105 [3, 1] }; let mb : Mailbox := (.part 0); let m := mboxNum mb; (Posts s.dev m 0x0105)) ∧
  (let s : State := { dev := nt { change := some (chg 0x8003) } }; let i : InstId := 3; let x := inst s.dev i.val; let c := (x.change).get (by decide +kernel); x.change = some c ∧ piState s.dev i.val = PI_NOTICE ∧ x.removing = false ∧ c.code = 0x8003) := 
  ⟨by refine ⟨?_, ?_, ?_, ?_, ?_, by unfold Posts; decide +kernel, ?_, ?_, ?_⟩ <;> decide +kernel,
   by refine ⟨?_, ?_, ?_, ?_, ?_, by unfold Posts; decide +kernel, ?_, ?_⟩ <;> decide +kernel,
   by unfold Posts; decide +kernel,
   by dsimp only; decide +kernel⟩

theorem witness_InstanceCommands_ManagerCommands_3 :
  (let s : State := { dev := nt { change := some (chg 0x8002), pvid := 9, vlans := [5, 6] } }; let i : InstId := 3; let x := inst s.dev i.val; let c := (x.change).get (by decide +kernel); x.change = some c ∧ piState s.dev i.val = PI_NOTICE ∧ x.removing = false ∧ c.code = 0x8002 ∧ (x.reqs = []) ∧ (x.macs = [])) :=
  by dsimp only; decide +kernel

def rootIo : Dev := { rootP with ioTlb := (rangeFrom 0 16).map (fun o => ⟨o, 8, 8, 7, 12⟩) }
theorem rootIo_maps (w : Bool) : (ioTranslate rootIo (rootOwner 0) 0x8008 w).1 = some 0x8008 := by
  have h : ∀ (v : Bool) (o : Fin 16), (ioTranslate rootIo o.val 0x8008 v).1 = some 0x8008 := by decide +kernel
  exact h w ⟨rootOwner 0, Nat.mod_lt _ (by decide)⟩

theorem rootIo_free (w : Bool) : partWaits (ioTranslate rootIo (rootOwner 0) 0x8008 w).2 (0x8008, 2) = [] := by
  have h : ∀ (v : Bool) (o : Fin 16), partWaits (ioTranslate rootIo o.val 0x8008 v).2 (0x8008, 2) = [] := by decide +kernel
  exact h w ⟨rootOwner 0, Nat.mod_lt _ (by decide)⟩

theorem witness_RootPorts_inbound (write : Bool) :
  (let s : State := { dev := rootIo }; let r : RootId := 0; let data : List Byte := [1, 2]; let n : BitVec 13 := 2; let addr : Word := 0x8008; let pa : Nat := 0x8008; rootLive s.dev r.val = true ∧ (root s.dev r.val).up = true ∧ n ≠ 0 ∧ n.toNat ≤ (if write then maxPayload s.dev r.val else 4096) ∧ addr.toNat + n.toNat ≤ 0x380000000000 ∧ addr.toNat % 4096 + n.toNat ≤ 4096 ∧ (ioTranslate s.dev (rootOwner r.val) addr.toNat write).1 = some pa ∧ inDram s.dev pa = true ∧ inDram s.dev (pa + n.toNat - 1) = true ∧ partWaits (ioTranslate s.dev (rootOwner r.val) addr.toNat write).2 (pa, n.toNat) = [] ∧ data.length = n.toNat) :=
  by refine ⟨?_, ?_, ?_, ?_, ?_, ?_, rootIo_maps write, ?_, ?_, rootIo_free write, rfl⟩ <;> (revert write; decide +kernel)
end F07

namespace F08
def msg (type c e seq epoch cycle : Nat) (p : List Byte) : List Byte :=
  let b := beBytes 1 type ++ beBytes 1 (c + 8 * e) ++ beBytes 2 p.length ++ beBytes 4 seq ++ beBytes 4 epoch ++ beBytes 4 cycle ++ p
  b ++ beBytes 4 (crc32c b)
def pm (m : List Byte) : TwinMsg := match parseTwin m with | some x => x | none => ⟨0, 0, false, 0, 0, 0, []⟩
def runC : Dev := fset (fset (fset (fset { base with time := 10 ^ 19 } (CYC_CLASS_CTRL 0) CYC_CLASS_CTRL_ENABLE 1) (CYC_CLASS_CTRL 0) CYC_CLASS_CTRL_RUNNING 1) (CYC_PERIOD 0) CYC_PERIOD_PERIOD 4000) (CYC_NUMBER 0) (63, 0) 9
def tw (r pr : Nat) : Dev := fset (fset (fset runC TWIN_CTRL TWIN_CTRL_EN 1) TWIN_STATUS TWIN_STATUS_ROLE r) TWIN_STATUS TWIN_STATUS_PEER_ROLE pr
def hbP (unit role : Nat) : List Byte := beBytes 1 role ++ beBytes 1 unit ++ List.replicate 30 0 ++ List.replicate 192 0
def hb1 : List Byte := msg 1 0 0 5 8 0 (hbP 1 2)
def hb0 : List Byte := msg 1 0 0 5 8 0 (hbP 0 2)
def am : List Byte := msg 2 0 0 5 8 7 (([0] : List Byte) ++ List.replicate 2047 0 ++ List.replicate 8 0)
def twA (o : Bool) : Dev :=
  let d := tw ACTIVE STANDBY
  { d with twin := { d.twin with table0 := [(0, BitVec.ofNat 64 (5000 + 1 * 2 ^ 20 + 5 * 2 ^ 30))], agree := [(0, { cycle := 7, isOpen := o, ends := 2000000, sent := [3, 9], held := [(3, 5, [1, 2]), (9, 6, [3])] })] } }
def ff : List Byte := msg 3 0 0 5 8 7 (beBytes 2 5 ++ [0, 0] ++ beBytes 8 777 ++ [1, 2, 3, 4])
def twF : Dev := let d := twA true; { d with cyc := { d.cyc with ingressNow := [(5, BitVec.ofNat 64 (1 + 2 ^ 48))] } }
def dg : DigestSt := { cls := 0, k := 1, cycle := 7, crc := 0x1234 }
def dm (v : Nat) : List Byte := msg 4 0 0 5 8 7 (beBytes 1 1 ++ List.replicate 7 0 ++ beBytes 8 v)
def twD : Dev := let d := tw ACTIVE STANDBY; { d with twin := { d.twin with own := [dg], lastMatched := false } }
def twG : Dev := let d := tw ACTIVE STANDBY; { d with twin := { d.twin with digesting := [dg] } }
def jm : List Byte := msg 5 0 0 5 8 7 (beBytes 4 3 ++ beBytes 4 1 ++ beBytes 8 (4 * 2 ^ 26 + 77) ++ beBytes 8 0x55)
def cp : List Byte := msg 6 0 0 5 8 7 (beBytes 4 3 ++ beBytes 8 (2 ^ 63 + 0x4000) ++ List.replicate 64 9 ++ List.replicate 8 3)
def cpEnd : List Byte := msg 6 0 1 5 8 7 (beBytes 4 3)
def cpEnd0 : List Byte := msg 6 0 1 5 8 7 (beBytes 4 0)
def twJ : Dev := tw JOINING ACTIVE
def lnk (d : Dev) : Dev := { d with twin := { d.twin with linkUp := true, lanes := 7, lastRx := 50 } }
def pth : Dev := fset (tw ACTIVE STANDBY) TWIN_STATUS TWIN_STATUS_PATHS_UP 5
def off : Dev := fset (fset { base with time := 10 ^ 19 } TWIN_STATUS TWIN_STATUS_ROLE ACTIVE) TWIN_STATUS TWIN_STATUS_PEER_ROLE LOST
def stop (d : Dev) : Dev := fset d (CYC_CLASS_CTRL 0) CYC_CLASS_CTRL_RUNNING 0
def lay (d : Dev) : Dev := { d with twin := { d.twin with peer := { layout := layoutDigest d } } }
def sw : Dev := let d := tw ACTIVE STANDBY; { d with twin := { d.twin with swapReq := some 7 } }
def jt : Word := BitVec.ofNat 64 (2 ^ 63 + 0x60 * 2 ^ 32 + 8)
def jn : Dev := let d := fset (fset (tw ACTIVE STANDBY) (IMG_REGION 0 1) IMG_REGION_KIND 1) (IMG_REGION 0 1) IMG_REGION_COUNT 2; { d with twin := { d.twin with table0 := [(0, BitVec.ofNat 64 (5000 + 1 * 2 ^ 20 + 5 * 2 ^ 30))] } }
def refJ : Dev := fset (fset (fset (lnk (tw ACTIVE JOINING)) (IMG_CTRL 0) IMG_CTRL_ENABLE 1) (IMG_REGION 0 1) IMG_REGION_KIND 3) (IMG_REGION 0 1) IMG_REGION_COUNT 2
def frz : Dev := let d := tw ACTIVE JOINING; { d with twin := { d.twin with freezeAt := some 77 } }

theorem witness_TwinMessagesAndCommands_TwinMessages_1 :
  (let s : State := { dev := tw ISOLATED LOST }; twinOn s.dev = true ∧ domOn s.dev 78 = true) ∧
  (let s : State := { dev := lnk twJ }; let m : List Byte := []; twinOn s.dev = true ∧ domOn s.dev 78 = true ∧ parseTwin m = none) ∧
  (let s : State := { dev := tw ISOLATED LOST }; let m : List Byte := hb1; let x : TwinMsg := (pm hb1); let hears (type : Nat) : Prop := parseTwin m = some x ∧ x.type = type; twinOn s.dev = true ∧ domOn s.dev 78 = true ∧ (hears 0x01) ∧ ((peerOf x 0).unit ≠ unitNo s.dev) ∧ ((peerOf x 0).swap = false) ∧ role s.dev = ISOLATED ∧ s.dev.twin.joining = false ∧ fbit s.dev TWIN_CTRL TWIN_CTRL_AUTO_JOIN = false) ∧
  (let s : State := { dev := lnk (tw ISOLATED LOST) }; let m : List Byte := hb0; let x : TwinMsg := (pm hb0); let hears (type : Nat) : Prop := parseTwin m = some x ∧ x.type = type; twinOn s.dev = true ∧ domOn s.dev 78 = true ∧ (hears 0x01) ∧ ((peerOf x 0).unit = unitNo s.dev) ∧ role s.dev ≠ JOINING ∧ s.dev.twin.joining = false) := by
  refine ⟨?_, ?_, ?_, ?_⟩ <;> (dsimp only; decide +kernel)

theorem witness_TwinMessagesAndCommands_TwinMessages_2 :
  (let s : State := { dev := twA true }; let at_ : Nat := 1000500; let m : List Byte := am; let x : TwinMsg := (pm am); let hears (type : Nat) : Prop := parseTwin m = some x ∧ x.type = type; let a := agreeOf s.dev x.cls; let inWindow : Prop := inAgreement s.dev = true ∧ a.isOpen = true ∧ a.cycle = x.cycle ∧ nowNs s.dev ≤ a.ends ∧ at_ ≤ a.ends; twinOn s.dev = true ∧ domOn s.dev 78 = true ∧ (hears 0x02) ∧ x.payload.length = 2056 ∧ role s.dev = ACTIVE ∧ (inWindow) ∧ ((∀ i ∈ a.sent, ∃ h ∈ a.held, h.1 = i))) ∧
  (let s : State := { dev := twA false }; let m : List Byte := am; let x : TwinMsg := (pm am); let hears (type : Nat) : Prop := parseTwin m = some x ∧ x.type = type; let a := agreeOf s.dev x.cls; twinOn s.dev = true ∧ domOn s.dev 78 = true ∧ inAgreement s.dev = true ∧ a.isOpen = false ∧ (hears 0x02) ∧ x.payload.length = 2056) ∧
  (let s : State := { dev := twA false }; let m : List Byte := ff; let x : TwinMsg := (pm ff); let hears (type : Nat) : Prop := parseTwin m = some x ∧ x.type = type; let a := agreeOf s.dev x.cls; twinOn s.dev = true ∧ domOn s.dev 78 = true ∧ inAgreement s.dev = true ∧ a.isOpen = false ∧ (hears 0x03) ∧ 12 ≤ x.payload.length) := by
  refine ⟨?_, ?_, ?_⟩ <;> (dsimp only; decide +kernel)

theorem witness_TwinMessagesAndCommands_TwinMessages_3 :
  (let s : State := { dev := twF }; let at_ : Nat := 1000500; let m : List Byte := ff; let x : TwinMsg := (pm ff); let hears (type : Nat) : Prop := parseTwin m = some x ∧ x.type = type; let a := agreeOf s.dev x.cls; let inWindow : Prop := inAgreement s.dev = true ∧ a.isOpen = true ∧ a.cycle = x.cycle ∧ nowNs s.dev ≤ a.ends ∧ at_ ≤ a.ends; let i := beNat (x.payload.take 2); let e := ingressNow s.dev i; twinOn s.dev = true ∧ domOn s.dev 78 = true ∧ (hears 0x03) ∧ 12 ≤ x.payload.length ∧ (inWindow) ∧ bitsOf e S_EN = 1 ∧ bitsOf e S_CLASS = x.cls ∧ domOn s.dev (24 + 3 * bitsOf e S_K) = true ∧ ((cls s.dev x.cls).arrived.contains i = false) ∧ a.filled.contains i = false) ∧
  (let s : State := { dev := twD }; let m : List Byte := (dm 0x1234); let x : TwinMsg := (pm (dm 0x1234)); let hears (type : Nat) : Prop := parseTwin m = some x ∧ x.type = type; let own := (findDigest x.cls (x.payload.getD 0 0).toNat x.cycle s.dev.twin.own).get (by decide +kernel); twinOn s.dev = true ∧ domOn s.dev 78 = true ∧ (hears 0x04) ∧ x.payload.length = 16 ∧ role s.dev = ACTIVE ∧ findDigest x.cls (x.payload.getD 0 0).toNat x.cycle s.dev.twin.own = some own ∧ findDigest x.cls (x.payload.getD 0 0).toNat x.cycle s.dev.twin.peerDig = none) := by
  refine ⟨?_, ?_⟩ <;> (dsimp only; decide +kernel)

theorem witness_TwinMessagesAndCommands_TwinMessages_4 :
  (let s : State := { dev := twG }; let c : ClassId := 0; let k : CtlId := 1; let g := (s.dev.twin.digesting.find? (fun d => d.cls == c.val && d.k == k.val)).get (by decide +kernel); twinOn s.dev = true ∧ domOn s.dev 78 = true ∧ (s.dev.twin.digesting.find? (fun d => d.cls == c.val && d.k == k.val) = some g) ∧ inAgreement s.dev = true ∧ findDigest c.val k.val g.cycle s.dev.twin.peerDig = none ∧ (digestWaits s.dev k.val = [])) ∧
  (let s : State := { dev := twD }; let c : ClassId := 0; let k : CtlId := 1; let g := (s.dev.twin.own.find? (fun d => d.cls == c.val && d.k == k.val)).get (by decide +kernel); twinOn s.dev = true ∧ domOn s.dev 78 = true ∧ (s.dev.twin.own.find? (fun d => d.cls == c.val && d.k == k.val) = some g)) ∧
  (let s : State := { dev := tw STANDBY ACTIVE }; let m : List Byte := jm; let x : TwinMsg := (pm jm); let hears (type : Nat) : Prop := parseTwin m = some x ∧ x.type = type; twinOn s.dev = true ∧ domOn s.dev 78 = true ∧ (hears 0x05) ∧ x.payload.length = 24 ∧ beNat ((x.payload.drop 4).take 4) = 1 ∧ role s.dev = STANDBY) := by
  refine ⟨?_, ?_, ?_⟩ <;> (dsimp only; decide +kernel)

theorem witness_TwinMessagesAndCommands_TwinMessages_5 :
  (let s : State := { dev := twJ }; let m : List Byte := cp; let x : TwinMsg := (pm cp); let hears (type : Nat) : Prop := parseTwin m = some x ∧ x.type = type; let pa := beNat ((x.payload.drop 4).take 8) % 2 ^ 46 / 64 * 64; twinOn s.dev = true ∧ domOn s.dev 78 = true ∧ (hears 0x06) ∧ role s.dev = JOINING ∧ x.endBit = false ∧ x.payload.length = 84 ∧ (beNat ((x.payload.drop 4).take 8) / 2 ^ 63 = 1) ∧ (applyWaits s.dev m = []) ∧ inDram s.dev pa = true) ∧
  (let s : State := { dev := twJ }; let m : List Byte := cpEnd; let x : TwinMsg := (pm cpEnd); let hears (type : Nat) : Prop := parseTwin m = some x ∧ x.type = type; twinOn s.dev = true ∧ domOn s.dev 78 = true ∧ (hears 0x06) ∧ role s.dev = JOINING ∧ x.endBit = true ∧ x.payload.length = 4 ∧ beNat x.payload ≠ 0 ∧ ((if s.dev.twin.round = beNat x.payload then s.dev.twin.roundGap else s.dev.twin.lastGap) = false) ∧ ((∀ p, s.dev.twin.rxSeq = some p → (p + 1) % 2 ^ 32 = x.seq)) ∧ (s.dev.twin.heldRel = [])) ∧
  (let s : State := { dev := twJ }; let m : List Byte := cpEnd0; let x : TwinMsg := (pm cpEnd0); let hears (type : Nat) : Prop := parseTwin m = some x ∧ x.type = type; twinOn s.dev = true ∧ domOn s.dev 78 = true ∧ (hears 0x06) ∧ role s.dev = JOINING ∧ x.endBit = true ∧ x.payload.length = 4 ∧ beNat x.payload = 0) := by
  refine ⟨?_, ?_, ?_⟩ <;> (dsimp only; decide +kernel)

theorem witness_TwinMessagesAndCommands_TwinMessages_6 :
  (let s : State := { dev := lnk (tw ISOLATED LOST) }; twinOn s.dev = true ∧ domOn s.dev 78 = true ∧ s.dev.twin.linkUp = true ∧ s.dev.twin.joining = false) ∧
  (let s : State := { dev := pth }; let j : Fin 4 := 2; twinOn s.dev = true ∧ domOn s.dev 78 = true ∧ pathUp s.dev j.val = true) ∧
  (let s : State := { dev := tw ISOLATED LOST }; twinOn s.dev = true ∧ domOn s.dev 78 = true) ∧
  (let s : State := { dev := twA true }; let c : ClassId := 0; twinOn s.dev = true ∧ domOn s.dev 78 = true ∧ ((agreeOf s.dev c.val).isOpen = true) ∧ ((∀ f ∈ s.dev.erg.frames, ∀ q, f.port = some q → q < 128))) := by
  refine ⟨?_, ?_, ?_, ?_⟩ <;> (dsimp only; decide +kernel)

theorem witness_TwinMessagesAndCommands_TwinCommands_1 :
  (let s : State := { dev := off }; let v : Word := jt; let c := bitsOf v TWIN_JNL_TARGET_CLASS; let on := true; domOn s.dev 78 = true ∧ fbit s.dev TWIN_CTRL TWIN_CTRL_LOCK = false ∧ ((∀ c, c < 8 → classRuns s.dev c = false)) ∧ twinOn s.dev ≠ on) ∧
  (let s : State := { dev := tw ACTIVE LOST }; let v : Word := jt; let c := bitsOf v TWIN_JNL_TARGET_CLASS; let c := 0; domOn s.dev 78 = true ∧ fbit s.dev TWIN_CTRL TWIN_CTRL_LOCK = false ∧ c < 8 ∧ classRuns s.dev c = true) ∧
  (let s : State := { dev := lay (lnk (tw ORPHAN ACTIVE)) }; let done := fbit s.dev TWIN_CMD TWIN_CMD_DONE; domOn s.dev 78 = true ∧ done = true ∧ twinOn s.dev = true ∧ (role s.dev = ISOLATED ∨ role s.dev = ORPHAN) ∧ s.dev.twin.linkUp = true ∧ peerRole s.dev = ACTIVE) ∧
  (let s : State := { dev := stop (tw STANDBY LOST) }; let done := fbit s.dev TWIN_CMD TWIN_CMD_DONE; domOn s.dev 78 = true ∧ done = true ∧ twinOn s.dev = true ∧ (role s.dev = JOINING ∨ role s.dev = STANDBY)) ∧
  (let s : State := { dev := tw ACTIVE STANDBY }; let done := fbit s.dev TWIN_CMD TWIN_CMD_DONE; domOn s.dev 78 = true ∧ done = true ∧ twinOn s.dev = true ∧ s.dev.twin.lastMatched = true ∧ (role s.dev = ACTIVE ∧ peerRole s.dev = STANDBY ∨ role s.dev = STANDBY ∧ peerRole s.dev = ACTIVE)) := by
  refine ⟨?_, ?_, ?_, ?_, ?_⟩ <;> (dsimp only; decide +kernel)

theorem witness_TwinMessagesAndCommands_TwinCommands_2 :
  (let s : State := { dev := lnk (tw ISOLATED ORPHAN) }; let done := fbit s.dev TWIN_CMD TWIN_CMD_DONE; domOn s.dev 78 = true ∧ done = true ∧ twinOn s.dev = true ∧ role s.dev = ISOLATED ∧ s.dev.twin.linkUp = true ∧ (peerRole s.dev = ISOLATED ∨ peerRole s.dev = ORPHAN)) ∧
  (let s : State := { dev := stop (tw ISOLATED LOST) }; let done := fbit s.dev TWIN_CMD TWIN_CMD_DONE; domOn s.dev 78 = true ∧ done = true ∧ twinOn s.dev = true ∧ (role s.dev = ISOLATED ∨ role s.dev = ORPHAN) ∧ s.dev.twin.linkUp = false) ∧
  (let s : State := { dev := fset off TWIN_CMD TWIN_CMD_DONE 0 }; let done := fbit s.dev TWIN_CMD TWIN_CMD_DONE; domOn s.dev 78 = true ∧ done = false) ∧
  (let s : State := { dev := off }; let done := fbit s.dev TWIN_CMD TWIN_CMD_DONE; domOn s.dev 78 = true ∧ done = true ∧ twinOn s.dev = false) ∧
  (let s : State := { dev := sw }; domOn s.dev 78 = true ∧ s.dev.twin.swapReq.isSome = true ∧ s.dev.twin.swapAgreed = false) := by
  refine ⟨?_, ?_, ?_, ?_, ?_⟩ <;> (dsimp only; decide +kernel)

theorem witness_TwinMessagesAndCommands_TwinCommands_3 :
  (let s : State := { dev := refJ }; domOn s.dev 78 = true ∧ twinOn s.dev = true ∧ role s.dev = ACTIVE ∧ peerRole s.dev = JOINING ∧ s.dev.twin.linkUp = true ∧ s.dev.twin.joining = false ∧ s.dev.twin.freezeAt = none ∧ ((dirtyTargets s.dev true).flatMap (copyWaits s.dev) = []) ∧ ((∃ t ∈ (dirtyTargets s.dev true).take 112, (copyRecord s.dev t).1 = none)) ∧ (s.dev.twin.heldRel = [])) ∧
  (let s : State := { dev := lnk (tw ACTIVE JOINING) }; domOn s.dev 78 = true ∧ twinOn s.dev = true ∧ role s.dev = ACTIVE ∧ peerRole s.dev = JOINING ∧ s.dev.twin.linkUp = true ∧ s.dev.twin.joining = false ∧ s.dev.twin.freezeAt = none ∧ ((dirtyTargets s.dev true).flatMap (copyWaits s.dev) = []) ∧ ((∀ t ∈ dirtyTargets s.dev true, (copyRecord s.dev t).1.isSome = true))) ∧
  (let s : State := { dev := frz }; let t := (s.dev.twin.freezeAt).get (by decide +kernel); domOn s.dev 78 = true ∧ s.dev.twin.freezeAt = some t ∧ (s.dev.twin.heldRel = [])) ∧
  (let s : State := { dev := off }; let v : Word := jt; let c := bitsOf v TWIN_JNL_TARGET_CLASS; domOn s.dev 78 = true ∧ (role s.dev ≠ ACTIVE ∨ classRuns s.dev c = false)) := by
  refine ⟨?_, ?_, ?_, ?_⟩ <;> (dsimp only; decide +kernel)

theorem witness_TwinMessagesAndCommands_TwinCommands_4 :
  (let s : State := { dev := jn }; let v : Word := jt; let c := bitsOf v TWIN_JNL_TARGET_CLASS; let k := bitsOf v TWIN_JNL_TARGET_K; let w := bitsOf v TWIN_JNL_TARGET_WORD; let r := (inputRegion s.dev k).get (by decide +kernel); domOn s.dev 78 = true ∧ role s.dev = ACTIVE ∧ classRuns s.dev c = true ∧ ((s.dev.twin.journal.filter (fun e => e.cls == c && e.apply == (reg s.dev (CYC_NUMBER c)).toNat + 2)).length < jnlMax s.dev c) ∧ inputRegion s.dev k = some r ∧ imgClass s.dev k = c ∧ w < 8 * fget s.dev (IMG_REGION k r) IMG_REGION_COUNT) ∧
  (let s : State := { dev := fset off TWIN_TBL_INDEX TWIN_TBL_INDEX_DONE 0 }; let tblDone := fbit s.dev TWIN_TBL_INDEX TWIN_TBL_INDEX_DONE; domOn s.dev 78 = true ∧ tblDone = false) ∧
  (let s : State := { dev := off }; let table : Fin 4 := 0; let i : Fin 16 := 8; let tblDone := fbit s.dev TWIN_TBL_INDEX TWIN_TBL_INDEX_DONE; domOn s.dev 78 = true ∧ tblDone = true ∧ twinTableSize table.val ≤ i.val) ∧
  (let s : State := { dev := stop (tw ISOLATED LOST) }; let table : Fin 4 := 0; let i : Fin 16 := 7; let tblDone := fbit s.dev TWIN_TBL_INDEX TWIN_TBL_INDEX_DONE; domOn s.dev 78 = true ∧ tblDone = true ∧ i.val < twinTableSize table.val) := by
  refine ⟨?_, ?_, ?_, ?_⟩ <;> (dsimp only; decide +kernel)

theorem witness_TwinMessagesAndCommands_TwinCommands_5 :
  (let s : State := { dev := stop (tw ISOLATED LOST) }; let table : Fin 4 := 0; let i : Fin 16 := 7; let tblDone := fbit s.dev TWIN_TBL_INDEX TWIN_TBL_INDEX_DONE; let u := reg s.dev TWIN_TBL_DATA; domOn s.dev 78 = true ∧ tblDone = true ∧ i.val < twinTableSize table.val ∧ (table.val = 1 ∨ table.val = 0 ∧ bitsOf u (38, 30) ≤ 256 ∧ classRuns s.dev i.val = false ∨
        table.val = 2 ∧ role s.dev = ISOLATED ∧ mirroredPages s.dev i.val + bitsOf u (63, 46) ≤ 1048576)) :=
  by dsimp only; decide +kernel
end F08

namespace F09
def W (n : Nat) : Word := BitVec.ofNat 64 n
def hTabs : HistSt :=
  { d0 := [(hKey 0 0, W (32 + 0)), (hKey 3 0, W 0x40000000), (hKey 3 1, W 0x9000000), (hKey 3 2, W 0x50000000), (hKey 3 3, W 0xA000000), (hKey 3 4, W 0xB000000)],
    d1 := [(hKey 0 0, W 4096), (hKey 3 0, W 2), (hKey 3 1, W 0x10000), (hKey 3 2, W 0x4000000), (hKey 3 3, W 0x40000), (hKey 3 4, W 0)], nextSeq := 5, gen := 3 }
def io9 : List IoEnt := [⟨0, 0xB000, 0xB000, 7, 12⟩, ⟨0, 16, 16, 7, 12⟩]
def hD0 (st : Nat) : Dev := fset (fset { base with time := 10 ^ 19, hist := hTabs, ioTlb := io9 } HIST_STATUS HIST_STATUS_STATE st) HIST_LOG HIST_LOG_SEGMENTS 4
def hBad : Dev := { hD0 0 with hist := { hTabs with d1 := [(hKey 0 0, W 4095)] } }
def blkA : HBlock := { kind := 2, payload := [1, 2, 3] }
def bufA : HBuf := { blocks := [blkA], firstAt := 77, records := 3, bulk := 1 }
def run2 (f : HistSt → HistSt) : Dev := { hD0 2 with hist := f hTabs }
def reach : Dev := setRoot (fset (fset (hD0 1) SW_GROUP_MODE (SW_GROUP_MODE_GMODE 0) 2) SW_PCIE_SPLIT (3, 0) 0) 0 { up := true, perst := false }
def seg1 (l : List Nat) : HSeg := { buf := bufA, seg := 1, firstSeq := 5, left := l, issuedAt := 7 }
def gd : DriveFacts := { base20 := true, nvmSet := true, lba4k := true, metadata := false, volatileCache := false, blocks := 10000, entries := 1024, maxTransfer := 0 }
def ringE (st : Nat) (ws : List Nat) : Dev := fset (wrBytes (hD0 st) 0xB000000 (ws.flatMap (leBytes 8))) HIST_CQ HIST_CQ_TAIL 1
def rec1 : Dev := let d := ringE 2 [1, 5 + 2 ^ 20 * 0x60, 999, 0x4242]; { d with hist := { hTabs with timeNow := some 999, openBuf := some { bufA with cur := some { kind := 1, count := 2, payload := [7] } } } }
def bulk1 : Dev := let d := ringE 2 [2, 5, 0x10000, 1, 888]; { wrByte d 0x10003 9 with hist := { hTabs with openBuf := some bufA } }
def q0 : HQuery := { entry := 0, bulk := false, key := 5, t1 := 3, t2 := 9, addr := 0x10000, cap := 0, irq := true, segs := [] }

theorem witness_HistorianEngine_1 :
  (let s : State := { dev := hD0 0 }; domOn s.dev 77 = true ∧ hState s.dev = H_OFF ∧ hConfigOk s.dev = true) ∧
  (let s : State := { dev := hBad }; domOn s.dev 77 = true ∧ hState s.dev = H_OFF ∧ hConfigOk s.dev = false) ∧
  (let s : State := { dev := run2 (fun h => { h with openBuf := some bufA }) }; domOn s.dev 77 = true ∧ hState s.dev = H_RUNNING) ∧
  (let s : State := { dev := hD0 4 }; domOn s.dev 77 = true ∧ hState s.dev = H_FAULT) ∧
  (let s : State := { dev := hD0 1 }; let drives : List DriveFacts := [gd]; let k := 0; domOn s.dev 77 = true ∧ hState s.dev = H_STARTING ∧ k < hD s.dev ∧ driveAccepted s.dev drives k = false) ∧
  (let s : State := { dev := hD0 3 }; domOn s.dev 77 = true ∧ hState s.dev = H_STOPPING ∧ (s.dev.hist.sealedBufs = []) ∧ (s.dev.hist.flight = [])) := by
  refine ⟨?_, ?_, ?_, ?_, ?_, ?_⟩ <;> (dsimp only; decide +kernel)

theorem witness_HistorianEngine_2 :
  (let s : State := { dev := fset (run2 (fun h => { h with openBuf := some bufA })) HIST_CTRL HIST_CTRL_SEAL_MS 10 }; let b := (s.dev.hist.openBuf).get (by decide +kernel); domOn s.dev 77 = true ∧ hState s.dev = H_RUNNING ∧ fget s.dev HIST_CTRL HIST_CTRL_SEAL_MS ≠ 0 ∧ s.dev.hist.openBuf = some b ∧ b.cur = none ∧ (b.blocks ≠ [])) ∧
  (let s : State := { dev := run2 (fun h => { h with sealedBufs := [bufA] }) }; let b := (s.dev.hist.sealedBufs).head (by decide +kernel); let rest := (s.dev.hist.sealedBufs).tail; domOn s.dev 77 = true ∧ hState s.dev = H_RUNNING ∧ (s.dev.hist.sealedBufs = b :: rest) ∧ mayIssue s.dev 513 = true ∧ s.dev.hist.flight.length < hS s.dev ∧ queueRoom s.dev = true ∧ (hWaits s.dev (idxAddr s.dev (nextSegment s.dev)) 1088 true = [])) ∧
  (let s : State := { dev := { reach with hist := { hTabs with flight := [seg1 [40]] } } }; let i : Nat := 0; let j : Fin 16 := 0; let n : Nat := 2; let x := (s.dev.hist.flight[i]?).get (by decide +kernel); let left := listSet x.left j.val (x.left.getD j.val 0 - n); domOn s.dev 77 = true ∧ (s.dev.hist.flight[i]? = some x) ∧ (x.left.all (· == 0) = false) ∧ 1 ≤ n ∧ n ≤ maxBlocks s.dev j.val ∧ n ≤ x.left.getD j.val 0 ∧ x.left.getD j.val 0 ≤ (stripeLefts s.dev).getD j.val 0 ∧ x.fail = 0 ∧ (left.all (· == 0) = false)) := by
  refine ⟨?_, ?_, ?_⟩ <;> (dsimp only; decide +kernel)

theorem witness_HistorianEngine_3 :
  (let s : State := { dev := { reach with hist := { hTabs with flight := [seg1 [0]] } } }; let i : Nat := 0; let j : Fin 16 := 0; let x := (s.dev.hist.flight[i]?).get (by decide +kernel); domOn s.dev 77 = true ∧ (s.dev.hist.flight[i]? = some x) ∧ i = 0 ∧ (x.left.all (· == 0) = true) ∧ j.val + 1 = hD s.dev ∧ x.attempt < fget s.dev HIST_CTRL HIST_CTRL_RETRY) ∧
  (let s : State := { dev := run2 (fun h => { h with openBuf := some bufA }) }; domOn s.dev 77 = true ∧ hState s.dev = H_RUNNING) ∧
  (let s : State := { dev := fset (hD0 0) HIST_TBL_INDEX HIST_TBL_INDEX_DONE 0 }; domOn s.dev 77 = true ∧ fbit s.dev HIST_TBL_INDEX HIST_TBL_INDEX_DONE = false) ∧
  (let s : State := { dev := hD0 4 }; let table : Fin 4 := 1; let ix : Fin 1048576 := 1024; domOn s.dev 77 = true ∧ fbit s.dev HIST_TBL_INDEX HIST_TBL_INDEX_DONE = true ∧ histTableSize table.val ≤ ix.val) ∧
  (let s : State := { dev := hD0 0 }; let table : Fin 4 := 1; let ix : Fin 1048576 := 5; domOn s.dev 77 = true ∧ fbit s.dev HIST_TBL_INDEX HIST_TBL_INDEX_DONE = true ∧ ix.val < histTableSize table.val) := by
  refine ⟨?_, ?_, ?_, ?_, ?_⟩ <;> (dsimp only; decide +kernel)

theorem witness_HistorianEngine_4 :
  (let s : State := { dev := reach }; let table : Fin 4 := 0; let ix : Fin 1048576 := 0; domOn s.dev 77 = true ∧ fbit s.dev HIST_TBL_INDEX HIST_TBL_INDEX_DONE = true ∧ ix.val < histTableSize table.val ∧ ((table.val = 0 ∨ table.val = 3) ∧ hState s.dev ≠ H_OFF)) ∧
  (let s : State := { dev := hD0 0 }; let table : Fin 4 := 1; let ix : Fin 1048576 := 5; domOn s.dev 77 = true ∧ fbit s.dev HIST_TBL_INDEX HIST_TBL_INDEX_DONE = true ∧ ix.val < histTableSize table.val ∧ (¬((table.val = 0 ∨ table.val = 3) ∧ hState s.dev ≠ H_OFF))) := by
  refine ⟨?_, ?_⟩ <;> (dsimp only; decide +kernel)

theorem witness_HistorianCommands_1 :
  (let s : State := { dev := hD0 2 }; let tail : BitVec 16 := 17; let h := cqHead s.dev; domOn s.dev 77 = true ∧ (cqSize s.dev < (tail.toNat + 65536 - h) % 65536)) ∧
  (let s : State := { dev := ringE 2 [6] }; let tail : BitVec 16 := 16; let h := cqHead s.dev; domOn s.dev 77 = true ∧ ((tail.toNat + 65536 - h) % 65536 ≤ cqSize s.dev) ∧ 1 ≤ ringCode s.dev ∧ ringCode s.dev ≤ 6) ∧
  (let s : State := { dev := ringE 1 [1] }; let p : Nat := 0xB000000; let h := cqHead s.dev; let alone (code : Nat) : Prop := (h + 1) % 65536 = cqTail s.dev ∧ ringCode s.dev = code ∧ s.dev.hist.sync = none ∧ RingAt s.dev h p ∧ ringWaits s.dev code = []; let e := (Instr.histRecord, 1); domOn s.dev 77 = true ∧ hState s.dev ≠ H_RUNNING ∧ (alone e.2)) ∧
  (let s : State := { dev := rec1 }; let p : Nat := 0xB000000; let h := cqHead s.dev; let alone (code : Nat) : Prop := (h + 1) % 65536 = cqTail s.dev ∧ ringCode s.dev = code ∧ s.dev.hist.sync = none ∧ RingAt s.dev h p ∧ ringWaits s.dev code = []; let b := (s.dev.hist.openBuf).get (by decide +kernel); let c := (b.cur).get (by decide +kernel); domOn s.dev 77 = true ∧ (alone 1) ∧ hState s.dev = H_RUNNING ∧ ringWord s.dev 2 ≠ 0 ∧ s.dev.hist.timeNow = some (ringWord s.dev 2).toNat ∧ s.dev.hist.openBuf = some b ∧ b.blocks.length < 1023 ∧ b.cur = some c ∧ c.count + 1 < 338) := by
  refine ⟨?_,
    ?_,
    by dsimp only; unfold RingAt; decide +kernel,
    by dsimp only; unfold RingAt; decide +kernel⟩ <;> (try dsimp only) <;> decide +kernel

theorem witness_HistorianCommands_2 :
  (let s : State := { dev := bulk1 }; let p : Nat := 0xB000000; let h := cqHead s.dev; let alone (code : Nat) : Prop := (h + 1) % 65536 = cqTail s.dev ∧ ringCode s.dev = code ∧ s.dev.hist.sync = none ∧ RingAt s.dev h p ∧ ringWaits s.dev code = []; let b := (s.dev.hist.openBuf).get (by decide +kernel); let pa := ((ioTranslate s.dev (hManager s.dev) (ringWord s.dev 2).toNat false).1).get (by decide +kernel); domOn s.dev 77 = true ∧ (alone 2) ∧ hState s.dev = H_RUNNING ∧ ((ringWord s.dev 2).toNat % 4096 = 0) ∧ ringWord s.dev 3 = 1 ∧ ((ringWord s.dev 1).toNat < 2 ^ 32) ∧ s.dev.hist.openBuf = some b ∧ b.cur = none ∧ b.blocks.length < 1022 ∧ ((ioTranslate s.dev (hManager s.dev) (ringWord s.dev 2).toNat false).1 = some pa) ∧ inDram s.dev pa = true) ∧
  (let s : State := { dev := ringE 4 [3, 5, 7, 7] }; let p : Nat := 0xB000000; let h := cqHead s.dev; let alone (code : Nat) : Prop := (h + 1) % 65536 = cqTail s.dev ∧ ringCode s.dev = code ∧ s.dev.hist.sync = none ∧ RingAt s.dev h p ∧ ringWaits s.dev code = []; let e := (Instr.histQuery, 3, false); let t1 := (ringWord s.dev 2).toNat; let t2 := (ringWord s.dev 3).toNat; domOn s.dev 77 = true ∧ (alone e.2.1) ∧ (hState s.dev = H_RUNNING ∨ hState s.dev = H_FAULT) ∧ t2 ≤ t1) := 
  ⟨by dsimp only; unfold RingAt; decide +kernel,
   by dsimp only; unfold RingAt; decide +kernel⟩

theorem witness_HistorianCommands_3 :
  (let s : State := { dev := ringE 4 [4, 5, 7, 8] }; let p : Nat := 0xB000000; let h := cqHead s.dev; let alone (code : Nat) : Prop := (h + 1) % 65536 = cqTail s.dev ∧ ringCode s.dev = code ∧ s.dev.hist.sync = none ∧ RingAt s.dev h p ∧ ringWaits s.dev code = []; let e := (Instr.histQueryBulk, 4, true); let t1 := (ringWord s.dev 2).toNat; let t2 := (ringWord s.dev 3).toNat; domOn s.dev 77 = true ∧ (alone e.2.1) ∧ (hState s.dev = H_RUNNING ∨ hState s.dev = H_FAULT) ∧ t1 < t2 ∧ ((ringWord s.dev 1).toNat ≤ 0xFFFFF) ∧ ((ringWord s.dev 4).toNat % 4096 = 0) ∧ mfind s.dev.hist.queries 0 = none) ∧
  (let s : State := { dev := { ringE 4 [3, 5, 7, 8] with hist := { hTabs with queries := [(0, q0)] } } }; let slot : Fin 4 := 0; let p : Nat := 0xB000000; let q := (mfind s.dev.hist.queries slot.val).get (by decide +kernel); let failed := []; domOn s.dev 77 = true ∧ mfind s.dev.hist.queries slot.val = some q ∧ (q.segs = []) ∧ (RingAt s.dev q.entry p) ∧ (queryWaits s.dev slot.val failed = [])) := 
  ⟨by dsimp only; unfold RingAt; decide +kernel,
   by refine ⟨?_, ?_, ?_, by unfold RingAt; decide +kernel, ?_⟩ <;> decide +kernel⟩

theorem witness_HistorianCommands_4 :
  (let s : State := { dev := let d := ringE 2 [5, 0, 0, 0]; { d with hist := { hTabs with openBuf := some bufA } } }; let p : Nat := 0xB000000; let h := cqHead s.dev; let alone (code : Nat) : Prop := (h + 1) % 65536 = cqTail s.dev ∧ ringCode s.dev = code ∧ s.dev.hist.sync = none ∧ RingAt s.dev h p ∧ ringWaits s.dev code = []; let b := (s.dev.hist.openBuf).get (by decide +kernel); domOn s.dev 77 = true ∧ (alone 5) ∧ hState s.dev = H_RUNNING ∧ s.dev.hist.openBuf = some b) ∧
  (let s : State := { dev := ringE 2 [6] }; let p : Nat := 0xB000000; let h := cqHead s.dev; let alone (code : Nat) : Prop := (h + 1) % 65536 = cqTail s.dev ∧ ringCode s.dev = code ∧ s.dev.hist.sync = none ∧ RingAt s.dev h p ∧ ringWaits s.dev code = []; domOn s.dev 77 = true ∧ (alone 6)) := 
  ⟨by dsimp only; unfold RingAt; decide +kernel,
   by dsimp only; unfold RingAt; decide +kernel⟩

def ownReach (m : Fin 5) (o : Nat) : Dev :=
  { reach with
    parts := [(o, { roles := 16 })]
    ioTlb := if m == 4 then [] else [⟨o, 0xB000, 0xB000, 7, 12⟩, ⟨o, 16, 16, 7, 12⟩, ⟨o, 0x403D7, 16, 7, 12⟩, ⟨o, 0x403D8, 17, 7, 12⟩, ⟨o, 0x403FF, 17, 7, 12⟩]
    hist := { hTabs with
      media := [(0, []), (1, [])]
      format := m == 0
      flight := if m == 2 || m == 4 then [seg1 [40]] else if m == 3 then [seg1 [0]] else [] } }
/-- The partition that owns root port 0 is the manager here, so drive 0 is reached. -/
theorem ownReach_spec (m : Fin 5) : hD (ownReach m (rootOwner 0)) = 1 ∧ driveReached (ownReach m (rootOwner 0)) 0 = true ∧ driveMeets (ownReach m (rootOwner 0)) gd = true := by
  have h : ∀ (g : Fin 5) (o : Fin 16), hD (ownReach g o.val) = 1 ∧ (rootLive (ownReach g o.val) (driveRoot (ownReach g o.val) 0) = true ∧ driveRoot (ownReach g o.val) 0 = 0 ∧
      (root (ownReach g o.val) 0).up = true ∧ hManager (ownReach g o.val) = o.val) ∧ driveMeets (ownReach g o.val) gd = true := by decide +kernel
  have k := h m ⟨rootOwner 0, Nat.mod_lt _ (by decide)⟩
  have r := k.2.1
  exact ⟨k.1, by unfold driveReached; rw [r.1, r.2.1, r.2.2.1, r.2.2.2]; simp, k.2.2⟩
theorem ownReach_meets (m : Fin 5) : ∀ k, k < hD (ownReach m (rootOwner 0)) →
    driveReached (ownReach m (rootOwner 0)) k = true ∧ ∃ f, [gd][k]? = some f ∧ driveMeets (ownReach m (rootOwner 0)) f = true := by
  have h := ownReach_spec m
  rw [h.1]
  rintro k hk
  obtain rfl : k = 0 := by omega
  exact ⟨h.2.1, gd, rfl, h.2.2⟩

theorem witness_HistorianEngine_format :
  (let s : State := { dev := ownReach 0 (rootOwner 0) }; let drives := [gd]; domOn s.dev 77 = true ∧ hState s.dev = H_STARTING ∧
    (∀ k, k < hD s.dev → driveReached s.dev k = true ∧ ∃ f, drives[k]? = some f ∧ driveMeets s.dev f = true) ∧ s.dev.hist.format = true) :=
  ⟨by decide +kernel, by decide +kernel, ownReach_meets 0, rfl⟩

theorem witness_HistorianEngine_restart :
  (let s : State := { dev := ownReach 1 (rootOwner 0) }; let drives := [gd]; domOn s.dev 77 = true ∧ hState s.dev = H_STARTING ∧
    (∀ k, k < hD s.dev → driveReached s.dev k = true ∧ ∃ f, drives[k]? = some f ∧ driveMeets s.dev f = true) ∧ s.dev.hist.format = false ∧ (∀ k, k < hD s.dev → supers s.dev k = [])) :=
  ⟨by decide +kernel, by decide +kernel, ownReach_meets 1, rfl, by
    dsimp only; rw [(ownReach_spec 1).1]
    rintro k hk
    obtain rfl : k = 0 := by omega
    decide +kernel⟩

theorem ownReach_reads : (bufRead (ownReach 2 (rootOwner 0)) 0 0 2).1.isSome = true ∧ (bufRead (ownReach 4 (rootOwner 0)) 0 0 2).1 = none ∧
    (bufRead (ownReach 3 (rootOwner 0)) 0 0 1).1.isSome = true := by
  have h : ∀ o : Fin 16, (bufRead (ownReach 2 o.val) 0 0 2).1.isSome = true ∧ (bufRead (ownReach 4 o.val) 0 0 2).1 = none ∧
      (bufRead (ownReach 3 o.val) 0 0 1).1.isSome = true := by decide +kernel
  exact h ⟨rootOwner 0, Nat.mod_lt _ (by decide)⟩

theorem witness_HistorianEngine_blocks :
  (let s : State := { dev := ownReach 2 (rootOwner 0) }; let i := 0; let j : Fin 16 := 0; let n := 2; let x := seg1 [40]; domOn s.dev 77 = true ∧ s.dev.hist.flight[i]? = some x ∧ x.left.all (· == 0) = false ∧ 1 ≤ n ∧
    n ≤ maxBlocks s.dev j.val ∧ n ≤ x.left.getD j.val 0 ∧ x.left.getD j.val 0 ≤ (stripeLefts s.dev).getD j.val 0 ∧ x.fail = 0 ∧ driveReached s.dev j.val = true ∧ (bufRead s.dev i j.val n).1.isSome = true) :=
  ⟨by decide +kernel, rfl, by decide, by decide, by decide +kernel, by decide, by decide +kernel, rfl, (ownReach_spec 2).2.1, ownReach_reads.1⟩

theorem witness_HistorianEngine_refused :
  (let s : State := { dev := ownReach 4 (rootOwner 0) }; let i := 0; let j : Fin 16 := 0; let n := 2; let x := seg1 [40]; domOn s.dev 77 = true ∧ s.dev.hist.flight[i]? = some x ∧ x.left.all (· == 0) = false ∧ 1 ≤ n ∧
    n ≤ maxBlocks s.dev j.val ∧ n ≤ x.left.getD j.val 0 ∧ x.left.getD j.val 0 ≤ (stripeLefts s.dev).getD j.val 0 ∧ x.fail = 0 ∧ driveReached s.dev j.val = true ∧ (bufRead s.dev i j.val n).1 = none ∧
    (listSet x.left j.val (x.left.getD j.val 0 - n)).all (· == 0) = false) :=
  ⟨by decide +kernel, rfl, by decide, by decide, by decide +kernel, by decide, by decide +kernel, rfl, (ownReach_spec 4).2.1, ownReach_reads.2.1, by decide⟩

theorem witness_HistorianEngine_checkpoint :
  (let s : State := { dev := ownReach 3 (rootOwner 0) }; let j : Fin 16 := 0; let x := seg1 [0]; domOn s.dev 77 = true ∧ s.dev.hist.flight[0]? = some x ∧ x.left.all (· == 0) = true ∧ j.val + 1 = hD s.dev ∧
    s.dev.hist.sync = none ∧ driveReached s.dev j.val = true ∧ (bufRead s.dev 0 j.val 1).1.isSome = true) :=
  ⟨by decide +kernel, rfl, by decide, (ownReach_spec 3).1.symm, rfl, (ownReach_spec 3).2.1, ownReach_reads.2.2⟩
end F09

namespace F10
def b0 : Dev := fset { base with time := 10 ^ 19 } PWR_DOM_INDEX PWR_DOM_INDEX_DONE 1
def dset (d : Dev) (k v : Nat) : Dev := setDom d k v
def noisy (d : Dev) : Dev := setThr (setTag (wrByte (wrByte (fset (fset d (BK_SHARE 0) BK_SHARE_MASK 5) (CL_ERR 0) CL_ERR_MAP_BUSY 1) 0x300000000008 4) 0x300000800008 9) 0x60000000001 4) 70 { th0 with pc := 5 }
def pwrS : Dev := fset (fset b0 PWR_STATUS PWR_STATUS_VCORE_MV 700) PWR_CTRL PWR_CTRL_AVS_EN 1
def flt : Dev := fset b0 PWR_STATUS PWR_STATUS_PMBUS_FAULT 1
def refs : Dev :=
  let d := fset (fset (fset (fset b0 PWR_STATUS PWR_STATUS_PCIE_OK 1) PWR_STATUS PWR_STATUS_CLK10M_OK 1) PWR_STATUS PWR_STATUS_PPS_OK 1) PWR_STATUS PWR_STATUS_SDS_OK 255
  let d1 := fset (fset d SW_GROUP_MODE (SW_GROUP_MODE_GMODE 0) 1) (PORT_STATUS 0) PORT_STATUS_LINK 1
  { setRoot d1 0 { up := true, perst := false } with oasis := { d1.oasis with flash := [(5, 7)], key := some [1] }, smp := { d1.smp with repairs := [{ kind := 1, unit := 2, arg := 3 }], timeLog := [(1, 2)] } }
def ptp : Dev := fset (fset (fset (fset refs (PORT_PTP 0) PORT_PTP_DOM0_EN 1) CYC_CTRL CYC_CTRL_TSRC 0) CYC_CTRL CYC_CTRL_SLEW_MAX 100) PWR_STATUS PWR_STATUS_PPS_OK 1

theorem witness_PowerDomains_1 :
  (let s : State := { dev := fset b0 PWR_DOM_INDEX PWR_DOM_INDEX_DONE 0 }; let x := s.dev; fbit x PWR_DOM_INDEX PWR_DOM_INDEX_DONE = false) ∧
  (let s : State := { dev := b0 }; let d : Fin 128 := 80; let x := s.dev; let dn := d.val; fbit x PWR_DOM_INDEX PWR_DOM_INDEX_DONE = true ∧ 79 < dn) ∧
  (let s : State := { dev := b0 }; let d : Fin 128 := 79; let x := s.dev; let dn := d.val; fbit x PWR_DOM_INDEX PWR_DOM_INDEX_DONE = true ∧ dn ≤ 79) ∧
  (let s : State := { dev := dset b0 3 1 }; let d : Fin 128 := 3; let x := s.dev; let dn := d.val; fbit x PWR_DOM_INDEX PWR_DOM_INDEX_DONE = true ∧ dn ≤ 79 ∧ (domSt x dn = 1 ∨ domSt x dn = 3)) ∧
  (let s : State := { dev := b0 }; let d : Fin 128 := 79; let x := s.dev; let dn := d.val; fbit x PWR_DOM_INDEX PWR_DOM_INDEX_DONE = true ∧ dn ≤ 79 ∧ domSt x dn = 2) ∧
  (let s : State := { dev := dset b0 3 4 }; let d : Fin 128 := 3; let x := s.dev; let dn := d.val; fbit x PWR_DOM_INDEX PWR_DOM_INDEX_DONE = true ∧ dn ≤ 79 ∧ domSt x dn = 4) := by
  refine ⟨?_, ?_, ?_, ?_, ?_, ?_⟩ <;> (dsimp only; decide +kernel)

theorem witness_PowerDomains_2 :
  (let s : State := { dev := dset (fset b0 PWR_STATUS PWR_STATUS_PMBUS_FAULT 1) 3 0 }; let d : Fin 128 := 3; let x := s.dev; let dn := d.val; fbit x PWR_DOM_INDEX PWR_DOM_INDEX_DONE = true ∧ dn ≤ 79 ∧ domSt x dn = 0 ∧ upOk x dn = false) ∧
  (let s : State := { dev := dset (noisy b0) 24 0 }; let d : Fin 128 := 24; let x := s.dev; let dn := d.val; fbit x PWR_DOM_INDEX PWR_DOM_INDEX_DONE = true ∧ dn ≤ 79 ∧ domSt x dn = 0 ∧ upOk x dn = true) ∧
  (let s : State := { dev := dset b0 3 4 }; let d : Fin 128 := 3; let x := s.dev; let dn := d.val; fbit x PWR_DOM_INDEX PWR_DOM_INDEX_DONE = true ∧ dn ≤ 79 ∧ (domSt x dn = 0 ∨ domSt x dn = 4)) ∧
  (let s : State := { dev := b0 }; let d : Fin 128 := 79; let x := s.dev; let dn := d.val; fbit x PWR_DOM_INDEX PWR_DOM_INDEX_DONE = true ∧ dn ≤ 79 ∧ domSt x dn = 2 ∧ downSupported dn = false) ∧
  (let s : State := { dev := setThr b0 64 { th0 with st := .cycleWait } }; let d : Fin 128 := 1; let x := s.dev; let dn := d.val; fbit x PWR_DOM_INDEX PWR_DOM_INDEX_DONE = true ∧ dn ≤ 79 ∧ domSt x dn = 2 ∧ downSupported dn = true ∧ downOk x dn = false) := by
  refine ⟨?_, ?_, ?_, ?_, ?_⟩ <;> (dsimp only; decide +kernel)

theorem witness_PowerDomains_3 :
  (let s : State := { dev := fset (fset b0 (BK_CTRL 0) BK_CTRL_MODE 3) DBG_STATUS DBG_STATUS_ATTACHED 1 }; let d : Fin 128 := 24; let x := s.dev; let dn := d.val; fbit x PWR_DOM_INDEX PWR_DOM_INDEX_DONE = true ∧ dn ≤ 79 ∧ domSt x dn = 2 ∧ downSupported dn = true ∧ downOk x dn = true ∧ (attached x = true ∧ dn < 48)) ∧
  (let s : State := { dev := noisy (fset b0 (BK_CTRL 0) BK_CTRL_MODE 3) }; let d : Fin 128 := 24; let x := s.dev; let dn := d.val; fbit x PWR_DOM_INDEX PWR_DOM_INDEX_DONE = true ∧ dn ≤ 79 ∧ domSt x dn = 2 ∧ downSupported dn = true ∧ downOk x dn = true ∧ (¬(attached x = true ∧ dn < 48))) ∧
  (let s : State := { dev := dset b0 3 1 }; let d : Fin 128 := 3; let x := s.dev; let dn := d.val; domSt x dn = 1) ∧
  (let s : State := { dev := dset b0 3 3 }; let d : Fin 128 := 3; let x := s.dev; let dn := d.val; domSt x dn = 3 ∧ ((24 ≤ dn → dn < 48 → (bank x (dn - 24)).queue = []))) := by
  refine ⟨?_, ?_, ?_, ?_⟩ <;> (dsimp only; decide +kernel)

theorem witness_VoltageReferencesAndResets_1 :
  (let s : State := { dev := pwrS }; let x := s.dev; let held (e : Dev) (cause : Nat) : Prop := e.pwr.held = cause ∧ fget e PWR_STATUS PWR_STATUS_LAST_RESET = cause ∧ (∀ o, o ∉ [DBG_STATUS, SMP_STATUS, PWR_STATUS] → reg e o = regReset o) ∧ (∀ t, (thr e t).st = .off) ∧ e.oasis = keptOasis x.oasis ∧ (x.hist.flight = [] → e.hist.media = x.hist.media) ∧ e.smp.flash = x.smp.flash ∧ e.smp.repairs = x.smp.repairs ∧ e.smp.timeLog = x.smp.timeLog ∧ e.mem = [] ∧ e.inst = [] ∧ e.routes = []; x.pwr.held = 0 ∧ fbit x PWR_STATUS PWR_STATUS_PMBUS_FAULT = false) ∧
  (let s : State := { dev := pwrS }; let x := s.dev; let held (e : Dev) (cause : Nat) : Prop := e.pwr.held = cause ∧ fget e PWR_STATUS PWR_STATUS_LAST_RESET = cause ∧ (∀ o, o ∉ [DBG_STATUS, SMP_STATUS, PWR_STATUS] → reg e o = regReset o) ∧ (∀ t, (thr e t).st = .off) ∧ e.oasis = keptOasis x.oasis ∧ (x.hist.flight = [] → e.hist.media = x.hist.media) ∧ e.smp.flash = x.smp.flash ∧ e.smp.repairs = x.smp.repairs ∧ e.smp.timeLog = x.smp.timeLog ∧ e.mem = [] ∧ e.inst = [] ∧ e.routes = []; x.pwr.held = 0 ∧ fbit x PWR_STATUS PWR_STATUS_PMBUS_FAULT = false) := by
  refine ⟨?_, ?_⟩ <;> (dsimp only; decide +kernel)

theorem witness_VoltageReferencesAndResets_2 :
  (let s : State := { dev := flt }; let x := s.dev; let held (e : Dev) (cause : Nat) : Prop := e.pwr.held = cause ∧ fget e PWR_STATUS PWR_STATUS_LAST_RESET = cause ∧ (∀ o, o ∉ [DBG_STATUS, SMP_STATUS, PWR_STATUS] → reg e o = regReset o) ∧ (∀ t, (thr e t).st = .off) ∧ e.oasis = keptOasis x.oasis ∧ (x.hist.flight = [] → e.hist.media = x.hist.media) ∧ e.smp.flash = x.smp.flash ∧ e.smp.repairs = x.smp.repairs ∧ e.smp.timeLog = x.smp.timeLog ∧ e.mem = [] ∧ e.inst = [] ∧ e.routes = []; x.pwr.held = 0 ∧ fbit x PWR_STATUS PWR_STATUS_PMBUS_FAULT = true) ∧
  (let s : State := { dev := flt }; let x := s.dev; fbit x PWR_STATUS PWR_STATUS_PMBUS_FAULT = true) ∧
  (let temp : BitVec 16 := 840; 840 ≤ temp.toInt) ∧
  (let temp : BitVec 16 := 440; temp.toInt < 840) ∧
  (let s : State := { dev := pwrS }; let x := s.dev; let held (e : Dev) (cause : Nat) : Prop := e.pwr.held = cause ∧ fget e PWR_STATUS PWR_STATUS_LAST_RESET = cause ∧ (∀ o, o ∉ [DBG_STATUS, SMP_STATUS, PWR_STATUS] → reg e o = regReset o) ∧ (∀ t, (thr e t).st = .off) ∧ e.oasis = keptOasis x.oasis ∧ (x.hist.flight = [] → e.hist.media = x.hist.media) ∧ e.smp.flash = x.smp.flash ∧ e.smp.repairs = x.smp.repairs ∧ e.smp.timeLog = x.smp.timeLog ∧ e.mem = [] ∧ e.inst = [] ∧ e.routes = []; x.pwr.held < 2) := by
  refine ⟨?_, ?_, ?_, ?_, ?_⟩ <;> (dsimp only; decide +kernel)

theorem witness_VoltageReferencesAndResets_3 :
  (let s : State := { dev := pwrS }; let x := s.dev; let held (e : Dev) (cause : Nat) : Prop := e.pwr.held = cause ∧ fget e PWR_STATUS PWR_STATUS_LAST_RESET = cause ∧ (∀ o, o ∉ [DBG_STATUS, SMP_STATUS, PWR_STATUS] → reg e o = regReset o) ∧ (∀ t, (thr e t).st = .off) ∧ e.oasis = keptOasis x.oasis ∧ (x.hist.flight = [] → e.hist.media = x.hist.media) ∧ e.smp.flash = x.smp.flash ∧ e.smp.repairs = x.smp.repairs ∧ e.smp.timeLog = x.smp.timeLog ∧ e.mem = [] ∧ e.inst = [] ∧ e.routes = []; (x.pwr.held < 2 ∨ x.pwr.held = 3)) ∧
  (let s : State := { dev := pwrS }; let x := s.dev; let held (e : Dev) (cause : Nat) : Prop := e.pwr.held = cause ∧ fget e PWR_STATUS PWR_STATUS_LAST_RESET = cause ∧ (∀ o, o ∉ [DBG_STATUS, SMP_STATUS, PWR_STATUS] → reg e o = regReset o) ∧ (∀ t, (thr e t).st = .off) ∧ e.oasis = keptOasis x.oasis ∧ (x.hist.flight = [] → e.hist.media = x.hist.media) ∧ e.smp.flash = x.smp.flash ∧ e.smp.repairs = x.smp.repairs ∧ e.smp.timeLog = x.smp.timeLog ∧ e.mem = [] ∧ e.inst = [] ∧ e.routes = []; x.pwr.held < 3) ∧
  (let s : State := { dev := refs }; let ref : RefClock := .pcie; let x := s.dev; let b := (refBit ref).get (by decide +kernel); refBit ref = some b ∧ fbit x PWR_STATUS b = true ∧ ((∀ j, ref = .sds j → j.val ≠ 7 ∨ twinOn x = false)) ∧ ((ref = .pcie → x.hist.flight = []))) := by
  refine ⟨?_, ?_, ?_⟩ <;> (dsimp only; decide +kernel)

theorem witness_VoltageReferencesAndResets_4 :
  (let ref : RefClock := .pcie; let b := (refBit ref).get (by decide +kernel); refBit ref = some b) ∧
  (let s : State := { dev := ptp }; let dom : Fin 2 := 0; let p : PortId := 0; let x := s.dev; let held (e : Dev) (cause : Nat) : Prop := e.pwr.held = cause ∧ fget e PWR_STATUS PWR_STATUS_LAST_RESET = cause ∧ (∀ o, o ∉ [DBG_STATUS, SMP_STATUS, PWR_STATUS] → reg e o = regReset o) ∧ (∀ t, (thr e t).st = .off) ∧ e.oasis = keptOasis x.oasis ∧ (x.hist.flight = [] → e.hist.media = x.hist.media) ∧ e.smp.flash = x.smp.flash ∧ e.smp.repairs = x.smp.repairs ∧ e.smp.timeLog = x.smp.timeLog ∧ e.mem = [] ∧ e.inst = [] ∧ e.routes = []; restarting x = false ∧ x.pwr.held = 0 ∧ (fbit x (PORT_PTP p.val) (if dom.val = 0 then PORT_PTP_DOM0_EN else PORT_PTP_DOM1_EN) = true) ∧ linkUp x p.val = true) := by
  refine ⟨?_, ?_⟩ <;> (dsimp only; decide +kernel)
end F10

namespace F11
def pm (ms : List Nat) : Word := BitVec.ofNat 64 ((ms.zipIdx.map (fun e => e.1 * 2 ^ (4 * e.2))).sum)
def b0 : Dev := { base with time := 10 ^ 19 }
def thx : Thread := { th0 with storeBuf := [{ id := 0, pa := 0x100, bytes := 8 }], accs := [{ id := 1, op := .loadTagged, va := 0, pa := 0, rd := 3 }], nextId := 2 }
def lk (ms : List Nat) : Dev := setThr (setThr (setReg b0 (CL_PAIR 0) (pm ms)) 0 thx) 16 { th0 with pc := 9 }
def nm : Dev := { lk [1, 3, 0, 5] with cyc := { b0.cyc with threads := [(2, BitVec.ofNat 64 (0x2000 * 2 ^ 16 + 1)), (3, BitVec.ofNat 64 (0x2000 * 2 ^ 16 + 2 * 2 + 1))] }, routes := [(7, 0x11), (8, 0x11 + 1024 * 2)] }
def healD : Dev := fset { nm with smp := { nm.smp with heal := [(0, 2), (8, 4)] }, tlb := [(0, {}), (2, { itlb := [(0, ent)] })] } MGR_PART_STATUS (3, 0) 3
def mvD : Dev := let d := setThr (setReg b0 (CL_PAIR 0) (pm [2, 3, 0, 5])) 0 { th0 with pc := 77 }; { d with smp := { d.smp with moves := [(0, 2, 5, 6)] } }
def dz : Dev := fset (fset (fset (fset b0 SMP_DARN_CTRL SMP_DARN_CTRL_BANK_EN 0xffffff) SMP_DARN_CTRL SMP_DARN_CTRL_LT_EN 0xff) (BK_CTRL 0) BK_CTRL_MODE 0) (BK_CTRL 1) BK_CTRL_MODE 3
def r1 : SRec := { sev := 4, code := 5, block := 6, inst := 7, seq := 8, flashPend := true }
def r2 : SRec := { r1 with seq := 9, flashPend := false }
def fc : Dev := { b0 with smp := { b0.smp with ram := [r2, r1], flash := [[some r2, none]], readBuf := rangeFrom 0 256 |>.map (BitVec.ofNat 8) } }
def ph (k : Nat) : PhaseSt := { kind := k, opened := 5, lastEvent := 6 }
def phD (k : Nat) : Dev := { fc with smp := { fc.smp with phase := some (ph k) } }
def gt (st thr : Nat) : Dev := let d := setThr b0 0 th0; { d with parts := [(0, { gates := 2 ^ 200, gen := 5 })], oasis := { d.oasis with gates := [(200, { st := st, thr := thr, part := 3, gen := 2 })] } }

theorem witness_LockstepPairs_1 :
  (let s : State := { dev := lk [1, 3, 0, 5] }; let p : Fin 96 := 0; let silent : Option Bool := (some true); let x := s.dev; let e := Instr.coreMismatch ⟨p, silent⟩; x.smp.repairs.length < 16000 ∧ (pairMode x p.val = 1 ∨ (e = .delayRegisterFault p ∧ pairMode x p.val = 2))) ∧
  (let s : State := { dev := let d := lk [4, 5, 0, 3]; { d with smp := { d.smp with silent := [(0, false), (3, true)] } } }; let p : Fin 96 := 0; let silent : Option Bool := none; let x := s.dev; x.smp.repairs.length < 16000 ∧ pairMode x p.val = 4 ∧ (x.smp.silent.contains (p.val, mget (fun _ => false) x.smp.tests p.val) = true)) ∧
  (let s : State := { dev := lk [1, 5, 0, 3] }; let p : Fin 96 := 0; let flagged : Option Nat := (some 3); let x := s.dev; let n := (flagged).get (by decide +kernel); x.smp.repairs.length < 16000 ∧ pairMode x p.val = 1 ∧ flagged = some n ∧ n ≤ 4) ∧
  (let s : State := { dev := lk [1, 3, 0, 5] }; let p : Fin 96 := 0; let flagged : Option Nat := none; let x := s.dev; let late : Prop := ∀ n, flagged = some n → 4 < n; x.smp.repairs.length < 16000 ∧ pairMode x p.val = 1 ∧ (late)) := by
  refine ⟨?_, ?_, ?_, ?_⟩ <;> (dsimp only; decide +kernel)

theorem witness_LockstepPairs_2 :
  (let s : State := { dev := healD }; let p : Fin 96 := 0; let old : Nat := 0; let new : Nat := 2; let x := s.dev; let core := 2 * p.val; x.smp.repairs.length < 16000 ∧ (x.smp.heal.find? (fun h => h.1 == core) = some (old, new)) ∧ new % 2 = 0 ∧ new < 192 ∧ new ≠ core) ∧
  (let s : State := { dev := setPairMode mvD 0 1 }; let p : Fin 96 := 0; let x := s.dev; let core := 2 * p.val; let m := (x.smp.moves.find? (fun m => m.1 == core)).get (by decide +kernel); x.smp.repairs.length < 16000 ∧ (x.smp.moves.find? (fun m => m.1 == core) = some m) ∧ pairMode x p.val ≠ 2) ∧
  (let s : State := { dev := mvD }; let p : Fin 96 := 0; let old : Nat := 0; let new : Nat := 2; let x := s.dev; let core := 2 * p.val; let at_ := 5; let ns := 6; x.smp.repairs.length < 16000 ∧ (x.smp.moves.find? (fun m => m.1 == core) = some (old, new, at_, ns)) ∧ pairMode x p.val = 2 ∧ new % 2 = 0 ∧ new < 192 ∧ new ≠ core ∧ ((∀ t, t / 8 = core → (thr x t).storeBuf = [] ∧ (thr x t).accs = [] ∧ (thr x t).relHeld = none)) ∧ (classesNaming x core (fun _ => true) = [] ∨ boundarySince x core ns = true)) := by
  refine ⟨?_,
    ?_,
    by refine ⟨?_, ?_, ?_, ?_, ?_, ?_, all_of_core (by decide +kernel), ?_⟩ <;> decide +kernel⟩ <;> (try dsimp only) <;> decide +kernel

theorem witness_SamplerAndGates_1 :
  (let s : State := { dev := dz }; let u : DarnUnit := (.bank 1); let x := s.dev; darnEnabled x u = false) ∧
  (let s : State := { dev := dz }; let u : DarnUnit := (.bank 0); let x := s.dev; darnEnabled x u = true) ∧
  (let s : State := { dev := fc }; let x := s.dev; let r := (x.smp.ram.find? (fun r => r.flashPend)).get (by decide +kernel); (x.smp.ram.find? (fun r => r.flashPend) = some r)) ∧
  (let s : State := { dev := fset (phD 1) SMP_RD_CTRL SMP_RD_CTRL_WORD 31 }; let x := s.dev; let p := (x.smp.phase).get (by decide +kernel); x.smp.phase = some p) ∧
  (let s : State := { dev := fset (gt 0 0) SMP_RD_CTRL SMP_RD_CTRL_DONE 0 }; let x := s.dev; fbit x SMP_RD_CTRL SMP_RD_CTRL_DONE = false) ∧
  (let s : State := { dev := dz }; let x := s.dev; fbit x SMP_RD_CTRL SMP_RD_CTRL_DONE = true) := by
  refine ⟨?_, ?_, ?_, ?_, ?_, ?_⟩ <;> (dsimp only; decide +kernel)

theorem witness_SamplerAndGates_2 :
  (let s : State := { dev := dz }; let t : Thr := 0; let g : Byte := 200; let x := s.dev; let part := thrPart x t.val; let may := nbit (partSt x part).gates g.toNat; domOn x 79 = true ∧ may = false) ∧
  (let s : State := { dev := gt 0 0 }; let t : Thr := 0; let g : Byte := 200; let x := s.dev; let part := thrPart x t.val; let may := nbit (partSt x part).gates g.toNat; domOn x 79 = true ∧ may = true) ∧
  (let s : State := { dev := gt 0 0 }; let t : Thr := 0; let g : Byte := 200; let x := s.dev; let o := gateSt x g.toNat; let part := thrPart x t.val; let may := nbit (partSt x part).gates g.toNat; domOn x 79 = true ∧ may = true ∧ o.st = 0) ∧
  (let s : State := { dev := gt 2 4 }; let t : Thr := 0; let g : Byte := 200; let x := s.dev; let o := gateSt x g.toNat; let part := thrPart x t.val; let may := nbit (partSt x part).gates g.toNat; domOn x 79 = true ∧ may = true ∧ o.st = 2) ∧
  (let s : State := { dev := gt 1 0 }; let t : Thr := 0; let g : Byte := 200; let x := s.dev; let o := gateSt x g.toNat; let part := thrPart x t.val; let may := nbit (partSt x part).gates g.toNat; domOn x 79 = true ∧ may = true ∧ o.st = 1 ∧ o.thr = t.val) := by
  refine ⟨?_, ?_, ?_, ?_, ?_⟩ <;> (dsimp only; decide +kernel)

theorem witness_SamplerAndGates_3 :
  (let s : State := { dev := gt 1 0 }; let t : Thr := 0; let g : Byte := 200; let x := s.dev; let o := gateSt x g.toNat; let part := thrPart x t.val; let may := nbit (partSt x part).gates g.toNat; domOn x 79 = true ∧ may = true ∧ o.st = 1 ∧ o.thr = t.val) ∧
  (let s : State := { dev := gt 1 4 }; let t : Thr := 0; let g : Byte := 200; let x := s.dev; let o := gateSt x g.toNat; let part := thrPart x t.val; let may := nbit (partSt x part).gates g.toNat; domOn x 79 = true ∧ may = true ∧ o.st = 1 ∧ o.thr ≠ t.val) ∧
  (let s : State := { dev := gt 0 0 }; let t : Thr := 0; let g : Byte := 200; let x := s.dev; let o := gateSt x g.toNat; let part := thrPart x t.val; let may := nbit (partSt x part).gates g.toNat; domOn x 79 = true ∧ may = true ∧ (o.st ≠ 1 ∨ o.thr ≠ t.val)) := by
  refine ⟨?_, ?_, ?_⟩ <;> (dsimp only; decide +kernel)
end F11

namespace F12
def lv (d : Dev) (n : Nat) : Dev := fset (fset d DBG_STATUS DBG_STATUS_TAP_LEVEL n) DBG_STATUS DBG_STATUS_ATTACHED 1
def pwd : BitVec 256 := 0x1234
def pwL : List Byte := leBytes 32 pwd.toNat
def w24 : Nat := 2 ^ 24 - 1
def opn : Dev := { base with oasis := { base.oasis with w1 := w24, password := some pwL } }
def chl : Challenge := { id := 7, bytes := List.replicate 32 1, path := 0, at_ := 5 }
def rsp (i : Nat) (p : List Byte) (l : Nat) : AuthResp := { path := 0, id := i, level := l, payload := p }
def ch (d : Dev) : Dev := fset { d with dbg := { d.dbg with challenge := some chl } } DBG_STATUS DBG_STATUS_CHALLENGE_OUT 1
def lk (d : Dev) : Dev := { d with dbg := { d.dbg with lockFrom := some 5, lockFor := 60 } }
def rs (d : Dev) (r : AuthResp) : Dev := { ch d with dbg := { (ch d).dbg with resps := [r] } }
def sw (d : Dev) : Dev := fset (fset (fset d DBG_CTRL DBG_CTRL_SW_AUTH_EN 1) DBG_AUTH DBG_AUTH_DONE 1) DBG_STATUS DBG_STATUS_SW_LEVEL 2
def hd (d : Dev) : Dev := setThr d 0 { thr d 0 with st := .haltedDebug, resume := .running, twait := none }
def t1 : Dev := lv { run0.dev with dbg := { base.dbg with cmps := [(cmpKey 0 false 1, { va := 8, mask := 1, action := 0 })], gNext := 0x1000 } } 2
def tb : Dev := setThr t1 0 { thr t1 0 with slot := .exec 0x2000 }
def dD : Dev := setPoison (setTag (wrByte t1 0x1008 7) (0x1008 / 8) 5) (0x1010 / 8) true
def vt (d : Dev) : Dev := fset (fset d (bankedReg DBG_VT_TX 2) DBG_VT_TX_FULL 1) (bankedReg DBG_VT_RX 2) DBG_VT_RX_VALID 1
def mbD (d : Dev) : Dev := fset (fset d (mboxCtrl dbgMbox) PI_MBOX_CTRL_OUT_BUSY 1) (mboxCtrl dbgMbox) PI_MBOX_CTRL_IN_FULL 1
def tm (d : Dev) : Dev := { d with parts := [(0, { roles := 2 ^ 9 })], ioTlb := [⟨0, 1, 1, 7, 12⟩] }

theorem witness_TapAndAuthorisation_1 :
  (let s : State := { dev := base }; let cap : BitVec 2944 := 5; let sh : BitVec 2944 := 6; let x := s.dev; let e := (Instr.samplePreload cap sh, 0x01, PinMode.functional, false); (e.2.2.2 = false ∨ tapLevel x = 2)) ∧
  (let s : State := { dev := lv opn 2 }; let x := s.dev; tapLevel x = 2) ∧
  (let s : State := { dev := base }; let cap : BitVec 2944 := 5; let sh : BitVec 2944 := 6; let x := s.dev; let c := Instr.extest cap sh; (c = .bypass ∨ tapLevel x ≠ 2)) ∧
  (let s : State := { dev := base }; let x := s.dev; tapLevel x = 0) ∧
  (let s : State := { dev := lv opn 2 }; let x := s.dev; tapLevel x ≠ 0) ∧
  (let level : BitVec 4 := 3; let lvl := level.toNat; lvl ≠ 1 ∧ lvl ≠ 2) := by
  refine ⟨?_, ?_, ?_, ?_, ?_, ?_⟩ <;> (dsimp only; decide +kernel)

theorem witness_TapAndAuthorisation_2 :
  (let s : State := { dev := base }; let level : BitVec 4 := 2; let x := s.dev; let lvl := level.toNat; (lvl = 1 ∨ lvl = 2) ∧ authOpen x = true) ∧
  (let s : State := { dev := lk opn }; let level : BitVec 4 := 2; let x := s.dev; let lvl := level.toNat; (lvl = 1 ∨ lvl = 2) ∧ authOpen x = false ∧ x.dbg.lockFrom.isSome = true) ∧
  (let s : State := { dev := ch opn }; let level : BitVec 4 := 2; let x := s.dev; let lvl := level.toNat; (lvl = 1 ∨ lvl = 2) ∧ authOpen x = false ∧ x.dbg.lockFrom = none ∧ x.dbg.challenge.isSome = true) ∧
  (let s : State := { dev := lv opn 2 }; let level : BitVec 4 := 1; let x := s.dev; let lvl := level.toNat; (lvl = 1 ∨ lvl = 2) ∧ authOpen x = false ∧ x.dbg.lockFrom = none ∧ x.dbg.challenge = none) ∧
  (let level : BitVec 4 := 2; let lvl := level.toNat; (lvl = 1 ∨ lvl = 2)) ∧
  (let s : State := { dev := sw base }; let x := s.dev; fbit x DBG_AUTH DBG_AUTH_DONE = true ∧ swAuth x = true) := by
  refine ⟨?_, ?_, ?_, ?_, ?_, ?_⟩ <;> (dsimp only; decide +kernel)

theorem witness_TapAndAuthorisation_3 :
  (let s : State := { dev := base }; let x := s.dev; fbit x DBG_AUTH DBG_AUTH_DONE = true ∧ swAuth x = false) ∧
  (let s : State := { dev := sw base }; let level : BitVec 4 := 2; let x := s.dev; let lvl := level.toNat; fbit x DBG_AUTH DBG_AUTH_DONE = true ∧ swAuth x = true ∧ authOpen x = true ∧ (lvl = 1 ∨ lvl = 2)) ∧
  (let s : State := { dev := fset (sw opn) DBG_AUTH DBG_AUTH_DONE 0 }; let x := s.dev; fbit x DBG_AUTH DBG_AUTH_DONE = false) ∧
  (let s : State := { dev := sw (lk (tm opn)) }; let level : BitVec 4 := 2; let x := s.dev; let lvl := level.toNat; fbit x DBG_AUTH DBG_AUTH_DONE = true ∧ swAuth x = true ∧ (lvl = 1 ∨ lvl = 2) ∧ authOpen x = false ∧ x.dbg.lockFrom.isSome = true) ∧
  (let s : State := { dev := sw (ch opn) }; let level : BitVec 4 := 2; let x := s.dev; let lvl := level.toNat; fbit x DBG_AUTH DBG_AUTH_DONE = true ∧ swAuth x = true ∧ (lvl = 1 ∨ lvl = 2) ∧ authOpen x = false ∧ x.dbg.lockFrom = none ∧ x.dbg.challenge.isSome = true) ∧
  (let s : State := { dev := sw (lv opn 2) }; let level : BitVec 4 := 2; let buf : PAddr := 0x1040; let x := s.dev; let lvl := level.toNat; fbit x DBG_AUTH DBG_AUTH_DONE = true ∧ swAuth x = true ∧ (lvl = 1 ∨ lvl = 2) ∧ authOpen x = false ∧ x.dbg.lockFrom = none ∧ x.dbg.challenge = none ∧ ((authBuffer x (buf.toNat / 64 * 64) true).1 = none)) := by
  refine ⟨?_, ?_, ?_, ?_, ?_, ?_⟩ <;> (dsimp only; decide +kernel)

theorem witness_TapAndAuthorisation_4 :
  (let s : State := { dev := sw (tm opn) }; let level : BitVec 4 := 2; let buf : PAddr := 0x1040; let x := s.dev; let lvl := level.toNat; let b := ((authBuffer x (buf.toNat / 64 * 64) true).1).get (by decide +kernel); fbit x DBG_AUTH DBG_AUTH_DONE = true ∧ swAuth x = true ∧ (lvl = 1 ∨ lvl = 2) ∧ authOpen x = false ∧ x.dbg.lockFrom = none ∧ x.dbg.challenge = none ∧ ((authBuffer x (buf.toNat / 64 * 64) true).1 = some b)) ∧
  (let s : State := { dev := sw base }; let level : BitVec 4 := 2; let buf : PAddr := 0x1040; let x := s.dev; let lvl := level.toNat; fbit x DBG_AUTH DBG_AUTH_DONE = true ∧ swAuth x = true ∧ (lvl = 1 ∨ lvl = 2) ∧ ((authBuffer x (buf.toNat / 64 * 64) false).1 = none)) ∧
  (let s : State := { dev := sw (tm opn) }; let level : BitVec 4 := 2; let buf : PAddr := 0x1040; let x := s.dev; let lvl := level.toNat; let b := ((authBuffer x (buf.toNat / 64 * 64) false).1).get (by decide +kernel); fbit x DBG_AUTH DBG_AUTH_DONE = true ∧ swAuth x = true ∧ (lvl = 1 ∨ lvl = 2) ∧ ((authBuffer x (buf.toNat / 64 * 64) false).1 = some b)) ∧
  (let s : State := { dev := base }; let x := s.dev; lcState x ≠ LC_OPEN) ∧
  (let s : State := { dev := lv opn 1 }; let x := s.dev; lcState x = LC_OPEN ∧ tapLevel x ≠ 2) := by
  refine ⟨?_, ?_, ?_, ?_, ?_⟩ <;> (dsimp only; decide +kernel)

theorem witness_TapAndAuthorisation_5 :
  (let s : State := { dev := lv opn 2 }; let x := s.dev; lcState x = LC_OPEN ∧ tapLevel x = 2) ∧
  (let s : State := { dev := base }; let x := s.dev; let fails := fget x DBG_STATUS DBG_STATUS_FAILS; fails < 5 ∧ (x.dbg.resps = [])) ∧
  (let s : State := { dev := lk (rs opn (rsp 7 pwL 2)) }; let x := s.dev; let fails := fget x DBG_STATUS DBG_STATUS_FAILS; let r := (x.dbg.resps).head (by decide +kernel); fails < 5 ∧ (x.dbg.resps = [r]) ∧ r.path = 0 ∧ (x.dbg.lockFrom.isSome = true ∨ x.dbg.challenge = none)) ∧
  (let s : State := { dev := rs opn (rsp 6 pwL 2) }; let level : BitVec 4 := 2; let id : BitVec 32 := 7; let x := s.dev; let fails := fget x DBG_STATUS DBG_STATUS_FAILS; let r := (x.dbg.resps).head (by decide +kernel); let c := (x.dbg.challenge).get (by decide +kernel); fails < 5 ∧ (x.dbg.resps = [r]) ∧ x.dbg.lockFrom = none ∧ x.dbg.challenge = some c ∧ r.path = 0 ∧ r.level < 4 ∧ r.id ≠ c.id) := by
  refine ⟨?_, ?_, ?_, ?_⟩ <;> (dsimp only; decide +kernel)

theorem witness_TapAndAuthorisation_6 :
  (let s : State := { dev := rs opn (rsp 7 pwL 2) }; let level : BitVec 4 := 2; let id : BitVec 32 := 7; let x := s.dev; let fails := fget x DBG_STATUS DBG_STATUS_FAILS; let r := (x.dbg.resps).head (by decide +kernel); let c := (x.dbg.challenge).get (by decide +kernel); fails < 5 ∧ (x.dbg.resps = [r]) ∧ x.dbg.lockFrom = none ∧ x.dbg.challenge = some c ∧ r.path = 0 ∧ r.level < 4 ∧ r.id = c.id ∧ authValid x c r = true) ∧
  (let s : State := { dev := rs opn (rsp 7 [] 2) }; let level : BitVec 4 := 2; let id : BitVec 32 := 7; let x := s.dev; let fails := fget x DBG_STATUS DBG_STATUS_FAILS; let r := (x.dbg.resps).head (by decide +kernel); let c := (x.dbg.challenge).get (by decide +kernel); fails < 5 ∧ (x.dbg.resps = [r]) ∧ x.dbg.lockFrom = none ∧ x.dbg.challenge = some c ∧ r.path = 0 ∧ r.level < 4 ∧ r.id = c.id ∧ authValid x c r = false ∧ fails < 4) := by
  refine ⟨?_, ?_⟩ <;> (dsimp only; decide +kernel)

theorem witness_TapAndAuthorisation_7 :
  (let s : State := { dev := fset (fset (rs opn (rsp 7 [] 2)) DBG_STATUS DBG_STATUS_FAILS 4) DBG_STATUS DBG_STATUS_LOCKOUT_N 10 }; let level : BitVec 4 := 2; let id : BitVec 32 := 7; let x := s.dev; let fails := fget x DBG_STATUS DBG_STATUS_FAILS; let r := (x.dbg.resps).head (by decide +kernel); let c := (x.dbg.challenge).get (by decide +kernel); fails < 5 ∧ (x.dbg.resps = [r]) ∧ x.dbg.lockFrom = none ∧ x.dbg.challenge = some c ∧ r.path = 0 ∧ r.level < 4 ∧ r.id = c.id ∧ authValid x c r = false ∧ fails = 4) ∧
  (let s : State := { dev := base }; let x := s.dev; x.dbg.challenge = none) ∧
  (let s : State := { dev := base }; let x := s.dev; x.dbg.lockFrom = none) ∧
  (let s : State := { dev := ch opn }; let x := s.dev; let c := (x.dbg.challenge).get (by decide +kernel); x.dbg.challenge = some c) ∧
  (let s : State := { dev := lk opn }; let x := s.dev; let t := (x.dbg.lockFrom).get (by decide +kernel); x.dbg.lockFrom = some t) := by
  refine ⟨?_, ?_, ?_, ?_, ?_⟩ <;> (dsimp only; decide +kernel)

theorem witness_DebuggerCommands_GarirThreadsAndMemory_1 :
  (let s : State := { dev := t1 }; s.dev.dbg.gStep = none) ∧
  (let s : State := { dev := tb }; let core : Byte := 192; s.dev.dbg.gStep = none ∧ 192 ≤ core.toNat) ∧
  (let s : State := { dev := lv t1 0 }; let core : Byte := 0; let th : Fin 8 := 0; let x := s.dev; let t := 8 * core.toNat + th.val; s.dev.dbg.gStep = none ∧ core.toNat < 192 ∧ tapReaches x t = false) ∧
  (let s : State := { dev := t1 }; let core : Byte := 0; let th : Fin 8 := 0; let x := s.dev; let t := 8 * core.toNat + th.val; let y := thr x t; s.dev.dbg.gStep = none ∧ core.toNat < 192 ∧ tapReaches x t = true ∧ (y.st = .running ∨ y.st = .cycleWait) ∧ y.slot = .none ∧ y.exc = none) ∧
  (let s : State := { dev := tb }; let core : Byte := 0; let th : Fin 8 := 0; let x := s.dev; let t := 8 * core.toNat + th.val; let y := thr x t; s.dev.dbg.gStep = none ∧ core.toNat < 192 ∧ tapReaches x t = true ∧ (y.st = .running ∨ y.st = .cycleWait) ∧ (¬(y.slot = .none ∧ y.exc = none))) ∧
  (let s : State := { dev := t1 }; let core : Byte := 0; let th : Fin 8 := 0; let x := s.dev; let t := 8 * core.toNat + th.val; let y := thr x t; s.dev.dbg.gStep = none ∧ core.toNat < 192 ∧ tapReaches x t = true ∧ y.st ≠ .haltedDebug) := by
  refine ⟨?_, ?_, ?_, ?_, ?_, ?_⟩ <;> (dsimp only; decide +kernel)

theorem witness_DebuggerCommands_GarirThreadsAndMemory_2 :
  (let s : State := { dev := hd t1 }; let core : Byte := 0; let th : Fin 8 := 0; let x := s.dev; let t := 8 * core.toNat + th.val; let y := thr x t; let stays : Prop := y.resume ≠ .running ∨ drained y = false ∨ y.exc = none ∧ (y.slot = .none → nextDeferred y = none); s.dev.dbg.gStep = none ∧ core.toNat < 192 ∧ tapReaches x t = true ∧ y.st = .haltedDebug ∧ (stays)) ∧
  (let s : State := { dev := hd t1 }; let core : Byte := 0; let th : Fin 8 := 0; let x := s.dev; let t := 8 * core.toNat + th.val; let y := thr x t; let stays : Prop := y.resume ≠ .running ∨ drained y = false ∨ y.exc = none ∧ (y.slot = .none → nextDeferred y = none); s.dev.dbg.gStep = none ∧ core.toNat < 192 ∧ tapReaches x t = true ∧ y.st = .haltedDebug ∧ (stays)) ∧
  (let s : State := { dev := hd t1 }; let core : Byte := 0; let th : Fin 8 := 0; let r : BitVec 7 := 3; let x := s.dev; let t := 8 * core.toNat + th.val; let y := thr x t; let q := ((if r.toNat = 0 then QWord.zero else mget (fun _ => QWord.zero) y.gpr r.toNat)); s.dev.dbg.gStep = none ∧ core.toNat < 192 ∧ tapReaches x t = true ∧ y.st = .haltedDebug ∧ r.toNat < 32 ∧ (q = (if r.toNat = 0 then QWord.zero else mget (fun _ => QWord.zero) y.gpr r.toNat))) := by
  refine ⟨?_, ?_, ?_⟩ <;> (dsimp only; decide +kernel)

theorem witness_DebuggerCommands_GarirThreadsAndMemory_3 :
  (let s : State := { dev := hd t1 }; let core : Byte := 0; let th : Fin 8 := 0; let r : BitVec 7 := 32; let x := s.dev; let t := 8 * core.toNat + th.val; let y := thr x t; s.dev.dbg.gStep = none ∧ core.toNat < 192 ∧ tapReaches x t = true ∧ y.st = .haltedDebug ∧ r.toNat = 32) ∧
  (let s : State := { dev := hd t1 }; let core : Byte := 0; let th : Fin 8 := 0; let r : BitVec 7 := 66; let x := s.dev; let t := 8 * core.toNat + th.val; let y := thr x t; let n := (readSr x t (r.toNat - 64) true).get (by decide +kernel); s.dev.dbg.gStep = none ∧ core.toNat < 192 ∧ tapReaches x t = true ∧ y.st = .haltedDebug ∧ 64 ≤ r.toNat ∧ (readSr x t (r.toNat - 64) true = some n)) ∧
  (let s : State := { dev := hd t1 }; let core : Byte := 0; let th : Fin 8 := 0; let r : BitVec 7 := 3; let x := s.dev; let t := 8 * core.toNat + th.val; let y := thr x t; s.dev.dbg.gStep = none ∧ core.toNat < 192 ∧ tapReaches x t = true ∧ y.st = .haltedDebug ∧ r.toNat < 32) ∧
  (let s : State := { dev := hd t1 }; let core : Byte := 0; let th : Fin 8 := 0; let r : BitVec 7 := 32; let v : Word := 0x40; let x := s.dev; let t := 8 * core.toNat + th.val; let y := thr x t; s.dev.dbg.gStep = none ∧ core.toNat < 192 ∧ tapReaches x t = true ∧ y.st = .haltedDebug ∧ r.toNat = 32 ∧ v.toNat % 4 = 0 ∧ v.toNat < 2 ^ 48) := by
  refine ⟨?_, ?_, ?_, ?_⟩ <;> (dsimp only; decide +kernel)

theorem witness_DebuggerCommands_GarirThreadsAndMemory_4 :
  (let s : State := { dev := t1 }; let core : Byte := 0; let th : Fin 8 := 0; let x := s.dev; let t := 8 * core.toNat + th.val; s.dev.dbg.gStep = none ∧ core.toNat < 192 ∧ tapReaches x t = true) ∧
  (let s : State := { dev := t1 }; let core : Byte := 0; let th : Fin 8 := 0; let x := s.dev; let t := 8 * core.toNat + th.val; s.dev.dbg.gStep = none ∧ core.toNat < 192 ∧ tapReaches x t = true) ∧
  (let s : State := { dev := t1 }; let core : Byte := 0; let data : Bool := false; let idx : BitVec 3 := 1; let action : BitVec 2 := 1; let access : BitVec 2 := 0; let x := s.dev; s.dev.dbg.gStep = none ∧ core.toNat < 192 ∧ tapReaches x (8 * core.toNat) = true ∧ idx.toNat < (if data then 2 else 4) ∧ action ≠ 3 ∧ ((data = true → access ≠ 0))) ∧
  (let s : State := { dev := t1 }; let core : Byte := 0; let data : Bool := false; let idx : BitVec 3 := 1; let x := s.dev; s.dev.dbg.gStep = none ∧ core.toNat < 192 ∧ tapReaches x (8 * core.toNat) = true ∧ idx.toNat < (if data then 2 else 4)) ∧
  (let s : State := { dev := dD }; let a : PAddr := 0x1012; let x := s.dev; let pa := if a.toNat = 0 then x.dbg.gNext else a.toNat; s.dev.dbg.gStep = none ∧ pa % 8 ≠ 0) := by
  refine ⟨?_, ?_, ?_, ?_, ?_⟩ <;> (dsimp only; decide +kernel)

theorem witness_DebuggerCommands_GarirThreadsAndMemory_5 :
  (let s : State := { dev := lv t1 0 }; let a : PAddr := 0x1008; let x := s.dev; let pa := if a.toNat = 0 then x.dbg.gNext else a.toNat; s.dev.dbg.gStep = none ∧ pa % 8 = 0 ∧ memReaches x pa = false) :=
  by dsimp only; decide +kernel

theorem witness_DebuggerCommands_TerminalsAndDebugMailbox_1 :
  (let s : State := { dev := base }; let x := s.dev; s.dev.dbg.gStep = none ∧ tapLevel x = 0) ∧
  (let s : State := { dev := lv base 1 }; let x := s.dev; s.dev.dbg.gStep = none ∧ tapLevel x ≠ 0) ∧
  (let s : State := { dev := lv (vt base) 2 }; let p : PartId := 2; let x := s.dev; let rx := bankedReg DBG_VT_RX p.val; s.dev.dbg.gStep = none ∧ tapLevel x ≠ 0 ∧ fbit x rx DBG_VT_RX_VALID = true) ∧
  (let s : State := { dev := lv base 1 }; let p : PartId := 2; let x := s.dev; let rx := bankedReg DBG_VT_RX p.val; s.dev.dbg.gStep = none ∧ tapLevel x ≠ 0 ∧ fbit x rx DBG_VT_RX_VALID = false) ∧
  (let s : State := { dev := base }; s.dev.dbg.gStep = none) ∧
  (let s : State := { dev := { fset (lv base 2) (bankedReg DBG_VT_RX 2) DBG_VT_RX_IRQ_EN 1 with routes := [(0xE52, 0x11)] } }; let count : Fin 8 := 0; s.dev.dbg.gStep = none ∧ count.val = 0) := by
  refine ⟨?_, ?_, ?_, ?_, ?_, ?_⟩ <;> (dsimp only; decide +kernel)

theorem witness_DebuggerCommands_TerminalsAndDebugMailbox_2 :
  (let s : State := { dev := lv (vt base) 2 }; let p : PartId := 2; let count : Fin 8 := 3; let x := s.dev; let tx := bankedReg DBG_VT_TX p.val; s.dev.dbg.gStep = none ∧ count.val ≠ 0 ∧ fbit x tx DBG_VT_TX_FULL = true) ∧
  (let s : State := { dev := base }; let p : PartId := 2; let count : Fin 8 := 3; let x := s.dev; let tx := bankedReg DBG_VT_TX p.val; s.dev.dbg.gStep = none ∧ count.val ≠ 0 ∧ fbit x tx DBG_VT_TX_FULL = false) ∧
  (let s : State := { dev := base }; let x := s.dev; s.dev.dbg.gStep = none ∧ tapLevel x ≠ 2) ∧
  (let s : State := { dev := lv (mbD base) 2 }; let x := s.dev; let ctl := mboxCtrl dbgMbox; s.dev.dbg.gStep = none ∧ tapLevel x = 2 ∧ fbit x ctl PI_MBOX_CTRL_OUT_BUSY = true) ∧
  (let s : State := { dev := { fset (lv base 2) (bankedReg DBG_VT_RX 2) DBG_VT_RX_IRQ_EN 1 with routes := [(0xE52, 0x11)] } }; let x := s.dev; let ctl := mboxCtrl dbgMbox; s.dev.dbg.gStep = none ∧ tapLevel x = 2 ∧ fbit x ctl PI_MBOX_CTRL_OUT_BUSY = false) ∧
  (let s : State := { dev := { fset (lv base 2) (bankedReg DBG_VT_RX 2) DBG_VT_RX_IRQ_EN 1 with routes := [(0xE52, 0x11)] } }; let x := s.dev; s.dev.dbg.gStep = none ∧ tapLevel x = 2) := by
  refine ⟨?_, ?_, ?_, ?_, ?_, ?_⟩ <;> (dsimp only; decide +kernel)

def busD : Dev := { lv dD 1 with parts := [(0, { world := 1, s2 := [⟨0, 0, 2 ^ 30, 7⟩], dramSize := 2 ^ 30 })] }

theorem witness_DebuggerCommands_GarirThreadsAndMemory_memory :
  (let x := busD; let a : PAddr := 0x1008; let tagged := true; let pa := if a.toNat = 0 then x.dbg.gNext else a.toNat; x.dbg.gStep = none ∧ pa % 8 = 0 ∧ memReaches x pa = true ∧ inDram x pa = true ∧ debugWaits x pa = [] ∧ (tagged = true ∨ poisonAt x (pa / 8) = false)) ∧
  (let x := busD; let a : PAddr := 0x1010; let tagged := false; let pa := if a.toNat = 0 then x.dbg.gNext else a.toNat; x.dbg.gStep = none ∧ pa % 8 = 0 ∧ memReaches x pa = true ∧ inDram x pa = true ∧ debugWaits x pa = [] ∧ tagged = false ∧ poisonAt x (pa / 8) = true) ∧
  (let x := busD; let a : PAddr := 0x1048; let pa := if a.toNat = 0 then x.dbg.gNext else a.toNat; x.dbg.gStep = none ∧ pa % 8 = 0 ∧ memReaches x pa = true ∧ inDram x pa = true ∧ debugWaits x pa = []) :=
  ⟨by dsimp only; decide +kernel,
   by dsimp only; decide +kernel,
   by dsimp only; decide +kernel⟩
end F12

namespace F13
def tr (st en sink : Nat) : Dev := fset (fset (fset base TRC_STATUS TRC_STATUS_STATE st) TRC_CTRL TRC_CTRL_EN en) TRC_CTRL TRC_CTRL_SINK sink
def ff (d : Dev) : Dev := { d with trc := { d.trc with fifo := (rangeFrom 0 20).map (BitVec.ofNat 8), sunk := 100, post := 300, trigAt := 50, srcs := [(5, { en := true, prio := 2, loss := 9 })] } }
def tg (kind unit post : Nat) (d : Dev) : Dev := fset (fset (fset d TRC_TRIG TRC_TRIG_KIND kind) TRC_TRIG TRC_TRIG_UNIT unit) TRC_TRIG TRC_TRIG_POST post
def cv (i c : Nat) : Dev := setCtrCfg (setCtrVal { base with routes := [(0xE60, 0x11)] } i (2 ^ 48 - 1)) i c
def dom0 (d : Dev) : Dev := { d with doms := [] }
def sn : Snapshot := { time := 7, cause := 0, entries := [(3, 5, true, false), (9, 6, false, true)] }
def cs (d : Dev) : Dev := fset { d with ctr := { d.ctr with snap := some sn, seq := 4 } } CTR_CTRL CTR_CTRL_BUSY 1

theorem witness_TraceCommands_1 :
  (let s : State := { dev := ff (tr 0 0 0) }; let on : Bool := false; let x := s.dev; fbit x TRC_CTRL TRC_CTRL_EN = on) ∧
  (let s : State := { dev := ff (tr 0 0 0) }; let x := s.dev; fbit x TRC_CTRL TRC_CTRL_EN = false) ∧
  (let s : State := { dev := tg 3 0 1 (ff (tr 1 1 1)) }; let x := s.dev; fbit x TRC_CTRL TRC_CTRL_EN = true) ∧
  (let s : State := { dev := tg 3 0 1 (ff (tr 1 1 1)) }; let kind : Fin 5 := 3; let x := s.dev; let st (d : Dev) : Nat := fget d TRC_STATUS TRC_STATUS_STATE; let c := Instr.traceFire; (c = Instr.traceFire ∨ (c = .traceTrigger kind ∧ (kind.val = 0 ∨ fget x TRC_TRIG TRC_TRIG_KIND = kind.val))) ∧ st x = 1 ∧ x.trc.triggered = false) ∧
  (let s : State := { dev := ff (tr 0 0 0) }; let kind : Fin 5 := 3; let x := s.dev; let st (d : Dev) : Nat := fget d TRC_STATUS TRC_STATUS_STATE; let c := Instr.traceFire; (c = Instr.traceFire ∨ (c = .traceTrigger kind ∧ (kind.val = 0 ∨ fget x TRC_TRIG TRC_TRIG_KIND = kind.val))) ∧ (st x ≠ 1 ∨ x.trc.triggered = true)) ∧
  (let s : State := { dev := tg 2 1 9 (ff (tr 2 1 2)) }; let x := s.dev; let st (d : Dev) : Nat := fget d TRC_STATUS TRC_STATUS_STATE; st x = 2 ∧ fbit x TRC_TRIG TRC_TRIG_UNIT = true) := by
  refine ⟨?_, ?_, ?_, ?_, ?_, ?_⟩ <;> (dsimp only; decide +kernel)

theorem witness_TraceCommands_2 :
  (let s : State := { dev := tg 2 0 1 (ff (tr 2 1 1)) }; let x := s.dev; let st (d : Dev) : Nat := fget d TRC_STATUS TRC_STATUS_STATE; let post := fget x TRC_TRIG TRC_TRIG_POST; st x = 2 ∧ fbit x TRC_TRIG TRC_TRIG_UNIT = false ∧ 256 * post ≤ x.trc.post) ∧
  (let s : State := { dev := tg 2 0 9 (ff (tr 2 1 2)) }; let x := s.dev; let st (d : Dev) : Nat := fget d TRC_STATUS TRC_STATUS_STATE; let post := fget x TRC_TRIG TRC_TRIG_POST; st x = 2 ∧ fbit x TRC_TRIG TRC_TRIG_UNIT = false ∧ x.trc.post < 256 * post) ∧
  (let s : State := { dev := tg 3 0 1 (ff (tr 1 1 1)) }; let x := s.dev; tracing x = true ∧ x.trc.fifo.length + 10 ≤ 65536) ∧
  (let s : State := { dev := fset (ff (tr 0 0 0)) TRC_SRC_INDEX TRC_SRC_INDEX_DONE 0 }; let x := s.dev; fbit x TRC_SRC_INDEX TRC_SRC_INDEX_DONE = false) ∧
  (let s : State := { dev := ff (tr 0 0 0) }; let idx : BitVec 11 := 1549; let x := s.dev; fbit x TRC_SRC_INDEX TRC_SRC_INDEX_DONE = true ∧ 1548 < idx.toNat) ∧
  (let s : State := { dev := ff (tr 0 0 0) }; let idx : BitVec 11 := 5; let x := s.dev; fbit x TRC_SRC_INDEX TRC_SRC_INDEX_DONE = true ∧ idx.toNat ≤ 1548) := by
  refine ⟨?_, ?_, ?_, ?_, ?_, ?_⟩ <;> (dsimp only; decide +kernel)

theorem witness_TraceCommands_3 :
  (let s : State := { dev := ff (tr 0 0 0) }; let idx : BitVec 11 := 5; let x := s.dev; fbit x TRC_SRC_INDEX TRC_SRC_INDEX_DONE = true ∧ idx.toNat ≤ 1548) :=
  by dsimp only; decide +kernel

theorem witness_CounterCommands_1 :
  (let s : State := { dev := cv 5 9 }; let i : Fin 2144 := 5; let x := s.dev; nbit (ctrCfg x i.val) 0 = true ∧ (ctrVal x i.val = 2 ^ 48 - 1) ∧ domOn x (ctrDomain i.val) = true) ∧
  (let s : State := { dev := fset (cv 5 9) CTR_ACCESS CTR_ACCESS_DONE 0 }; let x := s.dev; fbit x CTR_ACCESS CTR_ACCESS_DONE = false) ∧
  (let s : State := { dev := cv 5 15 }; let idx : BitVec 12 := 2144; let x := s.dev; fbit x CTR_ACCESS CTR_ACCESS_DONE = true ∧ 2143 < idx.toNat) ∧
  (let s : State := { dev := cv 5 9 }; let idx : BitVec 12 := 5; let x := s.dev; fbit x CTR_ACCESS CTR_ACCESS_DONE = true ∧ idx.toNat ≤ 2143) ∧
  (let s : State := { dev := dom0 (cv 5 15) }; let idx : BitVec 12 := 5; let x := s.dev; fbit x CTR_ACCESS CTR_ACCESS_DONE = true ∧ idx.toNat ≤ 2143 ∧ domOn x (ctrDomain idx.toNat) = false) ∧
  (let s : State := { dev := cv 5 9 }; let idx : BitVec 12 := 5; let x := s.dev; fbit x CTR_ACCESS CTR_ACCESS_DONE = true ∧ idx.toNat ≤ 2143 ∧ domOn x (ctrDomain idx.toNat) = true) := by
  refine ⟨?_, ?_, ?_, ?_, ?_, ?_⟩ <;> (dsimp only; decide +kernel)

theorem witness_CounterCommands_2 :
  (let s : State := { dev := fset (cv 5 15) CTR_CTRL CTR_CTRL_MODE 1 }; let x := s.dev; let busy (d : Dev) : Bool := fbit d CTR_CTRL CTR_CTRL_BUSY; busy x = false ∧ nbit (fget x CTR_CTRL CTR_CTRL_MODE) 0 = true) ∧
  (let s : State := { dev := cv 5 9 }; let x := s.dev; let busy (d : Dev) : Bool := fbit d CTR_CTRL CTR_CTRL_BUSY; busy x = false) ∧
  (let s : State := { dev := cs base }; let x := s.dev; let busy (d : Dev) : Bool := fbit d CTR_CTRL CTR_CTRL_BUSY; let y := (x.ctr.snap).get (by decide +kernel); busy x = true ∧ x.ctr.snap = some y ∧ y.time ≠ nowNs x) ∧
  (let s : State := { dev := cs base }; let x := s.dev; let y := (x.ctr.snap).get (by decide +kernel); let rec_ := snapRecord y x.ctr.seq; let w := fget x CTR_STATUS CTR_STATUS_WRPTR; let a := 4096 * fget x CTR_BUF CTR_BUF_BASE + w; x.ctr.snap = some y ∧ fbit x CTR_BUF CTR_BUF_DEST = false ∧ w + rec_.length < 4096 * 2 ^ fget x CTR_BUF CTR_BUF_SIZE ∧ w + rec_.length < 2 ^ 28 ∧ inDram x a = true ∧ (inDram x (a + rec_.length - 1) = true) ∧ (snapWaits x = [])) := by
  refine ⟨?_, ?_, ?_, ?_⟩ <;> (dsimp only; decide +kernel)
end F13

namespace F14
def post (d : Dev) (m code : Nat) (ws : List Word) : Dev := fset (setMbox d m { posted := true, out := (BitVec.ofNat 64 (code + 0x2A * 2 ^ 16) :: ws) ++ List.replicate (15 - ws.length) 0 }) (mboxCtrl m) PI_MBOX_CTRL_OUT_BUSY 1
def sw (thr part : Nat) : List Word := [BitVec.ofNat 64 (thr * 256), 0x4000, 0x2000, 0x8000, 0x4000, 0, 0, 0, 0, 0, 5]
def ps (n p : Nat) (d : Dev) : Dev := fset d MGR_PART_STATUS (4 * p + 3, 4 * p) n
def pt (d : Dev) (p : Nat) (f : PartSt → PartSt) : Dev := setPart d p (f (partSt d p))
def pD : Dev := pt (pt (ps 3 0 (ps 3 1 base)) 0 (fun y => { y with roles := 0x13, gen := 7 })) 1 (fun y => { y with dramBase := 2 ^ 30, dramSize := 2 ^ 30, s2 := [⟨0, 2 ^ 30, 0x8000, 7⟩], gen := 255, starts := [sw 1 1] })
def c1 (d : Dev) : Dev := setCorePart (setPairMode d 0 0) 1 1
def pRun : Dev := { setThr (setThr (c1 pD) 8 th0) 0 th0 with oasis := { pD.oasis with gates := [(200, { st := 1, thr := 8, part := 1, gen := 255 }), (201, { st := 1, thr := 0, part := 0, gen := 7 })] } }
def w8 (thr : Nat) : List Word := [BitVec.ofNat 64 (1 + thr * 256), 0x4000, 0x2000, 0x8000, 0x4000, 0, 0, 0, 0, 0, 5]
def pOff : Dev := pt (ps 1 1 (c1 pD)) 1 (fun y => { y with starts := [w8 0, w8 3] })
def mine : Dev := pt pRun 1 (fun y => { y with starts := [] })
def cm (d : Dev) : Dev := pt (ps 3 0 d) 0 (fun y => { y with roles := 2 })
def cmB : Dev := cm base
def seqOk (d : Dev) : Dev := fset d CFG_ACTIVE CFG_ACTIVE_SEQ 4
def stg : Dev := seqOk { cmB with oasis := { cmB.oasis with staged := some [1, 2, 3, 4] } }
def vpp (d : Dev) (b : Bool) : Dev := { d with pwr := { d.pwr with vpp := b } }
def opn (d : Dev) : Dev := { d with oasis := { d.oasis with w1 := 2 ^ 24 - 1 } }
def ky (d : Dev) : Dev := { d with oasis := { d.oasis with key := some [1, 2] } }
def rst (d : Dev) : Dev := { fset d MGR_INFO MGR_INFO_STATE 1 with oasis := { d.oasis with restartAt := 9 } }
def dbgP (d : Dev) (code : Nat) (ws : List Word) : Dev := post d dbgMbox code ws
def nofw (d : Dev) : Dev := { d with oasis := { d.oasis with fw := none } }
def ldn (d : Dev) (c : Bool) (n l : Nat) : Dev := { d with oasis := { d.oasis with load := some { config := c, slot := 1, length := l, next := n } } }
def bt : BootIn := { two := false, gib := 16, ranks := 0, rate := 4800, bad := none, temps := [], eyes := [], heights := [], march := [], latencies := [], corrected := [], regions := [], pairs := [] }
def bth : BootIn := { bt with temps := [800] }
def img0 : List Byte := leBytes 4 0x4C5A4C53 ++ leBytes 2 1 ++ leBytes 2 1 ++ leBytes 4 256 ++ leBytes 4 9 ++ leBytes 4 0x00720128 ++ [3] ++ List.replicate 11 0 ++ List.replicate 96 0x42 ++ ([9, 0, 0, 0] ++ leBytes 4 144 ++ leBytes 4 0 ++ leBytes 4 (crc32c [])) ++ List.replicate 108 0
def img : List Byte := img0 ++ leBytes 4 (crc32c img0)
def apW (a n : Nat) : List Word := [BitVec.ofNat 64 a, BitVec.ofNat 64 n]
def apD (bs : List Byte) : Dev := pt (seqOk (wrBytes cmB 0x1000 bs)) 0 (fun y => { y with dramSize := 2 ^ 30 })
def ap (bs : List Byte) : Dev := post (apD bs) 256 0x0210 (apW 0x1000 256)
def fwW : List Byte := 0xF0 :: 0x23 :: List.replicate 30 7
def held : Dev := { setThr (fset base MGR_INFO MGR_INFO_STATE 0) 0 { th0 with st := .cycleWait } with cyc := { base.cyc with threads := [(0, 1)] }, oasis := { base.oasis with heldEnables := [0] } }

theorem witness_PartitionCommands_1 :
  (let s : State := { dev := post pRun 257 0x0201 [] }; let q : PartId := 1; let x := s.dev; let m := 256 + q.val; (Posts x m 0x0201)) ∧
  (let s : State := { dev := post pRun 256 0x0202 [5] }; let q : PartId := 0; let x := s.dev; let m := 256 + q.val; let a (j : Nat) := (mboxArg x m j).toNat; let p := a 1; let e := (Instr.partStart (.part q), 0x0202, ST_BAD_ARG); partUsed x p = false ∧ (Posts x m e.2.1)) ∧
  (let s : State := { dev := post pOff 256 0x0202 [1] }; let q : PartId := 0; let x := s.dev; let m := 256 + q.val; let a (j : Nat) := (mboxArg x m j).toNat; let p := a 1; let y := partSt x p; (Posts x m 0x0202) ∧ isPM x m p = true ∧ partState x p = P_OFF ∧ y.clearOnReset = false ∧ (y.loads = []) ∧ startsOk x p y.starts = true) ∧
  (let s : State := { dev := post pRun 256 0x0203 [1] }; let q : PartId := 0; let x := s.dev; let m := 256 + q.val; let a (j : Nat) := (mboxArg x m j).toNat; let p := a 1; (Posts x m 0x0203) ∧ isPM x m p = true ∧ p ≠ q.val ∧ partState x p = P_RUNNING ∧ (partInsts x p = [])) := 
  ⟨by unfold Posts; decide +kernel,
   ⟨by decide +kernel, by unfold Posts; decide +kernel⟩,
   by refine ⟨by unfold Posts; decide +kernel, ?_, ?_, ?_, ?_, ?_⟩ <;> decide +kernel,
   by refine ⟨by unfold Posts; decide +kernel, ?_, ?_, ?_, ?_⟩ <;> decide +kernel⟩

theorem witness_PartitionCommands_2 :
  (let s : State := { dev := post mine 256 0x0204 [1] }; let q : PartId := 0; let x := s.dev; let m := 256 + q.val; let a (j : Nat) := (mboxArg x m j).toNat; let p := a 1; let y := partSt x p; (Posts x m 0x0204) ∧ (isPM x m p = true ∨ p = q.val) ∧ partUsed x p = true ∧ partState x p = P_RUNNING ∧ (partInsts x p = []) ∧ y.clearOnReset = false ∧ (y.loads = []) ∧ (y.starts = [])) ∧
  (let s : State := { dev := post (c1 pD) 257 0x0205 (w8 2) }; let q : PartId := 1; let x := s.dev; let m := 256 + q.val; let ws := (rangeFrom 1 11).map (mboxArg x m); (Posts x m 0x0205) ∧ startArgsOk x ws = true ∧ (corePart x (startCore ws) = q.val ∨ isPM x m (corePart x (startCore ws)) = true) ∧ partState x (corePart x (startCore ws)) = P_RUNNING ∧ startable x ws = true) ∧
  (let s : State := { dev := post (c1 pD) 257 0x0206 [7, 0x10401] }; let q : PartId := 1; let x := s.dev; let m := 256 + q.val; let a (j : Nat) := (mboxArg x m j).toNat; let w := mboxArg x m 2; (Posts x m 0x0206) ∧ a 1 < 4096 ∧ routeOk x w = true ∧ (bitsOf w (19, 16) = q.val ∨ isPM x m (bitsOf w (19, 16)) = true)) := 
  ⟨by refine ⟨by unfold Posts; decide +kernel, ?_, ?_, ?_, ?_, ?_, ?_, ?_⟩ <;> decide +kernel,
   by refine ⟨by unfold Posts; decide +kernel, ?_, ?_, ?_, ?_⟩ <;> decide +kernel,
   by refine ⟨by unfold Posts; decide +kernel, ?_, ?_, ?_⟩ <;> decide +kernel⟩

theorem witness_PartitionCommands_3 :
  (let s : State := { dev := post (c1 pD) 257 0x0207 [1, 0x10000, 0x40010000, 2, 5] }; let q : PartId := 1; let x := s.dev; let m := 256 + q.val; let a (j : Nat) := (mboxArg x m j).toNat; let p := a 1; let y := partSt x p; (Posts x m 0x0207) ∧ partUsed x p = true ∧ (p = q.val ∨ isPM x m p = true) ∧ (partQuiet x p (fun _ => true) = true) ∧ a 2 % 4096 = 0 ∧ a 3 % 4096 = 0 ∧ a 4 ≠ 0 ∧ a 2 + a 4 * 4096 ≤ 2 ^ 48 ∧ (a 5 % 256 / 8 = 0) ∧ y.dramBase ≤ a 3 ∧ a 3 + a 4 * 4096 ≤ y.dramBase + y.dramSize ∧ a 5 < 256 ∧ (y.s2.any (fun e => rangesMeet e.ipa e.size (a 2) (a 4 * 4096)) = false)) ∧
  (let s : State := { dev := post { c1 pD with ioTlb := [⟨0, 4, 8, 7, 12⟩, ⟨1, 4, 8, 7, 12⟩] } 257 0x0207 [1, 0x1000, 0x40010000, 2, 0x105] }; let q : PartId := 1; let x := s.dev; let m := 256 + q.val; let a (j : Nat) := (mboxArg x m j).toNat; let p := a 1; let y := partSt x p; (Posts x m 0x0207) ∧ partUsed x p = true ∧ (p = q.val ∨ isPM x m p = true) ∧ (partQuiet x p (fun _ => true) = true) ∧ a 2 % 4096 = 0 ∧ a 3 % 4096 = 0 ∧ a 4 ≠ 0 ∧ a 2 + a 4 * 4096 ≤ 2 ^ 48 ∧ (a 5 % 256 / 8 = 0) ∧ y.dramBase ≤ a 3 ∧ a 3 + a 4 * 4096 ≤ y.dramBase + y.dramSize ∧ 256 ≤ a 5 ∧ a 5 < 512) := 
  ⟨by refine ⟨by unfold Posts; decide +kernel, ?_, ?_, ?_, ?_, ?_, ?_, ?_, ?_, ?_, ?_, ?_, ?_⟩ <;> decide +kernel,
   by refine ⟨by unfold Posts; decide +kernel, ?_, ?_, ?_, ?_, ?_, ?_, ?_, ?_, ?_, ?_, ?_, ?_⟩ <;> decide +kernel⟩

theorem witness_ConfigurationAndFirmware_1 :
  (let s : State := { dev := ap img }; let q : PartId := 0; let x := s.dev; let m := 256 + q.val; let alone (k : Nat) : Prop := ∀ j, 256 ≤ j → j < 273 → j ≠ k → (mbox x j).posted = false; let runs (k code : Nat) : Prop := Posts x k code ∧ alone k; let l := (ownRange x q.val (mboxArg x m 1).toNat (mboxArg x m 2).toNat).get (by decide +kernel); (runs m 0x0210) ∧ isCM x m = true ∧ activeSeq x ≠ 0xFFFFFFFF ∧ inRange 256 12578816 (mboxArg x m 2).toNat = true ∧ ownRange x q.val (mboxArg x m 1).toNat (mboxArg x m 2).toNat = some l ∧ ((∀ p, p < 16 → partQuiet x p (fun _ => true) = true))) ∧
  (let s : State := { dev := post stg 256 0x0211 [] }; let q : PartId := 0; let x := s.dev; let m := 256 + q.val; let alone (k : Nat) : Prop := ∀ j, 256 ≤ j → j < 273 → j ≠ k → (mbox x j).posted = false; let runs (k code : Nat) : Prop := Posts x k code ∧ alone k; let img := (x.oasis.staged).get (by decide +kernel); (runs m 0x0211) ∧ isCM x m = true ∧ activeSeq x ≠ 0xFFFFFFFF ∧ x.oasis.staged = some img ∧ img.length ≤ 12578816) := 
  ⟨by refine ⟨⟨by unfold Posts; decide +kernel, all_between (by decide +kernel)⟩, ?_, ?_, ?_, ?_, ?_⟩ <;> decide +kernel,
   by refine ⟨⟨by unfold Posts; decide +kernel, all_between (by decide +kernel)⟩, ?_, ?_, ?_, ?_⟩ <;> decide +kernel⟩

theorem witness_ConfigurationAndFirmware_2 :
  (let s : State := { dev := post stg 256 0x0211 [] }; let q : PartId := 0; let x := s.dev; let m := 256 + q.val; let alone (k : Nat) : Prop := ∀ j, 256 ≤ j → j < 273 → j ≠ k → (mbox x j).posted = false; let runs (k code : Nat) : Prop := Posts x k code ∧ alone k; let img := (x.oasis.staged).get (by decide +kernel); (runs m 0x0211) ∧ isCM x m = true ∧ activeSeq x ≠ 0xFFFFFFFF ∧ x.oasis.staged = some img ∧ img.length ≤ 12578816) ∧
  (let s : State := { dev := post (apD fwW) 256 0x0212 (apW 0x1000 32) }; let q : PartId := 0; let x := s.dev; let m := 256 + q.val; let alone (k : Nat) : Prop := ∀ j, 256 ≤ j → j < 273 → j ≠ k → (mbox x j).posted = false; let runs (k code : Nat) : Prop := Posts x k code ∧ alone k; let l := (ownRange x q.val (mboxArg x m 1).toNat (mboxArg x m 2).toNat).get (by decide +kernel); (runs m 0x0212) ∧ isCM x m = true ∧ inRange 1 0x200000 (mboxArg x m 2).toNat = true ∧ ownRange x q.val (mboxArg x m 1).toNat (mboxArg x m 2).toNat = some l) := 
  ⟨by refine ⟨⟨by unfold Posts; decide +kernel, all_between (by decide +kernel)⟩, ?_, ?_, ?_, ?_⟩ <;> decide +kernel,
   by refine ⟨⟨by unfold Posts; decide +kernel, all_between (by decide +kernel)⟩, ?_, ?_, ?_⟩ <;> decide +kernel⟩

theorem witness_ConfigurationAndFirmware_3 :
  (let s : State := { dev := post cmB 256 0x0213 [1] }; let q : PartId := 0; let x := s.dev; let m := 256 + q.val; let alone (k : Nat) : Prop := ∀ j, 256 ≤ j → j < 273 → j ≠ k → (mbox x j).posted = false; let runs (k code : Nat) : Prop := Posts x k code ∧ alone k; (runs m 0x0213) ∧ isCM x m = true ∧ ((mboxArg x m 1).toNat ≤ 1) ∧ x.oasis.load = none) ∧
  (let s : State := { dev := rst cmB }; let x := s.dev; restarting x = true ∧ x.oasis.chooseSlot = false ∧ x.oasis.fw.isSome = true) ∧
  (let s : State := { dev := ap img }; let x := s.dev; x.pwr.held = 0 ∧ x.oasis.fw.isSome = true) ∧
  (let s : State := { dev := vpp (post cmB 256 0x0214 []) true }; let q : PartId := 0; let x := s.dev; let m := 256 + q.val; let alone (k : Nat) : Prop := ∀ j, 256 ≤ j → j < 273 → j ≠ k → (mbox x j).posted = false; let runs (k code : Nat) : Prop := Posts x k code ∧ alone k; (runs m 0x0214) ∧ isCM x m = true ∧ x.pwr.vpp = true) ∧
  (let s : State := { dev := vpp (post cmB 256 0x0214 []) false }; let q : PartId := 0; let x := s.dev; let m := 256 + q.val; let alone (k : Nat) : Prop := ∀ j, 256 ≤ j → j < 273 → j ≠ k → (mbox x j).posted = false; let runs (k code : Nat) : Prop := Posts x k code ∧ alone k; (runs m 0x0214) ∧ isCM x m = true ∧ x.pwr.vpp = false) := by
  refine ⟨by refine ⟨⟨by unfold Posts; decide +kernel, all_between (by decide +kernel)⟩, ?_, ?_, ?_⟩ <;> decide +kernel,
    ?_,
    ?_,
    by refine ⟨⟨by unfold Posts; decide +kernel, all_between (by decide +kernel)⟩, ?_, ?_⟩ <;> decide +kernel,
    by refine ⟨⟨by unfold Posts; decide +kernel, all_between (by decide +kernel)⟩, ?_, ?_⟩ <;> decide +kernel⟩ <;> (try dsimp only) <;> decide +kernel

theorem witness_ConfigurationAndFirmware_4 :
  (let s : State := { dev := vpp (dbgP cmB 0x0220 [4]) true }; let mb : Mailbox := .debug; let x := s.dev; let n := mboxNum mb; let alone (k : Nat) : Prop := ∀ j, 256 ≤ j → j < 273 → j ≠ k → (mbox x j).posted = false; let runs (k code : Nat) : Prop := Posts x k code ∧ alone k; let target := (mboxArg x n 1).toNat; (runs n 0x0220) ∧ (n = dbgMbox ∨ isCM x n = true) ∧ (3 < target ∨ target ≤ lcState x)) ∧
  (let s : State := { dev := vpp (dbgP cmB 0x0220 [1]) true }; let mb : Mailbox := .debug; let x := s.dev; let n := mboxNum mb; let alone (k : Nat) : Prop := ∀ j, 256 ≤ j → j < 273 → j ≠ k → (mbox x j).posted = false; let runs (k code : Nat) : Prop := Posts x k code ∧ alone k; let target := (mboxArg x n 1).toNat; (runs n 0x0220) ∧ (n = dbgMbox ∨ isCM x n = true) ∧ lcState x = LC_BLANK ∧ target = 1 ∧ n = dbgMbox ∧ x.pwr.vpp = true) ∧
  (let s : State := { dev := vpp (post (opn (ky cmB)) 256 0x0220 [2]) true }; let mb : Mailbox := (.part 0); let x := s.dev; let n := mboxNum mb; let alone (k : Nat) : Prop := ∀ j, 256 ≤ j → j < 273 → j ≠ k → (mbox x j).posted = false; let runs (k code : Nat) : Prop := Posts x k code ∧ alone k; let target := (mboxArg x n 1).toNat; (runs n 0x0220) ∧ (n = dbgMbox ∨ isCM x n = true) ∧ lcState x = LC_OPEN ∧ target = 2 ∧ x.oasis.key.isSome = true ∧ x.pwr.vpp = true) := 
  ⟨by refine ⟨⟨by unfold Posts; decide +kernel, all_between (by decide +kernel)⟩, ?_, ?_⟩ <;> decide +kernel,
   by refine ⟨⟨by unfold Posts; decide +kernel, all_between (by decide +kernel)⟩, ?_, ?_, ?_, ?_, ?_⟩ <;> decide +kernel,
   by refine ⟨⟨by unfold Posts; decide +kernel, all_between (by decide +kernel)⟩, ?_, ?_, ?_, ?_, ?_⟩ <;> decide +kernel⟩

theorem witness_ConfigurationAndFirmware_5 :
  (let s : State := { dev := vpp (post (opn cmB) 256 0x0220 [3]) true }; let mb : Mailbox := (.part 0); let x := s.dev; let n := mboxNum mb; let alone (k : Nat) : Prop := ∀ j, 256 ≤ j → j < 273 → j ≠ k → (mbox x j).posted = false; let runs (k code : Nat) : Prop := Posts x k code ∧ alone k; let target := (mboxArg x n 1).toNat; (runs n 0x0220) ∧ (n = dbgMbox ∨ isCM x n = true) ∧ (lcState x = LC_OPEN ∨ lcState x = LC_FIELD) ∧ target = 3 ∧ x.pwr.vpp = true) ∧
  (let s : State := { dev := vpp (post (opn cmB) 256 0x0221 [5, 6, 7, 8]) true }; let mb : Mailbox := (.part 0); let x := s.dev; let n := mboxNum mb; let alone (k : Nat) : Prop := ∀ j, 256 ≤ j → j < 273 → j ≠ k → (mbox x j).posted = false; let runs (k code : Nat) : Prop := Posts x k code ∧ alone k; (runs n 0x0221) ∧ (n = dbgMbox ∨ isCM x n = true) ∧ lcState x = LC_OPEN ∧ x.oasis.key = none ∧ x.pwr.vpp = true) ∧
  (let s : State := { dev := vpp (post (opn (ky cmB)) 256 0x0221 [5, 6, 7, 8]) true }; let mb : Mailbox := (.part 0); let x := s.dev; let n := mboxNum mb; let alone (k : Nat) : Prop := ∀ j, 256 ≤ j → j < 273 → j ≠ k → (mbox x j).posted = false; let runs (k code : Nat) : Prop := Posts x k code ∧ alone k; (runs n 0x0221) ∧ (n = dbgMbox ∨ isCM x n = true) ∧ (lcState x ≠ LC_OPEN ∨ x.oasis.key.isSome = true ∨ x.pwr.vpp = false)) := 
  ⟨by refine ⟨⟨by unfold Posts; decide +kernel, all_between (by decide +kernel)⟩, ?_, ?_, ?_, ?_⟩ <;> decide +kernel,
   by refine ⟨⟨by unfold Posts; decide +kernel, all_between (by decide +kernel)⟩, ?_, ?_, ?_, ?_⟩ <;> decide +kernel,
   by refine ⟨⟨by unfold Posts; decide +kernel, all_between (by decide +kernel)⟩, ?_, ?_⟩ <;> decide +kernel⟩

theorem witness_LoaderAndBoot_1 :
  (let s : State := { dev := nofw base }; let x := s.dev; uartLoader x = true) ∧
  (let s : State := { dev := nofw base }; let target : Byte := 0; let arg : BitVec 32 := 32; let x := s.dev; let t := target.toNat; let len := arg.toNat; let fits : Prop := t ≤ 1 ∧ x.oasis.load = none ∧ ¬(t = 1 ∧ lcState x = LC_FIELD) ∧ 0 < len ∧ (t = 0 → len ≤ 0x200000) ∧ (t = 1 → len ≤ 12578816 ∧ len % 8 = 0); uartLoader x = true ∧ (fits) ∧ (¬(t = 1 ∧ x.oasis.fw = none))) ∧
  (let s : State := { dev := nofw base }; let target : Byte := 0; let arg : BitVec 32 := 32; let x := s.dev; let t := target.toNat; let len := arg.toNat; let fits : Prop := t ≤ 1 ∧ x.oasis.load = none ∧ ¬(t = 1 ∧ lcState x = LC_FIELD) ∧ 0 < len ∧ (t = 0 → len ≤ 0x200000) ∧ (t = 1 → len ≤ 12578816 ∧ len % 8 = 0); uartLoader x = true ∧ (fits) ∧ (¬(t = 1 ∧ x.oasis.fw = none))) := by
  refine ⟨?_, ?_, ?_⟩ <;> (dsimp only; decide +kernel)

theorem witness_LoaderAndBoot_2 :
  (let s : State := { dev := nofw base }; let target : Byte := 1; let x := s.dev; let t := target.toNat; uartLoader x = true ∧ t = 1 ∧ x.oasis.fw = none) ∧
  (let s : State := { dev := ldn (nofw base) false 256 1000 }; let target : Byte := 0; let arg : BitVec 32 := 256; let x := s.dev; let t := target.toNat; let l := (x.oasis.load).get (by decide +kernel); uartLoader x = true ∧ t ≤ 1 ∧ (¬(t = 1 ∧ x.oasis.fw = none)) ∧ arg.toNat % 256 = 0 ∧ x.oasis.load = some l ∧ (l.page = []) ∧ arg.toNat = l.next ∧ (l.next < (l.length + 255) / 256 * 256)) ∧
  (let s : State := { dev := ldn (nofw base) true 256 1000 }; let target : Byte := 0; let arg : BitVec 32 := 0; let x := s.dev; let t := target.toNat; let l := (x.oasis.load).get (by decide +kernel); uartLoader x = true ∧ t ≤ 1 ∧ (¬(t = 1 ∧ x.oasis.fw = none)) ∧ x.oasis.load = some l ∧ l.next < l.length ∧ arg.toNat = 0) := by
  refine ⟨?_, ?_, ?_⟩ <;> (dsimp only; decide +kernel)

theorem witness_LoaderAndBoot_3 :
  (let s : State := { dev := ldn (nofw base) false 256 32 }; let target : Byte := 0; let arg : BitVec 32 := 0; let x := s.dev; let t := target.toNat; let l := (x.oasis.load).get (by decide +kernel); uartLoader x = true ∧ t ≤ 1 ∧ (¬(t = 1 ∧ x.oasis.fw = none)) ∧ x.oasis.load = some l ∧ l.length ≤ l.next ∧ arg.toNat = 0) ∧
  (let s : State := { dev := ldn (nofw base) true 256 1000 }; let target : Byte := 0; let arg : BitVec 32 := 0; let x := s.dev; let t := target.toNat; uartLoader x = true ∧ t ≤ 1 ∧ (¬(t = 1 ∧ x.oasis.fw = none)) ∧ arg.toNat = 0) ∧
  (let s : State := { dev := nofw base }; let x := s.dev; uartLoader x = true) := by
  refine ⟨?_, ?_, ?_⟩ <;> (dsimp only; decide +kernel)

theorem witness_LoaderAndBoot_4 :
  (let s : State := { dev := dbgP base 0x0230 [BitVec.ofNat 64 (1 + 32 * 2 ^ 32)] }; let target : Byte := 0; let arg : BitVec 32 := 32; let x := s.dev; let t := target.toNat; let len := arg.toNat; let fits : Prop := t ≤ 1 ∧ x.oasis.load = none ∧ ¬(t = 1 ∧ lcState x = LC_FIELD) ∧ 0 < len ∧ (t = 0 → len ≤ 0x200000) ∧ (t = 1 → len ≤ 12578816 ∧ len % 8 = 0); let w := mboxArg x dbgMbox 1; (Posts x dbgMbox 0x0230) ∧ ((∀ j, 256 ≤ j → j < 272 → (mbox x j).posted = false)) ∧ (bitsOf w (15, 8) = t) ∧ (bitsOf w (63, 32) = len) ∧ (bitsOf w (7, 0) = 1) ∧ (fits)) ∧
  (let s : State := { dev := dbgP base 0x0230 [BitVec.ofNat 64 4] }; let target : Byte := 0; let arg : BitVec 32 := 0; let x := s.dev; let t := target.toNat; let len := arg.toNat; let w := mboxArg x dbgMbox 1; (Posts x dbgMbox 0x0230) ∧ ((∀ j, 256 ≤ j → j < 272 → (mbox x j).posted = false)) ∧ (bitsOf w (15, 8) = t) ∧ (bitsOf w (63, 32) = len) ∧ (bitsOf w (7, 0) = 4) ∧ t ≤ 1 ∧ len = 0) := 
  ⟨by refine ⟨by unfold Posts; decide +kernel, all_between (by decide +kernel), ?_, ?_, ?_, ?_⟩ <;> decide +kernel,
   by refine ⟨by unfold Posts; decide +kernel, all_between (by decide +kernel), ?_, ?_, ?_, ?_, ?_⟩ <;> decide +kernel⟩

theorem witness_LoaderAndBoot_5 :
  (let s : State := { dev := dbgP base 0x0230 [BitVec.ofNat 64 5] }; let target : Byte := 0; let arg : BitVec 32 := 0; let x := s.dev; let t := target.toNat; let len := arg.toNat; let w := mboxArg x dbgMbox 1; (Posts x dbgMbox 0x0230) ∧ ((∀ j, 256 ≤ j → j < 272 → (mbox x j).posted = false)) ∧ (bitsOf w (15, 8) = t) ∧ (bitsOf w (63, 32) = len) ∧ (bitsOf w (7, 0) = 0 ∨ 4 < bitsOf w (7, 0))) ∧
  (let s : State := { dev := { base with pwr := { base.pwr with held := 1 } } }; let x := s.dev; x.pwr.held = 1) ∧
  ((nofw base).pwr.held ≠ 1) := 
  ⟨by refine ⟨by unfold Posts; decide +kernel, all_between (by decide +kernel), ?_, ?_, ?_⟩ <;> decide +kernel,
   by dsimp only,
   by decide +kernel⟩

theorem witness_LoaderAndBoot_6 :
  (let x : Dev := { base with pwr := { base.pwr with held := 2 } }; let b : BootIn := bt; (x.pwr.held = 3 ∨ (x.pwr.held = 2 ∧ ∀ v ∈ b.temps, v.toInt < 800))) ∧
  (let x : Dev := { base with pwr := { base.pwr with held := 2 } }; let b : BootIn := bth; x.pwr.held = 2 ∧ ∃ v ∈ b.temps, 800 ≤ v.toInt) ∧
  (let s : State := { dev := held }; let c : ClassId := 0; let x := s.dev; x.oasis.heldEnables.contains c.val = true ∧ ((classEntries x c.val).all (fun e => (thr x (entryThr e.2)).st == .cycleWait) = true)) := 
  ⟨Or.inr ⟨rfl, fun _ h => (List.not_mem_nil h).elim⟩,
   ⟨rfl, 800, List.mem_singleton.2 rfl, by decide⟩,
   by dsimp only; decide +kernel⟩
end F14
end Sys2Proof.Tests
end

section
/-! PROOFS. RegisterWrites: what a Sampler record can touch, what a plain write gives each field of a register (00 R4, 21 R697), where the bus finds a register, and the statement on register writes. -/
namespace Sys2Proof.Machine

/-! ## Sampler records -/

/-- Registers that a Sampler record may write, with those of the trace and of the snapshot it may trigger. -/
def SamplerRegs : List Nat := SMP_STATUS :: SMP_DROPPED :: MetaRegs

/-- What a Sampler record leaves as it was: threads, storage, time, partitions, domains, and every register but `SamplerRegs`. -/
structure SamplerOnly (a b : Dev) : Prop where
  threads : b.threads = a.threads
  mem : b.mem = a.mem
  tags : b.tags = a.tags
  poison : b.poison = a.poison
  time : b.time = a.time
  cyc : b.cyc = a.cyc
  doms : b.doms = a.doms
  parts : b.parts = a.parts
  routes : b.routes = a.routes
  dbg : b.dbg = a.dbg
  regs : RegsKept a b SamplerRegs

namespace SamplerOnly

theorem refl (a : Dev) : SamplerOnly a a := ⟨rfl, rfl, rfl, rfl, rfl, rfl, rfl, rfl, rfl, rfl, fun _ _ => rfl⟩

theorem trans {a b c : Dev} (h : SamplerOnly a b) (k : SamplerOnly b c) : SamplerOnly a c :=
  ⟨k.threads.trans h.threads, k.mem.trans h.mem, k.tags.trans h.tags, k.poison.trans h.poison, k.time.trans h.time, k.cyc.trans h.cyc,
   k.doms.trans h.doms, k.parts.trans h.parts, k.routes.trans h.routes, k.dbg.trans h.dbg, fun o ho => (k.regs o ho).trans (h.regs o ho)⟩

theorem of_meta {a b : Dev} (h : MetaOnly a b) : SamplerOnly a b :=
  ⟨h.threads, h.mem, h.tags, h.poison, h.time, h.cyc, h.doms, h.parts, h.routes, h.dbg,
   fun o ho => h.regs o (fun hm => ho (List.mem_cons_of_mem _ (List.mem_cons_of_mem _ hm)))⟩

theorem of_smp (a : Dev) (x : SmpSt) : SamplerOnly a { a with smp := x } := ⟨rfl, rfl, rfl, rfl, rfl, rfl, rfl, rfl, rfl, rfl, fun _ _ => rfl⟩

theorem of_fset (a : Dev) {o : Nat} (f : Nat × Nat) (n : Nat) (h : o ∈ SamplerRegs) : SamplerOnly a (fset a o f n) :=
  ⟨rfl, rfl, rfl, rfl, rfl, rfl, rfl, rfl, rfl, rfl, fun _ h1 => reg_fset_ne a f n (fun e => h1 (e ▸ h))⟩

theorem cores {a b : Dev} (h : SamplerOnly a b) : CoresKept a b :=
  ⟨h.threads, fun x => by simp [rdByte, h.mem], fun w => by simp [tagAt, h.tags], fun w => by simp [poisonAt, h.poison]⟩

end SamplerOnly

theorem smpStore_sampler (s : Dev) (r : SRec) : SamplerOnly s (smpStore s r) := by
  have seqTaken : SamplerOnly s (fincWrap s SMP_STATUS SMP_STATUS_NEXT_SEQ 1) := .of_fset _ _ _ (by simp [SamplerRegs])
  unfold smpStore
  split
  · exact .refl s
  · extract_lets r1 s1 src s2
    have h2 : SamplerOnly s s2 := by
      simp only [s2]
      split
      · exact seqTaken.trans (.of_smp _ _)
      · exact seqTaken
    split
    · exact h2.trans (.of_smp _ _)
    · split
      · exact h2.trans (.of_smp _ _)
      · exact h2.trans (.of_fset _ _ _ (by simp [SamplerRegs]))

theorem smpRecord_sampler (s : Dev) (r : SRec) : SamplerOnly s (smpRecord s r) := by
  unfold smpRecord
  extract_lets s0
  have h0 : SamplerOnly s s0 := by
    simp only [s0]
    split
    · exact .of_meta (trcTrigger_meta s 3)
    · exact .refl s
  split
  · exact h0.trans (smpStore_sampler _ _)
  · split
    · exact h0.trans (.of_smp _ _)
    · exact h0.trans (.of_smp _ _)
    · exact h0.trans (smpStore_sampler _ _)

theorem logLimited_sampler (s : Dev) (sev block inst code : Nat) (payload : List Nat) :
    SamplerOnly s (logLimited s sev block inst code payload) := by
  unfold logLimited
  extract_lets fresh
  clear_value fresh
  cases fresh with
  | some n => exact (smpRecord_sampler _ _).trans (.of_smp _ _)
  | none =>
    dsimp only
    split
    · exact .refl s
    · exact .of_smp _ _

/-! ## The lock of a block (15 R573) -/

/-- Registers that a dropped write to a locked field may change: the one with LOCK_VIOLATION, and those of the NOTICE it records. -/
def violRegs (b : BlockId) (e : Nat) : List Nat :=
  match blockLock b e with
  | none => []
  | some l => l.violReg :: SamplerRegs

theorem violRegs_of_lock {b : BlockId} {e : Nat} {l : BlockLock} (h : blockLock b e = some l) : violRegs b e = l.violReg :: SamplerRegs := by
  simp [violRegs, h]

/-- A drop at a block without LOCK does nothing; at one with LOCK it leaves LOCK_VIOLATION set, and its NOTICE is the rest. -/
theorem lockDrop_cases (s : Dev) (who : Agent) (b : BlockId) (e off : Nat) :
    (blockLock b e = none ∧ lockDrop s who b e off = s) ∨
    ∃ l, blockLock b e = some l ∧
      ((fbit s l.violReg l.viol = true ∧ lockDrop s who b e off = s) ∨ SamplerOnly (fset s l.violReg l.viol 1) (lockDrop s who b e off)) := by
  unfold lockDrop
  cases hl : blockLock b e with
  | none => exact .inl ⟨rfl, rfl⟩
  | some l =>
    refine .inr ⟨l, rfl, ?_⟩
    by_cases hv : fbit s l.violReg l.viol = true
    · exact .inl ⟨hv, by simp [hv]⟩
    · right
      simp only [hv]
      exact logLimited_sampler _ _ _ _ _ _

theorem lockDrop_regs (s : Dev) (who : Agent) (b : BlockId) (e off : Nat) : RegsKept s (lockDrop s who b e off) (violRegs b e) := by
  intro o ho
  obtain ⟨-, h⟩ | ⟨l, hl, ⟨-, h⟩ | h⟩ := lockDrop_cases s who b e off
  · rw [h]
  · rw [h]
  · rw [violRegs_of_lock hl, List.mem_cons, not_or] at ho
    rw [h.regs o ho.2, reg_fset_ne _ _ _ ho.1]

theorem lockDrop_cores (s : Dev) (who : Agent) (b : BlockId) (e off : Nat) : CoresKept s (lockDrop s who b e off) := by
  obtain ⟨-, h⟩ | ⟨l, -, ⟨-, h⟩ | h⟩ := lockDrop_cases s who b e off
  · rw [h]; exact (SamplerOnly.refl s).cores
  · rw [h]; exact (SamplerOnly.refl s).cores
  · exact h.cores

theorem lockDrop_sets_viol (s : Dev) (who : Agent) {b : BlockId} {e : Nat} (off : Nat) {l : BlockLock} {i : Nat} (hl : blockLock b e = some l)
    (hi : l.viol = (i, i)) (h64 : i < 64) (hr : l.violReg ∉ SamplerRegs) : fbit (lockDrop s who b e off) l.violReg l.viol = true := by
  obtain ⟨hn, -⟩ | ⟨m, hm, h⟩ := lockDrop_cases s who b e off
  · rw [hn] at hl; cases hl
  · obtain rfl : m = l := by rw [hm] at hl; exact Option.some.inj hl
    obtain ⟨hv, h⟩ | h := h
    · rw [h]; exact hv
    · rw [fbit, fget, h.regs _ hr, reg_fset_same, hi, bitsOf_putBits_one _ h64]; rfl

/-! ## The fields of a register after a write (00 R4) -/

/-- What a field holds after a write of `n` over `o`, by its access code. -/
def fieldNext (locked : Bool) (f : FieldDef) (o n : Nat) : Nat :=
  match f.acc with
  | .rw => n
  | .ro | .wo => o
  | .w1c => o - Nat.land o n
  | .w1s => Nat.lor o n
  | .rwl => if locked then o else n
  | .woo => if o = f.reset then n else o

/-- The fields of a register lie within its 64 bits and apart from each other, listed from the top. -/
structure FieldsApart (l : List FieldDef) : Prop where
  within : ∀ f ∈ l, f.lo ≤ f.hi ∧ f.hi < 64
  falling : l.Pairwise (fun f g => g.hi < f.lo)

theorem bitsOf_lt (v : Word) (f : Nat × Nat) : bitsOf v f < 2 ^ (f.1 + 1 - f.2) := Nat.mod_lt _ (by positivity)

/-- A field that receives a value of its width reads as that value. -/
theorem bitsOf_putBits_of_lt (v : Word) {f : Nat × Nat} {n : Nat} (h : f.2 ≤ f.1) (h1 : f.1 < 64) (hn : n < 2 ^ (f.1 + 1 - f.2)) :
    bitsOf (putBits v f n) f = n := by
  rw [bitsOf_putBits_same v n h h1, Nat.mod_eq_of_lt hn]

/-- The write of a field gives it what its access code says. -/
theorem bitsOf_fieldWrite_same (lk : Bool) {f : FieldDef} {old v acc : Word} (h : f.lo ≤ f.hi) (h1 : f.hi < 64)
    (hacc : bitsOf acc (f.hi, f.lo) = bitsOf old (f.hi, f.lo)) :
    bitsOf (fieldWrite lk f old v acc) (f.hi, f.lo) = fieldNext lk f (bitsOf old (f.hi, f.lo)) (bitsOf v (f.hi, f.lo)) := by
  have ho := bitsOf_lt old (f.hi, f.lo)
  have hn := bitsOf_lt v (f.hi, f.lo)
  have put {n : Nat} (hlt : n < 2 ^ (f.hi + 1 - f.lo)) : bitsOf (putBits acc (f.hi, f.lo) n) (f.hi, f.lo) = n := bitsOf_putBits_of_lt acc h h1 hlt
  unfold fieldWrite fieldNext
  cases f.acc with
  | rw => exact put hn
  | ro => exact hacc
  | wo => exact hacc
  | w1c => exact put (Nat.lt_of_le_of_lt (Nat.sub_le _ _) ho)
  | w1s => exact put (Nat.or_lt_two_pow ho hn)
  | rwl => cases lk with
    | true => exact hacc
    | false => exact put hn
  | woo =>
    dsimp only
    split
    · exact put hn
    · exact hacc

/-- The write of a field leaves a field apart from it as it was. -/
theorem bitsOf_fieldWrite_ne (lk : Bool) {f : FieldDef} {g : Nat × Nat} (old v acc : Word) (hf : f.lo ≤ f.hi) (hf1 : f.hi < 64)
    (hg : g.2 ≤ g.1) (hg1 : g.1 < 64) (h : f.hi < g.2 ∨ g.1 < f.lo) : bitsOf (fieldWrite lk f old v acc) g = bitsOf acc g := by
  have put (n : Nat) : bitsOf (putBits acc (f.hi, f.lo) n) g = bitsOf acc g := bitsOf_putBits_ne acc n hf hf1 hg hg1 h
  unfold fieldWrite
  cases f.acc with
  | rw => exact put _
  | ro => rfl
  | wo => rfl
  | w1c => exact put _
  | w1s => exact put _
  | rwl => cases lk with
    | true => rfl
    | false => exact put _
  | woo =>
    dsimp only
    split
    · exact put _
    · rfl

/-- Writing fields that all lie below a field leaves that field as it was. -/
theorem bitsOf_foldl_fieldWrite_below (lk : Bool) (old v : Word) {g : Nat × Nat} (hg : g.2 ≤ g.1) (hg1 : g.1 < 64) (l : List FieldDef) :
    ∀ acc : Word, (∀ f ∈ l, f.lo ≤ f.hi ∧ f.hi < 64) → (∀ f ∈ l, f.hi < g.2) →
      bitsOf (l.foldl (fun a f => fieldWrite lk f old v a) acc) g = bitsOf acc g := by
  induction l with
  | nil => intro acc _ _; rfl
  | cons f l ih =>
    intro acc hw hb
    obtain ⟨hf, hf1⟩ := hw f List.mem_cons_self
    rw [List.foldl_cons, ih _ (fun e he => hw e (List.mem_cons_of_mem _ he)) (fun e he => hb e (List.mem_cons_of_mem _ he)),
      bitsOf_fieldWrite_ne lk old v acc hf hf1 hg hg1 (.inl (hb f List.mem_cons_self))]

/-- Writing all fields of a register gives each of them what its access code says. -/
theorem bitsOf_foldl_fieldWrite (lk : Bool) (old v : Word) (l : List FieldDef) :
    ∀ acc : Word, FieldsApart l → (∀ f ∈ l, bitsOf acc (f.hi, f.lo) = bitsOf old (f.hi, f.lo)) → ∀ f ∈ l,
      bitsOf (l.foldl (fun a f => fieldWrite lk f old v a) acc) (f.hi, f.lo) = fieldNext lk f (bitsOf old (f.hi, f.lo)) (bitsOf v (f.hi, f.lo)) := by
  induction l with
  | nil => intro acc _ _ f hf; cases hf
  | cons g l ih =>
    intro acc hap hacc f hf
    obtain ⟨hg, hg1⟩ := hap.within g List.mem_cons_self
    have hwl : ∀ e ∈ l, e.lo ≤ e.hi ∧ e.hi < 64 := fun e he => hap.within e (List.mem_cons_of_mem _ he)
    obtain ⟨hbelow, hfall⟩ := List.pairwise_cons.1 hap.falling
    rw [List.foldl_cons]
    rcases List.mem_cons.1 hf with rfl | hf
    · rw [bitsOf_foldl_fieldWrite_below lk old v (g := (f.hi, f.lo)) hg hg1 l _ hwl hbelow,
        bitsOf_fieldWrite_same lk hg hg1 (hacc f List.mem_cons_self)]
    · refine ih _ ⟨hwl, hfall⟩ (fun e he => ?_) f hf
      rw [bitsOf_fieldWrite_ne lk old v acc hg hg1 (hwl e he).1 (hwl e he).2 (.inr (hbelow e he)), hacc e (List.mem_cons_of_mem _ he)]

/-! ## A plain write -/

/-- What the register holds after a plain write. -/
def plainValue (s : Dev) (r : RegRef) (off : Nat) (v : Word) : Word :=
  r.row.fields.foldl (fun a f => fieldWrite (isLocked s r.blk r.elem) f (reg s off) v a) (reg s off)

section
variable (s : Dev) (who : Agent) (r : RegRef) (off : Nat) (v : Word)

/-- Each field of the register takes what its access code gives it under the lock before the write (21 R697). -/
theorem bitsOf_plainValue (hap : FieldsApart r.row.fields) {f : FieldDef} (hf : f ∈ r.row.fields) :
    bitsOf (plainValue s r off v) (f.hi, f.lo) =
      fieldNext (isLocked s r.blk r.elem) f (fget s off (f.hi, f.lo)) (bitsOf v (f.hi, f.lo)) :=
  bitsOf_foldl_fieldWrite _ _ _ _ _ hap (fun _ _ => rfl) f hf

/-- A plain write with no field dropped is a write of the register alone. -/
theorem plainWrite_of_no_drop (h : ∀ f ∈ r.row.fields, fieldDropped (isLocked s r.blk r.elem) f (reg s off) v = false) :
    plainWrite s who r off v = setReg s off (plainValue s r off v) := by
  have hany : r.row.fields.any (fun f => fieldDropped (isLocked s r.blk r.elem) f (reg s off) v) = false := by
    simpa only [List.any_eq_false, Bool.not_eq_true] using h
  simp only [plainWrite, plainValue, hany, Bool.false_eq_true, if_false]

/-- A plain write with a field dropped adds the lock violation. -/
theorem plainWrite_of_drop {f : FieldDef} (hf : f ∈ r.row.fields) (h : fieldDropped (isLocked s r.blk r.elem) f (reg s off) v = true) :
    plainWrite s who r off v = lockDrop (setReg s off (plainValue s r off v)) who r.blk r.elem (off % 2 ^ 28) := by
  have hany : r.row.fields.any (fun f => fieldDropped (isLocked s r.blk r.elem) f (reg s off) v) = true := List.any_eq_true.2 ⟨f, hf, h⟩
  simp only [plainWrite, plainValue, hany, if_true]

/-- A plain write is the write of the register, followed by a lock violation or by nothing. -/
theorem plainWrite_cases :
    plainWrite s who r off v = setReg s off (plainValue s r off v) ∨
    plainWrite s who r off v = lockDrop (setReg s off (plainValue s r off v)) who r.blk r.elem (off % 2 ^ 28) := by
  by_cases h : ∃ f ∈ r.row.fields, fieldDropped (isLocked s r.blk r.elem) f (reg s off) v = true
  · obtain ⟨f, hf, hd⟩ := h
    exact .inr (plainWrite_of_drop s who r off v hf hd)
  · exact .inl (plainWrite_of_no_drop s who r off v (by simpa using h))

theorem plainWrite_cores : CoresKept s (plainWrite s who r off v) := by
  have hset : CoresKept s (setReg s off (plainValue s r off v)) := ⟨rfl, fun _ => rfl, fun _ => rfl, fun _ => rfl⟩
  obtain h | h := plainWrite_cases s who r off v <;> rw [h]
  · exact hset
  · exact lockDrop_cores (setReg s off (plainValue s r off v)) _ _ _ _

/-- The register itself, where a lock violation is noted elsewhere. -/
theorem reg_plainWrite_same (hoff : off ∉ violRegs r.blk r.elem) : reg (plainWrite s who r off v) off = plainValue s r off v := by
  obtain h | h := plainWrite_cases s who r off v <;> rw [h]
  · exact reg_setReg_same ..
  · rw [lockDrop_regs _ _ _ _ _ off hoff, reg_setReg_same]

theorem fget_plainWrite (hap : FieldsApart r.row.fields) (hoff : off ∉ violRegs r.blk r.elem) {f : FieldDef} (hf : f ∈ r.row.fields) :
    fget (plainWrite s who r off v) off (f.hi, f.lo) =
      fieldNext (isLocked s r.blk r.elem) f (fget s off (f.hi, f.lo)) (bitsOf v (f.hi, f.lo)) := by
  rw [fget, reg_plainWrite_same s who r off v hoff, bitsOf_plainValue s r off v hap hf]

theorem plainWrite_regs_of_no_drop (h : ∀ f ∈ r.row.fields, fieldDropped (isLocked s r.blk r.elem) f (reg s off) v = false) :
    RegsKept s (plainWrite s who r off v) [off] := by
  intro o ho
  rw [plainWrite_of_no_drop s who r off v h, reg_setReg_ne _ _ (by simpa using ho)]

end

/-! ## W1C bits (00 R4) -/

theorem bitsOf_bit (v : Word) (i : Nat) : bitsOf v (i, i) = (v.getLsbD i).toNat := by
  rw [BitVec.getLsbD, Nat.toNat_testBit]
  simp [bitsOf]

/-- A W1C bit stays set where it was set and the write has a 0. -/
theorem fieldNext_w1c_bit (lk : Bool) (i reset : Nat) (o n : Bool) : fieldNext lk ⟨i, i, .w1c, reset⟩ o.toNat n.toNat = (o && !n).toNat := by
  cases o <;> cases n <;> rfl

/-- A write clears a W1C bit by a 1 and leaves it by a 0. -/
theorem fbit_plainWrite_w1c (s : Dev) (who : Agent) (r : RegRef) (off : Nat) (v : Word) {i reset : Nat} (hap : FieldsApart r.row.fields)
    (hoff : off ∉ violRegs r.blk r.elem) (hf : ⟨i, i, .w1c, reset⟩ ∈ r.row.fields) :
    fbit (plainWrite s who r off v) off (i, i) = (fbit s off (i, i) && !(v.getLsbD i)) := by
  have h := fget_plainWrite s who r off v hap hoff hf
  simp only [fget, bitsOf_bit, fieldNext_w1c_bit] at h
  simp only [fbit, fget, bitsOf_bit, h]
  cases (reg s off).getLsbD i <;> cases v.getLsbD i <;> rfl

/-! ## The bus (21 R692, R694, R700) -/

theorem findReg_BK_SHARE : ∀ n : BankId, findReg (BK_SHARE n.val) = some ⟨.BK_SHARE, .BK, n.val, 0, row_BK_SHARE⟩ := by decide

theorem findReg_CL_ERR : ∀ c : ClusterId, findReg (CL_ERR c.val) = some ⟨.CL_ERR, .CL, c.val, 0, row_CL_ERR⟩ := by decide

/-- Every agent reaches a register that is not banked. -/
theorem reachReg_of_findReg (who : Agent) {off : Nat} {r : RegRef} (h : findReg off = some r) (hb : isBanked r.name = false) :
    reachReg who off = some r := by
  cases who <;> simp [reachReg, h, hb]

theorem exec_registerWrite (who : Agent) (off : BitVec 28) (v : Word) (s : State) :
    exec (.registerWrite who off v) s = .next { s with dev := registerWrite s.dev who off.toNat v } := rfl

theorem registerWrite_of_findReg {off : Nat} {r : RegRef} (h : findReg off = some r) (hb : isBanked r.name = false) (s : Dev) (who : Agent) (v : Word) :
    registerWrite s who off v = regWrite s who r off v := by
  simp [registerWrite, reachReg_of_findReg who h hb]

theorem registerWrite_of_unreached {who : Agent} {off : Nat} (h : reachReg who off = none) (s : Dev) (v : Word) :
    registerWrite s who off v = s := by
  simp [registerWrite, h]

theorem registerWrite_of_unpowered {who : Agent} {off : Nat} {r : RegRef} (h : reachReg who off = some r) {s : Dev}
    (hd : domOn s (blockDomain r.blk r.elem) = false) (v : Word) : registerWrite s who off v = s := by
  simp [registerWrite, regWrite, h, hd]

theorem toNat_BK_SHARE (n : BankId) : (BitVec.ofNat 28 (BK_SHARE n.val)).toNat = BK_SHARE n.val := by
  rw [BitVec.toNat_ofNat, Nat.mod_eq_of_lt]
  simp only [BK_SHARE]
  omega

theorem toNat_CL_ERR (c : ClusterId) : (BitVec.ofNat 28 (CL_ERR c.val)).toNat = CL_ERR c.val := by
  rw [BitVec.toNat_ofNat, Nat.mod_eq_of_lt]
  simp only [CL_ERR]
  omega

/-- A write of the share mask of a powered bank is a plain write. -/
theorem regWrite_BK_SHARE {s : Dev} {n : Nat} (hd : domOn s (24 + n) = true) (who : Agent) (row : RegRow) (off : Nat) (v : Word) :
    regWrite s who ⟨.BK_SHARE, .BK, n, 0, row⟩ off v = plainWrite s who ⟨.BK_SHARE, .BK, n, 0, row⟩ off v := by
  simp [regWrite, blockDomain, hd, writeBk]

/-- A write of the error register of a powered cluster is a plain write. -/
theorem regWrite_CL_ERR {s : Dev} {c : Nat} (hd : domOn s c = true) (who : Agent) (row : RegRow) (off : Nat) (v : Word) :
    regWrite s who ⟨.CL_ERR, .CL, c, 0, row⟩ off v = plainWrite s who ⟨.CL_ERR, .CL, c, 0, row⟩ off v := by
  simp [regWrite, blockDomain, hd, writeCl]

/-! ## The share mask of a bank (03, 15 R573) -/

theorem blockLock_BK (n : Nat) :
    blockLock .BK n = some ⟨BK_CTRL n, BK_CTRL_LOCK, BK_CTRL n, BK_CTRL_LOCK_VIOLATION, SB_BK, n⟩ := rfl

theorem isLocked_BK (s : Dev) (n : Nat) : isLocked s .BK n = fbit s (BK_CTRL n) BK_CTRL_LOCK := rfl

theorem row_BK_SHARE_apart : FieldsApart row_BK_SHARE.fields := ⟨by decide, by decide⟩

theorem BK_SHARE_not_violReg (n : BankId) : BK_SHARE n.val ∉ violRegs .BK n.val := by
  simp only [violRegs, blockLock, SamplerRegs, MetaRegs, BK_SHARE, BK_CTRL, SMP_STATUS, SMP_DROPPED, TRC_STATUS, CTR_CTRL, CTR_STATUS,
    List.mem_cons, List.not_mem_nil, or_false]
  omega

theorem BK_CTRL_not_samplerReg (n : BankId) : BK_CTRL n.val ∉ SamplerRegs := by
  simp only [SamplerRegs, MetaRegs, BK_CTRL, SMP_STATUS, SMP_DROPPED, TRC_STATUS, CTR_CTRL, CTR_STATUS, List.mem_cons, List.not_mem_nil, or_false]
  omega

section
variable (s : Dev) (who : Agent) (n : BankId) (v : Word)

/-- The mask takes the low 29 bits of the value, unless LOCK holds it. -/
theorem shareWrite_mask :
    fget (plainWrite s who ⟨.BK_SHARE, .BK, n.val, 0, row_BK_SHARE⟩ (BK_SHARE n.val) v) (BK_SHARE n.val) BK_SHARE_MASK =
      if fbit s (BK_CTRL n.val) BK_CTRL_LOCK then fget s (BK_SHARE n.val) BK_SHARE_MASK else v.toNat % 2 ^ 29 := by
  have h := fget_plainWrite s who ⟨.BK_SHARE, .BK, n.val, 0, row_BK_SHARE⟩ (BK_SHARE n.val) v row_BK_SHARE_apart (BK_SHARE_not_violReg n)
    List.mem_cons_self
  simpa [fieldNext, isLocked_BK, bitsOf, BK_SHARE_MASK] using h

/-- A locked mask that the write would change sets LOCK_VIOLATION. -/
theorem shareWrite_violation (hlock : fbit s (BK_CTRL n.val) BK_CTRL_LOCK = true)
    (hne : fget s (BK_SHARE n.val) BK_SHARE_MASK ≠ v.toNat % 2 ^ 29) :
    fbit (plainWrite s who ⟨.BK_SHARE, .BK, n.val, 0, row_BK_SHARE⟩ (BK_SHARE n.val) v) (BK_CTRL n.val) BK_CTRL_LOCK_VIOLATION = true := by
  have hdrop : fieldDropped (isLocked s .BK n.val) ⟨28, 0, .rwl, 0⟩ (reg s (BK_SHARE n.val)) v = true := by
    simpa [fieldDropped, isLocked_BK, hlock, fget, bitsOf, BK_SHARE_MASK] using hne
  rw [plainWrite_of_drop s who _ _ v List.mem_cons_self hdrop]
  exact lockDrop_sets_viol _ who _ (blockLock_BK n.val) rfl (by decide : 15 < 64) (BK_CTRL_not_samplerReg n)

/-- A write of a mask that is not locked changes no other register. -/
theorem shareWrite_regs (hfree : fbit s (BK_CTRL n.val) BK_CTRL_LOCK = false) :
    RegsKept s (plainWrite s who ⟨.BK_SHARE, .BK, n.val, 0, row_BK_SHARE⟩ (BK_SHARE n.val) v) [BK_SHARE n.val] := by
  refine plainWrite_regs_of_no_drop s who _ _ v ?_
  simp [row_BK_SHARE, fieldDropped, isLocked_BK, hfree]

end

/-! ## The error register of a cluster (09) -/

theorem row_CL_ERR_apart : FieldsApart row_CL_ERR.fields := ⟨by decide, by decide⟩

theorem CL_ERR_not_violReg (c : ClusterId) : CL_ERR c.val ∉ violRegs .CL c.val := by
  simp only [violRegs, blockLock, SamplerRegs, MetaRegs, CL_ERR, CL_CTRL, SMP_STATUS, SMP_DROPPED, TRC_STATUS, CTR_CTRL, CTR_STATUS,
    List.mem_cons, List.not_mem_nil, or_false]
  omega

/-- No field of the register is locked or write-once, so a write changes the register alone. -/
theorem clErrWrite_regs (s : Dev) (who : Agent) (c : ClusterId) (v : Word) :
    RegsKept s (plainWrite s who ⟨.CL_ERR, .CL, c.val, 0, row_CL_ERR⟩ (CL_ERR c.val) v) [CL_ERR c.val] := by
  refine plainWrite_regs_of_no_drop s who _ _ v ?_
  simp [row_CL_ERR, fieldDropped]

/-! ## The statement -/

/-- Settles O30: without power or a register nothing moves; the share mask and the error bits are plain writes. -/
theorem registerWrites : Obligations.RegisterWrites := by
  intro s who n c off v
  refine ⟨fun r hr hd => ?_, fun hr => ?_, fun hd => ?_, fun hd => ?_⟩
  · rw [exec_registerWrite, registerWrite_of_unpowered hr hd]
  · rw [exec_registerWrite, registerWrite_of_unreached hr]
  · obtain ⟨hthreads, hstorage⟩ := plainWrite_cores s.dev who ⟨.BK_SHARE, .BK, n.val, 0, row_BK_SHARE⟩ (BK_SHARE n.val) v
    refine ⟨_, ?_, shareWrite_mask s.dev who n v, shareWrite_violation s.dev who n v, shareWrite_regs s.dev who n v, hthreads, hstorage⟩
    rw [exec_registerWrite, toNat_BK_SHARE, registerWrite_of_findReg (findReg_BK_SHARE n) rfl, regWrite_BK_SHARE hd]
  · refine ⟨_, ?_, fbit_plainWrite_w1c (reset := 0) s.dev who _ _ v row_CL_ERR_apart (CL_ERR_not_violReg c) ?_,
      fbit_plainWrite_w1c (reset := 0) s.dev who _ _ v row_CL_ERR_apart (CL_ERR_not_violReg c) ?_, clErrWrite_regs s.dev who c v, ?_⟩
    · rw [exec_registerWrite, toNat_CL_ERR, registerWrite_of_findReg (findReg_CL_ERR c) rfl, regWrite_CL_ERR hd]
    · exact List.mem_cons_of_mem _ List.mem_cons_self
    · exact List.mem_cons_self
    · exact (plainWrite_cores _ _ _ _ _).2

end Sys2Proof.Machine
end

section
/-! PROOFS. The queue and the credits: every command is an operation on the device alone, a step takes the front command (01 R13, log 1, log 4), and what a return of a credit, a new depth and a starvation do to a queue (01 R13, R16, R18). -/
namespace Sys2Proof.Machine

/-! ## Accessors see their own field only -/

theorem storageKept_of_fields {a b : Dev} (hmem : b.mem = a.mem) (htags : b.tags = a.tags) (hpoison : b.poison = a.poison) : StorageKept a b := by
  simp only [StorageKept, rdByte, tagAt, poisonAt, hmem, htags, hpoison, implies_true, and_self]

theorem StorageKept.trans {a b c : Dev} (h : StorageKept a b) (k : StorageKept b c) : StorageKept a c := by
  obtain ⟨hbyte, htag, hpoison⟩ := h
  obtain ⟨kbyte, ktag, kpoison⟩ := k
  exact ⟨fun x => (kbyte x).trans (hbyte x), fun w => (ktag w).trans (htag w), fun w => (kpoison w).trans (hpoison w)⟩

theorem fget_of_regs {a b : Dev} (h : b.regs = a.regs) (o : Nat) (f : Nat × Nat) : fget b o f = fget a o f := by
  simp only [fget, reg, h]

theorem creditQ_of_credits {a b : Dev} (h : b.credits = a.credits) (q : Nat) : creditQ b q = creditQ a q := by
  simp only [creditQ, h]

/-! ## Commands are operations on the device (log 2) -/

/-- Settles O2: the arm of each command is an operation on the device (`onDev`), which gives the next device and has no access to the queue of commands. -/
theorem everyCommandAnswers : Obligations.EveryCommandAnswers := by
  intro c s
  cases c <;> exact ⟨_, rfl⟩

/-! ## A step (log 1, log 4) -/

theorem step_of_empty {s : State} (h : s.pending = []) : step s = .next { s with dev := tick s.dev } := by
  simp only [step, h]

theorem step_of_cons {s : State} {c : Instr} {rest : List Instr} (h : s.pending = c :: rest) : step s = exec c { s with pending := rest } := by
  simp only [step, h]

/-- A step answers a next state, with the first command of the queue gone. -/
theorem step_pops_front (s : State) : ∃ d, step s = .next { pending := s.pending.drop 1, dev := d } := by
  cases h : s.pending with
  | nil => exact ⟨tick s.dev, by rw [step_of_empty h, h]; rfl⟩
  | cons c rest =>
    obtain ⟨d, hd⟩ := everyCommandAnswers c { s with pending := rest }
    exact ⟨d, by rw [step_of_cons h, hd]; rfl⟩

/-- A clock that the rate correction does not slow moves time on. -/
theorem tick_time_lt {d : Dev} (h : 0 ≤ d.rate) : d.time < (tick d).time := by
  simp only [tick]
  omega

/-- Settles O1: the front command runs on the rest of the queue, and an empty queue lets one image clock pass. -/
theorem stepTakesFrontCommand : Obligations.StepTakesFrontCommand := by
  refine ⟨fun s c => step_of_cons rfl, fun s c rest h => step_of_cons h, fun s h => ?_⟩
  exact ⟨tick s.dev, step_of_empty h, rfl, rfl, storageKept_of_fields rfl rfl rfl, tick_time_lt⟩

/-- Settles O3: a step drops the front command, and the rest of a well-formed queue is well formed. -/
theorem stepKeepsQueueWellFormed : Obligations.StepKeepsQueueWellFormed := by
  intro s s' hwf hstep
  obtain ⟨d, hd⟩ := step_pops_front s
  obtain rfl : { pending := s.pending.drop 1, dev := d } = s' := Host.Outcome.next.inj (hd.symm.trans hstep)
  refine ⟨List.all_eq_true.2 fun c hc => ?_, rfl⟩
  exact List.all_eq_true.1 hwf c (List.mem_of_mem_drop hc)

/-! ## Queues of credits (01 R13, R18) -/

theorem setCreditQ_storage (s : Dev) (q : Nat) (x : CreditQ) : StorageKept s (setCreditQ s q x) := storageKept_of_fields rfl rfl rfl

/-- A producer with as many entries outstanding as the depth allows issues nothing. -/
theorem mayIssue_of_full {s : Dev} {q : Nat} (h : (creditQ s q).depth ≤ (creditQ s q).out) : mayIssue s q = false := by
  simp only [mayIssue, Nat.not_lt.2 h, decide_false, Bool.and_false]

theorem mayIssue_of_room {s : Dev} {q : Nat} (hfree : 0 < (creditQ s q).free) (hout : (creditQ s q).out < (creditQ s q).depth) :
    mayIssue s q = true := by
  simp only [mayIssue, hfree, hout, decide_true, Bool.and_self]

/-- The depth of a queue that software sizes, written in range to a powered block, is the queue's depth and nothing else. -/
theorem exec_creditDepthWrite {q : Queue} {n : Byte} {s : State} (hq : depthWritable q = true) (hon : domOn s.dev (queueDomain q) = true)
    (h1 : 1 ≤ n.toNat) (h64 : n.toNat ≤ 64) :
    exec (.creditDepthWrite q n) s =
      .next { s with dev := setCreditQ s.dev (queueNum q) { creditQ s.dev (queueNum q) with depth := n.toNat } } := by
  have harm : exec (.creditDepthWrite q n) s = onDev s (fun d => whenOn d (queueDomain q) (fun d => writeDepth d q n.toNat)) := rfl
  simp only [harm, onDev, whenOn, hon, writeDepth, hq, h1, h64, and_self, if_true]

/-- Settles O31: the write changes the depth of its queue alone; at or above the new depth the queue is full. -/
theorem creditDepth : Obligations.CreditDepth := by
  intro s q n hq hon h1 h64
  have hsame := creditQ_setCreditQ_same s.dev (queueNum q) { creditQ s.dev (queueNum q) with depth := n.toNat }
  refine ⟨_, exec_creditDepthWrite hq hon h1 h64, hsame, fun p hp => creditQ_setCreditQ_ne _ _ hp, rfl, setCreditQ_storage _ _ _, fun hout => ?_⟩
  exact mayIssue_of_full (by rw [hsame] at hout ⊢; exact hout)

/-! ## The return of a credit (01 R13) -/

/-- The queue after the consumer has accepted an entry and `n` are still out: its credits follow the depth, and nobody stalls. -/
def returnedQ (x : CreditQ) (n : Nat) : CreditQ := { x with out := n, free := x.depth - n, waiting := false, recorded := false }

theorem giveCredit_of_out {s : Dev} {q n : Nat} (h : (creditQ s q).out = n + 1) :
    giveCredit s q = setCreditQ s q (returnedQ (creditQ s q) n) := by
  simp [giveCredit, h, returnedQ]

theorem exec_creditReturn (q : Queue) (s : State) : exec (.creditReturn q) s = .next { s with dev := creditReturn s.dev q } := rfl

theorem creditReturn_of_ne_twin {q : Queue} (hq : q ≠ .twin) {s : Dev} {n : Nat} (h : (creditQ s (queueNum q)).out = n + 1) :
    creditReturn s q = setCreditQ s (queueNum q) (returnedQ (creditQ s (queueNum q)) n) := by
  rw [creditReturn, if_neg hq, giveCredit_of_out h]

theorem creditReturn_twin (s : Dev) : creditReturn s .twin = twinLeave s := if_pos rfl

/-- A queue with nothing left to send admits nothing. -/
theorem twinAdmit_of_empty {s : Dev} (h : s.twin.out = []) : twinAdmit s = s := by
  calc twinAdmit s = { s with twin := { s.twin with out := s.twin.out } } := by simp only [twinAdmit, h, admitOut, modTwin]
    _ = s := rfl

/-- The last message has left the queue to the link, and lane `l` has one message fewer. -/
def lastTaken (s : Dev) (l : Nat) : Dev := modTwin s (fun x => { x with out := [], laneBusy := listSet x.laneBusy l (x.laneBusy.getD l 0 - 1) })

theorem twinLeave_of_last {s : Dev} {m : TwinOut} {l n : Nat} (hout : s.twin.out = [m]) (hlane : m.lane = some l) (hn : (creditQ s 512).out = n + 1) :
    twinLeave s = setCreditQ (lastTaken s l) 512 (returnedQ (creditQ s 512) n) := by
  have hcredit : creditQ (lastTaken s l) 512 = creditQ s 512 := creditQ_of_credits rfl 512
  calc twinLeave s = twinAdmit (giveCredit (lastTaken s l) 512) := by simp [twinLeave, hout, hlane, lastTaken]
    _ = giveCredit (lastTaken s l) 512 := twinAdmit_of_empty (by rw [giveCredit_of_out (hcredit ▸ hn)]; rfl)
    _ = _ := by rw [giveCredit_of_out (hcredit ▸ hn), hcredit]

/-! ## Time comes to a later moment -/

/-- The device at a given time: an advance of operating time moves the clocks alone. -/
def atTime (s : Dev) (time op : Nat) : Dev := { s with time := time, smp := { s.smp with op := op } }

theorem advanceOp_eq_atTime (s : Dev) (t : Nat) : ∃ time op, advanceOp s t = atTime s time op ∧ t ≤ op := by
  unfold advanceOp
  split
  · exact ⟨_, t, rfl, Nat.le_refl t⟩
  · next h => exact ⟨s.time, s.smp.op, rfl, Nat.not_lt.1 h⟩

/-! ## Records of the Sampler that are stored at once (15 R575, R576, R581) -/

/-- A record of severity `sev` is stored at once: it triggers no trace, no phase takes it in, and the RAM store has a slot for it. -/
structure StoresAtOnce (s : Dev) (sev : Nat) : Prop where
  noTrigger : fget s TRC_TRIG TRC_TRIG_KIND ≠ 3
  noPhase : s.smp.phase = none
  noSelfTest : s.smp.selfTest = none
  admitted : fget s SMP_CTRL SMP_CTRL_RAM_MIN ≤ sev
  room : s.smp.ram.length < 1024

section
variable (s : Dev) (o : Nat) (f : Nat × Nat) (n : Nat)

@[simp] theorem fincWrap_smp : (fincWrap s o f n).smp = s.smp := rfl
@[simp] theorem fincWrap_credits : (fincWrap s o f n).credits = s.credits := rfl
theorem fincWrap_storage : StorageKept s (fincWrap s o f n) := storageKept_of_fields rfl rfl rfl

end

/-- A record at the end of the RAM store. Its laws hold of any device, so the kernel never compares two devices over the contents of SMP_STATUS. -/
def ramPut (s : Dev) (r : SRec) : Dev := { s with smp := { s.smp with ram := s.smp.ram ++ [r] } }

section
variable (s : Dev) (r : SRec)

theorem ramPut_ram : (ramPut s r).smp.ram = s.smp.ram ++ [r] := rfl
theorem ramPut_op : (ramPut s r).smp.op = s.smp.op := rfl
theorem ramPut_credits : (ramPut s r).credits = s.credits := rfl
theorem ramPut_storage : StorageKept s (ramPut s r) := storageKept_of_fields rfl rfl rfl

end

/-- The record appended to the RAM store, and the next SEQ taken. -/
def ramAppended (s : Dev) (r : SRec) : Dev := ramPut (fincWrap s SMP_STATUS SMP_STATUS_NEXT_SEQ 1) r

section
variable (s : Dev) (r : SRec)

theorem ramAppended_ram : (ramAppended s r).smp.ram = s.smp.ram ++ [r] := by rw [ramAppended, ramPut_ram, fincWrap_smp]
theorem ramAppended_op : (ramAppended s r).smp.op = s.smp.op := by rw [ramAppended, ramPut_op, fincWrap_smp]
theorem ramAppended_credits : (ramAppended s r).credits = s.credits := by rw [ramAppended, ramPut_credits, fincWrap_credits]
theorem ramAppended_storage : StorageKept s (ramAppended s r) := (fincWrap_storage s _ _ _).trans (ramPut_storage _ r)

end

/-- A record below FATAL is stored with its SEQ and stamp. -/
theorem smpStore_eq_ramAppended {s : Dev} {r : SRec} (h : StoresAtOnce s r.sev) (hsev : r.sev ≠ 5) :
    ∃ r1, smpStore s r = ramAppended s r1 ∧ r1.sev = r.sev ∧ r1.block = r.block ∧ r1.inst = r.inst := by
  have hroom : (fincWrap s SMP_STATUS SMP_STATUS_NEXT_SEQ 1).smp.ram.length < 1024 := by rw [fincWrap_smp]; exact h.room
  simp only [smpStore, ramAppended]
  generalize fincWrap s SMP_STATUS SMP_STATUS_NEXT_SEQ 1 = s1 at hroom
  simp only [Nat.not_lt.2 h.admitted, hsev, hroom, if_true, if_false]
  exact ⟨_, rfl, rfl, rfl, rfl⟩

theorem smpRecord_eq_smpStore {s : Dev} {r : SRec} (h : StoresAtOnce s r.sev) : smpRecord s r = smpStore s r := by
  simp [smpRecord, h.noTrigger, h.noPhase, h.noSelfTest]

theorem logRec_eq_ramAppended {s : Dev} {sev : Nat} (h : StoresAtOnce s sev) (hsev : sev ≠ 5) (block inst code : Nat) (payload : List Nat) :
    ∃ r, logRec s sev block inst code payload = ramAppended s r ∧ r.sev = sev ∧ r.block = block ∧ r.inst = inst := by
  obtain ⟨r, hstore, hr⟩ := smpStore_eq_ramAppended (r := { sev := sev, code := code, block := block, inst := inst, payload := payload8 payload }) h hsev
  exact ⟨r, (smpRecord_eq_smpStore h).trans hstore, hr⟩

/-! ## Starvation (01 R16) -/

/-- A queue whose starvation is recorded is not recorded again. -/
theorem queueStarved_of_recorded {s : Dev} {q : Queue} (h : (creditQ s (queueNum q)).recorded = true) : queueStarved s q = s := by
  simp [queueStarved, h]

/-- The device when the 1 ms of a starvation is over: the queue is marked, and a free value is drawn for the record's code. -/
def starvedAt (s : Dev) (q : Queue) (time op : Nat) : Dev :=
  (drawFree (atTime (setCreditQ s (queueNum q) { creditQ s (queueNum q) with recorded := true }) time op)).2

theorem StoresAtOnce.starvedAt {s : Dev} {sev : Nat} (h : StoresAtOnce s sev) (q : Queue) (time op : Nat) : StoresAtOnce (starvedAt s q time op) sev := by
  have hfget := fget_of_regs (a := s) (b := Machine.starvedAt s q time op) rfl
  exact ⟨by rw [hfget]; exact h.noTrigger, h.noPhase, h.noSelfTest, by rw [hfget]; exact h.admitted, h.room⟩

/-- The first record of a starvation: time is past the 1 ms, the queue is marked, and one WARNING of its consumer is appended. -/
theorem queueStarved_of_waiting {s : Dev} {q : Queue} (hwait : (creditQ s (queueNum q)).waiting = true) (hissue : mayIssue s (queueNum q) = false)
    (hrec : (creditQ s (queueNum q)).recorded = false) (hstore : StoresAtOnce s WARNING) :
    ∃ time op r, (creditQ s (queueNum q)).since + nsUnits 1000000 < op ∧ queueStarved s q = ramAppended (starvedAt s q time op) r ∧
      r.sev = WARNING ∧ r.block = (queueSource q).1 ∧ r.inst = (queueSource q).2 := by
  unfold queueStarved
  extract_lets x f
  rw [if_pos (by simp only [x, hwait, hissue, hrec, Bool.not_false, Bool.and_self])]
  obtain ⟨time, op, hadvance, hop⟩ := advanceOp_eq_atTime (setCreditQ s (queueNum q) { x with recorded := true }) (x.since + nsUnits 1000000 + 1)
  have hf : f.2 = starvedAt s q time op := by rw [starvedAt, ← hadvance]
  obtain ⟨r, hlog, hr⟩ := logRec_eq_ramAppended (hstore.starvedAt q time op) (by decide) (queueSource q).1 (queueSource q).2 (f.1.toNat % 65536) [queueNum q]
  exact ⟨time, op, r, Nat.lt_of_succ_le hop, by rw [hf, hlog], hr⟩

section
variable (s : Dev) (q : Queue) (time op : Nat)

theorem creditQ_starvedAt : creditQ (starvedAt s q time op) (queueNum q) = { creditQ s (queueNum q) with recorded := true } :=
  creditQ_setCreditQ_same s (queueNum q) _

theorem starvedAt_ram : (starvedAt s q time op).smp.ram = s.smp.ram := rfl

theorem starvedAt_op : (starvedAt s q time op).smp.op = op := rfl

theorem starvedAt_storage : StorageKept s (starvedAt s q time op) := storageKept_of_fields rfl rfl rfl

end

theorem exec_queueStarved (q : Queue) (s : State) : exec (.queueStarved q) s = .next { s with dev := queueStarved s.dev q } := rfl

/-- Settles O32: a return leaves a queue with room for the depth's rest, the link's last message returns its credit, and a starvation is recorded once. -/
theorem creditReturnAndStarvation : Obligations.CreditReturnAndStarvation := by
  intro s q n
  refine ⟨fun hq hout => ?_, fun m l hm hl hout => ?_, fun hwait hissue hrec hphase htest hmin hroom hkind => ?_⟩
  · have hsame := creditQ_setCreditQ_same s.dev (queueNum q) (returnedQ (creditQ s.dev (queueNum q)) n)
    refine ⟨setCreditQ s.dev (queueNum q) (returnedQ (creditQ s.dev (queueNum q)) n), ?_, congrArg CreditQ.out hsame, by rw [hsame, returnedQ],
      congrArg CreditQ.free hsame, congrArg CreditQ.waiting hsame, congrArg CreditQ.recorded hsame, fun hn => ?_, rfl, setCreditQ_storage _ _ _⟩
    · rw [exec_creditReturn, creditReturn_of_ne_twin hq hout]
    · exact mayIssue_of_room (by rw [hsame]; exact Nat.sub_pos_of_lt hn) (by rw [hsame]; exact hn)
  · have hsame := creditQ_setCreditQ_same (lastTaken s.dev l) 512 (returnedQ (creditQ s.dev 512) n)
    refine ⟨setCreditQ (lastTaken s.dev l) 512 (returnedQ (creditQ s.dev 512) n), ?_, rfl, congrArg CreditQ.out hsame, congrArg CreditQ.waiting hsame,
      rfl, storageKept_of_fields rfl rfl rfl⟩
    rw [exec_creditReturn, creditReturn_twin, twinLeave_of_last hm hl hout]
  · obtain ⟨time, op, r, hop, heq, hsev, hblock, hinst⟩ := queueStarved_of_waiting hwait hissue hrec ⟨hkind, hphase, htest, hmin, hroom⟩
    have hmarked : (creditQ (ramAppended (starvedAt s.dev q time op) r) (queueNum q)).recorded = true := by
      rw [creditQ_of_credits (ramAppended_credits _ r), creditQ_starvedAt]
    refine ⟨ramAppended (starvedAt s.dev q time op) r, r, ?_, hmarked, ?_, hsev, hblock, hinst, ?_, ?_, fun d2 h2 => ?_⟩
    · rw [exec_queueStarved, heq]
    · rw [ramAppended_ram, starvedAt_ram]
    · rwa [ramAppended_op, starvedAt_op]
    · exact (starvedAt_storage s.dev q time op).trans (ramAppended_storage _ r)
    · rw [exec_queueStarved, queueStarved_of_recorded hmarked] at h2
      exact (congrArg State.dev (Host.Outcome.next.inj h2)).symm

end Sys2Proof.Machine
end

section
/-! PROOFS. Banks: the handover of a plain bank to a new owner (03 R84, R85) and the clear of a bank (02 R38). -/
namespace Sys2Proof.Machine

/-! ## One-bit fields -/

theorem fbit_fset_one (s : Dev) (o : Nat) {i : Nat} (h : i < 64) : fbit (fset s o (i, i) 1) o (i, i) = true := by
  simp [fbit, fget, bitsOf_putBits_one _ h]

theorem fbit_fset_zero (s : Dev) (o : Nat) {i : Nat} (h : i < 64) : fbit (fset s o (i, i) 0) o (i, i) = false := by
  simp [fbit, fget_fset_same s o (i, i) 0 (Nat.le_refl i) h]

/-- The write of a field changes no register but its own. -/
theorem fset_regs (s : Dev) (o : Nat) (f : Nat × Nat) (n : Nat) : RegsKept s (fset s o f n) [o] := by
  intro p hp
  exact reg_fset_ne s f n (by simpa using hp)

theorem RegsKept.trans {a b c : Dev} {l : List Nat} (h : RegsKept a b l) (k : RegsKept b c l) : RegsKept a c l :=
  fun o ho => (k o ho).trans (h o ho)

theorem fset_storage (s : Dev) (o : Nat) (f : Nat × Nat) (n : Nat) : StorageKept s (fset s o f n) := storageKept_of_fields rfl rfl rfl

theorem setBank_storage (s : Dev) (n : Nat) (x : BankSt) : StorageKept s (setBank s n x) := storageKept_of_fields rfl rfl rfl

/-! ## What a plain bank refuses (R82, R84) -/

/-- During a handover the old owner and the new one are refused. -/
theorem plainAllows_of_handover {s : Dev} {n code : Nat} (hbusy : fbit s (BK_OWNER n) BK_OWNER_HBUSY = true)
    (hcode : code = fget s (BK_OWNER n) BK_OWNER_OWNER ∨ code = (bank s n).next) (wr : Bool) : plainAllows s n code wr = false := by
  have hend : (code == fget s (BK_OWNER n) BK_OWNER_OWNER || code == (bank s n).next) = true := by simpa using hcode
  simp only [plainAllows, hbusy, hend, Bool.and_self, Bool.not_true, Bool.and_false, Bool.false_and]

/-- During a clear every access is refused. -/
theorem plainAllows_of_clear {s : Dev} {n : Nat} (hclear : fbit s (BK_CTRL n) BK_CTRL_CLEAR_BUSY = true) (code : Nat) (wr : Bool) :
    plainAllows s n code wr = false := by
  simp only [plainAllows, hclear, Bool.not_true, Bool.false_and]

/-- Outside a handover and a clear the owner reads and writes. -/
theorem plainAllows_of_owner {s : Dev} {n : Nat} (hbusy : fbit s (BK_OWNER n) BK_OWNER_HBUSY = false)
    (hclear : fbit s (BK_CTRL n) BK_CTRL_CLEAR_BUSY = false) (wr : Bool) : plainAllows s n (fget s (BK_OWNER n) BK_OWNER_OWNER) wr = true := by
  simp only [plainAllows, hbusy, hclear, Bool.false_and, Bool.not_false, Bool.true_and, beq_self_eq_true, Bool.true_or]

/-! ## The commands -/

/-- A bank whose handover to `next` has started. -/
def handoverOpened (s : Dev) (n next : Nat) : Dev := fset (setBank s n { bank s n with next := next }) (BK_OWNER n) BK_OWNER_HBUSY 1

/-- A write of NEXT to a powered plain bank with no handover under way starts one. -/
theorem exec_handoverStart_of_free {s : State} {n : BankId} (hon : domOn s.dev (24 + n.val) = true)
    (hfree : fbit s.dev (BK_OWNER n.val) BK_OWNER_HBUSY = false) (hmode : bankMode s.dev n.val = 0) (who : Agent) (next : Fin 64) :
    exec (.handoverStart who n next) s = .next { s with dev := handoverOpened s.dev n.val next.val } := by
  have harm : exec (.handoverStart who n next) s = onDev s (fun d => whenOn d (24 + n.val) (fun d => handoverStart d n.val next.val)) := rfl
  rw [harm]
  simp [onDev, whenOn, hon, handoverStart, hfree, hmode, handoverOpened]

section
variable (s : Dev) (n next : Nat)

theorem bank_handoverOpened : bank (handoverOpened s n next) n = { bank s n with next := next } := bank_setBank_same _ _ _

theorem hbusy_handoverOpened : fbit (handoverOpened s n next) (BK_OWNER n) BK_OWNER_HBUSY = true := fbit_fset_one _ _ (by decide)

theorem owner_handoverOpened : fget (handoverOpened s n next) (BK_OWNER n) BK_OWNER_OWNER = fget s (BK_OWNER n) BK_OWNER_OWNER :=
  fget_fset_field _ _ _ _ _ (by decide) (by decide) (by decide) (by decide) (by decide)

theorem handoverOpened_storage : StorageKept s (handoverOpened s n next) := (setBank_storage _ _ _).trans (fset_storage _ _ _ _)

end

/-- During a handover, and in pair and off mode, the write only sets HDROP. -/
theorem exec_handoverStart_of_dropped {s : State} {n : BankId} (hon : domOn s.dev (24 + n.val) = true)
    (hdrop : fbit s.dev (BK_OWNER n.val) BK_OWNER_HBUSY = true ∨ bankMode s.dev n.val ≠ 0) (who : Agent) (next : Fin 64) :
    exec (.handoverStart who n next) s = .next { s with dev := fset s.dev (BK_CTRL n.val) BK_CTRL_HDROP 1 } := by
  have harm : exec (.handoverStart who n next) s = onDev s (fun d => whenOn d (24 + n.val) (fun d => handoverStart d n.val next.val)) := rfl
  have hcond : (fbit s.dev (BK_OWNER n.val) BK_OWNER_HBUSY || bankMode s.dev n.val != 0) = true := by simpa using hdrop
  simp only [harm, onDev, whenOn, hon, handoverStart, hcond, if_true]

theorem exec_handoverEnd (n : BankId) (s : State) : exec (.handoverEnd n) s = .next { s with dev := handoverEnd s.dev n.val } := rfl

/-- A request accepted from the old owner holds the handover up. -/
theorem handoverEnd_of_waiting {s : Dev} {n : Nat} (hwait : oldOwnerWaits s n = true) : handoverEnd s n = s := by
  simp only [handoverEnd, hwait, Bool.not_true, Bool.and_false, Bool.false_eq_true, if_false]

/-- BK_OWNER at the end of a handover: the new code in OWNER, HBUSY clear. -/
def ownerTaken (s : Dev) (n : Nat) : Dev := fset (fset s (BK_OWNER n) BK_OWNER_OWNER (bank s n).next) (BK_OWNER n) BK_OWNER_HBUSY 0

theorem handoverEnd_of_done {s : Dev} {n : Nat} (hbusy : fbit s (BK_OWNER n) BK_OWNER_HBUSY = true) (hwait : oldOwnerWaits s n = false) :
    handoverEnd s n = setBank (ownerTaken s n) n { bank (ownerTaken s n) n with next := 0x3F } := by
  simp only [handoverEnd, hbusy, hwait, Bool.not_false, Bool.and_self, if_true, ownerTaken]

theorem owner_ownerTaken (s : Dev) (n : Nat) : fget (ownerTaken s n) (BK_OWNER n) BK_OWNER_OWNER = (bank s n).next % 64 := by
  rw [ownerTaken, fget_fset_field _ _ _ _ _ (by decide) (by decide) (by decide) (by decide) (by decide),
    fget_fset_same _ _ _ _ (by decide) (by decide)]
  rfl

theorem ownerTaken_regs (s : Dev) (n : Nat) : RegsKept s (ownerTaken s n) [BK_OWNER n] := (fset_regs _ _ _ _).trans (fset_regs _ _ _ _)

/-- A clear of a powered plain bank starts, where none runs. -/
theorem exec_bankClear {s : State} {n : BankId} (hon : domOn s.dev (24 + n.val) = true) (hmode : bankMode s.dev n.val = 0)
    (hfree : fbit s.dev (BK_CTRL n.val) BK_CTRL_CLEAR_BUSY = false) :
    exec (.bankClear n) s =
      .next { s with dev := fset (setBank s.dev n.val { bank s.dev n.val with clearAt := s.dev.smp.op }) (BK_CTRL n.val) BK_CTRL_CLEAR_BUSY 1 } := by
  have harm : exec (.bankClear n) s = onDev s (fun d => whenOn d (24 + n.val) (fun d => bankClearStart d n.val)) := rfl
  rw [harm]
  simp [onDev, whenOn, hon, bankClearStart, hmode, hfree]

/-- The end of a clear: time has reached it, the range of the bank is cleared, CLEAR_BUSY is 0. -/
theorem exec_bankClearDone {s : State} {n : BankId} (hbusy : fbit s.dev (BK_CTRL n.val) BK_CTRL_CLEAR_BUSY = true) :
    ∃ time op, (bank s.dev n.val).clearAt + 262144 * clockUnits ≤ op ∧
      exec (.bankClearDone n) s =
        .next { s with dev := fset (clearRange (atTime s.dev time op) (bankBase n.val) (bankBase n.val + 0x800000)) (BK_CTRL n.val) BK_CTRL_CLEAR_BUSY 0 } := by
  have harm : exec (.bankClearDone n) s = onDev s (fun d => bankClearEnd d n.val) := rfl
  obtain ⟨time, op, hadvance, hop⟩ := advanceOp_eq_atTime s.dev ((bank s.dev n.val).clearAt + 262144 * clockUnits)
  exact ⟨time, op, hop, by simp only [harm, onDev, bankClearEnd, hbusy, if_true, hadvance, clearBank]⟩

/-! ## What a cleared range reads (02 R38) -/

section
variable (s : Dev) (lo hi : Nat)

theorem rdByte_clearRange (a : Nat) : rdByte (clearRange s lo hi) a = if lo ≤ a ∧ a < hi then 0 else rdByte s a := by
  simp only [rdByte, clearRange, mget, mfind_mclear]
  split <;> rfl

theorem tagAt_clearRange (w : Nat) : tagAt (clearRange s lo hi) w = if lo / 8 ≤ w ∧ w < hi / 8 then 0 else tagAt s w := by
  simp only [tagAt, clearRange, mget, mfind_mclear]
  split <;> rfl

theorem poisonAt_clearRange (w : Nat) : poisonAt (clearRange s lo hi) w = (poisonAt s w && !(decide (lo / 8 ≤ w ∧ w < hi / 8))) := by
  simp only [poisonAt, clearRange, mget, mfind_mclear]
  split <;> simp [*]

end

/-- The words of a bank follow from its bytes. -/
theorem bankBase_end_div (n : Nat) : (bankBase n + 0x800000) / 8 = bankBase n / 8 + 0x100000 := by omega

theorem BK_OWNER_ne_BK_CTRL (n : Nat) : BK_CTRL n ≠ BK_OWNER n := by simp only [BK_CTRL, BK_OWNER]; omega

/-- Settles O33: a handover refuses both owners until the old one's requests are done, and a clear refuses everyone and zeroes its bank alone. -/
theorem bankHandoverAndClear : Obligations.BankHandoverAndClear := by
  refine ⟨fun s who n next => ⟨fun hon hfree hmode => ?_, fun hon hdrop => ?_, fun _ hwait => ?_, fun hbusy hwait hnext => ?_⟩,
    fun s n => ⟨fun hon hmode hfree => ?_, fun hbusy => ?_⟩⟩
  · have hbank := bank_handoverOpened s.dev n.val next.val
    have hbusy := hbusy_handoverOpened s.dev n.val next.val
    have howner := owner_handoverOpened s.dev n.val next.val
    refine ⟨_, exec_handoverStart_of_free hon hfree hmode who next, hbusy, by rw [hbank], howner, by rw [hbank], fun wr => ⟨?_, ?_⟩,
      fset_regs _ _ _ _, rfl, handoverOpened_storage _ _ _⟩
    · exact plainAllows_of_handover hbusy (.inr (by rw [hbank])) wr
    · exact plainAllows_of_handover hbusy (.inl howner.symm) wr
  · exact ⟨_, exec_handoverStart_of_dropped hon hdrop who next, fbit_fset_one _ _ (by decide), fset_regs _ _ _ _, rfl, rfl, fset_storage _ _ _ _⟩
  · rw [exec_handoverEnd, handoverEnd_of_waiting hwait]
  · have howner : fget (ownerTaken s.dev n.val) (BK_OWNER n.val) BK_OWNER_OWNER = next.val := by
      rw [owner_ownerTaken, hnext, Nat.mod_eq_of_lt next.isLt]
    have hfree : fbit (ownerTaken s.dev n.val) (BK_OWNER n.val) BK_OWNER_HBUSY = false := fbit_fset_zero _ _ (by decide)
    refine ⟨setBank (ownerTaken s.dev n.val) n.val { bank (ownerTaken s.dev n.val) n.val with next := 0x3F }, ?_, hfree, howner, fun hclear wr => ?_,
      ownerTaken_regs _ _, rfl, storageKept_of_fields rfl rfl rfl⟩
    · rw [exec_handoverEnd, handoverEnd_of_done hbusy hwait]
    · have hctrl : fbit (ownerTaken s.dev n.val) (BK_CTRL n.val) BK_CTRL_CLEAR_BUSY = false := by
        rw [fbit, fget, ownerTaken_regs _ _ _ (by simpa using BK_OWNER_ne_BK_CTRL n.val)]
        exact hclear
      have hallow := plainAllows_of_owner (s := setBank (ownerTaken s.dev n.val) n.val { bank (ownerTaken s.dev n.val) n.val with next := 0x3F })
        hfree hctrl wr
      rwa [fget_setBank, howner] at hallow
  · have hbusy := fbit_fset_one (setBank s.dev n.val { bank s.dev n.val with clearAt := s.dev.smp.op }) (BK_CTRL n.val) (i := 9) (by decide)
    exact ⟨_, exec_bankClear hon hmode hfree, hbusy, plainAllows_of_clear hbusy, fset_regs _ _ _ _, rfl,
      (setBank_storage _ _ _).trans (fset_storage _ _ _ _)⟩
  · intro base
    obtain ⟨time, op, hop, hexec⟩ := exec_bankClearDone hbusy
    refine ⟨_, hexec, fbit_fset_zero _ _ (by decide), rdByte_clearRange _ _ _, fun w => ?_, fun w => ?_, hop, fset_regs _ _ _ _, rfl⟩
    · rw [tagAt_fset, tagAt_clearRange, bankBase_end_div]; rfl
    · rw [poisonAt_fset, poisonAt_clearRange, bankBase_end_div]; rfl

end Sys2Proof.Machine
end

section
/-! PROOFS. The quality mode: in TRAP a BAD register result waits as an exception and writes nothing (02 R56, R57), and QMODE swaps the mode (02 R51, R52, 10 R381). -/
namespace Sys2Proof.Machine

/-- A command's answer follows the device it leaves. -/
theorem next_of_dev_eq {s : State} {a b : Dev} (h : a = b) : (Host.Outcome.next { s with dev := a } : Host.Outcome State Fault Refusal) = .next { s with dev := b } := by
  rw [h]

/-! ## A trap behind undrained stores (02 R56, 11 R424) -/

/-- The exception `i` waits for the thread's stores, and nothing else of the device has changed. -/
def WaitsWith (a b : Dev) (t : Nat) (i : ExcInfo) : Prop :=
  thr b t = { thr a t with exc := some i, walk := none } ∧ OthersKept a b t ∧ StorageKept a b

/-- An exception behind undrained stores waits. -/
theorem takeExc_of_undrained {s : Dev} {t : Nat} (h : drained (thr s t) = false) (i : ExcInfo) : WaitsWith s (takeExc s t i) t i := by
  simp only [takeExc, h, Bool.false_eq_true, if_false]
  exact ⟨thr_modThr_same _ _ _, fun u hu => thr_modThr_ne _ _ hu, storageKept_of_fields rfl rfl rfl⟩

/-- The wait may start before the counting and tracing of issue. -/
theorem WaitsWith.of_meta {a b c : Dev} {t : Nat} {i : ExcInfo} (h : MetaOnly a b) (k : WaitsWith b c t i) : WaitsWith a c t i := by
  obtain ⟨kthr, kothers, kstorage⟩ := k
  exact ⟨by rw [kthr, h.thr], fun u hu => (kothers u hu).trans (h.thr u), h.storage.trans kstorage⟩

/-- The exception of an instruction names its vector and resumes at it. -/
theorem atInsn_vector_resume (x : Thread) (v w : Nat) : (atInsn x v w).vector = v ∧ (atInsn x v w).resume = x.pc := by
  unfold atInsn
  split <;> exact ⟨rfl, rfl⟩

/-- A register result that traps behind undrained stores waits with vector 7 at its instruction. -/
theorem result_of_trap {d : Dev} {t : Nat} {q : QWord} (htrap : trapsOn (thr d t).qmode q.tag = true) (hdrain : drained (thr d t) = false)
    (w : Nat) (rd : GReg) : ∃ i, WaitsWith d (result d t w rd q) t i ∧ i.vector = 7 ∧ i.resume = (thr d t).pc := by
  refine ⟨{ atInsn (thr d t) 7 w with result := q, faddr := 0 }, ?_, atInsn_vector_resume _ _ _⟩
  simp only [result, resultWith, htrap, if_true]
  exact takeExc_of_undrained hdrain _

/-- A register-register instruction that raises no fault of its own traps in TRAP, where its operands combine to BAD, and waits for the stores before it. -/
theorem aluRR_of_trap {s : State} {t : Thr} {a b : GReg} (hissue : Issues s.dev t.val [a, b]) (hmode : (thr s.dev t.val).qmode = 2)
    (hbad : tagClass (combine [rt s.dev t.val a, rt s.dev t.val b]) = 1) (hdrain : drained (thr s.dev t.val) = false)
    (w : Nat) (rd : GReg) (f : Word → Word → Word) :
    ∃ d, aluRR s t w rd a b (pureOp f) = .next { s with dev := d } ∧ (∀ r, gpr (thr d t.val) r = gpr (thr s.dev t.val) r) ∧
      (thr d t.val).pc = (thr s.dev t.val).pc ∧ (∃ x, (thr d t.val).exc = some x ∧ x.vector = 7 ∧ x.resume = (thr s.dev t.val).pc) ∧
      OthersKept s.dev d t.val ∧ StorageKept s.dev d := by
  obtain ⟨d1, hrun, hmeta, -, -⟩ := onInsn_of_issues hissue (fun d => result d t.val w rd
    ⟨f (rv d t.val a) (rv d t.val b), combine [rt d t.val a, rt d t.val b]⟩)
  have hthr : thr d1 t.val = thr s.dev t.val := hmeta.thr t.val
  have htrap : trapsOn (thr d1 t.val).qmode (combine [rt d1 t.val a, rt d1 t.val b]) = true := by
    simp only [rt] at hbad ⊢
    simp only [trapsOn, hthr, hmode, hbad, beq_self_eq_true, Bool.and_self]
  obtain ⟨i, hwait, hvector, hresume⟩ := result_of_trap (q := ⟨f (rv d1 t.val a) (rv d1 t.val b), combine [rt d1 t.val a, rt d1 t.val b]⟩) htrap
    (by rwa [hthr]) w rd
  obtain ⟨kthr, kothers, kstorage⟩ := hwait.of_meta hmeta
  refine ⟨_, next_of_dev_eq hrun, fun r => ?_, ?_, ⟨i, ?_, hvector, by rw [hresume, hthr]⟩, kothers, kstorage⟩
  · rw [kthr]; rfl
  · rw [kthr]
  · rw [kthr]

/-! ## QMODE (02 R51, R52, 10 R381) -/

/-- A thread whose QMODE has given its old value to `rd` and taken `m`. -/
def qmodeTaken (x : Thread) (rd : GReg) (m : Nat) : Thread := { setGpr x rd.val ⟨BitVec.ofNat 64 x.qmode, 0⟩ with qmode := m }

/-- A register write touches the registers and the accesses on their way to them. -/
theorem setGpr_eq_with (x : Thread) (n : Nat) (q : QWord) : ∃ g ac, setGpr x n q = { x with gpr := g, accs := ac } := by
  unfold setGpr
  split <;> exact ⟨_, _, rfl⟩

theorem gpr_qmodeTaken (x : Thread) (rd : GReg) (m : Nat) (r : GReg) : gpr (qmodeTaken x rd m) r = gprAfter x rd ⟨BitVec.ofNat 64 x.qmode, 0⟩ r := by
  have hset : gpr (qmodeTaken x rd m) r = gpr (setGpr x rd.val ⟨BitVec.ofNat 64 x.qmode, 0⟩) r := rfl
  simp only [hset, mget_setGpr, gprAfter, ne_eq, Fin.ext_iff, Fin.val_zero]

theorem qmodeTaken_eq_with (x : Thread) (rd : GReg) (m : Nat) : ∃ g ac, qmodeTaken x rd m = { x with gpr := g, accs := ac, qmode := m } := by
  obtain ⟨g, ac, h⟩ := setGpr_eq_with x rd.val ⟨BitVec.ofNat 64 x.qmode, 0⟩
  exact ⟨g, ac, by rw [qmodeTaken, h]⟩

theorem nextPc_qmodeTaken (x : Thread) (rd : GReg) (m : Nat) : (nextPc (qmodeTaken x rd m)).pc = (nextPc x).pc := by
  obtain ⟨g, ac, h⟩ := qmodeTaken_eq_with x rd m
  rw [h]
  unfold nextPc
  cases x.slot <;> rfl

/-- QMODE that issues with a defined mode: the thread takes it and the instruction completes. -/
theorem exec_qmode_of_issues {s : State} {t : Thr} (hissue : Issues s.dev t.val []) {m : Fin 4} (hm : m.val ≠ 3) (rd : GReg) :
    ∃ d1, MetaOnly s.dev d1 ∧ exec (.qmode t rd m) s = .next { s with dev := advance (modThr d1 t.val (fun x => qmodeTaken x rd m.val)) t.val } := by
  obtain ⟨d1, hrun, hmeta, -, -⟩ := onInsn_of_issues hissue (fun d =>
    if m.val = 3 then illegal d t.val (wordOf (.qmode t rd m)) else advance (modThr d t.val (fun x => qmodeTaken x rd m.val)) t.val)
  rw [if_neg hm] at hrun
  exact ⟨d1, hmeta, next_of_dev_eq hrun⟩

/-- Settles O11: a BAD result in TRAP leaves a waiting exception and nothing else; QMODE gives the old mode to its register and takes the new one. -/
theorem qualityTrapAndMode : Obligations.QualityTrapAndMode := by
  refine ⟨fun s t rd a b hissue hmode hbad hdrain => ?_, fun s t rd m hissue hm => ?_⟩
  · have htrap (w : Nat) := aluRR_of_trap hissue hmode hbad hdrain w rd
    simp only [List.forall_mem_cons, List.not_mem_nil, false_imp_iff, implies_true, and_true]
    exact ⟨htrap _ (· + ·), htrap _ (· - ·), htrap _ (· &&& ·), htrap _ (· ||| ·), htrap _ (· ^^^ ·),
      htrap _ (fun x y => if x.toInt ≤ y.toInt then x else y), htrap _ (fun x y => if y.toInt ≤ x.toInt then x else y), htrap _ (· * ·)⟩
  · obtain ⟨d1, hmeta, hexec⟩ := exec_qmode_of_issues hissue hm rd
    have hthr : thr (modThr d1 t.val (fun x => qmodeTaken x rd m.val)) t.val = qmodeTaken (thr s.dev t.val) rd m.val := by
      rw [thr_modThr_same, hmeta.thr]
    obtain ⟨g, ac, htaken⟩ := qmodeTaken_eq_with (thr s.dev t.val) rd m.val
    obtain ⟨kspecial, kqmode, -, -, kpc, kothers, kstorage⟩ := advance_frame (modThr d1 t.val (fun x => qmodeTaken x rd m.val)) t.val
    rw [hthr] at kspecial kqmode kpc
    rw [htaken] at kspecial
    refine ⟨_, hexec, kqmode, fun r => ?_, kspecial, kpc.trans (nextPc_qmodeTaken _ rd m.val), fun u hu => ?_, hmeta.storage.trans kstorage⟩
    · rw [advance_gpr, hthr, gpr_qmodeTaken]
    · rw [kothers u hu, thr_modThr_ne _ _ hu, hmeta.thr]

end Sys2Proof.Machine
end

section
/-! PROOFS. The storage keeps its canonical form (O4): what is carried, and rules of composition. -/
namespace Sys2Proof.Machine

/-! ## The canonical form and what an answer carries -/

/-- The storage of a device has its canonical form. -/
abbrev Canonical (s : Dev) : Prop := Memory.wf s = true

/-- A property of what a failure carries, or of what a success carries. -/
def ExceptAll {ε α : Type} (P : ε → Prop) (Q : α → Prop) : Except ε α → Prop
  | .error e => P e
  | .ok a => Q a

/-- The device after an attempt, and the one that it carries when it succeeded, have their canonical form. -/
structure BothCanonical (x : Option Dev × Dev) : Prop where
  fst : ∀ y ∈ x.1, Canonical y
  snd : Canonical x.2

/-- The device that comes of a thread's turn to issue has its canonical form. -/
def IssueCanonical : Issue → Prop
  | .no s => Canonical s
  | .go s => Canonical s

/-- The device after the look-up of an access has its canonical form. -/
def LocatedCanonical : Located → Prop
  | .at_ _ s => Canonical s
  | .walk _ => True
  | .misaligned s => Canonical s

/-- The next state that a command answers has its canonical form. -/
def NextCanonical : Host.Outcome State Fault Refusal → Prop
  | .next s => Canonical s.dev
  | .fault _ => True
  | .refused _ => True

/-! ## Rules of composition -/

theorem Canonical.of_fields {a b : Dev} (h : Canonical a) (hmem : b.mem = a.mem) (htags : b.tags = a.tags) (hpoison : b.poison = a.poison) :
    Canonical b := by
  simpa only [Canonical, Memory.wf, hmem, htags, hpoison] using h

/-- An update of the other parts of a device leaves its storage canonical. -/
theorem Canonical.update {s : Dev} (h : Canonical s) {regs routes : Map Word} {free time : Nat} {rate : Int} {readData : Word}
    {credits : Map CreditQ} {banks : Map BankSt} {img : Map ImgSt} {cyc : CycSt} {threads : Map Thread} {pendSrc : Map Bool}
    {twin : TwinSt} {hist : HistSt} {erg : ErgSt} {inst : Map InstSt} {mbox : Map MboxSt} {cache : CacheSt} {tlb : Map TlbSt}
    {ioTlb : List IoEnt} {parts : Map PartSt} {oasis : OasisSt} {doms : Map Nat} {smp : SmpSt} {trc : TrcSt} {dbg : DbgSt}
    {ctr : CtrSt} {pwr : PwrSt} :
    Canonical ⟨regs, s.mem, s.tags, s.poison, free, time, rate, readData, credits, banks, img, cyc, threads, routes, pendSrc, twin, hist,
      erg, inst, mbox, cache, tlb, ioTlb, parts, oasis, doms, smp, trc, dbg, ctr, pwr⟩ := h

theorem MetaOnly.canonical {a b : Dev} (hm : MetaOnly a b) (h : Canonical a) : Canonical b := h.of_fields hm.mem hm.tags hm.poison

theorem ite_wf {c : Prop} [Decidable c] {a b : Dev} (ha : Canonical a) (hb : Canonical b) : Canonical (if c then a else b) :=
  iteInduction (motive := Canonical) (fun _ => ha) (fun _ => hb)

theorem ite_all {α : Type} {c : Prop} [Decidable c] {P : α → Prop} {a b : Option α} (ha : ∀ x ∈ a, P x) (hb : ∀ x ∈ b, P x) :
    ∀ x ∈ (if c then a else b), P x :=
  iteInduction (motive := fun o => ∀ x ∈ o, P x) (fun _ => ha) (fun _ => hb)

/-- What holds of both branches' second components holds of the choice's. -/
theorem ite_snd_wf {α : Type} {c : Prop} [Decidable c] {a b : α × Dev} (ha : Canonical a.2) (hb : Canonical b.2) :
    Canonical (if c then a else b).2 :=
  iteInduction (motive := fun x : α × Dev => Canonical x.2) (fun _ => ha) (fun _ => hb)

theorem ite_fst_wf {α : Type} {c : Prop} [Decidable c] {a b : Dev × α} (ha : Canonical a.1) (hb : Canonical b.1) :
    Canonical (if c then a else b).1 :=
  iteInduction (motive := fun x : Dev × α => Canonical x.1) (fun _ => ha) (fun _ => hb)

theorem both_some {s s1 : Dev} (h : Canonical s) (h1 : Canonical s1) : BothCanonical (some s, s1) where
  fst := by
    rintro _ ⟨⟩
    exact h
  snd := h1

theorem both_none {s : Dev} (h : Canonical s) : BothCanonical (none, s) where
  fst := fun _ h => nomatch h
  snd := h

theorem ite_both {c : Prop} [Decidable c] {a b : Option Dev × Dev} (ha : BothCanonical a) (hb : BothCanonical b) :
    BothCanonical (if c then a else b) :=
  iteInduction (motive := BothCanonical) (fun _ => ha) (fun _ => hb)

theorem BothCanonical.of_some {x : Option Dev × Dev} {s s1 : Dev} (h : BothCanonical x) (e : x = (some s, s1)) : Canonical s :=
  h.fst s (by rw [e]; rfl)

theorem BothCanonical.of_none {x : Option Dev × Dev} {s : Dev} (h : BothCanonical x) (e : x = (none, s)) : Canonical s := by
  have hs := h.snd
  rw [e] at hs
  exact hs

theorem snd_wf {α : Type} {p : α × Dev} {a : α} {s : Dev} (h : Canonical p.2) (e : p = (a, s)) : Canonical s := by
  rw [e] at h
  exact h

theorem mk_snd_wf {α : Type} {a : α} {s : Dev} (h : Canonical s) : Canonical (a, s).2 := h

/-- What is known of an answer holds of the form it is found in. -/
theorem of_eq {α : Type} {P : α → Prop} {x y : α} (h : P x) (e : x = y) : P y := e ▸ h

/-- A function under a name of its own, which nothing unfolds. The look-ups of an address compare it with limits near 2 ^ 48, and a check
that evaluates one of them on an unknown address counts up to the limit in unary: where a proof splits on what a look-up answers, the
look-up is an unknown function with the properties that the proof needs. A function whose own equation would be evaluated so is opened
under an equality of functions (`conv … delta`), which is checked without an argument to evaluate it on. -/
theorem exists_eq_self {α : Sort*} (a : α) : ∃ b, b = a := ⟨a, rfl⟩

theorem none_all {α : Type} {P : α → Prop} : ∀ x ∈ (none : Option α), P x := fun _ h => nomatch h

theorem some_all {α : Type} {P : α → Prop} {a : α} (h : P a) : ∀ x ∈ some a, P x := by
  rintro _ ⟨⟩
  exact h

theorem map_all {α β : Type} {f : α → β} {P : β → Prop} {o : Option α} (h : ∀ x ∈ o, P (f x)) : ∀ y ∈ o.map f, P y := by
  cases o with
  | none => exact none_all
  | some a => exact some_all (h a rfl)

theorem getD_wf {o : Option Dev} {s : Dev} (ho : ∀ x ∈ o, Canonical x) (h : Canonical s) : Canonical (o.getD s) := by
  cases o with
  | none => exact h
  | some a => exact ho a rfl

/-- A property that each round of a fold keeps. -/
theorem foldl_keeps {σ β : Type} {P : σ → Prop} {f : σ → β → σ} {l : List β} (hf : ∀ x b, P x → P (f x b)) {x : σ} (h : P x) :
    P (l.foldl f x) := by
  induction l generalizing x with
  | nil => exact h
  | cons b l ih => exact ih (hf x b h)

theorem foldl_wf {β : Type} {f : Dev → β → Dev} {l : List β} {s : Dev} (hf : ∀ s b, Canonical s → Canonical (f s b)) (h : Canonical s) :
    Canonical (l.foldl f s) := foldl_keeps hf h

/-- A fold that carries a value beside the device. -/
theorem foldl_snd_wf {α β : Type} {f : α × Dev → β → α × Dev} {l : List β} {p : α × Dev}
    (hf : ∀ (p : α × Dev) b, Canonical p.2 → Canonical (f p b).2) (h : Canonical p.2) : Canonical (l.foldl f p).2 :=
  foldl_keeps (P := fun p : α × Dev => Canonical p.2) hf h

theorem onDev_wf {s : State} {f : Dev → Dev} (h : Canonical (f s.dev)) : NextCanonical (onDev s f) := h

end Sys2Proof.Machine
end

section
/-! PROOFS. The storage keeps its canonical form (O4): the operations of the state. -/
namespace Sys2Proof.Machine

variable {s : Dev}

theorem setReg_wf {off : Nat} {v : Word} (h : Canonical s) : Canonical (setReg s off v) := h.update

theorem fset_wf {off : Nat} {f : Nat × Nat} {n : Nat} (h : Canonical s) : Canonical (fset s off f n) := setReg_wf h

theorem fincSat_wf {off : Nat} {f : Nat × Nat} {n : Nat} (h : Canonical s) : Canonical (fincSat s off f n) := fset_wf h

theorem fincWrap_wf {off : Nat} {f : Nat × Nat} {n : Nat} (h : Canonical s) : Canonical (fincWrap s off f n) := fset_wf h

theorem fmax_wf {off : Nat} {f : Nat × Nat} {n : Nat} (h : Canonical s) : Canonical (fmax s off f n) := ite_wf (fset_wf h) h

theorem drawFree_wf (h : Canonical s) : Canonical (drawFree s).2 := h.update

theorem tick_wf (h : Canonical s) : Canonical (tick s) := h.update

theorem advanceTo_wf {ns : Nat} (h : Canonical s) : Canonical (advanceTo s ns) := ite_wf h.update h

theorem advanceOp_wf {t : Nat} (h : Canonical s) : Canonical (advanceOp s t) := ite_wf h.update h

theorem setThr_wf {t : Nat} {x : Thread} (h : Canonical s) : Canonical (setThr s t x) := h.update

theorem modThr_wf {t : Nat} {f : Thread → Thread} (h : Canonical s) : Canonical (modThr s t f) := setThr_wf h

theorem setBank_wf {n : Nat} {x : BankSt} (h : Canonical s) : Canonical (setBank s n x) := h.update

theorem setImg_wf {k : Nat} {x : ImgSt} (h : Canonical s) : Canonical (setImg s k x) := h.update

theorem setCls_wf {c : Nat} {x : ClassSt} (h : Canonical s) : Canonical (setCls s c x) := h.update

theorem setPart_wf {p : Nat} {x : PartSt} (h : Canonical s) : Canonical (setPart s p x) := h.update

theorem raise_wf {src : Nat} (h : Canonical s) : Canonical (raise s src) := (raise_meta _ _).canonical h

theorem setCtrCfg_wf {i v : Nat} (h : Canonical s) : Canonical (setCtrCfg s i v) := (setCtrCfg_meta _ _ _).canonical h

theorem setCtrVal_wf {i v : Nat} (h : Canonical s) : Canonical (setCtrVal s i v) := (setCtrVal_meta _ _ _).canonical h

theorem ctrAdd_wf {fuel i n : Nat} (h : Canonical s) : Canonical (ctrAdd fuel s i n) := (ctrAdd_meta _ _ _ _).canonical h

theorem countEv_wf {b k ev n : Nat} (h : Canonical s) : Canonical (countEv s b k ev n) := (countEv_meta _ _ _ _ _).canonical h

theorem countCore_wf {t ev : Nat} (h : Canonical s) : Canonical (countCore s t ev) := (countCore_meta _ _ _).canonical h

theorem countCl_wf {c ev : Nat} (h : Canonical s) : Canonical (countCl s c ev) := countEv_wf h

theorem countMc_wf {ch ev : Nat} (h : Canonical s) : Canonical (countMc s ch ev) := countEv_wf h

theorem countPort_wf {p ev : Nat} (h : Canonical s) : Canonical (countPort s p ev) := countEv_wf h

theorem countErg_wf {ev : Nat} (h : Canonical s) : Canonical (countErg s ev) := countEv_wf h

theorem countImg_wf {k ev n : Nat} (h : Canonical s) : Canonical (countImg s k ev n) := ite_wf h (countEv_wf h)

theorem countHist_wf {ev : Nat} (h : Canonical s) : Canonical (countHist s ev) := countEv_wf h

theorem countTwin_wf {j : Nat} (h : Canonical s) : Canonical (countTwin s j) := countEv_wf h

theorem countBank_wf {n ev k : Nat} (h : Canonical s) : Canonical (countBank s n ev k) := ite_wf h (countEv_wf h)

theorem setCreditQ_wf {q : Nat} {x : CreditQ} (h : Canonical s) : Canonical (setCreditQ s q x) := h.update

theorem takeCredit_wf {q : Nat} (h : Canonical s) : Canonical (takeCredit s q) := setCreditQ_wf h

theorem stallOn_wf {q : Nat} (h : Canonical s) : Canonical (stallOn s q) := ite_wf h (setCreditQ_wf h)

theorem giveCredit_wf {q : Nat} (h : Canonical s) : Canonical (giveCredit s q) := ite_wf h (setCreditQ_wf h)

theorem setDom_wf {d v : Nat} (h : Canonical s) : Canonical (setDom s d v) := h.update

theorem setTrcSrc_wf {src : Nat} {x : TrcSrc} (h : Canonical s) : Canonical (setTrcSrc s src x) := (setTrcSrc_meta _ _ _).canonical h

theorem trcAdmit_wf {prio : Nat} {p : List Byte} (h : Canonical s) : ∀ x ∈ trcAdmit s prio p, Canonical x :=
  fun _ e => (trcAdmit_meta e).canonical h

theorem trcDrop_wf {src : Nat} (h : Canonical s) : Canonical (trcDrop s src) := (trcDrop_meta _ _).canonical h

theorem trcSend_wf {src kind : Nat} {p : List Byte} (h : Canonical s) :
    Canonical (trcSend s src kind p) := (trcSend_meta _ _ _ _).canonical h

theorem trcHub_wf {kind : Nat} {p : List Byte} (h : Canonical s) : Canonical (trcHub s kind p) := (trcHub_meta _ _ _).canonical h

theorem trcFlush_wf {src : Nat} (h : Canonical s) : Canonical (trcFlush s src) := (trcFlush_meta _ _).canonical h

theorem trcBranch_wf {t : Nat} {taken : Bool} (h : Canonical s) : Canonical (trcBranch s t taken) := (trcBranch_meta _ _ _).canonical h

theorem trcTarget_wf {t a : Nat} (h : Canonical s) : Canonical (trcTarget s t a) := (trcTarget_meta _ _ _).canonical h

theorem trcData_wf {t : Nat} {store tagged : Bool} {va : Nat} {q : QWord} (h : Canonical s) :
    Canonical (trcData s t store tagged va q) := (trcData_meta _ _ _ _ _ _).canonical h

theorem trcCycle_wf {c event arg : Nat} (h : Canonical s) : Canonical (trcCycle s c event arg) := trcSend_wf h

theorem snapCause_wf {cause : Nat} (h : Canonical s) : Canonical (snapCause s cause) := (snapCause_meta _ _).canonical h

theorem snapTrig_wf {trig cause : Nat} (h : Canonical s) : Canonical (snapTrig s trig cause) := ite_wf (snapCause_wf h) h

theorem trcTrigger_wf {kind : Nat} (h : Canonical s) : Canonical (trcTrigger s kind) := (trcTrigger_meta _ _).canonical h

theorem trcStream_wf {handle outcome time : Nat} (h : Canonical s) : Canonical (trcStream s handle outcome time) :=
  ite_wf (trcTrigger_wf (trcSend_wf h)) (trcSend_wf h)

theorem SamplerOnly.canonical {a b : Dev} (hs : SamplerOnly a b) (h : Canonical a) : Canonical b := h.of_fields hs.mem hs.tags hs.poison

theorem smpStore_wf {r : SRec} (h : Canonical s) : Canonical (smpStore s r) := (smpStore_sampler _ _).canonical h

theorem smpRecord_wf {r : SRec} (h : Canonical s) : Canonical (smpRecord s r) := (smpRecord_sampler _ _).canonical h

theorem logRec_wf {sev block inst code : Nat} {payload : List Nat} (h : Canonical s) : Canonical (logRec s sev block inst code payload) :=
  smpRecord_wf h

theorem logLimited_wf {sev block inst code : Nat} {payload : List Nat} (h : Canonical s) :
    Canonical (logLimited s sev block inst code payload) :=
  (logLimited_sampler _ _ _ _ _ _).canonical h

theorem addRepair_wf {r : RepairRec} (h : Canonical s) : Canonical (addRepair s r) := ite_wf (logRec_wf h) h.update

theorem openPhase_wf {kind : Nat} (h : Canonical s) : Canonical (openPhase s kind) := by
  unfold openPhase
  extract_lets +onlyGivenNames p
  split
  · exact h.update
  · split
    · exact h.update
    · exact fset_wf h.update

theorem phaseValue_wf {kind q : Nat} {v : Int} (h : Canonical s) : Canonical (phaseValue s kind q v) := by
  unfold phaseValue
  extract_lets +onlyGivenNames upd
  split
  · split
    · exact h.update
    · exact h
  · split
    · exact ite_wf h.update h
    · exact h

theorem closePhase_wf {selfTest : Bool} {outcome : Nat} (h : Canonical s) : Canonical (closePhase s selfTest outcome) := by
  unfold closePhase
  split
  · exact h
  · exact smpStore_wf (ite_wf h.update (fset_wf h.update))

end Sys2Proof.Machine
end

section
/-! PROOFS. The storage keeps its canonical form (O4): bobbin banks and pairs. -/
namespace Sys2Proof.Machine

variable {s : Dev}

theorem countRefusal_wf {n code : Nat} (h : Canonical s) : Canonical (countRefusal s n code) := countBank_wf (fset_wf (fincSat_wf h))

theorem setLtEntry_wf {k line : Nat} {e : Word} (h : Canonical s) : Canonical (setLtEntry s k line e) := setImg_wf h

theorem noteOverrun_wf {k line p : Nat} (h : Canonical s) :
    Canonical (noteOverrun s k line p) := countImg_wf (fset_wf (fset_wf (fincSat_wf h)))

theorem pairReadNote_wf {k r w p : Nat} (h : Canonical s) : Canonical (pairReadNote s k r w p).2 := ite_wf (noteOverrun_wf h) h

theorem copyWord_wf {src dst : Nat} (h : Canonical s) :
    Canonical (copyWord s src dst) := setPoison_wf _ _ _ (setTag_wf _ _ _ (wrBytes_wf _ _ _ h))

theorem holdPort_wf {n : Nat} {words : List Nat} {cycles : Nat} (h : Canonical s) : Canonical (holdPort s n words cycles) := setBank_wf h

theorem openLine_wf {k r line : Nat} {full : List Nat} (h : Canonical s) : Canonical (openLine s k r line full) := by
  unfold openLine
  extract_lets +onlyGivenNames e c
  split
  · exact setLtEntry_wf h
  · extract_lets +onlyGivenNames b merge s1 s2
    have h1 : Canonical s1 := foldl_wf (fun _ _ hs => copyWord_wf hs) h
    have h2 : Canonical s2 := ite_wf h1 (holdPort_wf (holdPort_wf (countImg_wf h1)))
    exact setLtEntry_wf h2

theorem lateWrite_wf {k : Nat} (h : Canonical s) : Canonical (lateWrite s k) := countImg_wf (fset_wf h)

theorem pairWriteOf_wf {k r w : Nat} {full : List Nat} {q : QWord} (h : Canonical s) : Canonical (pairWriteOf s k r w full q) :=
  ite_wf (lateWrite_wf h) (writeWord_wf _ _ _ (openLine_wf h))

theorem pairWriteWord_wf {k r w : Nat} {q : QWord} (h : Canonical s) : Canonical (pairWriteWord s k r w q) := pairWriteOf_wf h

theorem notePoisonMerge_wf {n a len : Nat} (h : Canonical s) :
    Canonical (notePoisonMerge s n a len) := foldl_wf (fun _ _ hs => logLimited_wf hs) h

theorem pairWriteBytes_wf {k r w off : Nat} {bs : List Byte} (h : Canonical s) : Canonical (pairWriteBytes s k r w off bs) :=
  ite_wf (lateWrite_wf h) (writeKeepTag_wf _ _ _ (notePoisonMerge_wf (openLine_wf h)))

theorem pairForeign_wf {k r w off : Nat} {bs : List Byte} (h : Canonical s) : Canonical (pairForeign s k r w off bs) :=
  ite_wf (lateWrite_wf h) (writeUntagged_wf _ _ _ (openLine_wf h))

theorem keepWrite_wf {k : Nat} {h1 : HeldWrite} (h : Canonical s) : Canonical (keepWrite s k h1) := setImg_wf h

theorem refusePair_wf {k code : Nat} (h : Canonical s) : Canonical (refusePair s k code) := countRefusal_wf (fset_wf h)

theorem usePortOf_wf {n place code words : Nat} {old : List (Nat × QWord × Bool)} (h : Canonical s) :
    Canonical (usePortOf s n place code words old) :=
  ite_wf (setBank_wf h) (setBank_wf h)

theorem usePort_wf {n place code words : Nat} (h : Canonical s) : Canonical (usePort s n place code words) := usePortOf_wf h

theorem useAddr_wf {place code pa : Nat} (h : Canonical s) : Canonical (useAddr s place code pa) := usePort_wf h

theorem writeCopied_wf {k line : Nat} {words : List QWord} {stamp : Nat} (h : Canonical s) : Canonical (writeCopied s k line words stamp) :=
  ite_wf (setLtEntry_wf (usePort_wf (foldl_wf (fun _ _ hs => writeWord_wf _ _ _ hs) h))) (refusePair_wf h)

theorem noteRefused_wf {m : Master} {n : Nat} (h : Canonical s) :
    Canonical (noteRefused s m n) := ite_wf (refusePair_wf h) (countRefusal_wf h)

theorem stallQueue_wf {q : Nat} (h : Canonical s) : Canonical (stallQueue s q) :=
  ite_wf h (ite_wf (countBank_wf (stallOn_wf h)) (ite_wf h.update (ite_wf (countMc_wf (stallOn_wf h)) (stallOn_wf h))))

theorem engineAct_wf {l : List Nat} {f : Dev → Dev} (h : Canonical s) (h1 : ∀ s, Canonical s → Canonical (f s)) :
    Canonical (engineAct s l f) :=
  ite_wf (h1 _ h) (foldl_wf (fun _ _ hs => stallQueue_wf hs) h)

theorem masterReadWord_wf {code pa : Nat} (h : Canonical s) : Canonical (masterReadWord s code pa).2 := by
  unfold masterReadWord
  split
  · exact h
  · split
    · exact h
    · split
      · exact noteRefused_wf h
      · exact usePort_wf h
      · exact useAddr_wf (pairReadNote_wf h)

theorem masterWriteBytes_wf {code pa : Nat} {bs : List Byte} (h : Canonical s) : Canonical (masterWriteBytes s code pa bs).2 := by
  unfold masterWriteBytes
  split
  · exact h
  · split
    · exact h
    · split
      · exact ite_snd_wf (usePortOf_wf (writeUntagged_wf _ _ _ h)) h
      · exact noteRefused_wf h

theorem failAcc_wf {t : Nat} {a : Acc} {e : AccErr} (h : Canonical s) : Canonical (failAcc s t a e) := modThr_wf h

theorem failPart_wf {t : Nat} {a : Acc} {part kind : Nat} (h : Canonical s) : Canonical (failPart s t a part kind) := failAcc_wf h

theorem refusePart_wf {t : Nat} {a : Acc} {part n : Nat} (h : Canonical s) : Canonical (refusePart s t a part n) :=
  failPart_wf (ite_wf (fincSat_wf (noteRefused_wf h)) (noteRefused_wf h))

theorem acceptReq_wf {t : Nat} {a : Acc} {part n : Nat} (h : Canonical s) : Canonical (acceptReq s t a part n) :=
  modThr_wf (takeCredit_wf (setBank_wf h))

theorem bankRequest_wf {t : Nat} (h : Canonical s) : Canonical (bankRequest s t) := by
  unfold bankRequest
  split
  · exact h
  · exact failPart_wf h
  · extract_lets +onlyGivenNames part
    split
    · exact failPart_wf h
    · split
      · exact countBank_wf (stallOn_wf h)
      · split
        · exact refusePart_wf h
        · exact acceptReq_wf h
        · exact ite_wf (refusePart_wf h) (acceptReq_wf h)

theorem doneAcc_wf {t : Nat} {a : Acc} {r : QWord} {p : Bool} (h : Canonical s) : Canonical (doneAcc s t a r p) := modThr_wf h

theorem firstPartDone_wf {t : Nat} {a : Acc} {r : QWord} (h : Canonical s) : Canonical (firstPartDone s t a r) := modThr_wf h

theorem rotate_wf {n : Nat} {a : Acc} (h : Canonical s) : Canonical (rotate s n a) := ite_wf h (countBank_wf (holdPort_wf h))

theorem grantRead_wf {q : BankReq} {a : Acc} {n : Nat} (h : Canonical s) : Canonical (grantRead s q a n) := by
  unfold grantRead
  extract_lets +onlyGivenNames at_ bytes
  split
  · exact refusePart_wf h
  · extract_lets +onlyGivenNames x' s1
    have hx' : Canonical x'.2 := by
      unfold x'
      exact pairReadNote_wf h
    have h1 : Canonical s1 := ite_wf (modThr_wf hx') hx'
    split
    · exact ite_wf (failAcc_wf h1) (doneAcc_wf h1)
    · exact doneAcc_wf h1
  · extract_lets +onlyGivenNames v
    split
    · exact doneAcc_wf h
    · exact ite_wf (failPart_wf (rotate_wf h)) (ite_wf (firstPartDone_wf (rotate_wf h)) (doneAcc_wf (rotate_wf h)))

theorem grantAtomic_wf {t : Nat} {a : Acc} {op : AtomicOp} {n : Nat} {old : QWord} {put : Dev → QWord → Dev} (h : Canonical s)
    (h1 : ∀ s q, Canonical s → Canonical (put s q)) :
    Canonical (grantAtomic s t a op n old put) := by
  unfold grantAtomic
  extract_lets +onlyGivenNames s1
  have h11 : Canonical s1 := holdPort_wf h
  split
  · exact doneAcc_wf h11
  · exact doneAcc_wf (h1 _ _ h11)

theorem grantWrite_wf {q : BankReq} {a : Acc} {n : Nat} (h : Canonical s) : Canonical (grantWrite s q a n) := by
  unfold grantWrite
  extract_lets +onlyGivenNames at_ bytes
  split
  · exact refusePart_wf h
  · split
    · exact grantAtomic_wf h (fun _ _ hs => pairWriteWord_wf hs)
    · exact doneAcc_wf (pairWriteWord_wf h)
    · exact ite_wf (doneAcc_wf (pairWriteWord_wf h)) (doneAcc_wf (pairWriteBytes_wf h))
  · split
    · exact grantAtomic_wf h (fun _ _ hs => writeWord_wf _ _ _ hs)
    · split
      · exact doneAcc_wf (writeWord_wf _ _ _ h)
      · extract_lets +onlyGivenNames all mine s1
        have h1 : Canonical s1 := writeKeepTag_wf _ _ _ (notePoisonMerge_wf (rotate_wf h))
        exact ite_wf (firstPartDone_wf h1) (doneAcc_wf h1)

theorem performGrant_wf {n : Nat} {c : Cand} (h : Canonical s) : Canonical (performGrant n s c) := by
  unfold performGrant
  split
  · exact h
  · extract_lets +onlyGivenNames w s1
    have h1 : Canonical s1 := giveCredit_wf h
    split
    · exact h1
    · exact ite_wf (grantWrite_wf (countCore_wf h1)) (grantRead_wf (countCore_wf h1))

theorem bankFind_wf {n : Nat} {f : Fin 1048576 × Bool} (h : Canonical s) : Canonical (bankFind n s f) :=
  ite_wf (logLimited_wf (setPoison_wf _ _ _ h)) (logLimited_wf h)

theorem passUses_wf {n : Nat} {g : List Cand} (h : Canonical s) : Canonical (passUses s n g) := setBank_wf h

theorem bankAfter_wf {n : Nat} {g : List Cand} (h : Canonical s) : Canonical (bankAfter s n g) := setBank_wf (setBank_wf h)

theorem bankGrant_wf {n : Nat} {finds : List (Fin 1048576 × Bool)} (h : Canonical s) : Canonical (bankGrant s n finds) := by
  unfold bankGrant
  extract_lets +onlyGivenNames s0 c g d s1 reads writes
  have h0 : Canonical s0 := foldl_wf (fun _ _ hs => bankFind_wf hs) h
  have h1 : Canonical s1 := countBank_wf (countBank_wf (countBank_wf (bankAfter_wf h0)))
  exact foldl_wf (fun _ _ hs => performGrant_wf hs) (passUses_wf (foldl_wf (fun _ _ hs => performGrant_wf hs) h1))

theorem handoverStart_wf {n next : Nat} (h : Canonical s) :
    Canonical (handoverStart s n next) := ite_wf (fset_wf h) (fset_wf (setBank_wf h))

theorem handoverEnd_wf {n : Nat} (h : Canonical s) : Canonical (handoverEnd s n) := ite_wf (setBank_wf (fset_wf (fset_wf h))) h

theorem bankClearStart_wf {n : Nat} (h : Canonical s) : Canonical (bankClearStart s n) := ite_wf (fset_wf (setBank_wf h)) h

theorem clearBank_wf {n : Nat} (h : Canonical s) : Canonical (clearBank s n) := clearRange_wf _ _ _ h

theorem bankClearEnd_wf {n : Nat} (h : Canonical s) : Canonical (bankClearEnd s n) := ite_wf (fset_wf (clearBank_wf (advanceOp_wf h))) h

theorem pairEnable_wf {k : Nat} (h : Canonical s) : Canonical (pairEnable s k) :=
  ite_wf h (ite_wf (fset_wf h) (clearBank_wf (clearBank_wf (setImg_wf (fset_wf (fset_wf (fset_wf h)))))))

theorem refuseHeld_wf {k : Nat} {h1 : HeldWrite} (h : Canonical s) : Canonical (refuseHeld k s h1) := refusePair_wf h

theorem pairDisable_wf {k : Nat} (h : Canonical s) : Canonical (pairDisable s k) := by
  unfold pairDisable
  split
  · extract_lets +onlyGivenNames s1 s2 l
    have h1 : Canonical s1 := fset_wf h
    have h2 : Canonical s2 := fset_wf (fset_wf h1)
    exact ite_wf h2 (foldl_wf (fun _ _ hs => refuseHeld_wf hs) (setImg_wf h2))
  · exact h

theorem heldWrite_wf {k : Nat} {h1 : HeldWrite} (h : Canonical s) : Canonical (heldWrite k s h1) := by
  unfold heldWrite
  split
  · exact pairWriteWord_wf h
  · exact pairForeign_wf h
  · exact writeCopied_wf h

theorem pairInitDone_wf {k : Nat} (h : Canonical s) : Canonical (pairInitDone s k) :=
  ite_wf (foldl_wf (fun _ _ hs => heldWrite_wf hs) (setImg_wf (fset_wf (setImg_wf (advanceOp_wf h))))) h

theorem ltRead_wf {k line : Nat} (h : Canonical s) : Canonical (ltRead s k line) := fset_wf (fset_wf (fset_wf h))

theorem ltWrite_wf {k line : Nat} (h : Canonical s) : Canonical (ltWrite s k line) := by
  unfold ltWrite
  extract_lets +onlyGivenNames s1 e running s2
  have h1 : Canonical s1 := fset_wf (fset_wf h)
  have h2 : Canonical s2 := ite_wf (fset_wf h1) h1
  exact ite_wf (fset_wf h2) (ite_wf h2 (setLtEntry_wf h2))

theorem abandonWrite_wf {k a regions stamp : Nat} (h : Canonical s) : Canonical (abandonWrite s k a regions stamp) :=
  ite_wf (setImg_wf (fset_wf (fset_wf (fset_wf h)))) (logLimited_wf (fset_wf h))

theorem sweepEntry_wf {k line : Nat} (h : Canonical s) : Canonical (sweepEntry s k line) :=
  ite_wf (ite_wf h (setLtEntry_wf h)) (countImg_wf (fincWrap_wf (ite_wf h (setLtEntry_wf h))))

theorem sweep_wf {n k : Nat} (h : Canonical s) : Canonical (sweep n s k) := by
  induction n generalizing s k with
  | zero =>
    rw [sweep]
    exact h
  | succ n ih =>
    rw [sweep]
    exact ih (ite_wf (fincWrap_wf (setImg_wf (sweepEntry_wf h))) (setImg_wf (sweepEntry_wf h)))

theorem sweeperVisit_wf {k n : Nat} (h : Canonical s) : Canonical (sweeperVisit s k n) := ite_wf (sweep_wf h) h

theorem repairAll_wf {k : Nat} (h : Canonical s) : Canonical (repairAll s k) := by
  unfold repairAll
  extract_lets +onlyGivenNames x
  refine foldl_wf (fun s b hs => ?_) h
  split
  · exact ite_wf (setLtEntry_wf hs) hs
  · exact hs

theorem abandonSweepDone_wf {k a : Nat} (h : Canonical s) : Canonical (abandonSweepDone s k a) := by
  unfold abandonSweepDone
  split
  · extract_lets +onlyGivenNames s0 s1 s2 x s3
    have h0 : Canonical s0 := advanceOp_wf h
    have h1 : Canonical s1 := repairAll_wf h0
    have h2 : Canonical s2 := fset_wf h1
    have h3 : Canonical s3 := phaseValue_wf h2
    split
    · exact h3
    · exact ite_wf (abandonWrite_wf (setImg_wf h3)) (setImg_wf h3)
  · exact h

end Sys2Proof.Machine
end

section
/-! PROOFS. The storage keeps its canonical form (O4): the caches. -/
namespace Sys2Proof.Machine

variable {s : Dev}

theorem toDram_wf {line : Nat} (h : Canonical s) : Canonical (toDram s line) :=
  ite_wf (foldl_wf (fun _ _ hs => setPoison_wf _ _ _ hs) (countMc_wf h)) (countMc_wf h)

theorem modCache_wf {f : CacheSt → CacheSt} (h : Canonical s) : Canonical (modCache s f) := h.update

theorem setL1State_wf {core v : Nat} (h : Canonical s) : Canonical (setL1State s core v) := fset_wf h

theorem setL2State_wf {c v : Nat} (h : Canonical s) : Canonical (setL2State s c v) := fset_wf h

theorem cTouch_wf {cid line way : Nat} (h : Canonical s) : Canonical (cTouch s cid line way) := (cTouch_meta _ _ _ _).canonical h

theorem cTouchLine_wf {cid line : Nat} (h : Canonical s) : Canonical (cTouchLine s cid line) := by
  unfold cTouchLine
  split
  · exact cTouch_wf h
  · exact h

theorem cPut_wf {cid way : Nat} {x : CLine} (h : Canonical s) : Canonical (cPut s cid way x) := modCache_wf h

theorem cDel_wf {cid line : Nat} (h : Canonical s) : Canonical (cDel s cid line) := by
  unfold cDel
  split
  · exact modCache_wf h
  · exact h

theorem cMod_wf {cid line : Nat} {f : CLine → CLine} (h : Canonical s) : Canonical (cMod s cid line f) := by
  unfold cMod
  split
  · exact cPut_wf h
  · exact h

theorem cVictim_wf {cid line : Nat} {l : List Nat} (h : Canonical s) : ∀ x ∈ cVictim s cid line l, Canonical x.2 :=
  fun _ e => (cVictim_meta e).canonical h

theorem markDirtyLine_wf {cid line : Nat} (h : Canonical s) : Canonical (markDirtyLine s cid line) := cMod_wf h

theorem restoreBack_wf {x : CLine} (h : Canonical s) : Canonical (restoreBack s x) :=
  foldl_wf (fun _ _ hs => setPoison_wf _ _ _ hs) (foldl_wf (fun _ _ hs => writeWord_wf _ _ _ hs) h)

theorem setPrefetched_wf {core : Nat} {l : List Nat} (h : Canonical s) : Canonical (setPrefetched s core l) := modCache_wf h

theorem setEvicted_wf {c : Nat} {l : List CLine} (h : Canonical s) : Canonical (setEvicted s c l) := modCache_wf h

theorem putPrefetched_wf {core line : Nat} (h : Canonical s) : Canonical (putPrefetched s core line) := setPrefetched_wf h

theorem setWanted_wf {core : Nat} {l : List Nat} (h : Canonical s) : Canonical (setWanted s core l) := modCache_wf h

theorem wantPrefetch_wf {core line : Nat} (h : Canonical s) : Canonical (wantPrefetch s core line) := ite_wf h (setWanted_wf h)

theorem dropPrefetch_wf {core line : Nat} (h : Canonical s) : Canonical (dropPrefetch s core line) := setPrefetched_wf h

theorem passDirty_wf {core line : Nat} (h : Canonical s) : Canonical (passDirty s core line) := by
  unfold passDirty
  split
  · exact ite_wf (cMod_wf h) h
  · exact h

theorem dropL1_wf {core line : Nat} (h : Canonical s) : Canonical (dropL1 s core line) := cDel_wf (passDirty_wf h)

theorem dropCluster_wf {c line : Nat} (h : Canonical s) : Canonical (dropCluster s c line) :=
  setEvicted_wf (cDel_wf (foldl_wf (fun _ _ hs => dropPrefetch_wf (dropL1_wf hs)) h))

theorem shareInCluster_wf {core line : Nat} (h : Canonical s) : Canonical (shareInCluster s core line) :=
  foldl_wf (fun _ _ hs => ite_wf hs (cMod_wf (passDirty_wf hs))) h

theorem dropOthers_wf {core line : Nat} (h : Canonical s) : Canonical (dropOthers s core line) :=
  dropPrefetch_wf (foldl_wf (fun _ _ hs => ite_wf hs (dropPrefetch_wf (dropL1_wf hs))) h)

theorem shareCluster_wf {c line : Nat} (h : Canonical s) : Canonical (shareCluster s c line) :=
  setEvicted_wf (foldl_wf (fun _ _ hs => cMod_wf hs) (ite_wf (toDram_wf h) h))

theorem dropHolder_wf {holder line : Nat} (h : Canonical s) :
    Canonical (dropHolder s holder line) := ite_wf (modCache_wf h) (dropCluster_wf h)

theorem shareHolder_wf {holder line : Nat} (h : Canonical s) : Canonical (shareHolder s holder line) :=
  ite_wf (modCache_wf (ite_wf (toDram_wf h) h)) (shareCluster_wf h)

theorem setDir_wf {line way : Nat} {e : DirEnt} (h : Canonical s) : Canonical (setDir s line way e) := modCache_wf h

theorem delDir_wf {line : Nat} (h : Canonical s) : Canonical (delDir s line) := by
  unfold delDir
  split
  · exact h
  · exact ite_wf (fset_wf (fset_wf (modCache_wf h))) (fset_wf (modCache_wf h))

theorem invalidateHolders_wf {e : DirEnt} {keep : Nat} (h : Canonical s) : Canonical (invalidateHolders s e keep) := by
  unfold invalidateHolders
  extract_lets +onlyGivenNames s0
  have h0 : Canonical s0 := ite_wf (countMc_wf h) h
  exact foldl_wf (fun _ _ hs => ite_wf hs (ite_wf (countCl_wf (dropHolder_wf (ite_wf (toDram_wf hs) hs)))
      (dropHolder_wf (ite_wf (toDram_wf hs) hs)))) h0

theorem dirWay_wf {line : Nat} (h : Canonical s) : Canonical (dirWay s line).2 := by
  unfold dirWay
  extract_lets +onlyGivenNames k
  split
  · exact h
  · extract_lets +onlyGivenNames w
    split
    · exact h
    · exact countMc_wf (fincSat_wf (delDir_wf (foldl_wf (fun _ _ hs => ite_wf (countCl_wf hs) hs) (invalidateHolders_wf h))))

theorem putDir_wf {e : DirEnt} (h : Canonical s) : Canonical (putDir s e) := by
  unfold putDir
  split
  · exact ite_wf (fset_wf (setDir_wf h)) (ite_wf (fincSat_wf (fincWrap_wf (setDir_wf h))) (setDir_wf h))
  · exact fincWrap_wf (setDir_wf (dirWay_wf h))

theorem dirLeave_wf {c line : Nat} (h : Canonical s) : Canonical (dirLeave s c line) := by
  unfold dirLeave
  split
  · exact h
  · exact ite_wf h (ite_wf (delDir_wf h) (putDir_wf h))

theorem addHolder_wf {e : DirEnt} {c : Nat} (h : Canonical s) : Canonical (addHolder s e c) :=
  ite_wf (putDir_wf h) (ite_wf (putDir_wf h) (putDir_wf h))

theorem evictL2_wf {c : Nat} {x : CLine} (h : Canonical s) : Canonical (evictL2 s c x) := by
  unfold evictL2
  extract_lets +onlyGivenNames s1 y s2
  have h1 : Canonical s1 := foldl_wf (fun _ _ hs => dropPrefetch_wf (dropL1_wf hs)) h
  have h2 : Canonical s2 := cDel_wf h1
  split
  · dsimp only
    split
    · exact setEvicted_wf h2
    · split
      · exact h2
      · exact dirLeave_wf (setEvicted_wf (ite_wf (toDram_wf h2) h2))
  · exact ite_wf (setEvicted_wf h2) (dirLeave_wf h2)

theorem fillL2_wf {c : Nat} {x : CLine} {among : List Nat} (h : Canonical s) : ∀ x_1 ∈ fillL2 s c x among, Canonical x_1 := by
  unfold fillL2
  split
  · exact none_all
  · next s1 e =>
      have hs : Canonical s1 := cVictim_wf h _ e
      split
      · exact some_all (cTouch_wf (cPut_wf hs))
      · exact ite_all none_all (some_all (cTouch_wf (cPut_wf (evictL2_wf hs))))

theorem fillL1_wf {core line : Nat} {excl : Bool} (h : Canonical s) : Canonical (fillL1 s core line excl) := by
  unfold fillL1
  split
  · exact h
  · split
    · exact cTouchLine_wf (cMod_wf h)
    · split
      · exact h
      · next s1 e2 =>
          have hs : Canonical s1 := cVictim_wf h _ e2
          extract_lets +onlyGivenNames s2
          have h2 : Canonical s2 := by
            unfold s2
            split
            · exact dropL1_wf hs
            · exact hs
          exact cTouch_wf (cPut_wf h2)

theorem reinstall_wf {c line : Nat} (h : Canonical s) : ∀ x ∈ reinstall s c line, Canonical x := by
  unfold reinstall
  split
  · exact none_all
  · split
    · exact none_all
    · exact fillL2_wf (countCl_wf (setEvicted_wf h))

theorem installLine_wf {core line : Nat} {excl data : Bool} (h : Canonical s) : ∀ x ∈ installLine s core line excl data, Canonical x := by
  unfold installLine
  extract_lets +onlyGivenNames c l1
  have hl1 : ∀ (s : Dev), Canonical s → Canonical (l1 s) := fun _ hs => ite_wf (fillL1_wf hs) hs
  split
  · exact some_all h
  · next e =>
      split
      · exact some_all (hl1 _ (cTouchLine_wf (cMod_wf h)))
      · refine map_all ?_
        intro x e
        have hx : Canonical x := fillL2_wf h _ e
        exact hl1 _ hx

theorem dropL1I_wf {line : Nat} (h : Canonical s) : Canonical (dropL1I s line) := modCache_wf h

theorem emptyL1I_wf {core : Nat} (h : Canonical s) : Canonical (emptyL1I s core) := modCache_wf h

theorem noteCorrected_wf {ch rank sub dev : Nat} (h : Canonical s) : Canonical (noteCorrected s ch rank sub dev) := by
  unfold noteCorrected
  extract_lets +onlyGivenNames s1 s2 key n s3 i
  have h1 : Canonical s1 := logLimited_wf (fincSat_wf h)
  have h2 : Canonical s2 := fset_wf (fset_wf (fset_wf h1))
  have h3 : Canonical s3 := countMc_wf (modCache_wf h2)
  exact ite_wf (addRepair_wf (logRec_wf (fset_wf (fset_wf h3)))) h3

theorem noteUncorrected_wf {ch line : Nat} (h : Canonical s) : Canonical (noteUncorrected s ch line) :=
  logLimited_wf (fset_wf (fset_wf (fincSat_wf (foldl_wf (fun _ _ hs => setPoison_wf _ _ _ hs) h))))

theorem spoilLine_wf {line : Nat} {off : List (Fin 80 × Byte)} (h : Canonical s) : Canonical (spoilLine s line off) :=
  foldl_wf (fun _ _ hs => ite_wf (wrByte_wf _ _ _ hs) (ite_wf (setTag_wf _ _ _ hs) hs)) h

theorem decodeLine_wf {line : Nat} {o : EccRead} (h : Canonical s) : Canonical (decodeLine s line o) := by
  unfold decodeLine
  extract_lets +onlyGivenNames ch
  split
  · exact h
  · exact noteCorrected_wf h
  · exact spoilLine_wf (noteCorrected_wf h)
  · exact noteUncorrected_wf h

theorem readDram_wf {line : Nat} {o : EccRead} (h : Canonical s) : Canonical (readDram s line o) := decodeLine_wf (countMc_wf h)

theorem joinHolders_wf {e : DirEnt} {c : Option Nat} (h : Canonical s) : Canonical (joinHolders s e c) := by
  unfold joinHolders
  extract_lets +onlyGivenNames e1
  split
  · exact addHolder_wf h
  · exact ite_wf (putDir_wf h) (delDir_wf h)

theorem cohRead_wf {core line : Nat} {demand : Bool} {o : EccRead} (h : Canonical s) : ∀ x ∈ cohRead s core line demand o, Canonical x := by
  unfold cohRead
  extract_lets +onlyGivenNames c
  split
  · next e =>
      extract_lets +onlyGivenNames others
      split
      · exact installLine_wf (ite_wf h (readDram_wf h))
      · extract_lets +onlyGivenNames dirty s1 s2
        have h1 : Canonical s1 := foldl_wf (fun _ _ hs => ite_wf (shareHolder_wf hs) hs) h
        have h2 : Canonical s2 := ite_wf h1 (readDram_wf h1)
        refine map_all ?_
        intro x1 e
        have hx : Canonical x1 := installLine_wf h2 _ e
        exact joinHolders_wf hx
  · next e =>
      extract_lets +onlyGivenNames s1
      have h1 : Canonical s1 := readDram_wf h
      refine map_all ?_
      intro x1 e
      have hx : Canonical x1 := installLine_wf h1 _ e
      exact ite_wf (putDir_wf hx) hx

theorem cohOwn_wf {core line : Nat} {fetch : Bool} {o : EccRead} (h : Canonical s) : ∀ x ∈ cohOwn s core line fetch o, Canonical x := by
  unfold cohOwn
  extract_lets +onlyGivenNames c s1 s2 held s3
  have h1 : Canonical s1 := by
    unfold s1
    split
    · exact invalidateHolders_wf h
    · exact h
  have h2 : Canonical s2 := dropOthers_wf h1
  have h3 : Canonical s3 := ite_wf h2 (readDram_wf h2)
  refine map_all ?_
  intro x e
  have hx : Canonical x := installLine_wf h3 _ e
  exact ite_wf (putDir_wf hx) hx

theorem cohWriteBack_wf {c : Nat} (h : Canonical s) : Canonical (cohWriteBack s c) := by
  unfold cohWriteBack
  split
  · exact h
  · split
    · exact h
    · exact dirLeave_wf (toDram_wf (setEvicted_wf h))

theorem ioInvalidate_wf {line : Nat} (h : Canonical s) : Canonical (ioInvalidate s line) := by
  unfold ioInvalidate
  split
  · exact h
  · exact delDir_wf (foldl_wf (fun _ _ hs => ite_wf (countCl_wf (dropCluster_wf hs)) (ite_wf (dropHolder_wf hs) hs)) h)

theorem partialRead_wf {line : Nat} {o : EccRead} (h : Canonical s) : Canonical (partialRead s line o) := decodeLine_wf h

theorem ioRead_wf {pa n : Nat} (h : Canonical s) : Canonical (ioRead s pa n).2 := foldl_wf (fun _ _ hs => countMc_wf hs) h

theorem ioWriteEcc_wf {pa : Nat} {bs : List Byte} {os : List EccRead} (h : Canonical s) : Canonical (ioWriteEcc s pa bs os) := by
  unfold ioWriteEcc
  extract_lets +onlyGivenNames ls whole s0 s1
  have h0 : Canonical s0 := foldl_wf (fun _ _ hs => ite_wf hs (partialRead_wf hs)) h
  have h1 : Canonical s1 := writeUntagged_wf _ _ _ (foldl_wf (fun _ _ hs => ioInvalidate_wf hs) h0)
  exact foldl_wf (fun _ _ hs => toDram_wf (ite_wf hs (countMc_wf hs))) h1

theorem ioWrite_wf {pa : Nat} {bs : List Byte} (h : Canonical s) : Canonical (ioWrite s pa bs) := ioWriteEcc_wf h

theorem stashLine_wf {part c lo : Nat} {bs : List Byte} {o : EccRead} (h : Canonical s) : Canonical (stashLine s part c lo bs o) := by
  unfold stashLine
  extract_lets +onlyGivenNames l
  split
  · extract_lets +onlyGivenNames s0 s1 fill s2
    have h0 : Canonical s0 := ite_wf h (partialRead_wf h)
    have h1 : Canonical s1 := writeUntagged_wf _ _ _ (ioInvalidate_wf h0)
    have hfill : ∀ (s : Dev), Canonical s → ∀ x ∈ fill s, Canonical x := fun _ hs => fillL2_wf hs
    have h2 : Canonical s2 := by
      unfold s2
      split
      · next e1 => exact hfill _ h1 _ e1
      · exact getD_wf (hfill _ (cohWriteBack_wf (countCl_wf h1))) h1
    exact countCl_wf (putDir_wf h2)
  · exact ioWriteEcc_wf h

theorem ioStashWrite_wf {part c pa : Nat} {bs : List Byte} {os : List EccRead} (h : Canonical s) :
    Canonical (ioStashWrite s part c pa bs os) :=
  foldl_wf (fun _ _ hs => stashLine_wf hs) h

theorem putOasis_wf {x : CLine} (h : Canonical s) : Canonical (putOasis s x) := by
  unfold putOasis
  dsimp only
  split
  · exact ite_wf (modCache_wf h) (dirLeave_wf (modCache_wf (ite_wf (toDram_wf h) h)))
  · exact modCache_wf h

theorem oasisLoad_wf {line : Nat} (h : Canonical s) : Canonical (oasisLoad s line) := by
  unfold oasisLoad
  split
  · exact h
  · split
    · extract_lets +onlyGivenNames others s1
      have h1 : Canonical s1 := foldl_wf (fun _ _ hs => shareHolder_wf hs) h
      exact joinHolders_wf (putOasis_wf (ite_wf h1 (readDram_wf h1)))
    · exact putDir_wf (putOasis_wf (readDram_wf h))

theorem oasisStore_wf {line : Nat} {f : Dev → Dev} (h : Canonical s) (h1 : ∀ s, Canonical s → Canonical (f s)) :
    Canonical (oasisStore s line f) := by
  unfold oasisStore
  extract_lets +onlyGivenNames s1 x
  have h11 : Canonical s1 := by
    unfold s1
    split
    · exact invalidateHolders_wf h
    · exact h
  exact h1 _ (putDir_wf (putOasis_wf h11))

end Sys2Proof.Machine
end

section
/-! PROOFS. The storage keeps its canonical form (O4): the arbiters of the channels. -/
namespace Sys2Proof.Machine

variable {s : Dev}

theorem noteMiss_wf {core line : Nat} (h : Canonical s) : Canonical (noteMiss s core line) := ite_wf h (modCache_wf h)

theorem forgetMiss_wf {core line : Nat} (h : Canonical s) : Canonical (forgetMiss s core line) := modCache_wf h

theorem takeHome_wf {c ch : Nat} (h : Canonical s) : Canonical (takeHome s c ch) := takeCredit_wf (takeCredit_wf h)

theorem stallHome_wf {c ch : Nat} (h : Canonical s) :
    Canonical (stallHome s c ch) := ite_wf (countMc_wf (stallOn_wf h)) (countCl_wf (stallOn_wf h))

theorem toHome_wf {c line : Nat} {f : Dev → Option Dev} (h : Canonical s) (hf : ∀ s, Canonical s → ∀ x ∈ f s, Canonical x) :
    BothCanonical (toHome s c line f) := by
  unfold toHome
  extract_lets ch
  split
  · exact both_none (stallHome_wf h)
  · split
    · next e => exact both_some (hf _ (takeHome_wf h) _ e) (hf _ (takeHome_wf h) _ e)
    · exact both_none (countCl_wf h)

theorem noteSource_wf {ch src : Nat} (h : Canonical s) : Canonical (noteSource s ch src) := modCache_wf h

theorem noteGrant_wf {core line : Nat} (h : Canonical s) : Canonical (noteGrant s core line) := modCache_wf (noteSource_wf h)

theorem dramTaken_wf {src pa n : Nat} (h : Canonical s) : Canonical (dramTaken s src pa n) := foldl_wf (fun _ _ hs => noteSource_wf hs) h

theorem partsTaken_wf {src : Nat} {l : List (Nat × Nat)} (h : Canonical s) : Canonical (partsTaken s src l) :=
  foldl_wf (fun _ _ hs => dramTaken_wf hs) h

end Sys2Proof.Machine
end

section
/-! PROOFS. The storage keeps its canonical form (O4): the second stage of translation. -/
namespace Sys2Proof.Machine

variable {s : Dev}

theorem ioInstall_wf {part ipa pa perm size : Nat} (h : Canonical s) : Canonical (ioInstall s part ipa pa perm size) := ite_wf h h.update

theorem ioTranslate_wf {part ipa : Nat} {write : Bool} (h : Canonical s) : Canonical (ioTranslate s part ipa write).2 := by
  unfold ioTranslate
  split
  · exact h
  · split
    · exact h
    · exact ioInstall_wf h

theorem ioRange_wf {part ipa n : Nat} {write : Bool} (h : Canonical s) : Canonical (ioRange s part ipa n write).2 := by
  unfold ioRange
  refine foldl_snd_wf (fun p b hs => ?_) h
  split
  · exact hs
  · split
    · next e =>
        have hs1 := snd_wf (ioTranslate_wf hs) e
        exact ite_snd_wf hs1 hs1
    · next e => exact snd_wf (ioTranslate_wf hs) e

theorem ioReadParts_wf {src : Nat} {l : List (Nat × Nat)} (h : Canonical s) : Canonical (ioReadParts s src l).2 :=
  foldl_snd_wf (fun _ _ hs => ioRead_wf hs) (partsTaken_wf h)

theorem ioWriteParts_wf {src part : Nat} {stash : Option Nat} {l : List (Nat × Nat)} {bs : List Byte} (h : Canonical s) :
    Canonical (ioWriteParts s src part stash l bs) := by
  refine foldl_snd_wf (fun x p hx => ?_) (partsTaken_wf h)
  dsimp only
  split
  · exact ioStashWrite_wf hx
  · exact ioWrite_wf hx

theorem tlbDropAll_wf {part : Nat} (h : Canonical s) : Canonical (tlbDropAll s part) := h.update

end Sys2Proof.Machine
end

section
/-! PROOFS. The storage keeps its canonical form (O4): translation of a thread's addresses. -/
namespace Sys2Proof.Machine

variable {s : Dev}

theorem setTlb_wf {core : Nat} {x : TlbSt} (h : Canonical s) : Canonical (setTlb s core x) := h.update

theorem tlbLookup_wf {t va : Nat} {k : AccKind} {sup : Bool} (h : Canonical s) : ∀ x ∈ tlbLookup s t va k sup, Canonical x.2 :=
  fun _ e => (tlbLookup_meta e).canonical h

theorem tableRead_wf {core line : Nat} (h : Canonical s) : BothCanonical (tableRead s core line) := by
  unfold tableRead
  extract_lets c hit
  have hhit : Canonical (hit s) := countCl_wf (cTouchLine_wf h)
  split
  · exact both_some hhit hhit
  · split
    · split
      · next e =>
        have hs : Canonical _ := ite_all (reinstall_wf h) (some_all h) _ e
        exact both_some hs hs
      · exact both_none (countCl_wf h)
    · exact toHome_wf h (fun _ hs => cohRead_wf (countCl_wf hs))

theorem readTables_wf {core : Nat} {ls : List Nat} (h : Canonical s) : BothCanonical (readTables core ls s) := by
  induction ls generalizing s with
  | nil =>
    rw [readTables]
    exact both_some h h
  | cons l ls ih =>
    rw [readTables]
    split
    · next e => exact ih ((tableRead_wf h).of_some e)
    · next e => exact both_none ((tableRead_wf h).of_none e)

theorem walkReads_wf {t va : Nat} (h : Canonical s) : BothCanonical (walkReads s t va) := readTables_wf h

theorem installWalk_wf {t : Nat} {k : AccKind} {w : WalkOut} (h : Canonical s) : Canonical (installWalk s t k w) := setTlb_wf h

theorem translateNow_wf {t va : Nat} {k : AccKind} {sup : Bool} (h : Canonical s) :
    ExceptAll (fun _ => True) (fun x => Canonical x.2) (translateNow s t va k sup) := by
  unfold translateNow
  split
  · trivial
  · split
    · next e => exact tlbLookup_wf h _ e
    · split
      · trivial
      · exact installWalk_wf (countCore_wf (walkReads_wf h).snd)

theorem tlbDrop_wf {part : Nat} {gone : TlbEnt → Bool} (h : Canonical s) : Canonical (tlbDrop s part gone) := h.update

end Sys2Proof.Machine
end

section
/-! PROOFS. The storage keeps its canonical form (O4): the entry of an exception. -/
namespace Sys2Proof.Machine

variable {s : Dev}

theorem flushPrefetch_wf {core : Nat} (h : Canonical s) : Canonical (flushPrefetch s core) := modCache_wf h

theorem setLevel_wf {t : Nat} {sup : Bool} (h : Canonical s) :
    Canonical (setLevel s t sup) := ite_wf (modThr_wf h) (flushPrefetch_wf (modThr_wf h))

theorem ownWhole_wf {core line : Nat} (h : Canonical s) : Canonical (ownWhole s core line) := by
  unfold ownWhole
  extract_lets +onlyGivenNames c
  split
  · split
    · exact h
    · extract_lets +onlyGivenNames s1 s2
      have h1 : Canonical s1 := by
        unfold s1
        split
        · exact invalidateHolders_wf h
        · exact h
      have h2 : Canonical s2 := foldl_wf (fun _ _ hs => ite_wf hs (dropL1_wf hs)) h1
      exact putDir_wf (cMod_wf (cMod_wf h2))
  · extract_lets +onlyGivenNames s1 s2
    have h1 : Canonical s1 := by
      unfold s1
      split
      · exact invalidateHolders_wf h
      · exact h
    have h2 : Canonical s2 := foldl_wf (fun _ _ hs => dropPrefetch_wf (dropL1_wf hs)) h1
    split
    · next s21 e1 =>
        have hs : Canonical s21 := installLine_wf h2 _ e1
        exact ite_wf (putDir_wf hs) hs
    · exact h2

theorem lineWrite_wf {core line : Nat} {f : Dev → Dev} (h : Canonical s) (h1 : ∀ s, Canonical s → Canonical (f s)) :
    Canonical (lineWrite s core line f) :=
  ite_wf (h1 _ (markDirtyLine_wf h)) (ite_wf (h1 _ (markDirtyLine_wf (dropL1_wf h))) (toDram_wf (h1 _ h)))

theorem putFrameWords_wf {pa : Nat} {ws : List QWord} (h : Canonical s) : Canonical (putFrameWords s pa ws) :=
  foldl_wf (fun _ _ hs => writeWord_wf _ _ _ hs) h

theorem pushFrame_wf {t sp : Nat} {emerg : Bool} {ws : List QWord} (h : Canonical s) :
    ExceptAll (fun x => Canonical x.2) Canonical (pushFrame s t sp emerg ws) := by
  have ht := translateNow_wf (t := t) (va := sp) (k := .store) (sup := true) h
  unfold pushFrame
  obtain ⟨translate, htranslate⟩ := exists_eq_self translateNow
  obtain ⟨place, hplace⟩ := exists_eq_self placeOf
  obtain ⟨target, htarget⟩ := exists_eq_self bankTarget
  rw [← htranslate] at ht ⊢
  rw [← hplace, ← htarget]
  split
  · exact h
  · next s1 e =>
    rw [e] at ht
    have hs1 : Canonical s1 := ht
    split
    · split
      · exact hs1
      · exact lineWrite_wf (ownWhole_wf hs1) (fun _ hs => putFrameWords_wf hs)
    · split
      · exact hs1
      · split
        · exact usePortOf_wf (putFrameWords_wf (countCore_wf hs1))
        · exact noteRefused_wf hs1
    · exact hs1

theorem readVector_wf {t va : Nat} (h : Canonical s) : ExceptAll (fun x => Canonical x.2) (fun x => Canonical x.2) (readVector s t va) := by
  have ht := translateNow_wf (t := t) (va := va) (k := .load) (sup := true) h
  unfold readVector
  extract_lets word
  have hword : ∀ s pa, Canonical s → ExceptAll (fun x => Canonical x.2) (fun x => Canonical x.2) (word s pa) := fun s pa hs => by
    unfold word
    split
    · exact hs
    · exact hs
  clear_value word
  obtain ⟨translate, htranslate⟩ := exists_eq_self translateNow
  obtain ⟨place, hplace⟩ := exists_eq_self placeOf
  obtain ⟨target, htarget⟩ := exists_eq_self bankTarget
  rw [← htranslate] at ht ⊢
  rw [← hplace, ← htarget]
  split
  · exact h
  · next s1 e =>
    rw [e] at ht
    have hs1 : Canonical s1 := ht
    split
    · exact hword _ _ hs1
    · split
      · exact hs1
      · extract_lets m
        split
        · exact noteRefused_wf hs1
        · exact hword _ _ (usePort_wf hs1)
        · extract_lets x s2
          have hx : Canonical x.2 := pairReadNote_wf hs1
          have hs2 : Canonical s2 := useAddr_wf (ite_wf (modThr_wf hx) hx)
          split
          · exact hs2
          · exact hs2
    · exact hs1

theorem fetchCheck_wf {t va : Nat} {sup : Bool} (h : Canonical s) : ExceptAll (fun _ => True) Canonical (fetchCheck s t va sup) := by
  have ht := translateNow_wf (t := t) (va := va) (k := .fetch) (sup := sup) h
  unfold fetchCheck
  obtain ⟨translate, htranslate⟩ := exists_eq_self translateNow
  rw [← htranslate] at ht ⊢
  split
  · trivial
  · next e =>
    rw [e] at ht
    split
    · exact ht
    · trivial

theorem noteFault_wf {t : Nat} {x : Option (Nat × Nat)} (h : Canonical s) : Canonical (noteFault s t x) := by
  unfold noteFault
  split
  · exact h
  · exact ite_wf (logLimited_wf (modThr_wf h)) (modThr_wf h)

theorem haltFault_wf {t v : Nat} (h : Canonical s) : Canonical (haltFault s t v) := raise_wf (logRec_wf (trcFlush_wf (modThr_wf h)))

theorem enterHandler_wf {t v : Nat} (h : Canonical s) :
    ExceptAll (fun x => Canonical x.2.2.2) (fun x => Canonical x.1) (enterHandler s t v) := by
  unfold enterHandler
  extract_lets s1 s2 va
  have hs2 : Canonical s2 := modThr_wf (setLevel_wf h)
  have hr := readVector_wf (t := t) (va := va) hs2
  clear_value s2 va
  obtain ⟨read, hread⟩ := exists_eq_self readVector
  obtain ⟨check, hcheck⟩ := exists_eq_self fetchCheck
  have hc : ∀ s va sup, Canonical s → ExceptAll (fun _ => True) Canonical (check s t va sup) := fun _ _ _ hs => hcheck ▸ fetchCheck_wf hs
  rw [← hread] at hr ⊢
  rw [← hcheck]
  split
  · next e =>
    rw [e] at hr
    exact hr
  · next s3 e =>
    rw [e] at hr
    extract_lets va1
    have hf := hc s3 va1 true hr
    clear_value va1
    split
    · exact hr
    · next e1 =>
      rw [e1] at hf
      exact hf

theorem trcException_wf {t v resume handler : Nat} (h : Canonical s) : Canonical (trcException s t v resume handler) :=
  ite_wf (ite_wf (ite_wf h (setTrcSrc_wf (trcSend_wf (trcFlush_wf h)))) (trcSend_wf (trcFlush_wf h))) h

theorem enter_wf {fuel t : Nat} {i : ExcInfo} {prev st : Nat} (h : Canonical s) : Canonical (enter fuel s t i prev st) := by
  induction fuel generalizing s i with
  | zero => exact haltFault_wf h
  | succ fuel ih =>
    rw [enter]
    have hs0 := noteFault_wf (t := t) (x := i.tfault) h
    split
    · exact haltFault_wf hs0
    · next v i1 sp em _ =>
      extract_lets overflow s1 s2
      have hs1 : Canonical s1 := modThr_wf hs0
      have hs2 : Canonical s2 := ite_wf (logLimited_wf hs1) hs1
      have hp := pushFrame_wf (t := t) (sp := sp) (emerg := em) (ws := frameWords v i1 prev st) hs2
      clear_value s2
      obtain ⟨push, hpush⟩ := exists_eq_self pushFrame
      obtain ⟨handler, hhandler⟩ := exists_eq_self enterHandler
      rw [← hpush] at hp ⊢
      rw [← hhandler]
      split
      · next e =>
        rw [e] at hp
        exact ite_wf (haltFault_wf hp) (ih hp)
      · next s3 e =>
        rw [e] at hp
        have he : ExceptAll (fun x => Canonical x.2.2.2) (fun x => Canonical x.1) (handler s3 t v) := hhandler ▸ enterHandler_wf hp
        split
        · next e1 =>
          rw [e1] at he
          exact ih he
        · next e1 =>
          rw [e1] at he
          exact trcException_wf (modThr_wf he)

theorem holdOthers_wf {t : Nat} (h : Canonical s) : Canonical (holdOthers s t) := modThr_wf h

theorem takeNow_wf {t : Nat} {i : ExcInfo} (h : Canonical s) : Canonical (takeNow s t i) := by
  unfold takeNow
  extract_lets +onlyGivenNames x s1 s2
  have h1 : Canonical s1 := enter_wf (countCore_wf h)
  have h2 : Canonical s2 := ite_wf (holdOthers_wf h1) h1
  exact ite_wf h2.update h2

theorem takeExc_wf {t : Nat} {i : ExcInfo} (h : Canonical s) : Canonical (takeExc s t i) := ite_wf (takeNow_wf h) (modThr_wf h)

theorem tryDeferred_wf {t : Nat} (h : Canonical s) : Canonical (tryDeferred s t) := by
  unfold tryDeferred
  extract_lets +onlyGivenNames x
  split
  · exact h
  · split
    · exact h
    · split
      · exact h
      · exact takeNow_wf (modThr_wf h)

theorem resumeExc_wf {t : Nat} (h : Canonical s) : Canonical (resumeExc s t) := by
  unfold resumeExc
  extract_lets +onlyGivenNames x
  split
  · exact h
  · split
    · exact tryDeferred_wf h
    · split
      · exact takeNow_wf h
      · exact h

theorem readFrame_wf {t : Nat} (h : Canonical s) : ExceptAll (fun x => Canonical x.2.2) (fun x => Canonical x.2) (readFrame s t) := by
  unfold readFrame
  obtain ⟨read, hread⟩ := exists_eq_self readVector
  have hr : ∀ s va, Canonical s → ExceptAll (fun x => Canonical x.2) (fun x => Canonical x.2)
      (read s t va) := fun _ _ hs => hread ▸ readVector_wf hs
  rw [← hread]
  refine foldl_keeps (fun acc i hacc => ?_) h
  split
  · exact hacc
  · next s1 =>
    have hv := hr s1 ((thr s1 t).ssp + 8 * i) hacc
    split
    · next e =>
      rw [e] at hv
      exact hv
    · next e =>
      rw [e] at hv
      exact hv

theorem restoreFrame_wf {t : Nat} {f : List Nat} (h : Canonical s) : Canonical (restoreFrame s t f) := modThr_wf (setLevel_wf h)

end Sys2Proof.Machine
end

section
/-! PROOFS. The storage keeps its canonical form (O4): accesses to registers. -/
namespace Sys2Proof.Machine

variable {s : Dev}

theorem lockDrop_wf {who : Agent} {b : BlockId} {e off : Nat} (h : Canonical s) : Canonical (lockDrop s who b e off) := by
  unfold lockDrop
  split
  · exact h
  · exact ite_wf h (logLimited_wf (fset_wf h))

theorem plainWrite_wf {who : Agent} {r : RegRef} {off : Nat} {v : Word} (h : Canonical s) : Canonical (plainWrite s who r off v) :=
  ite_wf (lockDrop_wf (setReg_wf h)) (setReg_wf h)

theorem writeField_wf {who : Agent} {b : BlockId} {e off : Nat} {f : Nat × Nat} {n : Nat} {act : Dev → Dev} (h : Canonical s)
    (h1 : ∀ s, Canonical s → Canonical (act s)) :
    Canonical (writeField s who b e off f n act) :=
  ite_wf (lockDrop_wf h) (h1 _ h)

theorem whenOn_wf {d : Nat} {f : Dev → Dev} (h : Canonical s) (h1 : ∀ s, Canonical s → Canonical (f s)) : Canonical (whenOn s d f) :=
  ite_wf (h1 _ h) h

theorem whenDone_wf {off : Nat} {done : Nat × Nat} {f : Dev → Dev} (h : ∀ s, Canonical s → Canonical (f s)) (h1 : Canonical s) :
    Canonical (whenDone off done f s) :=
  ite_wf (h _ h1) h1

end Sys2Proof.Machine
end

section
/-! PROOFS. The storage keeps its canonical form (O4): the issue of an instruction. -/
namespace Sys2Proof.Machine

variable {s : Dev}

theorem haltThread_wf {t : Nat} (h : Canonical s) : Canonical (haltThread s t) := trcFlush_wf (modThr_wf h)

theorem stepEnd_wf {t : Nat} (h : Canonical s) : Canonical (stepEnd s t) := by
  obtain ⟨hmem, htags, hpoison, -⟩ := stepEnd_storage s t
  exact h.of_fields hmem htags hpoison

theorem cmpTrigger_wf {l : List CmpSt} (h : Canonical s) : Canonical (cmpTrigger s l) := (cmpTrigger_meta _ _).canonical h

theorem dataHit_wf {t : Nat} {store : Bool} {va : Nat} (h : Canonical s) : Canonical (dataHit s t store va) :=
  ite_wf (haltThread_wf (cmpTrigger_wf h)) (cmpTrigger_wf h)

theorem waitWalk_wf {t : Nat} {w : WalkWait} (h : Canonical s) : Canonical (waitWalk s t w) := ite_wf h (modThr_wf h)

theorem fetchLine_wf {t line : Nat} (h : Canonical s) : ∀ x ∈ fetchLine s t line, Canonical x :=
  fun _ e => (fetchLine_meta e).canonical h

theorem waitFetch_wf {t line : Nat} (h : Canonical s) : Canonical (waitFetch s t line) := modCache_wf (noteMiss_wf h)

theorem annulSlot_wf {t n : Nat} (h : Canonical s) : Canonical (annulSlot s t n) := stepEnd_wf (modThr_wf (countCore_wf (countCore_wf h)))

theorem issue_wf {t : Nat} {srcs : List GReg} (h : Canonical s) : IssueCanonical (issue s t srcs) := by
  unfold issue
  extract_lets +onlyGivenNames x
  split
  · exact h
  · split
    · exact tryDeferred_wf h
    · split
      · exact annulSlot_wf h
      · split
        · exact h
        · split
          · exact waitWalk_wf h
          · next s1 e4 =>
              have hs : Canonical s1 := tlbLookup_wf h _ e4
              split
              · exact takeExc_wf hs
              · split
                · exact waitFetch_wf hs
                · next s3 e6 =>
                    have hs1 : Canonical s3 := fetchLine_wf hs _ e6
                    extract_lets +onlyGivenNames h' s2
                    have h2 : Canonical s2 := cmpTrigger_wf hs1
                    split
                    · exact haltThread_wf h2
                    · exact countCore_wf h2

theorem onInsn_wf {t : Nat} {srcs : List GReg} {f : Dev → Dev} (h : Canonical s) (h1 : ∀ s, Canonical s → Canonical (f s)) :
    Canonical (onInsn s t srcs f) := by
  unfold onInsn
  split
  · exact h
  · split
    · next e1 =>
        have hs := of_eq (issue_wf h) e1
        exact hs
    · next e1 =>
        have hs := of_eq (issue_wf h) e1
        exact h1 _ hs

theorem advance_wf {t : Nat} (h : Canonical s) : Canonical (advance s t) := stepEnd_wf (modThr_wf h)

theorem insnExc_wf {t v w : Nat} (h : Canonical s) : Canonical (insnExc s t v w) := takeExc_wf h

theorem illegal_wf {t w : Nat} (h : Canonical s) : Canonical (illegal s t w) := insnExc_wf h

theorem resultWith_wf {t w : Nat} {rd : GReg} {faddr : Nat} {before : Thread → Thread} {q : QWord} (h : Canonical s) :
    Canonical (resultWith s t w rd faddr before q) :=
  ite_wf (takeExc_wf h) (advance_wf (modThr_wf h))

theorem result_wf {t w : Nat} {rd : GReg} {q : QWord} (h : Canonical s) : Canonical (result s t w rd q) := resultWith_wf h

theorem interrupt_wf {t : Nat} (h : Canonical s) : Canonical (interrupt s t) := by
  unfold interrupt
  extract_lets +onlyGivenNames x
  split
  · exact h
  · split
    · exact tryDeferred_wf h
    · split
      · exact h
      · exact takeExc_wf (countCore_wf h.update)

end Sys2Proof.Machine
end

section
/-! PROOFS. The storage keeps its canonical form (O4): the integer and tag instructions. -/
namespace Sys2Proof.Machine

variable {s : Dev}

theorem aluRR_wf {s : State} {t : Thr} {w : Nat} {rd a b : GReg} {f : Word → Word → Word × Bool} (h : Canonical s.dev) :
    NextCanonical (aluRR s t w rd a b f) :=
  onDev_wf (onInsn_wf h (fun _ hs => result_wf hs))

theorem aluRI_wf {s : State} {t : Thr} {w : Nat} {rd a : GReg} {f : Word → Word} (h : Canonical s.dev) :
    NextCanonical (aluRI s t w rd a f) :=
  onDev_wf (onInsn_wf h (fun _ hs => result_wf hs))

theorem aluR_wf {s : State} {t : Thr} {w : Nat} {rd a : GReg} {f : Word → Word} (h : Canonical s.dev) : NextCanonical (aluR s t w rd a f) :=
  onDev_wf (onInsn_wf h (fun _ hs => result_wf hs))

theorem execAdd_wf {t : Thr} {rd rs1 rs2 : GReg} {s : State} (h : Canonical s.dev) : NextCanonical (execAdd t rd rs1 rs2 s) := aluRR_wf h

theorem execSub_wf {t : Thr} {rd rs1 rs2 : GReg} {s : State} (h : Canonical s.dev) : NextCanonical (execSub t rd rs1 rs2 s) := aluRR_wf h

theorem execAddc_wf {t : Thr} {rd rs1 rs2 : GReg} {s : State} (h : Canonical s.dev) : NextCanonical (execAddc t rd rs1 rs2 s) := aluRR_wf h

theorem execSubc_wf {t : Thr} {rd rs1 rs2 : GReg} {s : State} (h : Canonical s.dev) : NextCanonical (execSubc t rd rs1 rs2 s) := aluRR_wf h

theorem execAnd_wf {t : Thr} {rd rs1 rs2 : GReg} {s : State} (h : Canonical s.dev) : NextCanonical (execAnd t rd rs1 rs2 s) := aluRR_wf h

theorem execOr_wf {t : Thr} {rd rs1 rs2 : GReg} {s : State} (h : Canonical s.dev) : NextCanonical (execOr t rd rs1 rs2 s) := aluRR_wf h

theorem execXor_wf {t : Thr} {rd rs1 rs2 : GReg} {s : State} (h : Canonical s.dev) : NextCanonical (execXor t rd rs1 rs2 s) := aluRR_wf h

theorem execAndn_wf {t : Thr} {rd rs1 rs2 : GReg} {s : State} (h : Canonical s.dev) : NextCanonical (execAndn t rd rs1 rs2 s) := aluRR_wf h

theorem execShl_wf {t : Thr} {rd rs1 rs2 : GReg} {s : State} (h : Canonical s.dev) : NextCanonical (execShl t rd rs1 rs2 s) := aluRR_wf h

theorem execShr_wf {t : Thr} {rd rs1 rs2 : GReg} {s : State} (h : Canonical s.dev) : NextCanonical (execShr t rd rs1 rs2 s) := aluRR_wf h

theorem execShra_wf {t : Thr} {rd rs1 rs2 : GReg} {s : State} (h : Canonical s.dev) : NextCanonical (execShra t rd rs1 rs2 s) := aluRR_wf h

theorem execLess_wf {t : Thr} {rd rs1 rs2 : GReg} {s : State} (h : Canonical s.dev) : NextCanonical (execLess t rd rs1 rs2 s) := aluRR_wf h

theorem execLessu_wf {t : Thr} {rd rs1 rs2 : GReg} {s : State} (h : Canonical s.dev) :
    NextCanonical (execLessu t rd rs1 rs2 s) := aluRR_wf h

theorem execSame_wf {t : Thr} {rd rs1 rs2 : GReg} {s : State} (h : Canonical s.dev) : NextCanonical (execSame t rd rs1 rs2 s) := aluRR_wf h

theorem execMin_wf {t : Thr} {rd rs1 rs2 : GReg} {s : State} (h : Canonical s.dev) : NextCanonical (execMin t rd rs1 rs2 s) := aluRR_wf h

theorem execMax_wf {t : Thr} {rd rs1 rs2 : GReg} {s : State} (h : Canonical s.dev) : NextCanonical (execMax t rd rs1 rs2 s) := aluRR_wf h

theorem execMul_wf {t : Thr} {rd rs1 rs2 : GReg} {s : State} (h : Canonical s.dev) : NextCanonical (execMul t rd rs1 rs2 s) := aluRR_wf h

theorem execMulhi_wf {t : Thr} {rd rs1 rs2 : GReg} {s : State} (h : Canonical s.dev) :
    NextCanonical (execMulhi t rd rs1 rs2 s) := aluRR_wf h

theorem execMulhiu_wf {t : Thr} {rd rs1 rs2 : GReg} {s : State} (h : Canonical s.dev) :
    NextCanonical (execMulhiu t rd rs1 rs2 s) := aluRR_wf h

theorem execMulc_wf {t : Thr} {rd rs1 rs2 : GReg} {s : State} (h : Canonical s.dev) : NextCanonical (execMulc t rd rs1 rs2 s) := aluRR_wf h

theorem execQuot_wf {t : Thr} {rd rs1 rs2 : GReg} {s : State} (h : Canonical s.dev) : NextCanonical (execQuot t rd rs1 rs2 s) := aluRR_wf h

theorem execQuotu_wf {t : Thr} {rd rs1 rs2 : GReg} {s : State} (h : Canonical s.dev) :
    NextCanonical (execQuotu t rd rs1 rs2 s) := aluRR_wf h

theorem execRmdr_wf {t : Thr} {rd rs1 rs2 : GReg} {s : State} (h : Canonical s.dev) : NextCanonical (execRmdr t rd rs1 rs2 s) := aluRR_wf h

theorem execRmdru_wf {t : Thr} {rd rs1 rs2 : GReg} {s : State} (h : Canonical s.dev) :
    NextCanonical (execRmdru t rd rs1 rs2 s) := aluRR_wf h

theorem execClz_wf {t : Thr} {rd rs1 : GReg} {s : State} (h : Canonical s.dev) : NextCanonical (execClz t rd rs1 s) := aluR_wf h

theorem execPopc_wf {t : Thr} {rd rs1 : GReg} {s : State} (h : Canonical s.dev) : NextCanonical (execPopc t rd rs1 s) := aluR_wf h

theorem execMov_wf {t : Thr} {rd rs1 : GReg} {s : State} (h : Canonical s.dev) : NextCanonical (execMov t rd rs1 s) :=
  onDev_wf (onInsn_wf h (fun _ hs => result_wf hs))

theorem execSel_wf {t : Thr} {rd rs1 rs2 rs3 : GReg} {s : State} (h : Canonical s.dev) : NextCanonical (execSel t rd rs1 rs2 rs3 s) :=
  onDev_wf (onInsn_wf h (fun _ hs => result_wf hs))

theorem execAddi_wf {t : Thr} {rd rs1 : GReg} {imm : BitVec 14} {s : State} (h : Canonical s.dev) :
    NextCanonical (execAddi t rd rs1 imm s) :=
  aluRI_wf h

theorem execAndi_wf {t : Thr} {rd rs1 : GReg} {imm : BitVec 14} {s : State} (h : Canonical s.dev) :
    NextCanonical (execAndi t rd rs1 imm s) :=
  aluRI_wf h

theorem execOri_wf {t : Thr} {rd rs1 : GReg} {imm : BitVec 14} {s : State} (h : Canonical s.dev) : NextCanonical (execOri t rd rs1 imm s) :=
  aluRI_wf h

theorem execXori_wf {t : Thr} {rd rs1 : GReg} {imm : BitVec 14} {s : State} (h : Canonical s.dev) :
    NextCanonical (execXori t rd rs1 imm s) :=
  aluRI_wf h

theorem execLessi_wf {t : Thr} {rd rs1 : GReg} {imm : BitVec 14} {s : State} (h : Canonical s.dev) :
    NextCanonical (execLessi t rd rs1 imm s) :=
  aluRI_wf h

theorem execLessui_wf {t : Thr} {rd rs1 : GReg} {imm : BitVec 14} {s : State} (h : Canonical s.dev) :
    NextCanonical (execLessui t rd rs1 imm s) :=
  aluRI_wf h

theorem execShli_wf {t : Thr} {rd rs1 : GReg} {sh : Fin 64} {s : State} (h : Canonical s.dev) :
    NextCanonical (execShli t rd rs1 sh s) := aluRI_wf h

theorem execShri_wf {t : Thr} {rd rs1 : GReg} {sh : Fin 64} {s : State} (h : Canonical s.dev) :
    NextCanonical (execShri t rd rs1 sh s) := aluRI_wf h

theorem execShrai_wf {t : Thr} {rd rs1 : GReg} {sh : Fin 64} {s : State} (h : Canonical s.dev) :
    NextCanonical (execShrai t rd rs1 sh s) := aluRI_wf h

theorem execLih_wf {t : Thr} {rd : GReg} {imm : BitVec 20} {s : State} (h : Canonical s.dev) : NextCanonical (execLih t rd imm s) :=
  onDev_wf (onInsn_wf h (fun _ hs => result_wf hs))

theorem execLix_wf {t : Thr} {rd : GReg} {imm : BitVec 20} {s : State} (h : Canonical s.dev) :
    NextCanonical (execLix t rd imm s) := aluRI_wf h

theorem execQget_wf {t : Thr} {rd rs1 : GReg} {s : State} (h : Canonical s.dev) : NextCanonical (execQget t rd rs1 s) :=
  onDev_wf (onInsn_wf h (fun _ hs => result_wf hs))

theorem execQset_wf {t : Thr} {rd rs1 rs2 : GReg} {s : State} (h : Canonical s.dev) : NextCanonical (execQset t rd rs1 rs2 s) :=
  onDev_wf (onInsn_wf h (fun _ hs => result_wf hs))

theorem execQmin_wf {t : Thr} {rd rs1 rs2 : GReg} {s : State} (h : Canonical s.dev) : NextCanonical (execQmin t rd rs1 rs2 s) :=
  onDev_wf (onInsn_wf h (fun _ hs => result_wf hs))

theorem execQseti_wf {t : Thr} {rd rs1 : GReg} {tag : Byte} {s : State} (h : Canonical s.dev) : NextCanonical (execQseti t rd rs1 tag s) :=
  onDev_wf (onInsn_wf h (fun _ hs => result_wf hs))

theorem execQtest_wf {t : Thr} {rd rs1 : GReg} {mask : BitVec 4} {s : State} (h : Canonical s.dev) :
    NextCanonical (execQtest t rd rs1 mask s) :=
  onDev_wf (onInsn_wf h (fun _ hs => result_wf hs))

theorem execQmode_wf {t : Thr} {rd : GReg} {mode : Fin 4} {s : State} (h : Canonical s.dev) : NextCanonical (execQmode t rd mode s) :=
  onDev_wf (onInsn_wf h (fun _ hs => ite_wf (illegal_wf hs) (advance_wf (modThr_wf hs))))

end Sys2Proof.Machine
end

section
/-! PROOFS. The storage keeps its canonical form (O4): cycle classes. -/
namespace Sys2Proof.Machine

variable {s : Dev}

theorem fetchDesc_wf {k b w : Nat} (h : Canonical s) : Canonical (fetchDesc s k b w).2 := by
  unfold fetchDesc
  split
  · exact h
  · split
    · exact h
    · split
      · next e2 => exact snd_wf (masterReadWord_wf h) e2
      · next e2 => exact snd_wf (masterReadWord_wf h) e2

theorem descError_wf {c : Nat} (h : Canonical s) : Canonical (descError s c) := fset_wf (fincSat_wf h)

theorem scatterWrite_wf {k r word : Nat} {q : QWord} {lines : List Nat} (h : Canonical s) :
    Canonical (scatterWrite s k r word q lines).1 := by
  unfold scatterWrite
  split
  · exact countImg_wf (usePort_wf (pairWriteOf_wf h))
  · exact refusePair_wf h

theorem scatterDesc_wf {k r c : Nat} {job : ScatterJob} {lines : List Nat} {d : Word} {x : ScatRun} (h : Canonical x.dev) :
    Canonical (scatterDesc k r c job lines d x).dev := by
  unfold scatterDesc
  extract_lets +onlyGivenNames n x'
  have hx' : Canonical x'.dev := h
  split
  · split
    · exact scatterWrite_wf (descError_wf hx')
    · exact scatterWrite_wf hx'
  · split
    · exact hx'
    · split
      · exact hx'
      · exact descError_wf hx'
  · exact hx'
  · exact scatterWrite_wf hx'
  · exact hx'
  · exact descError_wf hx'

theorem scatterList_wf {k r c b : Nat} {job : ScatterJob} {lines : List Nat} {n fuel w : Nat} {x : ScatRun} (h : Canonical x.dev) :
    Canonical (scatterList k r c b job lines n fuel w x).dev := by
  induction n generalizing fuel w x with
  | zero =>
    rw [scatterList]
    exact h
  | succ n ih =>
    cases fuel with
    | zero =>
      rw [scatterList]
      · exact descError_wf h
      · simp
    | succ fuel =>
      rw [scatterList]
      split
      · next e => exact descError_wf (snd_wf (fetchDesc_wf h) e)
      · next e =>
        extract_lets y
        have hy : Canonical y.dev := scatterDesc_wf (snd_wf (fetchDesc_wf h) e)
        split
        · exact hy
        · exact ih hy

theorem scatterRun_wf {k : Nat} {job : ScatterJob} {n : Nat} {lines : List Nat} (h : Canonical s) :
    Canonical (scatterRun s k job n lines).dev :=
  scatterList_wf h

theorem scatterPart_wf {k : Nat} {job : ScatterJob} {n : Nat} (h : Canonical s) : Canonical (scatterPart s k job n).dev := scatterRun_wf h

theorem setScatterQueue_wf {k : Nat} {l : List ScatterJob} (h : Canonical s) : Canonical (setScatterQueue s k l) := h.update

theorem refuseUncredited_wf {k : Nat} (h : Canonical s) : Canonical (refuseUncredited s k) := ite_wf h (setScatterQueue_wf h)

theorem scatterCredits_wf {fuel k : Nat} (h : Canonical s) : Canonical (scatterCredits fuel s k) := by
  induction fuel generalizing s k with
  | zero =>
    rw [scatterCredits]
    exact h
  | succ fuel ih =>
    rw [scatterCredits]
    split
    · exact h
    · exact ite_wf (ih (setScatterQueue_wf (takeCredit_wf h))) (stallOn_wf h)

theorem enqueueScatter_wf {k : Nat} {job : ScatterJob} (h : Canonical s) : Canonical (enqueueScatter s k job) := by
  unfold enqueueScatter
  split
  · exact h
  · extract_lets +onlyGivenNames s1 ok s2
    have h1 : Canonical s1 := scatterCredits_wf h
    have h2 : Canonical s2 := setScatterQueue_wf h1
    exact ite_wf (takeCredit_wf h2) (countImg_wf (stallOn_wf h2))

theorem scatterNext_wf {k at_ n : Nat} (h : Canonical s) : Canonical (scatterNext s k at_ n) := by
  unfold scatterNext
  extract_lets +onlyGivenNames s0
  have h0 : Canonical s0 := scatterCredits_wf (refuseUncredited_wf h)
  split
  · exact h0
  · split
    · exact h0
    · exact engineAct_wf h0 (fun _ hs => ite_wf (fmax_wf (scatterCredits_wf
          (giveCredit_wf (setScatterQueue_wf (scatterPart_wf (advanceTo_wf hs)))))) (setScatterQueue_wf (scatterPart_wf (advanceTo_wf hs))))

theorem acceptCyclic_wf {i : Nat} {fr : List Byte} {ts : Nat} {filled : Bool} (h : Canonical s) :
    Canonical (acceptCyclic s i fr ts filled) :=
  enqueueScatter_wf (ite_wf (fincSat_wf h) (setCls_wf h))

theorem cyclicFrame_wf {i : Nat} {fr : List Byte} {ts : Nat} (h : Canonical s) : Canonical (cyclicFrame s i fr ts) := by
  unfold cyclicFrame
  extract_lets +onlyGivenNames c
  split
  · exact h
  · exact trcStream_wf (acceptCyclic_wf h)
  · exact trcStream_wf (fincSat_wf h)
  · exact trcStream_wf (fincSat_wf h)
  · exact trcStream_wf (fincSat_wf h)

theorem closeSpan_wf {c : Nat} {x : GathRun} (h : Canonical x.dev) : Canonical (closeSpan c x).dev := by
  unfold closeSpan
  split
  · exact h
  · extract_lets +onlyGivenNames tag
    split
    · exact h
    · exact descError_wf h

theorem spanField_wf {c : Nat} {tag : Byte} {err : Bool} {x : GathRun} (h : Canonical x.dev) : Canonical (spanField c tag err x).dev := by
  unfold spanField
  split
  · exact h
  · extract_lets +onlyGivenNames sp1 y
    have hy : Canonical y.dev := h
    split
    · exact closeSpan_wf hy
    · exact hy

theorem gatherWord_wf {k r word : Nat} (h : Canonical s) : Canonical (gatherWord s k r word).2 :=
  ite_snd_wf (countImg_wf (useAddr_wf (pairReadNote_wf h))) (refusePair_wf h)

theorem gatherError_wf {c : Nat} {x : GathRun} (h : Canonical x.dev) : Canonical (gatherError c x).dev := descError_wf h

theorem gatherDesc_wf {k r c : Nat} {d : Word} {x : GathRun} (h : Canonical x.dev) : Canonical (gatherDesc k r c d x).dev := by
  unfold gatherDesc
  extract_lets +onlyGivenNames n x'
  have hx' : Canonical x'.dev := h
  split
  · extract_lets +onlyGivenNames t
    split
    · exact spanField_wf (descError_wf hx')
    · exact spanField_wf (gatherWord_wf hx')
  · exact closeSpan_wf hx'
  · exact hx'
  · split
    · exact hx'
    · exact gatherError_wf hx'
  · split
    · exact hx'
    · exact gatherError_wf hx'
  · exact closeSpan_wf hx'
  · exact closeSpan_wf (descError_wf hx')

theorem gatherList_wf {k r c b fuel w : Nat} {x : GathRun} (h : Canonical x.dev) : Canonical (gatherList k r c b fuel w x).dev := by
  induction fuel generalizing w x with
  | zero =>
    rw [gatherList]
    exact closeSpan_wf (descError_wf h)
  | succ fuel ih =>
    rw [gatherList]
    split
    · next e => exact closeSpan_wf (descError_wf (snd_wf (fetchDesc_wf h) e))
    · next e =>
        have hs := snd_wf (fetchDesc_wf h) e
        extract_lets +onlyGivenNames y
        have hy : Canonical y.dev := by
          unfold y
          exact gatherDesc_wf hs
        split
        · exact hy
        · exact ih hy

theorem fetchTemplate_wf {k b n w : Nat} (h : Canonical s) : Canonical (fetchTemplate k b n w s).2 := by
  induction n generalizing w s with
  | zero =>
    rw [fetchTemplate]
    exact h
  | succ n ih =>
    rw [fetchTemplate]
    split
    · next e => exact snd_wf (fetchDesc_wf h) e
    · next e =>
        have hs := snd_wf (fetchDesc_wf h) e
        split
        · next e1 => exact snd_wf (ih hs) e1
        · next e1 => exact snd_wf (ih hs) e1

theorem buildFrame_wf {k : Nat} {e : Word} (h : Canonical s) : Canonical (buildFrame s k e).2.2 := by
  unfold buildFrame
  extract_lets +onlyGivenNames c b tlen t
  split
  · next e1 => exact descError_wf (snd_wf (fetchTemplate_wf h) e1)
  · next e1 => exact gatherList_wf (snd_wf (fetchTemplate_wf h) e1)

theorem setGatherRuns_wf {k : Nat} {l : List GatherRun} (h : Canonical s) : Canonical (setGatherRuns s k l) := h.update

theorem setBuilt_wf {k : Nat} {l : List BuiltFrame} (h : Canonical s) : Canonical (setBuilt s k l) := h.update

theorem actGather_wf {c : Nat} {e : PrickEntry} (h : Canonical s) : Canonical (actGather s c e) :=
  foldl_wf (fun _ _ hs => ite_wf hs (setGatherRuns_wf hs)) h

theorem gatherStream_wf {k c : Nat} (h : Canonical s) : Canonical (gatherStream s k c) := by
  unfold gatherStream
  split
  · exact h
  · split
    · exact h
    · extract_lets +onlyGivenNames e'
      split
      · exact countImg_wf (stallOn_wf h)
      · refine engineAct_wf h (fun s hs => ?_)
        extract_lets +onlyGivenNames b cost s1
        have hb : Canonical b.2.2 := by
          unfold b
          exact buildFrame_wf hs
        have h1 : Canonical s1 := setGatherRuns_wf hb
        split
        · exact h1
        · exact setBuilt_wf (takeCredit_wf h1)

theorem releaseThread_wf {t entry c : Nat} (h : Canonical s) :
    Canonical (releaseThread s t entry c) := interrupt_wf (trcTarget_wf (modThr_wf h))

theorem skipRelease_wf {c i : Nat} (h : Canonical s) : Canonical (skipRelease s c i) := logRec_wf (fset_wf (fincSat_wf h))

theorem actRelease_wf {c mask : Nat} (h : Canonical s) : Canonical (actRelease s c mask) :=
  foldl_wf (fun _ _ hs => ite_wf (ite_wf (modThr_wf hs) (ite_wf (releaseThread_wf hs) (skipRelease_wf hs))) hs) h

theorem cycleEnd_wf {t : Nat} (h : Canonical s) :
    Canonical (cycleEnd s t) := ite_wf (trcFlush_wf (ite_wf (fmax_wf (modThr_wf h)) (modThr_wf h))) h

theorem limitRate_wf (h : Canonical s) : Canonical (limitRate s) := h.update

theorem classEnable_wf {c : Nat} (h : Canonical s) : Canonical (classEnable s c) :=
  ite_wf (fset_wf h) (ite_wf h (ite_wf (setCls_wf (limitRate_wf (fset_wf (fset_wf (fset_wf h))))) (fset_wf h)))

theorem classDisable_wf {c : Nat} (h : Canonical s) :
    Canonical (classDisable s c) := ite_wf (ite_wf (fset_wf (fset_wf h)) (setCls_wf (fset_wf h))) h

theorem cycTblRead_wf {table i : Nat} (h : Canonical s) : Canonical (cycTblRead s table i) := by
  unfold cycTblRead
  extract_lets +onlyGivenNames s0
  have h0 : Canonical s0 := fset_wf (fset_wf (fset_wf h))
  exact ite_wf (fset_wf h0) (ite_wf (setReg_wf (setReg_wf h0)) (setReg_wf h0))

theorem putCyc_wf {table i : Nat} {v : Word} (h : Canonical s) : Canonical (putCyc s table i v) := by
  unfold putCyc
  extract_lets +onlyGivenNames p
  split
  · exact h.update
  · exact h.update
  · exact h.update
  · exact h.update
  · exact h.update
  · exact h.update
  · exact h.update

theorem applyStream_wf {table i : Nat} (h : Canonical s) : Canonical (applyStream s table i) := ite_wf h.update h.update

theorem applyPending_wf {c : Nat} (h : Canonical s) : Canonical (applyPending s c) :=
  foldl_wf (fun _ _ hs => applyStream_wf hs) (foldl_wf (fun _ _ hs => applyStream_wf hs) h)

theorem cycPut_wf {table i : Nat} {v : Word} {twinOk : Bool} (h : Canonical s) : Canonical (cycPut s table i v twinOk) := by
  unfold cycPut
  extract_lets +onlyGivenNames en
  split
  · exact fset_wf h
  · split
    · exact ite_wf (fset_wf h) (putCyc_wf h)
    · exact ite_wf (fset_wf h) (putCyc_wf h)
    · exact ite_wf (fset_wf h) (ite_wf h (ite_wf (putCyc_wf h) (applyStream_wf (putCyc_wf h))))
    · split
      · exact fset_wf h
      · extract_lets +onlyGivenNames old cs s1 checks
        have h1 : Canonical s1 := putCyc_wf h
        split
        · exact fset_wf h
        · exact ite_wf (foldl_wf (fun _ _ hs => fset_wf hs) h1) (applyStream_wf (foldl_wf (fun _ _ hs => fset_wf hs) h1))
    · exact putCyc_wf h

theorem cycTblWrite_wf {table i : Nat} {twinOk : Bool} (h : Canonical s) : Canonical (cycTblWrite s table i twinOk) :=
  cycPut_wf (fset_wf (fset_wf (fset_wf h)))

theorem readCycTime_wf (h : Canonical s) : Canonical (readCycTime s) := (fset_wf h).update

theorem holdover_wf (h : Canonical s) : Canonical (holdover s) := ite_wf (logRec_wf (fset_wf h)) h

theorem cutCycle_wf {c : Nat} (h : Canonical s) : Canonical (cutCycle s c) := by
  unfold cutCycle
  extract_lets
  split
  · exact foldl_wf (fun _ _ hs => setGatherRuns_wf hs) (foldl_wf
        (fun _ _ hs => foldl_wf (fun _ _ hs1 => trcStream_wf (logRec_wf (giveCredit_wf (fincSat_wf hs1)))) (setScatterQueue_wf hs)) h)
  · exact logRec_wf (fincSat_wf (foldl_wf (fun _ _ hs => setGatherRuns_wf hs)
        (foldl_wf (fun _ _ hs => foldl_wf (fun _ _ hs1 => trcStream_wf (logRec_wf (giveCredit_wf (fincSat_wf hs1))))
            (setScatterQueue_wf hs)) h)))

theorem endAbandons_wf {c ended : Nat} (h : Canonical s) : Canonical (endAbandons s c ended) :=
  foldl_wf (fun _ _ hs => foldl_wf (fun _ _ hs1 => logRec_wf hs1) (setImg_wf hs)) h

end Sys2Proof.Machine
end

section
/-! PROOFS. The storage keeps its canonical form (O4): the PCIe roots. -/
namespace Sys2Proof.Machine

variable {s : Dev}

theorem setRoot_wf {r : Nat} {x : RootSt} (h : Canonical s) : Canonical (setRoot s r x) := h.update

theorem modRoot_wf {r : Nat} {f : RootSt → RootSt} (h : Canonical s) : Canonical (modRoot s r f) := setRoot_wf h

theorem setCfg_wf {r o : Nat} {b : Byte} (h : Canonical s) : Canonical (setCfg s r o b) := modRoot_wf h

theorem cfgStore_wf {r o : Nat} {b : Byte} (h : Canonical s) : Canonical (cfgStore s r o b) := setCfg_wf h

theorem cfgStores_wf {r o : Nat} {bs : List Byte} (h : Canonical s) :
    Canonical (cfgStores s r o bs) := foldl_wf (fun _ _ hs => cfgStore_wf hs) h

theorem cfgRaise_wf {r o v : Nat} (h : Canonical s) : Canonical (cfgRaise s r o v) := setCfg_wf h

theorem logAer_wf {r b : Nat} (h : Canonical s) : Canonical (logAer s r b) :=
  ite_wf (cfgRaise_wf (cfgRaise_wf h)) (cfgRaise_wf (cfgRaise_wf (cfgRaise_wf h)))

theorem unsupported_wf {r : Nat} (h : Canonical s) : Canonical (unsupported s r) := modRoot_wf (logAer_wf h)

theorem malformed_wf {r : Nat} (h : Canonical s) : Canonical (malformed s r) := modRoot_wf (logAer_wf h)

theorem inboundParts_wf {part : Nat} {write : Bool} {ps : List (Nat × Nat)} (h : Canonical s) :
    Canonical (inboundParts s part write ps).2 := by
  induction ps generalizing s with
  | nil =>
    rw [inboundParts]
    exact h
  | cons x ps ih =>
    rw [inboundParts]
    split
    · next e => exact snd_wf (ioTranslate_wf h) e
    · next e =>
        have hs := snd_wf (ioTranslate_wf h) e
        split
        · next e1 => exact snd_wf (ih hs) e1
        · next e1 => exact snd_wf (ih hs) e1

theorem bankRead_wf {code n a : Nat} (h : Canonical s) : Canonical (bankRead s code n a).2 := by
  induction n generalizing s a with
  | zero =>
    rw [bankRead]
    exact h
  | succ n ih =>
    rw [bankRead]
    split
    · next e => exact snd_wf (masterReadWord_wf h) e
    · next e =>
        have hs := snd_wf (masterReadWord_wf h) e
        split
        · next e1 => exact snd_wf (ih hs) e1
        · next e1 => exact snd_wf (ih hs) e1

theorem inboundRead_wf {part pa n : Nat} (h : Canonical s) : Canonical (inboundRead s part pa n).2 := by
  unfold inboundRead
  split
  · exact ioRead_wf h
  · split
    · exact h
    · split
      · next e2 => exact snd_wf (bankRead_wf h) e2
      · next e2 => exact snd_wf (bankRead_wf h) e2

theorem pairUntagged_wf {part k r w off : Nat} {bs : List Byte} (h : Canonical s) : Canonical (pairUntagged part k r s w off bs) :=
  ite_wf (pairForeign_wf h) (usePort_wf (pairForeign_wf h))

theorem bankWrite_wf {part : Nat} {es : List (Nat × List Byte)} (h : Canonical s) : Canonical (bankWrite part es s).2 := by
  induction es generalizing s with
  | nil =>
    rw [bankWrite]
    exact h
  | cons x es ih =>
    rw [bankWrite]
    split
    · exact h
    · split
      · exact h
      · split
        · exact ih (noteRefused_wf h)
        · exact ih (usePortOf_wf (writeUntagged_wf _ _ _ h))
        · exact ih (pairUntagged_wf h)

theorem inboundWrite_wf {part pa : Nat} {bs : List Byte} (h : Canonical s) : Canonical (inboundWrite s part pa bs).2 :=
  ite_snd_wf (ioWrite_wf h) (ite_snd_wf (bankWrite_wf h) h)

theorem partTaken_wf {p : Nat × Nat} (h : Canonical s) : Canonical (partTaken s p) := ite_wf (dramTaken_wf h) h

/-- The values that a recursion over a list has for the tails of the list. -/
abbrev Below (α γ : Type) (l : List α) : Type := List.below (motive := fun _ => γ) l

/-- The value for the next tail has a property. -/
def TailHas {α γ : Type} (Q : γ → Prop) : (l : List α) → Below α γ l → Prop
  | [], _ => True
  | _ :: _, g => Q g.1

/-- What every step of a recursion over a list keeps, the recursion has. -/
theorem brecOn_has {α γ : Type} {Q : γ → Prop} {F : (l : List α) → Below α γ l → γ} (hF : ∀ l g, TailHas Q l g → Q (F l g)) (l : List α) :
    Q (List.brecOn (motive := fun _ => γ) l F) := by
  induction l with
  | nil => exact hF [] _ trivial
  | cons x l ih => exact hF (x :: l) _ ih

/-- One step of the recursion. The read of a part is taken as an unknown function: its addresses are too large for the kernel to evaluate. -/
theorem inboundReads_step {part : Nat} (hr : ∀ {s part a n}, Canonical s → Canonical (inboundRead s part a n).2) :
    ∀ l g, TailHas (fun f => ∀ s, Canonical s → Canonical (f s).2) l g → ∀ s, Canonical s → Canonical (inboundReads._f part l g s).2 := by
  delta inboundReads._f
  obtain ⟨read, hread⟩ := exists_eq_self inboundRead
  rw [← hread] at hr ⊢
  intro l g ih s h
  cases l with
  | nil => exact h
  | cons p ps =>
    have hs := hr (part := part) (a := p.1) (n := p.2) h
    dsimp only
    split
    · next e => exact snd_wf hs e
    · next e =>
      have hs1 := snd_wf hs e
      split
      · next e1 => exact snd_wf (ih _ hs1) e1
      · next e1 => exact snd_wf (ih _ hs1) e1

theorem inboundReads_wf {part : Nat} {ps : List (Nat × Nat)} (h : Canonical s) : Canonical (inboundReads part ps s).2 := by
  delta inboundReads
  have hall := brecOn_has (inboundReads_step (part := part) inboundRead_wf) ps
  exact hall s h

/-- One step of the recursion, with the write of a part as an unknown function. -/
theorem inboundWrites_step {part : Nat} (hw : ∀ {s part a bs}, Canonical s → Canonical (inboundWrite s part a bs).2) :
    ∀ l g, TailHas (fun f => ∀ bs s, Canonical s → Canonical (f bs s).2) l g →
      ∀ bs s, Canonical s → Canonical (inboundWrites._f part l g bs s).2 := by
  delta inboundWrites._f
  obtain ⟨write, hwrite⟩ := exists_eq_self inboundWrite
  rw [← hwrite] at hw ⊢
  intro l g ih bs s h
  cases l with
  | nil => exact h
  | cons p ps =>
    have hs := hw (part := part) (a := p.1) (bs := bs.take p.2) h
    dsimp only
    split
    · next e => exact snd_wf hs e
    · next e => exact ih _ _ (snd_wf hs e)

theorem inboundWrites_wf {part : Nat} {ps : List (Nat × Nat)} {bs : List Byte} (h : Canonical s) :
    Canonical (inboundWrites part ps bs s).2 := by
  delta inboundWrites
  have hall := brecOn_has (inboundWrites_step (part := part) inboundWrite_wf) ps
  exact hall bs s h

theorem inbound_wf {r : Nat} {write : Bool} {addr n : Nat} {data : List Byte} (h : Canonical s) :
    Canonical (inbound s r write addr n data) := by
  unfold inbound
  refine ite_wf h (ite_wf (malformed_wf h) (ite_wf (ite_wf (raise_wf (modRoot_wf h)) (unsupported_wf h)) (ite_wf (unsupported_wf h) ?_)))
  extract_lets +onlyGivenNames part
  split
  · next e => exact unsupported_wf (snd_wf (inboundParts_wf h) e)
  · next e =>
    refine engineAct_wf (snd_wf (inboundParts_wf h) e) (fun s hs => ?_)
    extract_lets +onlyGivenNames s1
    have hs1 : Canonical s1 := foldl_wf (fun _ _ hs => partTaken_wf hs) hs
    split
    · split
      · next e1 => exact unsupported_wf (snd_wf (inboundWrites_wf hs1) e1)
      · next e1 => exact modRoot_wf (snd_wf (inboundWrites_wf hs1) e1)
    · split
      · next e1 => exact unsupported_wf (snd_wf (inboundReads_wf hs1) e1)
      · next e1 => exact modRoot_wf (snd_wf (inboundReads_wf hs1) e1)

theorem failRoot_wf {e : Nat × Acc} (h : Canonical s) : Canonical (failRoot s e) := failAcc_wf h

theorem completionTimeout_wf {r : Nat} (h : Canonical s) : Canonical (completionTimeout s r) := by
  unfold completionTimeout
  split
  · exact h
  · exact failRoot_wf h

theorem rootDown_wf {r : Nat} (h : Canonical s) : Canonical (rootDown s r) :=
  ite_wf (logRec_wf (foldl_wf (fun _ _ hs => failRoot_wf hs) (modRoot_wf h))) h

theorem rootUp_wf {r : Nat} (h : Canonical s) : Canonical (rootUp s r) := ite_wf (modRoot_wf h) h

theorem perstRelease_wf {r : Nat} (h : Canonical s) : Canonical (perstRelease s r) := ite_wf (modRoot_wf (advanceOp_wf h)) h

end Sys2Proof.Machine
end

section
/-! PROOFS. The storage keeps its canonical form (O4): the history. -/
namespace Sys2Proof.Machine

variable {s : Dev}

theorem setHState_wf {x : Nat} (h : Canonical s) : Canonical (setHState s x) := fset_wf h

theorem modHist_wf {f : HistSt → HistSt} (h : Canonical s) : Canonical (modHist s f) := h.update

theorem hErr_wf {f : Nat × Nat} (h : Canonical s) : Canonical (hErr s f) := fset_wf h

theorem histEnable_wf (h : Canonical s) : Canonical (histEnable s) :=
  ite_wf (fset_wf h) (ite_wf (fset_wf (setHState_wf (fset_wf (modHist_wf h)))) (hErr_wf (fset_wf h)))

theorem putDrive_wf {j blk : Nat} {b : List Byte} (h : Canonical s) : Canonical (putDrive s j blk b) := modHist_wf h

theorem hWriteWord_wf {ipa : Nat} {q : QWord} {last : Bool} (h : Canonical s) : Canonical (hWriteWord s ipa q last).2 := by
  unfold hWriteWord
  split
  · next e =>
      have hs := snd_wf (ioTranslate_wf h) e
      split
      · extract_lets +onlyGivenNames s2
        have h2 : Canonical s2 := dramTaken_wf (writeWord_wf _ _ _ (ioInvalidate_wf hs))
        exact ite_wf (toDram_wf h2) h2
      · exact hs
  · next e => exact snd_wf (ioTranslate_wf h) e

theorem hWriteWords_wf {ipa : Nat} {qs : List QWord} (h : Canonical s) : Canonical (hWriteWords s ipa qs).2 := by
  induction qs generalizing s ipa with
  | nil =>
    rw [hWriteWords]
    exact h
  | cons x qs ih =>
    rw [hWriteWords]
    exact ite_snd_wf (ih (hWriteWord_wf h)) (hWriteWord_wf h)

theorem hReadWord_wf {ipa : Nat} (h : Canonical s) : Canonical (hReadWord s ipa).2 := by
  unfold hReadWord
  split
  · next e =>
      have hs := snd_wf (ioTranslate_wf h) e
      exact ite_snd_wf (dramTaken_wf (ioRead_wf hs)) hs
  · next e => exact snd_wf (ioTranslate_wf h) e

theorem hWritePlain_wf {ipa : Nat} {ws : List Word} (h : Canonical s) : Canonical (hWritePlain s ipa ws) := hWriteWords_wf (drawFree_wf h)

theorem hWriteFree_wf {ipa n : Nat} (h : Canonical s) : Canonical (hWriteFree s ipa n) := by
  induction n with
  | zero =>
    rw [hWriteFree]
    exact h
  | succ n ih =>
    rw [hWriteFree]
    exact hWritePlain_wf (drawFree_wf ih)

theorem storeBlocks_wf {b : HBuf} {a n : Nat} (h : Canonical s) :
    Canonical (storeBlocks s b a n) := foldl_wf (fun _ _ hs => hWritePlain_wf hs) h

theorem idxClear_wf {seg : Nat} (h : Canonical s) : Canonical (idxClear s seg) := hWritePlain_wf h

theorem idxFill_wf {seg : Nat} (h : Canonical s) : Canonical (idxFill s seg) := hWritePlain_wf h

theorem idxWord_wf {seg o : Nat} (h : Canonical s) : Canonical (idxWord s seg o).2 := hReadWord_wf h

theorem maybeWrite_wf {j blk : Nat} {b : List Byte} (h : Canonical s) : Canonical (maybeWrite s j blk b) :=
  ite_wf (putDrive_wf (drawFree_wf h)) (drawFree_wf h)

theorem writeSuper_wf (h : Canonical s) : Canonical (writeSuper s) :=
  modHist_wf (foldl_wf (fun _ _ hs => ite_wf (putDrive_wf hs) (maybeWrite_wf hs)) (drawFree_wf h))

theorem histRun_wf {kept discarded : Nat} (h : Canonical s) :
    Canonical (histRun s kept discarded) := logRec_wf (setHState_wf (modHist_wf h))

theorem histFault_wf (h : Canonical s) : Canonical (histFault s) := logRec_wf (setHState_wf (modHist_wf h))

theorem histFormat_wf (h : Canonical s) : Canonical (histFormat s) := by
  unfold histFormat
  extract_lets +onlyGivenNames f s1 s2 s3
  have hf : Canonical f.2 := by
    unfold f
    exact drawFree_wf h
  have h1 : Canonical s1 := modHist_wf hf
  have h2 : Canonical s2 := fset_wf (fset_wf h1)
  have h3 : Canonical s3 := foldl_wf (fun _ _ hs => idxClear_wf hs) h2
  exact histRun_wf (writeSuper_wf (writeSuper_wf h3))

theorem scanLive_wf {S n seg : Nat} {p : Nat × Nat × Dev} (h : Canonical p.2.2) : Canonical (scanLive S n seg p).2.2 := by
  induction n generalizing seg p with
  | zero =>
    rw [scanLive]
    exact h
  | succ n ih =>
    rw [scanLive]
    refine ih ?_
    split
    · exact idxFill_wf h
    · exact fincSat_wf h

theorem scanMore_wf {S tail n seg last : Nat} {p : Nat × Dev} (h : Canonical p.2) : Canonical (scanMore S tail n seg last p).2.2.2 := by
  induction n generalizing seg last p with
  | zero =>
    rw [scanMore]
    exact h
  | succ n ih =>
    rw [scanMore]
    split
    · exact ih (fset_wf (idxFill_wf h))
    · exact h

theorem histRebuild_wf {sb : List Byte} (h : Canonical s) : Canonical (histRebuild s sb) := by
  unfold histRebuild
  extract_lets +onlyGivenNames head tail next S s1 s2 s3 x _ f y s4 _ torn s5
  have h1 : Canonical s1 := modHist_wf h
  have h2 : Canonical s2 := fset_wf (fset_wf h1)
  have h3 : Canonical s3 := foldl_wf (fun _ _ hs => idxClear_wf hs) h2
  have hx : Canonical x.2.2 := by
    unfold x
    exact scanLive_wf h3
  have hf : Canonical f.2 := by
    unfold f
    split
    · exact hx
    · exact mk_snd_wf (drawFree_wf hx)
  have hy : Canonical y.2.2.2 := by
    unfold y
    exact scanMore_wf hf
  have h4 : Canonical s4 := hy
  have htorn : Canonical torn := ite_wf (fincSat_wf h4) h4
  have h5 : Canonical s5 := modHist_wf htorn
  exact histRun_wf h5

theorem histRestart_wf {s0 : Dev} {drives : List DriveFacts} (h : Canonical s0) : Canonical (histRestart s0 drives) := by
  unfold histRestart
  split
  · exact h
  · extract_lets +onlyGivenNames s' bad
    have hs' : Canonical s' := modHist_wf h
    split
    · exact histFault_wf (foldl_wf (fun _ _ hs => fset_wf hs) hs')
    · split
      · exact histFormat_wf hs'
      · extract_lets +onlyGivenNames js
        split
        · exact histFault_wf (hErr_wf hs')
        · exact ite_wf (histRebuild_wf hs') (histFault_wf (hErr_wf hs'))

theorem sealOpen_wf (h : Canonical s) : Canonical (sealOpen s) := by
  unfold sealOpen
  split
  · exact h
  · exact countHist_wf (modHist_wf (storeBlocks_wf (drawFree_wf h)))

theorem openBuffer_wf (h : Canonical s) : ∀ x ∈ openBuffer s, Canonical x.2 := by
  unfold openBuffer
  split
  · exact some_all h
  · exact ite_all (some_all (modHist_wf h)) none_all

theorem putBuffer_wf {b : HBuf} (h : Canonical s) : Canonical (putBuffer s b) :=
  ite_wf (sealOpen_wf (modHist_wf (ite_wf (storeBlocks_wf h) h))) (modHist_wf (ite_wf (storeBlocks_wf h) h))

theorem putRec_wf {time : Nat} {bs : List Byte} (h : Canonical s) : ∀ x ∈ putRec s time bs, Canonical x := by
  unfold putRec
  split
  · exact none_all
  · next s1 e =>
      have hs : Canonical s1 := openBuffer_wf h _ e
      exact some_all (putBuffer_wf hs)

theorem putMarker_wf {t cls : Nat} {software : Bool} (h : Canonical s) : ∀ x ∈ putMarker s t cls software, Canonical x := by
  unfold putMarker
  split
  · exact some_all h
  · next e =>
      refine map_all ?_
      intro x e
      have hx : Canonical x := putRec_wf h _ e
      exact modHist_wf hx

theorem putSample_wf {cls : Nat} {software : Bool} {sig : Nat} {x : HSample} (h : Canonical s) :
    ∀ x_1 ∈ putSample s cls software sig x, Canonical x_1 := by
  unfold putSample
  split
  · exact none_all
  · next s3 e =>
      have hs : Canonical s3 := putMarker_wf h _ e
      split
      · exact none_all
      · next s1 e1 =>
          have hs1 : Canonical s1 := openBuffer_wf hs _ e1
          extract_lets +onlyGivenNames _ b1
          refine map_all ?_
          intro x3 e
          have hx : Canonical x3 := putRec_wf (modHist_wf hs1) _ e
          exact countHist_wf hx

theorem readSignal_wf {c t : Nat} {e : Word} (h : Canonical s) : Canonical (readSignal s c t e).2 := by
  unfold readSignal
  extract_lets +onlyGivenNames k r w bad
  have hbad : ∀ (s : Dev), Canonical s → Canonical (bad s).2 := fun _ hs => countHist_wf (hErr_wf hs)
  split
  · exact hbad _ h
  · exact ite_snd_wf (hbad _ (refusePair_wf h)) (ite_snd_wf (hbad _ h) (countHist_wf (useAddr_wf (pairReadNote_wf h))))

theorem readComp_wf {x : Nat} (h : Canonical s) : Canonical (readComp s x).2 := by
  unfold readComp
  split
  · next e => exact ioReadParts_wf (snd_wf (ioRange_wf h) e)
  · next e => exact snd_wf (ioRange_wf h) e

theorem sampleAll_wf {c t : Nat} {es : List (Nat × Word)} (h : Canonical s) : Canonical (sampleAll c t es s).2 := by
  induction es generalizing s with
  | nil =>
    rw [sampleAll]
    exact h
  | cons x es ih =>
    rw [sampleAll]
    exact ih (readComp_wf (readSignal_wf h))

theorem setComp_wf {x : Nat} {k : HComp} (h : Canonical s) : Canonical (setComp s x k) := modHist_wf (hWriteFree_wf h)

theorem putAll_wf {c : Nat} {l : List (Nat × HSample × HComp)} (h : Canonical s) : Canonical (putAll c l s).2 := by
  induction l generalizing s with
  | nil =>
    rw [putAll]
    exact h
  | cons x l ih =>
    rw [putAll]
    split
    · next s2 e =>
        have hs : Canonical s2 := putSample_wf h _ e
        exact ih (setComp_wf hs)
    · exact countHist_wf h

theorem sampleNow_wf {c t : Nat} {sigs : List (Nat × Word)} (h : Canonical s) : Canonical (sampleNow s c t sigs) := by
  unfold sampleNow
  split
  · exact logLimited_wf (countHist_wf (fincSat_wf h))
  · extract_lets +onlyGivenNames r quiet s1 recs x
    have hr : Canonical r.2 := by
      unfold r
      exact sampleAll_wf h
    have h1 : Canonical s1 := foldl_wf (fun _ _ hs => setComp_wf hs) hr
    have hx : Canonical x.2 := by
      unfold x
      exact putAll_wf h1
    exact ite_wf hx (logLimited_wf (fincSat_wf hx))

theorem runList_wf {j : HList} (h : Canonical s) : Canonical (runList s j) := by
  unfold runList
  split
  · exact fincSat_wf h
  · extract_lets +onlyGivenNames now s1
    have h1 : Canonical s1 := ite_wf h (sampleNow_wf h)
    split
    · exact h1
    · exact modHist_wf (ite_wf (foldl_wf (fun _ _ hs => foldl_wf (fun _ _ hs1 => stallQueue_wf hs1) hs) h1) h1)

theorem pumpLists_wf {n : Nat} (h : Canonical s) : Canonical (pumpLists n s) := by
  induction n generalizing s with
  | zero =>
    rw [pumpLists]
    exact h
  | succ n ih =>
    rw [pumpLists]
    split
    · exact h
    · exact ite_wf (ih (runList_wf (modHist_wf h))) (runList_wf (modHist_wf h))

theorem resumeLists_wf (h : Canonical s) : Canonical (resumeLists s) := pumpLists_wf h

theorem takeList_wf {j : HList} {start : Nat} (h : Canonical s) : Canonical (takeList s j start) :=
  ite_wf (runList_wf (modHist_wf h)) (modHist_wf (modHist_wf h))

theorem histSample_wf {c L n : Nat} (h : Canonical s) : Canonical (histSample s c L n) :=
  ite_wf h (ite_wf (hErr_wf h) (ite_wf (fincSat_wf h) (takeList_wf h)))

theorem histCut_wf {c : Nat} (h : Canonical s) :
    Canonical (histCut s c) := ite_wf h (resumeLists_wf (logLimited_wf (fincSat_wf (modHist_wf h))))

theorem ringComplete_wf {entry : Nat} {irq more : Bool} {status : Nat} (h : Canonical s) :
    Canonical (ringComplete s entry irq more status) :=
  ite_wf (raise_wf (hWritePlain_wf h)) (hWritePlain_wf h)

theorem syncCheck_wf (h : Canonical s) : Canonical (syncCheck s) := by
  unfold syncCheck
  split
  · exact ringComplete_wf (writeSuper_wf (modHist_wf h))
  · exact h

theorem segmentWrite_wf (h : Canonical s) : Canonical (segmentWrite s) := by
  unfold segmentWrite
  split
  · exact h
  · split
    · exact h
    · split
      · exact countHist_wf (stallOn_wf h)
      · split
        · exact h
        · exact engineAct_wf h (fun _ hs => modHist_wf (ite_wf
              (ite_wf (fset_wf (idxClear_wf (takeCredit_wf hs))) (idxClear_wf (takeCredit_wf hs)))
                  (storeBlocks_wf (ite_wf (fset_wf (idxClear_wf (takeCredit_wf hs))) (idxClear_wf (takeCredit_wf hs))))))

theorem endBlock_wf {x : HSeg} {ok : Bool} {b : Nat} (h : Canonical s) : Canonical (endBlock x ok s b) :=
  ite_wf (countHist_wf (putDrive_wf h)) (maybeWrite_wf h)

theorem segmentFailed_wf {i : Nat} {x : HSeg} (h : Canonical s) : Canonical (segmentFailed s i x) := by
  unfold segmentFailed
  extract_lets +onlyGivenNames s1 s2
  have h1 : Canonical s1 := fset_wf (fset_wf (fset_wf h))
  have h2 : Canonical s2 := logRec_wf (fincSat_wf h1)
  split
  · exact modHist_wf (storeBlocks_wf h2)
  · extract_lets +onlyGivenNames s3
    have h3 : Canonical s3 := histFault_wf (fset_wf h2)
    split
    · exact ringComplete_wf (modHist_wf h3)
    · exact h3

theorem segmentDone_wf {x : HSeg} (h : Canonical s) : Canonical (segmentDone s x) := syncCheck_wf (idxFill_wf (modHist_wf (fset_wf h)))

theorem blocksEnd_wf {i j n : Nat} {ok : Bool} (h : Canonical s) : Canonical (blocksEnd s i j n ok) := by
  unfold blocksEnd
  split
  · exact h
  · split
    · exact ite_wf (ite_wf (segmentDone_wf (endBlock_wf (countHist_wf h))) (segmentFailed_wf (endBlock_wf (countHist_wf h)))) h
    · extract_lets +onlyGivenNames left
      split
      · exact h
      · extract_lets +onlyGivenNames total s1 x1'
        have h1 : Canonical s1 := foldl_wf (fun _ _ hs => endBlock_wf hs) (countHist_wf h)
        exact ite_wf (segmentFailed_wf h1) (modHist_wf h1)

theorem bufRead_wf {i j n : Nat} (h : Canonical s) : Canonical (bufRead s i j n).2 := by
  unfold bufRead
  split
  · exact h
  · exact ioRange_wf h

theorem driveEnds_wf {i j n : Nat} {ok : Bool} (h : Canonical s) : Canonical (driveEnds s i j n ok) := by
  unfold driveEnds
  split
  · exact h
  · split
    · split
      · next e2 => exact blocksEnd_wf (partsTaken_wf (snd_wf (bufRead_wf h) e2))
      · next e2 => exact blocksEnd_wf (snd_wf (bufRead_wf h) e2)
    · exact blocksEnd_wf h

theorem driveFails_wf {j i : Nat} (h : Canonical s) : Canonical (driveFails j s i) := by
  unfold driveFails
  split
  · exact h
  · exact blocksEnd_wf h

theorem portFails_wf {r : Nat} (h : Canonical s) : Canonical (portFails s r) :=
  foldl_wf (fun _ _ hs => foldl_wf (fun _ _ hs1 => driveFails_wf hs1) hs) h

theorem rootLost_wf {r : Nat} (h : Canonical s) : Canonical (rootLost s r) := ite_wf (portFails_wf (rootDown_wf h)) h

theorem rootContain_wf {r : Nat} (h : Canonical s) : Canonical (rootContain s r) := ite_wf (rootLost_wf (setCfg_wf h)) h

theorem driveTimeout_wf {i j n : Nat} (h : Canonical s) : Canonical (driveTimeout s i j n) := by
  unfold driveTimeout
  split
  · exact h
  · exact driveEnds_wf (advanceTo_wf h)

theorem sealTimer_wf (h : Canonical s) : Canonical (sealTimer s) := by
  unfold sealTimer
  extract_lets +onlyGivenNames ms
  split
  · exact ite_wf (sealOpen_wf (advanceTo_wf h)) h
  · exact h

theorem superTimer_wf (h : Canonical s) : Canonical (superTimer s) := ite_wf (writeSuper_wf (advanceTo_wf h)) h

theorem histDisable_wf (h : Canonical s) : Canonical (histDisable s) :=
  ite_wf (setHState_wf (sealOpen_wf (fset_wf h))) (ite_wf (setHState_wf (fset_wf h)) (fset_wf h))

theorem shutdownDone_wf (h : Canonical s) : Canonical (shutdownDone s) := ite_wf (setHState_wf (writeSuper_wf h)) h

end Sys2Proof.Machine
end

section
/-! PROOFS. The storage keeps its canonical form (O4): the twin link. -/
namespace Sys2Proof.Machine

variable {s : Dev}

theorem modTwin_wf {f : TwinSt → TwinSt} (h : Canonical s) : Canonical (modTwin s f) := h.update

theorem setRole_wf {r : Nat} (h : Canonical s) : Canonical (setRole s r) :=
  ite_wf h (ite_wf (logRec_wf (raise_wf (fset_wf (modTwin_wf h)))) (logRec_wf (raise_wf (fset_wf (modTwin_wf h)))))

theorem becomeActive_wf (h : Canonical s) : Canonical (becomeActive s) := ite_wf (logRec_wf h) (setRole_wf (fset_wf (modTwin_wf h)))

theorem putTwinEntry_wf {t i : Nat} {v : Word} (h : Canonical s) : Canonical (putTwinEntry s t i v) := by
  unfold putTwinEntry
  extract_lets +onlyGivenNames m
  split
  · exact modTwin_wf h
  · exact modTwin_wf h
  · exact modTwin_wf h

theorem shortWindow_wf {w : Word} (h : Canonical s) : Canonical (shortWindow s w) := ite_wf (logRec_wf (fset_wf h)) h

theorem twinTblRead_wf {t i : Nat} (h : Canonical s) : Canonical (twinTblRead s t i) :=
  ite_wf (fset_wf (fset_wf (fset_wf (fset_wf h)))) (setReg_wf (fset_wf (fset_wf (fset_wf h))))

theorem notePaths_wf (h : Canonical s) : Canonical (notePaths s) := ite_wf (fset_wf h) h

theorem notePathsOn_wf (h : Canonical s) : Canonical (notePathsOn s) := ite_wf (notePaths_wf h) h

theorem twinPut_wf {t i : Nat} {v : Word} (h : Canonical s) : Canonical (twinPut s t i v) := by
  unfold twinPut
  split
  · exact fset_wf h
  · split
    · exact ite_wf (fset_wf h) (ite_wf (fset_wf h) (shortWindow_wf (putTwinEntry_wf h)))
    · exact notePathsOn_wf (putTwinEntry_wf h)
    · exact ite_wf (fset_wf h) (ite_wf (fset_wf h) (putTwinEntry_wf h))

theorem twinTblWrite_wf {t i : Nat} (h : Canonical s) : Canonical (twinTblWrite s t i) := twinPut_wf (fset_wf (fset_wf (fset_wf h)))

theorem toLane_wf {m : TwinOut} (h : Canonical s) : Canonical (toLane s m).2 := by
  unfold toLane
  split
  · split
    · exact modTwin_wf h
    · exact h
  · exact h

theorem admitOut_wf {ms : List TwinOut} (h : Canonical s) : Canonical (admitOut ms s).2 := by
  induction ms generalizing s with
  | nil =>
    rw [admitOut]
    exact h
  | cons x ms ih =>
    rw [admitOut]
    exact ih (toLane_wf (ite_wf (takeCredit_wf h) h))

theorem twinAdmit_wf (h : Canonical s) : Canonical (twinAdmit s) := modTwin_wf (admitOut_wf h)

theorem twinSend_wf {type cls endBit cycle : Nat} {payload : List Byte} (h : Canonical s) :
    Canonical (twinSend s type cls endBit cycle payload) :=
  countTwin_wf (twinAdmit_wf (modTwin_wf (ite_wf h (countTwin_wf (stallOn_wf h)))))

theorem twinLeave_wf (h : Canonical s) : Canonical (twinLeave s) := by
  unfold twinLeave
  split
  · exact h
  · exact ite_wf h (twinAdmit_wf (giveCredit_wf (modTwin_wf h)))

theorem noteSeq_wf {q : Nat} (h : Canonical s) : Canonical (noteSeq s q) := ite_wf (countTwin_wf (modTwin_wf (modTwin_wf h))) (modTwin_wf h)

theorem twinReceive_wf {at_ : Nat} {m : List Byte} {type : Nat} (h : Canonical s) :
    (∀ x ∈ (twinReceive s at_ m type).1, Canonical x.2) ∧ Canonical (twinReceive s at_ m type).2 := by
  have e : twinReceive = twinReceive := rfl
  conv at e => rhs; delta twinReceive
  obtain ⟨advance, hadvance⟩ := exists_eq_self advanceTo
  have ha : Canonical (advance s at_) := hadvance ▸ advanceTo_wf h
  obtain ⟨parse, hparse⟩ := exists_eq_self parseTwin
  rw [← hparse, ← hadvance] at e
  rw [e]
  beta_reduce
  clear e
  refine ⟨?_, ?_⟩
  · extract_lets +onlyGivenNames s0
    split
    · exact none_all
    · split
      · exact none_all
      · extract_lets s1
        have h1 : Canonical s1 := fset_wf (countTwin_wf (modTwin_wf (noteSeq_wf ha)))
        split
        · exact some_all h1
        · exact none_all
  · extract_lets +onlyGivenNames s0
    split
    · exact ha
    · split
      · exact countTwin_wf (modTwin_wf ha)
      · exact ite_snd_wf (fset_wf (countTwin_wf (modTwin_wf (noteSeq_wf ha)))) (fset_wf (countTwin_wf (modTwin_wf (noteSeq_wf ha))))

/-- What follows a received message is done to a canonical device. -/
theorem onReceived_wf {r : Option (TwinMsg × Dev) × Dev} {f : TwinMsg → Dev → Dev} (hr : (∀ x ∈ r.1, Canonical x.2) ∧ Canonical r.2)
    (hf : ∀ x s, Canonical s → Canonical (f x s)) :
    Canonical (match (generalizing := false) r with
      | (none, s1) => s1
      | (some (x, s1), _) => f x s1) := by
  obtain ⟨_ | x, s1⟩ := r
  · exact hr.2
  · exact hf _ _ (hr.1 _ rfl)

theorem requestSwap_wf (h : Canonical s) : Canonical (requestSwap s) := ite_wf h (modTwin_wf h)

theorem integritySwap_wf (h : Canonical s) : Canonical (integritySwap s) := ite_wf (requestSwap_wf h) h

theorem heartbeatSend_wf (h : Canonical s) : Canonical (heartbeatSend s) := modTwin_wf (twinSend_wf (integritySwap_wf h))

theorem pathHeartbeat_wf {j : Nat} (h : Canonical s) : Canonical (pathHeartbeat s j) := fset_wf (modTwin_wf h)

theorem performHeld_wf (h : Canonical s) : Canonical (performHeld s) := foldl_wf (fun _ _ hs => actRelease_wf hs) (modTwin_wf h)

theorem joinClass_wf {c : Nat} (h : Canonical s) : Canonical (joinClass s c) :=
  ite_wf (modTwin_wf h) (classEnable_wf (setReg_wf (setReg_wf (fset_wf (modTwin_wf h)))))

theorem joinStopped_wf {c : Nat} (h : Canonical s) : Canonical (joinStopped s c) := ite_wf (ite_wf (joinClass_wf h) (modTwin_wf h)) h

theorem discardLine_wf {t : Nat} (h : Canonical s) : Canonical (discardLine s t) :=
  foldl_wf (fun _ _ hs => writeWord_wf _ _ _ (drawFree_wf (drawFree_wf hs))) h

theorem discardCopies_wf (h : Canonical s) : Canonical (discardCopies s) := foldl_wf (fun _ _ hs => discardLine_wf hs) (modTwin_wf h)

theorem abandonJoin_wf (h : Canonical s) : Canonical (abandonJoin s) := modTwin_wf h

theorem startJoin_wf (h : Canonical s) : Canonical (startJoin s) :=
  foldl_wf (fun _ _ hs => joinStopped_wf hs) (foldl_wf (fun _ _ hs => classDisable_wf hs) (modTwin_wf (setRole_wf h)))

theorem linkLost_wf (h : Canonical s) : Canonical (linkLost s) := by
  unfold linkLost
  split
  · extract_lets +onlyGivenNames s1 s2
    have h1 : Canonical s1 := modTwin_wf h
    have h2 : Canonical s2 := logRec_wf (fset_wf h1)
    exact ite_wf (setRole_wf (abandonJoin_wf (discardCopies_wf h2))) (ite_wf (performHeld_wf (modTwin_wf h2)) h2)
  · exact h

theorem copyReport_wf (h : Canonical s) :
    Canonical (copyReport s) := foldl_wf (fun _ _ hs => ite_wf (modTwin_wf hs) (modTwin_wf hs)) (modTwin_wf h)

theorem endCopy_wf (h : Canonical s) : Canonical (endCopy s) := ite_wf (performHeld_wf (modTwin_wf h)) h

theorem heartbeat_wf {at_ : Nat} {m : List Byte} {delay skew : Nat} (h : Canonical s) : Canonical (heartbeat s at_ m delay skew) := by
  have hr := twinReceive_wf (at_ := at_) (m := m) (type := 0x01) h
  have e : heartbeat = heartbeat := rfl
  conv at e => rhs; delta heartbeat
  obtain ⟨receive, hreceive⟩ := exists_eq_self twinReceive
  rw [← hreceive] at hr e
  rw [e]
  beta_reduce
  refine onReceived_wf hr fun x s1 hs1 => ?_
  extract_lets +onlyGivenNames p
  split
  · exact linkLost_wf (fset_wf (modTwin_wf hs1))
  · extract_lets +onlyGivenNames g s2 s3 s4 s5 s6 s7 s8 s9
    have h2 : Canonical s2 := modTwin_wf hs1
    have h3 : Canonical s3 := fset_wf (fset_wf h2)
    have h4 : Canonical s4 := ite_wf (logRec_wf h3) h3
    have h5 : Canonical s5 := fset_wf h4
    have h6 : Canonical s6 := ite_wf (fset_wf h5) h5
    have h7 : Canonical s7 := foldl_wf (fun _ _ hs => ite_wf (shortWindow_wf hs) hs) (endCopy_wf (copyReport_wf h6))
    have h8 : Canonical s8 := ite_wf (modTwin_wf h7) h7
    have h9 : Canonical s9 := by
      unfold s9
      split
      · split
        · exact ite_wf (modTwin_wf h8) h8
        · exact modTwin_wf h8
      · exact h8
    exact ite_wf (setRole_wf (abandonJoin_wf h9)) (ite_wf (startJoin_wf h9) h9)

theorem linkLostEvent_wf (h : Canonical s) : Canonical (linkLostEvent s) := ite_wf (linkLost_wf (advanceTo_wf h)) h

theorem pathLost_wf {j : Nat} (h : Canonical s) : Canonical (pathLost s j) := ite_wf (logRec_wf (fset_wf (advanceTo_wf h))) h

theorem diverge_wf (h : Canonical s) : Canonical (diverge s) := by
  unfold diverge
  extract_lets +onlyGivenNames s1 s2
  have h1 : Canonical s1 := raise_wf (logRec_wf (fincSat_wf h))
  have h2 : Canonical s2 := modTwin_wf h1
  exact ite_wf (ite_wf (startJoin_wf h2) (setRole_wf h2)) h2

theorem compareDigest_wf {c k cycle : Nat} (h : Canonical s) : Canonical (compareDigest s c k cycle) := by
  unfold compareDigest
  split
  · exact ite_wf (modTwin_wf (modTwin_wf h)) (diverge_wf (modTwin_wf h))
  · exact h

theorem actDigest_wf {c : Nat} {e : PrickEntry} (h : Canonical s) : Canonical (actDigest s c e) := modTwin_wf h

theorem useLine_wf {place code k r line p : Nat} (h : Canonical s) : Canonical (useLine s place code k r line p) := usePort_wf h

theorem digestDone_wf {c k : Nat} (h : Canonical s) : Canonical (digestDone s c k) := by
  unfold digestDone
  split
  · exact h
  · exact engineAct_wf h (fun _ hs => compareDigest_wf (ite_wf (twinSend_wf (modTwin_wf (foldl_wf (fun _ _ hs1 => useLine_wf hs1) hs)))
        (modTwin_wf (foldl_wf (fun _ _ hs1 => useLine_wf hs1) hs))))

theorem digestMessage_wf {at_ : Nat} {m : List Byte} (h : Canonical s) : Canonical (digestMessage s at_ m) := by
  have hr := twinReceive_wf (at_ := at_) (m := m) (type := 0x04) h
  have e : digestMessage = digestMessage := rfl
  conv at e => rhs; delta digestMessage
  obtain ⟨receive, hreceive⟩ := exists_eq_self twinReceive
  rw [← hreceive] at hr e
  rw [e]
  beta_reduce
  refine onReceived_wf hr fun x s1 hs1 => ?_
  exact ite_wf (compareDigest_wf (modTwin_wf hs1)) hs1

theorem digestMissed_wf {c k : Nat} (h : Canonical s) : Canonical (digestMissed s c k) := by
  unfold digestMissed
  split
  · exact h
  · exact countTwin_wf (modTwin_wf (advanceTo_wf h))

theorem journalWord_wf {e : JournalEnt} (h : Canonical s) : Canonical (journalWord s e) := by
  unfold journalWord
  split
  · exact ite_wf (keepWrite_wf h) (scatterWrite_wf h)
  · exact refusePair_wf h

theorem journalApply_wf {c : Nat} (h : Canonical s) :
    Canonical (journalApply s c) := modTwin_wf (foldl_wf (fun _ _ hs => journalWord_wf hs) h)

theorem journalSubmit_wf {v : Word} (h : Canonical s) : Canonical (journalSubmit s v) := by
  unfold journalSubmit
  extract_lets +onlyGivenNames c k w s0 apply res
  have h0 : Canonical s0 := fset_wf (fset_wf (fset_wf (fset_wf h)))
  have hres : ∀ (s : Dev) (r : Nat), Canonical s → Canonical (res s r) := fun _ _ hs => fset_wf hs
  split
  · exact hres _ _ h0
  · split
    · exact hres _ _ h0
    · extract_lets +onlyGivenNames inside
      split
      · exact hres _ _ h0
      · exact ite_wf (twinSend_wf (modTwin_wf (fset_wf (fset_wf (hres _ _ h0))))) (modTwin_wf (fset_wf (fset_wf (hres _ _ h0))))

theorem journalMessage_wf {at_ : Nat} {m : List Byte} (h : Canonical s) : Canonical (journalMessage s at_ m) := by
  have hr := twinReceive_wf (at_ := at_) (m := m) (type := 0x05) h
  have e : journalMessage = journalMessage := rfl
  conv at e => rhs; delta journalMessage
  obtain ⟨receive, hreceive⟩ := exists_eq_self twinReceive
  rw [← hreceive] at hr e
  rw [e]
  beta_reduce
  refine onReceived_wf hr fun x s1 hs1 => ?_
  exact ite_wf (modTwin_wf hs1) hs1

theorem setAgree_wf {c : Nat} {a : AgreeSt} (h : Canonical s) : Canonical (setAgree s c a) := modTwin_wf h

theorem holdFrame_wf {i : Nat} {fr : List Byte} {ts : Nat} (h : Canonical s) : Canonical (holdFrame s i fr ts) := ite_wf (setAgree_wf h) h

theorem takeMap_wf {c : Nat} {p : List Byte} (h : Canonical s) : Canonical (takeMap s c p) := by
  unfold takeMap
  extract_lets +onlyGivenNames a has want order send beyond s1 s2 _ s3
  have h1 : Canonical s1 := by
    unfold s1
    refine foldl_wf (fun s b hs => ?_) h
    split
    · exact twinSend_wf hs
    · exact hs
  have h2 : Canonical s2 := ite_wf h1 (foldl_wf (fun _ _ hs => countTwin_wf hs) (fincSat_wf h1))
  have h3 : Canonical s3 := setAgree_wf h2
  exact ite_wf (diverge_wf h3) h3

theorem actAgree_wf {c offset : Nat} (h : Canonical s) : Canonical (actAgree s c offset) := by
  unfold actAgree
  split
  · extract_lets +onlyGivenNames mine due crc n s1 a s1' s2
    have h1 : Canonical s1 := twinSend_wf h
    have hs1' : Canonical s1' := ite_wf h1 (shortWindow_wf h1)
    have h2 : Canonical s2 := journalApply_wf (setAgree_wf hs1')
    split
    · exact ite_wf (takeMap_wf h2) h2
    · exact h2
  · exact journalApply_wf (setAgree_wf h)

theorem arrivalMap_wf {at_ : Nat} {m : List Byte} (h : Canonical s) : Canonical (arrivalMap s at_ m) := by
  have hr := twinReceive_wf (at_ := at_) (m := m) (type := 0x02) h
  have e : arrivalMap = arrivalMap := rfl
  conv at e => rhs; delta arrivalMap
  obtain ⟨receive, hreceive⟩ := exists_eq_self twinReceive
  rw [← hreceive] at hr e
  rw [e]
  beta_reduce
  refine onReceived_wf hr fun x s1 hs1 => ?_
  exact ite_wf hs1 (ite_wf (ite_wf (takeMap_wf hs1) (ite_wf (fincSat_wf hs1) hs1)) (ite_wf (setAgree_wf hs1) (fincSat_wf hs1)))

theorem frameFill_wf {at_ : Nat} {m : List Byte} (h : Canonical s) : Canonical (frameFill s at_ m) := by
  have hr := twinReceive_wf (at_ := at_) (m := m) (type := 0x03) h
  have e : frameFill = frameFill := rfl
  conv at e => rhs; delta frameFill
  obtain ⟨receive, hreceive⟩ := exists_eq_self twinReceive
  rw [← hreceive] at hr e
  rw [e]
  beta_reduce
  refine onReceived_wf hr fun x s1 hs1 => ?_
  exact ite_wf hs1 (ite_wf (ite_wf hs1 (trcStream_wf (enqueueScatter_wf (setAgree_wf hs1)))) (fincSat_wf hs1))

theorem windowEnd_wf {c : Nat} (h : Canonical s) : Canonical (windowEnd s c) :=
  ite_wf (setAgree_wf (ite_wf (advanceTo_wf h) (fincSat_wf (advanceTo_wf h)))) h

theorem copyRecord_wf {t : Nat} (h : Canonical s) : Canonical (copyRecord s t).2 := by
  have e : copyRecord = copyRecord := rfl
  conv at e => rhs; delta copyRecord
  obtain ⟨bank, hbank⟩ := exists_eq_self bankOf
  obtain ⟨dram, hdram⟩ := exists_eq_self inDram
  obtain ⟨target, htarget⟩ := exists_eq_self copyTarget
  rw [← hbank, ← hdram, ← htarget] at e
  rw [e]
  beta_reduce
  clear e
  split
  · extract_lets a tags
    split
    · exact ioReadParts_wf h
    · split
      · exact h
      · exact ite_snd_wf (usePort_wf h) (noteRefused_wf h)
  · extract_lets k line p
    split
    · exact noteRefused_wf h
    · exact useLine_wf h

theorem copyRecords_wf {ts : List Nat} (h : Canonical s) : Canonical (copyRecords s ts).2 := by
  unfold copyRecords
  refine foldl_snd_wf (fun p b hs => ?_) h
  split
  · exact hs
  · split
    · next e => exact snd_wf (copyRecord_wf hs) e
    · next e => exact snd_wf (copyRecord_wf hs) e

theorem refuseJoin_wf (h : Canonical s) : Canonical (refuseJoin s) := twinSend_wf (performHeld_wf (modTwin_wf (fset_wf h)))

theorem sendCopies_wf {round : Nat} {final : Bool} {fuel : Nat} {ts : List Nat} (h : Canonical s) :
    Canonical (sendCopies round final fuel s ts) := by
  induction fuel generalizing s ts with
  | zero =>
    rw [sendCopies]
    exact h
  | succ fuel ih =>
    rw [sendCopies]
    split
    · next e => exact refuseJoin_wf (snd_wf (copyRecords_wf h) e)
    · next e =>
        have hs := snd_wf (copyRecords_wf h) e
        exact ite_wf (modTwin_wf (twinSend_wf hs)) (ih (modTwin_wf (twinSend_wf hs)))

theorem copyRound_wf (h : Canonical s) : Canonical (copyRound s) := by
  unfold copyRound
  split
  · extract_lets +onlyGivenNames first s0 ts
    have h0 : Canonical s0 := modTwin_wf h
    exact engineAct_wf h (fun _ _ => ite_wf (sendCopies_wf (fset_wf (fset_wf h0)))
        (ite_wf (performHeld_wf (modTwin_wf (sendCopies_wf (fset_wf (fset_wf h0))))) (modTwin_wf (sendCopies_wf (fset_wf (fset_wf h0))))))
  · exact h

theorem freezeOpen_wf (h : Canonical s) : Canonical (freezeOpen s) := ite_wf (modTwin_wf h) h

theorem freezeTimeout_wf (h : Canonical s) : Canonical (freezeTimeout s) := by
  unfold freezeTimeout
  split
  · exact h
  · exact logRec_wf (performHeld_wf (advanceTo_wf h))

theorem noteCopied_wf {t : Nat} (h : Canonical s) : Canonical (noteCopied s t) := ite_wf h (modTwin_wf h)

theorem writeMirror_wf {a : Nat} {words : List QWord} (h : Canonical s) : Canonical (writeMirror s a words) := by
  unfold writeMirror
  extract_lets +onlyGivenNames put
  have hput : ∀ (s : Dev), Canonical s → Canonical (put s) := fun _ hs => foldl_wf (fun _ _ hs1 => writeWord_wf _ _ _ hs1) hs
  split
  · exact dramTaken_wf (toDram_wf (hput _ (ioInvalidate_wf h)))
  · split
    · exact h
    · exact ite_wf (usePortOf_wf (hput _ h)) (noteRefused_wf h)

theorem applyRecord_wf {s0 : Dev} {rec : List Byte} (h : Canonical s0) : Canonical (applyRecord s0 rec) :=
  ite_wf (writeMirror_wf (noteCopied_wf h)) (ite_wf (keepWrite_wf (noteCopied_wf h)) (writeCopied_wf (noteCopied_wf h)))

theorem currentHeld_wf (h : Canonical s) : Canonical (currentHeld s) := modTwin_wf h

theorem stateCopy_wf {at_ : Nat} {m : List Byte} (h : Canonical s) : Canonical (stateCopy s at_ m) := by
  have hr := twinReceive_wf (at_ := at_) (m := m) (type := 0x06) h
  have e : stateCopy = stateCopy := rfl
  conv at e => rhs; delta stateCopy
  obtain ⟨receive, hreceive⟩ := exists_eq_self twinReceive
  rw [← hreceive] at hr e
  rw [e]
  beta_reduce
  refine onReceived_wf hr fun x s1 hs1 => ?_
  split
  · extract_lets +onlyGivenNames round s2 s3 n s4
    have h2 : Canonical s2 := ite_wf hs1 (modTwin_wf hs1)
    have h3 : Canonical s3 := fset_wf (modTwin_wf h2)
    have h4 : Canonical s4 := foldl_wf (fun _ _ hs => applyRecord_wf hs) h3
    exact ite_wf (setRole_wf (abandonJoin_wf h4)) (ite_wf (performHeld_wf (setRole_wf (modTwin_wf (currentHeld_wf h4)))) h4)
  · exact hs1

theorem twinEnable_wf {on : Bool} (h : Canonical s) : Canonical (twinEnable s on) := by
  unfold twinEnable
  split
  · exact fset_wf h
  · split
    · exact h
    · split
      · exact notePaths_wf (setRole_wf (modTwin_wf (fset_wf h)))
      · exact foldl_wf (fun _ _ hs => giveCredit_wf hs) ((fset_wf (fset_wf (setRole_wf (fset_wf h)))).update)

theorem twinResult_wf {cmd r : Nat} (h : Canonical s) : Canonical (twinResult s cmd r) := fset_wf (fset_wf h)

theorem twinGo_wf {f : Dev → Dev} (h : ∀ s, Canonical s → Canonical (f s)) (h1 : Canonical s) :
    Canonical (twinGo f s) := ite_wf (h _ h1) (fset_wf h1)

theorem cmdJoin_wf (h : Canonical s) :
    Canonical (cmdJoin s) := ite_wf (ite_wf (twinResult_wf (startJoin_wf h)) (twinResult_wf h)) (twinResult_wf h)

theorem cmdLeave_wf (h : Canonical s) : Canonical (cmdLeave s) := ite_wf (twinResult_wf (setRole_wf (abandonJoin_wf h))) (twinResult_wf h)

theorem cmdSwap_wf (h : Canonical s) : Canonical (cmdSwap s) := ite_wf (twinResult_wf (requestSwap_wf h)) (twinResult_wf h)

theorem cmdStart_wf (h : Canonical s) : Canonical (cmdStart s) := ite_wf (twinResult_wf (modTwin_wf h)) (twinResult_wf h)

theorem swapTimeout_wf (h : Canonical s) : Canonical (swapTimeout s) := ite_wf (modTwin_wf (advanceTo_wf h)) h

theorem dropPassedSwap_wf {n : Nat} (h : Canonical s) : Canonical (dropPassedSwap s n) := by
  unfold dropPassedSwap
  split
  · exact ite_wf (modTwin_wf h) h
  · exact h

theorem roleBoundary_wf (h : Canonical s) : Canonical (roleBoundary s) := by
  unfold roleBoundary
  split
  · exact h
  · extract_lets +onlyGivenNames n s'
    have hs' : Canonical s' := dropPassedSwap_wf h
    split
    · exact becomeActive_wf (modTwin_wf hs')
    · split
      · exact ite_wf (setRole_wf (modTwin_wf hs')) (ite_wf (becomeActive_wf (modTwin_wf hs')) (modTwin_wf hs'))
      · split
        · exact ite_wf (setRole_wf (modTwin_wf hs')) hs'
        · split
          · exact ite_wf (ite_wf (becomeActive_wf hs') hs') (ite_wf (becomeActive_wf hs') (notePaths_wf hs'))
          · exact ite_wf (ite_wf hs' (ite_wf hs' (ite_wf (becomeActive_wf hs') (setRole_wf (notePaths_wf hs'))))) hs'

theorem laneSet_wf {l : Nat} {up : Bool} (h : Canonical s) : Canonical (laneSet s l up) := twinAdmit_wf (fset_wf (modTwin_wf h))

theorem releaseOrHold_wf {c mask : Nat} (h : Canonical s) : Canonical (releaseOrHold s c mask) :=
  ite_wf h (ite_wf (modTwin_wf h) (ite_wf (modTwin_wf h) (actRelease_wf h)))

end Sys2Proof.Machine
end

section
/-! PROOFS. The storage keeps its canonical form (O4): the bank commands. -/
namespace Sys2Proof.Machine

variable {s : Dev}

theorem execBankRequest_wf {t : Thr} {s : State} (h : Canonical s.dev) : NextCanonical (execBankRequest t s) := onDev_wf (bankRequest_wf h)

theorem execBankGrant_wf {x : BankCycle} {s : State} (h : Canonical s.dev) : NextCanonical (execBankGrant x s) := onDev_wf (bankGrant_wf h)

theorem execHandoverStart_wf {who : Agent} {n : BankId} {next : Fin 64} {s : State} (h : Canonical s.dev) :
    NextCanonical (execHandoverStart who n next s) :=
  onDev_wf (whenOn_wf h (fun _ hs => handoverStart_wf hs))

theorem execHandoverEnd_wf {n : BankId} {s : State} (h : Canonical s.dev) :
    NextCanonical (execHandoverEnd n s) := onDev_wf (handoverEnd_wf h)

theorem execBankClear_wf {n : BankId} {s : State} (h : Canonical s.dev) : NextCanonical (execBankClear n s) :=
  onDev_wf (whenOn_wf h (fun _ hs => bankClearStart_wf hs))

theorem execBankClearDone_wf {n : BankId} {s : State} (h : Canonical s.dev) :
    NextCanonical (execBankClearDone n s) := onDev_wf (bankClearEnd_wf h)

theorem execPairEnable_wf {who : Agent} {k : CtlId} {s : State} (h : Canonical s.dev) : NextCanonical (execPairEnable who k s) :=
  onDev_wf (whenOn_wf h (fun _ hs => writeField_wf hs (fun _ hs1 => pairEnable_wf hs1)))

theorem execPairDisable_wf {who : Agent} {k : CtlId} {s : State} (h : Canonical s.dev) : NextCanonical (execPairDisable who k s) :=
  onDev_wf (whenOn_wf h (fun _ hs => writeField_wf hs (fun _ hs1 => pairDisable_wf hs1)))

theorem execPairInitDone_wf {k : CtlId} {s : State} (h : Canonical s.dev) : NextCanonical (execPairInitDone k s) :=
  onDev_wf (resumeLists_wf (pairInitDone_wf h))

theorem execLtRead_wf {k : CtlId} {line : Fin 131072} {s : State} (h : Canonical s.dev) : NextCanonical (execLtRead k line s) :=
  onDev_wf (whenOn_wf h (fun _ hs => whenDone_wf (fun _ hs1 => ltRead_wf hs1) hs))

theorem execLtWrite_wf {k : CtlId} {line : Fin 131072} {s : State} (h : Canonical s.dev) : NextCanonical (execLtWrite k line s) :=
  onDev_wf (whenOn_wf h (fun _ hs => whenDone_wf (fun _ hs1 => ltWrite_wf hs1) hs))

theorem execAbandon_wf {who : Agent} {k : CtlId} {a : Fin 2} {regions : BitVec 3} {stamp : BitVec 16} {s : State} (h : Canonical s.dev) :
    NextCanonical (execAbandon who k a regions stamp s) :=
  onDev_wf (whenOn_wf h (fun _ hs => abandonWrite_wf hs))

theorem execSweeperVisit_wf {k : CtlId} {n : Nat} {s : State} (h : Canonical s.dev) : NextCanonical (execSweeperVisit k n s) :=
  onDev_wf (sweeperVisit_wf h)

theorem execAbandonSweepDone_wf {k : CtlId} {a : Fin 2} {s : State} (h : Canonical s.dev) : NextCanonical (execAbandonSweepDone k a s) :=
  onDev_wf (abandonSweepDone_wf h)

theorem creditReturn_wf {d : Dev} {q : Queue} (h : Canonical d) : Canonical (creditReturn d q) := ite_wf (twinLeave_wf h) (giveCredit_wf h)

theorem execCreditReturn_wf {q : Queue} {s : State} (h : Canonical s.dev) :
    NextCanonical (execCreditReturn q s) := onDev_wf (creditReturn_wf h)

theorem queueStarved_wf {d : Dev} {q : Queue} (h : Canonical d) : Canonical (queueStarved d q) :=
  ite_wf (logRec_wf (drawFree_wf (advanceOp_wf (setCreditQ_wf h)))) h

theorem execQueueStarved_wf {q : Queue} {s : State} (h : Canonical s.dev) :
    NextCanonical (execQueueStarved q s) := onDev_wf (queueStarved_wf h)

theorem depthBad_wf {d : Dev} {x : Queue} (h : Canonical d) : Canonical (depthBad d x) := by
  unfold depthBad
  split
  · exact fset_wf h
  · exact fset_wf h
  · exact h

theorem writeDepth_wf {d : Dev} {q : Queue} {n : Nat} (h : Canonical d) : Canonical (writeDepth d q n) :=
  ite_wf (ite_wf (setCreditQ_wf h) (depthBad_wf h)) h

theorem execCreditDepthWrite_wf {q : Queue} {depth : Byte} {s : State} (h : Canonical s.dev) :
    NextCanonical (execCreditDepthWrite q depth s) :=
  onDev_wf (whenOn_wf h (fun _ hs => writeDepth_wf hs))

end Sys2Proof.Machine
end

section
/-! PROOFS. The storage keeps its canonical form (O4): loads, stores and atomics. -/
namespace Sys2Proof.Machine

variable {s : Dev}

theorem locate_wf {t va n : Nat} {k : AccKind} (h : Canonical s) : LocatedCanonical (locate s t va n k) := by
  unfold locate
  extract_lets +onlyGivenNames sup
  split
  · exact trivial
  · next s1 e =>
      have hs : Canonical s1 := tlbLookup_wf h _ e
      split
      · exact hs
      · split
        · exact hs
        · split
          · exact hs
          · split
            · exact trivial
            · next s11 e4 =>
                have hs1 : Canonical s11 := tlbLookup_wf hs _ e4
                split
                · exact hs1
                · exact hs1

theorem misaligned_wf {t w va : Nat} {k : AccKind} (h : Canonical s) : Canonical (misaligned s t w va k) := takeExc_wf h

theorem withAddr_wf {t w va n : Nat} {k : AccKind} {f : Nat → Dev → Dev} (h : Canonical s) (h1 : ∀ n s, Canonical s → Canonical (f n s)) :
    Canonical (withAddr s t w va n k f) := by
  unfold withAddr
  split
  · next e =>
      have hs := of_eq (locate_wf h) e
      exact h1 _ _ hs
  · exact waitWalk_wf h
  · next e =>
      have hs := of_eq (locate_wf h) e
      exact misaligned_wf hs

theorem pushAcc_wf {t : Nat} {a : Acc} (h : Canonical s) : Canonical (pushAcc s t a) := advance_wf (modThr_wf h)

theorem pushUncached_wf {t : Nat} {a : Acc} (h : Canonical s) : Canonical (pushUncached s t a) := ite_wf (countCore_wf h) (pushAcc_wf h)

theorem loadNow_wf {t w va : Nat} {rd : GReg} {op : AccOp} {q : QWord} {poison : Bool} (h : Canonical s) :
    Canonical (loadNow s t w va rd op q poison) :=
  ite_wf (takeExc_wf h) (ite_wf (resultWith_wf h) (dataHit_wf (trcData_wf (resultWith_wf h))))

theorem trainStride_wf {t line : Nat} (h : Canonical s) : Canonical (trainStride s t line) := by
  unfold trainStride
  split
  · exact h
  · extract_lets +onlyGivenNames l s1
    have h1 : Canonical s1 := modCache_wf h
    split
    · exact ite_wf (wantPrefetch_wf h1) h1
    · exact h1

theorem loadAt_wf {t w va : Nat} {rd : GReg} {op : AccOp} {pa : Nat} (h : Canonical s) : Canonical (loadAt s t w va rd op pa) := by
  unfold loadAt
  extract_lets +onlyGivenNames x a
  split
  · extract_lets +onlyGivenNames line
    split
    · exact h
    · exact ite_wf (loadNow_wf h) h
    · extract_lets +onlyGivenNames s1
      have h1 : Canonical s1 := trainStride_wf h
      split
      · exact ite_wf (loadNow_wf (cTouch_wf h1)) (ite_wf h (pushAcc_wf h1))
      · exact pushAcc_wf (noteMiss_wf (countCore_wf h1))
  · exact pushUncached_wf h

theorem load_wf {s : State} {t : Thr} {w : Nat} {rd base : GReg} {off : BitVec 14} {op : AccOp} (h : Canonical s.dev) :
    NextCanonical (load s t w rd base off op) :=
  onDev_wf (onInsn_wf h (fun _ hs => ite_wf hs (withAddr_wf hs (fun _ _ hs1 => loadAt_wf hs1))))

theorem pushStore_wf {t : Nat} {e : StoreEnt} (h : Canonical s) : Canonical (pushStore s t e) := ite_wf (countCore_wf h) (modThr_wf h)

theorem storeAt_wf {t w va : Nat} {op : AccOp} {q : QWord} {pa : Nat} (h : Canonical s) : Canonical (storeAt s t w va op q pa) := by
  unfold storeAt
  split
  · extract_lets +onlyGivenNames s1
    have h1 : Canonical s1 := pushStore_wf (ite_wf h (noteMiss_wf h))
    exact ite_wf (dataHit_wf (stepEnd_wf (trcData_wf h1))) h1
  · exact pushUncached_wf h

theorem store_wf {s : State} {t : Thr} {w : Nat} {rs2 base : GReg} {off : BitVec 14} {op : AccOp} (h : Canonical s.dev) :
    NextCanonical (store s t w rs2 base off op) :=
  onDev_wf (onInsn_wf h (fun _ hs => ite_wf hs (withAddr_wf hs (fun _ _ hs1 => storeAt_wf hs1))))

theorem deferAcc_wf {t : Nat} {a : Acc} {i : ExcInfo} (h : Canonical s) : Canonical (deferAcc s t a i) := tryDeferred_wf (modThr_wf h)

theorem dropAcc_wf {t id : Nat} (h : Canonical s) : Canonical (dropAcc s t id) := modThr_wf h

theorem lostResult_wf {a : Acc} (h : Canonical s) : Canonical (lostResult s a).2 := by
  unfold lostResult
  extract_lets +onlyGivenNames untagged
  split
  · exact h
  · exact h
  · exact drawFree_wf h
  · exact ite_snd_wf (drawFree_wf h) (drawFree_wf (drawFree_wf h))
  · exact drawFree_wf (drawFree_wf h)

theorem completeAcc_wf {t : Nat} {a : Acc} (h : Canonical s) : Canonical (completeAcc s t a) := by
  unfold completeAcc
  split
  · exact deferAcc_wf (lostResult_wf h)
  · exact deferAcc_wf h
  · extract_lets +onlyGivenNames store s1 s2
    have h1 : Canonical s1 := modThr_wf (dropAcc_wf h)
    have h2 : Canonical s2 := dataHit_wf (trcData_wf h1)
    exact stepEnd_wf (ite_wf h2 (tryDeferred_wf h2))

theorem cacheWrite_wf {core line : Nat} {f : Dev → Dev} (h : Canonical s) (h1 : ∀ s, Canonical s → Canonical (f s)) :
    Canonical (cacheWrite s core line f) := by
  unfold cacheWrite
  extract_lets +onlyGivenNames l2 s1
  have h11 : Canonical s1 := cTouchLine_wf (fillL1_wf (dropOthers_wf h))
  exact ite_wf (h1 _ (markDirtyLine_wf h11)) (h1 _ (markDirtyLine_wf (passDirty_wf h11)))

theorem homeWrite_wf {core line : Nat} {f : Dev → Dev} (h : Canonical s) (h1 : ∀ s, Canonical s → Canonical (f s)) :
    Canonical (homeWrite s core line f) := by
  unfold homeWrite
  extract_lets +onlyGivenNames c s1 out s2 s3
  have h11 : Canonical s1 := by
    unfold s1
    refine dropOthers_wf ?_
    split
    · exact invalidateHolders_wf h
    · exact h
  have h2 : Canonical s2 := setEvicted_wf (ite_wf (toDram_wf h11) h11)
  have h3 : Canonical s3 := toDram_wf (countMc_wf (h1 _ h2))
  exact ite_wf (putDir_wf h3) (delDir_wf h3)

theorem homeAtomic_wf {line : Nat} {f : Dev → Dev} (h : Canonical s) (h1 : ∀ s, Canonical s → Canonical (f s)) :
    Canonical (homeAtomic s line f) := by
  unfold homeAtomic
  extract_lets +onlyGivenNames s1
  have h11 : Canonical s1 := by
    unfold s1
    split
    · exact delDir_wf (invalidateHolders_wf h)
    · exact h
  exact toDram_wf (countMc_wf (countMc_wf (h1 _ h11)))

theorem atomicNow_wf {t : Nat} {a : Acc} {op : AtomicOp} {put : Dev → (Dev → Dev) → Dev} (h : Canonical s)
    (h1 : ∀ s f, Canonical s → (∀ s, Canonical s → Canonical (f s)) → Canonical (put s f)) : Canonical (atomicNow s t a op put) := by
  unfold atomicNow
  extract_lets old s1
  refine completeAcc_wf ?_
  unfold s1
  split
  · exact h1 _ _ h (fun _ hs => writeWord_wf _ _ _ hs)
  · exact h1 _ _ h (fun _ hs => hs)

theorem atomicHere_wf {t : Nat} {a : Acc} {op : AtomicOp} (h : Canonical s) : Canonical (atomicHere s t a op) :=
  atomicNow_wf h (fun _ _ hs hs1 => ite_wf (cacheWrite_wf hs (fun _ hs2 => hs1 _ hs2)) (fillL1_wf (dropOthers_wf hs)))

theorem atomicAt_wf {t w va : Nat} {rd : GReg} {op : AtomicOp} {data expect : QWord} {pa : Nat} (h : Canonical s) :
    Canonical (atomicAt s t w va rd op data expect pa) := by
  unfold atomicAt
  extract_lets +onlyGivenNames a
  split
  · exact ite_wf (atomicHere_wf (pushAcc_wf (ite_wf h (noteMiss_wf h)))) (pushAcc_wf (ite_wf h (noteMiss_wf h)))
  · exact pushUncached_wf h

theorem atomicInsn_wf {s : State} {t : Thr} {w : Nat} {rd base rs2 rs3 : GReg} {op : AtomicOp} (h : Canonical s.dev) :
    NextCanonical (atomicInsn s t w rd base rs2 rs3 op) :=
  onDev_wf (onInsn_wf h (fun _ hs => ite_wf hs (ite_wf (misaligned_wf hs) (withAddr_wf hs (fun _ _ hs1 => atomicAt_wf hs1)))))

theorem cacheOp_wf {s : State} {t : Thr} {w : Nat} {base : GReg} {off : BitVec 14} {kind : Option StoreKind} (h : Canonical s.dev) :
    NextCanonical (cacheOp s t w base off kind) := by
  unfold cacheOp
  refine onDev_wf ?_
  refine onInsn_wf h (fun s hs => ?_)
  extract_lets +onlyGivenNames va k
  split
  · exact hs
  · refine withAddr_wf hs (fun n s hs => ?_)
    split
    · split
      · exact ite_wf (stepEnd_wf (pushStore_wf hs)) (pushStore_wf hs)
      · exact advance_wf (foldl_wf (fun _ _ hs1 => dropPrefetch_wf hs1) (dropL1I_wf hs))
    · exact ite_wf (takeExc_wf hs) (advance_wf hs)

theorem cleanLine_wf {line : Nat} {keep : Bool} (h : Canonical s) : Canonical (cleanLine s line keep) := by
  unfold cleanLine
  extract_lets +onlyGivenNames s0
  have h0 : Canonical s0 := ite_wf (toDram_wf h) h
  split
  · exact modCache_wf (foldl_wf (fun _ _ hs => setEvicted_wf (foldl_wf (fun _ _ hs1 => cMod_wf hs1) hs)) h0)
  · exact delDir_wf (foldl_wf (fun _ _ hs => dropHolder_wf hs) (dropL1I_wf h0))

theorem mergeFound_wf {c pa : Nat} {o : EccRead} (h : Canonical s) : Canonical (mergeFound s c pa o) := by
  unfold mergeFound
  extract_lets +onlyGivenNames bad
  have hbad : ∀ (s : Dev), Canonical s → Canonical (bad s) := fun _ hs => logLimited_wf hs
  split
  · exact ite_wf (hbad _ h) h
  · exact logLimited_wf h
  · exact hbad _ (setPoison_wf _ _ _ h)

theorem entWrite_wf {c : Nat} {inCache : Bool} {o : EccRead} {e : StoreEnt} (h : Canonical s) : Canonical (entWrite s c inCache o e) := by
  unfold entWrite
  split
  · exact foldl_wf (fun _ _ hs => writeWord_wf _ _ _ hs) h
  · exact ite_wf (writeWord_wf _ _ _ h) (writeKeepTag_wf _ _ _ (ite_wf (mergeFound_wf h) h))

theorem storeOut_wf {core : Nat} {o : EccRead} {e : StoreEnt} (h : Canonical s) : BothCanonical (storeOut s core o e) := by
  unfold storeOut
  extract_lets +onlyGivenNames c line
  split
  · extract_lets s0?
    have hs0 : ∀ x ∈ s0?, Canonical x := ite_all (reinstall_wf h) (some_all h)
    clear_value s0?
    split
    · exact both_none (countCl_wf h)
    · next s0 =>
      have hs0 : Canonical s0 := hs0 _ rfl
      have hs1 : Canonical (cacheWrite s0 core line (fun s => entWrite s c true o e)) := cacheWrite_wf hs0 (fun _ hs => entWrite_wf hs)
      exact ite_both (both_some hs1 hs1) (both_none hs0)
  · split
    · exact both_none h
    · extract_lets inCache read
      have hread : ∀ s, Canonical s → Canonical (read s) := fun _ hs => ite_wf hs (partialRead_wf hs)
      have hf : ∀ s, Canonical s → ∀ x ∈ some (homeWrite (read s) core line (fun s => entWrite s c inCache o e)), Canonical x :=
        fun s hs => some_all (homeWrite_wf (hread s hs) (fun _ hs => entWrite_wf hs))
      split
      · next e1 =>
        have hs1 : Canonical _ := (toHome_wf h hf).of_some e1
        exact both_some (noteGrant_wf hs1) hs1
      · next e1 => exact both_none ((toHome_wf h hf).of_none e1)

theorem storeDrain_wf {t : Nat} {o : EccRead} (h : Canonical s) : Canonical (storeDrain s t o) := by
  unfold storeDrain
  extract_lets x core
  split
  · exact h
  · extract_lets +onlyGivenNames line
    split
    · exact h
    · extract_lets pop
      have hpop : ∀ s, Canonical s → Canonical (pop s) := fun _ hs => resumeExc_wf (modThr_wf (forgetMiss_wf hs))
      split
      · exact hpop _ (cleanLine_wf h)
      · exact hpop _ (cleanLine_wf h)
      · split
        · next e => exact hpop _ ((storeOut_wf h).of_some e)
        · next e => exact (storeOut_wf h).of_none e

theorem servedIn_wf {core line : Nat} (h : Canonical s) : ∀ x ∈ servedIn s core line, Canonical x := by
  unfold servedIn
  extract_lets +onlyGivenNames c
  split
  · exact ite_all (some_all (cTouch_wf h)) none_all
  · next e =>
      split
      · exact some_all (fillL1_wf (countCore_wf (dropPrefetch_wf h)))
      · split
        · exact ite_all none_all (some_all (fillL1_wf (countCl_wf (cTouch_wf (shareInCluster_wf h)))))
        · split
          · exact ite_all (some_all h) none_all
          · refine map_all ?_
            intro x2 e
            have hx : Canonical x2 := reinstall_wf h _ e
            exact fillL1_wf hx

theorem atomicOut_wf {t : Nat} {a : Acc} {op : AtomicOp} (h : Canonical s) : Canonical (atomicOut s t a op) := by
  unfold atomicOut
  extract_lets +onlyGivenNames core c line
  split
  · split
    · exact h
    · have hh : BothCanonical (toHome s c line some) := toHome_wf h (fun _ hs => some_all hs)
      split
      · next e => exact atomicNow_wf (noteGrant_wf (hh.of_some e)) (fun _ _ hs hf => homeAtomic_wf hs hf)
      · next e => exact hh.of_none e
  · extract_lets s0?
    have hs0 : ∀ x ∈ s0?, Canonical x := ite_all (reinstall_wf h) (some_all h)
    clear_value s0?
    split
    · exact countCl_wf h
    · next s0 =>
      have hs0 : Canonical s0 := hs0 _ rfl
      exact ite_wf (atomicHere_wf (forgetMiss_wf hs0)) hs0

theorem loadReturn_wf {t n : Nat} (h : Canonical s) : Canonical (loadReturn s t n) := by
  unfold loadReturn
  extract_lets +onlyGivenNames x
  split
  · exact h
  · split
    · exact ite_wf (completeAcc_wf h) h
    · split
      · exact ite_wf h (atomicOut_wf h)
      · split
        · exact completeAcc_wf h
        · split
          · exact h
          · split
            · next s2 e5 =>
                have hs : Canonical s2 := servedIn_wf h _ e5
                exact completeAcc_wf (forgetMiss_wf hs)
            · exact h

theorem execLd_wf {t : Thr} {rd rs1 : GReg} {off : BitVec 14} {s : State} (h : Canonical s.dev) :
    NextCanonical (execLd t rd rs1 off s) := load_wf h

theorem execLdv_wf {t : Thr} {rd rs1 : GReg} {off : BitVec 14} {s : State} (h : Canonical s.dev) :
    NextCanonical (execLdv t rd rs1 off s) := load_wf h

theorem execLdb_wf {t : Thr} {rd rs1 : GReg} {off : BitVec 14} {s : State} (h : Canonical s.dev) :
    NextCanonical (execLdb t rd rs1 off s) := load_wf h

theorem execLdbu_wf {t : Thr} {rd rs1 : GReg} {off : BitVec 14} {s : State} (h : Canonical s.dev) :
    NextCanonical (execLdbu t rd rs1 off s) :=
  load_wf h

theorem execLdh_wf {t : Thr} {rd rs1 : GReg} {off : BitVec 14} {s : State} (h : Canonical s.dev) :
    NextCanonical (execLdh t rd rs1 off s) := load_wf h

theorem execLdhu_wf {t : Thr} {rd rs1 : GReg} {off : BitVec 14} {s : State} (h : Canonical s.dev) :
    NextCanonical (execLdhu t rd rs1 off s) :=
  load_wf h

theorem execLdw_wf {t : Thr} {rd rs1 : GReg} {off : BitVec 14} {s : State} (h : Canonical s.dev) :
    NextCanonical (execLdw t rd rs1 off s) := load_wf h

theorem execLdwu_wf {t : Thr} {rd rs1 : GReg} {off : BitVec 14} {s : State} (h : Canonical s.dev) :
    NextCanonical (execLdwu t rd rs1 off s) :=
  load_wf h

theorem execSt_wf {t : Thr} {rs2 rs1 : GReg} {off : BitVec 14} {s : State} (h : Canonical s.dev) : NextCanonical (execSt t rs2 rs1 off s) :=
  store_wf h

theorem execStv_wf {t : Thr} {rs2 rs1 : GReg} {off : BitVec 14} {s : State} (h : Canonical s.dev) :
    NextCanonical (execStv t rs2 rs1 off s) :=
  store_wf h

theorem execStb_wf {t : Thr} {rs2 rs1 : GReg} {off : BitVec 14} {s : State} (h : Canonical s.dev) :
    NextCanonical (execStb t rs2 rs1 off s) :=
  store_wf h

theorem execSth_wf {t : Thr} {rs2 rs1 : GReg} {off : BitVec 14} {s : State} (h : Canonical s.dev) :
    NextCanonical (execSth t rs2 rs1 off s) :=
  store_wf h

theorem execStw_wf {t : Thr} {rs2 rs1 : GReg} {off : BitVec 14} {s : State} (h : Canonical s.dev) :
    NextCanonical (execStw t rs2 rs1 off s) :=
  store_wf h

theorem execAtswap_wf {t : Thr} {rd rs1 rs2 : GReg} {s : State} (h : Canonical s.dev) :
    NextCanonical (execAtswap t rd rs1 rs2 s) := atomicInsn_wf h

theorem execAtadd_wf {t : Thr} {rd rs1 rs2 : GReg} {s : State} (h : Canonical s.dev) :
    NextCanonical (execAtadd t rd rs1 rs2 s) := atomicInsn_wf h

theorem execAtcas_wf {t : Thr} {rd rs1 rs2 rs3 : GReg} {s : State} (h : Canonical s.dev) : NextCanonical (execAtcas t rd rs1 rs2 rs3 s) :=
  atomicInsn_wf h

theorem execAtmin_wf {t : Thr} {rd rs1 rs2 : GReg} {s : State} (h : Canonical s.dev) :
    NextCanonical (execAtmin t rd rs1 rs2 s) := atomicInsn_wf h

theorem execAtmax_wf {t : Thr} {rd rs1 rs2 : GReg} {s : State} (h : Canonical s.dev) :
    NextCanonical (execAtmax t rd rs1 rs2 s) := atomicInsn_wf h

theorem execCclean_wf {t : Thr} {rs1 : GReg} {off : BitVec 14} {s : State} (h : Canonical s.dev) : NextCanonical (execCclean t rs1 off s) :=
  cacheOp_wf h

theorem execCflush_wf {t : Thr} {rs1 : GReg} {off : BitVec 14} {s : State} (h : Canonical s.dev) : NextCanonical (execCflush t rs1 off s) :=
  cacheOp_wf h

theorem execCzero_wf {t : Thr} {rs1 : GReg} {off : BitVec 14} {s : State} (h : Canonical s.dev) : NextCanonical (execCzero t rs1 off s) :=
  cacheOp_wf h

theorem execIcinv_wf {t : Thr} {rs1 : GReg} {off : BitVec 14} {s : State} (h : Canonical s.dev) : NextCanonical (execIcinv t rs1 off s) :=
  cacheOp_wf h

theorem execStoreDrain_wf {x : DrainTurn} {s : State} (h : Canonical s.dev) :
    NextCanonical (execStoreDrain x s) := onDev_wf (storeDrain_wf h)

theorem execLoadReturn_wf {t : Thr} {n : Nat} {s : State} (h : Canonical s.dev) :
    NextCanonical (execLoadReturn t n s) := onDev_wf (loadReturn_wf h)

end Sys2Proof.Machine
end

section
/-! PROOFS. The storage keeps its canonical form (O4): coherence. -/
namespace Sys2Proof.Machine

variable {s : Dev}

theorem captureLoads_wf {core line : Nat} (h : Canonical s) : Canonical (captureLoads s core line) :=
  foldl_wf (fun _ _ hs => foldl_wf (fun _ _ hs1 => ite_wf (modThr_wf hs1) hs1) hs) h

theorem dirLoad_wf {core line : Nat} {o : EccRead} (h : Canonical s) : Canonical (dirLoad s core line o) := by
  unfold dirLoad
  extract_lets c data
  split
  · exact h
  · split
    · exact getD_wf (reinstall_wf (noteGrant_wf h)) (countCl_wf h)
    · have hf : ∀ s, Canonical s → ∀ x ∈ cohRead (countCl s c 0x03) core line data o, Canonical x := fun _ hs => cohRead_wf (countCl_wf hs)
      split
      · next e => exact captureLoads_wf (noteGrant_wf ((toHome_wf h hf).of_some e))
      · next e => exact (toHome_wf h hf).of_none e

theorem dirPrefetch_wf {core line : Nat} {o : EccRead} (h : Canonical s) : Canonical (dirPrefetch s core line o) := by
  unfold dirPrefetch
  extract_lets c done
  have hdone : ∀ s, Canonical s → Canonical (done s) := fun _ hs => putPrefetched_wf (setWanted_wf (shareInCluster_wf hs))
  split
  · exact h
  · split
    · exact hdone _ h
    · split
      · exact getD_wf (map_all fun _ e => hdone _ (reinstall_wf h _ e)) (countCl_wf h)
      · split
        · exact h
        · have hf : ∀ s, Canonical s → ∀ x ∈ cohRead s core line false o, Canonical x := fun _ hs => cohRead_wf hs
          split
          · next e => exact hdone _ (noteSource_wf ((toHome_wf h hf).of_some e))
          · next e => exact (toHome_wf h hf).of_none e

theorem dirOwn_wf {core line : Nat} {o : EccRead} (h : Canonical s) : Canonical (dirOwn s core line o) := by
  unfold dirOwn
  extract_lets c s0?
  split
  · exact h
  · have hs0 : ∀ x ∈ s0?, Canonical x := ite_all (reinstall_wf h) (some_all h)
    clear_value s0?
    split
    · exact countCl_wf h
    · next s0 =>
      have hs0 : Canonical s0 := hs0 _ rfl
      have hf : ∀ s, Canonical s → ∀ x ∈ cohOwn s core line (wantsData s core line) o, Canonical x := fun _ hs => cohOwn_wf hs
      split
      · next e => exact noteGrant_wf ((toHome_wf hs0 hf).of_some e)
      · next e => exact (toHome_wf hs0 hf).of_none e

theorem dirWriteBack_wf {c : Nat} (h : Canonical s) : Canonical (dirWriteBack s c) := by
  unfold dirWriteBack
  split
  · exact h
  · split
    · exact h
    · exact ite_wf h (toHome_wf h (fun _ hs => some_all (noteSource_wf (cohWriteBack_wf hs)))).snd

theorem dirTransaction_wf {core line : Nat} {k : CohKind} {o : EccRead} (h : Canonical s) : Canonical (dirTransaction s core line k o) := by
  unfold dirTransaction
  split
  · exact h
  · split
    · exact dirLoad_wf h
    · exact dirPrefetch_wf h
    · exact dirOwn_wf h
    · exact dirWriteBack_wf h

theorem execDirectoryTransaction_wf {core : CoreId} {line : Nat} {k : CohKind} {o : EccRead} {s : State} (h : Canonical s.dev) :
    NextCanonical (execDirectoryTransaction core line k o s) :=
  onDev_wf (dirTransaction_wf h)

theorem ioAgent_wf {src pa n : Nat} {f : Dev → Dev} (h : Canonical s) (h1 : ∀ s, Canonical s → Canonical (f s)) :
    Canonical (ioAgent s src pa n f) :=
  engineAct_wf h (fun _ hs => dramTaken_wf (h1 _ (foldl_wf (fun _ _ hs1 => takeCredit_wf hs1) hs)))

theorem execIoRead_wf {x : IoWord} {s : State} (h : Canonical s.dev) : NextCanonical (execIoRead x s) :=
  onDev_wf (ite_wf (ioAgent_wf h (fun _ hs => (ioRead_wf (ite_wf hs (partialRead_wf hs))).update)) h)

theorem execIoWrite_wf {x : IoPlace} {y : IoBytes} {part : PartId} {stash : Option ClusterId} {s : State} (h : Canonical s.dev) :
    NextCanonical (execIoWrite x y part stash s) := by
  unfold execIoWrite
  refine onDev_wf ?_
  extract_lets +onlyGivenNames a
  split
  · exact h
  · refine ioAgent_wf h (fun s hs => ?_)
    split
    · exact ioStashWrite_wf hs
    · exact ioWriteEcc_wf hs

theorem emptyL1_wf {core : Nat} (h : Canonical s) : Canonical (emptyL1 s core) :=
  foldl_wf (fun _ _ hs => ite_wf (cDel_wf (toDram_wf hs)) (dropL1_wf hs)) h

theorem emptyL2_wf {c : Nat} (h : Canonical s) : Canonical (emptyL2 s c) :=
  foldl_wf (fun _ _ hs => dirLeave_wf (dropCluster_wf (ite_wf (countCl_wf (toDram_wf hs)) hs))) h

theorem l1Off_wf {core : Nat} (h : Canonical s) :
    Canonical (l1Off s core) := ite_wf h (ite_wf (setL1State_wf h) (setL1State_wf (emptyL1_wf h)))

theorem l1On_wf {core : Nat} (h : Canonical s) : Canonical (l1On s core) := ite_wf (setL1State_wf h) h

theorem l2Off_wf {c : Nat} (h : Canonical s) : Canonical (l2Off s c) := by
  unfold l2Off
  extract_lets +onlyGivenNames s1
  have h1 : Canonical s1 := foldl_wf (fun _ _ hs => l1Off_wf hs) h
  exact ite_wf h1 (ite_wf (setL2State_wf (emptyL2_wf h1)) (setL2State_wf h1))

theorem l2On_wf {c : Nat} (h : Canonical s) : Canonical (l2On s c) := ite_wf (setL2State_wf (modCache_wf h)) (setL2State_wf h)

theorem cacheEnables_wf {c l1 : Nat} {l2 : Bool} (h : Canonical s) : Canonical (cacheEnables s c l1 l2) := by
  unfold cacheEnables
  extract_lets +onlyGivenNames s1 s2
  have h1 : Canonical s1 := fset_wf (fset_wf h)
  have h2 : Canonical s2 := ite_wf (l2On_wf h1) (l2Off_wf h1)
  exact foldl_wf (fun _ _ hs => ite_wf (l1On_wf hs) (setPrefetched_wf (emptyL1I_wf (l1Off_wf hs)))) h2

theorem execCacheEnableWrite_wf {who : Agent} {c : ClusterId} {l1 : Byte} {l2 : Bool} {s : State} (h : Canonical s.dev) :
    NextCanonical (execCacheEnableWrite who c l1 l2 s) :=
  onDev_wf (whenOn_wf h (fun _ hs => cacheEnables_wf hs))

theorem drainComplete_wf {c : Nat} {core : Option Nat} (h : Canonical s) : Canonical (drainComplete s c core) := by
  unfold drainComplete
  split
  · exact ite_wf (setL1State_wf (emptyL1_wf h)) h
  · exact ite_wf (setL2State_wf (emptyL2_wf h)) h

theorem execDrainComplete_wf {c : ClusterId} {core : Option (Fin 8)} {s : State} (h : Canonical s.dev) :
    NextCanonical (execDrainComplete c core s) :=
  onDev_wf (drainComplete_wf h)

theorem markLane_wf {ch i : Nat} {mark : Bool} {dev : Nat} (h : Canonical s) : Canonical (markLane s ch i mark dev) :=
  ite_wf (addRepair_wf (logRec_wf (fset_wf (ite_wf (fset_wf h) (fset_wf h))))) (ite_wf (fset_wf h) (fset_wf h))

theorem execDeviceMark_wf {who : Agent} {ch : ChanId} {i : Fin 8} {dev : Fin 16} {s : State} (h : Canonical s.dev) :
    NextCanonical (execDeviceMark who ch i dev s) :=
  onDev_wf (whenOn_wf h (fun _ hs => markLane_wf hs))

theorem setScrub_wf {ch : Nat} {x : ScrubSt} (h : Canonical s) : Canonical (setScrub s ch x) := modCache_wf h

theorem scrubLine_wf {ch : Nat} {o : EccRead} (h : Canonical s) : Canonical (scrubLine s ch o) := by
  unfold scrubLine
  extract_lets +onlyGivenNames n
  split
  · exact h
  · extract_lets +onlyGivenNames x period s0 s1 line r
    have h0 : Canonical s0 := advanceOp_wf h
    have h1 : Canonical s1 := ite_wf (modCache_wf h0) h0
    have hr : Canonical r.1 := by
      unfold r
      split
      · exact h1
      · split
        · exact h1
        · exact decodeLine_wf h1
        · exact decodeLine_wf h1
    exact ite_wf (setScrub_wf hr) (logRec_wf (fincWrap_wf (setScrub_wf hr)))

theorem execScrubLine_wf {ch : ChanId} {o : EccRead} {s : State} (h : Canonical s.dev) : NextCanonical (execScrubLine ch o s) :=
  onDev_wf (scrubLine_wf h)

theorem dropFrom_wf {cid line : Nat} (h : Canonical s) : Canonical (dropFrom s cid line) :=
  ite_wf (dropL1_wf h) (ite_wf (cDel_wf h) (dirLeave_wf (dropCluster_wf (ite_wf (toDram_wf h) h))))

theorem retireWay_wf {cid way : Nat} (h : Canonical s) : Canonical (retireWay s cid way) := by
  unfold retireWay
  extract_lets c ls s1 s2
  have hs2 : Canonical s2 := logRec_wf (addRepair_wf (foldl_wf (fun _ _ hs => dropFrom_wf hs) h))
  exact ite_wf h (ite_wf (logRec_wf h) (ite_wf hs2 (fset_wf hs2)))

theorem noteFixes_wf {cid way n : Nat} (h : Canonical s) :
    Canonical (noteFixes s cid way n) := ite_wf (retireWay_wf (modCache_wf h)) (modCache_wf h)

theorem uncorrectedIn_wf {cid set way word : Nat} (h : Canonical s) : Canonical (uncorrectedIn s cid set way word) := by
  unfold uncorrectedIn
  split
  · exact h
  · exact ite_wf (logLimited_wf (setPoison_wf _ _ _ h)) (dropFrom_wf h)

theorem tagLostIn_wf {cid set way : Nat} (h : Canonical s) : Canonical (tagLostIn s cid set way) := by
  unfold tagLostIn
  dsimp only
  refine retireWay_wf ?_
  split
  · exact h
  · split
    · exact logRec_wf (ite_wf (ite_wf (toDram_wf (modCache_wf h)) (restoreBack_wf (modCache_wf h)))
          (dirLeave_wf (dropCluster_wf (ite_wf (toDram_wf (modCache_wf h)) (restoreBack_wf (modCache_wf h))))))
    · exact dropFrom_wf h

theorem dirLost_wf {slice set way : Nat} (h : Canonical s) : Canonical (dirLost s slice set way) := by
  unfold dirLost
  split
  · exact h
  · exact delDir_wf (invalidateHolders_wf h)

theorem cacheFind_wf {a : CacheArray} {set : Nat} {scrub : Bool} {f : CacheFind} (h : Canonical s) :
    Canonical (cacheFind s a set scrub f) := by
  unfold cacheFind
  extract_lets +onlyGivenNames src
  split
  · extract_lets +onlyGivenNames s1
    have h1 : Canonical s1 := logLimited_wf h
    split
    · exact ite_wf (noteFixes_wf h1) h1
    · exact h1
  · split
    · exact setPrefetched_wf h
    · split
      · exact ite_wf (logLimited_wf (setPoison_wf _ _ _ h)) h
      · exact h
    · exact dirLost_wf h
    · split
      · exact uncorrectedIn_wf h
      · exact h
  · split
    · exact setPrefetched_wf h
    · split
      · exact ite_wf (logRec_wf (restoreBack_wf (dirLeave_wf (setEvicted_wf h)))) (dirLeave_wf (setEvicted_wf h))
      · exact h
    · exact dirLost_wf h
    · split
      · exact tagLostIn_wf h
      · exact h

theorem cacheScrub_wf {a : CacheArray} {l : List (Option (Fin 16384) × CacheFind)} (h : Canonical s) : Canonical (cacheScrub s a l) :=
  ite_wf h (modCache_wf (foldl_wf (fun _ _ hs => cacheFind_wf hs) h))

theorem execCacheScrub_wf {a : CacheArray} {finds : List (Option (Fin 16384) × CacheFind)} {s : State} (h : Canonical s.dev) :
    NextCanonical (execCacheScrub a finds s) :=
  onDev_wf (cacheScrub_wf h)

end Sys2Proof.Machine
end

section
/-! PROOFS. The storage keeps its canonical form (O4): the forwarding database. -/
namespace Sys2Proof.Machine

variable {s : Dev}

theorem modErg_wf {f : ErgSt → ErgSt} (h : Canonical s) : Canonical (modErg s f) := h.update

theorem setSw_wf {t i d : Nat} {v : Word} (h : Canonical s) : Canonical (setSw s t i d v) := modErg_wf h

theorem setSwEntry_wf {t i : Nat} {l : List Word} (h : Canonical s) :
    Canonical (setSwEntry s t i l) := foldl_wf (fun _ _ hs => setSw_wf hs) h

theorem fdbCount_wf {was now : Bool} (h : Canonical s) : Canonical (fdbCount s was now) := ite_wf h (fset_wf h)

theorem setFdb_wf {i : Nat} {l : List Word} (h : Canonical s) : Canonical (setFdb s i l) := fdbCount_wf (modErg_wf (setSwEntry_wf h))

theorem clearFdb_wf {i : Nat} (h : Canonical s) : Canonical (clearFdb s i) := fdbCount_wf (modErg_wf (setSwEntry_wf h))

theorem fdbLearn_wf {mac vid dest : Nat} (h : Canonical s) : Canonical (fdbLearn s mac vid dest) := by
  unfold fdbLearn
  split
  · exact ite_wf h (ite_wf (modErg_wf h) (setFdb_wf h))
  · split
    · exact countErg_wf (setFdb_wf h)
    · exact logLimited_wf (fincSat_wf h)

theorem fdbAge_wf {i : Nat} (h : Canonical s) : Canonical (fdbAge s i) := ite_wf (clearFdb_wf (advanceTo_wf h)) h

theorem fdbFlushPort_wf {p : Nat} (h : Canonical s) : Canonical (fdbFlushPort s p) := foldl_wf (fun _ _ hs => ite_wf (clearFdb_wf hs) hs) h

theorem swOpSet_wf {op t : Nat} (h : Canonical s) : Canonical (swOpSet s op t) := fset_wf (fset_wf h)

theorem swIndexSet_wf {op t i : Nat} (h : Canonical s) : Canonical (swIndexSet s op t i) := fset_wf (swOpSet_wf h)

theorem setSwData_wf {l : List Word} (h : Canonical s) : Canonical (setSwData s l) := foldl_wf (fun _ _ hs => setReg_wf hs) h

theorem swTblRead_wf {t i : Nat} (h : Canonical s) : Canonical (swTblRead s t i) :=
  ite_wf (setSwData_wf (swIndexSet_wf h)) (fset_wf (swIndexSet_wf h))

theorem swPut_wf {t i : Nat} {l : List Word} (h : Canonical s) : Canonical (swPut s t i l) :=
  ite_wf (fset_wf h) (ite_wf (fset_wf h) (ite_wf (setFdb_wf h) (setSwEntry_wf h)))

theorem swTblWrite_wf {t i : Nat} (h : Canonical s) : Canonical (swTblWrite s t i) := swPut_wf (swIndexSet_wf h)

theorem fdbInsertOp_wf (h : Canonical s) : Canonical (fdbInsertOp s) := by
  unfold fdbInsertOp
  dsimp only
  split
  · exact fset_wf (setFdb_wf (swOpSet_wf h))
  · exact fset_wf (swOpSet_wf h)

theorem fdbDeleteOp_wf (h : Canonical s) : Canonical (fdbDeleteOp s) := by
  unfold fdbDeleteOp
  extract_lets +onlyGivenNames w0 s1
  have h1 : Canonical s1 := swOpSet_wf h
  split
  · exact clearFdb_wf h1
  · exact fset_wf h1

end Sys2Proof.Machine
end

section
/-! PROOFS. The storage keeps its canonical form (O4): the mailboxes. -/
namespace Sys2Proof.Machine

variable {s : Dev}

theorem setMbox_wf {m : Nat} {x : MboxSt} (h : Canonical s) : Canonical (setMbox s m x) := h.update

theorem mboxBusyErr_wf {m : Nat} (h : Canonical s) : Canonical (mboxBusyErr s m) := ite_wf (fset_wf h) (ite_wf (fset_wf h) h)

theorem respond_wf {m status : Nat} {ws : List Word} (h : Canonical s) : Canonical (respond s m status ws) := setMbox_wf h

theorem noteBusy_wf {m : Nat} (h : Canonical s) : Canonical (noteBusy s m) := h.update

theorem mboxSend_wf {m : Nat} (h : Canonical s) : Canonical (mboxSend s m) := by
  unfold mboxSend
  split
  · exact mboxBusyErr_wf h
  · exact ite_wf (respond_wf (noteBusy_wf (fset_wf (setMbox_wf (ite_wf h.update h))))) (fset_wf (setMbox_wf (ite_wf h.update h)))

theorem notify_wf {m code : Nat} {ws : List Word} (h : Canonical s) : Canonical (notify s m code ws) := ite_wf (fset_wf (setMbox_wf h)) h

theorem placeInbound_wf {m : Nat} {ws : List Word} (h : Canonical s) : Canonical (placeInbound s m ws) := by
  unfold placeInbound
  extract_lets +onlyGivenNames _ s1
  have h1 : Canonical s1 := fset_wf (setMbox_wf h)
  exact ite_wf (ite_wf (raise_wf h1) h1) (ite_wf (raise_wf h1) h1)

theorem mboxPlace_wf {m : Nat} (h : Canonical s) : Canonical (mboxPlace s m) := by
  unfold mboxPlace
  split
  · exact h
  · extract_lets +onlyGivenNames s' x
    have hs' : Canonical s' := ite_wf (respond_wf h) h
    split
    · exact ite_wf (placeInbound_wf (fset_wf (setMbox_wf hs'))) (placeInbound_wf (fset_wf (setMbox_wf hs')))
    · exact placeInbound_wf (fset_wf (setMbox_wf hs'))
    · exact ite_wf hs' (placeInbound_wf (fset_wf (setMbox_wf hs')))
    · exact hs'

theorem mboxAck_wf {m : Nat} (h : Canonical s) : Canonical (mboxAck s m) := fset_wf h

theorem mboxRead_wf {m : Nat} (h : Canonical s) : Canonical (mboxRead s m) := (fset_wf h).update

theorem mboxWrite_wf {m : Nat} {v : Word} (h : Canonical s) : Canonical (mboxWrite s m v) :=
  ite_wf (mboxBusyErr_wf (fset_wf h)) (setMbox_wf (fset_wf h))

theorem mboxRun_wf {m code : Nat} {f : Dev → Dev} (h : Canonical s) (h1 : ∀ s, Canonical s → Canonical (f s)) :
    Canonical (mboxRun s m code f) :=
  ite_wf (h1 _ (setMbox_wf h)) h

theorem mboxClear_wf {m : Nat} (h : Canonical s) : Canonical (mboxClear s m) := fset_wf (fset_wf (fset_wf (setMbox_wf h)))

end Sys2Proof.Machine
end

section
/-! PROOFS. The storage keeps its canonical form (O4): the device's instances. -/
namespace Sys2Proof.Machine

variable {s : Dev}

theorem setInst_wf {i : Nat} {x : InstSt} (h : Canonical s) : Canonical (setInst s i x) := h.update

theorem modInst_wf {i : Nat} {f : InstSt → InstSt} (h : Canonical s) : Canonical (modInst s i f) := setInst_wf h

theorem setPiState_wf {i v : Nat} (h : Canonical s) : Canonical (setPiState s i v) := fset_wf h

theorem setQdir_wf {i q d : Nat} {x : QDir} (h : Canonical s) : Canonical (setQdir s i q d x) := modInst_wf h

theorem setReqs_wf {i : Nat} {l : List PiReq} (h : Canonical s) : Canonical (setReqs s i l) := fset_wf (modInst_wf h)

theorem stopQueue_wf {i q d code : Nat} (h : Canonical s) : Canonical (stopQueue s i q d code) := logLimited_wf (fset_wf (setQdir_wf h))

theorem readDesc_wf {i q d idx : Nat} (h : Canonical s) : Canonical (readDesc s i q d idx).2 := by
  unfold readDesc
  split
  · next e =>
      have hs := snd_wf (ioRange_wf h) e
      exact ite_snd_wf (drawFree_wf (drawFree_wf (ioReadParts_wf hs))) (ioReadParts_wf hs)
  · next e => exact snd_wf (ioRange_wf h) e

theorem complete_wf {i q d time : Nat} {w1 : Word} (h : Canonical s) : Canonical (complete s i q d time w1) := by
  unfold complete
  extract_lets +onlyGivenNames x
  split
  · next e =>
      have hs := snd_wf (ioRange_wf h) e
      exact ite_wf (raise_wf (setQdir_wf (ioWriteParts_wf hs))) (setQdir_wf (ioWriteParts_wf hs))
  · next e => exact stopQueue_wf (snd_wf (ioRange_wf h) e)

theorem nextDesc_wf {i q d : Nat} (h : Canonical s) : Canonical (nextDesc s i q d).2 := by
  unfold nextDesc
  extract_lets +onlyGivenNames x
  split
  · exact h
  · split
    · next e1 => exact stopQueue_wf (snd_wf (readDesc_wf h) e1)
    · next e1 =>
        have hs := snd_wf (readDesc_wf h) e1
        exact ite_snd_wf hs (ite_snd_wf (fincSat_wf (setQdir_wf hs)) (ite_snd_wf (stopQueue_wf hs) hs))

theorem abortAll_wf {i q d fuel : Nat} (h : Canonical s) : Canonical (abortAll i q d fuel s) := by
  induction fuel generalizing s with
  | zero =>
    rw [abortAll]
    exact h
  | succ fuel ih =>
    rw [abortAll]
    split
    · exact h
    · split
      · next e1 => exact snd_wf (readDesc_wf h) e1
      · next e2 =>
          have hs := snd_wf (readDesc_wf h) e2
          exact ite_wf (complete_wf hs) (ih (complete_wf hs))

theorem disableQueue_wf {i q d : Nat} (h : Canonical s) : Canonical (disableQueue s i q d) := setQdir_wf (abortAll_wf h)

theorem rxDrop_wf {i : Nat} (h : Canonical s) : Canonical (rxDrop s i) := fincSat_wf h

theorem rxDeliver_wf {i port first : Nat} {bytes : List Byte} {tagged : Bool} {vid prio : Nat} {yellow : Bool} (h : Canonical s) :
    Canonical (rxDeliver s i port first bytes tagged vid prio yellow) := by
  unfold rxDeliver
  extract_lets +onlyGivenNames s'
  have hs' : Canonical s' := countErg_wf h
  split
  · exact hs'
  · extract_lets +onlyGivenNames f q
    split
    · next e1 => exact rxDrop_wf (snd_wf (nextDesc_wf hs') e1)
    · next e1 => exact rxDrop_wf (snd_wf (nextDesc_wf hs') e1)
    · next e1 =>
        have hs := snd_wf (nextDesc_wf hs') e1
        extract_lets +onlyGivenNames len
        split
        · exact fset_wf (rxDrop_wf hs)
        · split
          · next e3 => exact complete_wf (snd_wf (ioRange_wf hs) e3)
          · next e3 => exact complete_wf (ioWriteParts_wf (snd_wf (ioRange_wf hs) e3))

theorem doorbell_wf {i : Nat} {v : Word} (h : Canonical s) :
    Canonical (doorbell s i v) := ite_wf (fincSat_wf h) (ite_wf (fset_wf h) (setQdir_wf h))

theorem qpPut_wf {i q w : Nat} {v : Word} (h : Canonical s) : Canonical (qpPut s i q w v) := by
  unfold qpPut
  split
  · exact fset_wf h
  · extract_lets +onlyGivenNames x base log stash en irq
    split
    · exact fset_wf h
    · extract_lets +onlyGivenNames okStash s1 _ set
      have h1 : Canonical s1 := ite_wf h (fset_wf h)
      have hset : Canonical set := setQdir_wf h1
      exact ite_wf (setQdir_wf (disableQueue_wf h1)) (ite_wf hset (setQdir_wf hset))

theorem qpIndexSet_wf {i q w wr : Nat} (h : Canonical s) : Canonical (qpIndexSet s i q w wr) := fset_wf (fset_wf (fset_wf h))

theorem qpRead_wf {i q w : Nat} (h : Canonical s) :
    Canonical (qpRead s i q w) := ite_wf (fset_wf (qpIndexSet_wf h)) (setReg_wf (qpIndexSet_wf h))

theorem qpWrite_wf {i q w : Nat} (h : Canonical s) :
    Canonical (qpWrite s i q w) := ite_wf (fset_wf (qpIndexSet_wf h)) (qpPut_wf (qpIndexSet_wf h))

theorem installMac_wf {i mac : Nat} {vs : List Nat} (h : Canonical s) : ∀ x ∈ installMac s i mac vs, Canonical x := by
  induction vs generalizing s with
  | nil =>
    rw [installMac]
    exact some_all h
  | cons x vs ih =>
    rw [installMac]
    split
    · exact ite_all none_all (ih (setFdb_wf h))
    · split
      · exact ih (setFdb_wf h)
      · exact none_all

theorem removeMac_wf {i mac : Nat} {vs : List Nat} (h : Canonical s) : Canonical (removeMac s i mac vs) := by
  unfold removeMac
  refine foldl_wf (fun s b hs => ?_) h
  split
  · exact ite_wf (clearFdb_wf hs) hs
  · exact hs

theorem instResetStart_wf {i : Nat} (h : Canonical s) : Canonical (instResetStart s i) := fset_wf (setPiState_wf (modInst_wf h))

theorem answerManager_wf {c : PiChange} (h : Canonical s) : Canonical (answerManager s c) := ite_wf (respond_wf h) h

theorem applyResize_wf {i count : Nat} (h : Canonical s) : Canonical (applyResize s i count) :=
  fset_wf (modInst_wf (ite_wf (foldl_wf (fun _ _ hs => disableQueue_wf (disableQueue_wf hs)) h) h))

theorem applyPolicy_wf {i : Nat} {vids : List Nat} (h : Canonical s) : Canonical (applyPolicy s i vids) :=
  modInst_wf (foldl_wf (fun _ _ hs => removeMac_wf hs) h)

theorem clearInstFdb_wf {i : Nat} (h : Canonical s) : Canonical (clearInstFdb s i) := foldl_wf (fun _ _ hs => ite_wf (clearFdb_wf hs) hs) h

theorem unmapPage_wf {part pa : Nat} (h : Canonical s) : Canonical (unmapPage s part pa) := tlbDropAll_wf (setPart_wf h)

theorem applyChange_wf {i : Nat} (h : Canonical s) : Canonical (applyChange s i) := by
  unfold applyChange
  split
  · exact h
  · split
    · exact answerManager_wf (modInst_wf (applyResize_wf h))
    · exact ite_wf (answerManager_wf (modInst_wf (applyPolicy_wf h))) (modInst_wf h)

theorem instResetEnd_wf {i : Nat} (h : Canonical s) : Canonical (instResetEnd s i) := by
  unfold instResetEnd
  split
  · exact h
  · extract_lets x s1 s2 s2' s3 box s4 s5 s6 s7 s8 s9
    have hs3 : Canonical s3 := mboxClear_wf (fset_wf (modInst_wf (fset_wf (fset_wf h))))
    have hs4 : Canonical s4 := by
      unfold s4
      split
      · exact fset_wf (setMbox_wf hs3)
      · exact hs3
    have hs6 : Canonical s6 := applyChange_wf (setPiState_wf (modInst_wf hs4))
    have hs7 : Canonical s7 := unmapPage_wf (clearInstFdb_wf hs6)
    have hs8 : Canonical s8 := by
      unfold s8
      split
      · exact answerManager_wf hs7
      · exact hs7
    exact ite_wf (setPiState_wf (fset_wf (setInst_wf hs8))) hs6

theorem instResetLate_wf {i : Nat} (h : Canonical s) : Canonical (instResetLate s i) := ite_wf (logRec_wf (modInst_wf (advanceTo_wf h))) h

theorem staleReturn_wf {i : Nat} (h : Canonical s) : Canonical (staleReturn s i) := by
  unfold staleReturn
  split
  · exact h
  · exact fset_wf (fincSat_wf (setReqs_wf h))

end Sys2Proof.Machine
end

section
/-! PROOFS. The storage keeps its canonical form (O4): the switch. -/
namespace Sys2Proof.Machine

variable {s : Dev}

theorem setPort_wf {p : Nat} {x : PortSt} (h : Canonical s) : Canonical (setPort s p x) := modErg_wf h

theorem modPort_wf {p : Nat} {f : PortSt → PortSt} (h : Canonical s) : Canonical (modPort s p f) := setPort_wf h

theorem portCnt_wf {p j n : Nat} (h : Canonical s) : Canonical (portCnt s p j n) := setReg_wf h

theorem portModeDrop_wf {p : Nat} (h : Canonical s) : Canonical (portModeDrop s p) := ite_wf (fset_wf h) h

theorem putFrame_wf {f : BufFrame} (h : Canonical s) : Canonical (putFrame s f) := modErg_wf h

theorem addFrame_wf {f : BufFrame} (h : Canonical s) : Canonical (addFrame s f) := modErg_wf h

theorem showShared_wf (h : Canonical s) : Canonical (showShared s) := fset_wf (fset_wf h)

theorem charge_wf {p need : Nat} (h : Canonical s) : ∀ x ∈ charge s p need, Canonical x.2.2 :=
  ite_all (some_all (fset_wf (fset_wf (fset_wf h)))) none_all

theorem returnCells_wf {f : BufFrame} {n : Nat} (h : Canonical s) : Canonical (returnCells s f n) := by
  unfold returnCells
  extract_lets +onlyGivenNames sh r s1 s2
  have h1 : Canonical s1 := by
    unfold s1
    split
    · exact fset_wf (fset_wf h)
    · exact h
  have h2 : Canonical s2 := putFrame_wf h1
  exact fset_wf h2

theorem releaseFrame_wf {id : Nat} (h : Canonical s) : Canonical (releaseFrame s id) := by
  unfold releaseFrame
  split
  · exact h
  · exact ite_wf (putFrame_wf h) (modErg_wf (returnCells_wf h))

theorem useFrame_wf {id : Nat} (h : Canonical s) : Canonical (useFrame s id) := by
  unfold useFrame
  split
  · exact h
  · exact putFrame_wf h

theorem releaseScattered_wf {old : Dev} (h : Canonical s) : Canonical (releaseScattered old s) :=
  foldl_wf (fun _ _ hs => ite_wf hs (releaseFrame_wf hs)) h

theorem recoverStage_wf {hd : Nat} {rtag : Option Nat} (h : Canonical s) : Canonical (recoverStage s hd rtag).2 := by
  unfold recoverStage
  split
  · exact h
  · split
    · exact drawFree_wf h
    · exact modErg_wf h

theorem recoveryReset_wf {hd : Nat} (h : Canonical s) : Canonical (recoveryReset s hd) := ite_wf h (modErg_wf (advanceTo_wf h))

theorem meterFrame_wf {m len dei : Nat} (h : Canonical s) : Canonical (meterFrame s m len dei).2 :=
  ite_snd_wf (modErg_wf h) (ite_snd_wf (modErg_wf h) (ite_snd_wf (modErg_wf h) (ite_wf (setSw_wf (modErg_wf h)) (modErg_wf h))))

theorem filterStage_wf {hd len dei : Nat} (h : Canonical s) : Canonical (filterStage s hd len dei).2.2 := by
  unfold filterStage
  extract_lets +onlyGivenNames f w max
  split
  · exact h
  · split
    · exact ite_wf (setSw_wf h) h
    · split
      · extract_lets +onlyGivenNames m r
        have hr : Canonical r.2 := by
          unfold r
          exact meterFrame_wf h
        split
        · exact hr
        · split
          · exact hr
          · exact hr
        · exact hr
      · exact h

theorem forwardTo_wf {fromPort fromInst : Option Nat} {da vid : Nat} (h : Canonical s) :
    Canonical (forwardTo s fromPort fromInst da vid).2.2 := by
  unfold forwardTo
  extract_lets +onlyGivenNames okPort okInst
  split
  · extract_lets +onlyGivenNames s1 w
    have h1 : Canonical s1 := countErg_wf h
    split
    · exact h1
    · split
      · exact h1
      · extract_lets +onlyGivenNames d
        split
        · exact h1
        · split
          · exact h1
          · exact h1
  · exact countErg_wf h

theorem setQueue_wf {p tc : Nat} {l : List TxEnt} (h : Canonical s) : Canonical (setQueue s p tc l) := modPort_wf h

theorem enqueue_wf {p : Nat} {e : TxEnt} (h : Canonical s) : Canonical (enqueue s p e) :=
  ite_wf (releaseFrame_wf (portCnt_wf h)) (ite_wf (releaseFrame_wf (portCnt_wf h)) (setQueue_wf h))

theorem uncut_wf {p id : Nat} (h : Canonical s) : Canonical (uncut s p id) := releaseFrame_wf (modErg_wf (modPort_wf h))

theorem frameTxStart_wf {p : Nat} (h : Canonical s) : Canonical (frameTxStart s p) := by
  unfold frameTxStart
  split
  · exact h
  · extract_lets +onlyGivenNames stale s'
    have hs' : Canonical s' := foldl_wf (fun _ _ hs => uncut_wf hs) h
    split
    · exact ite_wf (countPort_wf hs') hs'
    · extract_lets +onlyGivenNames s1 interrupts s2 s3 s4 s5
      have h1 : Canonical s1 := setQueue_wf hs'
      have h2 : Canonical s2 := modPort_wf h1
      have h3 : Canonical s3 := portCnt_wf (portCnt_wf h2)
      have h4 : Canonical s4 := countPort_wf h3
      have h5 : Canonical s5 := ite_wf (countPort_wf h4) h4
      exact ite_wf (modErg_wf h5) h5

theorem frameTxDone_wf {p : Nat} (h : Canonical s) : Canonical (frameTxDone s p) := by
  unfold frameTxDone
  split
  · exact h
  · exact ite_wf h (releaseFrame_wf (modPort_wf h))

theorem rxDiscard_wf {p : Nat} {r : RxFrame} (h : Canonical s) : Canonical (rxDiscard s p r) := modPort_wf h

theorem admitFrame_wf {p : Nat} {r : RxFrame} (h : Canonical s) : Canonical (admitFrame s p r) := by
  unfold admitFrame
  extract_lets need
  split
  · exact rxDiscard_wf (countErg_wf (portCnt_wf h))
  · next s1 e =>
    have hs1 : Canonical s1 := charge_wf h _ e
    extract_lets id s2 s3 x
    have hs2 : Canonical s2 := addFrame_wf hs1
    have hs3 : Canonical s3 := ite_wf (countErg_wf hs2) hs2
    have hx : Canonical x.1 := foldl_keeps (P := fun x : Dev × List Nat => Canonical x.1) (fun x d hx => by
      split
      · exact ite_fst_wf (setQueue_wf (useFrame_wf hx)) hx
      · exact hx) hs3
    exact modPort_wf hx

theorem frameRxStart_wf {p : Nat} {express : Bool} {bytes : List Byte} (h : Canonical s) : Canonical (frameRxStart s p express bytes) := by
  unfold frameRxStart
  split
  · exact h
  · extract_lets hd first maxLen r0 s' c vid r1 asym acc handle s1 st5 dei st6 s2 cyclic fwd s3 f s4 r2
    have hs : Canonical s' := countErg_wf h
    have hs1 : Canonical s1 := ite_wf (countErg_wf hs) hs
    have h5 : Canonical st5.2 := by
      unfold st5
      generalize handle = o
      split
      · exact recoverStage_wf hs1
      · exact hs1
    have h6 : Canonical st6.2.2 := by
      unfold st6
      generalize handle = o
      split
      · exact filterStage_wf h5
      · exact h5
    have hs2 : Canonical s2 := ite_wf (fdbLearn_wf h6) h6
    have hs3 : Canonical s3 := ite_wf (countErg_wf hs2) hs2
    have hf : Canonical f.2.2 := by
      unfold f
      split
      · exact forwardTo_wf hs3
      · exact hs3
    have hs4 : Canonical s4 := ite_wf (portCnt_wf hf) hf
    have hbody := ite_wf (c := (f.2.1 && !cyclic) = true) (rxDiscard_wf (p := p) (r := r2) hs4) (admitFrame_wf (p := p) (r := r2) hs4)
    clear_value s' s1 st5 st6 s4
    refine ite_wf (rxDiscard_wf hs) (ite_wf (admitFrame_wf hs) (ite_wf ?_ (ite_wf ?_ (ite_wf ?_ (ite_wf ?_ hbody)))))
    · exact ite_wf (admitFrame_wf hs) (ite_wf (admitFrame_wf hs) (rxDiscard_wf hs))
    · exact rxDiscard_wf (portCnt_wf hs)
    · exact rxDiscard_wf (portCnt_wf h5)
    · exact rxDiscard_wf (portCnt_wf h6)

theorem endCuts_wf {r : RxFrame} {good : Bool} (h : Canonical s) : Canonical (endCuts s r good) := by
  unfold endCuts
  exact foldl_wf (fun _ _ hs => ite_wf (modPort_wf hs) (ite_wf (modPort_wf hs)
      (ite_wf (releaseFrame_wf (modPort_wf hs)) (modPort_wf hs)))) h

theorem cyclicEnd_wf {r : RxFrame} {hd ts : Nat} (h : Canonical s) : Canonical (cyclicEnd s r hd ts) := by
  unfold cyclicEnd
  extract_lets +onlyGivenNames body ok k c s1
  have h1 : Canonical s1 := cyclicFrame_wf h
  split
  · extract_lets +onlyGivenNames l s3 s4
    have h3 : Canonical s3 := ite_wf (useFrame_wf (setScatterQueue_wf h1)) h1
    have h4 : Canonical s4 := holdFrame_wf h3
    exact ite_wf h4 (modErg_wf (useFrame_wf h4))
  · exact h1

theorem deliver_wf {p : Nat} {r : RxFrame} (h : Canonical s) : Canonical (deliver s p r) := by
  unfold deliver
  extract_lets +onlyGivenNames body hasTag
  refine foldl_wf (fun s b hs => ?_) h
  split
  · exact ite_wf hs (enqueue_wf (useFrame_wf hs))
  · exact rxDeliver_wf hs
  · exact ite_wf hs (modErg_wf hs)

theorem countFec_wf {p corrected uncorrected : Nat} (h : Canonical s) :
    Canonical (countFec s p corrected uncorrected) := fincSat_wf (fincSat_wf h)

theorem noteArrived_wf {p : Nat} {r : RxFrame} {ts : Nat} (h : Canonical s) : Canonical (noteArrived s p r ts) := modPort_wf h

theorem frameRxEnd_wf {p : Nat} {express : Bool} {ts : Nat} (h : Canonical s) : Canonical (frameRxEnd s p express ts) := by
  unfold frameRxEnd
  split
  · exact h
  · extract_lets +onlyGivenNames ts' s0
    have h0 : Canonical s0 := advanceTo_wf h
    split
    · exact countPort_wf (stallOn_wf (noteArrived_wf h0))
    · split
      · exact foldl_wf (fun _ _ hs => stallQueue_wf hs) (noteArrived_wf h0)
      · extract_lets +onlyGivenNames s0' s1 n s2 badLen badFcs s2' s2'2 s3
        have hs0' : Canonical s0' := ite_wf h0 (takeCredit_wf h0)
        have h1 : Canonical s1 := modPort_wf hs0'
        have h2 : Canonical s2 := portCnt_wf (portCnt_wf h1)
        have hs2' : Canonical s2' := ite_wf (portCnt_wf h2) h2
        have hs2'2 : Canonical s2'2 := ite_wf (portCnt_wf hs2') hs2'
        have h3 : Canonical s3 := ite_wf (portCnt_wf hs2'2) hs2'2
        split
        · exact h3
        · dsimp only
          refine releaseFrame_wf ?_
          split
          · refine endCuts_wf ?_
            split
            · exact returnCells_wf h3
            · exact h3
          · split
            · refine pathHeartbeat_wf ?_
              refine endCuts_wf ?_
              split
              · exact returnCells_wf h3
              · exact h3
            · refine deliver_wf ?_
              split
              · refine cyclicEnd_wf ?_
                refine endCuts_wf ?_
                split
                · exact returnCells_wf h3
                · exact h3
              · refine endCuts_wf ?_
                split
                · exact returnCells_wf h3
                · exact h3

theorem releaseHeld_wf {c : Nat} (h : Canonical s) :
    Canonical (releaseHeld s c) := foldl_wf (fun _ _ hs => releaseFrame_wf hs) (modErg_wf h)

theorem notePortFault_wf {p : Nat} {fault : Bool} (h : Canonical s) : Canonical (notePortFault s p fault) := ite_wf (fset_wf h) h

theorem linkDown_wf {p : Nat} (h : Canonical s) : Canonical (linkDown s p) := by
  unfold linkDown
  split
  · exact h
  · extract_lets +onlyGivenNames x ents queued s1 s2 s3 s4 s5
    have h1 : Canonical s1 := foldl_wf (fun _ _ hs => releaseFrame_wf hs) (portCnt_wf h)
    have h2 : Canonical s2 := foldl_wf (fun _ _ hs => ite_wf hs (releaseFrame_wf (endCuts_wf hs))) h1
    have h3 : Canonical s3 := modPort_wf h2
    have h4 : Canonical s4 := fset_wf (fset_wf h3)
    have h5 : Canonical s5 := ite_wf (fset_wf h4) h4
    exact logRec_wf (fdbFlushPort_wf h5)

theorem linkUpEvent_wf {p : Nat} (h : Canonical s) : Canonical (linkUpEvent s p) := by
  unfold linkUpEvent
  split
  · exact h
  · split
    · exact h
    · extract_lets +onlyGivenNames _ s1 s2 s3
      have h1 : Canonical s1 := ite_wf h (fset_wf (fset_wf h))
      have h2 : Canonical s2 := fset_wf (fset_wf h1)
      have h3 : Canonical s3 := ite_wf (fset_wf h2) h2
      exact logRec_wf h3

theorem autoNegotiation_wf {p : Nat} {ability : BitVec 32} {modes fec : Nat} (h : Canonical s) :
    Canonical (autoNegotiation s p ability modes fec) := by
  unfold autoNegotiation
  split
  · exact h
  · dsimp only
    split
    · exact fset_wf h
    · exact fset_wf (fset_wf (fset_wf (fset_wf h)))

theorem portEn_wf {p : Nat} {on : Bool} (h : Canonical s) : Canonical (portEn s p on) := fset_wf (ite_wf h (linkDown_wf h))

theorem gateChange_wf {p : Nat} (h : Canonical s) : Canonical (gateChange s p) := fset_wf (modPort_wf h)

theorem gateConfigChange_wf {p : Nat} (h : Canonical s) : Canonical (gateConfigChange s p) :=
  ite_wf (fset_wf (fset_wf (modPort_wf (advanceTo_wf h)))) h

theorem gateOperation_wf {p : Nat} (h : Canonical s) : Canonical (gateOperation s p) := by
  unfold gateOperation
  split
  · exact h
  · extract_lets +onlyGivenNames t s1
    have h1 : Canonical s1 := advanceTo_wf h
    split
    · exact modPort_wf h1
    · exact h1

theorem gateIndexSet_wf {p list e wr : Nat} (h : Canonical s) : Canonical (gateIndexSet s p list e wr) := fset_wf (fset_wf (fset_wf h))

theorem gateListRead_wf {p list e : Nat} (h : Canonical s) : Canonical (gateListRead s p list e) := fset_wf (fset_wf (gateIndexSet_wf h))

theorem gateListWrite_wf {p list e : Nat} (h : Canonical s) : Canonical (gateListWrite s p list e) :=
  ite_wf (fset_wf (gateIndexSet_wf h)) (modPort_wf (gateIndexSet_wf h))

theorem preemptVerify_wf {p : Nat} {ok : Bool} (h : Canonical s) : Canonical (preemptVerify s p ok) :=
  ite_wf (ite_wf (fset_wf h) (logRec_wf (fset_wf h))) h

theorem handToPort_wf {p tc : Nat} {body : List Byte} (h : Canonical s) : Canonical (handToPort s p tc body) :=
  ite_wf (countErg_wf h) (enqueue_wf (addFrame_wf h))

end Sys2Proof.Machine
end

section
/-! PROOFS. The storage keeps its canonical form (O4): the commands of the cycle classes. -/
namespace Sys2Proof.Machine

variable {s : Dev}

theorem execClassEnable_wf {c : ClassId} {s : State} (h : Canonical s.dev) : NextCanonical (execClassEnable c s) :=
  onDev_wf (whenOn_wf h (fun _ hs => classEnable_wf hs))

theorem execClassDisable_wf {c : ClassId} {s : State} (h : Canonical s.dev) : NextCanonical (execClassDisable c s) :=
  onDev_wf (whenOn_wf h (fun _ hs => classDisable_wf hs))

theorem execScatter_wf {k : CtlId} {x : ScatterTurn} {s : State} (h : Canonical s.dev) : NextCanonical (execScatter k x s) :=
  onDev_wf (releaseScattered_wf (scatterNext_wf h))

theorem execGatherStream_wf {k : CtlId} {c : ClassId} {s : State} (h : Canonical s.dev) : NextCanonical (execGatherStream k c s) :=
  onDev_wf (gatherStream_wf h)

theorem execHoldover_wf {s : State} (h : Canonical s.dev) : NextCanonical (execHoldover s) := onDev_wf (holdover_wf h)

theorem rateFlush_wf {block inst code : Nat} (h : Canonical s) : Canonical (rateFlush s block inst code) := by
  unfold rateFlush
  split
  · exact h
  · exact ite_wf h ((smpRecord_wf (advanceOp_wf h)).update)

theorem execRateLimitFlush_wf {block inst : Byte} {code : BitVec 16} {s : State} (h : Canonical s.dev) :
    NextCanonical (execRateLimitFlush block inst code s) :=
  onDev_wf (rateFlush_wf h)

theorem execCycTblRead_wf {table : Fin 16} {index : BitVec 16} {s : State} (h : Canonical s.dev) :
    NextCanonical (execCycTblRead table index s) :=
  onDev_wf (whenOn_wf h (fun _ hs => whenDone_wf (fun _ hs1 => cycTblRead_wf hs1) hs))

theorem cycTableWrite_wf {table i : Nat} (h : Canonical s) : Canonical (cycTableWrite s table i) :=
  ite_wf (fset_wf (cycTblWrite_wf h)) (cycTblWrite_wf h)

theorem execCycTblWrite_wf {table : Fin 16} {index : BitVec 16} {s : State} (h : Canonical s.dev) :
    NextCanonical (execCycTblWrite table index s) :=
  onDev_wf (whenOn_wf h (fun _ hs => whenDone_wf (fun _ hs1 => cycTableWrite_wf hs1) hs))

theorem execCycTime_wf {who : Agent} {s : State} (h : Canonical s.dev) : NextCanonical (execCycTime who s) :=
  onDev_wf (whenOn_wf h (fun _ hs => readCycTime_wf hs))

theorem execCycleEnd_wf {t : Thr} {s : State} (h : Canonical s.dev) : NextCanonical (execCycleEnd t s) := onDev_wf (cycleEnd_wf h)

end Sys2Proof.Machine
end

section
/-! PROOFS. The storage keeps its canonical form (O4): the commands of the switch. -/
namespace Sys2Proof.Machine

variable {s : Dev}

theorem execFrameRxStart_wf {p : PortId} {express : Bool} {frame : List Byte} {s : State} (h : Canonical s.dev) :
    NextCanonical (execFrameRxStart p express frame s) :=
  onDev_wf (frameRxStart_wf h)

theorem execFrameRxEnd_wf {p : PortId} {express : Bool} {x : RxLastBit} {s : State} (h : Canonical s.dev) :
    NextCanonical (execFrameRxEnd p express x s) :=
  onDev_wf (frameRxEnd_wf (countFec_wf h))

theorem execFrameTxStart_wf {p : PortId} {s : State} (h : Canonical s.dev) :
    NextCanonical (execFrameTxStart p s) := onDev_wf (frameTxStart_wf h)

theorem execFrameTxDone_wf {p : PortId} {s : State} (h : Canonical s.dev) :
    NextCanonical (execFrameTxDone p s) := onDev_wf (frameTxDone_wf h)

theorem execFdbAgeing_wf {index : BitVec 17} {s : State} (h : Canonical s.dev) :
    NextCanonical (execFdbAgeing index s) := onDev_wf (fdbAge_wf h)

theorem execRecoveryReset_wf {handle : Fin 16384} {s : State} (h : Canonical s.dev) : NextCanonical (execRecoveryReset handle s) :=
  onDev_wf (recoveryReset_wf h)

theorem execGateChange_wf {p : PortId} {s : State} (h : Canonical s.dev) : NextCanonical (execGateChange p s) :=
  onDev_wf (ite_wf (gateChange_wf h) (portModeDrop_wf h))

theorem execGateConfigChange_wf {p : PortId} {s : State} (h : Canonical s.dev) : NextCanonical (execGateConfigChange p s) :=
  onDev_wf (gateConfigChange_wf h)

theorem execGateOperation_wf {p : PortId} {s : State} (h : Canonical s.dev) :
    NextCanonical (execGateOperation p s) := onDev_wf (gateOperation_wf h)

theorem execGateListRead_wf {p : PortId} {list : Fin 2} {entry : Fin 1024} {s : State} (h : Canonical s.dev) :
    NextCanonical (execGateListRead p list entry s) :=
  onDev_wf (ite_wf (whenDone_wf (fun _ hs => gateListRead_wf hs) h) (portModeDrop_wf h))

theorem execGateListWrite_wf {p : PortId} {list : Fin 2} {entry : Fin 1024} {s : State} (h : Canonical s.dev) :
    NextCanonical (execGateListWrite p list entry s) :=
  onDev_wf (ite_wf (whenDone_wf (fun _ hs => gateListWrite_wf hs) h) (portModeDrop_wf h))

theorem execPreemptVerifyDone_wf {p : PortId} {ok : Bool} {s : State} (h : Canonical s.dev) :
    NextCanonical (execPreemptVerifyDone p ok s) :=
  onDev_wf (preemptVerify_wf h)

theorem execAutoNegotiationDone_wf {p : PortId} {ability : BitVec 32} {x : PartnerModes} {s : State} (h : Canonical s.dev) :
    NextCanonical (execAutoNegotiationDone p ability x s) :=
  onDev_wf (autoNegotiation_wf h)

theorem execLinkDown_wf {x : PortLoss} {s : State} (h : Canonical s.dev) : NextCanonical (execLinkDown x s) :=
  onDev_wf (linkDown_wf (notePortFault_wf h))

theorem execLinkUp_wf {p : PortId} {s : State} (h : Canonical s.dev) : NextCanonical (execLinkUp p s) := onDev_wf (linkUpEvent_wf h)

theorem execPortEn_wf {who : Agent} {p : PortId} {on : Bool} {s : State} (h : Canonical s.dev) : NextCanonical (execPortEn who p on s) :=
  onDev_wf (ite_wf (portEn_wf h) (portModeDrop_wf h))

theorem execSwTblRead_wf {table : Fin 16} {index : BitVec 17} {s : State} (h : Canonical s.dev) :
    NextCanonical (execSwTblRead table index s) :=
  onDev_wf (whenOn_wf h (fun _ hs => whenDone_wf (fun _ hs1 => swTblRead_wf hs1) hs))

theorem execSwTblWrite_wf {table : Fin 16} {index : BitVec 17} {s : State} (h : Canonical s.dev) :
    NextCanonical (execSwTblWrite table index s) :=
  onDev_wf (whenOn_wf h (fun _ hs => whenDone_wf (fun _ hs1 => swTblWrite_wf hs1) hs))

theorem execFdbInsert_wf {table : Fin 16} {s : State} (h : Canonical s.dev) : NextCanonical (execFdbInsert table s) :=
  onDev_wf (whenOn_wf h (fun _ hs => whenDone_wf (fun _ hs1 => ite_wf (fdbInsertOp_wf hs1) (fset_wf (swOpSet_wf hs1))) hs))

theorem execFdbDelete_wf {table : Fin 16} {s : State} (h : Canonical s.dev) : NextCanonical (execFdbDelete table s) :=
  onDev_wf (whenOn_wf h (fun _ hs => whenDone_wf (fun _ hs1 => ite_wf (fdbDeleteOp_wf hs1) (fset_wf (swOpSet_wf hs1))) hs))

theorem execPcieInboundRequest_wf {r : RootId} {write : Bool} {addr : Word} {n : BitVec 13} {data : List Byte} {s : State} (h : Canonical s.dev) :
    NextCanonical (execPcieInboundRequest r write addr n data s) :=
  onDev_wf (inbound_wf h)

theorem execCompletionTimeout_wf {r : RootId} {s : State} (h : Canonical s.dev) : NextCanonical (execCompletionTimeout r s) :=
  onDev_wf (completionTimeout_wf h)

theorem execPcieLinkDown_wf {x : RootLoss} {s : State} (h : Canonical s.dev) : NextCanonical (execPcieLinkDown x s) :=
  onDev_wf (ite_wf (rootContain_wf h) (rootLost_wf h))

theorem execPcieLinkUp_wf {r : RootId} {s : State} (h : Canonical s.dev) : NextCanonical (execPcieLinkUp r s) := onDev_wf (rootUp_wf h)

theorem execPerstRelease_wf {r : RootId} {s : State} (h : Canonical s.dev) :
    NextCanonical (execPerstRelease r s) := onDev_wf (perstRelease_wf h)

end Sys2Proof.Machine
end

section
/-! PROOFS. The storage keeps its canonical form (O4): the commands of the history. -/
namespace Sys2Proof.Machine

variable {s : Dev}

theorem ringFetch_wf (h : Canonical s) : Canonical (ringFetch s) := hReadWord_wf h

theorem ringNext_wf (h : Canonical s) : Canonical (ringNext s) := fincWrap_wf h

theorem ringDone_wf {status : Nat} (h : Canonical s) : Canonical (ringDone s status) := ringComplete_wf (ringNext_wf h)

theorem ringSkip_wf {n : Nat} (h : Canonical s) : Canonical (ringSkip n s) := by
  induction n generalizing s with
  | zero =>
    rw [ringSkip]
    exact h
  | succ n ih =>
    rw [ringSkip]
    exact ite_wf h (ite_wf (ringFetch_wf h) (ih (ringDone_wf (ringFetch_wf h))))

theorem ringRun_wf {code : Nat} {f : Dev → Dev} (h : Canonical s) (h1 : ∀ s, Canonical s → Canonical (f s)) :
    Canonical (ringRun s code f) :=
  ite_wf (engineAct_wf h (fun _ hs => ringSkip_wf (h1 _ (ringFetch_wf hs)))) h

theorem cqDoorbell_wf {tail : Nat} (h : Canonical s) : Canonical (cqDoorbell s tail) := ite_wf (hErr_wf h) (ringSkip_wf (fset_wf h))

theorem doRecord_wf (h : Canonical s) : Canonical (doRecord s) := by
  unfold doRecord
  split
  · exact ringDone_wf h
  · extract_lets +onlyGivenNames w1 t
    split
    · next s2 e1 =>
        have hs : Canonical s2 := putSample_wf h _ e1
        exact ringDone_wf hs
    · exact ringDone_wf (countHist_wf h)

theorem putBulk_wf {stream time : Nat} {payload : List Byte} (h : Canonical s) : Canonical (putBulk stream time s payload) := by
  unfold putBulk
  split
  · exact h
  · next s1 e =>
      have hs : Canonical s1 := openBuffer_wf h _ e
      extract_lets +onlyGivenNames _ _ put
      have hput : Canonical put := ite_wf (putBuffer_wf hs) hs
      split
      · exact hput
      · next s11 e1 =>
          have hs1 : Canonical s11 := openBuffer_wf hput _ e1
          exact putBuffer_wf hs1

theorem bulkSource_wf {ipa n : Nat} (h : Canonical s) : Canonical (bulkSource s ipa n).2 := by
  induction n generalizing s ipa with
  | zero =>
    rw [bulkSource]
    exact h
  | succ n ih =>
    rw [bulkSource]
    split
    · next e => exact snd_wf (ioTranslate_wf h) e
    · next e =>
        have hs := snd_wf (ioTranslate_wf h) e
        split
        · exact hs
        · extract_lets +onlyGivenNames bs
          split
          · next e2 => exact snd_wf (ih (dramTaken_wf (ioRead_wf hs))) e2
          · next e2 => exact snd_wf (ih (dramTaken_wf (ioRead_wf hs))) e2

theorem doBulk_wf (h : Canonical s) : Canonical (doBulk s) := by
  unfold doBulk
  extract_lets +onlyGivenNames n src
  split
  · exact ringDone_wf h
  · split
    · exact ringDone_wf h
    · split
      · exact ringDone_wf (countHist_wf h)
      · split
        · next e3 => exact ringDone_wf (drawFree_wf (snd_wf (bulkSource_wf h) e3))
        · next e3 => exact ringDone_wf (foldl_wf (fun _ _ hs1 => putBulk_wf hs1) (snd_wf (bulkSource_wf h) e3))

theorem idxFetch_wf {g : Nat} (h : Canonical s) : Canonical (idxFetch s g) := idxWord_wf (idxWord_wf h)

theorem startQuery_wf {bulk : Bool} (h : Canonical s) : Canonical (startQuery s bulk) := by
  unfold startQuery
  extract_lets +onlyGivenNames key t1 t2 addr
  refine ite_wf (ringDone_wf h) (ite_wf (ringDone_wf h) ?_)
  split
  · exact h
  · exact modHist_wf (ringNext_wf (foldl_wf (fun _ _ hs => idxFetch_wf hs) h))

theorem writeResult_wf {q : HQuery} {x : Bool × Nat × Dev} {r : Nat × QWord × List Byte} (h : Canonical x.2.2) :
    Canonical (writeResult q x r).2.2 := by
  unfold writeResult
  split
  · split
    · exact hWriteWords_wf h
    · exact hWriteWords_wf h

theorem writeResults_wf {q : HQuery} {all : List (Nat × QWord × List Byte)} (h : Canonical s) : Canonical (writeResults s q all).2 := 
  foldl_keeps (P := fun x : Bool × Nat × Dev => Canonical x.2.2) (fun _ _ hx => writeResult_wf hx) h

theorem writeCounts_wf {q : HQuery} {skipped : Nat} {all : List (Nat × QWord × List Byte)} (h : Canonical s) :
    Canonical (writeCounts s q skipped all) := by
  unfold writeCounts
  extract_lets +onlyGivenNames s1
  have h1 : Canonical s1 := hWritePlain_wf h
  split
  · exact hWritePlain_wf h1
  · exact h1

theorem queryComplete_wf {slot : Nat} {failed : List Nat} (h : Canonical s) : Canonical (queryComplete s slot failed) := by
  unfold queryComplete
  split
  · exact h
  · extract_lets +onlyGivenNames good all more s1 f w status
    have h1 : Canonical s1 := foldl_wf (fun _ _ hs => countHist_wf hs) (modHist_wf h)
    have hf : Canonical f.2 := by
      unfold f
      exact drawFree_wf h1
    have hw : Canonical w.2 := by
      unfold w
      exact writeResults_wf hf
    exact ite_wf (ringComplete_wf (writeCounts_wf hw)) (ringComplete_wf hf)

theorem doSync_wf (h : Canonical s) :
    Canonical (doSync s) := ite_wf (ringDone_wf h) (syncCheck_wf (modHist_wf (ringNext_wf (sealOpen_wf h))))

theorem doInfo_wf (h : Canonical s) : Canonical (doInfo s) := ringDone_wf (hWritePlain_wf (idxWord_wf h))

theorem histIndex_wf {t i w : Nat} (h : Canonical s) : Canonical (histIndex s t i w) := fset_wf (fset_wf (fset_wf h))

theorem histTblRead_wf {t i : Nat} (h : Canonical s) : Canonical (histTblRead s t i) :=
  ite_wf (hErr_wf (histIndex_wf h)) (setReg_wf (setReg_wf (histIndex_wf h)))

theorem histTblWrite_wf {t i : Nat} (h : Canonical s) : Canonical (histTblWrite s t i) :=
  ite_wf (hErr_wf (histIndex_wf h)) (ite_wf (hErr_wf (histIndex_wf h)) (modHist_wf (histIndex_wf h)))

theorem execHistEnable_wf {who : Agent} {s : State} (h : Canonical s.dev) : NextCanonical (execHistEnable who s) :=
  onDev_wf (whenOn_wf h (fun _ hs => histEnable_wf hs))

theorem execHistDisable_wf {who : Agent} {s : State} (h : Canonical s.dev) : NextCanonical (execHistDisable who s) :=
  onDev_wf (whenOn_wf h (fun _ hs => histDisable_wf hs))

theorem execHistRestart_wf {drives : List DriveFacts} {s : State} (h : Canonical s.dev) : NextCanonical (execHistRestart drives s) :=
  onDev_wf (whenOn_wf h (fun _ hs => histRestart_wf hs))

theorem execHistShutdownDone_wf {s : State} (h : Canonical s.dev) : NextCanonical (execHistShutdownDone s) :=
  onDev_wf (whenOn_wf h (fun _ hs => shutdownDone_wf hs))

theorem execSealTimer_wf {s : State} (h : Canonical s.dev) :
    NextCanonical (execSealTimer s) := onDev_wf (whenOn_wf h (fun _ hs => sealTimer_wf hs))

theorem execSegmentWrite_wf {s : State} (h : Canonical s.dev) : NextCanonical (execSegmentWrite s) :=
  onDev_wf (whenOn_wf h (fun _ hs => segmentWrite_wf hs))

theorem execNvmeCompletion_wf {i : Nat} {j : Fin 16} {n : Nat} {ok : Bool} {s : State} (h : Canonical s.dev) :
    NextCanonical (execNvmeCompletion i j n ok s) :=
  onDev_wf (whenOn_wf h (fun _ hs => driveEnds_wf hs))

theorem execNvmeTimeout_wf {i : Nat} {j : Fin 16} {n : Nat} {s : State} (h : Canonical s.dev) : NextCanonical (execNvmeTimeout i j n s) :=
  onDev_wf (whenOn_wf h (fun _ hs => driveTimeout_wf hs))

theorem execSuperblockTimer_wf {s : State} (h : Canonical s.dev) : NextCanonical (execSuperblockTimer s) :=
  onDev_wf (whenOn_wf h (fun _ hs => superTimer_wf hs))

theorem execHistCq_wf {tail : BitVec 16} {s : State} (h : Canonical s.dev) : NextCanonical (execHistCq tail s) :=
  onDev_wf (whenOn_wf h (fun _ hs => cqDoorbell_wf hs))

theorem execHistRecord_wf {s : State} (h : Canonical s.dev) :
    NextCanonical (execHistRecord s) := onDev_wf (ringRun_wf h (fun _ hs => doRecord_wf hs))

theorem execHistBulk_wf {s : State} (h : Canonical s.dev) :
    NextCanonical (execHistBulk s) := onDev_wf (ringRun_wf h (fun _ hs => doBulk_wf hs))

theorem execHistQuery_wf {s : State} (h : Canonical s.dev) :
    NextCanonical (execHistQuery s) := onDev_wf (ringRun_wf h (fun _ hs => startQuery_wf hs))

theorem execHistQueryBulk_wf {s : State} (h : Canonical s.dev) : NextCanonical (execHistQueryBulk s) :=
  onDev_wf (ringRun_wf h (fun _ hs => startQuery_wf hs))

theorem execHistSync_wf {s : State} (h : Canonical s.dev) :
    NextCanonical (execHistSync s) := onDev_wf (ringRun_wf h (fun _ hs => doSync_wf hs))

theorem execHistInfo_wf {s : State} (h : Canonical s.dev) :
    NextCanonical (execHistInfo s) := onDev_wf (ringRun_wf h (fun _ hs => doInfo_wf hs))

theorem execHistQueryComplete_wf {slot : Fin 4} {failed : List Nat} {s : State} (h : Canonical s.dev) :
    NextCanonical (execHistQueryComplete slot failed s) :=
  onDev_wf (whenOn_wf h (fun _ hs => engineAct_wf hs (fun _ hs1 => queryComplete_wf hs1)))

theorem execHistTblRead_wf {table : Fin 4} {index : Fin 1048576} {s : State} (h : Canonical s.dev) :
    NextCanonical (execHistTblRead table index s) :=
  onDev_wf (whenOn_wf h (fun _ hs => whenDone_wf (fun _ hs1 => histTblRead_wf hs1) hs))

theorem execHistTblWrite_wf {table : Fin 4} {index : Fin 1048576} {s : State} (h : Canonical s.dev) :
    NextCanonical (execHistTblWrite table index s) :=
  onDev_wf (whenOn_wf h (fun _ hs => whenDone_wf (fun _ hs1 => histTblWrite_wf hs1) hs))

end Sys2Proof.Machine
end

section
/-! PROOFS. The storage keeps its canonical form (O4): branches, calls and control. -/
namespace Sys2Proof.Machine

variable {s : Dev}

theorem resolve_wf {t : Nat} {f : Thread → Thread} {sl : Slot} (h : Canonical s) : Canonical (resolve s t f sl) := modThr_wf h

theorem branch_wf {s : State} {t : Thr} {w : Nat} {r : GReg} {a : Bool} {off : BitVec 19} {cond : Int → Bool} (h : Canonical s.dev) :
    NextCanonical (branch s t w r a off cond) :=
  onDev_wf (onInsn_wf h (fun _ hs => ite_wf (illegal_wf hs) (ite_wf (resolve_wf (trcBranch_wf hs)) (resolve_wf (trcBranch_wf hs)))))

theorem execBeq_wf {t : Thr} {rs1 : GReg} {a : Bool} {off : BitVec 19} {s : State} (h : Canonical s.dev) :
    NextCanonical (execBeq t rs1 a off s) :=
  branch_wf h

theorem execBne_wf {t : Thr} {rs1 : GReg} {a : Bool} {off : BitVec 19} {s : State} (h : Canonical s.dev) :
    NextCanonical (execBne t rs1 a off s) :=
  branch_wf h

theorem execBlt_wf {t : Thr} {rs1 : GReg} {a : Bool} {off : BitVec 19} {s : State} (h : Canonical s.dev) :
    NextCanonical (execBlt t rs1 a off s) :=
  branch_wf h

theorem execBge_wf {t : Thr} {rs1 : GReg} {a : Bool} {off : BitVec 19} {s : State} (h : Canonical s.dev) :
    NextCanonical (execBge t rs1 a off s) :=
  branch_wf h

theorem execBgt_wf {t : Thr} {rs1 : GReg} {a : Bool} {off : BitVec 19} {s : State} (h : Canonical s.dev) :
    NextCanonical (execBgt t rs1 a off s) :=
  branch_wf h

theorem execBle_wf {t : Thr} {rs1 : GReg} {a : Bool} {off : BitVec 19} {s : State} (h : Canonical s.dev) :
    NextCanonical (execBle t rs1 a off s) :=
  branch_wf h

theorem jumpTo_wf {d : Dev} {t w : Nat} {rd : GReg} {dest : Nat} (h : Canonical d) : Canonical (jumpTo d t w rd dest) :=
  ite_wf (illegal_wf h) (resolve_wf h)

theorem execJal_wf {t : Thr} {rd : GReg} {imm : BitVec 20} {s : State} (h : Canonical s.dev) : NextCanonical (execJal t rd imm s) :=
  onDev_wf (onInsn_wf h (fun _ hs => jumpTo_wf hs))

theorem execJalr_wf {t : Thr} {rd rs1 : GReg} {imm : BitVec 14} {s : State} (h : Canonical s.dev) :
    NextCanonical (execJalr t rd rs1 imm s) :=
  onDev_wf (onInsn_wf h (fun _ hs => jumpTo_wf (ite_wf hs (trcTarget_wf hs))))

theorem execTnow_wf {t : Thr} {rd : GReg} {s : State} (h : Canonical s.dev) : NextCanonical (execTnow t rd s) :=
  onDev_wf (onInsn_wf h (fun _ hs => result_wf hs))

theorem execTwait_wf {t : Thr} {rs1 : GReg} {s : State} (h : Canonical s.dev) : NextCanonical (execTwait t rs1 s) :=
  onDev_wf (onInsn_wf h (fun _ hs => ite_wf (illegal_wf hs) (ite_wf (advance_wf hs) (modThr_wf hs))))

theorem execTwaitExpiry_wf {t : Thr} {s : State} (h : Canonical s.dev) : NextCanonical (execTwaitExpiry t s) := by
  unfold execTwaitExpiry
  refine onDev_wf ?_
  split
  · exact ite_wf (advance_wf (modThr_wf (advanceTo_wf h))) h
  · exact h

theorem execTwaitC_wf {t : Thr} {s : State} (h : Canonical s.dev) : NextCanonical (execTwaitC t s) :=
  onDev_wf (onInsn_wf h (fun _ hs => ite_wf (illegal_wf hs) (modThr_wf hs)))

theorem execCycn_wf {t : Thr} {rd : GReg} {c : ClassId} {s : State} (h : Canonical s.dev) : NextCanonical (execCycn t rd c s) :=
  onDev_wf (onInsn_wf h (fun _ hs => result_wf hs))

theorem execFence_wf {t : Thr} {s : State} (h : Canonical s.dev) : NextCanonical (execFence t s) :=
  onDev_wf (onInsn_wf h (fun _ hs => ite_wf (advance_wf hs) hs))

theorem execFenceIo_wf {t : Thr} {s : State} (h : Canonical s.dev) : NextCanonical (execFenceIo t s) :=
  onDev_wf (onInsn_wf h (fun _ hs => ite_wf (advance_wf hs) hs))

theorem execPflush_wf {t : Thr} {s : State} (h : Canonical s.dev) : NextCanonical (execPflush t s) :=
  onDev_wf (onInsn_wf h (fun _ hs => advance_wf (flushPrefetch_wf hs)))

theorem execSyscall_wf {t : Thr} {y : SysOperand} {s : State} (h : Canonical s.dev) : NextCanonical (execSyscall t y s) := by
  unfold execSyscall
  refine onDev_wf ?_
  split
  · exact ite_wf h (onInsn_wf h (fun _ hs => illegal_wf hs))
  · exact onInsn_wf h (fun _ hs => ite_wf (illegal_wf hs) (takeExc_wf hs))

theorem execBrk_wf {t : Thr} {code : BitVec 10} {s : State} (h : Canonical s.dev) : NextCanonical (execBrk t code s) := by
  unfold execBrk
  exact onDev_wf (onInsn_wf h (fun _ hs => ite_wf (ite_wf (stepEnd_wf (setThr_wf hs)) (haltThread_wf (setThr_wf hs)))
      (ite_wf (takeExc_wf hs) (takeExc_wf hs))))

theorem trcIncluded_wf {t : Nat} (h : Canonical s) : Canonical (trcIncluded s t) := ite_wf (setTrcSrc_wf h) h

theorem execEret_wf {t : Thr} {s : State} (h : Canonical s.dev) : NextCanonical (execEret t s) := by
  unfold execEret
  refine onDev_wf ?_
  refine onInsn_wf h (fun s hs => ?_)
  extract_lets +onlyGivenNames x w
  split
  · exact illegal_wf hs
  · split
    · exact hs
    · split
      · next e2 =>
          have hs1 := of_eq (readFrame_wf hs) e2
          exact takeExc_wf hs1
      · next e2 =>
          have hs1 := of_eq (readFrame_wf hs) e2
          exact stepEnd_wf (tryDeferred_wf (trcTarget_wf (trcIncluded_wf (restoreFrame_wf hs1))))

theorem swRaise_wf {t src : Nat} (h : Canonical s) : Canonical (swRaise s t src) := ite_wf (raise_wf h) h

theorem writeSr_wf {t n : Nat} {v : Word} {sup : Bool} (h : Canonical s) : ∀ x ∈ writeSr s t n v sup, Canonical x := by
  unfold writeSr
  extract_lets +onlyGivenNames m sv
  have hsv : ∀ (f : Thread → Thread), ∀ x ∈ sv f, Canonical x := fun _ => ite_all (some_all (modThr_wf h)) none_all
  split
  · exact ite_all none_all (some_all (modThr_wf h))
  · exact some_all (modThr_wf h)
  · exact hsv _
  · exact hsv _
  · exact hsv _
  · exact hsv _
  · exact hsv _
  · exact hsv _
  · exact hsv _
  · exact ite_all (some_all (swRaise_wf h)) none_all
  · exact map_all (ite_all (some_all (flushPrefetch_wf (modThr_wf h))) none_all)
  · exact map_all (ite_all (some_all (flushPrefetch_wf (modThr_wf h))) none_all)
  · exact map_all (ite_all (some_all (flushPrefetch_wf (modThr_wf h))) none_all)
  · exact hsv _
  · exact hsv _
  · exact none_all

theorem execMfsr_wf {t : Thr} {rd : GReg} {n : Fin 64} {s : State} (h : Canonical s.dev) : NextCanonical (execMfsr t rd n s) := by
  unfold execMfsr
  refine onDev_wf ?_
  refine onInsn_wf h (fun s hs => ?_)
  extract_lets +onlyGivenNames w
  split
  · exact result_wf hs
  · exact illegal_wf hs

theorem execMtsr_wf {t : Thr} {n : Fin 64} {rs1 : GReg} {s : State} (h : Canonical s.dev) : NextCanonical (execMtsr t n rs1 s) := by
  unfold execMtsr
  refine onDev_wf ?_
  refine onInsn_wf h (fun s hs => ?_)
  split
  · next s2 e =>
      have hs1 : Canonical s2 := writeSr_wf hs _ e
      exact advance_wf hs1
  · exact illegal_wf hs

theorem tlbi_wf {s : State} {t : Thr} {w : Nat} {srcs : List GReg} {gone : Dev → TlbEnt → Bool} (h : Canonical s.dev) :
    NextCanonical (tlbi s t w srcs gone) :=
  onDev_wf (onInsn_wf h (fun _ hs => ite_wf (illegal_wf hs) (ite_wf (advance_wf (tlbDrop_wf hs)) hs)))

theorem execTlbiva_wf {t : Thr} {rs1 : GReg} {s : State} (h : Canonical s.dev) : NextCanonical (execTlbiva t rs1 s) := tlbi_wf h

theorem execTlbiasid_wf {t : Thr} {rs1 : GReg} {s : State} (h : Canonical s.dev) : NextCanonical (execTlbiasid t rs1 s) := tlbi_wf h

theorem execTlbiall_wf {t : Thr} {s : State} (h : Canonical s.dev) : NextCanonical (execTlbiall t s) := tlbi_wf h

theorem execInterrupt_wf {t : Thr} {s : State} (h : Canonical s.dev) : NextCanonical (execInterrupt t s) := onDev_wf (interrupt_wf h)

theorem endWalk_wf {t : Nat} {w : WalkWait} (h : Canonical s) : Canonical (endWalk s t w) := by
  unfold endWalk
  extract_lets +onlyGivenNames s1
  have h1 : Canonical s1 := countCore_wf (modThr_wf h)
  split
  · exact installWalk_wf h1
  · exact ite_wf (misaligned_wf h1) (takeExc_wf h1)

theorem pageWalk_wf {t : Nat} (h : Canonical s) : Canonical (pageWalk s t) := by
  unfold pageWalk
  split
  · exact h
  · split
    · next e => exact endWalk_wf ((walkReads_wf h).of_some e)
    · next e => exact (walkReads_wf h).of_none e

theorem execPageWalk_wf {t : Thr} {s : State} (h : Canonical s.dev) : NextCanonical (execPageWalk t s) := onDev_wf (pageWalk_wf h)

end Sys2Proof.Machine
end

section
/-! PROOFS. The storage keeps its canonical form (O4): the lockstep pairs. -/
namespace Sys2Proof.Machine

variable {s : Dev}

theorem setPairMode_wf {p m : Nat} (h : Canonical s) : Canonical (setPairMode s p m) := setReg_wf h

theorem setCorePart_wf {core part : Nat} (h : Canonical s) : Canonical (setCorePart s core part) := setReg_wf h

theorem noteReduced_wf (h : Canonical s) : Canonical (noteReduced s) := fset_wf h

theorem stopWith_wf {t : Nat} {kept : Acc → Bool} (h : Canonical s) : Canonical (stopWith s t kept) :=
  (foldl_wf (fun _ _ hs => foldl_wf (fun _ _ hs1 => giveCredit_wf hs1) hs) (modThr_wf (trcFlush_wf h))).update

theorem stopThread_wf {t : Nat} (h : Canonical s) : Canonical (stopThread s t) := stopWith_wf h

theorem haltedThread_wf {t : Nat} (h : Canonical s) : Canonical (haltedThread s t) := stopWith_wf h

theorem abandonClass_wf {c : Nat} (h : Canonical s) : Canonical (abandonClass s c) := by
  unfold abandonClass
  extract_lets +onlyGivenNames s1 f
  have h1 : Canonical s1 := foldl_wf (fun _ _ hs => ite_wf hs (ite_wf (abandonWrite_wf hs) (ite_wf (abandonWrite_wf hs) (setImg_wf hs)))) h
  have hf : Canonical f.2 := by
    unfold f
    exact drawFree_wf h1
  exact phaseValue_wf hf

theorem noteDie_wf {p q : Nat} (h : Canonical s) : Canonical (noteDie s p q) := ite_wf h (logRec_wf (drawFree_wf h))

theorem healPhase_wf {p : Nat} {q : Option Nat} (h : Canonical s) : Canonical (healPhase s p q) := by
  unfold healPhase
  extract_lets +onlyGivenNames s1
  have h1 : Canonical s1 := openPhase_wf h
  split
  · exact h1.update
  · exact h1

theorem noticeThreads_wf {p running : Nat} (h : Canonical s) : Canonical (noticeThreads s p running) := by
  unfold noticeThreads
  extract_lets +onlyGivenNames core lost
  split
  · exact h
  · split
    · exact notify_wf h
    · exact h

theorem haltPair_wf {p code : Nat} (h : Canonical s) : Canonical (haltPair s p code) := by
  unfold haltPair
  dsimp only
  split
  · exact logRec_wf (noteReduced_wf (foldl_wf (fun _ _ hs => abandonClass_wf hs)
        (healPhase_wf (addRepair_wf (logRec_wf (setPairMode_wf
            (foldl_wf (fun _ _ hs => haltedThread_wf hs) (noticeThreads_wf h.update))))))))
  · refine Canonical.update ?_
    exact noteDie_wf (noteReduced_wf (foldl_wf (fun _ _ hs => abandonClass_wf hs)
        (healPhase_wf (addRepair_wf (logRec_wf (setPairMode_wf
            (foldl_wf (fun _ _ hs => haltedThread_wf hs) (noticeThreads_wf h.update))))))))

theorem coreMismatch_wf {p : Nat} {silent : Option Bool} (h : Canonical s) : Canonical (coreMismatch s p silent) := by
  unfold coreMismatch
  split
  · extract_lets +onlyGivenNames s1
    have h1 : Canonical s1 := haltPair_wf h
    split
    · exact h1.update
    · exact h1
  · exact h

theorem delayFault_wf {p : Nat} (h : Canonical s) : Canonical (delayFault s p) := ite_wf (haltPair_wf h) h

theorem turnTest_wf {p : Nat} (h : Canonical s) : Canonical (turnTest s p) := h.update

theorem silentTest_wf {p : Nat} {ok : Bool} (h : Canonical s) :
    Canonical (silentTest s p ok) := ite_wf h.update (addRepair_wf (logRec_wf h.update))

theorem selfTest_wf {s0 : Dev} {p : Nat} {flagged : Option Nat} (h : Canonical s0) : Canonical (selfTest s0 p flagged) := by
  unfold selfTest
  extract_lets +onlyGivenNames which ok s'
  have hs' : Canonical s' := ite_wf (turnTest_wf h) h
  split
  · exact ite_wf (silentTest_wf hs') hs'
  · split
    · exact hs'
    · split
      · exact phaseValue_wf hs'
      · dsimp only
        split
        · exact noteReduced_wf (logRec_wf (healPhase_wf (addRepair_wf (logRec_wf (setPairMode_wf hs')))))
        · exact noteReduced_wf ((healPhase_wf (addRepair_wf (logRec_wf (setPairMode_wf hs')))).update)

theorem rename_wf {old new : Nat} (h : Canonical s) : Canonical (rename s old new) := h.update

theorem takePlace_wf {old new : Nat} (h : Canonical s) : Canonical (takePlace s old new) :=
  (setCorePart_wf (setCorePart_wf (setPairMode_wf h))).update

theorem spareReady_wf {p : Nat} (h : Canonical s) : Canonical (spareReady s p) := by
  unfold spareReady
  split
  · exact h
  · exact foldl_wf (fun _ _ hs => phaseValue_wf hs) (foldl_wf (fun _ _ hs => setThr_wf hs) (rename_wf (takePlace_wf h.update)))

theorem heldRelease_wf {t : Nat} (h : Canonical s) : Canonical (heldRelease s t) := by
  unfold heldRelease
  split
  · exact ite_wf (releaseThread_wf h) (modThr_wf h)
  · exact h

theorem pairMove_wf {p : Nat} (h : Canonical s) : Canonical (pairMove s p) := by
  unfold pairMove
  split
  · exact h
  · extract_lets +onlyGivenNames idle named
    split
    · exact h.update
    · split
      · exact h
      · extract_lets +onlyGivenNames s0 _ s1 s2 s3 s4 _ s5
        have h0 : Canonical s0 := ite_wf h (advanceOp_wf h)
        have h1 : Canonical s1 := h0.update
        have h2 : Canonical s2 := rename_wf (takePlace_wf h1)
        have h3 : Canonical s3 := foldl_wf (fun _ _ hs => setThr_wf (setThr_wf hs)) h2
        have h4 : Canonical s4 := logRec_wf (noteReduced_wf (setPairMode_wf (noteDie_wf h3)))
        have h5 : Canonical s5 := h4.update
        exact foldl_wf (fun _ _ hs => heldRelease_wf hs) h5

theorem execComparatorSelfTest_wf {p : Fin 96} {flagged : Option Nat} {s : State} (h : Canonical s.dev) :
    NextCanonical (execComparatorSelfTest p flagged s) :=
  onDev_wf (selfTest_wf h)

theorem execCoreMismatch_wf {x : Mismatch} {s : State} (h : Canonical s.dev) :
    NextCanonical (execCoreMismatch x s) := onDev_wf (coreMismatch_wf h)

theorem execDelayRegisterFault_wf {p : Fin 96} {s : State} (h : Canonical s.dev) : NextCanonical (execDelayRegisterFault p s) :=
  onDev_wf (delayFault_wf h)

theorem execSpareReady_wf {p : Fin 96} {s : State} (h : Canonical s.dev) : NextCanonical (execSpareReady p s) := onDev_wf (spareReady_wf h)

theorem execUncheckedPairMove_wf {p : Fin 96} {s : State} (h : Canonical s.dev) : NextCanonical (execUncheckedPairMove p s) :=
  onDev_wf (pairMove_wf h)

end Sys2Proof.Machine
end

section
/-! PROOFS. The storage keeps its canonical form (O4): the sampler. -/
namespace Sys2Proof.Machine

variable {s : Dev}

theorem setDarn_wf {pos at_ : Nat} {x : DarnUnit} (h : Canonical s) : Canonical (setDarn s pos at_ x) := by
  unfold setDarn
  split
  · exact setBank_wf h
  · exact setImg_wf h

theorem addSpare_wf {r : Nat} {x : DarnUnit} (h : Canonical s) : Canonical (addSpare s r x) := by
  unfold addSpare
  split
  · exact setBank_wf h
  · exact setImg_wf h

theorem darnRepair_wf {u : DarnUnit} {r : Nat} (h : Canonical s) : Canonical (darnRepair s u r) :=
  ite_wf (logRec_wf (fincSat_wf (addRepair_wf (addSpare_wf h)))) (logRec_wf h)

theorem darnLast_wf {u : DarnUnit} {r : Nat} (h : Canonical s) : Canonical (darnLast s u r) := fset_wf (fset_wf (fset_wf h))

theorem darnFailed_wf {u : DarnUnit} {r fails : Nat} (h : Canonical s) : Canonical (darnFailed s u r fails) :=
  ite_wf h (ite_wf (logRec_wf (fincSat_wf (darnLast_wf h))) (darnRepair_wf (darnLast_wf h)))

theorem darnFound_wf {u : DarnUnit} {r corrected : Nat} {bad : List (Fin 128)} (h : Canonical s) :
    Canonical (darnFound s u r corrected bad) := by
  unfold darnFound
  extract_lets +onlyGivenNames s1
  have h1 : Canonical s1 := foldl_wf (fun _ _ hs => logLimited_wf hs) h
  split
  · exact foldl_wf (fun _ _ hs => logLimited_wf hs) h1
  · exact foldl_wf (fun _ _ hs => logLimited_wf (setPoison_wf _ _ _ hs)) h1

theorem darnPorts_wf {x : DarnUnit} (h : Canonical s) : Canonical (darnPorts s x) := by
  unfold darnPorts
  split
  · exact usePort_wf h
  · exact h

theorem darnRegion_wf {u : DarnUnit} {fails corrected : Nat} {bad : List (Fin 128)} (h : Canonical s) :
    Canonical (darnRegion s u fails corrected bad) := by
  unfold darnRegion
  split
  · exact h
  · extract_lets +onlyGivenNames s0 r s1 s2
    have h0 : Canonical s0 := advanceOp_wf h
    have h1 : Canonical s1 := darnPorts_wf (darnFailed_wf (darnFound_wf h0))
    have h2 : Canonical s2 := setDarn_wf h1
    exact ite_wf (fincWrap_wf h2) h2

theorem execDarningRegion_wf {u : DarnUnit} {fails : Fin 3} {corrected : Fin 129} {bad : List (Fin 128)} {s : State} (h : Canonical s.dev) :
    NextCanonical (execDarningRegion u fails corrected bad s) :=
  onDev_wf (darnRegion_wf h)

theorem flashCopy_wf (h : Canonical s) : Canonical (flashCopy s) := by
  unfold flashCopy
  split
  · exact h
  · extract_lets +onlyGivenNames _ s1
    have h1 : Canonical s1 := h.update
    split
    · exact h1.update
    · exact fincSat_wf h1

theorem execFlashCopy_wf {s : State} (h : Canonical s.dev) : NextCanonical (execFlashCopy s) := onDev_wf (flashCopy_wf h)

theorem samplerRead_wf {flash : Bool} {ordinal word : Nat} (h : Canonical s) : Canonical (samplerRead s flash ordinal word) := by
  unfold samplerRead
  extract_lets +onlyGivenNames l s1
  have h1 : Canonical s1 := fset_wf (fset_wf (fset_wf (fset_wf h)))
  split
  · exact fset_wf h1.update
  · exact fset_wf h1.update

theorem execSamplerRead_wf {flash : Bool} {ordinal : BitVec 14} {word : Fin 32} {s : State} (h : Canonical s.dev) :
    NextCanonical (execSamplerRead flash ordinal word s) :=
  onDev_wf (whenDone_wf (fun _ hs => samplerRead_wf hs) h)

theorem samplerData_wf (h : Canonical s) : Canonical (samplerData s) := (fset_wf h).update

theorem execSmpRdData_wf {s : State} (h : Canonical s.dev) : NextCanonical (execSmpRdData s) := onDev_wf (samplerData_wf h)

theorem clearRam_wf (h : Canonical s) : Canonical (clearRam s) := h.update

theorem execClearRam_wf {s : State} (h : Canonical s.dev) : NextCanonical (execClearRam s) := onDev_wf (clearRam_wf h)

theorem timeEntry_wf (h : Canonical s) : Canonical (timeEntry s) := h.update

theorem operatingHour_wf (h : Canonical s) : Canonical (operatingHour s) := timeEntry_wf ((advanceOp_wf h).update)

theorem execOperatingHour_wf {s : State} (h : Canonical s.dev) : NextCanonical (execOperatingHour s) := onDev_wf (operatingHour_wf h)

theorem timeAtPowerGood_wf (h : Canonical s) : Canonical (timeAtPowerGood s) := timeEntry_wf h.update

theorem phaseCloseNow_wf (h : Canonical s) : Canonical (phaseCloseNow s) := by
  unfold phaseCloseNow
  split
  · exact h
  · exact closePhase_wf (advanceOp_wf h)

theorem execPhaseClose_wf {s : State} (h : Canonical s.dev) : NextCanonical (execPhaseClose s) := onDev_wf (phaseCloseNow_wf h)

end Sys2Proof.Machine
end

section
/-! PROOFS. The storage keeps its canonical form (O4): power and clocks. -/
namespace Sys2Proof.Machine

variable {s : Dev}

theorem clearDomRegs_wf {d : Nat} (h : Canonical s) : Canonical (clearDomRegs s d) := h.update

theorem clearCluster_wf {c : Nat} (h : Canonical s) : Canonical (clearCluster s c) := h.update

theorem clearBankDomain_wf {n : Nat} (h : Canonical s) : Canonical (clearBankDomain s n) :=
  ite_wf ((setBank_wf (clearRange_wf _ _ _ h)).update) ((setImg_wf ((setBank_wf (clearRange_wf _ _ _ h)).update)).update)

theorem clearGroup_wf {g : Nat} (h : Canonical s) :
    Canonical (clearGroup s g) := showShared_wf (foldl_wf (fun _ _ hs => (setPort_wf hs).update) h)

theorem clearErgTables_wf {e : Nat} (h : Canonical s) : Canonical (clearErgTables s e) := ite_wf h h.update

theorem domainInit_wf {d : Nat} (h : Canonical s) : Canonical (domainInit s d) := by
  unfold domainInit
  extract_lets +onlyGivenNames s1
  have h1 : Canonical s1 := clearDomRegs_wf h
  split
  · exact clearCluster_wf h1
  · split
    · exact clearBankDomain_wf h1
    · exact ite_wf h1 (ite_wf (clearGroup_wf h1) (ite_wf (clearErgTables_wf h1) (ite_wf h1.update (ite_wf h1.update h1))))

theorem domNotice_wf {d : Nat} (h : Canonical s) : Canonical (domNotice s d) := logRec_wf h

theorem domRequest_wf {d : Nat} {on : Bool} (h : Canonical s) : Canonical (domRequest s d on).2 := by
  unfold domRequest
  extract_lets +onlyGivenNames st
  split
  · exact h
  · split
    · exact ite_snd_wf h (ite_snd_wf (domNotice_wf (setDom_wf h)) (ite_snd_wf (setDom_wf (domainInit_wf h)) h))
    · exact ite_snd_wf h (ite_snd_wf h (ite_snd_wf h (ite_snd_wf h (ite_snd_wf (setDom_wf h) (setDom_wf h)))))

theorem domResult_wf {r : Nat} (h : Canonical s) : Canonical (domResult s r) := fset_wf (fset_wf h.update)

theorem domAccess_wf {write : Bool} {d : Nat} (h : Canonical s) : Canonical (domAccess s write d) := by
  unfold domAccess
  split
  · exact h
  · extract_lets +onlyGivenNames s1
    have h1 : Canonical s1 := fset_wf (fset_wf h)
    split
    · exact fset_wf h1
    · split
      · exact fset_wf h1
      · split
        · next e3 => exact domResult_wf (snd_wf (domRequest_wf h1) e3)
        · next e3 => exact fset_wf (snd_wf (domRequest_wf h1) e3).update

theorem execPowerUpRequest_wf {d : Fin 128} {s : State} (h : Canonical s.dev) : NextCanonical (execPowerUpRequest d s) :=
  onDev_wf (domAccess_wf (fset_wf h))

theorem execPowerDownRequest_wf {d : Fin 128} {s : State} (h : Canonical s.dev) : NextCanonical (execPowerDownRequest d s) :=
  onDev_wf (domAccess_wf (fset_wf h))

theorem execDomainStateRead_wf {d : Fin 128} {s : State} (h : Canonical s.dev) :
    NextCanonical (execDomainStateRead d s) := onDev_wf (domAccess_wf h)

theorem domSettle_wf {d : Nat} (h : Canonical s) : Canonical (domSettle s d) := ite_wf (domResult_wf h) h

theorem powerUpDone_wf {d : Nat} (h : Canonical s) : Canonical (powerUpDone s d) := ite_wf (domSettle_wf (domNotice_wf (setDom_wf h))) h

theorem execPowerUpDone_wf {d : Fin 80} {s : State} (h : Canonical s.dev) :
    NextCanonical (execPowerUpDone d s) := onDev_wf (powerUpDone_wf h)

theorem powerDownDone_wf {d : Nat} (h : Canonical s) : Canonical (powerDownDone s d) := ite_wf (domSettle_wf (domNotice_wf (setDom_wf h))) h

theorem execPowerDownDone_wf {d : Fin 80} {s : State} (h : Canonical s.dev) :
    NextCanonical (execPowerDownDone d s) := onDev_wf (powerDownDone_wf h)

theorem endTapGrant_wf (h : Canonical s) :
    Canonical (endTapGrant s) := foldl_wf (fun _ _ hs => ite_wf (setDom_wf hs) hs) (fset_wf (fset_wf h))

theorem endSwGrant_wf (h : Canonical s) : Canonical (endSwGrant s) := fset_wf h

theorem pmbusFault_wf (h : Canonical s) : Canonical (pmbusFault s) := ite_wf h (logRec_wf (fset_wf h.update))

theorem noteTemp_wf {t8 : Int} (h : Canonical s) : Canonical (noteTemp s t8) := phaseValue_wf (phaseValue_wf (phaseValue_wf (fset_wf h)))

theorem avsTick_wf {vmin : Nat} {t8 : Int} {ok : Bool} (h : Canonical s) : Canonical (avsTick s vmin t8 ok) := by
  unfold avsTick
  split
  · exact h
  · extract_lets +onlyGivenNames s1 _ s2
    have h1 : Canonical s1 := advanceOp_wf h
    have h2 : Canonical s2 := noteTemp_wf h1.update
    exact ite_wf h2 (ite_wf (pmbusFault_wf h2) (phaseValue_wf (fset_wf h2)))

theorem execAvsTick_wf {vmin : BitVec 10} {temp : BitVec 16} {ok : Bool} {s : State} (h : Canonical s.dev) :
    NextCanonical (execAvsTick vmin temp ok s) :=
  onDev_wf (avsTick_wf h)

theorem pmbusRetry_wf {ok : Bool} (h : Canonical s) : Canonical (pmbusRetry s ok) :=
  ite_wf (ite_wf (fset_wf ((advanceOp_wf h).update)) ((advanceOp_wf h).update)) h

theorem execPmbusRetry_wf {ok : Bool} {s : State} (h : Canonical s.dev) : NextCanonical (execPmbusRetry ok s) := onDev_wf (pmbusRetry_wf h)

theorem tjAlert_wf {t8 : Int} {d : Nat} (h : Canonical s) : Canonical (tjAlert s t8 d) := ite_wf (logLimited_wf (fset_wf (fset_wf h))) h

theorem execTjAlert_wf {temp : BitVec 16} {d : Fin 80} {s : State} (h : Canonical s.dev) : NextCanonical (execTjAlert temp d s) :=
  onDev_wf (tjAlert_wf h)

theorem tjAlertEnd_wf {t8 : Int} (h : Canonical s) : Canonical (tjAlertEnd s t8) := ite_wf (fset_wf (fset_wf h)) h

theorem execTjAlertEnd_wf {temp : BitVec 16} {s : State} (h : Canonical s.dev) :
    NextCanonical (execTjAlertEnd temp s) := onDev_wf (tjAlertEnd_wf h)

theorem keepFields_wf {old new : Dev} {off : Nat} {fs : List (Nat × Nat)} (h : Canonical new) : Canonical (keepFields old new off fs) :=
  foldl_wf (fun _ _ hs => fset_wf hs) h

theorem clearedDev_wf : Canonical (clearedDev s) := rfl

theorem powerOnReset_wf : Canonical (powerOnReset s) := keepFields_wf clearedDev_wf.update

theorem externalReset_wf {cause : Nat} : Canonical (externalReset s cause) :=
  fset_wf (keepFields_wf (keepFields_wf (keepFields_wf clearedDev_wf.update)))

theorem execExternalReset_wf {s : State} (h : Canonical s.dev) : NextCanonical (execExternalReset s) := onDev_wf (ite_wf h externalReset_wf)

theorem thermalTrip_wf {d : Nat} (h : Canonical s) : Canonical (thermalTrip s d) := ite_wf h externalReset_wf

theorem execThermalTrip_wf {d : Fin 80} {s : State} (h : Canonical s.dev) :
    NextCanonical (execThermalTrip d s) := onDev_wf (thermalTrip_wf h)

theorem serialTraceLost_wf (h : Canonical s) : Canonical (serialTraceLost s) := ite_wf (fset_wf (fset_wf (fset_wf h))) h

theorem referenceLoss_wf {r : RefClock} (h : Canonical s) : Canonical (referenceLoss s r) := by
  unfold referenceLoss
  extract_lets +onlyGivenNames note
  have hnote : ∀ (s : Dev), Canonical s → Canonical (note s) := fun _ hs => logRec_wf hs
  split
  · exact ite_wf h externalReset_wf
  · split
    · exact h
    · extract_lets +onlyGivenNames s1
      have h1 : Canonical s1 := hnote _ (fset_wf h)
      split
      · extract_lets +onlyGivenNames s2
        have h2 : Canonical s2 := foldl_wf (fun _ _ hs => linkDown_wf hs) h1
        exact ite_wf (ite_wf (linkLost_wf h2) h2) (ite_wf (serialTraceLost_wf h2) h2)
      · exact foldl_wf (fun _ _ hs => rootLost_wf hs) h1
      · exact h1

theorem execReferenceLoss_wf {r : RefClock} {s : State} (h : Canonical s.dev) :
    NextCanonical (execReferenceLoss r s) := onDev_wf (referenceLoss_wf h)

theorem referenceReturn_wf {r : RefClock} (h : Canonical s) : Canonical (referenceReturn s r) := by
  unfold referenceReturn
  split
  · exact h
  · exact ite_wf ((fset_wf h).update) (fset_wf h)

theorem execReferenceReturn_wf {r : RefClock} {s : State} (h : Canonical s.dev) : NextCanonical (execReferenceReturn r s) :=
  onDev_wf (referenceReturn_wf h)

theorem ppsEdge_wf {at_ : Nat} (h : Canonical s) : Canonical (ppsEdge s at_) :=
  ite_wf ((advanceTo_wf h).update) (ite_wf (((advanceTo_wf h).update).update) ((advanceTo_wf h).update))

theorem execPpsEdge_wf {at_ : BitVec 64} {s : State} (h : Canonical s.dev) : NextCanonical (execPpsEdge at_ s) := onDev_wf (ppsEdge_wf h)

theorem execVppFuseChange_wf {present : Bool} {s : State} (h : Canonical s.dev) :
    NextCanonical (execVppFuseChange present s) := onDev_wf h.update

theorem execFaultNRelease_wf {s : State} (h : Canonical s.dev) : NextCanonical (execFaultNRelease s) := onDev_wf (ite_wf (advanceOp_wf h) h)

theorem flashSet_wf {a : Nat} {b : Byte} {marginal : Bool} (h : Canonical s) : Canonical (flashSet s a b marginal) := h.update

end Sys2Proof.Machine
end

section
/-! PROOFS. The storage keeps its canonical form (O4): the debug port. -/
namespace Sys2Proof.Machine

variable {s : Dev}

theorem modDbg_wf {f : DbgSt → DbgSt} (h : Canonical s) : Canonical (modDbg s f) := h.update

theorem tapRun_wf {ir : Nat} (h : Canonical s) : Canonical (tapRun s ir) := modDbg_wf h

theorem tapBypass_wf (h : Canonical s) : Canonical (tapBypass s) := modDbg_wf (tapRun_wf h)

theorem tapScan_wf {ir : Nat} {mode : PinMode} {captured shifted : BitVec 2944} (h : Canonical s) :
    Canonical (tapScan s ir mode captured shifted) :=
  modDbg_wf (tapRun_wf h)

theorem atLevel2_wf {f : Dev → Dev} (h : Canonical s) (h1 : ∀ s, Canonical s → Canonical (f s)) : Canonical (atLevel2 s f) :=
  ite_wf (h1 _ h) (tapBypass_wf h)

theorem execExtest_wf {captured shifted : BitVec 2944} {s : State} (h : Canonical s.dev) : NextCanonical (execExtest captured shifted s) :=
  onDev_wf (atLevel2_wf h (fun _ hs => tapScan_wf hs))

theorem execSamplePreload_wf {captured shifted : BitVec 2944} {s : State} (h : Canonical s.dev) :
    NextCanonical (execSamplePreload captured shifted s) :=
  onDev_wf (tapScan_wf h)

theorem execIdcode_wf {s : State} (h : Canonical s.dev) : NextCanonical (execIdcode s) := onDev_wf (modDbg_wf (tapRun_wf h))

theorem execClamp_wf {s : State} (h : Canonical s.dev) : NextCanonical (execClamp s) :=
  onDev_wf (atLevel2_wf h (fun _ hs => modDbg_wf (tapRun_wf hs)))

theorem execHighz_wf {s : State} (h : Canonical s.dev) : NextCanonical (execHighz s) :=
  onDev_wf (atLevel2_wf h (fun _ hs => modDbg_wf (tapRun_wf hs)))

theorem execExtestPulse_wf {captured shifted : BitVec 2944} {s : State} (h : Canonical s.dev) :
    NextCanonical (execExtestPulse captured shifted s) :=
  onDev_wf (atLevel2_wf h (fun _ hs => tapScan_wf hs))

theorem execExtestTrain_wf {captured shifted : BitVec 2944} {s : State} (h : Canonical s.dev) :
    NextCanonical (execExtestTrain captured shifted s) :=
  onDev_wf (atLevel2_wf h (fun _ hs => tapScan_wf hs))

theorem execBypass_wf {s : State} (h : Canonical s.dev) : NextCanonical (execBypass s) := onDev_wf (tapBypass_wf h)

theorem execTestLogicReset_wf {s : State} (h : Canonical s.dev) : NextCanonical (execTestLogicReset s) := onDev_wf (tapRun_wf h)

theorem execTrst_wf {s : State} (h : Canonical s.dev) : NextCanonical (execTrst s) := onDev_wf (endTapGrant_wf (modDbg_wf h))

theorem consume_wf (h : Canonical s) : Canonical (consume s) := fset_wf (modDbg_wf h)

theorem grant_wf {path level : Nat} (h : Canonical s) : Canonical (grant s path level) :=
  consume_wf (logRec_wf (ite_wf (fset_wf (fset_wf (modDbg_wf h))) (fset_wf h)))

theorem authResult_wf {path status : Nat} (h : Canonical s) :
    Canonical (authResult s path status) := ite_wf (modDbg_wf h) (fset_wf (fset_wf h))

theorem authBuffer_wf {buffer : Nat} {write : Bool} (h : Canonical s) : Canonical (authBuffer s buffer write).2 := by
  unfold authBuffer
  split
  · exact h
  · split
    · next e1 => exact snd_wf (ioRange_wf h) e1
    · next e1 => exact snd_wf (ioRange_wf h) e1

theorem randomBytes_wf {n : Nat} (h : Canonical s) : Canonical (randomBytes n s).2 := by
  induction n generalizing s with
  | zero =>
    rw [randomBytes]
    exact h
  | succ n ih =>
    rw [randomBytes]
    exact ih (drawFree_wf h)

theorem issueChallenge_wf {path : Nat} (h : Canonical s) :
    Canonical (issueChallenge s path).2 := fset_wf (modDbg_wf (randomBytes_wf (drawFree_wf h)))

theorem authRequest_wf {path : AuthPath} {level : Nat} (h : Canonical s) : Canonical (authRequest s path level) := by
  unfold authRequest
  extract_lets +onlyGivenNames n
  split
  · exact authResult_wf (grant_wf h)
  · split
    · exact authResult_wf h
    · split
      · exact authResult_wf h
      · split
        · exact authResult_wf (modDbg_wf (issueChallenge_wf h))
        · split
          · next e3 => exact authResult_wf (snd_wf (authBuffer_wf h) e3)
          · next e3 => exact authResult_wf (ioWriteParts_wf (issueChallenge_wf (snd_wf (authBuffer_wf h) e3)))

theorem authTap_wf (h : Canonical s) : Canonical (authTap s) := modDbg_wf (tapRun_wf h)

theorem swLevel_wf {level : Nat} (h : Canonical s) : Canonical (swLevel s level) := ite_wf (fset_wf h) (fset_wf h)

theorem swAuthOp_wf {op level buffer : Nat} {f : Dev → Nat → Dev} (h : Canonical s) (h1 : ∀ s n, Canonical s → Canonical (f s n)) :
    Canonical (swAuthOp s op level buffer f) :=
  ite_wf h (ite_wf (h1 _ _ (fset_wf (swLevel_wf (fset_wf h)))) (authResult_wf (fset_wf (swLevel_wf (fset_wf h)))))

theorem authRequestOp_wf {path : AuthPath} {level : Nat} (h : Canonical s) : Canonical (authRequestOp s path level) := by
  unfold authRequestOp
  split
  · exact ite_wf (authRequest_wf (authTap_wf h)) (authResult_wf (authTap_wf h))
  · exact swAuthOp_wf h (fun _ _ hs => authRequest_wf hs)

theorem execAuthRequest_wf {path : AuthPath} {level : BitVec 4} {s : State} (h : Canonical s.dev) :
    NextCanonical (execAuthRequest path level s) :=
  onDev_wf (authRequestOp_wf h)

theorem authQueue_wf {r : AuthResp} (h : Canonical s) : Canonical (authQueue s r) := modDbg_wf h

theorem authRespondOp_wf {path : AuthPath} {level id : Nat} {payload : List Byte} (h : Canonical s) :
    Canonical (authRespondOp s path level id payload) := by
  unfold authRespondOp
  split
  · exact ite_wf (authQueue_wf (authResult_wf (authTap_wf h))) (authResult_wf (authTap_wf h))
  · refine swAuthOp_wf h (fun s n hs => ?_)
    split
    · next e => exact authResult_wf (snd_wf (authBuffer_wf hs) e)
    · next e => exact fset_wf (authQueue_wf (ioReadParts_wf (snd_wf (authBuffer_wf hs) e)))

theorem execAuthRespond_wf {path : AuthPath} {level : BitVec 4} {id : BitVec 32} {payload : BitVec 256} {s : State} (h : Canonical s.dev) :
    NextCanonical (execAuthRespond path level id payload s) :=
  onDev_wf (authRespondOp_wf h)

theorem judge_wf {c : Option Challenge} {x : TickSt} {r : AuthResp} (h : Canonical x.dev) : Canonical (judge c x r).dev := by
  unfold judge
  split
  · exact authResult_wf h
  · split
    · exact authResult_wf h
    · split
      · exact authResult_wf h
      · split
        · split
          · exact authResult_wf h
          · exact authResult_wf (grant_wf h)
        · exact authResult_wf (logLimited_wf h)

theorem startLockout_wf (h : Canonical s) : Canonical (startLockout s) := logRec_wf (fset_wf (fset_wf (modDbg_wf (consume_wf h))))

theorem authTick_wf (h : Canonical s) : Canonical (authTick s) := by
  unfold authTick
  obtain ⟨advance, hadvance⟩ := exists_eq_self advanceOp
  have ha : ∀ {op}, Canonical (advance s op) := hadvance ▸ advanceOp_wf h
  rw [← hadvance]
  extract_lets us s0 x s1 fails
  have hx : Canonical x.dev := foldl_keeps (P := fun x : TickSt => Canonical x.dev) (fun _ _ hx => judge_wf hx) (modDbg_wf ha)
  have hs1 : Canonical s1 := ite_wf (fset_wf (fset_wf hx)) hx
  exact ite_wf (startLockout_wf hs1) (fset_wf hs1)

theorem execAuthorisationTick_wf {s : State} (h : Canonical s.dev) : NextCanonical (execAuthorisationTick s) := onDev_wf (authTick_wf h)

theorem execChallengeExpiry_wf {s : State} (h : Canonical s.dev) : NextCanonical (execChallengeExpiry s) := by
  unfold execChallengeExpiry
  refine onDev_wf ?_
  split
  · exact consume_wf (advanceOp_wf h)
  · exact h

theorem execLockoutExpiry_wf {s : State} (h : Canonical s.dev) : NextCanonical (execLockoutExpiry s) := by
  unfold execLockoutExpiry
  refine onDev_wf ?_
  split
  · exact modDbg_wf (advanceOp_wf h)
  · exact h

theorem execAuthDetach_wf {s : State} (h : Canonical s.dev) : NextCanonical (execAuthDetach s) :=
  onDev_wf (authResult_wf (endTapGrant_wf (authTap_wf h)))

theorem swRevoke_wf (h : Canonical s) : Canonical (swRevoke s) :=
  ite_wf h (ite_wf (authResult_wf (endSwGrant_wf (fset_wf h))) (authResult_wf (fset_wf h)))

theorem execAuthRevoke_wf {s : State} (h : Canonical s.dev) : NextCanonical (execAuthRevoke s) := onDev_wf (swRevoke_wf h)

theorem setPassword_wf {payload : BitVec 256} (h : Canonical s) : Canonical (setPassword s payload) :=
  ite_wf (authResult_wf (authTap_wf h)) (ite_wf (authResult_wf (authTap_wf h)) (authResult_wf ((authTap_wf h).update)))

theorem execSetPassword_wf {payload : BitVec 256} {s : State} (h : Canonical s.dev) : NextCanonical (execSetPassword payload s) :=
  onDev_wf (setPassword_wf h)

theorem execTapIdleTimeout_wf {s : State} (h : Canonical s.dev) : NextCanonical (execTapIdleTimeout s) :=
  onDev_wf (ite_wf h (endTapGrant_wf (advanceOp_wf h)))

theorem garirEnd_wf {status tag : Nat} {data : Word} (h : Canonical s) : Canonical (garirEnd s status tag data) := modDbg_wf h

theorem garirDo_wf {addr : Nat} {f : Dev → Dev} (h : Canonical s) (h1 : ∀ s, Canonical s → Canonical (f s)) :
    Canonical (garirDo s addr f) :=
  ite_wf (tapRun_wf h) (h1 _ (modDbg_wf (tapRun_wf h)))

theorem garirThread_wf {core th low : Nat} {f : Dev → Nat → Dev} (h : Canonical s) (h1 : ∀ s n, Canonical s → Canonical (f s n)) :
    Canonical (garirThread s core th low f) :=
  garirDo_wf h (fun _ hs => ite_wf (garirEnd_wf hs) (ite_wf (garirEnd_wf hs) (h1 _ _ hs)))

theorem execGarirNop_wf {s : State} (h : Canonical s.dev) :
    NextCanonical (execGarirNop s) := onDev_wf (garirDo_wf h (fun _ hs => garirEnd_wf hs))

theorem garirHalt_wf {t : Nat} (h : Canonical s) : Canonical (garirHalt s t) :=
  ite_wf (garirEnd_wf h) (ite_wf (garirEnd_wf (haltThread_wf h)) (modDbg_wf (modThr_wf h)))

theorem execGarirHalt_wf {core : Byte} {th : Fin 8} {s : State} (h : Canonical s.dev) : NextCanonical (execGarirHalt core th s) :=
  onDev_wf (garirThread_wf h (fun _ _ hs => garirHalt_wf hs))

theorem garirResume_wf {t : Nat} (h : Canonical s) :
    Canonical (garirResume s t) := ite_wf (garirEnd_wf (resumeExc_wf (modThr_wf h))) (garirEnd_wf h)

theorem execGarirResume_wf {core : Byte} {th : Fin 8} {s : State} (h : Canonical s.dev) : NextCanonical (execGarirResume core th s) :=
  onDev_wf (garirThread_wf h (fun _ _ hs => garirResume_wf hs))

theorem garirStep_wf {t : Nat} (h : Canonical s) :
    Canonical (garirStep s t) := ite_wf (resumeExc_wf (modDbg_wf (modThr_wf h))) (garirEnd_wf h)

theorem execGarirStep_wf {core : Byte} {th : Fin 8} {s : State} (h : Canonical s.dev) : NextCanonical (execGarirStep core th s) :=
  onDev_wf (garirThread_wf h (fun _ _ hs => garirStep_wf hs))

theorem garirRegRead_wf {r t : Nat} (h : Canonical s) : Canonical (garirRegRead r s t) := by
  unfold garirRegRead
  extract_lets +onlyGivenNames x
  split
  · exact garirEnd_wf h
  · split
    · exact garirEnd_wf h
    · split
      · exact garirEnd_wf h
      · split
        · exact garirEnd_wf h
        · split
          · exact garirEnd_wf h
          · exact garirEnd_wf h

theorem execGarirRegRead_wf {core : Byte} {th : Fin 8} {r : BitVec 7} {s : State} (h : Canonical s.dev) :
    NextCanonical (execGarirRegRead core th r s) :=
  onDev_wf (garirThread_wf h (fun _ _ hs => garirRegRead_wf hs))

theorem garirRegWrite_wf {r : Nat} {v : Word} {tag : Byte} {t : Nat} (h : Canonical s) : Canonical (garirRegWrite r v tag s t) := by
  unfold garirRegWrite
  split
  · exact garirEnd_wf h
  · split
    · exact garirEnd_wf (modThr_wf h)
    · split
      · exact ite_wf (garirEnd_wf (modThr_wf h)) (garirEnd_wf h)
      · split
        · exact garirEnd_wf h
        · split
          · next s2 e4 =>
              have hs : Canonical s2 := writeSr_wf h _ e4
              exact garirEnd_wf hs
          · exact garirEnd_wf h

theorem execGarirRegWrite_wf {core : Byte} {th : Fin 8} {r : BitVec 7} {v : Word} {tag : Byte} {s : State} (h : Canonical s.dev) :
    NextCanonical (execGarirRegWrite core th r v tag s) :=
  onDev_wf (garirThread_wf h (fun _ _ hs => garirRegWrite_wf hs))

theorem garirCmp_wf {core : Nat} {data : Bool} {idx : Nat} {ok : Bool} {f : Dev → Dev} (h : Canonical s) (h1 : ∀ s, Canonical s → Canonical (f s)) :
    Canonical (garirCmp s core data idx ok f) :=
  garirDo_wf h (fun _ hs => ite_wf (garirEnd_wf hs) (ite_wf (garirEnd_wf hs) (garirEnd_wf (h1 _ hs))))

theorem execBpSet_wf {core : Byte} {data : Bool} {idx : BitVec 3} {va : BitVec 48} {mask : Byte} {action access : BitVec 2} {s : State}
    (h : Canonical s.dev) :
    NextCanonical (execBpSet core data idx va mask action access s) :=
  onDev_wf (garirCmp_wf h (fun _ hs => modDbg_wf hs))

theorem execBpClear_wf {core : Byte} {data : Bool} {idx : BitVec 3} {s : State} (h : Canonical s.dev) :
    NextCanonical (execBpClear core data idx s) :=
  onDev_wf (garirCmp_wf h (fun _ hs => modDbg_wf hs))

theorem garirState_wf {t : Nat} (h : Canonical s) : Canonical (garirState s t) := garirEnd_wf h

theorem execGarirState_wf {core : Byte} {th : Fin 8} {s : State} (h : Canonical s.dev) : NextCanonical (execGarirState core th s) :=
  onDev_wf (garirThread_wf h (fun _ _ hs => garirState_wf hs))

theorem execBrkHalt_wf {core : Byte} {th : Fin 8} {flag : Bool} {s : State} (h : Canonical s.dev) :
    NextCanonical (execBrkHalt core th flag s) :=
  onDev_wf (garirThread_wf h (fun _ _ hs => garirEnd_wf (modThr_wf hs)))

theorem vtRead_wf {p : Nat} (h : Canonical s) : Canonical (vtRead s p) :=
  garirDo_wf h (fun _ hs => ite_wf (garirEnd_wf hs) (garirEnd_wf (fset_wf (fset_wf hs))))

theorem execVtRead_wf {p : PartId} {s : State} (h : Canonical s.dev) : NextCanonical (execVtRead p s) := onDev_wf (vtRead_wf h)

theorem vtWrite_wf {p count data : Nat} (h : Canonical s) : Canonical (vtWrite s p count data) := by
  unfold vtWrite
  exact garirDo_wf h (fun _ hs => ite_wf (garirEnd_wf hs) (ite_wf (garirEnd_wf hs)
      (garirEnd_wf (ite_wf (raise_wf (fset_wf (fset_wf (fset_wf hs)))) (fset_wf (fset_wf (fset_wf hs)))))))

theorem execVtWrite_wf {p : PartId} {count : Fin 8} {data : BitVec 56} {s : State} (h : Canonical s.dev) :
    NextCanonical (execVtWrite p count data s) :=
  onDev_wf (vtWrite_wf h)

theorem vtTx_wf {p count data : Nat} (h : Canonical s) : Canonical (vtTx s p count data) :=
  ite_wf h (ite_wf (fset_wf h) (fset_wf (fset_wf (fset_wf h))))

theorem execDbgVtTx_wf {p : PartId} {count : Fin 8} {data : BitVec 56} {s : State} (h : Canonical s.dev) :
    NextCanonical (execDbgVtTx p count data s) :=
  onDev_wf (vtTx_wf h)

theorem vtAck_wf {p : Nat} (h : Canonical s) : Canonical (vtAck s p) := fset_wf h

theorem execVtRxAck_wf {p : PartId} {s : State} (h : Canonical s.dev) : NextCanonical (execVtRxAck p s) := onDev_wf (vtAck_wf h)

theorem mbWrite_wf {idx : Nat} {send : Bool} {v : Word} (h : Canonical s) : Canonical (mbWrite s idx send v) := by
  unfold mbWrite
  exact garirDo_wf h (fun _ hs => ite_wf (garirEnd_wf hs) (ite_wf (garirEnd_wf hs)
      (garirEnd_wf (ite_wf (mboxSend_wf (setMbox_wf hs)) (setMbox_wf hs)))))

theorem execMbWrite_wf {idx : Fin 16} {send : Bool} {v : Word} {s : State} (h : Canonical s.dev) :
    NextCanonical (execMbWrite idx send v s) :=
  onDev_wf (mbWrite_wf h)

theorem mbRead_wf {idx : Nat} {ack : Bool} (h : Canonical s) : Canonical (mbRead s idx ack) :=
  garirDo_wf h (fun _ hs => ite_wf (garirEnd_wf hs) (garirEnd_wf (ite_wf (mboxAck_wf hs) hs)))

theorem execMbRead_wf {idx : Fin 16} {ack : Bool} {s : State} (h : Canonical s.dev) :
    NextCanonical (execMbRead idx ack s) := onDev_wf (mbRead_wf h)

end Sys2Proof.Machine
end

section
/-! PROOFS. The storage keeps its canonical form (O4): the commands of the instances. -/
namespace Sys2Proof.Machine

variable {s : Dev}

theorem poolFrame_wf {body : List Byte} (h : Canonical s) : ∀ x ∈ poolFrame s body, Canonical x.2 :=
  ite_all (some_all (addFrame_wf (fset_wf h))) none_all

theorem injectFrame_wf {i id tc : Nat} {body : List Byte} (h : Canonical s) : Canonical (injectFrame s i id tc body) := by
  unfold injectFrame
  dsimp only
  refine releaseFrame_wf ?_
  refine foldl_wf (fun s b hs => ?_) (ite_snd_wf (ite_snd_wf (countErg_wf (drawFree_wf h))
      (ite_snd_wf (countErg_wf (drawFree_wf h)) (countErg_wf (drawFree_wf h)))) (forwardTo_wf (countErg_wf (drawFree_wf h))))
  split
  · exact enqueue_wf (useFrame_wf hs)
  · exact rxDeliver_wf hs
  · exact ite_wf hs (modErg_wf hs)

theorem dropReq_wf {i q : Nat} (h : Canonical s) : Canonical (dropReq s i q) := by
  unfold dropReq
  split
  · exact h
  · exact setReqs_wf h

theorem closeQueue_wf {i q : Nat} (h : Canonical s) : Canonical (closeQueue s i q) := by
  unfold closeQueue
  split
  · exact h
  · exact ite_wf h (fset_wf (qpPut_wf (setQdir_wf h)))

theorem resizeNow_wf {i : Nat} (h : Canonical s) : Canonical (resizeNow s i) := by
  unfold resizeNow
  split
  · exact h
  · exact ite_wf h (applyChange_wf (setPiState_wf h))

theorem txFrame_wf {i q : Nat} {w1 : Word} {l : List (Nat × Nat)} (h : Canonical s) : Canonical (txFrame s i q w1 l) := by
  unfold txFrame
  split
  · exact complete_wf (dropReq_wf h)
  · extract_lets +onlyGivenNames r body
    have hr : Canonical r.2 := by
      unfold r
      exact ioReadParts_wf h
    split
    · exact complete_wf (dropReq_wf hr)
    · split
      · exact countErg_wf (stallOn_wf hr)
      · split
        · exact modErg_wf (stallOn_wf hr)
        · next s1 e3 =>
            have hs : Canonical s1 := poolFrame_wf hr _ e3
            exact injectFrame_wf (complete_wf (takeCredit_wf (modErg_wf (dropReq_wf hs))))

theorem txDescriptor_wf {i q : Nat} {slow : Bool} (h : Canonical s) : Canonical (txDescriptor s i q slow) := by
  unfold txDescriptor
  split
  · exact h
  · split
    · exact h
    · extract_lets fail next
      have hfail : ∀ {s w1 status len}, Canonical s → Canonical (fail s w1 status len) := fun hs => complete_wf (dropReq_wf hs)
      have hnext : Canonical next.2 := by
        unfold next
        split
        · exact h
        · exact nextDesc_wf h
      clear_value fail next
      refine resizeNow_wf (closeQueue_wf ?_)
      split
      · exact hnext
      · exact hfail hnext
      · extract_lets len
        split
        · exact hfail hnext
        · split
          · next e => exact hfail (snd_wf (ioRange_wf hnext) e)
          · next s2 e =>
            have hs2 : Canonical s2 := snd_wf (ioRange_wf hnext) e
            exact ite_wf (ite_wf hs2 (setReqs_wf hs2)) (txFrame_wf hs2)

theorem finishTx_wf {i : Nat} (h : Canonical s) : Canonical (finishTx s i) := foldl_wf (fun _ _ hs => txDescriptor_wf hs) h

theorem qpWriteCmd_wf {i q w : Nat} (h : Canonical s) : Canonical (qpWriteCmd s i q w) :=
  ite_wf (ite_wf (fset_wf (setQdir_wf (qpIndexSet_wf (txDescriptor_wf h)))) (qpWrite_wf (txDescriptor_wf h))) (qpWrite_wf h)

theorem cmdGetInfo_wf {i : Nat} (h : Canonical s) : Canonical (cmdGetInfo s i) := respond_wf h

theorem setOneMac_wf {i : Nat} {w : Word} (h : Canonical s) : Canonical (setOneMac s i w).2 := by
  unfold setOneMac
  extract_lets +onlyGivenNames mac x
  split
  · exact h
  · split
    · exact modInst_wf (removeMac_wf h)
    · split
      · exact h
      · split
        · exact h
        · split
          · exact h
          · split
            · exact h
            · next s3 e5 =>
                have hs : Canonical s3 := installMac_wf h _ e5
                exact modInst_wf hs

theorem setMacs_wf {i : Nat} {l : List (Nat × Word)} (h : Canonical s) : Canonical (setMacs i l s).2 := by
  induction l generalizing s with
  | nil =>
    rw [setMacs]
    exact h
  | cons x l ih =>
    rw [setMacs]
    exact ih (setOneMac_wf h)

theorem cmdSetMac_wf {i : Nat} (h : Canonical s) : Canonical (cmdSetMac s i) := by
  unfold cmdSetMac
  dsimp only
  split
  · exact respond_wf (setMacs_wf h)
  · exact ite_wf (respond_wf h) (respond_wf (setMacs_wf h))

theorem installAll_wf {i : Nat} {vs ms : List Nat} (h : Canonical s) : ∀ x ∈ installAll i vs ms s, Canonical x := by
  induction ms generalizing s with
  | nil =>
    rw [installAll]
    exact some_all h
  | cons x ms ih =>
    rw [installAll]
    split
    · exact none_all
    · next s3 e =>
        have hs : Canonical s3 := installMac_wf h _ e
        exact ih hs

theorem cmdSetVlans_wf {i : Nat} (h : Canonical s) : Canonical (cmdSetVlans s i) := by
  unfold cmdSetVlans
  extract_lets +onlyGivenNames x pvid vs
  split
  · exact respond_wf h
  · split
    · exact respond_wf h
    · extract_lets +onlyGivenNames s1
      have h1 : Canonical s1 := foldl_wf (fun _ _ hs => removeMac_wf hs) h
      split
      · exact respond_wf h
      · next s3 e2 =>
          have hs : Canonical s3 := installAll_wf h1 _ e2
          exact respond_wf (modInst_wf hs)

theorem cmdSetFlood_wf {i : Nat} (h : Canonical s) : Canonical (cmdSetFlood s i) := respond_wf (modInst_wf h)

theorem cmdSetSteer_wf {i : Nat} (h : Canonical s) : Canonical (cmdSetSteer s i) := ite_wf (respond_wf (modInst_wf h)) (respond_wf h)

theorem cmdReset_wf {i : Nat} (h : Canonical s) : Canonical (cmdReset s i) := ite_wf (respond_wf h) (modInst_wf h)

theorem changeNow_wf {i : Nat} (h : Canonical s) : Canonical (changeNow s i) := by
  unfold changeNow
  split
  · exact h
  · split
    · exact applyChange_wf h
    · exact ite_wf (resizeNow_wf (modInst_wf (finishTx_wf h))) (applyChange_wf (setPiState_wf (finishTx_wf h)))

theorem cmdAckNotice_wf {i : Nat} (h : Canonical s) : Canonical (cmdAckNotice s i) := by
  unfold cmdAckNotice
  split
  · exact ite_wf (changeNow_wf (respond_wf h)) (respond_wf h)
  · exact respond_wf h

theorem createInst_wf {i part count : Nat} {vids : List Nat} (h : Canonical s) : Canonical (createInst s i part count vids) :=
  tlbDropAll_wf (setPart_wf (setPiState_wf (fset_wf (setInst_wf h))))

theorem cmdPiCreate_wf {m : Nat} (h : Canonical s) : Canonical (cmdPiCreate s m) := ite_wf (respond_wf (createInst_wf h)) (respond_wf h)

theorem announce_wf {i : Nat} {c : PiChange} {time : Nat} {w2 : List Word} (h : Canonical s) : Canonical (announce s i c time w2) :=
  notify_wf (setPiState_wf (modInst_wf h))

theorem cmdPiResize_wf {m : Nat} (h : Canonical s) : Canonical (cmdPiResize s m) := ite_wf (announce_wf h) (respond_wf h)

theorem cmdPiPolicy_wf {m : Nat} (h : Canonical s) : Canonical (cmdPiPolicy s m) := ite_wf (announce_wf h) (respond_wf h)

theorem cmdPiRemove_wf {m : Nat} (h : Canonical s) : Canonical (cmdPiRemove s m) := ite_wf (announce_wf h) (respond_wf h)

theorem noticeDeadline_wf {i : Nat} (h : Canonical s) : Canonical (noticeDeadline s i) := by
  unfold noticeDeadline
  split
  · exact ite_wf (changeNow_wf (advanceTo_wf h)) h
  · exact h

theorem tenantCmd_wf {i code : Nat} {f : Dev → Nat → Dev} (h : Canonical s) (h1 : ∀ s n, Canonical s → Canonical (f s n)) :
    Canonical (tenantCmd s i code f) :=
  mboxRun_wf h (fun _ hs => h1 _ _ hs)

theorem managerCmd_wf {m code : Nat} {f : Dev → Nat → Dev} (h : Canonical s) (h1 : ∀ s n, Canonical s → Canonical (f s n)) :
    Canonical (managerCmd s m code f) :=
  mboxRun_wf h (fun _ hs => ite_wf (h1 _ _ hs) (respond_wf hs))

theorem execDoorbell_wf {i : InstId} {v : Word} {s : State} (h : Canonical s.dev) : NextCanonical (execDoorbell i v s) :=
  onDev_wf (whenOn_wf h (fun _ hs => doorbell_wf hs))

theorem execPiTxDescriptor_wf {i : InstId} {q : Fin 1024} {slow : Bool} {s : State} (h : Canonical s.dev) :
    NextCanonical (execPiTxDescriptor i q slow s) :=
  onDev_wf (engineAct_wf h (fun _ hs => txDescriptor_wf hs))

theorem execStaleDataReturn_wf {i : InstId} {s : State} (h : Canonical s.dev) :
    NextCanonical (execStaleDataReturn i s) := onDev_wf (staleReturn_wf h)

theorem execPiQpRead_wf {i : InstId} {q : Fin 1024} {word : Fin 4} {s : State} (h : Canonical s.dev) :
    NextCanonical (execPiQpRead i q word s) :=
  onDev_wf (whenOn_wf h (fun _ hs => whenDone_wf (fun _ hs1 => qpRead_wf hs1) hs))

theorem execPiQpWrite_wf {i : InstId} {q : Fin 1024} {word : Fin 4} {s : State} (h : Canonical s.dev) :
    NextCanonical (execPiQpWrite i q word s) :=
  onDev_wf (whenOn_wf h (fun _ hs => whenDone_wf (fun _ hs1 => qpWriteCmd_wf hs1) hs))

theorem execInstanceReset_wf {i : InstId} {s : State} (h : Canonical s.dev) : NextCanonical (execInstanceReset i s) :=
  onDev_wf (ite_wf (instResetStart_wf h) h)

theorem execResetWaitTimeout_wf {i : InstId} {s : State} (h : Canonical s.dev) : NextCanonical (execResetWaitTimeout i s) :=
  onDev_wf (instResetLate_wf h)

theorem execMboxSend_wf {m : Mailbox} {s : State} (h : Canonical s.dev) : NextCanonical (execMboxSend m s) := onDev_wf (mboxSend_wf h)

theorem execMailboxResponse_wf {m : Mailbox} {s : State} (h : Canonical s.dev) :
    NextCanonical (execMailboxResponse m s) := onDev_wf (mboxPlace_wf h)

theorem execMboxInAck_wf {m : Mailbox} {s : State} (h : Canonical s.dev) : NextCanonical (execMboxInAck m s) := onDev_wf (mboxAck_wf h)

theorem execMboxData_wf {m : Mailbox} {w : Option Word} {s : State} (h : Canonical s.dev) : NextCanonical (execMboxData m w s) := by
  unfold execMboxData
  refine onDev_wf ?_
  split
  · exact mboxWrite_wf h
  · exact mboxRead_wf h

theorem execGetInfo_wf {i : InstId} {s : State} (h : Canonical s.dev) : NextCanonical (execGetInfo i s) :=
  onDev_wf (tenantCmd_wf h (fun _ _ hs => cmdGetInfo_wf hs))

theorem execSetMac_wf {i : InstId} {s : State} (h : Canonical s.dev) : NextCanonical (execSetMac i s) :=
  onDev_wf (tenantCmd_wf h (fun _ _ hs => cmdSetMac_wf hs))

theorem execSetVlans_wf {i : InstId} {s : State} (h : Canonical s.dev) : NextCanonical (execSetVlans i s) :=
  onDev_wf (tenantCmd_wf h (fun _ _ hs => cmdSetVlans_wf hs))

theorem execSetFlood_wf {i : InstId} {s : State} (h : Canonical s.dev) : NextCanonical (execSetFlood i s) :=
  onDev_wf (tenantCmd_wf h (fun _ _ hs => cmdSetFlood_wf hs))

theorem execSetSteer_wf {i : InstId} {s : State} (h : Canonical s.dev) : NextCanonical (execSetSteer i s) :=
  onDev_wf (tenantCmd_wf h (fun _ _ hs => cmdSetSteer_wf hs))

theorem execTenantReset_wf {i : InstId} {s : State} (h : Canonical s.dev) : NextCanonical (execTenantReset i s) :=
  onDev_wf (tenantCmd_wf h (fun _ _ hs => cmdReset_wf hs))

theorem execAckNotice_wf {i : InstId} {s : State} (h : Canonical s.dev) : NextCanonical (execAckNotice i s) :=
  onDev_wf (tenantCmd_wf h (fun _ _ hs => cmdAckNotice_wf hs))

theorem execPiCreate_wf {m : Mailbox} {s : State} (h : Canonical s.dev) : NextCanonical (execPiCreate m s) :=
  onDev_wf (ite_wf (managerCmd_wf h (fun _ _ hs => cmdPiCreate_wf hs)) h)

theorem execPiResize_wf {m : Mailbox} {s : State} (h : Canonical s.dev) : NextCanonical (execPiResize m s) :=
  onDev_wf (managerCmd_wf h (fun _ _ hs => cmdPiResize_wf hs))

theorem execPiPolicy_wf {m : Mailbox} {s : State} (h : Canonical s.dev) : NextCanonical (execPiPolicy m s) :=
  onDev_wf (managerCmd_wf h (fun _ _ hs => cmdPiPolicy_wf hs))

theorem execPiRemove_wf {m : Mailbox} {s : State} (h : Canonical s.dev) : NextCanonical (execPiRemove m s) :=
  onDev_wf (managerCmd_wf h (fun _ _ hs => cmdPiRemove_wf hs))

theorem execPiMigrate_wf {m : Mailbox} {s : State} (h : Canonical s.dev) : NextCanonical (execPiMigrate m s) :=
  onDev_wf (mboxRun_wf h (fun _ hs => respond_wf hs))

theorem execNoticeDeadline_wf {i : InstId} {s : State} (h : Canonical s.dev) : NextCanonical (execNoticeDeadline i s) :=
  onDev_wf (noticeDeadline_wf h)

end Sys2Proof.Machine
end

section
/-! PROOFS. The storage keeps its canonical form (O4): the commands of the twin link. -/
namespace Sys2Proof.Machine

variable {s : Dev}

theorem execTwinEnable_wf {who : Agent} {on : Bool} {s : State} (h : Canonical s.dev) : NextCanonical (execTwinEnable who on s) :=
  onDev_wf (whenOn_wf h (fun _ hs => writeField_wf hs (fun _ hs1 => twinEnable_wf hs1)))

theorem sendNetwork_wf (h : Canonical s) : Canonical (sendNetwork s) := foldl_wf (fun _ _ hs => handToPort_wf hs) h

theorem heartbeatTick_wf (h : Canonical s) :
    Canonical (heartbeatTick s) := ite_wf (sendNetwork_wf (heartbeatSend_wf (modTwin_wf (advanceTo_wf h)))) h

theorem execHeartbeatSend_wf {s : State} (h : Canonical s.dev) : NextCanonical (execHeartbeatSend s) := onDev_wf (heartbeatTick_wf h)

theorem execHeartbeat_wf {at_ : Nat} {m : List Byte} {delay skew : BitVec 16} {s : State} (h : Canonical s.dev) :
    NextCanonical (execHeartbeat at_ m delay skew s) :=
  onDev_wf (heartbeat_wf h)

theorem execArrivalMap_wf {at_ : Nat} {m : List Byte} {s : State} (h : Canonical s.dev) : NextCanonical (execArrivalMap at_ m s) :=
  onDev_wf (arrivalMap_wf h)

theorem execFrameFill_wf {at_ : Nat} {m : List Byte} {s : State} (h : Canonical s.dev) : NextCanonical (execFrameFill at_ m s) :=
  onDev_wf (frameFill_wf h)

theorem execDigestMessage_wf {at_ : Nat} {m : List Byte} {s : State} (h : Canonical s.dev) : NextCanonical (execDigestMessage at_ m s) :=
  onDev_wf (digestMessage_wf h)

theorem execJournalMsg_wf {at_ : Nat} {m : List Byte} {s : State} (h : Canonical s.dev) : NextCanonical (execJournalMsg at_ m s) :=
  onDev_wf (journalMessage_wf h)

theorem execStateCopy_wf {at_ : Nat} {m : List Byte} {s : State} (h : Canonical s.dev) : NextCanonical (execStateCopy at_ m s) :=
  onDev_wf (engineAct_wf h (fun _ hs => stateCopy_wf hs))

theorem execLinkLost_wf {s : State} (h : Canonical s.dev) : NextCanonical (execLinkLost s) := onDev_wf (linkLostEvent_wf h)

theorem execPathLost_wf {j : Fin 4} {s : State} (h : Canonical s.dev) : NextCanonical (execPathLost j s) := onDev_wf (pathLost_wf h)

theorem execTwinLaneDown_wf {l : Fin 8} {s : State} (h : Canonical s.dev) : NextCanonical (execTwinLaneDown l s) := onDev_wf (laneSet_wf h)

theorem execTwinLaneUp_wf {l : Fin 8} {s : State} (h : Canonical s.dev) : NextCanonical (execTwinLaneUp l s) := onDev_wf (laneSet_wf h)

theorem agreementEnd_wf {c : Nat} (h : Canonical s) : Canonical (agreementEnd s c) := ite_wf (releaseHeld_wf (windowEnd_wf h)) h

theorem execAgreementWindowEnd_wf {c : ClassId} {s : State} (h : Canonical s.dev) : NextCanonical (execAgreementWindowEnd c s) :=
  onDev_wf (agreementEnd_wf h)

theorem execDigestDone_wf {c : ClassId} {k : CtlId} {s : State} (h : Canonical s.dev) : NextCanonical (execDigestDone c k s) :=
  onDev_wf (digestDone_wf h)

theorem execDigestMissed_wf {c : ClassId} {k : CtlId} {s : State} (h : Canonical s.dev) : NextCanonical (execDigestMissed c k s) :=
  onDev_wf (digestMissed_wf h)

theorem execJournalSubmit_wf {v : Word} {s : State} (h : Canonical s.dev) : NextCanonical (execJournalSubmit v s) :=
  onDev_wf (whenOn_wf h (fun _ hs => journalSubmit_wf hs))

theorem execTwinJoin_wf {s : State} (h : Canonical s.dev) : NextCanonical (execTwinJoin s) :=
  onDev_wf (whenOn_wf h (fun _ hs => twinGo_wf (fun _ hs1 => cmdJoin_wf hs1) hs))

theorem execTwinLeave_wf {s : State} (h : Canonical s.dev) : NextCanonical (execTwinLeave s) :=
  onDev_wf (whenOn_wf h (fun _ hs => twinGo_wf (fun _ hs1 => cmdLeave_wf hs1) hs))

theorem execTwinSwap_wf {s : State} (h : Canonical s.dev) : NextCanonical (execTwinSwap s) :=
  onDev_wf (whenOn_wf h (fun _ hs => twinGo_wf (fun _ hs1 => cmdSwap_wf hs1) hs))

theorem execTwinStart_wf {s : State} (h : Canonical s.dev) : NextCanonical (execTwinStart s) :=
  onDev_wf (whenOn_wf h (fun _ hs => twinGo_wf (fun _ hs1 => cmdStart_wf hs1) hs))

theorem execSwapTimeout_wf {s : State} (h : Canonical s.dev) : NextCanonical (execSwapTimeout s) := onDev_wf (swapTimeout_wf h)

theorem execCopyRound_wf {s : State} (h : Canonical s.dev) : NextCanonical (execCopyRound s) := onDev_wf (copyRound_wf h)

theorem execFreezeTimeout_wf {s : State} (h : Canonical s.dev) : NextCanonical (execFreezeTimeout s) := onDev_wf (freezeTimeout_wf h)

theorem execTwinTblRead_wf {table : Fin 4} {index : Fin 16} {s : State} (h : Canonical s.dev) :
    NextCanonical (execTwinTblRead table index s) :=
  onDev_wf (whenOn_wf h (fun _ hs => whenDone_wf (fun _ hs1 => twinTblRead_wf hs1) hs))

theorem execTwinTblWrite_wf {table : Fin 4} {index : Fin 16} {s : State} (h : Canonical s.dev) :
    NextCanonical (execTwinTblWrite table index s) :=
  onDev_wf (whenOn_wf h (fun _ hs => whenDone_wf (fun _ hs1 => twinTblWrite_wf hs1) hs))

end Sys2Proof.Machine
end

section
/-! PROOFS. The storage keeps its canonical form (O4): partitions. -/
namespace Sys2Proof.Machine

variable {s : Dev}

theorem setPartState_wf {p v : Nat} (h : Canonical s) : Canonical (setPartState s p v) := by
  unfold setPartState
  extract_lets +onlyGivenNames s1 s2
  have h1 : Canonical s1 := setReg_wf h
  have h2 : Canonical s2 := logRec_wf h1
  split
  · exact notify_wf h2
  · exact h2

theorem oasisWrite_wf {pa : Nat} {bs : List Byte} (h : Canonical s) : Canonical (oasisWrite s pa bs) := by
  unfold oasisWrite
  extract_lets +onlyGivenNames s1
  have h1 : Canonical s1 := foldl_wf (fun _ _ hs => oasisStore_wf hs (fun _ hs1 => hs1)) h
  exact foldl_wf (fun _ _ hs => ite_wf (setPoison_wf _ _ _ (setTag_wf _ _ _ hs)) (setTag_wf _ _ _ hs))
      (markDirty_wf _ _ _ (wrBytes_wf _ _ _ h1))

theorem applyLoad_wf {p : Nat} {b : BlobLoad} (h : Canonical s) : ∀ x ∈ applyLoad s p b, Canonical x :=
  map_all fun _ _ => foldl_snd_wf (fun _ _ hx => oasisWrite_wf hx) h

theorem applyLoads_wf {p : Nat} {bs : List BlobLoad} (h : Canonical s) : BothCanonical (applyLoads p bs s) := by
  induction bs generalizing s with
  | nil =>
    rw [applyLoads]
    exact both_some h h
  | cons b bs ih =>
    rw [applyLoads]
    split
    · next e => exact ih (applyLoad_wf h _ e)
    · exact both_none h

theorem startThread_wf {ws : List Word} (h : Canonical s) : Canonical (startThread s ws) := setThr_wf h

theorem bootRefused_wf {p : Nat} (h : Canonical s) : Canonical (bootRefused s p) := setPartState_wf (logRec_wf h)

theorem startedPart_wf {p : Nat} (h : Canonical s) : Canonical (startedPart s p) := ite_wf ((setPartState_wf h).update) (setPartState_wf h)

theorem bootPart_wf {p : Nat} (h : Canonical s) : Canonical (bootPart s p) := by
  unfold bootPart
  extract_lets x lo hi s1 s2
  have hs1 : Canonical s1 := setPartState_wf h
  have hs2 : Canonical s2 := ite_wf (clearRange_wf _ _ _ (foldl_wf (fun _ _ hs => ioInvalidate_wf hs) hs1)) hs1
  split
  · next e => exact bootRefused_wf ((applyLoads_wf hs2).of_none e)
  · next e =>
    have hs3 : Canonical _ := (applyLoads_wf hs2).of_some e
    exact ite_wf (startedPart_wf (foldl_wf (fun _ _ hs => startThread_wf hs) hs3)) (bootRefused_wf hs3)

theorem bootStatus_wf {p : Nat} {reset : Bool} (h : Canonical s) :
    Canonical (bootStatus s p reset).2 := ite_snd_wf h (ite_snd_wf h (drawFree_wf h))

theorem answerStart_wf {p : Nat} {reset : Bool} {m : Option Nat} (h : Canonical s) : Canonical (answerStart s p reset m) := by
  unfold answerStart
  split
  · exact h
  · exact respond_wf (bootStatus_wf h)

theorem breakGates_wf {p : Nat} (h : Canonical s) : Canonical (breakGates s p) := foldl_wf (fun _ _ hs => logRec_wf hs) h.update

theorem finishStop_wf {p : Nat} (h : Canonical s) : Canonical (finishStop s p) := by
  unfold finishStop
  dsimp only
  split
  · exact answerStart_wf (bootPart_wf (setPart_wf h.update))
  · split
    · exact respond_wf (setPartState_wf (setPart_wf h.update))
    · exact setPartState_wf (setPart_wf h.update)

theorem stopProgress_wf {p : Nat} (h : Canonical s) : Canonical (stopProgress s p) := ite_wf (finishStop_wf h) h

theorem stopPart_wf {p : Nat} {reset : Bool} {m : Option Nat} (h : Canonical s) : Canonical (stopPart s p reset m) := by
  unfold stopPart
  extract_lets +onlyGivenNames s1 _ s2 ts s3 s4 s5
  have h1 : Canonical s1 := setPartState_wf h
  have h2 : Canonical s2 := setPart_wf h1
  have h3 : Canonical s3 := breakGates_wf (foldl_wf (fun _ _ hs => stopThread_wf hs) h2)
  have h4 : Canonical s4 := ite_wf (endSwGrant_wf h3) h3
  have h5 : Canonical s5 := foldl_wf (fun _ _ hs => ite_wf hs (modInst_wf hs)) h4
  exact stopProgress_wf h5

theorem instResetComplete_wf {i : Nat} (h : Canonical s) : Canonical (instResetComplete s i) := stopProgress_wf (instResetEnd_wf h)

theorem cmdPartInfo_wf {m : Nat} (h : Canonical s) : Canonical (cmdPartInfo s m) := respond_wf h

theorem cmdPartStart_wf {m : Nat} (h : Canonical s) : Canonical (cmdPartStart s m) :=
  ite_wf (respond_wf h) (ite_wf (respond_wf h) (ite_wf (respond_wf h) (answerStart_wf (bootPart_wf h))))

theorem cmdPartStop_wf {m : Nat} (h : Canonical s) : Canonical (cmdPartStop s m) :=
  ite_wf (respond_wf h) (ite_wf (respond_wf h) (ite_wf (respond_wf h) (stopPart_wf h)))

theorem cmdPartReset_wf {m : Nat} (h : Canonical s) : Canonical (cmdPartReset s m) :=
  ite_wf (respond_wf h) (ite_wf (respond_wf h) (ite_wf (respond_wf h) (stopPart_wf h)))

theorem cmdThreadStart_wf {m : Nat} (h : Canonical s) : Canonical (cmdThreadStart s m) :=
  ite_wf (respond_wf h) (ite_wf (respond_wf h) (ite_wf (respond_wf h) (respond_wf (startThread_wf h))))

theorem setRoute_wf {src : Nat} {w : Word} (h : Canonical s) : Canonical (setRoute s src w) := h.update

theorem cmdRoute_wf {m : Nat} (h : Canonical s) : Canonical (cmdRoute s m) :=
  ite_wf (respond_wf h) (ite_wf (respond_wf h) (respond_wf (setRoute_wf h)))

theorem cmdMap_wf {m : Nat} (h : Canonical s) : Canonical (cmdMap s m) := by
  unfold cmdMap
  extract_lets +onlyGivenNames a p n x remove
  split
  · exact respond_wf h
  · exact ite_wf (respond_wf h) (ite_wf (respond_wf h) (ite_wf (respond_wf h) (respond_wf (tlbDropAll_wf (setPart_wf h)))))

theorem mapRun_wf {m : Nat} (h : Canonical s) : Canonical (mapRun s m) := ite_wf (mboxRun_wf h (fun _ hs => cmdMap_wf hs)) h

theorem setGate_wf {g : Nat} {x : GateSt} (h : Canonical s) : Canonical (setGate s g x) := h.update

theorem gateOp_wf {t op g : Nat} (h : Canonical s) : Canonical (gateOp s t op g) := ite_wf (fset_wf h) (setReg_wf (setGate_wf h))

theorem execInstanceResetComplete_wf {i : InstId} {s : State} (h : Canonical s.dev) : NextCanonical (execInstanceResetComplete i s) :=
  onDev_wf (instResetComplete_wf h)

theorem execPartInfo_wf {m : Mailbox} {s : State} (h : Canonical s.dev) : NextCanonical (execPartInfo m s) :=
  onDev_wf (mboxRun_wf h (fun _ hs => cmdPartInfo_wf hs))

theorem execPartStart_wf {m : Mailbox} {s : State} (h : Canonical s.dev) : NextCanonical (execPartStart m s) :=
  onDev_wf (mboxRun_wf h (fun _ hs => cmdPartStart_wf hs))

theorem execPartStop_wf {m : Mailbox} {s : State} (h : Canonical s.dev) : NextCanonical (execPartStop m s) :=
  onDev_wf (mboxRun_wf h (fun _ hs => cmdPartStop_wf hs))

theorem execPartReset_wf {m : Mailbox} {s : State} (h : Canonical s.dev) : NextCanonical (execPartReset m s) :=
  onDev_wf (mboxRun_wf h (fun _ hs => cmdPartReset_wf hs))

theorem execThreadStart_wf {m : Mailbox} {s : State} (h : Canonical s.dev) : NextCanonical (execThreadStart m s) :=
  onDev_wf (mboxRun_wf h (fun _ hs => cmdThreadStart_wf hs))

theorem execRouteCmd_wf {m : Mailbox} {s : State} (h : Canonical s.dev) : NextCanonical (execRouteCmd m s) :=
  onDev_wf (mboxRun_wf h (fun _ hs => cmdRoute_wf hs))

theorem execMapCmd_wf {m : Mailbox} {s : State} (h : Canonical s.dev) : NextCanonical (execMapCmd m s) := onDev_wf (mapRun_wf h)

theorem execGateAcquire_wf {t : Thr} {g : Byte} {s : State} (h : Canonical s.dev) : NextCanonical (execGateAcquire t g s) :=
  onDev_wf (whenOn_wf h (fun _ hs => gateOp_wf hs))

theorem execGateRelease_wf {t : Thr} {g : Byte} {s : State} (h : Canonical s.dev) : NextCanonical (execGateRelease t g s) :=
  onDev_wf (whenOn_wf h (fun _ hs => gateOp_wf hs))

theorem execGateQuery_wf {t : Thr} {g : Byte} {s : State} (h : Canonical s.dev) : NextCanonical (execGateQuery t g s) :=
  onDev_wf (whenOn_wf h (fun _ hs => gateOp_wf hs))

theorem coldStart_wf (h : Canonical s) : Canonical (coldStart s) :=
  ite_wf (twinResult_wf (modTwin_wf (foldl_wf (fun _ _ hs => stopPart_wf hs) h))) (twinResult_wf h)

theorem execTwinColdStart_wf {s : State} (h : Canonical s.dev) : NextCanonical (execTwinColdStart s) :=
  onDev_wf (whenOn_wf h (fun _ hs => twinGo_wf (fun _ hs1 => coldStart_wf hs1) hs))

end Sys2Proof.Machine
end

section
/-! PROOFS. The storage keeps its canonical form (O4): trace and counters. -/
namespace Sys2Proof.Machine

variable {s : Dev}

theorem modTrc_wf {f : TrcSt → TrcSt} (h : Canonical s) : Canonical (modTrc s f) := h.update

theorem trcAsync_wf (h : Canonical s) : Canonical (trcAsync s) := trcHub_wf h

theorem trcStartSync_wf {src : Nat} (h : Canonical s) : Canonical (trcStartSync s src) := by
  unfold trcStartSync
  extract_lets +onlyGivenNames e
  split
  · exact h
  · split
    · next s2 e2 =>
        have hs : Canonical s2 := trcAdmit_wf h _ e2
        exact setTrcSrc_wf hs
    · exact trcDrop_wf h

theorem traceStart_wf (h : Canonical s) : Canonical (traceStart s) :=
  foldl_wf (fun _ _ hs => trcStartSync_wf hs) (trcAsync_wf (modTrc_wf (fset_wf (fset_wf (fset_wf (fset_wf h))))))

theorem traceStop_wf (h : Canonical s) : Canonical (traceStop s) := ite_wf (fset_wf (fset_wf h)) (fset_wf h)

theorem traceEnable_wf {on : Bool} (h : Canonical s) : Canonical (traceEnable s on) := ite_wf h (ite_wf (traceStart_wf h) (traceStop_wf h))

theorem execTraceEnable_wf {on : Bool} {s : State} (h : Canonical s.dev) :
    NextCanonical (execTraceEnable on s) := onDev_wf (traceEnable_wf h)

theorem execTraceTrigger_wf {kind : Fin 5} {s : State} (h : Canonical s.dev) : NextCanonical (execTraceTrigger kind s) :=
  onDev_wf (ite_wf (trcTrigger_wf h) h)

theorem execTraceFire_wf {s : State} (h : Canonical s.dev) : NextCanonical (execTraceFire s) := onDev_wf (trcTrigger_wf h)

theorem postEnd_wf (h : Canonical s) :
    Canonical (postEnd s) := ite_wf h (ite_wf (traceStop_wf (advanceTo_wf h)) (ite_wf (traceStop_wf h) h))

theorem execPostEnd_wf {s : State} (h : Canonical s.dev) : NextCanonical (execPostEnd s) := onDev_wf (postEnd_wf h)

theorem traceTime_wf (h : Canonical s) : Canonical (traceTime s) := ite_wf (modTrc_wf (trcHub_wf (advanceTo_wf h))) h

theorem execTraceTimeTick_wf {s : State} (h : Canonical s.dev) : NextCanonical (execTraceTimeTick s) := onDev_wf (traceTime_wf h)

theorem sinkBank_wf {bs : List Byte} (h : Canonical s) : Canonical (sinkBank s bs).2 := by
  have e : sinkBank = sinkBank := rfl
  conv at e => rhs; delta sinkBank
  obtain ⟨write, hwrite⟩ := exists_eq_self masterWriteBytes
  have hw : ∀ {s code pa bs}, Canonical s → Canonical (write s code pa bs).2 := fun hs => hwrite ▸ masterWriteBytes_wf hs
  rw [← hwrite] at e
  rw [e]
  beta_reduce
  extract_lets n w a b
  have ha := hw (code := 0x1A) (pa := bankBase n + w) (bs := a) h
  split
  · next e1 => exact snd_wf ha e1
  · next s1 e1 =>
    have hs1 : Canonical s1 := snd_wf ha e1
    extract_lets s2
    have hs2 : Canonical s2 := fset_wf hs1
    split
    · exact hs2
    · split
      · exact fset_wf hs2
      · exact hw (fset_wf hs2)

theorem sinkRefused_wf (h : Canonical s) : Canonical (sinkRefused s) := logRec_wf (traceStop_wf (fset_wf h))

theorem sinkCount_wf {n : Nat} (h : Canonical s) : Canonical (sinkCount s n) := foldl_wf (fun _ _ hs => trcAsync_wf hs) (modTrc_wf h)

theorem traceSink_wf {n : Nat} (h : Canonical s) : Canonical (traceSink s n) := by
  unfold traceSink
  extract_lets +onlyGivenNames bs
  split
  · exact h
  · split
    · exact stallOn_wf h
    · extract_lets +onlyGivenNames s' rest
      have hs' : Canonical s' := takeCredit_wf h
      have hrest : ∀ (s : Dev), Canonical s → Canonical (rest s) := fun _ hs => sinkCount_wf (modTrc_wf hs)
      split
      · split
        · next e3 => exact hrest _ (snd_wf (sinkBank_wf hs') e3)
        · next e3 => exact sinkRefused_wf (snd_wf (sinkBank_wf hs') e3)
      · exact hrest _ (modTrc_wf hs')

theorem execTraceSinkWrite_wf {n : Nat} {s : State} (h : Canonical s.dev) : NextCanonical (execTraceSinkWrite n s) :=
  onDev_wf (engineAct_wf h (fun _ hs => traceSink_wf hs))

theorem trcIndexSet_wf {idx wr : Nat} (h : Canonical s) : Canonical (trcIndexSet s idx wr) := fset_wf (fset_wf h)

theorem trcSrcRead_wf {idx : Nat} (h : Canonical s) : Canonical (trcSrcRead s idx) :=
  ite_wf (fset_wf (trcIndexSet_wf h)) (setReg_wf (trcIndexSet_wf h))

theorem trcSrcWrite_wf {idx : Nat} (h : Canonical s) : Canonical (trcSrcWrite s idx) :=
  ite_wf (fset_wf (trcIndexSet_wf h)) (setTrcSrc_wf (trcIndexSet_wf h))

theorem execTrcSrcRead_wf {idx : BitVec 11} {s : State} (h : Canonical s.dev) : NextCanonical (execTrcSrcRead idx s) :=
  onDev_wf (whenDone_wf (fun _ hs => trcSrcRead_wf hs) h)

theorem execTrcSrcWrite_wf {idx : BitVec 11} {s : State} (h : Canonical s.dev) : NextCanonical (execTrcSrcWrite idx s) :=
  onDev_wf (whenDone_wf (fun _ hs => trcSrcWrite_wf hs) h)

theorem counterOverflow_wf {i : Nat} (h : Canonical s) : Canonical (counterOverflow s i) := ite_wf (ctrAdd_wf h) h

theorem execCounterOverflow_wf {i : Fin 2144} {s : State} (h : Canonical s.dev) : NextCanonical (execCounterOverflow i s) :=
  onDev_wf (counterOverflow_wf h)

theorem ctrAccessSet_wf {wr word idx data : Nat} (h : Canonical s) : Canonical (ctrAccessSet s wr word idx data) :=
  fset_wf (fset_wf (fset_wf (fset_wf h)))

theorem ctrRead_wf {config : Bool} {idx : Nat} (h : Canonical s) : Canonical (ctrRead s config idx) :=
  ite_wf (fset_wf (ctrAccessSet_wf h)) (fset_wf (ctrAccessSet_wf h))

theorem ctrWrite_wf {config : Bool} {idx data : Nat} (h : Canonical s) : Canonical (ctrWrite s config idx data) := by
  unfold ctrWrite
  extract_lets +onlyGivenNames s1
  have h1 : Canonical s1 := ctrAccessSet_wf h
  exact ite_wf (fset_wf h1) (ite_wf h1 (ite_wf (setCtrCfg_wf h1) (setCtrVal_wf h1)))

theorem execCtrRead_wf {config : Bool} {idx : BitVec 12} {s : State} (h : Canonical s.dev) : NextCanonical (execCtrRead config idx s) :=
  onDev_wf (whenDone_wf (fun _ hs => ctrRead_wf hs) h)

theorem execCtrWrite_wf {config : Bool} {idx : BitVec 12} {data : BitVec 48} {s : State} (h : Canonical s.dev) :
    NextCanonical (execCtrWrite config idx data s) :=
  onDev_wf (whenDone_wf (fun _ hs => ctrWrite_wf hs) h)

theorem snapPeriod_wf (h : Canonical s) : Canonical (snapPeriod s) := ite_wf (snapCause_wf ((advanceTo_wf h).update)) h

theorem execSnapshotPeriod_wf {s : State} (h : Canonical s.dev) : NextCanonical (execSnapshotPeriod s) := onDev_wf (snapPeriod_wf h)

theorem execSnapshotFire_wf {s : State} (h : Canonical s.dev) : NextCanonical (execSnapshotFire s) := onDev_wf (snapCause_wf h)

theorem snapPut_wf {off : Nat} {bs : List Byte} (h : Canonical s) : Canonical (snapPut s off bs).2 :=
  ite_snd_wf h (ite_snd_wf (ite_snd_wf (masterWriteBytes_wf h) h) (ite_snd_wf (ioWrite_wf (dramTaken_wf h)) h))

theorem snapWrite_wf {bs : List Byte} (h : Canonical s) : Canonical (snapWrite s bs).2 := by
  unfold snapWrite
  extract_lets +onlyGivenNames size w
  split
  · next e => exact snd_wf (snapPut_wf h) e
  · next e =>
      have hs := snd_wf (snapPut_wf h) e
      split
      · next e1 => exact snd_wf (snapPut_wf hs) e1
      · next e1 =>
          have hs1 := snd_wf (snapPut_wf hs) e1
          exact ite_wf (fset_wf (fset_wf hs1)) (fset_wf hs1)

theorem snapDone_wf (h : Canonical s) : Canonical (snapDone s) := by
  have e : snapDone = snapDone := rfl
  conv at e => rhs; delta snapDone
  obtain ⟨write, hwrite⟩ := exists_eq_self snapWrite
  rw [← hwrite] at e
  rw [e]
  beta_reduce
  split
  · exact h
  · extract_lets +onlyGivenNames s1 _ s2
    have hs1 : Canonical s1 := advanceTo_wf h
    have hs2 : Canonical s2 := fset_wf hs1.update
    have hw : ∀ {bs}, Canonical (write s2 bs).2 := hwrite ▸ snapWrite_wf hs2
    split
    · next e1 =>
      have hs3 := snd_wf hw e1
      exact ite_wf (raise_wf hs3) hs3
    · next e1 => 
      exact logRec_wf (fset_wf (fset_wf (snd_wf hw e1)))

theorem execSnapshotRecordDone_wf {s : State} (h : Canonical s.dev) : NextCanonical (execSnapshotRecordDone s) :=
  onDev_wf (engineAct_wf h (fun _ hs => snapDone_wf hs))

theorem snapMode_wf {m : Nat} (h : Canonical s) : Canonical (snapMode s m) := by
  unfold snapMode
  extract_lets +onlyGivenNames old s1 _ _ s2
  have h1 : Canonical s1 := fset_wf h
  have h2 : Canonical s2 := ite_wf ((fset_wf (fset_wf h1)).update) h1
  exact ite_wf h2.update h2

end Sys2Proof.Machine
end

section
/-! PROOFS. The storage keeps its canonical form (O4): the register bus. -/
namespace Sys2Proof.Machine

variable {s : Dev}

theorem screened_wf {who : Agent} {r : RegRef} {off : Nat} {v : Word} {rules : List FieldRule} (h : Canonical s) :
    Canonical (screened s who r off v rules) := by
  unfold screened
  extract_lets +onlyGivenNames old bad v1
  refine foldl_wf (fun s b hs => ?_) (plainWrite_wf h)
  split
  · exact fset_wf hs
  · exact hs

theorem whenFree_wf {s0 : Dev} {r : RegRef} {f : Nat × Nat} {act : Dev → Dev} (h : ∀ s, Canonical s → Canonical (act s)) (h1 : Canonical s) :
    Canonical (whenFree s0 r f act s) := ite_wf h1 (h _ h1)

theorem goAccess_wf {who : Agent} {r : RegRef} {off : Nat} {v : Word} {go done : Nat × Nat} {act : Dev → Dev} (h : Canonical s)
    (h1 : ∀ s, Canonical s → Canonical (act s)) :
    Canonical (goAccess s who r off v go done act) :=
  ite_wf (plainWrite_wf h) (ite_wf (h1 _ h) h)

theorem writeBk_wf {who : Agent} {r : RegRef} {off : Nat} {v : Word} (h : Canonical s) : Canonical (writeBk s who r off v) := by
  unfold writeBk
  split
  · exact ite_wf (bankClearStart_wf (plainWrite_wf h)) (plainWrite_wf h)
  · exact handoverStart_wf h
  · exact plainWrite_wf h

theorem writeImg_wf {who : Agent} {r : RegRef} {off : Nat} {v : Word} (h : Canonical s) : Canonical (writeImg s who r off v) := by
  unfold writeImg
  extract_lets +onlyGivenNames k
  split
  · exact whenFree_wf (fun _ hs => ite_wf (pairEnable_wf hs) (pairDisable_wf hs)) (plainWrite_wf h)
  · exact abandonWrite_wf h
  · exact goAccess_wf h (fun _ hs => ite_wf (ltWrite_wf hs) (ltRead_wf hs))
  · exact writeDepth_wf (writeDepth_wf h)
  · exact plainWrite_wf h

theorem writeCyc_wf {who : Agent} {r : RegRef} {off : Nat} {v : Word} (h : Canonical s) : Canonical (writeCyc s who r off v) := by
  unfold writeCyc
  extract_lets +onlyGivenNames bad running
  have hrunning : ∀ (s : Dev), Canonical s → Canonical (running s) := fun _ hs => ite_wf (fset_wf hs) (plainWrite_wf hs)
  split
  · exact limitRate_wf (screened_wf h)
  · exact goAccess_wf h (fun _ hs => ite_wf (cycTableWrite_wf hs) (cycTblRead_wf hs))
  · exact ite_wf (classEnable_wf h) (classDisable_wf h)
  · exact hrunning _ h
  · exact hrunning _ h
  · exact hrunning _ h
  · exact plainWrite_wf h

theorem writeSw_wf {who : Agent} {r : RegRef} {off : Nat} {v : Word} (h : Canonical s) : Canonical (writeSw s who r off v) := by
  unfold writeSw
  split
  · exact screened_wf h
  · refine goAccess_wf h (fun s hs => ?_)
    extract_lets +onlyGivenNames t i
    split
    · exact swTblRead_wf hs
    · exact swTblWrite_wf hs
    · exact ite_wf (fdbInsertOp_wf (swIndexSet_wf hs)) (fset_wf (swIndexSet_wf hs))
    · exact ite_wf (fdbDeleteOp_wf (swIndexSet_wf hs)) (fset_wf (swIndexSet_wf hs))
  · exact plainWrite_wf h

theorem writeRes_wf {p n : Nat} (h : Canonical s) : Canonical (writeRes s p n) := ite_wf (fset_wf h) (showShared_wf (fset_wf h))

theorem writePort_wf {who : Agent} {r : RegRef} {off : Nat} {v : Word} (h : Canonical s) : Canonical (writePort s who r off v) := by
  unfold writePort
  extract_lets +onlyGivenNames p bad
  split
  · exact portModeDrop_wf h
  · split
    · exact ite_wf (screened_wf h) (portEn_wf (screened_wf h))
    · exact screened_wf h
    · exact ite_wf (plainWrite_wf h) (writeRes_wf h)
    · exact screened_wf h
    · exact ite_wf (gateChange_wf (screened_wf h)) (screened_wf h)
    · exact goAccess_wf h (fun _ hs => ite_wf (gateListWrite_wf hs) (gateListRead_wf hs))
    · exact ite_wf (screened_wf h) (fset_wf (screened_wf h))
    · exact plainWrite_wf h

theorem writeMboxCtrl_wf {m : Nat} {v : Word} (h : Canonical s) : Canonical (writeMboxCtrl s m v) := by
  unfold writeMboxCtrl
  extract_lets +onlyGivenNames c s1 s2
  have h1 : Canonical s1 := fset_wf (fset_wf h)
  have h2 : Canonical s2 := ite_wf (mboxAck_wf h1) h1
  exact ite_wf (mboxSend_wf h2) h2

theorem writePi_wf {who : Agent} {r : RegRef} {off : Nat} {v : Word} (h : Canonical s) : Canonical (writePi s who r off v) := by
  unfold writePi
  extract_lets +onlyGivenNames i
  split
  · exact doorbell_wf h
  · exact goAccess_wf h (fun _ hs => ite_wf (qpWriteCmd_wf hs) (qpRead_wf hs))
  · exact writeMboxCtrl_wf h
  · exact mboxWrite_wf h
  · exact plainWrite_wf h

theorem mapEnable_wf {s0 : Dev} {c : Nat} (h : Canonical s) : Canonical (mapEnable s0 s c) := ite_wf (fset_wf h) h

theorem writeCl_wf {who : Agent} {r : RegRef} {off : Nat} {v : Word} (h : Canonical s) : Canonical (writeCl s who r off v) := by
  unfold writeCl
  extract_lets +onlyGivenNames c
  split
  · exact ite_wf (mapEnable_wf (plainWrite_wf h)) (cacheEnables_wf (mapEnable_wf (plainWrite_wf h)))
  · exact ite_wf h (ite_wf (fset_wf h) (plainWrite_wf h))
  · exact plainWrite_wf h

theorem writeMc_wf {who : Agent} {r : RegRef} {off : Nat} {v : Word} (h : Canonical s) : Canonical (writeMc s who r off v) := by
  unfold writeMc
  extract_lets +onlyGivenNames ch bad
  split
  · exact screened_wf h
  · exact screened_wf h
  · exact writeDepth_wf (fset_wf h)
  · exact foldl_wf (fun _ _ hs => markLane_wf hs) h
  · exact plainWrite_wf h

theorem writeMgr_wf {who : Agent} {r : RegRef} {off : Nat} {v : Word} (h : Canonical s) : Canonical (writeMgr s who r off v) := by
  unfold writeMgr
  split
  · exact writeMboxCtrl_wf h
  · exact mboxWrite_wf h
  · exact gateOp_wf h
  · exact plainWrite_wf h
  · exact h

theorem writeSmp_wf {who : Agent} {r : RegRef} {off : Nat} {v : Word} (h : Canonical s) : Canonical (writeSmp s who r off v) := by
  unfold writeSmp
  extract_lets +onlyGivenNames bad
  split
  · exact ite_wf (clearRam_wf (screened_wf h)) (screened_wf h)
  · exact goAccess_wf h (fun _ hs => samplerRead_wf hs)
  · exact screened_wf h
  · exact plainWrite_wf h

theorem writeAuth_wf {v : Word} (h : Canonical s) : Canonical (writeAuth s v) := by
  unfold writeAuth
  extract_lets +onlyGivenNames l a
  split
  · exact h
  · extract_lets +onlyGivenNames drop s1
    have h1 : Canonical s1 := ite_wf (fset_wf h) h
    split
    · exact authRequestOp_wf h1
    · exact authRespondOp_wf h1
    · exact swRevoke_wf (fset_wf (swLevel_wf h1))

theorem writeDbg_wf {who : Agent} {r : RegRef} {off : Nat} {v : Word} (h : Canonical s) : Canonical (writeDbg s who r off v) := by
  unfold writeDbg
  extract_lets +onlyGivenNames bad
  split
  · exact vtTx_wf h
  · exact h
  · exact ite_wf (vtAck_wf (fset_wf h)) (fset_wf h)
  · exact h
  · exact ite_wf (writeAuth_wf h) (screened_wf h)
  · exact plainWrite_wf h

theorem writeTrc_wf {who : Agent} {r : RegRef} {off : Nat} {v : Word} (h : Canonical s) : Canonical (writeTrc s who r off v) := by
  unfold writeTrc
  extract_lets +onlyGivenNames bad
  split
  · exact traceEnable_wf (screened_wf h)
  · exact ite_wf (trcTrigger_wf (screened_wf h)) (screened_wf h)
  · exact goAccess_wf h (fun _ hs => ite_wf (trcSrcWrite_wf hs) (trcSrcRead_wf hs))
  · exact modTrc_wf (plainWrite_wf h)
  · exact plainWrite_wf h

theorem writeCtr_wf {who : Agent} {r : RegRef} {off : Nat} {v : Word} (h : Canonical s) : Canonical (writeCtr s who r off v) := by
  unfold writeCtr
  extract_lets +onlyGivenNames bad
  split
  · exact ite_wf (snapCause_wf (snapMode_wf (screened_wf h))) (snapMode_wf (screened_wf h))
  · exact screened_wf h
  · exact goAccess_wf h (fun _ hs => ite_wf (ctrWrite_wf hs) (ctrRead_wf (fset_wf hs)))
  · exact plainWrite_wf h

theorem writePwr_wf {who : Agent} {r : RegRef} {off : Nat} {v : Word} (h : Canonical s) : Canonical (writePwr s who r off v) := by
  unfold writePwr
  split
  · exact screened_wf h
  · exact ite_wf (domAccess_wf h) (plainWrite_wf h)
  · exact plainWrite_wf h

theorem writeTwinCmd_wf {c : Nat} (h : Canonical s) : Canonical (writeTwinCmd s c) := by
  unfold writeTwinCmd
  split
  · exact cmdJoin_wf h
  · exact cmdLeave_wf h
  · exact cmdSwap_wf h
  · exact coldStart_wf h
  · exact cmdStart_wf h
  · exact twinResult_wf h

theorem writeTwin_wf {who : Agent} {r : RegRef} {off : Nat} {v : Word} (h : Canonical s) : Canonical (writeTwin s who r off v) := by
  unfold writeTwin
  extract_lets +onlyGivenNames bad
  split
  · exact whenFree_wf (fun _ hs => ite_wf hs (twinEnable_wf hs)) (notePathsOn_wf (screened_wf h))
  · exact screened_wf h
  · exact ite_wf (twinGo_wf (fun _ hs => writeTwinCmd_wf hs) h) (plainWrite_wf h)
  · exact goAccess_wf h (fun _ hs => ite_wf (twinTblWrite_wf hs) (twinTblRead_wf hs))
  · exact ite_wf (journalSubmit_wf h) (plainWrite_wf h)
  · exact plainWrite_wf h

theorem writeHist_wf {who : Agent} {r : RegRef} {off : Nat} {v : Word} (h : Canonical s) : Canonical (writeHist s who r off v) := by
  unfold writeHist
  extract_lets +onlyGivenNames bad
  split
  · exact whenFree_wf (fun _ hs => ite_wf hs (ite_wf (histEnable_wf hs) (histDisable_wf hs))) (screened_wf h)
  · exact goAccess_wf h (fun _ hs => ite_wf (histTblWrite_wf hs) (histTblRead_wf hs))
  · exact cqDoorbell_wf h
  · exact writeDepth_wf h
  · exact plainWrite_wf h

theorem regWrite_wf {who : Agent} {r : RegRef} {off : Nat} {v : Word} (h : Canonical s) : Canonical (regWrite s who r off v) := by
  unfold regWrite
  split
  · exact h
  · split
    · exact writeMgr_wf h
    · exact plainWrite_wf h
    · exact writeCyc_wf h
    · exact writeImg_wf h
    · exact writeBk_wf h
    · exact writeSw_wf h
    · exact writePort_wf h
    · exact writePi_wf h
    · exact writeCl_wf h
    · exact writeMc_wf h
    · exact writeTwin_wf h
    · exact writeHist_wf h
    · exact writeSmp_wf h
    · exact writeTrc_wf h
    · exact writeCtr_wf h
    · exact writePwr_wf h
    · exact writeDbg_wf h

theorem readBanked_wf {t : Nat} {r : RegRef} (h : Canonical s) : ∀ x ∈ readBanked s t r, Canonical x := by
  unfold readBanked
  extract_lets +onlyGivenNames p
  split
  · exact some_all h.update
  · exact some_all h.update
  · exact some_all (mboxRead_wf h)
  · exact some_all h.update
  · exact some_all h.update
  · exact some_all h.update
  · exact some_all h.update
  · exact none_all

theorem readPlain_wf {r : RegRef} {off : Nat} (h : Canonical s) : Canonical (readPlain s r off) := by
  unfold readPlain
  split
  · exact readCycTime_wf h
  · exact mboxRead_wf h
  · exact samplerData_wf h
  · exact ite_wf h.update h.update

theorem regRead_wf {who : Agent} {r : RegRef} {off : Nat} (h : Canonical s) : Canonical (regRead s who r off) := by
  unfold regRead
  split
  · exact h.update
  · split
    · split
      · next e1 => exact readBanked_wf h _ e1
      · exact readPlain_wf h
    · exact readPlain_wf h

theorem registerWrite_wf {who : Agent} {off : Nat} {v : Word} (h : Canonical s) : Canonical (registerWrite s who off v) := by
  unfold registerWrite
  split
  · exact regWrite_wf h
  · exact h

theorem execRegisterWrite_wf {who : Agent} {off : BitVec 28} {v : Word} {s : State} (h : Canonical s.dev) :
    NextCanonical (execRegisterWrite who off v s) :=
  onDev_wf (registerWrite_wf h)

end Sys2Proof.Machine
end

section
/-! PROOFS. The storage keeps its canonical form (O4): the configuration image. -/
namespace Sys2Proof.Machine

variable {s : Dev}

theorem refuseRec_wf (h : Canonical s) : Canonical (refuseRec s) := fincSat_wf h

theorem counted_wf {x : Dev × Bool} (h : Canonical x.1) : Canonical (counted x) := ite_wf h (refuseRec_wf h)

theorem watched_wf {err : Option Nat} {f : Dev → Dev} (h : Canonical s) (h1 : ∀ s, Canonical s → Canonical (f s)) :
    Canonical (watched s err f).1 := by
  unfold watched
  split
  · exact h1 _ h
  · exact setReg_wf (h1 _ (setReg_wf h))

theorem recordWrite_wf {r : RegRef} {off : Nat} {v : Word} (h : Canonical s) : Canonical (recordWrite s r off v).1 :=
  watched_wf h (fun _ hs => regWrite_wf hs)

theorem applyPartRec_wf {r : List Byte} (h : Canonical s) : Canonical (applyPartRec s r) :=
  ite_wf (ite_wf (setPartState_wf (setPart_wf h)) (setPart_wf h)) (refuseRec_wf h)

theorem dropPart_wf {p : Nat} (h : Canonical s) : Canonical (dropPart s p) := ite_wf h (setPart_wf (setPartState_wf h))

theorem sectionParts_wf {live : Bool} {old new : List Byte} (h : Canonical s) : ∀ x ∈ sectionParts live old new s, Canonical x := by
  unfold sectionParts
  split
  · exact none_all
  · extract_lets +onlyGivenNames o fresh gone
    split
    · exact none_all
    · exact ite_all none_all (some_all (foldl_wf (fun _ _ hs => applyPartRec_wf hs) (foldl_wf (fun _ _ hs => dropPart_wf hs) h)))

theorem applyRouteRec_wf {r : List Byte} (h : Canonical s) : Canonical (applyRouteRec s r) := ite_wf (setRoute_wf h) (refuseRec_wf h)

theorem sectionRoutes_wf {live : Bool} {old new : List Byte} (h : Canonical s) : Canonical (sectionRoutes live old new s) :=
  foldl_wf (fun _ _ hs => applyRouteRec_wf hs) (foldl_wf (fun _ _ hs => setRoute_wf hs) h)

theorem setPosition_wf {p mode p0 p1 : Nat} (h : Canonical s) : Canonical (setPosition s p mode p0 p1) :=
  (setCorePart_wf (setCorePart_wf (setPairMode_wf (foldl_wf (fun _ _ hs => stopThread_wf hs) h)))).update

theorem applyCoreRec_wf {live : Bool} {r : List Byte} (h : Canonical s) : Canonical (applyCoreRec live s r) := by
  unfold applyCoreRec
  split
  · exact refuseRec_wf h
  · exact ite_wf (ite_wf (refuseRec_wf (ite_wf h.update h)) (ite_wf h.update h)) (setPosition_wf (ite_wf h.update h))

theorem sectionCores_wf {live : Bool} {old new : List Byte} (h : Canonical s) : ∀ x ∈ sectionCores live old new s, Canonical x := by
  unfold sectionCores
  split
  · exact none_all
  · extract_lets +onlyGivenNames o fresh gone
    split
    · exact none_all
    · extract_lets +onlyGivenNames _
      exact some_all (foldl_wf (fun _ _ hs => applyCoreRec_wf hs)
          (foldl_wf (fun _ _ hs => ite_wf (ite_wf hs.update hs) (setPosition_wf (ite_wf hs.update hs))) h))

theorem sectionSpares_wf {live : Bool} {old new : List Byte} (h : Canonical s) : ∀ x ∈ sectionSpares live old new s, Canonical x := by
  unfold sectionSpares
  split
  · exact none_all
  · extract_lets +onlyGivenNames o fresh gone
    split
    · exact none_all
    · split
      · exact none_all
      · extract_lets +onlyGivenNames s1
        have h1 : Canonical s1 := foldl_wf (fun _ _ hs => ite_wf (setPairMode_wf hs) hs) h
        exact some_all (foldl_wf (fun _ _ hs => ite_wf (setPosition_wf hs) (refuseRec_wf hs)) h1)

theorem replaceRetired_wf {cores : List Byte} (h : Canonical s) : Canonical (replaceRetired cores s) := by
  unfold replaceRetired
  refine foldl_wf (fun s b hs => ?_) h
  split
  · exact (noteDie_wf (setPosition_wf hs)).update
  · exact refuseRec_wf hs

theorem sectionGrades_wf {live : Bool} {old new : List Byte} (h : Canonical s) : ∀ x ∈ sectionGrades live old new s, Canonical x := by
  unfold sectionGrades
  split
  · exact none_all
  · extract_lets +onlyGivenNames o key fresh gone running _ put fault
    have hfault : Canonical fault := ite_wf h (foldl_wf (fun _ _ hs => hs.update) h)
    exact ite_all none_all (some_all (foldl_wf (fun _ _ hs => ite_wf hs.update (refuseRec_wf hs)) hfault))

theorem applyPolicyRec_wf {r : List Byte} (h : Canonical s) : Canonical (applyPolicyRec s r) :=
  ite_wf (ite_wf h.update (refuseRec_wf h)) (ite_wf ((fset_wf h).update) (refuseRec_wf (fset_wf h)))

theorem bootDomains_wf {used : List Nat} {recs : List (List Byte)} (h : Canonical s) : Canonical (bootDomains used recs s) := by
  unfold bootDomains
  extract_lets +onlyGivenNames s1 _
  have h1 : Canonical s1 := foldl_wf (fun _ _ hs => setDom_wf hs) h
  exact foldl_wf (fun _ _ hs => domNotice_wf hs) (foldl_wf (fun _ _ hs => ite_wf (applyPolicyRec_wf hs)
      (ite_wf (refuseRec_wf hs) (setDom_wf hs))) h1)

theorem livePower_wf {r : List Byte} (h : Canonical s) : Canonical (livePower s r) := by
  unfold livePower
  split
  · exact refuseRec_wf h
  · split
    · next e1 =>
        have hs := snd_wf (domRequest_wf h) e1
        exact ite_wf hs (refuseRec_wf hs)
    · next e1 => exact snd_wf (domRequest_wf h) e1

theorem sectionPower_wf {live : Bool} {used : List Nat} {old new : List Byte} (h : Canonical s) :
    ∀ x ∈ sectionPower live used old new s, Canonical x := by
  unfold sectionPower
  split
  · exact none_all
  · extract_lets +onlyGivenNames kind fixed
    split
    · exact none_all
    · exact ite_all (ite_all none_all (some_all (foldl_wf (fun _ _ hs => livePower_wf hs) h))) (some_all (bootDomains_wf h))

theorem bankRegRec_wf {r : RegRef} {off : Nat} {v : Word} (h : Canonical s) : Canonical (bankRegRec s r off v).1 := by
  unfold bankRegRec
  extract_lets +onlyGivenNames n
  split
  · extract_lets +onlyGivenNames m ok
    split
    · exact h
    · exact ite_wf (fset_wf (regWrite_wf h)) (fset_wf (fset_wf (regWrite_wf h)))
  · split
    · exact h
    · exact fset_wf h
  · extract_lets +onlyGivenNames x'
    have hx' : Canonical x'.1 := by
      unfold x'
      exact recordWrite_wf h
    split
    · exact hx'
    · split
      · exact setCreditQ_wf hx'
      · exact hx'
  · exact recordWrite_wf h

theorem loadWords_wf {a k : Nat} {b : List Byte} (h : Canonical s) : Canonical (loadWords s a k b) := by
  induction k generalizing s a b with
  | zero =>
    rw [loadWords]
    exact h
  | succ k ih =>
    rw [loadWords]
    exact ih (writeWord_wf _ _ _ h)

theorem applyBankRec_wf {r : List Byte} (h : Canonical s) : Canonical (applyBankRec s r) := by
  unfold applyBankRec
  split
  · exact ite_wf h.update (refuseRec_wf h)
  · exact ite_wf (loadWords_wf h) (refuseRec_wf h)
  · split
    · exact ite_wf (counted_wf (bankRegRec_wf h)) (refuseRec_wf h)
    · exact refuseRec_wf h

theorem sectionBanks_wf {live : Bool} {old new : List Byte} (h : Canonical s) : ∀ x ∈ sectionBanks live old new s, Canonical x := by
  unfold sectionBanks
  split
  · exact none_all
  · next l _ => exact ite_all none_all (some_all (foldl_wf (fun _ _ hs => applyBankRec_wf hs) (foldl_wf (fun _ _ hs => hs.update) h)))

theorem sectionPairs_wf {live : Bool} {old new : List Byte} (h : Canonical s) : ∀ x ∈ sectionPairs live old new s, Canonical x := by
  unfold sectionPairs
  split
  · exact none_all
  · extract_lets fresh
    split
    · exact none_all
    · refine some_all (foldl_wf (fun s r hs => ?_) h)
      split
      · exact counted_wf (recordWrite_wf hs)
      · exact refuseRec_wf hs

theorem setGroups_wf {mode split : Word} (h : Canonical s) : Canonical (setGroups s mode split) := by
  unfold setGroups
  extract_lets +onlyGivenNames changed gs s1 s2 _ kept _
  have h1 : Canonical s1 := foldl_wf (fun _ _ hs => foldl_wf (fun _ _ hs1 => rootLost_wf hs1)
      (foldl_wf (fun _ _ hs1 => linkDown_wf hs1) hs)) h
  have h2 : Canonical s2 := setReg_wf (setReg_wf h1)
  exact foldl_wf (fun _ _ hs => setRoot_wf hs) h2.update

theorem applyGroupRec_wf {r : List Byte} (h : Canonical s) : Canonical (applyGroupRec s r) := by
  unfold applyGroupRec
  extract_lets +onlyGivenNames v
  split
  · exact ite_wf (ite_wf (setGroups_wf h) (refuseRec_wf h)) (setGroups_wf h)
  · split
    · split
      · exact counted_wf (recordWrite_wf h)
      · exact refuseRec_wf h
    · exact refuseRec_wf h

theorem sectionGroups_wf {live : Bool} {old new : List Byte} (h : Canonical s) : ∀ x ∈ sectionGroups live old new s, Canonical x := by
  unfold sectionGroups
  split
  · exact none_all
  · next l _ => exact ite_all none_all (some_all (foldl_wf (fun _ _ hs => applyGroupRec_wf hs) h))

theorem applySwitchRec_wf {r : List Byte} (h : Canonical s) : Canonical (applySwitchRec s r) := by
  unfold applySwitchRec
  extract_lets +onlyGivenNames t
  split
  · exact counted_wf (watched_wf h (fun _ hs => swPut_wf hs))
  · split
    · split
      · exact counted_wf (recordWrite_wf h)
      · exact refuseRec_wf h
    · exact refuseRec_wf h

theorem sectionSwitch_wf {live : Bool} {old new : List Byte} (h : Canonical s) : ∀ x ∈ sectionSwitch live old new s, Canonical x := by
  unfold sectionSwitch
  split
  · exact none_all
  · next l _ => exact ite_all none_all (some_all (foldl_wf (fun _ _ hs => applySwitchRec_wf hs) h))

theorem sectionInsts_wf {live : Bool} {old new : List Byte} (h : Canonical s) : ∀ x ∈ sectionInsts live old new s, Canonical x := by
  unfold sectionInsts
  split
  · exact none_all
  · next l _ => exact ite_all none_all (some_all (foldl_wf (fun _ _ hs => ite_wf (createInst_wf hs) (refuseRec_wf hs)) h))

theorem addWindows_wf {made : Nat → List S2Ent} {banks : List Byte} {rs : List (List Byte)} (h : Canonical s) :
    ∀ x ∈ addWindows made banks rs s, Canonical x := by
  induction rs generalizing s with
  | nil =>
    rw [addWindows]
    exact some_all h
  | cons x rs ih =>
    rw [addWindows]
    exact ite_all (ih h.update) none_all

theorem sectionWindows_wf {live : Bool} {made : Nat → List S2Ent} {banks old new : List Byte} (h : Canonical s) :
    ∀ x ∈ sectionWindows live made banks old new s, Canonical x := by
  unfold sectionWindows
  split
  · exact none_all
  · next l _ => exact ite_all none_all (addWindows_wf h.update)

theorem cycTableRec_wf {r : List Byte} (h : Canonical s) : Canonical (cycTableRec s r) :=
  counted_wf (watched_wf (setReg_wf (setReg_wf h)) (fun _ hs => cycTableWrite_wf hs))

theorem applyCycRec_wf {live : Bool} {r : List Byte} (h : Canonical s) : Canonical (applyCycRec live s r) := by
  unfold applyCycRec
  extract_lets +onlyGivenNames t
  split
  · split
    · exact refuseRec_wf h
    · exact ite_wf h.update (counted_wf (recordWrite_wf h))
  · exact ite_wf (refuseRec_wf h) (cycTableRec_wf h)

theorem sectionStreams_wf {live : Bool} {old new : List Byte} (h : Canonical s) : ∀ x ∈ sectionStreams live old new s, Canonical x := by
  unfold sectionStreams
  split
  · exact none_all
  · next l _ => exact ite_all none_all (some_all (foldl_wf (fun _ _ hs => ite_wf (cycTableRec_wf hs) (refuseRec_wf hs)) h))

theorem sectionCycle_wf {live : Bool} {old new : List Byte} (h : Canonical s) : ∀ x ∈ sectionCycle live old new s, Canonical x := by
  unfold sectionCycle
  split
  · exact none_all
  · next l _ => exact ite_all none_all (some_all (foldl_wf (fun _ _ hs => applyCycRec_wf hs) h))

theorem applyBlobRec_wf {r : List Byte} (h : Canonical s) : Canonical (applyBlobRec s r) :=
  ite_wf (refuseRec_wf h) (ite_wf (setPart_wf h) (setPart_wf h))

theorem sectionBlobs_wf {new : List Byte} (h : Canonical s) : ∀ x ∈ sectionBlobs new s, Canonical x :=
  map_all fun _ _ => foldl_wf (fun _ _ hs => applyBlobRec_wf hs) (foldl_wf (fun _ _ hs => setPart_wf hs) h)

theorem applySection_wf {live : Bool} {made : Nat → List S2Ent} {used : List Nat} {banks : List Byte} {t : Nat} {old new : List Byte}
    (h : Canonical s) :
    ∀ x ∈ applySection live made used banks t old new s, Canonical x := by
  unfold applySection
  split
  · exact sectionParts_wf h
  · exact sectionCores_wf h
  · exact sectionSpares_wf h
  · exact sectionGrades_wf h
  · exact sectionPower_wf h
  · exact sectionBanks_wf h
  · exact sectionPairs_wf h
  · exact sectionGroups_wf h
  · exact sectionSwitch_wf h
  · exact sectionInsts_wf h
  · exact sectionWindows_wf h
  · exact sectionStreams_wf h
  · exact sectionBlobs_wf h
  · exact sectionCycle_wf h
  · exact some_all h

theorem refuseSection_wf {t : Nat} (h : Canonical s) : Canonical (refuseSection s t) := fset_wf (fset_wf h)

theorem setInForce_wf {t : Nat} {x : Nat × List Byte} (h : Canonical s) : Canonical (setInForce s t x) := h.update

theorem applyStep_wf {live : Bool} {made : Nat → List S2Ent} {img : List Byte} {base : Nat → Option (Nat × List Byte)} {t : Nat} (h : Canonical s) :
    Canonical (applyStep live made img base s t) := by
  unfold applyStep
  extract_lets +onlyGivenNames bytes old
  split
  · exact ite_wf (sectionRoutes_wf (ite_wf h (replaceRetired_wf h))) (ite_wf h (replaceRetired_wf h))
  · split
    · exact ite_wf (refuseSection_wf h) (ite_wf (bootDomains_wf h) h)
    · split
      · exact h
      · split
        · next s2 e3 =>
            have hs : Canonical s2 := applySection_wf h _ e3
            exact setInForce_wf hs
        · exact refuseSection_wf h

theorem applySections_wf {live : Bool} {img : List Byte} (h : Canonical s) : Canonical (applySections live img s) :=
  foldl_wf (fun _ _ hs => applyStep_wf hs) (fset_wf h)

theorem bootMaps_wf (h : Canonical s) : Canonical (bootMaps s) := foldl_wf (fun _ _ hs => setPart_wf hs) h

theorem liveMaps_wf {s0 s1 : Dev} (h : Canonical s1) : Canonical (liveMaps s0 s1) :=
  foldl_wf (fun _ _ hs => ite_wf hs (tlbDropAll_wf (setPart_wf hs))) h

end Sys2Proof.Machine
end

section
/-! PROOFS. The storage keeps its canonical form (O4): boot. -/
namespace Sys2Proof.Machine

variable {s : Dev}

theorem readFlash_wf {a n : Nat} (h : Canonical s) : Canonical (readFlash s a n).2 := h.update

theorem programFlash_wf {a : Nat} {bs : List Byte} (h : Canonical s) : Canonical (programFlash s a bs) := by
  induction bs generalizing s a with
  | nil =>
    rw [programFlash]
    exact h
  | cons x bs ih =>
    rw [programFlash]
    exact ih (flashSet_wf h)

theorem failedFlash_wf {a n : Nat} (h : Canonical s) : Canonical (failedFlash s a n) := foldl_wf (fun _ _ hs => flashSet_wf hs) h

theorem eraseFlash_wf {a n : Nat} (h : Canonical s) : Canonical (eraseFlash s a n) := h.update

theorem fwSlot_wf {slot : Nat} (h : Canonical s) : Canonical (fwSlot s slot).2 := by
  unfold fwSlot
  extract_lets +onlyGivenNames r
  have hr : Canonical r.2 := by
    unfold r
    exact readFlash_wf h
  split
  · exact hr
  · exact hr

theorem chooseFw_wf (h : Canonical s) : Canonical (chooseFw s).2 := by
  unfold chooseFw
  extract_lets +onlyGivenNames a b
  have ha : Canonical a.2 := by
    unfold a
    exact fwSlot_wf h
  have hb : Canonical b.2 := by
    unfold b
    exact fwSlot_wf ha
  split
  · exact hb
  · exact hb
  · exact hb
  · exact hb

theorem runFw_wf {slot version : Nat} (h : Canonical s) : Canonical (runFw s slot version) := fset_wf (fset_wf h.update)

theorem slotView_wf {slot : Nat} (h : Canonical s) : Canonical (slotView s slot).2.2 := by
  unfold slotView
  extract_lets c h1 n r
  have hc : Canonical c.2 := readFlash_wf h
  have hh : Canonical h1.2 := readFlash_wf hc
  have hr : Canonical r.2 := readFlash_wf hh
  clear_value r h1
  split
  · exact hr
  · exact hh

theorem noteSlot_wf {slot : Nat} (h : Canonical s) :
    Canonical (noteSlot s slot) := fset_wf (fset_wf (fset_wf (fset_wf (fset_wf (slotView_wf h)))))

theorem noteSlots_wf (h : Canonical s) : Canonical (noteSlots s) := noteSlot_wf (noteSlot_wf h)

theorem copies_wf (h : Canonical s) : Canonical (copies s).2 := by
  unfold copies
  extract_lets a b va vb
  have ha : Canonical a.2.2 := slotView_wf h
  clear_value a
  have hb : Canonical b.2.2 := slotView_wf ha
  clear_value b va vb
  split
  · exact hb
  · exact hb
  · exact hb
  · exact hb

theorem configReset_wf (h : Canonical s) :
    Canonical (configReset s) := fset_wf (setReg_wf ((foldl_wf (fun _ _ hs => domainInit_wf hs) h).update))

theorem retirePositions_wf (h : Canonical s) : Canonical (retirePositions s) := foldl_wf (fun _ _ hs => setPairMode_wf hs) h

theorem takeCopy_wf {slot : Nat} {img : List Byte} {source : Nat} (h : Canonical s) : Canonical (takeCopy s slot img source) := by
  unfold takeCopy
  extract_lets +onlyGivenNames s1 s2 _ s3
  have h1 : Canonical s1 := fset_wf (fset_wf (fset_wf h))
  have h2 : Canonical s2 := fset_wf h1
  have h3 : Canonical s3 := bootMaps_wf h2.update
  exact ite_wf h3 h3.update

theorem setInterleave_wf {img : List Byte} (h : Canonical s) : Canonical (setInterleave s img) := foldl_wf (fun _ _ hs => fset_wf hs) h

theorem tryCopies_wf {source : Nat} {cs : List (Nat × List Byte)} (h : Canonical s) : Canonical (tryCopies source cs s) := by
  induction cs generalizing s with
  | nil =>
    rw [tryCopies]
    exact (fset_wf (logRec_wf h)).update
  | cons x cs ih =>
    rw [tryCopies]
    split
    · split
      · split
        · exact takeCopy_wf (applySections_wf (setInterleave_wf (retirePositions_wf (flashSet_wf (slotView_wf (flashSet_wf h))))))
        · exact ih (logRec_wf (configReset_wf (applySections_wf
              (setInterleave_wf (retirePositions_wf (flashSet_wf (slotView_wf (flashSet_wf h))))))))
      · split
        · exact takeCopy_wf (applySections_wf (setInterleave_wf (retirePositions_wf (slotView_wf (flashSet_wf h)))))
        · exact ih (logRec_wf (configReset_wf (applySections_wf (setInterleave_wf (retirePositions_wf (slotView_wf (flashSet_wf h)))))))
    · split
      · exact takeCopy_wf (applySections_wf (setInterleave_wf (retirePositions_wf (slotView_wf (flashSet_wf h)))))
      · exact ih (logRec_wf (configReset_wf (applySections_wf (setInterleave_wf (retirePositions_wf (slotView_wf (flashSet_wf h)))))))

theorem bootConfig_wf {source : Nat} (h : Canonical s) : Canonical (bootConfig s source) := noteSlots_wf (tryCopies_wf (copies_wf h))

theorem startParts_wf (h : Canonical s) : Canonical (startParts s) := foldl_wf (fun _ _ hs => ite_wf (bootPart_wf hs) hs) h

theorem eraseCustomer_wf (h : Canonical s) : Canonical (eraseCustomer s) := (eraseFlash_wf (eraseFlash_wf h)).update

theorem lifeAtBoot_wf (h : Canonical s) : Canonical (lifeAtBoot s) := ite_wf (eraseCustomer_wf h) h

theorem trainDram_wf {b : BootIn} (h : Canonical s) : Canonical (trainDram s b) := by
  unfold trainDram
  split
  · extract_lets +onlyGivenNames _
    exact foldl_wf (fun _ _ hs => fset_wf (fset_wf hs)) (foldl_wf (fun _ _ hs => fset_wf (fset_wf (fset_wf (fset_wf (fset_wf hs))))) h)
  · exact logRec_wf h

theorem readings_wf {kind q : Nat} {l : List (BitVec 16)} (h : Canonical s) : Canonical (readings s kind q l) :=
  foldl_wf (fun _ _ hs => phaseValue_wf hs) h

theorem failRegion_wf {e : DarnUnit × Fin 8192} (h : Canonical s) : Canonical (failRegion s e) := darnRepair_wf h

theorem bootSelfTest_wf {b : BootIn} (h : Canonical s) : Canonical (bootSelfTest s b) := by
  unfold bootSelfTest
  extract_lets +onlyGivenNames s1 s2 s3 s4
  have h1 : Canonical s1 := readings_wf (readings_wf (readings_wf (openPhase_wf h)))
  have h2 : Canonical s2 := foldl_wf (fun _ _ hs => failRegion_wf hs) h1
  have h3 : Canonical s3 := foldl_wf (fun _ _ hs => addRepair_wf hs) h2
  have h4 : Canonical s4 := foldl_wf (fun _ _ hs => phaseValue_wf hs) h3
  exact closePhase_wf h4

theorem closeStartUp_wf (h : Canonical s) : Canonical (closeStartUp s) := by
  unfold closeStartUp
  split
  · exact ite_wf h (ite_wf (closePhase_wf h) (ite_wf h (closePhase_wf h)))
  · exact h

theorem bootRest_wf {b : BootIn} (h : Canonical s) : Canonical (bootRest s b) := by
  unfold bootRest
  extract_lets +onlyGivenNames s1 s2 s3 s4 s5
  have h1 : Canonical s1 := fset_wf (lifeAtBoot_wf h)
  have h2 : Canonical s2 := trainDram_wf h1
  have h3 : Canonical s3 := readings_wf (readings_wf (phaseValue_wf (foldl_wf (fun _ _ hs => noteTemp_wf hs) h2)))
  have h4 : Canonical s4 := ite_wf (bootSelfTest_wf h3) h3
  have h5 : Canonical s5 := bootConfig_wf h4
  exact closeStartUp_wf (ite_wf (startParts_wf h5) h5)

theorem bootRom_wf {b : BootIn} (h : Canonical s) : Canonical (bootRom s b) := by
  unfold bootRom
  extract_lets +onlyGivenNames c
  have hc : Canonical c.2 := by
    unfold c
    exact chooseFw_wf h
  split
  · exact bootRest_wf (runFw_wf hc)
  · exact hc.update

theorem bootFrom_wf {b : BootIn} (h : Canonical s) : Canonical (bootFrom s b) := bootRom_wf (openPhase_wf h.update)

theorem tapAtPowerGood_wf (h : Canonical s) : Canonical (tapAtPowerGood s) := ite_wf (fset_wf (fset_wf h)) h

theorem powerOn_wf {sds : Nat} {pcie clk10m pps vpp testEn : Bool} {b : BootIn} :
    Canonical (powerOn s sds pcie clk10m pps vpp testEn b) := by
  unfold powerOn
  extract_lets +onlyGivenNames z z1 _ z2
  have hz : Canonical z := timeAtPowerGood_wf powerOnReset_wf
  have hz1 : Canonical z1 := fset_wf (fset_wf (fset_wf (fset_wf hz)))
  have hz2 : Canonical z2 := tapAtPowerGood_wf hz1.update
  exact ite_wf ((openPhase_wf hz2).update) (bootFrom_wf hz2)

theorem execPowerOn_wf {sds : Byte} {pcie clk10m pps vpp testEn : Bool} {b : BootIn} {s : State} :
    NextCanonical (execPowerOn sds pcie clk10m pps vpp testEn b s) :=
  onDev_wf powerOn_wf

theorem execResetRelease_wf {b : BootIn} {s : State} (h : Canonical s.dev) : NextCanonical (execResetRelease b s) :=
  onDev_wf (ite_wf (bootFrom_wf h) h)

theorem tripRelease_wf {b : BootIn} (h : Canonical s) : Canonical (tripRelease s b) := ite_wf (bootFrom_wf (advanceOp_wf h)) h

theorem execTripRelease_wf {b : BootIn} {s : State} (h : Canonical s.dev) :
    NextCanonical (execTripRelease b s) := onDev_wf (tripRelease_wf h)

end Sys2Proof.Machine
end

section
/-! PROOFS. The storage keeps its canonical form (O4): the class boundary. -/
namespace Sys2Proof.Machine

variable {s : Dev}

theorem actMark_wf {e : PrickEntry} (h : Canonical s) : Canonical (actMark s e) :=
  ite_wf (snapTrig_wf (ite_wf (trcTrigger_wf h) h)) (ite_wf (trcTrigger_wf h) h)

theorem actDeadline_wf {c : Nat} (h : Canonical s) : Canonical (actDeadline s c) := ite_wf h (journalApply_wf h)

theorem actEffect_wf {c n : Nat} {e : PrickEntry} (h : Canonical s) : Canonical (actEffect s c n e) := by
  unfold actEffect
  split
  · exact releaseOrHold_wf h
  · exact actDeadline_wf h
  · exact ite_wf (actAgree_wf h) (releaseHeld_wf (actAgree_wf h))
  · exact actGather_wf h
  · exact actDigest_wf h
  · exact histSample_wf h
  · exact raise_wf h
  · exact actMark_wf h
  · exact h

theorem runOne_wf {c n : Nat} {e : PrickEntry} (h : Canonical s) : Canonical (runOne c n s e) :=
  actEffect_wf (trcCycle_wf (setCls_wf (advanceTo_wf h)))

theorem runInTime_wf {c : Nat} {e : PrickEntry} (h : Canonical s) : Canonical (runInTime c s e) := runOne_wf h

theorem runEntry_wf {c i action n : Nat} (h : Canonical s) : Canonical (runEntry s c i action n) := by
  unfold runEntry
  split
  · split
    · exact ite_wf (runOne_wf h) h
    · exact h
  · exact h

theorem journalZero_wf {c : Nat} (h : Canonical s) : Canonical (journalZero s c) := ite_wf (journalApply_wf h) h

theorem noteReaction_wf {c n offset : Nat} (h : Canonical s) : Canonical (noteReaction s c n offset) := ite_wf (setCls_wf (fincSat_wf h)) h

theorem openCycle_wf {c t0 : Nat} (h : Canonical s) : Canonical (openCycle s c t0) := by
  unfold openCycle
  extract_lets +onlyGivenNames s1 s2 s3 s4 s5
  have h1 : Canonical s1 := setCls_wf h
  have h2 : Canonical s2 := setReg_wf h1
  have h3 : Canonical s3 := trcCycle_wf h2
  have h4 : Canonical s4 := ite_wf (snapTrig_wf h3) h3
  have h5 : Canonical s5 := ite_wf (freezeOpen_wf (roleBoundary_wf h4)) h4
  exact foldl_wf (fun _ _ hs => runInTime_wf hs) (journalZero_wf h5)

theorem endCycle_wf {c : Nat} (h : Canonical s) : Canonical (endCycle s c) :=
  applyPending_wf (endAbandons_wf (setReg_wf (histCut_wf (releaseScattered_wf (cutCycle_wf h)))))

theorem boundary_wf {c : Nat} (h : Canonical s) : Canonical (boundary s c) := by
  unfold boundary
  split
  · exact h
  · split
    · extract_lets +onlyGivenNames s1 t0 s2
      have h1 : Canonical s1 := foldl_wf (fun _ _ hs => runInTime_wf hs) h
      have h2 : Canonical s2 := endCycle_wf (advanceTo_wf h1)
      exact ite_wf (joinStopped_wf (setReg_wf (setCls_wf (fset_wf (fset_wf h2))))) (openCycle_wf h2)
    · exact ite_wf (openCycle_wf (fset_wf (advanceTo_wf h))) h

theorem handover_wf {k : Nat} (h : Canonical s) : Canonical (handover s k) := by
  unfold handover
  split
  · exact h
  · extract_lets +onlyGivenNames c n t0 s1 s2 s3
    have h1 : Canonical s1 := giveCredit_wf (setBuilt_wf (advanceTo_wf h))
    have h2 : Canonical s2 := fmax_wf h1
    have h3 : Canonical s3 := noteReaction_wf h2
    exact ite_wf (countTwin_wf h3) (trcStream_wf (ite_wf (handToPort_wf (handToPort_wf h3)) (handToPort_wf h3)))

theorem execClassBoundary_wf {c : ClassId} {s : State} (h : Canonical s.dev) :
    NextCanonical (execClassBoundary c s) := onDev_wf (boundary_wf h)

theorem execReleaseAction_wf {c : ClassId} {e : Fin 64} {s : State} (h : Canonical s.dev) : NextCanonical (execReleaseAction c e s) :=
  onDev_wf (runEntry_wf h)

theorem execInputDeadline_wf {c : ClassId} {e : Fin 64} {s : State} (h : Canonical s.dev) : NextCanonical (execInputDeadline c e s) :=
  onDev_wf (runEntry_wf h)

theorem execAgreeAction_wf {c : ClassId} {e : Fin 64} {s : State} (h : Canonical s.dev) : NextCanonical (execAgreeAction c e s) :=
  onDev_wf (runEntry_wf h)

theorem execGatherStart_wf {c : ClassId} {e : Fin 64} {s : State} (h : Canonical s.dev) : NextCanonical (execGatherStart c e s) :=
  onDev_wf (runEntry_wf h)

theorem execDigestAction_wf {c : ClassId} {e : Fin 64} {s : State} (h : Canonical s.dev) : NextCanonical (execDigestAction c e s) :=
  onDev_wf (runEntry_wf h)

theorem execSampleAction_wf {c : ClassId} {e : Fin 64} {n : Nat} {s : State} (h : Canonical s.dev) :
    NextCanonical (execSampleAction c e n s) :=
  onDev_wf (runEntry_wf h)

theorem execEventAction_wf {c : ClassId} {e : Fin 64} {s : State} (h : Canonical s.dev) : NextCanonical (execEventAction c e s) :=
  onDev_wf (runEntry_wf h)

theorem execMarkAction_wf {c : ClassId} {e : Fin 64} {s : State} (h : Canonical s.dev) : NextCanonical (execMarkAction c e s) :=
  onDev_wf (runEntry_wf h)

theorem execGatherHandover_wf {k : CtlId} {s : State} (h : Canonical s.dev) :
    NextCanonical (execGatherHandover k s) := onDev_wf (handover_wf h)

end Sys2Proof.Machine
end

section
/-! PROOFS. The storage keeps its canonical form (O4): the floating-point instructions. -/
namespace Sys2Proof.Machine

variable {s : Dev}

theorem fpResult_wf {t w : Nat} {rd : GReg} {tags : List Byte} {o : FOut} (h : Canonical s) : Canonical (fpResult s t w rd tags o) :=
  ite_wf (takeExc_wf h) (resultWith_wf h)

theorem fp2_wf {s : State} {t : Thr} {w : Nat} {f : Prec} {rd a b : GReg} {op : Fmt → Nat → Nat → Nat → FOut} (h : Canonical s.dev) :
    NextCanonical (fp2 s t w f rd a b op) :=
  onDev_wf (onInsn_wf h (fun _ hs => fpResult_wf hs))

theorem fp1_wf {s : State} {t : Thr} {w : Nat} {rd a : GReg} {op : Nat → Nat → FOut} (h : Canonical s.dev) :
    NextCanonical (fp1 s t w rd a op) :=
  onDev_wf (onInsn_wf h (fun _ hs => fpResult_wf hs))

theorem fp3_wf {s : State} {t : Thr} {w : Nat} {f : Prec} {rd a b c : GReg} {op : Fmt → Nat → Nat → Nat → Nat → FOut} (h : Canonical s.dev) :
    NextCanonical (fp3 s t w f rd a b c op) :=
  onDev_wf (onInsn_wf h (fun _ hs => fpResult_wf hs))

theorem execFadd_wf {t : Thr} {f : Prec} {rd rs1 rs2 : GReg} {s : State} (h : Canonical s.dev) :
    NextCanonical (execFadd t f rd rs1 rs2 s) := fp2_wf h

theorem execFsub_wf {t : Thr} {f : Prec} {rd rs1 rs2 : GReg} {s : State} (h : Canonical s.dev) :
    NextCanonical (execFsub t f rd rs1 rs2 s) := fp2_wf h

theorem execFmul_wf {t : Thr} {f : Prec} {rd rs1 rs2 : GReg} {s : State} (h : Canonical s.dev) :
    NextCanonical (execFmul t f rd rs1 rs2 s) := fp2_wf h

theorem execFdiv_wf {t : Thr} {f : Prec} {rd rs1 rs2 : GReg} {s : State} (h : Canonical s.dev) :
    NextCanonical (execFdiv t f rd rs1 rs2 s) := fp2_wf h

theorem execFsqrt_wf {t : Thr} {f : Prec} {rd rs1 : GReg} {s : State} (h : Canonical s.dev) :
    NextCanonical (execFsqrt t f rd rs1 s) := fp1_wf h

theorem execFmac_wf {t : Thr} {f : Prec} {rd rs1 rs2 rs3 : GReg} {s : State} (h : Canonical s.dev) :
    NextCanonical (execFmac t f rd rs1 rs2 rs3 s) :=
  fp3_wf h

theorem execFmsc_wf {t : Thr} {f : Prec} {rd rs1 rs2 rs3 : GReg} {s : State} (h : Canonical s.dev) :
    NextCanonical (execFmsc t f rd rs1 rs2 rs3 s) :=
  fp3_wf h

theorem execFmin_wf {t : Thr} {f : Prec} {rd rs1 rs2 : GReg} {s : State} (h : Canonical s.dev) :
    NextCanonical (execFmin t f rd rs1 rs2 s) := fp2_wf h

theorem execFmax_wf {t : Thr} {f : Prec} {rd rs1 rs2 : GReg} {s : State} (h : Canonical s.dev) :
    NextCanonical (execFmax t f rd rs1 rs2 s) := fp2_wf h

theorem execFneg_wf {t : Thr} {f : Prec} {rd rs1 : GReg} {s : State} (h : Canonical s.dev) :
    NextCanonical (execFneg t f rd rs1 s) := fp1_wf h

theorem execFabs_wf {t : Thr} {f : Prec} {rd rs1 : GReg} {s : State} (h : Canonical s.dev) :
    NextCanonical (execFabs t f rd rs1 s) := fp1_wf h

theorem execFsame_wf {t : Thr} {f : Prec} {rd rs1 rs2 : GReg} {s : State} (h : Canonical s.dev) :
    NextCanonical (execFsame t f rd rs1 rs2 s) :=
  fp2_wf h

theorem execFless_wf {t : Thr} {f : Prec} {rd rs1 rs2 : GReg} {s : State} (h : Canonical s.dev) :
    NextCanonical (execFless t f rd rs1 rs2 s) :=
  fp2_wf h

theorem execFlesseq_wf {t : Thr} {f : Prec} {rd rs1 rs2 : GReg} {s : State} (h : Canonical s.dev) :
    NextCanonical (execFlesseq t f rd rs1 rs2 s) :=
  fp2_wf h

theorem execFtoi_wf {t : Thr} {f : Prec} {rd rs1 : GReg} {s : State} (h : Canonical s.dev) :
    NextCanonical (execFtoi t f rd rs1 s) := fp1_wf h

theorem execItof_wf {t : Thr} {f : Prec} {rd rs1 : GReg} {s : State} (h : Canonical s.dev) :
    NextCanonical (execItof t f rd rs1 s) := fp1_wf h

theorem execFwiden_wf {t : Thr} {rd rs1 : GReg} {s : State} (h : Canonical s.dev) : NextCanonical (execFwiden t rd rs1 s) := fp1_wf h

theorem execFnarrow_wf {t : Thr} {rd rs1 : GReg} {s : State} (h : Canonical s.dev) : NextCanonical (execFnarrow t rd rs1 s) := fp1_wf h

end Sys2Proof.Machine
end

section
/-! PROOFS. The storage keeps its canonical form (O4): the uncached accesses and the bus masters. -/
namespace Sys2Proof.Machine

variable {s : Dev}

theorem regAccess_wf {t : Thr} {a : Acc} {off : Nat} (h : Canonical s) : Canonical (regAccess s t a off).2 := by
  unfold regAccess
  split
  · exact h
  · split
    · exact h
    · split
      · exact h
      · exact ite_snd_wf (regWrite_wf h) (regRead_wf h)

theorem rootAccess_wf {a : Acc} {r : Nat} {data : Word} {fail : Bool} (h : Canonical s) : Canonical (rootAccess s a r data fail).2 := by
  have e : rootAccess = rootAccess := rfl
  conv at e => rhs; delta rootAccess
  obtain ⟨base, hbase⟩ := exists_eq_self rootBase
  obtain ⟨ecam, hecam⟩ := exists_eq_self inEcam
  rw [← hbase, ← hecam] at e
  rw [e]
  beta_reduce
  clear e
  split
  · exact h
  · split
    · exact h
    · split
      · exact h
      · extract_lets +onlyGivenNames off own up
        split
        · extract_lets bs
          exact ite_snd_wf (cfgStores_wf h) (ite_snd_wf h (ite_wf (modRoot_wf h) h))
        · exact ite_snd_wf h (drawFree_wf h)

theorem performAt_wf {t : Thr} {a : Acc} {data : Word} {fail : Bool} (h : Canonical s) : Canonical (performAt s t a data fail).2 := by
  have e : performAt = performAt := rfl
  conv at e => rhs; delta performAt
  obtain ⟨place, hplace⟩ := exists_eq_self placeOf
  rw [← hplace] at e
  rw [e]
  beta_reduce
  clear e
  split
  · exact regAccess_wf h
  · exact rootAccess_wf h
  · exact h

theorem answered_wf {t : Nat} {a : Acc} (h : Canonical s) :
    Canonical (answered s t a) := resumeExc_wf (ite_wf (completeAcc_wf h) (modThr_wf h))

theorem uncachedResponse_wf {t : Thr} {data : Word} {fail : Bool} (h : Canonical s) : Canonical (uncachedResponse s t data fail) := by
  unfold uncachedResponse
  split
  · exact h
  · split
    · exact answered_wf h
    · exact ite_wf h (ite_wf h (answered_wf (performAt_wf h)))
    · exact h

theorem execUncachedResponse_wf {t : Thr} {data : Word} {fail : Bool} {s : State} (h : Canonical s.dev) :
    NextCanonical (execUncachedResponse t data fail s) :=
  onDev_wf (uncachedResponse_wf h)

theorem debugRead_wf {pa : Nat} {tagged : Bool} (h : Canonical s) : Canonical (debugRead s pa tagged).2 := by
  have e : debugRead = debugRead := rfl
  conv at e => rhs; delta debugRead
  obtain ⟨place, hplace⟩ := exists_eq_self placeOf
  obtain ⟨read, hread⟩ := exists_eq_self masterReadWord
  have hr : ∀ {s code pa}, Canonical s → Canonical (read s code pa).2 := fun hs => hread ▸ masterReadWord_wf hs
  rw [← hplace, ← hread] at e
  rw [e]
  beta_reduce
  clear e
  split
  · exact ite_snd_wf (ioRead_wf (dramTaken_wf h)) (ite_snd_wf (ioRead_wf (dramTaken_wf h)) (ioRead_wf (dramTaken_wf h)))
  · have ha := hr (code := 0x1C) (pa := pa) h
    split
    · next e1 => exact snd_wf ha e1
    · next e1 =>
      have hs1 := snd_wf ha e1
      exact ite_snd_wf hs1 (ite_snd_wf hs1 hs1)
  · split
    · exact h
    · exact regRead_wf h
  · exact ite_snd_wf h (ite_snd_wf h (ite_snd_wf h (drawFree_wf (drawFree_wf h))))
  · exact h

theorem debugWrite_wf {pa : Nat} {v : Word} {tag : Byte} {tagged : Bool} (h : Canonical s) :
    Canonical (debugWrite s pa v tag tagged).2 := by
  have e : debugWrite = debugWrite := rfl
  conv at e => rhs; delta debugWrite
  obtain ⟨place, hplace⟩ := exists_eq_self placeOf
  obtain ⟨target, htarget⟩ := exists_eq_self bankTarget
  rw [← hplace, ← htarget] at e
  rw [e]
  beta_reduce
  clear e
  extract_lets +onlyGivenNames q
  split
  · exact toDram_wf (countMc_wf (writeWord_wf _ _ _ (ioInvalidate_wf (dramTaken_wf h))))
  · split
    · exact h
    · split
      · exact usePortOf_wf (writeWord_wf _ _ _ h)
      · exact noteRefused_wf h
  · split
    · exact h
    · exact regWrite_wf h
  · exact ite_snd_wf h (ite_snd_wf (cfgStores_wf h) (ite_wf (modRoot_wf h) h))
  · exact h

theorem garirMem_wf {a : Nat} {autoinc : Bool} {f : Dev → Nat → Option QWord × Dev} (h : Canonical s)
    (h1 : ∀ s n, Canonical s → Canonical (f s n).2) :
    Canonical (garirMem s a autoinc f) := by
  unfold garirMem
  extract_lets +onlyGivenNames pa
  refine engineAct_wf h (fun s hs => ?_)
  refine garirDo_wf hs (fun s hs => ?_)
  split
  · exact garirEnd_wf hs
  · split
    · exact garirEnd_wf hs
    · split
      · next e2 => exact garirEnd_wf (snd_wf (h1 _ _ hs) e2)
      · next e2 =>
          have hs1 := snd_wf (h1 _ _ hs) e2
          exact ite_wf (modDbg_wf (garirEnd_wf hs1)) (garirEnd_wf hs1)

theorem execGarirRead_wf {a : PAddr} {tagged autoinc : Bool} {s : State} (h : Canonical s.dev) :
    NextCanonical (execGarirRead a tagged autoinc s) := by
  unfold execGarirRead
  obtain ⟨read, hread⟩ := exists_eq_self debugRead
  have hr : ∀ {s pa}, Canonical s → Canonical (read s pa tagged).2 := fun hs => hread ▸ debugRead_wf hs
  rw [← hread]
  exact onDev_wf (garirMem_wf h fun _ _ hs => hr hs)

theorem execGarirWrite_wf {a : PAddr} {v : Word} {tag : Byte} {tagged autoinc : Bool} {s : State} (h : Canonical s.dev) :
    NextCanonical (execGarirWrite a v tag tagged autoinc s) := by
  unfold execGarirWrite
  obtain ⟨write, hwrite⟩ := exists_eq_self debugWrite
  have hw : ∀ {s pa}, Canonical s → Canonical (write s pa v tag tagged).2 := fun hs => hwrite ▸ debugWrite_wf hs
  rw [← hwrite]
  refine onDev_wf (garirMem_wf h fun s pa hs => ?_)
  split
  · next e => exact snd_wf (hw hs) e
  · next e => exact snd_wf (hw hs) e

end Sys2Proof.Machine
end

section
/-! PROOFS. The storage keeps its canonical form (O4): the commands of the manager. -/
namespace Sys2Proof.Machine

variable {s : Dev}

theorem othersBusy_wf {m : Nat} (h : Canonical s) : Canonical (othersBusy s m) :=
  foldl_wf (fun _ _ hs => ite_wf (ite_wf (respond_wf (drawFree_wf hs)) (drawFree_wf hs)) hs) h

theorem oasisRun_wf {m code : Nat} {f : Dev → Dev} (h : Canonical s) (h1 : ∀ s, Canonical s → Canonical (f s)) :
    Canonical (oasisRun s m code f) :=
  mboxRun_wf h (fun _ hs => h1 _ (othersBusy_wf hs))

theorem stagedBytes_wf {l : List (Nat × Nat)} (h : Canonical s) : Canonical (stagedBytes s l).2 :=
  foldl_wf (fun _ _ hs => foldl_wf (fun _ _ hs1 => oasisLoad_wf hs1) hs) h

theorem applyLive_wf {m : Nat} {img : List Byte} (h : Canonical s) : Canonical (applyLive s m img) := by
  unfold applyLive
  extract_lets +onlyGivenNames s1 s2
  have h1 : Canonical s1 := applySections_wf h
  have h2 : Canonical s2 := fset_wf (liveMaps_wf h1)
  exact ite_wf (respond_wf ((fset_wf h2).update)) (respond_wf (fset_wf h2))

theorem cfgApply_wf {s0 : Dev} {m : Nat} (h : Canonical s0) : Canonical (cfgApply s0 m) := by
  unfold cfgApply
  extract_lets +onlyGivenNames _ s' n
  have hs' : Canonical s' := h.update
  split
  · exact respond_wf hs'
  · split
    · exact respond_wf hs'
    · split
      · exact respond_wf hs'
      · extract_lets +onlyGivenNames r
        have hr : Canonical r.2 := by
          unfold r
          exact stagedBytes_wf hs'
        exact ite_wf (respond_wf hr) (ite_wf (respond_wf hr) (ite_wf (respond_wf hr) (applyLive_wf hr)))

theorem cfgApplyRun_wf {m : Nat} (h : Canonical s) : Canonical (cfgApplyRun s m) := ite_wf (oasisRun_wf h (fun _ hs => cfgApply_wf hs)) h

theorem execCfgApply_wf {m : Mailbox} {s : State} (h : Canonical s.dev) : NextCanonical (execCfgApply m s) := onDev_wf (cfgApplyRun_wf h)

theorem flashAlert_wf (h : Canonical s) : Canonical (flashAlert s) := logRec_wf h

theorem writePages_wf {base : Nat} {img : List Byte} {fail : Option FlashFail} (h : Canonical s) :
    Canonical (writePages s base img fail).2 := by
  unfold writePages
  extract_lets s1
  have hs1 : Canonical s1 := programFlash_wf (eraseFlash_wf h)
  clear_value s1
  split
  · exact ite_snd_wf (mk_snd_wf (failedFlash_wf hs1)) (mk_snd_wf hs1)
  · exact hs1

theorem writeCommit_wf {slot : Nat} {fail : Option FlashFail} (h : Canonical s) : Canonical (writeCommit s slot fail).2 :=
  ite_snd_wf (failedFlash_wf h) (programFlash_wf h)

theorem writeCopy_wf {slot : Nat} {img : List Byte} {fail : Option FlashFail} (h : Canonical s) : Canonical (writeCopy s slot img fail).2 :=
  ite_snd_wf (writeCommit_wf (writePages_wf (eraseFlash_wf h))) (writePages_wf (eraseFlash_wf h))

theorem cfgCommit_wf {m : Nat} {fail : Option FlashFail} (h : Canonical s) : Canonical (cfgCommit s m fail) := by
  unfold cfgCommit
  split
  · exact respond_wf h
  · split
    · exact respond_wf h
    · split
      · exact respond_wf h
      · extract_lets +onlyGivenNames x'
        have hx' : Canonical x'.2 := by
          unfold x'
          exact writeCopy_wf h
        exact ite_wf (respond_wf (logRec_wf (noteSlots_wf hx'))) (respond_wf (flashAlert_wf (noteSlots_wf hx')))

theorem execCfgCommit_wf {m : Mailbox} {fail : Option FlashFail} {s : State} (h : Canonical s.dev) :
    NextCanonical (execCfgCommit m fail s) :=
  onDev_wf (oasisRun_wf h (fun _ hs => cfgCommit_wf hs))

theorem fwWrite_wf {m : Nat} {fail : Option FlashFail} (h : Canonical s) : Canonical (fwWrite s m fail) := by
  unfold fwWrite
  extract_lets +onlyGivenNames n
  split
  · exact respond_wf h
  · split
    · exact respond_wf h
    · extract_lets +onlyGivenNames r x'
      have hr : Canonical r.2 := by
        unfold r
        exact stagedBytes_wf h
      have hx' : Canonical x'.2 := by
        unfold x'
        exact writePages_wf hr
      exact ite_wf (respond_wf (flashAlert_wf hx')) (ite_wf (respond_wf (fwSlot_wf hx')) (respond_wf hr))

theorem execFwWrite_wf {m : Mailbox} {fail : Option FlashFail} {s : State} (h : Canonical s.dev) : NextCanonical (execFwWrite m fail s) :=
  onDev_wf (oasisRun_wf h (fun _ hs => fwWrite_wf hs))

theorem busyNow_wf {m : Nat} (h : Canonical s) : Canonical (busyNow s m) := ite_wf (respond_wf (noteBusy_wf h)) h

theorem restartOasis_wf {choose : Bool} (h : Canonical s) : Canonical (restartOasis s choose) :=
  foldl_wf (fun _ _ hs => busyNow_wf hs) (noteSlots_wf ((openPhase_wf (fset_wf (logRec_wf h))).update))

theorem oasisRestart_wf {m : Nat} (h : Canonical s) : Canonical (oasisRestart s m) :=
  ite_wf (respond_wf h) (ite_wf (respond_wf h) (ite_wf (respond_wf h) (restartOasis_wf (respond_wf h))))

theorem execOasisRestart_wf {m : Mailbox} {s : State} (h : Canonical s.dev) : NextCanonical (execOasisRestart m s) :=
  onDev_wf (oasisRun_wf h (fun _ hs => oasisRestart_wf hs))

theorem restartFw_wf (h : Canonical s) : Canonical (restartFw s) := by
  unfold restartFw
  split
  · extract_lets +onlyGivenNames c
    have hc : Canonical c.2 := by
      unfold c
      exact chooseFw_wf h
    split
    · exact runFw_wf hc
    · exact hc.update
  · exact h

theorem restartDone_wf {ms : Nat} {t8 : Int} (h : Canonical s) : Canonical (restartDone s ms t8) := by
  unfold restartDone
  split
  · exact h
  · extract_lets +onlyGivenNames s1
    have h1 : Canonical s1 := restartFw_wf (advanceOp_wf h)
    split
    · exact h1
    · extract_lets +onlyGivenNames s2 waiting s3 s4
      have h2 : Canonical s2 := fset_wf h1
      have h3 : Canonical s3 := phaseValue_wf (foldl_wf (fun _ _ hs => phaseValue_wf hs) (phaseValue_wf h2))
      have h4 : Canonical s4 := noteTemp_wf h3
      split
      · exact ite_wf (closePhase_wf h4) h4
      · exact h4

theorem execOasisRestartDone_wf {ms temp : BitVec 16} {s : State} (h : Canonical s.dev) : NextCanonical (execOasisRestartDone ms temp s) :=
  onDev_wf (restartDone_wf h)

theorem watchdog_wf (h : Canonical s) : Canonical (watchdog s) := ite_wf h (fincSat_wf (restartOasis_wf (logRec_wf h)))

theorem execWatchdog_wf {s : State} (h : Canonical s.dev) : NextCanonical (execWatchdog s) := onDev_wf (watchdog_wf h)

theorem fwMinSet_wf {m : Nat} (h : Canonical s) :
    Canonical (fwMinSet s m) := ite_wf (respond_wf h) (ite_wf (respond_wf h) (respond_wf h.update))

theorem execFwMinSet_wf {m : Mailbox} {s : State} (h : Canonical s.dev) : NextCanonical (execFwMinSet m s) :=
  onDev_wf (oasisRun_wf h (fun _ hs => fwMinSet_wf hs))

theorem blowWord_wf {target : Nat} (h : Canonical s) : Canonical (blowWord s target) :=
  ite_wf (noteSlots_wf (eraseCustomer_wf (logRec_wf h.update))) (logRec_wf h.update)

theorem lcAdvance_wf {m : Nat} (h : Canonical s) : Canonical (lcAdvance s m) := respond_wf (ite_wf (blowWord_wf h) h)

theorem execLcAdvance_wf {m : Mailbox} {s : State} (h : Canonical s.dev) : NextCanonical (execLcAdvance m s) :=
  onDev_wf (oasisRun_wf h (fun _ hs => lcAdvance_wf hs))

theorem keyFuse_wf {m : Nat} (h : Canonical s) : Canonical (keyFuse s m) :=
  ite_wf (respond_wf h) (ite_wf (respond_wf h) (respond_wf (noteSlots_wf h.update)))

theorem execKeyFuse_wf {m : Mailbox} {s : State} (h : Canonical s.dev) : NextCanonical (execKeyFuse m s) :=
  onDev_wf (oasisRun_wf h (fun _ hs => keyFuse_wf hs))

theorem closeLoad_wf (h : Canonical s) : Canonical (closeLoad s) := noteSlots_wf h.update

theorem loaderFlash_wf (h : Canonical s) : Canonical (loaderFlash s).2 := flashAlert_wf (closeLoad_wf h)

theorem loadBegin_wf {rom : Bool} {target length : Nat} {fail : Bool} (h : Canonical s) :
    Canonical (loadBegin s rom target length fail).2 := by
  unfold loadBegin
  split
  · exact h
  · split
    · exact h
    · split
      · exact h
      · split
        · exact h
        · extract_lets slot base s1
          have hs1 : Canonical s1 := eraseFlash_wf (ite_wf (eraseFlash_wf h) h)
          clear_value s1
          exact ite_snd_wf (loaderFlash_wf (failedFlash_wf hs1)) (mk_snd_wf (noteSlots_wf hs1.update))

theorem loadData'_wf {target offset : Nat} {bytes : List Byte} {fail : Bool} (h : Canonical s) :
    Canonical (loadData' s target offset bytes fail).2 := by
  unfold loadData'
  split
  · exact h
  · split
    · exact h
    · split
      · exact h
      · extract_lets +onlyGivenNames page put
        have hput : ∀ {x s}, Canonical s → Canonical (put x s) := fun hs => hs.update
        clear_value put
        split
        · exact mk_snd_wf (hput h)
        · extract_lets a
          exact ite_snd_wf (loaderFlash_wf (failedFlash_wf h)) (mk_snd_wf (noteSlots_wf (hput (programFlash_wf h))))

theorem rebootConfig_wf (h : Canonical s) : Canonical (rebootConfig s) := by
  unfold rebootConfig
  extract_lets +onlyGivenNames s1 s2 s3
  have h1 : Canonical s1 := configReset_wf h
  have h2 : Canonical s2 := foldl_wf (fun _ _ hs => setReg_wf hs) h1
  have h3 : Canonical s3 := bootConfig_wf h2.update
  exact closeStartUp_wf (ite_wf (startParts_wf h3) h3)

theorem runLoaded_wf {b : BootIn} (h : Canonical s) : Canonical (runLoaded s b) := by
  unfold runLoaded
  split
  · exact restartOasis_wf h
  · extract_lets +onlyGivenNames c
    have hc : Canonical c.2 := by
      unfold c
      exact chooseFw_wf h
    split
    · exact hc
    · exact ite_wf (runFw_wf hc) (bootRest_wf (runFw_wf hc))

theorem loadEnd_wf {target arg : Nat} {fail : Bool} {b : BootIn} (h : Canonical s) : Canonical (loadEnd s target arg fail b).2 := by
  unfold loadEnd
  split
  · exact h
  · split
    · exact h
    · split
      · exact h
      · split
        · extract_lets +onlyGivenNames v
          have hv : Canonical v.2.2 := slotView_wf h
          clear_value v
          split
          · exact mk_snd_wf (closeLoad_wf hv)
          · split
            · exact mk_snd_wf (closeLoad_wf hv)
            · extract_lets x
              have hx : Canonical x.2 := writeCommit_wf hv
              exact ite_snd_wf (mk_snd_wf (rebootConfig_wf (closeLoad_wf hx))) (loaderFlash_wf hx)
        · extract_lets v
          have hv : Canonical v.2 := fwSlot_wf h
          exact ite_snd_wf (mk_snd_wf (runLoaded_wf (closeLoad_wf hv))) (mk_snd_wf (closeLoad_wf hv))

theorem loadAbort_wf {target arg : Nat} (h : Canonical s) : Canonical (loadAbort s target arg).2 := by
  unfold loadAbort
  exact ite_snd_wf h (mk_snd_wf (closeLoad_wf h))

theorem uartFrame_wf {crcOk : Bool} {target : Nat} {f : Dev → Nat × Dev} (h : Canonical s) (h1 : ∀ s, Canonical s → Canonical (f s).2) :
    Canonical (uartFrame s crcOk target f) :=
  ite_wf h ((ite_snd_wf h (ite_snd_wf h (h1 _ h))).update)

theorem execLoaderBegin_wf {target : Byte} {arg : BitVec 32} {crcOk fail : Bool} {s : State} (h : Canonical s.dev) :
    NextCanonical (execLoaderBegin target arg crcOk fail s) :=
  onDev_wf (uartFrame_wf h (fun _ hs => loadBegin_wf hs))

theorem execLoaderData_wf {target : Byte} {arg : BitVec 32} {data : List Byte} {crcOk fail : Bool} {s : State} (h : Canonical s.dev) :
    NextCanonical (execLoaderData target arg data crcOk fail s) :=
  onDev_wf (uartFrame_wf h (fun _ hs => ite_snd_wf hs (loadData'_wf hs)))

theorem execLoaderEnd_wf {target : Byte} {arg : BitVec 32} {crcOk fail : Bool} {b : BootIn} {s : State} (h : Canonical s.dev) :
    NextCanonical (execLoaderEnd target arg crcOk fail b s) :=
  onDev_wf (uartFrame_wf h (fun _ hs => loadEnd_wf hs))

theorem execLoaderAbort_wf {target : Byte} {arg : BitVec 32} {crcOk : Bool} {s : State} (h : Canonical s.dev) :
    NextCanonical (execLoaderAbort target arg crcOk s) :=
  onDev_wf (uartFrame_wf h (fun _ hs => loadAbort_wf hs))

theorem execLoaderFrameTimeout_wf {s : State} (h : Canonical s.dev) :
    NextCanonical (execLoaderFrameTimeout s) := onDev_wf (ite_wf (advanceOp_wf h) h)

theorem loadCommand_wf {fail : Bool} {b : BootIn} (h : Canonical s) : Canonical (loadCommand s fail b).2 := by
  unfold loadCommand
  extract_lets +onlyGivenNames w target arg
  split
  · exact loadBegin_wf h
  · exact ite_snd_wf (loadData'_wf h) h
  · exact loadEnd_wf h
  · exact loadAbort_wf h
  · exact h

theorem execLoaderLoad_wf {fail : Bool} {b : BootIn} {s : State} (h : Canonical s.dev) : NextCanonical (execLoaderLoad fail b s) :=
  onDev_wf (oasisRun_wf h (fun _ hs => respond_wf (loadCommand_wf hs)))

theorem releaseEnable_wf {c : Nat} (h : Canonical s) : Canonical (releaseEnable s c) :=
  ite_wf (classEnable_wf h.update) (refuseRec_wf (classEnable_wf h.update))

theorem classEnableRelease_wf {c : Nat} (h : Canonical s) : Canonical (classEnableRelease s c) :=
  ite_wf h (ite_wf (releaseEnable_wf h) (ite_wf h (releaseEnable_wf (logRec_wf (advanceOp_wf h)))))

theorem execClassEnableRelease_wf {c : ClassId} {s : State} (h : Canonical s.dev) : NextCanonical (execClassEnableRelease c s) :=
  onDev_wf (classEnableRelease_wf h)

theorem powerFail_wf {cut : Option FlashCut} : Canonical (powerFail s cut) := powerOnReset_wf.update

theorem execPowerFail_wf {cut : Option FlashCut} {s : State} : NextCanonical (execPowerFail cut s) := onDev_wf powerFail_wf

end Sys2Proof.Machine
end

section
/-! PROOFS. The storage keeps its canonical form (O4): time synchronisation. -/
namespace Sys2Proof.Machine

variable {s : Dev}

theorem setPtpDomain_wf {d : Nat} {x : PtpDomain} (h : Canonical s) : Canonical (setPtpDomain s d x) := modErg_wf h

theorem setPtpLink_wf {p : Nat} {x : PtpLink} (h : Canonical s) : Canonical (setPtpLink s p x) := modErg_wf h

theorem syncTaken_wf {d p rx : Nat} {origin : Int} (h : Canonical s) : Canonical (syncTaken s d p rx origin) := ite_wf h (setPtpDomain_wf h)

theorem selectMaster_wf {d : Nat} (h : Canonical s) : Canonical (selectMaster s d) := setPtpDomain_wf h

theorem announceTaken_wf {d p vec : Nat} {source : List Byte} (h : Canonical s) : Canonical (announceTaken s d p vec source) :=
  ite_wf h (selectMaster_wf (setPtpDomain_wf h))

theorem announceAge_wf {d : Nat} (h : Canonical s) : Canonical (announceAge s d) := selectMaster_wf (setPtpDomain_wf h)

theorem peerDelay_wf {p t1 t2 t3 t4 : Nat} (h : Canonical s) : Canonical (peerDelay s p t1 t2 t3 t4) := fset_wf (setPtpLink_wf h)

theorem ptpTake_wf {d p : Nat} {m : PtpMsg} (h : Canonical s) : Canonical (ptpTake d p s m) := by
  unfold ptpTake
  extract_lets +onlyGivenNames l asked
  split
  · exact ite_wf (setPtpLink_wf h) (syncTaken_wf h)
  · exact handToPort_wf h
  · exact ite_wf (setPtpLink_wf h) h
  · split
    · exact ite_wf (syncTaken_wf (setPtpLink_wf h)) h
    · exact h
  · split
    · exact ite_wf (peerDelay_wf h) h
    · exact h
  · exact announceTaken_wf h
  · exact h

theorem ptpFollow_wf {d p interval : Nat} {m : PtpMsg} (h : Canonical s) : Canonical (ptpFollow d p interval s m) := by
  unfold ptpFollow
  split
  · exact handToPort_wf h
  · exact handToPort_wf h
  · exact h

theorem ptpMaster_wf {d p interval : Nat} (h : Canonical s) : Canonical (ptpMaster s d p interval) := by
  unfold ptpMaster
  dsimp only
  split
  · exact h
  · exact ite_wf h (handToPort_wf (handToPort_wf (setPtpDomain_wf h)))

theorem ptpRequest_wf {d p : Nat} (h : Canonical s) : Canonical (ptpRequest s d p) := handToPort_wf (setPtpLink_wf h)

theorem servoApply_wf {v : Servo} (h : Canonical s) : Canonical (servoApply s v) := by
  unfold servoApply
  split
  · exact fset_wf (fset_wf h.update)
  · exact ite_wf (fset_wf (fset_wf ((fset_wf h).update))) (fset_wf (fset_wf ((fset_wf h).update)))

theorem syncInterval_wf {d p interval : Nat} {servo : Option Servo} (h : Canonical s) : Canonical (syncInterval s d p interval servo) := by
  unfold syncInterval
  extract_lets n rx tx keepTx s1 s2 s3 s4
  have hs1 : Canonical s1 := foldl_wf (fun _ _ hs => ptpTake_wf hs) (announceAge_wf h)
  have hs2 : Canonical s2 := foldl_wf (fun _ _ hs => ptpFollow_wf hs) hs1
  have hs4 : Canonical s4 := ptpRequest_wf (ptpMaster_wf (modErg_wf hs2))
  refine ite_wf h ?_
  split
  · exact ite_wf (servoApply_wf hs4) hs4
  · exact hs4

theorem execSyncInterval_wf {dom : Fin 2} {p : PortId} {back : Fin 8} {decides step : Bool} {n : Int} {s : State} (h : Canonical s.dev) :
    NextCanonical (execSyncInterval dom p back decides step n s) :=
  onDev_wf (syncInterval_wf h)

end Sys2Proof.Machine
end

section
/-! PROOFS. The storage keeps its canonical form (O4): every command and every step. -/
namespace Sys2Proof.Machine

/-- Every command keeps the canonical form, whatever state it meets. -/
theorem exec_wf {s : State} (h : Canonical s.dev) (c : Instr) : NextCanonical (exec c s) := by
  cases c with
  | registerWrite => exact execRegisterWrite_wf h
  | creditReturn => exact execCreditReturn_wf h
  | queueStarved => exact execQueueStarved_wf h
  | creditDepthWrite => exact execCreditDepthWrite_wf h
  | bankRequest => exact execBankRequest_wf h
  | bankGrant => exact execBankGrant_wf h
  | handoverStart who => exact execHandoverStart_wf (who := who) h
  | handoverEnd => exact execHandoverEnd_wf h
  | bankClear => exact execBankClear_wf h
  | bankClearDone => exact execBankClearDone_wf h
  | pairEnable => exact execPairEnable_wf h
  | pairDisable => exact execPairDisable_wf h
  | pairInitDone => exact execPairInitDone_wf h
  | ltRead => exact execLtRead_wf h
  | ltWrite => exact execLtWrite_wf h
  | abandon who => exact execAbandon_wf (who := who) h
  | sweeperVisit => exact execSweeperVisit_wf h
  | abandonSweepDone => exact execAbandonSweepDone_wf h
  | classBoundary => exact execClassBoundary_wf h
  | classEnable => exact execClassEnable_wf h
  | classDisable => exact execClassDisable_wf h
  | releaseAction => exact execReleaseAction_wf h
  | inputDeadline => exact execInputDeadline_wf h
  | agreeAction => exact execAgreeAction_wf h
  | gatherStart => exact execGatherStart_wf h
  | digestAction => exact execDigestAction_wf h
  | sampleAction => exact execSampleAction_wf h
  | eventAction => exact execEventAction_wf h
  | markAction => exact execMarkAction_wf h
  | holdover => exact execHoldover_wf h
  | scatter => exact execScatter_wf h
  | gatherStream => exact execGatherStream_wf h
  | gatherHandover => exact execGatherHandover_wf h
  | rateLimitFlush => exact execRateLimitFlush_wf h
  | cycTblRead => exact execCycTblRead_wf h
  | cycTblWrite => exact execCycTblWrite_wf h
  | cycTime who => exact execCycTime_wf (who := who) h
  | frameRxStart => exact execFrameRxStart_wf h
  | frameRxEnd => exact execFrameRxEnd_wf h
  | frameTxStart => exact execFrameTxStart_wf h
  | frameTxDone => exact execFrameTxDone_wf h
  | fdbAgeing => exact execFdbAgeing_wf h
  | recoveryReset => exact execRecoveryReset_wf h
  | gateChange => exact execGateChange_wf h
  | gateConfigChange => exact execGateConfigChange_wf h
  | gateOperation => exact execGateOperation_wf h
  | gateListRead => exact execGateListRead_wf h
  | gateListWrite => exact execGateListWrite_wf h
  | preemptVerifyDone => exact execPreemptVerifyDone_wf h
  | autoNegotiationDone => exact execAutoNegotiationDone_wf h
  | linkDown => exact execLinkDown_wf h
  | linkUp => exact execLinkUp_wf h
  | portEn who => exact execPortEn_wf (who := who) h
  | swTblRead => exact execSwTblRead_wf h
  | swTblWrite => exact execSwTblWrite_wf h
  | fdbInsert => exact execFdbInsert_wf h
  | fdbDelete => exact execFdbDelete_wf h
  | pcieInboundRequest => exact execPcieInboundRequest_wf h
  | completionTimeout => exact execCompletionTimeout_wf h
  | pcieLinkDown => exact execPcieLinkDown_wf h
  | perstRelease => exact execPerstRelease_wf h
  | doorbell => exact execDoorbell_wf h
  | piTxDescriptor => exact execPiTxDescriptor_wf h
  | staleDataReturn => exact execStaleDataReturn_wf h
  | piQpRead => exact execPiQpRead_wf h
  | piQpWrite => exact execPiQpWrite_wf h
  | instanceReset => exact execInstanceReset_wf h
  | instanceResetComplete => exact execInstanceResetComplete_wf h
  | resetWaitTimeout => exact execResetWaitTimeout_wf h
  | mboxSend => exact execMboxSend_wf h
  | mailboxResponse => exact execMailboxResponse_wf h
  | mboxInAck => exact execMboxInAck_wf h
  | mboxData => exact execMboxData_wf h
  | getInfo => exact execGetInfo_wf h
  | setMac => exact execSetMac_wf h
  | setVlans => exact execSetVlans_wf h
  | setFlood => exact execSetFlood_wf h
  | setSteer => exact execSetSteer_wf h
  | tenantReset => exact execTenantReset_wf h
  | ackNotice => exact execAckNotice_wf h
  | piCreate => exact execPiCreate_wf h
  | piResize => exact execPiResize_wf h
  | piPolicy => exact execPiPolicy_wf h
  | piRemove => exact execPiRemove_wf h
  | piMigrate => exact execPiMigrate_wf h
  | noticeDeadline => exact execNoticeDeadline_wf h
  | twinEnable => exact execTwinEnable_wf h
  | heartbeatSend => exact execHeartbeatSend_wf h
  | heartbeat => exact execHeartbeat_wf h
  | arrivalMap => exact execArrivalMap_wf h
  | frameFill => exact execFrameFill_wf h
  | digestMessage => exact execDigestMessage_wf h
  | journalMsg => exact execJournalMsg_wf h
  | stateCopy => exact execStateCopy_wf h
  | linkLost => exact execLinkLost_wf h
  | pathLost => exact execPathLost_wf h
  | twinLaneDown => exact execTwinLaneDown_wf h
  | agreementWindowEnd => exact execAgreementWindowEnd_wf h
  | digestDone => exact execDigestDone_wf h
  | digestMissed => exact execDigestMissed_wf h
  | journalSubmit => exact execJournalSubmit_wf h
  | twinJoin => exact execTwinJoin_wf h
  | twinLeave => exact execTwinLeave_wf h
  | twinSwap => exact execTwinSwap_wf h
  | twinColdStart => exact execTwinColdStart_wf h
  | twinStart => exact execTwinStart_wf h
  | swapTimeout => exact execSwapTimeout_wf h
  | copyRound => exact execCopyRound_wf h
  | freezeTimeout => exact execFreezeTimeout_wf h
  | twinTblRead => exact execTwinTblRead_wf h
  | twinTblWrite => exact execTwinTblWrite_wf h
  | histEnable who => exact execHistEnable_wf (who := who) h
  | histDisable who => exact execHistDisable_wf (who := who) h
  | histRestart => exact execHistRestart_wf h
  | histShutdownDone => exact execHistShutdownDone_wf h
  | sealTimer => exact execSealTimer_wf h
  | segmentWrite => exact execSegmentWrite_wf h
  | nvmeCompletion => exact execNvmeCompletion_wf h
  | nvmeTimeout => exact execNvmeTimeout_wf h
  | superblockTimer => exact execSuperblockTimer_wf h
  | histCq => exact execHistCq_wf h
  | histRecord => exact execHistRecord_wf h
  | histBulk => exact execHistBulk_wf h
  | histQuery => exact execHistQuery_wf h
  | histQueryBulk => exact execHistQueryBulk_wf h
  | histQueryComplete => exact execHistQueryComplete_wf h
  | histSync => exact execHistSync_wf h
  | histInfo => exact execHistInfo_wf h
  | histTblRead => exact execHistTblRead_wf h
  | histTblWrite => exact execHistTblWrite_wf h
  | storeDrain => exact execStoreDrain_wf h
  | uncachedResponse => exact execUncachedResponse_wf h
  | loadReturn => exact execLoadReturn_wf h
  | cycleEnd => exact execCycleEnd_wf h
  | twaitExpiry => exact execTwaitExpiry_wf h
  | add => exact execAdd_wf h
  | sub => exact execSub_wf h
  | addc => exact execAddc_wf h
  | subc => exact execSubc_wf h
  | and => exact execAnd_wf h
  | or => exact execOr_wf h
  | xor => exact execXor_wf h
  | andn => exact execAndn_wf h
  | shl => exact execShl_wf h
  | shr => exact execShr_wf h
  | shra => exact execShra_wf h
  | less => exact execLess_wf h
  | lessu => exact execLessu_wf h
  | same => exact execSame_wf h
  | min => exact execMin_wf h
  | max => exact execMax_wf h
  | mul => exact execMul_wf h
  | mulhi => exact execMulhi_wf h
  | mulhiu => exact execMulhiu_wf h
  | mulc => exact execMulc_wf h
  | quot => exact execQuot_wf h
  | quotu => exact execQuotu_wf h
  | rmdr => exact execRmdr_wf h
  | rmdru => exact execRmdru_wf h
  | clz => exact execClz_wf h
  | popc => exact execPopc_wf h
  | mov => exact execMov_wf h
  | sel => exact execSel_wf h
  | addi => exact execAddi_wf h
  | andi => exact execAndi_wf h
  | ori => exact execOri_wf h
  | xori => exact execXori_wf h
  | lessi => exact execLessi_wf h
  | lessui => exact execLessui_wf h
  | shli => exact execShli_wf h
  | shri => exact execShri_wf h
  | shrai => exact execShrai_wf h
  | fadd => exact execFadd_wf h
  | fsub => exact execFsub_wf h
  | fmul => exact execFmul_wf h
  | fdiv => exact execFdiv_wf h
  | fsqrt => exact execFsqrt_wf h
  | fmac => exact execFmac_wf h
  | fmsc => exact execFmsc_wf h
  | fmin => exact execFmin_wf h
  | fmax => exact execFmax_wf h
  | fneg => exact execFneg_wf h
  | fabs => exact execFabs_wf h
  | fsame => exact execFsame_wf h
  | fless => exact execFless_wf h
  | flesseq => exact execFlesseq_wf h
  | ftoi => exact execFtoi_wf h
  | itof => exact execItof_wf h
  | fwiden => exact execFwiden_wf h
  | fnarrow => exact execFnarrow_wf h
  | qget => exact execQget_wf h
  | qset => exact execQset_wf h
  | qmin => exact execQmin_wf h
  | qseti => exact execQseti_wf h
  | qtest => exact execQtest_wf h
  | qmode => exact execQmode_wf h
  | ld => exact execLd_wf h
  | ldv => exact execLdv_wf h
  | ldb => exact execLdb_wf h
  | ldbu => exact execLdbu_wf h
  | ldh => exact execLdh_wf h
  | ldhu => exact execLdhu_wf h
  | ldw => exact execLdw_wf h
  | ldwu => exact execLdwu_wf h
  | st => exact execSt_wf h
  | stv => exact execStv_wf h
  | stb => exact execStb_wf h
  | sth => exact execSth_wf h
  | stw => exact execStw_wf h
  | atswap => exact execAtswap_wf h
  | atadd => exact execAtadd_wf h
  | atcas => exact execAtcas_wf h
  | atmin => exact execAtmin_wf h
  | atmax => exact execAtmax_wf h
  | beq => exact execBeq_wf h
  | bne => exact execBne_wf h
  | blt => exact execBlt_wf h
  | bge => exact execBge_wf h
  | bgt => exact execBgt_wf h
  | ble => exact execBle_wf h
  | jal => exact execJal_wf h
  | jalr => exact execJalr_wf h
  | lih => exact execLih_wf h
  | lix => exact execLix_wf h
  | tnow => exact execTnow_wf h
  | twait => exact execTwait_wf h
  | twaitC => exact execTwaitC_wf h
  | cycn => exact execCycn_wf h
  | fence => exact execFence_wf h
  | fenceIo => exact execFenceIo_wf h
  | pflush => exact execPflush_wf h
  | cclean => exact execCclean_wf h
  | cflush => exact execCflush_wf h
  | czero => exact execCzero_wf h
  | icinv => exact execIcinv_wf h
  | syscall => exact execSyscall_wf h
  | brk => exact execBrk_wf h
  | eret => exact execEret_wf h
  | tlbiva => exact execTlbiva_wf h
  | tlbiasid => exact execTlbiasid_wf h
  | tlbiall => exact execTlbiall_wf h
  | mfsr => exact execMfsr_wf h
  | mtsr => exact execMtsr_wf h
  | interrupt => exact execInterrupt_wf h
  | pageWalk => exact execPageWalk_wf h
  | directoryTransaction => exact execDirectoryTransaction_wf h
  | ioRead => exact execIoRead_wf h
  | ioWrite => exact execIoWrite_wf h
  | cacheEnableWrite who => exact execCacheEnableWrite_wf (who := who) h
  | drainComplete => exact execDrainComplete_wf h
  | deviceMark who => exact execDeviceMark_wf (who := who) h
  | scrubLine => exact execScrubLine_wf h
  | cacheScrub => exact execCacheScrub_wf h
  | powerOn => exact execPowerOn_wf
  | classEnableRelease => exact execClassEnableRelease_wf h
  | loaderBegin => exact execLoaderBegin_wf h
  | loaderData => exact execLoaderData_wf h
  | loaderEnd => exact execLoaderEnd_wf h
  | loaderAbort => exact execLoaderAbort_wf h
  | loaderFrameTimeout => exact execLoaderFrameTimeout_wf h
  | loaderLoad => exact execLoaderLoad_wf h
  | partInfo => exact execPartInfo_wf h
  | partStart => exact execPartStart_wf h
  | partStop => exact execPartStop_wf h
  | partReset => exact execPartReset_wf h
  | threadStart => exact execThreadStart_wf h
  | routeCmd => exact execRouteCmd_wf h
  | mapCmd => exact execMapCmd_wf h
  | cfgApply => exact execCfgApply_wf h
  | cfgCommit => exact execCfgCommit_wf h
  | fwWrite => exact execFwWrite_wf h
  | oasisRestart => exact execOasisRestart_wf h
  | fwMinSet => exact execFwMinSet_wf h
  | lcAdvance => exact execLcAdvance_wf h
  | keyFuse => exact execKeyFuse_wf h
  | oasisRestartDone => exact execOasisRestartDone_wf h
  | gateAcquire => exact execGateAcquire_wf h
  | gateRelease => exact execGateRelease_wf h
  | gateQuery => exact execGateQuery_wf h
  | comparatorSelfTest => exact execComparatorSelfTest_wf h
  | coreMismatch => exact execCoreMismatch_wf h
  | delayRegisterFault => exact execDelayRegisterFault_wf h
  | spareReady => exact execSpareReady_wf h
  | uncheckedPairMove => exact execUncheckedPairMove_wf h
  | darningRegion => exact execDarningRegion_wf h
  | flashCopy => exact execFlashCopy_wf h
  | phaseClose => exact execPhaseClose_wf h
  | operatingHour => exact execOperatingHour_wf h
  | clearRam => exact execClearRam_wf h
  | samplerRead => exact execSamplerRead_wf h
  | smpRdData => exact execSmpRdData_wf h
  | extest => exact execExtest_wf h
  | samplePreload => exact execSamplePreload_wf h
  | idcode => exact execIdcode_wf h
  | clamp => exact execClamp_wf h
  | highz => exact execHighz_wf h
  | extestPulse => exact execExtestPulse_wf h
  | extestTrain => exact execExtestTrain_wf h
  | bypass => exact execBypass_wf h
  | testLogicReset => exact execTestLogicReset_wf h
  | trst => exact execTrst_wf h
  | authRequest => exact execAuthRequest_wf h
  | authRespond => exact execAuthRespond_wf h
  | authDetach => exact execAuthDetach_wf h
  | authRevoke => exact execAuthRevoke_wf h
  | setPassword => exact execSetPassword_wf h
  | authorisationTick => exact execAuthorisationTick_wf h
  | challengeExpiry => exact execChallengeExpiry_wf h
  | lockoutExpiry => exact execLockoutExpiry_wf h
  | tapIdleTimeout => exact execTapIdleTimeout_wf h
  | garirNop => exact execGarirNop_wf h
  | garirRead => exact execGarirRead_wf h
  | garirWrite => exact execGarirWrite_wf h
  | garirHalt => exact execGarirHalt_wf h
  | garirResume => exact execGarirResume_wf h
  | garirStep => exact execGarirStep_wf h
  | garirRegRead => exact execGarirRegRead_wf h
  | garirRegWrite => exact execGarirRegWrite_wf h
  | bpSet => exact execBpSet_wf h
  | bpClear => exact execBpClear_wf h
  | vtRead => exact execVtRead_wf h
  | vtWrite => exact execVtWrite_wf h
  | garirState => exact execGarirState_wf h
  | brkHalt => exact execBrkHalt_wf h
  | mbWrite => exact execMbWrite_wf h
  | mbRead => exact execMbRead_wf h
  | dbgVtTx => exact execDbgVtTx_wf h
  | vtRxAck => exact execVtRxAck_wf h
  | traceEnable => exact execTraceEnable_wf h
  | traceTrigger => exact execTraceTrigger_wf h
  | traceFire => exact execTraceFire_wf h
  | postEnd => exact execPostEnd_wf h
  | traceTimeTick => exact execTraceTimeTick_wf h
  | traceSinkWrite => exact execTraceSinkWrite_wf h
  | trcSrcRead => exact execTrcSrcRead_wf h
  | trcSrcWrite => exact execTrcSrcWrite_wf h
  | counterOverflow => exact execCounterOverflow_wf h
  | ctrRead => exact execCtrRead_wf h
  | ctrWrite => exact execCtrWrite_wf h
  | snapshotPeriod => exact execSnapshotPeriod_wf h
  | snapshotFire => exact execSnapshotFire_wf h
  | snapshotRecordDone => exact execSnapshotRecordDone_wf h
  | powerUpRequest => exact execPowerUpRequest_wf h
  | powerDownRequest => exact execPowerDownRequest_wf h
  | domainStateRead => exact execDomainStateRead_wf h
  | powerUpDone => exact execPowerUpDone_wf h
  | powerDownDone => exact execPowerDownDone_wf h
  | avsTick => exact execAvsTick_wf h
  | pmbusRetry => exact execPmbusRetry_wf h
  | tjAlert => exact execTjAlert_wf h
  | thermalTrip => exact execThermalTrip_wf h
  | referenceLoss => exact execReferenceLoss_wf h
  | tripRelease => exact execTripRelease_wf h
  | externalReset => exact execExternalReset_wf h
  | resetRelease => exact execResetRelease_wf h
  | powerFail => exact execPowerFail_wf
  | watchdog => exact execWatchdog_wf h
  | ppsEdge => exact execPpsEdge_wf h
  | vppFuseChange => exact execVppFuseChange_wf h
  | pcieLinkUp => exact execPcieLinkUp_wf h
  | referenceReturn => exact execReferenceReturn_wf h
  | faultNRelease => exact execFaultNRelease_wf h
  | tjAlertEnd => exact execTjAlertEnd_wf h
  | twinLaneUp => exact execTwinLaneUp_wf h
  | syncInterval => exact execSyncInterval_wf h

theorem step_wf {s : State} (h : Canonical s.dev) : NextCanonical (step s) := by
  cases hp : s.pending with
  | nil =>
    rw [step_of_empty hp]
    exact tick_wf h
  | cons c rest =>
    rw [step_of_cons hp]
    exact exec_wf (s := { s with pending := rest }) h c

/-- Settles O4: every command writes value bytes, tags and poison marks through operations of the state that keep the canonical form. -/
theorem stepKeepsMemoryCanonical : Obligations.StepKeepsMemoryCanonical := by
  unfold Obligations.StepKeepsMemoryCanonical
  intro s s' h hs
  have hn := step_wf h
  rw [hs] at hn
  exact hn

end Sys2Proof.Machine
end

section
/-! PROOFS. What counting, tracing and recording leave alone: every part of the device but the registers and their own stores. -/
namespace Sys2Proof.Machine

/-! ## The device without its logs -/

/-- The device without its registers and without what counting, tracing and recording move: two devices that agree here differ in these alone. -/
def sansLogs (d : Dev) : Dev := { d with regs := [], pendSrc := [], smp := {}, trc := {}, ctr := {} }

section
variable (s : Dev)

@[simp] theorem sansLogs_fset (o : Nat) (f : Nat × Nat) (n : Nat) : sansLogs (fset s o f n) = sansLogs s := rfl
@[simp] theorem sansLogs_fincSat (o : Nat) (f : Nat × Nat) (n : Nat) : sansLogs (fincSat s o f n) = sansLogs s := rfl
@[simp] theorem sansLogs_fincWrap (o : Nat) (f : Nat × Nat) (n : Nat) : sansLogs (fincWrap s o f n) = sansLogs s := rfl
@[simp] theorem sansLogs_smp (x : SmpSt) : sansLogs { s with smp := x } = sansLogs s := rfl
@[simp] theorem sansLogs_trc (x : TrcSt) : sansLogs { s with trc := x } = sansLogs s := rfl
@[simp] theorem sansLogs_ctr (x : CtrSt) : sansLogs { s with ctr := x } = sansLogs s := rfl
@[simp] theorem sansLogs_setTrcSrc (src : Nat) (x : TrcSrc) : sansLogs (setTrcSrc s src x) = sansLogs s := rfl
@[simp] theorem sansLogs_trcDrop (src : Nat) : sansLogs (trcDrop s src) = sansLogs s := rfl

theorem sansLogs_foldl {β : Type} (f : Dev → β → Dev) (hf : ∀ s e, sansLogs (f s e) = sansLogs s) (l : List β) :
    ∀ s, sansLogs (l.foldl f s) = sansLogs s := by
  induction l with
  | nil => exact fun _ => rfl
  | cons e l ih => exact fun s => (ih _).trans (hf s e)

/-! ## Counters -/

@[simp] theorem sansLogs_raise (src : Nat) : sansLogs (raise s src) = sansLogs s := by
  unfold raise
  split <;> rfl

theorem sansLogs_ctrAdd (fuel : Nat) : ∀ (s : Dev) (i n : Nat), sansLogs (ctrAdd fuel s i n) = sansLogs s := by
  induction fuel with
  | zero => exact fun _ _ _ => rfl
  | succ fuel ih =>
    intro s i n
    have hval (v : Nat) : sansLogs (setCtrVal s i v) = sansLogs s := rfl
    have hcfg (d : Dev) (v : Nat) : sansLogs (setCtrCfg d i v) = sansLogs d := rfl
    unfold ctrAdd
    dsimp only
    split
    · exact hval _
    · split <;> split <;> simp only [ih, sansLogs_raise, hcfg, hval]

@[simp] theorem sansLogs_countEv (b k ev n : Nat) : sansLogs (countEv s b k ev n) = sansLogs s := by
  refine sansLogs_foldl _ (fun s i => ?_) _ _
  split
  · exact sansLogs_ctrAdd _ _ _ _
  · rfl

@[simp] theorem sansLogs_countBank (n ev k : Nat) : sansLogs (countBank s n ev k) = sansLogs s := by
  unfold countBank
  split
  · rfl
  · exact sansLogs_countEv _ _ _ _ _

@[simp] theorem sansLogs_countImg (k ev n : Nat) : sansLogs (countImg s k ev n) = sansLogs s := by
  unfold countImg
  split
  · rfl
  · exact sansLogs_countEv _ _ _ _ _

@[simp] theorem sansLogs_countCore (t ev : Nat) : sansLogs (countCore s t ev) = sansLogs s := by
  refine sansLogs_foldl _ (fun s i => ?_) _ _
  have hadd (p : Prop) [Decidable p] : sansLogs (if p then ctrAdd 32 s i 1 else s) = sansLogs s := by
    split
    · exact sansLogs_ctrAdd _ _ _ _
    · rfl
  exact hadd _

/-! ## Trace and snapshots -/

theorem sansLogs_trcAdmit {s d : Dev} {prio : Nat} {p : List Byte} (h : trcAdmit s prio p = some d) : sansLogs d = sansLogs s := by
  simp only [trcAdmit] at h
  split at h
  · cases h
  · obtain rfl := Option.some.inj h
    rfl

/-- A packet admitted before a source's own, where one is due. -/
theorem sansLogs_due {s d : Dev} {due : Prop} [Decidable due] {prio src : Nat} {p : List Byte} {x : TrcSrc}
    (h : (if due then (trcAdmit s prio p).map (fun s => setTrcSrc s src x) else some s) = some d) : sansLogs d = sansLogs s := by
  split at h
  · obtain ⟨d1, h1, rfl⟩ := Option.map_eq_some_iff.1 h
    exact (sansLogs_setTrcSrc _ _ _).trans (sansLogs_trcAdmit h1)
  · rw [Option.some.inj h]

@[simp] theorem sansLogs_trcSend (src kind : Nat) (p : List Byte) : sansLogs (trcSend s src kind p) = sansLogs s := by
  unfold trcSend
  dsimp only
  split
  · rfl
  · split
    · rfl
    · next s1 h1 =>
      have hloss := sansLogs_due h1
      split
      · exact hloss
      · next s2 h2 =>
        have hsync := sansLogs_due h2
        split
        · exact hsync.trans hloss
        · next s3 h3 => exact (sansLogs_trcAdmit h3).trans (hsync.trans hloss)

@[simp] theorem sansLogs_trcHub (kind : Nat) (p : List Byte) : sansLogs (trcHub s kind p) = sansLogs s := by
  unfold trcHub
  split
  · cases h : trcAdmit s 3 (packet 0x7FF kind p) with
    | none => rfl
    | some d => exact sansLogs_trcAdmit h
  · rfl

@[simp] theorem sansLogs_snapCause (cause : Nat) : sansLogs (snapCause s cause) = sansLogs s := by
  unfold snapCause
  split
  · split
    · split
      · exact sansLogs_ctr _ _
      · exact sansLogs_fincSat _ _ _ _
    · exact sansLogs_fincSat _ _ _ _
  · exact (sansLogs_ctr _ _).trans (sansLogs_fset _ _ _ _)

@[simp] theorem sansLogs_snapTrig (trig cause : Nat) : sansLogs (snapTrig s trig cause) = sansLogs s := by
  unfold snapTrig
  split
  · exact sansLogs_snapCause _ _
  · rfl

@[simp] theorem sansLogs_trcTrigger (kind : Nat) : sansLogs (trcTrigger s kind) = sansLogs s := by
  unfold trcTrigger
  split
  · extract_lets s1 s2 src s3
    have h1 : sansLogs s1 = sansLogs s := sansLogs_trcHub _ _ _
    have h2 : sansLogs s2 = sansLogs s := (sansLogs_fset _ _ _ _).trans h1
    have h3 : sansLogs s3 = sansLogs s := (sansLogs_trc _ _).trans h2
    exact (sansLogs_snapTrig _ _ _).trans h3
  · rfl

/-! ## Sampler records -/

@[simp] theorem sansLogs_smpStore (r : SRec) : sansLogs (smpStore s r) = sansLogs s := by
  unfold smpStore
  extract_lets r1 s1 src s2
  have h1 : sansLogs s1 = sansLogs s := sansLogs_fincWrap _ _ _ _
  have h2 : sansLogs s2 = sansLogs s := by
    simp only [s2]
    split
    · exact (sansLogs_smp _ _).trans h1
    · exact h1
  clear_value s2
  split
  · rfl
  · split
    · exact (sansLogs_smp _ _).trans h2
    · split
      · exact (sansLogs_smp _ _).trans h2
      · exact (sansLogs_fincSat _ _ _ _).trans h2

@[simp] theorem sansLogs_smpRecord (r : SRec) : sansLogs (smpRecord s r) = sansLogs s := by
  unfold smpRecord
  extract_lets s0
  have h0 : sansLogs s0 = sansLogs s := by
    simp only [s0]
    split
    · exact sansLogs_trcTrigger _ _
    · rfl
  clear_value s0
  split
  · rw [sansLogs_smpStore, h0]
  · split
    · exact (sansLogs_smp _ _).trans h0
    · exact (sansLogs_smp _ _).trans h0
    · rw [sansLogs_smpStore, h0]

@[simp] theorem sansLogs_logRec (sev block inst code : Nat) (payload : List Nat) : sansLogs (logRec s sev block inst code payload) = sansLogs s :=
  sansLogs_smpRecord _ _

@[simp] theorem sansLogs_logLimited (sev block inst code : Nat) (payload : List Nat) :
    sansLogs (logLimited s sev block inst code payload) = sansLogs s := by
  unfold logLimited
  extract_lets fresh
  clear_value fresh
  cases fresh with
  | some n => exact (sansLogs_smp _ _).trans (sansLogs_smpRecord _ _)
  | none =>
    dsimp only
    split
    · rfl
    · exact sansLogs_smp _ _

end

end Sys2Proof.Machine
end

section
/-! PROOFS. Line tables: what an access by software reads and writes (03 R106, 21 R707). -/
namespace Sys2Proof.Machine

/-! ## Entries -/

theorem imgSt_of_img {a b : Dev} (h : b.img = a.img) (k : Nat) : imgSt b k = imgSt a k := by
  simp only [imgSt, h]

theorem ltEntry_of_imgSt {a b : Dev} {k : Nat} (h : imgSt b k = imgSt a k) (l : Nat) : ltEntry b k l = ltEntry a k l := by
  simp only [ltEntry, h]

theorem ltEntry_of_img {a b : Dev} (h : b.img = a.img) (k l : Nat) : ltEntry b k l = ltEntry a k l := ltEntry_of_imgSt (imgSt_of_img h k) l

/-- The 39 bits of an entry that the line table holds (R95). -/
def heldEntry (e : Word) : Word := BitVec.ofNat 64 (e.toNat % 2 ^ 39)

/-- A write changes its own entry and keeps what an unlisted entry reads as. -/
theorem ltEntry_setLtEntry (s : Dev) (k line l : Nat) (e : Word) :
    ltEntry (setLtEntry s k line e) k l = if l = line then heldEntry e else ltEntry s k l := by
  simp only [ltEntry, setLtEntry, imgSt_setImg_same]
  exact mget_mset _ _ _ _ _

theorem reg_setLtEntry (s : Dev) (k line : Nat) (e : Word) (o : Nat) : reg (setLtEntry s k line e) o = reg s o := rfl

theorem setLtEntry_storage (s : Dev) (k line : Nat) (e : Word) : StorageKept s (setLtEntry s k line e) := storageKept_of_fields rfl rfl rfl

/-! ## The index register -/

/-- IMG_LT_INDEX names the line and the direction of the access. -/
def indexed (s : Dev) (k line w : Nat) : Dev := fset (fset s (IMG_LT_INDEX k) IMG_LT_INDEX_LINE line) (IMG_LT_INDEX k) IMG_LT_INDEX_WRITE w

section
variable (s : Dev) (k line w : Nat)

theorem indexed_regs : RegsKept s (indexed s k line w) [IMG_LT_INDEX k] := (fset_regs _ _ _ _).trans (fset_regs _ _ _ _)

theorem indexed_img : (indexed s k line w).img = s.img := (fset_img _ _ _ _).trans (fset_img _ _ _ _)

theorem indexed_storage : StorageKept s (indexed s k line w) := (fset_storage _ _ _ _).trans (fset_storage _ _ _ _)

/-- An error bit set after the index register was written. -/
theorem indexed_error_regs (f : Nat × Nat) (n : Nat) :
    RegsKept s (fset (indexed s k line w) (IMG_ERR k) f n) [IMG_LT_INDEX k, IMG_ERR k] := by
  intro o ho
  simp only [List.mem_cons, List.not_mem_nil, or_false, not_or] at ho
  rw [reg_fset_ne _ _ _ ho.2, indexed_regs _ _ _ _ _ (by simpa using ho.1)]

end

/-! ## The two accesses -/

/-- An access by software reaches the table of a powered controller whose DONE is 1. -/
theorem exec_ltRead {s : State} {k : CtlId} (hon : domOn s.dev (24 + 3 * k.val) = true) (line : Fin 131072) :
    exec (.ltRead k line) s =
      .next { s with dev := if fbit s.dev (IMG_LT_INDEX k.val) IMG_LT_INDEX_DONE then ltRead s.dev k.val line.val else s.dev } := by
  have harm : exec (.ltRead k line) s =
      onDev s (fun d => whenOn d (24 + 3 * k.val) (whenDone (IMG_LT_INDEX k.val) IMG_LT_INDEX_DONE (fun d => ltRead d k.val line.val))) := rfl
  simp only [harm, onDev, whenOn, hon, whenDone, if_true]

theorem exec_ltWrite {s : State} {k : CtlId} (hon : domOn s.dev (24 + 3 * k.val) = true) (line : Fin 131072) :
    exec (.ltWrite k line) s =
      .next { s with dev := if fbit s.dev (IMG_LT_INDEX k.val) IMG_LT_INDEX_DONE then ltWrite s.dev k.val line.val else s.dev } := by
  have harm : exec (.ltWrite k line) s =
      onDev s (fun d => whenOn d (24 + 3 * k.val) (whenDone (IMG_LT_INDEX k.val) IMG_LT_INDEX_DONE (fun d => ltWrite d k.val line.val))) := rfl
  simp only [harm, onDev, whenOn, hon, whenDone, if_true]

/-- Every register of the device but those of a larger list is as it was. -/
theorem RegsKept.mono {a b : Dev} {l m : List Nat} (h : RegsKept a b l) (hlm : ∀ o ∈ l, o ∈ m) : RegsKept a b m :=
  fun o ho => h o (fun hm => ho (hlm o hm))

section
variable {s : Dev} {k : Nat} (line : Nat)

theorem ltRead_eq : ltRead s k line = fset (indexed s k line 0) (IMG_LT_DATA k) IMG_LT_DATA_ENTRY (ltEntry s k line).toNat := rfl

theorem ltRead_img : (ltRead s k line).img = s.img := (fset_img _ _ _ _).trans (indexed_img _ _ _ _)

theorem ltRead_regs : RegsKept s (ltRead s k line) [IMG_LT_INDEX k, IMG_LT_DATA k] := by
  rw [ltRead_eq]
  exact ((indexed_regs _ _ _ _).mono (by simp)).trans ((fset_regs _ _ _ _).mono (by simp))

/-- A write to the table of a controller that is not enabled, of a policy that exists. -/
theorem ltWrite_of_written (hoff : fbit s (IMG_CTRL k) IMG_CTRL_ENABLE = false) (hpol : bitsOf (reg s (IMG_LT_DATA k)) E_POL ≠ 3) :
    ltWrite s k line = setLtEntry (indexed s k line 1) k line (reg s (IMG_LT_DATA k)) := by
  simp only [ltWrite, hoff, hpol, if_false, Bool.false_eq_true, indexed]

/-- A write of POL 0b11 is dropped with BAD_POLICY, and with LT_RUNNING too where the controller is enabled. -/
theorem ltWrite_of_badPolicy (hpol : bitsOf (reg s (IMG_LT_DATA k)) E_POL = 3) :
    ltWrite s k line =
      if fbit s (IMG_CTRL k) IMG_CTRL_ENABLE then
        fset (fset (indexed s k line 1) (IMG_ERR k) IMG_ERR_BAD_POLICY 1) (IMG_ERR k) IMG_ERR_LT_RUNNING 1
      else fset (indexed s k line 1) (IMG_ERR k) IMG_ERR_BAD_POLICY 1 := by
  simp only [ltWrite, hpol, if_true, indexed]

/-- A write of another policy to the table of an enabled controller is dropped with LT_RUNNING. -/
theorem ltWrite_of_running (hon : fbit s (IMG_CTRL k) IMG_CTRL_ENABLE = true) (hpol : bitsOf (reg s (IMG_LT_DATA k)) E_POL ≠ 3) :
    ltWrite s k line = fset (indexed s k line 1) (IMG_ERR k) IMG_ERR_LT_RUNNING 1 := by
  simp only [ltWrite, hon, hpol, if_true, if_false, indexed]

end

/-- What every dropped write leaves: the table, storage, and every register but the index and the error bits. -/
structure LtDropped (a b : Dev) (k : Nat) : Prop where
  entries : ∀ l, ltEntry b k l = ltEntry a k l
  regs : RegsKept a b [IMG_LT_INDEX k, IMG_ERR k]
  storage : StorageKept a b

theorem ltDropped_error (s : Dev) (k line : Nat) (f : Nat × Nat) (n : Nat) : LtDropped s (fset (indexed s k line 1) (IMG_ERR k) f n) k :=
  ⟨ltEntry_of_img ((fset_img _ _ _ _).trans (indexed_img _ _ _ _)) k, indexed_error_regs _ _ _ _ _ _, (indexed_storage _ _ _ _).trans (fset_storage _ _ _ _)⟩

theorem LtDropped.error {a b : Dev} {k : Nat} (h : LtDropped a b k) (f : Nat × Nat) (n : Nat) : LtDropped a (fset b (IMG_ERR k) f n) k :=
  ⟨fun l => (ltEntry_of_img (fset_img _ _ _ _) k l).trans (h.entries l), h.regs.trans ((fset_regs _ _ _ _).mono (by simp)), h.storage.trans (fset_storage _ _ _ _)⟩

/-- A dropped write sets the bit of each reason there is (log 42). -/
theorem ltWrite_dropped {s : Dev} {k : Nat} (line : Nat)
    (hdrop : bitsOf (reg s (IMG_LT_DATA k)) E_POL = 3 ∨ fbit s (IMG_CTRL k) IMG_CTRL_ENABLE = true) :
    LtDropped s (ltWrite s k line) k ∧
    (bitsOf (reg s (IMG_LT_DATA k)) E_POL = 3 → fbit (ltWrite s k line) (IMG_ERR k) IMG_ERR_BAD_POLICY = true) ∧
    (fbit s (IMG_CTRL k) IMG_CTRL_ENABLE = true → fbit (ltWrite s k line) (IMG_ERR k) IMG_ERR_LT_RUNNING = true) := by
  by_cases hpol : bitsOf (reg s (IMG_LT_DATA k)) E_POL = 3
  · rw [ltWrite_of_badPolicy line hpol]
    have hbad := fbit_fset_one (indexed s k line 1) (IMG_ERR k) (i := 1) (by decide)
    split
    · refine ⟨(ltDropped_error s k line _ _).error _ _, fun _ => ?_, fun _ => fbit_fset_one _ _ (by decide)⟩
      rw [fbit, fget_fset_field _ _ _ _ _ (by decide) (by decide) (by decide) (by decide) (by decide)]
      exact hbad
    · next hoff => exact ⟨ltDropped_error s k line _ _, fun _ => hbad, fun hon => absurd hon hoff⟩
  · have hon := hdrop.resolve_left hpol
    rw [ltWrite_of_running line hon hpol]
    exact ⟨ltDropped_error s k line _ _, fun h => absurd h hpol, fun _ => fbit_fset_one _ _ (by decide)⟩

/-- Settles O35: a read copies the entry, a write puts 39 bits into its own entry, and a dropped write sets its error bits alone. -/
theorem lineTableAccess : Obligations.LineTableAccess := by
  intro s k line hon
  have hread := exec_ltRead hon line
  have hwrite := exec_ltWrite hon line
  refine ⟨fun hbusy => ?_, fun hdone => ?_⟩
  · rw [hbusy] at hread hwrite
    simpa only [List.forall_mem_cons, List.not_mem_nil, false_imp_iff, implies_true, and_true] using ⟨hread, hwrite⟩
  rw [hdone, if_pos rfl] at hread hwrite
  refine ⟨⟨_, hread, ?_, ltEntry_of_img (ltRead_img line.val) k.val, ltRead_regs line.val, ?_⟩, fun hoff hpol => ⟨_, hwrite, ?_⟩,
    fun hpol => ⟨_, hwrite, ?_⟩, fun hen => ⟨_, hwrite, ?_⟩⟩
  · rw [ltRead_eq]
    exact fget_fset_same _ _ _ _ (by decide) (by decide)
  · rw [ltRead_eq]
    exact (indexed_storage _ _ _ _).trans (fset_storage _ _ _ _)
  · rw [ltWrite_of_written line.val hoff hpol]
    refine ⟨?_, fun l hl => ?_, ?_, (indexed_storage _ _ _ _).trans (setLtEntry_storage _ _ _ _)⟩
    · rw [ltEntry_setLtEntry, if_pos rfl, heldEntry]
    · rw [ltEntry_setLtEntry, if_neg hl, ltEntry_of_img (indexed_img _ _ _ _)]
    · exact fun o ho => (reg_setLtEntry _ _ _ _ _).trans (indexed_regs _ _ _ _ o ho)
  · obtain ⟨hkept, hbad, -⟩ := ltWrite_dropped line.val (.inl hpol)
    exact ⟨hbad hpol, hkept.entries, hkept.regs, hkept.storage⟩
  · obtain ⟨hkept, -, hrunning⟩ := ltWrite_dropped line.val (.inr hen)
    exact ⟨hrunning hen, hkept.entries, hkept.regs, hkept.storage⟩

end Sys2Proof.Machine
end

section
/-! PROOFS. Abandoning a cycle and the sweeper (03 R107 to R111). -/
namespace Sys2Proof.Machine

/-! ## What devices that agree but for their logs share -/

section
variable {a b : Dev} (h : sansLogs b = sansLogs a)
include h

theorem img_of_sansLogs : b.img = a.img := (congrArg Dev.img h :)
theorem threads_of_sansLogs : b.threads = a.threads := (congrArg Dev.threads h :)
theorem storage_of_sansLogs : StorageKept a b :=
  storageKept_of_fields (congrArg Dev.mem h :) (congrArg Dev.tags h :) (congrArg Dev.poison h :)

end

/-! ## The fill stamp (R97) -/

theorem imgClass_lt (s : Dev) (k : Nat) : imgClass s k < 8 := bitsOf_lt _ _

/-- The fill stamp follows the class of the controller and that class's number. -/
theorem fillStamp_of_regs {a b : Dev} {l : List Nat} (h : RegsKept a b l) {k : Nat} (hctrl : IMG_CTRL k ∉ l) (hnum : ∀ c < 8, CYC_NUMBER c ∉ l) :
    fillStamp b k = fillStamp a k := by
  have hclass : imgClass b k = imgClass a k := by simp only [imgClass, fget, h _ hctrl]
  simp only [fillStamp, classStamp, hclass, h _ (hnum _ (imgClass_lt a k))]

/-! ## An abandon (R107, R108) -/

/-- IMG_ABANDON of an abandon that is accepted. -/
def abandonHeld (s : Dev) (k a regions stamp : Nat) : Dev :=
  fset (fset (fset s (IMG_ABANDON k a) IMG_ABANDON_REGIONS regions) (IMG_ABANDON k a) IMG_ABANDON_STAMP stamp) (IMG_ABANDON k a) IMG_ABANDON_BUSY 1

section
variable (s : Dev) (k a regions stamp : Nat)

theorem abandonHeld_regs : RegsKept s (abandonHeld s k a regions stamp) [IMG_ABANDON k a] :=
  ((fset_regs _ _ _ _).trans (fset_regs _ _ _ _)).trans (fset_regs _ _ _ _)

theorem abandonHeld_storage : StorageKept s (abandonHeld s k a regions stamp) :=
  ((fset_storage _ _ _ _).trans (fset_storage _ _ _ _)).trans (fset_storage _ _ _ _)

theorem busy_abandonHeld : fbit (abandonHeld s k a regions stamp) (IMG_ABANDON k a) IMG_ABANDON_BUSY = true := fbit_fset_one _ _ (by decide)

theorem regions_abandonHeld : fget (abandonHeld s k a regions stamp) (IMG_ABANDON k a) IMG_ABANDON_REGIONS = regions % 8 := by
  rw [abandonHeld, fget_fset_field _ _ _ _ _ (by decide) (by decide) (by decide) (by decide) (by decide),
    fget_fset_field _ _ _ _ _ (by decide) (by decide) (by decide) (by decide) (by decide), fget_fset_same _ _ _ _ (by decide) (by decide)]
  rfl

theorem stamp_abandonHeld : fget (abandonHeld s k a regions stamp) (IMG_ABANDON k a) IMG_ABANDON_STAMP = stamp % 65536 := by
  rw [abandonHeld, fget_fset_field _ _ _ _ _ (by decide) (by decide) (by decide) (by decide) (by decide), fget_fset_same _ _ _ _ (by decide) (by decide)]
  rfl

/-- The controller's own record of an accepted abandon: when it began, and the mask that drops late writes. -/
def abandonNoted (s : Dev) (k a regions stamp : Nat) : Dev :=
  setImg s k { imgSt s k with abandonAt := listSet (imgSt s k).abandonAt a s.smp.op, abandoned := (imgSt s k).abandoned ++ [(stamp, regions)] }

theorem abandonWrite_of_accepted (hstamp : stamp = fillStamp s k) (hfree : fbit s (IMG_ABANDON k a) IMG_ABANDON_BUSY = false) :
    abandonWrite s k a regions stamp = abandonNoted (abandonHeld s k a regions stamp) k a regions stamp := if_pos ⟨hstamp, hfree⟩

theorem abandonWrite_of_refused (h : stamp ≠ fillStamp s k ∨ fbit s (IMG_ABANDON k a) IMG_ABANDON_BUSY = true) :
    abandonWrite s k a regions stamp = logLimited (fset s (IMG_ERR k) IMG_ERR_ABANDON_REFUSED 1) WARNING SB_IMG k 0x0301 [] := by
  refine if_neg fun hc => ?_
  obtain ⟨hstamp, hfree⟩ := hc
  exact h.elim (fun hne => hne hstamp) (fun hbusy => by rw [hfree] at hbusy; cases hbusy)

theorem reg_abandonNoted (o : Nat) : reg (abandonNoted s k a regions stamp) o = reg s o := rfl
theorem fget_abandonNoted (o : Nat) (f : Nat × Nat) : fget (abandonNoted s k a regions stamp) o f = fget s o f := rfl
theorem fbit_abandonNoted (o : Nat) (f : Nat × Nat) : fbit (abandonNoted s k a regions stamp) o f = fbit s o f := rfl

theorem abandonNoted_storage : StorageKept s (abandonNoted s k a regions stamp) := storageKept_of_fields rfl rfl rfl

/-- After an abandon of the fill stamp, writes to the regions of its mask are late. -/
theorem lateRegion_abandonNoted (hstamp : stamp = fillStamp s k) {r : Nat} (hr : nbit regions r = true) :
    lateRegion (abandonNoted s k a regions stamp) k r = true := by
  have hsame : fillStamp (abandonNoted s k a regions stamp) k = fillStamp s k :=
    fillStamp_of_regs (l := []) (fun o _ => reg_abandonNoted s k a regions stamp o) (List.not_mem_nil) (fun _ _ => List.not_mem_nil)
  have himg : (imgSt (abandonNoted s k a regions stamp) k).abandoned = (imgSt s k).abandoned ++ [(stamp, regions)] := by
    simp only [abandonNoted, imgSt_setImg_same]
  simp only [lateRegion, himg, hsame, List.any_append, List.any_cons, ← hstamp, hr, beq_self_eq_true, Bool.and_self, Bool.true_or, Bool.or_true]

end

theorem IMG_CTRL_ne_IMG_ABANDON (k : Nat) {a : Nat} (ha : a < 2) : IMG_CTRL k ≠ IMG_ABANDON k a := by
  simp only [IMG_CTRL, IMG_ABANDON]
  omega

theorem CYC_NUMBER_lt_IMG {c : Nat} (hc : c < 8) : CYC_NUMBER c < 0x300000 := by
  simp only [CYC_NUMBER]
  omega

theorem fillStamp_abandonHeld (s : Dev) (k : Nat) {a : Nat} (ha : a < 2) (regions stamp : Nat) :
    fillStamp (abandonHeld s k a regions stamp) k = fillStamp s k := by
  refine fillStamp_of_regs (abandonHeld_regs s k a regions stamp) (by simpa using IMG_CTRL_ne_IMG_ABANDON k ha) fun c hc => ?_
  have hlt := CYC_NUMBER_lt_IMG hc
  simp only [List.mem_singleton, IMG_ABANDON]
  omega

theorem IMG_ABANDON_ne_IMG_ERR (k : Nat) {a : Nat} (ha : a < 2) : IMG_ABANDON k a ≠ IMG_ERR k := by
  simp only [IMG_ABANDON, IMG_ERR]
  omega

/-- The registers of the image controllers lie below those that a record may write. -/
theorem not_samplerReg_of_lt {o : Nat} (h : o < 0x400000) : o ∉ SamplerRegs := by
  simp only [SamplerRegs, MetaRegs, SMP_STATUS, SMP_DROPPED, TRC_STATUS, CTR_CTRL, CTR_STATUS, List.mem_cons, List.not_mem_nil, or_false]
  omega

theorem IMG_ERR_lt (k : CtlId) : IMG_ERR k.val < 0x400000 := by
  simp only [IMG_ERR]
  omega

theorem IMG_ABANDON_lt (k : CtlId) (a : Fin 2) : IMG_ABANDON k.val a.val < 0x400000 := by
  simp only [IMG_ABANDON]
  omega

theorem exec_abandon {s : State} {k : CtlId} (hon : domOn s.dev (24 + 3 * k.val) = true) (who : Agent) (a : Fin 2) (regions : BitVec 3) (stamp : BitVec 16) :
    exec (.abandon who k a regions stamp) s = .next { s with dev := abandonWrite s.dev k.val a.val regions.toNat stamp.toNat } := by
  have harm : exec (.abandon who k a regions stamp) s =
      onDev s (fun d => whenOn d (24 + 3 * k.val) (fun d => abandonWrite d k.val a.val regions.toNat stamp.toNat)) := rfl
  simp only [harm, onDev, whenOn, hon, if_true]

/-! ## The end of an abandon (R109) -/

/-- The repairs of a pass touch line tables alone, and leave the abandons that wait. -/
structure LinesOnly (a b : Dev) (k : Nat) : Prop where
  dev : b = { a with img := b.img }
  abandonWait : (imgSt b k).abandonWait = (imgSt a k).abandonWait

theorem LinesOnly.refl (a : Dev) (k : Nat) : LinesOnly a a k := ⟨rfl, rfl⟩

theorem LinesOnly.trans {a b c : Dev} {k : Nat} (h : LinesOnly a b k) (g : LinesOnly b c k) : LinesOnly a c k :=
  ⟨g.dev.trans (by rw [h.dev]), g.abandonWait.trans h.abandonWait⟩

theorem setLtEntry_lines (s : Dev) (k line : Nat) (e : Word) : LinesOnly s (setLtEntry s k line e) k :=
  ⟨rfl, by simp only [setLtEntry, imgSt_setImg_same]⟩

theorem repairAll_lines (s : Dev) (k : Nat) : LinesOnly s (repairAll s k) k := by
  unfold repairAll
  extract_lets x
  generalize x.lt = l
  clear x
  induction l generalizing s with
  | nil => exact .refl s k
  | cons e l ih =>
    rw [List.foldl_cons]
    refine LinesOnly.trans ?_ (ih _)
    split
    · split
      · exact setLtEntry_lines _ _ _ _
      · exact .refl s k
    · exact .refl s k

/-- A value that enters a phase moves the Sampler alone, and not its clock. -/
theorem phaseValue_eq (s : Dev) (kind q : Nat) (v : Int) : ∃ x : SmpSt, phaseValue s kind q v = { s with smp := x } ∧ x.op = s.smp.op := by
  have hsame : ∃ x : SmpSt, s = { s with smp := x } ∧ x.op = s.smp.op := ⟨s.smp, rfl, rfl⟩
  unfold phaseValue
  extract_lets upd
  split
  · split
    · exact ⟨_, rfl, rfl⟩
    · exact hsame
  · split
    · split
      · exact ⟨_, rfl, rfl⟩
      · exact hsame
    · exact hsame

theorem fbit_smp (s : Dev) (x : SmpSt) (o : Nat) (f : Nat × Nat) : fbit { s with smp := x } o f = fbit s o f := rfl

/-- The device when the pass after an abandon is over: time has come there, the lines are repaired, BUSY is 0. -/
def passOver (s : Dev) (k a : Nat) (time op : Nat) : Dev := fset (repairAll (atTime s time op) k) (IMG_ABANDON k a) IMG_ABANDON_BUSY 0

section
variable (s : Dev) (k a time op : Nat)

theorem passOver_eq : ∃ m, repairAll (atTime s time op) k = { atTime s time op with img := m } := ⟨_, (repairAll_lines _ k).dev⟩

theorem passOver_op : (passOver s k a time op).smp.op = op := by
  obtain ⟨m, hm⟩ := passOver_eq s k time op
  rw [passOver, fset_smp, hm]
  rfl

theorem passOver_threads : (passOver s k a time op).threads = s.threads := by
  obtain ⟨m, hm⟩ := passOver_eq s k time op
  rw [passOver, fset_threads, hm]
  rfl

theorem passOver_storage : StorageKept s (passOver s k a time op) := by
  obtain ⟨m, hm⟩ := passOver_eq s k time op
  rw [passOver, hm]
  exact StorageKept.trans (storageKept_of_fields rfl rfl rfl) (fset_storage _ _ _ _)

theorem abandonWait_passOver : (imgSt (passOver s k a time op) k).abandonWait = (imgSt s k).abandonWait :=
  (congrArg ImgSt.abandonWait (imgSt_fset _ _ _ _ _)).trans (repairAll_lines _ k).abandonWait

end

/-- With no abandon waiting, the end of a pass is the repaired device with BUSY clear, and a value of the phase in course. -/
theorem abandonSweepDone_eq {s : Dev} {k a time op : Nat} (hbusy : fbit s (IMG_ABANDON k a) IMG_ABANDON_BUSY = true)
    (hwait : (imgSt s k).abandonWait = []) (hadvance : advanceOp s ((imgSt s k).abandonAt.getD a 0 + 32768 * clockUnits) = atTime s time op) :
    ∃ v, abandonSweepDone s k a = phaseValue (passOver s k a time op) 3 1 v := by
  have hnone := (abandonWait_passOver s k a time op).trans hwait
  unfold abandonSweepDone
  rw [if_pos hbusy, hadvance]
  simp only [passOver] at hnone ⊢
  simp only [hnone]
  exact ⟨_, rfl⟩

theorem exec_abandonSweepDone {s : State} {k : CtlId} {a : Fin 2} (hbusy : fbit s.dev (IMG_ABANDON k.val a.val) IMG_ABANDON_BUSY = true)
    (hwait : (imgSt s.dev k.val).abandonWait = []) :
    ∃ (time op : Nat) (x : SmpSt), (imgSt s.dev k.val).abandonAt.getD a.val 0 + 32768 * clockUnits ≤ op ∧ x.op = op ∧
      exec (.abandonSweepDone k a) s = .next { s with dev := { passOver s.dev k.val a.val time op with smp := x } } := by
  have harm : exec (.abandonSweepDone k a) s = .next { s with dev := abandonSweepDone s.dev k.val a.val } := rfl
  obtain ⟨time, op, hadvance, hop⟩ := advanceOp_eq_atTime s.dev ((imgSt s.dev k.val).abandonAt.getD a.val 0 + 32768 * clockUnits)
  obtain ⟨v, hdone⟩ := abandonSweepDone_eq hbusy hwait hadvance
  obtain ⟨x, hphase, hx⟩ := phaseValue_eq (passOver s.dev k.val a.val time op) 3 1 v
  exact ⟨time, op, x, hop, hx.trans (passOver_op _ _ _ _ _), by rw [harm, hdone, hphase]⟩

/-! ## A visit of the sweeper (R110, R111) -/

/-- An entry as the sweeper leaves it under fill stamp `c`: its stamps come to within 32,767 of it. -/
def clampedEntry (c : Nat) (e : Word) : Word :=
  putBits (putBits e E_W (clampStamp c (bitsOf e E_W)).1) E_WP
    (if bitsOf e E_PV = 1 then clampStamp c (bitsOf e E_WP) else (bitsOf e E_WP, false)).1

theorem bitsOf_heldEntry (e : Word) {f : Nat × Nat} (h : f.1 < 39) : bitsOf (heldEntry e) f = bitsOf e f := by
  have hlt : e.toNat % 2 ^ 39 < 2 ^ 64 := by omega
  refine Nat.eq_of_testBit_eq fun i => ?_
  simp only [bitsOf, heldEntry, BitVec.toNat_ofNat, Nat.mod_eq_of_lt hlt, Nat.testBit_mod_two_pow, Nat.testBit_div_two_pow]
  by_cases hi : i < f.1 + 1 - f.2
  · have hi39 : i + f.2 < 39 := by omega
    simp [hi39]
  · simp [hi]

/-- Fields other than the stamps stay. -/
theorem bitsOf_clampedEntry_ne (c : Nat) (e : Word) {f : Nat × Nat} (hf : f.2 ≤ f.1) (hf64 : f.1 < 64) (h : f.1 < 1 ∨ 32 < f.2) :
    bitsOf (clampedEntry c e) f = bitsOf e f := by
  have hW : f.1 < 1 ∨ 16 < f.2 := h.imp id (by omega)
  have hWP : f.1 < 17 ∨ 32 < f.2 := h.imp (by omega) id
  rw [clampedEntry, bitsOf_putBits_ne _ _ (by decide) (by decide) hf hf64 hWP.symm, bitsOf_putBits_ne _ _ (by decide) (by decide) hf hf64 hW.symm]

theorem W_clampedEntry {c : Nat} (hc : c < 65536) (e : Word) :
    bitsOf (clampedEntry c e) E_W = if 32767 ≤ (c + 65536 - bitsOf e E_W) % 65536 then (c + 32769) % 65536 else bitsOf e E_W := by
  have hlt : bitsOf e E_W < 65536 := bitsOf_lt _ _
  rw [clampedEntry, bitsOf_putBits_ne _ _ (by decide) (by decide) (by decide) (by decide) (by decide), bitsOf_putBits_same _ _ (by decide) (by decide)]
  have hwidth : 2 ^ (E_W.1 + 1 - E_W.2) = 65536 := rfl
  simp only [clampStamp, Nat.mod_eq_of_lt hlt, hwidth]
  split
  · omega
  · exact Nat.mod_eq_of_lt hlt

/-- The line table after the visit of one entry. -/
def sweptLines (s : Dev) (k line : Nat) : Dev :=
  if clampedEntry (fillStamp s k) (ltEntry s k line) = ltEntry s k line then s
  else setLtEntry s k line (clampedEntry (fillStamp s k) (ltEntry s k line))

/-- With no abandon in force a visit clamps the entry; what it counts is a log. -/
theorem sansLogs_sweepEntry {s : Dev} {k : Nat} (hquiet : ∀ r st, busyAbandon s k r st = false) (line : Nat) :
    sansLogs (sweepEntry s k line) = sansLogs (sweptLines s k line) := by
  unfold sweepEntry
  extract_lets c e0 e1 w wp e2 n s1
  have he1 : e1 = e0 := by
    simp only [e1, hquiet]
    split <;> rfl
  clear_value e1
  subst he1
  have hs1 : s1 = sweptLines s k line := rfl
  clear_value s1 n
  rw [← hs1]
  split
  · rfl
  · rw [sansLogs_countImg, sansLogs_fincWrap]

/-- The entry of a visit takes the clamped stamps, and no other entry moves. -/
theorem ltEntry_sweptLines (s : Dev) (k line l : Nat) :
    ltEntry (sweptLines s k line) k l = (if l = line then
      (if clampedEntry (fillStamp s k) (ltEntry s k line) = ltEntry s k line then ltEntry s k line
       else heldEntry (clampedEntry (fillStamp s k) (ltEntry s k line))) else ltEntry s k l) := by
  unfold sweptLines
  split
  · split
    · next hl => rw [hl]
    · rfl
  · rw [ltEntry_setLtEntry]

/-- The 39 bits of a swept entry read as the clamped entry's. -/
theorem bitsOf_ltEntry_sweptLines (s : Dev) (k line : Nat) {f : Nat × Nat} (h : f.1 < 39) :
    bitsOf (ltEntry (sweptLines s k line) k line) f = bitsOf (clampedEntry (fillStamp s k) (ltEntry s k line)) f := by
  rw [ltEntry_sweptLines, if_pos rfl]
  split
  · next heq => rw [heq]
  · exact bitsOf_heldEntry _ h

theorem sweptLines_storage (s : Dev) (k line : Nat) : StorageKept s (sweptLines s k line) := by
  unfold sweptLines
  split
  · exact storageKept_of_fields rfl rfl rfl
  · exact setLtEntry_storage _ _ _ _

/-- The sweeper has moved on to line `pos`. -/
def movedOn (s : Dev) (k pos : Nat) : Dev := setImg s k { imgSt s k with sweepPos := pos }

theorem movedOn_storage (s : Dev) (k pos : Nat) : StorageKept s (movedOn s k pos) := storageKept_of_fields rfl rfl rfl

theorem ltEntry_movedOn (s : Dev) (k pos l : Nat) : ltEntry (movedOn s k pos) k l = ltEntry s k l := by
  simp only [ltEntry, movedOn, imgSt_setImg_same]
  rfl

/-- One visit of an enabled controller's sweeper, but for its counts. -/
theorem exec_sweeperVisit_one {s : State} {k : CtlId} (hen : fbit s.dev (IMG_CTRL k.val) IMG_CTRL_ENABLE = true) :
    ∃ d, exec (.sweeperVisit k 1) s = .next { s with dev := d } ∧
      sansLogs d = sansLogs (movedOn (sweepEntry s.dev k.val (imgSt s.dev k.val).sweepPos) k.val (((imgSt s.dev k.val).sweepPos + 1) % 131072)) := by
  have harm : exec (.sweeperVisit k 1) s = .next { s with dev := sweeperVisit s.dev k.val 1 } := rfl
  refine ⟨_, harm, ?_⟩
  simp only [sweeperVisit, hen, if_true, sweep]
  split
  · exact sansLogs_fincWrap _ _ _ _
  · rfl

/-- Agreement but for the logs passes through a move of the sweeper. -/
theorem sansLogs_movedOn {a b : Dev} (h : sansLogs b = sansLogs a) (k pos : Nat) : sansLogs (movedOn b k pos) = sansLogs (movedOn a k pos) := by
  have himg := img_of_sansLogs h
  have hst := imgSt_of_img himg k
  calc sansLogs (movedOn b k pos) = { sansLogs b with img := mset (fun _ => {}) b.img k { imgSt b k with sweepPos := pos } } := rfl
    _ = { sansLogs a with img := mset (fun _ => {}) a.img k { imgSt a k with sweepPos := pos } } := by rw [h, himg, hst]

/-- Settles O36: an accepted abandon fills its register and masks late writes, a refused one leaves it; a pass later BUSY is 0; a visit clamps one entry. -/
theorem abandonAndSweeper : Obligations.AbandonAndSweeper := by
  intro s who k a regions stamp
  refine ⟨fun hon hstamp hfree => ?_, fun hon hrefused => ?_, fun hbusy hwait => ?_, fun hen hquiet => ?_⟩
  · have hregs := abandonHeld_regs s.dev k.val a.val regions.toNat stamp.toNat
    have hfill := hstamp.trans (fillStamp_abandonHeld s.dev k.val a.isLt regions.toNat stamp.toNat).symm
    refine ⟨_, exec_abandon hon who a regions stamp, ?_⟩
    rw [abandonWrite_of_accepted _ _ _ _ _ hstamp hfree]
    rw [fbit_abandonNoted, fget_abandonNoted, fget_abandonNoted]
    refine ⟨busy_abandonHeld _ _ _ _ _, (regions_abandonHeld _ _ _ _ _).trans (Nat.mod_eq_of_lt regions.isLt),
      (stamp_abandonHeld _ _ _ _ _).trans (Nat.mod_eq_of_lt stamp.isLt), fun r hr => lateRegion_abandonNoted _ _ _ _ _ hfill hr, ?_,
      (abandonHeld_storage _ _ _ _ _).trans (abandonNoted_storage _ _ _ _ _)⟩
    exact fun o ho => (reg_abandonNoted _ _ _ _ _ o).trans (hregs o ho)
  · have hlog := logLimited_sampler (fset s.dev (IMG_ERR k.val) IMG_ERR_ABANDON_REFUSED 1) WARNING SB_IMG k.val 0x0301 []
    have himg := img_of_sansLogs (sansLogs_logLimited (fset s.dev (IMG_ERR k.val) IMG_ERR_ABANDON_REFUSED 1) WARNING SB_IMG k.val 0x0301 [])
    obtain ⟨-, hstorage⟩ := hlog.cores
    refine ⟨_, exec_abandon hon who a regions stamp, ?_⟩
    rw [abandonWrite_of_refused _ _ _ _ _ hrefused]
    refine ⟨?_, ?_, himg.trans (fset_img _ _ _ _), (fset_storage _ _ _ _).trans hstorage⟩
    · rw [fbit, fget, hlog.regs _ (not_samplerReg_of_lt (IMG_ERR_lt k))]
      exact fbit_fset_one _ _ (by decide)
    · rw [hlog.regs _ (not_samplerReg_of_lt (IMG_ABANDON_lt k a)), reg_fset_ne _ _ _ (IMG_ABANDON_ne_IMG_ERR k.val a.isLt)]
  · obtain ⟨time, op, x, hop, hx, hexec⟩ := exec_abandonSweepDone hbusy hwait
    have hfree : fbit (passOver s.dev k.val a.val time op) (IMG_ABANDON k.val a.val) IMG_ABANDON_BUSY = false := fbit_fset_zero _ _ (by decide)
    have hthreads := passOver_threads s.dev k.val a.val time op
    have hstorage := passOver_storage s.dev k.val a.val time op
    generalize passOver s.dev k.val a.val time op = p at hexec hfree hthreads hstorage
    exact ⟨_, hexec, (fbit_smp p x _ _).trans hfree, hx.symm ▸ hop, hstorage.trans (storageKept_of_fields rfl rfl rfl), hthreads⟩
  · intro pos e c
    obtain ⟨d, hexec, hd⟩ := exec_sweeperVisit_one (k := k) hen
    have hlines := sansLogs_movedOn (sansLogs_sweepEntry hquiet pos) k.val ((pos + 1) % 131072)
    have himg := img_of_sansLogs (hd.trans hlines)
    have hstorage := storage_of_sansLogs (hd.trans hlines)
    have hentry (l : Nat) : ltEntry d k.val l = ltEntry (sweptLines s.dev k.val pos) k.val l := by
      rw [ltEntry_of_img himg, ltEntry_movedOn]
    have hfield {f : Nat × Nat} (h : f.1 < 39) : bitsOf (ltEntry d k.val pos) f = bitsOf (clampedEntry c e) f := by
      rw [hentry, bitsOf_ltEntry_sweptLines _ _ _ h]
    refine ⟨d, hexec, ?_, ?_, ?_, ?_, ?_, fun l hl => ?_, ?_⟩
    · rw [imgSt_of_img himg, movedOn, imgSt_setImg_same]
    · exact (hfield (by decide)).trans (W_clampedEntry (Nat.mod_lt _ (by decide)) e)
    · rw [hfield (by decide), bitsOf_clampedEntry_ne _ _ (by decide) (by decide) (by decide)]
    · rw [hfield (by decide), bitsOf_clampedEntry_ne _ _ (by decide) (by decide) (by decide)]
    · rw [hfield (by decide), bitsOf_clampedEntry_ne _ _ (by decide) (by decide) (by decide)]
    · rw [hentry, ltEntry_sweptLines, if_neg hl]
    · exact ((sweptLines_storage s.dev k.val pos).trans (movedOn_storage _ _ _)).trans hstorage

end Sys2Proof.Machine
end

section
/-! PROOFS. A thread's access of a plain bank: the request, the bank cycle that performs it, and its answer (03 R82, R83, R86, 02 R30, 01 R13). -/
namespace Sys2Proof.Machine

/-! ## Counting touches no register -/

theorem raise_regs (s : Dev) (src : Nat) : (raise s src).regs = s.regs := by
  unfold raise
  split <;> rfl

theorem ctrAdd_regs (fuel : Nat) : ∀ (s : Dev) (i n : Nat), (ctrAdd fuel s i n).regs = s.regs := by
  induction fuel with
  | zero => exact fun _ _ _ => rfl
  | succ fuel ih =>
    intro s i n
    have hval (v : Nat) : (setCtrVal s i v).regs = s.regs := rfl
    have hcfg (d : Dev) (v : Nat) : (setCtrCfg d i v).regs = d.regs := rfl
    unfold ctrAdd
    dsimp only
    split
    · exact hval _
    · split <;> split <;> simp only [ih, raise_regs, hcfg, hval]

theorem foldl_regs {β : Type} (f : Dev → β → Dev) (hf : ∀ s e, (f s e).regs = s.regs) (l : List β) : ∀ s, (l.foldl f s).regs = s.regs := by
  induction l with
  | nil => exact fun _ => rfl
  | cons e l ih => exact fun s => (ih _).trans (hf s e)

theorem countAt_regs (p : Prop) [Decidable p] (s : Dev) (i n : Nat) : (if p then ctrAdd 32 s i n else s).regs = s.regs := by
  split
  · exact ctrAdd_regs _ _ _ _
  · rfl

theorem countCore_regs (s : Dev) (t ev : Nat) : (countCore s t ev).regs = s.regs := foldl_regs _ (fun _ _ => countAt_regs _ _ _ _) _ _

theorem countBank_regs (s : Dev) (n ev k : Nat) : (countBank s n ev k).regs = s.regs := by
  unfold countBank
  split
  · rfl
  · exact foldl_regs _ (fun _ _ => countAt_regs _ _ _ _) _ _

/-! ## What a bank's own bookkeeping leaves alone -/

/-- Registers, threads and storage are as they were. -/
structure BankOnly (a b : Dev) : Prop where
  regs : b.regs = a.regs
  threads : b.threads = a.threads
  storage : StorageKept a b

namespace BankOnly

theorem refl (a : Dev) : BankOnly a a := ⟨rfl, rfl, storageKept_of_fields rfl rfl rfl⟩

theorem trans {a b c : Dev} (h : BankOnly a b) (k : BankOnly b c) : BankOnly a c :=
  ⟨k.regs.trans h.regs, k.threads.trans h.threads, h.storage.trans k.storage⟩

theorem thr {a b : Dev} (h : BankOnly a b) (t : Nat) : thr b t = Machine.thr a t := by simp only [Machine.thr, h.threads]

theorem fget {a b : Dev} (h : BankOnly a b) (o : Nat) (f : Nat × Nat) : fget b o f = Machine.fget a o f := fget_of_regs h.regs o f

theorem regsKept {a b : Dev} (h : BankOnly a b) : RegsKept a b [] := fun o _ => by simp only [reg, h.regs]

theorem bankMode {a b : Dev} (h : BankOnly a b) (n : Nat) : bankMode b n = Machine.bankMode a n := h.fget _ _

theorem countBank (s : Dev) (n ev k : Nat) : BankOnly s (countBank s n ev k) :=
  ⟨countBank_regs s n ev k, threads_of_sansLogs (sansLogs_countBank s n ev k), storage_of_sansLogs (sansLogs_countBank s n ev k)⟩

theorem countCore (s : Dev) (t ev : Nat) : BankOnly s (countCore s t ev) :=
  ⟨countCore_regs s t ev, threads_of_sansLogs (sansLogs_countCore s t ev), storage_of_sansLogs (sansLogs_countCore s t ev)⟩

theorem setBank (s : Dev) (n : Nat) (x : BankSt) : BankOnly s (setBank s n x) := ⟨rfl, rfl, setBank_storage s n x⟩

theorem setCreditQ (s : Dev) (q : Nat) (x : CreditQ) : BankOnly s (setCreditQ s q x) := ⟨rfl, rfl, setCreditQ_storage s q x⟩

theorem giveCredit (s : Dev) (q : Nat) : BankOnly s (giveCredit s q) := by
  unfold Machine.giveCredit
  dsimp only
  split
  · exact refl s
  · exact setCreditQ _ _ _

end BankOnly

theorem bank_of_banks {a b : Dev} (h : b.banks = a.banks) (n : Nat) : bank b n = bank a n := by simp only [bank, h]

theorem bank_countBank (s : Dev) (m ev k n : Nat) : bank (countBank s m ev k) n = bank s n :=
  bank_of_banks (congrArg Dev.banks (sansLogs_countBank s m ev k) :) n

theorem bank_countCore (s : Dev) (t ev n : Nat) : bank (countCore s t ev) n = bank s n :=
  bank_of_banks (congrArg Dev.banks (sansLogs_countCore s t ev) :) n

theorem bank_giveCredit (s : Dev) (q n : Nat) : bank (giveCredit s q) n = bank s n := by
  unfold giveCredit
  dsimp only
  split <;> rfl

/-! ## A whole tagged word of a plain bank -/

/-- A thread's one access, of a whole tagged word at an aligned address of a plain bank. -/
structure WordAccess (s : Dev) (t n : Nat) (a : Acc) : Prop where
  place : bankOf a.pa = some n
  uncached : a.uncached = true
  aligned : a.pa % 8 = 0
  plain : bankMode s n = 0
  word : a.op = .storeTagged ∨ a.op = .loadTagged
  whole : a.firstDone = false
  only : (thr s t).accs = [a]

section
variable {s : Dev} {t n : Nat} {a : Acc}

theorem WordAccess.bytes (h : WordAccess s t n a) : accBytes a.op = 8 := by
  obtain hop | hop := h.word <;> rw [hop] <;> rfl

theorem WordAccess.atomic (h : WordAccess s t n a) : accIsAtomic a.op = false := by
  obtain hop | hop := h.word <;> rw [hop] <;> rfl

/-- An aligned word lies in one bank, so the access is not split (R92). -/
theorem WordAccess.part (h : WordAccess s t n a) : nextPart a = 0 := by
  have hsplit : accSplit a = 8 := by
    have haligned := h.aligned
    simp only [accSplit, h.bytes, firstPart]
    split
    · rfl
    · omega
  simp only [nextPart, h.whole, hsplit, h.bytes, Bool.false_eq_true, if_false, Nat.lt_irrefl]

/-- A thread with one access changes that access. -/
theorem putAcc_of_only {x : Thread} {a b : Acc} (h : x.accs = [a]) (hid : b.id = a.id) : putAcc x b = { x with accs := [b] } := by
  simp only [putAcc, h, List.map_cons, List.map_nil, hid, if_true]

theorem thr_modThr_putAcc {d : Dev} {b : Acc} (hthr : thr d t = thr s t) (honly : (thr s t).accs = [a]) (hid : b.id = a.id) :
    thr (modThr d t (fun x => putAcc x b)) t = { thr s t with accs := [b] } := by
  rw [thr_modThr_same, hthr, putAcc_of_only honly hid]

theorem modThr_storage (d : Dev) (t : Nat) (f : Thread → Thread) : StorageKept d (modThr d t f) := storageKept_of_fields rfl rfl rfl

/-- A change of the access of a thread, behind the bank's own bookkeeping. -/
theorem BankOnly.others_modThr {d : Dev} (h : BankOnly s d) (t : Nat) (f : Thread → Thread) : OthersKept s (modThr d t f) t :=
  fun u hu => (thr_modThr_ne _ _ hu).trans (h.thr u)

theorem BankOnly.storage_modThr {d : Dev} (h : BankOnly s d) (t : Nat) (f : Thread → Thread) : StorageKept s (modThr d t f) :=
  h.storage.trans (modThr_storage d t f)

/-! ## The request (R82, R83) -/

/-- The bank lets the request in, or answers it with an error. -/
theorem bankRequest_of_credit (h : WordAccess s t n a) (hphase : a.phase = .issued) (hup : bankUp s (some (t / 384)) n = true)
    (hcredit : mayIssue s n = true) :
    bankRequest s t = if plainAllows s n (thrPart s t) (accIsStore a.op) then acceptReq s t a 0 n else refusePart s t a 0 n := by
  have hnext : nextBankAcc s t = some (a, some n) := by
    simp only [nextBankAcc, h.only, List.find?_cons, h.uncached, hphase, beq_self_eq_true, Bool.and_self, h.whole, h.place, Option.map_some,
      Bool.false_eq_true, if_false]
  have htarget : bankTarget s (thrMaster s t) n (reqAddr a 0) (accIsStore a.op) (accIsAtomic a.op) =
      if plainAllows s n (thrPart s t) (accIsStore a.op) then .plain n else .refused := by
    simp only [bankTarget, h.plain, h.atomic, Bool.or_false, thrMaster]
  simp only [bankRequest, hnext, h.part, hup, hcredit, htarget, Bool.not_true, Bool.false_eq_true, if_false]
  cases plainAllows s n (thrPart s t) (accIsStore a.op) <;> rfl

theorem acceptReq_bankOnly (s : Dev) (t : Nat) (a : Acc) (n : Nat) :
    BankOnly s (takeCredit (setBank s n { bank s n with queue := (bank s n).queue ++ [{ thr := t, id := a.id, part := 0 }] }) n) :=
  (BankOnly.setBank _ _ _).trans (BankOnly.setCreditQ _ _ _)

theorem queue_acceptReq (s : Dev) (t : Nat) (a : Acc) (n : Nat) :
    (bank (acceptReq s t a 0 n) n).queue = (bank s n).queue ++ [{ thr := t, id := a.id, part := 0 }] := by
  simp only [acceptReq, takeCredit, bank_modThr, bank_setCreditQ, bank_setBank_same]

theorem out_acceptReq (s : Dev) (t : Nat) (a : Acc) (n : Nat) : (creditQ (acceptReq s t a 0 n) n).out = (creditQ s n).out + 1 := by
  simp only [acceptReq, takeCredit, creditQ_modThr, creditQ_setCreditQ_same, creditQ_setBank]

/-- A plain bank counts a refusal. -/
theorem refusePart_of_plain (h : bankMode s n = 0) :
    refusePart s t a 0 n = modThr (countRefusal s n (thrPart s t)) t (fun x => putAcc x { a with phase := .done, err := some { kind := 0 } }) := by
  have hmode : ¬ bankMode s n = 1 := by omega
  simp only [refusePart, noteRefused, hmode, if_false, failPart, failAcc, thrMaster, show ¬ (0 = 2) by decide]

theorem sansLogs_countRefusal (s : Dev) (n code : Nat) : sansLogs (countRefusal s n code) = sansLogs s :=
  (sansLogs_countBank _ _ _ _).trans ((sansLogs_fset _ _ _ _).trans (sansLogs_fincSat _ _ _ _))

theorem countRefusal_regs (s : Dev) (n code : Nat) : RegsKept s (countRefusal s n code) [BK_STAT n] := by
  intro o ho
  have hcount : reg (countRefusal s n code) o = reg (fset (fincSat s (BK_STAT n) BK_STAT_REFUSED 1) (BK_STAT n) BK_STAT_LAST_REFUSED code) o := by
    simp only [countRefusal, reg, countBank_regs]
  rw [hcount]
  exact ((fset_regs _ _ _ _).trans (fset_regs _ _ _ _)) o ho

/-! ## The bank cycle (R86 to R88) -/

/-- The request of the access, alone at its bank, whose ports are free. -/
structure LoneRequest (s : Dev) (t n : Nat) (a : Acc) (q : BankReq) : Prop extends WordAccess s t n a where
  thread : q.thr = t
  id : q.id = a.id
  part : q.part = 0
  queue : (bank s n).queue = [q]
  occ : (bank s n).occ = []
  uses : (bank s n).uses = []
  clear : fbit s (BK_CTRL n) BK_CTRL_CLEAR_BUSY = false

variable {q : BankReq}

theorem windowBank_of_plain (h : bankMode s n = 0) : windowBank s n = n := by
  simp only [windowBank, h, if_neg (by decide : ¬ 0 = 2)]

theorem LoneRequest.reqAcc (h : LoneRequest s t n a q) : reqAcc s q = some a := by
  simp only [Machine.reqAcc, findAcc, h.thread, h.only, h.id, List.find?_cons, beq_self_eq_true]

theorem LoneRequest.ready (h : LoneRequest s t n a q) : reqReady s n q = true := by
  have horder : accInOrder (thr s q.thr) q.id = true := by
    simp only [accInOrder, h.thread, h.only, h.id, List.all_cons, List.all_nil, Nat.lt_irrefl, decide_false, Bool.and_false, Bool.not_false,
      Bool.true_or, Bool.and_self]
  have hstall : pairStalls s n = false := by simp [pairStalls, h.plain]
  have hbank : reqBank s n q = n := by simp [reqBank, h.plain]
  simp only [reqReady, horder, windowBank_of_plain h.plain, hstall, hbank, h.occ, List.any_nil, beq_self_eq_true, Bool.not_false, Bool.and_self,
    List.any_eq_false.2 (fun _ _ => Bool.false_ne_true)]

theorem LoneRequest.candidates (h : LoneRequest s t n a q) : candidates s n = [.req q] := by
  simp only [Machine.candidates, windowBank_of_plain h.plain, h.queue, h.uses, List.filter_cons, h.ready, if_true, List.filter_nil, List.map_cons,
    List.map_nil, List.append_nil, List.foldr_cons, List.foldr_nil, insCand]

/-- With nobody else at the bank a barred requester keeps its port (R88). -/
theorem replaceBarred_single (s : Dev) (n : Nat) (c : Cand) : replaceBarred s n [c] [c] = [c] := by
  simp only [replaceBarred, List.filter_cons, List.filter_nil]
  split
  · simp
  · rfl

theorem LoneRequest.grants (h : LoneRequest s t n a q) : grants s n = [.req q] := by
  simp only [Machine.grants, h.candidates, h.occ, List.length_nil, Nat.sub_zero, pickPorts, List.any_nil, Bool.false_eq_true, if_false, List.nil_append,
    replaceBarred_single]
  simp

/-- The bank at the end of a cycle, before its accesses are performed: what was granted has left its queue, and the cycle is counted. -/
def cycleCounted (s : Dev) (n : Nat) (c g : List Cand) (darns : Nat) : Dev :=
  countBank (countBank (countBank (bankAfter s n g) n 0x02 g.length) n 0x03 (c.length - g.length)) n 0x05 darns

/-- One bank cycle over what a bank holds: reads before writes (R86, R90). -/
def cyclePerformed (s : Dev) (n : Nat) (c g : List Cand) (darns : Nat) : Dev :=
  (g.filter (candWrites s)).reverse.foldl (performGrant n)
    (passUses ((g.filter (fun c => !(candWrites s c))).foldl (performGrant n) (cycleCounted s n c g darns)) n g)

theorem bankGrant_eq (s : Dev) (n : Nat) (finds : List (Fin 1048576 × Bool)) : ∃ darns, bankGrant s n finds =
    cyclePerformed (finds.foldl (bankFind n) s) n (candidates (finds.foldl (bankFind n) s) n) (grants (finds.foldl (bankFind n) s) n) darns := ⟨_, rfl⟩

theorem LoneRequest.candWrites (h : LoneRequest s t n a q) : candWrites s (.req q) = accIsStore a.op := by
  simp only [Machine.candWrites, reqWrites, h.reqAcc, h.atomic, Bool.or_false]

theorem LoneRequest.bankGrant_of_store (h : LoneRequest s t n a q) (hop : a.op = .storeTagged) :
    ∃ darns, bankGrant s n [] = performGrant n (passUses (cycleCounted s n [.req q] [.req q] darns) n [.req q]) (.req q) := by
  obtain ⟨darns, hgrant⟩ := bankGrant_eq s n []
  have hwrites : Machine.candWrites s (.req q) = true := by rw [h.candWrites, hop]; rfl
  have hneg : ¬ (!Machine.candWrites s (.req q)) = true := by simp [hwrites]
  refine ⟨darns, ?_⟩
  rw [hgrant, List.foldl_nil, h.candidates, h.grants, cyclePerformed, List.filter_cons_of_pos hwrites, List.filter_cons_of_neg (p := fun c => !Machine.candWrites s c) hneg]
  rw [List.filter_nil, List.filter_nil, List.reverse_singleton, List.foldl_cons, List.foldl_nil, List.foldl_nil]

theorem LoneRequest.bankGrant_of_load (h : LoneRequest s t n a q) (hop : a.op = .loadTagged) :
    ∃ darns, bankGrant s n [] = passUses (performGrant n (cycleCounted s n [.req q] [.req q] darns) (.req q)) n [.req q] := by
  obtain ⟨darns, hgrant⟩ := bankGrant_eq s n []
  have hwrites : Machine.candWrites s (.req q) = false := by rw [h.candWrites, hop]; rfl
  have hneg : ¬ Machine.candWrites s (.req q) = true := by simp [hwrites]
  have hpos : (!Machine.candWrites s (.req q)) = true := by simp [hwrites]
  refine ⟨darns, ?_⟩
  rw [hgrant, List.foldl_nil, h.candidates, h.grants, cyclePerformed, List.filter_cons_of_neg hneg, List.filter_cons_of_pos (p := fun c => !Machine.candWrites s c) hpos]
  rw [List.filter_nil, List.filter_nil, List.reverse_nil, List.foldl_nil, List.foldl_cons, List.foldl_nil]

theorem bankAfter_bankOnly (s : Dev) (n : Nat) (g : List Cand) : BankOnly s (bankAfter s n g) := (BankOnly.setBank _ _ _).trans (BankOnly.setBank _ _ _)

theorem cycleCounted_bankOnly (s : Dev) (n : Nat) (c g : List Cand) (darns : Nat) : BankOnly s (cycleCounted s n c g darns) :=
  (((bankAfter_bankOnly s n _).trans (.countBank _ _ _ _)).trans (.countBank _ _ _ _)).trans (.countBank _ _ _ _)

theorem LoneRequest.bank_cycleCounted (h : LoneRequest s t n a q) (darns : Nat) :
    (bank (cycleCounted s n [.req q] [.req q] darns) n).queue = [] ∧ (bank (cycleCounted s n [.req q] [.req q] darns) n).uses = [] := by
  simp only [cycleCounted, bank_countBank, bankAfter, windowBank_of_plain h.plain, h.queue, bank_setBank_same, h.uses, and_true]
  simp

theorem passUses_bankOnly (s : Dev) (n : Nat) (g : List Cand) : BankOnly s (passUses s n g) := BankOnly.setBank _ _ _

theorem bank_passUses (s : Dev) (n : Nat) (g : List Cand) (h : (bank s n).uses = []) : (bank (passUses s n g) n).queue = (bank s n).queue ∧
    (bank (passUses s n g) n).uses = [] := by
  simp only [passUses, bank_setBank_same, h, usesAfter, List.map_nil, List.filter_nil, and_self]

/-! ## The access is performed (02 R30, R31) -/

theorem length_leBytes (n : Nat) : ∀ v, (leBytes n v).length = n := by
  induction n with
  | zero => exact fun _ => rfl
  | succ n ih => exact fun v => congrArg (· + 1) (ih _)

theorem wrBytes_fields (bs : List Byte) : ∀ (s : Dev) (a : Nat), (wrBytes s a bs).tags = s.tags ∧ (wrBytes s a bs).poison = s.poison ∧
    (wrBytes s a bs).threads = s.threads ∧ (wrBytes s a bs).banks = s.banks := by
  induction bs with
  | nil => exact fun _ _ => ⟨rfl, rfl, rfl, rfl⟩
  | cons b bs ih => exact fun s a => ih (wrByte s a b) (a + 1)

theorem markDirty_fields (s : Dev) (a n : Nat) : (markDirty s a n).mem = s.mem ∧ (markDirty s a n).tags = s.tags ∧ (markDirty s a n).poison = s.poison ∧
    (markDirty s a n).threads = s.threads ∧ (markDirty s a n).banks = s.banks := by
  unfold markDirty
  split <;> exact ⟨rfl, rfl, rfl, rfl, rfl⟩

theorem writeWord_threads (s : Dev) (pa : Nat) (v : QWord) : (writeWord s pa v).threads = s.threads := by
  obtain ⟨-, -, -, hmarked, -⟩ := markDirty_fields (setPoison (setTag (wrBytes s pa (leBytes 8 v.val.toNat)) (pa / 8) v.tag) (pa / 8) false) pa 8
  obtain ⟨-, -, hwritten, -⟩ := wrBytes_fields (leBytes 8 v.val.toNat) s pa
  exact hmarked.trans hwritten

theorem writeWord_banks (s : Dev) (pa : Nat) (v : QWord) : (writeWord s pa v).banks = s.banks := by
  obtain ⟨-, -, -, -, hmarked⟩ := markDirty_fields (setPoison (setTag (wrBytes s pa (leBytes 8 v.val.toNat)) (pa / 8) v.tag) (pa / 8) false) pa 8
  obtain ⟨-, -, -, hwritten⟩ := wrBytes_fields (leBytes 8 v.val.toNat) s pa
  exact hmarked.trans hwritten

/-- A word written with its tag is stored, free of poison, and nothing else of storage moves. -/
theorem writeWord_stored (s : Dev) (pa : Nat) (v : QWord) : StoredWord s (writeWord s pa v) pa v := by
  obtain ⟨hmem, htags, hpoison, -, -⟩ := markDirty_fields (setPoison (setTag (wrBytes s pa (leBytes 8 v.val.toNat)) (pa / 8) v.tag) (pa / 8) false) pa 8
  obtain ⟨hbyte, htag, hpois⟩ := storageKept_of_fields hmem htags hpoison
  obtain ⟨hwtags, hwpoison, -, -⟩ := wrBytes_fields (leBytes 8 v.val.toNat) s pa
  have hlen := length_leBytes 8 v.val.toNat
  refine ⟨fun x => (hbyte x).trans ?_, fun w => (htag w).trans ?_, fun w => (hpois w).trans ?_⟩
  · rw [rdByte_setPoison, rdByte_setTag]
    split
    · next hx =>
      have hi : x - pa < (leBytes 8 v.val.toNat).length := by omega
      have hread := rdByte_wrBytes_in _ s pa _ hi
      rw [Nat.add_sub_cancel' hx.1] at hread
      rw [hread, List.getD_eq_getElem _ _ hi]
    · exact rdByte_wrBytes_out _ _ _ _ (by omega)
  · rw [tagAt_setPoison]
    split
    · next hw => rw [hw, tagAt_setTag_same]
    · next hw => rw [tagAt_setTag_ne _ _ hw, tagAt, hwtags, tagAt]
  · by_cases hw : w = pa / 8
    · simp [hw]
    · rw [poisonAt_setPoison_ne _ _ hw, poisonAt_setTag, poisonAt, hwpoison, poisonAt]
      simp [hw]

section
variable {x : Dev}

theorem acceptedTarget_of_plain (hmode : bankMode x n = 0) (hclear : fbit x (BK_CTRL n) BK_CTRL_CLEAR_BUSY = false) (pa : Nat) :
    acceptedTarget x n pa = .plain n := by
  simp only [acceptedTarget, hmode, hclear, Bool.false_eq_true, if_false]

theorem grantWrite_of_word (hmode : bankMode x n = 0) (hclear : fbit x (BK_CTRL n) BK_CTRL_CLEAR_BUSY = false) (halign : a.pa % 8 = 0)
    (hop : a.op = .storeTagged) : grantWrite x q a n = doneAcc (writeWord x a.pa a.data) q.thr a ⟨0, 0⟩ false := by
  have hbytes : accBytes .storeTagged = 8 := rfl
  simp only [grantWrite, acceptedTarget_of_plain hmode hclear, hop, hbytes, halign, beq_self_eq_true, Bool.and_self, if_true]

theorem grantRead_of_word (hmode : bankMode x n = 0) (hclear : fbit x (BK_CTRL n) BK_CTRL_CLEAR_BUSY = false) (halign : a.pa % 8 = 0)
    (huses : (bank x n).uses = []) (hop : a.op = .loadTagged) :
    grantRead x q a n = doneAcc x q.thr a (readTagged x a.pa) (poisonAt x (a.pa / 8)) := by
  have hbytes : accBytes .loadTagged = 8 := rfl
  simp only [grantRead, acceptedTarget_of_plain hmode hclear, hop, hbytes, halign, readView, huses, List.flatMap_nil, List.foldr_nil,
    beq_self_eq_true, Bool.and_self, if_true]

/-- What a granted request finds: its credit has returned, and its core has counted it. -/
def grantCounted (x : Dev) (n : Nat) (q : BankReq) : Dev := countCore (giveCredit x n) q.thr 0x0B

theorem grantCounted_bankOnly (x : Dev) (n : Nat) (q : BankReq) : BankOnly x (grantCounted x n q) :=
  (BankOnly.giveCredit x n).trans (BankOnly.countCore _ _ _)

theorem bank_grantCounted (x : Dev) (n : Nat) (q : BankReq) : bank (grantCounted x n q) n = bank x n :=
  (bank_countCore _ _ _ _).trans (bank_giveCredit _ _ _)

theorem reqAcc_of_threads {y : Dev} (h : y.threads = x.threads) (q : BankReq) : reqAcc y q = reqAcc x q := by
  simp only [reqAcc, thr, h]

theorem performGrant_of_acc (hmode : bankMode x n = 0) (ha : reqAcc x q = some a) : performGrant n x (.req q) =
    if accIsStore a.op || accIsAtomic a.op then grantWrite (grantCounted x n q) q a n else grantRead (grantCounted x n q) q a n := by
  have hacc : reqAcc (giveCredit x n) q = some a := (reqAcc_of_threads (BankOnly.giveCredit x n).threads q).trans ha
  simp only [performGrant, windowBank_of_plain hmode, hacc, grantCounted]

end

/-- A bank that holds nothing, behind what a bank cycle counts. -/
structure CycleReady (s x : Dev) (n : Nat) : Prop where
  kept : BankOnly s x
  queue : (bank x n).queue = []
  uses : (bank x n).uses = []

theorem LoneRequest.cycleCounted_ready (h : LoneRequest s t n a q) (darns : Nat) : CycleReady s (cycleCounted s n [.req q] [.req q] darns) n :=
  have hbank := h.bank_cycleCounted darns
  ⟨cycleCounted_bankOnly _ _ _ _ _, hbank.1, hbank.2⟩

theorem CycleReady.passUses {x : Dev} (h : CycleReady s x n) (g : List Cand) : CycleReady s (passUses x n g) n :=
  have hbank := bank_passUses x n g h.uses
  ⟨h.kept.trans (passUses_bankOnly x n g), hbank.1.trans h.queue, hbank.2⟩

theorem CycleReady.grantCounted {x : Dev} (h : CycleReady s x n) (q : BankReq) : CycleReady s (grantCounted x n q) n :=
  have hbank := bank_grantCounted x n q
  ⟨h.kept.trans (grantCounted_bankOnly x n q), (congrArg BankSt.queue hbank).trans h.queue, (congrArg BankSt.uses hbank).trans h.uses⟩

theorem CycleReady.mode {x : Dev} (h : CycleReady s x n) (hw : WordAccess s t n a) : bankMode x n = 0 := (h.kept.bankMode n).trans hw.plain

theorem CycleReady.clear {x : Dev} (h : CycleReady s x n) (hl : LoneRequest s t n a q) : fbit x (BK_CTRL n) BK_CTRL_CLEAR_BUSY = false := by
  have hclear := hl.clear
  simp only [fbit, h.kept.fget] at hclear ⊢
  exact hclear

theorem CycleReady.performGrant_store {x : Dev} (h : CycleReady s x n) (hl : LoneRequest s t n a q) (hop : a.op = .storeTagged) :
    performGrant n x (.req q) = doneAcc (writeWord (Machine.grantCounted x n q) a.pa a.data) t a ⟨0, 0⟩ false := by
  have hg := h.grantCounted q
  have hstore : (accIsStore a.op || accIsAtomic a.op) = true := by rw [hop]; rfl
  rw [performGrant_of_acc (h.mode hl.toWordAccess) ((reqAcc_of_threads h.kept.threads q).trans hl.reqAcc), if_pos hstore,
    grantWrite_of_word (hg.mode hl.toWordAccess) (hg.clear hl) hl.aligned hop, hl.thread]

theorem CycleReady.performGrant_load {x : Dev} (h : CycleReady s x n) (hl : LoneRequest s t n a q) (hop : a.op = .loadTagged) :
    performGrant n x (.req q) = doneAcc (Machine.grantCounted x n q) t a (readTagged s a.pa) (poisonAt s (a.pa / 8)) := by
  have hg := h.grantCounted q
  have hload : ¬ (accIsStore a.op || accIsAtomic a.op) = true := by rw [hop]; exact Bool.false_ne_true
  obtain ⟨hbyte, htag, hpoison⟩ := hg.kept.storage
  have hread : readTagged (Machine.grantCounted x n q) a.pa = readTagged s a.pa := by
    simp only [readTagged, wordAt, rdBytes, hbyte, htag, hpoison]
  rw [performGrant_of_acc (h.mode hl.toWordAccess) ((reqAcc_of_threads h.kept.threads q).trans hl.reqAcc), if_neg hload,
    grantRead_of_word (hg.mode hl.toWordAccess) (hg.clear hl) hl.aligned hg.uses hop, hl.thread, hread, hpoison]

theorem StoredWord.of_kept {x y z : Dev} {pa : Nat} {v : QWord} (hxy : StorageKept x y) (hstored : StoredWord y z pa v) : StoredWord x z pa v := by
  obtain ⟨hbyte, htag, hpoison⟩ := hxy
  obtain ⟨hb, ht, hp⟩ := hstored
  exact ⟨fun c => by rw [hb, hbyte], fun w => by rw [ht, htag], fun w => by rw [hp, hpoison]⟩

/-- The bank cycle performs a store: the word alone changes. -/
theorem LoneRequest.bankGrant_store (h : LoneRequest s t n a q) (hop : a.op = .storeTagged) :
    (bank (bankGrant s n []) n).queue = [] ∧ StoredWord s (bankGrant s n []) a.pa a.data ∧
      thr (bankGrant s n []) t = { thr s t with accs := [{ a with phase := .done, result := ⟨0, 0⟩, poisoned := false }] } ∧
      OthersKept s (bankGrant s n []) t := by
  obtain ⟨darns, hgrant⟩ := h.bankGrant_of_store hop
  have hready := (h.cycleCounted_ready darns).passUses [.req q]
  have hg := hready.grantCounted q
  rw [hgrant, hready.performGrant_store h hop]
  generalize grantCounted _ n q = y at hg
  have hthreads := (writeWord_threads y a.pa a.data).trans hg.kept.threads
  have hthr (u : Nat) : thr (writeWord y a.pa a.data) u = thr s u := by simp only [thr, hthreads]
  refine ⟨?_, ?_, thr_modThr_putAcc (hthr t) h.only rfl, fun u hu => (thr_modThr_ne _ _ hu).trans (hthr u)⟩
  · exact (congrArg BankSt.queue (bank_of_banks (writeWord_banks y a.pa a.data) n)).trans hg.queue
  · obtain ⟨hb, ht, hp⟩ := StoredWord.of_kept hg.kept.storage (writeWord_stored y a.pa a.data)
    exact ⟨hb, ht, hp⟩

/-- The bank cycle performs a load: storage is as it was. -/
theorem LoneRequest.bankGrant_load (h : LoneRequest s t n a q) (hop : a.op = .loadTagged) :
    (bank (bankGrant s n []) n).queue = [] ∧ StorageKept s (bankGrant s n []) ∧
      thr (bankGrant s n []) t = { thr s t with accs := [{ a with phase := .done, result := readTagged s a.pa, poisoned := poisonAt s (a.pa / 8) }] } ∧
      OthersKept s (bankGrant s n []) t := by
  obtain ⟨darns, hgrant⟩ := h.bankGrant_of_load hop
  have hready := h.cycleCounted_ready darns
  have hg := hready.grantCounted q
  rw [hgrant, hready.performGrant_load h hop]
  generalize grantCounted _ n q = y at hg
  have hd : BankOnly (doneAcc y t a (readTagged s a.pa) (poisonAt s (a.pa / 8))) (passUses (doneAcc y t a (readTagged s a.pa) (poisonAt s (a.pa / 8))) n [.req q]) :=
    passUses_bankOnly _ _ _
  refine ⟨?_, ?_, ?_, ?_⟩
  · exact (bank_passUses (doneAcc y t a _ _) n [.req q] hg.uses).1.trans hg.queue
  · exact (hg.kept.storage_modThr t _).trans hd.storage
  · exact (hd.thr t).trans (thr_modThr_putAcc (hg.kept.thr t) h.only rfl)
  · exact fun u hu => (hd.thr u).trans (hg.kept.others_modThr t _ u hu)

/-! ## The answer (01 R13) -/

theorem resumeExc_of_idle {t : Nat} (hexc : (thr s t).exc = none) (hdeferred : nextDeferred (thr s t) = none) : resumeExc s t = s := by
  simp only [resumeExc, hdeferred, hexc, Option.isSome_none, Bool.and_false, Bool.false_eq_true, if_false, ite_self]

/-- A load that the bank has answered holds its answer for its data's return. -/
theorem uncachedResponse_of_done {t : Thr} (h : WordAccess s t.val n a) (hop : a.op = .loadTagged) (hphase : a.phase = .done) (htrap : a.trap = none)
    (hexc : (thr s t.val).exc = none) (data : Word) (fail : Bool) :
    uncachedResponse s t data fail = setThr s t.val { thr s t.val with accs := [{ a with phase := .returned }] } := by
  have hnext : nextUncached (thr s t.val) = some a := by
    simp only [nextUncached, h.only, List.find?_cons, h.uncached, hphase]
    rfl
  have hload : accIsStore a.op = false := by rw [hop]; rfl
  have hput : modThr s t.val (fun x => putAcc x { a with phase := .returned }) = setThr s t.val { thr s t.val with accs := [{ a with phase := .returned }] } := by
    simp only [modThr, putAcc_of_only h.only]
  simp only [uncachedResponse, hnext, hphase, answered, hload, Bool.false_eq_true, if_false]
  rw [hput]
  refine resumeExc_of_idle ?_ ?_
  · simp only [thr_setThr_same, hexc]
  · simp only [thr_setThr_same, nextDeferred, List.find?_cons, List.find?_nil, htrap, Option.isSome_none, Option.filter_none]


end

/-! ## The commands -/

theorem exec_bankRequest (t : Thr) (s : State) : exec (.bankRequest t) s = .next { s with dev := bankRequest s.dev t.val } := rfl

theorem exec_bankGrant_of_noFind (n : BankId) (s : State) : exec (.bankGrant ⟨n, []⟩) s = .next { s with dev := bankGrant s.dev n.val [] } := rfl

theorem exec_uncachedResponse (t : Thr) (data : Word) (fail : Bool) (s : State) :
    exec (.uncachedResponse t data fail) s = .next { s with dev := uncachedResponse s.dev t data fail } := rfl

/-- Settles O20: a request leaves its bank's own bookkeeping and its access behind, the bank cycle performs it on the one word, and its answer returns. -/
theorem bankAccessOfAThread : Obligations.BankAccessOfAThread := by
  intro s t n a hplace huncached haligned hplain hop hwhole htrap honly
  have hword : WordAccess s.dev t.val n.val a := ⟨hplace, huncached, haligned, hplain, hop, hwhole, honly⟩
  refine ⟨fun hphase hup hcredit => ⟨fun hallow => ?_, fun hrefuse => ?_⟩, fun q hthr hid hpart hqueue hocc huses hclear _ => ?_,
    fun data fail hphase hexc hload => ?_⟩
  · have hreq := bankRequest_of_credit hword hphase hup hcredit
    rw [if_pos hallow] at hreq
    have hkept := acceptReq_bankOnly s.dev t.val a n.val
    rw [exec_bankRequest, hreq]
    exact ⟨_, rfl, queue_acceptReq _ _ _ _, out_acceptReq _ _ _ _, thr_modThr_putAcc (hkept.thr t.val) honly rfl, hkept.others_modThr t.val _,
      hkept.storage_modThr t.val _, hkept.regsKept⟩
  · have hreq := bankRequest_of_credit hword hphase hup hcredit
    rw [if_neg (by simp [hrefuse]), refusePart_of_plain hplain] at hreq
    have hsans := sansLogs_countRefusal s.dev n.val (thrPart s.dev t.val)
    have hthr (u : Nat) : thr (countRefusal s.dev n.val (thrPart s.dev t.val)) u = thr s.dev u := by
      simp only [thr, threads_of_sansLogs hsans]
    rw [exec_bankRequest, hreq]
    refine ⟨_, rfl, ?_, thr_modThr_putAcc (hthr t.val) honly rfl, fun u hu => (thr_modThr_ne _ _ hu).trans (hthr u),
      (storage_of_sansLogs hsans).trans (modThr_storage _ _ _), fun o ho => countRefusal_regs _ _ _ o ho⟩
    exact congrArg BankSt.queue (bank_of_banks (congrArg Dev.banks hsans :) n.val)
  · have hlone : LoneRequest s.dev t.val n.val a q := ⟨hword, hthr, hid, hpart, hqueue, hocc, huses, hclear⟩
    refine ⟨_, exec_bankGrant_of_noFind n s, ?_⟩
    obtain hstore | hload := hop
    · obtain ⟨hempty, hstored, haccs, hothers⟩ := hlone.bankGrant_store hstore
      exact ⟨hempty, fun _ => ⟨hstored, haccs⟩, fun h => absurd (hstore.symm.trans h) (by simp), hothers⟩
    · obtain ⟨hempty, hkept, haccs, hothers⟩ := hlone.bankGrant_load hload
      exact ⟨hempty, fun h => absurd (hload.symm.trans h) (by simp), fun _ => ⟨hkept, haccs⟩, hothers⟩
  · rw [exec_uncachedResponse, uncachedResponse_of_done hword hload hphase htrap hexc]

end Sys2Proof.Machine
end

section
/-! PROOFS. Disabling a bobbin-pair controller over writes that wait for its initialisation (03 R96, R106). -/
namespace Sys2Proof.Machine

theorem fbit_of_regsKept {a b : Dev} {l : List Nat} (h : RegsKept a b l) {o : Nat} (ho : o ∉ l) (f : Nat × Nat) : fbit b o f = fbit a o f := by
  simp only [fbit, fget, h o ho]

/-- A refused access sets IMG_ERR.REFUSED. -/
theorem fbit_refusePair (s : Dev) (k code : Nat) : fbit (refusePair s k code) (IMG_ERR k) IMG_ERR_REFUSED = true := by
  have hother : IMG_ERR k ∉ [BK_STAT (3 * k)] := by
    simp only [List.mem_singleton, IMG_ERR, BK_STAT]
    omega
  exact (fbit_of_regsKept (countRefusal_regs _ _ _) hother _).trans (fbit_fset_one _ _ (by decide))

/-- A controller with ENABLE, INIT_BUSY and RUNNING cleared. -/
def pairStopped (s : Dev) (k : Nat) : Dev :=
  fset (fset (fset s (IMG_CTRL k) IMG_CTRL_ENABLE 0) (IMG_STATUS k) IMG_STATUS_INIT_BUSY 0) (IMG_STATUS k) IMG_STATUS_RUNNING 0

theorem pairStopped_img (s : Dev) (k : Nat) : (pairStopped s k).img = s.img := (fset_img _ _ _ _).trans ((fset_img _ _ _ _).trans (fset_img _ _ _ _))

theorem pairDisable_of_enabled {s : Dev} {k : Nat} (hen : fbit s (IMG_CTRL k) IMG_CTRL_ENABLE = true) : pairDisable s k =
    if (imgSt (pairStopped s k) k).heldWrites.isEmpty then pairStopped s k
    else (imgSt (pairStopped s k) k).heldWrites.foldl (refuseHeld k)
      (setImg (pairStopped s k) k { imgSt (pairStopped s k) k with heldWrites := [] }) := by
  rw [pairDisable, if_pos hen]
  rfl

/-- Disabling refuses a write that waited for the initialisation (R96). -/
theorem fbit_pairDisable_of_held {s : Dev} {k : Nat} {h : HeldWrite} (hen : fbit s (IMG_CTRL k) IMG_CTRL_ENABLE = true)
    (hheld : (imgSt s k).heldWrites = [h]) : fbit (pairDisable s k) (IMG_ERR k) IMG_ERR_REFUSED = true := by
  rw [pairDisable_of_enabled hen, imgSt_of_img (pairStopped_img s k), hheld, if_neg (by simp), List.foldl_cons, List.foldl_nil, refuseHeld]
  exact fbit_refusePair _ _ _

/-- Controller 0 in its initialisation, with one write of a thread waiting for the end of it. -/
def heldWriteDev : Dev :=
  keepWrite (fset (fset (fset { doms := [(24, 2)] } (IMG_CTRL 0) IMG_CTRL_ENABLE 1) (IMG_STATUS 0) IMG_STATUS_RUNNING 1)
    (IMG_STATUS 0) IMG_STATUS_INIT_BUSY 1) 0 { how := 0, region := 0, word := 0 }

theorem heldWriteDev_enabled : domOn heldWriteDev 24 = true ∧ isLocked heldWriteDev .IMG 0 = false ∧
    fbit heldWriteDev (IMG_CTRL 0) IMG_CTRL_ENABLE = true ∧ fbit heldWriteDev (IMG_ERR 0) IMG_ERR_REFUSED = false := by
  decide +kernel

theorem heldWriteDev_holds : (imgSt heldWriteDev 0).heldWrites = [{ how := 0, region := 0, word := 0 }] := by decide +kernel

theorem exec_pairDisable {s : State} {k : CtlId} (hon : domOn s.dev (24 + 3 * k.val) = true) (hlock : isLocked s.dev .IMG k.val = false) (who : Agent) :
    exec (.pairDisable who k) s = .next { s with dev := pairDisable s.dev k.val } := by
  have harm : exec (.pairDisable who k) s = onDev s (fun d => whenOn d (24 + 3 * k.val) (fun d =>
    writeField d who .IMG k.val (IMG_CTRL k.val) IMG_CTRL_ENABLE 0 (fun d => pairDisable d k.val))) := rfl
  rw [harm]
  simp only [onDev, whenOn, hon, writeField, hlock, Bool.false_and, Bool.false_eq_true, if_true, if_false]

/-- Refutes O34: disabling a controller in its initialisation refuses the writes that wait for its end, so IMG_ERR.REFUSED is set and more than IMG_CTRL and
IMG_STATUS changes. -/
theorem not_pairEnableAndInitialisation : ¬ Obligations.PairEnableAndInitialisation := by
  intro h
  obtain ⟨-, -, hdisable, -⟩ := h { dev := heldWriteDev } (.thread 0) 0
  obtain ⟨hon, hlock, hen, hclean⟩ := heldWriteDev_enabled
  obtain ⟨d, hexec, -, -, -, hregs, -⟩ := hdisable hon hlock hen
  have hd : pairDisable heldWriteDev 0 = d :=
    congrArg State.dev (Host.Outcome.next.inj ((exec_pairDisable (s := { dev := heldWriteDev }) (k := 0) hon hlock (.thread 0)).symm.trans hexec))
  have hset : fbit (pairDisable heldWriteDev 0) (IMG_ERR 0) IMG_ERR_REFUSED = true := fbit_pairDisable_of_held hen heldWriteDev_holds
  have hkept : fbit d (IMG_ERR 0) IMG_ERR_REFUSED = fbit heldWriteDev (IMG_ERR 0) IMG_ERR_REFUSED := fbit_of_regsKept hregs (by decide) _
  rw [hd, hkept, hclean] at hset
  exact Bool.false_ne_true hset

end Sys2Proof.Machine
end

section
/-! PROOFS. Enabling and disabling a class (04 R119 to R121). -/
namespace Sys2Proof.Machine

theorem fbit_fset_field {s : Dev} (o : Nat) (f g : Nat × Nat) (n : Nat) (hf : f.2 ≤ f.1) (hf1 : f.1 < 64) (hg : g.2 ≤ g.1) (hg1 : g.1 < 64)
    (h : f.1 < g.2 ∨ g.1 < f.2) : fbit (fset s o f n) o g = fbit s o g := by
  simp only [fbit, fget_fset_field s o f g n hf hf1 hg hg1 h]

theorem CYC_CLASS_CTRL_ne_CYC_SPAN (c : Nat) : CYC_CLASS_CTRL c ≠ CYC_SPAN c := by
  simp only [CYC_CLASS_CTRL, CYC_SPAN]
  omega

/-- The first failing check is one of five (R119). -/
theorem enableCheck_lt (s : Dev) (c : Nat) : enableCheck s c < 16 := by
  unfold enableCheck
  dsimp only
  repeat' split
  all_goals decide

theorem periodNs_pos_of_check {s : Dev} {c : Nat} (h : enableCheck s c = 0) : 0 < periodNs s c := by
  unfold enableCheck at h
  dsimp only at h
  split at h
  · exact absurd h (by decide)
  · next hperiod => exact Nat.mul_pos (by omega) (by decide)

/-- The boundary chosen at an enable is the first of those at or after the epoch that lies more than 10 µs ahead (R120). -/
theorem firstBoundary_spec {s : Dev} {c : Nat} (hperiod : 0 < periodNs s c) : nowNs s + 10000 < boundaryNs s c (firstBoundary s c) ∧
    (firstBoundary s c = 0 ∨ boundaryNs s c (firstBoundary s c - 1) ≤ nowNs s + 10000) := by
  simp only [firstBoundary, boundaryNs]
  split
  · next hepoch => exact ⟨by omega, .inl rfl⟩
  · next hepoch =>
    have hdiv := Nat.div_add_mod (nowNs s + 10000 - (reg s (CYC_EPOCH c)).toNat) (periodNs s c)
    have hmod := Nat.mod_lt (nowNs s + 10000 - (reg s (CYC_EPOCH c)).toNat) hperiod
    rw [Nat.mul_comm] at hdiv
    rw [Nat.add_sub_cancel, Nat.add_mul, Nat.one_mul]
    exact ⟨by omega, .inr (by omega)⟩

/-- The registers of a class whose checks pass, ENABLE set. -/
def enableNoted (s : Dev) (c cost : Nat) : Dev :=
  fset (fset (fset s (CYC_CLASS_CTRL c) CYC_CLASS_CTRL_CHECK 0) (CYC_CLASS_CTRL c) CYC_CLASS_CTRL_ENABLE 1) (CYC_SPAN c) CYC_SPAN_GATHER_COST cost

theorem enableNoted_regs (s : Dev) (c cost : Nat) : RegsKept s (enableNoted s c cost) [CYC_CLASS_CTRL c, CYC_SPAN c] :=
  (((fset_regs _ _ _ _).mono (by simp)).trans ((fset_regs _ _ _ _).mono (by simp))).trans ((fset_regs _ _ _ _).mono (by simp))

theorem enableNoted_storage (s : Dev) (c cost : Nat) : StorageKept s (enableNoted s c cost) :=
  ((fset_storage _ _ _ _).trans (fset_storage _ _ _ _)).trans (fset_storage _ _ _ _)

theorem enableNoted_threads (s : Dev) (c cost : Nat) : (enableNoted s c cost).threads = s.threads :=
  (fset_threads _ _ _ _).trans ((fset_threads _ _ _ _).trans (fset_threads _ _ _ _))

theorem enableNoted_check (s : Dev) (c cost : Nat) : fget (enableNoted s c cost) (CYC_CLASS_CTRL c) CYC_CLASS_CTRL_CHECK = 0 :=
  ((fget_fset_ne _ _ _ _ (CYC_CLASS_CTRL_ne_CYC_SPAN c)).trans
    (fget_fset_field _ _ _ _ _ (by decide) (by decide) (by decide) (by decide) (by decide))).trans (fget_fset_same _ _ _ _ (by decide) (by decide))

theorem enableNoted_enable (s : Dev) (c cost : Nat) : fbit (enableNoted s c cost) (CYC_CLASS_CTRL c) CYC_CLASS_CTRL_ENABLE = true :=
  (fbit_fset_ne _ _ _ _ (CYC_CLASS_CTRL_ne_CYC_SPAN c)).trans (fbit_fset_one _ _ (by decide))

theorem setCls_storage (s : Dev) (c : Nat) (x : ClassSt) : StorageKept s (setCls s c x) := storageKept_of_fields rfl rfl rfl

/-- A class that waits for its first boundary. -/
def classArmed (s : Dev) (c m : Nat) : Dev :=
  setCls (limitRate s) c { cls s c with armed := true, nextM := m, ran := [], arrived := [], counted := [] }

theorem cls_classArmed (s : Dev) (c m : Nat) : (cls (classArmed s c m) c).armed = true ∧ (cls (classArmed s c m) c).nextM = m := by
  simp only [classArmed, cls_setCls_same, and_self]

theorem reg_classArmed (s : Dev) (c m o : Nat) : reg (classArmed s c m) o = reg s o := rfl
theorem fget_classArmed (s : Dev) (c m o : Nat) (f : Nat × Nat) : fget (classArmed s c m) o f = fget s o f := rfl
theorem fbit_classArmed (s : Dev) (c m o : Nat) (f : Nat × Nat) : fbit (classArmed s c m) o f = fbit s o f := rfl
theorem classArmed_threads (s : Dev) (c m : Nat) : (classArmed s c m).threads = s.threads := rfl

theorem classArmed_storage (s : Dev) (c m : Nat) : StorageKept s (classArmed s c m) := storageKept_of_fields rfl rfl rfl

section
variable {s : Dev} {c : Nat}

theorem classEnable_of_pass (hstop : fbit s (CYC_CLASS_CTRL c) CYC_CLASS_CTRL_STOPPING = false)
    (hen : fbit s (CYC_CLASS_CTRL c) CYC_CLASS_CTRL_ENABLE = false) (hcheck : enableCheck s c = 0) :
    classEnable s c = classArmed (enableNoted s c (reactionCheck s s.cyc.egress c).2) c (firstBoundary s c) := by
  simp only [classEnable, hstop, hen, hcheck, Bool.false_eq_true, if_false, if_true, classArmed, enableNoted]

theorem classEnable_of_fail (hstop : fbit s (CYC_CLASS_CTRL c) CYC_CLASS_CTRL_STOPPING = false)
    (hen : fbit s (CYC_CLASS_CTRL c) CYC_CLASS_CTRL_ENABLE = false) (hcheck : enableCheck s c ≠ 0) :
    classEnable s c = fset s (CYC_CLASS_CTRL c) CYC_CLASS_CTRL_CHECK (enableCheck s c) := by
  simp only [classEnable, hstop, hen, hcheck, Bool.false_eq_true, if_false]

/-- A running class stops at its next boundary. -/
theorem classDisable_of_running (hen : fbit s (CYC_CLASS_CTRL c) CYC_CLASS_CTRL_ENABLE = true) (hrun : classRuns s c = true) :
    classDisable s c = fset (fset s (CYC_CLASS_CTRL c) CYC_CLASS_CTRL_ENABLE 0) (CYC_CLASS_CTRL c) CYC_CLASS_CTRL_STOPPING 1 := by
  have hrun' : fbit s (CYC_CLASS_CTRL c) CYC_CLASS_CTRL_RUNNING = true := hrun
  simp only [classDisable, hen, hrun', if_true]

theorem classDisable_of_waiting (hen : fbit s (CYC_CLASS_CTRL c) CYC_CLASS_CTRL_ENABLE = true) (hrun : classRuns s c = false) :
    classDisable s c = setCls (fset s (CYC_CLASS_CTRL c) CYC_CLASS_CTRL_ENABLE 0) c { cls s c with armed := false } := by
  have hrun' : fbit s (CYC_CLASS_CTRL c) CYC_CLASS_CTRL_RUNNING = false := hrun
  simp only [classDisable, hen, hrun', if_true, Bool.false_eq_true, if_false]
  rfl

end

/-! ## The commands -/

theorem exec_classEnable {s : State} (hon : domOn s.dev 76 = true) (c : ClassId) :
    exec (.classEnable c) s = .next { s with dev := classEnable s.dev c.val } := by
  have harm : exec (.classEnable c) s = onDev s (fun d => whenOn d 76 (fun d => classEnable d c.val)) := rfl
  rw [harm]
  simp only [onDev, whenOn, hon, if_true]

theorem exec_classDisable {s : State} (hon : domOn s.dev 76 = true) (c : ClassId) :
    exec (.classDisable c) s = .next { s with dev := classDisable s.dev c.val } := by
  have harm : exec (.classDisable c) s = onDev s (fun d => whenOn d 76 (fun d => classDisable d c.val)) := rfl
  rw [harm]
  simp only [onDev, whenOn, hon, if_true]

section
variable {s : State} {c : ClassId}

/-- What an enable answers: the failing check, or a class armed for its first boundary. -/
theorem exec_classEnable_of_off (hon : domOn s.dev 76 = true) (hstop : fbit s.dev (CYC_CLASS_CTRL c.val) CYC_CLASS_CTRL_STOPPING = false)
    (hen : fbit s.dev (CYC_CLASS_CTRL c.val) CYC_CLASS_CTRL_ENABLE = false) :
    ∃ d, exec (.classEnable c) s = .next { s with dev := d } ∧ fget d (CYC_CLASS_CTRL c.val) CYC_CLASS_CTRL_CHECK = enableCheck s.dev c.val ∧
      fbit d (CYC_CLASS_CTRL c.val) CYC_CLASS_CTRL_ENABLE = (enableCheck s.dev c.val == 0) ∧
      (cls d c.val).armed = ((cls s.dev c.val).armed || enableCheck s.dev c.val == 0) ∧
      (enableCheck s.dev c.val = 0 → nowNs s.dev + 10000 < boundaryNs s.dev c.val (cls d c.val).nextM ∧
        ((cls d c.val).nextM = 0 ∨ boundaryNs s.dev c.val ((cls d c.val).nextM - 1) ≤ nowNs s.dev + 10000)) ∧
      RegsKept s.dev d [CYC_CLASS_CTRL c.val, CYC_SPAN c.val] ∧ d.threads = s.dev.threads ∧ StorageKept s.dev d := by
  refine ⟨_, exec_classEnable hon c, ?_⟩
  by_cases hcheck : enableCheck s.dev c.val = 0
  · rw [classEnable_of_pass hstop hen hcheck, hcheck]
    obtain ⟨harmed, hnext⟩ := cls_classArmed (enableNoted s.dev c.val (reactionCheck s.dev s.dev.cyc.egress c.val).2) c.val (firstBoundary s.dev c.val)
    refine ⟨(fget_classArmed _ _ _ _ _).trans (enableNoted_check _ _ _), (fbit_classArmed _ _ _ _ _).trans (enableNoted_enable _ _ _),
      harmed.trans (Bool.or_true _).symm, fun _ => ?_, fun o ho => (reg_classArmed _ _ _ o).trans (enableNoted_regs _ _ _ o ho),
      (classArmed_threads _ _ _).trans (enableNoted_threads _ _ _), (enableNoted_storage _ _ _).trans (classArmed_storage _ _ _)⟩
    rw [hnext]
    exact firstBoundary_spec (periodNs_pos_of_check hcheck)
  · have hlt := enableCheck_lt s.dev c.val
    rw [classEnable_of_fail hstop hen hcheck]
    refine ⟨?_, ?_, ?_, fun h => absurd h hcheck, (fset_regs _ _ _ _).mono (by simp), fset_threads _ _ _ _, fset_storage _ _ _ _⟩
    · exact (fget_fset_same _ _ _ _ (by decide) (by decide)).trans (Nat.mod_eq_of_lt hlt)
    · rw [fbit_fset_field _ _ _ _ (by decide) (by decide) (by decide) (by decide) (by decide), hen]
      exact (beq_eq_false_iff_ne.2 hcheck).symm
    · rw [beq_eq_false_iff_ne.2 hcheck, Bool.or_false, cls_fset]

/-- What a disable answers: STOPPING for a class that runs, a class no longer armed for one that waits. -/
theorem exec_classDisable_of_on (hon : domOn s.dev 76 = true) (hstop : fbit s.dev (CYC_CLASS_CTRL c.val) CYC_CLASS_CTRL_STOPPING = false)
    (hen : fbit s.dev (CYC_CLASS_CTRL c.val) CYC_CLASS_CTRL_ENABLE = true) :
    ∃ d, exec (.classDisable c) s = .next { s with dev := d } ∧ fbit d (CYC_CLASS_CTRL c.val) CYC_CLASS_CTRL_ENABLE = false ∧
      fbit d (CYC_CLASS_CTRL c.val) CYC_CLASS_CTRL_STOPPING = classRuns s.dev c.val ∧ (classRuns s.dev c.val = false → (cls d c.val).armed = false) ∧
      RegsKept s.dev d [CYC_CLASS_CTRL c.val] ∧ d.threads = s.dev.threads ∧ StorageKept s.dev d := by
  refine ⟨_, exec_classDisable hon c, ?_⟩
  cases hrun : classRuns s.dev c.val with
  | true =>
    rw [classDisable_of_running hen hrun]
    refine ⟨?_, fbit_fset_one _ _ (by decide), fun h => absurd h (by simp), (fset_regs _ _ _ _).trans (fset_regs _ _ _ _),
      (fset_threads _ _ _ _).trans (fset_threads _ _ _ _),
      (fset_storage _ _ _ _).trans (fset_storage _ _ _ _)⟩
    exact (fbit_fset_field _ _ _ _ (by decide) (by decide) (by decide) (by decide) (by decide)).trans (fbit_fset_zero _ _ (by decide))
  | false =>
    rw [classDisable_of_waiting hen hrun]
    refine ⟨(fbit_setCls _ _ _ _ _).trans (fbit_fset_zero _ _ (by decide)), ?_, fun _ => by rw [cls_setCls_same],
      fun o ho => (reg_setCls _ _ _ _).trans (fset_regs _ _ _ _ o ho), (setCls_threads _ _ _).trans (fset_threads _ _ _ _),
      (fset_storage _ _ _ _).trans (setCls_storage _ _ _)⟩
    rw [fbit_setCls]
    exact (fbit_fset_field _ _ _ _ (by decide) (by decide) (by decide) (by decide) (by decide)).trans hstop

end

end Sys2Proof.Machine
end

section
/-! PROOFS. The boundaries of a class (04 R98, R117, R118, R120, R121). -/
namespace Sys2Proof.Machine

theorem fbit_of_reg {a b : Dev} {o : Nat} (h : reg b o = reg a o) (f : Nat × Nat) : fbit b o f = fbit a o f := by simp only [fbit, fget, h]

theorem modTwin_of_fixed {s : Dev} {f : TwinSt → TwinSt} (h : f s.twin = s.twin) : modTwin s f = s := by simp only [modTwin, h]

/-! ## What the work at a boundary leaves alone -/

/-- The registers that the steps of a boundary read, and but for the class cycle number change in no other way than the boundary says. -/
def StageRegs (c : Nat) : List Nat := [CYC_CLASS_CTRL c, CYC_NEXT_T0 c, CYC_PERIOD c, CYC_EPOCH c, TWIN_CTRL]

/-- The registers that the work of the units at a boundary leaves alone. -/
def BoundaryRegs (c : Nat) : List Nat := CYC_NUMBER c :: StageRegs c

/-- Threads, storage, classes, the schedule, the journal, the lists of samples and some registers are as they were; time does not fall back. -/
structure BoundaryKept (l : List Nat) (a b : Dev) : Prop where
  threads : b.threads = a.threads
  storage : StorageKept a b
  time : a.time ≤ b.time
  twin : b.twin = a.twin
  lists : b.hist.lists = a.hist.lists
  classes : b.cyc.classes = a.cyc.classes
  pricking : b.cyc.pricking = a.cyc.pricking
  regs : ∀ o ∈ l, reg b o = reg a o

namespace BoundaryKept
variable {l : List Nat} {a b : Dev}

theorem refl (a : Dev) : BoundaryKept l a a := ⟨rfl, storageKept_of_fields rfl rfl rfl, Nat.le_refl _, rfl, rfl, rfl, rfl, fun _ _ => rfl⟩

theorem trans {d : Dev} (h : BoundaryKept l a b) (k : BoundaryKept l b d) : BoundaryKept l a d :=
  ⟨k.threads.trans h.threads, h.storage.trans k.storage, h.time.trans k.time, k.twin.trans h.twin, k.lists.trans h.lists, k.classes.trans h.classes,
    k.pricking.trans h.pricking, fun o ho => (k.regs o ho).trans (h.regs o ho)⟩

theorem mono {m : List Nat} (h : BoundaryKept l a b) (hm : ∀ o ∈ m, o ∈ l) : BoundaryKept m a b :=
  ⟨h.threads, h.storage, h.time, h.twin, h.lists, h.classes, h.pricking, fun o ho => h.regs o (hm o ho)⟩

theorem foldl {β : Type} {f : Dev → β → Dev} (hf : ∀ s e, BoundaryKept l s (f s e)) (m : List β) : ∀ s, BoundaryKept l s (m.foldl f s) := by
  induction m with
  | nil => exact refl
  | cons e m ih => exact fun s => (hf s e).trans (ih _)

/-- Work that moves registers and logs alone. -/
theorem of_sansLogs (h : sansLogs b = sansLogs a) (hregs : ∀ o ∈ l, reg b o = reg a o) : BoundaryKept l a b :=
  have hcyc : b.cyc = a.cyc := (congrArg Dev.cyc h :)
  ⟨threads_of_sansLogs h, storage_of_sansLogs h, Nat.le_of_eq (congrArg Dev.time h :).symm, (congrArg Dev.twin h :),
    congrArg HistSt.lists (congrArg Dev.hist h :), congrArg CycSt.classes hcyc, congrArg CycSt.pricking hcyc, hregs⟩

theorem of_sampler (hs : SamplerOnly a b) (h : sansLogs b = sansLogs a) (hl : ∀ o ∈ l, o ∉ SamplerRegs) : BoundaryKept l a b :=
  of_sansLogs h (fun o ho => hs.regs o (hl o ho))

theorem fset {o : Nat} (ho : o ∉ l) (s : Dev) (f : Nat × Nat) (n : Nat) : BoundaryKept l s (fset s o f n) :=
  of_sansLogs (sansLogs_fset _ _ _ _) (fun _ hp => reg_fset_ne _ _ _ (fun h => ho (h ▸ hp)))

theorem modErg (s : Dev) (f : ErgSt → ErgSt) : BoundaryKept l s (modErg s f) :=
  ⟨rfl, storageKept_of_fields rfl rfl rfl, Nat.le_refl _, rfl, rfl, rfl, rfl, fun _ _ => rfl⟩

theorem setImg (s : Dev) (k : Nat) (x : ImgSt) : BoundaryKept l s (setImg s k x) :=
  ⟨rfl, storageKept_of_fields rfl rfl rfl, Nat.le_refl _, rfl, rfl, rfl, rfl, fun _ _ => rfl⟩

theorem setScatterQueue (s : Dev) (k : Nat) (x : List ScatterJob) : BoundaryKept l s (setScatterQueue s k x) :=
  ⟨rfl, storageKept_of_fields rfl rfl rfl, Nat.le_refl _, rfl, rfl, rfl, rfl, fun _ _ => rfl⟩

theorem setGatherRuns (s : Dev) (k : Nat) (x : List GatherRun) : BoundaryKept l s (setGatherRuns s k x) :=
  ⟨rfl, storageKept_of_fields rfl rfl rfl, Nat.le_refl _, rfl, rfl, rfl, rfl, fun _ _ => rfl⟩

theorem giveCredit (s : Dev) (q : Nat) : BoundaryKept l s (giveCredit s q) := by
  unfold Machine.giveCredit
  dsimp only
  split
  · exact refl s
  · exact ⟨rfl, storageKept_of_fields rfl rfl rfl, Nat.le_refl _, rfl, rfl, rfl, rfl, fun _ _ => rfl⟩

theorem applyStream (s : Dev) (table i : Nat) : BoundaryKept l s (applyStream s table i) := by
  unfold Machine.applyStream
  split <;> exact ⟨rfl, storageKept_of_fields rfl rfl rfl, Nat.le_refl _, rfl, rfl, rfl, rfl, fun _ _ => rfl⟩

theorem advanceTo (s : Dev) (ns : Nat) : BoundaryKept l s (advanceTo s ns) := by
  unfold Machine.advanceTo
  split
  · next hlt => exact ⟨rfl, storageKept_of_fields rfl rfl rfl, Nat.le_of_lt hlt, rfl, rfl, rfl, rfl, fun _ _ => rfl⟩
  · exact refl s

theorem thr (h : BoundaryKept l a b) (t : Nat) : thr b t = Machine.thr a t := by simp only [Machine.thr, h.threads]

theorem cls (h : BoundaryKept l a b) (c : Nat) : cls b c = Machine.cls a c := by simp only [Machine.cls, h.classes]

theorem schedule (h : BoundaryKept l a b) (c : Nat) : schedule b c = Machine.schedule a c := by
  simp only [Machine.schedule, prickEntries, h.pricking]

theorem nowNs_le (h : BoundaryKept l a b) : nowNs a ≤ nowNs b := Nat.div_le_div_right h.time

theorem fbit (h : BoundaryKept l a b) {o : Nat} (ho : o ∈ l) (f : Nat × Nat) : fbit b o f = Machine.fbit a o f := fbit_of_reg (h.regs o ho) f

end BoundaryKept

theorem le_nowNs_advanceTo (s : Dev) (ns : Nat) : ns ≤ nowNs (advanceTo s ns) := by
  unfold advanceTo
  split
  · simp only [nowNs]
    omega
  · simp only [nowNs]
    omega

/-! ## Registers of the units -/

section
variable {c : Nat}

theorem boundaryRegs_not_sampler (hc : c < 8) : ∀ o ∈ BoundaryRegs c, o ∉ SamplerRegs := by
  intro o ho
  simp only [BoundaryRegs, StageRegs, List.mem_cons, List.not_mem_nil, or_false] at ho
  obtain rfl | rfl | rfl | rfl | rfl | rfl := ho
  case inr.inr.inr.inr.inr => decide
  all_goals
    refine not_samplerReg_of_lt ?_
    simp only [CYC_NUMBER, CYC_CLASS_CTRL, CYC_NEXT_T0, CYC_PERIOD, CYC_EPOCH]
    omega

theorem CYC_FLOW_not_boundary (c : Nat) : CYC_FLOW c ∉ BoundaryRegs c := by
  simp only [BoundaryRegs, StageRegs, CYC_FLOW, CYC_NUMBER, CYC_CLASS_CTRL, CYC_NEXT_T0, CYC_PERIOD, CYC_EPOCH, TWIN_CTRL, List.mem_cons,
    List.not_mem_nil, or_false]
  omega

theorem PORT_BUF_not_boundary (p : Nat) : PORT_BUF p ∉ BoundaryRegs c := by
  simp only [BoundaryRegs, StageRegs, PORT_BUF, CYC_NUMBER, CYC_CLASS_CTRL, CYC_NEXT_T0, CYC_PERIOD, CYC_EPOCH, TWIN_CTRL, List.mem_cons,
    List.not_mem_nil, or_false]
  omega

theorem SW_BUF_not_boundary : SW_BUF ∉ BoundaryRegs c := by
  simp only [BoundaryRegs, StageRegs, SW_BUF, CYC_NUMBER, CYC_CLASS_CTRL, CYC_NEXT_T0, CYC_PERIOD, CYC_EPOCH, TWIN_CTRL, List.mem_cons,
    List.not_mem_nil, or_false]
  omega

theorem CYC_NUMBER_not_stage (c : Nat) : CYC_NUMBER c ∉ StageRegs c := by
  simp only [StageRegs, CYC_NUMBER, CYC_CLASS_CTRL, CYC_NEXT_T0, CYC_PERIOD, CYC_EPOCH, TWIN_CTRL, List.mem_cons, List.not_mem_nil, or_false]
  omega

/-! ## The units' work at the end of a cycle -/

theorem returnCells_kept (s : Dev) (f : BufFrame) (n : Nat) : BoundaryKept (BoundaryRegs c) s (returnCells s f n) := by
  unfold returnCells
  dsimp only
  refine .trans (.trans ?_ (BoundaryKept.modErg _ _)) (BoundaryKept.fset SW_BUF_not_boundary _ _ _)
  split
  · exact (BoundaryKept.fset (PORT_BUF_not_boundary _) _ _ _).trans (BoundaryKept.fset (PORT_BUF_not_boundary _) _ _ _)
  · exact .refl s

theorem releaseFrame_kept (s : Dev) (id : Nat) : BoundaryKept (BoundaryRegs c) s (releaseFrame s id) := by
  unfold releaseFrame
  split
  · exact .refl s
  · split
    · exact .modErg _ _
    · exact (returnCells_kept _ _ _).trans (.modErg _ _)

/-- Frames whose scatter is over return their cells. -/
theorem releaseScattered_kept (old s : Dev) : BoundaryKept (BoundaryRegs c) s (releaseScattered old s) := by
  unfold releaseScattered
  refine .foldl (fun x id => ?_) _ s
  split
  · exact .refl x
  · exact releaseFrame_kept x id

section
variable (hc : c < 8)
include hc

theorem logRec_kept (s : Dev) (sev block inst code : Nat) (payload : List Nat) : BoundaryKept (BoundaryRegs c) s (logRec s sev block inst code payload) :=
  .of_sampler (smpRecord_sampler _ _) (sansLogs_logRec _ _ _ _ _ _) (boundaryRegs_not_sampler hc)

theorem trcSend_kept (s : Dev) (src kind : Nat) (p : List Byte) : BoundaryKept (BoundaryRegs c) s (trcSend s src kind p) :=
  .of_sampler (.of_meta (trcSend_meta _ _ _ _)) (sansLogs_trcSend _ _ _ _) (boundaryRegs_not_sampler hc)

theorem trcTrigger_kept (s : Dev) (kind : Nat) : BoundaryKept (BoundaryRegs c) s (trcTrigger s kind) :=
  .of_sampler (.of_meta (trcTrigger_meta _ _)) (sansLogs_trcTrigger _ _) (boundaryRegs_not_sampler hc)

theorem snapTrig_kept (s : Dev) (trig cause : Nat) : BoundaryKept (BoundaryRegs c) s (snapTrig s trig cause) := by
  unfold snapTrig
  split
  · exact .of_sampler (.of_meta (snapCause_meta _ _)) (sansLogs_snapCause _ _) (boundaryRegs_not_sampler hc)
  · exact .refl s

theorem trcStream_kept (s : Dev) (handle outcome time : Nat) : BoundaryKept (BoundaryRegs c) s (trcStream s handle outcome time) := by
  have hsend := trcSend_kept hc s 1544 0x08 (beBytes 2 handle ++ beBytes 1 outcome ++ beBytes 8 time)
  unfold trcStream
  dsimp only
  split
  · exact hsend.trans (trcTrigger_kept hc _ _)
  · exact hsend

theorem cutCycle_kept (s : Dev) : BoundaryKept (BoundaryRegs c) s (cutCycle s c) := by
  unfold cutCycle
  extract_lets s1 open_ s2
  have h1 : BoundaryKept (BoundaryRegs c) s s1 := by
    refine .foldl (fun x k => (BoundaryKept.setScatterQueue x k _).trans (.foldl (fun y j => ?_) _ _)) _ s
    exact (((BoundaryKept.fset (CYC_FLOW_not_boundary c) _ _ _).trans (.giveCredit _ _)).trans (logRec_kept hc _ _ _ _ _ _)).trans (trcStream_kept hc _ _ _ _)
  have h2 : BoundaryKept (BoundaryRegs c) s s2 := h1.trans (.foldl (fun x k => .setGatherRuns x k _) _ s1)
  split
  · exact h2
  · exact (h2.trans (.fset (CYC_FLOW_not_boundary c) _ _ _)).trans (logRec_kept hc _ _ _ _ _ _)

theorem endAbandons_kept (s : Dev) (ended : Nat) : BoundaryKept (BoundaryRegs c) s (endAbandons s c ended) :=
  .foldl (fun x k => (BoundaryKept.setImg x k _).trans (.foldl (fun y _ => logRec_kept hc y _ _ _ _ _) _ _)) _ s

end

theorem applyPending_kept {l : List Nat} (s : Dev) (c : Nat) : BoundaryKept l s (applyPending s c) :=
  (BoundaryKept.foldl (fun x i => .applyStream x 2 i) _ s).trans (.foldl (fun x i => .applyStream x 3 i) _ _)

theorem histCut_of_none {s : Dev} (h : ∀ j ∈ s.hist.lists, j.cls ≠ c) : histCut s c = s := by
  have hnone : s.hist.lists.filter (fun j => j.cls == c) = [] := List.filter_eq_nil_iff.2 (fun j hj => by simpa using h j hj)
  simp only [histCut, hnone, List.isEmpty_nil, if_true]

/-- The device once its scatters, gathers and samples of the cycle are cut. -/
def cycleCut (s : Dev) (c : Nat) : Dev := histCut (releaseScattered s (cutCycle s c)) c

/-- The class cycle number moves on by one (R118). -/
def numberNext (s : Dev) (c : Nat) : Dev := setReg s (CYC_NUMBER c) (reg s (CYC_NUMBER c) + 1)

theorem endCycle_eq (s : Dev) (c : Nat) : endCycle s c = applyPending (endAbandons (numberNext (cycleCut s c) c) c (classStamp s c)) c := rfl

theorem cycleCut_kept (hc : c < 8) {s : Dev} (h : ∀ j ∈ s.hist.lists, j.cls ≠ c) : BoundaryKept (BoundaryRegs c) s (cycleCut s c) := by
  have hkept := (cutCycle_kept hc s).trans (releaseScattered_kept s _)
  rw [cycleCut, histCut_of_none (by rw [hkept.lists]; exact h)]
  exact hkept

theorem numberNext_kept (s : Dev) (c : Nat) : BoundaryKept (StageRegs c) s (numberNext s c) :=
  .of_sansLogs rfl (fun _ ho => reg_setReg_ne _ _ (fun h => CYC_NUMBER_not_stage c (h ▸ ho)))

section
variable (hc : c < 8) {s : Dev} (hlists : ∀ j ∈ s.hist.lists, j.cls ≠ c)
include hc hlists

theorem endCycle_kept : BoundaryKept (StageRegs c) s (endCycle s c) := by
  rw [endCycle_eq]
  have hstage : ∀ o ∈ StageRegs c, o ∈ BoundaryRegs c := fun _ ho => List.mem_cons_of_mem _ ho
  exact ((((cycleCut_kept hc hlists).mono hstage).trans (numberNext_kept _ _)).trans ((endAbandons_kept hc _ _).mono hstage)).trans (applyPending_kept _ _)

theorem number_endCycle : reg (endCycle s c) (CYC_NUMBER c) = reg s (CYC_NUMBER c) + 1 := by
  have hmem : CYC_NUMBER c ∈ BoundaryRegs c := List.mem_cons_self
  rw [endCycle_eq, (applyPending_kept (l := BoundaryRegs c) _ _).regs _ hmem, (endAbandons_kept hc _ _).regs _ hmem, numberNext, reg_setReg_same,
    (cycleCut_kept hc hlists).regs _ hmem]

end
end

/-! ## The next cycle opens -/

/-- The class and its next boundary as a new cycle begins. -/
def cycleOpened (s : Dev) (c t0 : Nat) : Dev :=
  setReg (setCls s c { armed := false, nextM := (cls s c).nextM + 1, t0 := t0, counted := (cls s c).counted }) (CYC_NEXT_T0 c)
    (BitVec.ofNat 64 (t0 + periodNs s c))

/-- The boundary is traced, and may take a snapshot. -/
def boundaryTraced (s : Dev) (c : Nat) : Dev :=
  if fget (trcCycle s c 0 0) CTR_CTRL CTR_CTRL_CLASS = c then snapTrig (trcCycle s c 0 0) 1 1 else trcCycle s c 0 0

theorem boundaryTraced_kept {c : Nat} (hc : c < 8) (s : Dev) : BoundaryKept (BoundaryRegs c) s (boundaryTraced s c) := by
  have htrace : BoundaryKept (BoundaryRegs c) s (trcCycle s c 0 0) := trcSend_kept hc _ _ _ _
  unfold boundaryTraced
  split
  · exact htrace.trans (snapTrig_kept hc _ _ _)
  · exact htrace

/-- The steps of a new cycle after its trace: roles, journal, the entries at offset 0. -/
def cycleBegun (s : Dev) (c : Nat) : Dev :=
  let s5 := if twinOn s ∧ c = refClass s then freezeOpen (roleBoundary s) else s
  ((stillToRun s5 c).filter (fun e => e.offset == 0)).foldl (runInTime c) (journalZero s5 c)

theorem openCycle_eq (s : Dev) (c t0 : Nat) : openCycle s c t0 = cycleBegun (boundaryTraced (cycleOpened s c t0) c) c := rfl

theorem journalZero_of_empty {s : Dev} (h : s.twin.journal = []) (c : Nat) : journalZero s c = s := by
  have hdue : dueJournal s c = [] := by simp only [dueJournal, h, List.filter_nil]
  have hfixed : { s.twin with journal := [] } = s.twin := by rw [← h]
  have hkept : modTwin s (fun x => { x with journal := x.journal.filter (fun e => !(([] : List JournalEnt).contains e)) }) = s :=
    modTwin_of_fixed (by simp only [h, List.filter_nil]; exact hfixed)
  unfold journalZero
  split
  · simp only [journalApply, hdue, List.foldl_nil]
    exact hkept
  · rfl

/-- Without a twin, a journal or entries at offset 0 nothing follows the trace. -/
theorem cycleBegun_of_quiet {s : Dev} {c : Nat} (htwin : twinOn s = false) (hjournal : s.twin.journal = []) (hentries : ∀ e ∈ schedule s c, e.offset ≠ 0) :
    cycleBegun s c = s := by
  have hnone : (stillToRun s c).filter (fun e => e.offset == 0) = [] :=
    List.filter_eq_nil_iff.2 (fun e he => by simpa using hentries e (List.mem_of_mem_filter he))
  simp only [cycleBegun, htwin, Bool.false_eq_true, false_and, if_false, hnone, List.foldl_nil, journalZero_of_empty hjournal]

section
variable {s : Dev} {c t0 : Nat}

theorem cls_cycleOpened : cls (cycleOpened s c t0) c = { nextM := (cls s c).nextM + 1, t0 := t0, counted := (cls s c).counted } := by
  rw [cycleOpened, cls_setReg, cls_setCls_same]

theorem next_cycleOpened : reg (cycleOpened s c t0) (CYC_NEXT_T0 c) = BitVec.ofNat 64 (t0 + periodNs s c) := by rw [cycleOpened, reg_setReg_same]

theorem reg_cycleOpened_ne {o : Nat} (h : o ≠ CYC_NEXT_T0 c) : reg (cycleOpened s c t0) o = reg s o := by
  rw [cycleOpened, reg_setReg_ne _ _ h, reg_setCls]

theorem cycleOpened_storage : StorageKept s (cycleOpened s c t0) := storageKept_of_fields rfl rfl rfl

theorem cycleOpened_threads : (cycleOpened s c t0).threads = s.threads := rfl

theorem cycleOpened_time : (cycleOpened s c t0).time = s.time := rfl

theorem cycleOpened_twin : (cycleOpened s c t0).twin = s.twin := rfl

theorem schedule_cycleOpened (d : Nat) : schedule (cycleOpened s c t0) d = schedule s d := rfl

theorem CYC_NUMBER_ne_CYC_NEXT_T0 (c : Nat) : CYC_NUMBER c ≠ CYC_NEXT_T0 c := by
  simp only [CYC_NUMBER, CYC_NEXT_T0]
  omega

theorem CYC_CLASS_CTRL_ne_CYC_NEXT_T0 (c : Nat) : CYC_CLASS_CTRL c ≠ CYC_NEXT_T0 c := by
  simp only [CYC_CLASS_CTRL, CYC_NEXT_T0]
  omega

theorem TWIN_CTRL_ne_CYC_NEXT_T0 (c : Nat) : TWIN_CTRL ≠ CYC_NEXT_T0 c := by
  simp only [TWIN_CTRL, CYC_NEXT_T0]
  omega

/-- A quiet boundary opens the next cycle: the trace alone follows it. -/
theorem openCycle_kept (hc : c < 8) (htwin : twinOn s = false) (hjournal : s.twin.journal = []) (hentries : ∀ e ∈ schedule s c, e.offset ≠ 0) :
    BoundaryKept (BoundaryRegs c) (cycleOpened s c t0) (openCycle s c t0) := by
  have hkept := boundaryTraced_kept hc (cycleOpened s c t0)
  have htwin' : twinOn (boundaryTraced (cycleOpened s c t0) c) = false := by
    have hmem : TWIN_CTRL ∈ BoundaryRegs c := by simp [BoundaryRegs, StageRegs]
    exact (hkept.fbit hmem _).trans ((fbit_of_reg (reg_cycleOpened_ne (TWIN_CTRL_ne_CYC_NEXT_T0 c)) _).trans htwin)
  rw [openCycle_eq, cycleBegun_of_quiet htwin' ((congrArg TwinSt.journal (hkept.twin.trans cycleOpened_twin)).trans hjournal)
    (by rw [hkept.schedule, schedule_cycleOpened]; exact hentries)]
  exact hkept

end

/-- What a boundary that opens a cycle at `t0` leaves. -/
structure Opened (a b : Dev) (c t0 : Nat) : Prop where
  cls : cls b c = { nextM := (cls a c).nextM + 1, t0 := t0, counted := (Machine.cls a c).counted }
  next : reg b (CYC_NEXT_T0 c) = BitVec.ofNat 64 (t0 + periodNs a c)
  number : reg b (CYC_NUMBER c) = reg a (CYC_NUMBER c)
  ctrl : reg b (CYC_CLASS_CTRL c) = reg a (CYC_CLASS_CTRL c)
  time : a.time ≤ b.time
  threads : b.threads = a.threads
  storage : StorageKept a b

theorem openCycle_opened {s : Dev} {c : Nat} (t0 : Nat) (hc : c < 8) (htwin : twinOn s = false) (hjournal : s.twin.journal = [])
    (hentries : ∀ e ∈ schedule s c, e.offset ≠ 0) : Opened s (openCycle s c t0) c t0 := by
  have hkept := openCycle_kept (t0 := t0) hc htwin hjournal hentries
  exact ⟨(hkept.cls c).trans cls_cycleOpened, (hkept.regs _ (by simp [BoundaryRegs, StageRegs])).trans next_cycleOpened,
    (hkept.regs _ (by simp [BoundaryRegs])).trans (reg_cycleOpened_ne (CYC_NUMBER_ne_CYC_NEXT_T0 c)),
    (hkept.regs _ (by simp [BoundaryRegs, StageRegs])).trans (reg_cycleOpened_ne (CYC_CLASS_CTRL_ne_CYC_NEXT_T0 c)),
    (Nat.le_of_eq cycleOpened_time.symm).trans hkept.time, hkept.threads.trans cycleOpened_threads, cycleOpened_storage.trans hkept.storage⟩

/-! ## The boundary -/

/-- A class at whose boundary nothing waits but the boundary itself: no twin, no journal, no entry at offset 0. -/
structure Quiet (s : Dev) (c : Nat) : Prop where
  twin : twinOn s = false
  journal : s.twin.journal = []
  entries : ∀ e ∈ schedule s c, e.offset ≠ 0

theorem Quiet.of_kept {a b : Dev} {c : Nat} {l : List Nat} (h : Quiet a c) (hk : BoundaryKept l a b) (htwin : TWIN_CTRL ∈ l) : Quiet b c :=
  ⟨(hk.fbit htwin _).trans h.twin, (congrArg TwinSt.journal hk.twin).trans h.journal, by rw [hk.schedule]; exact h.entries⟩

/-- The work before a cycle opens does not show in what the boundary leaves. -/
theorem Opened.of_kept {a b d : Dev} {c t0 : Nat} {l : List Nat} (h : Opened b d c t0) (hk : BoundaryKept l a b) (hperiod : CYC_PERIOD c ∈ l) :
    Machine.cls d c = { nextM := (Machine.cls a c).nextM + 1, t0 := t0, counted := (Machine.cls a c).counted } ∧
      reg d (CYC_NEXT_T0 c) = BitVec.ofNat 64 (t0 + periodNs a c) ∧ d.threads = a.threads ∧ StorageKept a d := by
  have hns : periodNs b c = periodNs a c := by simp only [periodNs, fget, hk.regs _ hperiod]
  refine ⟨?_, ?_, h.threads.trans hk.threads, hk.storage.trans h.storage⟩
  · rw [h.cls, hk.cls]
  · rw [h.next, hns]

theorem classRuns_of_reg {a b : Dev} {c : Nat} (h : reg b (CYC_CLASS_CTRL c) = reg a (CYC_CLASS_CTRL c)) : classRuns b c = classRuns a c := fbit_of_reg h _

/-- A class set to RUNNING at nominal time `t0`. -/
def classStarted (s : Dev) (c t0 : Nat) : Dev := fset (advanceTo s t0) (CYC_CLASS_CTRL c) CYC_CLASS_CTRL_RUNNING 1

theorem CYC_CLASS_CTRL_not_kept {c : Nat} (hc : c < 8) : CYC_CLASS_CTRL c ∉ [CYC_NUMBER c, CYC_PERIOD c, TWIN_CTRL] := by
  simp only [CYC_NUMBER, CYC_CLASS_CTRL, CYC_PERIOD, TWIN_CTRL, List.mem_cons, List.not_mem_nil, or_false]
  omega

theorem classStarted_kept {c : Nat} (hc : c < 8) (s : Dev) (t0 : Nat) : BoundaryKept [CYC_NUMBER c, CYC_PERIOD c, TWIN_CTRL] s (classStarted s c t0) :=
  (BoundaryKept.advanceTo s t0).trans (.fset (CYC_CLASS_CTRL_not_kept hc) _ _ _)

theorem le_nowNs_classStarted {c : Nat} (hc : c < 8) (s : Dev) (t0 : Nat) : t0 ≤ nowNs (classStarted s c t0) :=
  (le_nowNs_advanceTo s t0).trans (BoundaryKept.fset (CYC_CLASS_CTRL_not_kept hc) _ _ _).nowNs_le

/-- RUNNING and STOPPING are cleared. -/
def classHalted (s : Dev) (c : Nat) : Dev :=
  fset (fset s (CYC_CLASS_CTRL c) CYC_CLASS_CTRL_RUNNING 0) (CYC_CLASS_CTRL c) CYC_CLASS_CTRL_STOPPING 0

/-- A class as its last boundary leaves it. -/
def classStopped (s : Dev) (c t0 : Nat) : Dev :=
  setReg (setCls (classHalted s c) c { t0 := t0, counted := (cls (classHalted s c) c).counted }) (CYC_NEXT_T0 c) 0

theorem classStopped_storage (s : Dev) (c t0 : Nat) : StorageKept s (classStopped s c t0) := storageKept_of_fields rfl rfl rfl

theorem classStopped_threads (s : Dev) (c t0 : Nat) : (classStopped s c t0).threads = s.threads := rfl

theorem classStopped_twin (s : Dev) (c t0 : Nat) : (classStopped s c t0).twin = s.twin := rfl

theorem reg_classStopped (s : Dev) (c t0 : Nat) {o : Nat} (h : o ≠ CYC_NEXT_T0 c) : reg (classStopped s c t0) o = reg (classHalted s c) o := by
  rw [classStopped, reg_setReg_ne _ _ h, reg_setCls]

theorem next_classStopped (s : Dev) (c t0 : Nat) : reg (classStopped s c t0) (CYC_NEXT_T0 c) = 0 := by rw [classStopped, reg_setReg_same]

section
variable {s : Dev} {c : Nat}

theorem classRuns_classStopped (t0 : Nat) : classRuns (classStopped s c t0) c = false := by
  rw [classRuns, fbit_of_reg (reg_classStopped s c t0 (CYC_CLASS_CTRL_ne_CYC_NEXT_T0 c)), classHalted,
    fbit_fset_field _ _ _ _ (by decide) (by decide) (by decide) (by decide) (by decide)]
  exact fbit_fset_zero _ _ (by decide)

theorem stopping_classStopped (t0 : Nat) : fbit (classStopped s c t0) (CYC_CLASS_CTRL c) CYC_CLASS_CTRL_STOPPING = false := by
  rw [fbit_of_reg (reg_classStopped s c t0 (CYC_CLASS_CTRL_ne_CYC_NEXT_T0 c)), classHalted]
  exact fbit_fset_zero _ _ (by decide)

theorem number_classStopped (hc : c < 8) (t0 : Nat) : reg (classStopped s c t0) (CYC_NUMBER c) = reg s (CYC_NUMBER c) := by
  have hne : CYC_NUMBER c ≠ CYC_CLASS_CTRL c := fun h => CYC_CLASS_CTRL_not_kept hc (by rw [← h]; exact List.mem_cons_self)
  rw [reg_classStopped s c t0 (CYC_NUMBER_ne_CYC_NEXT_T0 c), classHalted, reg_fset_ne _ _ _ hne, reg_fset_ne _ _ _ hne]

theorem joinStopped_of_empty (h : s.twin.joinWait = []) : joinStopped s c = s := by
  simp only [joinStopped, h, List.contains_nil, Bool.false_and, Bool.false_eq_true, if_false]

/-- The first boundary of a class that waits for it. -/
theorem boundary_of_armed (hon : domOn s 76 = true) (hrun : classRuns s c = false) (harmed : (cls s c).armed = true) :
    boundary s c = openCycle (classStarted s c (boundaryNs s c (cls s c).nextM)) c (boundaryNs s c (cls s c).nextM) := by
  simp only [boundary, hon, hrun, harmed, Bool.not_true, Bool.false_eq_true, if_false, if_true, classStarted]

/-- A boundary of a class that runs, no entry of whose cycle is still to run. -/
theorem boundary_of_running (hon : domOn s 76 = true) (hrun : classRuns s c = true) (hstill : stillToRun s c = []) (t0 : Nat)
    (ht0 : boundaryNs s c (cls s c).nextM = t0) :
    boundary s c = if fbit (endCycle (advanceTo s t0) c) (CYC_CLASS_CTRL c) CYC_CLASS_CTRL_STOPPING
      then joinStopped (classStopped (endCycle (advanceTo s t0) c) c t0) c else openCycle (endCycle (advanceTo s t0) c) c t0 := by
  simp only [boundary, hon, hrun, hstill, ht0, Bool.not_true, Bool.false_eq_true, if_false, if_true, List.foldl_nil, classStopped, classHalted]

/-- The end of a cycle at its boundary: the class cycle number is one more. -/
theorem ended_kept (hc : c < 8) (t0 : Nat) (hlists : ∀ j ∈ s.hist.lists, j.cls ≠ c) : BoundaryKept (StageRegs c) s (endCycle (advanceTo s t0) c) ∧
    reg (endCycle (advanceTo s t0) c) (CYC_NUMBER c) = reg s (CYC_NUMBER c) + 1 ∧ t0 ≤ nowNs (endCycle (advanceTo s t0) c) := by
  have hadv : BoundaryKept (BoundaryRegs c) s (advanceTo s t0) := .advanceTo s t0
  have hlists' : ∀ j ∈ (advanceTo s t0).hist.lists, j.cls ≠ c := by rw [hadv.lists]; exact hlists
  have hend := endCycle_kept hc hlists'
  refine ⟨(hadv.mono (fun _ ho => List.mem_cons_of_mem _ ho)).trans hend, ?_, (le_nowNs_advanceTo s t0).trans hend.nowNs_le⟩
  rw [number_endCycle hc hlists', hadv.regs _ List.mem_cons_self]

end

theorem exec_classBoundary (c : ClassId) (s : State) : exec (.classBoundary c) s = .next { s with dev := boundary s.dev c.val } := rfl

theorem stageRegs_mem (c : Nat) : CYC_CLASS_CTRL c ∈ StageRegs c ∧ CYC_PERIOD c ∈ StageRegs c ∧ TWIN_CTRL ∈ StageRegs c := by simp [StageRegs]

/-- Settles O38: an enable records its check and arms the class, a disable stops it, the first boundary opens a cycle under the number held, a later one
ends its cycle and opens the next or ends the class. -/
theorem classesAndBoundaries : Obligations.ClassesAndBoundaries := by
  refine ⟨fun s c hon hstop => ⟨exec_classEnable_of_off hon hstop, exec_classDisable_of_on hon hstop⟩, ?_⟩
  intro s c t0 hon htwin hjournal hjoin hlists hstill hentries
  have hquiet : Quiet s.dev c.val := ⟨htwin, hjournal, hentries⟩
  obtain ⟨hctrl, hperiod, htwinmem⟩ := stageRegs_mem c.val
  refine ⟨fun hrun harmed => ?_, fun hrun hstop => ?_, fun hrun hstop => ?_⟩
  · have hk := classStarted_kept c.isLt s.dev t0
    obtain ⟨htwin', hjournal', hentries'⟩ := hquiet.of_kept hk (by simp)
    have hopen := openCycle_opened t0 c.isLt htwin' hjournal' hentries'
    obtain ⟨hcls, hnext, hthreads, hstorage⟩ := hopen.of_kept hk (by simp)
    refine ⟨_, exec_classBoundary c s, ?_⟩
    rw [boundary_of_armed hon hrun harmed]
    exact ⟨(classRuns_of_reg hopen.ctrl).trans (fbit_fset_one _ _ (by decide)), hopen.number.trans (hk.regs _ (by simp)), hcls,
      (le_nowNs_classStarted c.isLt s.dev t0).trans (Nat.div_le_div_right hopen.time), hnext, hthreads, hstorage⟩
  · obtain ⟨hk, hnumber, htime⟩ := ended_kept c.isLt t0 hlists
    obtain ⟨htwin', hjournal', hentries'⟩ := hquiet.of_kept hk htwinmem
    have hopen := openCycle_opened t0 c.isLt htwin' hjournal' hentries'
    obtain ⟨hcls, hnext, hthreads, hstorage⟩ := hopen.of_kept hk hperiod
    refine ⟨_, exec_classBoundary c s, ?_⟩
    rw [boundary_of_running hon hrun hstill t0 rfl, if_neg (by rw [hk.fbit hctrl, hstop]; exact Bool.false_ne_true)]
    exact ⟨(classRuns_of_reg (hopen.ctrl.trans (hk.regs _ hctrl))).trans hrun, hopen.number.trans hnumber, hcls,
      htime.trans (Nat.div_le_div_right hopen.time), hnext, hthreads, hstorage⟩
  · obtain ⟨hk, hnumber, -⟩ := ended_kept c.isLt t0 hlists
    refine ⟨_, exec_classBoundary c s, ?_⟩
    rw [boundary_of_running hon hrun hstill t0 rfl, if_pos ((hk.fbit hctrl _).trans hstop),
      joinStopped_of_empty ((congrArg TwinSt.joinWait ((classStopped_twin _ _ _).trans hk.twin)).trans hjoin)]
    exact ⟨classRuns_classStopped t0, stopping_classStopped t0, (number_classStopped c.isLt t0).trans hnumber, next_classStopped _ _ _,
      (classStopped_threads _ _ _).trans hk.threads, hk.storage.trans (classStopped_storage _ _ _)⟩

end Sys2Proof.Machine
end

section
/-! PROOFS. A SAMPLE under an I/O translation that is no whole page: the word the historian writes reaches past the end of DRAM (08 R303, R315, 12 R462). -/
namespace Sys2Proof.Machine

/-- A buffer whose open sample block takes one more record; its first block starts with seven bytes 0xFF. -/
def almostFullBuf : HBuf := { firstSeq := 2 ^ 56 - 1, cur := some { kind := 1, count := 337 } }

/-- A class whose next entry is a SAMPLE of one signal of an output region. DRAM ends at 2^34; the I/O translation cache maps address 0 to the last byte of DRAM,
by an entry of one byte, which the sizes of 12 R451 exclude and the state's type does not. -/
def straddlingDev : Dev :=
  let d : Dev :=
    { doms := [(24, 2), (25, 2), (76, 2), (77, 2)]
      time := 10 ^ 19
      cyc := { pricking := [(3, BitVec.ofNat 64 (6 * 2 ^ 60 + 500 * 2 ^ 30 + 2))], classes := [(0, { t0 := 1000000, nextM := 2 })] }
      ioTlb := [{ part := 0, ipaPage := 0, physPage := 2 ^ 34 - 1, perm := 2, size := 0 }]
      hist :=
        { d0 := [(hKey 1 2, BitVec.ofNat 64 (2 ^ 41 + 2 ^ 20 + 11)), (hKey 2 11, BitVec.ofNat 64 (2 ^ 28))]
          timeNow := some 1000500
          openBuf := some almostFullBuf } }
  let running := fset (fset d (CYC_CLASS_CTRL 0) CYC_CLASS_CTRL_RUNNING 1) (CYC_PERIOD 0) CYC_PERIOD_PERIOD 4000
  let pair := fset (fset running (IMG_REGION 0 0) IMG_REGION_COUNT 8) (IMG_CTRL 0) IMG_CTRL_ENABLE 1
  fset (fset (fset pair (BK_SHARE 0) BK_SHARE_MASK 0x1000000) (MC_STATUS 0) MC_STATUS_CAPACITY 1) HIST_STATUS HIST_STATUS_STATE 2

theorem straddlingDev_next : NextAction straddlingDev 0 3 6 ⟨3, 6, 500, 2⟩ := by
  unfold NextAction
  decide +kernel

/-- The byte behind the end of DRAM is no byte of DRAM, and the SAMPLE changes it. -/
theorem straddlingDev_overwrites : inDram straddlingDev (2 ^ 34) = false ∧ rdByte straddlingDev (2 ^ 34) = 0 ∧
    rdByte (runEntry straddlingDev 0 3 6 1) (2 ^ 34) = 255 := by
  decide +kernel

theorem dev_of_exec_sampleAction {c : ClassId} {e : Fin 64} {n : Nat} {s : State} {d : Dev}
    (h : exec (.sampleAction c e n) s = .next { s with dev := d }) : runEntry s.dev c.val e.val 6 n = d :=
  congrArg State.dev (Host.Outcome.next.inj h)

/-- Refutes O37: the block that a SAMPLE completes is written word by word, and a word is judged by its first byte alone; where the translation puts that byte at
the last one of DRAM, the other seven bytes of the word change storage outside DRAM. -/
theorem not_prickingActionsAndSamples : ¬ Obligations.PrickingActionsAndSamples := by
  intro h
  obtain ⟨-, hsample⟩ := h
  obtain ⟨d, hexec, -, -, -, -, hbytes, -⟩ := hsample { dev := straddlingDev } 0 3 ⟨3, 6, 500, 2⟩ 11 (BitVec.ofNat 64 (2 ^ 28)) almostFullBuf straddlingDev_next
    (by decide +kernel) (by decide +kernel) (by decide +kernel) (by decide +kernel) (by decide +kernel) (by decide +kernel) (by decide +kernel)
    (by decide +kernel) (by decide +kernel) (by decide +kernel) (by decide +kernel) (by decide +kernel) (by decide +kernel) (by decide +kernel)
    (by decide +kernel) (by decide +kernel) (by decide +kernel) (by decide +kernel) (by decide +kernel) (by decide +kernel)
  obtain ⟨houtside, hbefore, hafter⟩ := straddlingDev_overwrites
  have hkept : rdByte d (2 ^ 34) = 0 := (hbytes _ houtside).trans hbefore
  rw [← dev_of_exec_sampleAction hexec] at hkept
  exact absurd (hafter.symm.trans hkept) (by decide)

end Sys2Proof.Machine
end

section
/-! PROOFS. Device time and its loss, and the events counted in the second after a record (04 R114, R116, R159). -/
namespace Sys2Proof.Machine

/-! ## CYC_TIME and holdover (R114, R116) -/

theorem exec_cycTime {s : State} (hon : domOn s.dev 76 = true) (who : Agent) : exec (.cycTime who) s = .next { s with dev := readCycTime s.dev } := by
  have harm : exec (.cycTime who) s = onDev s (fun d => whenOn d 76 readCycTime) := rfl
  simp only [harm, onDev, whenOn, hon, if_true]

/-- The device with the value that a read of a register gave. -/
def dataRead (s : Dev) (v : Word) : Dev := { s with readData := v }

theorem readCycTime_eq (s : Dev) : readCycTime s = dataRead (fset s CYC_TIME_FRAC CYC_TIME_FRAC_FRAC (nowFrac s)) (BitVec.ofNat 64 (nowNs s)) := rfl

section
variable (s : Dev) (v : Word)

theorem readData_dataRead : (dataRead s v).readData = v := rfl
theorem reg_dataRead (o : Nat) : reg (dataRead s v) o = reg s o := rfl
theorem fget_dataRead (o : Nat) (f : Nat × Nat) : fget (dataRead s v) o f = fget s o f := rfl
theorem dataRead_time : (dataRead s v).time = s.time := rfl
theorem dataRead_threads : (dataRead s v).threads = s.threads := rfl
theorem dataRead_storage : StorageKept s (dataRead s v) := storageKept_of_fields rfl rfl rfl

end

theorem exec_holdover (s : State) : exec .holdover s = .next { s with dev := holdover s.dev } := rfl

/-- The device whose selected domain is lost, and the NOTICE of it. -/
def heldOver (s : Dev) : Dev := logRec (fset s CYC_TIME_STATUS CYC_TIME_STATUS_STATE 3) NOTICE SB_CYC 0 0x0404 []

theorem holdover_of_synced {s : Dev} (hdomain : fget s CYC_CTRL CYC_CTRL_TSRC < 2) (hstate : fget s CYC_TIME_STATUS CYC_TIME_STATUS_STATE ≠ 3) :
    holdover s = heldOver s := by
  simp only [holdover, heldOver, hdomain, bne_iff_ne.2 hstate, decide_true, Bool.and_self, if_true]

theorem sansLogs_heldOver (s : Dev) : sansLogs (heldOver s) = sansLogs s := by rw [heldOver, sansLogs_logRec, sansLogs_fset]

theorem state_heldOver (s : Dev) : fget (heldOver s) CYC_TIME_STATUS CYC_TIME_STATUS_STATE = 3 := by
  have hkept : reg (heldOver s) CYC_TIME_STATUS = reg (fset s CYC_TIME_STATUS CYC_TIME_STATUS_STATE 3) CYC_TIME_STATUS :=
    (smpRecord_sampler _ _).regs _ (not_samplerReg_of_lt (by decide))
  rw [fget, hkept]
  exact fget_fset_same _ _ _ _ (by decide) (by decide)

/-! ## What a record does to the Sampler -/

/-- The state of the Sampler. A function of its own, so that the kernel compares the devices it is applied to and not their fields. -/
def smpOf (d : Dev) : SmpSt := d.smp

section
variable (s : Dev)

theorem smpOf_ctr (x : CtrSt) : smpOf { s with ctr := x } = smpOf s := rfl
theorem smpOf_trc (x : TrcSt) : smpOf { s with trc := x } = smpOf s := rfl
theorem smpOf_fset (o : Nat) (f : Nat × Nat) (n : Nat) : smpOf (fset s o f n) = smpOf s := rfl
theorem smpOf_fincSat (o : Nat) (f : Nat × Nat) (n : Nat) : smpOf (fincSat s o f n) = smpOf s := rfl
theorem smpOf_fincWrap (o : Nat) (f : Nat × Nat) (n : Nat) : smpOf (fincWrap s o f n) = smpOf s := rfl

theorem smpOf_trcHub (kind : Nat) (p : List Byte) : smpOf (trcHub s kind p) = smpOf s := by
  unfold trcHub trcAdmit
  dsimp only
  split
  · split <;> rfl
  · rfl

theorem smpOf_snapCause (cause : Nat) : smpOf (snapCause s cause) = smpOf s := by
  unfold snapCause
  split
  · split
    · split
      · exact smpOf_ctr _ _
      · exact smpOf_fincSat _ _ _ _
    · exact smpOf_fincSat _ _ _ _
  · exact (smpOf_ctr _ _).trans (smpOf_fset _ _ _ _)

theorem smpOf_snapTrig (trig cause : Nat) : smpOf (snapTrig s trig cause) = smpOf s := by
  unfold snapTrig
  split
  · exact smpOf_snapCause _ _
  · rfl

theorem smpOf_trcTrigger (kind : Nat) : smpOf (trcTrigger s kind) = smpOf s := by
  unfold trcTrigger
  split
  · extract_lets s1 s2 src s3
    have h1 : smpOf s1 = smpOf s := smpOf_trcHub _ _ _
    have h2 : smpOf s2 = smpOf s := (smpOf_fset _ _ _ _).trans h1
    have h3 : smpOf s3 = smpOf s := (smpOf_trc _ _).trans h2
    exact (smpOf_snapTrig _ _ _).trans h3
  · rfl
end

/-- A record of severity FATAL lights FAULT_N for a second. -/
def faultLit (s : Dev) (sev : Nat) : Dev := if sev = 5 then { s with smp := { s.smp with faultUntil := s.smp.op + opSecond } } else s

theorem smpOf_faultLit (s : Dev) (sev : Nat) : (smpOf (faultLit s sev)).op = (smpOf s).op ∧ (smpOf (faultLit s sev)).ram = (smpOf s).ram := by
  unfold faultLit
  split <;> exact ⟨rfl, rfl⟩

/-- A record takes its slot of the RAM store, or is dropped and counted. -/
def slotTaken (s : Dev) (r : SRec) : Dev :=
  if s.smp.ram.length < 1024 then { s with smp := { s.smp with ram := s.smp.ram ++ [r] } }
  else
    match ramEvict r.sev s.smp.ram with
    | some l => { s with smp := { s.smp with ram := l ++ [r] } }
    | none => fincSat s SMP_DROPPED (SMP_DROPPED_SEV r.sev) 1

theorem slotTaken_op (s : Dev) (r : SRec) : (smpOf (slotTaken s r)).op = (smpOf s).op := by
  unfold slotTaken
  split
  · rfl
  · split <;> rfl

theorem slotTaken_of_room {s : Dev} (h : (smpOf s).ram.length < 1024) (r : SRec) : (smpOf (slotTaken s r)).ram = (smpOf s).ram ++ [r] := by
  rw [slotTaken, if_pos (show s.smp.ram.length < 1024 from h)]
  rfl

/-- The record with its SEQ and its stamp. -/
def stamped (s : Dev) (r : SRec) : SRec :=
  { r with seq := fget s SMP_STATUS SMP_STATUS_NEXT_SEQ, hours := s.smp.hours, secs := opSeconds s, cycles := s.smp.cycles
           flashPend := decide (4 ≤ r.sev) || r.summary }

theorem smpStore_of_admitted {s : Dev} {r : SRec} (h : ¬ r.sev < fget s SMP_CTRL SMP_CTRL_RAM_MIN) :
    smpStore s r = slotTaken (faultLit (fincWrap s SMP_STATUS SMP_STATUS_NEXT_SEQ 1) r.sev) (stamped s r) := by
  unfold smpStore
  rw [if_neg h]
  rfl

/-- Storing a record takes no operating time, and one with a slot to go to stands at the end of the RAM store. -/
theorem smpStore_op (s : Dev) (r : SRec) : (smpOf (smpStore s r)).op = (smpOf s).op := by
  by_cases h : r.sev < fget s SMP_CTRL SMP_CTRL_RAM_MIN
  · rw [smpStore, if_pos h]
  · rw [smpStore_of_admitted h, slotTaken_op, (smpOf_faultLit _ _).1, smpOf_fincWrap]

theorem smpStore_ram {s : Dev} {r : SRec} (h : StoresAtOnce s r.sev) : (smpOf (smpStore s r)).ram = (smpOf s).ram ++ [stamped s r] := by
  have hram : (smpOf (faultLit (fincWrap s SMP_STATUS SMP_STATUS_NEXT_SEQ 1) r.sev)).ram = (smpOf s).ram := by
    rw [(smpOf_faultLit _ _).2, smpOf_fincWrap]
  rw [smpStore_of_admitted (Nat.not_lt.2 h.admitted), slotTaken_of_room (by rw [hram]; exact h.room), hram]

/-- A record takes no operating time. -/
theorem smpRecord_op (s : Dev) (r : SRec) : (smpOf (smpRecord s r)).op = (smpOf s).op := by
  unfold smpRecord
  extract_lets s0
  have h0 : (smpOf s0).op = (smpOf s).op := by
    simp only [s0]
    split
    · exact congrArg SmpSt.op (smpOf_trcTrigger s 3)
    · rfl
  clear_value s0
  have hstore := (smpStore_op s0 r).trans h0
  split
  · exact hstore
  · split
    · exact h0
    · exact h0
    · exact hstore

/-! ## The events counted in the second after a record (R159) -/

theorem exec_rateLimitFlush (block inst : Byte) (code : BitVec 16) (s : State) :
    exec (.rateLimitFlush block inst code) s = .next { s with dev := rateFlush s.dev block.toNat inst.toNat code.toNat } := rfl

/-- A rate state found for a source and code is theirs. -/
theorem source_of_rateOf {block inst code : Nat} {l : List RateSt} {r : RateSt} (h : rateOf block inst code l = some r) :
    r.block = block ∧ r.inst = inst ∧ r.code = code := by
  induction l with
  | nil => cases h
  | cons x l ih =>
    rw [rateOf] at h
    split at h
    · next hx => exact Option.some.inj h ▸ hx
    · exact ih h

/-- A rate state put in its place is the one found there. -/
theorem rateOf_setRate (x : RateSt) (l : List RateSt) : rateOf x.block x.inst x.code (setRate x l) = some x := by
  induction l with
  | nil => simp only [setRate, rateOf, and_self, if_true]
  | cons r l ih =>
    rw [setRate]
    split
    · simp only [rateOf, and_self, if_true]
    · next hr => rw [rateOf, if_neg hr, ih]

/-- The record that stands for the events counted. -/
def countedRec (r : RateSt) (block inst code : Nat) : SRec :=
  { sev := r.sev, code := code, block := block, inst := inst, count := sat 0xFFFF r.counted, payload := r.payload }

/-- The count of a source and code starts again from the time of its record. -/
def rateCleared (s : Dev) (r : RateSt) : Dev := { s with smp := { s.smp with rates := setRate { r with last := s.smp.op, counted := 0 } s.smp.rates } }

/-- Events counted are recorded when a second has passed since the last record. -/
theorem rateFlush_of_counted {s : Dev} {block inst code : Nat} {r : RateSt} (hr : rateOf block inst code s.smp.rates = some r) (hc : r.counted ≠ 0) :
    ∃ time op, r.last + opSecond ≤ op ∧ rateFlush s block inst code = rateCleared (smpRecord (atTime s time op) (countedRec r block inst code)) r := by
  obtain ⟨time, op, hadvance, hop⟩ := advanceOp_eq_atTime s (r.last + opSecond)
  refine ⟨time, op, hop, ?_⟩
  simp only [rateFlush, hr, hc, if_false, hadvance]
  rfl

section
variable (s : Dev) (r : RateSt)

theorem rateOf_rateCleared : rateOf r.block r.inst r.code (smpOf (rateCleared s r)).rates = some { r with last := (smpOf s).op, counted := 0 } :=
  rateOf_setRate { r with last := (smpOf s).op, counted := 0 } (smpOf s).rates

theorem rateCleared_op : (smpOf (rateCleared s r)).op = (smpOf s).op := rfl
theorem rateCleared_ram : (smpOf (rateCleared s r)).ram = (smpOf s).ram := rfl
theorem rateCleared_threads : (rateCleared s r).threads = s.threads := rfl
theorem rateCleared_storage : StorageKept s (rateCleared s r) := storageKept_of_fields rfl rfl rfl

end

/-- A record that time has come for stands at the end of the RAM store. -/
theorem smpRecord_ram_atTime {s : Dev} {r : SRec} (h : StoresAtOnce s r.sev) (time op : Nat) :
    (smpOf (smpRecord (atTime s time op) r)).ram = (smpOf s).ram ++ [stamped (atTime s time op) r] := by
  have hthen : StoresAtOnce (atTime s time op) r.sev := ⟨h.noTrigger, h.noPhase, h.noSelfTest, h.admitted, h.room⟩
  rw [smpRecord_eq_smpStore hthen]
  exact smpStore_ram hthen

/-- The count of a source and code has been recorded: a second has passed since the last record, and the new one ends the RAM store. -/
structure RateFlushed (a b : Dev) (r : RateSt) : Prop where
  second : r.last + opSecond ≤ (smpOf b).op
  rates : rateOf r.block r.inst r.code (smpOf b).rates = some { r with last := (smpOf b).op, counted := 0 }
  threads : b.threads = a.threads
  storage : StorageKept a b
  ram : StoresAtOnce a r.sev → ∃ c : Dev, (smpOf b).ram = (smpOf a).ram ++ [stamped c (countedRec r r.block r.inst r.code)]

theorem rateFlush_flushed {s : Dev} {block inst code : Nat} {r : RateSt} (hr : rateOf block inst code s.smp.rates = some r) (hc : r.counted ≠ 0) :
    RateFlushed s (rateFlush s block inst code) r := by
  obtain ⟨rfl, rfl, rfl⟩ := source_of_rateOf hr
  obtain ⟨time, op, hop, hflush⟩ := rateFlush_of_counted hr hc
  have hrec := smpRecord_op (atTime s time op) (countedRec r r.block r.inst r.code)
  have hkept : sansLogs (smpRecord (atTime s time op) (countedRec r r.block r.inst r.code)) = sansLogs (atTime s time op) := sansLogs_smpRecord _ _
  have hthen : StorageKept s (atTime s time op) := storageKept_of_fields rfl rfl rfl
  rw [hflush]
  exact {
    second := by rw [rateCleared_op, hrec]; exact hop
    rates := by rw [rateOf_rateCleared, rateCleared_op]
    threads := (rateCleared_threads _ _).trans ((threads_of_sansLogs hkept).trans rfl)
    storage := (hthen.trans (storage_of_sansLogs hkept)).trans (rateCleared_storage _ _)
    ram := fun h => ⟨_, (rateCleared_ram _ _).trans (smpRecord_ram_atTime (r := countedRec r r.block r.inst r.code) h time op)⟩ }

end Sys2Proof.Machine
end

section
/-! PROOFS. The CYC tables: what an access by software reads and writes (04 R122, R132, R133, R161, R165, R166, 21 R707). -/
namespace Sys2Proof.Machine

/-! ## The index register -/

/-- CYC_TBL_INDEX names the entry and the direction of the access. -/
def cycIndexed (s : Dev) (table i w : Nat) : Dev :=
  fset (fset (fset s CYC_TBL_INDEX CYC_TBL_INDEX_TABLE table) CYC_TBL_INDEX CYC_TBL_INDEX_INDEX i) CYC_TBL_INDEX CYC_TBL_INDEX_WRITE w

/-- What an access leaves alone beside the tables: threads, storage, and every register but those of a list. -/
structure TblKept (a b : Dev) (l : List Nat) : Prop where
  threads : b.threads = a.threads
  storage : StorageKept a b
  regs : RegsKept a b l

theorem TblKept.trans {a b c : Dev} {l : List Nat} (h : TblKept a b l) (k : TblKept b c l) : TblKept a c l :=
  ⟨k.threads.trans h.threads, h.storage.trans k.storage, h.regs.trans k.regs⟩

theorem TblKept.mono {a b : Dev} {l m : List Nat} (h : TblKept a b l) (hlm : ∀ o ∈ l, o ∈ m) : TblKept a b m := ⟨h.threads, h.storage, h.regs.mono hlm⟩

theorem TblKept.fset (s : Dev) (o : Nat) (f : Nat × Nat) (n : Nat) : TblKept s (fset s o f n) [o] := ⟨fset_threads _ _ _ _, fset_storage _ _ _ _, fset_regs _ _ _ _⟩

theorem TblKept.setReg (s : Dev) (o : Nat) (v : Word) : TblKept s (setReg s o v) [o] :=
  ⟨setReg_threads _ _ _, storageKept_of_fields rfl rfl rfl, fun _ ho => reg_setReg_ne _ _ (by simpa using ho)⟩

section
variable (s : Dev) (table i w : Nat)

theorem cycIndexed_kept : TblKept s (cycIndexed s table i w) [CYC_TBL_INDEX] := ((TblKept.fset _ _ _ _).trans (.fset _ _ _ _)).trans (.fset _ _ _ _)

theorem cycIndexed_cyc : (cycIndexed s table i w).cyc = s.cyc := (fset_cyc _ _ _ _).trans ((fset_cyc _ _ _ _).trans (fset_cyc _ _ _ _))

theorem reg_cycIndexed {o : Nat} (h : o ≠ CYC_TBL_INDEX) : reg (cycIndexed s table i w) o = reg s o := (cycIndexed_kept _ _ _ _).regs o (by simpa using h)

theorem enable_cycIndexed (c : Nat) :
    fbit (cycIndexed s table i w) (CYC_CLASS_CTRL c) CYC_CLASS_CTRL_ENABLE = fbit s (CYC_CLASS_CTRL c) CYC_CLASS_CTRL_ENABLE := by
  refine fbit_of_reg (reg_cycIndexed _ _ _ _ ?_) _
  simp only [CYC_CLASS_CTRL, CYC_TBL_INDEX]
  omega

theorem classRuns_cycIndexed (c : Nat) : classRuns (cycIndexed s table i w) c = classRuns s c := by
  refine classRuns_of_reg (reg_cycIndexed _ _ _ _ ?_)
  simp only [CYC_CLASS_CTRL, CYC_TBL_INDEX]
  omega

theorem streamRefused_cycIndexed (kind : Nat) (v : Word) : streamRefused (cycIndexed s table i w) kind v = streamRefused s kind v := by
  have hregion (k r : Nat) : reg (cycIndexed s table i w) (IMG_REGION k r) = reg s (IMG_REGION k r) :=
    reg_cycIndexed _ _ _ _ (by simp only [IMG_REGION, CYC_TBL_INDEX]; omega)
  have hctrl (k : Nat) : reg (cycIndexed s table i w) (IMG_CTRL k) = reg s (IMG_CTRL k) :=
    reg_cycIndexed _ _ _ _ (by simp only [IMG_CTRL, CYC_TBL_INDEX]; omega)
  simp only [streamRefused, imgClass, fget, hregion, hctrl]

theorem cycEntry_of_cyc {a b : Dev} (h : b.cyc = a.cyc) (tb j : Nat) : cycEntry b tb j = cycEntry a tb j := by simp only [cycEntry, h]

theorem ingressNow_of_cyc {a b : Dev} (h : b.cyc = a.cyc) (j : Nat) : ingressNow b j = ingressNow a j := by simp only [ingressNow, h]

theorem egressNow_of_cyc {a b : Dev} (h : b.cyc = a.cyc) (j : Nat) : egressNow b j = egressNow a j := by simp only [egressNow, h]

end

/-! ## The commands -/

/-- An access by software reaches a table when DONE is 1 and the mesh has power. -/
def reached (s : Dev) (f : Dev → Dev) : Dev := whenOn s 76 (whenDone CYC_TBL_INDEX CYC_TBL_INDEX_DONE f)

theorem exec_cycTblRead (table : Fin 16) (i : BitVec 16) (s : State) :
    exec (.cycTblRead table i) s = .next { s with dev := reached s.dev (fun d => cycTblRead d table.val i.toNat) } := rfl

theorem exec_cycTblWrite (table : Fin 16) (i : BitVec 16) (s : State) :
    exec (.cycTblWrite table i) s = .next { s with dev := reached s.dev (fun d => cycTableWrite d table.val i.toNat) } := rfl

theorem reached_of_done {s : Dev} (hdone : fbit s CYC_TBL_INDEX CYC_TBL_INDEX_DONE = true) (hon : domOn s 76 = true) (f : Dev → Dev) : reached s f = f s := by
  simp only [reached, whenOn, whenDone, hdone, hon, if_true]

theorem reached_of_busy {s : Dev} (hbusy : fbit s CYC_TBL_INDEX CYC_TBL_INDEX_DONE = false) (f : Dev → Dev) : reached s f = s := by
  simp only [reached, whenOn, whenDone, hbusy, Bool.false_eq_true, if_false, ite_self]

/-! ## Beyond a table, and a read (R165, R166) -/

/-- An access that is dropped with an error bit. -/
structure TblDropped (a b : Dev) (f : Nat × Nat) : Prop where
  error : fbit b CYC_ERR f = true
  cyc : b.cyc = a.cyc
  kept : TblKept a b [CYC_TBL_INDEX, CYC_ERR]

theorem tblDropped_indexed (s : Dev) (table i w : Nat) {n : Nat} (hn : n < 64) : TblDropped s (fset (cycIndexed s table i w) CYC_ERR (n, n) 1) (n, n) :=
  ⟨fbit_fset_one _ _ hn, (fset_cyc _ _ _ _).trans (cycIndexed_cyc _ _ _ _), ((cycIndexed_kept _ _ _ _).mono (by simp)).trans ((TblKept.fset _ _ _ _).mono (by simp))⟩

section
variable {s : Dev} {table i : Nat}

theorem cycTblRead_beyond (h : cycTableSize table ≤ i) : cycTblRead s table i = fset (cycIndexed s table i 0) CYC_ERR CYC_ERR_TBL_RANGE 1 := if_pos h

/-- The data registers with the entry that a read found. -/
def entryRead (s : Dev) (table i : Nat) : Dev :=
  let s1 := setReg (cycIndexed s table i 0) CYC_TBL_DATA0 (cycEntry s table i).1
  if table = 6 ∨ table = 2 then setReg s1 CYC_TBL_DATA1 (cycEntry s table i).2 else s1

theorem cycTblRead_within (h : i < cycTableSize table) : cycTblRead s table i = entryRead s table i := if_neg (Nat.not_le.2 h)

variable (s table i)

theorem entryRead_kept : TblKept s (entryRead s table i) [CYC_TBL_INDEX, CYC_TBL_DATA0, CYC_TBL_DATA1] ∧ (entryRead s table i).cyc = s.cyc := by
  have h0 : TblKept s (setReg (cycIndexed s table i 0) CYC_TBL_DATA0 (cycEntry s table i).1) [CYC_TBL_INDEX, CYC_TBL_DATA0, CYC_TBL_DATA1] :=
    ((cycIndexed_kept _ _ _ _).mono (by simp)).trans ((TblKept.setReg _ _ _).mono (by simp))
  have hcyc := (setReg_cyc (cycIndexed s table i 0) CYC_TBL_DATA0 (cycEntry s table i).1).trans (cycIndexed_cyc s table i 0)
  unfold entryRead
  dsimp only
  split
  · exact ⟨h0.trans ((TblKept.setReg _ _ _).mono (by simp)), (setReg_cyc _ _ _).trans hcyc⟩
  · exact ⟨h0, hcyc⟩

theorem data0_entryRead : reg (entryRead s table i) CYC_TBL_DATA0 = (cycEntry s table i).1 := by
  unfold entryRead
  dsimp only
  split
  · rw [reg_setReg_ne _ _ (by decide), reg_setReg_same]
  · rw [reg_setReg_same]

theorem data1_entryRead (h : table = 6 ∨ table = 2) : reg (entryRead s table i) CYC_TBL_DATA1 = (cycEntry s table i).2 := by
  unfold entryRead
  rw [if_pos h, reg_setReg_same]

end

/-! ## An entry written (R122, R132, R133, R165) -/

/-- The entries of the tables after a value was put into one: the value there, with DATA1 in the tables of two words, and every other entry as it was. -/
theorem cycEntry_putCyc (s : Dev) {table tb : Nat} (htable : table ≤ 6) (htb : tb ≤ 6) (i j : Nat) (v : Word) :
    cycEntry (putCyc s table i v) tb j =
      if tb = table ∧ j = i then (v, if table = 6 ∨ table = 2 then reg s CYC_TBL_DATA1 else 0) else cycEntry s tb j := by
  by_cases hj : j = i
  · subst hj
    interval_cases table <;> interval_cases tb <;> simp [cycEntry, putCyc]
  · interval_cases table <;> interval_cases tb <;> simp [cycEntry, putCyc, mget_mset_ne _ _ _ hj, hj]

/-- A value has been put into an entry, and nothing else has changed but, it may be, the stream entries in force. -/
structure EntryPut (a b : Dev) (table i : Nat) (v : Word) : Prop where
  entry : (cycEntry b table i).1 = v
  second : table = 6 ∨ table = 2 → (cycEntry b table i).2 = reg a CYC_TBL_DATA1
  others : ∀ tb j, (tb, j) ≠ (table, i) → tb ≤ 6 → cycEntry b tb j = cycEntry a tb j
  kept : TblKept a b []

theorem putCyc_kept (s : Dev) (table i : Nat) (v : Word) : TblKept s (putCyc s table i v) [] := by
  unfold putCyc
  dsimp only
  split <;> exact ⟨rfl, storageKept_of_fields rfl rfl rfl, fun _ _ => rfl⟩

theorem putCyc_entryPut (s : Dev) {table : Nat} (h : table ≤ 6) (i : Nat) (v : Word) : EntryPut s (putCyc s table i v) table i v where
  entry := by rw [cycEntry_putCyc s h h, if_pos ⟨rfl, rfl⟩]
  second htwo := by rw [cycEntry_putCyc s h h, if_pos ⟨rfl, rfl⟩, if_pos htwo]
  others tb j hne htb := by rw [cycEntry_putCyc s h htb, if_neg (by simpa using hne)]
  kept := putCyc_kept s table i v

theorem cycEntry_applyStream (s : Dev) (t i tb j : Nat) : cycEntry (applyStream s t i) tb j = cycEntry s tb j := by
  unfold applyStream
  split <;> rfl

theorem applyStream_kept (s : Dev) (t i : Nat) : TblKept s (applyStream s t i) [] := by
  unfold applyStream
  split <;> exact ⟨rfl, storageKept_of_fields rfl rfl rfl, fun _ _ => rfl⟩

theorem EntryPut.applyStream {a b : Dev} {table i : Nat} {v : Word} (h : EntryPut a b table i v) (t j : Nat) :
    EntryPut a (applyStream b t j) table i v where
  entry := by rw [cycEntry_applyStream, h.entry]
  second htwo := by rw [cycEntry_applyStream, h.second htwo]
  others tb k hne htb := by rw [cycEntry_applyStream, h.others tb k hne htb]
  kept := h.kept.trans (applyStream_kept _ _ _)

theorem ingressNow_applied (s : Dev) (i : Nat) (v : Word) : ingressNow (applyStream (putCyc s 2 i v) 2 i) i = v := by
  simp only [ingressNow, applyStream, putCyc, if_true, mget_mset_same]

theorem egressNow_applied (s : Dev) (i : Nat) (v : Word) : egressNow (applyStream (putCyc s 3 i v) 3 i) i = v := by
  simp only [egressNow, applyStream, putCyc, (by decide : ¬ (3 = 2)), if_false, mget_mset_same]

/-- A write that is taken: its value is put, and a stream entry whose class does not run is in force at once (R133). -/
structure WriteTaken (l : List Nat) (a b : Dev) (table i : Nat) (v : Word) : Prop where
  entry : (cycEntry b table i).1 = v
  second : table = 6 ∨ table = 2 → (cycEntry b table i).2 = reg a CYC_TBL_DATA1
  ingress : table = 2 → classRuns a (governing (ingressNow a i) v) = false → ingressNow b i = v
  egress : table = 3 → classRuns a (governing (egressNow a i) v) = false → egressNow b i = v
  others : ∀ tb j, (tb, j) ≠ (table, i) → tb ≤ 6 → cycEntry b tb j = cycEntry a tb j
  kept : TblKept a b l

theorem EntryPut.taken {a b : Dev} {table i : Nat} {v : Word} (h : EntryPut a b table i v)
    (hin : table = 2 → classRuns a (governing (ingressNow a i) v) = false → ingressNow b i = v)
    (hout : table = 3 → classRuns a (governing (egressNow a i) v) = false → egressNow b i = v) : WriteTaken [] a b table i v :=
  ⟨h.entry, h.second, hin, hout, h.others, h.kept⟩

/-- What was taken after the index register was written. -/
theorem WriteTaken.of_indexed {s b : Dev} {table i w : Nat} {v : Word} (h : WriteTaken [] (cycIndexed s table i w) b table i v) :
    WriteTaken [CYC_TBL_INDEX] s b table i v where
  entry := h.entry
  second htwo := (h.second htwo).trans (reg_cycIndexed _ _ _ _ (by decide))
  ingress ht hrun := h.ingress ht (by rw [classRuns_cycIndexed, ingressNow_of_cyc (cycIndexed_cyc _ _ _ _), hrun])
  egress ht hrun := h.egress ht (by rw [classRuns_cycIndexed, egressNow_of_cyc (cycIndexed_cyc _ _ _ _), hrun])
  others tb j hne htb := (h.others tb j hne htb).trans (cycEntry_of_cyc (cycIndexed_cyc _ _ _ _) _ _)
  kept := (cycIndexed_kept _ _ _ _).trans (h.kept.mono (by simp))

section
variable {s : Dev} {i : Nat} {v : Word}

theorem cycPut_pricking (hi : i < 512) (hoff : fbit s (CYC_CLASS_CTRL (i / 64)) CYC_CLASS_CTRL_ENABLE = false) : cycPut s 0 i v true = putCyc s 0 i v := by
  simp only [cycPut, cycTableSize, Nat.not_le.2 hi, hoff, Bool.false_eq_true, if_false]

theorem cycPut_threads (hi : i < 2048) (hoff : fbit s (CYC_CLASS_CTRL (i / 256)) CYC_CLASS_CTRL_ENABLE = false) : cycPut s 1 i v true = putCyc s 1 i v := by
  simp only [cycPut, cycTableSize, Nat.not_le.2 hi, hoff, Bool.false_eq_true, if_false]

theorem cycPut_ingress (hi : i < 16384) (hok : streamRefused s 1 v = false) : cycPut s 2 i v true =
    if classRuns s (governing (ingressNow s i) v) then putCyc s 2 i v else applyStream (putCyc s 2 i v) 2 i := by
  simp only [cycPut, cycTableSize, Nat.not_le.2 hi, hok, Bool.not_true, Bool.false_eq_true, if_false]

/-- An egress write that concerns no enabled class runs no reaction check. -/
theorem cycPut_egress (hi : i < 16384) (hok : streamRefused s 2 v = false) (hnew : fbit s (CYC_CLASS_CTRL (bitsOf v S_CLASS)) CYC_CLASS_CTRL_ENABLE = false)
    (hold : fbit s (CYC_CLASS_CTRL (bitsOf (cycEntry s 3 i).1 S_CLASS)) CYC_CLASS_CTRL_ENABLE = false) : cycPut s 3 i v true =
    if classRuns s (governing (egressNow s i) v) then putCyc s 3 i v else applyStream (putCyc s 3 i v) 3 i := by
  have hnone : (if bitsOf (cycEntry s 3 i).1 S_EN = 1 ∧ bitsOf (cycEntry s 3 i).1 S_CLASS ≠ bitsOf v S_CLASS then [bitsOf (cycEntry s 3 i).1 S_CLASS]
      else []).filter (fun c => fbit s (CYC_CLASS_CTRL c) CYC_CLASS_CTRL_ENABLE) = [] := by
    split <;> simp [hold]
  simp only [cycEntry] at hnone
  simp only [cycPut, cycTableSize, Nat.not_le.2 hi, hok, List.filter_append, hnone, List.filter_singleton, hnew, List.append_nil, cond_false, List.map_nil, List.any_nil,
    List.foldl_nil, Bool.false_eq_true, if_false]

theorem cycPut_plain {table : Nat} (h4 : 4 ≤ table) (h6 : table ≤ 6) (hi : i < cycTableSize table) : cycPut s table i v true = putCyc s table i v := by
  interval_cases table <;> simp only [cycPut, Nat.not_le.2 hi, if_false]

/-- A stream write ends with its value put, and in force unless its class runs. -/
theorem streamPut_entryPut {table : Nat} (h : table ≤ 6) (running : Bool) :
    EntryPut s (if running then putCyc s table i v else applyStream (putCyc s table i v) table i) table i v := by
  have hput := putCyc_entryPut s h i v
  cases running
  · exact hput.applyStream table i
  · exact hput

theorem writeTaken_ingress (hi : i < 16384) (hok : streamRefused s 1 v = false) : WriteTaken [] s (cycPut s 2 i v true) 2 i v := by
  rw [cycPut_ingress hi hok]
  refine (streamPut_entryPut (by decide) _).taken (fun _ hrun => ?_) (fun h => absurd h (by decide))
  rw [if_neg (by rw [hrun]; exact Bool.false_ne_true), ingressNow_applied]

theorem writeTaken_egress (hi : i < 16384) (hok : streamRefused s 2 v = false) (hnew : fbit s (CYC_CLASS_CTRL (bitsOf v S_CLASS)) CYC_CLASS_CTRL_ENABLE = false)
    (hold : fbit s (CYC_CLASS_CTRL (bitsOf (cycEntry s 3 i).1 S_CLASS)) CYC_CLASS_CTRL_ENABLE = false) : WriteTaken [] s (cycPut s 3 i v true) 3 i v := by
  rw [cycPut_egress hi hok hnew hold]
  refine (streamPut_entryPut (by decide) _).taken (fun h => absurd h (by decide)) (fun _ hrun => ?_)
  rw [if_neg (by rw [hrun]; exact Bool.false_ne_true), egressNow_applied]

/-- A write to a table without streams puts its value. -/
theorem writeTaken_of_put {table : Nat} {d : Dev} (h : table ≤ 6) (h2 : table ≠ 2) (h3 : table ≠ 3) (hd : d = putCyc s table i v) : WriteTaken [] s d table i v :=
  hd ▸ (putCyc_entryPut s h i v).taken (fun h => absurd h h2) (fun h => absurd h h3)

end

/-! ## The write of software (R132, R165, 07 R271) -/

section
variable {s : Dev} {table i : Nat}

/-- A write that the twin's budget does not stop. -/
theorem cycTableWrite_eq (h : table = 2 → i < 16384 → streamRefused s 1 (reg s CYC_TBL_DATA0) = false → ingressBudget s i (reg s CYC_TBL_DATA0) = true) :
    cycTableWrite s table i = cycPut (cycIndexed s table i 1) table i (reg s CYC_TBL_DATA0) true := by
  refine if_neg fun hc => ?_
  obtain ⟨ht, hok, hi, hover⟩ := hc
  rw [h ht hi (by simpa using hok)] at hover
  cases hover

theorem cycTableWrite_beyond (h : cycTableSize table ≤ i) : cycTableWrite s table i = fset (cycIndexed s table i 1) CYC_ERR CYC_ERR_TBL_RANGE 1 := by
  rw [cycTableWrite_eq (fun ht hi => absurd hi (by subst ht; exact Nat.not_lt.2 h))]
  unfold cycPut
  exact if_pos h

/-- A stream write that R132 refuses. -/
theorem cycTableWrite_refused (hi : i < cycTableSize table)
    (hbad : table = 2 ∧ streamRefused s 1 (reg s CYC_TBL_DATA0) = true ∨ table = 3 ∧ streamRefused s 2 (reg s CYC_TBL_DATA0) = true) :
    cycTableWrite s table i = fset (cycIndexed s table i 1) CYC_ERR CYC_ERR_STREAM 1 := by
  obtain ⟨rfl, hbad⟩ | ⟨rfl, hbad⟩ := hbad
  · rw [cycTableWrite_eq (fun _ _ hok => by rw [hbad] at hok; cases hok)]
    simp only [cycPut, Nat.not_le.2 hi, streamRefused_cycIndexed, hbad, if_true, if_false]
  · rw [cycTableWrite_eq (fun ht => absurd ht (by decide))]
    simp only [cycPut, Nat.not_le.2 hi, streamRefused_cycIndexed, hbad, if_true, if_false]

theorem le_six_of_size (hi : i < cycTableSize table) : table ≤ 6 := by
  match table with
  | 0 | 1 | 2 | 3 | 4 | 5 | 6 => decide
  | _ + 7 => exact absurd hi (Nat.not_lt_zero i)

/-- A write is taken: to a Pricking or thread entry while its class is not enabled, to a stream entry that is not refused, within the twin's budget or while no class
it concerns is enabled, and to a profile or a coefficient at any time. -/
theorem cycTableWrite_taken (hi : i < cycTableSize table)
    (hmay : table = 0 ∧ fbit s (CYC_CLASS_CTRL (i / 64)) CYC_CLASS_CTRL_ENABLE = false ∨
      table = 1 ∧ fbit s (CYC_CLASS_CTRL (i / 256)) CYC_CLASS_CTRL_ENABLE = false ∨
      table = 2 ∧ streamRefused s 1 (reg s CYC_TBL_DATA0) = false ∧ ingressBudget s i (reg s CYC_TBL_DATA0) = true ∨
      table = 3 ∧ streamRefused s 2 (reg s CYC_TBL_DATA0) = false ∧ fbit s (CYC_CLASS_CTRL (bitsOf (reg s CYC_TBL_DATA0) S_CLASS)) CYC_CLASS_CTRL_ENABLE = false ∧
        fbit s (CYC_CLASS_CTRL (bitsOf (cycEntry s 3 i).1 S_CLASS)) CYC_CLASS_CTRL_ENABLE = false ∨
      4 ≤ table) :
    WriteTaken [CYC_TBL_INDEX] s (cycTableWrite s table i) table i (reg s CYC_TBL_DATA0) := by
  have hwrite : cycTableWrite s table i = cycPut (cycIndexed s table i 1) table i (reg s CYC_TBL_DATA0) true :=
    cycTableWrite_eq (fun ht _ _ => by subst ht; exact (by simpa using hmay : _ ∧ _).2)
  rw [hwrite]
  obtain ⟨rfl, hoff⟩ | ⟨rfl, hoff⟩ | ⟨rfl, hok, -⟩ | ⟨rfl, hok, hnew, hold⟩ | h4 := hmay
  · exact (writeTaken_of_put (by decide) (by decide) (by decide) (cycPut_pricking hi (by rw [enable_cycIndexed, hoff]))).of_indexed
  · exact (writeTaken_of_put (by decide) (by decide) (by decide) (cycPut_threads hi (by rw [enable_cycIndexed, hoff]))).of_indexed
  · exact (writeTaken_ingress hi (by rw [streamRefused_cycIndexed, hok])).of_indexed
  · exact (writeTaken_egress hi (by rw [streamRefused_cycIndexed, hok]) (by rw [enable_cycIndexed, hnew])
      (by rw [cycEntry_of_cyc (cycIndexed_cyc _ _ _ _), enable_cycIndexed, hold])).of_indexed
  · exact (writeTaken_of_put (le_six_of_size hi) (by omega) (by omega) (cycPut_plain h4 (le_six_of_size hi) hi)).of_indexed

end

/-! ## The statement -/

/-- Settles O40: each access leaves its own registers and its own entry behind, and each event of device time and of a rate limit what it says alone. -/
theorem cycleTimeAndTables : Obligations.CycleTimeAndTables := by
  intro s who table i block inst code
  refine ⟨fun hon => ?_, fun hdomain hstate => ?_, fun r n hr hc => ?_, fun hbusy => ?_, fun hdone hon hbeyond => ?_, fun hdone hon hin => ?_, fun hdone hon hin => ?_⟩
  · refine ⟨_, exec_cycTime hon who, ?_⟩
    rw [readCycTime_eq]
    refine ⟨readData_dataRead _ _, ?_, fun o ho => (reg_dataRead _ _ o).trans (fset_regs _ _ _ _ o ho), (dataRead_time _ _).trans (fset_time _ _ _ _),
      (dataRead_threads _ _).trans (fset_threads _ _ _ _), (fset_storage _ _ _ _).trans (dataRead_storage _ _)⟩
    rw [fget_dataRead]
    exact fget_fset_same _ _ _ _ (by decide) (by decide)
  · have hkept := sansLogs_heldOver s.dev
    rw [exec_holdover, holdover_of_synced hdomain hstate]
    exact ⟨_, rfl, state_heldOver _, (congrArg Dev.time hkept :), (congrArg Dev.rate hkept :), threads_of_sansLogs hkept, storage_of_sansLogs hkept⟩
  · have hflushed := rateFlush_flushed hr (by omega)
    rw [exec_rateLimitFlush]
    generalize rateFlush s.dev block.toNat inst.toNat code.toNat = d at hflushed
    obtain ⟨hblock, hinst, hcode⟩ := source_of_rateOf hr
    obtain ⟨hsecond, hrates, hthreads, hstorage, hram⟩ := hflushed
    refine ⟨d, rfl, hsecond, by rw [← hblock, ← hinst, ← hcode]; exact hrates, hthreads, hstorage, fun hphase htest hmin hroom hkind => ?_⟩
    obtain ⟨c, hram⟩ := hram ⟨hkind, hphase, htest, hmin, hroom⟩
    exact ⟨_, hram, rfl, hcode, hblock, hinst, (congrArg (sat 0xFFFF) hc).trans (by rw [sat]; split <;> omega), rfl⟩
  · have hread := exec_cycTblRead table i s
    have hwrite := exec_cycTblWrite table i s
    rw [reached_of_busy hbusy] at hread hwrite
    simpa only [List.forall_mem_cons, List.not_mem_nil, false_imp_iff, implies_true, and_true] using ⟨hread, hwrite⟩
  · have hread := exec_cycTblRead table i s
    have hwrite := exec_cycTblWrite table i s
    rw [reached_of_done hdone hon, cycTblRead_beyond hbeyond] at hread
    rw [reached_of_done hdone hon, cycTableWrite_beyond hbeyond] at hwrite
    obtain ⟨herror, hcyc, hkept⟩ := tblDropped_indexed s.dev table.val i.toNat 0 (n := 0) (by decide)
    obtain ⟨herror1, hcyc1, hkept1⟩ := tblDropped_indexed s.dev table.val i.toNat 1 (n := 0) (by decide)
    simp only [List.forall_mem_cons, List.not_mem_nil, false_imp_iff, implies_true, and_true]
    exact ⟨⟨_, hread, herror, hkept.regs, hcyc, hkept.threads, hkept.storage⟩, ⟨_, hwrite, herror1, hkept1.regs, hcyc1, hkept1.threads, hkept1.storage⟩⟩
  · obtain ⟨hkept, hcyc⟩ := entryRead_kept s.dev table.val i.toNat
    rw [exec_cycTblRead, reached_of_done hdone hon, cycTblRead_within hin]
    exact ⟨_, rfl, data0_entryRead _ _ _, data1_entryRead _ _ _, hkept.regs, hcyc, hkept.threads, hkept.storage⟩
  · intro v on
    rw [exec_cycTblWrite, reached_of_done hdone hon]
    refine ⟨fun hmay => ?_, fun hbad => ?_⟩
    · obtain ⟨hentry, hsecond, hingress, hegress, hothers, hkept⟩ := cycTableWrite_taken hin hmay
      exact ⟨_, rfl, hentry, hsecond, hingress, hegress, hothers, hkept.regs, hkept.threads, hkept.storage⟩
    · obtain ⟨herror, hcyc, hkept⟩ := tblDropped_indexed s.dev table.val i.toNat 1 (n := 2) (by decide)
      rw [cycTableWrite_refused hin hbad]
      exact ⟨_, rfl, herror, hcyc, hkept.regs, hkept.threads, hkept.storage⟩

end Sys2Proof.Machine
end

section
/-! PROOFS. What the engines' reads of banks and the Ports of Erg leave alone, and the time a scatter takes. -/
namespace Sys2Proof.Machine

/-! ## The device without its traffic -/

/-- The device without its logs, its bank ports and Erg. -/
def sansTraffic (d : Dev) : Dev := { sansLogs d with banks := [], erg := {} }

/-- Nothing but registers, logs, bank ports and Erg has changed since `a`. -/
def TrafficOnly (a s : Dev) : Prop := sansTraffic s = sansTraffic a

theorem TrafficOnly.refl (a : Dev) : TrafficOnly a a := rfl

section
variable {a s : Dev} (h : TrafficOnly a s)
include h

theorem TrafficOnly.cyc : s.cyc = a.cyc := (congrArg Dev.cyc h :)
theorem TrafficOnly.credits : s.credits = a.credits := (congrArg Dev.credits h :)
theorem TrafficOnly.threads : s.threads = a.threads := (congrArg Dev.threads h :)
theorem TrafficOnly.img : s.img = a.img := (congrArg Dev.img h :)
theorem TrafficOnly.time : s.time = a.time := (congrArg Dev.time h :)
theorem TrafficOnly.storage : StorageKept a s :=
  storageKept_of_fields (congrArg Dev.mem h :) (congrArg Dev.tags h :) (congrArg Dev.poison h :)

theorem TrafficOnly.sansLogs {b : Dev} (hb : sansLogs b = sansLogs s) : TrafficOnly a b :=
  (show sansTraffic b = sansTraffic s from congrArg (fun d : Dev => { d with banks := [], erg := {} }) hb).trans h

theorem TrafficOnly.setBank (n : Nat) (x : BankSt) : TrafficOnly a (setBank s n x) := h
theorem TrafficOnly.modErg (f : ErgSt → ErgSt) : TrafficOnly a (modErg s f) := h
theorem TrafficOnly.setReg (o : Nat) (v : Word) : TrafficOnly a (setReg s o v) := h
theorem TrafficOnly.fset (o : Nat) (f : Nat × Nat) (n : Nat) : TrafficOnly a (fset s o f n) := h.setReg _ _
theorem TrafficOnly.fincSat (o : Nat) (f : Nat × Nat) (n : Nat) : TrafficOnly a (fincSat s o f n) := h.fset _ _ _
theorem TrafficOnly.countEv (base size ev n : Nat) : TrafficOnly a (countEv s base size ev n) := h.sansLogs (sansLogs_countEv _ _ _ _ _)
theorem TrafficOnly.countImg (k ev n : Nat) : TrafficOnly a (countImg s k ev n) := h.sansLogs (sansLogs_countImg _ _ _ _)
theorem TrafficOnly.countBank (n ev k : Nat) : TrafficOnly a (countBank s n ev k) := h.sansLogs (sansLogs_countBank _ _ _ _)

omit h in
theorem TrafficOnly.ite {c : Prop} [Decidable c] {x y : Dev} (hx : TrafficOnly a x) (hy : TrafficOnly a y) : TrafficOnly a (if c then x else y) :=
  iteInduction (motive := TrafficOnly a) (fun _ => hx) (fun _ => hy)

omit h in
theorem TrafficOnly.ite_snd {α : Type} {c : Prop} [Decidable c] {x y : α × Dev} (hx : TrafficOnly a x.2) (hy : TrafficOnly a y.2) :
    TrafficOnly a (if c then x else y).2 :=
  iteInduction (motive := fun p : α × Dev => TrafficOnly a p.2) (fun _ => hx) (fun _ => hy)

omit h in
/-- An answer taken apart. -/
theorem TrafficOnly.snd {α : Type} {p : α × Dev} {x : α} {d : Dev} (hp : TrafficOnly a p.2) (e : p = (x, d)) : TrafficOnly a d := by
  rw [e] at hp
  exact hp

omit h in
theorem TrafficOnly.foldl {β : Type} {f : Dev → β → Dev} (hf : ∀ d e, TrafficOnly a d → TrafficOnly a (f d e)) (l : List β) :
    ∀ d, TrafficOnly a d → TrafficOnly a (l.foldl f d) := by
  induction l with
  | nil => exact fun _ hd => hd
  | cons e l ih => exact fun d hd => ih _ (hf d e hd)

theorem TrafficOnly.fmax (o : Nat) (f : Nat × Nat) (n : Nat) : TrafficOnly a (fmax s o f n) := .ite (h.fset _ _ _) h

/-! ## Reads of banks (02 R83, R86, 03 R100, 04 R138) -/

theorem TrafficOnly.usePort (n place code words : Nat) : TrafficOnly a (usePort s n place code words) := .ite (h.setBank _ _) (h.setBank _ _)

theorem TrafficOnly.countRefusal (n code : Nat) : TrafficOnly a (countRefusal s n code) := ((h.fincSat _ _ _).fset _ _ _).countBank _ _ _

theorem TrafficOnly.refusePair (k code : Nat) : TrafficOnly a (refusePair s k code) := (h.fset _ _ _).countRefusal _ _

theorem TrafficOnly.noteRefused (m : Master) (n : Nat) : TrafficOnly a (noteRefused s m n) := .ite (h.refusePair _ _) (h.countRefusal _ _)

theorem TrafficOnly.pairReadNote (k r w p : Nat) : TrafficOnly a (pairReadNote s k r w p).2 :=
  .ite ((((h.fincSat _ _ _).fset _ _ _).fset _ _ _).countImg _ _ _) h

theorem TrafficOnly.masterReadWord (code pa : Nat) : TrafficOnly a (masterReadWord s code pa).2 := by
  unfold Machine.masterReadWord
  split
  · exact h
  · split
    · exact h
    · split
      · exact h.noteRefused _ _
      · exact h.usePort _ _ _ _
      · exact (h.pairReadNote _ _ _ _).usePort _ _ _ _

theorem TrafficOnly.fetchDesc (k b w : Nat) : TrafficOnly a (fetchDesc s k b w).2 := by
  unfold Machine.fetchDesc
  split
  · exact h
  · split
    · exact h
    · split
      · next e => exact (h.masterReadWord _ _).snd e
      · next e => exact (h.masterReadWord _ _).snd e

theorem TrafficOnly.descError (c : Nat) : TrafficOnly a (descError s c) := (h.fincSat _ _ _).fset _ _ _

/-! ## A gather reads alone (04 R147 to R149) -/

theorem TrafficOnly.gatherWord (k r word : Nat) : TrafficOnly a (gatherWord s k r word).2 :=
  .ite_snd (((h.pairReadNote _ _ _ _).usePort _ _ _ _).countImg _ _ _) (h.refusePair _ _)

theorem TrafficOnly.fetchTemplate (k b n w : Nat) : TrafficOnly a (fetchTemplate k b n w s).2 := by
  induction n generalizing w s with
  | zero => exact h
  | succ n ih =>
    rw [Machine.fetchTemplate]
    split
    · next e => exact (h.fetchDesc _ _ _).snd e
    · next e =>
      have hrest := ih ((h.fetchDesc _ _ _).snd e) (w + 1)
      split
      · next e1 => exact hrest.snd e1
      · next e1 => exact hrest.snd e1

end

section
variable {a : Dev} {x : GathRun} {c : Nat} (h : TrafficOnly a x.dev)
include h

theorem closeSpan_traffic : TrafficOnly a (closeSpan c x).dev := by
  unfold closeSpan
  split
  · exact h
  · dsimp only
    split
    · exact h
    · exact h.descError _

theorem spanField_traffic {tag : Byte} {err : Bool} : TrafficOnly a (spanField c tag err x).dev := by
  unfold spanField
  split
  · exact h
  · dsimp only
    split
    · exact closeSpan_traffic h
    · exact h

theorem gatherError_traffic : TrafficOnly a (gatherError c x).dev := h.descError c

theorem gatherDesc_traffic {k r : Nat} {d : Word} : TrafficOnly a (gatherDesc k r c d x).dev := by
  unfold gatherDesc
  dsimp only
  split
  · split
    · refine spanField_traffic ?_
      exact h.descError c
    · exact spanField_traffic (h.gatherWord _ _ _)
  · exact closeSpan_traffic h
  · exact h
  · split
    · exact h
    · exact gatherError_traffic h
  · split
    · exact h
    · exact gatherError_traffic h
  · exact closeSpan_traffic h
  · exact closeSpan_traffic (h.descError c)

theorem gatherList_traffic {k r b fuel w : Nat} : TrafficOnly a (gatherList k r c b fuel w x).dev := by
  induction fuel generalizing w x with
  | zero => exact closeSpan_traffic (h.descError c)
  | succ fuel ih =>
    rw [gatherList]
    split
    · next e => exact closeSpan_traffic (((h.fetchDesc _ _ _).snd e).descError c)
    · next d s1 e =>
      have hdesc : TrafficOnly a (gatherDesc k r c d { x with dev := s1 }).dev := gatherDesc_traffic ((h.fetchDesc _ _ _).snd e)
      dsimp only
      split
      · exact hdesc
      · exact ih hdesc

end

theorem buildFrame_traffic (s : Dev) (k : Nat) (e : Word) : TrafficOnly s (buildFrame s k e).2.2 := by
  have htemplate := (TrafficOnly.refl s).fetchTemplate k (bitsOf e S_DBANK) ((bitsOf e S_LEN + 7) / 8) (bitsOf e S_DBASE)
  unfold buildFrame
  dsimp only
  split
  · next e1 => exact (htemplate.snd e1).descError _
  · next e1 => exact gatherList_traffic (htemplate.snd e1)

/-! ## Frames handed to a port and released (05 R178, R198) -/

section
variable {a s : Dev} (h : TrafficOnly a s)
include h

theorem TrafficOnly.putFrame (f : BufFrame) : TrafficOnly a (putFrame s f) := h.modErg _

theorem TrafficOnly.returnCells (f : BufFrame) (n : Nat) : TrafficOnly a (returnCells s f n) := by
  refine (TrafficOnly.putFrame ?_ _).fset _ _ _
  dsimp only
  split
  · exact (h.fset _ _ _).fset _ _ _
  · exact h

theorem TrafficOnly.releaseFrame (id : Nat) : TrafficOnly a (releaseFrame s id) := by
  unfold Machine.releaseFrame
  split
  · exact h
  · exact .ite (h.putFrame _) ((h.returnCells _ _).modErg _)

theorem TrafficOnly.releaseScattered (old : Dev) : TrafficOnly a (releaseScattered old s) :=
  .foldl (fun _ _ hd => .ite hd (hd.releaseFrame _)) _ s h

theorem TrafficOnly.enqueue (p : Nat) (e : TxEnt) : TrafficOnly a (enqueue s p e) :=
  .ite ((h.setReg _ _).releaseFrame _) (.ite ((h.setReg _ _).releaseFrame _) (h.modErg _))

theorem TrafficOnly.handToPort (p tc : Nat) (body : List Byte) : TrafficOnly a (handToPort s p tc body) :=
  .ite (h.countEv _ _ _ _) ((h.modErg _).enqueue _ _)

theorem TrafficOnly.trcStream (handle outcome time : Nat) : TrafficOnly a (trcStream s handle outcome time) :=
  have hsend := h.sansLogs (sansLogs_trcSend s 1544 0x08 (beBytes 2 handle ++ beBytes 1 outcome ++ beBytes 8 time))
  .ite (hsend.sansLogs (sansLogs_trcTrigger _ _)) hsend

end

/-! ## A scatter writes without taking time (04 R138) -/

/-- The device's time is `t`. -/
def TimeIs (t : Nat) (s : Dev) : Prop := s.time = t

section
variable {t : Nat} {s : Dev} (h : TimeIs t s)
include h

/-- What moves traffic alone takes no time. -/
theorem TimeIs.traffic {b : Dev} (hb : TrafficOnly s b) : TimeIs t b := hb.time.trans h

theorem TimeIs.setImg (k : Nat) (x : ImgSt) : TimeIs t (setImg s k x) := h

theorem TimeIs.setTag (w : Nat) (q : Byte) : TimeIs t (setTag s w q) := h

theorem TimeIs.setPoison (w : Nat) (b : Bool) : TimeIs t (setPoison s w b) := h

theorem TimeIs.wrBytes (bs : List Byte) (pa : Nat) : TimeIs t (wrBytes s pa bs) := by
  induction bs generalizing s pa with
  | nil => exact h
  | cons b bs ih => exact ih (s := wrByte s pa b) h _

omit h in
theorem TimeIs.ite {c : Prop} [Decidable c] {x y : Dev} (hx : TimeIs t x) (hy : TimeIs t y) : TimeIs t (if c then x else y) :=
  iteInduction (motive := TimeIs t) (fun _ => hx) (fun _ => hy)

theorem TimeIs.markDirty (pa n : Nat) : TimeIs t (markDirty s pa n) := .ite h h

theorem TimeIs.writeWord (pa : Nat) (q : QWord) : TimeIs t (writeWord s pa q) := (((h.wrBytes _ _).setTag _ _).setPoison _ _).markDirty _ _

theorem TimeIs.copyWord (src dst : Nat) : TimeIs t (copyWord s src dst) := ((h.wrBytes _ _).setTag _ _).setPoison _ _

theorem TimeIs.copyWords (src dst : Nat → Nat) (l : List Nat) : TimeIs t (l.foldl (fun s i => Machine.copyWord s (src i) (dst i)) s) := by
  induction l generalizing s with
  | nil => exact h
  | cons i l ih => exact ih (h.copyWord _ _)

theorem TimeIs.countImg (k ev n : Nat) : TimeIs t (countImg s k ev n) := h.traffic ((TrafficOnly.refl s).countImg _ _ _)

theorem TimeIs.descError (c : Nat) : TimeIs t (descError s c) := h.traffic ((TrafficOnly.refl s).descError _)

theorem TimeIs.openLine (k r line : Nat) (full : List Nat) : TimeIs t (openLine s k r line full) := by
  refine .ite (h.setImg _ _) (TimeIs.setImg ?_ _ _)
  have hmerge := h.copyWords (fun i => pairWordAddr k (bitsOf (liveEntry s k r line) E_B) (8 * line + i))
    (fun i => pairWordAddr k (1 - bitsOf (liveEntry s k r line) E_B) (8 * line + i)) ((rangeFrom 0 8).filter (fun i => !(full.contains i)))
  exact .ite hmerge ((hmerge.countImg _ _ _).traffic (((TrafficOnly.refl _).setBank _ _).setBank _ _))

theorem TimeIs.pairWriteOf (k r w : Nat) (full : List Nat) (q : QWord) : TimeIs t (pairWriteOf s k r w full q) :=
  .ite (h.traffic (((TrafficOnly.refl s).fset _ _ _).countImg _ _ _)) ((h.openLine _ _ _ _).writeWord _ _)

theorem TimeIs.scatterWrite (k r word : Nat) (q : QWord) (lines : List Nat) : TimeIs t (scatterWrite s k r word q lines).1 := by
  unfold Machine.scatterWrite
  split
  · exact (h.pairWriteOf _ _ _ _ _).traffic (((TrafficOnly.refl _).usePort _ _ _ _).countImg _ _ _)
  · exact h.traffic ((TrafficOnly.refl s).refusePair _ _)

end

section
variable {t : Nat} {x : ScatRun} (h : TimeIs t x.dev) (k r c : Nat) (job : ScatterJob) (lines : List Nat)
include h

theorem scatterDesc_time (d : Word) : TimeIs t (scatterDesc k r c job lines d x).dev := by
  unfold scatterDesc
  dsimp only
  split
  · split
    · exact (h.descError c).scatterWrite _ _ _ _ _
    · exact h.scatterWrite _ _ _ _ _
  · split
    · exact h
    · split
      · exact h
      · exact h.descError c
  · exact h
  · exact h.scatterWrite _ _ _ _ _
  · exact h
  · exact h.descError c

theorem scatterList_time (b n fuel w : Nat) : TimeIs t (scatterList k r c b job lines n fuel w x).dev := by
  induction n generalizing fuel w x with
  | zero =>
    rw [scatterList]
    exact h
  | succ n ih =>
    cases fuel with
    | zero =>
      rw [scatterList]
      · exact h.descError c
      · simp
    | succ fuel =>
      have hfetch := h.traffic ((TrafficOnly.refl x.dev).fetchDesc k b w)
      rw [scatterList]
      split
      · next s1 e =>
        rw [e] at hfetch
        exact hfetch.descError c
      · next d s1 e =>
        rw [e] at hfetch
        have hdesc := scatterDesc_time (x := { x with dev := s1 }) hfetch k r c job lines d
        dsimp only
        split
        · exact hdesc
        · exact ih hdesc _ _

end

theorem scatterPart_time (s : Dev) (k : Nat) (job : ScatterJob) (n : Nat) : (scatterPart s k job n).dev.time = s.time :=
  scatterList_time (x := { dev := s, tag := _, coef := _ }) rfl _ _ _ _ _ _ _ _ _

end Sys2Proof.Machine
end

section
/-! PROOFS. Scatter and gather of one frame: what their commands leave behind (04 R138, R143, R147, R150, R152). -/
namespace Sys2Proof.Machine

/-! ## Credits and queues -/

section
variable (s : Dev) (q : Nat)

theorem out_giveCredit : (creditQ (giveCredit s q) q).out = (creditQ s q).out - 1 := by
  unfold giveCredit
  dsimp only
  split
  · next hnone => rw [hnone]
  · rw [creditQ_setCreditQ_same]

theorem giveCredit_fields :
    (giveCredit s q).cyc = s.cyc ∧ (giveCredit s q).img = s.img ∧ (giveCredit s q).time = s.time ∧ (giveCredit s q).threads = s.threads ∧ StorageKept s (giveCredit s q) := by
  unfold giveCredit
  dsimp only
  split <;> exact ⟨rfl, rfl, rfl, rfl, storageKept_of_fields rfl rfl rfl⟩

theorem waiting_stallOn : (creditQ (stallOn s q) q).waiting = true := by
  unfold stallOn
  dsimp only
  split
  · next hwaiting => exact hwaiting
  · rw [creditQ_setCreditQ_same]

theorem stallOn_fields : (stallOn s q).cyc = s.cyc ∧ (stallOn s q).threads = s.threads ∧ StorageKept s (stallOn s q) := by
  unfold stallOn
  dsimp only
  split <;> exact ⟨rfl, rfl, storageKept_of_fields rfl rfl rfl⟩

end

theorem scatterQueue_setScatterQueue (s : Dev) (k : Nat) (l : List ScatterJob) : scatterQueue (setScatterQueue s k l) k = l := mget_mset_same _ _ _ _

theorem builtFrames_setBuilt (s : Dev) (k : Nat) (l : List BuiltFrame) : builtFrames (setBuilt s k l) k = l := mget_mset_same _ _ _ _

theorem scatterQueue_of_cyc {a b : Dev} (h : b.cyc = a.cyc) (k : Nat) : scatterQueue b k = scatterQueue a k := by simp only [scatterQueue, h]

theorem builtFrames_of_cyc {a b : Dev} (h : b.cyc = a.cyc) (k : Nat) : builtFrames b k = builtFrames a k := by simp only [builtFrames, h]

theorem gatherRuns_of_cyc {a b : Dev} (h : b.cyc = a.cyc) (k : Nat) : gatherRuns b k = gatherRuns a k := by simp only [gatherRuns, h]

theorem nowNs_of_time {a b : Dev} (h : b.time = a.time) : nowNs b = nowNs a := by simp only [nowNs, h]

/-! ## Scatter (R138, R143) -/

theorem exec_scatter (k : CtlId) (at_ n : Nat) (s : State) :
    exec (.scatter k ⟨at_, n⟩) s = .next { s with dev := releaseScattered s.dev (scatterNext s.dev k.val at_ n) } := rfl

/-- A queue whose frames all hold a credit asks for none. -/
theorem scatterCredits_of_credited {s : Dev} {k : Nat} (h : uncredited (scatterQueue s k) = none) (fuel : Nat) : scatterCredits fuel s k = s := by
  cases fuel with
  | zero => rfl
  | succ fuel => rw [scatterCredits, h]

/-- Every frame of a queue without an uncredited one holds its credit. -/
theorem credited_cons {job : ScatterJob} {rest : List ScatterJob} (h : uncredited (job :: rest) = none) : job.credit = true ∧ uncredited rest = none := by
  rw [uncredited] at h
  split at h
  · next hcredit => exact ⟨hcredit, Option.map_eq_none_iff.1 h⟩
  · cases h

/-- The oldest frame leaves its queue and its credit returns. -/
def scatterLeft (x : Dev) (k : Nat) (rest : List ScatterJob) : Dev := giveCredit (setScatterQueue x k rest) (32 + k)

/-- The rest of the oldest frame's list waits for its next turn. -/
def scatterRest (x : ScatRun) (k : Nat) (job : ScatterJob) (rest : List ScatterJob) : Dev :=
  setScatterQueue x.dev k ({ job with run := some ((job.run.getD (0, 0, 0)).1 + x.descs, x.tag, x.coef) } :: rest)

section
variable (x : Dev) (k : Nat) (rest : List ScatterJob)

theorem scatterQueue_scatterLeft : scatterQueue (scatterLeft x k rest) k = rest :=
  (scatterQueue_of_cyc (giveCredit_fields _ _).1 k).trans (scatterQueue_setScatterQueue x k rest)

theorem out_scatterLeft : (creditQ (scatterLeft x k rest) (32 + k)).out = (creditQ x (32 + k)).out - 1 := out_giveCredit _ _

theorem scatterLeft_fields : (scatterLeft x k rest).img = x.img ∧ (scatterLeft x k rest).time = x.time ∧ StorageKept x (scatterLeft x k rest) := by
  obtain ⟨-, himg, htime, -, hstorage⟩ := giveCredit_fields (setScatterQueue x k rest) (32 + k)
  exact ⟨himg, htime, hstorage⟩

end

/-- A turn of the oldest frame's list: at its end the frame leaves, before it the rest waits. -/
theorem scatterNext_cons {s : Dev} {k n : Nat} {job : ScatterJob} {rest : List ScatterJob} (hon : domOn s (24 + 3 * k) = true)
    (hqueue : scatterQueue s k = job :: rest) (hcredits : uncredited (job :: rest) = none) (hwaits : scatterWaits s k job n = []) (at_ : Nat) :
    scatterNext s k at_ n =
      if (scatterPart (advanceTo s at_) k job n).ended then
        fmax (scatterLeft (scatterPart (advanceTo s at_) k job n).dev k rest) (CYC_HWM job.cls) CYC_HWM_SCATTER_MAX
          (nowNs (scatterLeft (scatterPart (advanceTo s at_) k job n).dev k rest) - (cls (scatterLeft (scatterPart (advanceTo s at_) k job n).dev k rest) job.cls).t0)
      else scatterRest (scatterPart (advanceTo s at_) k job n) k job rest := by
  obtain ⟨hcredit, hrest⟩ := credited_cons hcredits
  have hrefuse : refuseUncredited s k = s := if_pos hon
  have hcredited : scatterCredits (job :: rest).length s k = s := scatterCredits_of_credited (by rw [hqueue, hcredits]) _
  have hleft (x : Dev) : scatterCredits rest.length (scatterLeft x k rest) k = scatterLeft x k rest :=
    scatterCredits_of_credited (by rw [scatterQueue_scatterLeft, hrest]) _
  have hstart : scatterCredits (scatterQueue s k).length (refuseUncredited s k) k = s := by rw [hrefuse, hqueue, hcredited]
  unfold scatterNext
  rw [hstart]
  dsimp only
  rw [hqueue]
  dsimp only
  rw [if_neg (by rw [hcredit]; exact Bool.false_ne_true), engineAct, hwaits, List.isEmpty_nil, if_pos rfl]
  simp only [← scatterLeft.eq_1, hleft]
  rfl

theorem at_le_scatterPart (s : Dev) (at_ k : Nat) (job : ScatterJob) (n : Nat) : at_ ≤ nowNs (scatterPart (advanceTo s at_) k job n).dev := by
  rw [nowNs_of_time (scatterPart_time _ _ _ _)]
  exact le_nowNs_advanceTo s at_

/-! ## Gather of one stream (R147, R150) -/

theorem exec_gatherStream (k : CtlId) (c : ClassId) (s : State) : exec (.gatherStream k c) s = .next { s with dev := gatherStream s.dev k.val c.val } := rfl

section
variable {s : Dev} {k c st : Nat} {run : GatherRun} {rest : List Nat} (hrun : findRun c (gatherRuns s k) = some run) (htodo : run.todo = st :: rest)
include hrun htodo

theorem gatherStream_stalled (hissue : mayIssue s (40 + k) = false) : gatherStream s k c = countImg (stallOn s (40 + k)) k 0x09 1 := by
  simp only [gatherStream, hrun, htodo, hissue, Bool.not_false, if_true]

end

/-- A stream's frame as a gather of class `c` hands it over. -/
def gathered (s : Dev) (k c st : Nat) (run : GatherRun) (fr : List Byte) : BuiltFrame :=
  { stream := st, entry := mget (fun _ => 0) run.entries st, frame := fr, cls := c, cycle := (reg s (CYC_NUMBER c)).toNat,
    offset := handoverOffset run.start (run.cost + (buildFrame s k (mget (fun _ => 0) run.entries st)).2.1) }

/-- The built frame takes its credit and its place, and its run goes on. -/
def streamBuilt (x : Dev) (k : Nat) (runs : List GatherRun) (b : BuiltFrame) : Dev :=
  setBuilt (takeCredit (setGatherRuns x k runs) (40 + k)) k (builtFrames (setGatherRuns x k runs) k ++ [b])

theorem gatherStream_built {s : Dev} {k c st : Nat} {run : GatherRun} {rest : List Nat} {fr : List Byte} (hrun : findRun c (gatherRuns s k) = some run)
    (htodo : run.todo = st :: rest) (hissue : mayIssue s (40 + k) = true) (hwaits : gatherWaits s k (mget (fun _ => 0) run.entries st) = [])
    (hbuilt : (buildFrame s k (mget (fun _ => 0) run.entries st)).1 = some fr) :
    ∃ runs, gatherStream s k c = streamBuilt (buildFrame s k (mget (fun _ => 0) run.entries st)).2.2 k runs (gathered s k c st run fr) := by
  simp only [gatherStream, hrun, htodo, hissue, Bool.not_true, Bool.false_eq_true, if_false, engineAct, hwaits, List.isEmpty_nil, if_true, hbuilt]
  exact ⟨_, rfl⟩

section
variable (x : Dev) (k : Nat) (runs : List GatherRun) (b : BuiltFrame)

theorem builtFrames_streamBuilt : builtFrames (streamBuilt x k runs b) k = builtFrames x k ++ [b] := builtFrames_setBuilt _ _ _

theorem out_streamBuilt : (creditQ (streamBuilt x k runs b) (40 + k)).out = (creditQ x (40 + k)).out + 1 :=
  congrArg CreditQ.out (creditQ_setCreditQ_same (setGatherRuns x k runs) (40 + k) _)

theorem streamBuilt_fields : (streamBuilt x k runs b).threads = x.threads ∧ StorageKept x (streamBuilt x k runs b) := ⟨rfl, storageKept_of_fields rfl rfl rfl⟩

end

/-! ## The handover (R152) -/

theorem exec_gatherHandover (k : CtlId) (s : State) : exec (.gatherHandover k) s = .next { s with dev := handover s.dev k.val } := rfl

/-- The oldest built frame leaves, and its credit returns. -/
def handedOver (x : Dev) (k : Nat) (rest : List BuiltFrame) : Dev := giveCredit (setBuilt x k rest) (40 + k)

/-- When a built frame is due: its offset after the start of its cycle. -/
def handoverTime (s : Dev) (f : BuiltFrame) : Nat :=
  (cls s f.cls).t0 - ((reg s (CYC_NUMBER f.cls)).toNat - f.cycle) * periodNs s f.cls + f.offset

/-- What a note of a class's reaction leaves alone: everything but registers and the classes' state. -/
structure ReactionKept (k : Nat) (a b : Dev) : Prop where
  built : builtFrames b k = builtFrames a k
  credits : b.credits = a.credits
  time : b.time = a.time
  threads : b.threads = a.threads
  storage : StorageKept a b

theorem ReactionKept.trans {k : Nat} {a b c : Dev} (h : ReactionKept k a b) (h1 : ReactionKept k b c) : ReactionKept k a c :=
  ⟨h1.built.trans h.built, h1.credits.trans h.credits, h1.time.trans h.time, h1.threads.trans h.threads, h.storage.trans h1.storage⟩

theorem TrafficOnly.reactionKept {a b : Dev} (h : TrafficOnly a b) (k : Nat) : ReactionKept k a b :=
  ⟨builtFrames_of_cyc h.cyc k, h.credits, h.time, h.threads, h.storage⟩

theorem setCls_kept (s : Dev) (c : Nat) (x : ClassSt) (k : Nat) : ReactionKept k s (setCls s c x) := ⟨rfl, rfl, rfl, rfl, storageKept_of_fields rfl rfl rfl⟩

theorem noteReaction_kept (s : Dev) (c n offset k : Nat) : ReactionKept k s (noteReaction s c n offset) := by
  unfold noteReaction
  split
  · exact (((TrafficOnly.refl s).fincSat (CYC_FLOW c) CYC_FLOW_REACTION 1).reactionKept k).trans (setCls_kept _ _ _ _)
  · exact (TrafficOnly.refl s).reactionKept k

/-- After the credit's return the handover moves no credit, no built frame and no time. -/
theorem handover_kept {s : Dev} {k : Nat} {f : BuiltFrame} {rest : List BuiltFrame} (h : builtFrames s k = f :: rest) :
    ReactionKept k (handedOver (advanceTo s (handoverTime s f)) k rest) (handover s k) := by
  unfold handover
  rw [h]
  dsimp -zeta only
  extract_lets c n t0 s1 s2 s3 r fr tc s4 s5
  have h3 : ReactionKept k s1 s3 := (((TrafficOnly.refl s1).fmax _ _ _).reactionKept k).trans (noteReaction_kept _ _ _ _ _)
  have h4 : TrafficOnly s3 s4 := (TrafficOnly.refl s3).handToPort _ _ _
  have h5 : TrafficOnly s3 s5 := .ite (h4.handToPort _ _ _) h4
  have hend := TrafficOnly.ite (c := twinOn s3 ∧ role s3 ≠ ACTIVE) ((TrafficOnly.refl s3).countEv 2088 8 (2 + 2) 1) (h5.trcStream f.stream 5 (nowNs s5))
  exact h3.trans (hend.reactionKept k)

section
variable (x : Dev) (k : Nat) (rest : List BuiltFrame)

theorem builtFrames_handedOver : builtFrames (handedOver x k rest) k = rest := by
  rw [handedOver, builtFrames_of_cyc (giveCredit_fields _ _).1, builtFrames_setBuilt]

theorem out_handedOver : (creditQ (handedOver x k rest) (40 + k)).out = (creditQ x (40 + k)).out - 1 := out_giveCredit _ _

theorem handedOver_fields : (handedOver x k rest).time = x.time ∧ (handedOver x k rest).threads = x.threads ∧ StorageKept x (handedOver x k rest) := by
  obtain ⟨-, -, htime, hthreads, hstorage⟩ := giveCredit_fields (setBuilt x k rest) (40 + k)
  exact ⟨htime, hthreads, hstorage⟩

end

theorem credits_advanceTo (s : Dev) (ns : Nat) : (advanceTo s ns).credits = s.credits := by
  unfold advanceTo
  split <;> rfl

/-- A frame of the present cycle is due at its offset in it. -/
theorem handoverTime_of_present {s : Dev} {f : BuiltFrame} (h : f.cycle = (reg s (CYC_NUMBER f.cls)).toNat) : handoverTime s f = (cls s f.cls).t0 + f.offset := by
  rw [handoverTime, ← h, Nat.sub_self, Nat.zero_mul, Nat.sub_zero]

/-! ## The statement -/

/-- Settles O39: a turn of a scatter list, the next stream of a gather and its handover, each as its queue, its credit and its time are left. -/
theorem scatterAndGather : Obligations.ScatterAndGather := by
  intro s k c at_ n
  refine ⟨fun job rest hon hqueue hcredits hwaits _ => ?_, fun run st rest hrun htodo => ?_, fun f rest hbuilt hout => ?_⟩
  · have hnext := scatterNext_cons hon hqueue hcredits hwaits at_
    have hat := at_le_scatterPart s.dev at_ k.val job n
    rw [exec_scatter, hnext]
    intro x
    refine ⟨fun hended => ?_, fun hgoes => ?_⟩
    · rw [if_pos hended]
      have hkept := ((TrafficOnly.refl (scatterLeft x.dev k.val rest)).fmax (CYC_HWM job.cls) CYC_HWM_SCATTER_MAX
        (nowNs (scatterLeft x.dev k.val rest) - (cls (scatterLeft x.dev k.val rest) job.cls).t0)).releaseScattered s.dev
      obtain ⟨himg, htime, hstorage⟩ := scatterLeft_fields x.dev k.val rest
      refine ⟨_, rfl, (scatterQueue_of_cyc hkept.cyc _).trans (scatterQueue_scatterLeft _ _ _), ?_, ?_, hstorage.trans hkept.storage, hkept.img.trans himg⟩
      · rw [nowNs_of_time (hkept.time.trans htime)]
        exact hat
      · rw [creditQ_of_credits hkept.credits, out_scatterLeft]
    · rw [if_neg (by rw [show (scatterPart (advanceTo s.dev at_) k.val job n).ended = false from hgoes]; exact Bool.false_ne_true)]
      have hkept := (TrafficOnly.refl (scatterRest x k.val job rest)).releaseScattered s.dev
      refine ⟨_, rfl, (scatterQueue_of_cyc hkept.cyc _).trans (scatterQueue_setScatterQueue _ _ _), ?_, creditQ_of_credits hkept.credits _, hkept.storage, hkept.img⟩
      rw [nowNs_of_time hkept.time]
      exact hat
  · intro e
    refine ⟨fun fr hissue hwaits hframe => ?_, fun hissue => ?_⟩
    · obtain ⟨runs, hstream⟩ := gatherStream_built hrun htodo hissue hwaits hframe
      have hread := buildFrame_traffic s.dev k.val e
      obtain ⟨hthreads, hstorage⟩ := streamBuilt_fields (buildFrame s.dev k.val e).2.2 k.val runs (gathered s.dev k.val c.val st run fr)
      rw [exec_gatherStream, hstream]
      refine ⟨_, gathered s.dev k.val c.val st run fr, rfl, ?_, rfl, rfl, rfl, rfl, ?_, hthreads.trans hread.threads, hread.storage.trans hstorage⟩
      · rw [builtFrames_streamBuilt, builtFrames_of_cyc hread.cyc]
      · rw [out_streamBuilt, creditQ_of_credits hread.credits]
    · have hcount := (TrafficOnly.refl (stallOn s.dev (40 + k.val))).countImg k.val 0x09 1
      obtain ⟨hcyc, hthreads, hstorage⟩ := stallOn_fields s.dev (40 + k.val)
      rw [exec_gatherStream, gatherStream_stalled hrun htodo hissue]
      refine ⟨_, rfl, ?_, gatherRuns_of_cyc (hcount.cyc.trans hcyc) _, builtFrames_of_cyc (hcount.cyc.trans hcyc) _, hcount.threads.trans hthreads, hstorage.trans hcount.storage⟩
      rw [creditQ_of_credits hcount.credits, waiting_stallOn]
  · have hkept := handover_kept hbuilt
    have hadvance := BoundaryKept.advanceTo (l := []) s.dev (handoverTime s.dev f)
    have hcredits := credits_advanceTo s.dev (handoverTime s.dev f)
    have hat := le_nowNs_advanceTo s.dev (handoverTime s.dev f)
    generalize advanceTo s.dev (handoverTime s.dev f) = x at hkept hadvance hcredits hat
    obtain ⟨htime, hthreads, hstorage⟩ := handedOver_fields x k.val rest
    rw [exec_gatherHandover]
    refine ⟨_, rfl, hkept.built.trans (builtFrames_handedOver _ _ _), ?_, fun hcycle => ?_, (hkept.threads.trans hthreads).trans hadvance.threads,
      (hadvance.storage.trans hstorage).trans hkept.storage⟩
    · rw [creditQ_of_credits hkept.credits, out_handedOver, creditQ_of_credits hcredits]
      exact Nat.sub_add_cancel hout
    · rw [← handoverTime_of_present hcycle, nowNs_of_time (hkept.time.trans htime)]
      exact hat

end Sys2Proof.Machine
end

section
/-! PROOFS. Root ports: what an Unsupported Request writes to the configuration space (05 R206). -/
namespace Sys2Proof.Machine

theorem cfgByte_setCfg (s : Dev) (r o j : Nat) (b : Byte) : cfgByte (setCfg s r o b) r j = if j = o then b else cfgByte s r j := by
  simp only [cfgByte, setCfg, modRoot, root, setRoot, mget_mset_same, mget_mset]

theorem cfgByte_cfgRaise_same (s : Dev) (r o v : Nat) : cfgByte (cfgRaise s r o v) r o = cfgByte s r o ||| BitVec.ofNat 8 v := by
  rw [cfgRaise, cfgByte_setCfg, if_pos rfl]

theorem cfgByte_cfgRaise_ne (s : Dev) (r v : Nat) {o j : Nat} (h : j ≠ o) : cfgByte (cfgRaise s r o v) r j = cfgByte s r j := by
  rw [cfgRaise, cfgByte_setCfg, if_neg h]

/-- Unsupported Request Detected, bit 3 of the device status at 0x4A, stands after an error of that kind, uncorrectable error 20 of AER. -/
theorem deviceStatus_logAer (s : Dev) (r : Nat) : (cfgByte (logAer s r 20) r 0x4A).getLsbD 3 = true := by
  unfold logAer
  extract_lets fatal first s1 reported
  have hraised : (cfgByte s1 r 0x4A).getLsbD 3 = true := by
    simp only [s1, cfgByte_cfgRaise_same, BitVec.getLsbD_or]
    cases fatal <;> exact Bool.or_true _
  clear_value s1
  split
  · exact hraised
  · rw [cfgByte_cfgRaise_ne _ _ _ (by decide)]
    exact hraised

theorem deviceStatus_unsupported (s : Dev) (r : Nat) : (cfgByte (unsupported s r) r 0x4A).getLsbD 3 = true := by
  have hcfg : cfgByte (unsupported s r) r 0x4A = cfgByte (logAer s r 20) r 0x4A := by
    simp only [cfgByte, unsupported, modRoot, root, setRoot, mget_mset_same]
  rw [hcfg]
  exact deviceStatus_logAer s r

theorem exec_pcieInboundRequest (r : RootId) (write : Bool) (addr : Word) (n : BitVec 13) (data : List Byte) (s : State) :
    exec (.pcieInboundRequest r write addr n data) s = .next { s with dev := inbound s.dev r.val write addr.toNat n.toNat data } := rfl

/-- A request to the addresses of the device's own windows is an Unsupported Request. -/
theorem inbound_of_window {s : Dev} {r addr n : Nat} {write : Bool} (hlive : rootLive s r = true) (hup : (root s r).up = true) (hn : n ≠ 0)
    (hlen : n ≤ if write then maxPayload s r else 4096) (hlo : 0x380000000000 ≤ addr) (hhi : addr < 0x400000000000) (hmsi : addr ≠ msiAddr)
    (data : List Byte) : inbound s r write addr n data = unsupported s r := by
  have hgo : ¬ (!(rootLive s r && (root s r).up) || decide (n = 0)) = true := by simp [hlive, hup, hn]
  have hplain : ¬ (write && addr == msiAddr) = true := by simp [hmsi]
  rw [inbound, if_neg hgo, if_neg (Nat.not_lt.2 hlen), if_neg hplain, if_pos ⟨hlo, hhi⟩]

/-- Root port 0 of a powered group in PCIe mode, its link up and its configuration space as after reset. -/
def linkedRootDev : Dev := setRoot (fset { doms := [(56, 2)] } SW_GROUP_MODE (SW_GROUP_MODE_GMODE 0) 2) 0 { up := true, perst := false }

theorem linkedRootDev_linked : rootLive linkedRootDev 0 = true ∧ (root linkedRootDev 0).up = true ∧ (cfgByte linkedRootDev 0 0x4A).getLsbD 3 = false := by
  decide +kernel

/-- Refutes O43: an Unsupported Request is noted in the device status, byte 0x4A, too, so that more of the configuration space than byte 0x106 changes. -/
theorem not_rootPorts : ¬ Obligations.RootPorts := by
  intro h
  obtain ⟨hlive, hup, hclean⟩ := linkedRootDev_linked
  obtain ⟨hinbound, -⟩ := h { dev := linkedRootDev } 0 [] 1 0x380000000000#64 false
  obtain ⟨-, hwindow, -⟩ := hinbound hlive hup
  obtain ⟨d, hexec, -, -, -, hcfg, -⟩ := hwindow (by decide) (by decide) (by decide) (by decide) (by decide)
  have hreq : inbound linkedRootDev 0 false 0x380000000000 1 [] = unsupported linkedRootDev 0 :=
    inbound_of_window hlive hup (by decide) (by decide) (by decide) (by decide) (by decide) []
  have hd : unsupported linkedRootDev 0 = d := hreq.symm.trans
    (congrArg State.dev (Host.Outcome.next.inj ((exec_pcieInboundRequest 0 false 0x380000000000#64 1 [] { dev := linkedRootDev }).symm.trans hexec)))
  have hnoted : (cfgByte (unsupported linkedRootDev 0) 0 0x4A).getLsbD 3 = true := deviceStatus_unsupported _ _
  have hkept : cfgByte d 0 0x4A = cfgByte linkedRootDev 0 0x4A := hcfg 0x4A (by decide)
  rw [hd, hkept, hclean] at hnoted
  exact Bool.false_ne_true hnoted

end Sys2Proof.Machine
end

section
/-! PROOFS. Erg: what the operations on its tables, ports and registers leave alone (05 R168, R181 to R186). -/
namespace Sys2Proof.Machine

/-! ## Threads, storage and registers -/

namespace TblKept

theorem refl (a : Dev) (l : List Nat) : TblKept a a l := ⟨rfl, storageKept_of_fields rfl rfl rfl, fun _ _ => rfl⟩

theorem cores {a b : Dev} {l : List Nat} (h : TblKept a b l) : CoresKept a b := ⟨h.threads, h.storage⟩

theorem fget {a b : Dev} {l : List Nat} (h : TblKept a b l) {o : Nat} (ho : o ∉ l) (f : Nat × Nat) : fget b o f = Machine.fget a o f := by
  simp only [Machine.fget, h.regs o ho]

theorem fbit {a b : Dev} {l : List Nat} (h : TblKept a b l) {o : Nat} (ho : o ∉ l) (f : Nat × Nat) : fbit b o f = Machine.fbit a o f := fbit_of_reg (h.regs o ho) f

theorem modErg (s : Dev) (f : ErgSt → ErgSt) : TblKept s (modErg s f) [] := ⟨rfl, storageKept_of_fields rfl rfl rfl, fun _ _ => rfl⟩

theorem ite {a b c : Dev} {l : List Nat} {p : Prop} [Decidable p] (hb : TblKept a b l) (hc : TblKept a c l) : TblKept a (if p then b else c) l :=
  iteInduction (motive := fun d => TblKept a d l) (fun _ => hb) (fun _ => hc)

theorem advanceTo (s : Dev) (ns : Nat) : TblKept s (advanceTo s ns) [] :=
  have hkept := BoundaryKept.advanceTo (l := []) s ns
  have hregs : (Machine.advanceTo s ns).regs = s.regs := by
    unfold Machine.advanceTo
    split <;> rfl
  ⟨hkept.threads, hkept.storage, fun o _ => by simp only [reg, hregs]⟩

theorem logRec (s : Dev) (sev block inst code : Nat) (payload : List Nat) : TblKept s (logRec s sev block inst code payload) SamplerRegs :=
  have hkept : SamplerOnly s (Machine.logRec s sev block inst code payload) := smpRecord_sampler _ _
  ⟨hkept.threads, hkept.cores.2, hkept.regs⟩

end TblKept

theorem erg_of_sansLogs {a b : Dev} (h : sansLogs b = sansLogs a) : b.erg = a.erg := (congrArg Dev.erg h :)

theorem erg_logRec (s : Dev) (sev block inst code : Nat) (payload : List Nat) : (logRec s sev block inst code payload).erg = s.erg :=
  erg_of_sansLogs (sansLogs_logRec _ _ _ _ _ _)

theorem erg_advanceTo (s : Dev) (ns : Nat) : (advanceTo s ns).erg = s.erg := by
  unfold advanceTo
  split <;> rfl

/-! ## Words of a SW table (R181) -/

theorem swKey_ne {t i t1 i1 d d1 : Nat} (hd : d < 4) (hd1 : d1 < 4) (h : t1 * 131072 + i1 ≠ t * 131072 + i ∨ d1 ≠ d) : swKey t1 i1 d1 ≠ swKey t i d := by
  simp only [swKey]
  omega

theorem swWord_of_tbl {a b : Dev} (h : b.erg.tbl = a.erg.tbl) (t i d : Nat) : swWord b t i d = swWord a t i d := by simp only [swWord, h]

theorem swWord_setSw_same (s : Dev) (t i d : Nat) (v : Word) : swWord (setSw s t i d v) t i d = v := by
  simp only [swWord, setSw, modErg, mget_mset_same]

theorem swWord_setSw_ne {t i t1 i1 d d1 : Nat} (s : Dev) (v : Word) (hd : d < 4) (hd1 : d1 < 4) (h : t1 * 131072 + i1 ≠ t * 131072 + i ∨ d1 ≠ d) :
    swWord (setSw s t i d v) t1 i1 d1 = swWord s t1 i1 d1 := by
  simp only [swWord, setSw, modErg, mget_mset_ne _ _ _ (swKey_ne hd hd1 h)]

/-- An entry of a SW table holds words `l`, and every other entry of the tables is as it was. -/
structure EntryHolds (a b : Dev) (t i : Nat) (l : List Word) : Prop where
  words : ∀ k, k < 4 → swWord b t i k = l.getD k 0
  others : ∀ t1 i1 k, t1 * 131072 + i1 ≠ t * 131072 + i → k < 4 → swWord b t1 i1 k = swWord a t1 i1 k

namespace EntryHolds

theorem of_tbl {a b c d : Dev} {t i : Nat} {l : List Word} (h : EntryHolds a b t i l) (ha : a.erg.tbl = c.erg.tbl) (hb : d.erg.tbl = b.erg.tbl) :
    EntryHolds c d t i l :=
  ⟨fun k hk => (swWord_of_tbl hb _ _ _).trans (h.words k hk), fun t1 i1 k hne hk => (swWord_of_tbl hb _ _ _).trans ((h.others t1 i1 k hne hk).trans (swWord_of_tbl ha _ _ _))⟩

theorem others_of_lt {a b : Dev} {t i : Nat} {l : List Word} (h : EntryHolds a b t i l) (hi : i < 131072) {t1 i1 k : Nat} (hne : (t1, i1) ≠ (t, i))
    (hi1 : i1 < 131072) (hk : k < 4) : swWord b t1 i1 k = swWord a t1 i1 k := by
  refine h.others t1 i1 k (fun heq => hne ?_) hk
  rw [Prod.mk.injEq]
  omega

theorem of_write (s : Dev) (t i : Nat) (a b c d : Word) : EntryHolds s (setSwEntry s t i [a, b, c, d]) t i [a, b, c, d] := by
  have hentry : setSwEntry s t i [a, b, c, d] = setSw (setSw (setSw (setSw s t i 0 a) t i 1 b) t i 2 c) t i 3 d := rfl
  rw [hentry]
  constructor
  · intro k hk
    obtain rfl | rfl | rfl | rfl : k = 0 ∨ k = 1 ∨ k = 2 ∨ k = 3 := by omega
    · rw [swWord_setSw_ne _ _ (by decide) hk (.inr (by decide)), swWord_setSw_ne _ _ (by decide) hk (.inr (by decide)),
        swWord_setSw_ne _ _ (by decide) hk (.inr (by decide)), swWord_setSw_same]
      rfl
    · rw [swWord_setSw_ne _ _ (by decide) hk (.inr (by decide)), swWord_setSw_ne _ _ (by decide) hk (.inr (by decide)), swWord_setSw_same]
      rfl
    · rw [swWord_setSw_ne _ _ (by decide) hk (.inr (by decide)), swWord_setSw_same]
      rfl
    · rw [swWord_setSw_same]
      rfl
  · intro t1 i1 k hne hk
    rw [swWord_setSw_ne _ _ (by decide) hk (.inl hne), swWord_setSw_ne _ _ (by decide) hk (.inl hne), swWord_setSw_ne _ _ (by decide) hk (.inl hne),
      swWord_setSw_ne _ _ (by decide) hk (.inl hne)]

end EntryHolds

theorem TblKept.setSwEntry (s : Dev) (t i : Nat) (a b c d : Word) : TblKept s (setSwEntry s t i [a, b, c, d]) [] :=
  have hset (s : Dev) (k : Nat) (v : Word) : TblKept s (setSw s t i k v) [] := .modErg _ _
  (((hset _ 0 a).trans (hset _ 1 b)).trans (hset _ 2 c)).trans (hset _ 3 d)

/-! ## Entries of the forwarding database (R183) -/

section
variable (s : Dev)

theorem fdbCount_erg (was now : Bool) : (fdbCount s was now).erg = s.erg := by
  unfold fdbCount
  split
  · rfl
  · exact fset_erg _ _ _ _

theorem fdbCount_kept (was now : Bool) : TblKept s (fdbCount s was now) [SW_FDB_STAT] := .ite (.refl _ _) (.fset _ _ _ _)

theorem setFdb_tbl (i : Nat) (l : List Word) : (setFdb s i l).erg.tbl = (setSwEntry s 1 i l).erg.tbl := by
  simp only [setFdb, fdbCount_erg, modErg]

theorem clearFdb_tbl (i : Nat) : (clearFdb s i).erg.tbl = (setSwEntry s 1 i [0, 0, 0, 0]).erg.tbl := by
  simp only [clearFdb, fdbCount_erg, modErg]

theorem setFdb_holds (i : Nat) (a b c d : Word) : EntryHolds s (setFdb s i [a, b, c, d]) 1 i [a, b, c, d] :=
  (EntryHolds.of_write s 1 i a b c d).of_tbl rfl (setFdb_tbl _ _ _)

theorem clearFdb_holds (i : Nat) : EntryHolds s (clearFdb s i) 1 i [0, 0, 0, 0] := (EntryHolds.of_write s 1 i 0 0 0 0).of_tbl rfl (clearFdb_tbl _ _)

theorem setFdb_kept (i : Nat) (a b c d : Word) : TblKept s (setFdb s i [a, b, c, d]) [SW_FDB_STAT] :=
  (((TblKept.setSwEntry s 1 i a b c d).trans (.modErg _ _)).mono (by simp)).trans (fdbCount_kept _ _ _)

theorem clearFdb_kept (i : Nat) : TblKept s (clearFdb s i) [SW_FDB_STAT] :=
  (((TblKept.setSwEntry s 1 i 0 0 0 0).trans (.modErg _ _)).mono (by simp)).trans (fdbCount_kept _ _ _)

theorem fdbValid_clearFdb (i : Nat) : fdbValid (clearFdb s i) i = false := by
  rw [fdbValid, (clearFdb_holds s i).words 0 (by decide)]
  rfl

theorem fdbCount_removed : fdbCount s true false = fset s SW_FDB_STAT SW_FDB_STAT_ENTRIES (fget s SW_FDB_STAT SW_FDB_STAT_ENTRIES - 1) := rfl

/-- An entry that was valid leaves the count. -/
theorem entries_clearFdb {i : Nat} (h : fdbValid s i = true) :
    fget (clearFdb s i) SW_FDB_STAT SW_FDB_STAT_ENTRIES = fget s SW_FDB_STAT SW_FDB_STAT_ENTRIES - 1 := by
  have hlt : fget s SW_FDB_STAT SW_FDB_STAT_ENTRIES < 2 ^ 18 := bitsOf_lt _ _
  have hkept := (TblKept.setSwEntry s 1 i 0 0 0 0).trans (.modErg _ (fun x => { x with seen := mdel x.seen i }))
  rw [clearFdb, h, fdbCount_removed, fget_fset_same _ _ _ _ (by decide) (by decide), hkept.fget (by simp)]
  exact Nat.mod_eq_of_lt (Nat.lt_of_le_of_lt (Nat.sub_le _ _) hlt)

end

theorem mem_rangeFrom {a n b : Nat} : b ∈ rangeFrom a n ↔ a ≤ b ∧ b < a + n := by
  induction n generalizing a with
  | zero => simp [rangeFrom]
  | succ n ih =>
    rw [rangeFrom, List.mem_cons, ih]
    omega

/-- The entry a key has, or a free way of its set, lies in the table. -/
theorem fdbSlot_lt {s : Dev} {mac vid j : Nat} (h : (fdbFind s mac vid).or (fdbFree s mac vid) = some j) : j < 131072 := by
  have hset : fdbSet mac vid < 16384 := by
    unfold fdbSet
    omega
  have hmem : j ∈ rangeFrom (8 * fdbSet mac vid) 8 := by
    obtain hfind | ⟨-, hfree⟩ := Option.or_eq_some_iff.1 h
    · exact List.mem_of_find?_eq_some hfind
    · exact List.mem_of_find?_eq_some hfree
  have hway := (mem_rangeFrom.1 hmem).2
  omega

end Sys2Proof.Machine
end

section
/-! PROOFS. The SW tables by software: reads, writes, inserts and deletes (05 R181 to R186, 21 R707). -/
namespace Sys2Proof.Machine

/-! ## The access -/

/-- An access by software with DONE at 1 is performed. -/
theorem swAccess_of_done {s : State} (hon : domOn s.dev 76 = true) (hdone : fbit s.dev SW_TBL_INDEX SW_TBL_INDEX_DONE = true) (f : Dev → Dev) :
    onDev s (fun d => whenOn d 76 (whenDone SW_TBL_INDEX SW_TBL_INDEX_DONE f)) = .next { s with dev := f s.dev } := by
  simp only [onDev, whenOn, whenDone, hon, hdone, if_true]

section
variable {s : State} (hon : domOn s.dev 76 = true) (hdone : fbit s.dev SW_TBL_INDEX SW_TBL_INDEX_DONE = true) (table : Fin 16)
include hon hdone

theorem exec_swTblRead (i : BitVec 17) : exec (.swTblRead table i) s = .next { s with dev := swTblRead s.dev table.val i.toNat } :=
  swAccess_of_done hon hdone _

theorem exec_swTblWrite (i : BitVec 17) : exec (.swTblWrite table i) s = .next { s with dev := swTblWrite s.dev table.val i.toNat } :=
  swAccess_of_done hon hdone _

theorem exec_fdbInsert : exec (.fdbInsert table) s = .next { s with
    dev := if table.val = 1 then fdbInsertOp s.dev else fset (swOpSet s.dev 2 table.val) SW_ERR SW_ERR_TBL_RANGE 1 } :=
  swAccess_of_done hon hdone (fun d => if table.val = 1 then fdbInsertOp d else fset (swOpSet d 2 table.val) SW_ERR SW_ERR_TBL_RANGE 1)

theorem exec_fdbDelete : exec (.fdbDelete table) s = .next { s with
    dev := if table.val = 1 then fdbDeleteOp s.dev else fset (swOpSet s.dev 3 table.val) SW_ERR SW_ERR_TBL_RANGE 1 } :=
  swAccess_of_done hon hdone (fun d => if table.val = 1 then fdbDeleteOp d else fset (swOpSet d 3 table.val) SW_ERR SW_ERR_TBL_RANGE 1)

end

section
variable (s : Dev) (op t i : Nat)

theorem swOpSet_kept : TblKept s (swOpSet s op t) [SW_TBL_INDEX] := (TblKept.fset _ _ _ _).trans (.fset _ _ _ _)

theorem swIndexSet_kept : TblKept s (swIndexSet s op t i) [SW_TBL_INDEX] := (swOpSet_kept _ _ _).trans (.fset _ _ _ _)

theorem swOpSet_erg : (swOpSet s op t).erg = s.erg := (fset_erg _ _ _ _).trans (fset_erg _ _ _ _)

theorem swIndexSet_erg : (swIndexSet s op t i).erg = s.erg := (fset_erg _ _ _ _).trans (swOpSet_erg _ _ _)

theorem swWord_swIndexSet (t1 i1 d : Nat) : swWord (swIndexSet s op t i) t1 i1 d = swWord s t1 i1 d := by simp only [swWord, swIndexSet_erg]

theorem dupStream_swIndexSet (j : Nat) (v : Word) : dupStream (swIndexSet s op t i) j v = dupStream s j v := by simp only [dupStream, swIndexSet_erg]

theorem index_swOpSet : fget (swOpSet s op t) SW_TBL_INDEX SW_TBL_INDEX_INDEX = fget s SW_TBL_INDEX SW_TBL_INDEX_INDEX := by
  unfold swOpSet
  rw [fget_fset_field _ _ _ _ _ (by decide) (by decide) (by decide) (by decide) (by decide),
    fget_fset_field _ _ _ _ _ (by decide) (by decide) (by decide) (by decide) (by decide)]

theorem table_swOpSet (ht : t < 16) : fget (swOpSet s op t) SW_TBL_INDEX SW_TBL_INDEX_TABLE = t :=
  (fget_fset_same _ _ _ _ (by decide) (by decide)).trans (Nat.mod_eq_of_lt ht)

end

/-! ## An access that is refused -/

/-- Bit `n` of SW_ERR says why an access changed nothing but SW_TBL_INDEX. -/
structure SwRefused (a b : Dev) (f : Nat × Nat) : Prop where
  error : fbit b SW_ERR f = true
  erg : b.erg = a.erg
  kept : TblKept a b [SW_TBL_INDEX, SW_ERR]

theorem swRefused_of_set {a b : Dev} (hkept : TblKept a b [SW_TBL_INDEX]) (herg : b.erg = a.erg) {n : Nat} (hn : n < 64) :
    SwRefused a (fset b SW_ERR (n, n) 1) (n, n) :=
  ⟨fbit_fset_one _ _ hn, (fset_erg _ _ _ _).trans herg, (hkept.mono (by simp)).trans ((TblKept.fset _ _ _ _).mono (by simp))⟩

section
variable {s : Dev} {t i : Nat}

theorem swTblRead_beyond (h : swInRange t i = false) : SwRefused s (swTblRead s t i) SW_ERR_TBL_RANGE := by
  rw [swTblRead, h, if_neg Bool.false_ne_true]
  exact swRefused_of_set (swIndexSet_kept _ _ _ _) (swIndexSet_erg _ _ _ _) (by decide)

theorem swTblWrite_beyond (h : swInRange t i = false) : SwRefused s (swTblWrite s t i) SW_ERR_TBL_RANGE := by
  rw [swTblWrite, swPut, h, Bool.not_false, if_pos rfl]
  exact swRefused_of_set (swIndexSet_kept _ _ _ _) (swIndexSet_erg _ _ _ _) (by decide)

/-- The four data words, as an entry. -/
theorem swData_getD {k : Nat} (hk : k < 4) : (swData s).getD k 0 = reg s (SW_TBL_DATA k) := by
  obtain rfl | rfl | rfl | rfl : k = 0 ∨ k = 1 ∨ k = 2 ∨ k = 3 := by omega
  all_goals rfl

/-- A second enabled entry of table 2 with one KIND, MAC and VID (R186). -/
theorem swTblWrite_dup (hin : swInRange t i = true) (hdup : t = 2 ∧ dupStream s i (reg s (SW_TBL_DATA 0)) = true) :
    SwRefused s (swTblWrite s t i) SW_ERR_DUP_KEY := by
  have hdup' : t = 2 ∧ dupStream (swIndexSet s 1 t i) i ((swData s).getD 0 0) = true := by
    rwa [dupStream_swIndexSet, swData_getD (by decide)]
  rw [swTblWrite, swPut, hin, Bool.not_true, if_neg Bool.false_ne_true, if_pos hdup']
  exact swRefused_of_set (swIndexSet_kept _ _ _ _) (swIndexSet_erg _ _ _ _) (by decide)

/-! ## Reads and writes of entries -/

theorem swTblRead_within (h : swInRange t i = true) : swTblRead s t i = setReg (setReg (setReg (setReg (swIndexSet s 0 t i)
    (SW_TBL_DATA 0) (swWord s t i 0)) (SW_TBL_DATA 1) (swWord s t i 1)) (SW_TBL_DATA 2) (swWord s t i 2)) (SW_TBL_DATA 3) (swWord s t i 3) := by
  have hentry : swEntry (swIndexSet s 0 t i) t i = [swWord s t i 0, swWord s t i 1, swWord s t i 2, swWord s t i 3] := by
    simp only [swEntry, rangeFrom, List.map_cons, List.map_nil, swWord_swIndexSet]
  rw [swTblRead, if_pos h, hentry]
  simp only [setSwData, List.zipIdx_cons, List.zipIdx_nil, List.foldl_cons, List.foldl_nil]

theorem swTblRead_data (h : swInRange t i = true) {k : Nat} (hk : k < 4) : reg (swTblRead s t i) (SW_TBL_DATA k) = swWord s t i k := by
  have hne {j : Nat} (hj : k ≠ j) : SW_TBL_DATA k ≠ SW_TBL_DATA j := by
    simp only [SW_TBL_DATA]
    omega
  rw [swTblRead_within h]
  obtain rfl | rfl | rfl | rfl : k = 0 ∨ k = 1 ∨ k = 2 ∨ k = 3 := by omega
  · rw [reg_setReg_ne _ _ (hne (by decide)), reg_setReg_ne _ _ (hne (by decide)), reg_setReg_ne _ _ (hne (by decide)), reg_setReg_same]
  · rw [reg_setReg_ne _ _ (hne (by decide)), reg_setReg_ne _ _ (hne (by decide)), reg_setReg_same]
  · rw [reg_setReg_ne _ _ (hne (by decide)), reg_setReg_same]
  · rw [reg_setReg_same]

theorem swTblRead_kept (h : swInRange t i = true) :
    TblKept s (swTblRead s t i) [SW_TBL_INDEX, SW_TBL_DATA 0, SW_TBL_DATA 1, SW_TBL_DATA 2, SW_TBL_DATA 3] := by
  rw [swTblRead_within h]
  exact ((((swIndexSet_kept s 0 t i).mono (by simp)).trans ((TblKept.setReg _ _ _).mono (by simp))).trans ((TblKept.setReg _ _ _).mono (by simp))).trans
    ((TblKept.setReg _ _ _).mono (by simp)) |>.trans ((TblKept.setReg _ _ _).mono (by simp))

theorem swTblRead_erg (h : swInRange t i = true) : (swTblRead s t i).erg = s.erg := by
  rw [swTblRead_within h, setReg_erg, setReg_erg, setReg_erg, setReg_erg, swIndexSet_erg]

theorem swTblWrite_of_free (hin : swInRange t i = true) (hfree : ¬ (t = 2 ∧ dupStream s i (reg s (SW_TBL_DATA 0)) = true)) :
    swTblWrite s t i = if t = 1 then setFdb (swIndexSet s 1 t i) i (swData s) else setSwEntry (swIndexSet s 1 t i) t i (swData s) := by
  have hfree' : ¬ (t = 2 ∧ dupStream (swIndexSet s 1 t i) i ((swData s).getD 0 0) = true) := by
    rwa [dupStream_swIndexSet, swData_getD (by decide)]
  rw [swTblWrite, swPut, hin, Bool.not_true, if_neg Bool.false_ne_true, if_neg hfree']

theorem swTblWrite_taken (hin : swInRange t i = true) (hfree : ¬ (t = 2 ∧ dupStream s i (reg s (SW_TBL_DATA 0)) = true)) :
    EntryHolds s (swTblWrite s t i) t i (swData s) ∧ TblKept s (swTblWrite s t i) [SW_TBL_INDEX, SW_FDB_STAT] := by
  have hindex : TblKept s (swIndexSet s 1 t i) [SW_TBL_INDEX, SW_FDB_STAT] := (swIndexSet_kept s 1 t i).mono (by simp)
  rw [swTblWrite_of_free hin hfree]
  split
  · next ht =>
    subst ht
    exact ⟨(setFdb_holds (swIndexSet s 1 1 i) i _ _ _ _).of_tbl (congrArg ErgSt.tbl (swIndexSet_erg _ _ _ _)) rfl, hindex.trans ((setFdb_kept (swIndexSet s 1 1 i) i _ _ _ _).mono (by simp))⟩
  · exact ⟨(EntryHolds.of_write (swIndexSet s 1 t i) t i _ _ _ _).of_tbl (congrArg ErgSt.tbl (swIndexSet_erg _ _ _ _)) rfl,
      hindex.trans ((TblKept.setSwEntry (swIndexSet s 1 t i) t i _ _ _ _).mono (by simp))⟩

end

/-! ## Inserts and deletes by key (R181, R183) -/

section
variable {s : Dev} {j : Nat}

/-- The slot an insert takes: the entry of its key, or a free way. -/
theorem slot_eq_or (s : Dev) (mac vid : Nat) :
    (match fdbFind s mac vid with | some i => some i | none => fdbFree s mac vid) = (fdbFind s mac vid).or (fdbFree s mac vid) := by
  cases fdbFind s mac vid <;> rfl

theorem fdbInsertOp_taken
    (h : (fdbFind s (bitsOf (reg s (SW_TBL_DATA 0)) F_MAC) (bitsOf (reg s (SW_TBL_DATA 0)) F_VID)).or
      (fdbFree s (bitsOf (reg s (SW_TBL_DATA 0)) F_MAC) (bitsOf (reg s (SW_TBL_DATA 0)) F_VID)) = some j) :
    fdbInsertOp s = fset (setFdb (swOpSet s 2 1) j [putBits (reg s (SW_TBL_DATA 0)) F_VALID 1, reg s (SW_TBL_DATA 1), reg s (SW_TBL_DATA 2),
      reg s (SW_TBL_DATA 3)]) SW_TBL_INDEX SW_TBL_INDEX_INDEX j := by
  have hslot := (slot_eq_or s (bitsOf (reg s (SW_TBL_DATA 0)) F_MAC) (bitsOf (reg s (SW_TBL_DATA 0)) F_VID)).trans h
  unfold fdbInsertOp
  extract_lets l w0 mac vid s1 slot
  have hslot' : slot = some j := hslot
  rw [hslot']
  rfl

theorem fdbInsertOp_full (hfind : fdbFind s (bitsOf (reg s (SW_TBL_DATA 0)) F_MAC) (bitsOf (reg s (SW_TBL_DATA 0)) F_VID) = none)
    (hfree : fdbFree s (bitsOf (reg s (SW_TBL_DATA 0)) F_MAC) (bitsOf (reg s (SW_TBL_DATA 0)) F_VID) = none) :
    fdbInsertOp s = fset (swOpSet s 2 1) SW_ERR SW_ERR_FDB_SET_FULL 1 := by
  have hslot := (slot_eq_or s (bitsOf (reg s (SW_TBL_DATA 0)) F_MAC) (bitsOf (reg s (SW_TBL_DATA 0)) F_VID)).trans (by rw [hfind, hfree]; rfl : _ = none)
  unfold fdbInsertOp
  extract_lets l w0 mac vid s1 slot
  have hslot' : slot = none := hslot
  rw [hslot']

theorem fdbDeleteOp_found (h : fdbFind s (bitsOf (reg s (SW_TBL_DATA 0)) F_MAC) (bitsOf (reg s (SW_TBL_DATA 0)) F_VID) = some j) :
    fdbDeleteOp s = clearFdb (swOpSet s 3 1) j := by
  unfold fdbDeleteOp
  extract_lets w0 s1
  have hfind : fdbFind s (bitsOf w0 F_MAC) (bitsOf w0 F_VID) = some j := h
  rw [hfind]

theorem fdbDeleteOp_missed (h : fdbFind s (bitsOf (reg s (SW_TBL_DATA 0)) F_MAC) (bitsOf (reg s (SW_TBL_DATA 0)) F_VID) = none) :
    fdbDeleteOp s = fset (swOpSet s 3 1) SW_ERR SW_ERR_NOT_FOUND 1 := by
  unfold fdbDeleteOp
  extract_lets w0 s1
  have hfind : fdbFind s (bitsOf w0 F_MAC) (bitsOf w0 F_VID) = none := h
  rw [hfind]

end

/-- The words an insert writes: those of the data registers, VALID set. -/
theorem insertWords_getD {s : Dev} {k : Nat} (h1 : 1 ≤ k) (hk : k < 4) :
    [putBits (reg s (SW_TBL_DATA 0)) F_VALID 1, reg s (SW_TBL_DATA 1), reg s (SW_TBL_DATA 2), reg s (SW_TBL_DATA 3)].getD k 0 = reg s (SW_TBL_DATA k) := by
  obtain rfl | rfl | rfl : k = 1 ∨ k = 2 ∨ k = 3 := by omega
  all_goals rfl

theorem fdbInsertOp_inserted {s : Dev} {j : Nat}
    (h : (fdbFind s (bitsOf (reg s (SW_TBL_DATA 0)) F_MAC) (bitsOf (reg s (SW_TBL_DATA 0)) F_VID)).or
      (fdbFree s (bitsOf (reg s (SW_TBL_DATA 0)) F_MAC) (bitsOf (reg s (SW_TBL_DATA 0)) F_VID)) = some j) :
    EntryHolds s (fdbInsertOp s) 1 j [putBits (reg s (SW_TBL_DATA 0)) F_VALID 1, reg s (SW_TBL_DATA 1), reg s (SW_TBL_DATA 2), reg s (SW_TBL_DATA 3)] ∧
      fget (fdbInsertOp s) SW_TBL_INDEX SW_TBL_INDEX_INDEX = j ∧ TblKept s (fdbInsertOp s) [SW_TBL_INDEX, SW_FDB_STAT] := by
  have hlt := fdbSlot_lt h
  rw [fdbInsertOp_taken h]
  refine ⟨(setFdb_holds (swOpSet s 2 1) j _ _ _ _).of_tbl (congrArg ErgSt.tbl (swOpSet_erg _ _ _)) (congrArg ErgSt.tbl (fset_erg _ _ _ _)), ?_, ?_⟩
  · exact (fget_fset_same _ _ _ _ (by decide) (by decide)).trans (Nat.mod_eq_of_lt hlt)
  · exact (((swOpSet_kept s 2 1).mono (by simp)).trans ((setFdb_kept (swOpSet s 2 1) j _ _ _ _).mono (by simp))).trans ((TblKept.fset _ _ _ _).mono (by simp))

theorem fdbDeleteOp_deleted (s : Dev) (j : Nat) : EntryHolds s (clearFdb (swOpSet s 3 1) j) 1 j [0, 0, 0, 0] ∧ fdbValid (clearFdb (swOpSet s 3 1) j) j = false ∧
    fget (clearFdb (swOpSet s 3 1) j) SW_TBL_INDEX SW_TBL_INDEX_INDEX = fget s SW_TBL_INDEX SW_TBL_INDEX_INDEX ∧
    TblKept s (clearFdb (swOpSet s 3 1) j) [SW_TBL_INDEX, SW_FDB_STAT] :=
  ⟨(clearFdb_holds (swOpSet s 3 1) j).of_tbl (congrArg ErgSt.tbl (swOpSet_erg _ _ _)) rfl, fdbValid_clearFdb _ _, ((clearFdb_kept (swOpSet s 3 1) j).fget (by decide) _).trans (index_swOpSet _ _ _),
    ((swOpSet_kept s 3 1).mono (by simp)).trans ((clearFdb_kept (swOpSet s 3 1) j).mono (by simp))⟩

/-- What an access by key that is refused answers: SW_TBL_INDEX names its table, and its INDEX is as it was. -/
theorem swRefused_of_op (s : Dev) (op : Nat) {t n : Nat} (ht : t < 16) (hn : n < 64) :
    SwRefused s (fset (swOpSet s op t) SW_ERR (n, n) 1) (n, n) ∧ fget (fset (swOpSet s op t) SW_ERR (n, n) 1) SW_TBL_INDEX SW_TBL_INDEX_TABLE = t ∧
      fget (fset (swOpSet s op t) SW_ERR (n, n) 1) SW_TBL_INDEX SW_TBL_INDEX_INDEX = fget s SW_TBL_INDEX SW_TBL_INDEX_INDEX :=
  ⟨swRefused_of_set (swOpSet_kept _ _ _) (swOpSet_erg _ _ _) hn, (fget_fset_ne _ _ _ _ (by decide)).trans (table_swOpSet _ _ _ ht),
    (fget_fset_ne _ _ _ _ (by decide)).trans (index_swOpSet _ _ _)⟩

end Sys2Proof.Machine
end

section
/-! PROOFS. Ports of Erg and the frame buffer: what an update of a port, and what storing and releasing a frame leave alone (05 R197 to R201). -/
namespace Sys2Proof.Machine

/-! ## Ports and their queues -/

theorem port_of_ports {a b : Dev} (h : b.erg.ports = a.erg.ports) (p : Nat) : port b p = port a p := by simp only [port, h]

theorem port_of_erg {a b : Dev} (h : b.erg = a.erg) (p : Nat) : port b p = port a p := port_of_ports (congrArg ErgSt.ports h) p

theorem queueOf_of_port {a b : Dev} {p : Nat} (h : (port b p).queues = (port a p).queues) (tc : Nat) : queueOf b p tc = queueOf a p tc := by
  simp only [queueOf, h]

section
variable (s : Dev)

@[simp] theorem port_fset (o : Nat) (f : Nat × Nat) (n p : Nat) : port (fset s o f n) p = port s p := port_of_erg (fset_erg _ _ _ _) p

theorem port_modPort_same (p : Nat) (f : PortSt → PortSt) : port (modPort s p f) p = f (port s p) := by
  simp only [port, modPort, setPort, modErg, mget_mset_same]

theorem port_modPort_ne {p q : Nat} (f : PortSt → PortSt) (h : q ≠ p) : port (modPort s p f) q = port s q := by
  simp only [port, modPort, setPort, modErg, mget_mset_ne _ _ _ h]

/-- An update of a port that keeps its queues keeps every queue. -/
theorem queueOf_modPort {p : Nat} {f : PortSt → PortSt} (h : ∀ x, (f x).queues = x.queues) (q tc : Nat) :
    queueOf (modPort s p f) q tc = queueOf s q tc := by
  refine queueOf_of_port ?_ tc
  obtain rfl | hq := eq_or_ne q p
  · rw [port_modPort_same, h]
  · rw [port_modPort_ne _ _ hq]

theorem queueOf_setQueue (p tc : Nat) (l : List TxEnt) (q u : Nat) : queueOf (setQueue s p tc l) q u = if (q, u) = (p, tc) then l else queueOf s q u := by
  unfold setQueue queueOf
  obtain rfl | hq := eq_or_ne q p
  · simp only [port_modPort_same, mget_mset, Prod.mk.injEq, true_and]
  · simp only [port_modPort_ne _ _ hq, Prod.mk.injEq, hq, false_and, if_false]

/-- A queue's update leaves what the port receives and sends. -/
theorem port_setQueue (p tc : Nat) (l : List TxEnt) (q : Nat) : (port (setQueue s p tc l) q).rx = (port s q).rx ∧ (port (setQueue s p tc l) q).tx = (port s q).tx := by
  unfold setQueue
  obtain rfl | hq := eq_or_ne q p
  · simp only [port_modPort_same, and_self]
  · simp only [port_modPort_ne _ _ hq, and_self]

theorem TblKept.modPort (p : Nat) (f : PortSt → PortSt) : TblKept s (modPort s p f) [] :=
  ⟨rfl, storageKept_of_fields rfl rfl rfl, fun _ _ => rfl⟩

/-! ## Counters of a port -/

theorem reg_portCnt_same (p j n : Nat) : reg (portCnt s p j n) (PORT_CNT p j) = reg s (PORT_CNT p j) + BitVec.ofNat 64 n := by
  rw [portCnt, reg_setReg_same, BitVec.ofNat_add, BitVec.ofNat_toNat, BitVec.setWidth_eq]

theorem reg_portCnt_ne {p j o : Nat} (n : Nat) (h : o ≠ PORT_CNT p j) : reg (portCnt s p j n) o = reg s o := reg_setReg_ne _ _ h

theorem TblKept.portCnt (p j n : Nat) : TblKept s (portCnt s p j n) [PORT_CNT p j] := .setReg _ _ _

theorem PORT_CNT_ne (p : Nat) {j k : Nat} (h : j ≠ k) : PORT_CNT p j ≠ PORT_CNT p k := by
  simp only [PORT_CNT]
  omega

end

/-- The registers of Erg's ports are none of the Sampler's. -/
theorem port_not_samplerReg {o : Nat} (h : o < 0x4000000) : o ∉ SamplerRegs := by
  simp only [SamplerRegs, MetaRegs, SMP_STATUS, SMP_DROPPED, TRC_STATUS, CTR_CTRL, CTR_STATUS, List.mem_cons, List.not_mem_nil, or_false]
  omega

theorem PORT_STATUS_lt (p : PortId) : PORT_STATUS p.val < 0x4000000 := by
  simp only [PORT_STATUS]
  omega

theorem PORT_PREEMPT_lt (p : PortId) : PORT_PREEMPT p.val < 0x4000000 := by
  simp only [PORT_PREEMPT]
  omega

theorem PORT_CNT_lt (p : PortId) {j : Nat} (hj : j < 16) : PORT_CNT p.val j < 0x4000000 := by
  simp only [PORT_CNT]
  omega

/-! ## The mode and the link of a port (R167, R209) -/

theorem isEthernet_of_reg {a b : Dev} (hmode : reg b SW_GROUP_MODE = reg a SW_GROUP_MODE) (hdoms : b.doms = a.doms) (p : Nat) : isEthernet b p = isEthernet a p := by
  simp only [isEthernet, groupMode, fget, domOn, domSt, hmode, hdoms]

theorem linkUp_of_reg {a b : Dev} {p : Nat} (hmode : reg b SW_GROUP_MODE = reg a SW_GROUP_MODE) (hstatus : reg b (PORT_STATUS p) = reg a (PORT_STATUS p))
    (hdoms : b.doms = a.doms) : linkUp b p = linkUp a p := by
  simp only [linkUp, isEthernet_of_reg hmode hdoms, fbit_of_reg hstatus]

/-! ## The frame buffer -/

/-- Registers that hold no cells of the frame buffer: neither a PORT_BUF nor SW_BUF. -/
def NotBuf (o : Nat) : Prop := (∀ p, o ≠ PORT_BUF p) ∧ o ≠ SW_BUF

theorem notBuf_of_mod {o : Nat} (h : o % 0x10000 ≠ 0x28) (hsw : o % 0x10000 ≠ 0x48) : NotBuf o := by
  refine ⟨fun p => ?_, ?_⟩
  · simp only [PORT_BUF]
    omega
  · simp only [SW_BUF]
    omega

/-- What frames that are stored, queued, dropped and released leave alone: all but registers, logs and Erg, and there the tables and the registers without cells. -/
structure FramesMoved (a b : Dev) : Prop where
  traffic : TrafficOnly a b
  tbl : b.erg.tbl = a.erg.tbl
  regs : ∀ o, NotBuf o → reg b o = reg a o

namespace FramesMoved

theorem refl (a : Dev) : FramesMoved a a := ⟨.refl _, rfl, fun _ _ => rfl⟩

theorem trans {a b c : Dev} (h : FramesMoved a b) (k : FramesMoved b c) : FramesMoved a c :=
  ⟨k.traffic.trans h.traffic, k.tbl.trans h.tbl, fun o ho => (k.regs o ho).trans (h.regs o ho)⟩

theorem foldl {β : Type} {f : Dev → β → Dev} (hf : ∀ s e, FramesMoved s (f s e)) (l : List β) : ∀ s, FramesMoved s (l.foldl f s) := by
  induction l with
  | nil => exact refl
  | cons e l ih => exact fun s => (hf s e).trans (ih _)

theorem ite {a b c : Dev} {p : Prop} [Decidable p] (hb : FramesMoved a b) (hc : FramesMoved a c) : FramesMoved a (if p then b else c) :=
  iteInduction (motive := FramesMoved a) (fun _ => hb) (fun _ => hc)

theorem cores {a b : Dev} (h : FramesMoved a b) : CoresKept a b := ⟨h.traffic.threads, h.traffic.storage⟩

theorem doms {a b : Dev} (h : FramesMoved a b) : b.doms = a.doms := (congrArg Dev.doms h.traffic :)

theorem modPort (s : Dev) (p : Nat) (f : PortSt → PortSt) : FramesMoved s (modPort s p f) := ⟨rfl, rfl, fun _ _ => rfl⟩

end FramesMoved

/-- What storing and releasing frames alone leaves: the ports, too. -/
structure BufferOnly (a b : Dev) : Prop extends FramesMoved a b where
  ports : b.erg.ports = a.erg.ports

namespace BufferOnly

theorem refl (a : Dev) : BufferOnly a a := ⟨.refl a, rfl⟩

theorem trans {a b c : Dev} (h : BufferOnly a b) (k : BufferOnly b c) : BufferOnly a c :=
  ⟨h.toFramesMoved.trans k.toFramesMoved, k.ports.trans h.ports⟩

theorem ite {a b c : Dev} {p : Prop} [Decidable p] (hb : BufferOnly a b) (hc : BufferOnly a c) : BufferOnly a (if p then b else c) :=
  iteInduction (motive := BufferOnly a) (fun _ => hb) (fun _ => hc)

theorem port {a b : Dev} (h : BufferOnly a b) (p : Nat) : port b p = Machine.port a p := port_of_ports h.ports p

theorem queueOf {a b : Dev} (h : BufferOnly a b) (p tc : Nat) : queueOf b p tc = Machine.queueOf a p tc := queueOf_of_port (by rw [h.port]) tc

theorem frames (s : Dev) (l : List BufFrame) (n : Nat) : BufferOnly s (modErg s (fun e => { e with frames := l, nextId := n })) :=
  ⟨⟨rfl, rfl, fun _ _ => rfl⟩, rfl⟩

theorem fset_PORT_BUF (s : Dev) (p : Nat) (f : Nat × Nat) (n : Nat) : BufferOnly s (fset s (PORT_BUF p) f n) :=
  ⟨⟨(TrafficOnly.refl s).fset _ _ _, congrArg ErgSt.tbl (fset_erg _ _ _ _), fun _ ho => reg_fset_ne _ _ _ (ho.1 p)⟩, congrArg ErgSt.ports (fset_erg _ _ _ _)⟩

theorem fset_SW_BUF (s : Dev) (f : Nat × Nat) (n : Nat) : BufferOnly s (fset s SW_BUF f n) :=
  ⟨⟨(TrafficOnly.refl s).fset _ _ _, congrArg ErgSt.tbl (fset_erg _ _ _ _), fun _ ho => reg_fset_ne _ _ _ ho.2⟩, congrArg ErgSt.ports (fset_erg _ _ _ _)⟩

theorem putFrame (s : Dev) (f : BufFrame) : BufferOnly s (putFrame s f) := frames s _ _

theorem returnCells (s : Dev) (f : BufFrame) (n : Nat) : BufferOnly s (returnCells s f n) := by
  unfold Machine.returnCells
  extract_lets sh r s1 s2
  have hport : BufferOnly s s1 := by
    simp only [s1]
    split
    · exact (fset_PORT_BUF _ _ _ _).trans (fset_PORT_BUF _ _ _ _)
    · exact refl s
  exact (hport.trans (putFrame _ _)).trans (fset_SW_BUF _ _ _)

theorem releaseFrame (s : Dev) (id : Nat) : BufferOnly s (releaseFrame s id) := by
  unfold Machine.releaseFrame
  split
  · exact refl s
  · exact ite (putFrame _ _) ((returnCells _ _ _).trans (frames _ _ _))

theorem useFrame (s : Dev) (id : Nat) : BufferOnly s (useFrame s id) := by
  unfold Machine.useFrame
  split
  · exact refl s
  · exact putFrame _ _

theorem addFrame (s : Dev) (f : BufFrame) : BufferOnly s (addFrame s f) := frames s _ _

end BufferOnly

/-- The copies of a frame that cut through end on their ports alone (R178). -/
theorem endCuts_moved (s : Dev) (r : RxFrame) (good : Bool) : FramesMoved s (endCuts s r good) := by
  refine .foldl (fun s q => ?_) _ s
  dsimp only
  split
  · exact .modPort _ _ _
  · split
    · exact .modPort _ _ _
    · exact (FramesMoved.modPort _ _ _).trans (.ite (BufferOnly.releaseFrame _ _).toFramesMoved (.refl _))

end Sys2Proof.Machine
end

section
/-! PROOFS. Gates of a port: change, operation and the gate lists (05 R192 to R195). -/
namespace Sys2Proof.Machine

/-! ## Commands on the registers of a port (R168) -/

section
variable {s : State} {p : PortId}

theorem onPort_of_ethernet (h : isEthernet s.dev p.val = true) (f : Dev → Dev) :
    onDev s (fun d => if isEthernet d p.val then f d else portModeDrop d p.val) = .next { s with dev := f s.dev } := by
  simp only [onDev, h, if_true]

theorem onPort_of_other (h : isEthernet s.dev p.val = false) (f : Dev → Dev) :
    onDev s (fun d => if isEthernet d p.val then f d else portModeDrop d p.val) = .next { s with dev := portModeDrop s.dev p.val } := by
  simp only [onDev, h, Bool.false_eq_true, if_false]

theorem exec_gateChange (h : isEthernet s.dev p.val = true) : exec (.gateChange p) s = .next { s with dev := gateChange s.dev p.val } :=
  onPort_of_ethernet h (fun d => gateChange d p.val)

theorem exec_portEn (h : isEthernet s.dev p.val = true) (who : Agent) (on : Bool) :
    exec (.portEn who p on) s = .next { s with dev := portEn s.dev p.val on } :=
  onPort_of_ethernet h (fun d => portEn d p.val on)

theorem exec_gateListRead (h : isEthernet s.dev p.val = true) (list : Fin 2) (e : Fin 1024) : exec (.gateListRead p list e) s =
    .next { s with dev := whenDone (PORT_GATE_INDEX p.val) PORT_GATE_INDEX_DONE (fun d => gateListRead d p.val list.val e.val) s.dev } :=
  onPort_of_ethernet h _

theorem exec_gateListWrite (h : isEthernet s.dev p.val = true) (list : Fin 2) (e : Fin 1024) : exec (.gateListWrite p list e) s =
    .next { s with dev := whenDone (PORT_GATE_INDEX p.val) PORT_GATE_INDEX_DONE (fun d => gateListWrite d p.val list.val e.val) s.dev } :=
  onPort_of_ethernet h _

/-- The commands that write a register of a port in another mode are dropped. -/
theorem exec_of_other (h : isEthernet s.dev p.val = false) (list : Fin 2) (e : Fin 1024) (who : Agent) (on : Bool) :
    ∀ cmd ∈ [Instr.gateChange p, .gateListRead p list e, .gateListWrite p list e, .portEn who p on],
      exec cmd s = .next { s with dev := portModeDrop s.dev p.val } := by
  intro cmd hcmd
  simp only [List.mem_cons, List.not_mem_nil, or_false] at hcmd
  obtain rfl | rfl | rfl | rfl := hcmd
  · exact onPort_of_other h (fun d => gateChange d p.val)
  · exact onPort_of_other h (whenDone (PORT_GATE_INDEX p.val) PORT_GATE_INDEX_DONE (fun d => gateListRead d p.val list.val e.val))
  · exact onPort_of_other h (whenDone (PORT_GATE_INDEX p.val) PORT_GATE_INDEX_DONE (fun d => gateListWrite d p.val list.val e.val))
  · exact onPort_of_other h (fun d => portEn d p.val on)

theorem portModeDrop_of_powered {d : Dev} {q : Nat} (h : domOn d (56 + q / 8) = true) : portModeDrop d q = fset d SW_ERR SW_ERR_PORT_MODE 1 := if_pos h

theorem whenDone_of_done {d : Dev} {o : Nat} {b : Nat × Nat} (h : fbit d o b = true) (f : Dev → Dev) : whenDone o b f d = f d := if_pos h

theorem whenDone_of_busy {d : Dev} {o : Nat} {b : Nat × Nat} (h : fbit d o b = false) (f : Dev → Dev) : whenDone o b f d = d :=
  if_neg (by rw [h]; exact Bool.false_ne_true)

end

/-! ## The change of a gate list (R193) -/

/-- The change time of the admin list: the base time, or where it is past, the next start of a cycle more than 1 µs ahead. -/
def changeTime (s : Dev) (p : Nat) : Nat :=
  if nowNs s < (reg s (PORT_GATE_BASE p)).toNat then (reg s (PORT_GATE_BASE p)).toNat
  else (reg s (PORT_GATE_BASE p)).toNat +
    ((nowNs s + 1000 - (reg s (PORT_GATE_BASE p)).toNat) / fget s (PORT_GATE_CTRL p) PORT_GATE_CTRL_CYCLE + 1) * fget s (PORT_GATE_CTRL p) PORT_GATE_CTRL_CYCLE

section
variable (s : Dev) (p : Nat)

theorem gateChange_eq : gateChange s p = fset (modPort s p (fun x => { x with changeAt := changeTime s p })) (PORT_GATE_CTRL p) PORT_GATE_CTRL_PENDING 1 := rfl

theorem port_gateChange : port (gateChange s p) p = { port s p with changeAt := changeTime s p } := by
  rw [gateChange_eq, port_fset, port_modPort_same]

theorem gateChange_kept : TblKept s (gateChange s p) [PORT_GATE_CTRL p] := by
  rw [gateChange_eq]
  exact ((TblKept.modPort _ _ _).mono (by simp)).trans (.fset _ _ _ _)

/-- A change time by the cycle is the first start of a cycle more than 1 µs ahead. -/
theorem changeTime_of_past (hcycle : 0 < fget s (PORT_GATE_CTRL p) PORT_GATE_CTRL_CYCLE) (hbase : (reg s (PORT_GATE_BASE p)).toNat ≤ nowNs s) :
    nowNs s + 1000 < changeTime s p ∧ changeTime s p ≤ nowNs s + 1000 + fget s (PORT_GATE_CTRL p) PORT_GATE_CTRL_CYCLE ∧
      ∃ m, changeTime s p = (reg s (PORT_GATE_BASE p)).toNat + m * fget s (PORT_GATE_CTRL p) PORT_GATE_CTRL_CYCLE := by
  rw [changeTime, if_neg (Nat.not_lt.2 hbase)]
  generalize fget s (PORT_GATE_CTRL p) PORT_GATE_CTRL_CYCLE = c at hcycle ⊢
  generalize (reg s (PORT_GATE_BASE p)).toNat = base at hbase ⊢
  have hdiv := Nat.div_add_mod (nowNs s + 1000 - base) c
  have hmod := Nat.mod_lt (nowNs s + 1000 - base) hcycle
  rw [Nat.mul_comm] at hdiv
  refine ⟨?_, ?_, _, rfl⟩
  all_goals
    rw [Nat.add_mul, Nat.one_mul]
    omega

/-- The port once the admin list has become operational. -/
def listTaken (s : Dev) (p : Nat) : Dev :=
  modPort s p (fun x => { x with oper := x.admin, operBase := (reg s (PORT_GATE_BASE p)).toNat, operCycle := fget s (PORT_GATE_CTRL p) PORT_GATE_CTRL_CYCLE })

end

theorem listTaken_time (s : Dev) (p : Nat) : (listTaken s p).time = s.time := rfl

theorem gateConfigChange_of_pending {s : Dev} {p : Nat} (h : fbit s (PORT_GATE_CTRL p) PORT_GATE_CTRL_PENDING = true) : gateConfigChange s p =
    fset (fset (listTaken (advanceTo s (port s p).changeAt) p) (PORT_GATE_CTRL p) PORT_GATE_CTRL_OPER_LEN
      (fget (advanceTo s (port s p).changeAt) (PORT_GATE_CTRL p) PORT_GATE_CTRL_ADMIN_LEN)) (PORT_GATE_CTRL p) PORT_GATE_CTRL_PENDING 0 := by
  simp only [gateConfigChange, h, if_true, listTaken]

theorem exec_gateConfigChange (p : PortId) (s : State) : exec (.gateConfigChange p) s = .next { s with dev := gateConfigChange s.dev p.val } := rfl

/-- What a pending change leaves at its change time. -/
structure ListChanged (a b : Dev) (p : Nat) : Prop where
  pending : fbit b (PORT_GATE_CTRL p) PORT_GATE_CTRL_PENDING = false
  oper : (port b p).oper = (port a p).admin
  length : fget b (PORT_GATE_CTRL p) PORT_GATE_CTRL_OPER_LEN = fget a (PORT_GATE_CTRL p) PORT_GATE_CTRL_ADMIN_LEN
  base : (port b p).operBase = (reg a (PORT_GATE_BASE p)).toNat
  cycle : (port b p).operCycle = fget a (PORT_GATE_CTRL p) PORT_GATE_CTRL_CYCLE
  time : (port a p).changeAt ≤ nowNs b
  kept : TblKept a b [PORT_GATE_CTRL p]

theorem gateConfigChange_changed {s : Dev} {p : Nat} (h : fbit s (PORT_GATE_CTRL p) PORT_GATE_CTRL_PENDING = true) : ListChanged s (gateConfigChange s p) p := by
  have hadvance := TblKept.advanceTo s (port s p).changeAt
  have hport : port (advanceTo s (port s p).changeAt) p = port s p := port_of_erg (erg_advanceTo _ _) p
  have htime := le_nowNs_advanceTo s (port s p).changeAt
  have hbase := hadvance.regs (PORT_GATE_BASE p) (by simp)
  have hcycle := hadvance.fget (o := PORT_GATE_CTRL p) (by simp) PORT_GATE_CTRL_CYCLE
  have hlen := hadvance.fget (o := PORT_GATE_CTRL p) (by simp) PORT_GATE_CTRL_ADMIN_LEN
  rw [gateConfigChange_of_pending h, hlen]
  generalize advanceTo s (port s p).changeAt = x at hadvance hport htime hbase hcycle
  have hlt : fget s (PORT_GATE_CTRL p) PORT_GATE_CTRL_ADMIN_LEN < 2 ^ 11 := bitsOf_lt _ _
  have htaken : port (listTaken x p) p =
      { port s p with oper := (port s p).admin, operBase := (reg s (PORT_GATE_BASE p)).toNat, operCycle := fget s (PORT_GATE_CTRL p) PORT_GATE_CTRL_CYCLE } := by
    rw [listTaken, port_modPort_same, hport, hbase, hcycle]
  refine ⟨fbit_fset_zero _ _ (by decide), ?_, ?_, ?_, ?_, ?_, ?_⟩
  · rw [port_fset, port_fset, htaken]
  · rw [fget_fset_field _ _ _ _ _ (by decide) (by decide) (by decide) (by decide) (by decide), fget_fset_same _ _ _ _ (by decide) (by decide)]
    exact Nat.mod_eq_of_lt hlt
  · rw [port_fset, port_fset, htaken]
  · rw [port_fset, port_fset, htaken]
  · rw [nowNs, fset_time, fset_time, listTaken_time]
    exact htime
  · have hset : TblKept x (listTaken x p) [] := TblKept.modPort _ _ _
    exact ((((hadvance.trans hset).mono (by simp)).trans (.fset _ _ _ _)).trans (.fset _ _ _ _))

/-! ## The operational list (R194) -/

theorem advanceTo_nowNs (s : Dev) : advanceTo s (nowNs s) = s :=
  if_neg (Nat.not_lt.2 (Nat.div_mul_le_self _ _))

theorem exec_gateOperation (p : PortId) (s : State) : exec (.gateOperation p) s = .next { s with dev := gateOperation s.dev p.val } := rfl

/-- A segment of the list that has begun moves the gates at once. -/
theorem gateOperation_of_begun {s : Dev} {p : Nat} {x : Nat × Nat} (hon : gatesOn s p = true) (hsegs : operSegs s p ≠ []) (hat : gatesAt s p (nowNs s) = some x)
    (hgates : (port s p).gates ≠ x.1) : gateOperation s p = modPort s p (fun y => { y with gates := x.1 }) := by
  have hgo : ¬ ((!(gatesOn s p)) = true ∨ (operSegs s p).isEmpty = true) := by simp [hon, hsegs]
  simp only [gateOperation, if_neg hgo, hat, if_neg hgates, advanceTo_nowNs]

/-! ## Gate lists by software (R192, R193) -/

section
variable (s : Dev) (p list e wr : Nat)

theorem gateIndexSet_kept : TblKept s (gateIndexSet s p list e wr) [PORT_GATE_INDEX p] := ((TblKept.fset _ _ _ _).trans (.fset _ _ _ _)).trans (.fset _ _ _ _)

theorem gateIndexSet_erg : (gateIndexSet s p list e wr).erg = s.erg := (fset_erg _ _ _ _).trans ((fset_erg _ _ _ _).trans (fset_erg _ _ _ _))

theorem PORT_GATE_INDEX_ne : PORT_GATE_CTRL p ∉ [PORT_GATE_INDEX p] ∧ PORT_GATE_DATA p ∉ [PORT_GATE_INDEX p] := by
  simp only [PORT_GATE_INDEX, PORT_GATE_CTRL, PORT_GATE_DATA, List.mem_cons, List.not_mem_nil, or_false]
  omega

/-- An entry as a read of the lists finds it. -/
def listEntry (s : Dev) (p list e : Nat) : GateEnt := mget (fun _ => {}) (if list = 0 then (port s p).admin else (port s p).oper) e

theorem gateListRead_eq : gateListRead s p list e = fset (fset (gateIndexSet s p list e 0) (PORT_GATE_DATA p) PORT_GATE_DATA_GATES (listEntry s p list e).gates)
    (PORT_GATE_DATA p) PORT_GATE_DATA_INTERVAL (listEntry s p list e).interval := rfl

theorem gateListRead_kept : TblKept s (gateListRead s p list e) [PORT_GATE_INDEX p, PORT_GATE_DATA p] := by
  rw [gateListRead_eq]
  exact (((gateIndexSet_kept s p list e 0).mono (by simp)).trans ((TblKept.fset _ _ _ _).mono (by simp))).trans ((TblKept.fset _ _ _ _).mono (by simp))

theorem gateListRead_erg : (gateListRead s p list e).erg = s.erg := by
  rw [gateListRead_eq, fset_erg, fset_erg, gateIndexSet_erg]

theorem gates_gateListRead (h : (listEntry s p list e).gates < 256) :
    fget (gateListRead s p list e) (PORT_GATE_DATA p) PORT_GATE_DATA_GATES = (listEntry s p list e).gates := by
  rw [gateListRead_eq, fget_fset_field _ _ _ _ _ (by decide) (by decide) (by decide) (by decide) (by decide), fget_fset_same _ _ _ _ (by decide) (by decide)]
  exact Nat.mod_eq_of_lt h

theorem interval_gateListRead (h : (listEntry s p list e).interval < 2 ^ 32) :
    fget (gateListRead s p list e) (PORT_GATE_DATA p) PORT_GATE_DATA_INTERVAL = (listEntry s p list e).interval := by
  rw [gateListRead_eq, fget_fset_same _ _ _ _ (by decide) (by decide)]
  exact Nat.mod_eq_of_lt h

end

section
variable {s : Dev} {p list : Nat} (e : Nat)

theorem gateListWrite_refused (h : list = 1 ∨ fbit s (PORT_GATE_CTRL p) PORT_GATE_CTRL_PENDING = true) :
    gateListWrite s p list e = fset (gateIndexSet s p list e 1) SW_ERR SW_ERR_BAD_VALUE 1 := by
  rw [← (gateIndexSet_kept s p list e 1).fbit (PORT_GATE_INDEX_ne p).1] at h
  exact if_pos h

theorem gateListWrite_taken (h : ¬ (list = 1 ∨ fbit s (PORT_GATE_CTRL p) PORT_GATE_CTRL_PENDING = true)) :
    gateListWrite s p list e = modPort (gateIndexSet s p list e 1) p (fun x => { x with
      admin := mset (fun _ => {}) x.admin e ⟨fget s (PORT_GATE_DATA p) PORT_GATE_DATA_GATES, fget s (PORT_GATE_DATA p) PORT_GATE_DATA_INTERVAL⟩ }) := by
  have hkept := gateIndexSet_kept s p list e 1
  rw [← hkept.fbit (PORT_GATE_INDEX_ne p).1] at h
  rw [gateListWrite, if_neg h]
  simp only [hkept.fget (PORT_GATE_INDEX_ne p).2]

/-- Either way the operational list and all but two registers are as they were. -/
theorem gateListWrite_kept : TblKept s (gateListWrite s p list e) [PORT_GATE_INDEX p, SW_ERR] ∧ (port (gateListWrite s p list e) p).oper = (port s p).oper := by
  have hkept : TblKept s (gateIndexSet s p list e 1) [PORT_GATE_INDEX p, SW_ERR] := (gateIndexSet_kept s p list e 1).mono (by simp)
  have hport := port_of_erg (gateIndexSet_erg s p list e 1) p
  by_cases h : list = 1 ∨ fbit s (PORT_GATE_CTRL p) PORT_GATE_CTRL_PENDING = true
  · rw [gateListWrite_refused e h, port_fset, hport]
    exact ⟨hkept.trans ((TblKept.fset _ _ _ _).mono (by simp)), rfl⟩
  · rw [gateListWrite_taken e h, port_modPort_same, hport]
    exact ⟨hkept.trans ((TblKept.modPort _ _ _).mono (by simp)), rfl⟩

end

end Sys2Proof.Machine
end

section
/-! PROOFS. The link of a port: preemption, auto-negotiation, link up and link down (05 R171, R172, R196, R209). -/
namespace Sys2Proof.Machine

section
variable (p : Nat)

theorem PORT_PREEMPT_ne_PORT_STATUS : PORT_STATUS p ≠ PORT_PREEMPT p := by
  simp only [PORT_STATUS, PORT_PREEMPT]
  omega

theorem PORT_AN_ne_PORT_STATUS : PORT_AN p ≠ PORT_STATUS p := by
  simp only [PORT_STATUS, PORT_AN]
  omega

theorem SW_GROUP_MODE_ne : SW_GROUP_MODE ≠ PORT_STATUS p ∧ SW_GROUP_MODE ≠ PORT_PREEMPT p := by
  simp only [SW_GROUP_MODE, PORT_STATUS, PORT_PREEMPT]
  omega

end

/-! ## Preemption (R196) -/

theorem exec_preemptVerifyDone (p : PortId) (ok : Bool) (s : State) : exec (.preemptVerifyDone p ok) s = .next { s with dev := preemptVerify s.dev p.val ok } := rfl

section
variable {s : Dev} {p : PortId} (ok : Bool) (h : fget s (PORT_PREEMPT p.val) PORT_PREEMPT_STATUS = 2)
include h

theorem preemptVerify_of_verifying : preemptVerify s p.val ok =
    if ok then fset s (PORT_PREEMPT p.val) PORT_PREEMPT_STATUS (if ok then 3 else 4)
    else logRec (fset s (PORT_PREEMPT p.val) PORT_PREEMPT_STATUS (if ok then 3 else 4)) NOTICE SB_SW p.val 0x0505 [] := if_pos h

theorem preemptVerify_of_success : preemptVerify s p.val true = fset s (PORT_PREEMPT p.val) PORT_PREEMPT_STATUS 3 := by
  rw [preemptVerify_of_verifying true h, if_pos rfl, if_pos rfl]

theorem preemptVerify_of_failure :
    preemptVerify s p.val false = logRec (fset s (PORT_PREEMPT p.val) PORT_PREEMPT_STATUS 4) NOTICE SB_SW p.val 0x0505 [] := by
  rw [preemptVerify_of_verifying false h, if_neg Bool.false_ne_true, if_neg Bool.false_ne_true]

theorem preemptVerify_status : fget (preemptVerify s p.val ok) (PORT_PREEMPT p.val) PORT_PREEMPT_STATUS = if ok then 3 else 4 := by
  cases ok with
  | true => rw [preemptVerify_of_success h, fget_fset_same _ _ _ _ (by decide) (by decide)]; rfl
  | false =>
    rw [preemptVerify_of_failure h, (TblKept.logRec _ _ _ _ _ _).fget (port_not_samplerReg (PORT_PREEMPT_lt p)), fget_fset_same _ _ _ _ (by decide) (by decide)]
    rfl

theorem preemptVerify_cores : (preemptVerify s p.val ok).erg = s.erg ∧ CoresKept s (preemptVerify s p.val ok) := by
  cases ok with
  | true =>
    rw [preemptVerify_of_success h]
    exact ⟨fset_erg _ _ _ _, (TblKept.fset _ _ _ _).cores⟩
  | false =>
    have hset := TblKept.fset s (PORT_PREEMPT p.val) PORT_PREEMPT_STATUS 4
    have hlog := TblKept.logRec (fset s (PORT_PREEMPT p.val) PORT_PREEMPT_STATUS 4) NOTICE SB_SW p.val 0x0505 []
    rw [preemptVerify_of_failure h]
    exact ⟨(erg_logRec _ _ _ _ _ _).trans (fset_erg _ _ _ _), hlog.threads.trans hset.threads, hset.storage.trans hlog.storage⟩

end

/-! ## Auto-negotiation (R171, R172) -/

/-- The fastest mode of the common ones: the SPEED_ACT it gives. -/
def fastestMode (m : Nat) : Option Nat :=
  if nbit m 0 || nbit m 1 then some 0 else if nbit m 2 || nbit m 3 then some 1 else if nbit m 4 || nbit m 5 then some 2 else if nbit m 6 then some 3 else none

theorem fastestMode_eq_some {m v : Nat} (h : v = 0 ∧ (nbit m 0 || nbit m 1) = true ∨ v = 1 ∧ nbits m 1 0 = 0 ∧ (nbit m 2 || nbit m 3) = true ∨
    v = 2 ∧ nbits m 3 0 = 0 ∧ (nbit m 4 || nbit m 5) = true ∨ v = 3 ∧ nbits m 5 0 = 0 ∧ nbit m 6 = true) : fastestMode m = some v := by
  simp only [nbit, nbits, Bool.or_eq_true, beq_iff_eq] at h
  simp only [fastestMode, nbit, Bool.or_eq_true, beq_iff_eq]
  obtain ⟨rfl, h0⟩ | ⟨rfl, hlow, h1⟩ | ⟨rfl, hlow, h2⟩ | ⟨rfl, hlow, h3⟩ := h
  · rw [if_pos h0]
  · rw [if_neg (by omega), if_pos h1]
  · rw [if_neg (by omega), if_neg (by omega), if_pos h2]
  · rw [if_neg (by omega), if_neg (by omega), if_neg (by omega), if_pos h3]

theorem fastestMode_eq_none {m : Nat} (h : nbits m 6 0 = 0) : fastestMode m = none := by
  simp only [nbits] at h
  simp only [fastestMode, nbit, Bool.or_eq_true, beq_iff_eq]
  rw [if_neg (by omega), if_neg (by omega), if_neg (by omega), if_neg (by omega)]

theorem fastestMode_le {m v : Nat} (h : fastestMode m = some v) : v ≤ 3 := by
  unfold fastestMode at h
  split at h
  · cases h; decide
  · split at h
    · cases h; decide
    · split at h
      · cases h; decide
      · split at h
        · cases h; decide
        · cases h

theorem resolvedFec_lt (v : Nat) (request : Bool) (f : Nat) : resolvedFec v request f < 4 := by
  unfold resolvedFec b2n
  split
  · decide
  · split
    · split
      · decide
      · split <;> decide
    · split <;> decide

theorem exec_autoNegotiationDone (p : PortId) (ability : BitVec 32) (x : PartnerModes) (s : State) :
    exec (.autoNegotiationDone p ability x) s = .next { s with dev := autoNegotiation s.dev p.val ability x.modes.toNat x.fec.toNat } := rfl

/-- The port once its partner's ability word is there. -/
def abilityNoted (s : Dev) (p : Nat) (ability : BitVec 32) : Dev := fset s (PORT_AN p) PORT_AN_LP_ABILITY ability.toNat

/-- The port once the modes have resolved to `v`. -/
def modeResolved (s : Dev) (p v f : Nat) : Dev :=
  fset (fset (fset s (PORT_STATUS p) PORT_STATUS_SPEED_ACT v) (PORT_STATUS p) PORT_STATUS_FEC_ACT f) (PORT_STATUS p) PORT_STATUS_AN_DONE 1

section
variable (s : Dev) (p v f : Nat)

theorem modeResolved_kept : TblKept s (modeResolved s p v f) [PORT_STATUS p] := ((TblKept.fset _ _ _ _).trans (.fset _ _ _ _)).trans (.fset _ _ _ _)

theorem done_modeResolved : fbit (modeResolved s p v f) (PORT_STATUS p) PORT_STATUS_AN_DONE = true := fbit_fset_one _ _ (by decide)

theorem speed_modeResolved (hv : v ≤ 3) : fget (modeResolved s p v f) (PORT_STATUS p) PORT_STATUS_SPEED_ACT = v := by
  rw [modeResolved, fget_fset_field _ _ _ _ _ (by decide) (by decide) (by decide) (by decide) (by decide),
    fget_fset_field _ _ _ _ _ (by decide) (by decide) (by decide) (by decide) (by decide), fget_fset_same _ _ _ _ (by decide) (by decide)]
  exact Nat.mod_eq_of_lt (Nat.lt_of_le_of_lt hv (by decide))

theorem fec_modeResolved (hf : f < 4) : fget (modeResolved s p v f) (PORT_STATUS p) PORT_STATUS_FEC_ACT = f := by
  rw [modeResolved, fget_fset_field _ _ _ _ _ (by decide) (by decide) (by decide) (by decide) (by decide), fget_fset_same _ _ _ _ (by decide) (by decide)]
  exact Nat.mod_eq_of_lt hf

theorem ability_abilityNoted (ability : BitVec 32) : fget (abilityNoted s p ability) (PORT_AN p) PORT_AN_LP_ABILITY = ability.toNat :=
  (fget_fset_same _ _ _ _ (by decide) (by decide)).trans (Nat.mod_eq_of_lt ability.isLt)

end

section
variable {s : Dev} {p : Nat} (heth : isEthernet s p = true) (hlink : fbit s (PORT_STATUS p) PORT_STATUS_LINK = false)
include heth hlink

theorem linkUp_of_link_clear : linkUp s p = false := by rw [linkUp, heth, hlink]; rfl

variable (hen : fbit s (PORT_CTRL p) PORT_CTRL_EN = true)
include hen

theorem autoNegotiation_eq (han : fbit s (PORT_CTRL p) PORT_CTRL_AN_EN = true) (ability : BitVec 32) (modes fec : Nat) :
    autoNegotiation s p ability modes fec = match fastestMode (Nat.land modes (fget s (PORT_AN p) PORT_AN_ADV)) with
      | none => abilityNoted s p ability
      | some v => modeResolved (abilityNoted s p ability) p v (resolvedFec v (nbit (fget s (PORT_AN p) PORT_AN_ADV) 7) fec) := by
  have hgo : ¬ ((!(isEthernet s p)) = true ∨ linkUp s p = true ∨ (!(fbit s (PORT_CTRL p) PORT_CTRL_EN)) = true ∨
      (!(fbit s (PORT_CTRL p) PORT_CTRL_AN_EN)) = true) := by
    simp [heth, linkUp_of_link_clear heth hlink, hen, han]
  rw [autoNegotiation, if_neg hgo]
  rfl

theorem autoNegotiation_of_mode (han : fbit s (PORT_CTRL p) PORT_CTRL_AN_EN = true) (ability : BitVec 32) {modes fec v : Nat}
    (hv : fastestMode (Nat.land modes (fget s (PORT_AN p) PORT_AN_ADV)) = some v) : autoNegotiation s p ability modes fec =
      modeResolved (abilityNoted s p ability) p v (resolvedFec v (nbit (fget s (PORT_AN p) PORT_AN_ADV) 7) fec) := by
  rw [autoNegotiation_eq heth hlink hen han, hv]

theorem autoNegotiation_of_none (han : fbit s (PORT_CTRL p) PORT_CTRL_AN_EN = true) (ability : BitVec 32) {modes fec : Nat}
    (hv : fastestMode (Nat.land modes (fget s (PORT_AN p) PORT_AN_ADV)) = none) : autoNegotiation s p ability modes fec = abilityNoted s p ability := by
  rw [autoNegotiation_eq heth hlink hen han, hv]

/-- Resolved or not, the partner's ability word is noted, and only two registers change. -/
theorem autoNegotiation_noted (han : fbit s (PORT_CTRL p) PORT_CTRL_AN_EN = true) (ability : BitVec 32) (modes fec : Nat) :
    fget (autoNegotiation s p ability modes fec) (PORT_AN p) PORT_AN_LP_ABILITY = ability.toNat ∧
      TblKept s (autoNegotiation s p ability modes fec) [PORT_AN p, PORT_STATUS p] := by
  have hnoted : TblKept s (abilityNoted s p ability) [PORT_AN p, PORT_STATUS p] := (TblKept.fset _ _ _ _).mono (by simp)
  cases hv : fastestMode (Nat.land modes (fget s (PORT_AN p) PORT_AN_ADV)) with
  | none =>
    rw [autoNegotiation_of_none heth hlink hen han ability hv]
    exact ⟨ability_abilityNoted _ _ _, hnoted⟩
  | some v =>
    rw [autoNegotiation_of_mode heth hlink hen han ability hv]
    have hresolved := modeResolved_kept (abilityNoted s p ability) p v (resolvedFec v (nbit (fget s (PORT_AN p) PORT_AN_ADV) 7) fec)
    exact ⟨(hresolved.fget (by simpa using PORT_AN_ne_PORT_STATUS p) _).trans (ability_abilityNoted _ _ _), hnoted.trans (hresolved.mono (by simp))⟩

/-! ## Link up (R209) -/

/-- A port without auto-negotiation, up with the speed and FEC that PORT_CTRL names. -/
def raisedByHand (s : Dev) (p : Nat) : Dev :=
  fset (fset (fset (fset s (PORT_STATUS p) PORT_STATUS_SPEED_ACT (fget s (PORT_CTRL p) PORT_CTRL_SPEED)) (PORT_STATUS p) PORT_STATUS_FEC_ACT
    (if fget s (PORT_CTRL p) PORT_CTRL_SPEED ≤ 1 then 3 else fget s (PORT_CTRL p) PORT_CTRL_FEC)) (PORT_STATUS p) PORT_STATUS_LINK 1) (PORT_STATUS p) PORT_STATUS_FAULT 0

/-- Verification of preemption where it is enabled takes a status (R196). -/
def verifyStatus (s : Dev) (p n : Nat) : Dev :=
  if fbit s (PORT_PREEMPT p) PORT_PREEMPT_EN && !(fbit s (PORT_PREEMPT p) PORT_PREEMPT_VERIFY_DIS) then fset s (PORT_PREEMPT p) PORT_PREEMPT_STATUS n else s

theorem linkUpEvent_by_hand (han : fbit s (PORT_CTRL p) PORT_CTRL_AN_EN = false) :
    linkUpEvent s p = logRec (verifyStatus (raisedByHand s p) p 2) NOTICE SB_SW p 0x0502 [] := by
  have hgo : ¬ ((!(isEthernet s p)) = true ∨ linkUp s p = true ∨ (!(fbit s (PORT_CTRL p) PORT_CTRL_EN)) = true) := by
    simp [heth, linkUp_of_link_clear heth hlink, hen]
  have hhand : ¬ (fbit s (PORT_CTRL p) PORT_CTRL_AN_EN && !(fbit s (PORT_STATUS p) PORT_STATUS_AN_DONE)) = true := by simp [han]
  rw [linkUpEvent, if_neg hgo, if_neg hhand, han, if_neg Bool.false_ne_true]
  rfl

end

section
variable (s : Dev) (p n : Nat)

theorem raisedByHand_kept : TblKept s (raisedByHand s p) [PORT_STATUS p] :=
  (((TblKept.fset _ _ _ _).trans (.fset _ _ _ _)).trans (.fset _ _ _ _)).trans (.fset _ _ _ _)

theorem raisedByHand_fields : (raisedByHand s p).erg = s.erg ∧ (raisedByHand s p).doms = s.doms := by
  unfold raisedByHand
  exact ⟨(fset_erg _ _ _ _).trans ((fset_erg _ _ _ _).trans ((fset_erg _ _ _ _).trans (fset_erg _ _ _ _))),
    (fset_doms _ _ _ _).trans ((fset_doms _ _ _ _).trans ((fset_doms _ _ _ _).trans (fset_doms _ _ _ _)))⟩

theorem link_raisedByHand : fbit (raisedByHand s p) (PORT_STATUS p) PORT_STATUS_LINK = true := by
  rw [raisedByHand, fbit_fset_field _ _ _ _ (by decide) (by decide) (by decide) (by decide) (by decide)]
  exact fbit_fset_one _ _ (by decide)

theorem speed_raisedByHand : fget (raisedByHand s p) (PORT_STATUS p) PORT_STATUS_SPEED_ACT = fget s (PORT_CTRL p) PORT_CTRL_SPEED := by
  rw [raisedByHand, fget_fset_field _ _ _ _ _ (by decide) (by decide) (by decide) (by decide) (by decide),
    fget_fset_field _ _ _ _ _ (by decide) (by decide) (by decide) (by decide) (by decide),
    fget_fset_field _ _ _ _ _ (by decide) (by decide) (by decide) (by decide) (by decide), fget_fset_same _ _ _ _ (by decide) (by decide)]
  exact Nat.mod_eq_of_lt (bitsOf_lt _ _)

theorem verifyStatus_kept : TblKept s (verifyStatus s p n) [PORT_PREEMPT p] := .ite (.fset _ _ _ _) (.refl _ _)

theorem verifyStatus_fields : (verifyStatus s p n).erg = s.erg ∧ (verifyStatus s p n).doms = s.doms := by
  unfold verifyStatus
  split
  · exact ⟨fset_erg _ _ _ _, fset_doms _ _ _ _⟩
  · exact ⟨rfl, rfl⟩

end

/-- The end of a change of a link: the status of verification and a NOTICE leave the link and the mode of its port. -/
theorem logged_kept (s : Dev) (p : PortId) (n code : Nat) :
    TblKept s (logRec (verifyStatus s p.val n) NOTICE SB_SW p.val code []) (PORT_PREEMPT p.val :: SamplerRegs) :=
  ((verifyStatus_kept s p.val n).mono (by simp)).trans ((TblKept.logRec _ _ _ _ _ _).mono (fun _ ho => List.mem_cons_of_mem _ ho))

theorem exec_linkUp (p : PortId) (s : State) : exec (.linkUp p) s = .next { s with dev := linkUpEvent s.dev p.val } := rfl

theorem PORT_STATUS_not_logged (p : PortId) : PORT_STATUS p.val ∉ PORT_PREEMPT p.val :: SamplerRegs := by
  simp only [List.mem_cons, PORT_PREEMPT_ne_PORT_STATUS, port_not_samplerReg (PORT_STATUS_lt p), or_false, not_false_eq_true]

theorem SW_GROUP_MODE_not_logged (p : PortId) : SW_GROUP_MODE ∉ PORT_PREEMPT p.val :: SamplerRegs := by
  simp only [List.mem_cons, (SW_GROUP_MODE_ne p.val).2, port_not_samplerReg (o := SW_GROUP_MODE) (by decide), or_false, not_false_eq_true]

theorem logged_fields (s : Dev) (p : PortId) (n code : Nat) : (logRec (verifyStatus s p.val n) NOTICE SB_SW p.val code []).erg = s.erg ∧
    (logRec (verifyStatus s p.val n) NOTICE SB_SW p.val code []).doms = s.doms := by
  obtain ⟨herg, hdoms⟩ := verifyStatus_fields s p.val n
  have hlog : SamplerOnly (verifyStatus s p.val n) (logRec (verifyStatus s p.val n) NOTICE SB_SW p.val code []) := smpRecord_sampler _ _
  exact ⟨(erg_logRec _ _ _ _ _ _).trans herg, hlog.doms.trans hdoms⟩

/-- What a link that comes up without auto-negotiation leaves. -/
structure LinkRaised (a b : Dev) (p : Nat) : Prop where
  link : linkUp b p = true
  speed : fget b (PORT_STATUS p) PORT_STATUS_SPEED_ACT = fget a (PORT_CTRL p) PORT_CTRL_SPEED
  erg : b.erg = a.erg
  cores : CoresKept a b

theorem linkUpEvent_raised {s : Dev} {p : PortId} (heth : isEthernet s p.val = true) (hlink : fbit s (PORT_STATUS p.val) PORT_STATUS_LINK = false)
    (hen : fbit s (PORT_CTRL p.val) PORT_CTRL_EN = true) (han : fbit s (PORT_CTRL p.val) PORT_CTRL_AN_EN = false) : LinkRaised s (linkUpEvent s p.val) p.val := by
  have hkept := raisedByHand_kept s p.val
  obtain ⟨herg, hdoms⟩ := raisedByHand_fields s p.val
  have hlogged := logged_kept (raisedByHand s p.val) p 2 0x0502
  obtain ⟨hergLogged, hdomsLogged⟩ := logged_fields (raisedByHand s p.val) p 2 0x0502
  have hraised : linkUp (raisedByHand s p.val) p.val = true := by
    rw [linkUp, isEthernet_of_reg (hkept.regs _ (by simpa using (SW_GROUP_MODE_ne p.val).1)) hdoms, heth, link_raisedByHand, Bool.and_self]
  rw [linkUpEvent_by_hand heth hlink hen han]
  refine ⟨?_, ?_, hergLogged.trans herg, hlogged.threads.trans hkept.threads, hkept.storage.trans hlogged.storage⟩
  · rw [linkUp_of_reg (hlogged.regs _ (SW_GROUP_MODE_not_logged p)) (hlogged.regs _ (PORT_STATUS_not_logged p)) hdomsLogged, hraised]
  · rw [hlogged.fget (PORT_STATUS_not_logged p), speed_raisedByHand]

/-! ## The dynamic entries of a port (R209) -/

/-- A dynamic entry that sends its address to port `p`. -/
def DynamicOf (s : Dev) (p i : Nat) : Prop :=
  bitsOf (swWord s 1 i 0) F_STATIC = 0 ∧ bitsOf (swWord s 1 i 1) F_MASK = 0 ∧ bitsOf (swWord s 1 i 1) F_DEST = p

/-- One entry of a flush. -/
def flushOne (p : Nat) (s : Dev) (i : Nat) : Dev :=
  if bitsOf (swWord s 1 i 0) F_STATIC = 0 ∧ bitsOf (swWord s 1 i 1) F_MASK = 0 ∧ bitsOf (swWord s 1 i 1) F_DEST = p then clearFdb s i else s

theorem fdbFlushPort_eq (s : Dev) (p : Nat) : fdbFlushPort s p = (fdbEntries s).foldl (flushOne p) s := rfl

theorem DynamicOf.of_words {a b : Dev} {p i : Nat} (h : ∀ k, k < 4 → swWord b 1 i k = swWord a 1 i k) : DynamicOf b p i ↔ DynamicOf a p i := by
  simp only [DynamicOf, h 0 (by decide), h 1 (by decide)]

/-- An entry that is valid after a flush of entry `i` is as it was, and `i` itself was not one of the port's. -/
theorem valid_flushOne {s : Dev} {p i j : Nat} (h : fdbValid (flushOne p s i) j = true) :
    (∀ k, k < 4 → swWord (flushOne p s i) 1 j k = swWord s 1 j k) ∧ (j = i → ¬ DynamicOf s p j) := by
  unfold flushOne at h ⊢
  split at h
  · next hdyn =>
    rw [if_pos hdyn]
    have hne : j ≠ i := by
      rintro rfl
      rw [fdbValid_clearFdb] at h
      exact Bool.false_ne_true h
    exact ⟨fun k hk => (clearFdb_holds s i).others 1 j k (by omega) hk, fun heq => absurd heq hne⟩
  · next hdyn =>
    rw [if_neg hdyn]
    refine ⟨fun _ _ => rfl, ?_⟩
    rintro rfl
    exact hdyn

theorem valid_flush (p : Nat) (l : List Nat) : ∀ {s : Dev} {j : Nat}, fdbValid (l.foldl (flushOne p) s) j = true →
    (∀ k, k < 4 → swWord (l.foldl (flushOne p) s) 1 j k = swWord s 1 j k) ∧ (j ∈ l → ¬ DynamicOf s p j) := by
  induction l with
  | nil => exact fun _ => ⟨fun _ _ => rfl, fun hj => absurd hj List.not_mem_nil⟩
  | cons i l ih =>
    intro s j h
    obtain ⟨hwords, hflushed⟩ := ih h
    have hvalid : fdbValid (flushOne p s i) j = true := by
      rw [List.foldl_cons, fdbValid, hwords 0 (by decide)] at h
      exact h
    obtain ⟨hone, hself⟩ := valid_flushOne hvalid
    refine ⟨fun k hk => (hwords k hk).trans (hone k hk), fun hj => ?_⟩
    obtain rfl | hj := List.mem_cons.1 hj
    · exact hself rfl
    · exact fun hdyn => hflushed hj ((DynamicOf.of_words hone).2 hdyn)

theorem mem_of_mfind {α : Type} {m : Map α} {k : Nat} {v : α} (h : mfind m k = some v) : (k, v) ∈ m := by
  induction m with
  | nil => cases h
  | cons e m ih =>
    obtain ⟨j, w⟩ := e
    rw [mfind] at h
    split at h
    · next hj => rw [hj, Option.some.inj h]; exact List.mem_cons_self
    · exact List.mem_cons_of_mem _ (ih h)

theorem mem_fdbEntries {s : Dev} {i : Nat} (hi : i < 131072) (h : fdbValid s i = true) : i ∈ fdbEntries s := by
  have hvalid : bitsOf (swWord s 1 i 0) F_VALID = 1 := beq_iff_eq.1 h
  have hkey : swKey 1 i 0 % 4 = 0 ∧ swKey 1 i 0 / 4 / 131072 = 1 ∧ swKey 1 i 0 / 4 % 131072 = i := by
    simp only [swKey]
    omega
  obtain ⟨h4, htable, hindex⟩ := hkey
  cases hfind : mfind s.erg.tbl (swKey 1 i 0) with
  | none =>
    rw [swWord, mget, hfind] at hvalid
    exact absurd hvalid (by decide)
  | some w =>
    have hw : bitsOf w F_VALID = 1 := by
      rw [swWord, mget, hfind] at hvalid
      exact hvalid
    refine List.mem_filterMap.2 ⟨_, mem_of_mfind hfind, ?_⟩
    rw [if_pos ⟨h4, htable, hw⟩, hindex]

/-- A valid entry that a flush of a port leaves was there before it, and was none of the port's. -/
theorem valid_fdbFlushPort {s : Dev} {p i : Nat} (hi : i < 131072) (h : fdbValid (fdbFlushPort s p) i = true) : fdbValid s i = true ∧ ¬ DynamicOf s p i := by
  rw [fdbFlushPort_eq] at h
  obtain ⟨hwords, hflushed⟩ := valid_flush p _ h
  have hvalid : fdbValid s i = true := by
    rw [fdbValid, hwords 0 (by decide)] at h
    exact h
  exact ⟨hvalid, hflushed (mem_fdbEntries hi hvalid)⟩

/-- A flush changes nothing but the database and the count of its entries. -/
theorem fdbFlushPort_kept (s : Dev) (p : Nat) : TblKept s (fdbFlushPort s p) [SW_FDB_STAT] ∧ (fdbFlushPort s p).erg.ports = s.erg.ports := by
  have hone (s : Dev) (i : Nat) : TblKept s (flushOne p s i) [SW_FDB_STAT] ∧ (flushOne p s i).erg.ports = s.erg.ports := by
    unfold flushOne
    split
    · refine ⟨clearFdb_kept s i, ?_⟩
      simp only [clearFdb, fdbCount_erg]
      rfl
    · exact ⟨.refl _ _, rfl⟩
  have hall : ∀ (l : List Nat) (s : Dev), TblKept s (l.foldl (flushOne p) s) [SW_FDB_STAT] ∧ (l.foldl (flushOne p) s).erg.ports = s.erg.ports := by
    intro l
    induction l with
    | nil => exact fun s => ⟨.refl _ _, rfl⟩
    | cons i l ih => exact fun s => ⟨(hone s i).1.trans (ih _).1, (ih _).2.trans (hone s i).2⟩
  exact hall _ s

/-! ## Link down (R209) -/

/-- A port whose queued frames are counted and released, and whose receptions are given up. -/
def framesDropped (s : Dev) (p : Nat) : Dev :=
  ((port s p).rx.filter (fun r => r.arrived.isNone)).foldl (fun s r => if r.dropped || r.control then s else releaseFrame (endCuts s r false) r.id)
    ((((port s p).queues.flatMap (fun q => q.2)) ++ (port s p).tx.map (fun t => t.ent)).foldl (fun s e => releaseFrame s e.id)
      (portCnt s p 11 ((port s p).queues.flatMap (fun q => q.2)).length))

/-- The port, emptied. -/
def portEmptied (s : Dev) (p : Nat) : Dev := modPort s p (fun y => { y with queues := [], tx := [], rx := y.rx.filter (fun r => r.arrived.isSome) })

/-- PORT_STATUS of a port that is down. -/
def linkCleared (s : Dev) (p : Nat) : Dev := fset (fset s (PORT_STATUS p) PORT_STATUS_LINK 0) (PORT_STATUS p) PORT_STATUS_AN_DONE 0

theorem linkDown_of_up {s : Dev} {p : Nat} (h : linkUp s p = true) : linkDown s p =
    logRec (fdbFlushPort (verifyStatus (linkCleared (portEmptied (framesDropped s p) p) p) p 1) p) NOTICE SB_SW p 0x0501 [] := by
  rw [linkDown, h, Bool.not_true, if_neg Bool.false_ne_true]
  rfl

section
variable (s : Dev) (p : Nat)

theorem framesDropped_moved : FramesMoved (portCnt s p 11 ((port s p).queues.flatMap (fun q => q.2)).length) (framesDropped s p) := by
  refine (FramesMoved.foldl (fun s (e : TxEnt) => (BufferOnly.releaseFrame s e.id).toFramesMoved) _ _).trans (.foldl (fun s r => ?_) _ _)
  exact .ite (.refl _) ((endCuts_moved s r false).trans (BufferOnly.releaseFrame _ _).toFramesMoved)

theorem port_portEmptied : (port (portEmptied s p) p).queues = [] ∧ (port (portEmptied s p) p).tx = [] := by
  rw [portEmptied, port_modPort_same]
  exact ⟨rfl, rfl⟩

theorem linkCleared_kept : TblKept s (linkCleared s p) [PORT_STATUS p] := (TblKept.fset _ _ _ _).trans (.fset _ _ _ _)

theorem linkCleared_erg : (linkCleared s p).erg = s.erg := (fset_erg _ _ _ _).trans (fset_erg _ _ _ _)

theorem link_linkCleared : fbit (linkCleared s p) (PORT_STATUS p) PORT_STATUS_LINK = false :=
  (fbit_fset_field _ _ _ _ (by decide) (by decide) (by decide) (by decide) (by decide)).trans (fbit_fset_zero _ _ (by decide))

theorem fault_linkCleared : fbit (linkCleared s p) (PORT_STATUS p) PORT_STATUS_FAULT = fbit s (PORT_STATUS p) PORT_STATUS_FAULT :=
  (fbit_fset_field _ _ _ _ (by decide) (by decide) (by decide) (by decide) (by decide)).trans
    (fbit_fset_field _ _ _ _ (by decide) (by decide) (by decide) (by decide) (by decide))

end

/-- What a link that goes down leaves: an empty port, its queued frames counted, and no dynamic entry that leads to it. -/
structure LinkLost (a b : Dev) (p : Nat) : Prop where
  link : fbit b (PORT_STATUS p) PORT_STATUS_LINK = false
  fault : fbit b (PORT_STATUS p) PORT_STATUS_FAULT = fbit a (PORT_STATUS p) PORT_STATUS_FAULT
  queues : ∀ tc, queueOf b p tc = []
  tx : (port b p).tx = []
  flushed : ∀ i, i < 131072 → fdbValid b i = true → fdbValid a i = true ∧ ¬ DynamicOf a p i
  dropped : reg b (PORT_CNT p 11) = reg a (PORT_CNT p 11) + BitVec.ofNat 64 ((port a p).queues.flatMap (fun q => q.2)).length
  cores : CoresKept a b

theorem fdbValid_of_tbl {a b : Dev} (h : b.erg.tbl = a.erg.tbl) (i : Nat) : fdbValid b i = fdbValid a i := by simp only [fdbValid, swWord_of_tbl h]

/-- The registers that the end of a link loss may change. -/
def LossRegs (p : Nat) : List Nat := PORT_PREEMPT p :: SW_FDB_STAT :: SamplerRegs

theorem PORT_STATUS_not_loss (p : PortId) : PORT_STATUS p.val ∉ LossRegs p.val := by
  simp only [LossRegs, List.mem_cons, PORT_PREEMPT_ne_PORT_STATUS, port_not_samplerReg (PORT_STATUS_lt p), or_false, false_or]
  simp only [PORT_STATUS, SW_FDB_STAT]
  omega

theorem PORT_CNT_not_loss (p : PortId) : PORT_CNT p.val 11 ∉ LossRegs p.val := by
  simp only [LossRegs, List.mem_cons, port_not_samplerReg (PORT_CNT_lt p (j := 11) (by decide)), or_false]
  simp only [PORT_CNT, PORT_PREEMPT, SW_FDB_STAT]
  omega

/-- Verification, the flush of the database and the NOTICE at the end of a link loss. -/
theorem lossLogged_kept (s : Dev) (p : Nat) : TblKept s (logRec (fdbFlushPort (verifyStatus s p 1) p) NOTICE SB_SW p 0x0501 []) (LossRegs p) ∧
    (logRec (fdbFlushPort (verifyStatus s p 1) p) NOTICE SB_SW p 0x0501 []).erg.ports = s.erg.ports := by
  obtain ⟨hflush, hports⟩ := fdbFlushPort_kept (verifyStatus s p 1) p
  refine ⟨?_, ?_⟩
  · exact (((verifyStatus_kept s p 1).mono (by simp [LossRegs])).trans (hflush.mono (by simp [LossRegs]))).trans
      ((TblKept.logRec _ _ _ _ _ _).mono (fun _ ho => List.mem_cons_of_mem _ (List.mem_cons_of_mem _ ho)))
  · rw [erg_logRec, hports, (verifyStatus_fields s p 1).1]

theorem valid_lossLogged {s : Dev} {p i : Nat} (hi : i < 131072)
    (h : fdbValid (logRec (fdbFlushPort (verifyStatus s p 1) p) NOTICE SB_SW p 0x0501 []) i = true) : fdbValid s i = true ∧ ¬ DynamicOf s p i := by
  have htbl : (verifyStatus s p 1).erg.tbl = s.erg.tbl := congrArg ErgSt.tbl (verifyStatus_fields s p 1).1
  rw [fdbValid_of_tbl (congrArg ErgSt.tbl (erg_logRec _ _ _ _ _ _))] at h
  obtain ⟨hvalid, hdyn⟩ := valid_fdbFlushPort hi h
  exact ⟨(fdbValid_of_tbl htbl i).symm.trans hvalid, fun hs => hdyn ((DynamicOf.of_words (fun _ _ => swWord_of_tbl htbl _ _ _)).2 hs)⟩

/-- The port empty and its link low. -/
def portLowered (s : Dev) (p : Nat) : Dev := linkCleared (portEmptied (framesDropped s p) p) p

section
variable (s : Dev) (p : Nat)

theorem portEmptied_tbl : (portEmptied s p).erg.tbl = s.erg.tbl := rfl

theorem portLowered_tbl : (portLowered s p).erg.tbl = s.erg.tbl := by
  rw [portLowered, linkCleared_erg, portEmptied_tbl]
  exact (framesDropped_moved s p).tbl.trans (congrArg ErgSt.tbl (setReg_erg _ _ _))

theorem portEmptied_kept : TblKept s (portEmptied s p) [] := TblKept.modPort _ _ _

theorem portLowered_cores : CoresKept s (portLowered s p) := by
  have hmoved := (framesDropped_moved s p).cores
  have hcount := (TblKept.portCnt s p 11 ((port s p).queues.flatMap (fun q => q.2)).length).cores
  have hlower := ((portEmptied_kept (framesDropped s p) p).mono (by simp)).trans (linkCleared_kept (portEmptied (framesDropped s p) p) p)
  exact ⟨hlower.threads.trans (hmoved.1.trans hcount.1), (hcount.2.trans hmoved.2).trans hlower.storage⟩

/-- A register that holds no cells, and is not the counter of the port, is touched only by the fall of the link. -/
theorem reg_portEmptied {o : Nat} (hbuf : NotBuf o) : reg (portEmptied (framesDropped s p) p) o =
    reg (portCnt s p 11 ((port s p).queues.flatMap (fun q => q.2)).length) o :=
  ((portEmptied_kept _ _).regs o (by simp)).trans ((framesDropped_moved s p).regs o hbuf)

theorem fault_portLowered : fbit (portLowered s p) (PORT_STATUS p) PORT_STATUS_FAULT = fbit s (PORT_STATUS p) PORT_STATUS_FAULT := by
  have hbuf : NotBuf (PORT_STATUS p) := notBuf_of_mod (by simp only [PORT_STATUS]; omega) (by simp only [PORT_STATUS]; omega)
  have hcnt : PORT_STATUS p ≠ PORT_CNT p 11 := by
    simp only [PORT_STATUS, PORT_CNT]
    omega
  exact (fault_linkCleared _ _).trans (fbit_of_reg ((reg_portEmptied s p hbuf).trans (reg_portCnt_ne _ _ hcnt)) _)

theorem dropped_portLowered :
    reg (portLowered s p) (PORT_CNT p 11) = reg s (PORT_CNT p 11) + BitVec.ofNat 64 ((port s p).queues.flatMap (fun q => q.2)).length := by
  have hbuf : NotBuf (PORT_CNT p 11) := notBuf_of_mod (by simp only [PORT_CNT]; omega) (by simp only [PORT_CNT]; omega)
  have hstatus : PORT_CNT p 11 ∉ [PORT_STATUS p] := by
    simp only [PORT_STATUS, PORT_CNT, List.mem_cons, List.not_mem_nil, or_false]
    omega
  exact ((linkCleared_kept _ _).regs _ hstatus).trans ((reg_portEmptied s p hbuf).trans (reg_portCnt_same _ _ _ _))

theorem port_portLowered : (port (portLowered s p) p).queues = [] ∧ (port (portLowered s p) p).tx = [] := by
  rw [portLowered, port_of_erg (linkCleared_erg _ _)]
  exact port_portEmptied _ _

end

theorem linkDown_lost {s : Dev} {p : PortId} (h : linkUp s p.val = true) : LinkLost s (linkDown s p.val) p.val := by
  have hdown : linkDown s p.val = logRec (fdbFlushPort (verifyStatus (portLowered s p.val) p.val 1) p.val) NOTICE SB_SW p.val 0x0501 [] := linkDown_of_up h
  obtain ⟨hkept, hports⟩ := lossLogged_kept (portLowered s p.val) p.val
  obtain ⟨hqueues, htx⟩ := port_portLowered s p.val
  have hport := port_of_ports hports p.val
  have htbl := portLowered_tbl s p.val
  have hcores := portLowered_cores s p.val
  rw [hdown]
  refine ⟨?_, ?_, fun tc => ?_, ?_, fun i hi hvalid => ?_, ?_, ?_⟩
  · exact (hkept.fbit (PORT_STATUS_not_loss p) _).trans (link_linkCleared _ _)
  · exact (hkept.fbit (PORT_STATUS_not_loss p) _).trans (fault_portLowered _ _)
  · rw [queueOf, hport, hqueues]
    rfl
  · rw [hport, htx]
  · obtain ⟨hbefore, hdyn⟩ := valid_lossLogged hi hvalid
    exact ⟨(fdbValid_of_tbl htbl i).symm.trans hbefore, fun hs => hdyn ((DynamicOf.of_words (fun _ _ => swWord_of_tbl htbl _ _ _)).2 hs)⟩
  · exact (hkept.regs _ (PORT_CNT_not_loss p)).trans (dropped_portLowered _ _)
  · exact ⟨hkept.threads.trans hcores.1, hcores.2.trans hkept.storage⟩

/-! ## The commands that take a link down -/

theorem exec_linkDown (x : PortLoss) (s : State) :
    exec (.linkDown x) s = .next { s with dev := linkDown (notePortFault s.dev x.port.val x.fault) x.port.val } := rfl

/-- FAULT alone is noted. -/
theorem notePortFault_kept (s : Dev) (p : Nat) (fault : Bool) : TblKept s (notePortFault s p fault) [PORT_STATUS p] ∧ (notePortFault s p fault).erg = s.erg ∧
    fbit (notePortFault s p fault) (PORT_STATUS p) PORT_STATUS_LINK = fbit s (PORT_STATUS p) PORT_STATUS_LINK ∧ (notePortFault s p fault).doms = s.doms := by
  unfold notePortFault
  split
  · exact ⟨.fset _ _ _ _, fset_erg _ _ _ _, fbit_fset_field _ _ _ _ (by decide) (by decide) (by decide) (by decide) (by decide), fset_doms _ _ _ _⟩
  · exact ⟨.refl _ _, rfl, rfl, rfl⟩

theorem linkUp_notePortFault {s : Dev} {p : Nat} (h : linkUp s p = true) (fault : Bool) : linkUp (notePortFault s p fault) p = true := by
  obtain ⟨hkept, -, hlink, hdoms⟩ := notePortFault_kept s p fault
  have hmode : reg (notePortFault s p fault) SW_GROUP_MODE = reg s SW_GROUP_MODE := hkept.regs _ (by simpa using (SW_GROUP_MODE_ne p).1)
  rwa [linkUp, hlink, isEthernet_of_reg hmode hdoms]

theorem fault_notePortFault {s : Dev} {p : Nat} (h : isEthernet s p = true) : fbit (notePortFault s p true) (PORT_STATUS p) PORT_STATUS_FAULT = true := by
  rw [notePortFault, h, Bool.and_self, if_pos rfl]
  exact fbit_fset_one _ _ (by decide)

theorem isEthernet_of_linkUp {s : Dev} {p : Nat} (h : linkUp s p = true) : isEthernet s p = true := (Bool.and_eq_true_iff.1 h).1

/-- What is lost with a link does not depend on FAULT being noted before. -/
theorem LinkLost.of_noted {a b c : Dev} {p : Nat} (h : LinkLost b c p) (hkept : TblKept a b [PORT_STATUS p]) (herg : b.erg = a.erg) :
    fbit c (PORT_STATUS p) PORT_STATUS_LINK = false ∧ (∀ tc, queueOf c p tc = []) ∧ (port c p).tx = [] ∧
      (∀ i, i < 131072 → fdbValid c i = true → fdbValid a i = true ∧ ¬ DynamicOf a p i) ∧
      reg c (PORT_CNT p 11) = reg a (PORT_CNT p 11) + BitVec.ofNat 64 ((port a p).queues.flatMap (fun q => q.2)).length ∧ CoresKept a c := by
  have htbl : b.erg.tbl = a.erg.tbl := congrArg ErgSt.tbl herg
  have hcnt : PORT_CNT p 11 ∉ [PORT_STATUS p] := by
    simp only [PORT_STATUS, PORT_CNT, List.mem_cons, List.not_mem_nil, or_false]
    omega
  refine ⟨h.link, h.queues, h.tx, fun i hi hvalid => ?_, ?_, h.cores.1.trans hkept.threads, hkept.storage.trans h.cores.2⟩
  · obtain ⟨hbefore, hdyn⟩ := h.flushed i hi hvalid
    exact ⟨(fdbValid_of_tbl htbl i).symm.trans hbefore, fun hs => hdyn ((DynamicOf.of_words (fun _ _ => swWord_of_tbl htbl _ _ _)).2 hs)⟩
  · rw [h.dropped, hkept.regs _ hcnt, port_of_erg herg]

end Sys2Proof.Machine
end

section
/-! PROOFS. The statement on the SW tables and the ports (05 R168 to R209). -/
namespace Sys2Proof.Machine

/-- What a port's command that reads or writes gate lists answers while DONE is 0. -/
theorem exec_gateList_of_busy {s : State} {p : PortId} (heth : isEthernet s.dev p.val = true)
    (hbusy : fbit s.dev (PORT_GATE_INDEX p.val) PORT_GATE_INDEX_DONE = false) (list : Fin 2) (e : Fin 1024) :
    ∀ cmd ∈ [Instr.gateListRead p list e, .gateListWrite p list e], exec cmd s = .next s := by
  intro cmd hcmd
  simp only [List.mem_cons, List.not_mem_nil, or_false] at hcmd
  obtain rfl | rfl := hcmd
  · rw [exec_gateListRead heth, whenDone_of_busy hbusy]
  · rw [exec_gateListWrite heth, whenDone_of_busy hbusy]

/-- What the write of 0 to PORT_CTRL.EN adds to a lost link. -/
theorem portEn_off (s : Dev) (p : Nat) : portEn s p false = fset (linkDown s p) (PORT_CTRL p) PORT_CTRL_EN 0 := by
  rw [portEn, if_neg Bool.false_ne_true, b2n, if_neg Bool.false_ne_true]

theorem portEn_on (s : Dev) (p : Nat) : portEn s p true = fset s (PORT_CTRL p) PORT_CTRL_EN 1 := by
  rw [portEn, if_pos rfl, b2n, if_pos rfl]

theorem LinkLost.fset_PORT_CTRL {a b : Dev} {p : Nat} (h : LinkLost a b p) (f : Nat × Nat) (n : Nat) : LinkLost a (fset b (PORT_CTRL p) f n) p := by
  have hstatus : PORT_STATUS p ≠ PORT_CTRL p := by
    simp only [PORT_STATUS, PORT_CTRL]
    omega
  have hcnt : PORT_CNT p 11 ≠ PORT_CTRL p := by
    simp only [PORT_CNT, PORT_CTRL]
    omega
  have htbl : (fset b (PORT_CTRL p) f n).erg.tbl = b.erg.tbl := congrArg ErgSt.tbl (fset_erg _ _ _ _)
  refine ⟨?_, ?_, fun tc => ?_, ?_, fun i hi hvalid => ?_, ?_, ?_⟩
  · rw [fbit_fset_ne _ _ _ _ hstatus, h.link]
  · rw [fbit_fset_ne _ _ _ _ hstatus, h.fault]
  · exact (queueOf_of_port (congrArg PortSt.queues (port_fset _ _ _ _ _)) tc).trans (h.queues tc)
  · rw [port_fset, h.tx]
  · rw [fdbValid_of_tbl htbl] at hvalid
    exact h.flushed i hi hvalid
  · rw [reg_fset_ne _ _ _ hcnt, h.dropped]
  · exact ⟨(fset_threads _ _ _ _).trans h.cores.1, h.cores.2.trans (fset_storage _ _ _ _)⟩

/-- Settles O42: each access to a SW table by what it finds there, each command of a port by what it leaves of the port. -/
theorem switchTablesAndPorts : Obligations.SwitchTablesAndPorts := by
  refine ⟨fun s table i hon hdone => ?_, fun s p list e ok on who ability modes fec fault => ?_⟩
  · intro w0 mac vid others
    have hi : i.toNat < 131072 := i.isLt
    refine ⟨fun cmd hcmd hin => ?_, fun hin => ?_, fun hin => ?_, fun cmd hcmd htable => ?_, fun j htable hslot => ?_, fun htable hfind hfree => ?_,
      fun j htable hfind => ?_, fun htable hfind => ?_⟩
    · simp only [List.mem_cons, List.not_mem_nil, or_false] at hcmd
      obtain rfl | rfl := hcmd
      · have hrefused := swTblRead_beyond hin (s := s.dev)
        exact ⟨_, exec_swTblRead hon hdone table i, hrefused.error, hrefused.erg, hrefused.kept.regs, hrefused.kept.cores⟩
      · have hrefused := swTblWrite_beyond hin (s := s.dev)
        exact ⟨_, exec_swTblWrite hon hdone table i, hrefused.error, hrefused.erg, hrefused.kept.regs, hrefused.kept.cores⟩
    · have hkept := swTblRead_kept hin (s := s.dev)
      exact ⟨_, exec_swTblRead hon hdone table i, fun k hk => swTblRead_data hin hk, swTblRead_erg hin, hkept.regs, hkept.cores⟩
    · refine ⟨_, exec_swTblWrite hon hdone table i, ?_⟩
      by_cases hdup : table.val = 2 ∧ dupStream s.dev i.toNat w0 = true
      · have hrefused := swTblWrite_dup hin hdup
        exact ⟨hrefused.kept.cores, fun _ => ⟨hrefused.error, hrefused.erg, hrefused.kept.regs⟩, fun h => absurd hdup h⟩
      · obtain ⟨hholds, hkept⟩ := swTblWrite_taken hin hdup
        exact ⟨hkept.cores, fun h => absurd h hdup, fun _ => ⟨fun k hk => (hholds.words k hk).trans (swData_getD hk),
          fun _ _ _ hne hj hk => hholds.others_of_lt hi hne hj hk, hkept.regs⟩⟩
    · simp only [List.mem_cons, List.not_mem_nil, or_false] at hcmd
      obtain rfl | rfl := hcmd
      · obtain ⟨hrefused, hop, hindex⟩ := swRefused_of_op s.dev 2 table.isLt (n := 0) (by decide)
        refine ⟨_, exec_fdbInsert hon hdone table, ?_⟩
        rw [if_neg htable]
        exact ⟨hrefused.error, hop, hindex, hrefused.erg, hrefused.kept.regs, hrefused.kept.cores⟩
      · obtain ⟨hrefused, hop, hindex⟩ := swRefused_of_op s.dev 3 table.isLt (n := 0) (by decide)
        refine ⟨_, exec_fdbDelete hon hdone table, ?_⟩
        rw [if_neg htable]
        exact ⟨hrefused.error, hop, hindex, hrefused.erg, hrefused.kept.regs, hrefused.kept.cores⟩
    · have hlt := fdbSlot_lt hslot
      refine ⟨_, exec_fdbInsert hon hdone table, ?_⟩
      rw [if_pos htable]
      obtain ⟨hholds, hindex, hkept⟩ := fdbInsertOp_inserted hslot
      exact ⟨hholds.words 0 (by decide), fun k h1 hk => (hholds.words k hk).trans (insertWords_getD h1 hk), fun _ _ _ hne hj hk => hholds.others_of_lt hlt hne hj hk,
        hindex, hkept.regs, hkept.cores⟩
    · obtain ⟨hrefused, -, hindex⟩ := swRefused_of_op s.dev 2 (t := 1) (by decide) (n := 2) (by decide)
      refine ⟨_, exec_fdbInsert hon hdone table, ?_⟩
      rw [if_pos htable, fdbInsertOp_full hfind hfree]
      exact ⟨hrefused.error, hindex, hrefused.erg, hrefused.kept.regs, hrefused.kept.cores⟩
    · have hlt : j < 131072 := fdbSlot_lt (Option.or_eq_some_iff.2 (.inl hfind))
      refine ⟨_, exec_fdbDelete hon hdone table, ?_⟩
      rw [if_pos htable, fdbDeleteOp_found hfind]
      obtain ⟨hholds, hvalid, hindex, hkept⟩ := fdbDeleteOp_deleted s.dev j
      exact ⟨hvalid, fun _ _ _ hne hj hk => hholds.others_of_lt hlt hne hj hk, hindex, hkept.regs, hkept.cores⟩
    · obtain ⟨hrefused, -, hindex⟩ := swRefused_of_op s.dev 3 (t := 1) (by decide) (n := 3) (by decide)
      refine ⟨_, exec_fdbDelete hon hdone table, ?_⟩
      rw [if_pos htable, fdbDeleteOp_missed hfind]
      exact ⟨hrefused.error, hrefused.erg, hrefused.kept.regs, hrefused.kept.cores⟩
  · intro g
    refine ⟨fun heth => ?_, fun hpending => ?_, fun x hgates hsegs hat hne => ?_, fun x heth hdone hx hxg hxi => ?_, fun heth hdone => ?_,
      fun heth hbusy => exec_gateList_of_busy heth hbusy list e, fun hstatus => ?_, fun heth hlink hen han => ?_, fun hup cmd hcmd => ?_,
      fun heth hlink hen han => ?_, fun heth => ?_, fun hother hon cmd hcmd => ?_⟩
    · intro base
      have hport := port_gateChange s.dev p.val
      refine ⟨_, exec_gateChange heth, fbit_fset_one _ _ (by decide), fun hbefore => ?_, fun c hc hpos hpast => ?_, ?_, (gateChange_kept _ _).regs, (gateChange_kept _ _).cores⟩
      · rw [hport]
        exact if_pos hbefore
      · subst hc
        rw [hport]
        exact changeTime_of_past s.dev p.val hpos hpast
      · rw [hport]
    · have hchanged := gateConfigChange_changed hpending
      exact ⟨_, exec_gateConfigChange p s, hchanged.pending, hchanged.oper, hchanged.length, hchanged.base, hchanged.cycle, hchanged.time, hchanged.kept.regs,
        hchanged.kept.cores⟩
    · refine ⟨_, exec_gateOperation p s, ?_⟩
      rw [gateOperation_of_begun hgates hsegs hat hne, port_modPort_same]
      exact ⟨rfl, rfl, rfl, (TblKept.modPort _ _ _).cores⟩
    · have hentry : listEntry s.dev p.val list.val e.val = x := hx
      have hkept := gateListRead_kept s.dev p.val list.val e.val
      refine ⟨_, exec_gateListRead heth list e, ?_⟩
      rw [whenDone_of_done hdone]
      refine ⟨?_, ?_, gateListRead_erg _ _ _ _, hkept.regs, hkept.cores⟩
      · rw [gates_gateListRead _ _ _ _ (by rwa [hentry]), hentry]
      · rw [interval_gateListRead _ _ _ _ (by rwa [hentry]), hentry]
    · obtain ⟨hkept, hoper⟩ := gateListWrite_kept (s := s.dev) (p := p.val) (list := list.val) e.val
      refine ⟨_, exec_gateListWrite heth list e, ?_⟩
      rw [whenDone_of_done hdone]
      refine ⟨hoper, hkept.regs, hkept.cores, fun hfree => ?_, fun hheld => ?_⟩
      · rw [gateListWrite_taken e.val (by simp [hfree.1, show fbit s.dev (PORT_GATE_CTRL p.val) PORT_GATE_CTRL_PENDING = false from hfree.2]), port_modPort_same,
          port_of_erg (gateIndexSet_erg _ _ _ _ _)]
        exact ⟨mget_mset_same _ _ _ _, fun j hj => mget_mset_ne _ _ _ hj⟩
      · rw [gateListWrite_refused e.val hheld, port_fset, port_of_erg (gateIndexSet_erg _ _ _ _ _)]
        exact ⟨fbit_fset_one _ _ (by decide), rfl⟩
    · obtain ⟨herg, hcores⟩ := preemptVerify_cores ok hstatus
      exact ⟨_, exec_preemptVerifyDone p ok s, preemptVerify_status ok hstatus, herg, hcores⟩
    · intro adv m
      obtain ⟨hability, hkept⟩ := autoNegotiation_noted heth hlink hen han ability modes.toNat fec.toNat
      refine ⟨_, exec_autoNegotiationDone p ability ⟨modes, fec⟩ s, hability, fun v hv => ?_, fun hnone => ?_, hkept.regs, hkept.cores⟩
      · have hmode := fastestMode_eq_some hv
        have hfec := fec_modeResolved (abilityNoted s.dev p.val ability) p.val v _ (resolvedFec_lt v (nbit adv 7) fec.toNat)
        rw [autoNegotiation_of_mode heth hlink hen han ability hmode]
        refine ⟨speed_modeResolved _ _ _ _ (fastestMode_le hmode), done_modeResolved _ _ _ _, fun hfast => hfec.trans (if_pos hfast), fun h2 => ?_, fun h3 => ?_⟩
        · subst h2
          exact hfec
        · subst h3
          exact hfec
      · rw [autoNegotiation_of_none heth hlink hen han ability (fastestMode_eq_none hnone)]
        exact reg_fset_ne _ _ _ (PORT_AN_ne_PORT_STATUS p.val).symm
    · simp only [List.mem_cons, List.not_mem_nil, or_false] at hcmd
      obtain rfl | rfl := hcmd
      · have hlost := linkDown_lost (linkUp_notePortFault hup fault)
        obtain ⟨hkept, herg, -, -⟩ := notePortFault_kept s.dev p.val fault
        obtain ⟨hlink, hqueues, htx, hflushed, hdropped, hcores⟩ := hlost.of_noted hkept herg
        refine ⟨_, exec_linkDown ⟨p, fault⟩ s, hlink, hqueues, htx, hflushed, hdropped, fun _ hfault => ?_, fun h => absurd h (by simp), hcores⟩
        subst hfault
        exact hlost.fault.trans (fault_notePortFault (isEthernet_of_linkUp hup))
      · have hlost := (linkDown_lost hup).fset_PORT_CTRL PORT_CTRL_EN 0
        refine ⟨_, exec_portEn (isEthernet_of_linkUp hup) who false, ?_⟩
        rw [portEn_off]
        exact ⟨hlost.link, hlost.queues, hlost.tx, hlost.flushed, hlost.dropped, fun h => absurd h (by simp), fun _ => fbit_fset_zero _ _ (by decide), hlost.cores⟩
    · have hraised := linkUpEvent_raised heth hlink hen han
      exact ⟨_, exec_linkUp p s, hraised.link, hraised.speed, hraised.erg, hraised.cores⟩
    · refine ⟨_, exec_portEn heth who true, ?_⟩
      rw [portEn_on]
      exact ⟨fbit_fset_one _ _ (by decide), fset_erg _ _ _ _, fset_regs _ _ _ _, (TblKept.fset _ _ _ _).cores⟩
    · refine ⟨_, exec_of_other hother list e who on cmd hcmd, ?_⟩
      rw [portModeDrop_of_powered hon]
      exact ⟨fbit_fset_one _ _ (by decide), fset_erg _ _ _ _, fset_regs _ _ _ _, (TblKept.fset _ _ _ _).cores⟩

end Sys2Proof.Machine
end

section
/-! PROOFS. Ageing and recovery resets, and how a frame leaves: its start on a port and its last copy (05 R175, R185, R187, R195, R199). -/
namespace Sys2Proof.Machine

/-! ## Counted events (16 R620) -/

/-- Registers and all but the logs are as they were, as when an event is counted. -/
structure CountOnly (a b : Dev) : Prop where
  logs : sansLogs b = sansLogs a
  regs : b.regs = a.regs

namespace CountOnly

theorem refl (a : Dev) : CountOnly a a := ⟨rfl, rfl⟩

theorem trans {a b c : Dev} (h : CountOnly a b) (k : CountOnly b c) : CountOnly a c := ⟨k.logs.trans h.logs, k.regs.trans h.regs⟩

theorem ite {a b c : Dev} {p : Prop} [Decidable p] (hb : CountOnly a b) (hc : CountOnly a c) : CountOnly a (if p then b else c) :=
  iteInduction (motive := CountOnly a) (fun _ => hb) (fun _ => hc)

theorem countEv (s : Dev) (base size ev n : Nat) : CountOnly s (countEv s base size ev n) :=
  ⟨sansLogs_countEv _ _ _ _ _, foldl_regs _ (fun _ _ => countAt_regs _ _ _ _) _ _⟩

theorem countErg (s : Dev) (ev : Nat) : CountOnly s (countErg s ev) := countEv _ _ _ _ _

theorem countPort (s : Dev) (p ev : Nat) : CountOnly s (countPort s p ev) := countEv _ _ _ _ _

section
variable {a b : Dev} (h : CountOnly a b)
include h

theorem erg : b.erg = a.erg := erg_of_sansLogs h.logs

theorem credits : b.credits = a.credits := (congrArg Dev.credits h.logs :)

theorem doms : b.doms = a.doms := (congrArg Dev.doms h.logs :)

theorem inst : b.inst = a.inst := (congrArg Dev.inst h.logs :)

theorem reg (o : Nat) : reg b o = Machine.reg a o := by simp only [Machine.reg, h.regs]

theorem buffer : BufferOnly a b := ⟨⟨(TrafficOnly.refl a).sansLogs h.logs, congrArg ErgSt.tbl h.erg, fun o _ => h.reg o⟩, congrArg ErgSt.ports h.erg⟩

theorem tblKept : TblKept a b [] := ⟨threads_of_sansLogs h.logs, storage_of_sansLogs h.logs, fun o _ => h.reg o⟩

end

end CountOnly

/-! ## Ageing (R185) and RECOVERY_RESET (R187) -/

theorem fdbAge_of_unseen {s : Dev} {i : Nat} (hvalid : fdbValid s i = true) (hdyn : bitsOf (swWord s 1 i 0) F_STATIC = 0)
    (hsec : 0 < fget s SW_AGEING SW_AGEING_SECONDS) :
    fdbAge s i = clearFdb (advanceTo s (mget (fun _ => 0) s.erg.seen i + fget s SW_AGEING SW_AGEING_SECONDS * 10 ^ 9)) i :=
  if_pos (by simp [hvalid, hdyn, hsec])

theorem clearFdb_time (s : Dev) (i : Nat) : (clearFdb s i).time = s.time := by
  have hset : TrafficOnly s (setSwEntry s 1 i [0, 0, 0, 0]) := .foldl (fun _ _ hd => hd.modErg _) _ _ (.refl s)
  have hcount (d : Dev) (was now : Bool) : (fdbCount d was now).time = d.time := by
    unfold fdbCount
    split
    · rfl
    · exact fset_time _ _ _ _
  rw [clearFdb, hcount]
  exact (hset.modErg _).time

/-- The recovery state of a handle starts afresh. -/
def recoveryCleared (s : Dev) (hd : Nat) : Dev := modErg s (fun e => { e with recovery := mset (fun _ => {}) e.recovery hd {} })

theorem recoveryCleared_same (s : Dev) (hd : Nat) : mget (fun _ => {}) (recoveryCleared s hd).erg.recovery hd = ({} : RecoverySt) := by
  simp only [recoveryCleared, modErg, mget_mset_same]

theorem recoveryCleared_ne (s : Dev) {hd j : Nat} (h : j ≠ hd) :
    mget (fun _ => {}) (recoveryCleared s hd).erg.recovery j = mget (fun _ => ({} : RecoverySt)) s.erg.recovery j := by
  simp only [recoveryCleared, modErg, mget_mset_ne _ _ _ h]

theorem recoveryCleared_rest (s : Dev) (hd : Nat) : (recoveryCleared s hd).regs = s.regs ∧ (recoveryCleared s hd).time = s.time := ⟨rfl, rfl⟩

theorem advanceTo_regs (s : Dev) (ns : Nat) : (advanceTo s ns).regs = s.regs := by
  unfold advanceTo
  split <;> rfl

theorem recoveryReset_of_taken {s : Dev} {hd : Nat} (h : (mget (fun _ => {}) s.erg.recovery hd).take = false) :
    recoveryReset s hd = recoveryCleared (advanceTo s ((mget (fun _ => {}) s.erg.recovery hd).last + bitsOf (swWord s 2 hd 1) (31, 16) * 1000000)) hd :=
  if_neg (by rw [h]; exact Bool.false_ne_true)

/-! ## The frame a port selects (R175, stage 11) -/

section
variable {s : Dev} {p : Nat}

/-- The port's classes, the highest first, up to class `tc`. -/
theorem classesDown_split {tc : Nat} (h : tc < 8) : ∃ l m, [7, 6, 5, 4, 3, 2, 1, 0] = l ++ tc :: m ∧ ∀ u ∈ l, tc < u ∧ u < 8 := by
  have hmem : tc ∈ [7, 6, 5, 4, 3, 2, 1, 0] := by
    simp only [List.mem_cons, List.not_mem_nil, or_false]
    omega
  obtain ⟨l, m, hsplit⟩ := List.append_of_mem hmem
  have hdown : List.Pairwise (· > ·) (l ++ tc :: m) := hsplit ▸ (by decide)
  refine ⟨l, m, hsplit, fun u hu => ⟨(List.pairwise_append.1 hdown).2.2 u hu tc List.mem_cons_self, ?_⟩⟩
  have hu8 : u ∈ [7, 6, 5, 4, 3, 2, 1, 0] := hsplit ▸ List.mem_append_left _ hu
  simp only [List.mem_cons, List.not_mem_nil, or_false] at hu8
  omega

theorem selectTx_skip {l m : List Nat} (h : ∀ u ∈ l, queueOf s p u = []) : selectTx s p (l ++ m) = selectTx s p m := by
  induction l with
  | nil => rfl
  | cons u l ih =>
    rw [List.cons_append, selectTx, h u List.mem_cons_self]
    exact ih fun v hv => h v (List.mem_cons_of_mem _ hv)

theorem mayStart_of_gatesOff (h : gatesOn s p = false) (e : TxEnt) : mayStart s p e = true := by
  rw [mayStart, h]
  rfl

theorem portFree_of_idle (h : (port s p).tx = []) (tc : Nat) : portFree s p tc = true := by simp [portFree, h]

/-- A port that is idle, its gates off, selects the head of the highest class in which a frame waits. -/
theorem selectTx_highest {tc : Nat} {e : TxEnt} {rest : List TxEnt} (htc : tc < 8) (hgates : gatesOn s p = false) (hidle : (port s p).tx = [])
    (hqueue : queueOf s p tc = e :: rest) (habove : ∀ u, tc < u → u < 8 → queueOf s p u = []) : selectTx s p [7, 6, 5, 4, 3, 2, 1, 0] = some e := by
  obtain ⟨l, m, hsplit, hl⟩ := classesDown_split htc
  rw [hsplit, selectTx_skip fun u hu => habove u (hl u hu).1 (hl u hu).2, selectTx, hqueue]
  exact if_pos (by rw [portFree_of_idle hidle, mayStart_of_gatesOff hgates]; rfl)

end

/-! ## FRAME_TX_START (R175, R177, R190) -/

/-- Entry `e` leaves its queue, and its transmission begins. -/
def txBegun (s : Dev) (p : Nat) (e : TxEnt) : Dev :=
  modPort (setQueue s p e.tc ((queueOf s p e.tc).drop 1)) p (fun x => { x with tx := x.tx.map (fun t => { t with preempted := true }) ++
    [{ ent := e, preemptable := isPreemptable s p e.tc, whole := e.cut.isNone }] })

/-- The port counts a frame that it sends, and keeps the timestamp of an event message. -/
def txCounted (s : Dev) (p : Nat) (e : TxEnt) : Dev :=
  if isPtpEvent e.bytes then modErg (countPort (portCnt (portCnt s p 2 1) p 3 e.bytes.length) p (if e.cut.isSome then 0x02 else 0x03))
    (fun x => { x with ptpTx := x.ptpTx ++ [(p, nowNs (countPort (portCnt (portCnt s p 2 1) p 3 e.bytes.length) p (if e.cut.isSome then 0x02 else 0x03)), e.bytes)] })
  else countPort (portCnt (portCnt s p 2 1) p 3 e.bytes.length) p (if e.cut.isSome then 0x02 else 0x03)

section
variable (s : Dev) (p : Nat) (e : TxEnt)

theorem frameTxStart_of_idle (hup : linkUp s p = true) (hgates : gatesOn s p = false) (hidle : (port s p).tx = [])
    (hsel : selectTx s p [7, 6, 5, 4, 3, 2, 1, 0] = some e) : frameTxStart s p = txCounted (txBegun s p e) p e := by
  have hstale : ((rangeFrom 0 8).flatMap (queueOf s p)).filter (fun e => e.cut.isSome && gateOpen s p e.tc && !(mayStart s p e)) = [] := by
    simp [mayStart_of_gatesOff hgates]
  unfold frameTxStart
  simp only [hup, Bool.not_true, Bool.false_eq_true, if_false, hstale, List.foldl_nil, hsel, hidle, List.isEmpty_nil]
  rfl

theorem queueOf_txBegun (q u : Nat) : queueOf (txBegun s p e) q u = if (q, u) = (p, e.tc) then (queueOf s p e.tc).drop 1 else queueOf s q u := by
  rw [txBegun, queueOf_modPort, queueOf_setQueue]
  exact fun _ => rfl

theorem tx_txBegun (hidle : (port s p).tx = []) : (port (txBegun s p e) p).tx = [{ ent := e, preemptable := isPreemptable s p e.tc, whole := e.cut.isNone }] := by
  rw [txBegun, port_modPort_same]
  simp only [(port_setQueue s p e.tc _ p).2, hidle, List.map_nil, List.nil_append]

theorem txBegun_kept : TblKept s (txBegun s p e) [] := (TblKept.modPort _ _ _).trans (.modPort _ _ _)

theorem erg_portCnt (s : Dev) (p n j : Nat) : (portCnt s p j n).erg = s.erg := setReg_erg _ _ _

theorem txCounted_ports : (txCounted s p e).erg.ports = s.erg.ports := by
  have hcount : CountOnly (portCnt (portCnt s p 2 1) p 3 e.bytes.length) (countPort (portCnt (portCnt s p 2 1) p 3 e.bytes.length) p (if e.cut.isSome then 0x02 else 0x03)) :=
    .countPort _ _ _
  have hports := congrArg ErgSt.ports (hcount.erg.trans ((erg_portCnt _ _ _ _).trans (erg_portCnt _ _ _ _)))
  unfold txCounted
  split
  · exact hports
  · exact hports

theorem reg_txCounted (o : Nat) : reg (txCounted s p e) o = reg (portCnt (portCnt s p 2 1) p 3 e.bytes.length) o := by
  have hcount := (CountOnly.countPort (portCnt (portCnt s p 2 1) p 3 e.bytes.length) p (if e.cut.isSome then 0x02 else 0x03)).reg o
  unfold txCounted
  split
  · exact hcount
  · exact hcount

theorem txCounted_cores : CoresKept s (txCounted s p e) := by
  have hcnt : TblKept s (portCnt (portCnt s p 2 1) p 3 e.bytes.length) [PORT_CNT p 2, PORT_CNT p 3] :=
    ((TblKept.portCnt s p 2 1).mono (by simp)).trans ((TblKept.portCnt _ p 3 _).mono (by simp))
  have hcount := hcnt.trans ((CountOnly.countPort (portCnt (portCnt s p 2 1) p 3 e.bytes.length) p (if e.cut.isSome then 0x02 else 0x03)).tblKept.mono (by simp))
  unfold txCounted
  split
  · exact (hcount.trans ((TblKept.modErg _ _).mono (by simp))).cores
  · exact hcount.cores

end

end Sys2Proof.Machine
end

section
/-! PROOFS. The last copy of a stored frame frees it (05 R199). -/
namespace Sys2Proof.Machine

/-! ## Cells that return -/

section
variable (s : Dev) (f : BufFrame) (n : Nat)

/-- What is left of a frame whose cells return. -/
def frameLess : BufFrame := { f with shared := f.shared - min f.shared n, res := f.res - min f.res (n - min f.shared n) }

theorem SW_BUF_ne_PORT_BUF (p : Nat) : SW_BUF ≠ PORT_BUF p := by
  simp only [SW_BUF, PORT_BUF]
  omega

/-- The cells leave the frame's port, then the frame, and the shared pool shows what the stored frames leave of it. -/
theorem returnCells_eq : ∃ d, d.erg = s.erg ∧ reg d SW_BUF = reg s SW_BUF ∧ returnCells s f n =
    fset (putFrame d (frameLess f n)) SW_BUF SW_BUF_SHARED_FREE
      (fget (putFrame d (frameLess f n)) SW_BUF SW_BUF_SHARED_SIZE - sharedHeld (putFrame d (frameLess f n))) := by
  unfold returnCells
  extract_lets sh r d d2
  have hport : d.erg = s.erg ∧ reg d SW_BUF = reg s SW_BUF := by
    simp only [d]
    split
    · exact ⟨(fset_erg _ _ _ _).trans (fset_erg _ _ _ _), by rw [reg_fset_ne _ _ _ (SW_BUF_ne_PORT_BUF _), reg_fset_ne _ _ _ (SW_BUF_ne_PORT_BUF _)]⟩
    · exact ⟨rfl, rfl⟩
  exact ⟨d, hport.1, hport.2, rfl⟩

theorem reg_putFrame (o : Nat) : reg (putFrame s f) o = reg s o := rfl

theorem frames_putFrame : (putFrame s f).erg.frames = s.erg.frames.map (fun g => if g.id = f.id then f else g) := rfl

theorem frames_returnCells : (returnCells s f n).erg.frames = s.erg.frames.map (fun g => if g.id = f.id then frameLess f n else g) := by
  obtain ⟨d, herg, -, heq⟩ := returnCells_eq s f n
  rw [heq, fset_erg, frames_putFrame, herg]
  rfl

/-- The shared pool has free what the stored frames leave of it. -/
theorem sharedFree_returnCells : sharedFree (returnCells s f n) = (fget s SW_BUF SW_BUF_SHARED_SIZE - sharedHeld (returnCells s f n)) % 2 ^ 20 := by
  obtain ⟨d, -, hreg, heq⟩ := returnCells_eq s f n
  have hheld : sharedHeld (returnCells s f n) = sharedHeld (putFrame d (frameLess f n)) := by rw [sharedHeld, sharedHeld, heq, fset_erg]
  rw [sharedFree, hheld, heq, fget_fset_same _ _ _ _ (by decide) (by decide), fget, reg_putFrame, hreg]
  rfl

end

/-! ## The frames that stay -/

/-- The cells that frames hold in the shared pool, when those of one id give theirs back. -/
theorem sum_shared_freed {id : Nat} {f' : BufFrame} (hf' : f'.shared = 0) (l : List BufFrame) :
    ((l.map (fun g => if g.id = id then f' else g)).map (fun g => g.shared)).sum + ((l.filter (fun g => g.id == id)).map (fun g => g.shared)).sum =
      (l.map (fun g => g.shared)).sum := by
  induction l with
  | nil => rfl
  | cons g l ih =>
    by_cases hid : g.id = id
    · simp only [List.map_cons, List.sum_cons, hid, if_true, hf', BEq.rfl, List.filter_cons_of_pos, ← ih]
      omega
    · have hne : (g.id == id) = false := beq_eq_false_iff_ne.2 hid
      simp only [List.map_cons, List.sum_cons, hid, if_false, List.filter_cons, hne, Bool.false_eq_true, ← ih]
      omega

/-- A frame of another id is still found. -/
theorem find_freed {id id1 : Nat} {f' : BufFrame} (hf' : f'.id = id) (hne : id1 ≠ id) (l : List BufFrame) :
    ((l.map (fun g => if g.id = id then f' else g)).filter (fun g => g.id != id)).find? (fun g => g.id == id1) = l.find? (fun g => g.id == id1) := by
  induction l with
  | nil => rfl
  | cons g l ih =>
    by_cases hid : g.id = id
    · have hgone : (f'.id != id) = false := by simp [hf']
      have hother : (g.id == id1) = false := by simpa [hid] using hne.symm
      simp only [List.map_cons, List.find?_cons, hother, if_pos hid, List.filter_cons, hgone, Bool.false_eq_true, if_false, ih]
    · have hstays : (g.id != id) = true := by simp [hid]
      simp only [List.map_cons, hid, if_false, List.filter_cons, hstays, if_true, List.find?_cons, ih]

/-! ## The release of a frame -/

theorem sharedFree_modErg (s : Dev) (g : ErgSt → ErgSt) : sharedFree (modErg s g) = sharedFree s := rfl

section
variable {s : Dev} {id : Nat} {f : BufFrame}

theorem releaseFrame_of_last (hfind : findFrame s id = some f) (hlast : f.users ≤ 1) :
    releaseFrame s id = modErg (returnCells s f (f.res + f.shared)) (fun e => { e with frames := e.frames.filter (fun g => g.id != id) }) := by
  rw [releaseFrame, hfind]
  exact if_neg (Nat.not_lt.2 hlast)

theorem id_of_findFrame (hfind : findFrame s id = some f) : f.id = id := by simpa using List.find?_some hfind

theorem id_frameLess (hfind : findFrame s id = some f) (n : Nat) : (frameLess f n).id = id := id_of_findFrame (f := f) hfind

theorem frames_releaseFrame (hfind : findFrame s id = some f) (hlast : f.users ≤ 1) :
    (releaseFrame s id).erg.frames = (s.erg.frames.map (fun g => if g.id = id then frameLess f (f.res + f.shared) else g)).filter (fun g => g.id != id) := by
  rw [releaseFrame_of_last hfind hlast, modErg, frames_returnCells, id_of_findFrame hfind]

theorem findFrame_released (hfind : findFrame s id = some f) (hlast : f.users ≤ 1) : findFrame (releaseFrame s id) id = none := by
  rw [findFrame, frames_releaseFrame hfind hlast, List.find?_eq_none]
  intro g hg
  simpa using (List.mem_filter.1 hg).2

theorem findFrame_others (hfind : findFrame s id = some f) (hlast : f.users ≤ 1) {id1 : Nat} (hne : id1 ≠ id) :
    findFrame (releaseFrame s id) id1 = findFrame s id1 := by
  rw [findFrame, frames_releaseFrame hfind hlast]
  exact find_freed (f' := frameLess f (f.res + f.shared)) (id_frameLess hfind _) hne _

/-- All cells of a frame are back in the shared pool when its last copy is done. -/
theorem sharedFree_released (hfind : findFrame s id = some f) (hlast : f.users ≤ 1) (honly : s.erg.frames.filter (fun g => g.id == id) = [f])
    (hpool : sharedFree s + sharedHeld s = fget s SW_BUF SW_BUF_SHARED_SIZE) : sharedFree (releaseFrame s id) = sharedFree s + f.shared := by
  have hsize : fget s SW_BUF SW_BUF_SHARED_SIZE < 2 ^ 20 := bitsOf_lt _ _
  have hnone : (frameLess f (f.res + f.shared)).shared = 0 := by
    simp only [frameLess]
    omega
  have hheld : sharedHeld (returnCells s f (f.res + f.shared)) + f.shared = sharedHeld s := by
    have hsum := sum_shared_freed (id := id) hnone s.erg.frames
    rw [honly, List.map_singleton, List.sum_singleton] at hsum
    rw [sharedHeld, frames_returnCells, id_of_findFrame hfind]
    exact hsum
  have hfree : sharedFree (releaseFrame s id) = sharedFree (returnCells s f (f.res + f.shared)) := by rw [releaseFrame_of_last hfind hlast, sharedFree_modErg]
  rw [hfree, sharedFree_returnCells, Nat.mod_eq_of_lt (by omega)]
  omega

end

/-! ## FRAME_TX_DONE -/

theorem frameTxDone_of_whole {s : Dev} {p : Nat} {t : TxNow} (htx : (port s p).tx = [t]) (hwhole : t.whole = true) :
    frameTxDone s p = releaseFrame (modPort s p (fun x => { x with tx := [] })) t.ent.id := by
  unfold frameTxDone
  simp only [htx, List.reverse_cons, List.reverse_nil, List.nil_append, hwhole, Bool.not_true, Bool.false_eq_true, if_false, List.map_nil]

end Sys2Proof.Machine
end

section
/-! PROOFS. How a frame enters: its classification, its destinations and its admission (05 R175, R182, R184, R198). -/
namespace Sys2Proof.Machine

/-! ## What a counted event leaves of a frame's way through the pipeline -/

namespace CountOnly

section
variable {a b : Dev} (h : CountOnly a b)
include h

theorem fget (o : Nat) (f : Nat × Nat) : fget b o f = Machine.fget a o f := fget_of_regs h.regs o f

theorem fbit (o : Nat) (f : Nat × Nat) : fbit b o f = Machine.fbit a o f := fbit_of_reg (h.reg o) f

theorem swWord (t i k : Nat) : swWord b t i k = Machine.swWord a t i k := swWord_of_tbl (congrArg ErgSt.tbl h.erg) t i k

theorem vlanMember (vid p : Nat) : vlanMember b vid p = Machine.vlanMember a vid p := by simp only [Machine.vlanMember, h.swWord]

theorem classify (p : Nat) (x : Header) : classify b p x = Machine.classify a p x := by simp only [Machine.classify, h.fget]

theorem streamHandle (x : Header) (vid : Nat) : streamHandle b x vid = Machine.streamHandle a x vid := by
  simp only [Machine.streamHandle, streamFind, h.erg]

theorem isEthernet (p : Nat) : isEthernet b p = Machine.isEthernet a p := isEthernet_of_reg (h.reg _) h.doms p

theorem fdbFind (mac vid : Nat) : fdbFind b mac vid = Machine.fdbFind a mac vid := by simp only [Machine.fdbFind, fdbValid, h.swWord]

theorem instState (i : Nat) : Machine.inst b i = Machine.inst a i := by simp only [Machine.inst, h.inst]

theorem floodInsts (vid kind : Nat) : floodInsts b vid kind = Machine.floodInsts a vid kind := by
  have hstate (i : Nat) : piState b i = piState a i := h.fget _ _
  rw [Machine.floodInsts, Machine.floodInsts, h.inst]
  exact congrArg (List.filterMap · a.inst) (funext fun e => by rw [hstate])

/-- The destinations of a frame, and whether its entry discards it, do not depend on what is counted. -/
theorem forwardTo (fromPort fromInst : Option Nat) (da vid : Nat) :
    (forwardTo b fromPort fromInst da vid).1 = (Machine.forwardTo a fromPort fromInst da vid).1 ∧
      (Machine.forwardTo b fromPort fromInst da vid).2.1 = (Machine.forwardTo a fromPort fromInst da vid).2.1 := by
  simp only [Machine.forwardTo, h.fdbFind, h.swWord, h.vlanMember, h.isEthernet, h.instState, h.floodInsts]
  cases Machine.fdbFind a da vid with
  | none => simp only [and_self]
  | some k => simp only [apply_ite Prod.fst, apply_ite Prod.snd, and_self]

end

theorem forwarded (s : Dev) (fromPort fromInst : Option Nat) (da vid : Nat) : CountOnly s (Machine.forwardTo s fromPort fromInst da vid).2.2 := by
  unfold Machine.forwardTo
  dsimp only
  split
  · have hcount : CountOnly s (Machine.countErg s 3) := .countErg _ _
    simp only [apply_ite Prod.snd]
    exact .ite hcount (.ite hcount (.ite hcount (.ite hcount hcount)))
  · exact .countErg _ _

end CountOnly

/-! ## The cells of a frame (R198) -/

/-- Cells that a frame of `need` cells takes from the shared pool, its port's reservation being charged first. -/
def sharedNeed (s : Dev) (p need : Nat) : Nat := need - min (fget s (PORT_BUF p) PORT_BUF_RES - fget s (PORT_BUF p) PORT_BUF_HELD_RES) need

theorem charge_eq_none {s : Dev} {p need : Nat} : charge s p need = none ↔ sharedFree s < sharedNeed s p need := by
  simp only [charge, sharedNeed]
  split
  · next h => exact iff_of_false (by simp) (Nat.not_lt.2 h)
  · next h => exact iff_of_true rfl (Nat.not_le.1 h)

theorem charge_eq_some {s d : Dev} {p need res sh : Nat} (h : charge s p need = some (res, sh, d)) : BufferOnly s d ∧ d.erg = s.erg := by
  unfold charge at h
  extract_lets free r sh1 s1 s2 at h
  split at h
  · have hs1 : BufferOnly s s1 := .fset_PORT_BUF _ _ _ _
    have hs2 : BufferOnly s s2 := hs1.trans (.fset_PORT_BUF _ _ _ _)
    rw [Option.some.injEq, Prod.mk.injEq, Prod.mk.injEq] at h
    obtain ⟨-, -, rfl⟩ := h
    exact ⟨hs2.trans (.fset_SW_BUF _ _ _), (fset_erg _ _ _ _).trans ((fset_erg _ _ _ _).trans (fset_erg _ _ _ _))⟩
  · cases h

theorem CountOnly.charge_isNone {a b : Dev} (h : CountOnly a b) (p need : Nat) : (charge b p need).isNone = (charge a p need).isNone := by
  rw [Bool.eq_iff_iff, Option.isNone_iff_eq_none, Option.isNone_iff_eq_none, charge_eq_none, charge_eq_none]
  simp only [sharedNeed, sharedFree, h.fget]

/-! ## Admission -/

/-- The reception of frame `r` has begun on a port; every queue, every thread and all storage are as they were. -/
structure RxBegun (a b : Dev) (p : Nat) (r : RxFrame) : Prop where
  rx : (port b p).rx = (port a p).rx ++ [r]
  queues : ∀ q tc, queueOf b q tc = queueOf a q tc
  cores : CoresKept a b

theorem RxBegun.modPort {a b : Dev} (hports : b.erg.ports = a.erg.ports) (hcores : CoresKept a b) (p : Nat) (r : RxFrame) :
    RxBegun a (modPort b p (fun x => { x with rx := x.rx ++ [r] })) p r where
  rx := by rw [port_modPort_same, port_of_ports hports]
  queues := fun q tc => by
    rw [queueOf_modPort]
    · exact queueOf_of_port (by rw [port_of_ports hports]) tc
    · exact fun _ => rfl
  cores := ⟨hcores.1, hcores.2.trans (TblKept.modPort _ _ _).storage⟩

section
variable {s : Dev} {p : Nat} {r : RxFrame}

theorem admitFrame_of_full (h : charge s p r.need = none) : admitFrame s p r = rxDiscard (countErg (portCnt s p 7 1) 9) p r := by
  rw [admitFrame]
  simp only [h]

/-- A frame for which the cells are too few is kept for its stage 1 checks alone, and counted. -/
theorem rxBegun_of_full (h : charge s p r.need = none) :
    RxBegun s (admitFrame s p r) p { r with dropped := true } ∧ reg (admitFrame s p r) (PORT_CNT p 7) = reg s (PORT_CNT p 7) + 1 := by
  have hcount := CountOnly.countErg (portCnt s p 7 1) 9
  have hports := (congrArg ErgSt.ports hcount.erg).trans (congrArg ErgSt.ports (setReg_erg s (PORT_CNT p 7) _))
  have hcores := ((TblKept.portCnt s p 7 1).trans (hcount.tblKept.mono (by simp))).cores
  have hreg : reg (rxDiscard (countErg (portCnt s p 7 1) 9) p r) (PORT_CNT p 7) = reg (countErg (portCnt s p 7 1) 9) (PORT_CNT p 7) := rfl
  rw [admitFrame_of_full h]
  exact ⟨.modPort hports hcores p _, by rw [hreg, hcount.reg, reg_portCnt_same]; rfl⟩

theorem mayCut_of_clear {q tc : Nat} (h : fbit s (PORT_CTRL p) PORT_CTRL_CT_EN = false) : mayCut s p q tc = false := by simp [mayCut, h]

theorem admitFrame_of_room {res sh : Nat} {d : Dev} (h : charge s p r.need = some (res, sh, d)) (hct : fbit s (PORT_CTRL p) PORT_CTRL_CT_EN = false) :
    ∃ d1, BufferOnly s d1 ∧ d1.erg.nextId = s.erg.nextId + 1 ∧
      admitFrame s p r = modPort d1 p (fun x => { x with rx := x.rx ++ [{ r with id := s.erg.nextId, cuts := [] }] }) := by
  obtain ⟨hbuf, herg⟩ := charge_eq_some h
  unfold admitFrame
  extract_lets need body hasTag
  split
  · next hnone => cases hnone.symm.trans h
  next res1 sh1 d1 hsome =>
  cases hsome.symm.trans h
  extract_lets id s2 s3 x
  have hid : id = s.erg.nextId := congrArg ErgSt.nextId herg
  have hs2 : BufferOnly s s2 := hbuf.trans (.addFrame _ _)
  have hs3 : CountOnly s2 s3 := .ite (.countErg _ _) (.refl _)
  have hall := hs2.trans hs3.buffer
  have hclear : fbit s3 (PORT_CTRL p) PORT_CTRL_CT_EN = false :=
    (fbit_of_reg (hall.regs _ (notBuf_of_mod (by simp only [PORT_CTRL]; omega) (by simp only [PORT_CTRL]; omega))) _).trans hct
  have hx : x = (s3, []) := by
    refine List.foldl_fixed' (fun dest => ?_) _
    cases dest with
    | port q => exact if_neg (by rw [mayCut_of_clear hclear]; exact Bool.false_ne_true)
    | inst i => rfl
    | oasis => rfl
  refine ⟨s3, hall, ?_, ?_⟩
  · rw [hs3.erg]
    exact congrArg (· + 1) hid
  · rw [hx, ← hid]

end

end Sys2Proof.Machine
end

section
/-! PROOFS. FRAME_RX_START of a frame that no stage before admission takes (05 R175, R198). -/
namespace Sys2Proof.Machine

/-- A frame that the cells suffice for gets the next id; none of its copies cuts through. -/
theorem rxBegun_of_room {s : Dev} {p : Nat} {r : RxFrame} (h : (charge s p r.need).isNone = false) (hct : fbit s (PORT_CTRL p) PORT_CTRL_CT_EN = false) :
    RxBegun s (admitFrame s p r) p { r with id := s.erg.nextId, cuts := [] } ∧ reg (admitFrame s p r) (PORT_CNT p 7) = reg s (PORT_CNT p 7) ∧
      (admitFrame s p r).erg.nextId = s.erg.nextId + 1 := by
  obtain ⟨⟨res, sh, d⟩, hsome⟩ := Option.isSome_iff_exists.1 (Option.isNone_eq_false_iff.1 h)
  obtain ⟨d1, hbuf, hid, heq⟩ := admitFrame_of_room hsome hct
  have hcnt : reg d1 (PORT_CNT p 7) = reg s (PORT_CNT p 7) :=
    hbuf.regs _ (notBuf_of_mod (by simp only [PORT_CNT]; omega) (by simp only [PORT_CNT]; omega))
  rw [heq]
  exact ⟨.modPort hbuf.ports hbuf.cores p _, hcnt, hid⟩

/-- What is noted of a frame of the plain path at its start. -/
def plainFrame (s : Dev) (p : Nat) (express : Bool) (bytes : List Byte) : RxFrame :=
  { id := 0, bytes := bytes, express := express, first := nowNs s, maxLen := fget s (PORT_MAXFRAME p) PORT_MAXFRAME_MAXFRAME,
    need := cellsOf (fget s (PORT_MAXFRAME p) PORT_MAXFRAME_MAXFRAME), vid := (classify s p (parseHeader bytes)).1,
    prio := (classify s p (parseHeader bytes)).2.1, tagged := (classify s p (parseHeader bytes)).2.2,
    dests := (forwardTo s (some p) none (parseHeader bytes).da (classify s p (parseHeader bytes)).1).1 }

/-- No stage before admission takes the frame: it is neither control, reserved, of a stream nor out of its VLAN, and no entry discards it; addresses are not learned. -/
structure PlainPath (s : Dev) (p : Nat) (x : Header) : Prop where
  twin : twinOn s = false
  etype : x.etype ≠ 0x8808
  reserved : isReserved x.da = false
  accept : fget s (PORT_VLAN p) PORT_VLAN_ACCEPT = 0
  filter : fbit s (PORT_VLAN p) PORT_VLAN_INGRESS_FILTER = false
  learn : fbit s SW_CTRL SW_CTRL_LEARN_EN = false
  stream : streamHandle s x (classify s p x).1 = none
  discard : (forwardTo s (some p) none x.da (classify s p x).1).2.1 = false

theorem heartbeatPath_of_twinOff {s : Dev} (h : twinOn s = false) (p : Nat) (x : Header) : heartbeatPath s p x = none := by
  simp [heartbeatPath, h]

theorem PlainPath.counted {a b : Dev} {p : Nat} {x : Header} (h : PlainPath a p x) (hc : CountOnly a b) : PlainPath b p x where
  twin := (hc.fbit _ _).trans h.twin
  etype := h.etype
  reserved := h.reserved
  accept := (hc.fget _ _).trans h.accept
  filter := (hc.fbit _ _).trans h.filter
  learn := (hc.fbit _ _).trans h.learn
  stream := by rw [hc.classify, hc.streamHandle, h.stream]
  discard := by rw [hc.classify, (hc.forwardTo _ _ _ _).2, h.discard]

section
variable {s : Dev} {p : Nat} {express : Bool} {bytes : List Byte}

/-- A frame of the plain path comes to admission with events counted alone. -/
theorem frameRxStart_of_plain (hup : linkUp s p = true) (hrx : (port s p).rx.any (fun r => r.express == express && r.arrived.isNone) = false)
    (h : PlainPath s p (parseHeader bytes)) :
    ∃ d, CountOnly s d ∧ frameRxStart s p express bytes = admitFrame d p (plainFrame s p express bytes) := by
  have hcount := CountOnly.countErg s 2
  obtain ⟨htwin, hetype, hreserved, haccept, hfilter, hlearn, hstream, hdiscard⟩ := h.counted hcount
  have hdests := (hcount.forwardTo (some p) none (parseHeader bytes).da (classify s p (parseHeader bytes)).1).1
  refine ⟨_, hcount.trans (.forwarded _ (some p) none (parseHeader bytes).da (classify s p (parseHeader bytes)).1), ?_⟩
  rw [hcount.classify] at hstream hdiscard
  unfold frameRxStart plainFrame
  simp only [hup, hrx, hetype, hcount.classify, heartbeatPath_of_twinOff htwin, hreserved, haccept, hfilter, hlearn, hstream, hdiscard, hdests, Bool.not_true, Bool.false_eq_true,
    Bool.not_false, Bool.false_and, Bool.true_or, Bool.and_true, Option.isSome_none, false_and, or_self, if_false, if_true, zero_ne_one, OfNat.zero_ne_ofNat]

end

end Sys2Proof.Machine
end

section
/-! PROOFS. FRAME_RX_END: the last bit of a frame, its credit, its counters and its queue (05 R173, R198, R200). -/
namespace Sys2Proof.Machine

/-! ## The FEC counters of a port (R217) -/

section
variable (s : Dev) (p c u : Nat)

theorem erg_countFec : (countFec s p c u).erg = s.erg := (fset_erg _ _ _ _).trans (fset_erg _ _ _ _)

theorem credits_countFec : (countFec s p c u).credits = s.credits := (fset_credits _ _ _ _).trans (fset_credits _ _ _ _)

theorem doms_countFec : (countFec s p c u).doms = s.doms := (fset_doms _ _ _ _).trans (fset_doms _ _ _ _)

theorem countFec_kept : TblKept s (countFec s p c u) [PORT_FEC p] := (TblKept.fset _ _ _ _).trans (.fset _ _ _ _)

end

theorem doms_advanceTo (s : Dev) (ns : Nat) : (advanceTo s ns).doms = s.doms := by
  unfold advanceTo
  split <;> rfl

/-! ## What the end of a frame leaves on its port -/

/-- Frame of `n` bytes has left the reception of its port: it has a credit of the port's queue, and it is counted. -/
structure RxEnded (a b : Dev) (p : Nat) (express : Bool) (ts n : Nat) (bad : Bool) : Prop where
  time : ts ≤ nowNs b
  credit : creditQ b (128 + p) = { creditQ a (128 + p) with free := (creditQ a (128 + p)).free - 1, out := (creditQ a (128 + p)).out + 1 }
  rx : (port b p).rx = (port a p).rx.eraseP (fun r => r.express == express)
  frames : reg b (PORT_CNT p 0) = reg a (PORT_CNT p 0) + 1
  bytes : reg b (PORT_CNT p 1) = reg a (PORT_CNT p 1) + BitVec.ofNat 64 n
  badFcs : reg b (PORT_CNT p 4) = if bad then reg a (PORT_CNT p 4) + 1 else reg a (PORT_CNT p 4)
  tbl : b.erg.tbl = a.erg.tbl
  doms : b.doms = a.doms
  regs : ∀ o, NotBuf o → o ∉ [PORT_FEC p, PORT_CNT p 0, PORT_CNT p 1, PORT_CNT p 4] → reg b o = reg a o
  cores : CoresKept a b

theorem notBuf_PORT_CNT (p : Nat) {j : Nat} (hj : j < 16) : NotBuf (PORT_CNT p j) :=
  notBuf_of_mod (by simp only [PORT_CNT]; omega) (by simp only [PORT_CNT]; omega)

namespace RxEnded

section
variable {a b : Dev} {p ts n : Nat} {express bad : Bool} (h : RxEnded a b p express ts n bad)
include h

/-- Frames may be stored, queued and released after it, as long as the port's receptions stay. -/
theorem moved {c : Dev} (hc : FramesMoved b c) (hrx : (port c p).rx = (port b p).rx) : RxEnded a c p express ts n bad where
  time := (nowNs_of_time hc.traffic.time).symm ▸ h.time
  credit := (creditQ_of_credits hc.traffic.credits _).trans h.credit
  rx := hrx.trans h.rx
  frames := (hc.regs _ (notBuf_PORT_CNT p (by decide))).trans h.frames
  bytes := (hc.regs _ (notBuf_PORT_CNT p (by decide))).trans h.bytes
  badFcs := (hc.regs _ (notBuf_PORT_CNT p (by decide))).trans h.badFcs
  tbl := hc.tbl.trans h.tbl
  doms := hc.doms.trans h.doms
  regs := fun o ho hl => (hc.regs o ho).trans (h.regs o ho hl)
  cores := ⟨hc.cores.1.trans h.cores.1, h.cores.2.trans hc.cores.2⟩

theorem buffer {c : Dev} (hc : BufferOnly b c) : RxEnded a c p express ts n bad := h.moved hc.toFramesMoved (by rw [hc.port])

theorem PORT_TC (q : Nat) : reg b (PORT_TC q) = reg a (Machine.PORT_TC q) :=
  h.regs _ (notBuf_of_mod (by simp only [Machine.PORT_TC]; omega) (by simp only [Machine.PORT_TC]; omega))
    (by simp only [Machine.PORT_TC, PORT_FEC, PORT_CNT, List.mem_cons, List.not_mem_nil, or_false]; omega)

theorem linkUp (q : Nat) : linkUp b q = Machine.linkUp a q := by
  refine linkUp_of_reg (h.regs _ ?_ ?_) (h.regs _ ?_ ?_) h.doms
  · exact notBuf_of_mod (by decide) (by decide)
  · simp only [SW_GROUP_MODE, PORT_FEC, PORT_CNT, List.mem_cons, List.not_mem_nil, or_false]
    omega
  · exact notBuf_of_mod (by simp only [PORT_STATUS]; omega) (by simp only [PORT_STATUS]; omega)
  · simp only [PORT_STATUS, PORT_FEC, PORT_CNT, List.mem_cons, List.not_mem_nil, or_false]
    omega

theorem tcOf (q prio : Nat) : tcOf b q prio = Machine.tcOf a q prio := by simp only [Machine.tcOf, h.PORT_TC]

theorem egressFrame (q : Nat) (body : List Byte) (hasTag : Bool) (vid prio : Nat) (yellow : Bool) :
    egressFrame b q body hasTag vid prio yellow = Machine.egressFrame a q body hasTag vid prio yellow := by
  have huntagged : vlanUntagged b vid q = vlanUntagged a vid q := by simp only [vlanUntagged, swWord_of_tbl h.tbl]
  rw [Machine.egressFrame, Machine.egressFrame, huntagged]

end

end RxEnded

/-! ## The reception ends -/

/-- The frame leaves the reception with a credit of the port's queue. -/
def rxTaken (s : Dev) (p : Nat) (express : Bool) (ts : Nat) : Dev :=
  modPort (takeCredit (advanceTo s ts) (128 + p)) p (fun x => { x with rx := x.rx.eraseP (fun q => q.express == express) })

/-- The counters of a port for a frame of a good length. -/
def rxCounted (s : Dev) (p n : Nat) (bad : Bool) : Dev := if bad then portCnt (portCnt (portCnt s p 0 1) p 1 n) p 4 1 else portCnt (portCnt s p 0 1) p 1 n

/-- The cells that the frame turned out not to need return. -/
def rxShrunk (s : Dev) (r : RxFrame) : Dev :=
  match findFrame s r.id with
  | some f => returnCells s f (r.need - cellsOf r.bytes.length)
  | none => s

theorem BufferOnly.rxShrunk (s : Dev) (r : RxFrame) : BufferOnly s (rxShrunk s r) := by
  unfold Machine.rxShrunk
  split
  · exact .returnCells _ _ _
  · exact .refl _

section
variable {s : Dev} {p ts n : Nat} {express bad : Bool}

theorem erg_takeCredit (s : Dev) (q : Nat) : (takeCredit s q).erg = s.erg := rfl

theorem takeCredit_kept (s : Dev) (q : Nat) : TblKept s (takeCredit s q) [] := ⟨rfl, storageKept_of_fields rfl rfl rfl, fun _ _ => rfl⟩

theorem doms_takeCredit (s : Dev) (q : Nat) : (takeCredit s q).doms = s.doms := rfl

theorem time_takeCredit (s : Dev) (q : Nat) : (takeCredit s q).time = s.time := rfl

theorem creditQ_takeCredit_advanceTo (ts q : Nat) :
    creditQ (takeCredit (advanceTo s ts) q) q = { creditQ s q with free := (creditQ s q).free - 1, out := (creditQ s q).out + 1 } := by
  rw [takeCredit, creditQ_setCreditQ_same, creditQ_of_credits (credits_advanceTo s ts)]

theorem rxTaken_port (s : Dev) (p : Nat) (express : Bool) (ts : Nat) :
    (port (rxTaken s p express ts) p).rx = (port s p).rx.eraseP (fun r => r.express == express) ∧ ∀ q tc, queueOf (rxTaken s p express ts) q tc = queueOf s q tc := by
  have herg : (takeCredit (advanceTo s ts) (128 + p)).erg = s.erg := (erg_takeCredit _ _).trans (erg_advanceTo s ts)
  refine ⟨?_, fun q tc => ?_⟩
  · rw [rxTaken, port_modPort_same, port_of_erg herg]
  · rw [rxTaken, queueOf_modPort]
    · exact queueOf_of_port (by rw [port_of_erg herg]) tc
    · exact fun _ => rfl

theorem rxTaken_kept (s : Dev) (p : Nat) (express : Bool) (ts : Nat) : TblKept s (rxTaken s p express ts) [] :=
  ((TblKept.advanceTo s ts).trans (takeCredit_kept _ _)).trans (.modPort _ _ _)

end

end Sys2Proof.Machine
end

section
/-! PROOFS. The end of a frame: queued, dropped as bad, or waiting for a credit (01 R15, 05 R173, R198, R200). -/
namespace Sys2Proof.Machine

/-! ## The counters of a frame's end -/

section
variable (s : Dev) (p n : Nat) (bad : Bool)

theorem rxCounted_good : rxCounted s p n false = portCnt (portCnt s p 0 1) p 1 n := rfl

theorem rxCounted_bad : rxCounted s p n true = portCnt (portCnt (portCnt s p 0 1) p 1 n) p 4 1 := rfl

theorem traffic_portCnt (j : Nat) : TrafficOnly s (portCnt s p j n) := (TrafficOnly.refl s).setReg _ _

theorem erg_rxCounted : (rxCounted s p n bad).erg = s.erg := by
  cases bad with
  | false => rw [rxCounted_good, erg_portCnt, erg_portCnt]
  | true => rw [rxCounted_bad, erg_portCnt, erg_portCnt, erg_portCnt]

theorem traffic_rxCounted : TrafficOnly s (rxCounted s p n bad) := by
  have hgood : TrafficOnly s (portCnt (portCnt s p 0 1) p 1 n) := (traffic_portCnt _ _ _ _).trans (traffic_portCnt _ _ _ _)
  cases bad with
  | false => exact hgood
  | true => exact (traffic_portCnt _ _ _ _).trans hgood

theorem rxCounted_kept : TblKept s (rxCounted s p n bad) [PORT_CNT p 0, PORT_CNT p 1, PORT_CNT p 4] := by
  have hgood : TblKept s (portCnt (portCnt s p 0 1) p 1 n) [PORT_CNT p 0, PORT_CNT p 1, PORT_CNT p 4] :=
    ((TblKept.portCnt s p 0 1).mono (by simp)).trans ((TblKept.portCnt _ p 1 n).mono (by simp))
  cases bad with
  | false => exact hgood
  | true => exact hgood.trans ((TblKept.portCnt _ p 4 1).mono (by simp))

theorem frames_rxCounted : reg (rxCounted s p n bad) (PORT_CNT p 0) = reg s (PORT_CNT p 0) + 1 := by
  have hgood : reg (portCnt (portCnt s p 0 1) p 1 n) (PORT_CNT p 0) = reg s (PORT_CNT p 0) + 1 := by
    rw [reg_portCnt_ne _ _ (PORT_CNT_ne p (by decide)), reg_portCnt_same]
    rfl
  cases bad with
  | false => exact hgood
  | true => rw [rxCounted_bad, reg_portCnt_ne _ _ (PORT_CNT_ne p (by decide)), hgood]

theorem bytes_rxCounted : reg (rxCounted s p n bad) (PORT_CNT p 1) = reg s (PORT_CNT p 1) + BitVec.ofNat 64 n := by
  have hgood : reg (portCnt (portCnt s p 0 1) p 1 n) (PORT_CNT p 1) = reg s (PORT_CNT p 1) + BitVec.ofNat 64 n := by
    rw [reg_portCnt_same, reg_portCnt_ne _ _ (PORT_CNT_ne p (by decide))]
  cases bad with
  | false => exact hgood
  | true => rw [rxCounted_bad, reg_portCnt_ne _ _ (PORT_CNT_ne p (by decide)), hgood]

theorem badFcs_rxCounted : reg (rxCounted s p n bad) (PORT_CNT p 4) = if bad then reg s (PORT_CNT p 4) + 1 else reg s (PORT_CNT p 4) := by
  have hgood : reg (portCnt (portCnt s p 0 1) p 1 n) (PORT_CNT p 4) = reg s (PORT_CNT p 4) := by
    rw [reg_portCnt_ne _ _ (PORT_CNT_ne p (by decide)), reg_portCnt_ne _ _ (PORT_CNT_ne p (by decide))]
  cases bad with
  | false => exact hgood
  | true =>
    rw [rxCounted_bad, reg_portCnt_same, hgood]
    rfl

end

theorem doms_of_traffic {a b : Dev} (h : TrafficOnly a b) : b.doms = a.doms := (congrArg Dev.doms h :)

/-! ## The end of a reception -/

theorem rxShrunk_of_none {d : Dev} {r : RxFrame} (h : findFrame d r.id = none) : rxShrunk d r = d := by
  rw [rxShrunk, h]

theorem rxShrunk_of_some {d : Dev} {r : RxFrame} {f : BufFrame} (h : findFrame d r.id = some f) :
    rxShrunk d r = returnCells d f (r.need - cellsOf r.bytes.length) := by
  rw [rxShrunk, h]

/-- The frame has left the reception and is counted; its cells are those of its length. -/
def rxSettled (s : Dev) (p : Nat) (express : Bool) (ts : Nat) (r : RxFrame) (bad : Bool) : Dev :=
  rxShrunk (rxCounted (rxTaken s p express ts) p r.bytes.length bad) r

section
variable (s : Dev) (p : Nat) (express : Bool) (ts n : Nat) (bad : Bool)

theorem rxTaken_rest : (rxTaken s p express ts).erg.tbl = s.erg.tbl ∧ (rxTaken s p express ts).doms = s.doms ∧ (rxTaken s p express ts).time = (advanceTo s ts).time ∧
    creditQ (rxTaken s p express ts) (128 + p) = creditQ (takeCredit (advanceTo s ts) (128 + p)) (128 + p) := by
  have hmoved := FramesMoved.modPort (takeCredit (advanceTo s ts) (128 + p)) p (fun x => { x with rx := x.rx.eraseP (fun q => q.express == express) })
  refine ⟨?_, ?_, ?_, creditQ_of_credits hmoved.traffic.credits _⟩
  · exact hmoved.tbl.trans (congrArg ErgSt.tbl ((erg_takeCredit _ _).trans (erg_advanceTo s ts)))
  · exact hmoved.doms.trans ((doms_takeCredit _ _).trans (doms_advanceTo s ts))
  · exact hmoved.traffic.time.trans (time_takeCredit _ _)

theorem rxEnded_of_taken : RxEnded s (rxCounted (rxTaken s p express ts) p n bad) p express ts n bad := by
  obtain ⟨htbl, hdoms, htime, hcredit⟩ := rxTaken_rest s p express ts
  have hkept := rxTaken_kept s p express ts
  have hcount := rxCounted_kept (rxTaken s p express ts) p n bad
  have htraffic := traffic_rxCounted (rxTaken s p express ts) p n bad
  have herg := erg_rxCounted (rxTaken s p express ts) p n bad
  have hreg (o : Nat) : reg (rxTaken s p express ts) o = reg s o := hkept.regs o (by simp)
  constructor
  · rw [nowNs_of_time (htraffic.time.trans htime)]
    exact le_nowNs_advanceTo s ts
  · rw [creditQ_of_credits htraffic.credits, hcredit, creditQ_takeCredit_advanceTo]
  · rw [port_of_erg herg, (rxTaken_port s p express ts).1]
  · rw [frames_rxCounted, hreg]
  · rw [bytes_rxCounted, hreg]
  · rw [badFcs_rxCounted, hreg]
  · rw [herg, htbl]
  · exact (doms_of_traffic htraffic).trans hdoms
  · intro o _ ho
    exact (hcount.regs o fun hmem => ho (List.mem_cons_of_mem _ hmem)).trans (hreg o)
  · exact ((hkept.mono (by simp)).trans hcount).cores

theorem rxSettled_ended (r : RxFrame) : RxEnded s (rxSettled s p express ts r bad) p express ts r.bytes.length bad :=
  (rxEnded_of_taken _ _ _ _ _ _).buffer (.rxShrunk _ _)

theorem queueOf_rxSettled (r : RxFrame) (q tc : Nat) : queueOf (rxSettled s p express ts r bad) q tc = queueOf s q tc := by
  have hcount := port_of_erg (erg_rxCounted (rxTaken s p express ts) p r.bytes.length bad) q
  rw [rxSettled, (BufferOnly.rxShrunk _ _).queueOf, queueOf_of_port (congrArg PortSt.queues hcount), (rxTaken_port s p express ts).2]

end

/-- What FEC counts on a port is apart from the end of a frame. -/
theorem RxEnded.of_fec {a b : Dev} {p c u ts n : Nat} {express bad : Bool} (h : RxEnded (countFec a p c u) b p express ts n bad) : RxEnded a b p express ts n bad := by
  have hkept := countFec_kept a p c u
  have hcnt {j : Nat} : reg (countFec a p c u) (PORT_CNT p j) = reg a (PORT_CNT p j) :=
    hkept.regs _ (by simp only [PORT_CNT, PORT_FEC, List.mem_singleton]; omega)
  have herg := erg_countFec a p c u
  constructor
  · exact h.time
  · rw [h.credit, creditQ_of_credits (credits_countFec a p c u)]
  · rw [h.rx, port_of_erg herg]
  · rw [h.frames, hcnt]
  · rw [h.bytes, hcnt]
  · rw [h.badFcs, hcnt]
  · rw [h.tbl, herg]
  · rw [h.doms, doms_countFec]
  · intro o hbuf ho
    exact (h.regs o hbuf ho).trans (hkept.regs o fun hmem => ho (by simp [List.mem_singleton.1 hmem]))
  · exact ⟨h.cores.1.trans hkept.threads, hkept.storage.trans h.cores.2⟩

/-! ## FRAME_RX_END of a frame that its pipeline takes -/

theorem mayIssue_of_credits {a b : Dev} (h : b.credits = a.credits) (q : Nat) : mayIssue b q = mayIssue a q := by simp only [mayIssue, creditQ_of_credits h]

/-- A frame that goes to one port alone: it was admitted, is no stream's, and nothing of it has begun on a port. -/
structure ForPort (r : RxFrame) (q : Nat) : Prop where
  arrived : r.arrived = none
  dropped : r.dropped = false
  control : r.control = false
  cyclic : r.cyclic = false
  cuts : r.cuts = []
  dests : r.dests = [.port q]
  long : 64 ≤ r.bytes.length
  short : r.bytes.length ≤ r.maxLen

section
variable {s : Dev} {p q ts : Nat} {express : Bool} {r : RxFrame}

theorem endWaits_of_port (h : ForPort r q) (d : Dev) : endWaits d r = [] := by
  unfold endWaits
  simp only [h.dests, List.flatMap_cons, List.flatMap_nil, List.append_nil, ite_self]

theorem endCuts_of_none (h : ForPort r q) (d : Dev) (good : Bool) : endCuts d r good = d := by
  rw [endCuts, h.cuts]
  rfl

theorem deliver_of_port (h : ForPort r q) (d : Dev) :
    deliver d p r = enqueue (useFrame d r.id) q
      { id := r.id, bytes := egressFrame d q (r.bytes.take (r.bytes.length - 4)) (parseHeader r.bytes).tag.isSome r.vid r.prio r.yellow, tc := tcOf d q r.prio,
        cells := cellsOf r.bytes.length } := by
  unfold deliver
  simp only [h.dests, h.cuts, List.foldl_cons, List.foldl_nil, List.contains_nil, Bool.false_eq_true, if_false]

/-- The end of a frame that goes to one port: it is counted, its cells are settled, and a good one is handed on; the reception's own hold of it ends. -/
theorem frameRxEnd_of_port {bad : Bool} (hfind : (port s p).rx.find? (fun r => r.express == express) = some r) (h : ForPort r q) (hissue : mayIssue s (128 + p) = true)
    (htwin : twinOn (rxSettled s p express ts r bad) = false)
    (hfcs : (leNat (r.bytes.drop (r.bytes.length - 4)) != crcFcs (r.bytes.take (r.bytes.length - 4))) = bad) :
    frameRxEnd s p express ts = releaseFrame (if bad then rxSettled s p express ts r bad else deliver (rxSettled s p express ts r bad) p r) r.id := by
  unfold frameRxEnd
  split
  · next hnone => cases hnone.symm.trans hfind
  next r1 hsome =>
  cases hsome.symm.trans hfind
  extract_lets ts1 d0 d1 d2 n d3 badLen badFcs d4 d5 d6 good d7 d8 x d9 d10
  have hcalm : (r.dropped || r.control) = false := by rw [h.dropped, h.control]; rfl
  have hgo : mayIssue d0 (128 + p) = true := (mayIssue_of_credits (credits_advanceTo s ts1) _).trans hissue
  have hlen : badLen = false := by simp only [badLen, n, Nat.not_lt.2 h.long, Nat.not_lt.2 h.short, decide_false, Bool.or_self]
  have hgood : good = !bad := by simp only [good, hlen, badFcs, n, hfcs, Bool.not_false, Bool.true_and]
  have hd2 : d2 = rxTaken s p express ts := by simp only [d2, d1, d0, ts1, h.arrived, hcalm, Option.getD_none, Bool.false_eq_true, if_false, rxTaken]
  have hd6 : d6 = rxCounted d2 p r.bytes.length bad := by
    simp only [d6, d5, d4, d3, hlen, badFcs, n, hfcs, h.control, Bool.and_false, Bool.false_eq_true, if_false, rxCounted]
  have hd7 : d7 = rxSettled s p express ts r bad := by
    rw [rxSettled, ← hd2, ← hd6]
    clear_value d6
    simp only [d7, n]
    cases hframe : findFrame d6 r.id with
    | none => rw [rxShrunk_of_none hframe]
    | some f => rw [rxShrunk_of_some hframe]
  have hd8 : d8 = d7 := endCuts_of_none h _ _
  have hd10 : d10 = if bad then d7 else deliver d7 p r := by
    rw [← hd7, ← hd8] at htwin
    rw [← hd8]
    clear_value d8
    cases bad with
    | true => exact if_pos (by rw [hgood]; rfl)
    | false =>
      have hd9 : d9 = d8 := by
        simp only [d9, h.cyclic]
        cases r.handle with
        | none => rfl
        | some hd => rfl
      have hpath := heartbeatPath_of_twinOff htwin p x
      simp only [d10, hgood, hpath, hd9, Bool.not_false, Bool.not_true, Bool.false_eq_true, if_false]
  rw [if_neg (by simp [hgo]), endWaits_of_port h, if_neg (by simp), if_neg (by simp [hcalm]), hd10, hd7]

end

end Sys2Proof.Machine
end

section
/-! PROOFS. The states after FRAME_RX_END: the frame queued, dropped, or waiting for a credit of its port (01 R15, 05 R173, R178, R198). -/
namespace Sys2Proof.Machine

/-! ## The egress queue (R200) -/

/-- The entry of a frame in the egress queue of a port. -/
def egressEntry (s : Dev) (q : Nat) (r : RxFrame) : TxEnt :=
  { id := r.id, bytes := egressFrame s q (r.bytes.take (r.bytes.length - 4)) (parseHeader r.bytes).tag.isSome r.vid r.prio r.yellow, tc := tcOf s q r.prio,
    cells := cellsOf r.bytes.length }

/-- A queue without a limit takes every frame of a port that is up. -/
theorem enqueue_of_unlimited {s : Dev} {p : Nat} {e : TxEnt} (hup : linkUp s p = true) (hlimit : fget s (PORT_TC p) PORT_TC_QLIMIT = 0) :
    enqueue s p e = setQueue s p e.tc (queueOf s p e.tc ++ [e]) := by
  simp only [enqueue, hup, hlimit, Bool.not_true, Bool.false_eq_true, if_false, ne_eq, not_true_eq_false, false_and]

theorem FramesMoved.setQueue (s : Dev) (p tc : Nat) (l : List TxEnt) : FramesMoved s (setQueue s p tc l) := .modPort _ _ _

namespace RxEnded

section
variable {a b : Dev} {p q ts n : Nat} {express bad : Bool} {r : RxFrame} (h : RxEnded a b p express ts n bad)
include h

theorem twinOn : twinOn b = Machine.twinOn a :=
  fbit_of_reg (h.regs _ (notBuf_of_mod (by decide) (by decide)) (by simp only [TWIN_CTRL, PORT_FEC, PORT_CNT, List.mem_cons, List.not_mem_nil, or_false]; omega)) _

theorem egressEntry (q : Nat) (r : RxFrame) : egressEntry b q r = Machine.egressEntry a q r := by
  rw [Machine.egressEntry, Machine.egressEntry, h.egressFrame, h.tcOf]

/-- A good frame stands last in the queue of its class on its port, and every other queue is as it was. -/
theorem queued (hqueues : ∀ q1 tc1, queueOf b q1 tc1 = queueOf a q1 tc1) (hport : ForPort r q) (hup : Machine.linkUp a q = true)
    (hlimit : fget a (Machine.PORT_TC q) PORT_TC_QLIMIT = 0) :
    RxEnded a (releaseFrame (deliver b p r) r.id) p express ts n bad ∧
      ∀ q1 tc1, queueOf (releaseFrame (deliver b p r) r.id) q1 tc1 =
        if (q1, tc1) = (q, Machine.tcOf a q r.prio) then queueOf a q (Machine.tcOf a q r.prio) ++ [Machine.egressEntry a q r] else queueOf a q1 tc1 := by
  have hused := BufferOnly.useFrame b r.id
  have hended := h.buffer hused
  have hlimitUsed : fget (useFrame b r.id) (Machine.PORT_TC q) PORT_TC_QLIMIT = 0 := by
    rw [fget, hended.PORT_TC]
    exact hlimit
  have hdeliver : deliver b p r = setQueue (useFrame b r.id) q (Machine.tcOf a q r.prio)
      (queueOf (useFrame b r.id) q (Machine.tcOf a q r.prio) ++ [Machine.egressEntry a q r]) := by
    rw [deliver_of_port hport b, enqueue_of_unlimited ((hended.linkUp q).trans hup) hlimitUsed, h.tcOf, h.egressFrame, Machine.egressEntry]
  rw [hdeliver]
  refine ⟨(hended.moved (.setQueue _ _ _ _) (port_setQueue _ _ _ _ _).1).buffer (.releaseFrame _ _), fun q1 tc1 => ?_⟩
  rw [(BufferOnly.releaseFrame _ _).queueOf, queueOf_setQueue, hused.queueOf, hused.queueOf, hqueues, hqueues]

end

end RxEnded

/-! ## FRAME_RX_END (R173) -/

section
variable {s : Dev} {p q c u ts : Nat} {express : Bool} {r : RxFrame}

theorem queueOf_countFec (s : Dev) (p c u q tc : Nat) : queueOf (countFec s p c u) q tc = queueOf s q tc :=
  queueOf_of_port (congrArg PortSt.queues (port_of_erg (erg_countFec s p c u) q)) tc

theorem rx_countFec (s : Dev) (p c u q : Nat) : (port (countFec s p c u) q).rx = (port s q).rx := congrArg PortSt.rx (port_of_erg (erg_countFec s p c u) q)

theorem rxSettled_of_fec (bad : Bool) : RxEnded s (rxSettled (countFec s p c u) p express ts r bad) p express ts r.bytes.length bad ∧
    ∀ q1 tc1, queueOf (rxSettled (countFec s p c u) p express ts r bad) q1 tc1 = queueOf s q1 tc1 :=
  ⟨(rxSettled_ended _ _ _ _ _ _).of_fec, fun _ _ => (queueOf_rxSettled _ _ _ _ _ _ _ _).trans (queueOf_countFec _ _ _ _ _ _)⟩

theorem frameRxEnd_of_fec (hfind : (port s p).rx.find? (fun r => r.express == express) = some r) (h : ForPort r q) (hissue : mayIssue s (128 + p) = true)
    (htwin : twinOn s = false) (bad : Bool) (hfcs : (leNat (r.bytes.drop (r.bytes.length - 4)) != crcFcs (r.bytes.take (r.bytes.length - 4))) = bad) :
    frameRxEnd (countFec s p c u) p express ts = releaseFrame (if bad then rxSettled (countFec s p c u) p express ts r bad
      else deliver (rxSettled (countFec s p c u) p express ts r bad) p r) r.id :=
  frameRxEnd_of_port (by rw [rx_countFec, hfind]) h ((mayIssue_of_credits (credits_countFec s p c u) _).trans hissue) ((rxSettled_of_fec bad).1.twinOn.trans htwin) hfcs

/-- A frame with a good FCS is counted and queued. -/
theorem frameRxEnd_good (hfind : (port s p).rx.find? (fun r => r.express == express) = some r) (h : ForPort r q) (hissue : mayIssue s (128 + p) = true)
    (htwin : twinOn s = false) (hfcs : (leNat (r.bytes.drop (r.bytes.length - 4)) == crcFcs (r.bytes.take (r.bytes.length - 4))) = true)
    (hup : linkUp s q = true) (hlimit : fget s (PORT_TC q) PORT_TC_QLIMIT = 0) :
    RxEnded s (frameRxEnd (countFec s p c u) p express ts) p express ts r.bytes.length false ∧
      ∀ q1 tc1, queueOf (frameRxEnd (countFec s p c u) p express ts) q1 tc1 =
        if (q1, tc1) = (q, tcOf s q r.prio) then queueOf s q (tcOf s q r.prio) ++ [egressEntry s q r] else queueOf s q1 tc1 := by
  obtain ⟨hended, hqueues⟩ := rxSettled_of_fec (s := s) (p := p) (c := c) (u := u) (ts := ts) (express := express) (r := r) false
  rw [frameRxEnd_of_fec hfind h hissue htwin false (by rw [bne, hfcs]; rfl)]
  exact hended.queued hqueues h hup hlimit

/-- A frame with a wrong FCS is counted as that, and no queue has it. -/
theorem frameRxEnd_bad (hfind : (port s p).rx.find? (fun r => r.express == express) = some r) (h : ForPort r q) (hissue : mayIssue s (128 + p) = true)
    (htwin : twinOn s = false) (hfcs : (leNat (r.bytes.drop (r.bytes.length - 4)) == crcFcs (r.bytes.take (r.bytes.length - 4))) = false) :
    RxEnded s (frameRxEnd (countFec s p c u) p express ts) p express ts r.bytes.length true ∧
      ∀ q1 tc1, queueOf (frameRxEnd (countFec s p c u) p express ts) q1 tc1 = queueOf s q1 tc1 := by
  obtain ⟨hended, hqueues⟩ := rxSettled_of_fec (s := s) (p := p) (c := c) (u := u) (ts := ts) (express := express) (r := r) true
  rw [frameRxEnd_of_fec hfind h hissue htwin true (by rw [bne, hfcs]; rfl), if_pos rfl]
  exact ⟨hended.buffer (.releaseFrame _ _), fun q1 tc1 => ((BufferOnly.releaseFrame _ _).queueOf _ _).trans (hqueues q1 tc1)⟩

end

/-! ## A frame without a credit (01 R15) -/

theorem stallOn_rest (s : Dev) (q : Nat) : (stallOn s q).erg = s.erg ∧ (stallOn s q).regs = s.regs ∧ (stallOn s q).time = s.time := by
  unfold stallOn
  dsimp only
  split
  · exact ⟨rfl, rfl, rfl⟩
  · exact ⟨rfl, rfl, rfl⟩

/-- The frame of a port has arrived whole, and waits for a credit of the port's queue. -/
structure RxWaits (a b : Dev) (p : Nat) (r : RxFrame) (ts : Nat) : Prop where
  time : ts ≤ nowNs b
  rx : (port b p).rx = (port a p).rx.map (fun q => if q = r then { q with arrived := some ts } else q)
  queues : ∀ q tc, queueOf b q tc = queueOf a q tc
  frames : b.erg.frames = a.erg.frames
  waiting : (creditQ b (128 + p)).waiting = true
  regs : ∀ o, o ≠ PORT_FEC p → reg b o = reg a o
  cores : CoresKept a b

section
variable {s : Dev} {p c u ts : Nat} {express : Bool} {r : RxFrame}

theorem frameRxEnd_of_starved (hfind : (port s p).rx.find? (fun r => r.express == express) = some r) (harrived : r.arrived = none) (hdropped : r.dropped = false)
    (hcontrol : r.control = false) (hissue : mayIssue s (128 + p) = false) :
    frameRxEnd s p express ts = countPort (stallOn (noteArrived (advanceTo s ts) p r ts) (128 + p)) p 6 := by
  unfold frameRxEnd
  split
  · next hnone => cases hnone.symm.trans hfind
  next r1 hsome =>
  cases hsome.symm.trans hfind
  extract_lets ts1 d0
  have hts : ts1 = ts := by simp only [ts1, harrived, Option.getD_none]
  have hstarved : mayIssue d0 (128 + p) = false := (mayIssue_of_credits (credits_advanceTo s ts1) _).trans hissue
  rw [if_pos (by simp [hdropped, hcontrol, hstarved])]
  simp only [d0, hts]

theorem frames_noteArrived (s : Dev) (p : Nat) (r : RxFrame) (ts : Nat) : (noteArrived s p r ts).erg.frames = s.erg.frames := rfl

theorem rxWaits_of_noted (s : Dev) (p : Nat) (r : RxFrame) (ts : Nat) : RxWaits s (stallOn (noteArrived (advanceTo s ts) p r ts) (128 + p)) p r ts := by
  obtain ⟨herg, hregs, htime⟩ := stallOn_rest (noteArrived (advanceTo s ts) p r ts) (128 + p)
  obtain ⟨-, hthreads, hstorage⟩ := stallOn_fields (noteArrived (advanceTo s ts) p r ts) (128 + p)
  have hmoved : FramesMoved (advanceTo s ts) (noteArrived (advanceTo s ts) p r ts) := .modPort _ _ _
  have hkept : TblKept s (noteArrived (advanceTo s ts) p r ts) [] := (TblKept.advanceTo s ts).trans (.modPort _ _ _)
  have hport := port_of_erg (erg_advanceTo s ts)
  constructor
  · rw [nowNs_of_time (htime.trans hmoved.traffic.time)]
    exact le_nowNs_advanceTo s ts
  · rw [port_of_erg herg, noteArrived, port_modPort_same, hport]
  · intro q tc
    rw [queueOf_of_port (congrArg PortSt.queues (port_of_erg herg q)), noteArrived, queueOf_modPort]
    · exact queueOf_of_port (congrArg PortSt.queues (hport q)) tc
    · exact fun _ => rfl
  · rw [herg, frames_noteArrived, erg_advanceTo]
  · exact waiting_stallOn _ _
  · intro o _
    rw [reg, hregs]
    exact hkept.regs o (by simp)
  · exact ⟨hthreads.trans hkept.threads, hkept.storage.trans hstorage⟩

theorem RxWaits.counted {a b d : Dev} (h : RxWaits a b p r ts) (hd : CountOnly b d) : RxWaits a d p r ts where
  time := (nowNs_of_time hd.buffer.traffic.time).symm ▸ h.time
  rx := by rw [hd.buffer.port, h.rx]
  queues := fun q tc => (hd.buffer.queueOf q tc).trans (h.queues q tc)
  frames := by rw [hd.erg, h.frames]
  waiting := by rw [creditQ_of_credits hd.credits, h.waiting]
  regs := fun o ho => (hd.reg o).trans (h.regs o ho)
  cores := ⟨hd.tblKept.threads.trans h.cores.1, h.cores.2.trans hd.tblKept.storage⟩

theorem RxWaits.of_fec {b : Dev} (h : RxWaits (countFec s p c u) b p r ts) : RxWaits s b p r ts where
  time := h.time
  rx := by rw [h.rx, rx_countFec]
  queues := fun q tc => (h.queues q tc).trans (queueOf_countFec _ _ _ _ _ _)
  frames := by rw [h.frames, erg_countFec]
  waiting := h.waiting
  regs := fun o ho => (h.regs o ho).trans ((countFec_kept s p c u).regs o (by simpa using ho))
  cores := ⟨h.cores.1.trans (countFec_kept s p c u).threads, (countFec_kept s p c u).storage.trans h.cores.2⟩

theorem frameRxEnd_waits (hfind : (port s p).rx.find? (fun r => r.express == express) = some r) (harrived : r.arrived = none) (hdropped : r.dropped = false)
    (hcontrol : r.control = false) (hissue : mayIssue s (128 + p) = false) : RxWaits s (frameRxEnd (countFec s p c u) p express ts) p r ts := by
  rw [frameRxEnd_of_starved (by rw [rx_countFec, hfind]) harrived hdropped hcontrol ((mayIssue_of_credits (credits_countFec s p c u) _).trans hissue)]
  exact ((rxWaits_of_noted _ _ _ _).counted (.countPort _ _ _)).of_fec

end

end Sys2Proof.Machine
end

section
/-! PROOFS. A frame from its start at one port to its end at another (O41). -/
namespace Sys2Proof.Machine

section
variable (s : State) (p : PortId) (ex : Bool) (bytes : List Byte) (at_ : Nat) (c u : BitVec 32) (i : BitVec 17) (hd : Fin 16384)

theorem exec_frameRxStart : exec (.frameRxStart p ex bytes) s = .next { s with dev := frameRxStart s.dev p.val ex bytes } := rfl

theorem exec_frameRxEnd : exec (.frameRxEnd p ex ⟨at_, c, u⟩) s = .next { s with dev := frameRxEnd (countFec s.dev p.val c.toNat u.toNat) p.val ex at_ } := rfl

theorem exec_frameTxStart : exec (.frameTxStart p) s = .next { s with dev := frameTxStart s.dev p.val } := rfl

theorem exec_frameTxDone : exec (.frameTxDone p) s = .next { s with dev := frameTxDone s.dev p.val } := rfl

theorem exec_fdbAgeing : exec (.fdbAgeing i) s = .next { s with dev := fdbAge s.dev i.toNat } := rfl

theorem exec_recoveryReset : exec (.recoveryReset hd) s = .next { s with dev := recoveryReset s.dev hd.val } := rfl

end

/-! ## The state after each command -/

section
variable {s : Dev} {p : Nat}

theorem RxBegun.of_counted {a b d : Dev} {r : RxFrame} (h : RxBegun d b p r) (hd : CountOnly a d) : RxBegun a b p r where
  rx := by rw [h.rx, hd.buffer.port]
  queues := fun q tc => (h.queues q tc).trans (hd.buffer.queueOf q tc)
  cores := ⟨h.cores.1.trans hd.tblKept.threads, hd.tblKept.storage.trans h.cores.2⟩

/-- A frame of the plain path is admitted: with the cells it needs it has an id, and without them it is counted and kept for its checks. -/
theorem frameRxStart_begun {express : Bool} {bytes : List Byte} (hup : linkUp s p = true)
    (hrx : (port s p).rx.any (fun r => r.express == express && r.arrived.isNone) = false) (h : PlainPath s p (parseHeader bytes))
    (hct : fbit s (PORT_CTRL p) PORT_CTRL_CT_EN = false) :
    ((charge s p (plainFrame s p express bytes).need).isNone = true →
      RxBegun s (frameRxStart s p express bytes) p { plainFrame s p express bytes with dropped := true } ∧
        reg (frameRxStart s p express bytes) (PORT_CNT p 7) = reg s (PORT_CNT p 7) + 1) ∧
    ((charge s p (plainFrame s p express bytes).need).isNone = false →
      RxBegun s (frameRxStart s p express bytes) p { plainFrame s p express bytes with id := s.erg.nextId, cuts := [] } ∧
        reg (frameRxStart s p express bytes) (PORT_CNT p 7) = reg s (PORT_CNT p 7) ∧
        (frameRxStart s p express bytes).erg.nextId = s.erg.nextId + 1) := by
  obtain ⟨d, hd, heq⟩ := frameRxStart_of_plain hup hrx h
  rw [heq, ← hd.charge_isNone, ← hd.reg, ← hd.erg]
  refine ⟨fun hfull => ?_, fun hroom => ?_⟩
  · obtain ⟨hbegun, hcnt⟩ := rxBegun_of_full (Option.isNone_iff_eq_none.1 hfull)
    exact ⟨hbegun.of_counted hd, hcnt⟩
  · obtain ⟨hbegun, hcnt, hid⟩ := rxBegun_of_room hroom ((hd.fbit _ _).trans hct)
    exact ⟨hbegun.of_counted hd, hcnt, hid⟩

/-- A frame that begins to leave: its queue without it, and the port's counters of frames and bytes. -/
theorem frameTxStart_begun {tc : Nat} {e : TxEnt} {rest : List TxEnt} (hup : linkUp s p = true) (hgates : gatesOn s p = false) (hidle : (port s p).tx = [])
    (hsel : selectTx s p [7, 6, 5, 4, 3, 2, 1, 0] = some e) (hqueue : queueOf s p tc = e :: rest) (htc : e.tc = tc) :
    (∀ q t, queueOf (frameTxStart s p) q t = if (q, t) = (p, tc) then rest else queueOf s q t) ∧
      (port (frameTxStart s p) p).tx = [{ ent := e, preemptable := isPreemptable s p tc, whole := e.cut.isNone }] ∧
      reg (frameTxStart s p) (PORT_CNT p 2) = reg s (PORT_CNT p 2) + 1 ∧
      reg (frameTxStart s p) (PORT_CNT p 3) = reg s (PORT_CNT p 3) + BitVec.ofNat 64 e.bytes.length ∧ CoresKept s (frameTxStart s p) := by
  subst htc
  have hports := port_of_ports (txCounted_ports (txBegun s p e) p e)
  have hkept := txBegun_kept s p e
  have hcores := txCounted_cores (txBegun s p e) p e
  have hreg (o : Nat) : reg (txBegun s p e) o = reg s o := hkept.regs o (by simp)
  rw [frameTxStart_of_idle s p e hup hgates hidle hsel]
  refine ⟨fun q t => ?_, ?_, ?_, ?_, hcores.1.trans hkept.threads, hkept.storage.trans hcores.2⟩
  · rw [queueOf_of_port (congrArg PortSt.queues (hports q)), queueOf_txBegun, hqueue, List.drop_one, List.tail_cons]
  · rw [hports, tx_txBegun _ _ _ hidle]
  · rw [reg_txCounted, reg_portCnt_ne _ _ (PORT_CNT_ne p (by decide)), reg_portCnt_same, hreg]
    rfl
  · rw [reg_txCounted, reg_portCnt_same, reg_portCnt_ne _ _ (PORT_CNT_ne p (by decide)), hreg]

/-- The last copy of a frame frees it. -/
theorem frameTxDone_freed {t : TxNow} {f : BufFrame} (htx : (port s p).tx = [t]) (hwhole : t.whole = true) (hfind : findFrame s t.ent.id = some f) (hlast : f.users ≤ 1)
    (honly : s.erg.frames.filter (fun g => g.id == t.ent.id) = [f]) (hpool : sharedFree s + sharedHeld s = fget s SW_BUF SW_BUF_SHARED_SIZE) :
    (port (frameTxDone s p) p).tx = [] ∧ findFrame (frameTxDone s p) t.ent.id = none ∧ sharedFree (frameTxDone s p) = sharedFree s + f.shared ∧
      (∀ id, id ≠ t.ent.id → findFrame (frameTxDone s p) id = findFrame s id) ∧ (∀ q tc, queueOf (frameTxDone s p) q tc = queueOf s q tc) ∧
      CoresKept s (frameTxDone s p) := by
  have hdone := BufferOnly.releaseFrame (modPort s p (fun x => { x with tx := [] })) t.ent.id
  have hfindIdle : findFrame (modPort s p (fun x => { x with tx := [] })) t.ent.id = some f := hfind
  rw [frameTxDone_of_whole htx hwhole]
  refine ⟨?_, findFrame_released hfindIdle hlast, sharedFree_released hfindIdle hlast honly hpool, fun id hne => findFrame_others hfindIdle hlast hne, fun q tc => ?_,
    ((FramesMoved.modPort _ _ _).trans hdone.toFramesMoved).cores⟩
  · rw [hdone.port, port_modPort_same]
  · rw [hdone.queueOf, queueOf_modPort]
    exact fun _ => rfl

end

/-- Settles O41: a frame of the plain path comes to admission unchanged but for what is counted, its end settles its cells before its copy is queued, and a release by the last user
takes the frame from the buffer. -/
theorem frameReceptionAndTransmission : Obligations.FrameReceptionAndTransmission := by
  unfold Obligations.FrameReceptionAndTransmission
  intro s p ex bytes at_ i hd corrected uncorrected
  refine ⟨?_, ?_, ?_, ?_, ?_, ?_, ?_⟩
  · intro h hup hrx htwin hetype hreserved haccept hfilter hlearn hstream hct hdiscard full
    obtain ⟨hfull, hroom⟩ := frameRxStart_begun hup hrx ⟨htwin, hetype, hreserved, haccept, hfilter, hlearn, hstream, hdiscard⟩ hct
    cases hcharge : full with
    | true =>
      obtain ⟨hbegun, hcnt⟩ := hfull hcharge
      exact ⟨_, _, exec_frameRxStart s p ex bytes, hbegun.rx, rfl, rfl, rfl, rfl, rfl, rfl, rfl, rfl, rfl, fun _ => hcnt, fun h => absurd h (by simp), hbegun.queues,
        hbegun.cores⟩
    | false =>
      obtain ⟨hbegun, hcnt, hid⟩ := hroom hcharge
      exact ⟨_, _, exec_frameRxStart s p ex bytes, hbegun.rx, rfl, rfl, rfl, rfl, rfl, rfl, rfl, rfl, rfl, fun h => absurd h (by simp), fun _ => ⟨hcnt, rfl, hid⟩,
        hbegun.queues, hbegun.cores⟩
  · intro r q hfind harrived hdropped hcontrol hcyclic hcuts hdests htwin n goodFcs hlong hshort hissue hup hlimit _ _ tc
    have hport : ForPort r q := ⟨harrived, hdropped, hcontrol, hcyclic, hcuts, hdests, hlong, hshort⟩
    refine ⟨_, exec_frameRxEnd s p ex at_ corrected uncorrected, ?_⟩
    cases hfcs : goodFcs with
    | true =>
      obtain ⟨hended, hqueues⟩ := frameRxEnd_good (c := corrected.toNat) (u := uncorrected.toNat) (ts := at_) hfind hport hissue htwin hfcs hup hlimit
      exact ⟨hended.time, hended.credit, hended.rx, hended.frames, hended.bytes, fun _ => ⟨hended.badFcs, (hqueues q tc).trans (if_pos rfl)⟩, fun h => absurd h (by simp),
        fun q1 tc1 hne => (hqueues q1 tc1).trans (if_neg hne), hended.cores⟩
    | false =>
      obtain ⟨hended, hqueues⟩ := frameRxEnd_bad (c := corrected.toNat) (u := uncorrected.toNat) (ts := at_) hfind hport hissue htwin hfcs
      exact ⟨hended.time, hended.credit, hended.rx, hended.frames, hended.bytes, fun h => absurd h (by simp), fun _ => ⟨hended.badFcs, hqueues q tc⟩,
        fun q1 tc1 _ => hqueues q1 tc1, hended.cores⟩
  · intro r hfind harrived hdropped hcontrol hissue
    have hwaits := frameRxEnd_waits (c := corrected.toNat) (u := uncorrected.toNat) (ts := at_) hfind harrived hdropped hcontrol hissue
    refine ⟨_, exec_frameRxEnd s p ex at_ corrected uncorrected, hwaits.time, hwaits.rx, hwaits.queues, hwaits.frames, hwaits.waiting, fun j => hwaits.regs _ ?_, hwaits.cores⟩
    simp only [PORT_CNT, PORT_FEC]
    omega
  · intro tc e rest htc hup hgates hidle hqueue hclass habove
    obtain ⟨hqueues, htx, hframes, hbytes, hcores⟩ :=
      frameTxStart_begun hup hgates hidle (selectTx_highest htc hgates hidle hqueue habove) hqueue hclass
    exact ⟨_, exec_frameTxStart s p, (hqueues _ _).trans (if_pos rfl), fun q u hne => (hqueues q u).trans (if_neg hne), ⟨_, htx, rfl, rfl⟩, hframes, hbytes, hcores⟩
  · intro t f htx hwhole hfind hlast _ honly hpool
    exact ⟨_, exec_frameTxDone s p, frameTxDone_freed htx hwhole hfind hlast honly hpool⟩
  · intro hvalid hdyn hsec
    have hwaited := TblKept.advanceTo s.dev (mget (fun _ => 0) s.dev.erg.seen i.toNat + fget s.dev SW_AGEING SW_AGEING_SECONDS * 10 ^ 9)
    have htbl (ns : Nat) : (advanceTo s.dev ns).erg.tbl = s.dev.erg.tbl := congrArg ErgSt.tbl (erg_advanceTo s.dev ns)
    have hkept := (hwaited.mono (by simp)).trans (clearFdb_kept _ i.toNat)
    refine ⟨_, exec_fdbAgeing s i, ?_⟩
    rw [fdbAge_of_unseen hvalid hdyn hsec]
    refine ⟨fdbValid_clearFdb _ _, fun j k hj hk => ?_, ?_, ?_, hkept.regs, hkept.cores⟩
    · exact ((clearFdb_holds _ i.toNat).others 1 j k (by omega) hk).trans (swWord_of_tbl (htbl _) _ _ _)
    · rw [entries_clearFdb, hwaited.fget (by simp)]
      exact (fdbValid_of_tbl (htbl _) _).trans hvalid
    · rw [nowNs_of_time (clearFdb_time _ _)]
      exact le_nowNs_advanceTo _ _
  · intro htake
    refine ⟨_, exec_recoveryReset s hd, ?_⟩
    rw [recoveryReset_of_taken htake]
    generalize hwaited : advanceTo s.dev _ = d
    have herg : d.erg = s.dev.erg := hwaited ▸ erg_advanceTo _ _
    obtain ⟨hregs, htime⟩ := recoveryCleared_rest d hd.val
    refine ⟨recoveryCleared_same _ _, ?_, fun j hj => by rw [recoveryCleared_ne _ hj, herg], ?_, ?_⟩
    · rw [nowNs_of_time htime, ← hwaited]
      exact le_nowNs_advanceTo _ _
    · rw [hregs, ← hwaited, advanceTo_regs]
    · exact ((hwaited ▸ TblKept.advanceTo _ _ : TblKept s.dev d []).trans (.modErg _ _)).cores

end Sys2Proof.Machine
end

section
/-! PROOFS. Mailboxes: what their operations read, write and leave alone (06 R243 to R247). -/
namespace Sys2Proof.Machine

/-! ## Updates that no register, thread or byte of storage sees -/

/-- The write of a field of a listed register. -/
theorem TblKept.fset_listed (s : Dev) {l : List Nat} {o : Nat} (ho : o ∈ l) (f : Nat × Nat) (n : Nat) : TblKept s (Machine.fset s o f n) l :=
  (TblKept.fset s o f n).mono (fun _ h => List.mem_singleton.1 h ▸ ho)

/-- An update outside registers, threads and storage. -/
theorem TblKept.of_fields {a b : Dev} {l : List Nat} (hregs : b.regs = a.regs) (hthreads : b.threads = a.threads)
    (hstorage : (b.mem, b.tags, b.poison) = (a.mem, a.tags, a.poison)) : TblKept a b l := by
  obtain ⟨hmem, htags, hpoison⟩ : b.mem = a.mem ∧ b.tags = a.tags ∧ b.poison = a.poison := by simpa using hstorage
  exact ⟨hthreads, storageKept_of_fields hmem htags hpoison, fun o _ => by simp only [reg, hregs]⟩

theorem TblKept.raise (s : Dev) (src : Nat) (l : List Nat) : TblKept s (raise s src) l := by
  unfold Machine.raise
  split
  · exact .of_fields rfl rfl rfl
  · exact .refl _ _

theorem raise_mbox (s : Dev) (src : Nat) : (raise s src).mbox = s.mbox := (congrArg Dev.mbox (sansLogs_raise s src) :)

/-- A raise of an enabled route is pending (11 R434). -/
theorem pendSrc_raise {s : Dev} {src : Nat} (h : nbit (mget (fun _ => (0 : Word)) s.routes src).toNat 0 = true) :
    mget (fun _ => false) (raise s src).pendSrc src = true := by
  have hset : (raise s src).pendSrc = mset (fun _ => false) s.pendSrc src true := by rw [raise, if_pos h]
  rw [hset, mget_mset_same]

/-! ## The state of a mailbox -/

section
variable (s : Dev) (m : Nat) (x : MboxSt)

theorem mbox_of_mbox {a b : Dev} (h : b.mbox = a.mbox) (m : Nat) : mbox b m = mbox a m := by simp only [mbox, h]

@[simp] theorem mbox_fset (o : Nat) (f : Nat × Nat) (n : Nat) : mbox (fset s o f n) m = mbox s m := rfl
@[simp] theorem mbox_setMbox_same : mbox (setMbox s m x) m = x := mget_mset_same _ _ _ _
@[simp] theorem setMbox_inst : (setMbox s m x).inst = s.inst := rfl
@[simp] theorem fget_setMbox (o : Nat) (f : Nat × Nat) : fget (setMbox s m x) o f = fget s o f := rfl

theorem mbox_setMbox_ne {k : Nat} (h : k ≠ m) : mbox (setMbox s m x) k = mbox s k := mget_mset_ne _ _ _ h

theorem TblKept.setMbox (l : List Nat) : TblKept s (Machine.setMbox s m x) l := .of_fields rfl rfl rfl

end

/-! ## Responses (R243) -/

section
variable (s : Dev) (m st : Nat) (ws : List Word)

/-- The words of a response to the command in mailbox `m`. -/
def responseWords : List Word := BitVec.ofNat 64 (st + mboxSeq s m * 2 ^ 16 + ws.length * 2 ^ 24) :: ws

@[simp] theorem mbox_respond_same : mbox (respond s m st ws) m = { mbox s m with posted := false, resp := some (responseWords s m st ws) } := mbox_setMbox_same _ _ _
@[simp] theorem respond_inst : (respond s m st ws).inst = s.inst := rfl
@[simp] theorem respond_regs : (respond s m st ws).regs = s.regs := rfl
@[simp] theorem respond_erg : (respond s m st ws).erg = s.erg := rfl

theorem mbox_respond_ne {k : Nat} (h : k ≠ m) : mbox (respond s m st ws) k = mbox s k := mbox_setMbox_ne _ _ _ h

theorem TblKept.respond (l : List Nat) : TblKept s (Machine.respond s m st ws) l := .setMbox _ _ _ _

/-- A response answers the command that its mailbox holds, whatever else of the device has changed since. -/
theorem Answers.of_respond {a b : Dev} {m : Nat} (hout : (mbox b m).out = (mbox a m).out) (hinp : (mbox b m).inp = (mbox a m).inp)
    (hnotes : (mbox b m).notes = (mbox a m).notes) (st : Nat) (ws : List Word) : Answers a (Machine.respond b m st ws) m st ws := by
  have hseq : mboxSeq b m = mboxSeq a m := by simp only [mboxSeq, hout]
  refine ⟨by simp, ?_, by simp [hout], by simp [hinp], by simp [hnotes]⟩
  rw [mbox_respond_same, responseWords, hseq]

end

/-! ## The control register of a mailbox -/

theorem PI_CTRL_ne_mboxCtrl (i m : Nat) : PI_CTRL i ≠ mboxCtrl m := by
  unfold mboxCtrl bankedReg PI_CTRL PI_MBOX_CTRL MGR_MBOX_CTRL
  split <;> omega

/-- Writes of one field of a mailbox's control register leave the others: each pair of fields lies apart. -/
theorem fbit_fset_apart {s : Dev} {o n i j : Nat} (hi : i < 64) (hj : j < 64) (h : i < j ∨ j < i) : fbit (fset s o (i, i) n) o (j, j) = fbit s o (j, j) :=
  fbit_fset_field _ _ _ _ (Nat.le_refl i) hi (Nat.le_refl j) hj h

/-! ## SEND (R244, R246) -/

section
variable (s : Dev) (m : Nat)

/-- A CFG_APPLY posted drops the image of an earlier one (14 R529). -/
def stagedDropped : Dev := if mboxCode s m = 0x0210 ∧ mboxKnows m 0x0210 then { s with oasis := { s.oasis with staged := none } } else s

/-- The device after a SEND that is taken: the words are posted, and OUT_BUSY is set. -/
def mboxSent : Dev :=
  fset (setMbox (stagedDropped s m) m { mbox s m with posted := true, before := (mbox s m).notes.length }) (mboxCtrl m) PI_MBOX_CTRL_OUT_BUSY 1

theorem mboxSend_of_free (h : fbit s (mboxCtrl m) PI_MBOX_CTRL_OUT_BUSY = false) :
    mboxSend s m = if restarting s then respond (noteBusy (mboxSent s m) m) m ST_BUSY [] else mboxSent s m :=
  if_neg (by simp [h])

theorem mboxSend_of_busy (h : fbit s (mboxCtrl m) PI_MBOX_CTRL_OUT_BUSY = true) : mboxSend s m = mboxBusyErr s m := if_pos h

theorem mbox_mboxSent : mbox (mboxSent s m) m = { mbox s m with posted := true, before := (mbox s m).notes.length } := by
  rw [mboxSent, mbox_fset, mbox_setMbox_same]

theorem busy_mboxSent : fbit (mboxSent s m) (mboxCtrl m) PI_MBOX_CTRL_OUT_BUSY = true := fbit_fset_one _ _ (by decide)

theorem TblKept.stagedDropped (l : List Nat) : TblKept s (stagedDropped s m) l := by
  unfold Machine.stagedDropped
  split
  · exact .of_fields rfl rfl rfl
  · exact .refl _ _

theorem TblKept.mboxSent : TblKept s (mboxSent s m) [mboxCtrl m] := ((TblKept.stagedDropped s m _).trans (.setMbox _ _ _ _)).trans (.fset _ _ _ _)

theorem TblKept.noteBusy (l : List Nat) : TblKept s (noteBusy s m) l := .of_fields rfl rfl rfl

/-- A SEND that is taken is posted for Oasis, which answers BUSY while it restarts. -/
theorem mboxSend_taken (h : fbit s (mboxCtrl m) PI_MBOX_CTRL_OUT_BUSY = false) :
    fbit (mboxSend s m) (mboxCtrl m) PI_MBOX_CTRL_OUT_BUSY = true ∧ (mbox (mboxSend s m) m).out = (mbox s m).out ∧
      (restarting s = false → (mbox (mboxSend s m) m).posted = true ∧ (mbox (mboxSend s m) m).resp = (mbox s m).resp) ∧
      (restarting s = true → Answers s (mboxSend s m) m ST_BUSY []) ∧ TblKept s (mboxSend s m) [mboxCtrl m] := by
  have hsent := TblKept.mboxSent s m
  have hmbox := mbox_mboxSent s m
  have hnoted : mbox (noteBusy (mboxSent s m) m) m = mbox (mboxSent s m) m := rfl
  rw [mboxSend_of_free s m h]
  cases hrestart : restarting s with
  | false =>
    rw [if_neg Bool.false_ne_true, hmbox]
    exact ⟨busy_mboxSent s m, rfl, fun _ => ⟨rfl, rfl⟩, fun h => absurd h (by simp), hsent⟩
  | true =>
    have hanswers : Answers s (respond (noteBusy (mboxSent s m) m) m ST_BUSY []) m ST_BUSY [] :=
      .of_respond (by rw [hnoted, hmbox]) (by rw [hnoted, hmbox]) (by rw [hnoted, hmbox]) _ _
    have ⟨_, _, hout, _⟩ := hanswers
    rw [if_pos rfl]
    exact ⟨busy_mboxSent s m, hout, fun h => absurd h (by simp), fun _ => hanswers, (hsent.trans (.noteBusy _ m _)).trans (.respond _ m ST_BUSY [] _)⟩

/-- A dropped write leaves the mailboxes alone and sets MBOX_BUSY of its block. -/
theorem mboxBusyErr_spec : (mboxBusyErr s m).mbox = s.mbox ∧ (m < 256 → fbit (mboxBusyErr s m) (PI_ERR m) PI_ERR_MBOX_BUSY = true) ∧
    (256 ≤ m → m < 272 → fbit (mboxBusyErr s m) MGR_ERR MGR_ERR_MBOX_BUSY = true) ∧ TblKept s (mboxBusyErr s m) [PI_ERR m, MGR_ERR] := by
  unfold mboxBusyErr
  split
  · exact ⟨rfl, fun _ => fbit_fset_one _ _ (by decide), fun _ _ => by omega, .fset_listed _ (by simp) _ _⟩
  · split
    · exact ⟨rfl, fun _ => by omega, fun _ _ => fbit_fset_one _ _ (by decide), .fset_listed _ (by simp) _ _⟩
    · exact ⟨rfl, fun _ => by omega, fun _ _ => by omega, .refl _ _⟩

theorem mboxSend_dropped (h : fbit s (mboxCtrl m) PI_MBOX_CTRL_OUT_BUSY = true) :
    (mboxSend s m).mbox = s.mbox ∧ (m < 256 → fbit (mboxSend s m) (PI_ERR m) PI_ERR_MBOX_BUSY = true) ∧
      (256 ≤ m → m < 272 → fbit (mboxSend s m) MGR_ERR MGR_ERR_MBOX_BUSY = true) ∧ TblKept s (mboxSend s m) [PI_ERR m, MGR_ERR] := by
  rw [mboxSend_of_busy s m h]
  exact mboxBusyErr_spec s m

end

/-! ## MAILBOX_RESPONSE (R245) -/

section
variable (s : Dev) (m : Nat) (ws : List Word)

/-- The words `ws` stand in the inbound mailbox, and IN_FULL is set. -/
def inboundPlaced : Dev := fset (setMbox s m { mbox s m with inp := ws ++ List.replicate (16 - ws.length) 0 }) (mboxCtrl m) PI_MBOX_CTRL_IN_FULL 1

/-- Beside that, a message raises a source at most. -/
theorem placeInbound_cases : placeInbound s m ws = inboundPlaced s m ws ∨ ∃ src, placeInbound s m ws = raise (inboundPlaced s m ws) src := by
  unfold placeInbound
  extract_lets s1
  split
  · split
    · exact .inr ⟨_, rfl⟩
    · exact .inl rfl
  · split
    · exact .inr ⟨_, rfl⟩
    · exact .inl rfl

theorem placeInbound_regs : (placeInbound s m ws).regs = (inboundPlaced s m ws).regs := by
  obtain h | ⟨src, h⟩ := placeInbound_cases s m ws
  · rw [h]
  · rw [h, raise_regs]

theorem mbox_placeInbound : mbox (placeInbound s m ws) m = { mbox s m with inp := ws ++ List.replicate (16 - ws.length) 0 } := by
  have hplaced : mbox (inboundPlaced s m ws) m = { mbox s m with inp := ws ++ List.replicate (16 - ws.length) 0 } := by
    rw [inboundPlaced, mbox_fset, mbox_setMbox_same]
  obtain h | ⟨src, h⟩ := placeInbound_cases s m ws
  · rw [h, hplaced]
  · rw [h, mbox_of_mbox (raise_mbox _ _), hplaced]

theorem TblKept.placeInbound : TblKept s (placeInbound s m ws) [mboxCtrl m] := by
  have hplaced : TblKept s (inboundPlaced s m ws) [mboxCtrl m] := (TblKept.setMbox _ _ _ _).trans (.fset _ _ _ _)
  obtain h | ⟨src, h⟩ := placeInbound_cases s m ws
  · rwa [h]
  · rw [h]
    exact hplaced.trans (.raise _ _ _)

/-- A mailbox's source is raised with the message where the tenant has enabled it (R245). -/
theorem pendSrc_placeInbound (hm : m < 256) (hen : fbit s (PI_CTRL m) PI_CTRL_MB_IRQ_EN = true)
    (hroute : nbit (mget (fun _ => (0 : Word)) s.routes (0x0C01 + 2 * m)).toNat 0 = true) :
    mget (fun _ => false) (placeInbound s m ws).pendSrc (0x0C01 + 2 * m) = true := by
  have hraised : placeInbound s m ws = raise (inboundPlaced s m ws) (0x0C01 + 2 * m) := by
    rw [placeInbound, if_pos hm, if_pos hen]
    rfl
  rw [hraised]
  exact pendSrc_raise hroute

/-- The response leaves Oasis: OUT_BUSY is cleared. -/
def responseTaken : Dev := fset (setMbox s m { mbox s m with resp := none }) (mboxCtrl m) PI_MBOX_CTRL_OUT_BUSY 0

/-- A response placed inbound: its words, with the flags of the control register. -/
theorem responsePlaced_spec (r : List Word) :
    mbox (placeInbound (responseTaken s m) m r) m = { mbox s m with inp := r ++ List.replicate (16 - r.length) 0, resp := none } ∧
      fbit (placeInbound (responseTaken s m) m r) (mboxCtrl m) PI_MBOX_CTRL_IN_FULL = true ∧
      fbit (placeInbound (responseTaken s m) m r) (mboxCtrl m) PI_MBOX_CTRL_OUT_BUSY = false ∧
      TblKept s (placeInbound (responseTaken s m) m r) [mboxCtrl m] := by
  have hflag (f : Nat × Nat) := congrArg (· == 1) (fget_of_regs (placeInbound_regs (responseTaken s m) m r) (mboxCtrl m) f)
  have htaken : TblKept s (responseTaken s m) [mboxCtrl m] := (TblKept.setMbox _ _ _ _).trans (.fset _ _ _ _)
  refine ⟨?_, (hflag _).trans (fbit_fset_one _ _ (by decide)), (hflag _).trans ?_, htaken.trans (.placeInbound _ _ _)⟩
  · rw [mbox_placeInbound, responseTaken, mbox_fset, mbox_setMbox_same]
  · exact (fbit_fset_apart (by decide) (by decide) (by decide)).trans (fbit_fset_zero _ _ (by decide))

/-- Oasis can place a message: the inbound mailbox is empty, and the firmware runs. -/
structure CanPlace : Prop where
  empty : fbit s (mboxCtrl m) PI_MBOX_CTRL_IN_FULL = false
  runs : s.pwr.held = 0
  firmware : s.oasis.fw.isSome = true

variable {s m}

theorem CanPlace.guard (h : CanPlace s m) : (fbit s (mboxCtrl m) PI_MBOX_CTRL_IN_FULL || s.pwr.held != 0 || s.oasis.fw.isNone) = false := by
  obtain ⟨v, hv⟩ := Option.isSome_iff_exists.1 h.firmware
  simp [h.empty, h.runs, hv]

/-- Where a response is ready once an unknown command has been answered (R247), it goes before the notices that were queued after its command. -/
theorem mboxPlace_of_response (h : CanPlace s m) {s1 : Dev} {r : List Word}
    (hs1 : (if (mbox s m).posted && !(mboxKnows m (mboxCode s m)) then respond s m ST_NOT_SUPPORTED [] else s) = s1) (hresp : (mbox s1 m).resp = some r)
    (hfirst : (mbox s1 m).before = 0 ∨ (mbox s1 m).notes = []) : mboxPlace s m = placeInbound (responseTaken s1 m) m r := by
  subst hs1
  unfold mboxPlace responseTaken
  rw [if_neg (by simp [h.guard])]
  extract_lets s1 x
  have hresp' : x.resp = some r := hresp
  rw [hresp']
  cases hnotes : x.notes with
  | nil => rfl
  | cons n rest =>
    have hbefore : x.before = 0 := hfirst.resolve_right (fun hnil => absurd (hnotes.symm.trans hnil) (by simp))
    exact if_neg (by simp [hbefore])

theorem mboxPlace_response (h : CanPlace s m) (hposted : (mbox s m).posted = false) {r : List Word} (hresp : (mbox s m).resp = some r)
    (hbefore : (mbox s m).before = 0) :
    (mbox (mboxPlace s m) m).inp = r ++ List.replicate (16 - r.length) 0 ∧ (mbox (mboxPlace s m) m).resp = none ∧
      (mbox (mboxPlace s m) m).notes = (mbox s m).notes ∧ fbit (mboxPlace s m) (mboxCtrl m) PI_MBOX_CTRL_IN_FULL = true ∧
      fbit (mboxPlace s m) (mboxCtrl m) PI_MBOX_CTRL_OUT_BUSY = false ∧
      (m < 256 → fbit s (PI_CTRL m) PI_CTRL_MB_IRQ_EN = true → nbit (mget (fun _ => (0 : Word)) s.routes (0x0C01 + 2 * m)).toNat 0 = true →
        mget (fun _ => false) (mboxPlace s m).pendSrc (0x0C01 + 2 * m) = true) ∧
      TblKept s (mboxPlace s m) [mboxCtrl m] := by
  obtain ⟨hmbox, hfull, hclear, hkept⟩ := responsePlaced_spec s m r
  rw [mboxPlace_of_response h (if_neg (by simp [hposted])) hresp (.inl hbefore), hmbox]
  exact ⟨rfl, rfl, rfl, hfull, hclear,
    fun hm hirq hroute => pendSrc_placeInbound _ _ _ hm ((fbit_fset_ne _ _ _ _ (PI_CTRL_ne_mboxCtrl _ _)).trans hirq) hroute, hkept⟩

theorem mboxPlace_unknown (h : CanPlace s m) (hposted : (mbox s m).posted = true) (hcode : mboxKnows m (mboxCode s m) = false)
    (hnotes : (mbox s m).notes = []) :
    (mbox (mboxPlace s m) m).inp.getD 0 0 = BitVec.ofNat 64 (ST_NOT_SUPPORTED + mboxSeq s m * 2 ^ 16) ∧
      fbit (mboxPlace s m) (mboxCtrl m) PI_MBOX_CTRL_IN_FULL = true ∧ fbit (mboxPlace s m) (mboxCtrl m) PI_MBOX_CTRL_OUT_BUSY = false ∧
      TblKept s (mboxPlace s m) [mboxCtrl m] := by
  have hmbox1 := mbox_respond_same s m ST_NOT_SUPPORTED []
  obtain ⟨hmbox, hfull, hclear, hkept⟩ := responsePlaced_spec (respond s m ST_NOT_SUPPORTED []) m (responseWords s m ST_NOT_SUPPORTED [])
  rw [mboxPlace_of_response h (if_pos (by simp [hposted, hcode])) (congrArg MboxSt.resp hmbox1) (.inr ((congrArg MboxSt.notes hmbox1).trans hnotes)), hmbox]
  refine ⟨?_, hfull, hclear, (TblKept.respond s m ST_NOT_SUPPORTED [] _).trans hkept⟩
  simp [responseWords]

/-- With no response ready, a notice queued after the posted command waits. -/
theorem mboxPlace_of_waiting (hresp : (mbox s m).resp = none) (hbusy : fbit s (mboxCtrl m) PI_MBOX_CTRL_OUT_BUSY = true) (hbefore : (mbox s m).before = 0)
    (hknown : (mbox s m).posted = true → mboxKnows m (mboxCode s m) = true) : mboxPlace s m = s := by
  unfold mboxPlace
  split
  · rfl
  · extract_lets s1 x
    have hs1 : s1 = s := if_neg (by cases hp : (mbox s m).posted <;> simp [hp] at hknown ⊢; exact hknown)
    have hx : x = mbox s m := congrArg (mbox · m) hs1
    clear_value s1 x
    subst hs1 hx
    rw [hresp]
    cases (mbox s1 m).notes with
    | nil => rfl
    | cons n rest => exact if_pos (by simp [hbusy, hbefore])

end

/-! ## The data register (21 R698) -/

section
variable (s : Dev) (m : Nat)

/-- INDEX moves on. -/
def indexNext : Dev := fset s (mboxCtrl m) PI_MBOX_CTRL_INDEX ((fget s (mboxCtrl m) PI_MBOX_CTRL_INDEX + 1) % 16)

theorem index_indexNext : fget (indexNext s m) (mboxCtrl m) PI_MBOX_CTRL_INDEX = (fget s (mboxCtrl m) PI_MBOX_CTRL_INDEX + 1) % 16 := by
  rw [indexNext, fget_fset_same _ _ _ _ (by decide) (by decide)]
  exact Nat.mod_mod _ 16

theorem TblKept.indexNext : TblKept s (indexNext s m) [mboxCtrl m] := .fset _ _ _ _

/-- The word that INDEX and DIR name. -/
def mboxWord : Word :=
  if fbit s (mboxCtrl m) PI_MBOX_CTRL_DIR then (mbox s m).inp.getD (fget s (mboxCtrl m) PI_MBOX_CTRL_INDEX) 0
  else (mbox s m).out.getD (fget s (mboxCtrl m) PI_MBOX_CTRL_INDEX) 0

theorem mboxRead_eq : mboxRead s m = dataRead (indexNext s m) (mboxWord s m) := rfl

theorem mboxRead_spec : fget (mboxRead s m) (mboxCtrl m) PI_MBOX_CTRL_INDEX = (fget s (mboxCtrl m) PI_MBOX_CTRL_INDEX + 1) % 16 ∧
    (mboxRead s m).mbox = s.mbox ∧ (mboxRead s m).readData = mboxWord s m ∧ TblKept s (mboxRead s m) [mboxCtrl m] := by
  rw [mboxRead_eq, fget_dataRead, readData_dataRead]
  exact ⟨index_indexNext s m, rfl, rfl, (TblKept.indexNext s m).trans (.of_fields rfl rfl rfl)⟩

theorem mboxWrite_of_free (v : Word) (hdir : fbit s (mboxCtrl m) PI_MBOX_CTRL_DIR = false) (hbusy : fbit s (mboxCtrl m) PI_MBOX_CTRL_OUT_BUSY = false) :
    mboxWrite s m v = setMbox (indexNext s m) m { mbox s m with out := listSet (mbox s m).out (fget s (mboxCtrl m) PI_MBOX_CTRL_INDEX) v } :=
  if_neg (by simp [hdir, hbusy])

theorem mboxWrite_spec (v : Word) (hdir : fbit s (mboxCtrl m) PI_MBOX_CTRL_DIR = false) (hbusy : fbit s (mboxCtrl m) PI_MBOX_CTRL_OUT_BUSY = false) :
    fget (mboxWrite s m v) (mboxCtrl m) PI_MBOX_CTRL_INDEX = (fget s (mboxCtrl m) PI_MBOX_CTRL_INDEX + 1) % 16 ∧
      (mbox (mboxWrite s m v) m).out = listSet (mbox s m).out (fget s (mboxCtrl m) PI_MBOX_CTRL_INDEX) v ∧ (mbox (mboxWrite s m v) m).inp = (mbox s m).inp ∧
      TblKept s (mboxWrite s m v) [mboxCtrl m] := by
  rw [mboxWrite_of_free s m v hdir hbusy, mbox_setMbox_same, fget_setMbox]
  exact ⟨index_indexNext s m, rfl, rfl, (TblKept.indexNext s m).trans (.setMbox _ _ _ _)⟩

theorem mboxAck_spec : fbit (mboxAck s m) (mboxCtrl m) PI_MBOX_CTRL_IN_FULL = false ∧ (mboxAck s m).mbox = s.mbox ∧ TblKept s (mboxAck s m) [mboxCtrl m] := by
  rw [mboxAck]
  exact ⟨fbit_fset_zero _ _ (by decide), fset_mbox _ _ _ _, .fset _ _ _ _⟩

end

/-! ## The statement -/

section
variable (mb : Mailbox) (v : Word) (s : State)

theorem exec_mboxSend : exec (.mboxSend mb) s = .next { s with dev := mboxSend s.dev (mboxNum mb) } := rfl
theorem exec_mailboxResponse : exec (.mailboxResponse mb) s = .next { s with dev := mboxPlace s.dev (mboxNum mb) } := rfl
theorem exec_mboxInAck : exec (.mboxInAck mb) s = .next { s with dev := mboxAck s.dev (mboxNum mb) } := rfl
theorem exec_mboxData_read : exec (.mboxData mb none) s = .next { s with dev := mboxRead s.dev (mboxNum mb) } := rfl
theorem exec_mboxData_write : exec (.mboxData mb (some v)) s = .next { s with dev := mboxWrite s.dev (mboxNum mb) v } := rfl

end

/-- Settles O45: a SEND is posted or dropped, a response is placed before the notices queued after its command, and the data register moves one word at a time. -/
theorem mailboxes : Obligations.Mailboxes := by
  unfold Obligations.Mailboxes
  intro s mb v m c i
  refine ⟨fun hfree => ?_, fun hbusy => ?_, fun r hempty hheld hfw hposted hresp hbefore => ?_, fun hresp hbusy hbefore hknown => ?_,
    fun hempty hheld hfw hposted hcode hnotes => ?_, ?_, ?_, fun hdir hbusy => ?_⟩
  · obtain ⟨hbusy, hout, hposted, hanswers, hkept⟩ := mboxSend_taken s.dev m hfree
    exact ⟨_, exec_mboxSend mb s, hbusy, hout, hposted, hanswers, hkept.regs, hkept.cores⟩
  · obtain ⟨hmbox, hinst, hpart, hkept⟩ := mboxSend_dropped s.dev m hbusy
    exact ⟨_, exec_mboxSend mb s, hmbox, hinst, hpart, hkept.regs, hkept.cores⟩
  · obtain ⟨hinp, hnone, hnotes, hfull, hclear, hraised, hkept⟩ := mboxPlace_response ⟨hempty, hheld, hfw⟩ hposted hresp hbefore
    exact ⟨_, exec_mailboxResponse mb s, hinp, hnone, hfull, hclear, hnotes, hraised, hkept.regs, hkept.cores⟩
  · exact (exec_mailboxResponse mb s).trans (congrArg (fun d => Host.Outcome.next { s with dev := d }) (mboxPlace_of_waiting hresp hbusy hbefore hknown))
  · obtain ⟨hinp, hfull, hclear, hkept⟩ := mboxPlace_unknown ⟨hempty, hheld, hfw⟩ hposted hcode hnotes
    exact ⟨_, exec_mailboxResponse mb s, hclear, hfull, hinp, hkept.regs, hkept.cores⟩
  · obtain ⟨hclear, hmbox, hkept⟩ := mboxAck_spec s.dev m
    exact ⟨_, exec_mboxInAck mb s, hclear, hmbox, hkept.regs, hkept.cores⟩
  · obtain ⟨hindex, hmbox, hdata, hkept⟩ := mboxRead_spec s.dev m
    exact ⟨_, exec_mboxData_read mb s, hindex, hmbox, hdata, hkept.regs, hkept.cores⟩
  · obtain ⟨hindex, hout, hinp, hkept⟩ := mboxWrite_spec s.dev m v hdir hbusy
    exact ⟨_, exec_mboxData_write mb v s, hindex, hout, hinp, hkept.regs, hkept.cores⟩

end Sys2Proof.Machine
end

section
/-! PROOFS. Commands of tenants and of the manager: what each answers and changes (06 R242, R247 to R251). -/
namespace Sys2Proof.Machine

/-! ## The records of the ports -/

section
variable (s : Dev) (i : Nat) (x : InstSt) (f : InstSt → InstSt) (l : List Nat)

theorem inst_of_inst {a b : Dev} (h : b.inst = a.inst) (i : Nat) : inst b i = inst a i := by simp only [inst, h]

@[simp] theorem inst_fset (o : Nat) (g : Nat × Nat) (n : Nat) : inst (fset s o g n) i = inst s i := inst_of_inst (fset_inst _ _ _ _) i
@[simp] theorem inst_setInst_same : inst (setInst s i x) i = x := mget_mset_same _ _ _ _
@[simp] theorem inst_modInst_same : inst (modInst s i f) i = f (inst s i) := inst_setInst_same _ _ _
@[simp] theorem modInst_regs : (modInst s i f).regs = s.regs := rfl
@[simp] theorem modInst_time : (modInst s i f).time = s.time := rfl
@[simp] theorem modInst_mbox : (modInst s i f).mbox = s.mbox := rfl
@[simp] theorem piState_modInst (k : Nat) : piState (modInst s i f) k = piState s k := rfl
@[simp] theorem qpCount_modInst (k : Nat) : qpCount (modInst s i f) k = qpCount s k := rfl

theorem TblKept.setInst : TblKept s (Machine.setInst s i x) l := .of_fields rfl rfl rfl
theorem TblKept.modInst : TblKept s (Machine.modInst s i f) l := .setInst _ _ _ _

/-- A state of R249 written to the control register is read back. -/
theorem piState_setPiState {v : Nat} (hv : v < 4) : piState (setPiState s i v) i = v := by
  rw [piState, setPiState, fget_fset_same _ _ _ _ (by decide) (by decide)]
  exact Nat.mod_eq_of_lt hv

theorem piState_fset_qpCount (n : Nat) : piState (fset s (PI_CTRL i) PI_CTRL_QP_COUNT n) i = piState s i :=
  fget_fset_field _ _ _ _ _ (by decide) (by decide) (by decide) (by decide) (by decide)

theorem qpCount_setPiState (v : Nat) : qpCount (setPiState s i v) i = qpCount s i :=
  fget_fset_field _ _ _ _ _ (by decide) (by decide) (by decide) (by decide) (by decide)

/-- QP_COUNT has room for 1024 queue pairs. -/
theorem qpCount_fset {n : Nat} (hn : n ≤ 1024) : qpCount (fset s (PI_CTRL i) PI_CTRL_QP_COUNT n) i = n := by
  rw [qpCount, fget_fset_same _ _ _ _ (by decide) (by decide)]
  exact Nat.mod_eq_of_lt (Nat.lt_of_le_of_lt hn (by decide))

end

/-! ## A command that Oasis takes up (R244, R246) -/

section
variable (s : Dev) (m : Nat) (j : Nat)

/-- The command of mailbox `m` is taken up. -/
def taken : Dev := setMbox s m { mbox s m with posted := false }

theorem mbox_taken : mbox (taken s m) m = { mbox s m with posted := false } := mbox_setMbox_same _ _ _
theorem mbox_taken_ne {k : Nat} (h : k ≠ m) : mbox (taken s m) k = mbox s k := mbox_setMbox_ne _ _ _ h
theorem taken_regs : (taken s m).regs = s.regs := rfl

@[simp] theorem inst_taken (i : Nat) : inst (taken s m) i = inst s i := rfl
@[simp] theorem mboxArg_taken : mboxArg (taken s m) m j = mboxArg s m j := by simp only [mboxArg, mbox_taken]
@[simp] theorem mboxSeq_taken : mboxSeq (taken s m) m = mboxSeq s m := by simp only [mboxSeq, mbox_taken]

theorem TblKept.taken (l : List Nat) : TblKept s (Machine.taken s m) l := .setMbox _ _ _ _

variable {s m}

theorem mboxRun_of_posts {code : Nat} (h : Posts s m code) (f : Dev → Dev) : mboxRun s m code f = f (taken s m) := by
  obtain ⟨hposted, hcode, hknows, hrestart, hheld, hfw⟩ := h
  exact if_pos (by simp [hposted, hcode, hknows, hrestart, hheld, hfw])

theorem tenantCmd_of_posts {i code : Nat} (h : Posts s i code) (f : Dev → Nat → Dev) : tenantCmd s i code f = f (taken s i) i := mboxRun_of_posts h _

theorem managerCmd_of_manager {code : Nat} (h : Posts s m code) (hm : isManager s m 5 = true) (f : Dev → Nat → Dev) :
    managerCmd s m code f = f (taken s m) m := (mboxRun_of_posts h _).trans (if_pos hm)

theorem managerCmd_of_other {code : Nat} (h : Posts s m code) (hm : isManager s m 5 = false) (f : Dev → Nat → Dev) :
    managerCmd s m code f = respond (taken s m) m ST_DENIED [] :=
  (mboxRun_of_posts h _).trans (if_neg (fun ht => Bool.false_ne_true (hm.symm.trans ht)))

/-- A response to the command taken up, whatever else than its mailbox has changed since. -/
theorem Answers.of_taken {b : Dev} (h : mbox b m = mbox (Machine.taken s m) m) (st : Nat) (ws : List Word) : Answers s (respond b m st ws) m st ws :=
  .of_respond (by rw [h, mbox_taken]) (by rw [h, mbox_taken]) (by rw [h, mbox_taken]) _ _

/-- An answer stays one while its mailbox stays as it is. -/
theorem Answers.of_mbox {b c : Dev} {st : Nat} {ws : List Word} (h : Answers s b m st ws) (hmbox : mbox c m = mbox b m) : Answers s c m st ws := by
  unfold Answers at *
  rwa [hmbox]

variable (s m)

/-- The command is answered, and nothing else is done. -/
def answeredOnly (st : Nat) (ws : List Word) : Dev := respond (taken s m) m st ws

theorem answeredOnly_inst (st : Nat) (ws : List Word) : (answeredOnly s m st ws).inst = s.inst := rfl
theorem answeredOnly_erg (st : Nat) (ws : List Word) : (answeredOnly s m st ws).erg = s.erg := rfl
theorem answeredOnly_regs (st : Nat) (ws : List Word) : (answeredOnly s m st ws).regs = s.regs := rfl

theorem answers_answeredOnly (st : Nat) (ws : List Word) : Answers s (answeredOnly s m st ws) m st ws := .of_taken rfl _ _

theorem mbox_answeredOnly_ne {k : Nat} (h : k ≠ m) (st : Nat) (ws : List Word) : mbox (answeredOnly s m st ws) k = mbox s k :=
  (mbox_respond_ne _ _ _ _ h).trans (mbox_taken_ne _ _ h)

theorem TblKept.answeredOnly (st : Nat) (ws : List Word) (l : List Nat) : TblKept s (Machine.answeredOnly s m st ws) l := (TblKept.taken s m l).trans (.respond _ _ _ _ _)

/-- The record of a port is changed and the command answered. -/
def changedAnswered (i : Nat) (f : InstSt → InstSt) (st : Nat) (ws : List Word) : Dev := respond (modInst (taken s m) i f) m st ws

theorem inst_changedAnswered (i : Nat) (f : InstSt → InstSt) (st : Nat) (ws : List Word) : inst (changedAnswered s m i f st ws) i = f (inst s i) :=
  inst_modInst_same _ _ _

theorem answers_changedAnswered (i : Nat) (f : InstSt → InstSt) (st : Nat) (ws : List Word) : Answers s (changedAnswered s m i f st ws) m st ws :=
  .of_taken (mbox_of_mbox (modInst_mbox _ _ _) _) _ _

theorem changedAnswered_regs (i : Nat) (f : InstSt → InstSt) (st : Nat) (ws : List Word) : (changedAnswered s m i f st ws).regs = s.regs := rfl
theorem changedAnswered_erg (i : Nat) (f : InstSt → InstSt) (st : Nat) (ws : List Word) : (changedAnswered s m i f st ws).erg = s.erg := rfl

theorem TblKept.changedAnswered (i : Nat) (f : InstSt → InstSt) (st : Nat) (ws : List Word) (l : List Nat) :
    TblKept s (Machine.changedAnswered s m i f st ws) l := ((TblKept.taken s m l).trans (.modInst _ _ _ _)).trans (.respond _ _ _ _ _)

/-- The record of a port is changed and the command not yet answered. -/
theorem takenChanged_spec (f : InstSt → InstSt) : inst (modInst (taken s m) m f) m = f (inst s m) ∧ (mbox (modInst (taken s m) m f) m).resp = (mbox s m).resp ∧
    (modInst (taken s m) m f).regs = s.regs ∧ TblKept s (modInst (taken s m) m f) [] := by
  rw [inst_modInst_same, inst_taken, mbox_of_mbox (modInst_mbox _ _ _), mbox_taken, modInst_regs, taken_regs]
  exact ⟨rfl, rfl, rfl, (TblKept.taken _ _ _).trans (.modInst _ _ _ _)⟩

end

/-! ## SET_MAC (R222, R247) -/

section
variable {s : Dev} {i : Nat}

/-- With one valid word, SET_MAC answers what that address came to. -/
theorem cmdSetMac_one (h1 : bitsOf (mboxArg s i 1) (63, 63) = 1) (hrest : ∀ j, 2 ≤ j → j ≤ 4 → bitsOf (mboxArg s i j) (63, 63) = 0) :
    cmdSetMac s i = if (setOneMac s i (mboxArg s i 1)).1 = ST_OK then respond (setOneMac s i (mboxArg s i 1)).2 i ST_OK []
      else respond s i (setOneMac s i (mboxArg s i 1)).1 [] := by
  have hwords : ((rangeFrom 0 4).map (fun j => (j, mboxArg s i (j + 1)))).filter (fun e => bitsOf e.2 (63, 63) == 1) = [(0, mboxArg s i 1)] := by
    simp [rangeFrom, h1, hrest]
  rw [cmdSetMac, hwords]
  simp only [setMacs]
  by_cases hok : (setOneMac s i (mboxArg s i 1)).1 = ST_OK <;> simp [hok]

theorem setOneMac_multicast {w : Word} (h : isMulticast (bitsOf w (47, 0)) = true) : setOneMac s i w = (ST_BAD_ARG, s) := by
  rw [setOneMac, if_pos h]

/-- An address that the FDB does not hold is installed in the one VLAN of its port. -/
theorem setOneMac_new {w : Word} {v k : Nat} (hmac : isMulticast (bitsOf w (47, 0)) = false) (hadd : bitsOf w (48, 48) = 0) (hvlans : (inst s i).vlans = [v])
    (hfind : fdbFind s (bitsOf w (47, 0)) v = none) (hfree : fdbFree s (bitsOf w (47, 0)) v = some k) (hnew : (inst s i).macs.contains (bitsOf w (47, 0)) = false)
    (hroom : (inst s i).macs.length < 16) :
    setOneMac s i w = (ST_OK, modInst (setFdb s k (fdbWords (bitsOf w (47, 0)) v (0x100 + i) true)) i (fun x => { x with macs := x.macs ++ [bitsOf w (47, 0)] })) := by
  have hinstall : installMac s i (bitsOf w (47, 0)) [v] = some (setFdb s k (fdbWords (bitsOf w (47, 0)) v (0x100 + i) true)) := by
    simp only [installMac, hfind, hfree]
  have hnot : ¬16 ≤ (inst s i).macs.length := by omega
  simp only [setOneMac, hmac, hadd, hvlans, hfind, hnew, hinstall, hnot, List.any_cons, List.any_nil, Bool.false_eq_true, if_false, Bool.or_false, Nat.zero_ne_one]

end

/-- The fields of the first word of a static entry (05 R181). -/
theorem fdbWord_fields {mac vid : Nat} (hmac : mac < 2 ^ 48) (hvid : vid < 4096) (dest : Nat) :
    bitsOf ((fdbWords mac vid dest true).getD 0 0) F_MAC = mac ∧ bitsOf ((fdbWords mac vid dest true).getD 0 0) F_VID = vid ∧
      bitsOf ((fdbWords mac vid dest true).getD 0 0) F_VALID = 1 ∧ bitsOf ((fdbWords mac vid dest true).getD 0 0) F_STATIC = 1 := by
  simp only [fdbWords, List.getD_cons_zero, bitsOf, F_MAC, F_VID, F_VALID, F_STATIC, BitVec.toNat_ofNat, b2n, if_true]
  omega

section
variable (s : Dev) (i k mac v : Nat)

/-- An address is installed in a free place of the FDB and noted in its port. -/
def macInstalled : Dev := modInst (setFdb s k (fdbWords mac v (0x100 + i) true)) i (fun x => { x with macs := x.macs ++ [mac] })

/-- The words of an entry are written in the Ergane's part of the device. -/
theorem setSwEntry_outside (j : Nat) (l : List Word) : (setSwEntry s j k l).inst = s.inst ∧ (setSwEntry s j k l).mbox = s.mbox :=
  List.foldlRecOn (motive := fun d : Dev => d.inst = s.inst ∧ d.mbox = s.mbox) l.zipIdx _ ⟨rfl, rfl⟩ (fun _ h _ _ => h)

theorem fdbCount_outside (was now : Bool) : (fdbCount s was now).inst = s.inst ∧ (fdbCount s was now).mbox = s.mbox := by
  unfold fdbCount
  split
  · exact ⟨rfl, rfl⟩
  · exact ⟨fset_inst _ _ _ _, fset_mbox _ _ _ _⟩

theorem setFdb_outside (l : List Word) : (setFdb s k l).inst = s.inst ∧ (setFdb s k l).mbox = s.mbox := by
  obtain ⟨hinst, hmbox⟩ := setSwEntry_outside s k 1 l
  obtain ⟨hinst', hmbox'⟩ := fdbCount_outside (modErg (setSwEntry s 1 k l) (fun x => { x with seen := mput x.seen k (nowNs s) })) (fdbValid s k)
    (fdbValid (modErg (setSwEntry s 1 k l) (fun x => { x with seen := mput x.seen k (nowNs s) })) k)
  exact ⟨hinst'.trans hinst, hmbox'.trans hmbox⟩

theorem macInstalled_mbox : (macInstalled s i k mac v).mbox = s.mbox := (setFdb_outside s k _).2

theorem macs_macInstalled : (inst (macInstalled s i k mac v) i).macs = (inst s i).macs ++ [mac] := by
  rw [macInstalled, inst_modInst_same, inst_of_inst (setFdb_outside s k _).1]

theorem macInstalled_holds : EntryHolds s (macInstalled s i k mac v) 1 k (fdbWords mac v (0x100 + i) true) :=
  (setFdb_holds s k _ _ _ _).of_tbl rfl rfl

theorem TblKept.macInstalled : TblKept s (macInstalled s i k mac v) [SW_FDB_STAT] := (setFdb_kept _ _ _ _ _ _).trans (.modInst _ _ _ _)

end

/-! ## SET_VLANS, SET_STEER and RESET (R242, R247) -/

section
variable {s : Dev} {i : Nat}

theorem cmdSetVlans_denied (hpvid : bitsOf (mboxArg s i 1) (11, 0) ≠ 4095) (hvids : (vidsOf [mboxArg s i 2, mboxArg s i 3]).contains 4095 = false)
    (hall : (bitsOf (mboxArg s i 1) (11, 0) :: vidsOf [mboxArg s i 2, mboxArg s i 3]).all (fun v => (inst s i).permitted.contains v) = false) :
    cmdSetVlans s i = respond s i ST_DENIED [] := by
  unfold cmdSetVlans
  extract_lets x pvid vs
  have hall' : (pvid :: vs).all (fun v => x.permitted.contains v) = false := hall
  rw [if_neg (by rw [hvids]; exact fun h => h.elim hpvid Bool.false_ne_true), hall']
  rfl

/-- With no address installed, the FDB has nothing to follow. -/
theorem cmdSetVlans_permitted (hpvid : bitsOf (mboxArg s i 1) (11, 0) ≠ 4095) (hvids : (vidsOf [mboxArg s i 2, mboxArg s i 3]).contains 4095 = false)
    (hall : (bitsOf (mboxArg s i 1) (11, 0) :: vidsOf [mboxArg s i 2, mboxArg s i 3]).all (fun v => (inst s i).permitted.contains v) = true)
    (hmacs : (inst s i).macs = []) :
    cmdSetVlans s i =
      respond (modInst s i (fun x => { x with pvid := bitsOf (mboxArg s i 1) (11, 0), vlans := vidsOf [mboxArg s i 2, mboxArg s i 3] })) i ST_OK [] := by
  unfold cmdSetVlans
  extract_lets x pvid vs s1
  have hall' : (pvid :: vs).all (fun v => x.permitted.contains v) = true := hall
  have hs1 : s1 = s := by
    change x.macs.foldl _ s = s
    rw [show x.macs = [] from hmacs]
    rfl
  rw [if_neg (by rw [hvids]; exact fun h => h.elim hpvid Bool.false_ne_true), hall', show x.macs = [] from hmacs, hs1]
  rfl

/-- Entry `e` of the steering table that SET_STEER writes. -/
def steerArg (s : Dev) (i e : Nat) : Nat := bitsOf (mboxArg s i (e / 6 + 1)) (10 * (e % 6) + 9, 10 * (e % 6))

theorem getElem?_map_rangeFrom {f : Nat → Nat} {a n e : Nat} (he : e < n) : ((rangeFrom a n).map f)[e]? = some (f (a + e)) := by
  induction n generalizing a e with
  | zero => omega
  | succ n ih =>
    cases e with
    | zero => rfl
    | succ e =>
      rw [rangeFrom, List.map_cons, List.getElem?_cons_succ, ih (by omega)]
      congr 2
      omega

theorem cmdSetSteer_ok (h : ∀ e, e < 64 → steerArg s i e < qpCount s i) :
    cmdSetSteer s i = respond (modInst s i (fun x => { x with steer := (rangeFrom 0 64).map (steerArg s i) })) i ST_OK [] :=
  if_pos (List.all_eq_true.2 (fun q hq => by
    obtain ⟨e, he, rfl⟩ := List.mem_map.1 hq
    exact decide_eq_true (h e (by simpa using (mem_rangeFrom.1 he).2))))

theorem cmdSetSteer_bad (h : ¬∀ e, e < 64 → steerArg s i e < qpCount s i) : cmdSetSteer s i = respond s i ST_BAD_ARG [] :=
  if_neg (fun hall => h (fun e he =>
    of_decide_eq_true (List.all_eq_true.1 hall _ (List.mem_map.2 ⟨e, mem_rangeFrom.2 ⟨Nat.zero_le e, by simpa using he⟩, rfl⟩))))

theorem cmdReset_refused (ha : piState s i ≠ PI_ACTIVE) (hn : piState s i ≠ PI_NOTICE) : cmdReset s i = respond s i ST_WRONG_STATE [] := if_pos ⟨ha, hn⟩

theorem cmdReset_running (h : piState s i = PI_ACTIVE ∨ piState s i = PI_NOTICE) :
    cmdReset s i = modInst s i (fun x => { x with resetReq := true, tenantReset := some (mboxSeq s i) }) :=
  if_neg (fun hnot => h.elim hnot.1 hnot.2)

end

/-! ## Changes that are applied (R250) -/

section
variable (s : Dev) (c : PiChange)

/-- The manager's response, where one is due, is all that an applied change leaves outside its port. -/
theorem answerManager_cases : answerManager s c = s ∨ answerManager s c = respond s c.manager ST_OK [] := by
  unfold answerManager
  split
  · exact .inr rfl
  · exact .inl rfl

theorem answerManager_inst : (answerManager s c).inst = s.inst := by
  unfold answerManager
  split <;> rfl

theorem answerManager_regs : (answerManager s c).regs = s.regs := by
  unfold answerManager
  split <;> rfl

theorem answerManager_time : (answerManager s c).time = s.time := by
  unfold answerManager
  split <;> rfl

theorem mbox_answerManager_ne {k : Nat} (hk : k ≠ c.manager) : mbox (answerManager s c) k = mbox s k := by
  obtain h | h := answerManager_cases s c
  · rw [h]
  · rw [h, mbox_respond_ne _ _ _ _ hk]

theorem TblKept.answerManager (l : List Nat) : TblKept s (Machine.answerManager s c) l := by
  obtain h | h := answerManager_cases s c
  · rw [h]
    exact .refl _ _
  · rw [h]
    exact .respond _ _ _ _ _

theorem resp_answerManager (hbusy : fbit s (mboxCtrl c.manager) PI_MBOX_CTRL_OUT_BUSY = true) (hresp : (mbox s c.manager).resp = none) :
    (mbox (answerManager s c) c.manager).resp = some [BitVec.ofNat 64 (ST_OK + mboxSeq s c.manager * 2 ^ 16)] := by
  have hrespond : answerManager s c = respond s c.manager ST_OK [] := if_pos (by simp [hbusy, hresp])
  rw [hrespond, mbox_respond_same]
  simp [responseWords]

end

section
variable {s : Dev} {i : Nat} {c : PiChange}

theorem finishTx_of_idle (h : (inst s i).reqs = []) : finishTx s i = s := by
  rw [finishTx, h]
  rfl

/-- A change that is due and waits for no frame is applied. -/
theorem resizeNow_of_due (hchange : (inst s i).change = some c) (hdue : c.due = true)
    (hidle : (inst s i).reqs.any (fun r => r.gen == piGen s i && decide (c.count ≤ r.qp)) = false) :
    resizeNow s i = applyChange (setPiState s i PI_ACTIVE) i := by
  simp only [resizeNow, hchange, hdue, hidle, Bool.not_true, Bool.or_false, Bool.false_eq_true, if_false]

theorem applyChange_resize (hchange : (inst s i).change = some c) (hcode : c.code = 0x8001) :
    applyChange s i = answerManager (modInst (applyResize s i c.count) i (fun x => { x with change := none })) c := by
  simp only [applyChange, hchange, hcode, if_true]

theorem applyChange_policy (hchange : (inst s i).change = some c) (hcode : c.code = 0x8002) :
    applyChange s i = answerManager (modInst (applyPolicy s i c.vids) i (fun x => { x with change := none })) c := by
  simp [applyChange, hchange, hcode]

theorem changeNow_resize (hchange : (inst s i).change = some c) (hcode : c.code = 0x8001) (hidle : (inst s i).reqs = []) :
    changeNow s i = resizeNow (modInst s i (fun x => { x with change := x.change.map (fun c => { c with due := true }) })) i := by
  simp [changeNow, hchange, hcode, finishTx_of_idle hidle]

theorem changeNow_policy (hchange : (inst s i).change = some c) (hcode : c.code = 0x8002) (hidle : (inst s i).reqs = []) :
    changeNow s i = applyChange (setPiState s i PI_ACTIVE) i := by
  simp [changeNow, hchange, hcode, finishTx_of_idle hidle]

theorem changeNow_removal (hchange : (inst s i).change = some c) (hcode : c.code = 0x8003) :
    changeNow s i = modInst s i (fun x => { x with removing := true, resetReq := true }) := by
  simp [changeNow, applyChange, hchange, hcode]

end

section
variable (s : Dev) (i n : Nat)

/-- The queue pairs of a port once a resize to `n` is applied. -/
def resized (x : InstSt) (n : Nat) : InstSt :=
  { x with qs := x.qs.filter (fun e => decide (e.1 / 2 < n)), steer := x.steer.map (fun q => if q < n then q else 0) }

/-- No queue pair is disabled where the count does not fall. -/
theorem applyResize_of_growing (h : qpCount s i ≤ n) :
    applyResize s i n = fset (modInst s i (fun x => resized x n)) (PI_CTRL i) PI_CTRL_QP_COUNT n := by
  unfold applyResize
  extract_lets old s1 s2
  have hs1 : s1 = s := if_neg (Nat.not_lt.2 h)
  clear_value s1
  subst hs1
  rfl

/-- The announced change of a port is due. -/
def changeDue : Dev := modInst s i (fun x => { x with change := x.change.map (fun c => { c with due := true }) })

theorem change_changeDue {c : PiChange} (h : (inst s i).change = some c) : (inst (changeDue s i) i).change = some { c with due := true } := by
  simp [changeDue, h]

theorem reqs_changeDue : (inst (changeDue s i) i).reqs = (inst s i).reqs := by rw [changeDue, inst_modInst_same]

/-- A growing resize to `n` is carried out in an ACTIVE port. -/
def grown : Dev := modInst (fset (modInst (setPiState s i PI_ACTIVE) i (fun x => resized x n)) (PI_CTRL i) PI_CTRL_QP_COUNT n) i (fun x => { x with change := none })

theorem piState_grown : piState (grown s i n) i = PI_ACTIVE := by
  rw [grown, piState_modInst, piState_fset_qpCount, piState_modInst, piState_setPiState _ _ (by decide)]

theorem qpCount_grown (hn : n ≤ 1024) : qpCount (grown s i n) i = n := by rw [grown, qpCount_modInst, qpCount_fset _ _ hn]

theorem change_grown : (inst (grown s i n) i).change = none := by rw [grown, inst_modInst_same]

theorem grown_mbox : (grown s i n).mbox = s.mbox := by rw [grown, modInst_mbox, fset_mbox, modInst_mbox, setPiState, fset_mbox]

theorem TblKept.grown : TblKept s (grown s i n) [PI_CTRL i] := (((TblKept.fset _ _ _ _).trans (.modInst _ _ _ _)).trans (.fset _ _ _ _)).trans (.modInst _ _ _ _)

variable {s i}

/-- A resize to no fewer queue pairs is applied at once. -/
theorem changeNow_growing {c : PiChange} (hchange : (inst s i).change = some c) (hcode : c.code = 0x8001) (hidle : (inst s i).reqs = [])
    (hgrows : qpCount s i ≤ c.count) : changeNow s i = answerManager (grown (changeDue s i) i c.count) { c with due := true } := by
  have hdue := change_changeDue s i hchange
  have hactive : (inst (setPiState (changeDue s i) i PI_ACTIVE) i).change = some { c with due := true } := by rw [setPiState, inst_fset, hdue]
  have hqp : qpCount (setPiState (changeDue s i) i PI_ACTIVE) i ≤ c.count := by
    rw [qpCount_setPiState]
    exact hgrows
  rw [changeNow_resize hchange hcode hidle, ← changeDue, resizeNow_of_due hdue rfl (by rw [reqs_changeDue, hidle]; rfl), applyChange_resize hactive hcode,
    applyResize_of_growing _ _ _ hqp, ← grown]

end

/-- What an announced change leaves once it is applied: an ACTIVE port without it, and the response in the manager's mailbox `m` where one is due. -/
structure ChangeApplied (a b : Dev) (i m : Nat) : Prop where
  active : piState b i = PI_ACTIVE
  done : (inst b i).change = none
  told : fbit a (mboxCtrl m) PI_MBOX_CTRL_OUT_BUSY = true → (mbox a m).resp = none →
    (mbox b m).resp = some [BitVec.ofNat 64 (ST_OK + mboxSeq a m * 2 ^ 16)]
  others : ∀ k, k ≠ m → mbox b k = mbox a k
  kept : TblKept a b [PI_CTRL i]

section
variable {a b : Dev} {i : Nat} {c : PiChange}

/-- The manager is told last. -/
theorem ChangeApplied.of_answerManager (hactive : piState b i = PI_ACTIVE) (hdone : (inst b i).change = none) (hmbox : b.mbox = a.mbox)
    (hkept : TblKept a b [PI_CTRL i]) : ChangeApplied a (answerManager b c) i c.manager where
  active := (fget_of_regs (answerManager_regs _ _) _ _).trans hactive
  done := (congrArg InstSt.change (inst_of_inst (answerManager_inst _ _) _)).trans hdone
  told hbusy hresp := by
    have hctrl := hkept.regs (mboxCtrl c.manager) (by simpa using (PI_CTRL_ne_mboxCtrl i c.manager).symm)
    have hseq : mboxSeq b c.manager = mboxSeq a c.manager := by simp only [mboxSeq, mbox, hmbox]
    rw [resp_answerManager b c ((fbit_of_reg hctrl _).trans hbusy) (by rw [mbox_of_mbox hmbox, hresp]), hseq]
  others k hk := (mbox_answerManager_ne _ _ hk).trans (mbox_of_mbox hmbox _)
  kept := hkept.trans (.answerManager _ _ _)

variable {s : Dev}

theorem changeApplied_of_growing (hchange : (inst s i).change = some c) (hcode : c.code = 0x8001) (hidle : (inst s i).reqs = [])
    (hgrows : qpCount s i ≤ c.count) : ChangeApplied s (changeNow s i) i c.manager := by
  rw [changeNow_growing hchange hcode hidle hgrows]
  have hdue : TblKept s (changeDue s i) [PI_CTRL i] := .modInst _ _ _ _
  have hmbox : (grown (changeDue s i) i c.count).mbox = s.mbox := (grown_mbox _ _ _).trans (modInst_mbox _ _ _)
  have hkept : TblKept s (grown (changeDue s i) i c.count) [PI_CTRL i] := hdue.trans (.grown _ _ _)
  exact .of_answerManager (piState_grown _ _ _) (change_grown _ _ _) hmbox hkept

theorem qpCount_of_growing (hchange : (inst s i).change = some c) (hcode : c.code = 0x8001) (hidle : (inst s i).reqs = []) (hgrows : qpCount s i ≤ c.count)
    (hmax : c.count ≤ 1024) : qpCount (changeNow s i) i = c.count := by
  rw [changeNow_growing hchange hcode hidle hgrows]
  exact (fget_of_regs (answerManager_regs _ _) _ _).trans (qpCount_grown _ _ _ hmax)

end

/-! ## ACK_NOTICE and NOTICE_DEADLINE (R250) -/

section
variable {s : Dev} {i : Nat} {c : PiChange}

theorem cmdAckNotice_refused (hchange : (inst s i).change = some c) (hid : c.id ≠ bitsOf (mboxArg s i 1) (15, 0)) :
    cmdAckNotice s i = respond s i ST_WRONG_STATE [] := by
  simp only [cmdAckNotice, hchange]
  exact if_neg (fun ⟨_, hsame, _⟩ => hid hsame)

theorem cmdAckNotice_accepted (hchange : (inst s i).change = some c) (hid : c.id = bitsOf (mboxArg s i 1) (15, 0)) (hnotice : piState s i = PI_NOTICE)
    (hremoving : (inst s i).removing = false) : cmdAckNotice s i = changeNow (respond s i ST_OK []) i := by
  simp only [cmdAckNotice, hchange]
  exact if_pos ⟨hnotice, hid, by rw [hremoving]; rfl⟩

theorem noticeDeadline_reached (hchange : (inst s i).change = some c) (hnotice : piState s i = PI_NOTICE) (hremoving : (inst s i).removing = false) :
    noticeDeadline s i = changeNow (advanceTo s c.deadline) i := by
  simp only [noticeDeadline, hchange]
  exact if_pos ⟨hnotice, by rw [hremoving]; rfl⟩

theorem advanceTo_inst (s : Dev) (ns : Nat) : (advanceTo s ns).inst = s.inst := by
  unfold advanceTo
  split <;> rfl

/-- A removal whose deadline has come is left to R240. -/
theorem noticeDeadline_removal (hchange : (inst s i).change = some c) (hnotice : piState s i = PI_NOTICE) (hremoving : (inst s i).removing = false)
    (hcode : c.code = 0x8003) :
    noticeDeadline s i = modInst (advanceTo s c.deadline) i (fun x => { x with removing := true, resetReq := true }) := by
  have hwaited : (inst (advanceTo s c.deadline) i).change = some c := by rw [inst_of_inst (advanceTo_inst _ _), hchange]
  rw [noticeDeadline_reached hchange hnotice hremoving, changeNow_removal hwaited hcode]

/-- The VLANs of a port under a new policy. -/
def permittedOnly (x : InstSt) (vids : List Nat) : InstSt :=
  { x with permitted := vids, vlans := x.vlans.filter (fun v => vids.contains v),
           pvid := if vids.contains x.pvid then x.pvid else (x.vlans.filter (fun v => vids.contains v)).headD 1 }

/-- With no address installed, the FDB has nothing to follow. -/
theorem applyPolicy_of_no_macs (hmacs : (inst s i).macs = []) (vids : List Nat) : applyPolicy s i vids = modInst s i (fun x => permittedOnly x vids) := by
  unfold applyPolicy
  extract_lets x gone kept s1
  have hs1 : s1 = s := by
    change x.macs.foldl _ s = s
    rw [show x.macs = [] from hmacs]
    rfl
  clear_value s1
  subst hs1
  rfl

variable (s i) in
/-- A new policy is carried out in an ACTIVE port without addresses. -/
def policed (vids : List Nat) : Dev := modInst (modInst (setPiState s i PI_ACTIVE) i (fun x => permittedOnly x vids)) i (fun x => { x with change := none })

theorem inst_policed (vids : List Nat) : inst (policed s i vids) i = { permittedOnly (inst s i) vids with change := none } := by
  rw [policed, inst_modInst_same, inst_modInst_same, setPiState, inst_fset]

theorem piState_policed (vids : List Nat) : piState (policed s i vids) i = PI_ACTIVE := by
  rw [policed, piState_modInst, piState_modInst, piState_setPiState _ _ (by decide)]

theorem policed_time (vids : List Nat) : (policed s i vids).time = s.time := by rw [policed, modInst_time, modInst_time, setPiState, fset_time]

theorem TblKept.policed (vids : List Nat) : TblKept s (Machine.policed s i vids) [PI_CTRL i] := ((TblKept.fset _ _ _ _).trans (.modInst _ _ _ _)).trans (.modInst _ _ _ _)

/-- At its deadline a policy is applied to a port with no request in flight and no address. -/
theorem noticeDeadline_policy (hchange : (inst s i).change = some c) (hnotice : piState s i = PI_NOTICE) (hremoving : (inst s i).removing = false)
    (hcode : c.code = 0x8002) (hidle : (inst s i).reqs = []) (hmacs : (inst s i).macs = []) :
    noticeDeadline s i = answerManager (policed (advanceTo s c.deadline) i c.vids) c := by
  have hwaited := inst_of_inst (advanceTo_inst s c.deadline) i
  have hactive : inst (setPiState (advanceTo s c.deadline) i PI_ACTIVE) i = inst s i := by rw [setPiState, inst_fset, hwaited]
  rw [noticeDeadline_reached hchange hnotice hremoving, changeNow_policy (by rw [hwaited, hchange]) hcode (by rw [hwaited, hidle]),
    applyChange_policy (by rw [hactive, hchange]) hcode, applyPolicy_of_no_macs (by rw [hactive, hmacs]), ← policed]

/-- The change of policy is applied, and its VLANs are those still permitted. -/
theorem noticeDeadline_policy_spec (hchange : (inst s i).change = some c) (hnotice : piState s i = PI_NOTICE) (hremoving : (inst s i).removing = false)
    (hcode : c.code = 0x8002) (hidle : (inst s i).reqs = []) (hmacs : (inst s i).macs = []) :
    inst (noticeDeadline s i) i = { permittedOnly (inst s i) c.vids with change := none } ∧ piState (noticeDeadline s i) i = PI_ACTIVE ∧
      c.deadline ≤ nowNs (noticeDeadline s i) ∧ TblKept s (noticeDeadline s i) [PI_CTRL i] := by
  rw [noticeDeadline_policy hchange hnotice hremoving hcode hidle hmacs]
  refine ⟨?_, (fget_of_regs (answerManager_regs _ _) _ _).trans (piState_policed _), ?_, ?_⟩
  · rw [inst_of_inst (answerManager_inst _ _), inst_policed, inst_of_inst (advanceTo_inst _ _)]
  · rw [nowNs_of_time ((answerManager_time _ _).trans (policed_time _))]
    exact le_nowNs_advanceTo _ _
  · have hwaited : TblKept s (advanceTo s c.deadline) [PI_CTRL i] := (TblKept.advanceTo s c.deadline).mono (by simp)
    exact (hwaited.trans (.policed _)).trans (.answerManager _ _ _)

end

/-! ## The manager's commands (R247 to R251) -/

/-- A manager's mailbox is no tenant's. -/
theorem ne_of_isManager {s : Dev} {m role : Nat} (h : isManager s m role = true) (i : InstId) : i.val ≠ m := by
  have hlow : 256 ≤ m := by
    simp only [isManager, Bool.and_eq_true, decide_eq_true_eq] at h
    obtain ⟨⟨hlow, _⟩, _⟩ := h
    exact hlow
  have hi : i.val < 256 := i.isLt
  omega

section
variable {s : Dev} {m i : Nat}

theorem createStatus_ok {part count : Nat} {vids : List Nat} (hi : i ≤ 255) (hpart : part ≤ 15) (hcount : count ≤ 1024) (hvids : vids.contains 4095 = false)
    (hfree : piState s i = PI_FREE) (hroom : qpUsed s + count ≤ 4096) : createStatus s i part count vids = ST_OK := by
  unfold createStatus
  have hargs : ¬(255 < i ∨ 15 < part ∨ 1024 < count ∨ vids.contains 4095 = true) := by
    rw [hvids]
    simp only [Bool.false_eq_true, or_false]
    omega
  rw [if_neg hargs, if_neg (not_not_intro hfree), if_neg (Nat.not_lt.2 hroom)]

theorem createReady_of_other (h : isManager s m 5 = false) : createReady s m = true := by simp [createReady, h]

theorem cmdPiCreate_ok (h : createStatus s (mboxArg s m 1).toNat (mboxArg s m 2).toNat (mboxArg s m 3).toNat (createVids s m) = ST_OK) :
    cmdPiCreate s m = respond (createInst s (mboxArg s m 1).toNat (mboxArg s m 2).toNat (mboxArg s m 3).toNat (createVids s m)) m ST_OK [] := if_pos h

theorem changeStatus_ok {time : Nat} {bad full : Bool} (hi : i ≤ 255) (hlow : 1 ≤ time) (hhigh : time ≤ 10000) (hbad : bad = false)
    (hactive : piState s i = PI_ACTIVE) (hreset : (inst s i).resetReq = false) (hfull : full = false) : changeStatus s i time bad full = ST_OK := by
  unfold changeStatus
  have hargs : ¬(255 < i ∨ time < 1 ∨ 10000 < time ∨ bad = true) := by
    rw [hbad]
    simp only [Bool.false_eq_true, or_false]
    omega
  rw [if_neg hargs, if_neg (by simp [hactive, hreset]), if_neg (by simp [hfull])]

end

section
variable (s : Dev) (i part count : Nat) (vids : List Nat)

/-- The record of a port that PI_CREATE makes. -/
def createdInst : InstSt := { part := part, permitted := vids, nextNotice := (inst s i).nextNotice, reqs := (inst s i).reqs }

/-- The registers and the record of a port that PI_CREATE makes. -/
def created : Dev := setPiState (fset (setInst s i (createdInst s i part vids)) (PI_CTRL i) PI_CTRL_QP_COUNT count) i PI_ACTIVE

/-- The page of a port is mapped in a partition. -/
def pageMapped : Dev := setPart s part { partSt s part with s2 := (partSt s part).s2 ++ [⟨piPage i, piPage i, 0x10000, 3⟩] }

theorem createInst_eq : createInst s i part count vids = tlbDropAll (pageMapped (created s i part count vids) i part) part := rfl

theorem inst_created : inst (created s i part count vids) i = createdInst s i part vids := by rw [created, setPiState, inst_fset, inst_fset, inst_setInst_same]

theorem piState_created : piState (created s i part count vids) i = PI_ACTIVE := piState_setPiState _ _ (by decide)

theorem qpCount_created (h : count ≤ 1024) : qpCount (created s i part count vids) i = count := by rw [created, qpCount_setPiState, qpCount_fset _ _ h]

theorem created_parts : (created s i part count vids).parts = s.parts := by rw [created, setPiState, fset_parts, fset_parts]; rfl
theorem created_mbox : (created s i part count vids).mbox = s.mbox := by rw [created, setPiState, fset_mbox, fset_mbox]; rfl

theorem TblKept.created : TblKept s (Machine.created s i part count vids) [PI_CTRL i] := ((TblKept.setInst _ _ _ _).trans (.fset _ _ _ _)).trans (.fset _ _ _ _)

theorem TblKept.pageMapped (l : List Nat) : TblKept s (tlbDropAll (Machine.pageMapped s i part) part) l := .of_fields rfl rfl rfl

theorem tlbDropAll_pageMapped : (tlbDropAll (pageMapped s i part) part).inst = s.inst ∧ (tlbDropAll (pageMapped s i part) part).regs = s.regs ∧
    (tlbDropAll (pageMapped s i part) part).mbox = s.mbox ∧ (tlbDropAll (pageMapped s i part) part).parts = (pageMapped s i part).parts := ⟨rfl, rfl, rfl, rfl⟩

theorem createInst_inst : (createInst s i part count vids).inst = (created s i part count vids).inst := by
  obtain ⟨hinst, _⟩ := tlbDropAll_pageMapped (created s i part count vids) i part
  rw [createInst_eq, hinst]

theorem createInst_regs : (createInst s i part count vids).regs = (created s i part count vids).regs := by
  obtain ⟨_, hregs, _⟩ := tlbDropAll_pageMapped (created s i part count vids) i part
  rw [createInst_eq, hregs]

theorem createInst_mbox : (createInst s i part count vids).mbox = s.mbox := by
  obtain ⟨_, _, hmbox, _⟩ := tlbDropAll_pageMapped (created s i part count vids) i part
  rw [createInst_eq, hmbox, created_mbox]

theorem s2_createInst : (partSt (createInst s i part count vids) part).s2 = (partSt s part).s2 ++ [⟨piPage i, piPage i, 0x10000, 3⟩] := by
  have hparts : partSt (created s i part count vids) part = partSt s part := by simp only [partSt, created_parts]
  obtain ⟨_, _, _, hmapped⟩ := tlbDropAll_pageMapped (created s i part count vids) i part
  rw [createInst_eq, partSt, hmapped, ← partSt, pageMapped, partSt_setPart_same, hparts]

theorem TblKept.createInst : TblKept s (Machine.createInst s i part count vids) [PI_CTRL i] := (TblKept.created _ _ _ _ _).trans (.pageMapped _ _ _ _)

end

/-! ## Announcements (R249, R251) -/

section
variable (s : Dev) (i : Nat)

theorem notify_room (code : Nat) (ws : List Word) (h : (mbox s i).notes.length < 8) :
    notify s i code ws = fset (setMbox s i { mbox s i with notes := (mbox s i).notes ++ [BitVec.ofNat 64 (code + ws.length * 2 ^ 24 + 2 ^ 31) :: ws] })
      (mboxCtrl i) PI_MBOX_CTRL_NOTE_QUEUED ((mbox s i).notes.length + 1) := if_pos h

/-- What an announcement of `c` leaves: the port is in NOTICE with the change, and its tenant has one more notice. -/
structure Announced (a b : Dev) (i : Nat) (c : PiChange) : Prop where
  notice : piState b i = PI_NOTICE
  change : (inst b i).change = some c
  next : (inst b i).nextNotice = ((inst a i).nextNotice + 1) % 65536
  notes : (mbox b i).notes.length = (mbox a i).notes.length + 1
  resps : ∀ k, k ≠ i → (mbox b k).resp = (mbox a k).resp
  kept : TblKept a b [PI_CTRL i, mboxCtrl i]

/-- The change `c` stands in the record of its port, in NOTICE. -/
def noticed (c : PiChange) (time : Nat) : Dev :=
  setPiState (modInst s i (fun x => { x with change := some { c with id := (inst s i).nextNotice, deadline := nowNs s + time * 1000000 },
                                             nextNotice := ((inst s i).nextNotice + 1) % 65536 })) i PI_NOTICE

theorem inst_noticed (c : PiChange) (time : Nat) : inst (noticed s i c time) i =
    { inst s i with change := some { c with id := (inst s i).nextNotice, deadline := nowNs s + time * 1000000 },
                    nextNotice := ((inst s i).nextNotice + 1) % 65536 } := by
  rw [noticed, setPiState, inst_fset, inst_modInst_same]

theorem piState_noticed (c : PiChange) (time : Nat) : piState (noticed s i c time) i = PI_NOTICE := piState_setPiState _ _ (by decide)

theorem noticed_mbox (c : PiChange) (time : Nat) : (noticed s i c time).mbox = s.mbox := by rw [noticed, setPiState, fset_mbox, modInst_mbox]

theorem TblKept.noticed (c : PiChange) (time : Nat) : TblKept s (Machine.noticed s i c time) [PI_CTRL i, mboxCtrl i] :=
  (TblKept.modInst _ _ _ _).trans (.fset_listed _ (by simp) _ _)

theorem announce_eq (c : PiChange) (time : Nat) (ws : List Word) :
    announce s i c time ws = notify (noticed s i c time) i c.code (BitVec.ofNat 64 ((inst s i).nextNotice + time * 2 ^ 16) :: ws) := rfl

theorem announced_announce (c : PiChange) (time : Nat) (ws : List Word) (h : (mbox s i).notes.length < 8) :
    Announced s (announce s i c time ws) i { c with id := (inst s i).nextNotice, deadline := nowNs s + time * 1000000 } := by
  have hmbox := mbox_of_mbox (noticed_mbox s i c time)
  have hinst := inst_noticed s i c time
  rw [announce_eq, notify_room _ _ _ _ (by rw [hmbox]; exact h)]
  refine ⟨?_, ?_, ?_, ?_, fun k hk => ?_, ((TblKept.noticed s i c time).trans (.setMbox _ _ _ _)).trans (.fset_listed _ (by simp) _ _)⟩
  · exact (fget_fset_ne _ _ _ _ (PI_CTRL_ne_mboxCtrl i i)).trans (piState_noticed s i c time)
  · rw [inst_fset, inst_of_inst (setMbox_inst _ _ _), hinst]
  · rw [inst_fset, inst_of_inst (setMbox_inst _ _ _), hinst]
  · rw [mbox_fset, mbox_setMbox_same, hmbox, List.length_append, List.length_singleton]
  · rw [mbox_fset, mbox_setMbox_ne _ _ _ hk, hmbox]

/-- An announcement by a command that the manager's mailbox `m` holds. -/
theorem Announced.of_taken {s b : Dev} {m i : Nat} {c : PiChange} (hne : i ≠ m) (h : Announced (taken s m) b i c) : Announced s b i c where
  notice := h.notice
  change := h.change
  next := h.next
  notes := by rw [h.notes, mbox_taken_ne _ _ hne]
  resps k hk := by
    rw [h.resps k hk]
    by_cases hkm : k = m
    · rw [hkm, mbox_taken]
    · rw [mbox_taken_ne _ _ hkm]
  kept := (TblKept.taken _ _ _).trans h.kept

end

/-! ## What the commands are on the device -/

/-- The next state is known once the next device is. -/
theorem exec_of_dev {e : Instr} {s : State} {d d' : Dev} (h : exec e s = .next { s with dev := d }) (hd : d = d') : exec e s = .next { s with dev := d' } := by
  rw [h, hd]

section
variable {s : State} {i : InstId}

theorem exec_getInfo (h : Posts s.dev i.val 0x0001) : exec (.getInfo i) s = .next { s with dev := cmdGetInfo (taken s.dev i.val) i.val } :=
  exec_of_dev rfl (tenantCmd_of_posts h cmdGetInfo)

theorem exec_setMac (h : Posts s.dev i.val 0x0002) : exec (.setMac i) s = .next { s with dev := cmdSetMac (taken s.dev i.val) i.val } :=
  exec_of_dev rfl (tenantCmd_of_posts h cmdSetMac)

theorem exec_setVlans (h : Posts s.dev i.val 0x0003) : exec (.setVlans i) s = .next { s with dev := cmdSetVlans (taken s.dev i.val) i.val } :=
  exec_of_dev rfl (tenantCmd_of_posts h cmdSetVlans)

theorem exec_setFlood (h : Posts s.dev i.val 0x0004) : exec (.setFlood i) s = .next { s with dev := cmdSetFlood (taken s.dev i.val) i.val } :=
  exec_of_dev rfl (tenantCmd_of_posts h cmdSetFlood)

theorem exec_setSteer (h : Posts s.dev i.val 0x0005) : exec (.setSteer i) s = .next { s with dev := cmdSetSteer (taken s.dev i.val) i.val } :=
  exec_of_dev rfl (tenantCmd_of_posts h cmdSetSteer)

theorem exec_tenantReset (h : Posts s.dev i.val 0x0006) : exec (.tenantReset i) s = .next { s with dev := cmdReset (taken s.dev i.val) i.val } :=
  exec_of_dev rfl (tenantCmd_of_posts h cmdReset)

theorem exec_ackNotice (h : Posts s.dev i.val 0x0007) : exec (.ackNotice i) s = .next { s with dev := cmdAckNotice (taken s.dev i.val) i.val } :=
  exec_of_dev rfl (tenantCmd_of_posts h cmdAckNotice)

theorem exec_noticeDeadline : exec (.noticeDeadline i) s = .next { s with dev := noticeDeadline s.dev i.val } := rfl

end

section
variable (s : State) (mb : Mailbox)

theorem exec_piCreate (h : createReady s.dev (mboxNum mb) = true) :
    exec (.piCreate mb) s = .next { s with dev := managerCmd s.dev (mboxNum mb) 0x0101 cmdPiCreate } :=
  exec_of_dev rfl (if_pos h)

theorem exec_piResize : exec (.piResize mb) s = .next { s with dev := managerCmd s.dev (mboxNum mb) 0x0102 cmdPiResize } := rfl
theorem exec_piPolicy : exec (.piPolicy mb) s = .next { s with dev := managerCmd s.dev (mboxNum mb) 0x0103 cmdPiPolicy } := rfl
theorem exec_piRemove : exec (.piRemove mb) s = .next { s with dev := managerCmd s.dev (mboxNum mb) 0x0104 cmdPiRemove } := rfl

variable {s mb}

theorem exec_piMigrate (h : Posts s.dev (mboxNum mb) 0x0105) :
    exec (.piMigrate mb) s = .next { s with dev := answeredOnly s.dev (mboxNum mb) ST_NOT_SUPPORTED [] } :=
  exec_of_dev rfl (mboxRun_of_posts h _)

/-- A command of the manager's table from another sender. -/
theorem exec_managerCmd_of_other {e : Instr × Nat} (he : e ∈ [(Instr.piCreate mb, 0x0101), (.piResize mb, 0x0102), (.piPolicy mb, 0x0103), (.piRemove mb, 0x0104)])
    (h : Posts s.dev (mboxNum mb) e.2) (hm : isManager s.dev (mboxNum mb) 5 = false) :
    exec e.1 s = .next { s with dev := answeredOnly s.dev (mboxNum mb) ST_DENIED [] } := by
  simp only [List.mem_cons, List.not_mem_nil, or_false] at he
  obtain rfl | rfl | rfl | rfl := he
  · exact exec_of_dev (exec_piCreate s mb (createReady_of_other hm)) (managerCmd_of_other h hm _)
  · exact exec_of_dev (exec_piResize s mb) (managerCmd_of_other h hm _)
  · exact exec_of_dev (exec_piPolicy s mb) (managerCmd_of_other h hm _)
  · exact exec_of_dev (exec_piRemove s mb) (managerCmd_of_other h hm _)

end

section
variable {s : Dev} {i : Nat}

/-- What GET_INFO answers (R247). -/
def infoWords (s : Dev) (i : Nat) : List Word :=
  [BitVec.ofNat 64 (i + (inst s i).part % 16 * 2 ^ 8 + qpCount s i * 2 ^ 12 + piGen s i * 2 ^ 23), BitVec.ofNat 64 ((inst s i).pvid % 4096 + (inst s i).flood % 8 * 2 ^ 12)]

theorem getInfo_taken : cmdGetInfo (taken s i) i = answeredOnly s i ST_OK (infoWords s i) := rfl

theorem setFlood_taken : cmdSetFlood (taken s i) i = changedAnswered s i i (fun x => { x with flood := bitsOf (mboxArg s i 1) (2, 0) }) ST_OK [] := by
  rw [cmdSetFlood, mboxArg_taken, ← changedAnswered]

theorem setMac_multicast (h1 : bitsOf (mboxArg s i 1) (63, 63) = 1) (hrest : ∀ j, 2 ≤ j → j ≤ 4 → bitsOf (mboxArg s i j) (63, 63) = 0)
    (hmac : isMulticast (bitsOf (mboxArg s i 1) (47, 0)) = true) : cmdSetMac (taken s i) i = answeredOnly s i ST_BAD_ARG [] := by
  rw [cmdSetMac_one (by rwa [mboxArg_taken]) (by simpa using hrest), mboxArg_taken, setOneMac_multicast hmac, if_neg (by decide : ¬ST_BAD_ARG = ST_OK), ← answeredOnly]

/-- SET_MAC of a new address in a port of one VLAN. -/
theorem setMac_new {v k : Nat} (h1 : bitsOf (mboxArg s i 1) (63, 63) = 1) (hadd : bitsOf (mboxArg s i 1) (48, 48) = 0)
    (hrest : ∀ j, 2 ≤ j → j ≤ 4 → bitsOf (mboxArg s i j) (63, 63) = 0) (hmac : isMulticast (bitsOf (mboxArg s i 1) (47, 0)) = false)
    (hvlans : (inst s i).vlans = [v]) (hfind : fdbFind s (bitsOf (mboxArg s i 1) (47, 0)) v = none) (hfree : fdbFree s (bitsOf (mboxArg s i 1) (47, 0)) v = some k)
    (hnew : (inst s i).macs.contains (bitsOf (mboxArg s i 1) (47, 0)) = false) (hroom : (inst s i).macs.length < 16) :
    cmdSetMac (taken s i) i = respond (macInstalled (taken s i) i k (bitsOf (mboxArg s i 1) (47, 0)) v) i ST_OK [] := by
  have hone := setOneMac_new (s := taken s i) hmac hadd hvlans hfind hfree hnew hroom
  rw [cmdSetMac_one (by rwa [mboxArg_taken]) (by simpa using hrest), mboxArg_taken, hone, if_pos rfl, ← macInstalled]

/-- An address is installed and the command answered. -/
theorem macAnswered_spec {v k : Nat} {mac : Nat} (hmac : mac < 2 ^ 48) (hv : v < 4096) :
    let d := respond (macInstalled (taken s i) i k mac v) i ST_OK []
    Answers s d i ST_OK [] ∧ (inst d i).macs = (inst s i).macs ++ [mac] ∧ swWord d 1 k 1 = BitVec.ofNat 64 (0x100 + i) ∧ bitsOf (swWord d 1 k 0) F_MAC = mac ∧
      bitsOf (swWord d 1 k 0) F_VID = v ∧ fdbValid d k = true ∧ bitsOf (swWord d 1 k 0) F_STATIC = 1 ∧ TblKept s d [SW_FDB_STAT] := by
  intro d
  have herg : d.erg = (macInstalled (taken s i) i k mac v).erg := respond_erg _ _ _ _
  have hword (n : Nat) (hn : n < 4) : swWord d 1 k n = (fdbWords mac v (0x100 + i) true).getD n 0 :=
    (swWord_of_tbl (congrArg _ herg) 1 k n).trans ((macInstalled_holds _ _ _ _ _).words n hn)
  have hkept : TblKept s (macInstalled (taken s i) i k mac v) [SW_FDB_STAT] := (TblKept.taken s i _).trans (.macInstalled _ _ _ _ _)
  obtain ⟨hmacf, hvid, hvalid, hstatic⟩ := fdbWord_fields hmac hv (0x100 + i)
  have hmacs : (inst d i).macs = (inst s i).macs ++ [mac] := by
    rw [inst_of_inst (respond_inst _ _ _ _), macs_macInstalled, inst_taken]
  rw [fdbValid, hword 0 (by decide), hword 1 (by decide), hmacf, hvid, hvalid, hstatic]
  exact ⟨.of_taken (mbox_of_mbox (macInstalled_mbox _ _ _ _ _) _) _ _, hmacs, rfl, rfl, rfl, rfl, rfl, hkept.trans (.respond _ _ _ _ _)⟩

theorem setVlans_denied (hpvid : bitsOf (mboxArg s i 1) (11, 0) ≠ 4095) (hvids : (vidsOf [mboxArg s i 2, mboxArg s i 3]).contains 4095 = false)
    (hall : (bitsOf (mboxArg s i 1) (11, 0) :: vidsOf [mboxArg s i 2, mboxArg s i 3]).all (fun v => (inst s i).permitted.contains v) = false) :
    cmdSetVlans (taken s i) i = answeredOnly s i ST_DENIED [] :=
  cmdSetVlans_denied (by rwa [mboxArg_taken]) (by rwa [mboxArg_taken, mboxArg_taken]) (by rwa [mboxArg_taken, mboxArg_taken, mboxArg_taken])

theorem setVlans_permitted (hpvid : bitsOf (mboxArg s i 1) (11, 0) ≠ 4095) (hvids : (vidsOf [mboxArg s i 2, mboxArg s i 3]).contains 4095 = false)
    (hall : (bitsOf (mboxArg s i 1) (11, 0) :: vidsOf [mboxArg s i 2, mboxArg s i 3]).all (fun v => (inst s i).permitted.contains v) = true)
    (hmacs : (inst s i).macs = []) :
    cmdSetVlans (taken s i) i =
      changedAnswered s i i (fun x => { x with pvid := bitsOf (mboxArg s i 1) (11, 0), vlans := vidsOf [mboxArg s i 2, mboxArg s i 3] }) ST_OK [] := by
  have hdone := cmdSetVlans_permitted (s := taken s i) (i := i) (by rwa [mboxArg_taken]) (by rwa [mboxArg_taken, mboxArg_taken])
    (by rwa [mboxArg_taken, mboxArg_taken, mboxArg_taken]) hmacs
  rw [hdone, mboxArg_taken, mboxArg_taken, mboxArg_taken, ← changedAnswered]

theorem steerArg_taken : steerArg (taken s i) i = steerArg s i := by
  funext e
  simp only [steerArg, mboxArg_taken]

theorem setSteer_ok (h : ∀ e, e < 64 → steerArg s i e < qpCount s i) :
    cmdSetSteer (taken s i) i = changedAnswered s i i (fun x => { x with steer := (rangeFrom 0 64).map (steerArg s i) }) ST_OK [] := by
  rw [cmdSetSteer_ok (by rw [steerArg_taken]; exact h), steerArg_taken, ← changedAnswered]

theorem setSteer_bad (h : ¬∀ e, e < 64 → steerArg s i e < qpCount s i) : cmdSetSteer (taken s i) i = answeredOnly s i ST_BAD_ARG [] :=
  cmdSetSteer_bad (by rw [steerArg_taken]; exact h)

theorem reset_running (h : piState s i = PI_ACTIVE ∨ piState s i = PI_NOTICE) :
    cmdReset (taken s i) i = modInst (taken s i) i (fun x => { x with resetReq := true, tenantReset := some (mboxSeq s i) }) := by
  have hrun : piState (taken s i) i = PI_ACTIVE ∨ piState (taken s i) i = PI_NOTICE := h
  rw [cmdReset_running hrun, mboxSeq_taken]

theorem ackNotice_refused {c : PiChange} (hchange : (inst s i).change = some c) (hid : c.id ≠ bitsOf (mboxArg s i 1) (15, 0)) :
    cmdAckNotice (taken s i) i = answeredOnly s i ST_WRONG_STATE [] :=
  cmdAckNotice_refused hchange (by rw [mboxArg_taken]; exact hid)

theorem ackNotice_accepted {c : PiChange} (hchange : (inst s i).change = some c) (hid : c.id = bitsOf (mboxArg s i 1) (15, 0)) (hnotice : piState s i = PI_NOTICE)
    (hremoving : (inst s i).removing = false) : cmdAckNotice (taken s i) i = changeNow (answeredOnly s i ST_OK []) i :=
  cmdAckNotice_accepted hchange (by rw [mboxArg_taken]; exact hid) hnotice hremoving

end

section
variable {s : Dev} {m : Nat}

theorem piCreate_taken (h : createStatus s (mboxArg s m 1).toNat (mboxArg s m 2).toNat (mboxArg s m 3).toNat (createVids s m) = ST_OK) :
    cmdPiCreate (taken s m) m =
      respond (createInst (taken s m) (mboxArg s m 1).toNat (mboxArg s m 2).toNat (mboxArg s m 3).toNat (createVids s m)) m ST_OK [] := by
  have hvids : createVids (taken s m) m = createVids s m := by simp only [createVids, mboxArg_taken]
  have hstatus : createStatus (taken s m) (mboxArg s m 1).toNat (mboxArg s m 2).toNat (mboxArg s m 3).toNat (createVids s m) = ST_OK := h
  rw [cmdPiCreate_ok (by rw [hvids, mboxArg_taken, mboxArg_taken, mboxArg_taken]; exact hstatus), hvids, mboxArg_taken, mboxArg_taken, mboxArg_taken]

variable {count part : Nat} {vids : List Nat}

theorem respond_parts (s : Dev) (m st : Nat) (ws : List Word) : (respond s m st ws).parts = s.parts := rfl
theorem taken_parts (s : Dev) (m : Nat) : (taken s m).parts = s.parts := rfl

/-- PI_CREATE of a port, answered. -/
theorem createAnswered_spec (i : Nat) (hcount : count ≤ 1024) :
    let d := respond (createInst (taken s m) i part count vids) m ST_OK []
    Answers s d m ST_OK [] ∧ piState d i = PI_ACTIVE ∧ qpCount d i = count ∧ inst d i = createdInst s i part vids ∧
      (partSt d part).s2 = (partSt s part).s2 ++ [⟨piPage i, piPage i, 0x10000, 3⟩] ∧ TblKept s d [PI_CTRL i] := by
  intro d
  have hregs : d.regs = (created (taken s m) i part count vids).regs := (respond_regs _ _ _ _).trans (createInst_regs _ _ _ _ _)
  have hinst : d.inst = (created (taken s m) i part count vids).inst := (respond_inst _ _ _ _).trans (createInst_inst _ _ _ _ _)
  have hkept : TblKept s (createInst (taken s m) i part count vids) [PI_CTRL i] := (TblKept.taken s m _).trans (.createInst _ _ _ _ _)
  have hinst' : inst d i = createdInst s i part vids := by rw [inst_of_inst hinst, inst_created, createdInst, inst_taken, ← createdInst]
  have hs2 : (partSt d part).s2 = (partSt s part).s2 ++ [⟨piPage i, piPage i, 0x10000, 3⟩] := by
    rw [partSt, respond_parts, ← partSt, s2_createInst, partSt, taken_parts, ← partSt]
  refine ⟨.of_taken (mbox_of_mbox (createInst_mbox _ _ _ _ _) _) _ _, (fget_of_regs hregs _ _).trans (piState_created _ _ _ _ _),
    (fget_of_regs hregs _ _).trans (qpCount_created _ _ _ _ _ hcount), hinst', hs2, hkept.trans (.respond _ _ _ _ _)⟩

end

/-! ## Changes announced by a command (R249, R251) -/

/-- A running port `i` without a reset asked for and with room for a notice, named by the command of the manager's mailbox `m`. -/
structure CanAnnounce (s : Dev) (m i : Nat) : Prop where
  named : (mboxArg s m 1).toNat = i
  index : i ≤ 255
  active : piState s i = PI_ACTIVE
  reset : (inst s i).resetReq = false
  room : (mbox s i).notes.length < 8
  apart : i ≠ m

section
variable {s : Dev} {m i : Nat} (h : CanAnnounce s m i)
include h

theorem CanAnnounce.status {time : Nat} {bad full : Bool} (hlow : 1 ≤ time) (hhigh : time ≤ 10000) (hbad : bad = false) (hfull : full = false) :
    changeStatus (taken s m) i time bad full = ST_OK := changeStatus_ok h.index hlow hhigh hbad h.active h.reset hfull

theorem CanAnnounce.announced (c : PiChange) (time : Nat) (ws : List Word) :
    Announced s (announce (taken s m) i c time ws) i { c with id := (inst s i).nextNotice, deadline := nowNs s + time * 1000000 } :=
  .of_taken h.apart (announced_announce (taken s m) i c time ws (by rw [mbox_taken_ne _ _ h.apart]; exact h.room))

theorem piResize_announced (hlow : 1 ≤ (mboxArg s m 3).toNat) (hhigh : (mboxArg s m 3).toNat ≤ 10000) (hcount : (mboxArg s m 2).toNat ≤ 1024)
    (hroom : qpUsed s - qpCount s i + (mboxArg s m 2).toNat ≤ 4096) :
    Announced s (cmdPiResize (taken s m) m) i
      { code := 0x8001, id := (inst s i).nextNotice, count := (mboxArg s m 2).toNat, deadline := nowNs s + (mboxArg s m 3).toNat * 1000000, manager := m } := by
  have hfull : decide (4096 < qpUsed (taken s m) - qpCount (taken s m) i + (mboxArg s m 2).toNat) = false := decide_eq_false (Nat.not_lt.2 hroom)
  have hstatus := h.status hlow hhigh (decide_eq_false (Nat.not_lt.2 hcount)) hfull
  simp only [cmdPiResize, mboxArg_taken, h.named, hstatus, if_true]
  exact h.announced _ _ _

theorem piPolicy_announced (hlow : 1 ≤ (mboxArg s m 6).toNat) (hhigh : (mboxArg s m 6).toNat ≤ 10000)
    (hvids : (vidsOf [mboxArg s m 2, mboxArg s m 3, mboxArg s m 4, mboxArg s m 5]).contains 4095 = false) :
    Announced s (cmdPiPolicy (taken s m) m) i
      { code := 0x8002, id := (inst s i).nextNotice, vids := vidsOf [mboxArg s m 2, mboxArg s m 3, mboxArg s m 4, mboxArg s m 5],
        deadline := nowNs s + (mboxArg s m 6).toNat * 1000000, manager := m } := by
  have hstatus := h.status hlow hhigh hvids rfl
  simp only [cmdPiPolicy, mboxArg_taken, h.named, hstatus, if_true]
  exact h.announced _ _ _

theorem piRemove_announced (hlow : 1 ≤ (mboxArg s m 2).toNat) (hhigh : (mboxArg s m 2).toNat ≤ 10000) :
    Announced s (cmdPiRemove (taken s m) m) i
      { code := 0x8003, id := (inst s i).nextNotice, deadline := nowNs s + (mboxArg s m 2).toNat * 1000000, manager := m } := by
  have hstatus := h.status hlow hhigh rfl rfl
  simp only [cmdPiRemove, mboxArg_taken, h.named, hstatus, if_true]
  exact h.announced _ _ _

end

/-! ## The statement -/

/-- What the obligation asks of an announcement. -/
theorem Announced.noted {s d : Dev} {m : Nat} {i : Nat} {c : PiChange} (h : Announced s d i c) (hne : i ≠ m) :
    piState d i = PI_NOTICE ∧ (inst d i).change = some c ∧ (inst d i).nextNotice = ((inst s i).nextNotice + 1) % 65536 ∧
      (mbox d m).resp = (mbox s m).resp ∧ (mbox d i).notes.length = (mbox s i).notes.length + 1 ∧ RegsKept s d [PI_CTRL i, mboxCtrl i] ∧ CoresKept s d :=
  ⟨h.notice, h.change, h.next, h.resps m hne.symm, h.notes, h.kept.regs, h.kept.cores⟩

/-- Settles O46: each command is taken up from its mailbox, and then changes the record of its port, the FDB or nothing before it is answered. -/
theorem instanceCommands : Obligations.InstanceCommands := by
  unfold Obligations.InstanceCommands
  refine ⟨fun s i => ?_, fun s mb i => ?_⟩
  · intro a x
    have honly (st : Nat) (ws : List Word) := TblKept.answeredOnly s.dev i.val st ws []
    have hchanged (f : InstSt → InstSt) := TblKept.changedAnswered s.dev i.val i.val f ST_OK [] []
    refine ⟨fun hp => ?_, fun v k hp hvalid hadd hrest => ⟨fun hmulti => ?_, fun huni hvlans hv hfind hfree hnew hroom => ?_⟩,
      fun hp => fun hpvid hvids => ⟨fun hall => ?_, fun hall hmacs => ?_⟩, fun hp => ?_, fun hp => ?_, fun hp ha hn => ?_, fun hp hrun => ?_,
      fun hp => ⟨fun c hchange hid => ?_, fun c hchange hcode hid hnotice hremoving hidle hgrows hmax hmanager => ?_⟩⟩
    · refine ⟨_, exec_of_dev (exec_getInfo hp) getInfo_taken, answeredOnly_inst _ _ _ _, answeredOnly_regs _ _ _ _, (honly _ _).cores, ?_⟩
      exact answers_answeredOnly _ _ _ _
    · exact ⟨_, exec_of_dev (exec_setMac hp) (setMac_multicast hvalid hrest hmulti), answers_answeredOnly _ _ _ _, answeredOnly_inst _ _ _ _,
        answeredOnly_erg _ _ _ _, answeredOnly_regs _ _ _ _⟩
    · obtain ⟨hanswers, hmacs, hdest, hmac, hvid, hheld, hstatic, hkept⟩ := macAnswered_spec (s := s.dev) (i := i.val) (k := k) (bitsOf_lt (a 1) (47, 0)) hv
      exact ⟨_, exec_of_dev (exec_setMac hp) (setMac_new hvalid hadd hrest huni hvlans hfind hfree hnew hroom), hanswers, hmacs, hdest, hmac, hvid, hheld, hstatic,
        hkept.regs, hkept.cores⟩
    · exact ⟨_, exec_of_dev (exec_setVlans hp) (setVlans_denied hpvid hvids hall), answers_answeredOnly _ _ _ _, answeredOnly_inst _ _ _ _,
        answeredOnly_erg _ _ _ _⟩
    · exact ⟨_, exec_of_dev (exec_setVlans hp) (setVlans_permitted hpvid hvids hall hmacs), answers_changedAnswered _ _ _ _ _ _,
        inst_changedAnswered _ _ _ _ _ _, changedAnswered_erg _ _ _ _ _ _, changedAnswered_regs _ _ _ _ _ _, (hchanged _).cores⟩
    · exact ⟨_, exec_of_dev (exec_setFlood hp) setFlood_taken, answers_changedAnswered _ _ _ _ _ _, inst_changedAnswered _ _ _ _ _ _,
        changedAnswered_regs _ _ _ _ _ _, (hchanged _).cores⟩
    · by_cases hall : ∀ e, e < 64 → steerArg s.dev i.val e < qpCount s.dev i.val
      · refine ⟨_, exec_of_dev (exec_setSteer hp) (setSteer_ok hall), changedAnswered_regs _ _ _ _ _ _, (hchanged _).cores,
          fun _ => ⟨answers_changedAnswered _ _ _ _ _ _, fun e he => ?_⟩, fun hnot => absurd hall hnot⟩
        rw [inst_changedAnswered, getElem?_map_rangeFrom he, Nat.zero_add]
        rfl
      · exact ⟨_, exec_of_dev (exec_setSteer hp) (setSteer_bad hall), answeredOnly_regs _ _ _ _, (honly _ _).cores, fun hyes => absurd hyes hall,
          fun _ => ⟨answers_answeredOnly _ _ _ _, answeredOnly_inst _ _ _ _⟩⟩
    · exact ⟨_, exec_of_dev (exec_tenantReset hp) (cmdReset_refused ha hn), answers_answeredOnly _ _ _ _, answeredOnly_inst _ _ _ _,
        answeredOnly_regs _ _ _ _, (honly _ _).cores⟩
    · obtain ⟨hinst, hresp, hregs, hkept⟩ := takenChanged_spec s.dev i.val (fun x => { x with resetReq := true, tenantReset := some (mboxSeq s.dev i.val) })
      exact ⟨_, exec_of_dev (exec_tenantReset hp) (reset_running hrun), hinst, hresp, hregs, hkept.cores⟩
    · exact ⟨_, exec_of_dev (exec_ackNotice hp) (ackNotice_refused hchange hid), answers_answeredOnly _ _ _ _, answeredOnly_inst _ _ _ _,
        answeredOnly_regs _ _ _ _⟩
    · have happlied := changeApplied_of_growing (s := answeredOnly s.dev i.val ST_OK []) hchange hcode hidle hgrows
      have hcount := qpCount_of_growing (s := answeredOnly s.dev i.val ST_OK []) hchange hcode hidle hgrows hmax
      have hmbox := mbox_answeredOnly_ne s.dev i.val hmanager ST_OK []
      have hkept := (TblKept.answeredOnly s.dev i.val ST_OK [] _).trans happlied.kept
      refine ⟨_, exec_of_dev (exec_ackNotice hp) (ackNotice_accepted hchange hid hnotice hremoving),
        (answers_answeredOnly _ _ _ _).of_mbox (happlied.others _ (Ne.symm hmanager)), happlied.active, hcount, happlied.done, fun hbusy hresp => ?_, hkept.regs, hkept.cores⟩
      have htold := happlied.told hbusy (by rw [hmbox, hresp])
      rwa [mboxSeq, hmbox, ← mboxSeq] at htold
  · intro m a x noted
    refine ⟨fun e he hp hm => ?_, fun hp hm hnamed hready => ?_, fun hm hnamed hactive hreset hroom => ?_, fun hp => ?_,
      fun c hchange hnotice hremoving => ⟨fun hcode => ?_, fun hcode hidle hmacs => ?_⟩⟩
    · exact ⟨_, exec_managerCmd_of_other he hp hm, answers_answeredOnly _ _ _ _, answeredOnly_inst _ _ _ _, answeredOnly_regs _ _ _ _,
        (TblKept.answeredOnly _ _ _ _ []).cores⟩
    · intro vids hpart hcount hvids hfree hfits
      have hnamed' : (mboxArg s.dev m 1).toNat = i.val := hnamed
      have hstatus : createStatus s.dev (mboxArg s.dev m 1).toNat (a 2) (a 3) vids = ST_OK :=
        createStatus_ok (by rw [hnamed']; exact Nat.le_of_lt_succ i.isLt) hpart hcount hvids (by rw [hnamed']; exact hfree) hfits
      have hexec := exec_of_dev (exec_piCreate s mb hready) ((managerCmd_of_manager hp hm _).trans (piCreate_taken hstatus))
      obtain ⟨hanswers, hactive, hqp, hinst, hs2, hkept⟩ := createAnswered_spec (s := s.dev) (m := m) (part := a 2) (vids := vids) i.val hcount
      rw [hnamed'] at hexec
      refine ⟨_, hexec, hanswers, hactive, hqp, congrArg InstSt.part hinst, congrArg InstSt.permitted hinst, fun q1 d1 => ?_, congrArg InstSt.steer hinst, hs2,
        hkept.regs, hkept.cores⟩
      rw [qdir]
      exact congrArg (fun x => (mget (fun _ => ({} : QDir)) (InstSt.qs x) (2 * q1 + d1)).en) hinst
    · have hne := ne_of_isManager hm i
      have hcan : CanAnnounce s.dev m i.val := ⟨hnamed, Nat.le_of_lt_succ i.isLt, hactive, hreset, hroom, hne⟩
      refine ⟨fun hp hlow hhigh hcount hfits => ?_, fun hp hlow hhigh => fun hvids => ?_, fun hp hlow hhigh => ?_⟩
      · exact ⟨_, exec_of_dev (exec_piResize s mb) (managerCmd_of_manager hp hm _), (piResize_announced hcan hlow hhigh hcount hfits).noted hne⟩
      · exact ⟨_, exec_of_dev (exec_piPolicy s mb) (managerCmd_of_manager hp hm _), (piPolicy_announced hcan hlow hhigh hvids).noted hne⟩
      · exact ⟨_, exec_of_dev (exec_piRemove s mb) (managerCmd_of_manager hp hm _), (piRemove_announced hcan hlow hhigh).noted hne⟩
    · exact ⟨_, exec_piMigrate hp, answers_answeredOnly _ _ _ _, answeredOnly_inst _ _ _ _, answeredOnly_regs _ _ _ _, (TblKept.answeredOnly _ _ _ _ []).cores⟩
    · have hkept := (TblKept.advanceTo s.dev c.deadline).trans (.modInst _ i.val (fun x => { x with removing := true, resetReq := true }) _)
      refine ⟨_, exec_of_dev exec_noticeDeadline (noticeDeadline_removal hchange hnotice hremoving hcode), ?_, ?_, ?_, hkept.cores⟩
      · rw [nowNs_of_time (modInst_time _ _ _)]
        exact le_nowNs_advanceTo _ _
      · rw [inst_modInst_same, inst_of_inst (advanceTo_inst _ _)]
      · rw [modInst_regs, advanceTo_regs]
    · obtain ⟨hinst, hactive, htime, hkept⟩ := noticeDeadline_policy_spec hchange hnotice hremoving hcode hidle hmacs
      exact ⟨_, exec_noticeDeadline, htime, hactive, congrArg InstSt.permitted hinst, congrArg InstSt.change hinst, congrArg InstSt.vlans hinst,
        fun hpvid => (congrArg InstSt.pvid hinst).trans (if_pos hpvid), hkept.regs, hkept.cores⟩

end Sys2Proof.Machine
end

section
/-! PROOFS. Queue pairs: a resize that falls due with a transmit descriptor completes the descriptors of the queue pairs it removes (06 R224, R233, R250). -/
namespace Sys2Proof.Machine

/-! ## A line written to DRAM -/

section
variable (s : Dev)

theorem raise_inst (src : Nat) : (raise s src).inst = s.inst := (congrArg Dev.inst (sansLogs_raise s src) :)

/-- An event counter, and what its overflow raises, lie outside the ports. -/
theorem ctrAdd_inst (fuel i n : Nat) : (ctrAdd fuel s i n).inst = s.inst := by
  induction fuel generalizing s i n with
  | zero => rfl
  | succ fuel ih =>
    unfold ctrAdd
    extract_lets v s1 c s2 s3 b
    have hs3 : s3.inst = s.inst := by
      simp only [s3]
      split
      · rw [raise_inst]
        rfl
      · rfl
    split
    · rfl
    · split
      · rw [ih, hs3]
      · exact hs3

theorem countEv_inst (base size ev n : Nat) : (countEv s base size ev n).inst = s.inst := by
  refine List.foldlRecOn (motive := fun d : Dev => d.inst = s.inst) (rangeFrom base size) _ rfl (fun d h i _ => ?_)
  split
  · rw [ctrAdd_inst, h]
  · exact h

/-- A line on its way to DRAM is counted, and may be poisoned whole. -/
theorem toDram_outside (l : Nat) : (toDram s l).inst = s.inst ∧ (toDram s l).tags = s.tags := by
  have hcount : (countMc s (chanOf s (64 * l)) 0x03).inst = s.inst ∧ (countMc s (chanOf s (64 * l)) 0x03).tags = s.tags :=
    ⟨countEv_inst _ _ _ _ _, (countEv_meta _ _ _ _ _).tags⟩
  unfold toDram
  extract_lets ch s1
  split
  · exact List.foldlRecOn (motive := fun d : Dev => d.inst = s.inst ∧ d.tags = s.tags) (rangeFrom (8 * l) 8) _ hcount (fun _ h _ _ => h)
  · exact hcount

/-- The line of a write that meets one line only, with the bytes merged. -/
def lineMerged (pa : Nat) (bs : List Byte) (l : Nat) : Dev :=
  let whole := decide (pa ≤ 64 * l) && decide (64 * l + 64 ≤ pa + bs.length)
  let s1 := writeUntagged (ioInvalidate (if whole || heldDirty s l then s else partialRead s l .clean) l) pa bs
  if whole then s1 else countMc s1 (chanOf s1 (64 * l)) 0x06

theorem ioWrite_of_line {pa l : Nat} {bs : List Byte} (h : linesOf pa bs.length = [l]) : ioWrite s pa bs = toDram (lineMerged s pa bs l) l := by
  unfold ioWrite ioWriteEcc lineMerged
  rw [h]
  rfl

theorem ioWriteParts_one (src part pa n : Nat) (bs : List Byte) :
    ioWriteParts s src part none [(pa, n)] bs = ioWrite (partsTaken s src [(pa, n)]) pa (bs.take n) := rfl

end

/-! ## Completions and closed directions (R227, R233) -/

section
variable {s s1 : Dev} {i q d : Nat}

/-- A completion without an interrupt is written in its descriptor's place. -/
theorem complete_written {l : List (Nat × Nat)} (hrange : ioRange s (inst s i).part (slotAddr (qdir s i q d) (qdir s i q d).head) 16 true = (some l, s1))
    (hirq : (qdir s i q d).irq = false) (time : Nat) (w1 : Word) :
    complete s i q d time w1 =
      let s2 := ioWriteParts s1 (24 + d) (inst s i).part (stashOf (qdir s i q d)) l (leBytes 8 time ++ leBytes 8 w1.toNat)
      setQdir s2 i q d { qdir s2 i q d with head := ((qdir s i q d).head + 1) % 65536 } := by
  simp [complete, hrange, hirq]

theorem abortAll_of_empty (h : (qdir s i q d).head = (qdir s i q d).tail) (n : Nat) : abortAll i q d n s = s := by
  cases n with
  | zero => rfl
  | succ n => exact if_pos h

theorem qdir_setQdir_same (x : QDir) : qdir (setQdir s i q d x) i q d = x := by
  rw [qdir, setQdir, inst_modInst_same]
  exact mget_mset_same _ _ _ _

theorem setQdir_tags (x : QDir) : (setQdir s i q d x).tags = s.tags := rfl

/-- The completion word of a descriptor that is aborted (R233). -/
def abortWord (s : Dev) (i d : Nat) (e : Desc) : Word := completionWord (piGen s i) e.w1 0x05 (if d = 1 then bitsOf e.w0 (59, 46) else 0) 0 false

/-- The last descriptor of a ring is aborted. -/
theorem abortAll_of_last {e : Desc} (hne : (qdir s i q d).head ≠ (qdir s i q d).tail) (hread : readDesc s i q d (qdir s i q d).head = (some e, s1)) {s2 : Dev}
    (hs2 : complete s1 i q d (nowNs s1) (abortWord s1 i d e) = s2) (hempty : (qdir s2 i q d).head = (qdir s2 i q d).tail) (n : Nat) :
    abortAll i q d (n + 1) s = s2 := by
  rw [abortWord] at hs2
  simp only [abortAll, hne, if_false, hread, hs2, abortAll_of_empty hempty, ite_self]

theorem disableQueue_tags : (disableQueue s i q d).tags = (abortAll i q d 65536 s).tags := by rw [disableQueue, setQdir_tags]

/-- Where the count falls by one, the last queue pair is disabled. -/
theorem applyResize_of_last {n : Nat} (h : qpCount s i = n + 1) :
    applyResize s i n = fset (modInst (disableQueue (disableQueue s i n 0) i n 1) i (fun x => resized x n)) (PI_CTRL i) PI_CTRL_QP_COUNT n := by
  unfold applyResize
  extract_lets old s1 s2
  have hs1 : s1 = disableQueue (disableQueue s i n 0) i n 1 := by
    have hold : old = n + 1 := h
    clear_value old
    subst hold
    simp only [s1, if_pos (Nat.lt_succ_self n), Nat.add_sub_cancel_left]
    rfl
  clear_value s1
  subst hs1
  rfl

end

theorem modInst_tags (s : Dev) (i : Nat) (f : InstSt → InstSt) : (modInst s i f).tags = s.tags := rfl

theorem answerManager_tags (s : Dev) (c : PiChange) : (answerManager s c).tags = s.tags := by
  unfold answerManager
  split <;> rfl

/-! ## A transmit descriptor whose buffer read stays in flight (R224, R239) -/

section
variable {s s1 s2 : Dev} {i q : Nat} {w0 w1 : Word} {l : List (Nat × Nat)}

theorem closeQueue_of_open (h : (qdir s i q 1).closing = none) : closeQueue s i q = s := by simp only [closeQueue, h]

/-- The request is noted, and then a resize that is due is looked at. -/
theorem txDescriptor_slow (hstate : piState s i = PI_NOTICE) (hq : q < qpCount s i) (hreq : txReq s i q = none) (hnext : nextDesc s i q 1 = (.desc w0 w1, s1))
    (hlow : 60 ≤ bitsOf w0 (59, 46)) (hhigh : bitsOf w0 (59, 46) ≤ 9216)
    (hrange : ioRange s1 (inst s1 i).part (bitsOf w0 (45, 0)) (bitsOf w0 (59, 46)) false = (some l, s2)) (hfree : txReq s2 i q = none) :
    txDescriptor s i q true = resizeNow (closeQueue (setReqs s2 i ((inst s2 i).reqs ++ [⟨q, piGen s2 i, w0, w1⟩])) i q) i := by
  have hrunning : ¬(piState s i ≠ PI_ACTIVE ∧ piState s i ≠ PI_NOTICE) := fun h => h.2 hstate
  have hlen : ¬(bitsOf w0 (59, 46) < 60 ∨ 9216 < bitsOf w0 (59, 46)) := by omega
  simp only [txDescriptor, if_neg hrunning, if_neg (Nat.not_le.2 hq), hreq, hnext, if_neg hlen, hrange, if_true, hfree, Option.isSome_none, Bool.false_eq_true, if_false]

end

/-- A command has one next device. -/
theorem dev_of_exec {e : Instr} {s : State} {d d' : Dev} (h : exec e s = .next { s with dev := d }) (h' : exec e s = .next { s with dev := d' }) : d = d' :=
  congrArg State.dev (Host.Outcome.next.inj (h.symm.trans h'))

theorem exec_piTxDescriptor {i : InstId} {q : Fin 1024} {slow : Bool} {s : State} (h : txWaits s.dev i.val q.val = []) :
    exec (.piTxDescriptor i q slow) s = .next { s with dev := txDescriptor s.dev i.val q.val slow } :=
  exec_of_dev rfl (if_pos (by rw [h]; rfl))

/-! ## The state that refutes the statement -/

/-- A transmit descriptor of 64 bytes at 0x1000. -/
def dueTx : Word := BitVec.ofNat 64 (0x1000 + 64 * 2 ^ 46)

/-- The resize to one queue pair, acknowledged. -/
def dueChange : PiChange := { code := 0x8001, id := 0, count := 1, due := true }

/-- The port: its transmit queues 0 and 1 hold a descriptor each, at 0 and 0x2000. -/
def duePort : InstSt :=
  { qs := [(1, { en := true, tail := 1, state := 1 }), (3, { en := true, base := 0x2000, stash := 31, tail := 1, state := 1 })]
    change := some dueChange }

/-- Port 3 of partition 0, in NOTICE with two queue pairs; the first GiB maps onto itself. -/
def dueDev : Dev :=
  let d : Dev := { ioTlb := [{ part := 0, ipaPage := 0, physPage := 0, perm := 3, size := 30 }], inst := [(3, duePort)] }
  wrBytes (fset (fset (fset d (PI_CTRL 3) PI_CTRL_STATE PI_NOTICE) (PI_CTRL 3) PI_CTRL_QP_COUNT 2) (MC_STATUS 0) MC_STATUS_CAPACITY 1) 0 (leBytes 8 dueTx.toNat)

/-- The descriptor of queue 0 has been read. -/
def dueRead : Dev := (nextDesc dueDev 3 0 1).2

/-- The addresses of its buffer have been translated. -/
def dueRanged : Dev := (ioRange dueRead 0 (bitsOf dueTx (45, 0)) (bitsOf dueTx (59, 46)) false).2

/-- The request is in flight, and the port ACTIVE for the resize. -/
def dueIssued : Dev := setReqs dueRanged 3 ((inst dueRanged 3).reqs ++ [⟨0, piGen dueRanged 3, dueTx, 0⟩])
def dueActive : Dev := setPiState dueIssued 3 PI_ACTIVE

/-- The receive direction of queue pair 1, which is empty, is disabled. -/
def dueDisabled : Dev := disableQueue dueActive 3 1 0

/-- The descriptor of transmit queue 1 has been read to be aborted, and its slot translated for the completion. -/
def dueAborting : Dev := (readDesc dueDisabled 3 1 1 0).2
def dueSlot : Dev := (ioRange dueAborting 0 0x2000 16 true).2

/-- The completion of the aborted descriptor, and the line of its slot with it. -/
def dueBytes : List Byte := leBytes 8 (nowNs dueAborting) ++ leBytes 8 (abortWord dueAborting 3 1 ⟨0, 0, false⟩).toNat
def dueMerged : Dev := lineMerged (partsTaken dueSlot 25 [(0x2000, 16)]) 0x2000 dueBytes 0x80

theorem nextDesc_dueDev : nextDesc dueDev 3 0 1 = (.desc dueTx 0, dueRead) := Prod.ext (by decide +kernel) (by rw [dueRead])

theorem ioRange_dueRead : ioRange dueRead 0 (bitsOf dueTx (45, 0)) (bitsOf dueTx (59, 46)) false = (some [(0x1000, 64)], dueRanged) :=
  Prod.ext (by decide +kernel) (by rw [dueRanged])

theorem txDescriptor_dueDev : txDescriptor dueDev 3 0 true = resizeNow dueIssued 3 := by
  have hpart : (inst dueRead 3).part = 0 := by decide +kernel
  have hopen : (qdir dueIssued 3 0 1).closing = none := by decide +kernel
  rw [txDescriptor_slow (by decide +kernel) (by decide +kernel) (by decide +kernel) nextDesc_dueDev (by decide) (by decide)
    (by rw [hpart]; exact ioRange_dueRead) (by decide +kernel), ← dueIssued, closeQueue_of_open hopen]

/-- The resize is applied: queue pair 1 goes. -/
theorem resizeNow_dueIssued : (resizeNow dueIssued 3).tags = (abortAll 3 1 1 65536 dueDisabled).tags := by
  have hissued : (inst dueIssued 3).change = some dueChange := by decide +kernel
  have hactive : (inst dueActive 3).change = some dueChange := by decide +kernel
  have hidle : (inst dueIssued 3).reqs.any (fun r => r.gen == piGen dueIssued 3 && decide (dueChange.count ≤ r.qp)) = false := by decide +kernel
  have hcount : qpCount dueActive 3 = dueChange.count + 1 := by decide +kernel
  rw [resizeNow_of_due hissued rfl hidle, ← dueActive, applyChange_resize hactive rfl, applyResize_of_last hcount, answerManager_tags, modInst_tags, fset_tags,
    modInst_tags, disableQueue_tags]
  rfl

/-- The descriptor that the removed queue pair holds completes in its place, with ABORTED. -/
theorem complete_dueAborting : complete dueAborting 3 1 1 (nowNs dueAborting) (abortWord dueAborting 3 1 ⟨0, 0, false⟩) =
    setQdir (toDram dueMerged 0x80) 3 1 1 { qdir (toDram dueMerged 0x80) 3 1 1 with head := 1 } := by
  have hdir : qdir dueAborting 3 1 1 = { en := true, base := 0x2000, stash := 31, tail := 1, state := 1 } := by decide +kernel
  have hpart : (inst dueAborting 3).part = 0 := by decide +kernel
  have hslot : ioRange dueAborting 0 0x2000 16 true = (some [(0x2000, 16)], dueSlot) := Prod.ext (by decide +kernel) (by rw [dueSlot])
  have hlen : dueBytes.length = 16 := by decide +kernel
  have hline : ioWrite (partsTaken dueSlot 25 [(0x2000, 16)]) 0x2000 dueBytes = toDram dueMerged 0x80 := ioWrite_of_line _ (by rw [hlen]; decide)
  rw [complete_written (l := [(0x2000, 16)]) (s1 := dueSlot) (by rw [hdir, hpart]; exact hslot) (by rw [hdir]), ← dueBytes, hdir, hpart]
  have hwritten : ioWriteParts dueSlot 25 0 none [(0x2000, 16)] dueBytes = toDram dueMerged 0x80 := by
    rw [ioWriteParts_one, List.take_of_length_le hlen.le, hline]
  exact congrArg (fun s2 => setQdir s2 3 1 1 { qdir s2 3 1 1 with head := 1 }) hwritten

/-- The slot of the aborted descriptor gets the tag of an untagged write. -/
theorem tagAt_txDescriptor_dueDev : tagAt (txDescriptor dueDev 3 0 true) 0x400 = 0x08 := by
  have hhead : (qdir dueDisabled 3 1 1).head = 0 := by decide +kernel
  have htail : (qdir dueDisabled 3 1 1).tail = 1 := by decide +kernel
  have hdesc : readDesc dueDisabled 3 1 1 0 = (some ⟨0, 0, false⟩, dueAborting) := Prod.ext (by decide +kernel) (by rw [dueAborting])
  obtain ⟨hinst, htags⟩ := toDram_outside dueMerged 0x80
  have hmerged : (qdir dueMerged 3 1 1).tail = 1 := by decide +kernel
  have hempty : (qdir (toDram dueMerged 0x80) 3 1 1).tail = 1 := by rw [qdir, inst_of_inst hinst, ← qdir, hmerged]
  have haborted := abortAll_of_last (by rw [hhead, htail]; decide) (by rw [hhead]; exact hdesc) complete_dueAborting (by rw [qdir_setQdir_same, hempty]) 65535
  have hkept : (txDescriptor dueDev 3 0 true).tags = dueMerged.tags := by
    rw [txDescriptor_dueDev, resizeNow_dueIssued, haborted, setQdir_tags, htags]
  have htagged : tagAt dueMerged 0x400 = 0x08 := by decide +kernel
  rwa [tagAt, hkept, ← tagAt]

/-- Refutes O44: the clause of a transmit descriptor in flight keeps storage. But where a resize is due, the descriptor's visit applies it (R250), and the
descriptors of the removed queue pairs complete with ABORTED in memory (R233): here that of queue pair 1, at 0x2000. -/
theorem not_queuePairsAndResets : ¬ Obligations.QueuePairsAndResets := by
  unfold Obligations.QueuePairsAndResets
  intro h
  obtain ⟨_, htx, _⟩ := h { dev := dueDev } 3 0 0 0
  have hpart : (inst dueDev 3).part = 0 := by decide +kernel
  obtain ⟨hslow, _⟩ := htx dueTx 0 dueRead (.inr (by decide +kernel)) (by decide +kernel) nextDesc_dueDev (by decide) (by decide) (by decide +kernel)
    (by decide +kernel) [(0x1000, 64)] dueRanged (by exact hpart ▸ ioRange_dueRead)
  obtain ⟨d, hexec, _, _, hcores⟩ := hslow (by decide +kernel)
  have hd := dev_of_exec (exec_piTxDescriptor (i := 3) (q := 0) (slow := true) (s := { dev := dueDev }) (by decide +kernel)) hexec
  rw [show (3 : InstId).val = 3 from rfl, show (0 : Fin 1024).val = 0 from rfl] at hd
  have hbefore : tagAt dueDev 0x400 = 0 := by decide +kernel
  obtain ⟨_, _, htags, _⟩ := hcores
  have hafter := htags 0x400
  rw [← hd, tagAt_txDescriptor_dueDev, hbefore] at hafter
  exact absurd hafter (by decide)

end Sys2Proof.Machine
end
